-- ==== Sys2Proof/Word.lean ====
section
/-! DEFINITION. The plain word types of the model: bytes and the unsigned types of Table 4.1, and the two lanes. -/

namespace Sys2Proof

abbrev Byte := BitVec 8
abbrev U8 := BitVec 8
abbrev U16 := BitVec 16
abbrev U32 := BitVec 32
abbrev U64 := BitVec 64

/-- Lane A and Lane B (R8). -/
inductive Lane where
  | a
  | b
  deriving DecidableEq, Repr, Inhabited

/-- The other lane of the pair. -/
def Lane.other : Lane → Lane
  | .a => .b
  | .b => .a

@[simp] theorem Lane.other_other (l : Lane) : l.other.other = l := by cases l <;> rfl
@[simp] theorem Lane.other_ne (l : Lane) : l.other ≠ l := by cases l <;> decide

end Sys2Proof
end

