-- ==== Sys2Proof/Syntax.lean ====
section
/-! DEFINITION. The commands of the block: one constructor of `Instr` for each row of the operation and event table,
with the operands the spec gives the event (which lane, link, bay or channel it concerns, the frame, word or message it
carries, and the physical readings only the outside world can supply). The table gives no fields of its own. -/

namespace Sys2Proof

/-- The monitored rails of Table 2.8. -/
inductive Rail where
  | vcoreA | vcoreB | vcom | vmemA | vmemB | vser | vio | vjct | vmet | vbk
  deriving DecidableEq, Repr, Inhabited

/-- The loops a lane supervises (R134, object 3504:01). -/
inductive LoopId where
  | bay (n : Fin 24)
  | module (j : Fin 96)
  | string (i : Fin 8)
  | slow (j : Fin 15)
  deriving DecidableEq, Repr, Inhabited

/-- A received up-frame (R94, R97, R101): the bytes between SOF and EOF, whether a code or disparity error fell between
them, the fabric cycle of the current period at which EOF arrived, and the SOF arrival in units of 2 ns relative to cycle 0
of the period whose marker TURN refers to. -/
structure RxFrame where
  bytes : List Byte
  codeErr : Bool
  eofCycle : Nat
  sofAt : Nat
  deriving DecidableEq, Repr, Inhabited

/-- The regions of the fast store that the write rule of R10 tells apart. -/
inductive FsRegion where
  | configSets
  | counters
  | eventFlush (owner : Lane)
  | keySlots (owner : Lane)
  deriving DecidableEq, Repr, Inhabited

/-- What the boot steps of Table 3.6 found in one lane: step 2 done, slot images verified at step 4, the staging image readable
at step 3, whether the NAND targets meet Table 20.1 (R390), tiles failing step 5, any other step-5 failure, and whether the
metrology section answered STATUS at step 7. -/
structure BootFacts where
  step2Ok : Bool
  image0Ok : Bool
  image1Ok : Bool
  stagingReadable : Bool
  nandOk : Bool
  failedTiles : List (Fin 10)
  otherFail : Bool
  metroAnswers : Bool
  deriving DecidableEq, Repr, Inhabited

/-- One reading of all die sensors, 0.1 °C (R51): four sensors a lane, one each for the Junction and the metrology die. -/
structure DieTemps where
  laneA : List Int
  laneB : List Int
  junction : Int
  metro : Int
  deriving DecidableEq, Repr, Inhabited

/-- A dictionary request as a UDP datagram carries it (R78). -/
inductive UsdoReq where
  | read (idx : U16) (sub : U8)
  | write (idx : U16) (sub : U8) (data : List Byte)
  deriving DecidableEq, Repr, Inhabited

/-- A UDP dictionary datagram (Table 4.6). -/
structure UdpDatagram where
  source : List Byte
  port : U16
  version : U8
  flags : U8
  seq : U16
  length : U16
  reserved : U16
  req : UsdoReq
  deriving DecidableEq, Repr, Inhabited

/-- Failure causes of a spur link in state UP other than LATCHED (Table 5.10). -/
inductive LinkCause where
  | noFrame | delay | dnerr
  deriving DecidableEq, Repr, Inhabited

/-- The operand fields of a tile instruction word (Table 6.9). -/
structure TileArgs where
  d : BitVec 5
  a : BitVec 5
  b : BitVec 5
  imm : BitVec 11
  deriving DecidableEq, Repr, Inhabited

/-- The operand fields of a policy instruction word (Table 8.5): D, A and the low 16 bits, which hold B and IMM or IMM16. -/
structure PolicyArgs where
  d : BitVec 4
  a : BitVec 4
  low : BitVec 16
  deriving DecidableEq, Repr, Inhabited

/-- The tile memories an uncorrectable error can fall in (R110); a state block is named by its slot. -/
inductive TileMem where
  | instruction | constant
  | state (slot : Fin 16)
  | corrected
  deriving DecidableEq, Repr, Inhabited

/-- A grid-status record (Table 11.4). -/
structure GridStatus where
  seq : U32
  period : U8
  flags : U8
  freq : U16
  pImp : U32
  pExp : U32
  eD : U32
  tLeft : U32
  time : U64
  deriving DecidableEq, Repr, Inhabited

/-- A federation report frame (Table 8.11). -/
structure ReportFrame where
  node : U8
  ver : U8
  flags : U8
  rank : U8
  ack : U16
  weight : U16
  want : U32
  applied : U32
  draw : U32
  deriving DecidableEq, Repr, Inhabited

/-- A federation share frame (Table 8.11). -/
structure ShareFrame where
  ver : U8
  leader : U8
  rank : U8
  round : U16
  entries : List (U8 × U32)
  deriving DecidableEq, Repr, Inhabited

/-- NAND write streams (Table 9.6). -/
inductive Stream where
  | eventArchive | loadProfile | signedBilling | configArchive | firmware
  deriving DecidableEq, Repr, Inhabited

/-- A tap record as it crosses the barrier (Table 1.4), with its CRC and the metrology crystal cycle of its arrival (R18). -/
structure TapRecord where
  crc : U32
  current : BitVec 24
  voltage : BitVec 24
  offset : U16
  serial : U32
  seq : U16
  status : BitVec 3
  alt : Bool
  link : BitVec 6
  period : BitVec 6
  stamp : Nat
  deriving DecidableEq, Repr, Inhabited

/-- One AC energy sample (R223): signed energy in units of 2⁻³² mWh, its length in metrology cycles, the rms current of every used
phase in mA, and the values the section reports: rms voltages A, B, C in 0.01 V, rms currents A, B, C, N in mA, reactive power in
var and apparent power in VA. -/
structure AcSample where
  energy : Int
  cycles : Nat
  usedCurrents : List Nat
  volts : List Nat
  amps : List Nat
  vars : Int
  va : Nat
  deriving DecidableEq, Repr, Inhabited

/-- Voltage events (Table 11.3). -/
inductive VoltEvent where
  | sag | swell | interruption | phaseSequence | missingNeutral
  deriving DecidableEq, Repr, Inhabited

/-- Calibration facts found at a metrology start (R215) or SEAL closing (R238). -/
structure MetroStartFacts where
  copyAOk : Bool
  copyBOk : Bool
  calOk : Bool
  cfgOk : Bool
  deriving DecidableEq, Repr, Inhabited

/-- Values of one barrier TIME message (R219): site or RTC time and the RTC, each with its validity flag. -/
structure TimeMsg where
  time : U64
  timeValid : Bool
  rtc : U64
  rtcValid : Bool
  deriving DecidableEq, Repr, Inhabited

/-- Barrier header of a request (Table 11.8): the requesting lane and the tag echoed in the response. -/
structure BarrierReq where
  lane : Lane
  tag : U16
  deriving DecidableEq, Repr, Inhabited

/-- A sealed configuration item (Table 11.7). -/
inductive SealedItem where
  | wiringMode (v : U8)
  | declaredVoltage (deciVolt : U32)
  | nominalFrequency (hz : U8)
  | ratedCurrent (milliAmp : U32)
  | voltageRatio (bits : U32)
  | currentRatio (bits : U32)
  | dcEntry (ch : Fin 32) (serial : U32) (rated : U16) (starting : U16)
  | pulseOut (out : Fin 4) (source : U16) (q : U32) (w : U16)
  | pulseIn (inp : Fin 4) (use : U8) (weight : U32) (debounce : U16)
  deriving DecidableEq, Repr, Inhabited

/-- A calibration item (Table 11.7): gains in units of 10⁻⁶, offsets in µA, phase in 0.001°. -/
inductive CalItem where
  | acGain (ch : Fin 7) (gain : Int)
  | acOffset (ch : Fin 7) (offset : Int)
  | acPhase (ch : Fin 7) (phase : Int)
  | dcGain (ch : Fin 32) (gv : Int) (gi : Int) (offset : Int)
  deriving DecidableEq, Repr, Inhabited

/-- A legal logbook entry as LOG_COPY carries it (R267). -/
structure LogEntry where
  seq : U32
  time : U64
  code : U16
  channel : U8
  flags : U8
  data : List Byte
  deriving DecidableEq, Repr, Inhabited

/-- A signed record (Table 12.10) before and after signing: the 144 signed bytes and the 96 signature bytes. -/
structure SignedRecord where
  number : U32
  body : List Byte
  signature : List Byte
  deriving DecidableEq, Repr, Inhabited

/-- Where a security detection falls (Table 14.2, R299): which lanes it affects. -/
inductive TamperScope where
  | lane (l : Lane)
  | both
  deriving DecidableEq, Repr, Inhabited

/-- Protocols of R310, in the device's order. -/
inductive Protocol where
  | iso20 | iso2 | din
  deriving DecidableEq, Repr, Inhabited

/-- Vehicle values of a decoded request: maximum current 0.1 A, target current 0.1 A, target voltage 0.1 V, maximum
voltage 0.1 V, maximum power W, and the reported SoC, energy and departure where the vehicle gives them. -/
structure VehicleValues where
  maxCurrent : U16
  targetCurrent : U16
  targetVoltage : U16
  maxVoltage : U16
  maxPower : U32
  soc : Option U8
  energy : U32
  departure : U64
  deriving DecidableEq, Repr, Inhabited

/-- Timers of Table 15.6. -/
inductive SessionTimer where
  | slac | setup | authorization | sequence | precharge | loopSilence
  deriving DecidableEq, Repr, Inhabited

/-- Authorization facts of an AuthorizationReq (R312): whether a contract certificate is presented, whether the chain and the
vehicle's signature verify, and the eMAID it carries. -/
structure AuthRequest where
  pnc : Bool
  chainOk : Bool
  signatureOk : Bool
  emaid : List Byte
  deriving DecidableEq, Repr, Inhabited

/-- A CAN frame (R324, R325). -/
structure CanFrame where
  ident : BitVec 29
  extended : Bool
  fd : Bool
  brs : Bool
  esi : Bool
  remote : Bool
  dlc : BitVec 4
  data : List Byte
  deriving DecidableEq, Repr, Inhabited

/-- What woke a sleeping channel (R341). -/
inductive WakeKind where
  | edge
  | frame (f : CanFrame)
  | frameError
  deriving DecidableEq, Repr, Inhabited

/-- A reference message (Table 16.7). -/
structure RefMsg where
  cycle : BitVec 5
  ptp : Bool
  master : U8
  matrix : U16
  time : U64
  deriving DecidableEq, Repr, Inhabited

/-- A Trievo frame's control fields and payload (Table 17.2). -/
structure TrievoFrame where
  fcOk : Bool
  ver : BitVec 2
  ftype : BitVec 4
  src : U8
  dst : U8
  rob : Bool
  ackReq : Bool
  seq : BitVec 4
  relay : Bool
  payload : List Byte
  crcOk : Bool
  snr : U8
  ackSnr : U8
  deriving DecidableEq, Repr, Inhabited

/-- A key update message (Table 18.4) as written to object 2401:01. -/
structure KeyMsg where
  version : U8
  op : U8
  length : U16
  reserved : U32
  deviceId : List Byte
  counter : U64
  path : U32
  algorithm : U8
  usage : U8
  reserved2 : U16
  body : List Byte
  signature : List Byte
  deriving DecidableEq, Repr, Inhabited

/-- A keystore request (R365, R366): the lane, the queue (high is queue 94), the slot path, and the data. -/
structure KeyReq where
  lane : Lane
  high : Bool
  path : U32
  algorithm : U8
  data : List Byte
  deriving DecidableEq, Repr, Inhabited

/-- A NAND request on one of the queues 100–107 (R392). -/
inductive NandOp where
  | read (block page : Nat)
  | program (block page : Nat) (data : List Byte)
  | erase (block : Nat)
  deriving DecidableEq, Repr, Inhabited

/-- How the target answers a NAND request: bits in error found in the worst sector at each read level, and the program or
erase status (R393–R395). -/
structure NandAnswer where
  statusFail : Bool
  errorBits : List Nat
  deriving DecidableEq, Repr, Inhabited

/-- A service-port command (Table 20.3) with its data. -/
structure ServiceCmd where
  buffer : Fin 2
  offset : U32
  length : U32
  crc : U32
  data : List Byte
  nandOk : Bool
  deriving DecidableEq, Repr, Inhabited

/-- The commands of the block. -/
inductive Instr where
  -- time base, frames, lanes (chapters 1, 5, 6, 13)
  | periodBoundary
  | upFrameReceived (l : Lane) (link : Fin 64) (f : RxFrame)
  | frameBankClose (l : Lane)
  | accumulatorTake (l : Lane)
  | slotStart (l : Lane) (t : Fin 10) (slot : Fin 16)
  | slotWriteback (l : Lane) (t : Fin 10)
  | outputLatch (l : Lane)
  | digestEntrySend (l : Lane) (canary : U16)
  | alignmentMarkerReceived (offset : Int)
  | queueEnqueue (l : Lane) (q : Fin 128) (entry : U64)
  | queueDequeue (l : Lane) (q : Fin 128)
  | queueRetire (l : Lane) (q : Fin 128)
  | fastStoreWrite (l : Lane) (region : FsRegion) (row : Nat) (data : List Byte) (rowFails : Bool)
  -- supplies, clocks, reset, boot (chapters 2, 3, 14)
  | railFault (r : Rail) (overVoltage : Bool)
  | railRecovered (r : Rail)
  | railShortExcursion (r : Rail)
  | resetPin (micros : Nat)
  | resetRelease
  | junctionBoot (romOk : Bool) (crystalOk : Bool)
  | laneBoot (l : Lane) (facts : BootFacts)
  | activeLaneAppoint
  | laneBootTimeout (l : Lane)
  | laneWatchdogExpiry (l : Lane)
  | powerFailWarning
  | powerFailEnd
  | powerFailSafeExit
  | junctionCrystalLost
  | metrologyCrystalLost
  | metrologyCrystalReturn
  | backupCrystalLost
  | dieTempReading (t : DieTemps)
  | railFaultLatchClear (mask : U16)
  -- modes (chapter 3)
  | modeRequestWrite (v : U8)
  | modeRequestTaken
  | resetRequest (v : U32)
  | safeEntry (cause : U8)
  | safeRampEnd
  | safeNAssert
  | resetCauseClear (mask : U16)
  -- dictionary and configuration sets (chapter 4)
  | objectWrite (idx : U16) (sub : U8) (data : List Byte)
  | liveWrite (idx : U16) (sub : U8) (data : List Byte)
  | usdoTimeout (session : Fin 4)
  | udpDatagramReceived (d : UdpDatagram)
  | nmtStart
  | nmtStop
  | nmtEnterPreoperational
  | nmtResetCommunication
  | heartbeatProduce
  | rpdoReceived (n : Fin 16) (data : List Byte)
  | tpdoEvent (n : Fin 16) (chan : Fin 4)
  | liveWritePublish
  | shadowCommit
  | commitChecksComplete
  | shadowReopen
  | shadowSwap
  | shadowReload
  | swapTaken
  | swapReadyReport
  | swapFlip
  | setCopyComplete
  | setFlagsClear (mask : U8)
  -- spur links (chapter 5)
  | linkSyncAcquired (l : Lane) (link : Fin 64)
  | linkSyncLost (l : Lane) (link : Fin 64)
  | linkUp (l : Lane) (link : Fin 64)
  | linkFail (l : Lane) (link : Fin 64) (cause : LinkCause)
  | linkFailRetryExpiry (l : Lane) (link : Fin 64)
  | seqAdopt (l : Lane) (link : Fin 64)
  -- tile instructions (chapter 6)
  | tileNop (l : Lane) (t : Fin 10) (w : TileArgs)
  | tileLdp (l : Lane) (t : Fin 10) (w : TileArgs)
  | tileLdk (l : Lane) (t : Fin 10) (w : TileArgs)
  | tileMov (l : Lane) (t : Fin 10) (w : TileArgs)
  | tileSto (l : Lane) (t : Fin 10) (w : TileArgs)
  | tileAdd (l : Lane) (t : Fin 10) (w : TileArgs)
  | tileSub (l : Lane) (t : Fin 10) (w : TileArgs)
  | tileMul (l : Lane) (t : Fin 10) (w : TileArgs)
  | tileMac (l : Lane) (t : Fin 10) (w : TileArgs)
  | tileClp (l : Lane) (t : Fin 10) (w : TileArgs)
  | tileRnm (l : Lane) (t : Fin 10) (w : TileArgs)
  | tileInt (l : Lane) (t : Fin 10) (w : TileArgs)
  | tileDrv (l : Lane) (t : Fin 10) (w : TileArgs)
  | tileFlt (l : Lane) (t : Fin 10) (w : TileArgs)
  | tileSel (l : Lane) (t : Fin 10) (w : TileArgs)
  | tileCmp (l : Lane) (t : Fin 10) (w : TileArgs)
  | tileRmp (l : Lane) (t : Fin 10) (w : TileArgs)
  | tileTsi (l : Lane) (t : Fin 10) (w : TileArgs)
  | tileCap (l : Lane) (t : Fin 10) (w : TileArgs)
  | tileChk (l : Lane) (t : Fin 10) (w : TileArgs)
  | tileEccError (l : Lane) (t : Fin 10) (m : TileMem)
  | captureArm
  | captureForceTrigger
  | captureStop
  | captureTrigger
  | captureComplete
  -- loop services (chapter 7)
  | loopEnable (loop : LoopId)
  | loopDisable (loop : LoopId)
  | loopFaultReset (loop : LoopId)
  | loopCommandTaken
  | loopBlockEnable (l : Lane) (loop : LoopId) (enable : Bool)
  | loopStopTimeout (l : Lane) (loop : LoopId)
  | faultRampEnd (l : Lane) (loop : LoopId)
  | injectionArm
  | injectionStop
  | injectionStart
  | injectionComplete (cause : Option U8)
  -- share engine (chapter 8)
  | shareRunStart (l : Lane)
  | shareApply (l : Lane)
  | shareIncreaseApply (l : Lane)
  | policyNop (l : Lane) (w : PolicyArgs)
  | policyLdi (l : Lane) (w : PolicyArgs)
  | policyLdk (l : Lane) (w : PolicyArgs)
  | policyLkh (l : Lane) (w : PolicyArgs)
  | policyAdd (l : Lane) (w : PolicyArgs)
  | policySub (l : Lane) (w : PolicyArgs)
  | policyMul (l : Lane) (w : PolicyArgs)
  | policyDiv (l : Lane) (w : PolicyArgs)
  | policyMin (l : Lane) (w : PolicyArgs)
  | policyMax (l : Lane) (w : PolicyArgs)
  | policyCmp (l : Lane) (w : PolicyArgs)
  | policySel (l : Lane) (w : PolicyArgs)
  | policyOut (l : Lane) (w : PolicyArgs)
  | stringContactorHoldExpiry (l : Lane) (str : Fin 8)
  | gridStatusReceived (l : Lane) (g : GridStatus)
  | gridStatusStale (l : Lane)
  | federationShareSend
  | federationReportSend
  | federationShareReceived (f : ShareFrame)
  | federationReportReceived (f : ReportFrame)
  | federationFallback
  | leaderTakeover
  -- Waypoint (chapter 9)
  | reassessment (l : Lane)
  | moveStepAdvance (l : Lane) (j : Fin 96)
  | moveStepTimeout (l : Lane) (j : Fin 96)
  | moveRampUp (l : Lane) (j : Fin 96)
  | moduleTakeover (l : Lane) (j : Fin 96)
  | thetaWindowClose (l : Lane) (j : Fin 96)
  | tileRelief (l : Lane) (t : Fin 10)
  | spareTileTakeover (l : Lane)
  | rotatingTileTest (l : Lane) (t : Fin 10)
  | tileTestComplete (l : Lane) (t : Fin 10) (pass : Bool)
  | nandBlockAllocate (st : Stream)
  | nandStaticRelocation
  -- thermal model (chapter 10)
  | thermalUpdate (l : Lane)
  | thermalPublish (l : Lane)
  | sensorRelease (v : U32)
  -- metrology section (chapters 11, 12)
  | metrologyVmetWarning
  | metrologyStart (facts : MetroStartFacts)
  | powerFailMilestone
  | milestone (commitOk : Bool)
  | acEnergySample (x : AcSample)
  | voltageEventStart (k : VoltEvent) (phases : BitVec 3)
  | voltageEventEnd (k : VoltEvent) (tenMs : U32) (value : U16)
  | gridStatusSend (meanPower : Int) (freq : U16)
  | tapRecordReceived (r : TapRecord)
  | pulseOutputEdge (out : Fin 4)
  | pulseInputCount (inp : Fin 4)
  | reconciliation (inp : Fin 4)
  | sealOpen
  | sealClose (facts : MetroStartFacts)
  | barrierStatus (q : BarrierReq)
  | barrierRead (q : BarrierReq) (milestone : U64) (block : U16)
  | signedRecordRead (q : BarrierReq) (milestone : U64)
  | barrierLogRead (q : BarrierReq) (area : U8) (count : U8) (first : U32)
  | barrierTime (q : BarrierReq) (m : TimeMsg)
  | barrierSessionOpen (q : BarrierReq) (commissioning : Bool) (ch : U8) (account : U16) (sid : U32)
  | barrierSessionClose (q : BarrierReq) (ch : U8) (sid : U32)
  | barrierCalendar (q : BarrierReq) (segment : U8) (last : Bool) (data : List Byte)
  | barrierCalWrite (q : BarrierReq) (item : CalItem)
  | barrierConfigWrite (q : BarrierReq) (item : SealedItem)
  | barrierPqWrite (q : BarrierReq) (sag swell interruption hysteresis u0 : U16)
  | barrierImage (q : BarrierReq) (segment : U16) (last : Bool) (data : List Byte)
  | barrierKey (q : BarrierReq)
  | barrierTamper (q : BarrierReq) (latches : BitVec 4) (pfTime : U64) (pfValid : Bool)
  | milestoneReceived (l : Lane) (number : U64) (legal : U64) (crc : U32)
  | snapshotPublish (l : Lane)
  | snapshotAbandon (l : Lane)
  | logCopyReceived (l : Lane) (e : LogEntry)
  | signedReceived (l : Lane) (r : SignedRecord)
  -- twin lanes and the Junction (chapter 13)
  | junctionVerdict (psA psB : Nat)
  | verdictTakeEffect
  | crossoverOutputEnable
  | plannedCrossoverRequest (v : U8)
  | plannedCrossoverTaken
  | plannedCrossover
  | releaseExcludedLane (v : U8)
  | failedLaneRelease (l : Lane)
  | resyncJoinNamed
  | snapshotSlowCapture
  | resyncJoin
  | resyncComplete
  | memoryMarchBlock (l : Lane) (ok : Bool)
  | receiverLoopTest (l : Lane) (link : Fin 64) (ok : Bool)
  | junctionRestart
  | junctionRomCheck (ok : Bool)
  -- backup domain, tamper (chapter 14)
  | rtcSiteTimeCompare
  | rtcAlarm
  | rtcWrite (v : U64)
  | pfiWake
  | tamperInputLatch (inp : Fin 4)
  | tamperHandover
  | tamperLatchClear (mask : U8)
  | securityTamper (cls : Fin 3) (scope : TamperScope)
  -- vehicle links (chapter 15)
  | pilotStateAccepted (n : Fin 24) (code : U8)
  | plugDetected (n : Fin 24)
  | pilotX2Start (n : Fin 24)
  | cmSlacParmReq (n : Fin 24)
  | cmStartAttenChar (n : Fin 24)
  | cmSlacMatch (n : Fin 24)
  | cmValidateReq (n : Fin 24)
  | seccDiscoveryReq (n : Fin 24)
  | supportedAppProtocolReq (n : Fin 24) (offered : List Protocol)
  | sessionSetupReq (n : Fin 24)
  | authorizationReq (n : Fin 24) (r : AuthRequest)
  | sessionStart (n : Fin 24)
  | chargeParameterDiscoveryReq (n : Fin 24) (v : VehicleValues)
  | cableCheckPass (n : Fin 24)
  | prechargeReq (n : Fin 24) (v : VehicleValues)
  | chargeLoopReq (n : Fin 24) (v : VehicleValues)
  | vehicleStopRequest (n : Fin 24)
  | hostAuthorizationWrite (n : Fin 24) (v : U8)
  | isolationStateWrite (n : Fin 24) (v : U8)
  | isolationStale (n : Fin 24)
  | sessionTimeout (n : Fin 24) (t : SessionTimer)
  | thermalHoldExpiry (n : Fin 24)
  | sessionEnd (n : Fin 24) (cause : U8)
  | sessionEnded (n : Fin 24)
  | sessionIdle (n : Fin 24)
  | bridgePeerGone (n : Fin 24)
  -- site bus (chapter 16)
  | canFrameReceived (c : Fin 4) (f : CanFrame)
  | canFrameSent (c : Fin 4) (ok : Bool)
  | canFrameCancel (c : Fin 4) (q : Fin 4) (pos : Nat) (started : Bool)
  | canBusOff (c : Fin 4)
  | canBusOffRecovery (c : Fin 4)
  | channelSleep (c : Fin 4)
  | channelWakeCommand (c : Fin 4)
  | channelRestart (c : Fin 4)
  | channelWake (c : Fin 4) (k : WakeKind)
  | wakeD
  | referenceMessageSend (c : Fin 4)
  | referenceMessageReceived (c : Fin 4) (m : RefMsg)
  | scheduleLost (c : Fin 4)
  | exclusiveWindowStart (c : Fin 4) (column : Nat)
  | windowEnd (c : Fin 4)
  | ptpSyncReceived (time : U64) (offsetNs : Int)
  | ptpAnnounceReceived (identity : U64) (rank : List Nat)
  | ptpDelayResp (delayNs : U32)
  | ptpLockLost
  -- Trievo (chapter 17)
  | beaconSend
  | trievoFrameSend (slot : Fin 192)
  | trievoDataReceived (f : TrievoFrame)
  | trievoAckReceived (f : TrievoFrame)
  | trievoAssocReqReceived (f : TrievoFrame)
  | trievoStatusReceived (f : TrievoFrame)
  | ackTimeout
  | phaseLearning (addr : U8) (acks : List (Option U8))
  | peerLost (addr : U8)
  | mailboxTransmit (data : List Byte)
  | mailboxReceiveRead
  -- keystore (chapter 18)
  | keyInstall (m : KeyMsg)
  | keyReplace (m : KeyMsg)
  | keyInvalidate (m : KeyMsg)
  | ownerAuthorityReplace (m : KeyMsg)
  | lifeCycleChange (m : KeyMsg)
  | keyGenerate (m : KeyMsg)
  | keyStatement
  | certificationRequest
  | keystoreSign (r : KeyReq)
  | keystoreVerify (r : KeyReq) (signature : List Byte)
  | keystoreKeyAgreement (r : KeyReq)
  | keystoreEncrypt (r : KeyReq)
  | keystoreDecrypt (r : KeyReq)
  | keystoreWrap (r : KeyReq)
  | keystoreDerive (r : KeyReq) (child : U32)
  | keystoreHash (r : KeyReq)
  | keyReplicationReceived (envelopeOk : Bool)
  -- event recorder (chapter 19)
  | eventWrite (l : Lane)
  | eventFlush (l : Lane)
  | eventArchive
  | eventRead
  | eventClear (v : U8)
  -- storage and update (chapter 20)
  | nandRequest (q : Fin 8) (op : NandOp) (ans : NandAnswer)
  | readDisturbRefresh (block : Nat)
  | scrubPage (block : Nat) (worstBits : Nat) (ageDays : Nat)
  | loadProfileWrite
  | vbusAttach
  | serviceOpen (c : ServiceCmd)
  | serviceData (c : ServiceCmd)
  | serviceClose (c : ServiceCmd)
  | serviceStatus (c : ServiceCmd)
  | serviceErase (c : ServiceCmd)
  | activationRolling
  | activationFullRestart
  | activationAbort
  | rollingSequenceAdvance
  | hostConfirm (v : U8)
  | healthConfirm (l : Lane)
  | unconfirmedTimeout (l : Lane)
  | backupEntry
  | plugLost (n : Fin 24)
  | protocolError (n : Fin 24)
  | barrierMessageError (q : BarrierReq) (unknownOp : Bool)
  | ptpHoldoverExpiry
  | vbusDetach
  deriving DecidableEq, Repr, Inhabited

end Sys2Proof
end

