-- ==== Sys2Proof/Decode.lean ====
section
/-! DEFINITION. The command that a word of the operation and event table spells. The table gives its 302 rows no bits
(every row's list of fields is empty), so no word spells a command. -/

namespace Sys2Proof

/-- The command of the row whose table bits are w: none, since no row of the table has bits. -/
def decodeTableWord (_nbits _w : Nat) : Option Instr := none

end Sys2Proof
end

