-- ==== Sys2Proof/Machine/State.lean ====
section
/-! DEFINITION. The state of the block as plain data: every register, memory, counter, mode and pin the spec gives the
device, unit by unit. Each field's docstring gives its width, the chapter and rule that name it, and its reset value;
a reset value the spec does not state carries the number of the log entry that names it. -/

namespace Sys2Proof.Machine

/-! ## Names -/

/-- Major modes (R54, Table 3.1). -/
inductive Mode where
  | boot | commission | idle | run | degraded | safe | service | backup
  deriving DecidableEq, Repr, Inhabited

/-- Level of an output ball. -/
inductive PinLevel where
  | low | high | hiZ
  deriving DecidableEq, Repr, Inhabited

/-- Lane roles (R271, Table 13.1). -/
inductive Role where
  | booting | active | standby | shadowing | failed | excluded
  deriving DecidableEq, Repr, Inhabited

/-- Spur-link states (R104, Table 5.9). -/
inductive LinkSt where
  | down | sync | acquire | up | failed
  deriving DecidableEq, Repr, Inhabited

/-- Loop states (R134, Table 7.1). -/
inductive LoopSt where
  | off | start | run | stop | ramp | fault
  deriving DecidableEq, Repr, Inhabited

/-- Tile roles (R109, Table 6.17). -/
inductive TileRole where
  | fast | slow | spare | underTest | retired
  deriving DecidableEq, Repr, Inhabited

/-- Module states (R178, Table 9.1). -/
inductive ModSt where
  | notConfigured | free | serving | moving | spare | retired | withdrawn
  deriving DecidableEq, Repr, Inhabited

/-- Thermal sensor states (R203, Table 10.4). -/
inductive SensorSt where
  | valid | unavailable | failing | quarantined
  deriving DecidableEq, Repr, Inhabited

/-- Metrology states (R215, Table 11.1). -/
inductive MetroSt where
  | start | ready | noCal | halted
  deriving DecidableEq, Repr, Inhabited

/-- Vehicle session states (R313, Table 15.4). -/
inductive SessSt where
  | idle | attached | slac | setup | authorizing | parameters | precharge | charging | stopping | ended | faultWait
  deriving DecidableEq, Repr, Inhabited

/-- Pilot output of CP_OUT (R303, R307): X1, X2, F, low in mode 0, or high impedance while RESET_N is low and in BOOT. -/
inductive PilotOut where
  | x1 | x2 | f | low | hiZ
  deriving DecidableEq, Repr, Inhabited

/-- Site-bus channel states (object 3820:01). -/
inductive ChanSt where
  | off | integrating | errorActive | errorPassive | busOff | latchedOff | sleep | listenOnly
  deriving DecidableEq, Repr, Inhabited

/-- Schedule states (object 3820:0B). -/
inductive SchedSt where
  | eventTriggered | following | master | lost
  deriving DecidableEq, Repr, Inhabited

/-- NMT states (R76). -/
inductive NmtSt where
  | initialisation | preOperational | operational | stopped
  deriving DecidableEq, Repr, Inhabited

/-- Shadow-set states (R81). -/
inductive ShadowSt where
  | opened | committed | swapPending | copying
  deriving DecidableEq, Repr, Inhabited

/-- Update-sequence states (object 2510:03). -/
inductive SeqSt where
  | none | firstLane | crossover | secondLane | fullRestart | complete | aborted
  deriving DecidableEq, Repr, Inhabited

/-- Who an event record is about (R380, Table 19.3) and what the spec calls the event; the catalogue's NUMBER and SEV for it
are not in the spec (Config). -/
inductive EventKind where
  | modeChange | resetCause | detour | imageRejected | configLoad
  | refusedWrite | liveCellFallback | setDefaults | fastStoreError
  | railFault | dieWarn | dieAbove110 | sensorExcluded | lowSpare
  | linkState | linkFailed | seqAdopted
  | loopFault | loopEnableIgnored | loopCommandSuperseded | satRun | tilePlausibility | queueCredit
  | shareFallback | accountDisabled | leaderChange
  | moduleRetired | moduleStuck | moveAbandoned | tileRetired
  | sensorQuarantined | thermalLevel
  | logCopy
  | crossover | verdict | junctionLost | resync | tileTest | receiverFailed | memoryError
  | rtcStep | rtcAlarm | powerFail | tamperLatch | securityTamper
  | sessionState | protocolError
  | busOff | channelWake
  | finalFailure | peerState
  | keyErased | keyUpdate
  | recorderClear
  | nandFailure | nandTarget | loadProfileLost | activation
  deriving DecidableEq, Repr, Inhabited

/-! ## Block floating point (R121) -/

/-- A stage: 8 mantissas of 20 bits, a 6-bit exponent, the invalid flag (R121, R126). -/
structure Stage where
  m : List (BitVec 20)
  e : BitVec 6
  inv : Bool
  deriving DecidableEq, Repr, Inhabited

/-- An accumulator: 8 elements of 48 bits, a 7-bit exponent, the invalid flag (R121, R126). -/
structure Acc where
  a : List (BitVec 48)
  x : BitVec 7
  inv : Bool
  deriving DecidableEq, Repr, Inhabited

/-- A relay cell: one block floating-point value with its invalid flag (R120). -/
structure Cell where
  m : BitVec 20
  e : BitVec 6
  inv : Bool
  deriving DecidableEq, Repr, Inhabited

/-- A value at an input port: m × 2^e with its invalid flag (R115, R116, R118). -/
structure PortVal where
  m : Int
  e : Int
  inv : Bool
  deriving DecidableEq, Repr, Inhabited

/-- What an output port holds for commit (R119, R125): a frame word or a relay-cell value. -/
inductive OutVal where
  | word (w : BitVec 24)
  | cell (c : Cell)
  deriving DecidableEq, Repr, Inhabited

/-- The persistent registers of a loop's state block (Table 6.20); the loop-service bytes are held with the loop. -/
structure StateBlock where
  /-- 8 stages | 06 R110 | cleared to zero -/
  p : List Stage
  /-- 4 accumulators | 06 R110 | cleared to zero -/
  q : List Acc
  /-- uncorrectable error mark | 06 R110, 09 R189 | clear -/
  bad : Bool
  deriving DecidableEq, Repr, Inhabited

/-- The registers of the slot a tile is running (R111, R130). -/
structure TileRun where
  slot : Nat
  loop : Option LoopId
  /-- the loop is in its START period (R131, R137) -/
  isStart : Bool
  v : List Stage
  p : List Stage
  q : List Acc
  a : List Acc
  masks : List (BitVec 8)
  inPorts : List PortVal
  outPorts : List (Option OutVal)
  /-- port kinds of the 8 output ports, codes of Table 6.3 -/
  outCodes : List U16
  /-- constants of the reel, for a bay the voltage-loop reel's then the current-loop reel's -/
  consts : List U32
  /-- instructions and constants of a bay's voltage-loop reel; 0 otherwise (R113) -/
  firstIns : Nat
  firstK : Nat
  flagInv : Bool
  flagSat : Bool
  flagMis : Bool
  /-- instructions executed -/
  icount : Nat
  /-- first period of OFF: no instruction runs and 0 is committed (Table 7.1) -/
  zero : Bool
  deriving DecidableEq, Repr, Inhabited

/-- A control tile (R109, R110). -/
structure Tile where
  /-- 3 bits | 06 R109 | tiles 0-7 fast, 8 slow, 9 spare -/
  role : TileRole
  /-- 16 slots, the loop placed in each | 09 R188 | empty -/
  slots : List (Option LoopId)
  /-- 16 x 384 bytes | 06 R110 | zero (DESIGN CHOICE, log 2) -/
  blocks : List StateBlock
  /-- 2 banks x 16 x 640 words | 06 R110 | empty (DESIGN CHOICE, log 2) -/
  instrBanks : List (List (List U32))
  /-- 2 banks x 16 x 256 words | 06 R110 | empty (DESIGN CHOICE, log 2) -/
  constBanks : List (List (List U32))
  /-- 1 bit, the bank in service | 06 R129 | 0 (DESIGN CHOICE, log 2) -/
  bank : Bool
  /-- registers of the slot being run | 06 R111 | none -/
  running : Option TileRun
  /-- 32 bits, objects 3510+t:05/06 | 06 R133 | 0 -/
  corrected : U32
  /-- tile fault reported in this period | 09 R189 | clear -/
  fault : Bool
  /-- relieved in this period: it runs no slot | 09 R189 | clear -/
  relieved : Bool
  deriving DecidableEq, Repr, Inhabited

/-! ## Frames and links -/

/-- One link slot of a frame-store bank (R13, R14). -/
structure FrameSlot where
  /-- 3 bits, Table 1.2 | 01 R14 | MISSING -/
  status : BitVec 3
  /-- the up-frame's words, 24 bits each | 05 R96 | none -/
  words : List (BitVec 24)
  /-- COUNT of the frame | 05 R94 | 0 -/
  count : Nat
  /-- SERIAL | 05 R94 | 0 -/
  serial : U32
  /-- SEQ | 05 R94 | 0 -/
  seq : U16
  /-- OFFSET | 05 R94 | 0 -/
  offset : U16
  /-- a frame was used for this window (R97) -/
  filled : Bool
  deriving DecidableEq, Repr, Inhabited

/-- A spur link as one lane's receiver tracks it (R93, R97-R105, R411). -/
structure Link where
  /-- character synchronisation | 05 R93 | none -/
  synced : Bool
  /-- 3 bits, object 3650+n:01 | 05 R104 | DOWN -/
  st : LinkSt
  /-- failed and latched | 05 R104 | clear -/
  latched : Bool
  /-- down-frames carry ACQ = 1 | 05 R104 | set -/
  acq : Bool
  /-- consecutive ACQUIRE periods with a CRC-correct frame | 05 R104 | 0 -/
  acqCount : Nat
  /-- a CRC-correct frame arrived in this period | 05 R104 | clear -/
  acqSeen : Bool
  /-- the next window decides UP | 05 R104 | clear -/
  acqDone : Bool
  /-- holding buffer | 01 R13 | empty -/
  hold : Option RxFrame
  /-- a frame completed in the window of the running period | 05 R97 | clear -/
  got : Bool
  /-- a frame completed in the window of the next period | 05 R97 | clear -/
  gotNext : Bool
  /-- 16 bits, expected SEQ | 05 R98 | 0 (DESIGN CHOICE, log 2) -/
  expSeq : U16
  /-- run of in-order but unexpected SEQ values | 05 R98 | 0 -/
  seqRun : Nat
  /-- last SEQ seen in that run | 05 R98 | 0 -/
  seqLast : U16
  /-- consecutive periods not VALID | 05 R104 | 0 -/
  badRun : Nat
  /-- consecutive periods with the half round trip more than 20 ns from d | 05 R102 | 0 -/
  delayRun : Nat
  /-- half round trip of each of the last 64 periods, ns, newest first, none in a period without a frame | 05 R101 | none -/
  delays : List (Option Int)
  /-- 16 bits, d in ns, object 3650+n:04 | 05 R101 | 0 (DESIGN CHOICE, log 2) -/
  d : U16
  /-- periods since entry into FAILED | 05 R104 | 0 -/
  failedFor : Nat
  /-- times (ns) of failures within 60 s | 05 R104 | none -/
  failTimes : List Nat
  /-- failed with cause SYNC and not yet UP again | 05 R411 | clear -/
  syncFailed : Bool
  /-- 3 bits, object 3650+n:02 | 05 R108 | 1 -/
  lastStatus : BitVec 3
  /-- 32 bits, object 3650+n:03 | 05 R99 | 0 -/
  serial : U32
  /-- 16 bits, object 3650+n:05 | 05 R108 | 0 (DESIGN CHOICE, log 2) -/
  lastOffset : U16
  /-- 32 bits, object 3650+n:06 | 05 R108 | 0 -/
  cValid : U32
  /-- 32 bits, object 3650+n:07 | 05 R108 | 0 -/
  cMissing : U32
  /-- 32 bits, object 3650+n:08 | 05 R108 | 0 -/
  cLate : U32
  /-- 32 bits, object 3650+n:09 | 05 R108 | 0 -/
  cCrc : U32
  /-- 32 bits, object 3650+n:0A | 05 R108 | 0 -/
  cType : U32
  /-- 32 bits, object 3650+n:0B | 05 R108 | 0 -/
  cSeq : U32
  /-- 32 bits, object 3650+n:0C | 05 R108 | 0 -/
  cOffset : U32
  /-- 8 bits, object 3650+n:0D | 05 R104 | 0 -/
  cause : U8
  /-- 32 bits, object 3650+n:0E | 05 R108 | 0 -/
  failures : U32
  /-- last VALID value of each word, 0x800000 where a measurement word has had none | 01 R15, 05 R96, R97 | none -/
  lastWords : List (BitVec 24)
  /-- reaction of Table 5.11 in force | 05 R105 | clear -/
  reacting : Bool
  /-- the reaction begins at the next period boundary | 05 R105 | clear -/
  reactDue : Bool
  deriving DecidableEq, Repr, Inhabited

/-! ## Loop services -/

/-- An override ramp of Table 7.4 reaction 1 or of Table 5.11 (bay head) on one set-point word. -/
structure OvRamp where
  link : Nat
  word : Nat
  s0 : Int
  n : Nat
  deriving DecidableEq, Repr, Inhabited

/-- A loop with its service state (R134-R147; the loop word of R281). -/
structure Loop where
  /-- 3 bits | 07 R134 | OFF -/
  st : LoopSt
  /-- state that takes effect at cycle 0 of the next period | 07 R134 | none -/
  nextSt : Option LoopSt
  /-- state at cycle 0 of the running period | 07 R147 | OFF -/
  atStart : LoopSt
  /-- a disable request arrived in the running period | 07 R147 | clear -/
  disNow : Bool
  /-- 8 bits, mismatch count c | 07 R142 | 0 -/
  count : U8
  /-- 4 bits | 07 R154 | 0 -/
  cause : BitVec 4
  /-- START repeats | 07 R138 | 0 -/
  repeats : Nat
  /-- periods (slow: executions) since the last START period, saturating at 4,095 | 07 R142, 13 R281 | 0 -/
  hold : Nat
  /-- flags of the last period | 07 R154 | 0 -/
  inv : Bool
  /-- flags of the last period | 07 R154 | 0 -/
  sat : Bool
  /-- flags of the last period | 07 R154 | 0 -/
  mis : Bool
  /-- the slot ran in this period | 06 R111, R114 | clear -/
  ran : Bool
  /-- consecutive periods with SAT | 07 R143 | 0 -/
  satRun : Nat
  /-- consecutive periods with the controlled quantity VALID and below 5 A | 07 R140 | 0 -/
  offRun : Nat
  /-- periods spent in STOP | 07 R140 | 0 -/
  stopFor : Nat
  /-- zero still to be committed once after OFF | 07 R134 | clear -/
  zeroDue : Bool
  /-- SAFE ramp step substituted for STEP or SSTEP | 07 R141 | 0 -/
  rampStep : PortVal
  /-- override ramps in progress | 07 R144 | none -/
  override : List OvRamp
  /-- kept last VALID value of each input port | 06 R118 | 0 -/
  kept : List (BitVec 24)
  /-- tile and slot | 09 R188 | none -/
  place : Option (Nat × Nat)
  /-- unplaced after the loss of a tile | 09 R191 | clear -/
  unplaced : Bool
  /-- an injection runs on this loop | 07 R154 | clear -/
  inj : Bool
  /-- P0 of the loop at the end of the last period | 07 R141 | zero -/
  lastP0 : PortVal
  /-- period of the last entry into FAULT with cause 1 | 07 R145 | none -/
  faultAt : Option Nat
  /-- periods of holdoff left after an injection | 07 R153 | 0 -/
  injHold : Nat
  deriving DecidableEq, Repr, Inhabited

/-- Capture control and buffers (R132, objects 3504, 3505); both lanes capture identically. -/
structure Capture where
  /-- 8 bits, object 3504:03 | 06 R133 | 0 -/
  st : U8
  /-- period of the trigger, object 3504:09 | 06 R133 | 0 -/
  trigPeriod : U64
  /-- the capture has triggered | 06 R132 | clear -/
  triggered : Bool
  /-- 4 channels of stored REAL32 samples, oldest first | 06 R132 | empty -/
  bufs : List (List U32)
  /-- the sample each channel takes in this period | 06 R132 | none -/
  samples : List (Option U32)
  /-- previous stored value of channel 0 | 06 R133 | none -/
  prev0 : Option U32
  /-- latest value of channel 0 | 06 R133 | none -/
  last0 : Option U32
  /-- periods since the last stored sample | 06 R133 | 0 -/
  skip : Nat
  deriving DecidableEq, Repr, Inhabited

/-- Injection control and generator (R148-R153, objects 3506, 3508). -/
structure Injection where
  /-- 8 bits, object 3506:0D | 07 R154 | 0 -/
  st : U8
  /-- 8 bits, object 3506:0E | 07 R154 | 0 -/
  cause : U8
  /-- 64 bits, object 3506:0F | 07 R154 | 0 -/
  startPeriod : U64
  /-- loop, point, element, generator and parameters as taken at the arm | 07 R149 | none -/
  loop : Option LoopId
  /-- LFSR of the PRBS | 07 R150 | 0 (set at the start) -/
  lfsr : BitVec 15
  /-- periods since the start period | 07 R150 | 0 -/
  elapsed : Nat
  /-- step of the stepped sine | 07 R151 | 0 -/
  step : Nat
  /-- period within the step | 07 R151 | 0 -/
  inStep : Nat
  /-- object 3508: start period, increment, periods of each step | 07 R151 | empty -/
  log : List (U64 × U32 × U32)
  /-- generator value of this period | 07 R148 | 0 -/
  g : Int
  /-- cause that ends the injection with the running period | 07 R152 | none -/
  stopDue : Option U8
  /-- mode in which it was armed | 07 R152 | BOOT (DESIGN CHOICE, log 2) -/
  mode : Mode
  /-- its loop's reel content changed at a swap | 07 R152 | clear -/
  reelNew : Bool
  deriving DecidableEq, Repr, Inhabited

/-! ## Share engine -/

/-- Sums of the share accumulator for one bay or string (R15, R155). -/
structure ShareAcc where
  sumV : Int
  sumI : Int
  sumP : Int
  n : Nat
  /-- sums of the last completed share cycle with their number of samples: the averages are exact fractions -/
  avgV : Int
  avgI : Int
  avgP : Int
  avgN : Nat
  /-- the average was carried over (R15) -/
  stale : Bool
  deriving DecidableEq, Repr, Inhabited

/-- The results of a run that become visible at its apply period (R155). -/
structure ShareRes where
  hi : List Int
  code : List U8
  need : List Int
  iHard : List Int
  w : List Nat
  wd : List Nat
  wc : List Nat
  d : List Int
  c : List Int
  pd : List Int
  pc : List Int
  lam : U64
  cap : Int
  sh : Int
  pDem : Int
  pAux : Int
  g : Int
  bBud : Int
  flags : U16
  runs : U32
  eD : Nat
  auxSeq : Option U32
  deriving DecidableEq, Repr, Inhabited

/-- A finished run waiting for its apply periods (R155, R162). -/
structure ShareRun where
  b : Nat
  /-- what the run publishes at its apply period | 08 R155 -/
  res : ShareRes
  gb : List Int
  gs : List Int
  /-- MLIM of each module as latched, for SHARE -/
  mlim : List Nat
  /-- decreases applied, increases pending for a+2 -/
  half : Bool
  deriving DecidableEq, Repr, Inhabited

/-- The score machine of the policy reels (R167). -/
structure Policy where
  /-- 16 x 32 bits | 08 R167 | cleared before each instance -/
  s : List (BitVec 32)
  /-- flag F | 08 R167 | cleared before each instance -/
  f : Bool
  /-- outputs 0 and 1, 16 bits each | 08 R167 | 0 -/
  outs : List U16
  /-- inputs of Table 8.7 of the instance | 08 R167 | 0 (DESIGN CHOICE, log 2) -/
  inputs : List (BitVec 32)
  deriving DecidableEq, Repr, Inhabited

/-- String service of the share engine (R165, R169). -/
structure StrState where
  /-- RUN and CONT commanded | 08 R165 | clear -/
  cont : Bool
  /-- contactor reported closed in every period of the share cycle | 08 R158 | clear -/
  contAll : Bool
  /-- the same, for the last completed share cycle -/
  contCycle : Bool
  /-- 16 bits, object 31A0+s-1:14 | 08 R176 | 0xFFFF -/
  reported : U16
  /-- a report has arrived since reset | 08 R169 | clear -/
  known : Bool
  /-- RUN commanded | 08 R165 | clear -/
  run : Bool
  /-- period from which both prospective limits have been 0 | 08 R165 | none -/
  idleSince : Option Nat
  /-- integrated DC energy since the report, J x 10^6 | 08 R169 | 0 -/
  energy : Int
  /-- site time of the report, ns | 08 R176 | 0 -/
  reportAt : Nat
  /-- the string's loop was enabled for the grant in force | 08 R165 | clear -/
  funded : Bool
  /-- ns at which the contactor closed | 08 Table 8.7 | none -/
  closedAt : Option Nat
  deriving DecidableEq, Repr, Inhabited

/-- A hub of the federation as the leader sees it (R172-R174). -/
structure FedHub where
  node : U8
  rank : U8
  weight : U16
  want : U32
  flags : U8
  /-- share sent, kW -/
  sent : U32
  /-- share acknowledged, kW -/
  acked : U32
  /-- rounds since its last report -/
  silent : Nat
  /-- a report arrived in this round -/
  heard : Bool
  /-- rounds in a row with a report -/
  run : Nat
  deriving DecidableEq, Repr, Inhabited

/-- Site federation (R171-R174, object 3231). -/
structure Federation where
  /-- 8 bits, object 3231:01 | 08 R176 | 0 -/
  leaderNode : U8
  /-- 8 bits, rank of the leader | 08 R172 | 0 -/
  leaderRank : U8
  /-- this hub sends share frames | 08 R172 | clear -/
  leading : Bool
  /-- 16 bits, object 3231:03 | 08 R176 | 0 -/
  round : U16
  /-- 32 bits, object 3231:05 | 08 R176 | 0 -/
  changes : U32
  /-- 32 bits, object 3231:06 | 08 R176 | 0 -/
  dual : U32
  /-- last share, kW; none from boot until the first | 08 R174 | none -/
  lastShare : Option U32
  /-- number of the round of 100 ms in which the last share frame was taken | 08 R172 | none -/
  sharedIn : Option Nat
  /-- 1 bit | 08 R174 | set (no share yet) -/
  fallback : Bool
  /-- ROUND whose reductions have applied | 08 R171 | 0 -/
  ack : U16
  /-- share in force with that ACK, kW | 08 R171 | 0 -/
  ackShare : U32
  /-- hubs heard | 08 R172 | none -/
  hubs : List FedHub
  /-- last report and share frames sent | 08 R171 | none -/
  txReport : Option ReportFrame
  txShare : Option ShareFrame
  /-- the share, the report of this round waits for its window of a quadrille | 16 R339 | clear -/
  dueShare : Bool
  dueReport : Bool
  deriving DecidableEq, Repr, Inhabited

/-- The share engine of one lane (R155-R170, objects 3201, 3210-3223). -/
structure Share where
  bayAcc : List ShareAcc
  strAcc : List ShareAcc
  /-- DC powers of the 24 bays and 8 strings in the last 512 periods, newest first, products of word units (1.25e-7 W), none where a
  sample was not VALID | 08 R159 | none -/
  powers : List (List (Option Int))
  /-- applied grants, W | 08 R162 | 0 -/
  gb : List Int
  /-- applied string grants, W, charge positive | 08 R162 | 0 -/
  gs : List Int
  /-- upper bounds and their codes | 08 R157 | 0 -/
  hi : List Int
  code : List U8
  /-- needs: the smallest term other than term 6, W | 09 R179 | 0 -/
  need : List Int
  /-- smallest current of terms 2, 3, 4, 7, 9, 0.1 A | 08 R163 | 0 -/
  iHard : List Int
  /-- bay weights | 08 R160 | 0 -/
  w : List Nat
  /-- string discharge and charge weights | 08 R160 | 0 -/
  wd : List Nat
  wc : List Nat
  /-- discharge and charge limits, W | 08 R158 | 0 -/
  d : List Int
  c : List Int
  /-- prospective limits, W | 08 R158 | 0 -/
  pd : List Int
  pc : List Int
  /-- 64 bits, water level | 08 R160 | 0 -/
  lam : U64
  /-- budgets of the last run, W: C, S_h, P_dem, P_aux, G, b_bud | 08 R159 | 0 (DESIGN CHOICE, log 2) -/
  cap : Int
  sh : Int
  pDem : Int
  pAux : Int
  g : Int
  bBud : Int
  /-- 16 bits, object 3201:0B | 08 R176 | 0 -/
  flags : U16
  /-- 32 bits, object 3201:0C | 08 R176 | 0 -/
  runs : U32
  /-- E_d, Wh, object 3201:0D | 08 R159 | 0 (DESIGN CHOICE, log 2) -/
  eD : Nat
  /-- runs computed and not yet fully applied | 08 R162 | none -/
  pending : List ShareRun
  /-- period of the latest forced shrink still in force | 08 R164 | none -/
  lost : Option Nat
  /-- SEQ of the grid-status record for which P_aux was formed | 08 R159 | none -/
  auxSeq : Option U32
  /-- SHARE of each module | 08 R163 | 0 -/
  share : List PortVal
  /-- fabric inputs the limit block published at cycle 0, word units: REF, ILIM of a bay, SREF, SLIM of a string | 08 R163 | 0 -/
  ref : List Int
  ilim : List Int
  sref : List Int
  slim : List Int
  /-- offers: power W, current 0.1 A, voltage V | 08 R166 | 0 -/
  offerP : List Int
  offerI : List Int
  offerV : List Int
  /-- bays whose first non-zero grant of a session has applied | 08 R165 | clear -/
  funded : List Bool
  strs : List StrState
  pol : Policy
  /-- objects 32C2:01, 02 | 08 R176 | 0 -/
  polCode : U8
  polPos : U32
  deriving DecidableEq, Repr, Inhabited

/-! ## Waypoint -/

/-- A converter module as Waypoint holds it (R178-R187, object 3100+j-1). -/
structure Module where
  /-- 3 bits | 09 R178 | NOT_CONFIGURED -/
  st : ModSt
  /-- bay the module is assigned to; 0 none | 09 R181 | 0 -/
  bay : Nat
  /-- target bay of a move | 09 R181 | 0 -/
  target : Nat
  /-- move step; 0 none | 09 R181 | 0 -/
  step : Nat
  /-- period w of the move | 09 R181 | 0 -/
  startW : Nat
  /-- periods the step's condition has held | 09 R183 | 0 -/
  dwell : Nat
  /-- what the module becomes after step 4 | 09 R185, R187, R413 | FREE -/
  after : ModSt
  /-- fault seen during the move | 09 R187 | clear -/
  flt : Bool
  /-- the move in progress has been counted as abandoned | 09 R183 | clear -/
  counted : Bool
  /-- a move held at the end of step 6 still waits for its step 7 | 09 R187 | clear -/
  held : Bool
  /-- MLIM, 0.1 A | 09 R178 | 0 -/
  mlim : Nat
  /-- EN commanded | 09 R181 | 0 -/
  en : Bool
  /-- TGT commanded | 09 R181 | 0 -/
  tgt : Nat
  /-- 8 bits, object :0D | 09 R193 | 0 -/
  retireCause : U8
  /-- 32 bits, object :0E | 09 R193 | 0 -/
  moves : U32
  /-- taken afresh is due | 09 R413 | set -/
  afresh : Bool
  /-- step 7 due on the return to RUN or DEGRADED | 09 R187 | clear -/
  resume : Bool
  /-- reassessments in which the donor could spare it | 09 R179 | 0 -/
  donorRun : Nat
  /-- last retirement by trend decided, to run at the next reassessment | 09 R184 | clear -/
  retireDue : Bool
  /-- theta window: sum and count | 09 R184 | 0 -/
  thetaSum : Nat
  thetaN : Nat
  /-- windows learned: sum and count of their means | 09 R184 | 0 -/
  learnSum : Nat
  learnN : Nat
  /-- last window mean, mK/W | 09 R193 | 0 -/
  thetaMean : Nat
  /-- consecutive windows above | 09 R184 | 0 -/
  thetaOver : Nat
  deriving DecidableEq, Repr, Inhabited

/-- Waypoint of one lane (objects 3180-3304). -/
structure Waypoint where
  mods : List Module
  /-- objects 3180+c-1:05 | 09 R193 | 0 -/
  cabMoves : List U32
  /-- 32 bits, object 3301:02 | 09 R193 | 0 -/
  completed : U32
  /-- 32 bits, object 3301:03 | 09 R193 | 0 -/
  abandoned : U32
  /-- 32 bits, object 3301:04 | 09 R193 | 0 -/
  retirements : U32
  /-- 32 bits, object 3301:05 | 09 R193 | 0 -/
  short : U32
  /-- 32 bits, object 3301:06 | 09 R193 | 0 -/
  reliefs : U32
  /-- tile being relieved, to be taken over at f+2 | 09 R189 | none -/
  relieving : Option Nat
  deriving DecidableEq, Repr, Inhabited

/-! ## Thermal model -/

/-- A node with its temperature in units of 2^-16 x 0.001 degC and its held levels (R199, R207). -/
structure Node where
  /-- 64 bits | 10 R199 | 0 (DESIGN CHOICE, log 2; R196 initialises it) -/
  t : Int
  /-- assessed temperature | 10 R201 | 0 -/
  that : Int
  warn : Bool
  derate : Bool
  stop : Bool
  lowLimit : Bool
  lowStop : Bool
  rate : Bool
  /-- assessed temperatures of the last 200 updates, newest first | 10 R207 | none -/
  hist : List Int
  /-- a driven node's last sensor was lost | 10 R201 | clear -/
  lostSensor : Bool
  deriving DecidableEq, Repr, Inhabited

/-- A temperature sensor (R203-R205). -/
structure Sensor where
  st : SensorSt
  /-- 6 bits, consecutive failed updates | 10 R205 | 0 -/
  count : Nat
  /-- previous VALID value, 0.001 degC | 10 R204 | none -/
  prev : Option Int
  /-- last VALID word since the last update, 0.001 degC | 10 R195 | none -/
  word : Option Int
  deriving DecidableEq, Repr, Inhabited

/-- Thermal accumulator sums of one source over the update window (R15, R195). -/
structure ThAcc where
  sumI2 : Nat
  sumFlow : Int
  n : Nat
  subI : Nat
  subFlow : Nat
  /-- a VALID flow word lay outside its range of Table 5.6 | 10 R200 | clear -/
  badFlow : Bool
  deriving DecidableEq, Repr, Inhabited

/-- A thermal channel: a bay's cable, a string, a module, or the transformer. -/
structure ThChan where
  nodes : List Node
  sensors : List Sensor
  acc : ThAcc
  /-- initialise at the next update | 10 R196 | set -/
  init : Bool
  /-- 16 bits, Table 10.14 | 10 R214 | 0 -/
  flags : U16
  /-- ceilings in force, 0.1 A: I2, I10, I60 (module: I_M in the first) | 10 R209 | 0 -/
  i2 : Nat
  i10 : Nat
  i60 : Nat
  /-- ceilings computed, to be published at u+40 | 10 R195 | 0 -/
  n2 : Nat
  n10 : Nat
  n60 : Nat
  /-- flow demand in force and computed, 0.01 l/min | 10 R212 | 0 -/
  flow : Nat
  nFlow : Nat
  /-- theta in force and computed, mK/W, 0xFFFF none | 10 R210 | 0xFFFF -/
  theta : Nat
  nTheta : Nat
  /-- the module carried at least half its rated current over the last update | 09 R184 | clear -/
  half : Bool
  deriving DecidableEq, Repr, Inhabited

/-- The thermal model unit of one lane (objects 3400-3491). -/
structure Thermal where
  bays : List ThChan
  mods : List ThChan
  strs : List ThChan
  xfmr : ThChan
  /-- hub sources: ambient, cabinet coolant, top oil, hot spot | 10 R214 | no reading -/
  hub : List Sensor
  /-- 32 bits, object 3400:01 | 10 R214 | 0 -/
  updates : U32
  /-- 32 bits, kW, object 3400:02 | 10 R214 | 0xFFFFFFFF -/
  ptx : Nat
  nPtx : Nat
  /-- object 3400:03, 0.001 degC | 10 R214 | 40,000 (DESIGN CHOICE, log 2) -/
  ambient : Int
  /-- object 3400:04, 0.001 degC | 10 R214 | 35,000 (DESIGN CHOICE, log 2) -/
  coolant : Int
  /-- FAN of each cabinet in force and computed, 0.001 degC | 10 R212 | 0 -/
  fan : List Int
  nFan : List Int
  deriving DecidableEq, Repr, Inhabited

/-! ## Queues and the cross-lane path -/

/-- A hardware queue (R25-R29). -/
structure HwQueue where
  /-- queued entries, oldest first; Q is their number | 01 R25 | empty -/
  entries : List U64
  /-- credit count C | 01 R25, R28 | the depth D -/
  credit : Nat
  /-- entries discarded at a reset | 01 R28 | 0 -/
  discarded : U32
  /-- arriving frames dropped on a full queue | 01 R27 | 0 -/
  drops : U32
  /-- retired by the queue manager | 01 R29 | clear -/
  retired : Bool
  /-- periods of the failed credit checks still within 1,000 periods | 01 R29 | none -/
  fails : List Nat
  deriving DecidableEq, Repr, Inhabited

/-- An event waiting on queue 98 for the recorder (R380): what happened, the instance of SOURCE[6:0], the 12 data bytes. -/
structure EventReq where
  kind : EventKind
  /-- the logbook code of a log copy (R380), else 0 -/
  code : U8
  inst : Nat
  data : List Byte
  /-- site time of the occurrence, none until the period in which it fell ends (R379) -/
  time : Option U64
  deriving DecidableEq, Repr, Inhabited

/-- An event record (Table 19.1) with its flush mark. -/
structure EventRec where
  seq : U32
  time : U64
  code : U16
  source : U8
  gen : U8
  rep : U16
  data : List Byte
  crc : U16
  /-- written or changed since the last flush -/
  dirty : Bool
  deriving DecidableEq, Repr, Inhabited

/-- A lane's event recorder (R379-R388). -/
structure Recorder where
  /-- 4,096 records, oldest first | 19 R382 | empty -/
  ring : List EventRec
  /-- fast-store ring of 16,384 records, oldest first | 19 R382 | empty -/
  fast : List EventRec
  /-- number of the fast ring's oldest records already archived | 19 R383 | 0 -/
  archivedOf : Nat
  /-- NAND event archive, oldest first | 19 R383 | empty -/
  archive : List EventRec
  /-- 32 bits, SEQ of the next new record | 19 R379 | 0 (DESIGN CHOICE, log 2) -/
  nextSeq : U32
  /-- 32 bits, newest SEQ, objects 2300:01, 02 | 19 R389 | none written -/
  newest : Option U32
  /-- new records since the last flush | 19 R382 | 0 -/
  sinceFlush : Nat
  /-- SEQ up to which records are no longer served | 19 R386 | none -/
  clearedTo : Option U32
  deriving DecidableEq, Repr, Inhabited

/-- Shared recorder counters (object 2300). -/
structure RecCounts where
  /-- 32 bits, object 2300:03 | 19 R389 | 0 -/
  written : U32
  /-- 32 bits, object 2300:04 | 19 R389 | 0 -/
  flushes : U32
  /-- 32 bits, object 2300:05 | 19 R389 | 0 -/
  lost : U32
  /-- 32 bits, object 2300:06 | 19 R389 | 0 -/
  saturated : U32
  /-- 32 bits, object 2300:07 | 19 R389 | 0 -/
  dropped : U32
  /-- 32 bytes each, records last returned by a read of 2301:04 with the bounds OLDEST, NEWEST | 19 R384 | none -/
  reading : Option (U32 × U32 × List EventRec)
  deriving DecidableEq, Repr, Inhabited

/-! ## A lane -/

/-- Die temperature and its levels in one lane (R51, R52). -/
structure DieTemp where
  /-- 16 bits, objects 2040:01, 02, 0.1 degC | 02 R53 | 0 (DESIGN CHOICE, log 2) -/
  reported : Int
  /-- consecutive readings in which each sensor was off the median | 02 Die temperature | 0 -/
  offRun : List Nat
  /-- excluded sensors | 02 Die temperature | none -/
  excluded : List Bool
  /-- readings at or above each set value in a row: warn, throttle, stop | 02 R51 | 0 -/
  setRun : List Nat
  /-- readings below each clear value in a row: warn, throttle | 02 R51 | 0 -/
  clearRun : List Nat
  /-- objects 2040:05 | 02 R53 | clear -/
  warn : Bool
  /-- objects 2040:05 | 02 R53 | clear -/
  throttle : Bool
  /-- object 2040:05 | 02 R52 | clear -/
  stop : Bool
  /-- the reading was above 110 degC | 02 Die temperature | clear -/
  above110 : Bool
  deriving DecidableEq, Repr, Inhabited

/-- Health word bits a lane raises itself (Table 13.4). -/
structure Health where
  testing : Bool
  jctLost : Bool
  testFail : Bool
  memory : Bool
  queue : Bool
  config : Bool
  receiver : Bool
  unaligned : Bool
  tile : Bool
  deriving DecidableEq, Repr, Inhabited

/-- Grid-status reception in a lane (R218, R226, R170). -/
structure GridRx where
  /-- the last 4 records, newest first | 11 R226 | none -/
  recs : List GridStatus
  /-- SEQ named by the alignment marker of the running period, object 4000:0A | 11 R226 | 0 -/
  named : U32
  /-- a record has arrived within 100 ms | 11 R218 | clear -/
  fresh : Bool
  /-- object 4000:02 bit 10 | 11 R218 | clear -/
  linkLost : Bool
  /-- periods of arrival of those records | 08 R159 | none -/
  arrivals : List Nat
  /-- the latest metrology state reported to the lane, by a record or a STATUS answer, is READY | 11 R218 | clear -/
  ready : Bool
  deriving DecidableEq, Repr, Inhabited

/-- A milestone snapshot of the billing registers being read or published (R249). -/
structure Snapshot where
  /-- 64 bits, object 4130:01 | 12 R249 | 0 (DESIGN CHOICE, log 2) -/
  number : U64
  /-- 64 bits, object 4130:02 | 12 R249 | 0 (DESIGN CHOICE, log 2) -/
  legal : U64
  /-- blocks held, 292 x 28 registers | 12 R249 | none -/
  blocks : List (Nat × List U64)
  deriving DecidableEq, Repr, Inhabited

/-- A keystore slot (R362-R364). -/
structure KeySlot where
  /-- 32 bits | 18 R362 -/
  path : U32
  /-- 8 bits, Table 18.2 -/
  alg : U8
  /-- 8 bits -/
  usage : U8
  /-- generated in the keystore -/
  internal : Bool
  /-- public part only -/
  pubOnly : Bool
  /-- life-cycle state at creation -/
  lc : U8
  /-- the secret as the keystore's opaque functions know it -/
  secret : Nat
  /-- the public part -/
  pub : List Byte
  /-- held in a persistent record -/
  persistent : Bool
  /-- an ancestor was invalidated or replaced -/
  orphaned : Bool
  /-- tag and CRC of the record are correct -/
  good : Bool
  deriving DecidableEq, Repr, Inhabited

/-- A keystore (R362-R376); the slots are named by physical number 0-511. -/
structure Keystore where
  /-- 512 slots, used ones only, ascending by number | 18 R362 | empty -/
  slots : List (Nat × KeySlot)
  /-- retired physical slots | 18 R364 | none -/
  retired : List Nat
  /-- 32 bits, object 2400:04 | 18 R378 | 0 -/
  operations : U32
  /-- 32 bits, object 2400:05 | 18 R378 | 0 -/
  tamperAborts : U32
  /-- 8 bits, object 2400:08 | 18 R378 | 0 -/
  lastStatus : U8
  /-- 64 bits, object 2400:06 | 18 R378 | 0 -/
  counter : U64
  /-- an operation is in progress and can be aborted (R299) -/
  busy : Bool
  /-- unwrapped keys held in the volatile cache, by physical number | 14 R299 | none -/
  cache : List Nat
  /-- answer of the last request: status and data | 18 R366 | none -/
  answer : Option (U8 × List Byte)
  deriving DecidableEq, Repr, Inhabited

/-- One firmware slot of a lane's slot directory (R402). -/
structure FwSlot where
  /-- 32 bits, objects 2511:02, 03 | 20 R402 | 0 (DESIGN CHOICE, log 2) -/
  version : U32
  /-- 16 bits | 20 R402 | 0 (DESIGN CHOICE, log 2) -/
  schema : U16
  /-- SECURITY of the image | 20 R400 | 0 (DESIGN CHOICE, log 2) -/
  security : U16
  /-- 48 bytes | 20 R402 | 0 (DESIGN CHOICE, log 2) -/
  digest : List Byte
  /-- 1 bit | 20 R402 | clear (DESIGN CHOICE, log 2) -/
  present : Bool
  /-- 1 bit | 20 R402 | clear -/
  activated : Bool
  /-- 1 bit, object 2511:05 for the current slot | 20 R402 | clear -/
  confirmed : Bool
  /-- marked failed by an abort | 20 R407 | clear -/
  failed : Bool
  /-- 16 bits, seconds, object 2511:04 | 20 R402 | 0 -/
  runTime : U16
  deriving DecidableEq, Repr, Inhabited

/-- A lane's slot directory and its update bookkeeping (R401-R407). -/
structure SlotDir where
  slot0 : FwSlot
  slot1 : FwSlot
  /-- 8 bits, object 2511:01 | 20 R402 | 0 (DESIGN CHOICE, log 2) -/
  current : Bool
  /-- the slot the lane booted | 03 R65 | the current one -/
  booted : Bool
  /-- 32 bits, object 2511:06 | 20 R410 | 0 -/
  detours : U32
  /-- blocks of the slot partition found failed | 20 R395 | none -/
  badBlocks : List Nat
  /-- rejection codes found at step 3, one per buffer | 20 R401 | 0 -/
  reject : List Nat
  /-- ns since role STANDBY or ACTIVE was taken without a verdict | 20 R405 | 0 -/
  cleanSince : Nat
  deriving DecidableEq, Repr, Inhabited

/-- A word pending for or latched in the output table (R119, R125, R90). -/
structure OutLink where
  /-- the words the slots committed and the control fields, 24 bits each | 05 R90, R95 | zero -/
  words : List (BitVec 24)
  /-- header bytes 0 and 1 | 05 R90 | zero -/
  hdr : BitVec 16
  deriving DecidableEq, Repr, Inhabited

/-- What a lane boots, and how it stands in service. -/
structure LaneCtl where
  /-- 8 bits, objects 2020:05, 06 | 03 R69 | 0 -/
  bootStep : Nat
  /-- boot-ROM recovery | 03 R65 | clear -/
  recovery : Bool
  /-- halted at step 2 or before | 03 R64 | clear -/
  halted : Bool
  /-- held in reset by a rail fault of Table 2.10 | 02 R43 | clear -/
  railHeld : Bool
  /-- configuration outcome of step 6 as the lane saw it | 03 R66 | 0 -/
  cfgOutcome : Nat
  /-- metrology answered ready at step 7 | 03 R64 | clear -/
  metroReady : Bool
  /-- objects 3600:01 to 03 as read at step 6: 50 us, lambda, advance | 05 R88 | clear, 0, 0 (set at step 6) -/
  timing : Bool × Nat × Int
  /-- consecutive misaligned markers | 01 R20 | 0 -/
  misRun : Nat
  /-- consecutive aligned periods, saturating at 200 | 13 R273 Table 13.4 | 0 -/
  alignedRun : Nat
  /-- tested tile, started at which period | 13 R283 | none -/
  testing : Option Nat
  /-- objects 2110:0C, 0D | 13 R287 | 0 -/
  testsPassed : U32
  testsFailed : U32
  /-- 4 KiB blocks tested in this pass, of which object 2110:0E is 0.1 % | 13 R283, R287 | 0 -/
  marchPos : Nat
  /-- object 2110:0F | 13 R287 | 0 -/
  marchPasses : U32
  /-- 64 bits, object 2110:10 | 13 R287 | 0 -/
  failedRx : List Nat
  /-- links of demotions with their times, ns | 13 R283 | none -/
  rxDemotions : List (Nat × Nat)
  /-- links whose status code differed from the active lane's in this period | 05 R100 | none -/
  rxDiffer : List Nat
  /-- the bay-table cache generations of tiles, share engine and Waypoint | 04 R87 | 0 -/
  gens : List U32
  /-- cached bay-table entries are behind (an entry failed its CRC) | 04 R87 | none -/
  staleBays : List Nat
  /-- ready for the pending swap | 04 R83 | clear -/
  swapReady : Bool
  /-- commanded CONT of each bay and string, 32 bits | 05 Tables 5.4, 5.5 | 0 -/
  cont : List Bool
  /-- commanded LOCK of each bay | 05 Table 5.4 | 0 -/
  lock : List Bool
  /-- CANARY and DIGEST last formed | 13 R274, R275 | 0 -/
  digest : U64
  /-- 32 bits, object 3500:05 | 06 R133 | 0 -/
  satPeriods : U32
  /-- 32 bits, object 3502:0E | 07 R154 | 0 -/
  loopFaults : U32
  deriving DecidableEq, Repr, Inhabited

/-- One lane: everything it computes for itself. -/
structure LaneState where
  ctl : LaneCtl
  temp : DieTemp
  health : Health
  /-- frame store, bank 0 then bank 1, 64 slots each | 01 R13 | MISSING -/
  bank0 : List FrameSlot
  bank1 : List FrameSlot
  /-- 64 links | 05 R104 | DOWN -/
  links : List Link
  /-- output table being built, 64 links | 05 R91 | zero -/
  out : List OutLink
  /-- output table latched at cycle 12,200 | 05 R91, 13 R281 | zero -/
  latched : List OutLink
  /-- 10 tiles | 06 R109 | idle -/
  tiles : List Tile
  /-- 256 relay cells | 06 R120 | zero -/
  relay : List Cell
  /-- 24 bay loops, 96 module loops, 8 string loops, 15 slow loops | 07 R134 | OFF -/
  bayLoops : List Loop
  modLoops : List Loop
  strLoops : List Loop
  slowLoops : List Loop
  share : Share
  wp : Waypoint
  th : Thermal
  /-- 128 queues | 01 R25 | Q = 0, C = D -/
  queues : List HwQueue
  /-- queue serving each role | 01 R29 | the role's own number -/
  roleMap : List Nat
  /-- events waiting on queue 98 | 19 R382 | none -/
  evq : List EventReq
  recd : Recorder
  ks : Keystore
  slots : SlotDir
  grid : GridRx
  /-- snapshot being read and snapshot published | 12 R249 | none -/
  reading : Option Snapshot
  published : Option Snapshot
  /-- SIGNED records received that partition 7 does not hold yet, oldest first | 20 R409 | none -/
  signed : List SignedRecord
  deriving DecidableEq, Repr, Inhabited

/-! ## Metrology section -/

/-- The sealed AC items and AC measurement (R222-R225). -/
structure AcMeter where
  /-- 8 bits, object 4010:01 | 11 R222 | 2 (DESIGN CHOICE, log 2) -/
  wiring : U8
  /-- 0.1 V, object 4010:02 | 11 R239 | 0 (DESIGN CHOICE, log 2) -/
  declared : U32
  /-- Hz, object 4010:03 | 11 R239 | 50 (DESIGN CHOICE, log 2) -/
  fnom : U8
  /-- mA, object 4010:06 | 11 R239 | 0 (DESIGN CHOICE, log 2) -/
  rated : U32
  /-- REAL32, objects 4010:04, 05 | 11 R239 | 0 (DESIGN CHOICE, log 2) -/
  vRatio : U32
  iRatio : U32
  /-- gain 10^-6, offset uA, phase 0.001 deg of 7 channels | 11 R239 | 1, 0, 0 (DESIGN CHOICE, log 2) -/
  gains : List Int
  offsets : List Int
  phases : List Int
  /-- 0.1 %, objects 4011:01-05 | 11 R244 | 900, 1,100, 50, 20, 100 -/
  pq : List U16
  /-- objects 4011:06-0A | 11 R244 | 0 -/
  pqCounts : List U32
  /-- events in progress with start legal time and phases | 11 R224 | none -/
  inProgress : List (VoltEvent × Nat × Bool × BitVec 3)
  /-- signed residues of the hub accumulators, 2^-32 mWh; the registers are 0 and 1 of group 0 | 11 R232 | 0 (DESIGN CHOICE, log 2) -/
  imp : Int
  exp : Int
  /-- import and export energy of this milestone interval, 2^-32 mWh | 14 R293 | 0 -/
  ivImp : Int
  ivExp : Int
  /-- grid-status SEQ | 11 R225 | 0 (DESIGN CHOICE, log 2) -/
  gridSeq : U32
  /-- PERIOD of the first tap record in the window | 11 R225 | none -/
  winPeriod : Option (BitVec 6)
  /-- a demand interval began in the window | 11 R225 | clear -/
  winDemand : Bool
  /-- last grid-status record sent | 11 R225 | none -/
  grid : Option GridStatus
  /-- mHz, object 4010:07 | 11 R223 | 0 (DESIGN CHOICE, log 2) -/
  freq : Nat
  /-- 0.01 V, objects 4010:08-0A | 11 R223 | 0 (DESIGN CHOICE, log 2) -/
  volts : List Nat
  /-- 0.001 A, objects 4010:0B-0E | 11 R223 | 0 (DESIGN CHOICE, log 2) -/
  amps : List Nat
  /-- W, var, VA, objects 4010:0F-11 | 11 R223 | 0 (DESIGN CHOICE, log 2) -/
  watts : Int
  vars : Int
  va : Nat
  deriving DecidableEq, Repr, Inhabited

/-- A DC channel (R227-R230). -/
structure DcChan where
  /-- 32 bits, object 4020+c-1:01 | 11 R227 | 0 -/
  serial : U32
  /-- A, object :03 | 11 R244 | 0 -/
  rated : U16
  /-- 0.1 A, object :04 | 11 R244 | 10 -/
  starting : U16
  /-- gains in 10^-6, offset in uA | 11 R239 | 1, 1, 0 (DESIGN CHOICE, log 2) -/
  gV : Int
  gI : Int
  oI : Int
  /-- object :02 | 11 R244 | 0xFF -/
  lastLink : U8
  /-- signed residues, 2^-32 mWh; the registers, objects :05, 06, are 0 and 1 of the channel's group | 11 R232 | 0 (DESIGN CHOICE, log 2) -/
  imp : Int
  exp : Int
  /-- sums of the powers of the samples of this interval, per direction, 10^-24 / 144 W | 11 R229 | 0 -/
  sumImp : Int
  sumExp : Int
  /-- SEQ of the last accepted sample, none until one is accepted | 11 R228 | none -/
  lastSeq : Option U16
  /-- periods elapsed since the last accepted sample | 11 R228, R230 | 0 -/
  missing : Nat
  /-- the SEQ count restarts at the next record | 11 R228 | set -/
  restart : Bool
  /-- last accepted sample: V and I in 10^-12 V and A, and its energy in 2^-32 mWh | 11 R230 | none -/
  last : Option (Int × Int × Int)
  /-- part of an open gap already recorded | 11 R230 | 0 -/
  gapDone : Nat
  /-- the estimate of the open gap was recorded | 11 R230 | clear -/
  gapEst : Bool
  /-- a sample of the running period was accepted, or its SERIAL seen in it | 11 R228 | clear -/
  seenNow : Bool
  /-- energy provisionally accepted in this period: voltage and current words, SEQ, LINK | 11 R228 | none -/
  held : Option (Int × Int × U16 × U8)
  /-- energies of the last 20 windows of 10 ms, newest first, the running one included, 2^-32 mWh | 11 R244 | none -/
  recent : List Int
  /-- W, object :07 | 11 R244 | 0 (DESIGN CHOICE, log 2) -/
  power : Int
  /-- objects :08-:0B | 11 R244 | 0 -/
  accepted : U32
  rejected : U32
  interpolated : U32
  gaps : U32
  /-- 2^-32 mWh, object :0C in mWh | 11 R244 | 0 -/
  estimate : Nat
  deriving DecidableEq, Repr, Inhabited

/-- A pulse output (R235, R236). -/
structure PulseOut where
  /-- object 4040+i:01 | 11 R244 | 0 -/
  source : U16
  /-- mWh, object :02 | 11 R244 | 0 (DESIGN CHOICE, log 2) -/
  q : U32
  /-- 0.1 ms, object :03 | 11 R244 | 0 (DESIGN CHOICE, log 2) -/
  w : U16
  /-- object :04 | 11 R244 | 0 -/
  pulses : U64
  /-- 2^-32 mWh, object :05 in uWh | 11 R244 | 0 -/
  residue : Int
  /-- object :06 | 11 R236 | 0 -/
  pending : Nat
  /-- edges due, in order: metrology cycle of each, and whether it is pending | 11 R236 | none -/
  edges : List (Nat × Bool)
  /-- cycle of the last rising edge | 11 R236 | none -/
  lastEdge : Option Nat
  /-- the output is high | 11 R236 | low -/
  high : Bool
  deriving DecidableEq, Repr, Inhabited

/-- A pulse input (R237). -/
structure PulseIn where
  /-- object 4048+i:01 | 11 R244 | 0 -/
  use : U8
  /-- mWh, object :02 | 11 R244 | 0 (DESIGN CHOICE, log 2) -/
  weight : U32
  /-- 0.1 ms, object :03 | 11 R244 | 50 -/
  debounce : U16
  /-- object :04 | 11 R244 | 0 -/
  pulses : U64
  /-- object :05 | 11 R244 | 0 -/
  diff : Int
  /-- register at the last comparison, mWh | 11 R237 | 0 -/
  lastReg : Nat
  deriving DecidableEq, Repr, Inhabited

/-- An open metrology session on a channel (R250). -/
structure MetSession where
  id : U32
  account : U16
  commissioning : Bool
  /-- legal time at the opening, ticks -/
  start : U64
  /-- channel registers 0-17 at the opening -/
  base : List Nat
  /-- FLAGS bits gathered over the span (R264) -/
  flags : U8
  deriving DecidableEq, Repr, Inhabited

/-- A demand window of one group and direction (R257). -/
structure DemandWin where
  /-- energy of the last sub-intervals, newest first; the first is the running one, mWh -/
  subs : List Nat
  deriving DecidableEq, Repr, Inhabited

/-- A tariff calendar image (R253) with its CRC. -/
structure Calendar where
  image : List Byte
  crc : U32
  deriving DecidableEq, Repr, Inhabited

/-- A legal logbook area (R267). -/
structure LogArea where
  /-- entries held, oldest first | 12 R267 | none (DESIGN CHOICE, log 2) -/
  entries : List LogEntry
  /-- SEQ of the next entry | 12 R267 | 0 (DESIGN CHOICE, log 2) -/
  next : U32
  deriving DecidableEq, Repr, Inhabited

/-- A demand window or sub-interval: crystal cycles, and its marks (R257). -/
structure WinSpan where
  cycles : Nat
  stepped : Bool
  incomplete : Bool
  deriving DecidableEq, Repr, Inhabited

/-- What a milestone commits of the billing registers (R221, R245). -/
structure BillRegs where
  /-- 292 groups x 28 registers, 64 bits each | 12 R245 | 0 (DESIGN CHOICE, log 2) -/
  groups : List (List Nat)
  /-- open sessions of channels 1-32 | 12 R250 | none -/
  sessions : List (Option MetSession)
  /-- import and export windows of the hub and channels 1-32 | 12 R257 | empty -/
  winImp : List DemandWin
  winExp : List DemandWin
  /-- legal time the window or sub-interval began, ticks | 12 R245 | 0 (DESIGN CHOICE, log 2) -/
  winStart : Nat
  /-- the last sub-intervals, newest first; the first is the running one | 12 R257 | one, unmarked -/
  winSpans : List WinSpan
  /-- windows closed and incomplete since the last billing close | 12 R264 | 0 -/
  winClosed : Nat
  winBad : Nat
  /-- record FLAGS of groups 0-289 gathered since the last billing close | 12 R264 | 0 -/
  spanFlags : List Nat
  /-- tariff in force | 12 R245 | 0 (R256) -/
  tariff : Nat
  /-- high-water mark, ticks; 0 before the first boundary | 12 R259 | 0 (DESIGN CHOICE, log 2) -/
  hwm : Nat
  /-- stored bits of object 4130:04: BALANCE, CLOCK_DISPUTE, TIME_UNSET_ENERGY, UNBILLED | 12 R270 | 0 -/
  flags : Nat
  /-- legal time of the last billing close, ticks | 12 R264 | 0 (DESIGN CHOICE, log 2) -/
  lastClose : Nat
  deriving DecidableEq, Repr, Inhabited

/-- A committed MRAM image (R221, R293). -/
structure MetImage where
  number : Nat
  /-- legal time in ticks, none while it was unset -/
  legal : Option Nat
  regs : BillRegs
  /-- residues of hub and channels per direction -/
  residues : List (Int × Int)
  /-- import and export energies of the interval, 2^-32 mWh: hub, then channels; with its length in cycles they are the mean powers -/
  means : List (Nat × Nat)
  span : Nat
  /-- power-fail milestone -/
  pf : Bool
  /-- delta = legal time - RTC, ticks -/
  delta : Option Int
  deriving DecidableEq, Repr, Inhabited

/-- Billing registers, calendars, records and the logbook (chapter 12). -/
structure Billing where
  regs : BillRegs
  active : Option Calendar
  passive : Option Calendar
  /-- next segment expected and bytes of the partial calendar image | 12 R256 | none -/
  partialCal : Option (Nat × List Byte)
  /-- 8 bits, object 4201:05 | 12 R270 | 0 -/
  calResult : U8
  /-- signed records held, newest first, at most 4,096 | 12 R265 | none -/
  records : List SignedRecord
  /-- 32 bits, last record number | 12 R264 | 0 (DESIGN CHOICE, log 2) -/
  record : U32
  param : LogArea
  event : LogArea
  /-- 32 bits, object 4131:05 | 12 R270 | 0 -/
  overwritten : U32
  /-- cycle of the last 0x08 entry | 12 R262 | none -/
  lastDispute : Option Nat
  deriving DecidableEq, Repr, Inhabited

/-- A barrier response as the requesting lane receives it (Table 11.8). -/
structure BarrierResp where
  lane : Lane
  tag : U16
  op : U8
  status : U8
  payload : List Byte
  deriving DecidableEq, Repr, Inhabited

/-- State, time and messages of the metrology section (R215-R221, R237-R242). -/
structure MetCtl where
  /-- 8 bits, object 4000:01 | 11 R215 | HALTED until the first METROLOGY_START (DESIGN CHOICE, log 2) -/
  st : MetroSt
  /-- 8 bits, object 4000:0D | 11 R215 | 0 -/
  halt : U8
  /-- a calibration or configuration CRC was wrong when last checked | 11 R215 | clear -/
  calBad : Bool
  /-- latches handed over outside START and READY, to be logged at the next START | 14 R297 | none -/
  tamperDue : Option (BitVec 4)
  /-- CLOCK, VMET_LOW, PERIOD_DEV, RECON, PULSE_OVF, METTEMP | 11 R244 | 0 -/
  clockLost : Bool
  vmetLow : Bool
  periodDev : Bool
  recon : Bool
  pulseOvf : Bool
  mettemp : Bool
  /-- crystal cycles counted while the crystal runs | 11 R221 | 0 -/
  cycles : Nat
  /-- legal time in crystal cycles since 2000-01-01 | 11 R219 | 0 (DESIGN CHOICE, log 2) -/
  legal : Nat
  legalSet : Bool
  /-- slew still to apply, cycles | 11 R219 | 0 -/
  slew : Int
  /-- delta = legal time - RTC, ticks | 11 R219 | none -/
  delta : Option Int
  /-- cycles for which legal time has been unset | 12 R267 | 0 -/
  unsetFor : Nat
  /-- 64 bits, object 4000:07 | 11 R221 | 0 (DESIGN CHOICE, log 2) -/
  milestone : Nat
  /-- cycle at which the running milestone interval began | 11 R229 | 0 -/
  ivStart : Nat
  /-- mean period T_{m-1} as cycles and periods; none before the first measured interval | 11 R229 | none -/
  tPrev : Option (Nat × Nat)
  /-- periods of the interval: cycle of the first tap record of the first and of the last period, number of periods | 01 R18 | none -/
  firstTap : Option Nat
  lastTap : Option Nat
  tapPeriods : Nat
  /-- PERIOD of the running period | 11 R228 | none -/
  curPeriod : Option (BitVec 6)
  /-- 0.1 ppm, object 4000:0C | 11 R244 | 0 (DESIGN CHOICE, log 2) -/
  deviation : Int
  copyA : Option MetImage
  copyB : Option MetImage
  /-- consecutive failed commits | 11 R221 | 0 -/
  commitFails : Nat
  /-- object 2180:07 | 01 R30 | 128 -/
  rows : Nat
  /-- object 4000:09 | 11 R244 | 0 -/
  crcErrors : U32
  /-- SEAL open | 11 R238 | set: MSEAL reads open when not held at MGND -/
  sealOpen : Bool
  /-- object 4000:08 | 11 R244 | 0 (DESIGN CHOICE, log 2) -/
  sealOpenings : U32
  /-- sealed writes while open | 11 R238 | 0 -/
  sealedWrites : Nat
  /-- objects 4000:04, 05 | 11 R240 | 0 (DESIGN CHOICE, log 2) -/
  calCrc : U32
  cfgCrc : U32
  /-- object 4000:03 | 11 R244 | 0 (DESIGN CHOICE, log 2) -/
  version : U32
  /-- CRC of the image in service | 12 R267 Table 12.11 | 0 (DESIGN CHOICE, log 2) -/
  imageCrc : U32
  /-- next segment and bytes of the partial firmware image; image held for the next SEAL closing | 20 R408 | none -/
  partialImg : Option (Nat × List Byte)
  heldImg : Option (List Byte)
  /-- last messages sent: response to each lane, MILESTONE, LOG_COPY, SIGNED | 11 R242 | none -/
  respA : Option BarrierResp
  respB : Option BarrierResp
  txMilestone : Option (U64 × U64 × U32)
  txLog : Option LogEntry
  txSigned : Option SignedRecord
  /-- the image loaded at the last start, until the TAMPER message | 14 R294 | none -/
  loaded : Option MetImage
  /-- the active lane has seen READY since the last start | 12 R251 | clear -/
  reported : Bool
  /-- a power-fail warning waits for the milestone within 1.5 ms | 12 R260 | clear -/
  pfPending : Bool
  /-- power-fail warnings already served | 11 R216 | clear -/
  pfDone : Bool
  deriving DecidableEq, Repr, Inhabited

/-- The metrology section. -/
structure Metro where
  ctl : MetCtl
  ac : AcMeter
  dc : List DcChan
  pout : List PulseOut
  pin : List PulseIn
  bill : Billing
  deriving DecidableEq, Repr, Inhabited

/-! ## Junction -/

/-- A digest entry (Table 13.2). -/
structure DigestEntry where
  digest : U64
  health : U32
  canary : U16
  period : U16
  deriving DecidableEq, Repr, Inhabited

/-- What the Junction holds of one lane (R271-R287, objects 2110, 2111). -/
structure JLane where
  /-- object :01 | 13 R271 | BOOTING -/
  role : Role
  /-- entry received for the running period | 13 R273 | none -/
  entry : Option DigestEntry
  /-- the entry of the previous period was absent | 13 R276 | clear -/
  prevAbsent : Bool
  /-- object :02 | 13 R287 | 0 -/
  health : U32
  /-- object :03 | 13 R287 | 0 -/
  verdict : U8
  /-- object :04 | 13 R287 | 0 -/
  absent : U32
  /-- object :05 | 13 R287 | 0 -/
  canaryFails : U32
  /-- times of code 8 verdicts in the last 3,600 s, ns; object :06 | 13 R287 | none -/
  suspects : List Nat
  /-- object :07 | 13 R287 | 0 -/
  demotions : U32
  /-- object :08 | 13 R287 | 0 -/
  resets : U32
  /-- times of resets in the last 3,600 s, ns | 13 R277 | none -/
  resetTimes : List Nat
  /-- object :09 | 13 R287 | 0 -/
  attempts : U32
  /-- aborted attempts in a row | 13 R282 | 0 -/
  aborted : Nat
  /-- object :0A | 13 R287 | 0 -/
  resyncs : U32
  /-- 16 bits, object :0B | 13 R287 | 0 -/
  matches_ : U16
  /-- periods in a row with a deviation of R22 | 01 R22 | 0 -/
  devRun : Nat
  /-- held in reset for 60 s after code 4 | 13 R277 | clear -/
  held : Bool
  /-- join period q | 13 R281 | none -/
  join : Option Nat
  /-- slow part captured at q-40 | 13 R281 | clear -/
  captured : Bool
  /-- joined: it runs from the snapshot | 13 R281 | clear -/
  joined : Bool
  /-- digests matched since q | 13 R282 | 0 -/
  joinMatches : Nat
  /-- has reported step 7 complete | 03 R67 | clear -/
  reported : Bool
  /-- an entry has arrived since the lane's last reset | 13 R271 Table 13.1 | clear -/
  beats : Bool
  deriving DecidableEq, Repr, Inhabited

/-- A verdict waiting for its decision boundary (R276). -/
structure Decision where
  /-- period n+2 -/
  at_ : Nat
  codeA : U8
  codeB : U8
  deriving DecidableEq, Repr, Inhabited

/-- A crossover in progress (Tables 13.6, 13.7). -/
structure Crossover where
  /-- period of the first outputs of the new lane: n+3, or w -/
  at_ : Nat
  lane : Lane
  cause : U8
  planned : Bool
  deriving DecidableEq, Repr, Inhabited

/-- The Junction (chapter 13). -/
structure Junction where
  laneA : JLane
  laneB : JLane
  /-- Junction lost or in reset | 02 R43, 13 R284 | set until JUNCTION_BOOT -/
  lost : Bool
  /-- ROM and crystal checked at boot step 1 | 03 R64 | clear -/
  ready : Bool
  /-- multiplexer steering | 01 R24 | no lane -/
  mux : Option Lane
  /-- active mark | 01 R11 | none -/
  mark : Option Lane
  decision : Option Decision
  /-- period whose entries were judged last | 13 R276 | none -/
  judgedAt : Option Nat
  cross : Option Crossover
  /-- host request for a planned crossover waiting for a share-cycle boundary | 13 R280 | clear -/
  planReq : Bool
  /-- 8 bits, object 2100:0C | 13 R287 | 0 -/
  result : U8
  /-- 32 bits, object 2100:08 | 13 R287 | 0 -/
  crossovers : U32
  /-- 64 bits, object 2100:09 | 13 R287 | 0 -/
  lastAt : U64
  /-- 8 bits, object 2100:0A | 13 R287 | 0 -/
  lastCause : U8
  /-- temperatures of the Junction and of the metrology die, 0.1 degC, objects 2040:03, 04 | 02 R53 | 0 (DESIGN CHOICE, log 2) -/
  temp : Int
  metTemp : Int
  /-- 0.1 degC, object 2040:07 | 02 R53 | -32,768 (DESIGN CHOICE, log 2) -/
  peak : Int
  /-- ms throttled, object 2040:08 in s | 02 R53 | 0 -/
  throttled : Nat
  /-- deferred SAFE_N assertion: period at which it goes low | 03 R60, R61 | none -/
  safeDue : Option Nat
  /-- SAFE_N drives low | 02 R43, 03 R54 | low in BOOT -/
  safeN : PinLevel
  deriving DecidableEq, Repr, Inhabited

/-! ## Backup domain and rails -/

/-- A tamper input (R296). -/
structure TampIn where
  latched : Bool
  /-- objects 2621+i:03, 04 with the validity flag | 14 R302 | 0 -/
  first : U64
  latest : U64
  latestValid : Bool
  /-- object :05 | 14 R302 | 0 -/
  count : U16
  /-- the latest setting was handed over and acknowledged | 14 R297 | clear -/
  acked : Bool
  deriving DecidableEq, Repr, Inhabited

/-- The backup domain (chapter 14, R53, R69). -/
structure Backup where
  /-- 64 bits, ticks of 2^-15 s, object 2600:01 | 14 R302 | 0 -/
  rtc : U64
  /-- RTC_INVALID | 14 R289 | set after POR -/
  invalid : Bool
  /-- VBK_LOW | 14 R302 | clear (DESIGN CHOICE, log 2) -/
  vbkLow : Bool
  /-- object 2600:03 | 14 R302 | 0 -/
  alarm : U64
  /-- object 2610:01 and the validity at the warning | 14 R302 | 0 -/
  pfTime : U64
  pfValid : Bool
  /-- object 2610:02 | 14 R302 | 0 -/
  warnings : U32
  /-- a warning is in force; PFW_N low | 02 R45 | clear -/
  pfActive : Bool
  /-- RTC value at which VIO was lost, until the next start | 20 R398 | none -/
  offAt : Option U64
  inputs : List TampIn
  /-- breach latched in BACKUP | 14 R299 | clear -/
  breach : Bool
  /-- object 2630:01-03 | 14 R302 | 0 -/
  secCounts : List U32
  /-- 16 bits, object 2040:06 | 02 R53 | 0x0000 -/
  railLatches : U16
  /-- 16 bits, object 2020:01 | 03 R69 | 0x0001 -/
  resetLatches : U16
  /-- 8 bits, object 2020:02 | 03 R69 | 0 -/
  lastReset : U8
  /-- 32 bits, object 2020:03 | 03 R69 | 0 -/
  resetCount : U32
  /-- 64 bits, object 2020:04 | 03 R69 | 0 (DESIGN CHOICE, log 2) -/
  lastResetTime : U64
  /-- last-active lane | 03 R63, R67 | none -/
  lastActive : Option Lane
  /-- PWR_EN high | 03 R63 | high (DESIGN CHOICE, log 2) -/
  pwrEn : Bool
  /-- wake detector armed with frame mode or edge mode | 03 R63 | not armed -/
  wakeArmed : Option Bool
  deriving DecidableEq, Repr, Inhabited

/-- Supplies as the monitors see them (R43). -/
structure Rails where
  /-- rails out of range | 02 R43 | none -/
  out : List Rail
  /-- 32 bits, object 2040:09 | 02 R53 | 0 -/
  short : U32
  /-- both lanes and the shared ring held in reset by a fault of VCOM, VSER or VIO | 02 R43 | clear -/
  ringHeld : Bool
  /-- device reset in force, waiting for RESET_RELEASE | 02 R44 | set at power-on -/
  inReset : Bool
  deriving DecidableEq, Repr, Inhabited

/-! ## Modes -/

/-- The SAFE sequence in progress (R60, R61). -/
structure SafeSeq where
  cause : U8
  /-- period in which the cause was taken -/
  k : Nat
  /-- ramp time T, periods -/
  t : Nat
  deriving DecidableEq, Repr, Inhabited

/-- Mode unit (objects 2010, 2020 requests). -/
structure ModeUnit where
  /-- 8 bits, object 2010:02 | 03 R56 | BOOT, 0x00 -/
  mode : Mode
  /-- 8 bits, object 2010:01 | 03 R56 | 0x02 -/
  requested : U8
  /-- a request waits for its share-cycle boundary | 03 R58 | none -/
  waiting : Option U8
  /-- transition taken and not completed: target and period of completion | 03 Table 3.3 | none -/
  pending : Option (Mode × Nat)
  /-- 8 bits, object 2010:04 | 03 R56 | 0 -/
  result : U8
  /-- 64 bits, object 2010:07 | 03 R56 | 0 (DESIGN CHOICE, log 2) -/
  entered : U64
  /-- 8 bits, object 2010:08 | 03 R56 | 0 -/
  safeCause : U8
  /-- 32 bits, ms, object 2010:0A | 03 R56 | 0 (DESIGN CHOICE, log 2) -/
  bootMs : U32
  safe : Option SafeSeq
  /-- a reset follows the SAFE sequence | 03 R62 | clear -/
  resetAfter : Bool
  /-- SAFE was entered with cause 0x04 | 14 R295 | clear -/
  pfSafe : Bool
  /-- RTC value at the release of reset | 03 R56 | 0 (DESIGN CHOICE, log 2) -/
  releasedAt : U64
  /-- a lane has reached the die stop level since the device reset, object 2040:05 bit 4 | 02 R52, R53 | clear -/
  dieStop : Bool
  deriving DecidableEq, Repr, Inhabited

/-! ## Dictionary, configuration sets, communication profile -/

/-- One object value held in a set or kept by the device, canonical: keys ascending, no value equal to its default. -/
abbrev Store := List (Nat × List Byte)

/-- A copy of a live cell (R80): value, epoch and sequence number, and whether its CRC-16, whose polynomial the spec does not give,
is right (log 46). -/
structure LiveCopy where
  value : List Byte
  epoch : U32
  seq : U32
  good : Bool
  deriving DecidableEq, Repr, Inhabited

/-- A live cell (R80): two copies, written alternately. -/
structure LiveCell where
  key : Nat
  copyA : Option LiveCopy
  copyB : Option LiveCopy
  deriving DecidableEq, Repr, Inhabited

/-- A copy of the set pointer (R80): the active region and the epoch, and whether its own CRC is right. -/
structure SetPointer where
  region : Bool
  epoch : U32
  good : Bool
  deriving DecidableEq, Repr, Inhabited

/-- Configuration sets (R80-R85, object 2200). -/
structure Sets where
  /-- the active set's records | 04 R80 | defaults -/
  active : Store
  /-- the shadow set's records | 04 R80 | defaults -/
  shadow : Store
  /-- the live area: cells that have been written | 04 R80 | none -/
  live : List LiveCell
  /-- acknowledged live writes not yet published, oldest first: key, value, publication period | 04 R82 | none -/
  unpublished : List (Nat × List Byte × Nat)
  /-- published live values | 04 R82 | none -/
  published : Store
  /-- 8 bits, object 2200:01 | 04 R85 Table 4.9 | OPEN -/
  st : ShadowSt
  /-- 32 bits, object 2200:03 | 04 Table 4.9 | 0 -/
  expected : U32
  /-- 32 bits, object 2200:04 | 04 Table 4.9 | 0 (DESIGN CHOICE, log 2) -/
  computed : U32
  /-- 8 bits, object 2200:06 | 04 Table 4.9 | 0 -/
  result : U8
  /-- 32 bits, object 2200:07 | 04 Table 4.9 | 0 -/
  failing : U32
  /-- 16 bits, object 2200:08 | 04 Table 4.9 | the firmware's -/
  schema : U16
  /-- 32 bits, object 2200:0A | 04 Table 4.9 | 0 -/
  swaps : U32
  /-- 64 bits, object 2200:0B | 04 Table 4.9 | 0 (DESIGN CHOICE, log 2) -/
  lastSwap : U64
  /-- 32 bits, object 2200:0C | 04 Table 4.9 | 0 (DESIGN CHOICE, log 2) -/
  epoch : U32
  /-- 8 bits, object 2200:0D | 04 Table 4.10 | 0 -/
  flags : U8
  /-- 32 bits, object 2200:0E | 04 Table 4.9 | 0 -/
  nPublished : U32
  /-- 32 bits, object 2200:0F | 04 Table 4.9 | 0 -/
  nDiscarded : U32
  /-- commit checks running | 04 R81 | clear -/
  checking : Bool
  /-- a swap command waits for its boundary | 04 R83 | clear -/
  swapReq : Bool
  /-- boundary period and boundaries already missed | 04 R83 | none -/
  swapAt : Option Nat
  swapTries : Nat
  /-- the image in the active region passed its CRC | 04 R66 | set (DESIGN CHOICE, log 2) -/
  activeOk : Bool
  shadowOk : Bool
  /-- region named by the pointer | 04 R80 | 0 (DESIGN CHOICE, log 2) -/
  region : Bool
  /-- the two copies of the set pointer | 04 R80 | both of region 0 and epoch 0 (DESIGN CHOICE, log 2) -/
  pointers : List SetPointer
  /-- 24 generations, objects 3000+n-1:01 | 04 R86 | 0 -/
  gens : List U32
  /-- 8 bits, object 3500:03 | 06 R133 | 0 -/
  reelCode : U8
  /-- 32 bits, object 3500:04 | 06 R133 | 0 -/
  reelPos : U32
  deriving DecidableEq, Repr, Inhabited

/-- A USDO session (R76, R79). -/
structure Usdo where
  opened : Bool
  /-- abort code the session ended with -/
  abort : U32
  deriving DecidableEq, Repr, Inhabited

/-- Communication profile: dictionary server, UDP path, NMT, PDOs (R76-R79). -/
structure Comm where
  nmt : NmtSt
  sessions : List Usdo
  /-- response to the last dictionary request: abort code, data | 04 R74 | none -/
  response : Option (U32 × List Byte)
  /-- header of the last UDP response: destination, version, FLAGS, sequence | 04 R78 | none -/
  udpHeader : Option (List Byte × U8 × U8 × U16)
  /-- UDP requests answered within 2 s: source, sequence, time ns, response | 04 R78 | none -/
  cache : List (List Byte × U16 × Nat × (U32 × List Byte))
  /-- 32 bits, object 1FA0:07 | 04 R78 | 0 -/
  dropped : U32
  /-- 8 bits, object 1001 | 04 R76 | 0 (DESIGN CHOICE, log 2) -/
  errorReg : U8
  /-- EMCY frames sent | 04 R76 | 0 -/
  emcy : U32
  /-- heartbeats produced | 04 R76 | 0 -/
  heartbeats : U32
  /-- ns at which each transmit PDO was last queued | 04 R76 | none -/
  tpdoAt : List (Option Nat)
  /-- values of the rw objects the device keeps beside the sets | 04 R72 | defaults -/
  rw : Store
  deriving DecidableEq, Repr, Inhabited

/-! ## Vehicle links -/

/-- Timers of Table 15.6 running on a link. -/
structure Timers where
  slac : Bool
  setup : Bool
  authorization : Bool
  sequence : Bool
  precharge : Bool
  loopSilence : Bool
  deriving DecidableEq, Repr, Inhabited

/-- A response to the vehicle (R311, R316, R319): limits W, 0.1 A, 0.1 V, the two limit flags, and the status: 0 OK, 1 failed, 2 sequence
error, 3 authorization ongoing, 4 normal stop, 5 stop notification, 6 emergency, 7 SLAC confirm, 8 attenuation report, 9 validation not
required. -/
structure VehResponse where
  power : Nat
  current : Nat
  voltage : Nat
  currentLimit : Bool
  powerLimit : Bool
  status : U8
  deriving DecidableEq, Repr, Inhabited

/-- A vehicle link and its charging session (R303-R322). -/
structure Session where
  /-- 8 bits, object 3740+n-1:01 | 15 R322 | IDLE -/
  st : SessSt
  /-- 8 bits, object :02 | 15 R322 | 0 -/
  protocol : U8
  /-- 8 bits, object :03 | 15 R322 | 0 -/
  pilot : U8
  /-- 32 bits, object :04 | 15 R322 | 0 -/
  id : U32
  /-- 16 bits, object :05 | 15 R322 | 0xFFFF -/
  account : U16
  /-- 8 bits, object :06 | 15 R322 | 0 -/
  source : U8
  /-- object :07 | 15 R322 | empty -/
  emaid : List Byte
  /-- contract certificate verified | 15 R312 | clear -/
  certOk : Bool
  /-- objects :08-:0B and the further vehicle values | 15 R322 | 0 -/
  values : VehicleValues
  /-- vehicle values in force, taken at cycle 0 after decoding | 15 R317 | 0 -/
  inForce : VehicleValues
  /-- 8 bits, object :0C | 15 R322 | 0 -/
  hostAuth : U8
  /-- 8 bits, object :0D | 15 R322 | 0 -/
  isolation : U8
  /-- time of the last isolation write, ns | 15 R318 | none -/
  isoAt : Option Nat
  /-- 8 bits, object :0E | 15 R322 | 0 -/
  cause : U8
  /-- 32 bits, object :0F | 15 R322 | 0 -/
  target : U32
  /-- 64 bits, object :10 | 15 R322 | 0 -/
  departure : U64
  /-- 32 bits, object :11 | 15 R322 | 0 -/
  count : U32
  plugged : Bool
  out : PilotOut
  timers : Timers
  /-- bridge peer present | 15 R306 | clear -/
  peer : Bool
  /-- authorization is waiting for the host | 15 R312 | clear -/
  authWait : Bool
  /-- a SLAC match is held with a membership key | 15 R305 | none -/
  nmk : Option Nat
  /-- cable check passed | 15 R318 | clear -/
  cablePassed : Bool
  /-- published VLIM, 0.1 V | 15 R317 | 0 -/
  vlim : U16
  /-- thermal hold running | 15 R319 | clear -/
  thermalHold : Bool
  /-- FAULT_WAIT wins when STOPPING ends | 15 Table 15.5 | clear -/
  toFault : Bool
  /-- period of the first end cause, entry into STOPPING | 15 R313, R321 | 0 -/
  stopAt : Nat
  /-- ns at the session start | 08 Table 8.7 | 0 -/
  startNs : Nat
  /-- CONT and LOCK the session asks for | 15 R313 | 0 -/
  cont : Bool
  lock : Bool
  /-- import of the bay since session start, mJ | 15 R315 | 0 -/
  energy : Int
  /-- the host gave the target or the departure at session start, so the vehicle's values do not reach them | 15 R315 | clear -/
  targetFixed : Bool
  departFixed : Bool
  /-- a request with limits waits for its response: period of its last frame, and whether the limits are advertised | 15 R316 | none -/
  pend : Option (Nat × Bool)
  /-- last response | 15 R316 | none -/
  response : Option VehResponse
  deriving DecidableEq, Repr, Inhabited

/-- All vehicle links. -/
structure Vehicles where
  links : List Session
  /-- 32 bits, object 3700:0B | 15 R322 | 0 -/
  ended : U32
  deriving DecidableEq, Repr, Inhabited

/-! ## Site bus and site time -/

/-- A site-bus channel (R323-R343, object 3820+x). -/
structure Channel where
  st : ChanSt
  /-- 8 bits each, objects :02, 03 | 16 R344 | 0 -/
  tec : Nat
  rec_ : Nat
  /-- objects :04-:0A | 16 R344 | 0 -/
  received : U32
  sent : U32
  errors : U32
  dropped : U32
  windowDiscards : U32
  cancels : U32
  busOffs : U32
  sched : SchedSt
  /-- object :0C | 16 R344 | 0 -/
  cycle : Nat
  /-- objects :0D, 0F, 10 | 16 R344 | 0 -/
  foreign : U32
  duplicates : U32
  fedRefused : U32
  /-- object :11 | 16 R344 | 0 -/
  wakeCause : U8
  /-- transmit queues TX0-TX3, oldest first | 16 R328 | empty -/
  tx : List (List CanFrame)
  /-- receive queues RX0, RX1 | 16 R327 | empty -/
  rx : List (List CanFrame)
  /-- a cancel held until the transmission of a head ends: queue | 16 R329 | none -/
  cancelHeld : Option Nat
  /-- monitor ring, 64 entries, oldest first: site time and frame | 16 R327 | empty -/
  monitor : List (U64 × CanFrame)
  /-- times of bus-offs within 60 s, ns | 16 R330 | none -/
  busOffTimes : List Nat
  /-- basic cycle, counted from 2000, of the last reference taken | 16 R336, R338 | none -/
  refAt : Option Nat
  /-- frames accepted within the duplicate window: time ns and frame | 16 R327 | none -/
  history : List (Nat × CanFrame)
  /-- frame-error count of selective wake | 16 R341 | 0 -/
  wakeErrors : Nat
  /-- exclusive window open: column | 16 R337 | none -/
  window : Option Nat
  deriving DecidableEq, Repr, Inhabited

/-- Site time and PTP (R332, R333, object 3800). -/
structure SiteTime where
  /-- ns since 2000-01-01 | 16 R332 | RTC register, 0 at POR -/
  ns : Nat
  /-- 8 bits, object 3800:03 | 16 R344 | 0 -/
  source : U8
  /-- offset still to steer, ns | 16 R332 | 0 -/
  steer : Int
  /-- locked | 16 R333 | clear -/
  locked : Bool
  /-- consecutive Sync messages of 1 us or less | 16 R333 | 0 -/
  good : Nat
  /-- PTP was lost and holdover runs | 16 R332 | clear -/
  holdover : Bool
  /-- PTP time in ns | 16 R333 | 0 (DESIGN CHOICE, log 2) -/
  ptpNs : Nat
  /-- 32 bits, object 3800:08 | 16 R344 | 0 -/
  offset : Int
  /-- 32 bits, object 3800:09 | 16 R344 | 0 -/
  delay : U32
  /-- 64 bits, object 3800:0A | 16 R344 | 0 -/
  gm : U64
  /-- masters heard: identity and rank | 16 R333 | none -/
  masters : List (U64 × List Nat)
  /-- basic cycles left in which a channel C reference with PTP = 1 qualifies | 16 R332 | 0 -/
  chanC : Nat
  /-- time ns of the last comparison with the RTC | 14 R290 | 0 -/
  compared : Nat
  deriving DecidableEq, Repr, Inhabited

/-! ## Trievo -/

/-- A peer of the Trievo network (R354-R356, object 3911). -/
structure Peer where
  addr : U8
  /-- 0 direct, 1 relayed, 2 repeater, 3 poorly reached -/
  st : U8
  phase : U8
  modulation : U8
  snrDl : U8
  snrUl : U8
  repeater : U8
  serial : U32
  /-- the last 32 unicasts, newest first: first-attempt success, final failure -/
  hist : List (Bool × Bool)
  lastHeard : U16
  /-- consecutive ACKs 2 dB above the next threshold -/
  upRun : Nat
  /-- link reports of its latest STATUS: address and SNR -/
  hears : List (U8 × U8)
  /-- beacon SNR of the latest STATUS and superframes at or above the return level -/
  beaconSnr : U8
  returnRun : Nat
  /-- superframes as a repeater without serving a peer -/
  idleRun : Nat
  /-- phase learning is due -/
  learn : Bool
  /-- no SNR reported yet -/
  fresh : Bool
  deriving DecidableEq, Repr, Inhabited

/-- A frame of the coordinator that waits to be sent or acknowledged (R352, R353): TYPE, destination, payload, priority, retries made,
host mailbox, SEQ once sent, and the peer the frame was sent to. -/
structure Unicast where
  ftype : BitVec 4
  dst : U8
  payload : List Byte
  ackReq : Bool
  prio : Nat
  k : Nat
  mailbox : Bool
  seq : Option (BitVec 4)
  via : U8
  deriving DecidableEq, Repr, Inhabited

/-- A frame on the line (R345-R350): frame control word, couplers driven (0 all three, else one), and the phase of each of the 64 data
subcarriers in each symbol, in units of pi/64. -/
structure TrievoSent where
  fc : U64
  couplers : Nat
  symbols : List (List Nat)
  deriving DecidableEq, Repr, Inhabited

/-- The Trievo link (chapter 17, objects 3901, 3911, 3920). -/
structure Trievo where
  /-- 16 bits, object 3901:01 | 17 R361 | 0 -/
  sfn : U16
  peers : List Peer
  /-- allocations of the superframe: owner, first slot, length, repeat beacon | 17 R351 | none -/
  allocs : List (U8 × Nat × Nat × Bool)
  /-- object 3901:04 | 17 R361 | 20 -/
  cpStart : Nat
  /-- objects 3901:05-0C | 17 R361 | 0 -/
  sent : U32
  accepted : U32
  crcFails : U32
  retries : U32
  finals : U32
  refused : U32
  promotions : U32
  demotions : U32
  /-- unicast waiting for its ACK | 17 R349 | none -/
  waiting : Option Unicast
  /-- frame numbers sent | 17 R347 | 0 -/
  seq : BitVec 4
  /-- transmit queue, oldest first | 17 R352 | empty -/
  txq : List Unicast
  /-- (SRC, SEQ, time ns) accepted within 2 s | 17 R349 | none -/
  seen : List (U8 × BitVec 4 × Nat)
  /-- mailbox frames waiting: SRC, PORT, data | 17 R361 | none -/
  mailbox : List (U8 × U8 × List Byte)
  /-- mailbox frame read last | 17 R361 | empty -/
  mailRead : List Byte
  /-- object 3920:02 | 17 R361 | 0 -/
  txResult : U8
  /-- ACKs and responses sent: destination, SEQ, SNR of the last ACK | 17 R349 | none -/
  lastAck : Option (U8 × BitVec 4 × U8)
  /-- last ASSOC_RESP: serial, address (0 refused) | 17 R356 | none -/
  lastAssoc : Option (U32 × U8)
  /-- the frame sent last | 17 R347, R348 | none -/
  lastTx : Option TrievoSent
  deriving DecidableEq, Repr, Inhabited

/-! ## Life cycle, fast store, storage and update -/

/-- Life cycle, fuses and keystore service objects shared by the lanes (R372-R378). -/
structure LifeCycle where
  /-- 8 fuse bits | 18 R372 | 0x00, MANUFACTURE -/
  fuse : U8
  /-- root seed present (opaque), root lock, debug disable | 18 R373 | none, clear, clear -/
  seeded : Bool
  rootLock : Bool
  debugOff : Bool
  /-- object 2180:09 | 01 R30 | 8 -/
  rows : Nat
  /-- 128 bits, object 2030:02 | 18 R373 | 0 (DESIGN CHOICE, log 2) -/
  identity : List Byte
  /-- object 2030:05 | 18 R378 | 0 -/
  lastChange : U64
  /-- object 2401:02 | 18 R378 | 0 -/
  result : U8
  /-- objects 2402:04, 05 | 18 R378 | empty -/
  statement : List Byte
  csr : List Byte
  deriving DecidableEq, Repr, Inhabited

/-- Fast-store controller (R10, R301). -/
structure FastStore where
  /-- object 2180:06 | 01 R30 | 256 -/
  rows : Nat
  /-- rows written through FAST_STORE_WRITE: region number and row as one key, ascending | 01 R10 | none -/
  cells : List (Nat × List Byte)
  /-- result of the last write: 0 stored, 1 access error, 2 write failed | 01 R10, 14 R301 | 0 -/
  result : Nat
  deriving DecidableEq, Repr, Inhabited

/-- A NAND block that carries state (R392-R398). -/
structure NandBlk where
  id : Nat
  stream : Option Stream
  /-- partition of Table 20.2 -/
  part : Nat
  erases : Nat
  reads : Nat
  bad : Bool
  /-- block sequence number of the page metadata (R393) -/
  seq : Nat
  /-- pages programmed: page number and data -/
  pages : List (Nat × List Byte)
  deriving DecidableEq, Repr, Inhabited

/-- The storage manager (R390-R398, R192, objects 2500, 2502). -/
structure Nand where
  /-- object 2500:01 | 20 R410 | 0 -/
  st : U8
  /-- blocks with state, ascending by number | 20 R395 | none -/
  blocks : List NandBlk
  /-- blocks of the spare pool | 20 R395 | 0 until formatted -/
  spare : Nat
  /-- good blocks at format | 20 R396 | 0 until formatted -/
  good : Nat
  /-- objects 2500:03, 04 | 20 R410 | 0 -/
  factoryBad : U32
  grown : U32
  /-- 64 bits, object 2500:05 | 20 R410 | 0 -/
  corrected : U64
  /-- object 2500:06 | 20 R410 | 0 -/
  scrubPos : Nat
  /-- the scrub reads at normal priority until it has completed one pass | 20 R398 | clear -/
  scrubFirst : Bool
  /-- objects 2500:07, 08 | 20 R410 | 0 -/
  uncorrectable : U32
  moves : U32
  /-- blocks lent by partitions 5 and 6 | 20 R395 | 0 -/
  borrowed : Nat
  /-- open block of each stream, erase counts decide | 09 R192 | none -/
  opened : List (Stream × Nat)
  /-- block sequence number of the next block | 20 R393 | 0 -/
  nextSeq : Nat
  /-- channel and target that takes each stream's next block in its rotation, 0 where a stream is not listed | 09 R192 | none -/
  targets : List (Stream × Nat)
  /-- answer of the last request: done, data | 20 R392 | none -/
  answer : Option (Bool × List Byte)
  /-- load-profile records written | 20 R396 | 0 -/
  profiles : U32
  /-- 32 bits, object 3301:08 | 09 R192 | 0 -/
  relocations : U32
  /-- ns of the last static relocation | 09 R192 | none -/
  relocAt : Option Nat
  /-- highest signed record held in partition 7 | 20 R409 | none -/
  lastSigned : Option U32
  deriving DecidableEq, Repr, Inhabited

/-- A staging buffer (R399, object 2513). -/
structure Staging where
  receiving : Bool
  received : Bool
  next : Nat
  length : Nat
  image : List Byte
  copiedA : Bool
  copiedB : Bool
  reject : Nat
  version : U32
  deriving DecidableEq, Repr, Inhabited

/-- Service port, staging and activation (R399-R408, objects 2510-2513). -/
structure Update where
  buf0 : Staging
  buf1 : Staging
  /-- the service port is attached | 20 R399 | clear -/
  attached : Bool
  /-- answer to the last service command, 16 bytes | 20 R399 | none -/
  answer : Option (List Byte)
  /-- object 2510:01 | 20 R410 | 0 -/
  source : U8
  /-- object 2510:03 | 20 R410 | 0 -/
  st : SeqSt
  /-- object 2510:04 | 20 R410 | 0 -/
  result : U8
  /-- object 2510:08 | 20 R410 | 0 -/
  minSecurity : U16
  /-- source named by the running sequence | 20 R403 | none -/
  seqSource : Option Nat
  /-- lane being updated | 20 R404 | none -/
  seqLane : Option Lane
  /-- a command waits for the share-cycle boundary | 20 R404 | clear -/
  seqReq : Bool
  /-- host confirm written | 20 R405 | clear -/
  hostConfirm : Bool
  deriving DecidableEq, Repr, Inhabited

/-! ## Shared counters and low-spare flags -/

/-- Periods and spares (objects 3600:06, 2180). -/
structure Clock where
  /-- 64 bits, object 3600:06 | 05 R88 | 0 (DESIGN CHOICE, log 2) -/
  period : Nat
  /-- running period is 50 us, object 3600:07 | 05 R88 | clear -/
  long : Bool
  /-- Lambda and A as read at boot, cycles and ns | 05 R88, R91 | defaults -/
  lam : Nat
  advance : Int
  /-- ns since the release of reset | 03 R64 | 0 -/
  ns : Nat
  /-- 16 bits, object 2180:0C | 01 R30 | 0 -/
  lowSpare : U16
  /-- host loop command that waits: code of its loop and command; result, object 3501:03 | 07 R136, R154 | none, 0 -/
  loopCmd : Option (U16 × U8)
  loopResult : U8
  /-- characters each spur link sends from cycle 0 of the running period, with the mark of a control character; idle pairs fill the
  rest | 05 R92, R95 | none -/
  spurTx : List (List (Bool × Byte))
  cap : Capture
  inj : Injection
  fed : Federation
  deriving DecidableEq, Repr, Inhabited

/-! ## The whole block -/

/-- Reasons for which a command stops the block: there is none, since every command of every form has an effect (log 6). -/
inductive Fault
  deriving DecidableEq, Repr

/-- Reasons for which a command has no meaning. -/
inductive Refusal where
  /-- Raised by an arm of `exec` whose command has no meaning yet: safe. -/
  | notModelled (mnemonic : String)
  deriving DecidableEq, Repr, Inhabited

/-- The whole device. -/
structure State where
  /-- commands waiting, first in, first out | the model's own queue | empty -/
  pending : List Instr
  /-- index of the next free value | the model's own field | 0 (DESIGN CHOICE, log 3) -/
  free : Nat
  clk : Clock
  modes : ModeUnit
  rails : Rails
  bk : Backup
  jct : Junction
  laneA : LaneState
  laneB : LaneState
  met : Metro
  sets : Sets
  comm : Comm
  veh : Vehicles
  chans : List Channel
  site : SiteTime
  tri : Trievo
  life : LifeCycle
  fs : FastStore
  nand : Nand
  upd : Update
  recs : RecCounts
  /-- at most 64 tap records crossing the barrier, oldest first | 01 R17, Table 1.6 | empty -/
  taps : List TapRecord
  deriving DecidableEq, Repr, Inhabited

/-! ## Reset

Every field at the value the spec gives for reset (its row in INVENTORY.md); where the spec gives none, at the value
named in log entry 2. -/

/-- A cleared stage: mantissas 0, exponent -32, valid (R111). -/
def Stage.zero : Stage := { m := List.replicate 8 0, e := 32, inv := false }

/-- A cleared accumulator (R111, R124). -/
def Acc.zero : Acc := { a := List.replicate 8 0, x := 64, inv := false }

/-- A relay cell at 0. -/
def Cell.zero : Cell := { m := 0, e := 32, inv := false }

/-- A cleared state block (R110, R137). -/
def StateBlock.zero : StateBlock := { p := List.replicate 8 Stage.zero, q := List.replicate 4 Acc.zero, bad := false }

/-- Role of tile t after reset (R109). -/
def TileRole.atReset (t : Nat) : TileRole := if t < 8 then .fast else if t = 8 then .slow else .spare

/-- Tile t after reset (R109, R110). -/
def Tile.reset (t : Nat) : Tile :=
  { role := TileRole.atReset t, slots := List.replicate 16 none, blocks := List.replicate 16 StateBlock.zero,
    instrBanks := List.replicate 2 (List.replicate 16 []), constBanks := List.replicate 2 (List.replicate 16 []),
    bank := false, running := none, corrected := 0, fault := false, relieved := false }

/-- A frame slot with no frame: MISSING (Table 1.2). -/
def FrameSlot.empty : FrameSlot := { (default : FrameSlot) with status := 1 }

/-- A spur link after reset: DOWN, last status MISSING (Table 5.15). -/
def Link.reset : Link := { (default : Link) with acq := true, lastStatus := 1 }

/-- An idle queue of depth d: Q = 0, C = D (R28). -/
def HwQueue.empty (d : Nat) : HwQueue := { (default : HwQueue) with credit := d }

/-- Depth of queue q (Table 1.8): channels A-D 2 receive of 64 then 4 transmit of 16, and so on. -/
def queueDepth (q : Nat) : Nat :=
  if q < 24 then (if q % 6 < 2 then 64 else 16)
  else if q < 72 then 32
  else if q < 88 then 256
  else if q < 92 then 64
  else if q < 98 then 16
  else if q < 100 then 256
  else if q < 108 then 32
  else if q < 124 then 8
  else 256

/-- A string's share-engine state: SoC not reported (Table 8.16). -/
def StrState.reset : StrState := { (default : StrState) with reported := 0xFFFF }

/-- The share engine after reset. -/
def Share.reset : Share :=
  { (default : Share) with
    bayAcc := List.replicate 24 default, strAcc := List.replicate 8 default
    gb := List.replicate 24 0, gs := List.replicate 8 0, hi := List.replicate 24 0, code := List.replicate 24 0
    need := List.replicate 24 0, iHard := List.replicate 24 0, w := List.replicate 24 0, wd := List.replicate 8 0, wc := List.replicate 8 0
    d := List.replicate 8 0, c := List.replicate 8 0, pd := List.replicate 8 0, pc := List.replicate 8 0
    ref := List.replicate 24 0, ilim := List.replicate 24 0, sref := List.replicate 8 0, slim := List.replicate 8 0
    share := List.replicate 96 { m := 0, e := 0, inv := false }, offerP := List.replicate 24 0, offerI := List.replicate 24 0
    offerV := List.replicate 24 0, funded := List.replicate 24 false, strs := List.replicate 8 StrState.reset
    pol := { s := List.replicate 16 0, f := false, outs := [0, 0], inputs := List.replicate 32 0 } }

/-- Waypoint after reset: no module taken yet (R413). -/
def Waypoint.reset : Waypoint :=
  { (default : Waypoint) with
    mods := List.replicate 96 { (default : Module) with afresh := true }, cabMoves := List.replicate 24 0 }

/-- A thermal channel with n nodes and k sensors, to be initialised at its first update (R196). -/
def ThChan.reset (n k : Nat) : ThChan :=
  { (default : ThChan) with
    nodes := List.replicate n default
    sensors := List.replicate k { st := .unavailable, count := 0, prev := none, word := none }
    init := true, theta := 0xFFFF, nTheta := 0xFFFF }

/-- The thermal model after reset. -/
def Thermal.reset : Thermal :=
  { bays := List.replicate 24 (ThChan.reset 8 16), mods := List.replicate 96 (ThChan.reset 2 1)
    strs := List.replicate 8 (ThChan.reset 2 8), xfmr := ThChan.reset 2 0
    hub := List.replicate 4 { st := .unavailable, count := 0, prev := none, word := none }
    updates := 0, ptx := 0xFFFFFFFF, nPtx := 0xFFFFFFFF, ambient := 40000, coolant := 35000
    fan := List.replicate 24 0, nFan := List.replicate 24 0 }

/-- Slot directory as delivered: slot 0 holds the current image. -/
def SlotDir.reset : SlotDir :=
  { (default : SlotDir) with slot0 := { (default : FwSlot) with present := true }, reject := [0, 0] }

/-- Die temperature unit of a lane with its four sensors. -/
def DieTemp.reset : DieTemp :=
  { (default : DieTemp) with
    offRun := List.replicate 4 0, excluded := List.replicate 4 false, setRun := [0, 0, 0], clearRun := [0, 0] }

/-- An output-table entry of a link: at most nine words (Table 5.5). -/
def OutLink.reset : OutLink := { words := List.replicate 9 0, hdr := 0 }

/-- A lane after reset. -/
def LaneState.reset : LaneState :=
  { ctl := { (default : LaneCtl) with gens := List.replicate 24 0, cont := List.replicate 32 false,
                                      lock := List.replicate 24 false }
    temp := DieTemp.reset
    health := default
    bank0 := List.replicate 64 FrameSlot.empty
    bank1 := List.replicate 64 FrameSlot.empty
    links := List.replicate 64 Link.reset
    out := List.replicate 64 OutLink.reset
    latched := List.replicate 64 OutLink.reset
    tiles := (List.range 10).map Tile.reset
    relay := List.replicate 256 Cell.zero
    bayLoops := List.replicate 24 default
    modLoops := List.replicate 96 default
    strLoops := List.replicate 8 default
    slowLoops := List.replicate 15 default
    share := Share.reset
    wp := Waypoint.reset
    th := Thermal.reset
    queues := (List.range 128).map fun q => HwQueue.empty (queueDepth q)
    roleMap := List.range 128
    evq := []
    signed := []
    recd := default
    ks := default
    slots := SlotDir.reset
    grid := default
    reading := none
    published := none }

/-- A DC channel as Table 11.15 gives its defaults. -/
def DcChan.reset : DcChan :=
  { (default : DcChan) with
    starting := 10, gV := 1000000, gI := 1000000, lastLink := 0xFF, restart := true }

/-- The AC meter with the defaults of Table 11.14. -/
def AcMeter.reset : AcMeter :=
  { (default : AcMeter) with
    wiring := 2, fnom := 50, gains := List.replicate 7 1000000, offsets := List.replicate 7 0
    phases := List.replicate 7 0, volts := [0, 0, 0], amps := [0, 0, 0, 0], pq := [900, 1100, 50, 20, 100], pqCounts := List.replicate 5 0 }

/-- The billing registers before any energy. -/
def BillRegs.reset : BillRegs :=
  { (default : BillRegs) with
    groups := List.replicate 292 (List.replicate 28 0), sessions := List.replicate 32 none
    winImp := List.replicate 33 { subs := [0] }, winExp := List.replicate 33 { subs := [0] }
    winSpans := [{ cycles := 0, stepped := false, incomplete := false }], spanFlags := List.replicate 290 0 }

/-- Billing before any calendar or milestone (R256). -/
def Billing.reset : Billing := { (default : Billing) with regs := BillRegs.reset }

/-- The metrology section before its first start. -/
def Metro.reset : Metro :=
  { ctl := { (default : MetCtl) with st := .halted, rows := 128, sealOpen := true }
    ac := AcMeter.reset
    dc := List.replicate 32 DcChan.reset
    pout := List.replicate 4 default
    pin := List.replicate 4 { (default : PulseIn) with debounce := 50 }
    bill := Billing.reset }

/-- The Junction in reset: no lane steered, SAFE_N low (R64). -/
def Junction.reset : Junction :=
  { (default : Junction) with lost := true, safeN := .low, peak := -32768 }

/-- The backup domain after POR (R69, R289). -/
def Backup.reset : Backup :=
  { (default : Backup) with
    invalid := true, inputs := List.replicate 4 default, secCounts := [0, 0, 0], resetLatches := 1, pwrEn := true }

/-- A vehicle link in IDLE with pilot output at high impedance (R307, Table 15.11). -/
def Session.reset : Session := { (default : Session) with account := 0xFFFF, out := .hiZ }

/-- A site-bus channel that is off. -/
def Channel.reset : Channel :=
  { (default : Channel) with tx := List.replicate 4 [], rx := List.replicate 2 [] }

/-- The Trievo link before its first beacon. -/
def Trievo.reset : Trievo := { (default : Trievo) with cpStart := 20 }

/-- The life cycle of a device as manufactured. -/
def LifeCycle.reset : LifeCycle := { (default : LifeCycle) with rows := 8, identity := List.replicate 16 0 }

/-- The configuration sets at their defaults. -/
def Sets.reset : Sets :=
  { (default : Sets) with activeOk := true, shadowOk := true, gens := List.replicate 24 0
                          pointers := List.replicate 2 { region := false, epoch := 0, good := true } }

/-- The communication profile before any request. -/
def Comm.reset : Comm :=
  { (default : Comm) with sessions := List.replicate 4 default, tpdoAt := List.replicate 16 none }

/-- The whole device right after power-on, its rails not yet released from reset. -/
def State.reset : State :=
  { pending := []
    free := 0
    clk := { (default : Clock) with lam := 4000, advance := 2500, spurTx := List.replicate 64 []
                                    fed := { (default : Federation) with fallback := true } }
    modes := { (default : ModeUnit) with mode := .boot, requested := 2 }
    rails := { (default : Rails) with inReset := true }
    bk := Backup.reset
    jct := Junction.reset
    laneA := LaneState.reset
    laneB := LaneState.reset
    met := Metro.reset
    sets := Sets.reset
    comm := Comm.reset
    veh := { links := List.replicate 24 Session.reset, ended := 0 }
    chans := List.replicate 4 Channel.reset
    site := default
    tri := Trievo.reset
    life := LifeCycle.reset
    fs := { (default : FastStore) with rows := 256 }
    nand := default
    upd := default
    recs := default
    taps := [] }

/-! ## Access to a lane -/

/-- The state of lane l. -/
def State.lane (s : State) (l : Lane) : LaneState :=
  match l with
  | .a => s.laneA
  | .b => s.laneB

/-- s with lane l replaced. -/
def State.setLane (s : State) (l : Lane) (x : LaneState) : State :=
  match l with
  | .a => { s with laneA := x }
  | .b => { s with laneB := x }

/-- s with lane l changed by f. -/
def State.modLane (s : State) (l : Lane) (f : LaneState → LaneState) : State := s.setLane l (f (s.lane l))

/-- The Junction's record of lane l. -/
def Junction.lane (j : Junction) (l : Lane) : JLane :=
  match l with
  | .a => j.laneA
  | .b => j.laneB

/-- j with the record of lane l changed by f. -/
def Junction.modLane (j : Junction) (l : Lane) (f : JLane → JLane) : Junction :=
  match l with
  | .a => { j with laneA := f j.laneA }
  | .b => { j with laneB := f j.laneB }

end Sys2Proof.Machine
end

