-- ==== Sys2Proof/Machine/Bits.lean ====
section
/-! DEFINITION. Bytes, checksums, lists by index and exact scaled integers: the helpers every unit shares. -/

namespace Sys2Proof.Machine

/-! ## Lists by index -/

/-- Element i of l, or the default where l is shorter. -/
def nth {α : Type} [Inhabited α] (l : List α) (i : Nat) : α := l.getD i default

/-- l with element i changed by f; l itself where it is shorter. -/
def upd {α : Type} (l : List α) (i : Nat) (f : α → α) : List α := l.modify i f

/-- l with element i replaced. -/
def put {α : Type} (l : List α) (i : Nat) (x : α) : List α := l.modify i fun _ => x

/-- Position of the first element that satisfies p. -/
def findPos {α : Type} (p : α → Bool) : List α → Option Nat
  | [] => none
  | x :: xs => if p x then some 0 else (findPos p xs).map (· + 1)

/-- Sum of a list of integers. -/
def sumInt (l : List Int) : Int := l.foldl (· + ·) 0

/-- Sum of a list of naturals. -/
def sumNat (l : List Nat) : Nat := l.foldl (· + ·) 0

/-- The last n elements of l. -/
def lastN {α : Type} (n : Nat) (l : List α) : List α := l.drop (l.length - n)

/-! ## Bytes, little-endian (R4) -/

/-- The n low bytes of v, least significant first. -/
def leBytes : Nat → Nat → List Byte
  | 0, _ => []
  | n + 1, v => BitVec.ofNat 8 v :: leBytes n (v / 256)

/-- The n low bytes of v, most significant first. -/
def beBytes (n v : Nat) : List Byte := (leBytes n v).reverse

/-- The value of little-endian bytes. -/
def ofLe : List Byte → Nat
  | [] => 0
  | b :: bs => b.toNat + 256 * ofLe bs

/-- Two's-complement value of a w-bit number. -/
def signed (w v : Nat) : Int :=
  let m := v % 2 ^ w
  if m < 2 ^ (w - 1) then (m : Int) else (m : Int) - (2 : Int) ^ w

/-- The value of little-endian two's-complement bytes. -/
def ofLeSigned (b : List Byte) : Int := signed (8 * b.length) (ofLe b)

/-- The n low bytes of an integer in two's complement. -/
def leBytesInt (n : Nat) (v : Int) : List Byte := leBytes n (v % (256 : Int) ^ n).toNat

/-- Bytes b padded with zeros to n. -/
def padTo (n : Nat) (b : List Byte) : List Byte := b ++ List.replicate (n - b.length) 0

/-- The bytes of b from offset o, n of them. -/
def slice (b : List Byte) (o n : Nat) : List Byte := (b.drop o).take n

/-- Little-endian field of n bytes at offset o. -/
def field (b : List Byte) (o n : Nat) : Nat := ofLe (slice b o n)

/-- All bytes of b are zero. -/
def allZero (b : List Byte) : Bool := b.all (· == 0)

/-! ## Checksums -/

/-- One bit of a reflected CRC register. -/
def crcReflBit {w : Nat} (poly c : BitVec w) : BitVec w :=
  if c.getLsbD 0 then (c >>> 1) ^^^ poly else c >>> 1

/-- One byte of a reflected CRC register. -/
def crcReflByte {w : Nat} (poly c : BitVec w) (b : Byte) : BitVec w :=
  (List.range 8).foldl (fun r _ => crcReflBit poly r) (c ^^^ b.setWidth w)

/-- CRC-32 of IEEE 802.3 over bytes (R80). -/
def crc32 (bs : List Byte) : U32 :=
  (bs.foldl (crcReflByte 0xEDB88320#32) 0xFFFFFFFF#32) ^^^ 0xFFFFFFFF#32

/-- CRC-64 of the digest: polynomial 0x42F0E1EBA9EA3693 reflected (R274). -/
def crc64 (bs : List Byte) : U64 :=
  (bs.foldl (crcReflByte 0xC96C5795D7870F42#64) 0xFFFFFFFFFFFFFFFF#64) ^^^ 0xFFFFFFFFFFFFFFFF#64

/-- One byte of the CRC-16 register, polynomial 0x1021, most significant bit first. -/
def crc16Byte (c : U16) (b : Byte) : U16 :=
  (List.range 8).foldl
    (fun r _ => if r.getLsbD 15 then (r <<< 1) ^^^ 0x1021#16 else r <<< 1) (c ^^^ (b.setWidth 16 <<< 8))

/-- CRC-16, polynomial 0x1021, initial 0xFFFF, no reflection, no final XOR (R275, R347, R379). -/
def crc16 (bs : List Byte) : U16 := bs.foldl crc16Byte 0xFFFF#16

/-! ## Rounding (R123) -/

/-- v shifted right by k bits, to nearest with ties toward plus infinity; a negative k shifts left. -/
def roundShift (v : Int) (k : Int) : Int :=
  if k ≤ 0 then v * 2 ^ (-k).toNat else (v + 2 ^ (k.toNat - 1)) / 2 ^ k.toNat

/-- n / d rounded to nearest with ties toward plus infinity, d positive. -/
def roundDiv (n : Int) (d : Nat) : Int := (2 * n + d) / (2 * d)

/-- v limited to lo to hi. -/
def clampInt (lo hi v : Int) : Int := if v < lo then lo else if hi < v then hi else v

/-- n / d rounded up, d positive. -/
def ceilDiv (n d : Nat) : Nat := (n + d - 1) / d

/-- v rounded toward minus infinity to a multiple of q. -/
def floorTo (q v : Int) : Int := v / q * q

/-! ## REAL32 (Table 4.1) -/

/-- Exponent field of a REAL32. -/
def realExp (w : U32) : Nat := (w.toNat / 2 ^ 23) % 256

/-- A REAL32 that is neither a NaN nor an infinity. -/
def realFinite (w : U32) : Bool := realExp w != 255

/-- A finite REAL32 as n * 2^x. -/
def realVal (w : U32) : Int × Int :=
  let f : Int := (w.toNat % 2 ^ 23 : Nat)
  let n : Int := if realExp w = 0 then f else f + 2 ^ 23
  let x : Int := (if realExp w = 0 then 1 else realExp w : Nat) - 150
  (if w.getLsbD 31 then -n else n, x)

/-- Number of bits of a natural. -/
def bitLen (n : Nat) : Nat := if n = 0 then 0 else Nat.log2 n + 1

/-- The REAL32 of n * 2^x for an n of at most 24 bits in the normal range, exact; 0 for n = 0. -/
def toReal32 (n x : Int) : U32 :=
  if n = 0 then 0
  else
    let l := bitLen n.natAbs
    let e : Int := x + l - 1 + 127
    let m : Nat := n.natAbs * 2 ^ (24 - l) - 2 ^ 23
    BitVec.ofNat 32 ((if n < 0 then 2 ^ 31 else 0) + e.toNat * 2 ^ 23 + m)

/-- Comparison of n1 * 2^x1 with n2 * 2^x2, exact (R123). -/
def cmpExact (a b : Int × Int) : Ordering :=
  let lo := min a.2 b.2
  compare (a.1 * 2 ^ (a.2 - lo).toNat) (b.1 * 2 ^ (b.2 - lo).toNat)

/-! ## Canonical stores

A store lists keys in strictly ascending order; a value equal to the default of its key is not listed, so that equal
stores are equal data. -/

/-- The value stored at k, if any. -/
def Store.get (st : Store) (k : Nat) : Option (List Byte) :=
  (st.find? fun p => p.1 == k).map (·.2)

/-- st with nothing stored at k. -/
def Store.erase (st : Store) (k : Nat) : Store := st.filter fun p => p.1 != k

/-- v inserted at k in ascending order, k not yet present. -/
def Store.insert (k : Nat) (v : List Byte) : Store → Store
  | [] => [(k, v)]
  | p :: ps => if k < p.1 then (k, v) :: p :: ps else p :: Store.insert k v ps

/-- st with v at k, dropped where v equals the default d. -/
def Store.set (st : Store) (k : Nat) (v d : List Byte) : Store :=
  if v = d then st.erase k else Store.insert k v (st.erase k)

/-- Keys strictly ascending. -/
def Store.sorted : Store → Bool
  | [] => true
  | [_] => true
  | p :: q :: r => decide (p.1 < q.1) && Store.sorted (q :: r)

end Sys2Proof.Machine
end

