-- ==== Sys2Proof/Machine/Calendar.lean ====
section
/-! DEFINITION. Tariff calendar images (R253-R255): their fields, their checks, and the tariff in force at a local time. -/

namespace Sys2Proof.Machine

/-! ## Header (Table 12.5) -/

/-- Seasons, week profiles, day profiles and special days. -/
def calS (b : List Byte) : Nat := field b 1 1
/-- Week profiles. -/
def calW (b : List Byte) : Nat := field b 2 1
/-- Day profiles. -/
def calD (b : List Byte) : Nat := field b 3 1
/-- Special days. -/
def calX (b : List Byte) : Nat := field b 4 1
/-- Demand window, min. -/
def calLen (b : List Byte) : Nat := field b 5 1
/-- Sliding windows. -/
def calSliding (b : List Byte) : Bool := field b 6 1 == 1
/-- Sub-intervals of a sliding window. -/
def calSubs (b : List Byte) : Nat := field b 7 1

/-- Billing close day of month. -/
def calCloseDay (b : List Byte) : Nat := field b 8 1
/-- Billing close minute. -/
def calCloseMin (b : List Byte) : Nat := field b 10 2
/-- UTC_OFFSET, min. -/
def calOffset (b : List Byte) : Int := ofLeSigned (slice b 12 2)
/-- DST_SHIFT, min. -/
def calShift (b : List Byte) : Nat := field b 14 1
/-- ACTIVATION, ticks of legal time. -/
def calActivation (b : List Byte) : Nat := field b 32 8
/-- CAL_ID. -/
def calId (b : List Byte) : Nat := field b 40 4
/-- Clock step limit, s. -/
def calStepLimit (b : List Byte) : Nat := field b 44 2

/-- Size by the counts. -/
def calSize (b : List Byte) : Nat := 52 + 4 * calS b + 8 * calW b + 52 * calD b + 8 * calX b
/-- Offset of season i. -/
def seasonAt (i : Nat) : Nat := 48 + 4 * i
/-- Offset of week profile i. -/
def weekAt (b : List Byte) (i : Nat) : Nat := seasonAt (calS b) + 8 * i
/-- Offset of day profile i. -/
def dayAt (b : List Byte) (i : Nat) : Nat := weekAt b (calW b) + 52 * i
/-- Offset of special day i. -/
def specialAt (b : List Byte) (i : Nat) : Nat := dayAt b (calD b) + 8 * i

/-- Demand window of the calendar in force, min: 15 without one (R256). -/
def demandMin (m : Metro) : Nat :=
  match m.bill.active with
  | some c => calLen c.image
  | none => 15

/-- The demand windows in force are sliding. -/
def demandSliding (m : Metro) : Bool :=
  match m.bill.active with
  | some c => calSliding c.image
  | none => false

/-- Sub-intervals in force: 1 for block windows. -/
def demandSubs (m : Metro) : Nat :=
  match m.bill.active with
  | some c => if calSliding c.image then max 1 (calSubs c.image) else 1
  | none => 1

/-- Seconds of the running window or sub-interval. -/
def demandSeconds (m : Metro) : Nat := demandMin m * 60 / demandSubs m

/-! ## Dates (R288: whole seconds since 2000-01-01) -/

/-- A civil date. -/
structure Date where
  year : Nat
  month : Nat
  day : Nat
  deriving DecidableEq, Repr, Inhabited

/-- Leap year. -/
def leap (y : Nat) : Bool := (y % 4 == 0 && y % 100 != 0) || y % 400 == 0

/-- Days of a month. -/
def monthDays (y m : Nat) : Nat := if m = 2 then (if leap y then 29 else 28) else if m = 4 ∨ m = 6 ∨ m = 9 ∨ m = 11 then 30 else 31

/-- Date of day n since 2000-01-01, by the 400-year cycle that starts on 1 March. -/
def dateOf (n : Nat) : Date :=
  let z := n + 730425
  let e := z % 146097
  let ye := (e - e / 1460 + e / 36524 - e / 146096) / 365
  let dy := e - (365 * ye + ye / 4 - ye / 100)
  let mp := (5 * dy + 2) / 153
  let m := if mp < 10 then mp + 3 else mp - 9
  { year := ye + z / 146097 * 400 + (if m ≤ 2 then 1 else 0), month := m, day := dy - (153 * mp + 2) / 5 + 1 }

/-- Day number since 2000-01-01 of a date from 2000 on. -/
def dayOf (y m d : Nat) : Nat :=
  let y' := if m ≤ 2 then y - 1 else y
  let mp := if m ≤ 2 then m + 9 else m - 3
  y' / 400 * 146097 + (y' % 400 * 365 + y' % 400 / 4 - y' % 400 / 100 + ((153 * mp + 2) / 5 + d - 1)) - 730425

/-- Weekday of day n, 0 Monday; 2000-01-01 was a Saturday. -/
def weekday (n : Nat) : Nat := (n + 5) % 7

/-! ## Daylight saving and local time (R255) -/

/-- Local standard second of year y at which the rule at offset o falls. -/
def ruleSecond (b : List Byte) (o y : Nat) : Nat :=
  let m := field b o 1
  let k := field b (o + 1) 1
  let w := field b (o + 2) 1
  let first := dayOf y m 1
  let d0 := first + (w + 7 - weekday first) % 7
  let d := if k ≤ 4 then d0 + 7 * (k - 1) else (if d0 + 28 < first + monthDays y m then d0 + 28 else d0 + 21)
  d * 86400 + field b (o + 4) 2 * 60

/-- Local standard second of a legal second. -/
def standardSecond (b : List Byte) (legal : Nat) : Nat := ((legal : Int) + calOffset b * 60).toNat

/-- Daylight saving is in force at a local standard second. -/
def dstAt (b : List Byte) (t : Nat) : Bool :=
  if calShift b = 0 then false
  else
    let y := (dateOf (t / 86400)).year
    let p := ruleSecond b 16 y
    let q := ruleSecond b 24 y
    if p ≤ q then decide (p ≤ t ∧ t < q) else decide (p ≤ t ∨ t < q)

/-- Local second by which switch points have taken effect: in the hour repeated at the end of daylight saving, every point of that hour
already has. -/
def localSecond (b : List Byte) (legal : Nat) : Nat :=
  let t := standardSecond b legal
  if dstAt b t then t + calShift b * 60
  else
    let q := ruleSecond b 24 (dateOf (t / 86400)).year
    if calShift b ≠ 0 ∧ q ≤ t ∧ t < q + calShift b * 60 then q + calShift b * 60 - 60 else t

/-! ## The tariff in force (R255) -/

/-- Special day of a date: an entry of that year first, then one of every year. -/
def specialDay (b : List Byte) (d : Date) : Option Nat :=
  let at_ := fun y => (List.range (calX b)).find? fun i =>
    let o := specialAt b i
    field b o 2 == y && field b (o + 2) 1 == d.month && field b (o + 3) 1 == d.day
  match at_ d.year with
  | some i => some i
  | none => at_ 0

/-- Season of a date: the last one starting on or before it, else the last. -/
def seasonOf (b : List Byte) (d : Date) : Nat :=
  let ok := (List.range (calS b)).filter fun i =>
    let o := seasonAt i
    decide (field b o 1 * 32 + field b (o + 1) 1 ≤ d.month * 32 + d.day)
  ok.getLast?.getD (calS b - 1)

/-- Day profile of day n. -/
def dayProfile (b : List Byte) (n : Nat) : Nat :=
  let d := dateOf n
  match specialDay b d with
  | some i => field b (specialAt b i + 4) 1
  | none => field b (weekAt b (field b (seasonAt (seasonOf b d) + 2) 1) + weekday n) 1

/-- Tariff at a local second. -/
def tariffAt (b : List Byte) (t : Nat) : Nat :=
  let o := dayAt b (dayProfile b (t / 86400))
  let m := t / 60 % 1440
  let ok := (List.range (field b o 1)).filter fun i => decide (field b (o + 4 + 4 * i) 2 ≤ m)
  match ok.getLast? with
  | some i => field b (o + 4 + 4 * i + 2) 1
  | none => 0

/-- Tariff in force at a legal second. -/
def tariffOf (b : List Byte) (legal : Nat) : Nat := tariffAt b (localSecond b legal)

/-- The billing close of the local month that holds a local second has come: its month number, counted from 2000, else the one before. -/
def closeIndex (b : List Byte) (t : Nat) : Nat :=
  let d := dateOf (t / 86400)
  let n := d.year * 12 + d.month
  if d.day * 1440 + t / 60 % 1440 < calCloseDay b * 1440 + calCloseMin b then n - 1 else n

/-! ## Checks (R254, Table 12.7) -/

/-- Code 1: version, size, CRC, reserved bytes. -/
def calForm (b : List Byte) : Bool :=
  field b 0 1 == 1 && b.length == calSize b && field b (b.length - 4) 4 == (crc32 (b.take (b.length - 4))).toNat
    && field b 9 1 == 0 && field b 15 1 == 0 && field b 46 2 == 0 && field b 19 1 == 0 && field b 22 2 == 0 && field b 27 1 == 0
    && field b 30 2 == 0
    && ((List.range (calS b)).all fun i => field b (seasonAt i + 3) 1 == 0)
    && ((List.range (calW b)).all fun i => field b (weekAt b i + 7) 1 == 0)
    && ((List.range (calD b)).all fun i =>
      let o := dayAt b i
      allZero (slice b (o + 1) 3) && ((List.range 12).all fun k => field b (o + 4 + 4 * k + 3) 1 == 0)
        && allZero (slice b (o + 4 + 4 * field b o 1) (48 - 4 * field b o 1)))
    && ((List.range (calX b)).all fun i => allZero (slice b (specialAt b i + 5) 3))

/-- Code 2: counts within Table 12.5. -/
def calCounts (b : List Byte) : Bool :=
  decide (1 ≤ calS b ∧ calS b ≤ 4 ∧ 1 ≤ calW b ∧ calW b ≤ 8 ∧ 1 ≤ calD b ∧ calD b ≤ 16 ∧ calX b ≤ 64)

/-- Code 3: day profiles. -/
def calDays (b : List Byte) : Bool :=
  (List.range (calD b)).all fun i =>
    let o := dayAt b i
    let n := field b o 1
    let start := fun k => field b (o + 4 + 4 * k) 2
    decide (1 ≤ n ∧ n ≤ 12) && start 0 == 0
      && ((List.range (n - 1)).all fun k => decide (start k < start (k + 1))) && ((List.range n).all fun k =>
        decide (start k ≤ 1439) && decide (field b (o + 4 + 4 * k + 2) 1 ≤ 7))

/-- Code 4: seasons. -/
def calSeasons (b : List Byte) : Bool :=
  let day := fun i => field b (seasonAt i) 1 * 32 + field b (seasonAt i + 1) 1
  ((List.range (calS b)).all fun i =>
    let m := field b (seasonAt i) 1
    let d := field b (seasonAt i + 1) 1
    decide (1 ≤ m ∧ m ≤ 12 ∧ 1 ≤ d ∧ d ≤ monthDays 2001 m) && decide (field b (seasonAt i + 2) 1 < calW b))
    && (List.range (calS b - 1)).all fun i => decide (day i < day (i + 1))

/-- Code 5: week indices and special days. -/
def calIndices (b : List Byte) : Bool :=
  ((List.range (calW b)).all fun i => (List.range 7).all fun k => decide (field b (weekAt b i + k) 1 < calD b))
    && (List.range (calX b)).all fun i =>
      let o := specialAt b i
      let y := field b o 2
      let m := field b (o + 2) 1
      let d := field b (o + 3) 1
      decide (1 ≤ m ∧ m ≤ 12 ∧ 1 ≤ d ∧ d ≤ monthDays (if y = 0 then 2000 else y) m) && decide (field b (o + 4) 1 < calD b)

/-- Code 6: the demand window. -/
def calDemand (b : List Byte) : Bool :=
  [1, 2, 3, 4, 5, 6, 10, 12, 15, 20, 30, 60].contains (calLen b)
    && (if field b 6 1 = 0 then calSubs b == 0
        else field b 6 1 == 1 && decide (2 ≤ calSubs b ∧ calSubs b ≤ 15) && calLen b % calSubs b == 0)

/-- A daylight-saving rule is valid. -/
def ruleOk (b : List Byte) (o : Nat) : Bool :=
  decide (1 ≤ field b o 1 ∧ field b o 1 ≤ 12) && decide (1 ≤ field b (o + 1) 1 ∧ field b (o + 1) 1 ≤ 5)
    && decide (field b (o + 2) 1 ≤ 6) && decide (field b (o + 4) 2 ≤ 1439)

/-- Code 7: close, offset, daylight saving, step limit, identity. -/
def calRest (b : List Byte) : Bool :=
  decide (1 ≤ calCloseDay b ∧ calCloseDay b ≤ 28) && decide (calCloseMin b ≤ 1439)
    && decide (-720 ≤ calOffset b ∧ calOffset b ≤ 840) && calOffset b % 15 == 0
    && [0, 30, 60].contains (calShift b) && (calShift b == 0 || (ruleOk b 16 && ruleOk b 24))
    && decide (2 ≤ calStepLimit b ∧ calStepLimit b ≤ 300) && calId b != 0

/-- First failing check of 1 to 7; 0 where the image passes. -/
def calCheck (b : List Byte) : Nat :=
  if !(calForm b) then 1
  else if !(calCounts b) then 2
  else if !(calDays b) then 3
  else if !(calSeasons b) then 4
  else if !(calIndices b) then 5
  else if !(calDemand b) then 6
  else if !(calRest b) then 7
  else 0

end Sys2Proof.Machine
end

