-- ==== Sys2Proof/Machine/Bfp.lean ====
section
/-! DEFINITION. Block floating point (R121-R126): exact scaled integers n * 2^x, normalisation, accumulator arithmetic. -/

namespace Sys2Proof.Machine

/-- Exponent e of a stage (R121). -/
def Stage.exp (v : Stage) : Int := v.e.toInt

/-- Element i of a stage as n * 2^x (Table 6.6). -/
def Stage.elem (v : Stage) (i : Nat) : Int × Int := ((nth v.m i).toInt, v.exp - 19)

/-- Exponent x of an accumulator (R121). -/
def Acc.exp (v : Acc) : Int := v.x.toInt

/-- Element i of an accumulator as n * 2^x (Table 6.6). -/
def Acc.elem (v : Acc) (i : Nat) : Int × Int := ((nth v.a i).toInt, v.exp - 38)

/-- A0 and A1 as cleared at a slot's start: exponent -32 (R111). -/
def Acc.cleared : Acc := { a := List.replicate 8 0, x := 96, inv := false }

/-- n fits a stage mantissa. -/
def fitsMantissa (n : Int) : Bool := decide (-524288 ≤ n ∧ n ≤ 524287)

/-- The smallest of the fuel exponents from e on for which every value n * 2^x gives a mantissa in range (R122). -/
def fitExp (vals : List Int) (x : Int) : Nat → Int → Option Int
  | 0, _ => none
  | n + 1, e =>
    if vals.all fun v => fitsMantissa (roundShift v (e - 19 - x)) then some e else fitExp vals x n (e + 1)

/-- Normalise the values vals[i] * 2^x into a stage; the second component tells whether SAT is set (R122). -/
def normalise (vals : List Int) (x : Int) (inv : Bool) : Stage × Bool :=
  match fitExp vals x 64 (-32) with
  | some e =>
    ({ m := vals.map fun v => BitVec.ofInt 20 (roundShift v (e - 19 - x)), e := BitVec.ofInt 6 e, inv := inv }, false)
  | none =>
    ({ m := vals.map fun v => BitVec.ofInt 20 (clampInt (-524288) 524287 (roundShift v (12 - x)))
       e := 31, inv := inv }, true)

/-- The smallest exponent of a list of scaled integers, 0 for an empty list. -/
def minExp : List (Int × Int) → Int
  | [] => 0
  | [p] => p.2
  | p :: ps => min p.2 (minExp ps)

/-- Normalise scaled integers brought to their smallest exponent, which loses no bit (R122). -/
def normPairs (ps : List (Int × Int)) (inv : Bool) : Stage × Bool :=
  let nz := ps.filter fun p => p.1 != 0
  let lo := minExp nz
  normalise (ps.map fun p => if p.1 = 0 then 0 else p.1 * 2 ^ (p.2 - lo).toNat) lo inv

/-- A scaled integer normalised alone, broadcast to a relay-cell value (R125). -/
def normOne (p : Int × Int) (inv : Bool) : Cell × Bool :=
  let r := normPairs [p] inv
  ({ m := nth r.1.m 0, e := r.1.e, inv := inv }, r.2)

/-- A relay cell as n * 2^x. -/
def Cell.val (c : Cell) : Int × Int := (c.m.toInt, c.e.toInt - 19)

/-- The shift of the term with the smaller exponent: 48 or more gives 0 (R123). -/
def alignDown (v : Int) (k : Int) : Int := if 48 ≤ k then 0 else roundShift v k

/-- a fits an accumulator element. -/
def fitsAcc (n : Int) : Bool := decide (-(2 ^ 47) ≤ n ∧ n ≤ 2 ^ 47 - 1)

/-- The overflow rule of R123 with fuel: shift all right by 1 while an element does not fit, saturate at x = 63. -/
def fixAcc (inv : Bool) : Nat → List Int → Int → Acc × Bool
  | 0, vals, x =>
    ({ a := vals.map fun v => BitVec.ofInt 48 (clampInt (-(2 ^ 47)) (2 ^ 47 - 1) v), x := BitVec.ofInt 7 x, inv := inv },
      true)
  | n + 1, vals, x =>
    if vals.all fitsAcc then ({ a := vals.map (BitVec.ofInt 48), x := BitVec.ofInt 7 x, inv := inv }, false)
    else if 63 ≤ x then
      ({ a := vals.map fun v => BitVec.ofInt 48 (clampInt (-(2 ^ 47)) (2 ^ 47 - 1) v), x := 63, inv := inv }, true)
    else fixAcc inv n (vals.map fun v => roundShift v 1) (x + 1)

/-- A stage as an accumulator operand: a = m * 2^19, x = e (R123). -/
def Stage.toAcc (v : Stage) : Acc :=
  { a := v.m.map fun m => BitVec.ofInt 48 (m.toInt * 2 ^ 19), x := BitVec.ofInt 7 v.exp, inv := v.inv }

/-- Two terms combined by f at the larger exponent (R123, R126). -/
def combine (f : Int → Int → Int) (p q : Acc) : Acc × Bool :=
  let x := max p.exp q.exp
  let vals := (List.range 8).map fun i =>
    f (alignDown (nth p.a i).toInt (x - p.exp)) (alignDown (nth q.a i).toInt (x - q.exp))
  fixAcc (p.inv || q.inv) 128 vals x

/-- The exact product of two stages, x = e_A + e_B (R123). -/
def product (p q : Stage) : Acc :=
  { a := (List.range 8).map fun i => BitVec.ofInt 48 ((nth p.m i).toInt * (nth q.m i).toInt)
    x := BitVec.ofInt 7 (p.exp + q.exp), inv := p.inv || q.inv }

/-- Scaled integers as an accumulator at exponent x, by the shift and rounding of R123. -/
def accAt (ps : List (Int × Int)) (x : Int) (inv : Bool) : Acc × Bool :=
  fixAcc inv 128 (ps.map fun p => alignDown p.1 (x - 38 - p.2)) x

/-- Difference of two scaled integers at full width. -/
def subExact (a b : Int × Int) : Int × Int :=
  let lo := min a.2 b.2
  (a.1 * 2 ^ (a.2 - lo).toNat - b.1 * 2 ^ (b.2 - lo).toNat, lo)

/-- Sum of two scaled integers at full width. -/
def addExact (a b : Int × Int) : Int × Int := subExact a (-b.1, b.2)

/-- The smaller and the larger of two scaled integers. -/
def minExact (a b : Int × Int) : Int × Int := if cmpExact b a = .lt then b else a
/-- The larger of two scaled integers. -/
def maxExact (a b : Int × Int) : Int × Int := if cmpExact b a = .gt then b else a

/-- The exponent at which the largest magnitude big * 2^(x-38) lies in 2^45 to 2^46 - 1, unlimited (R124). -/
def writebackExp (big : Nat) (x : Int) : Int := x + bitLen big - 46

/-- Re-expression of a Q register at write-back (R124); a rounding that carries the largest element to 2^46 takes one
more shift, so that it lies in the range the rule names. -/
def writebackAcc (q : Acc) : Acc :=
  let vals := q.a.map BitVec.toInt
  let big := vals.foldl (fun m v => max m v.natAbs) 0
  if big = 0 then { q with a := List.replicate 8 0, x := 64 }
  else
    let xt0 := writebackExp big q.exp
    let top := (vals.map fun v => (roundShift v (xt0 - q.exp)).natAbs).foldl max 0
    let xt := if 2 ^ 46 ≤ top then xt0 + 1 else xt0
    let x := max (-64) (min 63 xt)
    { a := vals.map fun v => BitVec.ofInt 48 (roundShift v (x - q.exp)), x := BitVec.ofInt 7 x, inv := q.inv }

/-- A value as a down-frame word: to nearest, ties toward plus infinity, limited to 8,388,607 in magnitude; the second
component tells whether SAT is set (R125). -/
def toWord (p : Int × Int) : BitVec 24 × Bool :=
  let v := roundShift p.1 (-p.2)
  let c := clampInt (-8388607) 8388607 v
  (BitVec.ofInt 24 c, decide (c ≠ v))

/-- A constant word broadcast to a stage (Table 6.6, R131 LDK). -/
def constStage (w : U32) : Stage :=
  (normalise (List.replicate 8 (signed 20 w.toNat)) (signed 6 (w.toNat / 2 ^ 26) - 19) false).1

/-- The REAL32 of a stage element or of an accumulator element normalised alone (R132). -/
def sampleReal (p : Int × Int) : U32 :=
  let c := (normOne p false).1
  toReal32 c.val.1 c.val.2

/-- A stage holding the value p in every port position given, zero elsewhere. -/
def PortVal.pair (v : PortVal) : Int × Int := (v.m, v.e)

/-- An integer in word units as a published value (R116). -/
def PortVal.ofInt (n : Int) : PortVal := { m := n, e := 0, inv := false }

end Sys2Proof.Machine
end

