-- ==== Sys2Proof/Config.lean ====
section
/-! DEFINITION. What an implementation fixes and the spec does not state, and the values the spec leaves open. Each constant is
opaque: no proof can see a value of it. A free value is applied to the state's counter or to the operands it depends on. -/

namespace Sys2Proof.Config

open Sys2Proof.Machine

/-! ## Free values -/

/-- A natural the spec leaves open, by index (log entry 3). -/
opaque freeNat : Nat → Nat

/-- An integer the spec leaves open, by index (log entry 3). -/
opaque freeInt : Nat → Int

/-- Bytes the spec leaves open, by index and length (log entry 3). -/
opaque freeByte : Nat → Nat → Byte

/-- n free bytes. -/
def freeBytes (i n : Nat) : List Byte := (List.range n).map (freeByte i)

/-- Quotient of a grant by a voltage of 0, which the spec does not state. -/
opaque divByZero : Int → Int

/-- Demand allowance, W, where there is no demand target; the spec gives it no value. -/
opaque noAllowance : Int

/-- Error of the sine the stepped-sine generator evaluates, by phase, in units of 2^-40; used within +-2^-19 (R151). -/
opaque sineError : Nat → Int

/-- RUN of the down command word of a cabinet or bay head, by link and mode; no rule states when it is set (Table 5.7). -/
opaque runBit : Nat → Nat → Bool

/-- Correction gain of modules, strings and the transformer in units of 1/256; only cable profiles state one (R201). -/
opaque fixedGain : Nat

/-- Quarantine count of sensors outside cable profiles; only cable profiles state one (R205). -/
opaque fixedQuarantine : Nat

/-! ## The event catalogue (R389, object 2310) -/

/-- NUMBER of the firmware's catalogue for an event; the catalogue is not in the spec. -/
opaque eventNumber : EventKind → U8

/-- SEV of the firmware's catalogue for an event. -/
opaque eventSev : EventKind → Fin 3

/-- GROUP of an event whose chapter has no group of its own in Table 19.3. -/
opaque eventGroup : EventKind → Fin 64

/-- DATA byte the catalogue lays out for an event, from what the event is about and the byte number. -/
opaque eventByte : EventKind → List Nat → Nat → Byte

/-- The catalogue DOMAIN (object 2310:00). -/
opaque catalogue : List Byte

/-! ## Identity of the device and its firmware -/

/-- A fast-store row of region configSets lies in the active set's region; the spec gives the region no layout (log entry 46). -/
opaque rowOfActiveSet : Nat → Bool

/-- Junction ROM version (object 2100:06). -/
opaque junctionRom : U32

/-- Container CRC of the verdict reel (object 2100:07). -/
opaque verdictReelCrc : U32

/-- Device certificate (object 2410:01). -/
opaque deviceCertificate : List Byte

/-- The canary result of a lane that runs correctly in period n (R275). -/
opaque canaryExpected : Nat → U16

/-- Metrology firmware version an image carries (R408). -/
opaque imageVersion : List Byte → U32

/-- The metrology section's public key and its statement, as KEY returns them (R242). -/
opaque metrologyKey : List Byte

/-- The metrology section accepts the image's signature (R408). -/
opaque metrologyImageOk : List Byte → Bool

/-! ## Cryptography (chapter 18) -/

/-- Payload of an ASSOC_RESP for a serial and an address, with its allocation; R356 does not lay it out. -/
opaque assocResp : BitVec 32 → Nat → List Byte

/-- SHA-384 (R365). -/
opaque sha384 : List Byte → List Byte

/-- Public part of a secret. -/
opaque publicPart : Nat → List Byte

/-- ECDSA signature by a secret over bytes with the nonce of the given index (R365). -/
opaque sign : Nat → Nat → List Byte → List Byte

/-- Verification of a signature by a public part (R365). -/
opaque verify : List Byte → List Byte → List Byte → Bool

/-- Shared secret of a secret and a peer's public part (R365). -/
opaque agree : Nat → List Byte → List Byte

/-- AES-256-GCM sealing by a secret with the nonce of the given index (R365). -/
opaque sealData : Nat → Nat → List Byte → List Byte

/-- AES-256-GCM opening: none on a wrong tag. -/
opaque openSealed : Nat → List Byte → Option (List Byte)

/-- Key wrap by a secret. -/
opaque wrap : Nat → List Byte → List Byte

/-- HKDF child secret: parent, child path, data. -/
opaque derive : Nat → U32 → List Byte → Nat

/-- A write of a key slot fails verification, by index and slot; no command reports it (R364). -/
opaque slotFails : Nat → Nat → Bool

/-- Fuse blows of a life-cycle transition that fail verification, by index; no command reports them (R372). -/
opaque failedBlows : Nat → Nat

/-- Secret that true random numbers of the given index generate (R365). -/
opaque generate : Nat → Nat

/-- Secret and public part an envelope or message body carries: secret, public part. -/
opaque bodyKey : List Byte → Nat

/-- Signature of a metrology signed record (R265). -/
opaque signRecord : List Byte → List Byte

/-- PKCS#10 certification request by a secret, with the nonce of the given index, for a public part (R370). -/
opaque certRequest : Nat → Nat → List Byte → List Byte

/-- A point lies on the curve of its length (Table 18.3). -/
opaque onCurve : List Byte → Bool

/-- A private key or symmetric key of an algorithm has a value the algorithm admits (R366, Table 18.3; the specification leaves the arithmetic to the algorithms' standards). -/
opaque keyValueOk : U8 → Nat → Bool

/-- The TRNG output of the given index passes its health tests (R363). -/
opaque trngHealthy : Nat → Bool

/-- SHA-256, SHA-384 or SHA-512 as a request names it (R365). -/
opaque hash : U8 → List Byte → List Byte

/-- CRC-32 of the persistent key records; their sealed part is the keystore's own (object 2400:07). -/
opaque directoryCrc : List (Nat × KeySlot) → U32

/-- Public key of the firmware authority in the lane boot ROM (Table 20.4). -/
opaque firmwareAuthority : List Byte

/-! ## NAND geometry (chapter 20) -/

/-- Blocks of the NAND array. -/
opaque nandBlocks : Nat

/-- Block of the array bad from the factory. -/
opaque nandFactoryBad : Nat → Bool

/-- Bytes of a block. -/
opaque nandBlockBytes : Nat

/-- Bytes of a page. -/
opaque nandPageBytes : Nat

/-- Pages of a block. -/
opaque nandBlockPages : Nat

end Sys2Proof.Config
end

