-- ==== Sys2Proof/Machine/Dict.lean ====
section
/-! DEFINITION. The object dictionary as a table (R71-R75): every object row of the chapters, with its index and subindex
range, type, access right, default and range, and the checks the table alone decides. -/

namespace Sys2Proof.Machine

/-- Data types with their sizes in bytes (Table 4.1). -/
inductive ObjType where
  | bool
  | uns (n : Nat)
  | int (n : Nat)
  | real
  | vis (max : Nat)
  | oct (n : Nat)
  | dom (max : Nat)
  deriving DecidableEq, Repr, Inhabited

/-- Access rights (Table 4.2). -/
inductive Right where
  | ro | wo | const | rw | rws | rwl
  deriving DecidableEq, Repr, Inhabited

/-- One row of an object table: index and subindex ranges, type, right, default (the fill byte of a string), range with
the single values allowed beside it, and the mask of reserved bits. -/
structure ObjRow where
  i0 : Nat
  i1 : Nat
  s0 : Nat
  s1 : Nat
  ty : ObjType
  right : Right
  dflt : Int
  lo : Int
  hi : Int
  extra : List Int
  resv : Nat
  deriving DecidableEq, Repr, Inhabited

/-- Rows 1001 to 2040 of the object tables. -/
def dictPart0 : List ObjRow :=
  [⟨0x1001, 0x1001, 0x0, 0x0, .uns 1, .ro, 0, 0, 255, [], 0⟩,
   ⟨0x1014, 0x1014, 0x0, 0x0, .uns 4, .rw, 128, 0, 4294967295, [], 0⟩,
   ⟨0x1017, 0x1017, 0x0, 0x0, .uns 2, .rw, 100, 0, 65535, [], 0⟩,
   ⟨0x1400, 0x140F, 0x0, 0x0, .uns 1, .const, 2, 0, 255, [], 0⟩,
   ⟨0x1400, 0x140F, 0x1, 0x1, .uns 4, .rw, 0, 0, 4294967295, [], 0⟩,
   ⟨0x1400, 0x140F, 0x2, 0x2, .uns 1, .rw, 255, 241, 255, [], 0⟩,
   ⟨0x1600, 0x160F, 0x0, 0x0, .uns 1, .rw, 0, 0, 64, [], 0⟩,
   ⟨0x1600, 0x160F, 0x1, 0x40, .uns 4, .rw, 0, 0, 4294967295, [], 0⟩,
   ⟨0x1800, 0x180F, 0x0, 0x0, .uns 1, .const, 5, 0, 255, [], 0⟩,
   ⟨0x1800, 0x180F, 0x1, 0x1, .uns 4, .rw, 0, 0, 4294967295, [], 0⟩,
   ⟨0x1800, 0x180F, 0x2, 0x2, .uns 1, .rw, 255, 254, 255, [], 0⟩,
   ⟨0x1800, 0x180F, 0x3, 0x3, .uns 2, .rw, 0, 0, 65535, [], 0⟩,
   ⟨0x1800, 0x180F, 0x5, 0x5, .uns 2, .rw, 0, 0, 65535, [], 0⟩,
   ⟨0x1A00, 0x1A0F, 0x0, 0x0, .uns 1, .rw, 0, 0, 64, [], 0⟩,
   ⟨0x1A00, 0x1A0F, 0x1, 0x40, .uns 4, .rw, 0, 0, 4294967295, [], 0⟩,
   ⟨0x1FA0, 0x1FA0, 0x0, 0x0, .uns 1, .const, 7, 0, 255, [], 0⟩,
   ⟨0x1FA0, 0x1FA0, 0x1, 0x1, .uns 1, .rws, 16, 1, 127, [], 0⟩,
   ⟨0x1FA0, 0x1FA0, 0x2, 0x2, .uns 2, .rws, 47210, 1024, 65535, [], 0⟩,
   ⟨0x1FA0, 0x1FA0, 0x3, 0x6, .oct 16, .rws, 0, 0, 0, [], 0⟩,
   ⟨0x1FA0, 0x1FA0, 0x7, 0x7, .uns 4, .ro, 0, 0, 4294967295, [], 0⟩,
   ⟨0x2010, 0x2010, 0x0, 0x0, .uns 1, .const, 10, 0, 255, [], 0⟩,
   ⟨0x2010, 0x2010, 0x1, 0x1, .uns 1, .rw, 2, 0, 255, [], 0⟩,
   ⟨0x2010, 0x2010, 0x2, 0x2, .uns 1, .ro, 0, 0, 255, [], 0⟩,
   ⟨0x2010, 0x2010, 0x3, 0x3, .uns 4, .wo, 0, 0, 4294967295, [], 0⟩,
   ⟨0x2010, 0x2010, 0x4, 0x4, .uns 1, .ro, 0, 0, 255, [], 0⟩,
   ⟨0x2010, 0x2010, 0x5, 0x5, .uns 2, .rws, 100, 10, 3200, [], 0⟩,
   ⟨0x2010, 0x2010, 0x6, 0x6, .bool, .rws, 0, 0, 1, [], 0⟩,
   ⟨0x2010, 0x2010, 0x7, 0x7, .uns 8, .ro, 0, 0, 18446744073709551615, [], 0⟩,
   ⟨0x2010, 0x2010, 0x8, 0x8, .uns 1, .ro, 0, 0, 255, [], 0⟩,
   ⟨0x2010, 0x2010, 0x9, 0x9, .uns 2, .rws, 20, 5, 50, [], 0⟩,
   ⟨0x2010, 0x2010, 0xA, 0xA, .uns 4, .ro, 0, 0, 4294967295, [], 0⟩,
   ⟨0x2020, 0x2020, 0x0, 0x0, .uns 1, .const, 6, 0, 255, [], 0⟩,
   ⟨0x2020, 0x2020, 0x1, 0x1, .uns 2, .rw, 1, 0, 65535, [], 0⟩,
   ⟨0x2020, 0x2020, 0x2, 0x2, .uns 1, .ro, 0, 0, 255, [], 0⟩,
   ⟨0x2020, 0x2020, 0x3, 0x3, .uns 4, .ro, 0, 0, 4294967295, [], 0⟩,
   ⟨0x2020, 0x2020, 0x4, 0x4, .uns 8, .ro, 0, 0, 18446744073709551615, [], 0⟩,
   ⟨0x2020, 0x2020, 0x5, 0x5, .uns 1, .ro, 0, 0, 255, [], 0⟩,
   ⟨0x2020, 0x2020, 0x6, 0x6, .uns 1, .ro, 0, 0, 255, [], 0⟩,
   ⟨0x2030, 0x2030, 0x0, 0x0, .uns 1, .const, 5, 0, 255, [], 0⟩,
   ⟨0x2030, 0x2030, 0x1, 0x1, .uns 1, .ro, 0, 0, 255, [], 0⟩,
   ⟨0x2030, 0x2030, 0x2, 0x2, .oct 16, .const, 0, 0, 0, [], 0⟩,
   ⟨0x2030, 0x2030, 0x3, 0x3, .bool, .ro, 0, 0, 1, [], 0⟩,
   ⟨0x2030, 0x2030, 0x4, 0x4, .bool, .ro, 0, 0, 1, [], 0⟩,
   ⟨0x2030, 0x2030, 0x5, 0x5, .uns 8, .ro, 0, 0, 18446744073709551615, [], 0⟩,
   ⟨0x2040, 0x2040, 0x0, 0x0, .uns 1, .const, 9, 0, 255, [], 0⟩,
   ⟨0x2040, 0x2040, 0x1, 0x1, .int 2, .ro, 0, (-32768), 32767, [], 0⟩,
   ⟨0x2040, 0x2040, 0x2, 0x2, .int 2, .ro, 0, (-32768), 32767, [], 0⟩,
   ⟨0x2040, 0x2040, 0x3, 0x3, .int 2, .ro, 0, (-32768), 32767, [], 0⟩,
   ⟨0x2040, 0x2040, 0x4, 0x4, .int 2, .ro, 0, (-32768), 32767, [], 0⟩,
   ⟨0x2040, 0x2040, 0x5, 0x5, .uns 1, .ro, 0, 0, 255, [], 0⟩]

/-- Rows 2040 to 2180 of the object tables. -/
def dictPart1 : List ObjRow :=
  [⟨0x2040, 0x2040, 0x6, 0x6, .uns 2, .rw, 0, 0, 65535, [], 0⟩,
   ⟨0x2040, 0x2040, 0x7, 0x7, .int 2, .ro, 0, (-32768), 32767, [], 0⟩,
   ⟨0x2040, 0x2040, 0x8, 0x8, .uns 4, .ro, 0, 0, 4294967295, [], 0⟩,
   ⟨0x2040, 0x2040, 0x9, 0x9, .uns 4, .ro, 0, 0, 4294967295, [], 0⟩,
   ⟨0x2100, 0x2100, 0x0, 0x0, .uns 1, .const, 12, 0, 255, [], 0⟩,
   ⟨0x2100, 0x2100, 0x1, 0x1, .uns 1, .ro, 0, 0, 255, [], 0⟩,
   ⟨0x2100, 0x2100, 0x2, 0x2, .uns 1, .ro, 0, 0, 255, [], 0⟩,
   ⟨0x2100, 0x2100, 0x3, 0x3, .uns 1, .ro, 0, 0, 255, [], 0⟩,
   ⟨0x2100, 0x2100, 0x4, 0x4, .uns 1, .wo, 0, 1, 1, [], 0⟩,
   ⟨0x2100, 0x2100, 0x5, 0x5, .uns 1, .wo, 0, 1, 2, [], 0⟩,
   ⟨0x2100, 0x2100, 0x6, 0x6, .uns 4, .const, 0, 0, 4294967295, [], 0⟩,
   ⟨0x2100, 0x2100, 0x7, 0x7, .uns 4, .const, 0, 0, 4294967295, [], 0⟩,
   ⟨0x2100, 0x2100, 0x8, 0x8, .uns 4, .ro, 0, 0, 4294967295, [], 0⟩,
   ⟨0x2100, 0x2100, 0x9, 0x9, .uns 8, .ro, 0, 0, 18446744073709551615, [], 0⟩,
   ⟨0x2100, 0x2100, 0xA, 0xA, .uns 1, .ro, 0, 0, 255, [], 0⟩,
   ⟨0x2100, 0x2100, 0xB, 0xB, .bool, .ro, 0, 0, 1, [], 0⟩,
   ⟨0x2100, 0x2100, 0xC, 0xC, .uns 1, .ro, 0, 0, 255, [], 0⟩,
   ⟨0x2110, 0x2111, 0x0, 0x0, .uns 1, .const, 16, 0, 255, [], 0⟩,
   ⟨0x2110, 0x2111, 0x1, 0x1, .uns 1, .ro, 0, 0, 255, [], 0⟩,
   ⟨0x2110, 0x2111, 0x2, 0x2, .uns 4, .ro, 0, 0, 4294967295, [], 0⟩,
   ⟨0x2110, 0x2111, 0x3, 0x3, .uns 1, .ro, 0, 0, 255, [], 0⟩,
   ⟨0x2110, 0x2111, 0x4, 0x4, .uns 4, .ro, 0, 0, 4294967295, [], 0⟩,
   ⟨0x2110, 0x2111, 0x5, 0x5, .uns 4, .ro, 0, 0, 4294967295, [], 0⟩,
   ⟨0x2110, 0x2111, 0x6, 0x6, .uns 1, .ro, 0, 0, 255, [], 0⟩,
   ⟨0x2110, 0x2111, 0x7, 0x7, .uns 4, .ro, 0, 0, 4294967295, [], 0⟩,
   ⟨0x2110, 0x2111, 0x8, 0x8, .uns 4, .ro, 0, 0, 4294967295, [], 0⟩,
   ⟨0x2110, 0x2111, 0x9, 0x9, .uns 4, .ro, 0, 0, 4294967295, [], 0⟩,
   ⟨0x2110, 0x2111, 0xA, 0xA, .uns 4, .ro, 0, 0, 4294967295, [], 0⟩,
   ⟨0x2110, 0x2111, 0xB, 0xB, .uns 2, .ro, 0, 0, 65535, [], 0⟩,
   ⟨0x2110, 0x2111, 0xC, 0xC, .uns 4, .ro, 0, 0, 4294967295, [], 0⟩,
   ⟨0x2110, 0x2111, 0xD, 0xD, .uns 4, .ro, 0, 0, 4294967295, [], 0⟩,
   ⟨0x2110, 0x2111, 0xE, 0xE, .uns 2, .ro, 0, 0, 65535, [], 0⟩,
   ⟨0x2110, 0x2111, 0xF, 0xF, .uns 4, .ro, 0, 0, 4294967295, [], 0⟩,
   ⟨0x2110, 0x2111, 0x10, 0x10, .uns 8, .ro, 0, 0, 18446744073709551615, [], 0⟩,
   ⟨0x2120, 0x2120, 0x0, 0x0, .uns 1, .const, 4, 0, 255, [], 0⟩,
   ⟨0x2120, 0x2120, 0x1, 0x1, .uns 2, .rws, 60, 10, 3600, [], 0⟩,
   ⟨0x2120, 0x2120, 0x2, 0x2, .bool, .rws, 1, 0, 1, [], 0⟩,
   ⟨0x2120, 0x2120, 0x3, 0x3, .uns 2, .rws, 10, 1, 3600, [], 0⟩,
   ⟨0x2120, 0x2120, 0x4, 0x4, .uns 1, .rws, 3, 1, 20, [], 0⟩,
   ⟨0x2180, 0x2180, 0x0, 0x0, .uns 1, .const, 12, 0, 255, [], 0⟩,
   ⟨0x2180, 0x2180, 0x1, 0x1, .uns 1, .ro, 1, 0, 255, [], 0⟩,
   ⟨0x2180, 0x2180, 0x2, 0x2, .uns 1, .ro, 1, 0, 255, [], 0⟩,
   ⟨0x2180, 0x2180, 0x3, 0x3, .uns 1, .ro, 0, 0, 255, [], 0⟩,
   ⟨0x2180, 0x2180, 0x4, 0x4, .uns 4, .ro, 0, 0, 4294967295, [], 0⟩,
   ⟨0x2180, 0x2180, 0x5, 0x5, .uns 2, .ro, 0, 0, 65535, [], 0⟩,
   ⟨0x2180, 0x2180, 0x6, 0x6, .uns 2, .ro, 256, 0, 65535, [], 0⟩,
   ⟨0x2180, 0x2180, 0x7, 0x7, .uns 2, .ro, 128, 0, 65535, [], 0⟩,
   ⟨0x2180, 0x2180, 0x8, 0x8, .uns 2, .ro, 0, 0, 65535, [], 0⟩,
   ⟨0x2180, 0x2180, 0x9, 0x9, .uns 1, .ro, 8, 0, 255, [], 0⟩,
   ⟨0x2180, 0x2180, 0xA, 0xA, .uns 1, .ro, 0, 0, 255, [], 0⟩]

/-- Rows 2180 to 2402 of the object tables. -/
def dictPart2 : List ObjRow :=
  [⟨0x2180, 0x2180, 0xB, 0xB, .uns 1, .ro, 4, 0, 255, [], 0⟩,
   ⟨0x2180, 0x2180, 0xC, 0xC, .uns 2, .ro, 0, 0, 65535, [], 0⟩,
   ⟨0x2200, 0x2200, 0x0, 0x0, .uns 1, .const, 15, 0, 255, [], 0⟩,
   ⟨0x2200, 0x2200, 0x1, 0x1, .uns 1, .ro, 0, 0, 255, [], 0⟩,
   ⟨0x2200, 0x2200, 0x2, 0x2, .uns 1, .wo, 0, 1, 4, [], 0⟩,
   ⟨0x2200, 0x2200, 0x3, 0x3, .uns 4, .rw, 0, 0, 4294967295, [], 0⟩,
   ⟨0x2200, 0x2200, 0x4, 0x4, .uns 4, .ro, 0, 0, 4294967295, [], 0⟩,
   ⟨0x2200, 0x2200, 0x5, 0x5, .uns 4, .ro, 0, 0, 4294967295, [], 0⟩,
   ⟨0x2200, 0x2200, 0x6, 0x6, .uns 1, .ro, 0, 0, 255, [], 0⟩,
   ⟨0x2200, 0x2200, 0x7, 0x7, .uns 4, .ro, 0, 0, 4294967295, [], 0⟩,
   ⟨0x2200, 0x2200, 0x8, 0x8, .uns 2, .ro, 0, 0, 65535, [], 0⟩,
   ⟨0x2200, 0x2200, 0x9, 0x9, .uns 2, .const, 0, 0, 65535, [], 0⟩,
   ⟨0x2200, 0x2200, 0xA, 0xA, .uns 4, .ro, 0, 0, 4294967295, [], 0⟩,
   ⟨0x2200, 0x2200, 0xB, 0xB, .uns 8, .ro, 0, 0, 18446744073709551615, [], 0⟩,
   ⟨0x2200, 0x2200, 0xC, 0xC, .uns 4, .ro, 0, 0, 4294967295, [], 0⟩,
   ⟨0x2200, 0x2200, 0xD, 0xD, .uns 1, .rw, 0, 0, 255, [], 0⟩,
   ⟨0x2200, 0x2200, 0xE, 0xE, .uns 4, .ro, 0, 0, 4294967295, [], 0⟩,
   ⟨0x2200, 0x2200, 0xF, 0xF, .uns 4, .ro, 0, 0, 4294967295, [], 0⟩,
   ⟨0x2300, 0x2300, 0x0, 0x0, .uns 1, .const, 7, 0, 255, [], 0⟩,
   ⟨0x2300, 0x2300, 0x1, 0x1, .uns 4, .ro, 0, 0, 4294967295, [], 0⟩,
   ⟨0x2300, 0x2300, 0x2, 0x2, .uns 4, .ro, 0, 0, 4294967295, [], 0⟩,
   ⟨0x2300, 0x2300, 0x3, 0x3, .uns 4, .ro, 0, 0, 4294967295, [], 0⟩,
   ⟨0x2300, 0x2300, 0x4, 0x4, .uns 4, .ro, 0, 0, 4294967295, [], 0⟩,
   ⟨0x2300, 0x2300, 0x5, 0x5, .uns 4, .ro, 0, 0, 4294967295, [], 0⟩,
   ⟨0x2300, 0x2300, 0x6, 0x6, .uns 4, .ro, 0, 0, 4294967295, [], 0⟩,
   ⟨0x2300, 0x2300, 0x7, 0x7, .uns 4, .ro, 0, 0, 4294967295, [], 0⟩,
   ⟨0x2301, 0x2301, 0x0, 0x0, .uns 1, .const, 4, 0, 255, [], 0⟩,
   ⟨0x2301, 0x2301, 0x1, 0x1, .uns 1, .rw, 0, 0, 2, [], 0⟩,
   ⟨0x2301, 0x2301, 0x2, 0x2, .uns 4, .rw, 0, 0, 4294967295, [], 0⟩,
   ⟨0x2301, 0x2301, 0x3, 0x3, .uns 1, .rw, 8, 0, 8, [], 0⟩,
   ⟨0x2301, 0x2301, 0x4, 0x4, .dom 65536, .ro, 0, 0, 0, [], 0⟩,
   ⟨0x2302, 0x2302, 0x0, 0x0, .uns 1, .const, 1, 0, 255, [], 0⟩,
   ⟨0x2302, 0x2302, 0x1, 0x1, .uns 1, .wo, 0, 1, 3, [], 0⟩,
   ⟨0x2310, 0x2310, 0x0, 0x0, .dom 65536, .const, 0, 0, 0, [], 0⟩,
   ⟨0x2320, 0x2320, 0x0, 0x0, .dom 272, .rws, 0, 0, 0, [], 0⟩,
   ⟨0x2400, 0x2400, 0x0, 0x0, .uns 1, .const, 8, 0, 255, [], 0⟩,
   ⟨0x2400, 0x2400, 0x1, 0x1, .uns 2, .ro, 0, 0, 65535, [], 0⟩,
   ⟨0x2400, 0x2400, 0x2, 0x2, .uns 2, .ro, 0, 0, 65535, [], 0⟩,
   ⟨0x2400, 0x2400, 0x3, 0x3, .uns 2, .ro, 0, 0, 65535, [], 0⟩,
   ⟨0x2400, 0x2400, 0x4, 0x4, .uns 4, .ro, 0, 0, 4294967295, [], 0⟩,
   ⟨0x2400, 0x2400, 0x5, 0x5, .uns 4, .ro, 0, 0, 4294967295, [], 0⟩,
   ⟨0x2400, 0x2400, 0x6, 0x6, .uns 8, .ro, 0, 0, 18446744073709551615, [], 0⟩,
   ⟨0x2400, 0x2400, 0x7, 0x7, .uns 4, .ro, 0, 0, 4294967295, [], 0⟩,
   ⟨0x2400, 0x2400, 0x8, 0x8, .uns 1, .ro, 0, 0, 255, [], 0⟩,
   ⟨0x2401, 0x2401, 0x0, 0x0, .uns 1, .const, 2, 0, 255, [], 0⟩,
   ⟨0x2401, 0x2401, 0x1, 0x1, .dom 65536, .wo, 0, 0, 0, [], 0⟩,
   ⟨0x2401, 0x2401, 0x2, 0x2, .uns 1, .ro, 0, 0, 255, [], 0⟩,
   ⟨0x2402, 0x2402, 0x0, 0x0, .uns 1, .const, 5, 0, 255, [], 0⟩,
   ⟨0x2402, 0x2402, 0x1, 0x1, .uns 4, .rw, 16908288, 0, 4294967295, [], 0⟩,
   ⟨0x2402, 0x2402, 0x2, 0x2, .oct 16, .rw, 0, 0, 0, [], 0⟩]

/-- Rows 2402 to 2610 of the object tables. -/
def dictPart3 : List ObjRow :=
  [⟨0x2402, 0x2402, 0x3, 0x3, .uns 1, .wo, 0, 1, 2, [], 0⟩,
   ⟨0x2402, 0x2402, 0x4, 0x4, .dom 65536, .ro, 0, 0, 0, [], 0⟩,
   ⟨0x2402, 0x2402, 0x5, 0x5, .dom 65536, .ro, 0, 0, 0, [], 0⟩,
   ⟨0x2403, 0x2403, 0x0, 0x0, .dom 65536, .ro, 0, 0, 0, [], 0⟩,
   ⟨0x2410, 0x2410, 0x0, 0x0, .uns 1, .const, 3, 0, 255, [], 0⟩,
   ⟨0x2410, 0x2410, 0x1, 0x1, .dom 65536, .ro, 0, 0, 0, [], 0⟩,
   ⟨0x2410, 0x2410, 0x2, 0x2, .dom 65536, .rws, 0, 0, 0, [], 0⟩,
   ⟨0x2410, 0x2410, 0x3, 0x3, .dom 65536, .rws, 0, 0, 0, [], 0⟩,
   ⟨0x2500, 0x2500, 0x0, 0x0, .uns 1, .const, 8, 0, 255, [], 0⟩,
   ⟨0x2500, 0x2500, 0x1, 0x1, .uns 1, .ro, 0, 0, 255, [], 0⟩,
   ⟨0x2500, 0x2500, 0x2, 0x2, .uns 4, .ro, 0, 0, 4294967295, [], 0⟩,
   ⟨0x2500, 0x2500, 0x3, 0x3, .uns 4, .ro, 0, 0, 4294967295, [], 0⟩,
   ⟨0x2500, 0x2500, 0x4, 0x4, .uns 4, .ro, 0, 0, 4294967295, [], 0⟩,
   ⟨0x2500, 0x2500, 0x5, 0x5, .uns 8, .ro, 0, 0, 18446744073709551615, [], 0⟩,
   ⟨0x2500, 0x2500, 0x6, 0x6, .uns 2, .ro, 0, 0, 65535, [], 0⟩,
   ⟨0x2500, 0x2500, 0x7, 0x7, .uns 4, .ro, 0, 0, 4294967295, [], 0⟩,
   ⟨0x2500, 0x2500, 0x8, 0x8, .uns 4, .ro, 0, 0, 4294967295, [], 0⟩,
   ⟨0x2501, 0x2501, 0x0, 0x0, .uns 1, .const, 5, 0, 255, [], 0⟩,
   ⟨0x2501, 0x2501, 0x1, 0x1, .uns 1, .rws, 48, 8, 64, [], 0⟩,
   ⟨0x2501, 0x2501, 0x2, 0x2, .uns 4, .rws, 100000, 1000, 10000000, [], 0⟩,
   ⟨0x2501, 0x2501, 0x3, 0x3, .uns 2, .rws, 30, 1, 365, [], 0⟩,
   ⟨0x2501, 0x2501, 0x4, 0x4, .uns 2, .rws, 365, 7, 3650, [], 0⟩,
   ⟨0x2501, 0x2501, 0x5, 0x5, .uns 1, .rws, 8, 0, 15, [], 0⟩,
   ⟨0x2502, 0x2502, 0x0, 0x0, .dom 65536, .ro, 0, 0, 0, [], 0⟩,
   ⟨0x2510, 0x2510, 0x0, 0x0, .uns 1, .const, 8, 0, 255, [], 0⟩,
   ⟨0x2510, 0x2510, 0x1, 0x1, .uns 1, .rw, 0, 0, 255, [], 0⟩,
   ⟨0x2510, 0x2510, 0x2, 0x2, .uns 1, .wo, 0, 1, 3, [], 0⟩,
   ⟨0x2510, 0x2510, 0x3, 0x3, .uns 1, .ro, 0, 0, 255, [], 0⟩,
   ⟨0x2510, 0x2510, 0x4, 0x4, .uns 1, .ro, 0, 0, 255, [], 0⟩,
   ⟨0x2510, 0x2510, 0x5, 0x5, .uns 2, .rws, 120, 10, 540, [], 0⟩,
   ⟨0x2510, 0x2510, 0x6, 0x6, .bool, .rws, 0, 0, 1, [], 0⟩,
   ⟨0x2510, 0x2510, 0x7, 0x7, .uns 1, .wo, 0, 1, 1, [], 0⟩,
   ⟨0x2510, 0x2510, 0x8, 0x8, .uns 2, .ro, 0, 0, 65535, [], 0⟩,
   ⟨0x2511, 0x2512, 0x0, 0x0, .uns 1, .const, 6, 0, 255, [], 0⟩,
   ⟨0x2511, 0x2512, 0x1, 0x1, .uns 1, .ro, 0, 0, 255, [], 0⟩,
   ⟨0x2511, 0x2512, 0x2, 0x2, .uns 4, .ro, 0, 0, 4294967295, [], 0⟩,
   ⟨0x2511, 0x2512, 0x3, 0x3, .uns 4, .ro, 0, 0, 4294967295, [], 0⟩,
   ⟨0x2511, 0x2512, 0x4, 0x4, .uns 2, .ro, 0, 0, 65535, [], 0⟩,
   ⟨0x2511, 0x2512, 0x5, 0x5, .bool, .ro, 0, 0, 1, [], 0⟩,
   ⟨0x2511, 0x2512, 0x6, 0x6, .uns 4, .ro, 0, 0, 4294967295, [], 0⟩,
   ⟨0x2513, 0x2513, 0x0, 0x0, .uns 1, .const, 4, 0, 255, [], 0⟩,
   ⟨0x2513, 0x2513, 0x1, 0x1, .uns 1, .ro, 0, 0, 255, [], 0⟩,
   ⟨0x2513, 0x2513, 0x2, 0x2, .uns 1, .ro, 0, 0, 255, [], 0⟩,
   ⟨0x2513, 0x2513, 0x3, 0x3, .uns 4, .ro, 0, 0, 4294967295, [], 0⟩,
   ⟨0x2513, 0x2513, 0x4, 0x4, .uns 4, .ro, 0, 0, 4294967295, [], 0⟩,
   ⟨0x2600, 0x2600, 0x0, 0x0, .uns 1, .const, 3, 0, 255, [], 0⟩,
   ⟨0x2600, 0x2600, 0x1, 0x1, .uns 8, .rw, 0, 0, 18446744073709551615, [], 0⟩,
   ⟨0x2600, 0x2600, 0x2, 0x2, .uns 1, .ro, 0, 0, 255, [], 0⟩,
   ⟨0x2600, 0x2600, 0x3, 0x3, .uns 8, .rw, 0, 0, 18446744073709551615, [], 0⟩,
   ⟨0x2610, 0x2610, 0x0, 0x0, .uns 1, .const, 2, 0, 255, [], 0⟩]

/-- Rows 2610 to 3100 of the object tables. -/
def dictPart4 : List ObjRow :=
  [⟨0x2610, 0x2610, 0x1, 0x1, .uns 8, .ro, 0, 0, 18446744073709551615, [], 0⟩,
   ⟨0x2610, 0x2610, 0x2, 0x2, .uns 4, .ro, 0, 0, 4294967295, [], 0⟩,
   ⟨0x2620, 0x2620, 0x0, 0x0, .uns 1, .const, 1, 0, 255, [], 0⟩,
   ⟨0x2620, 0x2620, 0x1, 0x1, .uns 1, .rw, 0, 0, 255, [], 0⟩,
   ⟨0x2621, 0x2624, 0x0, 0x0, .uns 1, .const, 5, 0, 255, [], 0⟩,
   ⟨0x2621, 0x2624, 0x1, 0x1, .uns 1, .rws, 0, 0, 2, [], 0⟩,
   ⟨0x2621, 0x2624, 0x2, 0x2, .uns 2, .rws, 32, 0, 65535, [], 0xFE00⟩,
   ⟨0x2621, 0x2624, 0x3, 0x3, .uns 8, .ro, 0, 0, 18446744073709551615, [], 0⟩,
   ⟨0x2621, 0x2624, 0x4, 0x4, .uns 8, .ro, 0, 0, 18446744073709551615, [], 0⟩,
   ⟨0x2621, 0x2624, 0x5, 0x5, .uns 2, .ro, 0, 0, 65535, [], 0⟩,
   ⟨0x2630, 0x2630, 0x0, 0x0, .uns 1, .const, 3, 0, 255, [], 0⟩,
   ⟨0x2630, 0x2630, 0x1, 0x3, .uns 4, .ro, 0, 0, 4294967295, [], 0⟩,
   ⟨0x3000, 0x3017, 0x0, 0x0, .uns 1, .const, 28, 0, 255, [], 0⟩,
   ⟨0x3000, 0x3017, 0x1, 0x1, .uns 4, .ro, 0, 0, 4294967295, [], 0⟩,
   ⟨0x3000, 0x3017, 0x2, 0x2, .uns 1, .rws, 0, 0, 2, [], 0⟩,
   ⟨0x3000, 0x3017, 0x3, 0x3, .uns 1, .rws, 0, 0, 2, [], 0⟩,
   ⟨0x3000, 0x3017, 0x4, 0x4, .uns 1, .rws, 255, 0, 63, [255], 0⟩,
   ⟨0x3000, 0x3017, 0x5, 0x5, .uns 1, .rws, 0, 0, 24, [], 0⟩,
   ⟨0x3000, 0x3017, 0x6, 0x6, .uns 4, .rws, 0, 0, 4294967295, [], 0⟩,
   ⟨0x3000, 0x3017, 0x7, 0x7, .uns 2, .rws, 1500, 50, 1500, [], 0⟩,
   ⟨0x3000, 0x3017, 0x8, 0x8, .uns 2, .rws, 0, 0, 3200, [], 0⟩,
   ⟨0x3000, 0x3017, 0x9, 0x9, .uns 2, .rws, 0, 0, 4800, [], 0⟩,
   ⟨0x3000, 0x3017, 0xA, 0xA, .uns 2, .rwl, 0, 0, 3200, [], 0⟩,
   ⟨0x3000, 0x3017, 0xB, 0xB, .uns 2, .rwl, 0, 0, 4800, [], 0⟩,
   ⟨0x3000, 0x3017, 0xC, 0xC, .bool, .rwl, 1, 0, 1, [], 0⟩,
   ⟨0x3000, 0x3017, 0xD, 0xD, .int 1, .rwl, 0, (-8), 8, [], 0⟩,
   ⟨0x3000, 0x3017, 0xE, 0xE, .uns 2, .rws, 65535, 0, 255, [65535], 0⟩,
   ⟨0x3000, 0x3017, 0xF, 0xF, .uns 2, .rwl, 65535, 0, 255, [65535], 0⟩,
   ⟨0x3000, 0x3017, 0x10, 0x10, .uns 4, .rwl, 0, 0, 4294967295, [], 0⟩,
   ⟨0x3000, 0x3017, 0x11, 0x11, .uns 8, .rwl, 0, 0, 18446744073709551615, [], 0⟩,
   ⟨0x3000, 0x3017, 0x12, 0x12, .uns 2, .rws, 0, 13632, 13823, [0], 0⟩,
   ⟨0x3000, 0x3017, 0x13, 0x13, .uns 2, .rws, 0, 13632, 13823, [0], 0⟩,
   ⟨0x3000, 0x3017, 0x14, 0x14, .uns 2, .rws, 100, 1, 10000, [], 0⟩,
   ⟨0x3000, 0x3017, 0x15, 0x15, .uns 2, .rws, 0, 13376, 13391, [0], 0⟩,
   ⟨0x3000, 0x3017, 0x16, 0x16, .uns 1, .rws, 1, 1, 24, [], 0⟩,
   ⟨0x3000, 0x3017, 0x17, 0x17, .uns 1, .rws, 24, 1, 24, [], 0⟩,
   ⟨0x3000, 0x3017, 0x18, 0x18, .uns 2, .rws, 150, 50, 1500, [], 0⟩,
   ⟨0x3000, 0x3017, 0x19, 0x19, .uns 1, .rws, 7, 0, 255, [], 0xF8⟩,
   ⟨0x3000, 0x3017, 0x1A, 0x1A, .oct 16, .rws, 255, 0, 0, [], 0⟩,
   ⟨0x3000, 0x3017, 0x1B, 0x1B, .vis 32, .rws, 0, 0, 0, [], 0⟩,
   ⟨0x3000, 0x3017, 0x1C, 0x1C, .uns 4, .ro, 0, 0, 4294967295, [], 0⟩,
   ⟨0x3100, 0x315F, 0x0, 0x0, .uns 1, .const, 14, 0, 255, [], 0⟩,
   ⟨0x3100, 0x315F, 0x1, 0x1, .uns 1, .rws, 0, 0, 24, [], 0⟩,
   ⟨0x3100, 0x315F, 0x2, 0x2, .uns 1, .rws, 0, 0, 3, [], 0⟩,
   ⟨0x3100, 0x315F, 0x3, 0x3, .uns 2, .rws, 0, 0, 3200, [], 0⟩,
   ⟨0x3100, 0x315F, 0x4, 0x4, .uns 2, .rws, 0, 0, 200, [], 0⟩,
   ⟨0x3100, 0x315F, 0x5, 0x5, .bool, .rws, 0, 0, 1, [], 0⟩,
   ⟨0x3100, 0x315F, 0x6, 0x6, .bool, .rwl, 1, 0, 1, [], 0⟩,
   ⟨0x3100, 0x315F, 0x7, 0x7, .uns 2, .rws, 0, 0, 65535, [], 0⟩,
   ⟨0x3100, 0x315F, 0x8, 0x8, .uns 4, .ro, 0, 0, 4294967295, [], 0⟩]

/-- Rows 3100 to 3201 of the object tables. -/
def dictPart5 : List ObjRow :=
  [⟨0x3100, 0x315F, 0x9, 0x9, .uns 1, .ro, 0, 0, 255, [], 0⟩,
   ⟨0x3100, 0x315F, 0xA, 0xA, .uns 1, .ro, 0, 0, 255, [], 0⟩,
   ⟨0x3100, 0x315F, 0xB, 0xB, .uns 2, .ro, 0, 0, 65535, [], 0⟩,
   ⟨0x3100, 0x315F, 0xC, 0xC, .uns 1, .ro, 0, 0, 255, [], 0⟩,
   ⟨0x3100, 0x315F, 0xD, 0xD, .uns 1, .ro, 0, 0, 255, [], 0⟩,
   ⟨0x3100, 0x315F, 0xE, 0xE, .uns 4, .ro, 0, 0, 4294967295, [], 0⟩,
   ⟨0x3180, 0x3197, 0x0, 0x0, .uns 1, .const, 5, 0, 255, [], 0⟩,
   ⟨0x3180, 0x3197, 0x1, 0x1, .uns 1, .rws, 255, 0, 63, [255], 0⟩,
   ⟨0x3180, 0x3197, 0x2, 0x2, .uns 1, .rws, 0, 0, 4, [], 0⟩,
   ⟨0x3180, 0x3197, 0x3, 0x3, .uns 4, .rws, 0, 0, 4294967295, [], 0xFF000000⟩,
   ⟨0x3180, 0x3197, 0x4, 0x4, .uns 1, .ro, 0, 0, 255, [], 0⟩,
   ⟨0x3180, 0x3197, 0x5, 0x5, .uns 4, .ro, 0, 0, 4294967295, [], 0⟩,
   ⟨0x31A0, 0x31A7, 0x0, 0x0, .uns 1, .const, 20, 0, 255, [], 0⟩,
   ⟨0x31A0, 0x31A7, 0x1, 0x1, .uns 1, .rws, 255, 0, 63, [255], 0⟩,
   ⟨0x31A0, 0x31A7, 0x2, 0x2, .uns 4, .rws, 0, 0, 4294967295, [], 0⟩,
   ⟨0x31A0, 0x31A7, 0x3, 0x3, .uns 4, .rws, 0, 0, 4294967295, [], 0⟩,
   ⟨0x31A0, 0x31A7, 0x4, 0x4, .uns 2, .rws, 1500, 50, 1500, [], 0⟩,
   ⟨0x31A0, 0x31A7, 0x5, 0x5, .uns 2, .rws, 0, 0, 1000, [], 0⟩,
   ⟨0x31A0, 0x31A7, 0x6, 0x6, .uns 2, .rws, 0, 0, 1000, [], 0⟩,
   ⟨0x31A0, 0x31A7, 0x7, 0x7, .uns 2, .rws, 0, 0, 1500, [], 0⟩,
   ⟨0x31A0, 0x31A7, 0x8, 0x8, .uns 2, .rws, 0, 0, 1500, [], 0⟩,
   ⟨0x31A0, 0x31A7, 0x9, 0x9, .uns 2, .rws, 100, 1, 10000, [], 0⟩,
   ⟨0x31A0, 0x31A7, 0xA, 0xA, .uns 2, .rws, 200, 0, 1000, [], 0⟩,
   ⟨0x31A0, 0x31A7, 0xB, 0xB, .uns 2, .rws, 900, 0, 1000, [], 0⟩,
   ⟨0x31A0, 0x31A7, 0xC, 0xC, .uns 2, .rws, 200, 10, 500, [], 0⟩,
   ⟨0x31A0, 0x31A7, 0xD, 0xD, .uns 2, .rws, 65535, 0, 255, [65535], 0⟩,
   ⟨0x31A0, 0x31A7, 0xE, 0xE, .bool, .rwl, 1, 0, 1, [], 0⟩,
   ⟨0x31A0, 0x31A7, 0xF, 0xF, .bool, .rwl, 1, 0, 1, [], 0⟩,
   ⟨0x31A0, 0x31A7, 0x10, 0x10, .bool, .rwl, 1, 0, 1, [], 0⟩,
   ⟨0x31A0, 0x31A7, 0x11, 0x11, .int 4, .rwl, 0, (-2147483648), 2147483647, [], 0⟩,
   ⟨0x31A0, 0x31A7, 0x12, 0x12, .uns 2, .ro, 0, 0, 65535, [], 0⟩,
   ⟨0x31A0, 0x31A7, 0x13, 0x13, .uns 4, .ro, 0, 0, 4294967295, [], 0⟩,
   ⟨0x31A0, 0x31A7, 0x14, 0x14, .uns 2, .rw, 65535, 0, 1000, [65535], 0⟩,
   ⟨0x3200, 0x3200, 0x0, 0x0, .uns 1, .const, 9, 0, 255, [], 0⟩,
   ⟨0x3200, 0x3200, 0x1, 0x1, .uns 4, .rws, 0, 0, 20000, [], 0⟩,
   ⟨0x3200, 0x3200, 0x2, 0x2, .uns 4, .rws, 0, 0, 100000, [], 0⟩,
   ⟨0x3200, 0x3200, 0x3, 0x3, .uns 4, .rws, 0, 0, 4294967295, [], 0⟩,
   ⟨0x3200, 0x3200, 0x4, 0x4, .uns 4, .rws, 0, 0, 4294967295, [], 0⟩,
   ⟨0x3200, 0x3200, 0x5, 0x5, .uns 2, .rws, 10, 1, 600, [], 0⟩,
   ⟨0x3200, 0x3200, 0x6, 0x6, .uns 2, .rws, 50, 0, 200, [], 0⟩,
   ⟨0x3200, 0x3200, 0x7, 0x7, .uns 4, .rws, 0, 0, 100000, [], 0⟩,
   ⟨0x3200, 0x3200, 0x8, 0x8, .uns 2, .rws, 60, 1, 3600, [], 0⟩,
   ⟨0x3200, 0x3200, 0x9, 0x9, .uns 2, .rws, 600, 10, 65535, [], 0⟩,
   ⟨0x3201, 0x3201, 0x0, 0x0, .uns 1, .const, 13, 0, 255, [], 0⟩,
   ⟨0x3201, 0x3201, 0x1, 0x1, .uns 4, .ro, 0, 0, 4294967295, [], 0⟩,
   ⟨0x3201, 0x3201, 0x2, 0x2, .uns 4, .ro, 0, 0, 4294967295, [], 0⟩,
   ⟨0x3201, 0x3201, 0x3, 0x3, .uns 4, .ro, 0, 0, 4294967295, [], 0⟩,
   ⟨0x3201, 0x3201, 0x4, 0x4, .uns 4, .ro, 0, 0, 4294967295, [], 0⟩,
   ⟨0x3201, 0x3201, 0x5, 0x5, .uns 4, .ro, 0, 0, 4294967295, [], 0⟩,
   ⟨0x3201, 0x3201, 0x6, 0x6, .int 4, .ro, 0, (-2147483648), 2147483647, [], 0⟩]

/-- Rows 3201 to 3300 of the object tables. -/
def dictPart6 : List ObjRow :=
  [⟨0x3201, 0x3201, 0x7, 0x7, .uns 4, .ro, 0, 0, 4294967295, [], 0⟩,
   ⟨0x3201, 0x3201, 0x8, 0x8, .uns 4, .ro, 0, 0, 4294967295, [], 0⟩,
   ⟨0x3201, 0x3201, 0x9, 0x9, .int 4, .ro, 0, (-2147483648), 2147483647, [], 0⟩,
   ⟨0x3201, 0x3201, 0xA, 0xA, .uns 8, .ro, 0, 0, 18446744073709551615, [], 0⟩,
   ⟨0x3201, 0x3201, 0xB, 0xB, .uns 2, .ro, 0, 0, 65535, [], 0⟩,
   ⟨0x3201, 0x3201, 0xC, 0xC, .uns 4, .ro, 0, 0, 4294967295, [], 0⟩,
   ⟨0x3201, 0x3201, 0xD, 0xD, .uns 4, .ro, 0, 0, 4294967295, [], 0⟩,
   ⟨0x3202, 0x3202, 0x0, 0x0, .uns 1, .const, 16, 0, 255, [], 0⟩,
   ⟨0x3202, 0x3202, 0x1, 0x10, .uns 1, .rws, 0, 0, 15, [], 0⟩,
   ⟨0x3210, 0x3215, 0x0, 0x0, .uns 1, .const, 24, 0, 255, [], 0⟩,
   ⟨0x3210, 0x3210, 0x1, 0x18, .uns 4, .ro, 0, 0, 4294967295, [], 0⟩,
   ⟨0x3211, 0x3211, 0x1, 0x18, .uns 4, .ro, 0, 0, 4294967295, [], 0⟩,
   ⟨0x3212, 0x3212, 0x1, 0x18, .uns 1, .ro, 0, 0, 255, [], 0⟩,
   ⟨0x3213, 0x3213, 0x1, 0x18, .uns 2, .ro, 0, 0, 65535, [], 0⟩,
   ⟨0x3214, 0x3214, 0x1, 0x18, .uns 4, .ro, 0, 0, 4294967295, [], 0⟩,
   ⟨0x3215, 0x3215, 0x1, 0x18, .uns 2, .ro, 0, 0, 65535, [], 0⟩,
   ⟨0x3220, 0x3223, 0x0, 0x0, .uns 1, .const, 8, 0, 255, [], 0⟩,
   ⟨0x3220, 0x3220, 0x1, 0x8, .int 4, .ro, 0, (-2147483648), 2147483647, [], 0⟩,
   ⟨0x3221, 0x3221, 0x1, 0x8, .uns 4, .ro, 0, 0, 4294967295, [], 0⟩,
   ⟨0x3222, 0x3222, 0x1, 0x8, .uns 4, .ro, 0, 0, 4294967295, [], 0⟩,
   ⟨0x3223, 0x3223, 0x1, 0x8, .uns 4, .ro, 0, 0, 4294967295, [], 0⟩,
   ⟨0x3230, 0x3230, 0x0, 0x0, .uns 1, .const, 6, 0, 255, [], 0⟩,
   ⟨0x3230, 0x3230, 0x1, 0x1, .bool, .rws, 0, 0, 1, [], 0⟩,
   ⟨0x3230, 0x3230, 0x2, 0x2, .uns 4, .rws, 0, 0, 100000, [], 0⟩,
   ⟨0x3230, 0x3230, 0x3, 0x3, .uns 1, .rws, 0, 0, 255, [], 0⟩,
   ⟨0x3230, 0x3230, 0x4, 0x4, .uns 2, .rws, 100, 1, 65535, [], 0⟩,
   ⟨0x3230, 0x3230, 0x5, 0x5, .uns 4, .rws, 0, 0, 4294967295, [], 0⟩,
   ⟨0x3230, 0x3230, 0x6, 0x6, .uns 2, .rws, 768, 0, 1920, [], 0⟩,
   ⟨0x3231, 0x3231, 0x0, 0x0, .uns 1, .const, 6, 0, 255, [], 0⟩,
   ⟨0x3231, 0x3231, 0x1, 0x1, .uns 1, .ro, 0, 0, 255, [], 0⟩,
   ⟨0x3231, 0x3231, 0x2, 0x2, .uns 1, .ro, 0, 0, 255, [], 0⟩,
   ⟨0x3231, 0x3231, 0x3, 0x3, .uns 2, .ro, 0, 0, 65535, [], 0⟩,
   ⟨0x3231, 0x3231, 0x4, 0x4, .uns 1, .ro, 0, 0, 255, [], 0⟩,
   ⟨0x3231, 0x3231, 0x5, 0x5, .uns 4, .ro, 0, 0, 4294967295, [], 0⟩,
   ⟨0x3231, 0x3231, 0x6, 0x6, .uns 4, .ro, 0, 0, 4294967295, [], 0⟩,
   ⟨0x32C0, 0x32C0, 0x0, 0x0, .dom 1040, .rws, 0, 0, 0, [], 0⟩,
   ⟨0x32C1, 0x32C1, 0x0, 0x0, .dom 1040, .rws, 0, 0, 0, [], 0⟩,
   ⟨0x32C2, 0x32C2, 0x0, 0x0, .uns 1, .const, 2, 0, 255, [], 0⟩,
   ⟨0x32C2, 0x32C2, 0x1, 0x1, .uns 1, .ro, 0, 0, 255, [], 0⟩,
   ⟨0x32C2, 0x32C2, 0x2, 0x2, .uns 4, .ro, 0, 0, 4294967295, [], 0⟩,
   ⟨0x3300, 0x3300, 0x0, 0x0, .uns 1, .const, 11, 0, 255, [], 0⟩,
   ⟨0x3300, 0x3300, 0x1, 0x1, .bool, .rws, 1, 0, 1, [], 0⟩,
   ⟨0x3300, 0x3300, 0x2, 0x2, .uns 1, .rws, 8, 1, 24, [], 0⟩,
   ⟨0x3300, 0x3300, 0x3, 0x3, .uns 1, .rws, 3, 1, 50, [], 0⟩,
   ⟨0x3300, 0x3300, 0x4, 0x4, .uns 2, .rws, 20, 10, 500, [], 0⟩,
   ⟨0x3300, 0x3300, 0x5, 0x5, .uns 2, .rws, 20, 10, 500, [], 0⟩,
   ⟨0x3300, 0x3300, 0x6, 0x6, .uns 2, .rws, 100, 20, 2000, [], 0⟩,
   ⟨0x3300, 0x3300, 0x7, 0x7, .uns 1, .rws, 20, 5, 100, [], 0⟩,
   ⟨0x3300, 0x3300, 0x8, 0x8, .uns 2, .rws, 250, 50, 1000, [], 0⟩,
   ⟨0x3300, 0x3300, 0x9, 0x9, .uns 1, .rws, 3, 1, 60, [], 0⟩]

/-- Rows 3300 to 3410 of the object tables. -/
def dictPart7 : List ObjRow :=
  [⟨0x3300, 0x3300, 0xA, 0xA, .uns 2, .rws, 1000, 100, 10000, [], 0⟩,
   ⟨0x3300, 0x3300, 0xB, 0xB, .uns 2, .rws, 10, 1, 3600, [], 0⟩,
   ⟨0x3301, 0x3301, 0x0, 0x0, .uns 1, .const, 8, 0, 255, [], 0⟩,
   ⟨0x3301, 0x3301, 0x1, 0x1, .uns 1, .ro, 0, 0, 255, [], 0⟩,
   ⟨0x3301, 0x3301, 0x2, 0x2, .uns 4, .ro, 0, 0, 4294967295, [], 0⟩,
   ⟨0x3301, 0x3301, 0x3, 0x3, .uns 4, .ro, 0, 0, 4294967295, [], 0⟩,
   ⟨0x3301, 0x3301, 0x4, 0x4, .uns 4, .ro, 0, 0, 4294967295, [], 0⟩,
   ⟨0x3301, 0x3301, 0x5, 0x5, .uns 4, .ro, 0, 0, 4294967295, [], 0⟩,
   ⟨0x3301, 0x3301, 0x6, 0x6, .uns 4, .ro, 0, 0, 4294967295, [], 0⟩,
   ⟨0x3301, 0x3301, 0x7, 0x7, .uns 2, .ro, 0, 0, 65535, [], 0⟩,
   ⟨0x3301, 0x3301, 0x8, 0x8, .uns 4, .ro, 0, 0, 4294967295, [], 0⟩,
   ⟨0x3302, 0x3302, 0x0, 0x0, .uns 1, .const, 24, 0, 255, [], 0⟩,
   ⟨0x3302, 0x3302, 0x1, 0x18, .uns 2, .ro, 65535, 0, 65535, [], 0⟩,
   ⟨0x3303, 0x3303, 0x0, 0x0, .uns 1, .const, 96, 0, 255, [], 0⟩,
   ⟨0x3303, 0x3303, 0x1, 0x60, .uns 2, .ro, 65535, 0, 65535, [], 0⟩,
   ⟨0x3304, 0x3304, 0x0, 0x0, .uns 1, .const, 8, 0, 255, [], 0⟩,
   ⟨0x3304, 0x3304, 0x1, 0x8, .uns 2, .ro, 65535, 0, 65535, [], 0⟩,
   ⟨0x3400, 0x3400, 0x0, 0x0, .uns 1, .const, 6, 0, 255, [], 0⟩,
   ⟨0x3400, 0x3400, 0x1, 0x1, .uns 4, .ro, 0, 0, 4294967295, [], 0⟩,
   ⟨0x3400, 0x3400, 0x2, 0x2, .uns 4, .ro, 4294967295, 0, 4294967295, [], 0⟩,
   ⟨0x3400, 0x3400, 0x3, 0x3, .int 4, .ro, 0, (-2147483648), 2147483647, [], 0⟩,
   ⟨0x3400, 0x3400, 0x4, 0x4, .int 4, .ro, 0, (-2147483648), 2147483647, [], 0⟩,
   ⟨0x3400, 0x3400, 0x5, 0x5, .uns 2, .ro, 0, 0, 65535, [], 0⟩,
   ⟨0x3400, 0x3400, 0x6, 0x6, .uns 4, .wo, 0, 0, 4294967295, [], 0⟩,
   ⟨0x3401, 0x3401, 0x0, 0x0, .uns 1, .const, 6, 0, 255, [], 0⟩,
   ⟨0x3401, 0x3401, 0x1, 0x4, .uns 2, .rws, 65535, 0, 65535, [], 0⟩,
   ⟨0x3401, 0x3401, 0x5, 0x5, .int 4, .rwl, 40000, (-2147483648), 2147483647, [], 0⟩,
   ⟨0x3401, 0x3401, 0x6, 0x6, .int 4, .rwl, 35000, (-2147483648), 2147483647, [], 0⟩,
   ⟨0x3402, 0x3402, 0x0, 0x0, .uns 1, .const, 7, 0, 255, [], 0⟩,
   ⟨0x3402, 0x3402, 0x1, 0x1, .uns 4, .rws, 0, 0, 4294967295, [], 0⟩,
   ⟨0x3402, 0x3402, 0x2, 0x2, .uns 4, .rws, 0, 0, 4294967295, [], 0⟩,
   ⟨0x3402, 0x3402, 0x3, 0x3, .uns 4, .rws, 0, 0, 4294967295, [], 0⟩,
   ⟨0x3402, 0x3402, 0x4, 0x4, .uns 4, .rws, 0, 0, 4294967295, [], 0⟩,
   ⟨0x3402, 0x3402, 0x5, 0x5, .uns 4, .rws, 0, 0, 4294967295, [], 0⟩,
   ⟨0x3402, 0x3402, 0x6, 0x6, .uns 4, .rws, 0, 0, 4294967295, [], 0⟩,
   ⟨0x3402, 0x3402, 0x7, 0x7, .uns 4, .rws, 0, 0, 4294967295, [], 0⟩,
   ⟨0x3404, 0x3404, 0x0, 0x0, .uns 1, .const, 7, 0, 255, [], 0⟩,
   ⟨0x3404, 0x3404, 0x1, 0x3, .uns 4, .rws, 0, 0, 4294967295, [], 0⟩,
   ⟨0x3404, 0x3404, 0x4, 0x4, .uns 4, .rws, 0, 0, 4294967295, [], 0⟩,
   ⟨0x3404, 0x3404, 0x5, 0x5, .uns 4, .rws, 0, 0, 4294967295, [], 0⟩,
   ⟨0x3404, 0x3404, 0x6, 0x6, .uns 4, .rws, 0, 0, 4294967295, [], 0⟩,
   ⟨0x3404, 0x3404, 0x7, 0x7, .uns 4, .rws, 0, 0, 4294967295, [], 0⟩,
   ⟨0x3405, 0x3405, 0x0, 0x0, .uns 1, .const, 7, 0, 255, [], 0⟩,
   ⟨0x3405, 0x3405, 0x1, 0x1, .uns 4, .rws, 0, 0, 4294967295, [], 0⟩,
   ⟨0x3405, 0x3405, 0x2, 0x2, .uns 4, .rws, 0, 0, 4294967295, [], 0⟩,
   ⟨0x3405, 0x3405, 0x3, 0x3, .uns 4, .rws, 0, 0, 4294967295, [], 0⟩,
   ⟨0x3405, 0x3405, 0x4, 0x4, .uns 4, .rws, 0, 0, 4294967295, [], 0⟩,
   ⟨0x3405, 0x3405, 0x5, 0x7, .uns 4, .rws, 0, 0, 4294967295, [], 0⟩,
   ⟨0x3410, 0x3410, 0x1, 0x1, .int 4, .rws, (-2147483648), (-2147483648), 2147483647, [], 0⟩,
   ⟨0x3410, 0x3410, 0x2, 0x2, .int 4, .rws, (-2147483648), (-2147483648), 2147483647, [], 0⟩]

/-- Rows 3410 to 3415 of the object tables. -/
def dictPart8 : List ObjRow :=
  [⟨0x3410, 0x3410, 0x3, 0x3, .int 4, .rws, 85000, (-2147483648), 2147483647, [], 0⟩,
   ⟨0x3410, 0x3410, 0x4, 0x4, .int 4, .rws, 90000, (-2147483648), 2147483647, [], 0⟩,
   ⟨0x3410, 0x3410, 0x5, 0x5, .int 4, .rws, 100000, (-2147483648), 2147483647, [], 0⟩,
   ⟨0x3410, 0x3410, 0x6, 0x6, .uns 2, .rws, 30, 0, 65535, [], 0⟩,
   ⟨0x3410, 0x3410, 0x7, 0x7, .uns 2, .rws, 100, 0, 65535, [], 0⟩,
   ⟨0x3410, 0x3410, 0x8, 0x8, .uns 2, .rws, 50, 0, 65535, [], 0⟩,
   ⟨0x3410, 0x3410, 0xC, 0xC, .uns 2, .rws, 50, 0, 65535, [], 0⟩,
   ⟨0x3410, 0x341D, 0x0, 0x0, .uns 1, .const, 13, 0, 255, [], 0⟩,
   ⟨0x3410, 0x341D, 0x9, 0x9, .int 4, .rws, (-50000), (-2147483648), 2147483647, [], 0⟩,
   ⟨0x3410, 0x341D, 0xA, 0xA, .int 4, .rws, 200000, (-2147483648), 2147483647, [], 0⟩,
   ⟨0x3410, 0x341D, 0xB, 0xB, .uns 2, .rws, 100, 0, 65535, [], 0⟩,
   ⟨0x3410, 0x341D, 0xD, 0xD, .uns 2, .rws, 250, 0, 65535, [], 0⟩,
   ⟨0x3411, 0x3411, 0x1, 0x1, .int 4, .rws, (-2147483648), (-2147483648), 2147483647, [], 0⟩,
   ⟨0x3411, 0x3411, 0x2, 0x2, .int 4, .rws, (-2147483648), (-2147483648), 2147483647, [], 0⟩,
   ⟨0x3411, 0x3411, 0x3, 0x3, .int 4, .rws, 80000, (-2147483648), 2147483647, [], 0⟩,
   ⟨0x3411, 0x3411, 0x4, 0x4, .int 4, .rws, 85000, (-2147483648), 2147483647, [], 0⟩,
   ⟨0x3411, 0x3411, 0x5, 0x5, .int 4, .rws, 95000, (-2147483648), 2147483647, [], 0⟩,
   ⟨0x3411, 0x3411, 0x6, 0x6, .uns 2, .rws, 30, 0, 65535, [], 0⟩,
   ⟨0x3411, 0x3411, 0x7, 0x7, .uns 2, .rws, 50, 0, 65535, [], 0⟩,
   ⟨0x3411, 0x3411, 0x8, 0x8, .uns 2, .rws, 50, 0, 65535, [], 0⟩,
   ⟨0x3411, 0x3411, 0xC, 0xC, .uns 2, .rws, 50, 0, 65535, [], 0⟩,
   ⟨0x3412, 0x3412, 0x1, 0x1, .int 4, .rws, (-25000), (-2147483648), 2147483647, [], 0⟩,
   ⟨0x3412, 0x3412, 0x2, 0x2, .int 4, .rws, (-10000), (-2147483648), 2147483647, [], 0⟩,
   ⟨0x3412, 0x3412, 0x3, 0x3, .int 4, .rws, 45000, (-2147483648), 2147483647, [], 0⟩,
   ⟨0x3412, 0x3412, 0x4, 0x4, .int 4, .rws, 50000, (-2147483648), 2147483647, [], 0⟩,
   ⟨0x3412, 0x3412, 0x5, 0x5, .int 4, .rws, 60000, (-2147483648), 2147483647, [], 0⟩,
   ⟨0x3412, 0x3412, 0x6, 0x6, .uns 2, .rws, 20, 0, 65535, [], 0⟩,
   ⟨0x3412, 0x3412, 0x7, 0x7, .uns 2, .rws, 20, 0, 65535, [], 0⟩,
   ⟨0x3412, 0x3412, 0x8, 0x8, .uns 2, .rws, 30, 0, 65535, [], 0⟩,
   ⟨0x3412, 0x3412, 0xC, 0xC, .uns 2, .rws, 30, 0, 65535, [], 0⟩,
   ⟨0x3413, 0x3413, 0x1, 0x1, .int 4, .rws, (-25000), (-2147483648), 2147483647, [], 0⟩,
   ⟨0x3413, 0x3413, 0x2, 0x2, .int 4, .rws, (-10000), (-2147483648), 2147483647, [], 0⟩,
   ⟨0x3413, 0x3413, 0x3, 0x3, .int 4, .rws, 60000, (-2147483648), 2147483647, [], 0⟩,
   ⟨0x3413, 0x3413, 0x4, 0x4, .int 4, .rws, 65000, (-2147483648), 2147483647, [], 0⟩,
   ⟨0x3413, 0x3413, 0x5, 0x5, .int 4, .rws, 75000, (-2147483648), 2147483647, [], 0⟩,
   ⟨0x3413, 0x3413, 0x6, 0x6, .uns 2, .rws, 20, 0, 65535, [], 0⟩,
   ⟨0x3413, 0x3413, 0x7, 0x7, .uns 2, .rws, 50, 0, 65535, [], 0⟩,
   ⟨0x3413, 0x3413, 0x8, 0x8, .uns 2, .rws, 30, 0, 65535, [], 0⟩,
   ⟨0x3413, 0x3413, 0xC, 0xC, .uns 2, .rws, 30, 0, 65535, [], 0⟩,
   ⟨0x3414, 0x3414, 0x1, 0x1, .int 4, .rws, (-30000), (-2147483648), 2147483647, [], 0⟩,
   ⟨0x3414, 0x3414, 0x2, 0x2, .int 4, .rws, (-15000), (-2147483648), 2147483647, [], 0⟩,
   ⟨0x3414, 0x3414, 0x3, 0x3, .int 4, .rws, 80000, (-2147483648), 2147483647, [], 0⟩,
   ⟨0x3414, 0x3414, 0x4, 0x4, .int 4, .rws, 85000, (-2147483648), 2147483647, [], 0⟩,
   ⟨0x3414, 0x3414, 0x5, 0x5, .int 4, .rws, 95000, (-2147483648), 2147483647, [], 0⟩,
   ⟨0x3414, 0x3414, 0x6, 0x6, .uns 2, .rws, 30, 0, 65535, [], 0⟩,
   ⟨0x3414, 0x3414, 0x7, 0x7, .uns 2, .rws, 50, 0, 65535, [], 0⟩,
   ⟨0x3414, 0x3414, 0x8, 0x8, .uns 2, .rws, 50, 0, 65535, [], 0⟩,
   ⟨0x3414, 0x3414, 0xC, 0xC, .uns 2, .rws, 50, 0, 65535, [], 0⟩,
   ⟨0x3415, 0x3415, 0x1, 0x1, .int 4, .rws, (-2147483648), (-2147483648), 2147483647, [], 0⟩,
   ⟨0x3415, 0x3415, 0x2, 0x2, .int 4, .rws, (-2147483648), (-2147483648), 2147483647, [], 0⟩]

/-- Rows 3415 to 341A of the object tables. -/
def dictPart9 : List ObjRow :=
  [⟨0x3415, 0x3415, 0x3, 0x3, .int 4, .rws, 45000, (-2147483648), 2147483647, [], 0⟩,
   ⟨0x3415, 0x3415, 0x4, 0x4, .int 4, .rws, 50000, (-2147483648), 2147483647, [], 0⟩,
   ⟨0x3415, 0x3415, 0x5, 0x5, .int 4, .rws, 60000, (-2147483648), 2147483647, [], 0⟩,
   ⟨0x3415, 0x3415, 0x6, 0x6, .uns 2, .rws, 20, 0, 65535, [], 0⟩,
   ⟨0x3415, 0x3415, 0x7, 0x7, .uns 2, .rws, 20, 0, 65535, [], 0⟩,
   ⟨0x3415, 0x3415, 0x8, 0x8, .uns 2, .rws, 30, 0, 65535, [], 0⟩,
   ⟨0x3415, 0x3415, 0xC, 0xC, .uns 2, .rws, 30, 0, 65535, [], 0⟩,
   ⟨0x3416, 0x3416, 0x1, 0x1, .int 4, .rws, (-2147483648), (-2147483648), 2147483647, [], 0⟩,
   ⟨0x3416, 0x3416, 0x2, 0x2, .int 4, .rws, (-2147483648), (-2147483648), 2147483647, [], 0⟩,
   ⟨0x3416, 0x3416, 0x3, 0x3, .int 4, .rws, 50000, (-2147483648), 2147483647, [], 0⟩,
   ⟨0x3416, 0x3416, 0x4, 0x4, .int 4, .rws, 55000, (-2147483648), 2147483647, [], 0⟩,
   ⟨0x3416, 0x3416, 0x5, 0x5, .int 4, .rws, 65000, (-2147483648), 2147483647, [], 0⟩,
   ⟨0x3416, 0x3416, 0x6, 0x6, .uns 2, .rws, 20, 0, 65535, [], 0⟩,
   ⟨0x3416, 0x3416, 0x7, 0x7, .uns 2, .rws, 20, 0, 65535, [], 0⟩,
   ⟨0x3416, 0x3416, 0x8, 0x8, .uns 2, .rws, 30, 0, 65535, [], 0⟩,
   ⟨0x3416, 0x3416, 0xC, 0xC, .uns 2, .rws, 30, 0, 65535, [], 0⟩,
   ⟨0x3417, 0x3417, 0x1, 0x1, .int 4, .rws, (-2147483648), (-2147483648), 2147483647, [], 0⟩,
   ⟨0x3417, 0x3417, 0x2, 0x2, .int 4, .rws, (-2147483648), (-2147483648), 2147483647, [], 0⟩,
   ⟨0x3417, 0x3417, 0x3, 0x3, .int 4, .rws, 50000, (-2147483648), 2147483647, [], 0⟩,
   ⟨0x3417, 0x3417, 0x4, 0x4, .int 4, .rws, 2147483647, (-2147483648), 2147483647, [], 0⟩,
   ⟨0x3417, 0x3417, 0x5, 0x5, .int 4, .rws, 2147483647, (-2147483648), 2147483647, [], 0⟩,
   ⟨0x3417, 0x3417, 0x6, 0x6, .uns 2, .rws, 20, 0, 65535, [], 0⟩,
   ⟨0x3417, 0x3417, 0x7, 0x7, .uns 2, .rws, 10, 0, 65535, [], 0⟩,
   ⟨0x3417, 0x3417, 0x8, 0x8, .uns 2, .rws, 50, 0, 65535, [], 0⟩,
   ⟨0x3417, 0x3417, 0xC, 0xC, .uns 2, .rws, 50, 0, 65535, [], 0⟩,
   ⟨0x3418, 0x3418, 0x1, 0x1, .int 4, .rws, (-2147483648), (-2147483648), 2147483647, [], 0⟩,
   ⟨0x3418, 0x3418, 0x2, 0x2, .int 4, .rws, (-2147483648), (-2147483648), 2147483647, [], 0⟩,
   ⟨0x3418, 0x3418, 0x3, 0x3, .int 4, .rws, 85000, (-2147483648), 2147483647, [], 0⟩,
   ⟨0x3418, 0x3418, 0x4, 0x4, .int 4, .rws, 90000, (-2147483648), 2147483647, [], 0⟩,
   ⟨0x3418, 0x3418, 0x5, 0x5, .int 4, .rws, 100000, (-2147483648), 2147483647, [], 0⟩,
   ⟨0x3418, 0x3418, 0x6, 0x6, .uns 2, .rws, 30, 0, 65535, [], 0⟩,
   ⟨0x3418, 0x3418, 0x7, 0x7, .uns 2, .rws, 100, 0, 65535, [], 0⟩,
   ⟨0x3418, 0x3418, 0x8, 0x8, .uns 2, .rws, 50, 0, 65535, [], 0⟩,
   ⟨0x3418, 0x3418, 0xC, 0xC, .uns 2, .rws, 50, 0, 65535, [], 0⟩,
   ⟨0x3419, 0x3419, 0x1, 0x1, .int 4, .rws, (-2147483648), (-2147483648), 2147483647, [], 0⟩,
   ⟨0x3419, 0x3419, 0x2, 0x2, .int 4, .rws, (-2147483648), (-2147483648), 2147483647, [], 0⟩,
   ⟨0x3419, 0x3419, 0x3, 0x3, .int 4, .rws, 125000, (-2147483648), 2147483647, [], 0⟩,
   ⟨0x3419, 0x3419, 0x4, 0x4, .int 4, .rws, 135000, (-2147483648), 2147483647, [], 0⟩,
   ⟨0x3419, 0x3419, 0x5, 0x5, .int 4, .rws, 150000, (-2147483648), 2147483647, [], 0⟩,
   ⟨0x3419, 0x3419, 0x6, 0x6, .uns 2, .rws, 50, 0, 65535, [], 0⟩,
   ⟨0x3419, 0x3419, 0x7, 0x7, .uns 2, .rws, 500, 0, 65535, [], 0⟩,
   ⟨0x3419, 0x3419, 0x8, 0x8, .uns 2, .rws, 50, 0, 65535, [], 0⟩,
   ⟨0x3419, 0x3419, 0xC, 0xC, .uns 2, .rws, 100, 0, 65535, [], 0⟩,
   ⟨0x341A, 0x341A, 0x1, 0x1, .int 4, .rws, (-10000), (-2147483648), 2147483647, [], 0⟩,
   ⟨0x341A, 0x341A, 0x2, 0x2, .int 4, .rws, 5000, (-2147483648), 2147483647, [], 0⟩,
   ⟨0x341A, 0x341A, 0x3, 0x3, .int 4, .rws, 45000, (-2147483648), 2147483647, [], 0⟩,
   ⟨0x341A, 0x341A, 0x4, 0x4, .int 4, .rws, 50000, (-2147483648), 2147483647, [], 0⟩,
   ⟨0x341A, 0x341A, 0x5, 0x5, .int 4, .rws, 55000, (-2147483648), 2147483647, [], 0⟩,
   ⟨0x341A, 0x341A, 0x6, 0x6, .uns 2, .rws, 20, 0, 65535, [], 0⟩,
   ⟨0x341A, 0x341A, 0x7, 0x7, .uns 2, .rws, 10, 0, 65535, [], 0⟩]

/-- Rows 341A to 3480 of the object tables. -/
def dictPart10 : List ObjRow :=
  [⟨0x341A, 0x341A, 0x8, 0x8, .uns 2, .rws, 30, 0, 65535, [], 0⟩,
   ⟨0x341A, 0x341A, 0xC, 0xC, .uns 2, .rws, 30, 0, 65535, [], 0⟩,
   ⟨0x341B, 0x341B, 0x1, 0x1, .int 4, .rws, (-2147483648), (-2147483648), 2147483647, [], 0⟩,
   ⟨0x341B, 0x341B, 0x2, 0x2, .int 4, .rws, (-2147483648), (-2147483648), 2147483647, [], 0⟩,
   ⟨0x341B, 0x341B, 0x3, 0x3, .int 4, .rws, 90000, (-2147483648), 2147483647, [], 0⟩,
   ⟨0x341B, 0x341B, 0x4, 0x4, .int 4, .rws, 100000, (-2147483648), 2147483647, [], 0⟩,
   ⟨0x341B, 0x341B, 0x5, 0x5, .int 4, .rws, 110000, (-2147483648), 2147483647, [], 0⟩,
   ⟨0x341B, 0x341B, 0x6, 0x6, .uns 2, .rws, 30, 0, 65535, [], 0⟩,
   ⟨0x341B, 0x341B, 0x7, 0x7, .uns 2, .rws, 100, 0, 65535, [], 0⟩,
   ⟨0x341B, 0x341B, 0x8, 0x8, .uns 2, .rws, 50, 0, 65535, [], 0⟩,
   ⟨0x341B, 0x341B, 0xC, 0xC, .uns 2, .rws, 50, 0, 65535, [], 0⟩,
   ⟨0x341C, 0x341C, 0x1, 0x1, .int 4, .rws, (-2147483648), (-2147483648), 2147483647, [], 0⟩,
   ⟨0x341C, 0x341C, 0x2, 0x2, .int 4, .rws, (-2147483648), (-2147483648), 2147483647, [], 0⟩,
   ⟨0x341C, 0x341C, 0x3, 0x3, .int 4, .rws, 85000, (-2147483648), 2147483647, [], 0⟩,
   ⟨0x341C, 0x341C, 0x4, 0x4, .int 4, .rws, 95000, (-2147483648), 2147483647, [], 0⟩,
   ⟨0x341C, 0x341C, 0x5, 0x5, .int 4, .rws, 105000, (-2147483648), 2147483647, [], 0⟩,
   ⟨0x341C, 0x341C, 0x6, 0x6, .uns 2, .rws, 30, 0, 65535, [], 0⟩,
   ⟨0x341C, 0x341C, 0x7, 0x7, .uns 2, .rws, 10, 0, 65535, [], 0⟩,
   ⟨0x341C, 0x341C, 0x8, 0x8, .uns 2, .rws, 50, 0, 65535, [], 0⟩,
   ⟨0x341C, 0x341C, 0xC, 0xC, .uns 2, .rws, 50, 0, 65535, [], 0⟩,
   ⟨0x341D, 0x341D, 0x1, 0x1, .int 4, .rws, (-2147483648), (-2147483648), 2147483647, [], 0⟩,
   ⟨0x341D, 0x341D, 0x2, 0x2, .int 4, .rws, (-2147483648), (-2147483648), 2147483647, [], 0⟩,
   ⟨0x341D, 0x341D, 0x3, 0x3, .int 4, .rws, 110000, (-2147483648), 2147483647, [], 0⟩,
   ⟨0x341D, 0x341D, 0x4, 0x4, .int 4, .rws, 120000, (-2147483648), 2147483647, [], 0⟩,
   ⟨0x341D, 0x341D, 0x5, 0x5, .int 4, .rws, 140000, (-2147483648), 2147483647, [], 0⟩,
   ⟨0x341D, 0x341D, 0x6, 0x6, .uns 2, .rws, 30, 0, 65535, [], 0⟩,
   ⟨0x341D, 0x341D, 0x7, 0x7, .uns 2, .rws, 20, 0, 65535, [], 0⟩,
   ⟨0x341D, 0x341D, 0x8, 0x8, .uns 2, .rws, 50, 0, 65535, [], 0⟩,
   ⟨0x341D, 0x341D, 0xC, 0xC, .uns 2, .rws, 100, 0, 65535, [], 0⟩,
   ⟨0x3440, 0x344F, 0x0, 0x0, .uns 1, .const, 14, 0, 255, [], 0⟩,
   ⟨0x3440, 0x344F, 0x1, 0x1, .uns 4, .rws, 0, 0, 4294967295, [], 0⟩,
   ⟨0x3440, 0x344F, 0x2, 0x2, .uns 2, .rws, 3930, 0, 65535, [], 0⟩,
   ⟨0x3440, 0x344F, 0x3, 0x3, .uns 2, .rws, 0, 0, 65535, [], 0⟩,
   ⟨0x3440, 0x344F, 0x4, 0x4, .oct 32, .rws, 0, 0, 0, [], 0⟩,
   ⟨0x3440, 0x344F, 0x5, 0x5, .oct 40, .rws, 0, 0, 0, [], 0⟩,
   ⟨0x3440, 0x344F, 0x6, 0x6, .uns 2, .rws, 3600, 0, 65535, [], 0⟩,
   ⟨0x3440, 0x344F, 0x7, 0x7, .uns 2, .rws, 0, 0, 3200, [], 0⟩,
   ⟨0x3440, 0x344F, 0x8, 0xB, .uns 2, .rws, 0, 0, 65535, [], 0⟩,
   ⟨0x3440, 0x344F, 0xC, 0xC, .uns 2, .rws, 200, 10, 1000, [], 0⟩,
   ⟨0x3440, 0x344F, 0xD, 0xD, .uns 1, .rws, 26, 0, 255, [], 0⟩,
   ⟨0x3440, 0x344F, 0xE, 0xE, .uns 1, .rws, 20, 1, 63, [], 0⟩,
   ⟨0x3460, 0x3477, 0x0, 0x0, .uns 1, .const, 7, 0, 255, [], 0⟩,
   ⟨0x3460, 0x3477, 0x1, 0x3, .uns 2, .ro, 0, 0, 65535, [], 0⟩,
   ⟨0x3460, 0x3477, 0x4, 0x4, .oct 32, .ro, 0, 0, 0, [], 0⟩,
   ⟨0x3460, 0x3477, 0x5, 0x5, .uns 2, .ro, 0, 0, 65535, [], 0⟩,
   ⟨0x3460, 0x3477, 0x6, 0x6, .oct 16, .ro, 0, 0, 0, [], 0⟩,
   ⟨0x3460, 0x3477, 0x7, 0x7, .uns 2, .ro, 0, 0, 65535, [], 0⟩,
   ⟨0x3480, 0x3487, 0x0, 0x0, .uns 1, .const, 6, 0, 255, [], 0⟩,
   ⟨0x3480, 0x3487, 0x1, 0x3, .uns 2, .ro, 0, 0, 65535, [], 0⟩,
   ⟨0x3480, 0x3487, 0x4, 0x4, .oct 8, .ro, 0, 0, 0, [], 0⟩]

/-- Rows 3480 to 3506 of the object tables. -/
def dictPart11 : List ObjRow :=
  [⟨0x3480, 0x3487, 0x5, 0x5, .uns 2, .ro, 0, 0, 65535, [], 0⟩,
   ⟨0x3480, 0x3487, 0x6, 0x6, .oct 8, .ro, 0, 0, 0, [], 0⟩,
   ⟨0x3490, 0x3490, 0x0, 0x0, .uns 1, .const, 96, 0, 255, [], 0⟩,
   ⟨0x3490, 0x3490, 0x1, 0x60, .uns 2, .ro, 0, 0, 65535, [], 0⟩,
   ⟨0x3491, 0x3491, 0x0, 0x0, .uns 1, .const, 96, 0, 255, [], 0⟩,
   ⟨0x3491, 0x3491, 0x1, 0x60, .uns 2, .ro, 65535, 0, 65535, [], 0⟩,
   ⟨0x3500, 0x3500, 0x0, 0x0, .uns 1, .const, 5, 0, 255, [], 0⟩,
   ⟨0x3500, 0x3500, 0x1, 0x1, .uns 2, .rws, 0, 13632, 13823, [0], 0⟩,
   ⟨0x3500, 0x3500, 0x2, 0x2, .uns 2, .rws, 0, 13632, 13823, [0], 0⟩,
   ⟨0x3500, 0x3500, 0x3, 0x3, .uns 1, .ro, 0, 0, 255, [], 0⟩,
   ⟨0x3500, 0x3500, 0x4, 0x4, .uns 4, .ro, 0, 0, 4294967295, [], 0⟩,
   ⟨0x3500, 0x3500, 0x5, 0x5, .uns 4, .ro, 0, 0, 4294967295, [], 0⟩,
   ⟨0x3501, 0x3501, 0x0, 0x0, .uns 1, .const, 3, 0, 255, [], 0⟩,
   ⟨0x3501, 0x3501, 0x1, 0x1, .uns 2, .rw, 0, 0, 65535, [], 0⟩,
   ⟨0x3501, 0x3501, 0x2, 0x2, .uns 1, .wo, 0, 1, 3, [], 0⟩,
   ⟨0x3501, 0x3501, 0x3, 0x3, .uns 1, .ro, 0, 0, 255, [], 0⟩,
   ⟨0x3502, 0x3502, 0x0, 0x0, .uns 1, .const, 14, 0, 255, [], 0⟩,
   ⟨0x3502, 0x3502, 0x1, 0x1, .uns 2, .rws, 40, 0, 4000, [], 0⟩,
   ⟨0x3502, 0x3502, 0x2, 0x2, .uns 1, .rws, 8, 1, 255, [], 0⟩,
   ⟨0x3502, 0x3502, 0x3, 0x3, .uns 1, .rws, 8, 1, 255, [], 0⟩,
   ⟨0x3502, 0x3502, 0x4, 0x4, .uns 1, .rws, 8, 1, 255, [], 0⟩,
   ⟨0x3502, 0x3502, 0x5, 0x5, .uns 1, .rws, 3, 1, 255, [], 0⟩,
   ⟨0x3502, 0x3502, 0x6, 0x6, .uns 1, .rws, 1, 1, 2, [], 0⟩,
   ⟨0x3502, 0x3502, 0x7, 0x7, .uns 1, .rws, 2, 2, 2, [], 0⟩,
   ⟨0x3502, 0x3502, 0x8, 0x8, .uns 1, .rws, 1, 1, 2, [], 0⟩,
   ⟨0x3502, 0x3502, 0x9, 0x9, .uns 1, .rws, 0, 2, 2, [0], 0⟩,
   ⟨0x3502, 0x3502, 0xA, 0xA, .uns 2, .rws, 100, 5, 2000, [], 0⟩,
   ⟨0x3502, 0x3502, 0xB, 0xB, .uns 1, .rws, 8, 1, 40, [], 0⟩,
   ⟨0x3502, 0x3502, 0xC, 0xC, .uns 2, .rws, 40, 1, 65535, [], 0⟩,
   ⟨0x3502, 0x3502, 0xD, 0xD, .uns 1, .ro, 0, 0, 255, [], 0⟩,
   ⟨0x3502, 0x3502, 0xE, 0xE, .uns 4, .ro, 0, 0, 4294967295, [], 0⟩,
   ⟨0x3504, 0x3504, 0x0, 0x0, .uns 1, .const, 9, 0, 255, [], 0⟩,
   ⟨0x3504, 0x3504, 0x1, 0x1, .uns 2, .rw, 0, 0, 65535, [], 0⟩,
   ⟨0x3504, 0x3504, 0x2, 0x2, .uns 1, .wo, 0, 1, 3, [], 0⟩,
   ⟨0x3504, 0x3504, 0x3, 0x3, .uns 1, .ro, 0, 0, 255, [], 0⟩,
   ⟨0x3504, 0x3504, 0x4, 0x4, .uns 1, .rw, 0, 0, 3, [], 0⟩,
   ⟨0x3504, 0x3504, 0x5, 0x5, .real, .rw, 0, 0, 4294967295, [], 0⟩,
   ⟨0x3504, 0x3504, 0x6, 0x6, .uns 2, .rw, 0, 0, 4095, [], 0⟩,
   ⟨0x3504, 0x3504, 0x7, 0x7, .uns 2, .rw, 1, 1, 65535, [], 0⟩,
   ⟨0x3504, 0x3504, 0x8, 0x8, .uns 2, .ro, 0, 0, 65535, [], 0⟩,
   ⟨0x3504, 0x3504, 0x9, 0x9, .uns 8, .ro, 0, 0, 18446744073709551615, [], 0⟩,
   ⟨0x3505, 0x3505, 0x0, 0x0, .uns 1, .const, 4, 0, 255, [], 0⟩,
   ⟨0x3505, 0x3505, 0x1, 0x4, .dom 65536, .ro, 0, 0, 0, [], 0⟩,
   ⟨0x3506, 0x3506, 0x0, 0x0, .uns 1, .const, 15, 0, 255, [], 0⟩,
   ⟨0x3506, 0x3506, 0x1, 0x1, .uns 2, .rw, 0, 0, 65535, [], 0⟩,
   ⟨0x3506, 0x3506, 0x2, 0x2, .uns 1, .rw, 0, 0, 15, [], 0⟩,
   ⟨0x3506, 0x3506, 0x3, 0x3, .uns 1, .rw, 0, 0, 7, [], 0⟩,
   ⟨0x3506, 0x3506, 0x4, 0x4, .uns 1, .rw, 0, 0, 1, [], 0⟩,
   ⟨0x3506, 0x3506, 0x5, 0x5, .real, .rw, 0, 0, 4294967295, [], 0⟩,
   ⟨0x3506, 0x3506, 0x6, 0x6, .uns 1, .rw, 15, 15, 15, [7, 9, 11], 0⟩]

/-- Rows 3506 to 3650 of the object tables. -/
def dictPart12 : List ObjRow :=
  [⟨0x3506, 0x3506, 0x7, 0x7, .uns 1, .rw, 1, 1, 255, [], 0⟩,
   ⟨0x3506, 0x3506, 0x8, 0x8, .uns 1, .rw, 1, 1, 255, [], 0⟩,
   ⟨0x3506, 0x3506, 0x9, 0x9, .uns 2, .rw, 4, 0, 1000, [], 0⟩,
   ⟨0x3506, 0x3506, 0xA, 0xA, .uns 2, .rw, 16, 1, 10000, [], 0⟩,
   ⟨0x3506, 0x3506, 0xB, 0xB, .bool, .rw, 1, 0, 1, [], 0⟩,
   ⟨0x3506, 0x3506, 0xC, 0xC, .uns 1, .wo, 0, 1, 2, [], 0⟩,
   ⟨0x3506, 0x3506, 0xD, 0xD, .uns 1, .ro, 0, 0, 255, [], 0⟩,
   ⟨0x3506, 0x3506, 0xE, 0xE, .uns 1, .ro, 0, 0, 255, [], 0⟩,
   ⟨0x3506, 0x3506, 0xF, 0xF, .uns 8, .ro, 0, 0, 18446744073709551615, [], 0⟩,
   ⟨0x3507, 0x3507, 0x0, 0x0, .uns 1, .const, 33, 0, 255, [], 0⟩,
   ⟨0x3507, 0x3507, 0x1, 0x1, .uns 1, .rw, 0, 0, 32, [], 0⟩,
   ⟨0x3507, 0x3507, 0x2, 0x21, .real, .rw, 0, 0, 4294967295, [], 0⟩,
   ⟨0x3508, 0x3508, 0x0, 0x0, .dom 65536, .ro, 0, 0, 0, [], 0⟩,
   ⟨0x3510, 0x3519, 0x0, 0x0, .uns 1, .const, 6, 0, 255, [], 0⟩,
   ⟨0x3510, 0x3519, 0x1, 0x1, .uns 1, .ro, 0, 0, 255, [], 0⟩,
   ⟨0x3510, 0x3519, 0x2, 0x2, .uns 1, .ro, 0, 0, 255, [], 0⟩,
   ⟨0x3510, 0x3519, 0x3, 0x3, .uns 1, .ro, 0, 0, 255, [], 0⟩,
   ⟨0x3510, 0x3519, 0x4, 0x4, .uns 1, .ro, 0, 0, 255, [], 0⟩,
   ⟨0x3510, 0x3519, 0x5, 0x5, .uns 4, .ro, 0, 0, 4294967295, [], 0⟩,
   ⟨0x3510, 0x3519, 0x6, 0x6, .uns 4, .ro, 0, 0, 4294967295, [], 0⟩,
   ⟨0x3520, 0x352E, 0x0, 0x0, .uns 1, .const, 5, 0, 255, [], 0⟩,
   ⟨0x3520, 0x352E, 0x1, 0x1, .uns 2, .rws, 0, 13632, 13823, [0], 0⟩,
   ⟨0x3520, 0x352E, 0x2, 0x2, .uns 1, .rws, 1, 1, 200, [], 0⟩,
   ⟨0x3520, 0x352E, 0x3, 0x3, .uns 1, .rws, 0, 0, 199, [], 0⟩,
   ⟨0x3520, 0x352E, 0x4, 0x4, .oct 32, .rws, 255, 0, 0, [], 0⟩,
   ⟨0x3520, 0x352E, 0x5, 0x5, .oct 16, .rws, 255, 0, 0, [], 0⟩,
   ⟨0x3530, 0x3530, 0x0, 0x0, .uns 1, .const, 24, 0, 255, [], 0⟩,
   ⟨0x3530, 0x3530, 0x1, 0x18, .uns 4, .ro, 0, 0, 4294967295, [], 0⟩,
   ⟨0x3531, 0x3531, 0x0, 0x0, .uns 1, .const, 96, 0, 255, [], 0⟩,
   ⟨0x3531, 0x3531, 0x1, 0x60, .uns 4, .ro, 0, 0, 4294967295, [], 0⟩,
   ⟨0x3532, 0x3532, 0x0, 0x0, .uns 1, .const, 8, 0, 255, [], 0⟩,
   ⟨0x3532, 0x3532, 0x1, 0x8, .uns 4, .ro, 0, 0, 4294967295, [], 0⟩,
   ⟨0x3533, 0x3533, 0x0, 0x0, .uns 1, .const, 15, 0, 255, [], 0⟩,
   ⟨0x3533, 0x3533, 0x1, 0xF, .uns 4, .ro, 0, 0, 4294967295, [], 0⟩,
   ⟨0x3540, 0x35FF, 0x0, 0x0, .dom 3600, .rws, 0, 0, 0, [], 0⟩,
   ⟨0x3600, 0x3600, 0x0, 0x0, .uns 1, .const, 7, 0, 255, [], 0⟩,
   ⟨0x3600, 0x3600, 0x1, 0x1, .uns 1, .rws, 0, 0, 1, [], 0⟩,
   ⟨0x3600, 0x3600, 0x2, 0x2, .uns 2, .rws, 4000, 2000, 6000, [], 0⟩,
   ⟨0x3600, 0x3600, 0x3, 0x3, .uns 2, .rws, 2500, 2250, 10000, [], 0⟩,
   ⟨0x3600, 0x3600, 0x4, 0x4, .uns 1, .ro, 0, 0, 255, [], 0⟩,
   ⟨0x3600, 0x3600, 0x5, 0x5, .uns 8, .ro, 0, 0, 18446744073709551615, [], 0⟩,
   ⟨0x3600, 0x3600, 0x6, 0x6, .uns 8, .ro, 0, 0, 18446744073709551615, [], 0⟩,
   ⟨0x3600, 0x3600, 0x7, 0x7, .uns 1, .ro, 0, 0, 255, [], 0⟩,
   ⟨0x3610, 0x364F, 0x0, 0x0, .uns 1, .const, 3, 0, 255, [], 0⟩,
   ⟨0x3610, 0x364F, 0x1, 0x1, .uns 1, .rws, 0, 0, 3, [], 0⟩,
   ⟨0x3610, 0x364F, 0x2, 0x2, .uns 1, .rws, 0, 0, 16, [], 0⟩,
   ⟨0x3610, 0x364F, 0x3, 0x3, .uns 2, .rws, 40, 10, 1000, [], 0⟩,
   ⟨0x3650, 0x368F, 0x0, 0x0, .uns 1, .const, 14, 0, 255, [], 0⟩,
   ⟨0x3650, 0x368F, 0x1, 0x1, .uns 1, .ro, 0, 0, 255, [], 0⟩,
   ⟨0x3650, 0x368F, 0x2, 0x2, .uns 1, .ro, 1, 0, 255, [], 0⟩]

/-- Rows 3650 to 3740 of the object tables. -/
def dictPart13 : List ObjRow :=
  [⟨0x3650, 0x368F, 0x3, 0x3, .uns 4, .ro, 0, 0, 4294967295, [], 0⟩,
   ⟨0x3650, 0x368F, 0x4, 0x4, .uns 2, .ro, 0, 0, 65535, [], 0⟩,
   ⟨0x3650, 0x368F, 0x5, 0x5, .int 2, .ro, 0, (-32768), 32767, [], 0⟩,
   ⟨0x3650, 0x368F, 0x6, 0x6, .uns 4, .ro, 0, 0, 4294967295, [], 0⟩,
   ⟨0x3650, 0x368F, 0x7, 0x7, .uns 4, .ro, 0, 0, 4294967295, [], 0⟩,
   ⟨0x3650, 0x368F, 0x8, 0x8, .uns 4, .ro, 0, 0, 4294967295, [], 0⟩,
   ⟨0x3650, 0x368F, 0x9, 0x9, .uns 4, .ro, 0, 0, 4294967295, [], 0⟩,
   ⟨0x3650, 0x368F, 0xA, 0xA, .uns 4, .ro, 0, 0, 4294967295, [], 0⟩,
   ⟨0x3650, 0x368F, 0xB, 0xB, .uns 4, .ro, 0, 0, 4294967295, [], 0⟩,
   ⟨0x3650, 0x368F, 0xC, 0xC, .uns 4, .ro, 0, 0, 4294967295, [], 0⟩,
   ⟨0x3650, 0x368F, 0xD, 0xD, .uns 1, .ro, 0, 0, 255, [], 0⟩,
   ⟨0x3650, 0x368F, 0xE, 0xE, .uns 4, .ro, 0, 0, 4294967295, [], 0⟩,
   ⟨0x3700, 0x3700, 0x0, 0x0, .uns 1, .const, 11, 0, 255, [], 0⟩,
   ⟨0x3700, 0x3700, 0x1, 0x1, .uns 2, .rws, 50010, 1024, 65535, [], 0⟩,
   ⟨0x3700, 0x3700, 0x2, 0x2, .bool, .rws, 1, 0, 1, [], 0⟩,
   ⟨0x3700, 0x3700, 0x3, 0x3, .bool, .rws, 1, 0, 1, [], 0⟩,
   ⟨0x3700, 0x3700, 0x4, 0x4, .uns 2, .rws, 60, 5, 600, [], 0⟩,
   ⟨0x3700, 0x3700, 0x5, 0x5, .uns 2, .rws, 50, 20, 60, [], 0⟩,
   ⟨0x3700, 0x3700, 0x6, 0x6, .uns 2, .rws, 20, 5, 60, [], 0⟩,
   ⟨0x3700, 0x3700, 0x7, 0x7, .uns 2, .rws, 1000, 200, 60000, [], 0⟩,
   ⟨0x3700, 0x3700, 0x8, 0x8, .uns 2, .rws, 10, 2, 60, [], 0⟩,
   ⟨0x3700, 0x3700, 0x9, 0x9, .uns 2, .rws, 300, 0, 3600, [], 0⟩,
   ⟨0x3700, 0x3700, 0xA, 0xA, .bool, .rws, 0, 0, 1, [], 0⟩,
   ⟨0x3700, 0x3700, 0xB, 0xB, .uns 4, .ro, 0, 0, 4294967295, [], 0⟩,
   ⟨0x3710, 0x3727, 0x0, 0x0, .uns 1, .const, 8, 0, 255, [], 0⟩,
   ⟨0x3710, 0x3727, 0x1, 0x1, .uns 1, .rws, 0, 0, 3, [], 0⟩,
   ⟨0x3710, 0x3727, 0x2, 0x2, .uns 1, .rws, 2, 2, 8, [], 0⟩,
   ⟨0x3710, 0x3727, 0x3, 0x3, .uns 1, .rws, 32, 1, 255, [], 0⟩,
   ⟨0x3710, 0x3727, 0x4, 0x4, .uns 1, .rws, 0, 0, 255, [], 0⟩,
   ⟨0x3710, 0x3727, 0x5, 0x5, .bool, .rws, 0, 0, 1, [], 0⟩,
   ⟨0x3710, 0x3727, 0x6, 0x6, .uns 4, .rws, 98304300, 0, 4294967295, [], 0⟩,
   ⟨0x3710, 0x3727, 0x7, 0x7, .bool, .rws, 0, 0, 1, [], 0⟩,
   ⟨0x3710, 0x3727, 0x8, 0x8, .oct 6, .rws, 0, 0, 0, [], 0⟩,
   ⟨0x3740, 0x3757, 0x0, 0x0, .uns 1, .const, 17, 0, 255, [], 0⟩,
   ⟨0x3740, 0x3757, 0x1, 0x1, .uns 1, .ro, 0, 0, 255, [], 0⟩,
   ⟨0x3740, 0x3757, 0x2, 0x2, .uns 1, .ro, 0, 0, 255, [], 0⟩,
   ⟨0x3740, 0x3757, 0x3, 0x3, .uns 1, .ro, 0, 0, 255, [], 0⟩,
   ⟨0x3740, 0x3757, 0x4, 0x4, .uns 4, .ro, 0, 0, 4294967295, [], 0⟩,
   ⟨0x3740, 0x3757, 0x5, 0x5, .uns 2, .ro, 65535, 0, 65535, [], 0⟩,
   ⟨0x3740, 0x3757, 0x6, 0x6, .uns 1, .ro, 0, 0, 255, [], 0⟩,
   ⟨0x3740, 0x3757, 0x7, 0x7, .vis 64, .ro, 0, 0, 0, [], 0⟩,
   ⟨0x3740, 0x3757, 0x8, 0x8, .uns 2, .ro, 0, 0, 65535, [], 0⟩,
   ⟨0x3740, 0x3757, 0x9, 0x9, .uns 2, .ro, 0, 0, 65535, [], 0⟩,
   ⟨0x3740, 0x3757, 0xA, 0xA, .uns 2, .ro, 0, 0, 65535, [], 0⟩,
   ⟨0x3740, 0x3757, 0xB, 0xB, .uns 4, .ro, 0, 0, 4294967295, [], 0⟩,
   ⟨0x3740, 0x3757, 0xC, 0xC, .uns 1, .rw, 0, 0, 2, [], 0⟩,
   ⟨0x3740, 0x3757, 0xD, 0xD, .uns 1, .rw, 0, 0, 3, [], 0⟩,
   ⟨0x3740, 0x3757, 0xE, 0xE, .uns 1, .ro, 0, 0, 255, [], 0⟩,
   ⟨0x3740, 0x3757, 0xF, 0xF, .uns 4, .ro, 0, 0, 4294967295, [], 0⟩,
   ⟨0x3740, 0x3757, 0x10, 0x10, .uns 8, .ro, 0, 0, 18446744073709551615, [], 0⟩]

/-- Rows 3740 to 3870 of the object tables. -/
def dictPart14 : List ObjRow :=
  [⟨0x3740, 0x3757, 0x11, 0x11, .uns 4, .ro, 0, 0, 4294967295, [], 0⟩,
   ⟨0x3790, 0x3790, 0x0, 0x0, .dom 20480, .rws, 0, 0, 0, [], 0⟩,
   ⟨0x3800, 0x3800, 0x0, 0x0, .uns 1, .const, 11, 0, 255, [], 0⟩,
   ⟨0x3800, 0x3800, 0x1, 0x1, .bool, .rws, 1, 0, 1, [], 0⟩,
   ⟨0x3800, 0x3800, 0x2, 0x2, .uns 2, .rws, 2, 1, 100, [], 0⟩,
   ⟨0x3800, 0x3800, 0x3, 0x3, .uns 1, .ro, 0, 0, 255, [], 0⟩,
   ⟨0x3800, 0x3800, 0x4, 0x4, .uns 8, .ro, 0, 0, 18446744073709551615, [], 0⟩,
   ⟨0x3800, 0x3800, 0x5, 0x5, .uns 1, .rws, 0, 0, 127, [], 0⟩,
   ⟨0x3800, 0x3800, 0x6, 0x6, .uns 1, .rws, 0, 0, 2, [], 0⟩,
   ⟨0x3800, 0x3800, 0x7, 0x7, .uns 2, .rws, 10, 0, 3600, [], 0⟩,
   ⟨0x3800, 0x3800, 0x8, 0x8, .int 4, .ro, 0, (-2147483648), 2147483647, [], 0⟩,
   ⟨0x3800, 0x3800, 0x9, 0x9, .uns 4, .ro, 0, 0, 4294967295, [], 0⟩,
   ⟨0x3800, 0x3800, 0xA, 0xA, .oct 8, .ro, 0, 0, 0, [], 0⟩,
   ⟨0x3800, 0x3800, 0xB, 0xB, .uns 2, .rws, 0, 0, 1920, [], 0⟩,
   ⟨0x3810, 0x3810, 0x1, 0x1, .bool, .rws, 1, 0, 1, [], 0⟩,
   ⟨0x3810, 0x3813, 0x0, 0x0, .uns 1, .const, 15, 0, 255, [], 0⟩,
   ⟨0x3810, 0x3813, 0x2, 0x2, .uns 4, .rws, 16547064, 0, 4294967295, [], 0x7⟩,
   ⟨0x3810, 0x3813, 0x3, 0x3, .uns 4, .rws, 3939384, 0, 4294967295, [], 0x7⟩,
   ⟨0x3810, 0x3813, 0x4, 0x4, .uns 1, .rws, 7, 0, 255, [], 0xF8⟩,
   ⟨0x3810, 0x3813, 0x5, 0x5, .uns 1, .rws, 32, 0, 127, [], 0⟩,
   ⟨0x3810, 0x3813, 0x6, 0x6, .uns 2, .rws, 0, 0, 10000, [], 0⟩,
   ⟨0x3810, 0x3813, 0x7, 0x7, .uns 1, .rws, 8, 1, 255, [], 0⟩,
   ⟨0x3810, 0x3813, 0x8, 0x8, .uns 1, .rws, 0, 0, 1, [], 0⟩,
   ⟨0x3810, 0x3813, 0x9, 0x9, .uns 4, .rws, 0, 0, 4294967295, [], 0x60000000⟩,
   ⟨0x3810, 0x3813, 0xA, 0xA, .uns 4, .rws, 536870911, 0, 4294967295, [], 0xE0000000⟩,
   ⟨0x3810, 0x3813, 0xB, 0xB, .uns 1, .rws, 8, 0, 8, [], 0⟩,
   ⟨0x3810, 0x3813, 0xC, 0xC, .uns 8, .rws, 0, 0, 18446744073709551615, [], 0⟩,
   ⟨0x3810, 0x3813, 0xD, 0xD, .uns 1, .wo, 0, 1, 3, [], 0⟩,
   ⟨0x3810, 0x3813, 0xE, 0xE, .dom 768, .rws, 0, 0, 0, [], 0⟩,
   ⟨0x3810, 0x3813, 0xF, 0xF, .dom 8464, .rws, 0, 0, 0, [], 0⟩,
   ⟨0x3811, 0x3813, 0x1, 0x1, .bool, .rws, 0, 0, 1, [], 0⟩,
   ⟨0x3820, 0x3823, 0x0, 0x0, .uns 1, .const, 17, 0, 255, [], 0⟩,
   ⟨0x3820, 0x3823, 0x1, 0x1, .uns 1, .ro, 0, 0, 255, [], 0⟩,
   ⟨0x3820, 0x3823, 0x2, 0x2, .uns 1, .ro, 0, 0, 255, [], 0⟩,
   ⟨0x3820, 0x3823, 0x3, 0x3, .uns 1, .ro, 0, 0, 255, [], 0⟩,
   ⟨0x3820, 0x3823, 0x4, 0x4, .uns 4, .ro, 0, 0, 4294967295, [], 0⟩,
   ⟨0x3820, 0x3823, 0x5, 0x5, .uns 4, .ro, 0, 0, 4294967295, [], 0⟩,
   ⟨0x3820, 0x3823, 0x6, 0x6, .uns 4, .ro, 0, 0, 4294967295, [], 0⟩,
   ⟨0x3820, 0x3823, 0x7, 0x7, .uns 4, .ro, 0, 0, 4294967295, [], 0⟩,
   ⟨0x3820, 0x3823, 0x8, 0x8, .uns 4, .ro, 0, 0, 4294967295, [], 0⟩,
   ⟨0x3820, 0x3823, 0x9, 0x9, .uns 4, .ro, 0, 0, 4294967295, [], 0⟩,
   ⟨0x3820, 0x3823, 0xA, 0xA, .uns 4, .ro, 0, 0, 4294967295, [], 0⟩,
   ⟨0x3820, 0x3823, 0xB, 0xB, .uns 1, .ro, 0, 0, 255, [], 0⟩,
   ⟨0x3820, 0x3823, 0xC, 0xC, .uns 1, .ro, 0, 0, 255, [], 0⟩,
   ⟨0x3820, 0x3823, 0xD, 0xD, .uns 4, .ro, 0, 0, 4294967295, [], 0⟩,
   ⟨0x3820, 0x3823, 0xE, 0xE, .uns 1, .ro, 0, 0, 255, [], 0⟩,
   ⟨0x3820, 0x3823, 0xF, 0xF, .uns 4, .ro, 0, 0, 4294967295, [], 0⟩,
   ⟨0x3820, 0x3823, 0x10, 0x10, .uns 4, .ro, 0, 0, 4294967295, [], 0⟩,
   ⟨0x3820, 0x3823, 0x11, 0x11, .uns 1, .ro, 0, 0, 255, [], 0⟩,
   ⟨0x3870, 0x3873, 0x0, 0x0, .dom 65536, .ro, 0, 0, 0, [], 0⟩]

/-- Rows 3900 to 4010 of the object tables. -/
def dictPart15 : List ObjRow :=
  [⟨0x3900, 0x3900, 0x0, 0x0, .uns 1, .const, 12, 0, 255, [], 0⟩,
   ⟨0x3900, 0x3900, 0x1, 0x1, .uns 1, .rws, 0, 0, 2, [], 0⟩,
   ⟨0x3900, 0x3900, 0x2, 0x2, .uns 1, .rws, 0, 0, 1, [], 0⟩,
   ⟨0x3900, 0x3900, 0x3, 0x3, .uns 1, .rws, 60, 0, 200, [], 0⟩,
   ⟨0x3900, 0x3900, 0x4, 0x4, .uns 1, .rws, 1, 1, 254, [], 0⟩,
   ⟨0x3900, 0x3900, 0x5, 0x5, .uns 1, .rws, 60, 0, 255, [], 0⟩,
   ⟨0x3900, 0x3900, 0x6, 0x6, .uns 1, .rws, 40, 0, 255, [], 0⟩,
   ⟨0x3900, 0x3900, 0x7, 0x7, .uns 1, .rws, 24, 0, 255, [], 0⟩,
   ⟨0x3900, 0x3900, 0x8, 0x8, .uns 1, .rws, 0, 0, 84, [], 0⟩,
   ⟨0x3900, 0x3900, 0x9, 0x9, .uns 1, .rws, 2, 0, 2, [], 0⟩,
   ⟨0x3900, 0x3900, 0xA, 0xA, .uns 1, .rws, 4, 1, 32, [], 0⟩,
   ⟨0x3900, 0x3900, 0xB, 0xB, .uns 1, .rws, 16, 4, 255, [], 0⟩,
   ⟨0x3900, 0x3900, 0xC, 0xC, .uns 1, .rws, 64, 8, 255, [], 0⟩,
   ⟨0x3901, 0x3901, 0x0, 0x0, .uns 1, .const, 12, 0, 255, [], 0⟩,
   ⟨0x3901, 0x3901, 0x1, 0x1, .uns 2, .ro, 0, 0, 65535, [], 0⟩,
   ⟨0x3901, 0x3901, 0x2, 0x2, .uns 1, .ro, 0, 0, 255, [], 0⟩,
   ⟨0x3901, 0x3901, 0x3, 0x3, .uns 1, .ro, 0, 0, 255, [], 0⟩,
   ⟨0x3901, 0x3901, 0x4, 0x4, .uns 1, .ro, 20, 0, 255, [], 0⟩,
   ⟨0x3901, 0x3901, 0x5, 0x5, .uns 4, .ro, 0, 0, 4294967295, [], 0⟩,
   ⟨0x3901, 0x3901, 0x6, 0x6, .uns 4, .ro, 0, 0, 4294967295, [], 0⟩,
   ⟨0x3901, 0x3901, 0x7, 0x7, .uns 4, .ro, 0, 0, 4294967295, [], 0⟩,
   ⟨0x3901, 0x3901, 0x8, 0x8, .uns 4, .ro, 0, 0, 4294967295, [], 0⟩,
   ⟨0x3901, 0x3901, 0x9, 0x9, .uns 4, .ro, 0, 0, 4294967295, [], 0⟩,
   ⟨0x3901, 0x3901, 0xA, 0xA, .uns 4, .ro, 0, 0, 4294967295, [], 0⟩,
   ⟨0x3901, 0x3901, 0xB, 0xB, .uns 4, .ro, 0, 0, 4294967295, [], 0⟩,
   ⟨0x3901, 0x3901, 0xC, 0xC, .uns 4, .ro, 0, 0, 4294967295, [], 0⟩,
   ⟨0x3910, 0x3910, 0x0, 0x0, .dom 1024, .rws, 0, 0, 0, [], 0⟩,
   ⟨0x3911, 0x3911, 0x0, 0x0, .dom 65536, .ro, 0, 0, 0, [], 0⟩,
   ⟨0x3920, 0x3920, 0x0, 0x0, .uns 1, .const, 4, 0, 255, [], 0⟩,
   ⟨0x3920, 0x3920, 0x1, 0x1, .dom 63, .wo, 0, 0, 0, [], 0⟩,
   ⟨0x3920, 0x3920, 0x2, 0x2, .uns 1, .ro, 0, 0, 255, [], 0⟩,
   ⟨0x3920, 0x3920, 0x3, 0x3, .dom 65536, .ro, 0, 0, 0, [], 0⟩,
   ⟨0x3920, 0x3920, 0x4, 0x4, .uns 1, .ro, 0, 0, 255, [], 0⟩,
   ⟨0x4000, 0x4000, 0x0, 0x0, .uns 1, .const, 13, 0, 255, [], 0⟩,
   ⟨0x4000, 0x4000, 0x1, 0x1, .uns 1, .ro, 0, 0, 255, [], 0⟩,
   ⟨0x4000, 0x4000, 0x2, 0x2, .uns 2, .ro, 0, 0, 65535, [], 0⟩,
   ⟨0x4000, 0x4000, 0x3, 0x3, .uns 4, .ro, 0, 0, 4294967295, [], 0⟩,
   ⟨0x4000, 0x4000, 0x4, 0x4, .uns 4, .ro, 0, 0, 4294967295, [], 0⟩,
   ⟨0x4000, 0x4000, 0x5, 0x5, .uns 4, .ro, 0, 0, 4294967295, [], 0⟩,
   ⟨0x4000, 0x4000, 0x6, 0x6, .uns 8, .ro, 0, 0, 18446744073709551615, [], 0⟩,
   ⟨0x4000, 0x4000, 0x7, 0x7, .uns 8, .ro, 0, 0, 18446744073709551615, [], 0⟩,
   ⟨0x4000, 0x4000, 0x8, 0x8, .uns 4, .ro, 0, 0, 4294967295, [], 0⟩,
   ⟨0x4000, 0x4000, 0x9, 0x9, .uns 4, .ro, 0, 0, 4294967295, [], 0⟩,
   ⟨0x4000, 0x4000, 0xA, 0xA, .uns 4, .ro, 0, 0, 4294967295, [], 0⟩,
   ⟨0x4000, 0x4000, 0xB, 0xB, .uns 4, .ro, 0, 0, 4294967295, [], 0⟩,
   ⟨0x4000, 0x4000, 0xC, 0xC, .int 4, .ro, 0, (-2147483648), 2147483647, [], 0⟩,
   ⟨0x4000, 0x4000, 0xD, 0xD, .uns 1, .ro, 0, 0, 255, [], 0⟩,
   ⟨0x4010, 0x4010, 0x0, 0x0, .uns 1, .const, 19, 0, 255, [], 0⟩,
   ⟨0x4010, 0x4010, 0x1, 0x1, .uns 1, .ro, 0, 0, 255, [], 0⟩,
   ⟨0x4010, 0x4010, 0x2, 0x2, .uns 4, .ro, 0, 0, 4294967295, [], 0⟩]

/-- Rows 4010 to 4130 of the object tables. -/
def dictPart16 : List ObjRow :=
  [⟨0x4010, 0x4010, 0x3, 0x3, .uns 1, .ro, 0, 0, 255, [], 0⟩,
   ⟨0x4010, 0x4010, 0x4, 0x4, .real, .ro, 0, 0, 4294967295, [], 0⟩,
   ⟨0x4010, 0x4010, 0x5, 0x5, .real, .ro, 0, 0, 4294967295, [], 0⟩,
   ⟨0x4010, 0x4010, 0x6, 0x6, .uns 4, .ro, 0, 0, 4294967295, [], 0⟩,
   ⟨0x4010, 0x4010, 0x7, 0x7, .uns 4, .ro, 0, 0, 4294967295, [], 0⟩,
   ⟨0x4010, 0x4010, 0x8, 0xA, .uns 4, .ro, 0, 0, 4294967295, [], 0⟩,
   ⟨0x4010, 0x4010, 0xB, 0xE, .uns 4, .ro, 0, 0, 4294967295, [], 0⟩,
   ⟨0x4010, 0x4010, 0xF, 0xF, .int 4, .ro, 0, (-2147483648), 2147483647, [], 0⟩,
   ⟨0x4010, 0x4010, 0x10, 0x10, .int 4, .ro, 0, (-2147483648), 2147483647, [], 0⟩,
   ⟨0x4010, 0x4010, 0x11, 0x11, .uns 4, .ro, 0, 0, 4294967295, [], 0⟩,
   ⟨0x4010, 0x4010, 0x12, 0x12, .uns 8, .ro, 0, 0, 18446744073709551615, [], 0⟩,
   ⟨0x4010, 0x4010, 0x13, 0x13, .uns 8, .ro, 0, 0, 18446744073709551615, [], 0⟩,
   ⟨0x4011, 0x4011, 0x0, 0x0, .uns 1, .const, 10, 0, 255, [], 0⟩,
   ⟨0x4011, 0x4011, 0x1, 0x1, .uns 2, .ro, 900, 0, 65535, [], 0⟩,
   ⟨0x4011, 0x4011, 0x2, 0x2, .uns 2, .ro, 1100, 0, 65535, [], 0⟩,
   ⟨0x4011, 0x4011, 0x3, 0x3, .uns 2, .ro, 50, 0, 65535, [], 0⟩,
   ⟨0x4011, 0x4011, 0x4, 0x4, .uns 2, .ro, 20, 0, 65535, [], 0⟩,
   ⟨0x4011, 0x4011, 0x5, 0x5, .uns 2, .ro, 100, 0, 65535, [], 0⟩,
   ⟨0x4011, 0x4011, 0x6, 0xA, .uns 4, .ro, 0, 0, 4294967295, [], 0⟩,
   ⟨0x4020, 0x403F, 0x0, 0x0, .uns 1, .const, 12, 0, 255, [], 0⟩,
   ⟨0x4020, 0x403F, 0x1, 0x1, .uns 4, .ro, 0, 0, 4294967295, [], 0⟩,
   ⟨0x4020, 0x403F, 0x2, 0x2, .uns 1, .ro, 255, 0, 255, [], 0⟩,
   ⟨0x4020, 0x403F, 0x3, 0x3, .uns 2, .ro, 0, 0, 65535, [], 0⟩,
   ⟨0x4020, 0x403F, 0x4, 0x4, .uns 2, .ro, 10, 0, 65535, [], 0⟩,
   ⟨0x4020, 0x403F, 0x5, 0x5, .uns 8, .ro, 0, 0, 18446744073709551615, [], 0⟩,
   ⟨0x4020, 0x403F, 0x6, 0x6, .uns 8, .ro, 0, 0, 18446744073709551615, [], 0⟩,
   ⟨0x4020, 0x403F, 0x7, 0x7, .int 4, .ro, 0, (-2147483648), 2147483647, [], 0⟩,
   ⟨0x4020, 0x403F, 0x8, 0x8, .uns 4, .ro, 0, 0, 4294967295, [], 0⟩,
   ⟨0x4020, 0x403F, 0x9, 0x9, .uns 4, .ro, 0, 0, 4294967295, [], 0⟩,
   ⟨0x4020, 0x403F, 0xA, 0xA, .uns 4, .ro, 0, 0, 4294967295, [], 0⟩,
   ⟨0x4020, 0x403F, 0xB, 0xB, .uns 4, .ro, 0, 0, 4294967295, [], 0⟩,
   ⟨0x4020, 0x403F, 0xC, 0xC, .uns 8, .ro, 0, 0, 18446744073709551615, [], 0⟩,
   ⟨0x4040, 0x4043, 0x0, 0x0, .uns 1, .const, 6, 0, 255, [], 0⟩,
   ⟨0x4040, 0x4043, 0x1, 0x1, .uns 2, .ro, 0, 0, 65535, [], 0⟩,
   ⟨0x4040, 0x4043, 0x2, 0x2, .uns 4, .ro, 0, 0, 4294967295, [], 0⟩,
   ⟨0x4040, 0x4043, 0x3, 0x3, .uns 2, .ro, 0, 0, 65535, [], 0⟩,
   ⟨0x4040, 0x4043, 0x4, 0x4, .uns 8, .ro, 0, 0, 18446744073709551615, [], 0⟩,
   ⟨0x4040, 0x4043, 0x5, 0x5, .int 4, .ro, 0, (-2147483648), 2147483647, [], 0⟩,
   ⟨0x4040, 0x4043, 0x6, 0x6, .uns 2, .ro, 0, 0, 65535, [], 0⟩,
   ⟨0x4048, 0x404B, 0x0, 0x0, .uns 1, .const, 5, 0, 255, [], 0⟩,
   ⟨0x4048, 0x404B, 0x1, 0x1, .uns 1, .ro, 0, 0, 255, [], 0⟩,
   ⟨0x4048, 0x404B, 0x2, 0x2, .uns 4, .ro, 0, 0, 4294967295, [], 0⟩,
   ⟨0x4048, 0x404B, 0x3, 0x3, .uns 2, .ro, 50, 0, 65535, [], 0⟩,
   ⟨0x4048, 0x404B, 0x4, 0x4, .uns 8, .ro, 0, 0, 18446744073709551615, [], 0⟩,
   ⟨0x4048, 0x404B, 0x5, 0x5, .int 8, .ro, 0, (-9223372036854775808), 9223372036854775807, [], 0⟩,
   ⟨0x4100, 0x4122, 0x0, 0x0, .uns 1, .const, 28, 0, 255, [], 0⟩,
   ⟨0x4100, 0x4122, 0x1, 0x1C, .uns 8, .ro, 0, 0, 18446744073709551615, [], 0⟩,
   ⟨0x4130, 0x4130, 0x0, 0x0, .uns 1, .const, 10, 0, 255, [], 0⟩,
   ⟨0x4130, 0x4130, 0x1, 0x1, .uns 8, .ro, 0, 0, 18446744073709551615, [], 0⟩,
   ⟨0x4130, 0x4130, 0x2, 0x2, .uns 8, .ro, 0, 0, 18446744073709551615, [], 0⟩]

/-- Rows 4130 to 4300 of the object tables. -/
def dictPart17 : List ObjRow :=
  [⟨0x4130, 0x4130, 0x3, 0x3, .uns 2, .rws, 10, 1, 3600, [], 0⟩,
   ⟨0x4130, 0x4130, 0x4, 0x4, .uns 2, .ro, 0, 0, 65535, [], 0⟩,
   ⟨0x4130, 0x4130, 0x5, 0x5, .uns 1, .ro, 0, 0, 255, [], 0⟩,
   ⟨0x4130, 0x4130, 0x6, 0x6, .uns 2, .ro, 0, 0, 65535, [], 0⟩,
   ⟨0x4130, 0x4130, 0x7, 0x7, .uns 1, .ro, 0, 0, 255, [], 0⟩,
   ⟨0x4130, 0x4130, 0x8, 0x8, .uns 8, .ro, 0, 0, 18446744073709551615, [], 0⟩,
   ⟨0x4130, 0x4130, 0x9, 0x9, .uns 8, .ro, 0, 0, 18446744073709551615, [], 0⟩,
   ⟨0x4130, 0x4130, 0xA, 0xA, .uns 4, .ro, 0, 0, 4294967295, [], 0⟩,
   ⟨0x4131, 0x4131, 0x0, 0x0, .uns 1, .const, 5, 0, 255, [], 0⟩,
   ⟨0x4131, 0x4131, 0x1, 0x1, .uns 1, .rw, 0, 0, 1, [], 0⟩,
   ⟨0x4131, 0x4131, 0x2, 0x2, .uns 4, .rw, 0, 0, 4294967295, [], 0⟩,
   ⟨0x4131, 0x4131, 0x3, 0x3, .uns 1, .rw, 7, 0, 7, [], 0⟩,
   ⟨0x4131, 0x4131, 0x4, 0x4, .dom 65536, .ro, 0, 0, 0, [], 0⟩,
   ⟨0x4131, 0x4131, 0x5, 0x5, .uns 4, .ro, 0, 0, 4294967295, [], 0⟩,
   ⟨0x4200, 0x4200, 0x0, 0x0, .dom 1476, .rws, 0, 0, 0, [], 0⟩,
   ⟨0x4201, 0x4201, 0x0, 0x0, .uns 1, .const, 7, 0, 255, [], 0⟩,
   ⟨0x4201, 0x4201, 0x1, 0x1, .uns 4, .ro, 0, 0, 4294967295, [], 0⟩,
   ⟨0x4201, 0x4201, 0x2, 0x2, .uns 8, .ro, 0, 0, 18446744073709551615, [], 0⟩,
   ⟨0x4201, 0x4201, 0x3, 0x3, .uns 4, .ro, 0, 0, 4294967295, [], 0⟩,
   ⟨0x4201, 0x4201, 0x4, 0x4, .uns 8, .ro, 0, 0, 18446744073709551615, [], 0⟩,
   ⟨0x4201, 0x4201, 0x5, 0x5, .uns 1, .ro, 0, 0, 255, [], 0⟩,
   ⟨0x4201, 0x4201, 0x6, 0x6, .uns 4, .ro, 0, 0, 4294967295, [], 0⟩,
   ⟨0x4201, 0x4201, 0x7, 0x7, .uns 4, .ro, 0, 0, 4294967295, [], 0⟩,
   ⟨0x4300, 0x43FF, 0x0, 0x0, .uns 1, .const, 31, 0, 255, [], 0⟩,
   ⟨0x4300, 0x43FF, 0x1, 0x1C, .uns 8, .ro, 0, 0, 18446744073709551615, [], 0⟩,
   ⟨0x4300, 0x43FF, 0x1D, 0x1D, .uns 1, .rws, 0, 0, 15, [], 0⟩,
   ⟨0x4300, 0x43FF, 0x1E, 0x1E, .uns 4, .rws, 0, 0, 4294967295, [], 0⟩,
   ⟨0x4300, 0x43FF, 0x1F, 0x1F, .bool, .rws, 0, 0, 1, [], 0⟩]

/-- The parts of the object table with the lowest and the highest index of each. -/
def dictParts : List (Nat × Nat × List ObjRow) :=
  [(0x1001, 0x2040, dictPart0), (0x2040, 0x2180, dictPart1), (0x2180, 0x2402, dictPart2), (0x2402, 0x2610, dictPart3),
   (0x2610, 0x315F, dictPart4), (0x3100, 0x3201, dictPart5), (0x3201, 0x3300, dictPart6), (0x3300, 0x3410, dictPart7),
   (0x3410, 0x341D, dictPart8), (0x3415, 0x341A, dictPart9), (0x341A, 0x3487, dictPart10),
   (0x3480, 0x3506, dictPart11), (0x3506, 0x368F, dictPart12), (0x3650, 0x3757, dictPart13),
   (0x3740, 0x3873, dictPart14), (0x3900, 0x4010, dictPart15), (0x4010, 0x4130, dictPart16),
   (0x4130, 0x43FF, dictPart17)]

/-- Every row of the object tables. -/
def dictTable : List ObjRow := dictParts.flatMap fun p => p.2.2

/-! ## Rows by address -/

/-- Row r holds index i. -/
def ObjRow.hasIndex (r : ObjRow) (i : Nat) : Bool := decide (r.i0 ≤ i) && decide (i ≤ r.i1)

/-- Row r holds object i:k. -/
def ObjRow.holds (r : ObjRow) (i k : Nat) : Bool := r.hasIndex i && (decide (r.s0 ≤ k) && decide (k ≤ r.s1))

/-- The row of object i:k. -/
def findRow (i k : Nat) : Option ObjRow :=
  dictParts.findSome? fun p => if p.1 ≤ i ∧ i ≤ p.2.1 then p.2.2.find? fun r => r.holds i k else none

/-- Some object has index i (R75). -/
def indexPresent (i : Nat) : Bool := dictTable.any fun r => r.hasIndex i

/-- Fixed size in bytes of a type, where it has one (Table 4.1). -/
def ObjType.size : ObjType → Option Nat
  | .bool => some 1
  | .uns n => some n
  | .int n => some n
  | .real => some 4
  | .vis _ => none
  | .oct n => some n
  | .dom _ => none

/-- Length n is right for the type (R71). -/
def ObjType.lengthOk (t : ObjType) (n : Nat) : Bool :=
  match t with
  | .vis m => decide (n ≤ m)
  | .dom m => decide (n ≤ m)
  | .bool => n == 1
  | .uns k => n == k
  | .int k => n == k
  | .real => n == 4
  | .oct k => n == k

/-- Default of a row as bytes. -/
def ObjRow.dfltBytes (r : ObjRow) : List Byte :=
  match r.ty with
  | .vis _ => []
  | .dom _ => []
  | .oct n => List.replicate n (BitVec.ofInt 8 r.dflt)
  | .bool => leBytesInt 1 r.dflt
  | .uns n => leBytesInt n r.dflt
  | .int n => leBytesInt n r.dflt
  | .real => leBytesInt 4 r.dflt

/-- A loop coding of object 3504:01: [15:8] kind, [7:0] instance. -/
def loopOfCode (v : Nat) : Option LoopId :=
  let i := v % 256
  match v / 256 with
  | 1 => if h : 1 ≤ i ∧ i ≤ 24 then some (.bay ⟨i - 1, by omega⟩) else none
  | 2 => if h : 1 ≤ i ∧ i ≤ 96 then some (.module ⟨i - 1, by omega⟩) else none
  | 3 => if h : 1 ≤ i ∧ i ≤ 8 then some (.string ⟨i - 1, by omega⟩) else none
  | 4 => if h : i < 15 then some (.slow ⟨i, h⟩) else none
  | _ => none

/-- The value of a row's data as an integer. -/
def ObjRow.num (r : ObjRow) (d : List Byte) : Int :=
  match r.ty with
  | .int _ => ofLeSigned d
  | _ => ofLe d

/-- Reserved bits read as 0 and what is written to them is ignored (R5). -/
def ObjRow.clean (r : ObjRow) (d : List Byte) : List Byte :=
  if r.resv = 0 then d
  else
    let v := BitVec.ofNat 64 (ofLe d) &&& ~~~ BitVec.ofNat 64 r.resv
    leBytes d.length v.toNat

/-- The reserved bytes of the filter entries of objects 3810+x:0E read as 0 (R5, Table 16.3). -/
def cleanFilters (d : List Byte) : List Byte := d.mapIdx fun n b => if n % 12 = 8 ∨ 10 ≤ n % 12 then 0 else b

/-- The data of object i:k with every reserved field at 0 (R5). -/
def cleanObject (r : ObjRow) (i k : Nat) (d : List Byte) : List Byte :=
  if 0x3810 ≤ i ∧ i ≤ 0x3813 ∧ k = 0xE then cleanFilters d else r.clean d

/-- Values the table gives beside a plain range: loop codings, the tamper debounce, and the federation base identifier. -/
def specialOk (i k : Nat) (v : Int) : Bool :=
  if (i = 0x3504 ∨ i = 0x3501 ∨ i = 0x3506) ∧ k = 1 then v = 0 ∨ (loopOfCode v.toNat).isSome
  else if 0x2621 ≤ i ∧ i ≤ 0x2624 ∧ k = 2 then v % 256 ≠ 0
  else if i = 0x3230 ∧ k = 6 then v % 0x80 = 0
  else true

/-- The value passes the encoding checks of Table 4.1 and its object's own range (R74, order 5). -/
def ObjRow.valueOk (r : ObjRow) (i k : Nat) (d : List Byte) : Bool :=
  match r.ty with
  | .bool => d = [0] ∨ d = [1]
  | .real => realFinite (BitVec.ofNat 32 (ofLe d))
  | .vis _ => d.all fun b => decide (0x20 ≤ b.toNat ∧ b.toNat ≤ 0x7E)
  | .oct _ => true
  | .dom _ => true
  | .uns _ | .int _ =>
    let c := r.num (r.clean d)
    (decide (r.lo ≤ c ∧ c ≤ r.hi) || r.extra.contains c) && specialOk i k c

/-! ## Values in the sets -/

/-- Store key of object i:k. -/
def objKey (i k : Nat) : Nat := i * 256 + k

/-- Value of object i:k in a set: the stored value, else the default. -/
def setBytes (st : Store) (i k : Nat) : List Byte :=
  match st.get (objKey i k) with
  | some v => v
  | none =>
    match findRow i k with
    | some r => r.dfltBytes
    | none => []

/-- The published value of an rws or rwl object in the active set (R72). -/
def cfgBytes (s : State) (i k : Nat) : List Byte :=
  match s.sets.published.get (objKey i k) with
  | some v => v
  | none => setBytes s.sets.active i k

/-- The same as a natural. -/
def cfgN (s : State) (i k : Nat) : Nat := ofLe (cfgBytes s i k)

/-- The same as a signed integer. -/
def cfgI (s : State) (i k : Nat) : Int := ofLeSigned (cfgBytes s i k)

/-- The same as a boolean. -/
def cfgB (s : State) (i k : Nat) : Bool := cfgN s i k != 0

/-- Value of an rw object the device keeps beside the sets. -/
def rwBytes (s : State) (i k : Nat) : List Byte := setBytes s.comm.rw i k

/-- The same as a natural. -/
def rwN (s : State) (i k : Nat) : Nat := ofLe (rwBytes s i k)

/-- A set with v stored at i:k, canonical. -/
def setPut (st : Store) (i k : Nat) (v : List Byte) : Store :=
  match findRow i k with
  | some r => st.set (objKey i k) (cleanObject r i k v) r.dfltBytes
  | none => st

/-- A natural in the set image named. -/
def setN (st : Store) (i k : Nat) : Nat := ofLe (setBytes st i k)

/-- Rated dependence of a value on other rws fields: power and current requests up to the rating (Table 4.11), and the
fields the chapters bound by another field of the same set. -/
def relatedOk (st : Store) (i k : Nat) (v : Int) : Bool :=
  if 0x3000 ≤ i ∧ i ≤ 0x3017 then
    if k = 0x0A then decide (v ≤ setN st i 8)
    else if k = 0x0B then decide (v ≤ setN st i 9)
    else if k = 0x17 then decide ((setN st i 0x16 : Int) ≤ v)
    else if k = 0x18 then decide (v ≤ setN st i 7)
    else true
  else if 0x3520 ≤ i ∧ i ≤ 0x352E ∧ k = 3 then decide (v < setN st i 2)
  else if i = 0x3200 ∧ k = 4 then decide (v ≤ setN st 0x3200 3)
  else if 0x31A0 ≤ i ∧ i ≤ 0x31A7 then
    if k = 7 then decide (v ≤ setN st i 4)
    else if k = 8 then decide (v = 0 ∨ v < setN st i 7)
    else if k = 0x0B then decide ((setN st i 0x0A : Int) ≤ v)
    else true
  else true

end Sys2Proof.Machine
end

