-- ==== Sys2Proof/Machine/Ops.lean ====
section
/-! DEFINITION. The named operations every unit shares: periods and rhythms, lanes and roles, events on queue 98, free
values, the configuration of links, bays, modules and strings, and the change of the device's mode. -/

namespace Sys2Proof.Machine

/-! ## Periods and rhythms (R3, R90) -/

/-- The period in ns. -/
def periodNs (s : State) : Nat := if s.clk.long then 50000 else 25000

/-- Fabric cycles of a period. -/
def periodCycles (s : State) : Nat := if s.clk.long then 25000 else 12500

/-- Periods of a share cycle. -/
def shareLen (s : State) : Nat := if s.clk.long then 20 else 40

/-- Periods of a thermal update. -/
def thermalLen (s : State) : Nat := if s.clk.long then 100 else 200

/-- Periods of a placement reassessment. -/
def placeLen (s : State) : Nat := if s.clk.long then 2000 else 4000

/-- Periods in ms milliseconds. -/
def msPeriods (s : State) (ms : Nat) : Nat := ms * 1000000 / periodNs s

/-- Cycle 0 of the running period is a share-cycle boundary. -/
def atShare (s : State) : Bool := s.clk.period % shareLen s == 0

/-- The first share-cycle boundary after period k. -/
def nextShare (s : State) (k : Nat) : Nat := (k / shareLen s + 1) * shareLen s

/-- ns since 2000 in the format of the backup-domain time objects: units of 2^-15 s (R288). -/
def timeTicks (ns : Nat) : Nat := ns * 2 ^ 15 / 1000000000

/-- Site time in that format (R332). -/
def siteTime (s : State) : U64 := BitVec.ofNat 64 (timeTicks s.site.ns)

/-! ## Lanes and roles (R271) -/

/-- Role of lane l. -/
def roleOf (s : State) (l : Lane) : Role := (s.jct.lane l).role

/-- The lane in role ACTIVE. -/
def activeLane (s : State) : Option Lane :=
  if roleOf s .a = .active then some .a else if roleOf s .b = .active then some .b else none

/-- The lane in role STANDBY. -/
def standbyLane (s : State) : Option Lane :=
  if roleOf s .a = .standby then some .a else if roleOf s .b = .standby then some .b else none

/-- Lane l is ACTIVE or STANDBY. -/
def inService (s : State) (l : Lane) : Bool := roleOf s l == .active || roleOf s l == .standby

/-- Lane l computes every period: ACTIVE, STANDBY or SHADOWING, booted and not held in reset. -/
def computing (s : State) (l : Lane) : Bool :=
  (inService s l || roleOf s l == .shadowing) && decide (7 ≤ (s.lane l).ctl.bootStep)

/-- Number of lanes in ACTIVE or STANDBY. -/
def laneCount (s : State) : Nat := (if inService s .a then 1 else 0) + (if inService s .b then 1 else 0)

/-- The state of the active lane, Lane A's while none is active. -/
def State.act (s : State) : LaneState := s.lane ((activeLane s).getD .a)

/-- Both lanes changed alike. -/
def bothLanes (f : LaneState → LaneState) (s : State) : State := { s with laneA := f s.laneA, laneB := f s.laneB }

/-- The lane named by 1 or 2 of an object. -/
def laneOfNum (n : Nat) : Option Lane := if n = 1 then some .a else if n = 2 then some .b else none

/-- 1 for Lane A, 2 for Lane B, 0 for none. -/
def laneNum : Option Lane → Nat
  | none => 0
  | some .a => 1
  | some .b => 2

/-- A crossover is decided and not complete. -/
def crossing (s : State) : Bool := s.jct.cross.isSome || s.jct.decision.any fun d => d.codeA != 0 || d.codeB != 0

/-- A resynchronisation is in progress. -/
def resyncing (s : State) : Bool := roleOf s .a == .shadowing || roleOf s .b == .shadowing

/-! ## Free values (log entry 3) -/

/-- s after one free value has been used. -/
def State.useFree (s : State) (n : Nat) : State := { s with free := s.free + n }

/-! ## Events (R380, R382) -/

/-- An event with the DATA bytes the catalogue lays out (Config). -/
def eventReq (k : EventKind) (inst : Nat) (about : List Nat) : EventReq :=
  { kind := k, code := 0, inst := inst, data := (List.range 12).map (Config.eventByte k about), time := none }

/-- An event with DATA the spec gives. -/
def eventData (k : EventKind) (code : U8) (inst : Nat) (d : List Byte) : EventReq :=
  { kind := k, code := code, inst := inst, data := (padTo 12 d).take 12, time := none }

/-- x with an event waiting for the recorder: the first 256 of the list are queued on queue 98, one credit each, and the rest wait with
their producers, which hold no credit and retry (R25-R27). -/
def LaneState.event (e : EventReq) (x : LaneState) : LaneState := { x with evq := x.evq ++ [e] }

/-- Lane l writes an event. -/
def evtLane (l : Lane) (e : EventReq) (s : State) : State := s.modLane l (LaneState.event e)

/-- The device writes an event: each computing lane does, in its own recorder (chapter 19). -/
def evt (e : EventReq) (s : State) : State :=
  let s := if computing s .a then evtLane .a e s else s
  if computing s .b then evtLane .b e s else s

/-- Every event waiting that has no time yet gets the site time (R379). -/
def LaneState.stamp (t : U64) (x : LaneState) : LaneState :=
  { x with evq := x.evq.map fun e => { e with time := some (e.time.getD t) } }

/-- The events of both lanes are stamped before site time moves. -/
def stampEvents (s : State) : State := bothLanes (LaneState.stamp (siteTime s)) s

/-! ## Tap records (R17, Table 1.4) -/

/-- Bits [127:0] of a tap record. -/
def tapBits (r : TapRecord) : Nat :=
  r.period.toNat + r.link.toNat * 2 ^ 6 + (if r.alt then 2 ^ 12 else 0) + r.status.toNat * 2 ^ 13 + r.seq.toNat * 2 ^ 16
    + r.serial.toNat * 2 ^ 32 + r.offset.toNat * 2 ^ 64 + r.voltage.toNat * 2 ^ 80 + r.current.toNat * 2 ^ 104

/-- CRC of a tap record: CRC-32 over bits [127:0], bit 0 first. -/
def tapCrc (r : TapRecord) : U32 := crc32 (leBytes 16 (tapBits r))

/-- The CRC of a record is correct. -/
def tapGood (r : TapRecord) : Bool := r.crc == tapCrc r

/-! ## Responses of the dictionary (R74) -/

/-- Abort: the device state does not permit the write. -/
def abortState : U32 := 0x08000022

/-- The answer to a dictionary request: abort code 0 for success, and data. -/
def respond (code : U32) (data : List Byte) (s : State) : State :=
  { s with comm := (let c := s.comm; { c with response := some (code, data) }) }

/-- The present mode accepts writes of every right (Table 3.1). -/
def writable (s : State) : Bool := s.modes.mode != .boot && s.modes.mode != .backup && s.modes.mode != .safe

/-- The present mode accepts the writes of R55. -/
def safeWritable (s : State) : Bool := s.modes.mode != .boot && s.modes.mode != .backup

/-- A host write with effect f: acknowledged where permitted, else refused for the present state; without an active lane nobody
answers (R76). -/
def hostWrite (ok : Bool) (f : State → State) (s : State) : State :=
  if (activeLane s).isNone then s else if ok then f (respond 0 [] s) else respond abortState [] s

/-- The same for a write whose chapter states a range: a value outside it is refused after the state (R74). -/
def hostRange (ok inRange : Bool) (f : State → State) (s : State) : State :=
  if (activeLane s).isSome && ok && !inRange then respond 0x06090030 [] s else hostWrite ok f s

/-! ## Configuration of links, bays, modules and strings -/

/-- Configured type of link n (object 3610+n:01). -/
def linkType (s : State) (n : Nat) : Nat := cfgN s (0x3610 + n) 1

/-- Configured count of link n (object 3610+n:02). -/
def linkCount (s : State) (n : Nat) : Nat := cfgN s (0x3610 + n) 2

/-- Field k of the bay-table entry of bay i, counted from 0. -/
def bayN (s : State) (i k : Nat) : Nat := cfgN s (0x3000 + i) k

/-- The bay is used (R86). -/
def bayUsed (s : State) (i : Nat) : Bool := bayN s i 2 != 0

/-- Head link of bay i, if it names one. -/
def bayLink (s : State) (i : Nat) : Option Nat :=
  let n := bayN s i 4
  if bayUsed s i && decide (n < 64) then some n else none

/-- Field k of module j's object, counted from 0. -/
def modN (s : State) (j k : Nat) : Nat := cfgN s (0x3100 + j) k

/-- Cabinet of module j, counted from 0. -/
def modCab (s : State) (j : Nat) : Option Nat :=
  let c := modN s j 1
  if 1 ≤ c ∧ c ≤ 24 then some (c - 1) else none

/-- Field k of cabinet c's object, counted from 0. -/
def cabN (s : State) (c k : Nat) : Nat := cfgN s (0x3180 + c) k

/-- Spur link of cabinet c. -/
def cabLink (s : State) (c : Nat) : Option Nat := let n := cabN s c 1; if n < 64 then some n else none

/-- Spur link and position of module j. -/
def modLink (s : State) (j : Nat) : Option (Nat × Nat) :=
  match modCab s j with
  | none => none
  | some c => (cabLink s c).map fun n => (n, modN s j 2)

/-- Field k of string i's object, counted from 0. -/
def strN (s : State) (i k : Nat) : Nat := cfgN s (0x31A0 + i) k

/-- Spur link of string i. -/
def strLink (s : State) (i : Nat) : Option Nat := let n := strN s i 1; if n < 64 then some n else none

/-- String i is configured. -/
def strUsed (s : State) (i : Nat) : Bool := (strLink s i).isSome

/-- Bay whose head sits on link n. -/
def bayOfLink (s : State) (n : Nat) : Option Nat := (List.range 24).find? fun i => bayLink s i == some n

/-- Cabinet on link n. -/
def cabOfLink (s : State) (n : Nat) : Option Nat := (List.range 24).find? fun c => cabLink s c == some n

/-- String on link n. -/
def strOfLink (s : State) (n : Nat) : Option Nat := (List.range 8).find? fun i => strLink s i == some n

/-- Module at position m of cabinet c. -/
def moduleAt (s : State) (c m : Nat) : Option Nat :=
  (List.range 96).find? fun j => modCab s j == some c && modN s j 2 == m

/-- This hub leads its site: it sends share frames, and neither COMMISSION nor rank 255 bars it (R172). -/
def leads (s : State) : Bool := s.clk.fed.leading && cfgN s 0x3230 3 != 255 && s.modes.mode != .commission

/-- Vehicle link of bay i, counted from 0. -/
def bayVehicle (s : State) (i : Nat) : Option Nat :=
  let v := bayN s i 5
  if bayUsed s i && decide (1 ≤ v ∧ v ≤ 24) then some (v - 1) else none

/-- Bay that vehicle link n (from 0) serves. -/
def bayOfVehicle (s : State) (n : Nat) : Option Nat := (List.range 24).find? fun i => bayVehicle s i == some n

/-! ## Frames and samples (R13-R15, R96) -/

/-- The bank of the running period in lane x. -/
def curBank (s : State) (x : LaneState) : List FrameSlot := if s.clk.period % 2 = 0 then x.bank0 else x.bank1

/-- x with the bank of the running period changed by f. -/
def modCurBank (s : State) (f : List FrameSlot → List FrameSlot) (x : LaneState) : LaneState :=
  if s.clk.period % 2 = 0 then { x with bank0 := f x.bank0 } else { x with bank1 := f x.bank1 }

/-- Slot of link n in the running period's bank. -/
def slotOf (s : State) (x : LaneState) (n : Nat) : FrameSlot := nth (curBank s x) n

/-- Word w of a slot as a measurement: none unless the slot is VALID, carries the word and the word is no 0x800000 (R96). -/
def FrameSlot.meas (f : FrameSlot) (w : Nat) : Option Int :=
  if f.status = 0 then
    match f.words[w]? with
    | some v => if v = 0x800000 then none else some v.toInt
    | none => none
  else none

/-- Last VALID value of word w of link n, 0 before any (R97). -/
def Link.word (k : Link) (w : Nat) : BitVec 24 := k.lastWords.getD w 0

/-- The same as an integer for a measurement word; 0 before any reading. -/
def Link.wordI (k : Link) (w : Nat) : Int := if k.word w = 0x800000 then 0 else (k.word w).toInt

/-- Word w of a frame of the link type is a measurement: neither the status word nor a module's status word (Table 5.5). -/
def measuredWord (type w : Nat) : Bool := w != 0 && !(type == 1 && w % 4 == 1 && decide (5 ≤ w))

/-- The last VALID values after a VALID frame: a measurement word of 0x800000 and a word that is missing keep theirs (R96). -/
def keepWords (type : Nat) (old new : List (BitVec 24)) : List (BitVec 24) :=
  (List.range (max old.length new.length)).map fun w =>
    match new[w]? with
    | some v => if v = 0x800000 && measuredWord type w then old.getD w 0x800000 else v
    | none => old.getD w 0x800000

/-- Link n of lane x. -/
def LaneState.link (x : LaneState) (n : Nat) : Link := nth x.links n

/-- x with link n changed. -/
def LaneState.modLink (n : Nat) (f : Link → Link) (x : LaneState) : LaneState := { x with links := upd x.links n f }

/-- Lane x sees link n UP. -/
def LaneState.linkUp (x : LaneState) (n : Nat) : Bool := (x.link n).st == .up

/-! ## Loops by name -/

/-- Loop i of lane x. -/
def LaneState.loop (x : LaneState) : LoopId → Loop
  | .bay n => nth x.bayLoops n
  | .module j => nth x.modLoops j
  | .string i => nth x.strLoops i
  | .slow j => nth x.slowLoops j

/-- x with loop i changed. -/
def LaneState.modLoop (i : LoopId) (f : Loop → Loop) (x : LaneState) : LaneState :=
  match i with
  | .bay n => { x with bayLoops := upd x.bayLoops n f }
  | .module j => { x with modLoops := upd x.modLoops j f }
  | .string k => { x with strLoops := upd x.strLoops k f }
  | .slow j => { x with slowLoops := upd x.slowLoops j f }

/-- Every loop of a lane. -/
def allLoops : List LoopId :=
  (List.finRange 24).map .bay ++ (List.finRange 96).map .module ++ (List.finRange 8).map .string
    ++ (List.finRange 15).map .slow

/-- Loop coding of object 3504:01. -/
def codeOfLoop : LoopId → Nat
  | .bay n => 0x100 + n + 1
  | .module j => 0x200 + j + 1
  | .string i => 0x300 + i + 1
  | .slow j => 0x400 + j

/-- The loop is one of the slow slots. -/
def isSlowLoop : LoopId → Bool
  | .slow _ => true
  | _ => false

/-- Change every loop of x by f. -/
def LaneState.mapLoops (f : LoopId → Loop → Loop) (x : LaneState) : LaneState :=
  allLoops.foldl (fun y i => y.modLoop i (f i)) x

/-! ## Modes (R54-R58, R76) -/

/-- Code of a mode (Table 3.1). -/
def Mode.code : Mode → U8
  | .boot => 0
  | .commission => 1
  | .idle => 2
  | .run => 3
  | .degraded => 4
  | .safe => 5
  | .service => 6
  | .backup => 7

/-- s with site-bus channel c changed. -/
def modChan (c : Nat) (f : Channel → Channel) (s : State) : State := { s with chans := upd s.chans c f }

/-- The channel takes frames to send: it is not off, bus-off, latched off or asleep (R331, R340). -/
def Channel.talks (h : Channel) : Bool := h.st == .integrating || h.st == .errorActive || h.st == .errorPassive

/-- A frame enters transmit queue q where the channel talks and a credit is left (R25, R328). -/
def Channel.push (q : Nat) (f : CanFrame) (h : Channel) : Channel :=
  if h.talks && decide ((nth h.tx q).length < 16) then { h with tx := upd h.tx q fun l => l ++ [f] } else h

/-- The other channel of the pair A, B. -/
def partner (c : Nat) : Option Nat := if c = 0 then some 1 else if c = 1 then some 0 else none

/-- A frame is queued on channel c and, with A/B pairing, on its partner too (R331). -/
def queueTx (c q : Nat) (f : CanFrame) (s : State) : State :=
  let s := modChan c (Channel.push q f) s
  match partner c with
  | some d => if cfgB s 0x3800 1 then modChan d (Channel.push q f) s else s
  | none => s

/-- A frame is queued once on each channel with dictionary services: A, B and D (Table 16.1). -/
def queueDict (q : Nat) (f : CanFrame) (s : State) : State :=
  let s := queueTx 0 q f s
  let s := if cfgB s 0x3800 1 then s else queueTx 1 q f s
  queueTx 3 q f s

/-- Data lengths of DLC 9 to 15. -/
def fdSizes : List Nat := [12, 16, 20, 24, 32, 48, 64]

/-- DLC of the shortest frame that holds n bytes. -/
def dlcOf (n : Nat) : Nat := if n ≤ 8 then n else 9 + (findPos (fun k => decide (n ≤ k)) fdSizes).getD 6

/-- Bytes of a frame with DLC d. -/
def dlcBytes (d : Nat) : Nat := if d ≤ 8 then d else fdSizes.getD (d - 9) 64

/-- A frame of channel c with data d padded to its DLC, sent as object 3810+c:04 selects. -/
def makeFrame (s : State) (c ident : Nat) (extended : Bool) (d : List Byte) : CanFrame :=
  let o := cfgN s (0x3810 + c) 4
  { ident := BitVec.ofNat 29 ident, extended := extended, fd := decide (o % 2 = 1), brs := decide (o % 4 = 3), esi := false
    remote := false, dlc := BitVec.ofNat 4 (dlcOf d.length), data := padTo (dlcBytes (dlcOf d.length)) d }

/-- Identifier word of the EMCY message: object 1014, by default 0x80 + node-ID (PRESUMED: CiA 1301, log 12). -/
def emcyId (s : State) : Nat :=
  match s.comm.rw.get (objKey 0x1014 0) with
  | some v => ofLe v
  | none => 0x80 + cfgN s 0x1FA0 1

/-- An EMCY message is queued (R76), none in NMT state Stopped or Initialisation (R77); its error code and manufacturer bytes are
free values. -/
def emcySend (s : State) : State :=
  if s.comm.nmt = .operational ∨ s.comm.nmt = .preOperational then
    let d := Config.freeBytes s.free 2 ++ [s.comm.errorReg] ++ Config.freeBytes (s.free + 1) 5
    let i := emcyId s
    let s := { s with comm := (let c := s.comm; { c with emcy := c.emcy + 1 }) }
    let s := if i / 2 ^ 31 % 2 = 0 then queueDict 1 (makeFrame s 0 (i % 2 ^ 29) (decide (i / 2 ^ 29 % 2 = 1)) d) s else s
    s.useFree 2
  else s

/-- A heartbeat or boot-up frame with state code c is queued: identifier 0x700 + node-ID (PRESUMED: CiA 1301, log 12). -/
def nmtFrame (c : Byte) (s : State) : State := queueDict 1 (makeFrame s 0 (0x700 + cfgN s 0x1FA0 1) false [c]) s

/-- The device enters mode m: entry time, event, and EMCY on SAFE and DEGRADED (R56, R76). -/
def enterMode (m : Mode) (s : State) : State :=
  let s := { s with modes := { s.modes with mode := m, pending := none, entered := siteTime s } }
  let s := evt (eventReq .modeChange 127 [m.code.toNat]) s
  if m = .safe ∨ m = .degraded then emcySend s else s

/-- Power may flow: loops enabled by their blocks (Table 3.1). -/
def powerMode (s : State) : Bool :=
  s.modes.mode == .run || s.modes.mode == .degraded || s.modes.mode == .commission

/-- Vehicle sessions are served (Table 3.1). -/
def servesSessions (s : State) : Bool := s.modes.mode == .run || s.modes.mode == .degraded

/-- Ramp time of the SAFE sequence in periods (R60, R61). -/
def safeRampPeriods (s : State) (cause : U8) : Nat := if cause = 4 then 16 else msPeriods s (cfgN s 0x2010 9)

/-- SAFE is taken in period k for a cause of Table 3.4: it overrides any request taken and not completed; a controlled cause
starts the SAFE sequence, an uncontrolled one drives SAFE_N low at once, cause 5 also during the ramp of another (R58-R61). -/
def takeSafe (cause : U8) (s : State) : State :=
  if s.modes.mode = .boot ∨ s.modes.mode = .backup then s
  else if s.modes.mode = .safe then
    (if cause = 5 ∧ s.jct.lost = false then { s with jct := { s.jct with safeN := .low } } else s)
  else
    let s := { s with modes := { s.modes with waiting := none, safeCause := cause, pfSafe := cause == 4 } }
    let s := { s with modes := { s.modes with safe := some { cause := cause, k := s.clk.period, t := safeRampPeriods s cause } } }
    let s := enterMode .safe s
    if cause = 5 ∨ cause = 6 then { s with jct := { s.jct with safeN := .low, safeDue := none } }
    else if cause = 4 then { s with jct := { s.jct with safeDue := some (s.clk.period + 20) } }
    else s

end Sys2Proof.Machine
end

