-- ==== Sys2Proof/Machine/Flags.lean ====
section
/-! DEFINITION. Every flag and status word the device computes from its state: the low-spare flags (Table 1.11), the thermal
state (Table 2.17), loop and share status words, the metrology and billing flags, and the health word's own bits. -/

namespace Sys2Proof.Machine

/-- A natural of flag bits from (bit, set) pairs. -/
def flagBits (l : List (Nat × Bool)) : Nat := l.foldl (fun n p => n + if p.2 then 2 ^ p.1 else 0) 0

/-- Number of naturals below n that satisfy p. -/
def countTrue (n : Nat) (p : Nat → Bool) : Nat := ((List.range n).filter p).length

/-! ## Spares (R29, R30) -/

/-- Lane x has a spare tile. -/
def spareTile (x : LaneState) : Bool := x.tiles.any fun t => t.role == .spare

/-- Link n is untyped in the active set and not failed. -/
def spareLink (s : State) (n : Nat) : Bool :=
  linkType s n == 0 && !((s.act.link n).st == .failed) && !(s.act.link n).syncFailed
    && !(s.laneA.ctl.failedRx.contains n) && !(s.laneB.ctl.failedRx.contains n)

/-- Spare spur links (object 2180:03). -/
def spareLinks (s : State) : Nat := countTrue 64 (spareLink s)

/-- Spare queues of lane x not yet in service and not retired (object 2180:0B). -/
def spareQueues (x : LaneState) : Nat :=
  countTrue 4 fun i => !(nth x.queues (124 + i)).retired && !((x.roleMap.take 124).contains (124 + i))

/-- Spare key slots of lane x (object 2180:08). -/
def spareSlots (x : LaneState) : Nat := 512 - x.ks.slots.length - x.ks.retired.length

/-- Modules held SPARE (object 2180:0A). -/
def spareModules (x : LaneState) : Nat := countTrue 96 fun j => (nth x.wp.mods j).st == .spare

/-- At least one module is configured as a spare. -/
def spareConfigured (s : State) : Bool := (List.range 96).any fun j => modN s j 1 != 0 && modN s j 5 != 0

/-- Spare pool in units of 0.1 % of the array (object 2180:05); 1,000 before the array is formatted (DESIGN CHOICE, log 43). -/
def nandFraction (s : State) : Nat :=
  if s.nand.st = 2 then (if Config.nandBlocks = 0 then 0 else s.nand.spare * 1000 / Config.nandBlocks) else 1000

/-- The low-spare flags (Table 1.11). -/
def lowSpareWord (s : State) : Nat :=
  flagBits [(0, !(spareTile s.laneA && spareTile s.laneB)), (1, spareLinks s == 0), (2, decide (nandFraction s < 40)),
    (3, decide (s.fs.rows < 16)), (4, decide (s.met.ctl.rows < 8)), (5, decide (spareSlots s.act < 16)),
    (6, decide (s.life.rows < 2)), (7, spareModules s.act == 0 && spareConfigured s), (8, spareQueues s.act == 0)]

/-- The flags recomputed after a placement decision, with an event for each that sets (R30). -/
def recheckSpares (s : State) : State :=
  let w : U16 := BitVec.ofNat 16 (lowSpareWord s)
  let new := w &&& ~~~ s.clk.lowSpare
  let s := { s with clk := { s.clk with lowSpare := w } }
  (List.range 9).foldl (fun s i => if new.getLsbD i then evt (eventReq .lowSpare 127 [i]) s else s) s

/-! ## Loop status (Table 7.15, R281) -/

/-- Code of a loop state. -/
def LoopSt.code : LoopSt → Nat
  | .off => 0
  | .start => 1
  | .run => 2
  | .stop => 3
  | .ramp => 4
  | .fault => 5

/-- Status word of a loop. -/
def loopWord (p : Loop) : Nat :=
  p.count.toNat * 2 ^ 24 + p.cause.toNat * 2 ^ 20
    + flagBits [(11, p.inj), (10, p.sat), (9, p.inv), (8, p.mis)] + p.st.code

/-- Loops in FAULT (object 3502:0D). -/
def loopsInFault (x : LaneState) : Nat := (allLoops.filter fun i => (x.loop i).st == .fault).length

/-! ## Codes of the other states -/

/-- Code of a link state (object 3650+n:01). -/
def LinkSt.code : LinkSt → Nat
  | .down => 0
  | .sync => 1
  | .acquire => 2
  | .up => 3
  | .failed => 4

/-- Code of a tile role (object 3510+t:01). -/
def TileRole.code : TileRole → Nat
  | .fast => 0
  | .slow => 1
  | .spare => 2
  | .underTest => 3
  | .retired => 4

/-- Code of a module state (Table 9.1). -/
def ModSt.code : ModSt → Nat
  | .notConfigured => 0
  | .free => 1
  | .serving => 2
  | .moving => 3
  | .spare => 4
  | .retired => 5
  | .withdrawn => 6

/-- Code of a thermal sensor state (Table 10.4). -/
def SensorSt.code : SensorSt → Nat
  | .valid => 0
  | .unavailable => 1
  | .failing => 2
  | .quarantined => 3

/-- Code of a role (Table 13.1). -/
def Role.code : Role → Nat
  | .booting => 0
  | .active => 1
  | .standby => 2
  | .shadowing => 3
  | .failed => 4
  | .excluded => 5

/-- Failed-link mask of lane x (object 3600:05): after a failure with cause SYNC the bit stays until the link is UP (R411). -/
def failedMask (x : LaneState) : Nat :=
  flagBits ((List.range 64).map fun n => (n, (x.link n).st == .failed || (x.link n).syncFailed))

end Sys2Proof.Machine
end

