-- ==== Sys2Proof/Machine/MetOps.lean ====
section
/-! DEFINITION. Shared operations of the metrology section: legal time, the logbook (R267), crediting of energy (R232, R246), pulses (R235,
R236), and DC samples with their gaps (R228-R231). -/

namespace Sys2Proof.Machine

/-- s with the metrology section changed. -/
def modMet (f : Metro → Metro) (s : State) : State := { s with met := f s.met }
/-- m with its control part changed. -/
def Metro.onCtl (f : MetCtl → MetCtl) (m : Metro) : Metro := { m with ctl := f m.ctl }
/-- m with its billing part changed. -/
def Metro.onBill (f : Billing → Billing) (m : Metro) : Metro := { m with bill := f m.bill }
/-- m with its billing registers changed. -/
def Metro.onRegs (f : BillRegs → BillRegs) (m : Metro) : Metro := m.onBill fun b => { b with regs := f b.regs }
/-- m with DC channel c, counted from 0, changed. -/
def Metro.onDc (c : Nat) (f : DcChan → DcChan) (m : Metro) : Metro := { m with dc := upd m.dc c f }

/-- Legal registers advance: START and READY (Table 11.1). -/
def advances (m : Metro) : Bool := m.ctl.st == .start || m.ctl.st == .ready

/-- Crystal cycles of a second. -/
def secCycles : Nat := 24576000

/-- Legal time in units of 2^-15 s: 750 cycles each. -/
def legalTicks (c : MetCtl) : Nat := c.legal / 750

/-- Nominal period as cycles and periods: 614.4 cycles, or 1,228.8 at 50 us. How the metrology section learns which of the two is in
force is not stated (R18 says not from the logic side): it takes the one the period really has (DESIGN CHOICE, log 53). -/
def nominalPeriod (s : State) : Nat × Nat := if s.clk.long then (12288, 10) else (6144, 10)

/-! ## Logbook (R267) -/

/-- The code belongs to the parameter area. -/
def paramCode (code : Nat) : Bool := decide (3 ≤ code ∧ code ≤ 0xB)

/-- The parameter area is full. -/
def logFull (m : Metro) : Bool := decide (4096 ≤ m.bill.param.entries.length)

/-- The entry of a code for the next SEQ of its area. -/
def makeEntry (code ch : Nat) (data : List Byte) (m : Metro) : LogEntry :=
  { seq := if paramCode code then m.bill.param.next else m.bill.event.next
    time := if m.ctl.legalSet then BitVec.ofNat 64 (legalTicks m.ctl) else 0
    code := BitVec.ofNat 16 code, channel := BitVec.ofNat 8 ch, flags := if m.ctl.legalSet then 0 else 1
    data := (padTo 12 data).take 12 }

/-- An area with an entry more. -/
def LogArea.add (e : LogEntry) (a : LogArea) : LogArea := { entries := a.entries ++ [e], next := a.next + 1 }

/-- An entry is written and leaves as LOG_COPY; a full parameter area takes none, the event ring overwrites its oldest. -/
def logAdd (e : LogEntry) (m : Metro) : Metro :=
  if paramCode e.code.toNat && logFull m then m
  else
    let m := m.onCtl fun c => { c with txLog := some e }
    if paramCode e.code.toNat then m.onBill fun b => { b with param := b.param.add e }
    else
      let full := decide (12288 ≤ m.bill.event.entries.length)
      m.onBill fun b =>
        { b with event := (let a := b.event.add e; if full then { a with entries := a.entries.tail } else a)
                 overwritten := if full then b.overwritten + 1 else b.overwritten }

/-- An entry of the present legal time. -/
def logEntry (code ch : Nat) (data : List Byte) (m : Metro) : Metro := logAdd (makeEntry code ch data m) m

/-! ## Crediting (R232, R245, R246) -/

/-- Lease-account or unleased group in force for channel ch, 1-32. -/
def accountGroup (r : BillRegs) (ch : Nat) : Nat :=
  match nth r.sessions (ch - 1) with
  | some x => if x.account.toNat ≤ 255 then 33 + x.account.toNat else 289
  | none => 289

/-- n more in register i of group g. -/
def addReg (g i n : Nat) (r : BillRegs) : BillRegs := { r with groups := upd r.groups g fun l => upd l i fun v => v + n }

/-- n mWh of direction d in group g: total and tariff in force. -/
def creditGroup (g d n : Nat) (r : BillRegs) : BillRegs := addReg g (2 + 8 * d + r.tariff) n (addReg g d n r)

/-- FLAGS bit i marked for group g. -/
def markSpan (g i : Nat) (r : BillRegs) : BillRegs := { r with spanFlags := upd r.spanFlags g fun v => v ||| 2 ^ i }

/-- FLAGS bit i marked for the open session of channel ch. -/
def markSession (ch i : Nat) (r : BillRegs) : BillRegs :=
  { r with sessions := upd r.sessions (ch - 1) fun o => o.map fun (x : MetSession) => { x with flags := x.flags ||| BitVec.ofNat 8 (2 ^ i) } }

/-- FLAGS bit i marked for channel ch, its session and its account. -/
def markChannel (ch i : Nat) (r : BillRegs) : BillRegs :=
  if ch = 0 then markSpan 0 i r else markSession ch i (markSpan (accountGroup r ch) i (markSpan ch i r))

/-- n mWh more in the running window of the hub or a channel. -/
def addWindow (ch n : Nat) (l : List DemandWin) : List DemandWin :=
  upd l ch fun w => match w.subs with
    | e :: es => { subs := (e + n) :: es }
    | [] => { subs := [n] }

/-- Channel ch is in a commissioning session. -/
def commissioning (r : BillRegs) (ch : Nat) : Bool :=
  match nth r.sessions (ch - 1) with
  | some x => ch != 0 && x.commissioning
  | none => false

/-- n whole mWh of the hub (ch 0) or a channel, direction d: its group, its account, the window, the commissioning register; with
legal time unset no window. -/
def creditMwh (ch d n : Nat) (m : Metro) : Metro :=
  m.onRegs fun r =>
    let r := creditGroup ch d n r
    let r := if ch = 0 then r else creditGroup (accountGroup r ch) d n r
    let r := if commissioning r ch then addReg 290 (4 + d) n r else r
    if m.ctl.legalSet then
      if d = 0 then { r with winImp := addWindow ch n r.winImp } else { r with winExp := addWindow ch n r.winExp }
    else markChannel ch 1 { r with flags := r.flags ||| 4 }

/-! ## Pulse outputs (R235, R236) -/

/-- Source of an output: hub 0 or channel, and direction. -/
def pulseSource (p : PulseOut) : Option (Nat × Nat) :=
  let h := p.source.toNat / 256
  if h = 0 then none else some (h - 1, p.source.toNat % 2)

/-- Width W in cycles. -/
def pulseCycles (p : PulseOut) : Nat := p.w.toNat * 24576 / 10

/-- A pulse falls due with its edge at cycle e: pending where less than 2W after the edge before it. -/
def PulseOut.due (e : Nat) (p : PulseOut) : PulseOut :=
  let last := match p.edges.getLast? with
    | some x => some x.1
    | none => p.lastEdge
  let t := match last with
    | some k => max e (k + 2 * pulseCycles p)
    | none => e
  { p with edges := p.edges ++ [(t, decide (e < t))], pending := if e < t then p.pending + 1 else p.pending }

/-- Pulses of a residue that stood at r0 before the sample u over the span start, len; the flag says whether the pending count is
full. -/
def pulseRun (u : Int) (start len : Nat) : Nat → Int → PulseOut → PulseOut × Bool
  | 0, _, p => (p, false)
  | f + 1, r0, p =>
    let q : Int := (p.q.toNat * 2 ^ 32 : Nat)
    if q = 0 ∨ p.residue < q then (p, false)
    else if 65535 ≤ p.pending then (p, true)
    else
      let part : Int := if u ≤ 0 then 0 else clampInt 0 len ((q - r0) * len / u)
      pulseRun u start len f (r0 - q) (PulseOut.due (start + len + part.toNat) { p with residue := p.residue - q })

/-- The outputs whose source is ch, d take u. -/
def pulseTake (ch d : Nat) (u : Int) (start len : Nat) (m : Metro) : Metro :=
  let run := fun (p : PulseOut) =>
    if pulseSource p = some (ch, d) then
      let p' := { p with residue := p.residue + u }
      pulseRun u start len ((p'.residue / (2 ^ 32 : Int)).toNat + 1) p.residue p'
    else (p, false)
  let ovf := m.pout.any fun p => (run p).2
  { m with pout := m.pout.map (fun p => (run p).1), ctl := (let c := m.ctl; { c with pulseOvf := c.pulseOvf || ovf }) }

/-- Residue of the hub (0) or a channel, direction d. -/
def residueOf (m : Metro) (ch d : Nat) : Int :=
  if ch = 0 then (if d = 0 then m.ac.imp else m.ac.exp)
  else let c := nth m.dc (ch - 1); if d = 0 then c.imp else c.exp

/-- m with that residue replaced. -/
def setResidue (ch d : Nat) (v : Int) (m : Metro) : Metro :=
  if ch = 0 then { m with ac := (let a := m.ac; if d = 0 then { a with imp := v } else { a with exp := v }) }
  else m.onDc (ch - 1) fun c => if d = 0 then { c with imp := v } else { c with exp := v }

/-- An energy of u units of 2^-32 mWh enters the accumulator of ch, d: whole mWh move to the registers (R232). -/
def accumulate (ch d : Nat) (u : Int) (start len : Nat) (m : Metro) : Metro :=
  let r := residueOf m ch d + u
  let n := if 0 < r then r / 2 ^ 32 else 0
  let m := setResidue ch d (r - n * 2 ^ 32) m
  let m := if n = 0 then m else creditMwh ch d n.toNat m
  pulseTake ch d u start len m

/-- A signed energy goes to the direction of its sign, a zero to neither (R231). -/
def creditSample (ch : Nat) (u : Int) (start len : Nat) (m : Metro) : Metro :=
  if u = 0 then m else accumulate ch (if 0 < u then 0 else 1) u.natAbs start len m

/-! ## DC samples (R229-R231) -/

/-- Time weight of the running interval. -/
def weight (nom : Nat × Nat) (m : Metro) : Nat × Nat := m.ctl.tPrev.getD nom

/-- Denominator that turns powers of 10^-24 / 144 W times cycles into 2^-32 mWh: 3.6 J each mWh. -/
def joule144 : Nat := 144 * 36 * 10 ^ 24 * secCycles

/-- Energy of a power over t, rounded to the residue unit. -/
def energyOf (p : Nat) (t : Nat × Nat) : Int := roundDiv (p * t.1 * 2 ^ 32 * 10 : Nat) (joule144 * max 1 t.2)

/-- V and I of a record's words on a channel, in 10^-12 V and A (R229). -/
def sampleVI (c : DcChan) (wv wi : Int) : Int × Int := (c.gV * wv * 250, c.gI * wi * 500 + c.oI * 1000000)

/-- Starting current in 10^-12 A. -/
def startingI (c : DcChan) : Nat := c.starting.toNat * 10 ^ 11

/-- A sample of V and I, both times k, is credited to channel ch, 1-32; the second component is its energy. -/
def dcSample (nom : Nat × Nat) (ch k : Nat) (v i : Int) (start len : Nat) (m : Metro) : Metro × Int :=
  let c := nth m.dc (ch - 1)
  if i.natAbs < startingI c * k then (m, 0)
  else
    let p : Int := v * i * (144 / (k * k) : Nat)
    let e := energyOf p.natAbs (weight nom m)
    let u := if p < 0 then -e else e
    let m := m.onDc (ch - 1) fun (c : DcChan) =>
      { c with sumImp := if 0 < p then c.sumImp + p else c.sumImp, sumExp := if p < 0 then c.sumExp - p else c.sumExp
               recent := match c.recent with
                 | x :: xs => (x + u) :: xs
                 | [] => [u] }
    (creditSample ch u start len m, u)

/-- A gap of g periods, at least 4, is recorded: estimate, count, logbook entry (R230). -/
def recordGap (ch g : Nat) (m : Metro) : Metro :=
  let c := nth m.dc (ch - 1)
  let u := (c.last.map fun x => x.2.2).getD 0
  let i := (c.last.map fun x => x.2.1).getD 0
  let est := u.natAbs * min g 84
  let m := m.onDc (ch - 1) fun (c : DcChan) => { c with gaps := c.gaps + 1, estimate := c.estimate + est }
  let m := m.onRegs (markChannel ch 2)
  if startingI c ≤ i.natAbs then logEntry 0xD ch (leBytes 4 g ++ leBytes 8 (est / 2 ^ 32)) m else m

/-- The missing samples of a gap of g periods, 1-3, by linear interpolation between the samples on either side. -/
def interpolate (nom : Nat × Nat) (ch g : Nat) (v i : Int) (start len : Nat) (m : Metro) : Metro :=
  match (nth m.dc (ch - 1)).last with
  | none => m
  | some (v0, i0, _) =>
    let k := g + 1
    let m := (List.range g).foldl (fun (m : Metro) j =>
      let a : Int := (g - j : Nat)
      let b : Int := (j + 1 : Nat)
      (dcSample nom ch k (v0 * a + v * b) (i0 * a + i * b) start len m).1) m
    m.onDc (ch - 1) fun (c : DcChan) => { c with interpolated := c.interpolated + BitVec.ofNat 32 g }

/-- The gap before an accepted sample ends (R230). -/
def closeGap (nom : Nat × Nat) (ch : Nat) (v i : Int) (start len : Nat) (m : Metro) : Metro :=
  let c := nth m.dc (ch - 1)
  let g := c.missing - 1
  if c.last.isNone || g == 0 then m
  else if c.gapEst then
    if c.gapDone < g then m.onDc (ch - 1) fun (c : DcChan) => { c with gaps := c.gaps + 1 } else m
  else if g ≤ 3 then interpolate nom ch g v i start len m
  else recordGap ch g m

/-- The record held for channel ch is accepted when its period is complete. -/
def acceptHeld (nom : Nat × Nat) (start len : Nat) (m : Metro) (ch : Nat) : Metro :=
  let c := nth m.dc (ch - 1)
  match c.held with
  | none => m
  | some (wv, wi, seq, link) =>
    let x := sampleVI c wv wi
    let p := dcSample nom ch 1 x.1 x.2 start len (closeGap nom ch x.1 x.2 start len m)
    p.1.onDc (ch - 1) fun (c : DcChan) =>
      { c with last := some (x.1, x.2, p.2), lastSeq := some seq, lastLink := link, accepted := c.accepted + 1, missing := 0
               restart := false, held := none, gapDone := 0, gapEst := false }

/-- Every channel's record of the period that has ended. -/
def acceptAll (nom : Nat × Nat) (start len : Nat) (m : Metro) : Metro :=
  (List.range 32).foldl (fun m i => acceptHeld nom start len m (i + 1)) m

/-- An open gap of at least 4 periods is recorded up to now; its rest is a new gap without an estimate (R230). -/
def cutGap (m : Metro) (ch : Nat) : Metro :=
  let c := nth m.dc (ch - 1)
  if c.last.isSome && c.held.isNone && !c.gapEst && decide (4 ≤ c.missing) then
    (recordGap ch c.missing m).onDc (ch - 1) fun (c : DcChan) => { c with gapEst := true, gapDone := c.missing }
  else m

/-- The open gaps of all channels. -/
def cutGaps (m : Metro) : Metro := (List.range 32).foldl (fun m i => cutGap m (i + 1)) m

/-- n periods have elapsed: a new period begins with the record stamped t. -/
def periodElapsed (nom : Nat × Nat) (t n : Nat) (m : Metro) : Metro :=
  match m.ctl.lastTap with
  | none => m.onCtl fun c => { c with firstTap := some t, lastTap := some t }
  | some t0 =>
    let len := if n = 1 then t - t0 else nom.1 / nom.2
    let m := acceptAll nom t0 len m
    let m := { m with dc := m.dc.map fun (c : DcChan) => { c with missing := c.missing + n, seenNow := false } }
    m.onCtl fun c => { c with lastTap := some t, tapPeriods := c.tapPeriods + n, firstTap := c.firstTap.orElse fun _ => some t0 }

/-- Periods between two stamps: dt over the nominal period, rounded, at least 1 (R228). -/
def periodsIn (nom : Nat × Nat) (dt : Nat) : Nat := max 1 ((2 * dt * nom.2 + nom.1) / (2 * nom.1))

/-- A record of a period that has not been seen opens it; the same six bits 64 periods on are another period. -/
def openPeriod (nom : Nat × Nat) (r : TapRecord) (m : Metro) : Metro :=
  let near := match m.ctl.lastTap with
    | some t0 => decide ((r.stamp - t0) * nom.2 < 32 * nom.1)
    | none => true
  if m.ctl.curPeriod = some r.period ∧ near = true then m
  else
    let n := match m.ctl.lastTap with
      | some t0 => periodsIn nom (r.stamp - t0)
      | none => 1
    (periodElapsed nom r.stamp n m).onCtl fun c => { c with curPeriod := some r.period }

/-- Channel, 1-32, of a serial. -/
def channelOf (m : Metro) (serial : U32) : Option Nat :=
  if serial = 0 then none else (findPos (fun (c : DcChan) => c.serial == serial) m.dc).map (· + 1)

/-- The checks of R228 on a record of channel ch. -/
def judgeRecord (r : TapRecord) (ch : Nat) (m : Metro) : Metro :=
  let c := nth m.dc (ch - 1)
  let reject := fun (n : Nat) (m : Metro) =>
    m.onDc (ch - 1) fun (c : DcChan) => { c with rejected := c.rejected + BitVec.ofNat 32 n, seenNow := true, held := none }
  if c.seenNow then logEntry 0xE ch (leBytes 4 r.serial.toNat) (reject (if c.held.isSome then 2 else 1) m)
  else if r.status ≠ 0 then reject 1 m
  else
    let late := match c.lastSeq with
      | some q => !c.restart && r.seq != q + BitVec.ofNat 16 c.missing
      | none => false
    if late then (reject 1 m).onDc (ch - 1) fun (c : DcChan) => { c with restart := true }
    else
      m.onDc (ch - 1) fun (c : DcChan) =>
        { c with seenNow := true, held := some (r.voltage.toInt, r.current.toInt, r.seq, BitVec.ofNat 8 r.link.toNat) }

/-- A tap record reaches the section. -/
def takeTap (nom : Nat × Nat) (r : TapRecord) (m : Metro) : Metro :=
  if !(tapGood r) then m.onCtl fun c => { c with crcErrors := c.crcErrors + 1 }
  else if !(advances m) then m
  else
    let m := openPeriod nom r m
    let m := { m with ac := (let a := m.ac; { a with winPeriod := a.winPeriod.orElse fun _ => some r.period }) }
    match channelOf m r.serial with
    | some ch => judgeRecord r ch m
    | none => m

end Sys2Proof.Machine
end

