-- ==== Sys2Proof/Machine/BillOps.lean ====
section
/-! DEFINITION. Shared operations of billing: signed records (R264, R265), demand windows (R257), the boundaries of a milestone (R259, R261,
R263), the balance check (R247) and the commit of a milestone (R221). -/

namespace Sys2Proof.Machine

/-! ## Signed records (Table 12.10) -/

/-- Register i of group g. -/
def regOf (r : BillRegs) (g i : Nat) : Nat := nth (nth r.groups g) i

/-- A record is signed, kept among the last 4,096 and sent as SIGNED. -/
def signRecord (body : Nat → List Byte) (m : Metro) : Metro :=
  let n := m.bill.record + 1
  let b := (padTo 144 (body n.toNat)).take 144
  let r : SignedRecord := { number := n, body := b, signature := Config.signRecord b }
  (m.onBill fun k => { k with record := n, records := (r :: k.records).take 4096 }).onCtl fun c => { c with txSigned := some r }

/-- Eight 6-byte tariff fields of registers i to i + 7 of a group, less those of a base. -/
def tariffBytes (r : BillRegs) (g i : Nat) (base : List Nat) : List Byte :=
  (List.range 8).flatMap fun k => leBytes 6 (regOf r g (i + k) - nth base (i + k))

/-- Body of a session record of channel ch that ends at legal time e with extra FLAGS f. -/
def sessionBody (r : BillRegs) (ch : Nat) (x : MetSession) (e f n : Nat) : List Byte :=
  let flags := f ||| x.flags.toNat ||| (if x.commissioning then 8 else 0)
  [1] ++ leBytes 1 flags ++ leBytes 1 ch ++ [0] ++ leBytes 2 x.account.toNat ++ [0, 0] ++ leBytes 4 x.id.toNat ++ leBytes 4 n
    ++ leBytes 8 x.start.toNat ++ leBytes 8 e ++ leBytes 8 (regOf r ch 0 - nth x.base 0) ++ leBytes 8 (regOf r ch 1 - nth x.base 1)
    ++ tariffBytes r ch 2 x.base ++ tariffBytes r ch 10 x.base

/-- The session record of channel ch, where a session is open. -/
def sessionRecord (e f : Nat) (m : Metro) (ch : Nat) : Metro :=
  match nth m.bill.regs.sessions (ch - 1) with
  | some x => signRecord (sessionBody m.bill.regs ch x e f) m
  | none => m

/-- Channels with an open session. -/
def openChannels (r : BillRegs) : List Nat := ((List.range 32).filter fun i => (nth r.sessions i).isSome).map (· + 1)

/-- Head of a close record of group g. -/
def closeHead (r : BillRegs) (ty g e f n : Nat) : List Byte :=
  leBytes 1 ty ++ leBytes 1 (f ||| nth r.spanFlags g) ++ leBytes 2 g ++ [0xFF, 0xFF, 0, 0] ++ leBytes 4 (regOf r g 26 + 1) ++ leBytes 4 n
    ++ leBytes 8 r.lastClose ++ leBytes 8 e

/-- Energy record of a billing close. -/
def energyBody (r : BillRegs) (g e f n : Nat) : List Byte :=
  closeHead r 2 g e f n ++ leBytes 8 (regOf r g 0) ++ leBytes 8 (regOf r g 1) ++ tariffBytes r g 2 [] ++ tariffBytes r g 10 []

/-- Demand record of a billing close. -/
def demandBody (r : BillRegs) (g e f n : Nat) : List Byte :=
  closeHead r 3 g e f n ++ leBytes 4 (regOf r g 20) ++ leBytes 4 (regOf r g 21) ++ leBytes 8 (regOf r g 22) ++ leBytes 8 (regOf r g 23)
    ++ leBytes 4 r.winClosed ++ leBytes 4 r.winBad

/-- Groups with an energy record at a close: hub, channels, unleased, and the accounts with a non-zero total. -/
def closeGroups (r : BillRegs) : List Nat :=
  List.range 33 ++ [289] ++ ((List.range 256).map (· + 33)).filter fun g => regOf r g 0 != 0 || regOf r g 1 != 0

/-- All records of a billing close at legal time e: energy, demand, and an interim record of every open session (R252, R265). -/
def closeRecords (e f : Nat) (m : Metro) : Metro :=
  let r := m.bill.regs
  let m := (closeGroups r).foldl (fun m g => signRecord (energyBody r g e f) m) m
  let m := (List.range 33).foldl (fun m g => signRecord (demandBody r g e f) m) m
  (openChannels r).foldl (sessionRecord e (f ||| 16)) m

/-- A group after a billing close. -/
def closeGroup (l : List Nat) : List Nat :=
  l.mapIdx fun i v =>
    if i = 24 then nth l 0 else if i = 25 then nth l 1 else if i = 26 then v + 1 else if 20 ≤ i ∧ i ≤ 23 then 0 else v

/-- A billing close at legal time e (ticks); FLAGS bit 0 where it runs after an outage (R258). -/
def billingClose (outage : Bool) (e : Nat) (m : Metro) : Metro :=
  let m := cutGaps m
  let first := m.bill.record.toNat + 1
  let m := closeRecords e (if outage then 1 else 0) m
  let m := m.onRegs fun r =>
    { r with groups := r.groups.mapIdx fun g l => if g < 290 then closeGroup l else l
             winClosed := 0, winBad := 0, spanFlags := List.replicate 290 0, lastClose := e, flags := r.flags &&& 0x2 }
  logEntry 0x10 0xFF (leBytes 4 (regOf m.bill.regs 0 26) ++ leBytes 4 first) m

/-! ## Demand windows (R257) -/

/-- Seconds of the window an average power is taken over, in crystal cycles: nominal, or measured where the window is stepped and complete;
spans of the window, newest first. -/
def windowCycles (m : Metro) (spans : List WinSpan) : Nat :=
  let stepped := (spans.any (·.stepped)) && !(spans.any (·.incomplete))
  if stepped then sumNat (spans.map (·.cycles)) else demandMin m * 60 * secCycles

/-- D in W of e mWh over t cycles. -/
def demandOf (e t : Nat) : Nat := if t = 0 then (Config.divByZero e).toNat else e * 36 * secCycles / (10 * t)

/-- Registers 18-23 of group g after a window with demands di, de that ends at t (ticks). -/
def demandRegs (di de t : Nat) (l : List Nat) : List Nat :=
  let l := put (put l 18 di) 19 de
  let l := if nth l 20 < di then put (put l 20 di) 22 t else l
  if nth l 21 < de then put (put l 21 de) 23 t else l

/-- Energy of the last k sub-intervals. -/
def windowEnergy (k : Nat) (w : DemandWin) : Nat := sumNat (w.subs.take k)

/-- A new sub-interval begins; k are kept. -/
def nextSub (k : Nat) (w : DemandWin) : DemandWin := { subs := (0 :: w.subs).take k }

/-- The running span closed at crystal cycle c, measured from its start. -/
def endSpan (c : Nat) : List WinSpan → List WinSpan
  | x :: xs => { x with cycles := c - x.cycles } :: xs
  | [] => []

/-- The window or sub-interval that ends at legal time t (ticks). -/
def closeWindow (t : Nat) (m : Metro) : Metro :=
  let k := demandSubs m
  let spans := (endSpan m.ctl.cycles m.bill.regs.winSpans).take k
  let n := windowCycles m spans
  let bad := spans.any (·.incomplete)
  let stepped := spans.any (·.stepped)
  let m := { m with ac := (let a := m.ac; { a with winDemand := true }) }
  m.onRegs fun r =>
    let r := if stepped then (List.range 33).foldl (fun r ch => markChannel ch 5 r) r else r
    { r with
      groups := r.groups.mapIdx fun g l =>
        if g < 33 then demandRegs (demandOf (windowEnergy k (nth r.winImp g)) n) (demandOf (windowEnergy k (nth r.winExp g)) n) t l else l
      winImp := r.winImp.map (nextSub k), winExp := r.winExp.map (nextSub k)
      winSpans := ({ cycles := m.ctl.cycles, stepped := false, incomplete := false } :: spans).take (max k 1)
      winStart := t, winClosed := r.winClosed + 1, winBad := if bad then r.winBad + 1 else r.winBad }

/-- A window wholly inside an outage: no demand value (R261). -/
def skipWindow (t : Nat) (m : Metro) : Metro := m.onRegs fun r => { r with winStart := t }

/-! ## Boundaries (R259) -/

/-- State of a run over the boundaries of a span: whether legal time was unset, windows seen and skipped, kinds seen (bits 0 window, 1 close,
2 calendar, 3 tariff). -/
structure BoundRun where
  m : Metro
  outage : Bool
  windows : Nat
  skipped : Nat
  kinds : Nat
  deriving DecidableEq, Repr, Inhabited

/-- Step 2 at legal second t. -/
def boundWindow (t : Nat) (b : BoundRun) : BoundRun :=
  if t % demandSeconds b.m ≠ 0 then b
  else if b.outage && decide (0 < b.windows) then
    { b with m := skipWindow (t * 32768) b.m, windows := b.windows + 1, skipped := b.skipped + 1, kinds := b.kinds ||| 1 }
  else { b with m := closeWindow (t * 32768) b.m, windows := b.windows + 1, kinds := b.kinds ||| 1 }

/-- A billing close falls at legal second t (R255, R258). -/
def closeDue (m : Metro) (t : Nat) : Bool :=
  match m.bill.active with
  | some c => decide (closeIndex c.image (localSecond c.image (t - 60)) < closeIndex c.image (localSecond c.image t))
  | none => false

/-- Step 3. -/
def boundClose (t : Nat) (b : BoundRun) : BoundRun :=
  if closeDue b.m t then { b with m := billingClose b.outage (t * 32768) b.m, kinds := b.kinds ||| 2 } else b

/-- Step 4: the passive calendar that is due becomes active (R256). -/
def boundCalendar (t : Nat) (b : BoundRun) : BoundRun :=
  match b.m.bill.passive with
  | some c =>
    if calActivation c.image ≤ t * 32768 then
      let m := b.m.onBill fun k => { k with active := some c, passive := none }
      { b with m := logEntry 0xA 0xFF (leBytes 4 (calId c.image) ++ leBytes 8 (calActivation c.image)) m, kinds := b.kinds ||| 4 }
    else b
  | none => b

/-- Step 5: the tariff the calendar in force gives for the instant. -/
def boundTariff (t : Nat) (b : BoundRun) : BoundRun :=
  match b.m.bill.active with
  | some c =>
    let k := tariffOf c.image t
    if k = b.m.bill.regs.tariff then b else { b with m := b.m.onRegs fun r => { r with tariff := k }, kinds := b.kinds ||| 8 }
  | none => b

/-- Steps 2-5 at legal second t; the high-water mark follows the latest boundary. -/
def boundaryAt (t : Nat) (b : BoundRun) : BoundRun :=
  let c := boundTariff t (boundCalendar t (boundClose t (boundWindow t { b with kinds := 0 })))
  let c := if c.kinds = 0 then c else { c with m := c.m.onRegs fun r => { r with hwm := t * 32768 } }
  { c with kinds := c.kinds ||| b.kinds }

/-- Whole minutes after second a and up to second b. -/
def minutesIn (a b : Nat) : List Nat := (List.range (b / 60 - a / 60)).map fun i => (a / 60 + 1 + i) * 60

/-- The first legal time: the running window is the one that holds it, and no boundary before it runs. -/
def firstMark (now : Nat) (m : Metro) : Metro :=
  let t := now / demandSeconds m * demandSeconds m * 32768
  m.onRegs fun r =>
    { r with hwm := t, winStart := t, winImp := List.replicate 33 { subs := [0] }, winExp := List.replicate 33 { subs := [0] }
             winSpans := [{ cycles := m.ctl.cycles, stepped := false, incomplete := true }] }

/-- Every boundary after the high-water mark and up to the present legal time, in order. -/
def runBoundaries (outage : Bool) (m : Metro) : BoundRun :=
  let now := m.ctl.legal / secCycles
  let b : BoundRun := { m := m, outage := outage, windows := 0, skipped := 0, kinds := 0 }
  if !m.ctl.legalSet then b
  else if m.bill.regs.hwm = 0 then { b with m := firstMark now m }
  else (minutesIn (m.bill.regs.hwm / 32768) now).foldl (fun b t => boundaryAt t b) b

/-! ## Commit (R221, R247) -/

/-- Total of register i over groups a to b. -/
def sumGroups (r : BillRegs) (a b i : Nat) : Nat := sumNat ((List.range (b + 1 - a)).map fun k => regOf r (a + k) i)

/-- First violation of R247: rule and group. -/
def balanceFault (r : BillRegs) : Option (Nat × Nat) :=
  match (List.range 290).find? fun g =>
      regOf r g 0 != sumNat ((List.range 8).map fun k => regOf r g (2 + k))
        || regOf r g 1 != sumNat ((List.range 8).map fun k => regOf r g (10 + k)) with
  | some g => some (1, g)
  | none => ((List.range 18).find? fun i => sumGroups r 33 289 i != sumGroups r 1 32 i).map fun i => (2, i)

/-- The balance check before a commit. -/
def balanceCheck (m : Metro) : Metro :=
  match balanceFault m.bill.regs with
  | some (rule, g) =>
    logEntry 0x15 0xFF (leBytes 1 rule ++ leBytes 2 g) (m.onRegs fun r => { addReg 291 10 1 r with flags := r.flags ||| 1 })
  | none => m

/-- Billing flags (Table 12.15). -/
def billFlags (m : Metro) : Nat :=
  (m.bill.regs.flags &&& 0x27)
    + flagBits [(3, m.bill.active.isNone), (4, m.bill.passive.isSome), (6, logFull m)]

/-- CAL_ID of a calendar slot, 0 for none. -/
def calOf (c : Option Calendar) : Nat :=
  match c with
  | some x => calId x.image
  | none => 0

/-- Group 291 as a commit holds it (Table 12.3). -/
def statusGroup (m : Metro) : List Nat :=
  let r := m.bill.regs
  [r.tariff, demandMin m * 60, if demandSliding m then 1 else 0, r.winStart, r.hwm, billFlags m, calOf m.bill.active, calOf m.bill.passive,
    (m.bill.passive.map fun c => calActivation c.image).getD 0, m.bill.record.toNat, regOf r 291 10] ++ List.replicate 17 0

/-- Energies of the interval in 2^-32 mWh: hub, then channels. -/
def intervalMeans (t : Nat × Nat) (m : Metro) : List (Nat × Nat) :=
  (m.ac.ivImp.toNat, m.ac.ivExp.toNat)
    :: m.dc.map fun c => ((energyOf c.sumImp.toNat t).toNat, (energyOf c.sumExp.toNat t).toNat)

/-- The image of the registers as they stand. -/
def makeImage (t : Nat × Nat) (pf : Bool) (m : Metro) : MetImage :=
  let regs := m.bill.regs
  { number := m.ctl.milestone + 1, legal := if m.ctl.legalSet then some (legalTicks m.ctl) else none
    regs := { regs with groups := put regs.groups 291 (statusGroup m) }
    residues := (m.ac.imp, m.ac.exp) :: m.dc.map fun c => (c.imp, c.exp)
    means := intervalMeans t m, span := m.ctl.cycles - m.ctl.ivStart, pf := pf, delta := m.ctl.delta }

/-- Register CRC of a milestone record. -/
def imageCrc (i : MetImage) : U32 := crc32 (i.regs.groups.flatMap fun l => l.flatMap (leBytes 8))

/-- Copy A is written next: the commit alternates between the copies. -/
def nextIsA (c : MetCtl) : Bool :=
  match c.copyA, c.copyB with
  | none, _ => true
  | some _, none => false
  | some a, some b => decide (a.number < b.number)

/-- Every pending measurement of the interval starts again with T_m as the weight of the next. -/
def newInterval (t : Nat × Nat) (m : Metro) : Metro :=
  let m := { m with dc := m.dc.map fun (c : DcChan) => { c with sumImp := 0, sumExp := 0 }
                    ac := (let a := m.ac; { a with ivImp := 0, ivExp := 0 }) }
  m.onCtl fun c => { c with tPrev := some t, ivStart := c.cycles, firstTap := c.lastTap, tapPeriods := 0 }

/-- The commit succeeds: the image is held, the milestone record leaves. -/
def commitOk (i : MetImage) (m : Metro) : Metro :=
  let m := m.onCtl fun c =>
    if nextIsA c then { c with copyA := some i } else { c with copyB := some i }
  let m := m.onRegs fun _ => i.regs
  m.onCtl fun c =>
    { c with milestone := i.number, commitFails := 0
             txMilestone := some (BitVec.ofNat 64 i.number, BitVec.ofNat 64 (i.legal.getD 0), imageCrc i) }

/-- The section halts with a cause: open gaps are recorded and the halt is logged. -/
def haltMet (cause : Nat) (m : Metro) : Metro :=
  let m := cutGaps m
  let m := logEntry 2 0xFF [BitVec.ofNat 8 cause] m
  m.onCtl fun c => { c with st := .halted, halt := BitVec.ofNat 8 cause, legalSet := false, pfPending := false }

/-- A commit with every row verified, or with a failing row: a redundant row replaces it while one is left, else the commit fails, and the
second failure in a row halts the section (R221). -/
def commitImage (i : MetImage) (rowsOk : Bool) (m : Metro) : Metro :=
  if rowsOk then commitOk i m
  else if 0 < m.ctl.rows then commitOk i (m.onCtl fun c => { c with rows := c.rows - 1 })
  else if 1 ≤ m.ctl.commitFails then haltMet 3 (m.onCtl fun c => { c with commitFails := c.commitFails + 1 })
  else m.onCtl fun c => { c with commitFails := c.commitFails + 1 }

/-- Measured mean period of the interval, none before two periods were timed. -/
def measured (c : MetCtl) : Option (Nat × Nat) :=
  match c.firstTap, c.lastTap with
  | some a, some b => if c.tapPeriods = 0 then none else some (b - a, c.tapPeriods)
  | _, _ => none

/-- Correction of one channel and direction: its powers weighted by T_m instead of T_{m-1}. -/
def correctRows (tm tw : Nat × Nat) (m : Metro) (ch d : Nat) : Metro :=
  let c := nth m.dc (ch - 1)
  let p := (if d = 0 then c.sumImp else c.sumExp).toNat
  let n : Int := (p * 2 ^ 32 * 10 : Nat) * ((tm.1 * tw.2 : Nat) - (tw.1 * tm.2 : Nat) : Int)
  let u := roundDiv n (joule144 * (max 1 tm.2 * max 1 tw.2))
  if u = 0 then m else accumulate ch d u m.ctl.cycles 0 m

/-- The period-weight correction of R229 on every channel and direction. -/
def correctAll (tm tw : Nat × Nat) (m : Metro) : Metro :=
  (List.range 32).foldl (fun m i => correctRows tm tw (correctRows tm tw m (i + 1) 0) (i + 1) 1) m

/-- Deviation of T_m from the nominal period, 0.1 ppm (R18); above 100 ppm it is flagged and logged. -/
def judgePeriod (tm nom : Nat × Nat) (m : Metro) : Metro :=
  let d := roundDiv (((tm.1 * nom.2 : Nat) - (nom.1 * tm.2 : Nat) : Int) * 10000000) (max 1 (nom.1 * tm.2))
  let m := m.onCtl fun c => { c with deviation := d }
  let far := 1000 * (nom.1 * tm.2) < ((tm.1 * nom.2 : Nat) - (nom.1 * tm.2 : Nat) : Int).natAbs * 10000000
  if far then logEntry 0x12 0xFF (leBytesInt 4 d) (m.onCtl fun c => { c with periodDev := true }) else m

/-- A milestone at the present instant (R221): correction, boundaries, balance check, commit, record. -/
def takeMilestone (nom : Nat × Nat) (pf rowsOk : Bool) (m : Metro) : Metro :=
  let tw := weight nom m
  let tm := (measured m.ctl).getD tw
  let m := if (measured m.ctl).isSome then judgePeriod tm nom (correctAll tm tw m) else m
  let m := balanceCheck (runBoundaries false m).m
  newInterval tm (commitImage (makeImage tm pf m) rowsOk m)

end Sys2Proof.Machine
end

