-- ==== Sys2Proof/Machine/MetSess.lean ====
section
/-! DEFINITION. Metrology sessions (R250, R251): what the section does on SESSION, and the sessions the active lane opens and closes for
bays, strings and commissioning. -/

namespace Sys2Proof.Machine

/-- The section is running. -/
def metRuns (m : Metro) : Bool := m.ctl.st != .halted

/-! ## SESSION in the section (R250) -/

/-- The channel's registers 0-17. -/
def baseRegs (r : BillRegs) (ch : Nat) : List Nat := (nth r.groups ch).take 18

/-- SESSION open. -/
def sessionOpen (com : Bool) (ch : Nat) (acct : U16) (sid : U32) (m : Metro) : Metro × Nat × List Byte :=
  if ch = 0 ∨ 32 < ch ∨ sid = 0 ∨ (255 < acct.toNat ∧ acct ≠ 0xFFFF) then (m, 5, [])
  else
    match nth m.bill.regs.sessions (ch - 1) with
    | some x => (m, if x.id = sid then 0 else 5, [])
    | none =>
      let x : MetSession :=
        { id := sid, account := acct, commissioning := com, start := if m.ctl.legalSet then BitVec.ofNat 64 (legalTicks m.ctl) else 0
          base := baseRegs m.bill.regs ch, flags := 0 }
      (m.onRegs fun r => { r with sessions := put r.sessions (ch - 1) (some x) }, 0, [])

/-- SESSION close: the session ends with its signed record. -/
def sessionClose (ch : Nat) (sid : U32) (m : Metro) : Metro × Nat × List Byte :=
  if ch = 0 ∨ 32 < ch then (m, 5, [])
  else
    match nth m.bill.regs.sessions (ch - 1) with
    | some x =>
      if x.id = sid then
        let e := if m.ctl.legalSet then legalTicks m.ctl else 0
        ((sessionRecord e 0 m ch).onRegs fun r => { r with sessions := put r.sessions (ch - 1) none }, 0, [])
      else (m, 5, [])
    | none => (m, 5, [])

/-! ## Sessions of the active lane (R251) -/

/-- The active lane sends a SESSION message the section serves while it runs. -/
def meterSend (f : Metro → Metro) (s : State) : State := if metRuns s.met then { s with met := f s.met } else s

/-- Account a session opens with: 0xFFFF in place of one that is not enabled. -/
def meterAccount (s : State) (a : U16) : U16 := if a = 0xFFFF ∨ cfgN s (0x4300 + a.toNat) 0x1F = 0 then 0xFFFF else a

/-- SESSION open on channel ch; an account that is not enabled leaves an event. -/
def meterOpen (com : Bool) (ch : Nat) (a : U16) (sid : U32) (s : State) : State :=
  let b := meterAccount s a
  let s := if b = a then s else evt (eventReq .accountDisabled 0 [a.toNat, ch]) s
  meterSend (fun m => (sessionOpen com ch b sid m).1) s

/-- SESSION close of the session open on channel ch. -/
def meterClose (ch : Nat) (s : State) : State :=
  match nth s.met.bill.regs.sessions (ch - 1) with
  | some x => meterSend (fun m => (sessionClose ch x.id m).1) s
  | none => s

/-- A SESSION_ID the lane chooses for a string or a commissioning session: any but 0. -/
def meterId (s : State) : U32 := BitVec.ofNat 32 (1 + Config.freeNat s.free % (2 ^ 32 - 1))

/-- A session of the lane's own on channel ch takes the place of the one open there. -/
def meterReopen (com : Bool) (ch : Nat) (a : U16) (s : State) : State :=
  let id := meterId s
  meterOpen com ch a id (meterClose ch (s.useFree 1))

/-- The session of string i on its account (object 31A0+i:0D). -/
def meterString (s : State) (i : Nat) : State := meterReopen false (25 + i) (BitVec.ofNat 16 (strN s i 0xD)) s

/-- The section has reported READY: every string's session is opened anew. -/
def meterReady (s : State) : State :=
  if s.met.ctl.st = .ready ∧ !s.met.ctl.reported then
    let s := ((List.range 8).filter (strUsed s)).foldl meterString s
    { s with met := (let m := s.met; m.onCtl fun c => { c with reported := true }) }
  else s

/-! ## The handover of a calendar (R254, R256) -/

/-- The check code of a calendar on receipt: checks 1-7, then 8, which needs a set legal time. -/
def receiptCheck (b : List Byte) (m : Metro) : Nat :=
  let k := calCheck b
  if k ≠ 0 then k
  else if m.ctl.legalSet && calActivation b % (3600 * 32768) == 0 && decide (legalTicks m.ctl + 60 * 32768 ≤ calActivation b) then 0
  else 8

/-- A whole calendar: it becomes passive, or its check code is reported. -/
def takeCalendar (b : List Byte) (m : Metro) : Metro × Nat × List Byte :=
  let k := receiptCheck b m
  if k = 0 then
    let c : Calendar := { image := b, crc := BitVec.ofNat 32 (field b (b.length - 4) 4) }
    let m := m.onBill fun x => { x with passive := some c, calResult := 0, partialCal := none }
    (logEntry 9 0xFF (leBytes 4 (calId b) ++ leBytes 8 (calActivation b)) m, 0, [])
  else
    let m := m.onBill fun x => { x with calResult := BitVec.ofNat 8 k, partialCal := none }
    (logEntry 0xB 0xFF (leBytes 4 (calId b) ++ leBytes 1 k) m, 5, [])

/-- Neither calendar the section holds has the CAL_ID and the CRC of the image. -/
def calendarNew (b : List Byte) (m : Metro) : Bool :=
  let known := fun (o : Option Calendar) =>
    match o with
    | some c => calId c.image == calId b && c.crc == BitVec.ofNat 32 (field b (b.length - 4) 4)
    | none => false
  !b.isEmpty && !(known m.bill.active) && !(known m.bill.passive)

/-- The active lane hands object 4200 over where the section does not hold it; its CALENDAR messages take effect at once. -/
def handCalendar (s : State) : State :=
  let b := cfgBytes s 0x4200 0
  if calendarNew b s.met then meterSend (fun m => (takeCalendar b m).1) s else s

/-- What the active lane does at the section's first READY report. -/
def readyReported (s : State) : State := if s.met.ctl.reported then s else meterReady (handCalendar s)

/-- Channel of a loop: bays 1-24, strings 25-32. -/
def meterChannel : LoopId → Option Nat
  | .bay i => some (i.val + 1)
  | .string i => some (i.val + 25)
  | _ => none

/-- A loop is enabled in COMMISSION: a commissioning session with 0xFFFF on its channel. -/
def meterCommission (i : LoopId) (s : State) : State :=
  match meterChannel i with
  | some ch =>
    if s.modes.mode ≠ .commission then s
    else
      match nth s.met.bill.regs.sessions (ch - 1) with
      | some x => if x.commissioning then s else meterReopen true ch 0xFFFF s
      | none => meterReopen true ch 0xFFFF s
  | none => s

/-- Outside COMMISSION no commissioning session stays open; a string's own session follows it. -/
def meterLeave (s : State) (i : Nat) : State :=
  match nth s.met.bill.regs.sessions i with
  | some x =>
    if x.commissioning then
      let s := meterClose (i + 1) s
      if 24 ≤ i ∧ strUsed s (i - 24) then meterString s (i - 24) else s
    else s
  | none => s

/-- The metrology sessions at a period boundary. -/
def meterPeriod (s : State) : State :=
  if s.modes.mode = .commission ∨ s.modes.mode = .boot ∨ s.modes.mode = .backup ∨ !(metRuns s.met) then s
  else (List.range 32).foldl meterLeave s

end Sys2Proof.Machine
end

