-- ==== Sys2Proof/Machine/Metrology.lean ====
section
/-! DEFINITION. The metrology section's own events (chapter 11): halts and starts, milestones, energy samples, voltage events, grid status,
tap records, pulses, reconciliation and SEAL. -/

namespace Sys2Proof.Machine

/-! ## Halts and starts (R215-R217, R220, R252) -/

/-- Own monitor below 1.690 V: the power-fail milestone of R216 where neither a warning's commit is in progress nor one was done, then
HALTED with cause 1; a section halted for another cause takes cause 1, since it restarts by VMET from here. -/
def vmetWarning (nom : Nat × Nat) (m : Metro) : Metro :=
  let m := m.onCtl fun c => { c with vmetLow := true }
  if !(metRuns m) then (if m.ctl.halt = 2 ∨ m.ctl.halt = 3 then logEntry 2 0xFF [1] (m.onCtl fun c => { c with halt := 1 }) else m)
  else haltMet 1 (if !m.ctl.pfPending && !m.ctl.pfDone then takeMilestone nom true true (cutGaps m) else m)

/-- METROLOGY_VMET_WARNING. -/
def execMetrologyVmetWarning (s : State) : Host.Outcome State Fault Refusal := .next (modMet (vmetWarning (nominalPeriod s)) s)

/-- The crystal is lost: a milestone of the registers as they stand, then HALTED with cause 2 (R217). -/
def crystalLost (nom : Nat × Nat) (m : Metro) : Metro :=
  let m := m.onCtl fun c => { c with clockLost := true }
  if metRuns m then haltMet 2 (takeMilestone nom false true (cutGaps m)) else m

/-- METROLOGY_CRYSTAL_LOST. -/
def execMetrologyCrystalLost (s : State) : Host.Outcome State Fault Refusal := .next (modMet (crystalLost (nominalPeriod s)) s)

/-- The valid copy with the higher milestone number (R221). -/
def loadedImage (f : MetroStartFacts) (c : MetCtl) : Option MetImage :=
  let a := if f.copyAOk then c.copyA else none
  let b := if f.copyBOk then c.copyB else none
  match a, b with
  | some x, some y => some (if x.number < y.number then y else x)
  | some x, none => some x
  | none, y => y

/-- The registers and residues of an image. -/
def restoreImage (i : MetImage) (m : Metro) : Metro :=
  let m := m.onRegs fun _ => i.regs
  let m := m.onCtl fun c => { c with milestone := i.number, delta := i.delta, loaded := some i }
  let h := nth i.residues 0
  { m with ac := (let a := m.ac; { a with imp := h.1, exp := h.2 })
           dc := m.dc.mapIdx fun c (d : DcChan) => let r := nth i.residues (c + 1); { d with imp := r.1, exp := r.2 } }

/-- Sessions open at the loaded milestone close with FLAGS bit 0 (R252). -/
def closeAfterHalt (m : Metro) : Metro :=
  let e := (m.ctl.loaded.bind fun i => i.legal).getD 0
  let m := (openChannels m.bill.regs).foldl (sessionRecord e 1) m
  m.onRegs fun r => { r with sessions := List.replicate 32 none }

/-- A DC channel that starts its count again. -/
def DcChan.fresh (c : DcChan) : DcChan :=
  { c with sumImp := 0, sumExp := 0, last := none, lastSeq := none, missing := 0, restart := true, gapDone := 0, gapEst := false
           seenNow := false, held := none, recent := [] }

/-- Latches handed over while the section was in NO_CAL are logged at its start (R297). -/
def logTamperDue (m : Metro) : Metro :=
  match m.ctl.tamperDue with
  | some l => if advances m then logEntry 0x14 0xFF [l.setWidth 8] (m.onCtl fun c => { c with tamperDue := none }) else m
  | none => m

/-- MRAM loaded: the valid copy with the higher number. -/
def loadMet (f : MetroStartFacts) (m : Metro) : Metro :=
  match loadedImage f m.ctl with
  | some i => restoreImage i m
  | none => m.onCtl fun c => { c with loaded := none }

/-- Every measurement starts afresh. -/
def freshMet (m : Metro) : Metro :=
  { m with dc := m.dc.map DcChan.fresh
           ac := (let a := m.ac; { a with ivImp := 0, ivExp := 0, inProgress := [], winPeriod := none, winDemand := false }) }

/-- The demand window that stands open goes on as an incomplete one. -/
def resumeWindow (m : Metro) : Metro :=
  m.onRegs fun r => { r with winSpans := match r.winSpans with
                              | x :: xs => { x with cycles := m.ctl.cycles, incomplete := true } :: xs
                              | [] => [] }

/-- The section's control fields as it starts in state st. -/
def startCtl (st : MetroSt) (c : MetCtl) : MetCtl :=
  { c with st := st, halt := 0, calBad := st == .noCal, legalSet := false, slew := 0, unsetFor := 0, ivStart := c.cycles, tPrev := none
           firstTap := none, lastTap := none, tapPeriods := 0, curPeriod := none, commitFails := 0, pfPending := false, pfDone := false
           reported := false }

/-- The section starts: MRAM loaded, legal time unset, every measurement fresh (R215, R220). -/
def startMet (f : MetroStartFacts) (m : Metro) : Metro :=
  let st : MetroSt := if f.calOk && f.cfgOk then .start else .noCal
  let m := (resumeWindow (freshMet (closeAfterHalt (loadMet f m)))).onCtl (startCtl st)
  logTamperDue (logEntry 1 0xFF ([if st = .start then 0 else 2] ++ leBytes 8 m.ctl.milestone) m)

/-- METROLOGY_START: VMET back for 1 ms; a section halted for its crystal waits for METROLOGY_CRYSTAL_RETURN. -/
def execMetrologyStart (facts : MetroStartFacts) (s : State) : Host.Outcome State Fault Refusal :=
  .next (if s.met.ctl.st = .halted ∧ s.met.ctl.halt ≠ 2 then modMet (startMet facts) s else s)

/-- METROLOGY_CRYSTAL_RETURN: back to START, from memory that stayed powered; NO_CAL where a CRC was last found wrong (R215). -/
def execMetrologyCrystalReturn (s : State) : Host.Outcome State Fault Refusal :=
  .next (if s.met.ctl.st = .halted ∧ s.met.ctl.halt = 2 then
    modMet (fun m => startMet { copyAOk := true, copyBOk := true, calOk := !m.ctl.calBad, cfgOk := true } m) s else s)

/-! ## Milestones (R221, R260, R293) -/

/-- The crystal runs on n cycles, legal time with it. -/
def runCycles (n : Nat) (c : MetCtl) : MetCtl := { c with cycles := c.cycles + n, legal := c.legal + n }

/-- Cycles from now to the next milestone: the whole second of legal time after the interval began, or a second of cycles while it is
unset. -/
def toMilestone (c : MetCtl) : Nat :=
  if c.legalSet then ((c.legal - (c.cycles - c.ivStart)) / secCycles + 1) * secCycles - c.legal
  else c.ivStart + secCycles - c.cycles

/-- MILESTONE: the clock stands at the second; one commit serves a power-fail warning within 1.5 ms too. -/
def milestoneMet (nom : Nat × Nat) (rowsOk : Bool) (m : Metro) : Metro :=
  if !(metRuns m) then m
  else
    let pf := m.ctl.pfPending
    let m := m.onCtl fun c => runCycles (toMilestone c) c
    let m := takeMilestone nom pf rowsOk (if pf then cutGaps m else m)
    if pf then m.onCtl fun c => { c with pfPending := false, pfDone := true } else m

/-- MILESTONE. -/
def execMilestone (commitOk : Bool) (s : State) : Host.Outcome State Fault Refusal :=
  .next (recheckSpares (modMet (milestoneMet (nominalPeriod s) commitOk) s))

/-- POWER_FAIL_MILESTONE: at the warning, or at the milestone that falls within 1.5 ms. -/
def powerFailMet (nom : Nat × Nat) (m : Metro) : Metro :=
  if !m.ctl.pfPending || !(metRuns m) then m
  else
    let near := decide (toMilestone m.ctl ≤ 36864)
    let m := if near then m.onCtl fun c => runCycles (toMilestone c) c else m
    (takeMilestone nom true true (cutGaps m)).onCtl fun c => { c with pfPending := false, pfDone := true }

/-- POWER_FAIL_MILESTONE. -/
def execPowerFailMilestone (s : State) : Host.Outcome State Fault Refusal := .next (modMet (powerFailMet (nominalPeriod s)) s)

/-! ## AC incomer (R223-R225) -/

/-- An AC energy sample ends: the values reported, then its energy to the direction of its sign unless every used phase stays below
0.001 I_n (R231). -/
def acSample (x : AcSample) (m : Metro) : Metro :=
  if !(metRuns m) then m
  else
    let m := { m with ac := (let a := m.ac; { a with volts := x.volts, amps := x.amps, vars := x.vars, va := x.va }) }
    let small := x.usedCurrents.all fun i => decide (i * 1000 < m.ac.rated.toNat)
    if !(advances m) || small then m
    else
      let m := { m with ac := (let a := m.ac
                               { a with ivImp := a.ivImp + max 0 x.energy, ivExp := a.ivExp + max 0 (-x.energy) }) }
      creditSample 0 x.energy (m.ctl.cycles - x.cycles) x.cycles m

/-- AC_ENERGY_SAMPLE. -/
def execAcEnergySample (x : AcSample) (s : State) : Host.Outcome State Fault Refusal := .next (modMet (acSample x) s)

/-- The wiring mode detects the event (Table 11.2). -/
def detects (m : Metro) (k : VoltEvent) : Bool := (k != .phaseSequence && k != .missingNeutral) || m.ac.wiring == 2

/-- A voltage event begins. -/
def voltStart (k : VoltEvent) (ph : BitVec 3) (m : Metro) : Metro :=
  if metRuns m && detects m k && !(m.ac.inProgress.any fun e => e.1 == k) then
    { m with ac := (let a := m.ac; { a with inProgress := a.inProgress ++ [(k, m.ctl.legal, m.ctl.legalSet, ph)] }) }
  else m

/-- VOLTAGE_EVENT_START. -/
def execVoltageEventStart (k : VoltEvent) (phases : BitVec 3) (s : State) : Host.Outcome State Fault Refusal :=
  .next (modMet (voltStart k phases) s)

/-- Number of an event in object 4011 and in its logbook entry. -/
def voltNum : VoltEvent → Nat
  | .sag => 0
  | .swell => 1
  | .interruption => 2
  | .phaseSequence => 3
  | .missingNeutral => 4

/-- A voltage event ends: its count and its logbook entry, whose time is the start of the event (log entry 58). -/
def voltEnd (k : VoltEvent) (tenMs : U32) (value : U16) (m : Metro) : Metro :=
  match m.ac.inProgress.find? fun e => e.1 == k with
  | none => m
  | some e =>
    if !(metRuns m) then m
    else
      let m := { m with ac := (let a := m.ac
                               { a with inProgress := a.inProgress.filter (fun e => e.1 != k)
                                        pqCounts := upd a.pqCounts (voltNum k) fun n => n + 1 }) }
      let x := makeEntry 0xC 0 ([BitVec.ofNat 8 (voltNum k), e.2.2.2.setWidth 8] ++ leBytes 4 tenMs.toNat ++ leBytes 2 value.toNat) m
      logAdd { x with time := if e.2.2.1 then BitVec.ofNat 64 (e.2.1 / 750) else 0, flags := if e.2.2.1 then 0 else 1 } m

/-- VOLTAGE_EVENT_END. -/
def execVoltageEventEnd (k : VoltEvent) (tenMs : U32) (value : U16) (s : State) : Host.Outcome State Fault Refusal :=
  .next (modMet (voltEnd k tenMs value) s)

/-- The event is in progress. -/
def inEvent (m : Metro) (k : VoltEvent) : Bool := m.ac.inProgress.any fun e => e.1 == k

/-- ms left of the running demand interval. -/
def winLeft (m : Metro) : Nat := (m.bill.regs.winStart * 750 + demandSeconds m * secCycles - m.ctl.legal) / 24576

/-- The grid-status record of the window that ends (Table 11.4); T_LEFT is a free value while legal time is unset. -/
def gridRecord (free : Nat) (mean : Int) (freq : U16) (m : Metro) : GridStatus :=
  { seq := m.ac.gridSeq + 1
    period := match m.ac.winPeriod with
      | some p => p.setWidth 8
      | none => 0xFF
    flags := BitVec.ofNat 8 (flagBits [(0, inEvent m .sag), (1, inEvent m .interruption), (2, m.ctl.st != .ready),
      (3, !m.ctl.legalSet), (4, m.ac.winDemand)])
    freq := freq, pImp := BitVec.ofInt 32 (max mean 0), pExp := BitVec.ofInt 32 (max (-mean) 0)
    eD := BitVec.ofNat 32 (((nth m.bill.regs.winImp 0).subs.headD 0) / 1000)
    tLeft := BitVec.ofNat 32 (if m.ctl.legalSet then winLeft m else Config.freeNat free)
    time := BitVec.ofNat 64 (if m.ctl.legalSet then legalTicks m.ctl else 0) }

/-- Mean power in W of windows of 10 ms. -/
def recentPower (l : List Int) : Int := if l.isEmpty then 0 else sumInt l * 360 / (2 ^ 32 * l.length)

/-- The next window of 10 ms: the mean powers of the channels over their last 20 windows. -/
def nextTenMs (d : DcChan) : DcChan := { d with power := recentPower (d.recent.take 20), recent := (0 :: d.recent).take 20 }

/-- GRID_STATUS_SEND: the record leaves for both lanes. -/
def gridSend (free : Nat) (mean : Int) (freq : U16) (m : Metro) : Metro :=
  let g := gridRecord free mean freq m
  { m with dc := m.dc.map nextTenMs
           ac := (let a := m.ac
                  { a with gridSeq := g.seq, grid := some g, winPeriod := none, winDemand := false, freq := freq.toNat, watts := mean }) }

/-- GRID_STATUS_SEND; a halted section sends none (R242). -/
def execGridStatusSend (meanPower : Int) (freq : U16) (s : State) : Host.Outcome State Fault Refusal :=
  .next (if metRuns s.met then (modMet (gridSend s.free meanPower freq) s).useFree (if s.met.ctl.legalSet then 0 else 1) else s)

/-! ## Tap records (R228) -/

/-- The list without its first element that satisfies p. -/
def dropFirst {α : Type} (p : α → Bool) : List α → List α
  | [] => []
  | x :: xs => if p x then xs else x :: dropFirst p xs

/-- TAP_RECORD_RECEIVED: the record has crossed the barrier. -/
def tapReceivedEffect (r : TapRecord) (s : State) : State :=
  modMet (takeTap (nominalPeriod s) r) { s with taps := dropFirst (fun t => t.link == r.link && t.period == r.period) s.taps }

/-- TAP_RECORD_RECEIVED. -/
def execTapRecordReceived (r : TapRecord) (s : State) : Host.Outcome State Fault Refusal := .next (tapReceivedEffect r s)

/-! ## Pulses (R236, R237) -/

/-- The next rising edge of an output leaves; a pending one leaves the count. -/
def PulseOut.rise (p : PulseOut) : PulseOut :=
  match p.edges with
  | [] => p
  | (t, late) :: es =>
    { p with edges := es, lastEdge := some t, high := true, pulses := p.pulses + 1, pending := if late then p.pending - 1 else p.pending }

/-- PULSE_OUTPUT_EDGE: none leaves while HALTED. -/
def execPulseOutputEdge (out : Fin 4) (s : State) : Host.Outcome State Fault Refusal :=
  .next (if metRuns s.met then modMet (fun (m : Metro) => { m with pout := upd m.pout out PulseOut.rise }) s else s)

/-- PULSE_INPUT_COUNT: a debounced edge. -/
def execPulseInputCount (inp : Fin 4) (s : State) : Host.Outcome State Fault Refusal :=
  .next (if metRuns s.met then
    modMet (fun (m : Metro) => { m with pin := upd m.pin inp fun (p : PulseIn) => { p with pulses := p.pulses + 1 } }) s else s)

/-- An input assigned to reconciliation is compared with its register: the difference is kept and logged; more than 0.5 % of the register's
increase sets RECON. -/
def reconcile (i : Nat) (m : Metro) : Metro :=
  let p := nth m.pin i
  if !(metRuns m) || p.use == 0 then m
  else
    let reg := regOf m.bill.regs 0 (if p.use = 1 then 0 else 1)
    let d : Int := (reg : Int) - (p.pulses.toNat * p.weight.toNat : Nat)
    let more := (d - p.diff).natAbs
    let m := { m with pin := upd m.pin i fun (p : PulseIn) => { p with diff := d, lastReg := reg } }
    let m := if reg - p.lastReg < more * 200 then m.onCtl fun c => { c with recon := true } else m
    logEntry 0x11 0 (leBytesInt 8 d) m

/-- RECONCILIATION. -/
def execReconciliation (inp : Fin 4) (s : State) : Host.Outcome State Fault Refusal := .next (modMet (reconcile inp) s)

/-! ## SEAL (R238, R408) -/

/-- MSEAL reads open. -/
def openSeal (m : Metro) : Metro :=
  if m.ctl.sealOpen then m
  else logEntry 3 0xFF [] (m.onCtl fun c => { c with sealOpen := true, sealOpenings := c.sealOpenings + 1, sealedWrites := 0 })

/-- SEAL_OPEN. -/
def execSealOpen (s : State) : Host.Outcome State Fault Refusal := .next (modMet openSeal s)

/-- A held image starts at a SEAL closing: a milestone, then a restart on it, logged with the old and the new image CRC. -/
def startImage (nom : Nat × Nat) (f : MetroStartFacts) (img : List Byte) (m : Metro) : Metro :=
  let old := m.ctl.imageCrc
  let new := crc32 img
  let m := if metRuns m then takeMilestone nom false true (cutGaps m) else m
  let m := startMet f (m.onCtl fun c => { c with heldImg := none, version := Config.imageVersion img, imageCrc := new })
  logEntry 6 0xFF (leBytes 4 old.toNat ++ leBytes 4 new.toNat) m

/-- The closing is logged with its sealed writes, partial transfers are discarded, and wrong CRCs lead to NO_CAL. -/
def shutSeal (f : MetroStartFacts) (m : Metro) : Metro :=
  let m := logEntry 4 0xFF (leBytes 4 m.ctl.sealedWrites) (m.onCtl fun c => { c with sealOpen := false, partialImg := none })
  let m := m.onCtl fun c => { c with calBad := !(f.calOk && f.cfgOk) }
  if advances m && m.ctl.calBad then m.onCtl fun c => { c with st := .noCal } else m

/-- MSEAL reads closed; a held image starts. -/
def closeSeal (nom : Nat × Nat) (f : MetroStartFacts) (m : Metro) : Metro :=
  if !m.ctl.sealOpen then m
  else
    let m := shutSeal f m
    match m.ctl.heldImg with
    | some img => startImage nom f img m
    | none => m

/-- SEAL_CLOSE. -/
def execSealClose (facts : MetroStartFacts) (s : State) : Host.Outcome State Fault Refusal :=
  .next (modMet (closeSeal (nominalPeriod s) facts) s)

end Sys2Proof.Machine
end

