-- ==== Sys2Proof/Machine/Operands.lean ====
section
/-! DEFINITION. Every operand form of the tile dialect: register ids and their classes (Table 6.10), the fields of the immediate,
the port maps (Tables 6.3-6.5) and what an input port reads. -/

namespace Sys2Proof.Machine

/-! ## Register ids (Table 6.10) -/

/-- Ids 0-23 and 30 are stages. -/
def isStageId (r : Nat) : Bool := decide (r ≤ 23) || r == 30

/-- Ids 24-29 are accumulators. -/
def isAccId (r : Nat) : Bool := decide (24 ≤ r ∧ r ≤ 29)

/-- A stage that can be a destination: ids 0-23. -/
def isStageDest (r : Nat) : Bool := decide (r ≤ 23)

/-- P0-P7. -/
def isPId (r : Nat) : Bool := decide (16 ≤ r ∧ r ≤ 23)

/-- Q0-Q3. -/
def isQId (r : Nat) : Bool := decide (24 ≤ r ∧ r ≤ 27)

/-- Either class. -/
def isRegId (r : Nat) : Bool := isStageId r || isAccId r

/-- The stage register r; ZR reads all 0, valid. -/
def TileRun.stage (k : TileRun) (r : Nat) : Stage :=
  if r ≤ 15 then nth k.v r else if r ≤ 23 then nth k.p (r - 16) else Stage.zero

/-- k with the stage register r written. -/
def TileRun.setStage (k : TileRun) (r : Nat) (x : Stage) : TileRun :=
  if r ≤ 15 then { k with v := put k.v r x } else if r ≤ 23 then { k with p := put k.p (r - 16) x } else k

/-- The accumulator register r. -/
def TileRun.acc (k : TileRun) (r : Nat) : Acc := if r ≤ 27 then nth k.q (r - 24) else nth k.a (r - 28)

/-- k with the accumulator register r written. -/
def TileRun.setAcc (k : TileRun) (r : Nat) (x : Acc) : TileRun :=
  if r ≤ 27 then { k with q := put k.q (r - 24) x } else { k with a := put k.a (r - 28) x }

/-- Register r as an accumulator operand (R123). -/
def TileRun.operand (k : TileRun) (r : Nat) : Acc := if isAccId r then k.acc r else (k.stage r).toAcc

/-- Element i of register r as an exact value. -/
def TileRun.value (k : TileRun) (r i : Nat) : Int × Int :=
  if isAccId r then (k.acc r).elem i else (k.stage r).elem i

/-- Invalid flag of register r. -/
def TileRun.invalid (k : TileRun) (r : Nat) : Bool := if isAccId r then (k.acc r).inv else (k.stage r).inv

/-- The 8 values of register r. -/
def TileRun.values (k : TileRun) (r : Nat) : List (Int × Int) := (List.range 8).map (k.value r)

/-- k with SAT raised where b. -/
def TileRun.sat (k : TileRun) (b : Bool) : TileRun := { k with flagSat := k.flagSat || b }

/-- A stage result normalised into register r (R122). -/
def TileRun.putStage (k : TileRun) (r : Nat) (vals : List (Int × Int)) (inv : Bool) : TileRun :=
  let n := normPairs vals inv
  (k.setStage r n.1).sat n.2

/-- An accumulator result into register r (R123). -/
def TileRun.putAcc (k : TileRun) (r : Nat) (x : Acc × Bool) : TileRun := (k.setAcc r x.1).sat x.2

/-! ## Fields of an instruction word (Table 6.9) -/

/-- Destination register id. -/
def argD (w : TileArgs) : Nat := w.d.toNat
/-- First source register id. -/
def argA (w : TileArgs) : Nat := w.a.toNat
/-- Second source register id. -/
def argB (w : TileArgs) : Nat := w.b.toNat
/-- Bits [hi:lo] of the immediate. -/
def argImm (w : TileArgs) (hi lo : Nat) : Nat := w.imm.toNat / 2 ^ lo % 2 ^ (hi + 1 - lo)

/-! ## Port maps (R115, R117) -/

/-- The code of a port bound to nothing. -/
def portNone : U16 := 0xFFFF

/-- Code of word w of link n. -/
def frameCode (n w : Nat) : U16 := BitVec.ofNat 16 (n * 256 + w)

/-- Code of instance i of fabric-input class c. -/
def fabricCode (c i : Nat) : U16 := BitVec.ofNat 16 (0x4000 + c * 256 + i)

/-- Code of a relay cell. -/
def relayCode (c : Nat) : U16 := BitVec.ofNat 16 (0x8000 + c)

/-- A port list padded with none to n ports. -/
def padPorts (n : Nat) (l : List U16) : List U16 := l ++ List.replicate (n - l.length) portNone

/-- Codes stored in an octet string, two bytes each. -/
def codesOf (n : Nat) (b : List Byte) : List U16 := (List.range n).map fun i => BitVec.ofNat 16 (field b (2 * i) 2)

/-- Frame code of an optional link, none where there is no link. -/
def linkCode (n : Option Nat) (w : Nat) : U16 :=
  match n with
  | some k => frameCode k w
  | none => portNone

/-- The 16 input ports of a loop in lane x (Table 6.5; object 3520+j for a slow loop). -/
def inputMap (s : State) (x : LaneState) : LoopId → List U16
  | .bay n =>
    let h := bayLink s n
    padPorts 16 [linkCode h 2, linkCode h 1, fabricCode 0 n, fabricCode 1 n, fabricCode 2 n, fabricCode 3 n]
  | .module j =>
    let w := nth x.wp.mods j
    let closed := (w.st == .serving && !w.held) || (w.st == .moving && decide (w.step ≤ 2))
    let cell := if w.bay = 0 ∨ !closed then portNone else relayCode (w.bay - 1)
    match modLink s j with
    | some (c, m) =>
      padPorts 16 [cell, fabricCode 8 j, frameCode c (2 + 4 * m), frameCode c (3 + 4 * m), fabricCode 9 j]
    | none => padPorts 16 []
  | .string i =>
    let g := strLink s i
    padPorts 16 [linkCode g 2, linkCode g 1, fabricCode 0x10 i, fabricCode 0x11 i, fabricCode 0x14 i,
      fabricCode 0x12 i, fabricCode 0x13 i]
  | .slow j => codesOf 16 (cfgBytes s (0x3520 + j) 4)

/-- The 8 output ports of a loop (Table 6.5; object 3520+j for a slow loop). -/
def outputMap (s : State) : LoopId → List U16
  | .bay n => padPorts 8 [relayCode n]
  | .module j =>
    match modLink s j with
    | some (c, m) => padPorts 8 [frameCode c (1 + 2 * m)]
    | none => padPorts 8 []
  | .string i => let g := strLink s i; padPorts 8 [linkCode g 1, linkCode g 2, linkCode g 3]
  | .slow j => codesOf 8 (cfgBytes s (0x3520 + j) 5)

/-! ## Fabric inputs (R116, Table 6.4) -/

/-- Word units per period of a slope in A/ms: x 50, or x 100 at 50 us. -/
def slopeStep (s : State) (aPerMs : Nat) : Int := aPerMs * (if s.clk.long then 100 else 50)

/-- Voltage in word units of 250 uV from 0.1 V. -/
def deciVolt (v : Nat) : Int := v * 400

/-- The value fabric-input class c publishes for instance i. -/
def fabricInput (s : State) (x : LaneState) (c i : Nat) : PortVal :=
  match c with
  | 0x00 => PortVal.ofInt (nth x.share.ref i)
  | 0x01 => PortVal.ofInt (nth x.share.ilim i)
  | 0x02 => PortVal.ofInt (slopeStep s (bayN s i 0x14))
  | 0x03 =>
    match bayVehicle s i with
    | some v => PortVal.ofInt (deciVolt (nth s.veh.links v).vlim.toNat)
    | none => PortVal.ofInt 0
  | 0x08 => nth x.share.share i
  | 0x09 => PortVal.ofInt ((nth x.wp.mods i).mlim * 200 : Nat)
  | 0x10 => PortVal.ofInt (nth x.share.sref i)
  | 0x11 => PortVal.ofInt (nth x.share.slim i)
  | 0x12 => PortVal.ofInt (strN s i 7 * 4000 : Nat)
  | 0x13 => PortVal.ofInt (strN s i 8 * 4000 : Nat)
  | 0x14 => PortVal.ofInt (slopeStep s (strN s i 9))
  | 0x20 => PortVal.ofInt ((nth x.th.bays i).flow * 10 : Nat)
  | 0x21 => PortVal.ofInt (nth x.th.fan i)
  | _ => PortVal.ofInt 0

/-! ## What an input port reads (R115, R118, R120) -/

/-- The value at a port coded c in the running period of lane x, with the kept value k; the second component is the value
to keep. -/
def portRead (s : State) (x : LaneState) (c : U16) (k : BitVec 24) : PortVal × BitVec 24 :=
  let n := c.toNat
  if c = portNone then (PortVal.ofInt 0, k)
  else
    match n / 2 ^ 14 with
    | 0 =>
      let link := n / 256 % 64
      match (slotOf s x link).meas (n % 256) with
      | some v => (PortVal.ofInt v, BitVec.ofInt 24 v)
      | none => ({ m := k.toInt, e := 0, inv := true }, k)
    | 1 => (fabricInput s x (n / 256 % 64) (n % 256), k)
    | 2 =>
      let cell := nth x.relay (n % 256)
      ({ m := cell.m.toInt, e := cell.e.toInt - 19, inv := cell.inv }, k)
    | _ => (PortVal.ofInt 0, k)

/-- All 16 ports of a loop with the values they keep. -/
def portsRead (s : State) (x : LaneState) (codes : List U16) (kept : List (BitVec 24)) :
    List PortVal × List (BitVec 24) :=
  let r := (List.range 16).map fun i => portRead s x (nth codes i) (kept.getD i 0)
  (r.map (·.1), r.map (·.2))

end Sys2Proof.Machine
end

