-- ==== Sys2Proof/Machine/Remote.lean ====
section
/-! DEFINITION. What the remote ends report (Tables 5.5 and 5.7): the fields of status words, and the readings of bay heads,
cabinets and strings in the running period or as last VALID. -/

namespace Sys2Proof.Machine

/-! ## Fields of an up status word -/

/-- DNERR of a status word. -/
def dnerr (w : BitVec 24) : Nat := w.toNat / 2 ^ 16
/-- LOCK. -/
def lockBit (w : BitVec 24) : Bool := w.getLsbD 11
/-- RUN. -/
def runBit (w : BitVec 24) : Bool := w.getLsbD 10
/-- CONT. -/
def contBit (w : BitVec 24) : Bool := w.getLsbD 9
/-- FLT of a remote or of a module. -/
def fltBit (w : BitVec 24) : Bool := w.getLsbD 8

/-! ## Fields of a module status word -/

/-- POS: bay the module is switched to. -/
def modPos (w : BitVec 24) : Nat := w.toNat / 2 ^ 11 % 32
/-- MOVING. -/
def modMoving (w : BitVec 24) : Bool := w.getLsbD 10
/-- RDY. -/
def modRdy (w : BitVec 24) : Bool := w.getLsbD 9

/-! ## Readings of the running period -/

/-- Word w of the VALID frame of link n as a measurement. -/
def linkMeas (s : State) (x : LaneState) (n : Option Nat) (w : Nat) : Option Int := n.bind fun k => (slotOf s x k).meas w

/-- Status word of the VALID frame of link n. -/
def linkStatus (s : State) (x : LaneState) (n : Option Nat) : Option (BitVec 24) :=
  n.bind fun k => let f := slotOf s x k; if f.status = 0 then f.words[0]? else none

/-- Measured word w of bay i's head. -/
def headMeas (s : State) (x : LaneState) (i w : Nat) : Option Int := linkMeas s x (bayLink s i) w

/-- Field f of module j (0 current, 1 voltage, 2 temperature). -/
def moduleMeas (s : State) (x : LaneState) (j f : Nat) : Option Int :=
  match modLink s j with
  | some (n, m) => linkMeas s x (some n) (2 + 4 * m + f)
  | none => none

/-- Status word of module j in the running period; a word of 0x800000 is no reading (R96). -/
def moduleStatus (s : State) (x : LaneState) (j : Nat) : Option (BitVec 24) :=
  match modLink s j with
  | some (n, m) =>
    let f := slotOf s x n
    if f.status = 0 then
      match f.words[5 + 4 * m]? with
      | some w => if w = 0x800000 then none else some w
      | none => none
    else none
  | none => none

/-! ## Last VALID readings -/

/-- Last VALID status word of module j. -/
def moduleLast (s : State) (x : LaneState) (j : Nat) : BitVec 24 :=
  match modLink s j with
  | some (n, m) => (x.link n).word (5 + 4 * m)
  | none => 0

/-- Word w of bay i's head as last VALID. -/
def headLast (s : State) (x : LaneState) (i w : Nat) : Int :=
  match bayLink s i with
  | some n => (x.link n).wordI w
  | none => 0

/-- Word w of string i as last VALID. -/
def strLast (s : State) (x : LaneState) (i w : Nat) : Int :=
  match strLink s i with
  | some n => (x.link n).wordI w
  | none => 0

/-- Status word of link n as last VALID. -/
def lastStatusWord (x : LaneState) (n : Option Nat) : BitVec 24 :=
  match n with
  | some k => (x.link k).word 0
  | none => 0

/-- Head link of bay i is UP in lane x. -/
def headUp (s : State) (x : LaneState) (i : Nat) : Bool :=
  match bayLink s i with
  | some n => x.linkUp n
  | none => false

/-- Link of string i is UP in lane x. -/
def strUp (s : State) (x : LaneState) (i : Nat) : Bool :=
  match strLink s i with
  | some n => x.linkUp n
  | none => false

/-- Link of module j's cabinet is UP in lane x. -/
def cabUp (s : State) (x : LaneState) (j : Nat) : Bool :=
  match modLink s j with
  | some (n, _) => x.linkUp n
  | none => false

/-- 5 A in word units (R140). -/
def fiveAmps : Int := 10000

/-- A reading is VALID and below 5 A in magnitude. -/
def below5 (v : Option Int) : Bool :=
  match v with
  | some a => decide (-fiveAmps < a ∧ a < fiveAmps)
  | none => false

end Sys2Proof.Machine
end

