-- ==== Sys2Proof/Machine/WpOps.lean ====
section
/-! DEFINITION. Waypoint's shared operations on modules: which modules serve a bay, the steps of a move (Table 9.2), retirement
and the release of a spare (R185, R186). -/

namespace Sys2Proof.Machine

/-- Module j of lane x. -/
def LaneState.mod (x : LaneState) (j : Nat) : Module := nth x.wp.mods j

/-- x with module j changed. -/
def LaneState.modMod (j : Nat) (f : Module → Module) (x : LaneState) : LaneState :=
  { x with wp := (let w := x.wp; { w with mods := upd w.mods j f }) }

/-- x with the Waypoint registers changed. -/
def LaneState.modWp (f : Waypoint → Waypoint) (x : LaneState) : LaneState := { x with wp := f x.wp }

/-- Module j is in its rundown from bay i: steps 1 and 2 still carry current to it. -/
def Module.carries (m : Module) (i : Nat) : Bool :=
  m.bay == i + 1 && (m.st == .serving || (m.st == .moving && decide (m.step = 1 ∨ m.step = 2)))

/-- Modules that serve bay i. -/
def servingMods (x : LaneState) (i : Nat) : List Nat := (List.range 96).filter fun j => (x.mod j).carries i

/-- Modules a bay holds: serving it and not leaving it, or moving to it (R179). -/
def heldMods (x : LaneState) (i : Nat) : List Nat :=
  (List.range 96).filter fun j =>
    let m := x.mod j
    (m.st == .serving && m.bay == i + 1) || (m.st == .moving && m.target == i + 1)

/-- A move or withdrawal of module j begins (step 1 at period w). -/
def startMove (w target : Nat) (after : ModSt) (m : Module) : Module :=
  { m with st := .moving, step := 1, startW := w, target := target, after := after, mlim := 0, dwell := 0, flt := false, counted := false,
           held := false }

/-- Step 3: the switch is commanded open with the power stage disabled. -/
def openSwitch (after : ModSt) (m : Module) : Module :=
  { m with st := .moving, step := 3, target := 0, tgt := 0, en := 0, dwell := 0, mlim := 0, after := after, resume := false,
           held := false }

/-- The move of module j is abandoned; one move counts once (R183). -/
def abandon (j : Nat) (x : LaneState) : LaneState :=
  if (x.mod j).counted then x
  else
    let x := x.modMod j fun m => { m with counted := true }
    x.modWp fun w => { w with abandoned := w.abandoned + 1 }

/-- Back to step 3 from a step that closes or has closed the switch at the target bay: the bay the module may still be connected to. -/
def reopenSwitch (after : ModSt) (m : Module) : Module := { openSwitch after m with bay := m.target }

/-- The module has left every bay: its state is st with the switch open. -/
def settle (st : ModSt) (m : Module) : Module :=
  { m with st := st, bay := 0, target := 0, step := 0, tgt := 0, en := 0, dwell := 0, mlim := 0, flt := false, counted := false,
           held := false }

/-- The module is usable: available, on an UP cabinet link, without FLT, its loop placed (Table 9.1). -/
def moduleUsable (s : State) (x : LaneState) (j : Nat) : Bool :=
  modN s j 6 != 0 && cabUp s x j && !fltBit (moduleLast s x j)
    && !((nth x.modLoops j).unplaced)

/-- FREE, or SPARE where the module is configured as a spare. -/
def freshState (s : State) (j : Nat) : ModSt := if modN s j 5 != 0 then .spare else .free

/-- Reach set of module j's cabinet. -/
def reachOf (s : State) (j : Nat) : Nat :=
  match modCab s j with
  | some c => cabN s c 3 % 2 ^ 24
  | none => 0

/-- Two reach sets share a bay. -/
def reachMeets (a b : Nat) : Bool := (a &&& b) != 0

/-- The spare that replaces module j: the lowest-numbered one whose cabinet's reach set meets j's, else the lowest (R186). -/
def spareFor (s : State) (x : LaneState) (j : Nat) : Option Nat :=
  let spares := (List.range 96).filter fun k => (x.mod k).st == .spare && k != j
  match spares.find? fun k => reachMeets (reachOf s k) (reachOf s j) with
  | some k => some k
  | none => spares.head?

/-- The decision that retires module j with a cause: it is counted, an event is written, and one spare becomes FREE
(R184-R186); the low-spare flags are recomputed by the caller. -/
def retireDecision (s : State) (j cause : Nat) (x : LaneState) : LaneState :=
  let x := x.modMod j fun m => { m with retireCause := BitVec.ofNat 8 cause }
  let x := x.modWp fun w => { w with retirements := w.retirements + 1 }
  let x :=
    match spareFor s x j with
    | some k => x.modMod k fun m => { m with st := .free }
    | none => x
  x.event (eventReq .moduleRetired j [j + 1, cause, (x.mod j).bay])

/-- Module j is retired with cause 2: steps 3 and 4 from the next period, without waiting for a reassessment (R185); a move it was in is
abandoned. A module whose retirement is decided already opens at once. -/
def retireByLoop (s : State) (j : Nat) (x : LaneState) : LaneState :=
  if (x.mod j).st = .retired then x
  else
    let x := if (x.mod j).st = .moving then abandon j x else x
    let x := if (x.mod j).retireCause = 0 then retireDecision s j 2 x else x
    x.modMod j fun m => { openSwitch .retired m with retireDue := false }

/-- Module j is retired with cause 3 where it stands: TGT and EN 0 (R183); one decision retires a module and frees one spare (R186). -/
def retireBySwitch (s : State) (j : Nat) (x : LaneState) : LaneState :=
  let x := if (x.mod j).retireCause = 0 then retireDecision s j 3 x else x.modMod j fun m => { m with retireCause := 3 }
  let x := x.event (eventReq .moduleStuck j [j + 1, (x.mod j).bay])
  x.modMod j fun m => { m with st := .retired, step := 0, target := 0, tgt := 0, en := 0, mlim := 0, dwell := 0 }

/-- MLIM that R178 publishes for module j, 0.1 A. -/
def mlimOf (s : State) (x : LaneState) (j : Nat) : Nat :=
  let m := x.mod j
  if m.st = .serving then min (modN s j 3 * 10) (nth x.th.mods j).i2 else 0

/-- MLIM of every module at a share-cycle boundary (R178). -/
def publishMlim (s : State) (x : LaneState) : LaneState :=
  x.modWp fun w => { w with mods := w.mods.mapIdx fun j m => { m with mlim := mlimOf s x j } }

/-- Modules of cabinet c. -/
def cabModules (s : State) (c : Nat) : List Nat := (List.range 96).filter fun j => modCab s j == some c

/-- A loop goes to OFF at once and commits its zero once, where it is not in FAULT already: FAULT is left only by R146, a fault that
arises in this period gives way (Tables 5.11, 7.5). -/
def loopOff (i : LoopId) (x : LaneState) : LaneState :=
  x.modLoop i fun p =>
    if p.st = .off ∨ p.st = .fault then p
    else { p with st := .off, nextSt := none, zeroDue := true, repeats := 0, satRun := 0 }

/-- The modules of bay i leave it through steps 3 and 4 with their loops OFF (R144, Table 5.11). -/
def openBay (i : Nat) (x : LaneState) : LaneState :=
  (servingMods x i).foldl (fun x j =>
    let x := if h : j < 96 then loopOff (.module ⟨j, h⟩) x else x
    x.modMod j (openSwitch .free)) x

end Sys2Proof.Machine
end

