-- ==== Sys2Proof/Machine/VehOps.lean ====
section
/-! DEFINITION. Shared operations on vehicle sessions (R313, R319, R321): the states of energy transfer and the end of a session. -/

namespace Sys2Proof.Machine

/-- Code of a session state (Table 15.4). -/
def SessSt.code : SessSt → Nat
  | .idle => 0
  | .attached => 1
  | .slac => 2
  | .setup => 3
  | .authorizing => 4
  | .parameters => 5
  | .precharge => 6
  | .charging => 7
  | .stopping => 8
  | .ended => 9
  | .faultWait => 10

/-- Vehicle link n. -/
def sess (s : State) (n : Nat) : Session := nth s.veh.links n

/-- s with vehicle link n changed. -/
def modSess (n : Nat) (f : Session → Session) (s : State) : State :=
  { s with veh := (let v := s.veh; { v with links := upd v.links n f }) }

/-- The session is in energy transfer: PRECHARGE or CHARGING (R313). -/
def SessSt.transfer (t : SessSt) : Bool := t == .precharge || t == .charging

/-- A session exists that an end cause can end: ATTACHED to PARAMETERS, PRECHARGE or CHARGING. -/
def SessSt.live (t : SessSt) : Bool := decide (1 ≤ t.code ∧ t.code ≤ 7)

/-- Bay i has a session in energy transfer. -/
def bayTransfer (s : State) (i : Nat) : Bool :=
  match bayVehicle s i with
  | some n => (sess s n).st.transfer
  | none => false

/-- Bay i's vehicle link holds a session. -/
def baySession (s : State) (i : Nat) : Bool :=
  match bayVehicle s i with
  | some n => (sess s n).st.live || (sess s n).st == .stopping
  | none => false

/-- No timer of Table 15.6 runs. -/
def Timers.none : Timers :=
  { slac := false, setup := false, authorization := false, sequence := false, precharge := false, loopSilence := false }

/-- End causes after which the link waits in FAULT_WAIT; cause 5 is judged when STOPPING ends (Table 15.5). -/
def faultCause (cause : Nat) : Bool := decide (7 ≤ cause ∧ cause ≤ 10)

/-- The metrology session of link n's bay closes. -/
def meterEnd (n : Nat) (s : State) : State :=
  match bayOfVehicle s n with
  | some i =>
    match nth s.met.bill.regs.sessions i with
    | some x => if x.id = (sess s n).id ∧ !x.commissioning then meterClose (i + 1) s else s
    | none => s
  | none => s

/-- Session n ends on a cause: the first cause is recorded, the lower code of two causes of one period; the session enters
STOPPING, leaves energy transfer, and the metrology session closes; VLIM falls to 0 at the next boundary (R317, R319, R321). -/
def endSession (n cause : Nat) (s : State) : State :=
  let v := sess s n
  if v.st.live then
    let s := modSess n (fun (v : Session) =>
      { v with st := .stopping, cause := BitVec.ofNat 8 cause, stopAt := s.clk.period, toFault := faultCause cause,
               timers := Timers.none, authWait := false, thermalHold := false }) s
    let s := { s with veh := (let v := s.veh; { v with ended := v.ended + 1 }) }
    meterEnd n (evt (eventReq .sessionState n [n + 1, 8, cause]) s)
  else if v.st = .stopping ∧ v.stopAt = s.clk.period then
    modSess n (fun (v : Session) =>
      { v with cause := if cause < v.cause.toNat then BitVec.ofNat 8 cause else v.cause, toFault := v.toFault || faultCause cause }) s
  else s

/-- Every session ends on a cause. -/
def endAllSessions (cause : Nat) (s : State) : State := (List.range 24).foldl (fun s n => endSession n cause s) s

/-- The session of bay i ends on a cause. -/
def endBaySession (i cause : Nat) (s : State) : State :=
  match bayVehicle s i with
  | some n => endSession n cause s
  | none => s

end Sys2Proof.Machine
end

