-- ==== Sys2Proof/Machine/Barrier.lean ====
section
/-! DEFINITION. The barrier messages of Table 11.9 (R241, R242): who may send them, what each does in the metrology section, and its
response. -/

namespace Sys2Proof.Machine

/-! ## Requests and responses (R241, R242) -/

/-- The response to a request reaches its lane. -/
def reply (q : BarrierReq) (op st : Nat) (d : List Byte) (m : Metro) : Metro :=
  let r : BarrierResp := { lane := q.lane, tag := q.tag, op := BitVec.ofNat 8 op, status := BitVec.ofNat 8 st, payload := d }
  m.onCtl fun c =>
    match q.lane with
    | .a => { c with respA := some r }
    | .b => { c with respB := some r }

/-- Operations served from either lane, and while HALTED: STATUS, READ, KEY. -/
def anyLaneOp (op : Nat) : Bool := op == 1 || op == 2 || op == 0xB

/-- Operations that need SEAL open: CAL_WRITE, CONFIG_WRITE, IMAGE. -/
def sealedOp (op : Nat) : Bool := op == 7 || op == 8 || op == 0xA

/-- Status that turns a request away, if any. -/
def turnedAway (s : State) (q : BarrierReq) (op : Nat) : Option Nat :=
  if !(anyLaneOp op) && s.jct.mark != some q.lane then some 4
  else if !(metRuns s.met) && !(anyLaneOp op) && op != 3 then some 6
  else if sealedOp op && !s.met.ctl.sealOpen then some 3
  else if sealedOp op && logFull s.met then some 5
  else none

/-- The active lane forwards a sealed request in COMMISSION, IDLE and SERVICE only. -/
def forwards (s : State) (op : Nat) : Bool :=
  !(sealedOp op) || s.modes.mode == .commission || s.modes.mode == .idle || s.modes.mode == .service

/-- A request whose service f gives the new section, a status and a payload. -/
def serve (q : BarrierReq) (op : Nat) (f : Metro → Metro × Nat × List Byte) (s : State) : State :=
  if !(forwards s op) then s
  else
    match turnedAway s q op with
    | some st => modMet (reply q op st []) s
    | none => modMet (fun m => let r := f m; reply q op r.2.1 r.2.2 r.1) s

/-- BARRIER_MESSAGE_ERROR: a wrong CRC or length is counted and answered with status 2, an unknown OP with status 1. -/
def messageError (q : BarrierReq) (unknownOp : Bool) (m : Metro) : Metro :=
  if unknownOp then reply q 0 1 [] m else reply q 0 2 [] (m.onCtl fun c => { c with crcErrors := c.crcErrors + 1 })

/-- BARRIER_MESSAGE_ERROR. -/
def execBarrierMessageError (q : BarrierReq) (unknownOp : Bool) (s : State) : Host.Outcome State Fault Refusal :=
  .next (modMet (messageError q unknownOp) s)

/-! ## STATUS, READ, LOG_READ, KEY -/

/-- Code of a state (Table 11.1). -/
def MetroSt.code : MetroSt → Nat
  | .start => 0
  | .ready => 1
  | .noCal => 2
  | .halted => 3

/-- Metrology flags (Table 11.13) without LINK_LOST, which is a lane's. -/
def metFlags (m : Metro) : Nat :=
  let c := m.ctl
  flagBits [(0, c.vmetLow), (1, c.clockLost), (2, c.st == .noCal), (3, !m.ac.inProgress.isEmpty), (4, c.pulseOvf), (5, c.recon),
    (6, c.periodDev), (7, c.mettemp), (8, !c.legalSet), (9, c.sealOpen)]

/-- Entries held in the logbook. -/
def logHeld (m : Metro) : Nat := m.bill.param.entries.length + m.bill.event.entries.length

/-- Object 4000 as STATUS returns it. -/
def statusBytes (m : Metro) : List Byte :=
  let c := m.ctl
  leBytes 1 c.st.code ++ leBytes 2 (metFlags m) ++ leBytes 4 c.version.toNat ++ leBytes 4 c.calCrc.toNat ++ leBytes 4 c.cfgCrc.toNat
    ++ leBytes 8 (legalTicks c) ++ leBytes 8 c.milestone ++ leBytes 4 c.sealOpenings.toNat ++ leBytes 4 c.crcErrors.toNat
    ++ leBytes 4 m.ac.gridSeq.toNat ++ leBytes 4 (logHeld m) ++ leBytesInt 4 c.deviation ++ leBytes 1 c.halt.toNat

/-- STATUS answers; the active lane that reads READY opens the strings' sessions and hands over the calendar, and ends every vehicle session with cause 8 on any other
state (R218, R251). -/
def statusEffect (q : BarrierReq) (s : State) : State :=
  let s := serve q 1 (fun m => (m, 0, statusBytes m)) s
  let s := s.modLane q.lane fun x => { x with grid := { x.grid with ready := s.met.ctl.st == .ready } }
  if s.jct.mark ≠ some q.lane then s else if s.met.ctl.st = .ready then readyReported s else endAllSessions 8 s

/-- BARRIER_STATUS. -/
def execBarrierStatus (q : BarrierReq) (s : State) : Host.Outcome State Fault Refusal :=
  .next (statusEffect q s)

/-- The committed copy of milestone n. -/
def copyOf (n : Nat) (c : MetCtl) : Option MetImage :=
  match c.copyA.filter fun i => i.number == n with
  | some i => some i
  | none => c.copyB.filter fun i => i.number == n

/-- Registers of a block of milestone n (R248). -/
def readBlock (n block : Nat) (m : Metro) : Option (List Nat) :=
  if block < 292 then (copyOf n m.ctl).map fun i => nth i.regs.groups block else none

/-- Response of READ. -/
def readPayload (n block : Nat) (l : List Nat) : List Byte :=
  leBytes 8 n ++ leBytes 2 block ++ leBytes 2 28 ++ [0, 0, 0, 0] ++ l.flatMap (leBytes 8)

/-- The lane that reads a snapshot holds the block (R249). -/
def holdBlock (n block : Nat) (l : List Nat) (x : LaneState) : LaneState :=
  match x.reading with
  | some k =>
    if k.number.toNat = n ∧ !(k.blocks.any fun b => b.1 == block) then
      { x with reading := some { k with blocks := k.blocks ++ [(block, l.map (BitVec.ofNat 64))] } }
    else x
  | none => x

/-- READ of a register block. -/
def barrierReadEffect (q : BarrierReq) (n : U64) (block : U16) (s : State) : State :=
  match readBlock n.toNat block.toNat s.met with
  | some l => (serve q 2 (fun m => (m, 0, readPayload n.toNat block.toNat l)) s).modLane q.lane (holdBlock n.toNat block.toNat l)
  | none => serve q 2 (fun m => (m, 5, [])) s

/-- BARRIER_READ. -/
def execBarrierRead (q : BarrierReq) (milestone : U64) (block : U16) (s : State) : Host.Outcome State Fault Refusal :=
  .next (barrierReadEffect q milestone block s)

/-- The signed record with a number, if held (R265). -/
def heldRecord (n : U32) (m : Metro) : Option SignedRecord := m.bill.records.find? fun r => r.number == n

/-- READ with BLOCK 0xFFFF. -/
def signedRead (n : U64) (m : Metro) : Metro × Nat × List Byte :=
  match heldRecord (n.setWidth 32) m with
  | some r => (m, 0, r.body ++ r.signature)
  | none => (m, 5, [])

/-- SIGNED_RECORD_READ. -/
def execSignedRecordRead (q : BarrierReq) (milestone : U64) (s : State) : Host.Outcome State Fault Refusal :=
  .next (serve q 2 (signedRead milestone) s)

/-- The 32 bytes of a logbook entry (R267). -/
def entryBytes (e : LogEntry) : List Byte :=
  let b := leBytes 4 e.seq.toNat ++ leBytes 8 e.time.toNat ++ leBytes 2 e.code.toNat ++ [e.channel, e.flags] ++ e.data
  b ++ leBytes 4 (crc32 b).toNat

/-- LOG_READ: bounds, then entries from FIRST (R268); the bounds of an empty area are free values. -/
def logRead (free : Nat) (area count : U8) (first : U32) (m : Metro) : Metro × Nat × List Byte :=
  if 1 < area.toNat ∨ 7 < count.toNat then (m, 5, [])
  else
    let a := if area = 0 then m.bill.param else m.bill.event
    match a.entries.head?, a.entries.getLast? with
    | some o, some n =>
      let l := (a.entries.filter fun e => decide (first.toNat ≤ e.seq.toNat)).take count.toNat
      (m, 0, leBytes 4 o.seq.toNat ++ leBytes 4 n.seq.toNat ++ l.flatMap entryBytes)
    | _, _ => (m, 0, Config.freeBytes free 8)

/-- BARRIER_LOG_READ. -/
def execBarrierLogRead (q : BarrierReq) (area count : U8) (first : U32) (s : State) : Host.Outcome State Fault Refusal :=
  .next ((serve q 3 (logRead s.free area count first) s).useFree 1)

/-- BARRIER_KEY: the section's public key and statement. -/
def execBarrierKey (q : BarrierReq) (s : State) : Host.Outcome State Fault Refusal :=
  .next (serve q 0xB (fun m => (m, 0, Config.metrologyKey)) s)

/-! ## TIME (R219, R261-R263) -/

/-- The running window marked. -/
def markWindow (f : WinSpan → WinSpan) (m : Metro) : Metro :=
  m.onRegs fun r => { r with winSpans := match r.winSpans with
                        | x :: xs => f x :: xs
                        | [] => [] }

/-- Legal time is set after it was unset: boundaries of the outage in order, the running window incomplete, entries 0x0F and 0x16, READY,
then a milestone. -/
def setLegal (nom : Nat × Nat) (t : Nat) (m : Metro) : Metro :=
  let unset := m.ctl.unsetFor / secCycles
  let m := m.onCtl fun c => { c with legal := t * 750, legalSet := true, slew := 0, unsetFor := 0 }
  let b := runBoundaries true m
  let m := markWindow (fun x => { x with incomplete := true }) b.m
  let m := if b.kinds = 0 then m else logEntry 0xF 0xFF (leBytes 1 b.kinds ++ leBytes 4 b.skipped) m
  let m := logEntry 0x16 0xFF (leBytes 4 unset) m
  let m := m.onCtl fun c => { c with st := if c.st = .start then .ready else c.st }
  takeMilestone nom false true m

/-- Step limit in force, s. -/
def stepLimit (m : Metro) : Nat :=
  match m.bill.active with
  | some c => calStepLimit c.image
  | none => 300

/-- CLOCK_DISPUTE written. -/
def setDispute (b : Bool) (m : Metro) : Metro :=
  m.onRegs fun r => { r with flags := if b then r.flags ||| 2 else r.flags &&& 0xFFFD }

/-- A difference of d cycles in ms, rounded down. -/
def stepMs (d : Int) : Int := d * 1000 / secCycles

/-- A step of d cycles is applied: the running window is stepped, the boundaries of a step forward run at once (R262, R263). -/
def applyStep (d : Int) (m : Metro) : Metro :=
  let m := markWindow (fun x => { x with stepped := true }) m
  let m := m.onCtl fun c => { c with legal := ((c.legal : Int) + d).toNat, slew := 0 }
  logEntry 7 0xFF (leBytesInt 8 (stepMs d)) (runBoundaries false m).m

/-- A step is refused: CLOCK_DISPUTE, and entry 0x08 at most once per 3,600 s. -/
def refuseStep (d : Int) (m : Metro) : Metro :=
  let m := setDispute true m
  let due := match m.ctl.cycles, m.bill.lastDispute with
    | _, none => true
    | now, some t => decide (t + 3600 * secCycles ≤ now)
  if due then
    (logEntry 8 0xFF (leBytesInt 8 (stepMs d)) m).onBill fun b => { b with lastDispute := some m.ctl.cycles }
  else m

/-- A valid time t (ticks) against a legal time that is set: slew, step or refusal (Table 12.9). -/
def adjustLegal (t : Nat) (m : Metro) : Metro × Nat :=
  let d : Int := (t * 750 : Nat) - (m.ctl.legal : Int)
  if d.natAbs ≤ secCycles then (setDispute false (m.onCtl fun c => { c with slew := d }), 0)
  else if d.natAbs ≤ stepLimit m * secCycles then (applyStep d m, 0)
  else if m.ctl.sealOpen && !(logFull m) then (applyStep d m, 0)
  else (refuseStep d m, 5)

/-- delta is taken where the RTC is valid and legal time set. -/
def takeDelta (x : TimeMsg) (m : Metro) : Metro :=
  if x.rtcValid && m.ctl.legalSet then m.onCtl fun c => { c with delta := some ((legalTicks c : Int) - x.rtc.toNat) } else m

/-- TIME. -/
def timeMet (nom : Nat × Nat) (x : TimeMsg) (m : Metro) : Metro × Nat × List Byte :=
  if !x.timeValid then (takeDelta x m, 0, [])
  else if m.ctl.legalSet then
    let r := adjustLegal x.time.toNat m
    (takeDelta x r.1, r.2, [])
  else (takeDelta x (setLegal nom x.time.toNat m), 0, [])

/-- BARRIER_TIME. -/
def execBarrierTime (q : BarrierReq) (m : TimeMsg) (s : State) : Host.Outcome State Fault Refusal :=
  .next (serve q 4 (timeMet (nominalPeriod s) m) s)

/-! ## SESSION (R250) -/

/-- BARRIER_SESSION_OPEN. -/
def execBarrierSessionOpen (q : BarrierReq) (commissioning : Bool) (ch : U8) (account : U16) (sid : U32) (s : State) :
    Host.Outcome State Fault Refusal :=
  .next (serve q 5 (sessionOpen commissioning ch.toNat account sid) s)

/-- BARRIER_SESSION_CLOSE. -/
def execBarrierSessionClose (q : BarrierReq) (ch : U8) (sid : U32) (s : State) : Host.Outcome State Fault Refusal :=
  .next (serve q 5 (sessionClose ch.toNat sid) s)

/-! ## CALENDAR (R254, R256) -/

/-- A segment joins a partial image of n segments; none where it is out of order or too long. -/
def joinSegment (p : Option (Nat × List Byte)) (seg : Nat) (d : List Byte) : Option (Nat × List Byte) :=
  if 232 < d.length then none
  else if seg = 0 then some (1, d)
  else
    match p with
    | some (n, b) => if seg = n then some (n + 1, b ++ d) else none
    | none => none

/-- CALENDAR. -/
def calendarMet (seg : Nat) (last : Bool) (d : List Byte) (m : Metro) : Metro × Nat × List Byte :=
  match joinSegment m.bill.partialCal seg d with
  | none => (m.onBill fun x => { x with partialCal := none }, 5, [])
  | some (n, b) => if last then takeCalendar b m else (m.onBill fun x => { x with partialCal := some (n, b) }, 0, [])

/-- BARRIER_CALENDAR. -/
def execBarrierCalendar (q : BarrierReq) (segment : U8) (last : Bool) (data : List Byte) (s : State) :
    Host.Outcome State Fault Refusal :=
  .next (serve q 6 (calendarMet segment.toNat last data) s)

/-! ## Sealed writes (R239, R240) -/

/-- A range in integers. -/
def within (lo hi v : Int) : Bool := decide (lo ≤ v ∧ v ≤ hi)

/-- A calibration item lies in its range (Table 11.7). -/
def calOk : CalItem → Bool
  | .acGain _ g => within 900000 1100000 g
  | .acOffset _ _ => true
  | .acPhase _ p => within (-5000) 5000 p
  | .dcGain _ gv gi o => within 980000 1020000 gv && within 980000 1020000 gi && within (-5000000) 5000000 o

/-- The item written. -/
def calWrite (x : CalItem) (m : Metro) : Metro :=
  match x with
  | .acGain c g => { m with ac := (let a := m.ac; { a with gains := put a.gains c g }) }
  | .acOffset c o => { m with ac := (let a := m.ac; { a with offsets := put a.offsets c o }) }
  | .acPhase c p => { m with ac := (let a := m.ac; { a with phases := put a.phases c p }) }
  | .dcGain c gv gi o => m.onDc c fun (d : DcChan) => { d with gV := gv, gI := gi, oI := o }

/-- Number of an item in its logbook entry. -/
def calNum : CalItem → Nat
  | .acGain c _ => 0x100 + c
  | .acOffset c _ => 0x200 + c
  | .acPhase c _ => 0x300 + c
  | .dcGain c _ _ _ => 0x400 + c

/-- Form of a pulse source code. -/
def sourceOk (v : U16) : Bool := decide (v.toNat / 256 ≤ 33 ∧ v.toNat % 256 ≤ 1)

/-- Q is at least the source's full-scale power times 2W (R235), exact: the hub's factor of the square root of 3 is compared by squares. -/
def quantumOk (m : Metro) (source : U16) (q : U32) (w : U16) : Bool :=
  let h := source.toNat / 256
  if h = 0 then true
  else if h = 1 then
    let a := q.toNat * 360000000
    let b := 14 * m.ac.rated.toNat * m.ac.declared.toNat * w.toNat
    if m.ac.wiring = 0 then decide (b ≤ a) else if m.ac.wiring = 1 then decide (3 * b * b ≤ a * a) else decide (3 * b ≤ a)
  else decide ((nth m.dc (h - 2)).rated.toNat * 3 * w.toNat ≤ q.toNat * 36)

/-- A configuration item lies in its range (Table 11.7). -/
def itemOk (m : Metro) : SealedItem → Bool
  | .wiringMode v => decide (v.toNat ≤ 2)
  | .declaredVoltage v => within 500 8000000 v.toNat
  | .nominalFrequency h => h == 50 || h == 60
  | .ratedCurrent i => within 1000 100000000 i.toNat
  | .voltageRatio b => realFinite b && decide (0 < (realVal b).1)
  | .currentRatio b => realFinite b && decide (0 < (realVal b).1)
  | .dcEntry _ _ _ s => within 1 500 s.toNat
  | .pulseOut _ source q w => sourceOk source && within 1 10000000 q.toNat && within 1 1000 w.toNat && quantumOk m source q w
  | .pulseIn _ u _ d => decide (u.toNat ≤ 2) && within 5 500 d.toNat

/-- A pulse output with its new settings; pulses due by a smaller quantum leave. -/
def newPulse (now : Nat) (source : U16) (q : U32) (w : U16) (p : PulseOut) : PulseOut :=
  let p := { p with source := source, q := q, w := w }
  (pulseRun 0 now 0 (if q = 0 then 0 else p.residue.toNat / (2 ^ 32 * q.toNat) + 1) p.residue p).1

/-- The item written. -/
def itemWrite (x : SealedItem) (m : Metro) : Metro :=
  match x with
  | .wiringMode v => { m with ac := (let a := m.ac; { a with wiring := v }) }
  | .declaredVoltage v => { m with ac := (let a := m.ac; { a with declared := v }) }
  | .nominalFrequency h => { m with ac := (let a := m.ac; { a with fnom := h }) }
  | .ratedCurrent i => { m with ac := (let a := m.ac; { a with rated := i }) }
  | .voltageRatio b => { m with ac := (let a := m.ac; { a with vRatio := b }) }
  | .currentRatio b => { m with ac := (let a := m.ac; { a with iRatio := b }) }
  | .dcEntry c serial rated s =>
    m.onDc c fun (d : DcChan) =>
      let d := if d.serial = serial then d else { d with last := none, lastSeq := none, missing := 0, held := none }
      { d with serial := serial, rated := rated, starting := s }
  | .pulseOut o source q w => { m with pout := upd m.pout o (newPulse m.ctl.cycles source q w) }
  | .pulseIn i u wt d => { m with pin := upd m.pin i fun (p : PulseIn) => { p with use := u, weight := wt, debounce := d } }

/-- Number of an item in its logbook entry. -/
def itemNum : SealedItem → Nat
  | .wiringMode _ => 1
  | .declaredVoltage _ => 2
  | .nominalFrequency _ => 3
  | .ratedCurrent _ => 4
  | .voltageRatio _ => 5
  | .currentRatio _ => 6
  | .dcEntry c _ _ _ => 0x500 + c
  | .pulseOut o _ _ _ => 0x600 + o
  | .pulseIn i _ _ _ => 0x700 + i

/-- A sealed write is counted and logged with the item, the old and the new CRC. -/
def logWrite (item : Nat) (old new : U32) (m : Metro) : Metro :=
  logEntry 5 0xFF (leBytes 4 item ++ leBytes 4 old.toNat ++ leBytes 4 new.toNat)
    (m.onCtl fun c => { c with sealedWrites := c.sealedWrites + 1 })

/-- CAL_WRITE; the new record CRC is a free value. -/
def calWriteMet (free : Nat) (x : CalItem) (m : Metro) : Metro × Nat × List Byte :=
  if calOk x then
    let new := BitVec.ofNat 32 (Config.freeNat free)
    (logWrite (calNum x) m.ctl.calCrc new ((calWrite x m).onCtl fun c => { c with calCrc := new }), 0, [])
  else (m, 5, [])

/-- BARRIER_CAL_WRITE. -/
def execBarrierCalWrite (q : BarrierReq) (item : CalItem) (s : State) : Host.Outcome State Fault Refusal :=
  .next ((serve q 7 (calWriteMet s.free item) s).useFree 1)

/-- CONFIG_WRITE; the new record CRC is a free value. -/
def configWriteMet (free : Nat) (x : SealedItem) (m : Metro) : Metro × Nat × List Byte :=
  if itemOk m x then
    let new := BitVec.ofNat 32 (Config.freeNat free)
    (logWrite (itemNum x) m.ctl.cfgCrc new ((itemWrite x m).onCtl fun c => { c with cfgCrc := new }), 0, [])
  else (m, 5, [])

/-- BARRIER_CONFIG_WRITE. -/
def execBarrierConfigWrite (q : BarrierReq) (item : SealedItem) (s : State) : Host.Outcome State Fault Refusal :=
  .next ((serve q 8 (configWriteMet s.free item) s).useFree 1)

/-- BARRIER_PQ_WRITE: the thresholds of Table 11.3. -/
def execBarrierPqWrite (q : BarrierReq) (sag swell interruption hysteresis u0 : U16) (s : State) : Host.Outcome State Fault Refusal :=
  .next (serve q 9 (fun m =>
    ({ m with ac := (let a := m.ac; { a with pq := [sag, swell, interruption, hysteresis, u0] }) }, 0, [])) s)

/-- IMAGE: segments in order; the whole image is checked and held until SEAL closes (R408). -/
def imageMet (seg : Nat) (last : Bool) (d : List Byte) (m : Metro) : Metro × Nat × List Byte :=
  match joinSegment m.ctl.partialImg seg d with
  | none => (m.onCtl fun c => { c with partialImg := none }, 5, [])
  | some (n, b) =>
    if !last then (m.onCtl fun c => { c with partialImg := some (n, b) }, 0, [])
    else if Config.metrologyImageOk b then (m.onCtl fun c => { c with partialImg := none, heldImg := some b }, 0, [])
    else (m.onCtl fun c => { c with partialImg := none }, 5, [])

/-- BARRIER_IMAGE. -/
def execBarrierImage (q : BarrierReq) (segment : U16) (last : Bool) (data : List Byte) (s : State) : Host.Outcome State Fault Refusal :=
  .next (serve q 0xA (imageMet segment.toNat last data) s)

/-! ## TAMPER (R294, R297) -/

/-- Span of the estimate in ticks: at most 1 s, and 1 s where the timestamp cannot be measured against t_m. -/
def estimateSpan (i : MetImage) (pf : Nat) (pfValid : Bool) : Nat :=
  match i.delta, i.legal with
  | some d, some t =>
    let x : Int := (pf : Int) + d - t
    if pfValid && decide (0 < x) then min x.toNat 32768 else 32768
  | _, _ => 32768

/-- mWh of a mean power, an energy u (2^-32 mWh) over the image's interval, for t ticks, rounded down. -/
def estimateOf (i : MetImage) (u t : Nat) : Nat := if i.span = 0 then 0 else u * t * 750 / (i.span * 2 ^ 32)

/-- The unbilled estimates go to registers 0-3 and 6 of group 290. -/
def unbilled (i : MetImage) (t : Nat) (m : Metro) : Metro :=
  let dcImp := estimateOf i (sumNat ((i.means.drop 1).map Prod.fst)) t
  let dcExp := estimateOf i (sumNat ((i.means.drop 1).map Prod.snd)) t
  let acImp := estimateOf i (nth i.means 0).1 t
  let acExp := estimateOf i (nth i.means 0).2 t
  let m := m.onRegs fun r =>
    let r := addReg 290 6 1 (addReg 290 3 acExp (addReg 290 2 acImp (addReg 290 1 dcExp (addReg 290 0 dcImp r))))
    { r with flags := r.flags ||| 0x20 }
  logEntry 0x13 0 (leBytes 6 (dcImp + acImp) ++ leBytes 6 (dcExp + acExp)) m

/-- TAMPER: the latches are logged once the section is in START or READY; the first after a start decides on the unbilled estimate. -/
def tamperMet (latches : BitVec 4) (pf : U64) (pfValid : Bool) (m : Metro) : Metro × Nat × List Byte :=
  let m := if advances m then logEntry 0x14 0xFF [latches.setWidth 8] m else m.onCtl fun c => { c with tamperDue := some latches }
  let m := match m.ctl.loaded with
    | some i => if i.pf then m else unbilled i (estimateSpan i pf.toNat pfValid) m
    | none => m
  (m.onCtl fun c => { c with loaded := none }, 0, [])

/-- The latches named are acknowledged. -/
def ackLatches (latches : BitVec 4) (s : State) : State :=
  { s with bk := (let k := s.bk
                  { k with inputs := k.inputs.mapIdx fun i (t : TampIn) => { t with acked := t.acked || (t.latched && latches.getLsbD i) } }) }

/-- BARRIER_TAMPER. -/
def barrierTamperEffect (q : BarrierReq) (latches : BitVec 4) (pf : U64) (pfValid : Bool) (s : State) : State :=
  let s' := serve q 0xC (tamperMet latches pf pfValid) s
  if (turnedAway s q 0xC).isNone then ackLatches latches s' else s'

/-- BARRIER_TAMPER. -/
def execBarrierTamper (q : BarrierReq) (latches : BitVec 4) (pfTime : U64) (pfValid : Bool) (s : State) :
    Host.Outcome State Fault Refusal :=
  .next (barrierTamperEffect q latches pfTime pfValid s)

end Sys2Proof.Machine
end

