-- ==== Sys2Proof/Machine/Storage.lean ====
section
/-! DEFINITION. The NAND storage manager (R390-R398) and Waypoint's placement of data (R192): the partitions, the choice of a block, grown
bad blocks and the spare pool, requests, refresh and scrub, and the streams that other units append to. -/

namespace Sys2Proof.Machine

/-! ## Slots of a lane (R402) -/

/-- Slot k of a directory, false for slot 0. -/
def SlotDir.slot (d : SlotDir) (k : Bool) : FwSlot := if k then d.slot1 else d.slot0

/-- d with slot k changed. -/
def SlotDir.modSlot (k : Bool) (f : FwSlot → FwSlot) (d : SlotDir) : SlotDir :=
  if k then { d with slot1 := f d.slot1 } else { d with slot0 := f d.slot0 }

/-! ## Blocks -/

/-- s with the storage manager changed. -/
def modNand (f : Nand → Nand) (s : State) : State := { s with nand := f s.nand }

/-- Block i before anything happened to it. -/
def freshBlk (i : Nat) : NandBlk :=
  { id := i, stream := none, part := 0, erases := 0, reads := 0, bad := Config.nandFactoryBad i, seq := 0, pages := [] }

/-- Block i. -/
def Nand.blk (n : Nand) (i : Nat) : NandBlk := (n.blocks.find? fun b => b.id == i).getD (freshBlk i)

/-- A block inserted by ascending number, replacing the one of its number. -/
def insertBlk (b : NandBlk) : List NandBlk → List NandBlk
  | [] => [b]
  | c :: t => if b.id < c.id then b :: c :: t else if b.id = c.id then b :: t else c :: insertBlk b t

/-- n with block i changed. -/
def Nand.modBlk (i : Nat) (f : NandBlk → NandBlk) (n : Nand) : Nand := { n with blocks := insertBlk (f (n.blk i)) n.blocks }

/-- The storage manager works: the array is ready and a lane is active (R391). -/
def nandWorks (s : State) : Bool :=
  s.nand.st == 2 && (activeLane s).isSome && s.modes.mode != .boot && s.modes.mode != .backup

/-! ## Partitions (Table 20.2) -/

/-- Blocks that hold n MiB. -/
def mibBlocks (n : Nat) : Nat := ceilDiv (n * 2 ^ 20) (max 1 Config.nandBlockBytes)

/-- Blocks of a lane's slot partition: 2 x 64 MiB plus 10 % slack. -/
def slotBlocks : Nat := ceilDiv (mibBlocks 128 * 11) 10

/-- Spare pool held at the format: 4 % of the good blocks, rounded up (R395). -/
def formatSpare (n : Nand) : Nat := ceilDiv (n.good * 4) 100

/-- The remainder R. -/
def restBlocks (n : Nand) : Nat := n.good - (8 + 2 * slotBlocks + 2 * mibBlocks 128) - formatSpare n

/-- Blocks of partition p; partitions 5 and 6 shrink by what the pool borrowed from them. -/
def partBlocks (n : Nand) : Nat → Nat
  | 0 => 8
  | 1 => slotBlocks
  | 2 => slotBlocks
  | 3 => mibBlocks 128
  | 4 => mibBlocks 128
  | 5 => restBlocks n / 4 - (n.borrowed + 1) / 2
  | 6 => restBlocks n / 2 - n.borrowed / 2
  | _ => restBlocks n / 4

/-- The fixed partition a block number lies in: the anchor, the lanes' slots and the staging area (log entry 20). -/
def fixedPart (i : Nat) : Option Nat :=
  if i % 8 ≤ 1 ∧ i / 8 < 4 then some 0
  else if i < 32 then none
  else if i < 32 + slotBlocks then some 1
  else if i < 32 + 2 * slotBlocks then some 2
  else if i < 32 + 2 * slotBlocks + mibBlocks 128 then some 3
  else none

/-- Slot of a lane that a block of its partition belongs to. -/
def slotOfBlock (i : Nat) : Bool :=
  let o := if i < 32 + slotBlocks then i - 32 else i - 32 - slotBlocks
  decide (slotBlocks ≤ 2 * o)

/-! ## Streams (Table 9.6) -/

/-- Stream classes. -/
inductive StreamClass where
  | hot | warm | cold
  deriving DecidableEq, Repr, Inhabited

/-- Class of a stream. -/
def streamClass : Stream → StreamClass
  | .eventArchive => .hot
  | .loadProfile => .hot
  | .signedBilling => .warm
  | .configArchive => .warm
  | .firmware => .cold

/-- Partition of a stream. -/
def streamPart : Stream → Nat
  | .eventArchive => 5
  | .loadProfile => 6
  | .signedBilling => 7
  | .configArchive => 4
  | .firmware => 3

/-- Copies of a stream. -/
def streamCopies : Stream → Nat
  | .signedBilling => 2
  | _ => 1

/-! ## Choice of a block (R192) -/

/-- Free blocks among the numbers that place selects. -/
def freeWhere (place : Nat → Bool) (n : Nand) : List NandBlk :=
  (((List.range Config.nandBlocks).filter place).map n.blk).filter fun b => b.stream.isNone && !b.bad

/-- Blocks a stream may take. -/
def freeBlocks (st : Stream) (n : Nand) : List NandBlk :=
  freeWhere (fun i => fixedPart i == (if st = .firmware then some 3 else none)) n

/-- Block i belongs to slot k of lane l. -/
def inSlot (l : Lane) (k : Bool) (i : Nat) : Bool := fixedPart i == some (if l = .a then 1 else 2) && slotOfBlock i == k

/-- Blocks i and j may hold each other's data: one partition, and in a lane's partition one slot. -/
def samePlace (i j : Nat) : Bool :=
  fixedPart i == fixedPart j && (!(fixedPart i == some 1 || fixedPart i == some 2) || slotOfBlock i == slotOfBlock j)

/-- The target a stream's rotation takes next. -/
def Nand.target (st : Stream) (n : Nand) : Nat := ((n.targets.find? fun p => p.1 == st).map (·.2)).getD 0

/-- The rotation of a stream after it took block i. -/
def Nand.rotate (st : Stream) (i : Nat) (n : Nand) : Nand :=
  { n with targets := (st, (i % 8 + 1) % 8) :: n.targets.filter fun p => p.1 != st }

/-- A number inserted in ascending order. -/
def insertNat (a : Nat) : List Nat → List Nat
  | [] => [a]
  | b :: t => if a ≤ b then a :: b :: t else b :: insertNat a t

/-- Lower median of a list. -/
def medianNat (l : List Nat) : Nat := (l.foldr insertNat []).getD ((l.length - 1) / 2) 0

/-- The first element that no other beats. -/
def pickBlk (better : NandBlk → NandBlk → Bool) (l : List NandBlk) : Option NandBlk :=
  l.foldl (fun (best : Option NandBlk) b =>
    match best with
    | none => some b
    | some c => if better b c then some b else some c) none

/-- The block a class takes from candidates, given the erase counts of the free pool; ties to the lowest number. -/
def chooseBlk (c : StreamClass) (pool : List Nat) (l : List NandBlk) : Option NandBlk :=
  match c with
  | .hot => pickBlk (fun a b => decide (a.erases < b.erases)) l
  | .cold => pickBlk (fun a b => decide (b.erases < a.erases)) l
  | .warm => pickBlk (fun a b => decide (a.erases < b.erases)) (l.filter fun b => decide (medianNat pool ≤ b.erases))

/-- The block for a stream among free ones, on the first target of the stream's rotation that has one, on a channel other than the
one to avoid. -/
def placeBlk (st : Stream) (avoid : Option Nat) (free : List NandBlk) (n : Nand) : Option NandBlk :=
  (List.range 8).findSome? fun r =>
    let t := (n.target st + r) % 8
    if avoid = some (t % 2) then none
    else chooseBlk (streamClass st) (free.map (·.erases)) (free.filter fun b => b.id % 8 == t)

/-- Block i erased: it is free, with one more erase. -/
def NandBlk.erase (b : NandBlk) : NandBlk := { b with stream := none, pages := [], reads := 0, erases := b.erases + 1 }

/-- Blocks of partition p that hold data. -/
def partUsed (p : Nat) (n : Nand) : List NandBlk := n.blocks.filter fun b => b.stream.isSome && b.part == p

/-- The oldest block of a full partition is reclaimed: every ring overwrites its oldest entry (R396). -/
def reclaim (p : Nat) (n : Nand) : Nand :=
  if (partUsed p n).length < partBlocks n p then n
  else
    match pickBlk (fun a b => decide (a.seq < b.seq)) (partUsed p n) with
    | some b => n.modBlk b.id NandBlk.erase
    | none => n

/-- One block opened for a stream. -/
def openBlk (st : Stream) (avoid : Option Nat) (n : Nand) : Nand × Option Nat :=
  let n := reclaim (streamPart st) n
  match placeBlk st avoid (freeBlocks st n) n with
  | none => (n, none)
  | some b =>
    let n := n.modBlk b.id fun c => { c with stream := some st, part := streamPart st, seq := n.nextSeq, pages := [] }
    ((Nand.rotate st b.id { n with opened := n.opened ++ [(st, b.id)], nextSeq := n.nextSeq + 1 }), some b.id)

/-- Fresh open blocks for a stream, one for each copy, two copies on different channels. -/
def allocStream (st : Stream) (n : Nand) : Nand :=
  let n := { n with opened := n.opened.filter fun p => p.1 != st }
  let p := openBlk st none n
  if streamCopies st = 2 then (openBlk st (p.2.map (· % 2)) p.1).1 else p.1

/-- Open blocks of a stream. -/
def openOf (st : Stream) (n : Nand) : List Nat := (n.opened.filter fun p => p.1 == st).map (·.2)

/-- One page appended to every open block of a stream. -/
def appendPage (st : Stream) (n : Nand) (data : List Byte) : Nand :=
  let full := (openOf st n).isEmpty || (openOf st n).any fun i => decide (Config.nandBlockPages ≤ (n.blk i).pages.length)
  let n := if full then allocStream st n else n
  (openOf st n).foldl (fun (n : Nand) i => n.modBlk i fun b => { b with pages := b.pages ++ [(b.pages.length, data)] }) n

/-- Data cut into pages of k bytes. -/
def pagesOf (k : Nat) : Nat → List Byte → List (List Byte)
  | 0, d => [d]
  | f + 1, d => if d.length ≤ k then [d] else d.take k :: pagesOf k f (d.drop k)

/-- Data appended to a stream. -/
def appendStream (st : Stream) (data : List Byte) (n : Nand) : Nand :=
  (pagesOf (max 1 Config.nandPageBytes) data.length data).foldl (appendPage st) n

/-- Data appended to a stream where the storage manager works. -/
def archive (st : Stream) (data : List Byte) (s : State) : State :=
  if nandWorks s then recheckSpares (modNand (appendStream st data) s) else s

/-! ## SIGNED records (R265, R409) -/

/-- The highest signed record number held. -/
def highestSigned (o : Option U32) (n : U32) : U32 :=
  match o with
  | some k => if k.toNat < n.toNat then n else k
  | none => n

/-- Record r is numbered above the highest one in partition 7. -/
def signedAbove (o : Option U32) (r : SignedRecord) : Bool :=
  match o with
  | some k => decide (k.toNat < r.number.toNat)
  | none => true

/-- A record written to partition 7. -/
def writeSigned (s : State) (r : SignedRecord) : State :=
  modNand (fun n => { n with lastSigned := some (highestSigned n.lastSigned r.number) })
    (archive .signedBilling (r.body ++ r.signature) s)

/-- The active lane writes the records it holds that partition 7 lacks; the other lane keeps them until that is done. -/
def flushSigned (l : Lane) (s : State) : State :=
  let held := fun (s : State) => (s.lane l).signed.filter (signedAbove s.nand.lastSigned)
  if activeLane s = some l ∧ nandWorks s then ((held s).foldl writeSigned s).modLane l fun x => { x with signed := [] }
  else s.modLane l fun x => { x with signed := held s }

/-! ## Moves and grown bad blocks (R394, R395, R397) -/

/-- The data of block i moved to a free block; the old block is changed by f. -/
def moveData (i : Nat) (f : NandBlk → NandBlk) (n : Nand) : Nand :=
  let b := n.blk i
  match b.stream with
  | none => n.modBlk i f
  | some st =>
    match placeBlk st none (freeWhere (samePlace i) n) n with
    | none => n.modBlk i f
    | some d =>
      let n := n.modBlk d.id fun c => { c with stream := b.stream, part := b.part, seq := b.seq, pages := b.pages }
      let n := n.modBlk i f
      Nand.rotate st d.id { n with opened := n.opened.map fun p => if p.2 = i then (p.1, d.id) else p }

/-! ## Firmware slots (R192, R401) -/

/-- The blocks of slot k of lane l erased. -/
def clearSlot (l : Lane) (k : Bool) (n : Nand) : Nand :=
  { n with blocks := n.blocks.map fun b => if inSlot l k b.id && b.stream.isSome then b.erase else b }

/-- One block of an image written to slot k of lane l, where Waypoint places it by the COLD class. -/
def slotBlock (l : Lane) (k : Bool) (n : Nand) (d : List Byte) : Nand :=
  match placeBlk .firmware none (freeWhere (inSlot l k) n) n with
  | none => n
  | some b =>
    let pages := (pagesOf (max 1 Config.nandPageBytes) d.length d).mapIdx fun i p => (i, p)
    let n := n.modBlk b.id fun c =>
      { c with stream := some .firmware, part := if l = .a then 1 else 2, seq := n.nextSeq, pages := pages }
    Nand.rotate .firmware b.id { n with nextSeq := n.nextSeq + 1 }

/-- An image written to slot k of lane l. -/
def storeSlot (l : Lane) (k : Bool) (img : List Byte) (n : Nand) : Nand :=
  (pagesOf (max 1 Config.nandBlockBytes) img.length img).foldl (slotBlock l k) (clearSlot l k n)

/-- A block leaves service: out of every stream, for good. -/
def NandBlk.retire (b : NandBlk) : NandBlk := { b with bad := true, stream := none, pages := [] }

/-- A grown bad block is replaced from the pool, or from partitions 5 and 6 once the pool is below 1 %. -/
def replaceBad (n : Nand) : Nand :=
  let n := { n with grown := n.grown + 1 }
  if 0 < n.spare ∧ n.good ≤ 100 * n.spare then { n with spare := n.spare - 1 } else { n with borrowed := n.borrowed + 1 }

/-- A block inside a slot marks the slot not present and enters the slot directory (R395, R409). -/
def slotBad (i : Nat) (s : State) : State :=
  let f := fun (x : LaneState) =>
    { x with slots := (let d := x.slots.modSlot (slotOfBlock i) fun v => { v with present := false }
                       { d with badBlocks := d.badBlocks ++ [i] }) }
  match fixedPart i with
  | some 1 => s.modLane .a f
  | some 2 => s.modLane .b f
  | _ => s

/-- Block i, requested on queue q, grows bad. -/
def growBad (q i : Nat) (s : State) : State :=
  let s := slotBad i (modNand (fun n => replaceBad (moveData i NandBlk.retire n)) s)
  recheckSpares (evt (eventReq .nandFailure q [i]) s)

/-! ## NAND_BLOCK_ALLOCATE, NAND_STATIC_RELOCATION -/

/-- Waypoint chooses the next block of a stream. -/
def nandAllocateEffect (st : Stream) (s : State) : State :=
  if nandWorks s then recheckSpares (modNand (allocStream st) s) else s

/-- NAND_BLOCK_ALLOCATE. -/
def execNandBlockAllocate (st : Stream) (s : State) : Host.Outcome State Fault Refusal := .next (nandAllocateEffect st s)

/-- In-use block with the lowest and the highest erase count. -/
def usedSpread (n : Nand) : Option (NandBlk × NandBlk) :=
  let used := n.blocks.filter fun b => b.stream.isSome
  match pickBlk (fun a b => decide (a.erases < b.erases)) used, pickBlk (fun a b => decide (b.erases < a.erases)) used with
  | some a, some b => some (a, b)
  | _, _ => none

/-- The data of the least worn block in use moves into the most worn free block (R192). -/
def relocate (b : NandBlk) (n : Nand) : Nand :=
  match pickBlk (fun a c => decide (c.erases < a.erases)) (freeWhere (samePlace b.id) n) with
  | none => n
  | some d =>
    let n := n.modBlk d.id fun c => { c with stream := b.stream, part := b.part, seq := b.seq, pages := b.pages }
    let n := n.modBlk b.id NandBlk.erase
    { n with relocations := n.relocations + 1, opened := n.opened.map fun p => if p.2 = b.id then (p.1, d.id) else p }

/-- A relocation is due: the counts differ by more than object 3300:0A, and the interval of 3300:0B s has passed. -/
def relocDue (s : State) (a b : NandBlk) : Bool :=
  decide (cfgN s 0x3300 0xA < b.erases - a.erases)
    && match s.nand.relocAt with
       | some t => decide (t + cfgN s 0x3300 0xB * 1000000000 ≤ s.clk.ns)
       | none => true

/-- At most one static relocation. -/
def nandRelocationEffect (s : State) : State :=
  match usedSpread s.nand with
  | some (a, b) =>
    if nandWorks s ∧ relocDue s a b then recheckSpares (modNand (fun n => { relocate a n with relocAt := some s.clk.ns }) s) else s
  | none => s

/-- NAND_STATIC_RELOCATION. -/
def execNandStaticRelocation (s : State) : Host.Outcome State Fault Refusal := .next (nandRelocationEffect s)

/-! ## NAND_REQUEST (R392-R395) -/

/-- s with the answer of a request. -/
def nandAnswer (ok : Bool) (d : List Byte) (s : State) : State := modNand (fun n => { n with answer := some (ok, d) }) s

/-- Rotation number of the target that queue 100 + q serves: channel 0 targets 0-3, then channel 1 (Table 1.8). -/
def queueTarget (q : Nat) : Nat := q % 4 * 2 + q / 4

/-- Block i lies on the queue's target and is in service. -/
def blockUsable (s : State) (q i : Nat) : Bool :=
  decide (i < Config.nandBlocks) && i % 8 == queueTarget q && !(s.nand.blk i).bad

/-- Bits corrected at the first retry level that can correct the worst sector: 72 at most (R393, R394). -/
def corrected (s : State) (a : NandAnswer) : Option Nat := (a.errorBits.take (1 + cfgN s 0x2501 5)).find? fun e => decide (e ≤ 72)

/-- Content of a page, none where it was not programmed. -/
def NandBlk.page (b : NandBlk) (p : Nat) : Option (List Byte) := (b.pages.find? fun e => e.1 == p).map (·.2)

/-- A page read: the data, corrected; an uncorrectable sector of a stream in two copies is read from the other copy. -/
def nandRead (q i p : Nat) (a : NandAnswer) (s : State) : State :=
  let b := s.nand.blk i
  let data := (b.page p).getD (Config.freeBytes s.free Config.nandPageBytes)
  let s := State.useFree (modNand (fun n => n.modBlk i fun b => { b with reads := b.reads + 1 }) s) 1
  match corrected s a with
  | some e => nandAnswer true data (modNand (fun n => { n with corrected := n.corrected + BitVec.ofNat 64 e }) s)
  | none =>
    if b.stream = some .signedBilling then growBad q i (nandAnswer true data s)
    else
      let lose := fun (n : Nand) => n.modBlk i fun b => { b with pages := b.pages.filter fun e => e.1 != p }
      growBad q i (nandAnswer false [] (modNand (fun n => { lose n with uncorrectable := n.uncorrectable + 1 }) s))

/-- A page programmed. -/
def NandBlk.program (p : Nat) (d : List Byte) (b : NandBlk) : NandBlk :=
  { b with pages := b.pages.filter (fun e => e.1 != p) ++ [(p, d)] }

/-- A request on queue 100 + q: it completes in full or fails in full. -/
def nandRequestEffect (q : Nat) (op : NandOp) (a : NandAnswer) (s : State) : State :=
  if !(nandWorks s) then s
  else
    match op with
    | .read i p => if blockUsable s q i then nandRead q i p a s else nandAnswer false [] s
    | .program i p d =>
      if d.isEmpty then nandAnswer true [] s
      else if !(blockUsable s q i) then nandAnswer false [] s
      else if a.statusFail then growBad q i (nandAnswer false [] s)
      else nandAnswer true [] (modNand (fun n => n.modBlk i (NandBlk.program p d)) s)
    | .erase i =>
      if !(blockUsable s q i) then nandAnswer false [] s
      else if a.statusFail then growBad q i (nandAnswer false [] s)
      else nandAnswer true [] (modNand (fun n => n.modBlk i NandBlk.erase) s)

/-- NAND_REQUEST. -/
def execNandRequest (q : Fin 8) (op : NandOp) (ans : NandAnswer) (s : State) : Host.Outcome State Fault Refusal :=
  .next (nandRequestEffect q op ans s)

/-! ## Refresh (R397, R398) -/

/-- Block i's data moves to a free block and the old block is erased. -/
def refresh (i : Nat) (s : State) : State :=
  recheckSpares (modNand (fun n => let n := moveData i NandBlk.erase n; { n with moves := n.moves + 1 }) s)

/-- A block whose reads reached object 2501:02 is refreshed. -/
def readDisturbEffect (i : Nat) (s : State) : State :=
  let b := s.nand.blk i
  if nandWorks s ∧ b.stream.isSome ∧ cfgN s 0x2501 2 ≤ b.reads then refresh i s else s

/-- READ_DISTURB_REFRESH. -/
def execReadDisturbRefresh (block : Nat) (s : State) : Host.Outcome State Fault Refusal := .next (readDisturbEffect block s)

/-- Programmed pages of the array. -/
def programmedPages (n : Nand) : Nat := sumNat (n.blocks.map fun b => b.pages.length)

/-- One page of the pass read, with e bits corrected. -/
def scrubStep (i e : Nat) (n : Nand) : Nand :=
  let n := n.modBlk i fun b => { b with reads := b.reads + 1 }
  let done := decide (programmedPages n ≤ n.scrubPos + 1)
  { n with scrubPos := if done then 0 else n.scrubPos + 1, scrubFirst := n.scrubFirst && !done
           corrected := n.corrected + BitVec.ofNat 64 e }

/-- The scrub reads a page of block i and moves the block where it shows object 2501:01 bits or is older than 2501:04 days. -/
def scrubEffect (i bits days : Nat) (s : State) : State :=
  if nandWorks s ∧ (s.nand.blk i).stream.isSome then
    let s := modNand (scrubStep i bits) s
    if cfgN s 0x2501 1 ≤ bits ∨ cfgN s 0x2501 4 < days then refresh i s else s
  else s

/-- SCRUB_PAGE. -/
def execScrubPage (block : Nat) (worstBits : Nat) (ageDays : Nat) (s : State) : Host.Outcome State Fault Refusal :=
  .next (scrubEffect block worstBits ageDays s)

/-! ## LOAD_PROFILE_WRITE (R396) -/

/-- The active lane writes the 33 records of the minute; their contents are the free values' (log entry 3). -/
def loadProfileEffect (s : State) : State :=
  if nandWorks s then
    let d := Config.freeBytes s.free 2112
    modNand (fun n => { n with profiles := n.profiles + 33 }) (archive .loadProfile d (s.useFree 1))
  else s

/-- LOAD_PROFILE_WRITE. -/
def execLoadProfileWrite (s : State) : Host.Outcome State Fault Refusal := .next (loadProfileEffect s)

/-! ## Boot step 3 (R390, R395) -/

/-- The first format: the factory bad blocks are marked and the pool is held. -/
def formatNand (n : Nand) : Nand :=
  let bad := countTrue Config.nandBlocks Config.nandFactoryBad
  let n := { n with st := 2, good := Config.nandBlocks - bad, factoryBad := BitVec.ofNat 32 bad }
  { n with spare := formatSpare n }

/-- 30 days in ticks of the RTC. -/
def thirtyDays : Nat := 30 * 86400 * 2 ^ 15

/-- The RTC shows that the device was unpowered for more than 30 days (R398). -/
def longOff (s : State) : Bool :=
  match s.bk.offAt with
  | some t => !s.bk.invalid && decide (thirtyDays < (s.bk.rtc - t).toNat)
  | none => false

/-- The scrub restarts after a long time without power, and reads at normal priority for one pass. -/
def scrubRestart (s : State) : State :=
  let s := if longOff s then modNand (fun n => { n with scrubPos := 0, scrubFirst := true }) s else s
  { s with bk := (let k := s.bk; { k with offAt := none }) }

/-- What a lane finds of the array at step 3: a target that fails Table 20.1 is not used. -/
def nandBoot (l : Lane) (ok : Bool) (s : State) : State :=
  if ok then scrubRestart (modNand (fun n => if n.good = 0 then formatNand n else { n with st := 2 }) s)
  else evtLane l (eventReq .nandTarget 127 []) (modNand (fun n => { n with st := if n.good = 0 then 0 else 3 }) s)

end Sys2Proof.Machine
end

