-- ==== Sys2Proof/Machine/TileIns.lean ====
section
/-! DEFINITION. The tile dialect (R131): one meaning for each instruction, acting on the registers of the slot a tile runs. A
word the reel checks of Table 6.8 refuse is in no reel and has no effect (log entry 6), nor has one with no slot running. -/

namespace Sys2Proof.Machine

/-! ## Checks of Table 6.8, codes 5 to 7 and 9 -/

/-- A field an instruction does not use is 0 (code 5). -/
def unused (b : Bool) (v : Nat) : Bool := b || v == 0

/-- Unused destination, sources and immediate bits outside mask m are 0. -/
def fieldsOk (w : TileArgs) (useD useA useB : Bool) (m : Nat) : Bool :=
  unused useD (argD w) && unused useA (argA w) && unused useB (argB w) && (w.imm &&& ~~~ BitVec.ofNat 11 m) == 0

/-- NOP uses no field. -/
def tileNopOk (w : TileArgs) : Bool := fieldsOk w false false false 0
/-- LDP: stage destination, port + count - 1 at most 15. -/
def tileLdpOk (w : TileArgs) : Bool :=
  fieldsOk w true false false 0x7F && isStageDest (argD w) && decide (argImm w 3 0 + argImm w 6 4 ≤ 15)
/-- LDK: stage destination; the index is below KCOUNT, at most 256. -/
def tileLdkOk (w : TileArgs) : Bool := fieldsOk w true false false 0xFF && isStageDest (argD w)
/-- MOV: stage to stage; an element only with the broadcast bit. -/
def tileMovOk (w : TileArgs) : Bool :=
  fieldsOk w true true false 0xF && isStageDest (argD w) && isStageId (argA w) && (argImm w 3 3 == 1 || argImm w 2 0 == 0)
/-- STO: any register, port at most 7. -/
def tileStoOk (w : TileArgs) : Bool := fieldsOk w false true false 0x3F && isRegId (argA w)
/-- ADD and SUB: accumulator destination, any sources. -/
def tileAddOk (w : TileArgs) : Bool := fieldsOk w true true true 0 && isAccId (argD w) && isRegId (argA w) && isRegId (argB w)
/-- MUL and MAC: accumulator destination, stage sources. -/
def tileMulOk (w : TileArgs) : Bool := fieldsOk w true true true 0 && isAccId (argD w) && isStageId (argA w) && isStageId (argB w)
/-- CLP: destination of A's class, stage limits. -/
def tileClpOk (w : TileArgs) : Bool :=
  fieldsOk w true true true 0x1F && isStageId (argB w) && isStageId (argImm w 4 0)
    && (if isAccId (argA w) then isAccId (argD w) else isStageId (argA w) && isStageDest (argD w))
/-- RNM: accumulator to stage. -/
def tileRnmOk (w : TileArgs) : Bool := fieldsOk w true true false 0 && isStageDest (argD w) && isAccId (argA w)
/-- INT: Q destination, stage input, gain and limits. -/
def tileIntOk (w : TileArgs) : Bool :=
  fieldsOk w true true true 0x3FF && isQId (argD w) && isStageId (argA w) && isStageId (argB w) && isStageId (argImm w 9 5)
    && isStageId (argImm w 4 0)
/-- DRV: accumulator destination, stage A, P register B. -/
def tileDrvOk (w : TileArgs) : Bool := fieldsOk w true true true 0 && isAccId (argD w) && isStageId (argA w) && isPId (argB w)
/-- FLT: Q or A0-A1 destination, stage target and coefficient. -/
def tileFltOk (w : TileArgs) : Bool := tileMulOk w
/-- SEL: stages under a mask. -/
def tileSelOk (w : TileArgs) : Bool :=
  fieldsOk w true true true 3 && isStageDest (argD w) && isStageId (argA w) && isStageId (argB w)
/-- CMP: mask number in [22:21] with [25:23] = 0; condition 0 to 5. -/
def tileCmpOk (w : TileArgs) : Bool :=
  fieldsOk w true true true 7 && decide ((argD w) < 4) && isRegId (argA w) && isRegId (argB w) && decide (argImm w 2 0 ≤ 5)
/-- RMP: P destination, stage target, step and measured. -/
def tileRmpOk (w : TileArgs) : Bool :=
  fieldsOk w true true true 0x1F && isPId (argD w) && isStageId (argA w) && isStageId (argB w) && isStageId (argImm w 4 0)
/-- TSI: stage to stage. -/
def tileTsiOk (w : TileArgs) : Bool := fieldsOk w true true false 0x7F && isStageDest (argD w) && isStageId (argA w)
/-- CAP: any register. -/
def tileCapOk (w : TileArgs) : Bool := fieldsOk w false true false 0x1F && isRegId (argA w)
/-- CHK: any sources, stage tolerance. -/
def tileChkOk (w : TileArgs) : Bool :=
  fieldsOk w false true true 0x1F && isRegId (argA w) && isRegId (argB w) && isStageId (argImm w 4 0)

/-- The persistent register d may be written by the reel of a bay that is running (R113, code 9): the voltage-loop reel
writes only P4-P7 and Q2-Q3, the current-loop reel only P0-P3 and Q0-Q1. -/
def TileRun.ownReg (k : TileRun) (d : Nat) : Bool :=
  match k.loop with
  | some (.bay _) =>
    let voltage := decide (k.icount < k.firstIns)
    if isPId d then (decide (20 ≤ d) == voltage) else if isQId d then (decide (26 ≤ d) == voltage) else true
  | _ => true

/-- Constant index i of the running reel. -/
def TileRun.constIndex (k : TileRun) (i : Nat) : Nat := if k.icount < k.firstIns then i else k.firstK + i

/-! ## Running an instruction -/

/-- Tile t of a lane with its running slot replaced. -/
def setRunning (l : Lane) (t : Nat) (k : TileRun) (s : State) : State :=
  s.modLane l fun x => { x with tiles := upd x.tiles t fun y => { y with running := some k } }

/-- The slot tile t of lane l runs, unless it is committing the zeros of OFF. -/
def runningSlot (s : State) (l : Lane) (t : Nat) : Option TileRun :=
  match (nth (s.lane l).tiles t).running with
  | some k => if k.zero then none else some k
  | none => none

/-- Run f on the running slot of tile t when the word passes the checks; count the instruction. No reel holds a word that fails them
(R128, log 6). -/
def runTile (ok : Bool) (check : TileRun → Bool) (f : TileRun → TileRun) (l : Lane) (t : Nat) (s : State) :
    Host.Outcome State Fault Refusal :=
  .next (
    match runningSlot s l t with
    | none => s
    | some k => if ok && check k then setRunning l t { f k with icount := k.icount + 1 } s else s)

/-! ## Results on the registers -/

/-- LDP: elements 0 to n-1 from the ports, normalised together; the others 0 (R126). -/
def ldpResult (w : TileArgs) (k : TileRun) : TileRun :=
  let n := argImm w 6 4 + 1
  let p := argImm w 3 0
  let ports := (List.range n).map fun i => nth k.inPorts (p + i)
  let vals := (ports.map PortVal.pair) ++ List.replicate (8 - n) (0, 0)
  k.putStage (argD w) vals (ports.any (·.inv))

/-- LDK: every element is constant k; valid. -/
def ldkResult (w : TileArgs) (k : TileRun) : TileRun :=
  k.setStage (argD w) (constStage (nth k.consts (k.constIndex (argImm w 7 0))))

/-- MOV: A, or one element of A broadcast. -/
def movResult (w : TileArgs) (k : TileRun) : TileRun :=
  let vals := if argImm w 3 3 = 1 then List.replicate 8 (k.value (argA w) (argImm w 2 0)) else k.values (argA w)
  k.putStage (argD w) vals (k.invalid (argA w))

/-- Kind of an output port: none, a down-frame word, or a relay cell. -/
def outKind (c : U16) : Nat := if c = portNone then 3 else c.toNat / 2 ^ 14

/-- STO: the element converted for the port's kind; an invalid value raises INV (R125, R126). -/
def stoResult (w : TileArgs) (k : TileRun) : TileRun :=
  let port := argImm w 2 0
  let inv := k.invalid (argA w)
  let e := k.value (argA w) (argImm w 5 3)
  let single := normOne e inv
  let v := if isAccId (argA w) then single.1.val else e
  let k := { k.sat (isAccId (argA w) && single.2) with flagInv := k.flagInv || inv }
  match outKind (nth k.outCodes port) with
  | 0 =>
    let r := toWord v
    { k.sat r.2 with outPorts := put k.outPorts port (some (.word r.1)) }
  | 2 =>
    let stored : Cell :=
      if isAccId (argA w) then single.1
      else { m := nth (k.stage (argA w)).m (argImm w 5 3), e := (k.stage (argA w)).e, inv := inv }
    { k with outPorts := put k.outPorts port (some (.cell stored)) }
  | _ => k

/-- ADD: D := A + B. -/
def addResult (w : TileArgs) (k : TileRun) : TileRun :=
  k.putAcc (argD w) (combine (· + ·) (k.operand (argA w)) (k.operand (argB w)))

/-- SUB: D := A - B. -/
def subResult (w : TileArgs) (k : TileRun) : TileRun :=
  k.putAcc (argD w) (combine (· - ·) (k.operand (argA w)) (k.operand (argB w)))

/-- MUL: D := A x B, exact. -/
def mulResult (w : TileArgs) (k : TileRun) : TileRun := k.setAcc (argD w) (product (k.stage (argA w)) (k.stage (argB w)))

/-- MAC: D := D + A x B. -/
def macResult (w : TileArgs) (k : TileRun) : TileRun :=
  k.putAcc (argD w) (combine (· + ·) (k.acc (argD w)) (product (k.stage (argA w)) (k.stage (argB w))))

/-- One element limited: the value, and whether a limit was applied (R131 CLP). -/
def clampExact (lo hi v : Int × Int) : (Int × Int) × Bool :=
  let below := cmpExact v lo = .lt
  let v1 := if below then lo else v
  let above := cmpExact v1 hi = .gt
  (if above then hi else v1, decide (below ∨ above))

/-- Values limited element by element by two stages. -/
def clampAll (lo hi : Stage) (vals : List (Int × Int)) : List ((Int × Int) × Bool) :=
  (List.range 8).map fun i => clampExact (lo.elem i) (hi.elem i) (nth vals i)

/-- Bits as a mask, element 0 in bit 0. -/
def maskOf (l : List Bool) : BitVec 8 := BitVec.ofNat 8 ((List.range 8).foldl (fun m i => m + if nth l i then 2 ^ i else 0) 0)

/-- CLP: D := min(max(A, lower), upper); M3 tells where a limit was applied. -/
def clpResult (w : TileArgs) (k : TileRun) : TileRun :=
  let lo := k.stage (argB w)
  let hi := k.stage (argImm w 4 0)
  let r := clampAll lo hi (k.values (argA w))
  let vals := r.map Prod.fst
  let inv := k.invalid (argA w) || lo.inv || hi.inv
  let k := { k with masks := put k.masks 3 (maskOf (r.map Prod.snd)) }
  if isAccId (argA w) then k.putAcc (argD w) (accAt vals (k.acc (argA w)).exp inv) else k.putStage (argD w) vals inv

/-- RNM: D := A, normalised. -/
def rnmResult (w : TileArgs) (k : TileRun) : TileRun := k.putStage (argD w) (k.values (argA w)) (k.invalid (argA w))

/-- INT: D := min(max(D + A x B, lower), upper). -/
def intResult (w : TileArgs) (k : TileRun) : TileRun :=
  let sum := combine (· + ·) (k.acc (argD w)) (product (k.stage (argA w)) (k.stage (argB w)))
  let lo := k.stage (argImm w 4 0)
  let hi := k.stage (argImm w 9 5)
  let vals := (clampAll lo hi ((List.range 8).map sum.1.elem)).map (·.1)
  (k.sat sum.2).putAcc (argD w) (accAt vals sum.1.exp (sum.1.inv || lo.inv || hi.inv))

/-- DRV: D := A - B, then B := A. -/
def drvResult (w : TileArgs) (k : TileRun) : TileRun :=
  let d := combine (· - ·) (k.operand (argA w)) (k.operand (argB w))
  let a := k.values (argA w)
  let inv := k.invalid (argA w)
  (k.putAcc (argD w) d).putStage (argB w) a inv

/-- FLT: D + B x (A - D), A - D exact at the smaller unit; the product and D meet at the larger exponent (log entry 7). -/
def fltValue (d : Acc) (a b : Stage) : Acc × Bool :=
  let unitD := d.exp - 38
  let lo := min unitD (a.exp - 19)
  let unitP := lo + (b.exp - 19)
  let x := max unitD unitP
  let vals := (List.range 8).map fun i =>
    let diff := (nth a.m i).toInt * 2 ^ (a.exp - 19 - lo).toNat - (nth d.a i).toInt * 2 ^ (unitD - lo).toNat
    alignDown (nth d.a i).toInt (x - unitD) + roundShift (diff * (nth b.m i).toInt) (x - unitP)
  fixAcc (d.inv || a.inv || b.inv) 128 vals (x + 38)

/-- FLT on the registers. -/
def fltResult (w : TileArgs) (k : TileRun) : TileRun :=
  k.putAcc (argD w) (fltValue (k.acc (argD w)) (k.stage (argA w)) (k.stage (argB w)))

/-- SEL: element i is A's where mask bit i is 1, else B's. -/
def selResult (w : TileArgs) (k : TileRun) : TileRun :=
  let m := nth k.masks (argImm w 1 0)
  let vals := (List.range 8).map fun i => if m.getLsbD i then k.value (argA w) i else k.value (argB w) i
  k.putStage (argD w) vals (k.invalid (argA w) || k.invalid (argB w))

/-- The comparison a condition code names: 0 <, 1 <=, 2 =, 3 not equal, 4 >=, 5 >. -/
def condHolds (c : Nat) (o : Ordering) : Bool :=
  match c with
  | 0 => o == .lt
  | 1 => o != .gt
  | 2 => o == .eq
  | 3 => o != .eq
  | 4 => o != .lt
  | _ => o == .gt

/-- CMP: mask bit i := A_i compared with B_i. -/
def cmpResult (w : TileArgs) (k : TileRun) : TileRun :=
  let bits := (List.range 8).map fun i => condHolds (argImm w 2 0) (cmpExact (k.value (argA w) i) (k.value (argB w) i))
  { k with masks := put k.masks ((argD w) % 4) (maskOf bits) }

/-- One element of RMP: D + min(max(A - D, -B), B). -/
def rampElem (d a b : Int × Int) : Int × Int :=
  addExact d (minExact (maxExact (subExact a d) (-b.1, b.2)) b)

/-- RMP: in START first D := measured, then the ramp toward A by at most B (R131, R137); the measured operand's flag counts in every period
(R126). -/
def rmpResult (w : TileArgs) (k : TileRun) : TileRun :=
  let start := argImm w 4 0
  let from_ := if k.isStart then start else (argD w)
  let vals := (List.range 8).map fun i => rampElem (k.value from_ i) (k.value (argA w) i) (k.value (argB w) i)
  k.putStage (argD w) vals (k.invalid (argD w) && !k.isStart || k.invalid start || k.invalid (argA w) || k.invalid (argB w))

/-- TSI: D := A, with the generator value g on the named element. -/
def tsiResult (w : TileArgs) (g : Option (Nat × Int)) (k : TileRun) : TileRun :=
  let vals := (List.range 8).map fun i =>
    match g with
    | some (e, v) => if i = e then addExact (k.value (argA w) i) (v, 0) else k.value (argA w) i
    | none => k.value (argA w) i
  k.putStage (argD w) vals (k.invalid (argA w))

/-- CHK: MIS where some difference exceeds the tolerance or A or B is invalid; an invalid operand raises INV (R126). -/
def chkResult (w : TileArgs) (k : TileRun) : TileRun :=
  let tol := k.stage (argImm w 4 0)
  let inv := k.invalid (argA w) || k.invalid (argB w)
  let out := (List.range 8).any fun i =>
    let d := subExact (k.value (argA w) i) (k.value (argB w) i)
    cmpExact (d.1.natAbs, d.2) (tol.elem i) == .gt
  { k with flagMis := k.flagMis || out || inv, flagInv := k.flagInv || inv || tol.inv }

/-- CAP: the sample the element gives (R132). -/
def capSample (w : TileArgs) (k : TileRun) : U32 := sampleReal (k.value (argA w) (argImm w 2 0))

/-! ## The instructions -/

/-- No further check on the running slot. -/
def anySlot (_ : TileRun) : Bool := true

/-- NOP: no effect but the cycle it takes. -/
def execTileNop (l : Lane) (t : Fin 10) (w : TileArgs) (s : State) : Host.Outcome State Fault Refusal :=
  runTile (tileNopOk w) anySlot id l t s

/-- LDP. -/
def execTileLdp (l : Lane) (t : Fin 10) (w : TileArgs) (s : State) : Host.Outcome State Fault Refusal :=
  runTile (tileLdpOk w) (·.ownReg (argD w)) (ldpResult w) l t s

/-- LDK; an index at or above KCOUNT fails check 7. -/
def execTileLdk (l : Lane) (t : Fin 10) (w : TileArgs) (s : State) : Host.Outcome State Fault Refusal :=
  runTile (tileLdkOk w) (fun k => k.ownReg (argD w) && decide (k.constIndex (argImm w 7 0) < k.consts.length))
    (ldkResult w) l t s

/-- MOV. -/
def execTileMov (l : Lane) (t : Fin 10) (w : TileArgs) (s : State) : Host.Outcome State Fault Refusal :=
  runTile (tileMovOk w) (·.ownReg (argD w)) (movResult w) l t s

/-- STO. -/
def execTileSto (l : Lane) (t : Fin 10) (w : TileArgs) (s : State) : Host.Outcome State Fault Refusal :=
  runTile (tileStoOk w) anySlot (stoResult w) l t s

/-- ADD. -/
def execTileAdd (l : Lane) (t : Fin 10) (w : TileArgs) (s : State) : Host.Outcome State Fault Refusal :=
  runTile (tileAddOk w) (·.ownReg (argD w)) (addResult w) l t s

/-- SUB. -/
def execTileSub (l : Lane) (t : Fin 10) (w : TileArgs) (s : State) : Host.Outcome State Fault Refusal :=
  runTile (tileAddOk w) (·.ownReg (argD w)) (subResult w) l t s

/-- MUL. -/
def execTileMul (l : Lane) (t : Fin 10) (w : TileArgs) (s : State) : Host.Outcome State Fault Refusal :=
  runTile (tileMulOk w) (·.ownReg (argD w)) (mulResult w) l t s

/-- MAC. -/
def execTileMac (l : Lane) (t : Fin 10) (w : TileArgs) (s : State) : Host.Outcome State Fault Refusal :=
  runTile (tileMulOk w) (·.ownReg (argD w)) (macResult w) l t s

/-- CLP. -/
def execTileClp (l : Lane) (t : Fin 10) (w : TileArgs) (s : State) : Host.Outcome State Fault Refusal :=
  runTile (tileClpOk w) (·.ownReg (argD w)) (clpResult w) l t s

/-- RNM. -/
def execTileRnm (l : Lane) (t : Fin 10) (w : TileArgs) (s : State) : Host.Outcome State Fault Refusal :=
  runTile (tileRnmOk w) (·.ownReg (argD w)) (rnmResult w) l t s

/-- INT. -/
def execTileInt (l : Lane) (t : Fin 10) (w : TileArgs) (s : State) : Host.Outcome State Fault Refusal :=
  runTile (tileIntOk w) (·.ownReg (argD w)) (intResult w) l t s

/-- DRV; it writes B as well as D. -/
def execTileDrv (l : Lane) (t : Fin 10) (w : TileArgs) (s : State) : Host.Outcome State Fault Refusal :=
  runTile (tileDrvOk w) (fun k => k.ownReg (argD w) && k.ownReg (argB w)) (drvResult w) l t s

/-- FLT. -/
def execTileFlt (l : Lane) (t : Fin 10) (w : TileArgs) (s : State) : Host.Outcome State Fault Refusal :=
  runTile (tileFltOk w) (·.ownReg (argD w)) (fltResult w) l t s

/-- SEL. -/
def execTileSel (l : Lane) (t : Fin 10) (w : TileArgs) (s : State) : Host.Outcome State Fault Refusal :=
  runTile (tileSelOk w) (·.ownReg (argD w)) (selResult w) l t s

/-- CMP. -/
def execTileCmp (l : Lane) (t : Fin 10) (w : TileArgs) (s : State) : Host.Outcome State Fault Refusal :=
  runTile (tileCmpOk w) anySlot (cmpResult w) l t s

/-- RMP. -/
def execTileRmp (l : Lane) (t : Fin 10) (w : TileArgs) (s : State) : Host.Outcome State Fault Refusal :=
  runTile (tileRmpOk w) (·.ownReg (argD w)) (rmpResult w) l t s

/-- The generator's element and value at a TSI point of the loop, while the injection runs (R148): the element is that of object 3506:03, as
R148 says; where IMM [6:4] of R131 names another, R148 is followed (DEDUCED, log 55). -/
def injectionAt (s : State) (loop : Option LoopId) (point : Nat) : Option (Nat × Int) :=
  if s.clk.inj.st = 2 ∧ s.clk.inj.loop.isSome ∧ loop = s.clk.inj.loop ∧ rwN s 0x3506 2 = point then
    some (rwN s 0x3506 3, s.clk.inj.g)
  else none

/-- TSI. -/
def execTileTsi (l : Lane) (t : Fin 10) (w : TileArgs) (s : State) : Host.Outcome State Fault Refusal :=
  runTile (tileTsiOk w) (·.ownReg (argD w))
    (fun k => tsiResult w (injectionAt s k.loop (argImm w 3 0)) k) l t s

/-- The loop the capture is set to (object 3504:01). -/
def captureLoop (s : State) : Option LoopId := loopOfCode (rwN s 0x3504 1)

/-- The sample a CAP of the slot running on tile t gives, where capture runs for its loop. -/
def captureTake (w : TileArgs) (l : Lane) (t : Nat) (s : State) : State :=
  match runningSlot s l t with
  | none => s
  | some k =>
    if (s.clk.cap.st = 1 ∨ s.clk.cap.st = 2) ∧ k.loop.isSome ∧ k.loop = captureLoop s then
      { s with clk := { s.clk with cap := { s.clk.cap with
        samples := put s.clk.cap.samples (argImm w 4 3) (some (capSample w k)) } } }
    else s

/-- CAP. -/
def execTileCap (l : Lane) (t : Fin 10) (w : TileArgs) (s : State) : Host.Outcome State Fault Refusal :=
  runTile (tileCapOk w) anySlot id l t (if tileCapOk w then captureTake w l t s else s)

/-- CHK. -/
def execTileChk (l : Lane) (t : Fin 10) (w : TileArgs) (s : State) : Host.Outcome State Fault Refusal :=
  runTile (tileChkOk w) anySlot (chkResult w) l t s

/-- Mark tile t of lane l faulted (R110, R189). -/
def tileFault (l : Lane) (t : Nat) (s : State) : State :=
  s.modLane l fun x =>
    { x with tiles := upd x.tiles t fun y => { y with fault := true }, health := { x.health with tile := true } }

/-- A corrected error is counted. An uncorrectable error: the slot being run commits nothing, so its outputs keep their values; a state block is marked;
the tile reports a fault (R110). -/
def tileEccEffect (l : Lane) (t : Nat) (m : TileMem) (s : State) : State :=
  if m = .corrected then s.modLane l fun x => { x with tiles := upd x.tiles t fun y => { y with corrected := y.corrected + 1 } }
  else
  let s := s.modLane l fun x =>
    { x with tiles := upd x.tiles t fun y =>
        match m with
        | .state slot =>
          { y with blocks := upd y.blocks slot fun b => { b with bad := true }
                   running := match y.running with
                     | some k => if k.slot = slot.val then none else y.running
                     | none => none }
        | _ => { y with running := none } }
  tileFault l t s

/-- TILE_ECC_ERROR. -/
def execTileEccError (l : Lane) (t : Fin 10) (m : TileMem) (s : State) : Host.Outcome State Fault Refusal :=
  .next (tileEccEffect l t m s)

end Sys2Proof.Machine
end

