-- ==== Sys2Proof/Machine/Slots.lean ====
section
/-! DEFINITION. Reels, loop placement and slots: which reel a loop runs (R128), where Waypoint places each loop (R188), the start
of a slot (R111-R114, R117-R118) and its write-back (R119, R124). -/

namespace Sys2Proof.Machine

/-! ## Reels (R127, R128) -/

/-- Reel numbers a loop runs, the voltage-loop reel of a bay first. -/
def loopReels (s : State) : LoopId → List Nat
  | .bay n => let v := bayN s n 0x13; (if v = 0 then [] else [v]) ++ [bayN s n 0x12]
  | .module _ => [cfgN s 0x3500 1]
  | .string _ => [cfgN s 0x3500 2]
  | .slow j => [cfgN s (0x3520 + j) 1]

/-- The loop is used (R128). -/
def loopUsed (s : State) : LoopId → Bool
  | .bay n => bayUsed s n
  | .module j => (modCab s j).isSome
  | .string i => strUsed s i
  | .slow j => cfgN s (0x3520 + j) 1 != 0

/-- Bytes of a reel object. -/
def reelBytes (s : State) (r : Nat) : List Byte := if r = 0 then [] else cfgBytes s r 0

/-- ICOUNT of a reel container. -/
def reelI (b : List Byte) : Nat := field b 4 2

/-- KCOUNT of a reel container. -/
def reelK (b : List Byte) : Nat := field b 6 2

/-- Word i of a reel body. -/
def reelWord (b : List Byte) (i : Nat) : U32 := BitVec.ofNat 32 (field b (16 + 4 * i) 4)

/-- Instruction words of a reel. -/
def reelIns (b : List Byte) : List U32 := (List.range (reelI b)).map (reelWord b)

/-- Constant words of a reel. -/
def reelConsts (b : List Byte) : List U32 := (List.range (reelK b)).map fun i => reelWord b (reelI b + i)

/-- All instructions a loop executes in its slot (R113). -/
def loopIns (s : State) (i : LoopId) : List U32 := (loopReels s i).flatMap fun r => reelIns (reelBytes s r)

/-- All constants of a loop's reels. -/
def loopConsts (s : State) (i : LoopId) : List U32 := (loopReels s i).flatMap fun r => reelConsts (reelBytes s r)

/-- Counts of a bay's voltage-loop reel (R113). -/
def firstReel (s : State) : LoopId → Nat × Nat
  | .bay n => let v := bayN s n 0x13; if v = 0 then (0, 0) else (reelI (reelBytes s v), reelK (reelBytes s v))
  | _ => (0, 0)

/-! ## Placement (R188, R191) -/

/-- Slots a loop may take: bays and strings 0-3, modules 4-15. -/
def slotRange : LoopId → List Nat
  | .module _ => (List.range 12).map (· + 4)
  | _ => List.range 4

/-- The order of placement: bays, strings, modules. -/
def placeOrder : List LoopId :=
  (List.finRange 24).map .bay ++ (List.finRange 8).map .string ++ (List.finRange 96).map .module

/-- Instructions placed in tile y. -/
def tileLoad (s : State) (y : Tile) : Nat :=
  sumNat (y.slots.map fun o => match o with
    | some i => (loopIns s i).length
    | none => 0)

/-- Lowest free slot of the loop's range in tile y. -/
def freeSlot (y : Tile) (i : LoopId) : Option Nat := (slotRange i).find? fun k => (nth y.slots k).isNone

/-- The fast tile with the fewest instructions among those with a free slot in the range; ties to the lowest number. -/
def bestTile (s : State) (x : LaneState) (i : LoopId) : Option Nat :=
  (List.range 10).foldl (fun best t =>
    let y := nth x.tiles t
    if y.role = .fast ∧ (freeSlot y i).isSome then
      match best with
      | some b => if tileLoad s y < tileLoad s (nth x.tiles b) then some t else best
      | none => some t
    else best) none

/-- Loop i placed in tile t, slot k. -/
def setPlace (i : LoopId) (t k : Nat) (x : LaneState) : LaneState :=
  let x := x.modLoop i fun p => { p with place := some (t, k), unplaced := false }
  { x with tiles := upd x.tiles t fun y => { y with slots := put y.slots k (some i) } }

/-- Loop i placed by R188, or unplaced. -/
def placeLoop (s : State) (i : LoopId) (x : LaneState) : LaneState :=
  match bestTile s x i with
  | some t =>
    match freeSlot (nth x.tiles t) i with
    | some k => setPlace i t k x
    | none => x
  | none => x.modLoop i fun p => { p with place := none, unplaced := true }

/-- Every slot of every tile emptied and every loop's place cleared. -/
def clearPlaces (x : LaneState) : LaneState :=
  let x := { x with tiles := x.tiles.map fun (y : Tile) => { y with slots := List.replicate 16 none } }
  x.mapLoops fun _ p => { p with place := none, unplaced := false }

/-- The slow slots on the slow tile: slot j runs slow loop j. -/
def placeSlow (s : State) (x : LaneState) : LaneState :=
  match findPos (fun y => y.role == .slow) x.tiles with
  | some t => (List.finRange 15).foldl (fun x j => if loopUsed s (.slow j) then setPlace (.slow j) t j x else x) x
  | none => x

/-- All used loops placed afresh (R188). -/
def placeAll (s : State) (x : LaneState) : LaneState :=
  let x := placeSlow s (clearPlaces x)
  placeOrder.foldl (fun x i => if loopUsed s i then placeLoop s i x else x) x

/-- The banks of tile y not in service loaded with the reels of its slots, then put into service (R129). -/
def loadBanks (s : State) (y : Tile) : Tile :=
  let b := if y.bank then 0 else 1
  let ins := y.slots.map fun o => match o with
    | some i => loopIns s i
    | none => []
  let ks := y.slots.map fun o => match o with
    | some i => loopConsts s i
    | none => []
  { y with instrBanks := put y.instrBanks b ins, constBanks := put y.constBanks b ks, bank := !y.bank }

/-! ## Slot start (R111) -/

/-- A port's value under the substitutions of STOP (R140) and RAMP (R141). -/
def substitute (p : Loop) (i : LoopId) (code : U16) (port : Nat) (v : PortVal) : PortVal :=
  match i with
  | .bay n =>
    if p.st = .stop ∧ code = fabricCode 0 n then PortVal.ofInt 0
    else if p.st = .ramp ∧ code = fabricCode 0 n then PortVal.ofInt 0
    else if p.st = .ramp ∧ code = fabricCode 2 n then p.rampStep
    else v
  | .string k =>
    if p.st = .stop ∧ code = fabricCode 0x10 k then PortVal.ofInt 0
    else if p.st = .ramp ∧ code = fabricCode 0x10 k then PortVal.ofInt 0
    else if p.st = .ramp ∧ code = fabricCode 0x14 k then p.rampStep
    else v
  | .module _ => if p.st = .stop ∧ port = 0 then PortVal.ofInt 0 else v
  | .slow _ => v

/-- V15 at the start of a slot: for a bay, element 0 is the rated current in word units (R111). -/
def presetV15 (s : State) : LoopId → Stage × Bool
  | .bay n => normPairs (((bayN s n 8 * 2000 : Nat), 0) :: List.replicate 7 (0, 0)) false
  | _ => (Stage.zero, false)

/-- The registers at slot cycle 32 of loop i in slot k of tile t. -/
def freshRun (s : State) (x : LaneState) (t k : Nat) (i : LoopId) (zero : Bool) : TileRun :=
  let y := nth x.tiles t
  let p := x.loop i
  let isStart := p.st == .start
  let block := if isStart then StateBlock.zero else nth y.blocks k
  let codes := inputMap s x i
  let ports := (portsRead s x codes p.kept).1
  let v15 := presetV15 s i
  { slot := k
    loop := some i
    isStart := isStart
    v := put (List.replicate 16 Stage.zero) 15 v15.1
    p := block.p
    q := block.q
    a := List.replicate 2 Acc.cleared
    masks := List.replicate 4 0
    inPorts := (List.range 16).map fun n => substitute p i (nth codes n) n (nth ports n)
    outPorts := List.replicate 8 none
    outCodes := outputMap s i
    consts := nth (nth y.constBanks (if y.bank then 1 else 0)) k
    firstIns := (firstReel s i).1
    firstK := (firstReel s i).2
    flagInv := false
    flagSat := v15.2
    flagMis := false
    icount := 0
    zero := zero }

/-- A slow loop's slot runs in this period (R114). -/
def slowDue (s : State) : LoopId → Bool
  | .slow j =>
    let n := cfgN s (0x3520 + j) 2
    n != 0 && (((s.clk.period : Int) - cfgN s (0x3520 + j) 3) % n == 0)
  | _ => true

/-- What slot k of tile t runs: nothing, the instructions, or the zeros of OFF (Table 7.1). -/
def slotRun (s : State) (x : LaneState) (t k : Nat) : Option TileRun :=
  let y := nth x.tiles t
  match nth y.slots k with
  | none => none
  | some i =>
    if y.relieved ∨ (y.role ≠ .fast ∧ y.role ≠ .slow) ∨ (nth y.blocks k).bad then none
    else
      match (x.loop i).st with
      | .off => if (x.loop i).zeroDue then some (freshRun s x t k i true) else none
      | .fault => none
      | _ => if slowDue s i then some (freshRun s x t k i false) else none

/-- A slot starts: registers cleared, state block loaded, ports resolved, kept values taken (R111, R118). -/
def slotStartEffect (l : Lane) (t k : Nat) (s : State) : State :=
  let x := s.lane l
  let r := slotRun s x t k
  let x := { x with tiles := upd x.tiles t fun y => { y with running := r } }
  match r with
  | none => s.setLane l x
  | some run =>
    match run.loop with
    | none => s.setLane l x
    | some i =>
      let kept := (portsRead s (s.lane l) (inputMap s (s.lane l) i) ((s.lane l).loop i).kept).2
      s.setLane l (x.modLoop i fun p => { p with kept := kept })

/-- SLOT_START. -/
def execSlotStart (l : Lane) (t : Fin 10) (slot : Fin 16) (s : State) : Host.Outcome State Fault Refusal :=
  .next (slotStartEffect l t slot s)

/-! ## The state block (Table 6.20) -/

/-- The 6-byte loop word of R281: state, count, cause, START repeats, START pending, holdoff position. -/
def loopServiceWord (p : Loop) : Nat :=
  let pending := p.nextSt == some .start || (p.st == .start && !p.ran)
  p.st.code + p.count.toNat * 2 ^ 3 + p.cause.toNat * 2 ^ 11 + p.repeats % 64 * 2 ^ 15 + (if pending then 2 ^ 21 else 0)
    + min 4095 p.hold * 2 ^ 22

/-- A stage in 21 bytes: 8 mantissas of 20 bits, then the exponent and the invalid flag. -/
def stageBytes (v : Stage) : List Byte :=
  let m := (v.m.take 8).foldr (fun (a : BitVec 20) n => a.toNat + 2 ^ 20 * n) 0
  leBytes 20 m ++ [BitVec.ofNat 8 (v.e.toNat + if v.inv then 128 else 0)]

/-- An accumulator in 49 bytes: 8 elements of 6 bytes, then the exponent and the invalid flag. -/
def accBytes (q : Acc) : List Byte :=
  (List.range 8).flatMap (fun i => leBytes 6 (nth q.a i).toNat) ++ [BitVec.ofNat 8 (q.x.toNat + if q.inv then 128 else 0)]

/-- The 384 bytes of a state block with its loop's service state and its CRC. -/
def stateBlockBytes (b : StateBlock) (p : Loop) : List Byte :=
  let body := (List.range 8).flatMap (fun i => stageBytes (nth b.p i)) ++ (List.range 4).flatMap (fun i => accBytes (nth b.q i))
    ++ leBytes 6 (loopServiceWord p) ++ List.replicate 10 0
  body ++ leBytes 4 (crc32 body).toNat

/-! ## Write-back (R111, R119, R124) -/

/-- Commit one output port (R119, R120). -/
def commitPort (c : U16) (v : OutVal) (x : LaneState) : LaneState :=
  match outKind c, v with
  | 0, .word w =>
    { x with out := upd x.out (c.toNat / 256 % 64) fun o => { o with words := put o.words (c.toNat % 256) w } }
  | 2, .cell u => { x with relay := put x.relay (c.toNat % 256) u }
  | _, _ => x

/-- Commit every output port that received a store. -/
def commitPorts (codes : List U16) (outs : List (Option OutVal)) (x : LaneState) : LaneState :=
  (List.range 8).foldl (fun x i => match nth outs i with
    | some v => commitPort (nth codes i) v x
    | none => x) x

/-- The zero a port of a loop entering OFF commits. -/
def zeroOut (c : U16) : Option OutVal :=
  match outKind c with
  | 0 => some (.word 0)
  | 2 => some (.cell Cell.zero)
  | _ => none

/-- Element 0 of P0 as the value a SAFE ramp starts from (R141). -/
def p0Value (p : List Stage) : PortVal :=
  let e := (nth p 0).elem 0
  { m := e.1, e := e.2, inv := (nth p 0).inv }

/-- The slot of tile t ends: registers written back, ports committed unless R138 suppresses them, flags posted. -/
def writebackLane (t : Nat) (x : LaneState) : LaneState :=
  match (nth x.tiles t).running with
  | none => x
  | some k =>
    let x := { x with tiles := upd x.tiles t fun y => { y with running := none } }
    match k.loop with
    | none => x
    | some i =>
      if k.zero then
        (commitPorts k.outCodes (k.outCodes.map zeroOut) x).modLoop i fun p => { p with zeroDue := false }
      else
        let block : StateBlock := { p := k.p, q := k.q.map writebackAcc, bad := false }
        let x := { x with tiles := upd x.tiles t fun y => { y with blocks := put y.blocks k.slot block } }
        let x := if k.isStart && k.flagInv then x else commitPorts k.outCodes k.outPorts x
        x.modLoop i fun p =>
          { p with inv := k.flagInv, sat := k.flagSat, mis := k.flagMis, ran := true, lastP0 := p0Value k.p }

/-- SLOT_WRITEBACK. -/
def execSlotWriteback (l : Lane) (t : Fin 10) (s : State) : Host.Outcome State Fault Refusal :=
  .next (s.modLane l (writebackLane t))

end Sys2Proof.Machine
end

