-- ==== Sys2Proof/Machine/Recorder.lean ====
section
/-! DEFINITION. The event recorder (chapter 19): events through the filter reel into the ring, merging, the flush to the fast store, the
archive, reading and clearing. -/

namespace Sys2Proof.Machine

/-! ## The code of an event (Tables 19.2, 19.3) -/

/-- GROUP of an event; chapters without a group of their own leave it to the catalogue (Config). -/
def eventGroup : EventKind → Nat
  | .modeChange | .resetCause | .detour | .imageRejected | .configLoad => 0x01
  | .refusedWrite | .liveCellFallback | .setDefaults => 0x02
  | .railFault | .dieWarn | .dieAbove110 | .sensorExcluded => 0x03
  | .linkState | .linkFailed | .seqAdopted => 0x04
  | .loopFault | .loopEnableIgnored | .loopCommandSuperseded | .satRun | .tilePlausibility | .tileRetired => 0x05
  | .shareFallback | .accountDisabled | .leaderChange => 0x06
  | .moduleRetired | .moduleStuck | .moveAbandoned => 0x07
  | .sensorQuarantined | .thermalLevel => 0x08
  | .logCopy => 0x09
  | .crossover | .verdict | .junctionLost | .resync | .tileTest | .receiverFailed | .memoryError => 0x0A
  | .rtcStep | .rtcAlarm | .powerFail | .tamperLatch | .securityTamper => 0x0B
  | .sessionState | .protocolError => 0x0C
  | .busOff | .channelWake => 0x0D
  | .finalFailure | .peerState => 0x0E
  | .keyErased | .keyUpdate => 0x0F
  | .recorderClear => 0x10
  | .nandFailure | .nandTarget | .loadProfileLost | .activation => 0x11
  | .fastStoreError => (Config.eventGroup .fastStoreError).val
  | .lowSpare => (Config.eventGroup .lowSpare).val
  | .queueCredit => (Config.eventGroup .queueCredit).val

/-- NUMBER of an event: the spec's where it gives one, else the catalogue's. -/
def eventNumber (e : EventReq) : U8 :=
  match e.kind with
  | .logCopy => e.code
  | .recorderClear => 1
  | .finalFailure => 5
  | k => Config.eventNumber k

/-- SEV of an event: the spec's where it gives one, else the catalogue's. -/
def eventSev (e : EventReq) : Nat :=
  match e.kind with
  | .logCopy => if e.code = 0x02 ∨ e.code = 0x15 then 2 else 0
  | .recorderClear => 0
  | .finalFailure => 1
  | .linkFailed => 2
  | k => (Config.eventSev k).val

/-! ## The filter reel (R387) -/

/-- What the filter decides: drop, or keep with a SEV. -/
inductive FilterOut where
  | drop
  | keep (sev : Nat)
  deriving DecidableEq, Repr, Inhabited

/-- Rule r matches a group and a number. -/
def ruleMatches (r : U32) (group number : Nat) : Bool :=
  let w := r.toNat
  ((BitVec.ofNat 6 (w / 2 ^ 22) ^^^ BitVec.ofNat 6 group) &&& BitVec.ofNat 6 (w / 2 ^ 16)) == 0
    && ((BitVec.ofNat 8 (w / 2 ^ 8) ^^^ BitVec.ofNat 8 number) &&& BitVec.ofNat 8 w) == 0

/-- The rules in order; one that would drop an event of SEV 2, lower its SEV, or act on group 0x10 is skipped. -/
def filterEvent (group number sev : Nat) : List U32 → FilterOut
  | [] => .keep sev
  | r :: rs =>
    let action := r.toNat / 2 ^ 30
    let sv := r.toNat / 2 ^ 28 % 4
    if !(ruleMatches r group number) || group == 0x10 then filterEvent group number sev rs
    else if action = 0 then .keep sev
    else if sev = 2 ∧ (action = 1 ∨ sv < 2) then filterEvent group number sev rs
    else if action = 1 then .drop
    else .keep sv

/-- Rules of object 2320. -/
def filterRules (s : State) : List U32 := reelIns (cfgBytes s 0x2320 0)

/-! ## Records (R379, R381) -/

/-- Bytes 0 to 29 of a record. -/
def recordBody (r : EventRec) : List Byte :=
  leBytes 4 r.seq.toNat ++ leBytes 8 r.time.toNat ++ leBytes 2 r.code.toNat ++ [r.source, r.gen] ++ leBytes 2 r.rep.toNat
    ++ (padTo 12 r.data).take 12

/-- r with its CRC. -/
def EventRec.sealed (r : EventRec) : EventRec := { r with crc := crc16 (recordBody r) }

/-- CODE of an event with a SEV. -/
def eventCode (sev group number : Nat) : U16 := BitVec.ofNat 16 (sev * 2 ^ 14 + group * 2 ^ 8 + number)

/-- SOURCE of an event in lane l. -/
def eventSource (l : Lane) (inst : Nat) : U8 := BitVec.ofNat 8 ((if l = .a then 0 else 128) + inst % 128)

/-- The newest record of the ring. -/
def Recorder.last (r : Recorder) : Option EventRec := r.ring.getLast?

/-- The newest record replaced. -/
def Recorder.setLast (v : EventRec) (r : Recorder) : Recorder := { r with ring := r.ring.dropLast ++ [v] }

/-- A new record enters the ring of 4,096; an unflushed record it overwrites is lost. The second component counts it. -/
def Recorder.push (v : EventRec) (r : Recorder) : Recorder × Nat :=
  let full := decide (4096 ≤ r.ring.length)
  let lost := match r.ring.head? with
    | some h => if full && h.dirty then 1 else 0
    | none => 0
  ({ r with ring := (if full then r.ring.drop 1 else r.ring) ++ [v], nextSeq := r.nextSeq + 1, newest := some v.seq
            sinceFlush := r.sinceFlush + 1 }, lost)

/-- s with the shared recorder counters changed. -/
def modRecs (f : RecCounts → RecCounts) (s : State) : State := { s with recs := f s.recs }

/-- An event of site time t that passed the filter merges into the newest record or writes a new one (R381). -/
def recordEvent (l : Lane) (code : U16) (source : U8) (data : List Byte) (t : U64) (s : State) : State :=
  let r := (s.lane l).recd
  let equal := match r.last with
    | some v => v.code == code && v.source == source && v.data == data
    | none => false
  match r.last, equal with
  | some v, true =>
    if v.rep = 0xFFFF then modRecs (fun c => { c with saturated := c.saturated + 1 }) s
    else
      let v := EventRec.sealed { v with rep := v.rep + 1, gen := v.gen + 1, dirty := true }
      s.modLane l fun x => { x with recd := x.recd.setLast v }
  | _, _ =>
    let v := EventRec.sealed
      { seq := r.nextSeq, time := t, code := code, source := source, gen := 0, rep := 1, data := data, crc := 0
        dirty := true }
    let p := r.push v
    let s := s.modLane l fun x => { x with recd := p.1 }
    modRecs (fun c => { c with written := c.written + 1, lost := c.lost + BitVec.ofNat 32 p.2 }) s

/-- EVENT_WRITE: the oldest event waiting on queue 98 of lane l passes the filter reel. -/
def eventWriteEffect (l : Lane) (s : State) : State :=
  match (s.lane l).evq with
  | [] => s
  | e :: es =>
    let s := s.modLane l fun x => { x with evq := es }
    let g := eventGroup e.kind
    let n := (eventNumber e).toNat
    match filterEvent g n (eventSev e) (filterRules s) with
    | .drop => modRecs (fun c => { c with dropped := c.dropped + 1 }) s
    | .keep sev => recordEvent l (eventCode sev g n) (eventSource l e.inst) e.data (e.time.getD (siteTime s)) s

/-- EVENT_WRITE. -/
def execEventWrite (l : Lane) (s : State) : Host.Outcome State Fault Refusal := .next (eventWriteEffect l s)

/-! ## Flush and archive (R382, R383) -/

/-- A record in a fast-store ring: the copy of its SEQ is written again, a new one appended. -/
def fastPut (v : EventRec) (l : List EventRec) : List EventRec :=
  if l.any fun w => w.seq == v.seq then l.map fun w => if w.seq = v.seq then v else w else l ++ [v]

/-- Size of a fast-store ring. -/
def fastRing : Nat := 16384

/-- A record that changed after it was archived is archived again. -/
def rearchive (v : EventRec) (l : List EventRec) : List EventRec := l.map fun w => if w.seq = v.seq then v else w

/-- The flush of one record: a full region overwrites its oldest record once archived, or anyway without NAND; otherwise the record
stays in the ring. The second component counts records overwritten unarchived. -/
def flushOne (nand : Bool) (r : Recorder × Nat) (v : EventRec) : Recorder × Nat :=
  let k := r.1
  let done := EventRec.mk v.seq v.time v.code v.source v.gen v.rep v.data v.crc false
  let clean := fun (l : List EventRec) => l.map fun w => if w.seq = v.seq then done else w
  let known := k.fast.any fun w => w.seq == v.seq
  if known || decide (k.fast.length < fastRing) then
    ({ k with fast := fastPut done k.fast, archive := if known then rearchive done k.archive else k.archive, ring := clean k.ring }, r.2)
  else if 0 < k.archivedOf then
    ({ k with fast := k.fast.drop 1 ++ [done], archivedOf := k.archivedOf - 1, ring := clean k.ring }, r.2)
  else if !nand then ({ k with fast := k.fast.drop 1 ++ [done], ring := clean k.ring }, r.2 + 1)
  else r

/-- Every record written or changed since the last flush goes to the fast store. -/
def flushLane (l : Lane) (s : State) : State :=
  let r := (s.lane l).recd
  let p := (r.ring.filter fun v => v.dirty).foldl (flushOne (s.nand.st == 2)) (r, 0)
  let s := s.modLane l fun x => { x with recd := { p.1 with sinceFlush := 0 } }
  modRecs (fun c => { c with flushes := c.flushes + 1, lost := c.lost + BitVec.ofNat 32 p.2 }) s

/-- EVENT_FLUSH: the occasion is the sender's. -/
def execEventFlush (l : Lane) (s : State) : Host.Outcome State Fault Refusal := .next (flushLane l s)

/-- Bytes of a record (Table 19.1). -/
def recordBytes (v : EventRec) : List Byte := recordBody v ++ leBytes 2 v.crc.toNat

/-- Records that the event-archive partition holds; it overwrites its oldest (R383, R396). -/
def archiveRoom (n : Nand) : Nat := partBlocks n 5 * Config.nandBlockBytes / 32

/-- Records of a lane's region not archived yet. -/
def unarchived (r : Recorder) : List EventRec := r.fast.drop r.archivedOf

/-- A lane's region archived; the archive keeps its newest records. -/
def archiveRec (room : Nat) (r : Recorder) : Recorder :=
  let all := r.archive ++ unarchived r
  { r with archive := all.drop (all.length - room), archivedOf := r.fast.length }

/-- Lane l's region goes to the event-archive stream where it holds 4,096 records not archived. -/
def archiveLane (l : Lane) (s : State) : State :=
  let r := (s.lane l).recd
  if (unarchived r).length < 4096 then s
  else
    let s := archive .eventArchive ((unarchived r).flatMap recordBytes) s
    s.modLane l fun x => { x with recd := archiveRec (archiveRoom s.nand) x.recd }

/-- EVENT_ARCHIVE: the active lane archives both regions while NAND is ready. -/
def eventArchiveEffect (s : State) : State := if nandWorks s then archiveLane .b (archiveLane .a s) else s

/-- EVENT_ARCHIVE. -/
def execEventArchive (s : State) : Host.Outcome State Fault Refusal := .next (eventArchiveEffect s)

/-- Boot: records of the lane's fast-store ring whose CRC is wrong are dropped and counted (R388). -/
def checkRecords (l : Lane) (s : State) : State :=
  let r := (s.lane l).recd
  let ok := fun (v : EventRec) => v.crc == crc16 (recordBody v)
  let s := s.modLane l fun x =>
    { x with recd := { r with fast := r.fast.filter ok, archivedOf := ((r.fast.take r.archivedOf).filter ok).length } }
  modRecs (fun c => { c with lost := c.lost + BitVec.ofNat 32 (r.fast.length - (r.fast.filter ok).length) }) s

/-! ## Reading and clearing (R384-R386) -/

/-- SEQ a has passed SEQ b on the wrapping count. -/
def seqAfter (a b : U32) : Bool := a != b && decide ((a - b).toNat < 2 ^ 31)

/-- Every record held for a lane and still served, oldest first, the ring's copy of a SEQ before older copies. -/
def servedRecords (r : Recorder) : List EventRec :=
  let ok := fun (v : EventRec) => match r.clearedTo with
    | some c => seqAfter v.seq c
    | none => true
  let fast := r.fast.filter fun v => !(r.ring.any fun w => w.seq == v.seq)
  let old := r.archive.filter fun v => !((r.ring ++ r.fast).any fun w => w.seq == v.seq)
  (old ++ fast ++ r.ring).filter ok

/-- Lane named by object 2301:01. -/
def readLane (s : State) : Lane :=
  match laneOfNum (rwN s 0x2301 1) with
  | some l => l
  | none => (activeLane s).getD .a

/-- EVENT_READ: bounds (free values where no record is held), then up to COUNT records from FIRST in SEQ order (R384). -/
def eventReadEffect (s : State) : State :=
  let l := servedRecords (s.lane (readLane s)).recd
  let first := BitVec.ofNat 32 (rwN s 0x2301 2)
  let out := (l.filter fun v => v.seq == first || seqAfter v.seq first).take (rwN s 0x2301 3)
  let lo := (l.head?.map (·.seq)).getD (BitVec.ofNat 32 (Config.freeNat s.free))
  let hi := (l.getLast?.map (·.seq)).getD (BitVec.ofNat 32 (Config.freeNat (s.free + 1)))
  let bytes := leBytes 4 lo.toNat ++ leBytes 4 hi.toNat ++ out.flatMap recordBytes
  let s := if l.isEmpty then s.useFree 2 else s
  respond 0 bytes (modRecs (fun c => { c with reading := some (lo, hi, out) }) s)

/-- EVENT_READ. -/
def execEventRead (s : State) : Host.Outcome State Fault Refusal :=
  .next (if (activeLane s).isSome then eventReadEffect s else s)

/-- A lane's records up to NEWEST are dropped and no longer served; the next record has code 0x1001 (R386). -/
def clearLane (l : Lane) (s : State) : State :=
  let r := (s.lane l).recd
  let n := (servedRecords r).length
  let last := r.newest.getD 0
  let e := eventData .recorderClear 1 127 (leBytes 4 n ++ leBytes 4 last.toNat)
  s.modLane l fun x => { x with recd := { r with ring := [], fast := [], archivedOf := 0, clearedTo := r.newest }, evq := e :: x.evq }

/-- EVENT_CLEAR in the lanes named. -/
def eventClearEffect (v : U8) (s : State) : State :=
  let s := if v.getLsbD 0 then clearLane .a s else s
  if v.getLsbD 1 then clearLane .b s else s

/-- EVENT_CLEAR: 1 Lane A, 2 Lane B, 3 both; any other value is outside the range. -/
def execEventClear (v : U8) (s : State) : Host.Outcome State Fault Refusal :=
  .next (hostRange (writable s) (decide (1 ≤ v.toNat ∧ v.toNat ≤ 3)) (eventClearEffect v) s)

end Sys2Proof.Machine
end

