-- ==== Sys2Proof/Machine/KeyOps.lean ====
section
/-! DEFINITION. Shared operations on a keystore: slot paths and their tree (R362), the fuse field of the life cycle (R372), and the
destruction of keys by invalidating a parent (R374-R376). -/

namespace Sys2Proof.Machine

/-! ## Slot paths (R362) -/

/-- Domain of a path. -/
def pathDomain (p : U32) : Nat := p.toNat / 2 ^ 24
/-- Purpose of a path. -/
def pathPurpose (p : U32) : Nat := p.toNat / 2 ^ 16 % 2 ^ 8
/-- Session of a path. -/
def pathSession (p : U32) : Nat := p.toNat % 2 ^ 16

/-- A valid path: fields in range, none non-zero below a zero one, and no reserved domain. -/
def pathValid (p : U32) : Bool :=
  decide (pathDomain p ≤ 3) && decide (pathPurpose p ≤ 15) && (pathDomain p != 0 || pathPurpose p == 0)
    && (pathPurpose p != 0 || pathSession p == 0)

/-- Path a is an ancestor of path p. -/
def isAncestor (a p : U32) : Bool :=
  a != p && pathSession a == 0 &&
    (if pathPurpose a = 0 then pathDomain a == 0 || pathDomain a == pathDomain p
     else pathDomain a == pathDomain p && pathPurpose a == pathPurpose p)

/-- Parent of a path; the root is its own. -/
def pathParent (p : U32) : U32 :=
  if pathSession p ≠ 0 then BitVec.ofNat 32 (p.toNat / 2 ^ 16 * 2 ^ 16)
  else if pathPurpose p ≠ 0 then BitVec.ofNat 32 (p.toNat / 2 ^ 24 * 2 ^ 24)
  else 0

/-- A domain secret. -/
def isDomainPath (p : U32) : Bool := pathDomain p != 0 && pathPurpose p == 0

/-- The operational keys: domains 2 and 3. -/
def operational (p : U32) : Bool := pathDomain p == 2 || pathDomain p == 3

/-! ## Slots -/

/-- The slot of a path. -/
def Keystore.find (k : Keystore) (p : U32) : Option (Nat × KeySlot) := k.slots.find? fun e => e.2.path == p

/-- The lowest-numbered free physical slot. -/
def Keystore.freeSlot (k : Keystore) : Option Nat :=
  (List.range 512).find? fun i => !(k.slots.any fun e => e.1 == i) && !(k.retired.contains i)

/-- The slots of a persistent key: the first free one that verifies, with the free ones before it, which failed and are retired (R364,
R29); none where no free slot verifies. -/
def Keystore.placing (fails : Nat → Bool) (k : Keystore) : Option Nat × List Nat :=
  let free := (List.range 512).filter fun i => !(k.slots.any fun e => e.1 == i) && !(k.retired.contains i)
  (free.find? fun i => !(fails i), free.takeWhile fails)

/-- Slot i filled, the list kept in ascending order. -/
def insertSlot (i : Nat) (v : KeySlot) : List (Nat × KeySlot) → List (Nat × KeySlot)
  | [] => [(i, v)]
  | e :: es => if i < e.1 then (i, v) :: e :: es else e :: insertSlot i v es

/-- The descendants of a path become orphaned. -/
def Keystore.orphan (a : U32) (k : Keystore) : Keystore :=
  { k with slots := k.slots.map fun e => (e.1, if isAncestor a e.2.path then (let v := e.2; { v with orphaned := true }) else e.2) }

/-- A path's record is overwritten and its descendants orphaned (R369, R375). -/
def Keystore.invalidate (p : U32) (k : Keystore) : Keystore :=
  Keystore.orphan p { k with slots := k.slots.filter fun e => e.2.path != p }

/-- Caches and scratch memories are zeroised (R299, R374). -/
def Keystore.zeroise (k : Keystore) : Keystore :=
  { k with cache := [], slots := k.slots.filter fun e => e.2.persistent }

/-- A key operation in progress is aborted with TAMPER (R299). -/
def Keystore.tamperAbort (k : Keystore) : Keystore :=
  if k.busy then { k with busy := false, tamperAborts := k.tamperAborts + 1, lastStatus := 14, answer := some (14, []) } else k

/-- The records of the operational keys, or every record for SCRAPPED, are overwritten (R374). -/
def Keystore.destroy (scrap : Bool) (k : Keystore) : Keystore :=
  { k.zeroise with slots := (k.zeroise).slots.filter fun e => !(scrap || operational e.2.path) }

/-! ## The copy in the other lane (R371) -/

/-- The other lane's records and counter follow the active lane's (R371); a record of the same key keeps its place, a new one takes the lowest
free slot. -/
def replicate (act own : Keystore) : Keystore :=
  let same := fun (v w : KeySlot) => v == w
  let kept := own.slots.filter fun e => act.slots.any fun a => same a.2 e.2
  let own := { own with slots := kept, counter := act.counter }
  (act.slots.filter fun a => !(kept.any fun e => same a.2 e.2)).foldl (fun (k : Keystore) a =>
    match k.freeSlot with
    | some i => { k with slots := insertSlot i a.2 k.slots }
    | none => k) own

/-! ## The life cycle (R372) -/

/-- Fuse field of a state code. -/
def lifeFuse (c : Nat) : U8 := BitVec.ofNat 8 (2 ^ (2 * c) - 1)

/-- The state in force: the highest code whose bits are all blown. -/
def lifeCode (f : U8) : Nat :=
  if f = 0xFF then 4 else if f &&& 0x3F = 0x3F then 3 else if f &&& 0x0F = 0x0F then 2 else if f &&& 3 = 3 then 1 else 0

/-- Some but not all bits of the next code are blown. -/
def lifePartial (f : U8) : Bool := f != lifeFuse (lifeCode f)

/-- The life cycle moves to state c: the fuses of its code are blown, those blown before stay blown, debug access goes off for
good with FIELD, the seed is erased with SCRAPPED (R372, R373). A blow that fails verify takes a spare row (R29); how many do is free. -/
def lifeMove (c : Nat) (s : State) : State :=
  let used := Config.failedBlows s.free
  recheckSpares
    (State.useFree
      { s with life := (let v := s.life
                        { v with fuse := v.fuse ||| lifeFuse c, lastChange := s.bk.rtc, debugOff := v.debugOff || c == 2
                                 seeded := v.seeded && decide (c < 4), rows := v.rows - min v.rows used }) } 1)

/-- A life-cycle change in normal service destroys the operational keys in both lanes, with an event for each erasure (R374). -/
def lifeDestroy (c : Nat) (s : State) : State :=
  let gone := s.act.ks.slots.filter fun e => e.2.persistent && (decide (4 ≤ c) || operational e.2.path)
  let s := bothLanes (fun x => { x with ks := (x.ks.tamperAbort).zeroise }) s
  let s := lifeMove c s
  let s := bothLanes (fun x => { x with ks := x.ks.destroy (decide (4 ≤ c)) }) s
  gone.foldl (fun s e => evt (eventReq .keyErased 127 [e.2.path.toNat]) s) s

/-! ## Start-up (R364, R375) -/

/-- Boot step 2 in a lane: records that fail are retired and their descendants orphaned; a pending or incomplete life-cycle change
destroys the operational domain secrets of another state. -/
def Keystore.bootCheck (changed : Bool) (code : Nat) (k : Keystore) : Keystore :=
  let bad := k.slots.filter fun e => !e.2.good
  let k := bad.foldl (fun (k : Keystore) e => { Keystore.invalidate e.2.path k with retired := k.retired ++ [e.1] }) k
  if !changed then k
  else
    let gone := k.slots.filter fun e => isDomainPath e.2.path && (operational e.2.path || decide (4 ≤ code)) && e.2.lc.toNat != code
    gone.foldl (fun k e => Keystore.invalidate e.2.path k) k

/-- Boot step 5: orphaned slots are freed. -/
def Keystore.freeOrphans (k : Keystore) : Keystore := { k with slots := k.slots.filter fun e => !e.2.orphaned }

/-- What a lane reset leaves of a keystore: the persistent records and the update counter. -/
def Keystore.afterReset (device : Bool) (k : Keystore) : Keystore :=
  { k.zeroise with
    operations := if device then 0 else k.operations
    tamperAborts := if device then 0 else k.tamperAborts
    lastStatus := if device then 0 else k.lastStatus
    busy := false, answer := none }

end Sys2Proof.Machine
end

