-- ==== Sys2Proof/Machine/LoopOps.lean ====
section
/-! DEFINITION. Shared operations on loops: enabling and disabling (R135-R140, R147), the loss of a string (R164) and the entry
into FAULT with its reaction (R144). -/

namespace Sys2Proof.Machine

/-! ## Enabling and disabling -/

/-- Instance of a loop's events: its tile, 127 where it has none (Table 19.3). -/
def loopInst (p : Loop) : Nat :=
  match p.place with
  | some (t, _) => t
  | none => 127

/-- A loop may be enabled in the present mode (Table 7.2). -/
def enableMode (s : State) (i : LoopId) : Bool :=
  if isSlowLoop i then s.modes.mode != .backup && s.modes.mode != .boot else powerMode s

/-- The loop as it enters START: count and repeats cleared, no override (R137, R142). -/
def Loop.toStart (p : Loop) : Loop :=
  { p with st := .start, nextSt := none, count := 0, cause := 0, repeats := 0, hold := 0, satRun := 0, offRun := 0,
           stopFor := 0, zeroDue := false, override := [], faultAt := none }

/-- The loop as it is disabled: STOP, a slow loop OFF directly; a loop enabled in this period returns to its state, and a fault of this
period goes on (R140, R147). -/
def Loop.toStop (slow : Bool) (p : Loop) : Loop :=
  let p := { p with disNow := true }
  match p.st with
  | .start =>
    if p.nextSt = some .fault then p
    else if p.atStart = .off then { p with st := .off, nextSt := none }
    else if slow then { p with st := .off, nextSt := none, zeroDue := true }
    else { p with st := .stop, nextSt := none, offRun := 0, stopFor := 0 }
  | .run =>
    if p.nextSt = some .fault then p
    else if slow then { p with st := .off, nextSt := none, zeroDue := true }
    else { p with st := .stop, nextSt := none, offRun := 0, stopFor := 0 }
  | _ => p

/-- Lane x enables loop i: START from OFF or STOP; ignored with an event in FAULT, and where it is disabled in the same
period. -/
def enableLoop (i : LoopId) (x : LaneState) : LaneState :=
  let p := x.loop i
  if p.st = .fault ∨ p.nextSt = some .fault then x.event (eventReq .loopEnableIgnored (loopInst p) [codeOfLoop i])
  else if p.disNow then x
  else if p.st = .off ∨ p.st = .stop then x.modLoop i Loop.toStart
  else x

/-- Lane x disables loop i. -/
def disableLoop (i : LoopId) (x : LaneState) : LaneState := x.modLoop i (Loop.toStop (isSlowLoop i))

/-- A loop restarts through START from any running state, its block cleared (R137). -/
def restartLoop (i : LoopId) (x : LaneState) : LaneState := x.modLoop i Loop.toStart

/-! ## Loss of a string (R164) -/

/-- Grants lowered by the factor (T - X) / T, rounded down. -/
def shrinkGrants (x : Int) (gb : List Int) : List Int :=
  let t := sumInt gb
  if t ≤ 0 then gb else gb.map fun g => if t ≤ x then 0 else g * (t - x) / t

/-- A run that has started, without the lost string. -/
def ShareRun.without (i : Nat) (r : ShareRun) : ShareRun :=
  let x := max (-(nth r.gs i)) 0
  { r with gs := put r.gs i 0, gb := shrinkGrants x r.gb }

/-- String i's grant drops to 0 outside a run in period k; a discharge that is lost shrinks the bay grants. -/
def stringLost (k i : Nat) (h : Share) : Share :=
  let x := max (-(nth h.gs i)) 0
  let h := { h with pending := h.pending.map (ShareRun.without i) }
  if 0 < x then
    { h with gb := shrinkGrants x h.gb, gs := put h.gs i 0, lost := some k, flags := h.flags ||| 0x20 }
  else { h with gs := put h.gs i 0 }

/-! ## Override ramps (R144, Table 5.11) -/

/-- s_0 of a set-point word: the last VALID current word, else the last committed set-point. -/
def ovStart (x : LaneState) (link measWord outWord : Nat) : Int :=
  match (x.link link).lastWords[measWord]? with
  | some v => if v = 0x800000 then (nth (nth x.out link).words outWord).toInt else v.toInt
  | none => (nth (nth x.out link).words outWord).toInt

/-- The ramp of module j's set-point word. -/
def moduleRamp (s : State) (x : LaneState) (j : Nat) : List OvRamp :=
  match modLink s j with
  | some (n, m) => [{ link := n, word := 1 + 2 * m, s0 := ovStart x n (2 + 4 * m) (1 + 2 * m), n := 1 }]
  | none => []

/-- The ramps of every module that serves bay i. -/
def bayRamp (s : State) (x : LaneState) (i : Nat) : List OvRamp := (servingMods x i).flatMap (moduleRamp s x)

/-- The ramp of string i's current set-point. -/
def stringRamp (s : State) (x : LaneState) (i : Nat) : List OvRamp :=
  match strLink s i with
  | some n => [{ link := n, word := 1, s0 := ovStart x n 2 1, n := 1 }]
  | none => []

/-- Word n of an override ramp: s_0 x (80 - n) / 80 rounded by R125, then 0. -/
def ovValue (o : OvRamp) : BitVec 24 := if o.n ≤ 80 then BitVec.ofInt 24 (roundDiv (o.s0 * (80 - o.n : Int)) 80) else 0

/-! ## Entry into FAULT (R144) -/

/-- Reaction code of a loop's kind (object 3502). -/
def faultReaction (s : State) : LoopId → Nat
  | .bay _ => cfgN s 0x3502 6
  | .module _ => cfgN s 0x3502 7
  | .string _ => cfgN s 0x3502 8
  | .slow _ => cfgN s 0x3502 9

/-- The reaction of loop i begins. -/
def startReaction (s : State) (i : LoopId) (x : LaneState) : LaneState :=
  match i with
  | .bay n =>
    if faultReaction s i = 1 then let r := bayRamp s x n; x.modLoop i fun p => { p with override := r } else x
  | .module j => retireByLoop s j x
  | .string k =>
    if faultReaction s i = 1 then
      let r := stringRamp s x k
      let x := x.modLoop i fun p => { p with override := r }
      { x with share := stringLost s.clk.period k x.share }
    else x
  | .slow _ => if faultReaction s i = 2 then (let c := outputMap s i; commitPorts c (c.map zeroOut) x) else x

/-- Loop i enters FAULT with a cause: the state holds from cycle 0 of the next period, the entry is counted, an event is
written and the reaction begins. -/
def enterFault (s : State) (i : LoopId) (cause : Nat) (x : LaneState) : LaneState :=
  let p := x.loop i
  if p.st = .fault ∨ p.nextSt = some .fault then x
  else
    let x := x.modLoop i fun q =>
      { q with nextSt := some .fault, cause := BitVec.ofNat 4 cause, override := []
               faultAt := if cause = 1 then some s.clk.period else none }
    let x := { x with ctl := (let c := x.ctl; { c with loopFaults := c.loopFaults + 1 }) }
    let x := x.event (eventReq .loopFault (loopInst p) [codeOfLoop i, cause])
    startReaction s i x

/-- Loop i leaves FAULT for OFF (R146); its count stays until the next START (R142). -/
def leaveFault (i : LoopId) (x : LaneState) : LaneState :=
  x.modLoop i fun p => { p with st := .off, nextSt := none, cause := 0, override := [], faultAt := none, zeroDue := true }

end Sys2Proof.Machine
end

