-- ==== Sys2Proof/Machine/Capture.lean ====
section
/-! DEFINITION. The capture buffers (R132, R133): arming, triggering, storing and completing. -/

namespace Sys2Proof.Machine

/-- s with the capture changed. -/
def modCap (f : Capture → Capture) (s : State) : State := { s with clk := (let c := s.clk; { c with cap := f c.cap }) }

/-- Samples a capture holds when it completes. -/
def captureDepth : Nat := 4096

/-- Pre-trigger samples (object 3504:06). -/
def preTrigger (s : State) : Nat := rwN s 0x3504 6

/-- Trigger mode (object 3504:04). -/
def triggerMode (s : State) : Nat := rwN s 0x3504 4

/-- Armed or running. -/
def Capture.active (c : Capture) : Bool := c.st == 1 || c.st == 2

/-- The capture triggers in the running period, keeping n samples of the ring. -/
def captureTriggered (n : Nat) (s : State) : State :=
  modCap (fun c =>
    { c with st := 2, triggered := true, trigPeriod := BitVec.ofNat 64 s.clk.period
             bufs := c.bufs.map (lastN n) }) s

/-- Arming empties the buffers and starts the pre-trigger ring; trigger mode 0 triggers at once. -/
def captureArmEffect (s : State) : State :=
  let s := modCap (fun c =>
    { c with st := 1, triggered := false, bufs := List.replicate 4 [], samples := List.replicate 4 none, prev0 := none
             last0 := none, skip := 0 }) s
  if triggerMode s = 0 then captureTriggered 0 s else s

/-- CAPTURE_ARM: command 1 on object 3504:02. -/
def execCaptureArm (s : State) : Host.Outcome State Fault Refusal := .next (hostWrite (writable s) captureArmEffect s)

/-- Command 2 triggers an armed capture. -/
def captureForceEffect (s : State) : State :=
  if s.clk.cap.st = 1 then captureTriggered (preTrigger s) s else s

/-- CAPTURE_FORCE_TRIGGER. -/
def execCaptureForceTrigger (s : State) : Host.Outcome State Fault Refusal := .next (hostWrite (writable s) captureForceEffect s)

/-- Command 3 stops an armed or running capture; what it holds can be read. -/
def captureStopEffect (s : State) : State :=
  if s.clk.cap.active then modCap (fun c => { c with st := 0 }) s else s

/-- CAPTURE_STOP. -/
def execCaptureStop (s : State) : Host.Outcome State Fault Refusal := .next (hostWrite (writable s) captureStopEffect s)

/-- Channel 0 has crossed the level: rising for mode 1, falling for mode 2. -/
def crossed (s : State) : Bool :=
  match s.clk.cap.prev0, s.clk.cap.last0 with
  | some a, some b =>
    let lv := realVal (BitVec.ofNat 32 (rwN s 0x3504 5))
    if triggerMode s = 1 then cmpExact (realVal a) lv == .lt && cmpExact (realVal b) lv != .lt
    else if triggerMode s = 2 then cmpExact (realVal a) lv == .gt && cmpExact (realVal b) lv != .gt
    else false
  | _, _ => false

/-- The crossing sample is the first the capture stores after its pre-trigger samples. -/
def captureTriggerEffect (s : State) : State :=
  if s.clk.cap.st = 1 && crossed s then captureTriggered (preTrigger s + 1) s else s

/-- CAPTURE_TRIGGER. -/
def execCaptureTrigger (s : State) : Host.Outcome State Fault Refusal := .next (captureTriggerEffect s)

/-- Samples held (object 3504:08). -/
def samplesHeld (s : State) : Nat :=
  let n := (nth s.clk.cap.bufs 0).length
  if s.clk.cap.st = 1 then min n (preTrigger s) else n

/-- A running capture that holds 4,096 samples completes. -/
def captureCompleteEffect (s : State) : State :=
  if s.clk.cap.st = 2 ∧ captureDepth ≤ samplesHeld s then modCap (fun c => { c with st := 3 }) s else s

/-- CAPTURE_COMPLETE. -/
def execCaptureComplete (s : State) : Host.Outcome State Fault Refusal := .next (captureCompleteEffect s)

/-- The capture of loop i aborts: it moved, was disabled, or its reel changed (R132). -/
def captureAbort (i : LoopId) (s : State) : State :=
  if s.clk.cap.active && captureLoop s == some i then modCap (fun c => { c with st := 4 }) s else s

/-- The capture aborts where a command that led from s to t moved its loop to another tile or slot, or disabled it (R132). -/
def captureGuard (s t : State) : State :=
  match captureLoop s with
  | some i =>
    let p := s.act.loop i
    let q := t.act.loop i
    let disabled := (p.st == .start || p.st == .run) && (q.st == .stop || q.st == .off)
    if p.place != q.place || disabled then captureAbort i t else t
  | none => t

/-- One sample of every channel into the ring or the buffer. -/
def storeSample (pre : Nat) (c : Capture) : Capture :=
  let vals := (List.range 4).map fun i => ((nth c.samples i).getD 0 : U32)
  let bufs := (List.range 4).map fun i =>
    let b := nth c.bufs i
    if c.st = 1 then lastN (pre + 1) (b ++ [nth vals i])
    else if b.length < captureDepth then b ++ [nth vals i] else b
  { c with bufs := bufs, prev0 := c.last0, last0 := vals[0]? }

/-- The capture's work at the end of a period: a sample in each period the decimation selects. -/
def capturePeriod (s : State) : State :=
  if s.clk.cap.active then
    let pre := preTrigger s
    let dec := rwN s 0x3504 7
    modCap (fun c =>
      let c := if c.skip = 0 then { storeSample pre c with skip := dec - 1 } else { c with skip := c.skip - 1 }
      { c with samples := List.replicate 4 none }) s
  else s

end Sys2Proof.Machine
end

