-- ==== Sys2Proof/Machine/PolicyIns.lean ====
section
/-! DEFINITION. The policy dialect of the share engine (R167): one meaning for each instruction on the score registers of a
lane. A word the reel checks refuse (codes 5 and 6) is in no reel and has no effect (log entry 6). -/

namespace Sys2Proof.Machine

/-! ## Fields of a policy word (Table 8.5) -/

/-- Destination register. -/
def polD (w : PolicyArgs) : Nat := w.d.toNat
/-- First source. -/
def polA (w : PolicyArgs) : Nat := w.a.toNat
/-- Second source. -/
def polB (w : PolicyArgs) : Nat := w.low.toNat / 2 ^ 12
/-- IMM. -/
def polImm (w : PolicyArgs) : Nat := w.low.toNat % 2 ^ 12
/-- IMM16. -/
def polImm16 (w : PolicyArgs) : BitVec 16 := w.low

/-- Unused fields are 0 and IMM stays below m (check code 5). -/
def polOk (w : PolicyArgs) (useD useA useB : Bool) (m : Nat) : Bool :=
  unused useD (polD w) && unused useA (polA w) && unused useB (polB w) && decide (polImm w < m)

/-- D with a 16-bit immediate: A unused. -/
def polImm16Ok (w : PolicyArgs) : Bool := polA w == 0

/-! ## The score registers -/

/-- Score register r as a signed integer. -/
def Policy.reg (p : Policy) (r : Nat) : Int := (nth p.s r).toInt

/-- A result limited to 32 bits, signed. -/
def sat32 (v : Int) : BitVec 32 := BitVec.ofInt 32 (clampInt (-(2 ^ 31)) (2 ^ 31 - 1) v)

/-- p with score register r written. -/
def Policy.setReg (p : Policy) (r : Nat) (v : BitVec 32) : Policy := { p with s := put p.s r v }

/-- p cleared for an instance with its inputs (R167). -/
def Policy.fresh (inputs : List (BitVec 32)) : Policy :=
  { s := List.replicate 16 0, f := false, outs := [0, 0], inputs := inputs }

/-! ## Results (Table 8.6) -/

/-- LDI: D := input. -/
def polLdi (w : PolicyArgs) (p : Policy) : Policy := p.setReg (polD w) (nth p.inputs (polImm w % 16))
/-- LDK: D := IMM16, sign-extended. -/
def polLdk (w : PolicyArgs) (p : Policy) : Policy := p.setReg (polD w) ((polImm16 w).signExtend 32)
/-- LKH: D[31:16] := IMM16. -/
def polLkh (w : PolicyArgs) (p : Policy) : Policy :=
  p.setReg (polD w) (polImm16 w ++ (nth p.s (polD w)).setWidth 16)
/-- ADD, saturated. -/
def polAdd (w : PolicyArgs) (p : Policy) : Policy := p.setReg (polD w) (sat32 (p.reg (polA w) + p.reg (polB w)))
/-- SUB, saturated. -/
def polSub (w : PolicyArgs) (p : Policy) : Policy := p.setReg (polD w) (sat32 (p.reg (polA w) - p.reg (polB w)))
/-- MUL: the product shifted right with rounding, saturated. -/
def polMul (w : PolicyArgs) (p : Policy) : Policy :=
  p.setReg (polD w) (sat32 (roundShift (p.reg (polA w) * p.reg (polB w)) (polImm w % 32 : Nat)))
/-- DIV: truncated toward 0; a divisor of 0 gives 0. -/
def polDiv (w : PolicyArgs) (p : Policy) : Policy :=
  let b := p.reg (polB w)
  p.setReg (polD w) (if b = 0 then 0 else sat32 (Int.tdiv (p.reg (polA w)) b))
/-- MIN. -/
def polMin (w : PolicyArgs) (p : Policy) : Policy := p.setReg (polD w) (sat32 (min (p.reg (polA w)) (p.reg (polB w))))
/-- MAX. -/
def polMax (w : PolicyArgs) (p : Policy) : Policy := p.setReg (polD w) (sat32 (max (p.reg (polA w)) (p.reg (polB w))))
/-- CMP: flag F by the condition code. -/
def polCmp (w : PolicyArgs) (p : Policy) : Policy :=
  { p with f := condHolds (polImm w % 8) (compare (p.reg (polA w)) (p.reg (polB w))) }
/-- SEL: D := A where F, else B. -/
def polSel (w : PolicyArgs) (p : Policy) : Policy :=
  p.setReg (polD w) (if p.f then nth p.s (polA w) else nth p.s (polB w))
/-- OUT: output IMM[0] := A limited to 0 to 65,535. -/
def polOut (w : PolicyArgs) (p : Policy) : Policy :=
  { p with outs := put p.outs (polImm w % 2) (BitVec.ofInt 16 (clampInt 0 65535 (p.reg (polA w)))) }

/-! ## Checks of the words -/

/-- The word of NOP passes the checks. -/
def policyNopOk (w : PolicyArgs) : Bool := polOk w false false false 1
/-- The word of LDI passes the checks. -/
def policyLdiOk (w : PolicyArgs) : Bool := polOk w true false false 16
/-- The word of LDK passes the checks. -/
def policyLdkOk (w : PolicyArgs) : Bool := polImm16Ok w
/-- The word of LKH passes the checks. -/
def policyLkhOk (w : PolicyArgs) : Bool := polImm16Ok w
/-- The word of ADD passes the checks. -/
def policyAddOk (w : PolicyArgs) : Bool := polOk w true true true 1
/-- The word of SUB passes the checks. -/
def policySubOk (w : PolicyArgs) : Bool := polOk w true true true 1
/-- The word of MUL passes the checks. -/
def policyMulOk (w : PolicyArgs) : Bool := polOk w true true true 32
/-- The word of DIV passes the checks. -/
def policyDivOk (w : PolicyArgs) : Bool := polOk w true true true 1
/-- The word of MIN passes the checks. -/
def policyMinOk (w : PolicyArgs) : Bool := polOk w true true true 1
/-- The word of MAX passes the checks. -/
def policyMaxOk (w : PolicyArgs) : Bool := polOk w true true true 1
/-- The word of CMP passes the checks. -/
def policyCmpOk (w : PolicyArgs) : Bool := polOk w false true true 6
/-- The word of SEL passes the checks. -/
def policySelOk (w : PolicyArgs) : Bool := polOk w true true true 1
/-- The word of OUT passes the checks. -/
def policyOutOk (w : PolicyArgs) : Bool := polOk w false true false 2

/-! ## Commands -/

/-- Run f on the score machine of lane l when the word passes its checks; no reel holds another word (R167, log 6). -/
def runPolicyIns (ok : Bool) (f : Policy → Policy) (l : Lane) (s : State) : Host.Outcome State Fault Refusal :=
  .next (if ok then s.modLane l fun x => { x with share := (let h := x.share; { h with pol := f h.pol }) } else s)

/-- POLICY_NOP. -/
def execPolicyNop (l : Lane) (w : PolicyArgs) (s : State) : Host.Outcome State Fault Refusal :=
  runPolicyIns (policyNopOk w) id l s

/-- POLICY_LDI. -/
def execPolicyLdi (l : Lane) (w : PolicyArgs) (s : State) : Host.Outcome State Fault Refusal :=
  runPolicyIns (policyLdiOk w) (polLdi w) l s

/-- POLICY_LDK. -/
def execPolicyLdk (l : Lane) (w : PolicyArgs) (s : State) : Host.Outcome State Fault Refusal :=
  runPolicyIns (policyLdkOk w) (polLdk w) l s

/-- POLICY_LKH. -/
def execPolicyLkh (l : Lane) (w : PolicyArgs) (s : State) : Host.Outcome State Fault Refusal :=
  runPolicyIns (policyLkhOk w) (polLkh w) l s

/-- POLICY_ADD. -/
def execPolicyAdd (l : Lane) (w : PolicyArgs) (s : State) : Host.Outcome State Fault Refusal :=
  runPolicyIns (policyAddOk w) (polAdd w) l s

/-- POLICY_SUB. -/
def execPolicySub (l : Lane) (w : PolicyArgs) (s : State) : Host.Outcome State Fault Refusal :=
  runPolicyIns (policySubOk w) (polSub w) l s

/-- POLICY_MUL. -/
def execPolicyMul (l : Lane) (w : PolicyArgs) (s : State) : Host.Outcome State Fault Refusal :=
  runPolicyIns (policyMulOk w) (polMul w) l s

/-- POLICY_DIV. -/
def execPolicyDiv (l : Lane) (w : PolicyArgs) (s : State) : Host.Outcome State Fault Refusal :=
  runPolicyIns (policyDivOk w) (polDiv w) l s

/-- POLICY_MIN. -/
def execPolicyMin (l : Lane) (w : PolicyArgs) (s : State) : Host.Outcome State Fault Refusal :=
  runPolicyIns (policyMinOk w) (polMin w) l s

/-- POLICY_MAX. -/
def execPolicyMax (l : Lane) (w : PolicyArgs) (s : State) : Host.Outcome State Fault Refusal :=
  runPolicyIns (policyMaxOk w) (polMax w) l s

/-- POLICY_CMP. -/
def execPolicyCmp (l : Lane) (w : PolicyArgs) (s : State) : Host.Outcome State Fault Refusal :=
  runPolicyIns (policyCmpOk w) (polCmp w) l s

/-- POLICY_SEL. -/
def execPolicySel (l : Lane) (w : PolicyArgs) (s : State) : Host.Outcome State Fault Refusal :=
  runPolicyIns (policySelOk w) (polSel w) l s

/-- POLICY_OUT. -/
def execPolicyOut (l : Lane) (w : PolicyArgs) (s : State) : Host.Outcome State Fault Refusal :=
  runPolicyIns (policyOutOk w) (polOut w) l s

/-! ## Reels (R167) -/

/-- Operand fields of an instruction word. -/
def policyArgs (w : U32) : PolicyArgs :=
  { d := (w >>> 20).setWidth 4, a := (w >>> 16).setWidth 4, low := w.setWidth 16 }

/-- One instruction word on the score machine; an undefined opcode, which no checked reel holds, does nothing. -/
def policyWord (p : Policy) (w : U32) : Policy :=
  let a := policyArgs w
  match w.toNat / 2 ^ 26 with
  | 1 => polLdi a p
  | 2 => polLdk a p
  | 3 => polLkh a p
  | 4 => polAdd a p
  | 5 => polSub a p
  | 6 => polMul a p
  | 7 => polDiv a p
  | 8 => polMin a p
  | 9 => polMax a p
  | 10 => polCmp a p
  | 11 => polSel a p
  | 12 => polOut a p
  | _ => p

/-- One instance of a policy reel on its inputs. -/
def runReel (words : List U32) (inputs : List (BitVec 32)) : Policy := words.foldl policyWord (Policy.fresh inputs)

/-- Check code 5 of one word: opcode defined, unused fields and the reserved bits 0. -/
def policyWordOk (w : U32) : Bool :=
  let a := policyArgs w
  (w.toNat / 2 ^ 24 % 4 == 0) &&
  match w.toNat / 2 ^ 26 with
  | 0 => policyNopOk a
  | 1 => policyLdiOk a
  | 2 => policyLdkOk a
  | 3 => policyLkhOk a
  | 4 => policyAddOk a
  | 5 => policySubOk a
  | 6 => policyMulOk a
  | 7 => policyDivOk a
  | 8 => policyMinOk a
  | 9 => policyMaxOk a
  | 10 => policyCmpOk a
  | 11 => policySelOk a
  | 12 => policyOutOk a
  | _ => false

end Sys2Proof.Machine
end

