-- ==== Sys2Proof/Machine/ShareEng.lean ====
section
/-! DEFINITION. The share engine (R155-R170, R175): bounds, budgets, allocation, application of the grants, the limit block,
loop and contactor requests, and offers. Powers are whole watts rounded down; averages are exact fractions (log entry 8). -/

namespace Sys2Proof.Machine

/-! ## Averages and voltages -/

/-- A voltage in units of 250 uV as a fraction. -/
abbrev Volt := Int × Nat

/-- The share-cycle average voltage, not below min volts. -/
def avgVolt (a : ShareAcc) (minV : Nat) : Volt :=
  if a.avgN = 0 ∨ a.avgV < (minV * 4000 * a.avgN : Nat) then ((minV * 4000 : Nat), 1) else (a.avgV, a.avgN)

/-- W of a current in 0.1 A at a voltage. -/
def wattsAt (deci : Int) (v : Volt) : Int := deci * v.1 / (40000 * v.2 : Nat)

/-- Average power in W. -/
def avgWatts (a : ShareAcc) : Int := if a.avgN = 0 then 0 else a.avgP / (8000000 * a.avgN : Nat)

/-- Average current in A. -/
def avgAmps (a : ShareAcc) : Int := if a.avgN = 0 then 0 else a.avgI / (2000 * a.avgN : Nat)

/-- Commissioning limits in force. -/
def commMode (s : State) : Bool := s.modes.mode == .commission

/-- Close a share cycle: the sums become the averages; without a VALID sample the previous average stays (R15). -/
def ShareAcc.close (a : ShareAcc) : ShareAcc :=
  if a.n = 0 then { a with stale := true }
  else { sumV := 0, sumI := 0, sumP := 0, n := 0, avgV := a.sumV, avgI := a.sumI, avgP := a.sumP, avgN := a.n, stale := false }

/-! ## Vehicle values -/

/-- Session of bay i's vehicle link. -/
def baySess (s : State) (i : Nat) : Option Session := (bayVehicle s i).map (sess s)

/-- Vehicle target current, 0.1 A, limited to 2 A in PRECHARGE (Table 15.4). -/
def vehTarget (v : Session) : Nat :=
  let t := v.inForce.targetCurrent.toNat
  if v.st = .precharge then min t 20 else t

/-! ## Bay bounds (R157, Table 8.3) -/

/-- V_i. -/
def bayVolt (s : State) (h : Share) (i : Nat) : Volt := avgVolt (nth h.bayAcc i) (bayN s i 0x18)

/-- The bay may take power: a session in energy transfer, or a host enable in COMMISSION, and the head link UP. -/
def bayOn (s : State) (x : LaneState) (i : Nat) : Bool :=
  let st := (nth x.bayLoops i).st
  headUp s x i && (if commMode s then st != .off && st != .fault && st != .stop else bayTransfer s i)

/-- Module capacity of bay i, 0.1 A: MLIM over its verified modules (term 6). -/
def moduleCap (s : State) (x : LaneState) (i : Nat) : Nat :=
  sumNat ((List.range 96).map fun j =>
    let w := moduleLast s x j
    if cabUp s x j && modPos w == i + 1 && modRdy w && !fltBit w && !modMoving w then (x.mod j).mlim else 0)

/-- Current-limit request of bay i, 0.1 A; the rated current where there is none. -/
def currentReq (s : State) (i : Nat) : Nat := if bayN s i 0xA = 0 then bayN s i 8 * 10 else bayN s i 0xA * 10

/-- Terms 1 to 9 of bay i's bound with their codes, in W; term 8 stands only where it is 0. -/
def bayTerms (s : State) (x : LaneState) (i : Nat) : List (Nat × Int) :=
  let v := bayVolt s x.share i
  let powerReq : Int := (if bayN s i 0xB = 0 then bayN s i 9 else bayN s i 0xB) * 1000
  let veh : List (Nat × Int) :=
    if commMode s then [(7, wattsAt (cfgN s 0x2010 5 * 10 : Nat) v)]
    else
      match baySess s i with
      | some u =>
        [(4, min (u.inForce.maxPower.toNat : Int) (wattsAt (u.inForce.maxCurrent.toNat : Nat) v)),
         (5, (vehTarget u * (1000 + cfgN s 0x3200 6) : Nat) * v.1 / (40000000 * v.2 : Nat))]
      | none => []
  let st := (nth x.bayLoops i).st
  let base : List (Nat × Int) :=
    [(1, ((bayN s i 9 * 1000 : Nat) : Int)), (2, min powerReq (wattsAt (currentReq s i : Nat) v)),
     (3, wattsAt ((nth x.th.bays i).i2 : Nat) v), (6, wattsAt (moduleCap s x i : Nat) v),
     (9, wattsAt (bayN s i 8 * 10 : Nat) v)]
  let out : List (Nat × Int) := if bayN s i 0xC = 0 ∨ st = .fault ∨ st = .stop then [(8, 0)] else []
  base ++ veh ++ out

/-- The smallest term, the lowest code among equals. -/
def smallest (l : List (Nat × Int)) : Nat × Int :=
  l.foldl (fun b t => if t.2 < b.2 ∨ (t.2 = b.2 ∧ t.1 < b.1) then t else b) (l.headD (0, 0))

/-- Code and upper bound of bay i: code 0 where the bay may take no power. -/
def bayBound (s : State) (x : LaneState) (i : Nat) : Nat × Int :=
  if bayOn s x i then smallest (bayTerms s x i) else (0, 0)

/-- The need of bay i: the smallest term other than term 6 (R179). -/
def bayNeed (s : State) (x : LaneState) (i : Nat) : Int :=
  if !(bayOn s x i) then 0 else (smallest ((bayTerms s x i).filter fun t => t.1 != 6)).2

/-- I_hard of bay i, 0.1 A: the smallest current of terms 2, 3, 4, 7 and 9 (R163). -/
def bayHard (s : State) (x : LaneState) (i : Nat) : Nat :=
  let base := min (min (currentReq s i) (nth x.th.bays i).i2) (bayN s i 8 * 10)
  if commMode s then min base (cfgN s 0x2010 5 * 10)
  else
    match baySess s i with
    | some u => min base u.inForce.maxCurrent.toNat
    | none => base

/-! ## String limits (R158, Table 8.4) -/

/-- SoC of string i in 0.1 %, where it is known (R169). -/
def strSoc (s : State) (h : Share) (i : Nat) : Option Int :=
  let y := nth h.strs i
  let cap := strN s i 3
  if y.known ∧ cap ≠ 0 ∧ y.reported ≠ 0xFFFF then
    some (y.reported.toNat + y.energy / (cap * 3600000 : Nat))
  else none

/-- V_s. -/
def strVolt (h : Share) (i : Nat) : Volt := avgVolt (nth h.strAcc i) 0

/-- The SoC report is older than object 3200:09. -/
def socStale (s : State) (h : Share) (i : Nat) : Bool :=
  decide (cfgN s 0x3200 9 * 1000000000 < s.site.ns - (nth h.strs i).reportAt)

/-- Discharge and charge limits of string i without the conditions, in W. -/
def strTerms (s : State) (x : LaneState) (i : Nat) (soc : Int) : Int × Int :=
  let h := x.share
  let v := strVolt h i
  let p := avgWatts (nth h.strAcc i)
  let lo : Int := strN s i 0xA
  let hi : Int := strN s i 0xB
  let band : Int := strN s i 0xC
  let rd := wattsAt (strN s i 6 * 10 : Nat) v
  let rc := wattsAt (strN s i 5 * 10 : Nat) v
  let th := wattsAt ((nth x.th.strs i).i2 : Nat) v
  let slope := wattsAt (strN s i 9 * 10 : Nat) v
  let td := if soc - lo < band then rd * (soc - lo) / band else rd
  let tc := if hi - soc < band then rc * (hi - soc) / band else rc
  let d := min (min rd th) (min td (max (-p) 0 + slope))
  let c := min (min rc th) (min tc (max p 0 + slope))
  let d := if soc ≤ lo ∨ strN s i 0x10 = 0 then 0 else max 0 d
  let c := if hi ≤ soc ∨ strN s i 0xF = 0 then 0 else max 0 c
  if socStale s h i then (d / 2, c / 2) else (d, c)

/-- Prospective limits: every condition but the contactor's. -/
def strProspective (s : State) (x : LaneState) (i : Nat) : Int × Int :=
  match strSoc s x.share i with
  | some soc =>
    if strN s i 0xE ≠ 0 ∧ strUp s x i ∧ (nth x.strLoops i).st ≠ .fault ∧ (nth x.strLoops i).unplaced = false then strTerms s x i soc else (0, 0)
  | none => (0, 0)

/-- Host set-point of string i in COMMISSION, clamped to the rated currents and to object 2010:05 (R158, Table 3.9), in W. -/
def commSetPoint (s : State) (x : LaneState) (i : Nat) : Int :=
  let v := strVolt x.share i
  let lim := cfgN s 0x2010 5
  let rd := wattsAt (min (strN s i 6) lim * 10 : Nat) v
  let rc := wattsAt (min (strN s i 5) lim * 10 : Nat) v
  clampInt (-rd) rc (cfgI s (0x31A0 + i) 0x11)

/-- Limits d_s and c_s of string i; in COMMISSION the host set-point is its own limit. -/
def strLimits (s : State) (x : LaneState) (i : Nat) : Int × Int :=
  if commMode s then let g := commSetPoint s x i; (max (-g) 0, max g 0)
  else if (nth x.share.strs i).contCycle then strProspective s x i else (0, 0)

/-! ## Grid status (R159, R226) -/

/-- The record a run in lane l takes, with its period of arrival: the active lane its newest, another lane the one the marker named. -/
def gridRec (s : State) (l : Lane) : Option (GridStatus × Nat) :=
  let g := (s.lane l).grid
  let l' := g.recs.zip g.arrivals
  if activeLane s = some l then l'.head?
  else
    match l'.find? fun r => r.1.seq == g.named with
    | some r => some r
    | none => l'.head?

/-- ms elapsed since a record arrived in period pa. -/
def recAge (s : State) (pa : Nat) : Nat := (s.clk.period - pa) * periodNs s / 1000000

/-- Milliseconds left in the demand interval now, and whether the record's interval is over. -/
def timeLeft (s : State) (pa : Nat) (r : GridStatus) : Nat × Bool :=
  let age := recAge s pa
  if age < r.tLeft.toNat then (r.tLeft.toNat - age, false)
  else
    let len := demandSeconds s.met * 1000
    (if len = 0 then 0 else len - (age - r.tLeft.toNat) % len, true)

/-- t_r: whole seconds rounded up, not below object 3200:05. -/
def secondsLeft (s : State) (r : GridStatus × Nat) : Nat := max (cfgN s 0x3200 5) (ceilDiv (timeLeft s r.2 r.1).1 1000)

/-- First period of the record's 10 ms window, or the window's length before p_a where no tap record fell in it. -/
def windowStart (s : State) (pa : Nat) (r : GridStatus) : Nat :=
  let len := if s.clk.long then 200 else 400
  if r.period = 0xFF then pa - len
  else
    let base := pa - (if s.clk.long then 231 else 431)
    base + (r.period.toNat + 64 - base % 64) % 64

/-- The mean of the VALID powers of a channel; a channel with none counts 0 (DEDUCED, log 56). -/
def meanPower (l : List (Option Int)) : ℚ :=
  let v := l.filterMap id
  if v.isEmpty then 0 else (sumInt v : ℚ) / (8000000 * v.length : Nat)

/-- P_aux of a record: its import power less the mean DC powers of its window, whole W rounded down, limited (R159). -/
def auxOf (s : State) (h : Share) (pa : Nat) (r : GridStatus) : Int :=
  let len := if s.clk.long then 200 else 400
  let p0 := windowStart s pa r
  let rows := (List.range len).map fun k => nth h.powers (s.clk.period - 1 - (p0 + k))
  let total := ((List.range 32).map fun c => meanPower (rows.map fun q => nth q c)).foldl (· + ·) 0
  clampInt 0 (cfgN s 0x3200 2 * 1000 : Nat) ((r.pImp.toNat : ℚ) - total).floor

/-- Site share S_h, W (R171, R174). -/
def siteShare (s : State) : Int :=
  let kw : Nat :=
    if cfgB s 0x3230 1 = false then cfgN s 0x3230 2
    else
      match s.clk.fed.lastShare with
      | none => cfgN s 0x3230 5
      | some v => if s.clk.fed.fallback || commMode s then min v.toNat (cfgN s 0x3230 5) else v.toNat
  (kw * 1000 : Nat)

/-- Demand allowance P_dem in W, none without a demand target. -/
def demandAllowance (s : State) (l : Lane) (eD : Nat) : Option Int :=
  let target := cfgN s 0x3200 3
  let margin : Int := (cfgN s 0x3200 4 * 1000 : Nat)
  if target = 0 then none
  else if demandSliding s.met then some ((target * 1000 : Nat) - margin)
  else
    let g := (s.lane l).grid
    match g.fresh, gridRec s l with
    | true, some r =>
      let et : Int := (target * 1000 * demandSeconds s.met : Nat)
      some (max 0 ((et - (eD * 3600 : Nat)) / (secondsLeft s r : Int) - margin))
    | _, _ => some ((target * 1000 : Nat) - margin)

/-! ## The allocation (R160) -/

/-- Sum of the capped grants at water level x. -/
def capSum (hi : List Int) (w : List Nat) (x : Nat) : Int :=
  sumInt ((hi.zip w).map fun p => min p.1 ((p.2 * x / 2 ^ 32 : Nat) : Int))

/-- The largest level whose sum is within the budget: one bit of the 64 per round. -/
def waterLevel (hi : List Int) (w : List Nat) (bud : Int) : Nat → Nat → Nat
  | 0, lo => lo
  | n + 1, lo =>
    let mid := lo + 2 ^ n
    waterLevel hi w bud n (if capSum hi w mid ≤ bud then mid else lo)

/-- Grants at level lam. -/
def bayGrants (hi : List Int) (w : List Nat) (lam : Nat) : List Int :=
  (hi.zip w).map fun p => min p.1 ((p.2 * lam / 2 ^ 32 : Nat) : Int)

/-- One round of the split: shares x, free strings, rest. -/
def splitRound (w : List Nat) (lim : List Int) (up : Bool) (st : List Int × List Bool × Int) :
    List Int × List Bool × Int :=
  let x := st.1
  let free := st.2.1
  let rest := st.2.2
  let idx := (List.range 8).filter (nth free)
  let total := sumNat (idx.map (nth w))
  if idx.isEmpty ∨ rest = 0 ∨ total = 0 then st
  else
    let share := fun i => let n := rest * (nth w i : Int); if up then -((-n) / (total : Int)) else n / (total : Int)
    let sat := idx.filter fun i => decide (nth lim i ≤ share i)
    if sat.isEmpty then
      ((List.range 8).map fun i => if nth free i then share i else nth x i, free, 0)
    else
      ((List.range 8).map fun i => if sat.contains i then nth lim i else nth x i,
        (List.range 8).map fun i => nth free i && !sat.contains i,
        rest - sumInt (sat.map (nth lim)))

/-- The split of t over the strings by weight within limits: 8 rounds. -/
def split (t : Int) (w : List Nat) (lim : List Int) (up : Bool) : List Int :=
  let free := (List.range 8).map fun i => decide (0 < nth w i) && decide (0 < nth lim i)
  ((List.range 8).foldl (fun st _ => splitRound w lim up st) (List.replicate 8 0, free, t)).1

/-! ## Policy inputs (R167-R170, Table 8.7) -/

/-- kW of a power in W, truncated. -/
def kw (p : Int) : Int := Int.tdiv p 1000

/-- Priority of a lease account: the entry of its class; class 0 without an account (R168). -/
def accountPriority (s : State) (account : Nat) : Nat :=
  let cls := if account < 256 then cfgN s (0x4300 + account) 0x1D else 0
  cfgN s 0x3202 (cls + 1)

/-- Priority p of bay i. -/
def bayPriority (s : State) (i : Nat) : Int :=
  let acc := match baySess s i with
    | some v => v.account.toNat
    | none => 0xFFFF
  accountPriority s acc + cfgI s (0x3000 + i) 0xD

/-- Seconds from ns t until now. -/
def secsSince (s : State) (t : Nat) : Int := ((s.site.ns - t) / 1000000000 : Nat)

/-- Energy still requested by a session, Wh; -1 if none. -/
def energyLeft (v : Session) : Int :=
  if v.target = 0 then -1 else max 0 ((v.target.toNat : Int) - v.energy / 3600000)

/-- The 16 inputs of a bay instance. -/
def bayInputs (s : State) (l : Lane) (h : Share) (i : Nat) (tail : List Int) : List Int :=
  let x := s.lane l
  let v := (baySess s i).getD Session.reset
  let depart : Int :=
    if v.departure = 0 then -1 else ((v.departure.toNat - (siteTime s).toNat) / 32768 : Nat)
  let soc : Int := match v.inForce.soc with
    | some q => q.toNat
    | none => -1
  let c := nth x.th.bays i
  [(0 : Int), (i + 1 : Nat), bayPriority s i, kw (nth h.hi i), energyLeft v, depart, kw (nth h.gb i), (c.i2 / 10 : Nat), (c.i10 / 10 : Nat),
   (c.i60 / 10 : Nat), avgAmps (nth h.bayAcc i), soc, (s.met.bill.regs.tariff : Int), secsSince s v.startNs] ++ tail

/-- The 16 inputs of a string instance. -/
def strInputs (s : State) (l : Lane) (h : Share) (i : Nat) (tail : List Int) : List Int :=
  let x := s.lane l
  let y := nth h.strs i
  let soc := (strSoc s h i).getD 0
  let closed : Int := match y.closedAt with
    | some t => secsSince s t
    | none => 0
  let c := nth x.th.strs i
  [(1 : Int), (i + 1 : Nat), (accountPriority s (strN s i 0xD) : Nat), kw (nth h.d i), kw (nth h.c i), soc - strN s i 0xA, kw (nth h.gs i),
   (c.i2 / 10 : Nat), (c.i10 / 10 : Nat), (c.i60 / 10 : Nat), avgAmps (nth h.strAcc i), strN s i 0xB - soc,
   (s.met.bill.regs.tariff : Int), closed] ++ tail

/-- Inputs as 32-bit values. -/
def policyInputs (l : List Int) : List (BitVec 32) := l.map sat32

/-- Weight of bay i and the score machine after it. -/
def bayWeight (s : State) (l : Lane) (h : Share) (tail : List Int) (reel : List U32) (i : Nat) : Nat × Policy :=
  if reel.isEmpty then ((100 + 10 * clampInt 0 31 (bayPriority s i)).toNat, h.pol)
  else
    let p := runReel reel (policyInputs (bayInputs s l h i tail))
    ((nth p.outs 0).toNat, p)

/-- Weights wd and wc of string i and the score machine after it. -/
def strWeight (s : State) (l : Lane) (h : Share) (tail : List Int) (reel : List U32) (i : Nat) : Nat × Nat × Policy :=
  if reel.isEmpty then
    match strSoc s h i with
    | some soc => ((max 0 (soc - strN s i 0xA)).toNat, (max 0 (strN s i 0xB - soc)).toNat, h.pol)
    | none => (0, 0, h.pol)
  else
    let p := runReel reel (policyInputs (strInputs s l h i tail))
    ((nth p.outs 0).toNat, (nth p.outs 1).toNat, p)

/-- The instructions of a policy reel object. -/
def policyReel (s : State) (i : Nat) : List U32 := reelIns (cfgBytes s i 0)

/-! ## A run (R155) -/

/-- The latch: averages closed, SoC energy integrated over the share cycle, contactor reports taken. -/
def latchRun (h : Share) : Share :=
  let bayAcc := h.bayAcc.map ShareAcc.close
  let strAcc := h.strAcc.map ShareAcc.close
  { h with
    bayAcc := bayAcc, strAcc := strAcc
    strs := h.strs.mapIdx fun i (y : StrState) =>
      { y with energy := y.energy + avgWatts (nth strAcc i) * 1000, contCycle := y.contAll, contAll := true } }

/-- Bounds and limits. -/
def boundsRun (s : State) (x : LaneState) (h : Share) : Share :=
  let bnd := (List.range 24).map (bayBound s x)
  let lim := (List.range 8).map (strLimits s x)
  let pro := (List.range 8).map (strProspective s x)
  { h with
    hi := bnd.map Prod.snd, code := bnd.map fun p => BitVec.ofNat 8 p.1
    need := (List.range 24).map (bayNeed s x), iHard := (List.range 24).map fun i => (bayHard s x i : Int)
    d := lim.map Prod.fst, c := lim.map Prod.snd, pd := pro.map Prod.fst, pc := pro.map Prod.snd }

/-- Hub budgets (R159). -/
def budgetsRun (s : State) (l : Lane) (x : LaneState) (h : Share) : Share :=
  let g := x.grid
  let rec? := gridRec s l
  let h :=
    match g.fresh, rec? with
    | true, some r =>
      let past := (timeLeft s r.2 r.1).2
      let eD := if past then 0 else r.1.eD.toNat
      if h.auxSeq = some r.1.seq then { h with eD := eD }
      else { h with eD := eD, pAux := auxOf s h r.2 r.1, auxSeq := some r.1.seq }
    | _, _ => h
  let cap : Int := if s.modes.mode = .idle ∨ s.modes.mode = .safe then 0 else (cfgN s 0x3200 1 * 1000 : Nat)
  let pdem := demandAllowance s l h.eD
  let sh := siteShare s
  let lim := min sh (cfgN s 0x3200 2 * 1000 : Nat)
  let lim := if x.th.ptx = 0xFFFFFFFF then lim else min lim (x.th.ptx * 1000 : Nat)
  let lim := match pdem with
    | some p => min lim p
    | none => lim
  { h with cap := cap, sh := sh, pDem := pdem.getD Config.noAllowance, g := lim - h.pAux }

/-- P_dem - P_imp in kW and the seconds left: the last two policy inputs. -/
def policyTail (s : State) (l : Lane) (h : Share) : List Int :=
  match gridRec s l with
  | some r => [kw (h.pDem - r.1.pImp.toNat), (secondsLeft s r : Int)]
  | none => [kw h.pDem, 0]

/-- Weights of the 32 instances; the score machine ends as the last instance leaves it. -/
def weightsRun (s : State) (l : Lane) (h : Share) : Share :=
  let tail := policyTail s l h
  let bayReel := policyReel s 0x32C0
  let strReel := policyReel s 0x32C1
  let b := (List.range 24).map (bayWeight s l h tail bayReel)
  let t := (List.range 8).map (strWeight s l h tail strReel)
  { h with w := b.map Prod.fst, wd := t.map Prod.fst, wc := t.map fun q => q.2.1
           pol := if strReel.isEmpty then (b.getLast?.map Prod.snd).getD h.pol
                  else (t.getLast?.map fun q => q.2.2).getD h.pol }

/-- Flags of Table 8.15. -/
def shareFlags (s : State) (h : Share) (l : Lane) (short : Bool) : U16 :=
  BitVec.ofNat 16 (flagBits
    [(0, h.bBud == h.cap), (1, short), (2, !(s.lane l).grid.fresh), (3, leads s && cfgB s 0x3230 1),
     (4, s.clk.fed.fallback && cfgB s 0x3230 1), (5, h.lost.isSome), (6, h.bayAcc.any ShareAcc.stale), (7, commMode s)])

/-- What a run publishes. -/
def Share.results (h : Share) : ShareRes :=
  { hi := h.hi, code := h.code, need := h.need, iHard := h.iHard, w := h.w, wd := h.wd, wc := h.wc, d := h.d, c := h.c, pd := h.pd
    pc := h.pc, lam := h.lam, cap := h.cap, sh := h.sh, pDem := h.pDem, pAux := h.pAux, g := h.g, bBud := h.bBud, flags := h.flags
    runs := h.runs, eD := h.eD, auxSeq := h.auxSeq }

/-- The results of a run in force from its apply period (R155). -/
def Share.publish (r : ShareRes) (h : Share) : Share :=
  { h with
    hi := r.hi, code := r.code, need := r.need, iHard := r.iHard, w := r.w, wd := r.wd, wc := r.wc, d := r.d, c := r.c, pd := r.pd
    pc := r.pc, lam := r.lam, cap := r.cap, sh := r.sh, pDem := r.pDem, pAux := r.pAux, g := r.g, bBud := r.bBud
    flags := r.flags, runs := r.runs, eD := r.eD, auxSeq := r.auxSeq }

/-- Bay fill and string split: the run's grants, with the results that wait for the apply period. -/
def fillRun (s : State) (l : Lane) (x : LaneState) (h : Share) : ShareRun :=
  let sd := sumInt h.d
  let sc := sumInt h.c
  let bud := min h.cap (min (sumInt h.hi) (max h.g 0 + sd))
  let lam := waterLevel h.hi h.w bud 64 0
  let gb := bayGrants h.hi h.w lam
  let tb := sumInt gb
  let pexp : Int := (cfgN s 0x3200 7 * 1000 : Nat)
  let xd := min sd (min (max 0 (tb - h.g)) (tb + pexp))
  let yc := min sc (min (max 0 (h.g - tb)) (h.cap - tb))
  let chg := split yc h.wc h.c false
  let dis := split xd h.wd h.d true
  let gs :=
    if commMode s then (List.range 8).map (commSetPoint s x)
    else (chg.zip dis).map fun p => p.1 - p.2
  let h := { h with bBud := bud, lam := BitVec.ofNat 64 lam, runs := h.runs + 1 }
  let h := { h with flags := shareFlags s h l (decide (h.g < 0 ∧ xd < tb - h.g)) }
  { b := s.clk.period, res := h.results, gb := gb, gs := gs, mlim := x.wp.mods.map Module.mlim, half := false }

/-- A run of lane l on its inputs at cycle 0 of the boundary: the latch takes effect at once, the rest waits in the run. -/
def shareRun (s : State) (l : Lane) : Share :=
  let x := s.lane l
  let h := latchRun x.share
  let x := { x with share := h }
  let w := weightsRun s l (budgetsRun s l x (boundsRun s x h))
  { h with pending := h.pending ++ [fillRun s l x w], pol := w.pol }

/-- The energy every open session has drawn, from the active lane's share accumulator (R315). -/
def sessionEnergy (h : Share) (s : State) : State :=
  (List.range 24).foldl (fun s i =>
    match bayVehicle s i with
    | some n => modSess n (fun (v : Session) => { v with energy := v.energy + max 0 (avgWatts (nth h.bayAcc i)) }) s
    | none => s) s

/-- Sessions whose remaining energy is 0 end with cause 2 (R315). -/
def energyReached (s : State) : State :=
  (List.range 24).foldl (fun s n => if (sess s n).st.transfer ∧ energyLeft (sess s n) = 0 then endSession n 2 s else s) s

/-- The share engine runs in this mode (Table 3.1). -/
def shareMode (s : State) : Bool := powerMode s || s.modes.mode == .idle || s.modes.mode == .safe

/-- A run starts at a share-cycle boundary. -/
def shareRunStartEffect (l : Lane) (s : State) : State :=
  if computing s l && atShare s && shareMode s then
    let h := shareRun s l
    let s := s.modLane l fun x => { x with share := h }
    if activeLane s = some l then energyReached (sessionEnergy h s) else s
  else s

/-- SHARE_RUN_START. -/
def execShareRunStart (l : Lane) (s : State) : Host.Outcome State Fault Refusal := .next (shareRunStartEffect l s)

/-! ## Applying the grants (R162-R166) -/

/-- Periods from a run's start to its apply period. -/
def applyDelay (s : State) : Nat := if s.clk.long then 4 else 8

/-- m / d as SHARE: rounded down to the 20-bit mantissa at the smallest exponent that fits (R163). -/
def shareValue (m d : Nat) : PortVal :=
  if m = 0 ∨ d = 0 then PortVal.ofInt 0
  else
    let e := (List.range 34).find? fun (k : Nat) => decide (m * 2 ^ (51 - k) / d ≤ 524287)
    match e with
    | some k => { m := (m * 2 ^ (51 - k) / d : Nat), e := (k : Int) - 51, inv := false }
    | none => PortVal.ofInt 1

/-- SHARE of every module from the MLIM a run latched. -/
def shareOut (x : LaneState) (mlim : List Nat) : List PortVal :=
  (List.range 96).map fun j =>
    let b := (x.mod j).bay
    if b = 0 ∨ (x.mod j).st ≠ .serving then PortVal.ofInt 0
    else
      let total := sumNat ((List.range 96).map fun k =>
        if (x.mod k).bay = b ∧ (x.mod k).st = .serving then nth mlim k else 0)
      shareValue (nth mlim j) total

/-- Current in 0.1 A of a power at a voltage, rounded down; a voltage of 0 leaves the value open. -/
def deciAmps (p : Int) (v : Volt) : Int := if v.1 = 0 then Config.divByZero p else p * (40000 * v.2 : Nat) / v.1

/-- The offers of the applied grants (R166). -/
def offersOut (s : State) (h : Share) : Share :=
  { h with
    offerP := h.gb
    offerI := (List.range 24).map fun i => min (nth h.iHard i) (deciAmps (nth h.gb i) (bayVolt s h i))
    offerV := (List.range 24).map fun i =>
      let rated : Int := bayN s i 7
      match baySess s i with
      | some v => min rated (v.inForce.maxVoltage.toNat / 10 : Nat)
      | none => rated }

/-- Bay loops whose first non-zero grant of a session applies are enabled (R165). -/
def fundBays (s : State) (x : LaneState) : LaneState :=
  (List.finRange 24).foldl (fun (x : LaneState) (i : Fin 24) =>
    if 0 < nth x.share.gb i ∧ nth x.share.funded i = false ∧ commMode s = false ∧ bayTransfer s i ∧ enableMode s (.bay i) then
      let x := enableLoop (.bay i) x
      { x with share := (let h := x.share; { h with funded := put h.funded i true }) }
    else x) x

/-- String i's loop was, or is no longer, enabled for the grant in force. -/
def setFunded (i : Nat) (v : Bool) (x : LaneState) : LaneState :=
  { x with share := (let h := x.share; { h with strs := upd h.strs i fun (y : StrState) => { y with funded := v } }) }

/-- A string loop is enabled at the first non-zero applied grant once CONT is reported, and disabled when the grant applies as 0
(R165). -/
def fundStrings (s : State) (x : LaneState) : LaneState :=
  (List.finRange 8).foldl (fun (x : LaneState) (i : Fin 8) =>
    let g := nth x.share.gs i
    let st := (nth x.strLoops i).st
    let funded := (nth x.share.strs i).funded
    if g ≠ 0 ∧ !funded ∧ (st = .off ∨ st = .stop) ∧ enableMode s (.string i) ∧ contBit (lastStatusWord x (strLink s i)) then
      setFunded i true (enableLoop (.string i) x)
    else if g = 0 ∧ (funded ∨ !(commMode s)) then
      setFunded i false (if st = .run ∨ st = .start then disableLoop (.string i) x else x)
    else x) x

/-- Grants follow the applied run as far as its decreases. -/
def applyDecreases (r : ShareRun) (h : Share) : Share :=
  { h with gb := (h.gb.zip r.gb).map fun p => min p.1 p.2, gs := (h.gs.zip r.gs).map fun p => min p.1 p.2 }

/-- The forced shrink ends with a run that started after the loss (R164). -/
def endShrink (b : Nat) (h : Share) : Share :=
  match h.lost with
  | some k => if k < b then { h with lost := none, flags := h.flags &&& 0xFFDF } else h
  | none => h

/-- FORCED_SHRINK and DEMAND_STALE of the published flags as they stand now. -/
def liveFlags (x : LaneState) (h : Share) : Share :=
  { h with flags := (h.flags &&& 0xFFDF) ||| (if h.lost.isSome then 0x20 else 0) ||| (if x.grid.fresh then 0 else 4) }

/-- Current words of a power at a voltage word, rounded toward zero. -/
def currentWords (p vw : Int) : Int := if vw = 0 then (if p = 0 then 0 else Config.divByZero p) else Int.tdiv (p * 8000000) vw

/-- Fabric inputs of a period from the applied grants (R163). -/
def limitBlock (s : State) (x : LaneState) : LaneState :=
  let h := x.share
  let ilim := (List.range 24).map fun i =>
    let v := max (headLast s x i 1) (bayN s i 0x18 * 4000 : Nat)
    min (nth h.iHard i * 200) (currentWords (nth h.gb i) v)
  let ref := (List.range 24).map fun i =>
    if commMode s then nth ilim i
    else
      match baySess s i with
      | some v => min (nth ilim i) (vehTarget v * 200 : Nat)
      | none => min (nth ilim i) 0
  let sref := (List.range 8).map fun i =>
    currentWords (nth h.gs i) (max (strLast s x i 1) (strN s i 8 * 4000 : Nat))
  { x with share := { h with ilim := ilim, ref := ref, sref := sref, slim := sref.map fun v => (v.natAbs : Int) } }

/-- The apply period of a run: its results, decreases, offers and module shares, and the fabric inputs they give in that period. -/
def shareApplyLane (s : State) (x : LaneState) : LaneState :=
  match x.share.pending.find? fun r => !r.half && r.b + applyDelay s == s.clk.period with
  | none => x
  | some r =>
    let h := liveFlags x (endShrink r.b (applyDecreases r (x.share.publish r.res)))
    let h := { h with
      pending := h.pending.map fun (q : ShareRun) => if q.b = r.b then { q with half := true } else q
      share := shareOut x r.mlim }
    let x := { x with share := offersOut s h }
    limitBlock s (fundStrings s (fundBays s x))

/-- SHARE_APPLY. -/
def execShareApply (l : Lane) (s : State) : Host.Outcome State Fault Refusal :=
  .next (if computing s l then captureGuard s (s.modLane l (shareApplyLane s)) else s)

/-- Period a+2: the run's increases apply and the offers are republished. -/
def shareIncreaseLane (s : State) (x : LaneState) : LaneState :=
  match x.share.pending.find? fun r => r.half && r.b + applyDelay s + 2 == s.clk.period with
  | none => x
  | some r =>
    let h := x.share
    let h := { h with gb := r.gb, gs := r.gs, pending := h.pending.filter fun q => q.b != r.b }
    let x := { x with share := offersOut s h }
    limitBlock s (fundStrings s (fundBays s x))

/-- SHARE_INCREASE_APPLY. -/
def execShareIncreaseApply (l : Lane) (s : State) : Host.Outcome State Fault Refusal :=
  .next (if computing s l then captureGuard s (s.modLane l (shareIncreaseLane s)) else s)

/-! ## The limit block and the requests of every period (R163, R165) -/

/-- Bay loops of sessions that have ended, or of bays out of service, are disabled; the next session's grant enables afresh. -/
def dropBays (s : State) (x : LaneState) : LaneState :=
  (List.finRange 24).foldl (fun (x : LaneState) (i : Fin 24) =>
    let st := (nth x.bayLoops i).st
    let out := bayN s i 0xC == 0 || (!(commMode s) && !(bayTransfer s i))
    let x := if bayTransfer s i then x else { x with share := (let h := x.share; { h with funded := put h.funded i false }) }
    if out ∧ (st = .start ∨ st = .run) then disableLoop (.bay i) x else x) x

/-- RUN and CONT of string i in a period: set where every condition of R165 holds, cleared at once where the string is unavailable, which
an unplaced one is (R191), its link not UP, or, outside COMMISSION, its SoC unknown. A loop in FAULT keeps them until the end of its
override ramp (R144) or of the hold time. In SAFE they are left to the ramp (R60). -/
def strCommands (s : State) (x : LaneState) (i : Nat) (y : StrState) : StrState :=
  let p := nth x.strLoops i
  let held := s.modes.mode == .safe
  let ok := strN s i 0xE != 0 && !p.unplaced && strUp s x i && powerMode s && (commMode s || (strSoc s x.share i).isSome)
  let want := commMode s || nth x.share.pd i != 0 || nth x.share.pc i != 0
  let set := want && p.st != .fault
  let closed := contBit (lastStatusWord x (strLink s i))
  { y with
    run := if held then y.run else ok && (y.run || set)
    cont := if held then y.cont else ok && (y.cont || set)
    idleSince := if want then none else some (y.idleSince.getD s.clk.period)
    closedAt := if closed then some (y.closedAt.getD s.site.ns) else none }

/-- Contactor commands of every string. -/
def stringCommands (s : State) (x : LaneState) : LaneState :=
  { x with share := (let h := x.share; { h with strs := h.strs.mapIdx (strCommands s x) }) }

/-- Grants fall to 0 at once where the mode allows none: SAFE, IDLE, SERVICE, BOOT (R60, R162); what a run still has to apply is 0 too. -/
def modeGrants (s : State) (x : LaneState) : LaneState :=
  if powerMode s then x
  else
    let h := x.share
    let zero := fun (r : ShareRun) => { r with gb := List.replicate 24 0, gs := List.replicate 8 0 }
    { x with share := { h with gb := List.replicate 24 0, gs := List.replicate 8 0
                               pending := if shareMode s then h.pending.map zero else [] } }

/-- At a share-cycle boundary that starts no run the averages are closed all the same (R15, R156). -/
def idleLatch (s : State) (x : LaneState) : LaneState :=
  if atShare s && !(shareMode s) then { x with share := latchRun x.share } else x

/-- The share engine's work at cycle 0 of a period. -/
def sharePeriod (s : State) (x : LaneState) : LaneState :=
  limitBlock s (stringCommands s (dropBays s (modeGrants s (idleLatch s x))))

/-- The hold time of a string has run out: CONT is cleared (R165). -/
def contactorHoldLane (s : State) (i : Nat) (x : LaneState) : LaneState :=
  let y := nth x.share.strs i
  if y.cont ∧ y.idleSince.isSome ∧ commMode s = false then
    { x with share := (let h := x.share; { h with strs := upd h.strs i fun (z : StrState) => { z with cont := false } }) }
  else x

/-- STRING_CONTACTOR_HOLD_EXPIRY. -/
def execStringContactorHoldExpiry (l : Lane) (str : Fin 8) (s : State) : Host.Outcome State Fault Refusal :=
  .next (s.modLane l (contactorHoldLane s str))

/-! ## Grid status at a lane (R218, R226) -/

/-- A record arrives: the last 4 are kept, and FLAGS [2] reports a state that is not READY. -/
def gridStatusLane (s : State) (g : GridStatus) (x : LaneState) : LaneState :=
  { x with
    grid := (let k := x.grid
             { k with recs := (g :: k.recs).take 4, arrivals := (s.clk.period :: k.arrivals).take 4, fresh := true, linkLost := false
                      ready := !(g.flags.getLsbD 2) }) }

/-- A grid-status record reaches a lane; one that reports a state other than READY to the active lane ends every vehicle session with
cause 8 (R215, R218). -/
def gridStatusEffect (l : Lane) (g : GridStatus) (s : State) : State :=
  let s := s.modLane l (gridStatusLane s g)
  if activeLane s = some l && g.flags.getLsbD 2 then endAllSessions 8 s else s

/-- GRID_STATUS_RECEIVED. -/
def execGridStatusReceived (l : Lane) (g : GridStatus) (s : State) : Host.Outcome State Fault Refusal :=
  .next (gridStatusEffect l g s)

/-- No record for 100 ms: the lane marks the link lost; the active lane ends every session with cause 8 (R218). -/
def gridStatusStaleEffect (l : Lane) (s : State) : State :=
  let s := s.modLane l fun x =>
    { x with grid := { x.grid with fresh := false, linkLost := true },
             share := (let h := x.share; { h with flags := h.flags ||| 4 }) }
  if activeLane s = some l then endAllSessions 8 s else s

/-- GRID_STATUS_STALE. -/
def execGridStatusStale (l : Lane) (s : State) : Host.Outcome State Fault Refusal := .next (gridStatusStaleEffect l s)

end Sys2Proof.Machine
end

