-- ==== Sys2Proof/Machine/Waypoint.lean ====
section
/-! DEFINITION. Waypoint in a lane (R178-R191, R413): reassessment, the move sequence, takeover of modules, the theta trend, and
the relief and testing of tiles. -/

namespace Sys2Proof.Machine

/-- A module loop by number. -/
def moduleLoop (j : Nat) : Option LoopId := if h : j < 96 then some (.module ⟨j, h⟩) else none

/-- Change the loop of module j by an operation. -/
def onModuleLoop (f : LoopId → LaneState → LaneState) (j : Nat) (x : LaneState) : LaneState :=
  match moduleLoop j with
  | some i => f i x
  | none => x

/-! ## Reassessment (R179, R180) -/

/-- Power placement runs: RUN or DEGRADED with object 3300:01 set. -/
def placing (s : State) : Bool := servesSessions s && cfgB s 0x3300 1

/-- Capacity of a list of modules at bay i's voltage, W. -/
def capOf (s : State) (x : LaneState) (i : Nat) (js : List Nat) : Int :=
  wattsAt ((sumNat (js.map fun j => modN s j 3) * 10 : Nat) : Int) (bayVolt s x.share i)

/-- K_i. -/
def bayCap (s : State) (x : LaneState) (i : Nat) : Int := capOf s x i (heldMods x i)

/-- Bay i is short. -/
def bayShort (s : State) (x : LaneState) (i : Nat) : Bool :=
  let h := nth x.share.need i
  let n := (heldMods x i).length
  (decide (bayCap s x i < h) && decide (n < bayN s i 0x17)) || (decide (0 < h) && decide (n < bayN s i 0x16))

/-- The bay's capacity without module j covers its need. -/
def spares (s : State) (x : LaneState) (i j : Nat) : Bool :=
  decide (nth x.share.need i ≤ capOf s x i ((heldMods x i).filter fun k => k != j))

/-- Every serving module's run of reassessments in which its bay could spare it. -/
def donorRuns (s : State) (x : LaneState) : LaneState :=
  x.modWp fun w => { w with mods := w.mods.mapIdx fun j (m : Module) =>
    if m.st = .serving ∧ m.bay ≠ 0 then
      { m with donorRun := if spares s x (m.bay - 1) j then m.donorRun + 1 else 0 }
    else { m with donorRun := 0 } }

/-- The cabinet of module j has a move in progress. -/
def cabMoving (s : State) (x : LaneState) (j : Nat) : Bool :=
  match modCab s j with
  | some c => (cabModules s c).any fun k => (x.mod k).st == .moving
  | none => true

/-- Module j may be taken from its bay. -/
def mayLeave (s : State) (x : LaneState) (j : Nat) : Bool :=
  let m := x.mod j
  let d := m.bay - 1
  m.st == .serving && m.bay != 0 && decide (cfgN s 0x3300 3 ≤ m.donorRun) && spares s x d j
    && (decide (bayN s d 0x16 < (heldMods x d).length) || nth x.share.need d == 0)

/-- Module j is a candidate for bay i. -/
def candidateFor (s : State) (x : LaneState) (i j : Nat) : Bool :=
  let m := x.mod j
  (reachOf s j).testBit i && !(cabMoving s x j)
    && ((m.st == .free && moduleUsable s x j) || (mayLeave s x j && m.bay != i + 1))

/-- First of the candidates: free before donor-held, lowest number. -/
def pickModule (s : State) (x : LaneState) (i : Nat) : Option Nat :=
  let cand := (List.range 96).filter (candidateFor s x i)
  match cand.find? fun j => (x.mod j).st == .free with
  | some j => some j
  | none => cand.head?

/-- Bay i goes before bay k: below its minimum, then the larger shortfall, then the lower number. -/
def shortBefore (s : State) (x : LaneState) (i k : Nat) : Bool :=
  let below := fun b => decide ((heldMods x b).length < bayN s b 0x16)
  let gap := fun b => nth x.share.need b - bayCap s x b
  if below i != below k then below i
  else if gap i ≠ gap k then decide (gap k < gap i)
  else decide (i < k)

/-- The short bay that is served next. -/
def pickBay (s : State) (x : LaneState) (bays : List Nat) : Option Nat :=
  bays.foldl (fun b i =>
    match b with
    | none => some i
    | some k => if shortBefore s x i k then some i else some k) none

/-- The procedure of R180 with fuel: lane, bays left, moves started, bays short-unserved. -/
def placeMoves (s : State) : Nat → LaneState → List Nat → Nat → List Nat → LaneState × List Nat
  | 0, x, _, _, un => (x, un)
  | n + 1, x, bays, started, un =>
    let short := bays.filter (bayShort s x)
    if started = cfgN s 0x3300 2 then (x, un)
    else
      match pickBay s x short with
      | none => (x, un)
      | some i =>
        match pickModule s x i with
        | none => placeMoves s n x (bays.filter fun b => b != i) started (un ++ [i])
        | some j => placeMoves s n (x.modMod j (startMove s.clk.period (i + 1) .free)) bays (started + 1) un

/-- Withdrawals and retirements that are due: steps 1 to 4 (R184, R185). -/
def withdrawals (s : State) (x : LaneState) : LaneState :=
  (List.range 96).foldl (fun x j =>
    let m := x.mod j
    if m.st = .moving then x
    else if m.retireDue ∧ m.st ≠ .retired then
      x.modMod j fun m => { startMove s.clk.period 0 .retired m with retireDue := false }
    else if m.st = .serving ∧ moduleUsable s x j = false ∧ cabUp s x j then
      x.modMod j (startMove s.clk.period 0 .withdrawn)
    else x) x

/-- A reassessment in lane x. -/
def reassessLane (s : State) (x : LaneState) : LaneState :=
  let x := withdrawals s (donorRuns s x)
  let r := placeMoves s 48 x ((List.range 24).filter (bayUsed s)) 0 []
  r.1.modWp fun w => { w with short := BitVec.ofNat 32 (sumNat (r.2.map fun i => 2 ^ i)) }

/-- A reassessment runs at its boundary while placement runs. -/
def reassessmentEffect (l : Lane) (s : State) : State :=
  if computing s l && placing s && s.clk.period % placeLen s == 0 then s.modLane l (reassessLane s) else s

/-- REASSESSMENT. -/
def execReassessment (l : Lane) (s : State) : Host.Outcome State Fault Refusal := .next (reassessmentEffect l s)

/-! ## The steps of a move (R181-R183, R187) -/

/-- The module reports its switch at bay p (0 open) and still. -/
def atPos (s : State) (x : LaneState) (j p : Nat) : Bool :=
  match moduleStatus s x j with
  | some w => modPos w == p && !modMoving w
  | none => false

/-- The module reports FLT. -/
def reportsFlt (s : State) (x : LaneState) (j : Nat) : Bool :=
  match moduleStatus s x j with
  | some w => fltBit w
  | none => false

/-- Module output voltage within object 3300:07 of the bay-head voltage. -/
def voltsAgree (s : State) (x : LaneState) (j bay : Nat) : Bool :=
  match moduleMeas s x j 1, headMeas s x (bay - 1) 1 with
  | some a, some b => decide ((a - b).natAbs * 1000 ≤ b.natAbs * cfgN s 0x3300 7)
  | _, _ => false

/-- The condition that step 4 or 6 holds in this period. -/
def stepHolds (s : State) (x : LaneState) (j : Nat) (m : Module) : Bool :=
  if m.step = 4 then atPos s x j 0 && below5 (moduleMeas s x j 0)
  else if m.step = 6 then atPos s x j m.target && voltsAgree s x j m.target
  else false

/-- Dwell of step 4 or 6 in periods. -/
def dwellPeriods (s : State) (step : Nat) : Nat := msPeriods s (cfgN s 0x3300 (if step = 4 then 4 else 5))

/-- Step 4 or 6 has completed (R182). -/
def dwellDone (s : State) (m : Module) : Bool := decide (m.step = 4 ∨ m.step = 6) && decide (dwellPeriods s m.step ≤ m.dwell)

/-- The dwell and FLT marks at the end of a period; a step that has completed stays so. -/
def moveTick (s : State) (x : LaneState) : LaneState :=
  x.modWp fun w => { w with mods := w.mods.mapIdx fun j (m : Module) =>
    if m.st = .moving then
      let n := if dwellDone s m then m.dwell else if stepHolds s x j m then m.dwell + 1 else 0
      { m with dwell := n, flt := m.flt || reportsFlt s x j }
    else m }

/-- After step 4: WITHDRAWN with FLT, the state of a withdrawal, FREE where the target has no need or no move may go on, else
step 5. -/
def afterOpen (s : State) (x : LaneState) (j : Nat) : LaneState :=
  let m := x.mod j
  if m.flt && m.after != .retired then x.modMod j (settle .withdrawn)
  else if m.target = 0 then x.modMod j (settle m.after)
  else if nth x.share.need (m.target - 1) ≤ 0 || !(placing s) then x.modMod j (settle .free)
  else x.modMod j fun m => { m with step := 5, tgt := m.target, en := 0, dwell := 0 }

/-- FLT in steps 5 to 7: back to step 3, to end WITHDRAWN; the move is abandoned. -/
def fltBack (j : Nat) (x : LaneState) : LaneState :=
  (abandon j (x.modMod j (reopenSwitch .withdrawn))).event (eventReq .moveAbandoned j [j + 1])

/-- A move stopped at the end of step 6 by the mode: SERVING with EN = 0 and its loop OFF. -/
def holdServing (m : Module) : Module :=
  { m with st := .serving, bay := m.target, target := 0, step := 0, en := 0, dwell := 0, resume := true,
           held := true }

/-- The next step of module j's move, where its exit condition holds. -/
def moveAdvanceLane (s : State) (j : Nat) (x : LaneState) : LaneState :=
  let m := x.mod j
  if m.st ≠ .moving then x
  else
    match m.step with
    | 1 =>
      if m.startW + applyDelay s ≤ s.clk.period then
        onModuleLoop disableLoop j (x.modMod j fun m => { m with step := 2 })
      else x
    | 2 =>
      if (nth x.modLoops j).st = .off then x.modMod j fun m => { m with step := 3, tgt := 0, en := 0, dwell := 0 } else x
    | 3 => if atPos s x j 0 then x.modMod j fun m => { m with step := 4, dwell := 0 } else x
    | 4 => if dwellPeriods s 4 ≤ m.dwell then afterOpen s x j else x
    | 5 =>
      if m.flt || reportsFlt s x j then fltBack j x
      else if atPos s x j m.target then x.modMod j fun m => { m with step := 6, dwell := 0 }
      else x
    | 6 =>
      if m.flt || reportsFlt s x j then fltBack j x
      else if dwellPeriods s 6 ≤ m.dwell ∧ servesSessions s = false then x.modMod j holdServing
      else x
    | _ => x

/-- MOVE_STEP_ADVANCE. -/
def execMoveStepAdvance (l : Lane) (j : Fin 96) (s : State) : Host.Outcome State Fault Refusal :=
  let m := (s.lane l).mod j
  let s1 := s.modLane l (moveAdvanceLane s j)
  .next (if m.st = .moving ∧ m.step = 1 ∧ ((s1.lane l).mod j).step = 2 then captureAbort (.module j) s1 else s1)

/-- A step's limit: step 2 faults the loop, step 3 retires the module, step 5 goes back to step 3, steps 4 and 6 start their
dwell again. -/
def moveTimeoutLane (s : State) (j : Nat) (x : LaneState) : LaneState :=
  let m := x.mod j
  if m.st ≠ .moving then x
  else
    match m.step with
    | 2 =>
      let p := nth x.modLoops j
      if p.st = .stop ∧ p.nextSt ≠ some .off then onModuleLoop (fun i => enterFault s i 3) j x else x
    | 3 => retireBySwitch s j (abandon j x)
    | 5 => (abandon j (x.modMod j (reopenSwitch .free))).event (eventReq .moveAbandoned j [j + 1])
    | _ => if dwellDone s m || stepHolds s x j m then x else x.modMod j fun m => { m with dwell := 0 }

/-- MOVE_STEP_TIMEOUT. -/
def execMoveStepTimeout (l : Lane) (j : Fin 96) (s : State) : Host.Outcome State Fault Refusal :=
  .next (recheckSpares (s.modLane l (moveTimeoutLane s j)))

/-- Periods that must have passed since w before step 7 (R182). -/
def moveFloor (s : State) : Nat := if s.clk.long then 1200 else 2400

/-- The counts of a completed move. -/
def countMove (s : State) (j : Nat) (completes : Bool) (x : LaneState) : LaneState :=
  if !completes then x
  else
    x.modWp fun w =>
      { w with completed := w.completed + 1
               cabMoves := match modCab s j with
                 | some c => upd w.cabMoves c (· + 1)
                 | none => w.cabMoves }

/-- Step 7: EN set, the bay rebound, the loop started, MLIM restored; the module is SERVING. A move it completes is counted. -/
def rampUp (s : State) (j bay : Nat) (completes : Bool) (x : LaneState) : LaneState :=
  let x := x.modMod j fun m =>
    { m with st := .serving, bay := bay, target := 0, step := 0, en := 1, tgt := bay, dwell := 0, resume := false,
             held := false, moves := if completes then m.moves + 1 else m.moves }
  let x := onModuleLoop enableLoop j x
  let mlim := mlimOf s x j
  countMove s j completes (x.modMod j fun m => { m with mlim := mlim })

/-- Step 7 of a move at a share-cycle boundary, or the return of a serving module to RUN or DEGRADED (R182, R187). -/
def moveRampUpLane (s : State) (j : Nat) (x : LaneState) : LaneState :=
  let m := x.mod j
  if !(atShare s && servesSessions s) then x
  else if m.st = .moving ∧ m.step = 6 ∧ dwellPeriods s 6 ≤ m.dwell ∧ m.startW + moveFloor s ≤ s.clk.period ∧ m.flt = false then
    rampUp s j m.target true x
  else if m.st = .serving ∧ m.resume then
    let w := moduleLast s x j
    if cabUp s x j && modPos w == m.bay && !modMoving w then rampUp s j m.bay m.held x else x.modMod j (openSwitch .free)
  else x

/-- MOVE_RAMP_UP. -/
def execMoveRampUp (l : Lane) (j : Fin 96) (s : State) : Host.Outcome State Fault Refusal :=
  .next (s.modLane l (moveRampUpLane s j))

/-! ## Taking modules into account (R413) -/

/-- State a module taken afresh settles in. -/
def takeState (s : State) (j : Nat) (m : Module) : ModSt :=
  if m.after = .free ∨ m.after = .spare then m.after else freshState s j

/-- A module is taken at the first share-cycle boundary with its cabinet link UP. -/
def moduleTakeoverLane (s : State) (j : Nat) (x : LaneState) : LaneState :=
  let m := x.mod j
  if !(m.afresh && atShare s && cabUp s x j) || (modCab s j).isNone || m.st == .retired then x
  else
    let st := takeState s j m
    let pos := modPos (moduleLast s x j)
    if pos = 0 then
      x.modMod j fun m => { settle (if moduleUsable s x j then st else .withdrawn) m with afresh := false, after := st }
    else if commMode s then x.modMod j fun m => { settle .withdrawn m with afresh := true, after := m.after }
    else x.modMod j fun m => { openSwitch st m with afresh := false }

/-- MODULE_TAKEOVER. -/
def execModuleTakeover (l : Lane) (j : Fin 96) (s : State) : Host.Outcome State Fault Refusal :=
  .next (s.modLane l (moduleTakeoverLane s j))

/-- States of Table 9.1 that follow the readings at a share-cycle boundary. -/
def modReview (s : State) (x : LaneState) (j : Nat) (m : Module) : Module :=
  if (modCab s j).isNone then { settle .notConfigured m with afresh := m.afresh }
  else if m.afresh then (if m.st = .notConfigured then { m with st := .withdrawn } else m)
  else if m.st = .free ∧ moduleUsable s x j = false then { m with st := .withdrawn, after := .free }
  else if m.st = .spare ∧ moduleUsable s x j = false then { m with st := .withdrawn, after := .spare }
  else if m.st = .withdrawn ∧ moduleUsable s x j ∧ modPos (moduleLast s x j) = 0 then
    { m with st := if m.after = .spare then .spare else .free }
  else m

/-- Waypoint's work at cycle 0: EN falls outside RUN and DEGRADED, MLIM is published at share-cycle boundaries. -/
def wpPeriod (s : State) (x : LaneState) : LaneState :=
  let x :=
    if servesSessions s then x
    else x.modWp fun w => { w with mods := w.mods.map fun (m : Module) =>
      { m with en := 0, resume := m.resume || m.st == .serving } }
  if atShare s then publishMlim s (x.modWp fun w => { w with mods := w.mods.mapIdx (modReview s x) }) else x

/-! ## The theta trend (R184) -/

/-- Baseline in use, mK/W: the configured one, else the mean of the first ten counted windows; 0 before that. -/
def thetaBase (s : State) (j : Nat) (m : Module) : Nat :=
  if modN s j 7 ≠ 0 then modN s j 7 else if m.learnN < 10 then 0 else m.learnSum / 10

/-- A 60 s window closes. -/
def thetaClose (s : State) (j : Nat) (m : Module) : Module :=
  if m.thetaN < 1000 then { m with thetaSum := 0, thetaN := 0 }
  else
    let mean := m.thetaSum / m.thetaN
    let m := { m with thetaSum := 0, thetaN := 0, thetaMean := mean }
    let base := thetaBase s j m
    let m := if m.learnN < 10 then { m with learnSum := m.learnSum + mean, learnN := m.learnN + 1 } else m
    if base = 0 then m
    else if base * (1000 + cfgN s 0x3300 8) < mean * 1000 then { m with thetaOver := m.thetaOver + 1 }
    else { m with thetaOver := 0 }

/-- The window closes in lane x; a full run of windows above the limit retires the module with cause 1. -/
def thetaWindowLane (s : State) (j : Nat) (x : LaneState) : LaneState :=
  let x := x.modMod j (thetaClose s j)
  let m := x.mod j
  if cfgN s 0x3300 9 ≤ m.thetaOver ∧ m.thetaOver ≠ 0 ∧ m.retireCause = 0 then
    (retireDecision s j 1 x).modMod j fun m => { m with retireDue := true }
  else x

/-- THETA_WINDOW_CLOSE. -/
def execThetaWindowClose (l : Lane) (j : Fin 96) (s : State) : Host.Outcome State Fault Refusal :=
  .next (recheckSpares (s.modLane l (thetaWindowLane s j)))

/-! ## Tiles (R189-R191) -/

/-- The spare tile. -/
def spareTileNo (x : LaneState) : Option Nat := findPos (fun y => y.role == .spare) x.tiles

/-- x with tile t changed. -/
def LaneState.modTile (t : Nat) (f : Tile → Tile) (x : LaneState) : LaneState := { x with tiles := upd x.tiles t f }

/-- Every loop placed in tile t with its slot. -/
def loopsOn (y : Tile) : List (LoopId × Nat) :=
  (List.range 16).filterMap fun k => (nth y.slots k).map fun i => (i, k)

/-- Loops placed in tile t are named as in tile u. -/
def movePlaces (t u : Nat) (x : LaneState) : LaneState :=
  (loopsOn (nth x.tiles t)).foldl (fun x p => x.modLoop p.1 fun q => { q with place := some (u, p.2) }) x

/-- Tile u takes over tile t's slots, state blocks, reels and role. -/
def copyTile (t u : Nat) (x : LaneState) : LaneState :=
  let y := nth x.tiles t
  x.modTile u fun z =>
    { z with slots := y.slots, blocks := y.blocks, instrBanks := y.instrBanks, constBanks := y.constBanks, bank := y.bank }

/-- Tile t leaves service for its test. -/
def toTest (y : Tile) : Tile :=
  { y with role := .underTest, slots := List.replicate 16 none, running := none, fault := false, relieved := false }

/-- State blocks with an uncorrectable error are cleared and their loops marked for START. -/
def clearBad (t : Nat) (x : LaneState) : LaneState :=
  (List.range 16).foldl (fun x k =>
    let y := nth x.tiles t
    if (nth y.blocks k).bad then
      let x := x.modTile t fun z => { z with blocks := put z.blocks k StateBlock.zero }
      match nth y.slots k with
      | some i => if (x.loop i).st = .off ∨ (x.loop i).st = .fault then x else restartLoop i x
      | none => x
    else x) x

/-- Loop i from a lost tile with its block: a free slot of a fast tile, or unplaced; a block with an uncorrectable error is cleared and
the loop restarts (R110). -/
def replaceLoop (s : State) (i : LoopId) (b : StateBlock) (x : LaneState) : LaneState :=
  let x := placeLoop s i (x.modLoop i fun p => { p with place := none })
  match (x.loop i).place with
  | none => x
  | some (t, k) =>
    let x := if b.bad ∧ (x.loop i).st ≠ .off ∧ (x.loop i).st ≠ .fault then restartLoop i x else x
    let b := if b.bad then StateBlock.zero else b
    x.modTile t fun z =>
      let n := if z.bank then 1 else 0
      { z with blocks := put z.blocks k b
               instrBanks := upd z.instrBanks n fun q => put q k (loopIns s i)
               constBanks := upd z.constBanks n fun q => put q k (loopConsts s i) }

/-- Order of placement of displaced loops: bays, strings, modules, in number order. -/
def placeRank : LoopId → Nat
  | .bay n => n
  | .string i => 100 + i
  | .module j => 200 + j
  | .slow j => 400 + j

/-- Loops with their blocks, in the order of placement. -/
def displaced (y : Tile) : List (LoopId × StateBlock) :=
  ((loopsOn y).map fun p => (p.1, nth y.blocks p.2)).mergeSort fun a b => decide (placeRank a.1 ≤ placeRank b.1)

/-- The highest-numbered fast tile other than t. -/
def lastFast (x : LaneState) (t : Nat) : Option Nat :=
  ((List.range 10).filter fun u => (nth x.tiles u).role == .fast && u != t).getLast?

/-- Tile t is lost with no spare: the slow role moves to the highest-numbered fast tile, the displaced loops to free slots of
the fast tiles (R191). -/
def loseTile (s : State) (t : Nat) (x : LaneState) : LaneState :=
  let y := nth x.tiles t
  if y.role = .slow then
    match lastFast x t with
    | none => x.modTile t toTest
    | some u =>
      let out := displaced (nth x.tiles u)
      let x := (copyTile t u (movePlaces t u x)).modTile u fun z => { z with role := .slow }
      out.foldl (fun x p => replaceLoop s p.1 p.2 x) (x.modTile t toTest)
  else
    let out := displaced y
    out.foldl (fun x p => replaceLoop s p.1 p.2 x) (x.modTile t toTest)

/-- The period after a fault: the tile runs no slot and the spare is loaded; without a spare the tile is lost. -/
def tileReliefLane (s : State) (t : Nat) (x : LaneState) : LaneState :=
  if (nth x.tiles t).fault = false ∨ x.wp.relieving.isSome then x
  else
    match spareTileNo x with
    | none => loseTile s t x
    | some u =>
      let x := clearBad u (copyTile t u x)
      let x := x.modTile t fun y => { y with relieved := true, running := none }
      x.modWp fun w => { w with relieving := some t }

/-- TILE_RELIEF. -/
def execTileRelief (l : Lane) (t : Fin 10) (s : State) : Host.Outcome State Fault Refusal :=
  .next (recheckSpares (captureGuard s (s.modLane l (tileReliefLane s t))))

/-- f+2: the loaded spare runs in the relieved tile's role, and that tile goes under test. -/
def spareTakeoverLane (x : LaneState) : LaneState :=
  match x.wp.relieving, spareTileNo x with
  | some t, some u =>
    let role := (nth x.tiles t).role
    let x := (movePlaces t u x).modTile u fun z => { z with role := role }
    let x := x.modTile t toTest
    x.modWp fun w => { w with relieving := none, reliefs := w.reliefs + 1 }
  | _, _ => x

/-- SPARE_TILE_TAKEOVER. -/
def execSpareTileTakeover (l : Lane) (s : State) : Host.Outcome State Fault Refusal :=
  .next (recheckSpares (captureGuard s (s.modLane l spareTakeoverLane)))

/-- A scheduled test: the spare relieves a working tile at a share-cycle boundary without a gap (R190). -/
def rotatingTestLane (t : Nat) (x : LaneState) : LaneState :=
  let y := nth x.tiles t
  if (y.role ≠ .fast ∧ y.role ≠ .slow) ∨ y.fault ∨ x.wp.relieving.isSome then x
  else
    match spareTileNo x with
    | none => x
    | some u =>
      let x := (copyTile t u (movePlaces t u x)).modTile u fun z => { z with role := y.role }
      let x := x.modTile t toTest
      let x := { x with ctl := (let c := x.ctl; { c with testing := some t }), health := (let h := x.health; { h with testing := true }) }
      x.modWp fun w => { w with reliefs := w.reliefs + 1 }

/-- ROTATING_TILE_TEST. -/
def execRotatingTileTest (l : Lane) (t : Fin 10) (s : State) : Host.Outcome State Fault Refusal :=
  .next (if computing s l && atShare s then recheckSpares (captureGuard s (s.modLane l (rotatingTestLane t))) else s)

/-- A test ends: the tile becomes the spare or is retired (R29, R189, R190). -/
def tileTestLane (t : Nat) (pass : Bool) (x : LaneState) : LaneState :=
  if (nth x.tiles t).role ≠ .underTest then x
  else
    let x := x.modTile t fun y =>
      { Tile.reset t with role := if pass then .spare else .retired, corrected := y.corrected }
    let x := { x with
      ctl := (let c := x.ctl
              { c with testing := none, testsPassed := if pass then c.testsPassed + 1 else c.testsPassed
                       testsFailed := if pass then c.testsFailed else c.testsFailed + 1 })
      health := (let h := x.health; { h with testing := false, testFail := h.testFail || !pass }) }
    if pass then x else x.event (eventReq .tileRetired t [t])

/-- TILE_TEST_COMPLETE. -/
def execTileTestComplete (l : Lane) (t : Fin 10) (pass : Bool) (s : State) : Host.Outcome State Fault Refusal :=
  .next (recheckSpares (s.modLane l (tileTestLane t pass)))

end Sys2Proof.Machine
end

