-- ==== Sys2Proof/Machine/ModeOps.lean ====
section
/-! DEFINITION. Shared operations on the major mode: entry with the slow loops enabled (Table 7.2), the completion of transitions
(Table 3.3), and the work of the SAFE sequence at cycle 0 of a period (R60, R61, R141). -/

namespace Sys2Proof.Machine

/-- Every slow loop with a reel is enabled in lane x. -/
def slowEnable (s : State) (x : LaneState) : LaneState :=
  (List.finRange 15).foldl (fun (x : LaneState) (j : Fin 15) =>
    if loopUsed s (.slow j) ∧ (x.loop (.slow j)).st = .off then enableLoop (.slow j) x else x) x

/-- The device enters mode m and enables its slow loops. -/
def goMode (m : Mode) (s : State) : State :=
  let s := enterMode m s
  if m = .boot ∨ m = .backup then s else bothLanes (slowEnable s) s

/-- Between RUN and DEGRADED: a transition that has been taken goes on (Table 3.3). -/
def shiftMode (m : Mode) (s : State) : State :=
  let p := s.modes.pending
  let s := goMode m s
  { s with modes := (let k := s.modes; { k with pending := p }) }

/-- Every bay, module and string loop of lane x is OFF or in FAULT. -/
def loopsAtRest (x : LaneState) : Bool :=
  (x.bayLoops ++ x.modLoops ++ x.strLoops).all fun p => p.st == .off || p.st == .fault

/-- A transition that has been taken completes: a ramp to zero with the loops at rest, and any transition at its period at the
latest. RUN completes as DEGRADED where only one lane is left. -/
def modeCompletion (s : State) : State :=
  match s.modes.pending with
  | none => s
  | some (m, p) =>
    let ramping := m == .idle && powerMode s
    if p ≤ s.clk.period ∨ (ramping ∧ loopsAtRest s.act) then
      goMode (if m = .run ∧ laneCount s < 2 then .degraded else m) s
    else s

/-! ## The SAFE sequence -/

/-- |P0| / T normalised by R122: the step of a SAFE ramp (R141). -/
def safeStep (p0 : PortVal) (t : Nat) : PortVal :=
  let a := p0.m.natAbs * 2 ^ 40
  let v : Int := (2 * (a / t) + (if a % t = 0 then 0 else 1) : Nat)
  let c := (normOne (v, p0.e - 41) p0.inv).1
  { m := c.m.toInt, e := c.e.toInt - 19, inv := c.inv }

/-- A bay or string loop in START, RUN or STOP enters RAMP (R141). -/
def toRamp (t : Nat) (p : Loop) : Loop :=
  if p.nextSt = some .fault then p
  else if p.st = .start ∨ p.st = .run ∨ p.st = .stop then
    { p with st := .ramp, nextSt := none, rampStep := safeStep p.lastP0 t }
  else p

/-- The loops of lane x begin the SAFE ramp over t periods. -/
def rampLane (t : Nat) (x : LaneState) : LaneState :=
  { x with bayLoops := x.bayLoops.map (toRamp t), strLoops := x.strLoops.map (toRamp t) }

/-- The boundary after a SAFE cause: loops enter RAMP, sessions end with cause 7, slow loops go on (R60, R319). -/
def safeBoundary (s : State) : State :=
  match s.modes.safe with
  | none => s
  | some q =>
    if q.k + 1 = s.clk.period then
      let s := bothLanes (rampLane (max 1 q.t)) s
      bothLanes (slowEnable s) (endAllSessions 7 s)
    else s

/-- The last latch of the SAFE ramp: its words leave at the end of the ramp. -/
def safeLastLatch (s : State) : Bool :=
  match s.modes.safe with
  | some q => q.k + q.t == s.clk.period
  | none => false

/-! ## Sessions at cycle 0 (R313, R317) -/

/-- VLIM of a link, 0.1 V. -/
def vlimOf (s : State) (n : Nat) (v : Session) : Nat :=
  if v.st = .precharge then v.inForce.targetVoltage.toNat
  else if v.st = .charging then
    match bayOfVehicle s n with
    | some i => min v.inForce.maxVoltage.toNat (min (bayN s i 7 * 10) ((nth s.act.share.offerV i).toNat * 10))
    | none => 0
  else 0

/-- The bay of link n is stopped by a thermal level. -/
def bayHot (s : State) (n : Nat) : Bool :=
  match bayOfVehicle s n with
  | some i => let c := nth s.act.th.bays i; (c.flags.getLsbD 2 || c.flags.getLsbD 4) && c.i2 == 0
  | none => false

/-- The current of link n's bay has been VALID and below 5 A for 4 periods. -/
def bayQuiet (s : State) (n : Nat) : Bool :=
  match bayOfVehicle s n with
  | some i => decide (4 ≤ (nth s.act.bayLoops i).offRun)
  | none => true

/-- Output of a link's pilot generator: F out of service, outside COMMISSION, RUN and DEGRADED and in FAULT_WAIT, X2 once started
while ATTACHED to STOPPING, X1 otherwise; mode 0 drives it low and mode 3 leaves it high-impedance (R303, R307). -/
def pilotOut (s : State) (n : Nat) (v : Session) : PilotOut :=
  let m := cfgN s (0x3710 + n) 1
  let avail := match bayOfVehicle s n with
    | some i => bayN s i 0xC != 0
    | none => false
  if s.modes.mode = .boot ∨ s.modes.mode = .backup ∨ m = 3 then .hiZ
  else if m ≠ 1 ∧ m ≠ 2 then .low
  else if !avail ∨ powerMode s = false ∨ v.st = .faultWait then .f
  else if v.out = .x2 ∧ 1 ≤ v.st.code ∧ v.st.code ≤ 8 then .x2
  else .x1

/-- The metrology section serves a new session (R218). -/
def meterServes (s : State) : Bool := s.act.grid.ready && !s.act.grid.linkLost

/-- A new session may begin at link n: the mode serves sessions and is not being left, its bay is available, the section meters. -/
def mayBegin (s : State) (n : Nat) : Bool :=
  servesSessions s && s.modes.pending.isNone && meterServes s &&
    match bayOfVehicle s n with
    | some i => bayN s i 0xC != 0
    | none => false

/-- Pilot at B and the connector plugged, modes 1 and 2 (Table 15.4). -/
def attachOk (s : State) (n : Nat) (v : Session) : Bool :=
  let m := cfgN s (0x3710 + n) 1
  (m == 1 || m == 2) && v.st == .idle && v.pilot == 1 && v.plugged && mayBegin s n

/-- ATTACHED: LOCK := 1; the SLAC timer in mode 2, the setup timer otherwise (Table 15.6). -/
def attach (s : State) (n : Nat) (v : Session) : Session :=
  let m := cfgN s (0x3710 + n) 1
  { v with st := .attached, lock := true, timers := { Timers.none with slac := m == 2, setup := m != 2 } }

/-- A link at cycle 0: a session begins where it may, decoded values come into force, VLIM follows, CONT falls at the end of the current. -/
def sessPeriod (s : State) (n : Nat) (v : Session) : Session :=
  let v := if attachOk s n v then attach s n v else v
  let v := { v with inForce := v.values, out := pilotOut s n v }
  let v := { v with vlim := BitVec.ofNat 16 (vlimOf s n v), thermalHold := v.st == .charging && bayHot s n }
  if (v.st = .stopping ∨ v.st = .faultWait ∨ v.st = .ended) ∧ v.cont ∧ bayQuiet s n then { v with cont := false } else v

/-- Every link at cycle 0. -/
def sessionsPeriod (s : State) : State :=
  { s with veh := (let v := s.veh; { v with links := v.links.mapIdx (sessPeriod s) }) }

end Sys2Proof.Machine
end

