-- ==== Sys2Proof/Machine/Queues.lean ====
section
/-! DEFINITION. The hardware queues (R25-R29) and writes to the fast store (R10, R301). -/

namespace Sys2Proof.Machine

/-! ## Queues -/

/-- x with queue q changed. -/
def LaneState.modQueue (q : Nat) (f : HwQueue → HwQueue) (x : LaneState) : LaneState :=
  { x with queues := upd x.queues q f }

/-- The role queue q serves, if any. -/
def roleServed (x : LaneState) (q : Nat) : Option Nat := findPos (· == q) (x.roleMap.take 124)

/-- Role q receives from an external link: site bus, vehicle links, Ethernet, PLC, service port (Table 1.8). -/
def externalReceive (q : Nat) : Bool :=
  decide (q < 24 ∧ q % 6 < 2) || decide (24 ≤ q ∧ q < 72 ∧ q % 2 = 0) || decide (72 ≤ q ∧ q < 88 ∧ (q - 72) % 8 < 4)
    || q == 88 || q == 92

/-- An entry enters with one credit taken. -/
def HwQueue.enqueue (e : U64) (k : HwQueue) : HwQueue := { k with entries := k.entries ++ [e], credit := k.credit - 1 }

/-- The oldest entry leaves and its credit returns. -/
def HwQueue.dequeue (k : HwQueue) : HwQueue :=
  match k.entries with
  | [] => k
  | _ :: es => { k with entries := es, credit := k.credit + 1 }

/-- A drop in a receive role is counted in the queue, and of a site-bus channel in its link statistics. -/
def countDrop (l : Lane) (r : Nat) (s : State) : State :=
  if activeLane s = some l ∧ r < 24 then
    { s with chans := upd s.chans (r / 6) fun (c : Channel) => { c with dropped := c.dropped + 1 } }
  else s

/-- QUEUE_ENQUEUE: a producer with credit enqueues; without, a receive queue drops the frame and an internal producer retries in
the next period (R25, R27). -/
def queueEnqueueEffect (l : Lane) (q : Nat) (e : U64) (s : State) : State :=
  let k := nth (s.lane l).queues q
  if k.retired then s
  else if 0 < k.credit then s.modLane l (LaneState.modQueue q (HwQueue.enqueue e))
  else
    match roleServed (s.lane l) q with
    | some r =>
      if externalReceive r then countDrop l r (s.modLane l (LaneState.modQueue q fun k => { k with drops := k.drops + 1 })) else s
    | none => s

/-- QUEUE_ENQUEUE. -/
def execQueueEnqueue (l : Lane) (q : Fin 128) (entry : U64) (s : State) : Host.Outcome State Fault Refusal :=
  .next (queueEnqueueEffect l q entry s)

/-- QUEUE_DEQUEUE: the consumer takes the oldest entry; the credit returns within the period (R25, R26). -/
def execQueueDequeue (l : Lane) (q : Fin 128) (s : State) : Host.Outcome State Fault Refusal :=
  .next (s.modLane l (LaneState.modQueue q HwQueue.dequeue))

/-- A reset queue of depth d: Q = 0, C = D, what it held discarded and counted (R28). -/
def HwQueue.reset (d : Nat) (k : HwQueue) : HwQueue :=
  { k with entries := [], credit := d, discarded := k.discarded + BitVec.ofNat 32 k.entries.length }

/-- The lowest spare queue of lane x in no service. -/
def spareQueue (x : LaneState) : Option Nat :=
  [124, 125, 126, 127].find? fun q => !(nth x.queues q).retired && !((x.roleMap.take 124).contains q)

/-- Queue q, failed twice within 1,000 periods, retires and its role moves to a spare (R29); the events it held as queue 98 are discarded
and counted with its entries (R28). -/
def queueRetireLane (q : Nat) (x : LaneState) : LaneState :=
  match roleServed x q, spareQueue x with
  | some r, some p =>
    let held := if r = 98 then min 256 x.evq.length else 0
    let x := x.modQueue q fun k =>
      let h := HwQueue.reset (queueDepth q) k
      { h with retired := true, fails := [], discarded := h.discarded + BitVec.ofNat 32 held }
    { x with roleMap := put x.roleMap r p, evq := x.evq.drop held }
  | _, _ => x

/-- The frames a retired queue of a site-bus role of the active lane held are discarded and counted (R28). -/
def dropRole (l : Lane) (q : Nat) (s : State) : State :=
  match roleServed (s.lane l) q with
  | some r =>
    if activeLane s = some l ∧ r < 24 then
      { s with chans := upd s.chans (r / 6) fun (c : Channel) =>
          if r % 6 < 2 then { c with rx := put c.rx (r % 6) [], dropped := c.dropped + BitVec.ofNat 32 (nth c.rx (r % 6)).length }
          else { c with tx := put c.tx (r % 6 - 2) [], dropped := c.dropped + BitVec.ofNat 32 (nth c.tx (r % 6 - 2)).length } }
    else s
  | none => s

/-- QUEUE_RETIRE at a share-cycle boundary. -/
def queueRetireEffect (l : Lane) (q : Nat) (s : State) : State :=
  let k := nth (s.lane l).queues q
  let recent := (k.fails.filter fun p => decide (s.clk.period < p + 1000)).length
  if atShare s && !k.retired && decide (2 ≤ recent) then
    recheckSpares ((if (spareQueue (s.lane l)).isSome then dropRole l q s else s).modLane l (queueRetireLane q))
  else s

/-- QUEUE_RETIRE. -/
def execQueueRetire (l : Lane) (q : Fin 128) (s : State) : Host.Outcome State Fault Refusal :=
  .next (queueRetireEffect l q s)

/-! ## The fast store -/

/-- Number of a region in the key of its rows. -/
def regionNum : FsRegion → Nat
  | .configSets => 0
  | .counters => 1
  | .eventFlush .a => 2
  | .eventFlush .b => 3
  | .keySlots .a => 4
  | .keySlots .b => 5

/-- The port of lane l may write the region (R10). -/
def mayWrite (s : State) (l : Lane) : FsRegion → Bool
  | .configSets => s.jct.mark == some l
  | .counters => s.jct.mark == some l
  | .eventFlush o => o == l
  | .keySlots o => o == l

/-- s with the fast store changed. -/
def modFs (f : FastStore → FastStore) (s : State) : State := { s with fs := f s.fs }

/-- A write that failed for want of a redundant row leaves the set its row holds damaged; the spec gives no layout of the rows, so which
set that is is a free value (log 46). -/
def damageSet (r : FsRegion) (row : Nat) (s : State) : State :=
  match r with
  | .configSets =>
    { s with sets := (let k := s.sets
                      if Config.rowOfActiveSet row then { k with activeOk := false } else { k with shadowOk := false }) }
  | _ => s

/-- FAST_STORE_WRITE: accepted by port and region, verified, a failing row replaced by a redundant one (R10, R301). -/
def fastStoreWriteEffect (l : Lane) (r : FsRegion) (row : Nat) (data : List Byte) (fails : Bool) (s : State) : State :=
  if !(mayWrite s l r) then
    evtLane l (eventReq .fastStoreError 127 [regionNum r, row]) (modFs (fun f => { f with result := 1 }) s)
  else if fails ∧ s.fs.rows = 0 then recheckSpares (damageSet r row (modFs (fun f => { f with result := 2 }) s))
  else
    let store := fun (f : FastStore) =>
      { f with cells := Store.set f.cells (regionNum r + 8 * row) data [], result := 0,
               rows := if fails then f.rows - 1 else f.rows }
    recheckSpares (modFs store s)

/-- FAST_STORE_WRITE. -/
def execFastStoreWrite (l : Lane) (region : FsRegion) (row : Nat) (data : List Byte) (rowFails : Bool) (s : State) :
    Host.Outcome State Fault Refusal :=
  .next (fastStoreWriteEffect l region row data rowFails s)

end Sys2Proof.Machine
end

