-- ==== Sys2Proof/Machine/ResetOps.lean ====
section
/-! DEFINITION. Shared operations of resets: what a lane reset and a device reset leave (R44, R69, R70, Table 3.8), and the loss of a
lane as the Junction commands it (R277). -/

namespace Sys2Proof.Machine

/-! ## Reset causes (Table 3.8) -/

/-- Cause bit n of object 2020:01 is latched. -/
def latchCause (n : Nat) (s : State) : State :=
  { s with bk := (let b := s.bk; { b with resetLatches := b.resetLatches ||| BitVec.ofNat 16 (2 ^ n), lastReset := BitVec.ofNat 8 n }) }

/-! ## A lane -/

/-- A tile after a lane reset: a retired tile stays retired, the others keep their roles (R29). -/
def Tile.afterReset (t : Nat) (y : Tile) : Tile :=
  { Tile.reset t with role := if y.role = .underTest then .spare else y.role, corrected := y.corrected }

/-- A link after a lane reset: its receiver sits in the ring and keeps its synchronisation; its counters count since the device reset. -/
def Link.afterReset (k : Link) : Link :=
  { Link.reset with
    synced := k.synced, cValid := k.cValid, cMissing := k.cMissing, cLate := k.cLate, cCrc := k.cCrc, cType := k.cType
    cSeq := k.cSeq, cOffset := k.cOffset, failures := k.failures }

/-- A recorder after a reset: the volatile ring is lost, what was flushed and the numbering are kept (R379, R382). -/
def Recorder.afterReset (r : Recorder) : Recorder := { r with ring := [], sinceFlush := 0 }

/-- The slot directory across a restart (R402). -/
def SlotDir.afterReset (d : SlotDir) : SlotDir := { d with cleanSince := 0 }

/-- Lane x after a reset of that lane alone. -/
def LaneState.afterReset (x : LaneState) : LaneState :=
  { LaneState.reset with
    ctl := { LaneState.reset.ctl with
      testsPassed := x.ctl.testsPassed, testsFailed := x.ctl.testsFailed, marchPos := x.ctl.marchPos
      marchPasses := x.ctl.marchPasses, failedRx := x.ctl.failedRx, rxDemotions := x.ctl.rxDemotions
      satPeriods := x.ctl.satPeriods, loopFaults := x.ctl.loopFaults, railHeld := x.ctl.railHeld }
    temp := { DieTemp.reset with reported := x.temp.reported }
    links := x.links.map Link.afterReset
    tiles := x.tiles.mapIdx Tile.afterReset
    queues := x.queues.mapIdx fun q k => HwQueue.reset (queueDepth q) k
    roleMap := x.roleMap
    recd := x.recd.afterReset
    ks := x.ks.afterReset false
    slots := x.slots.afterReset }

/-- Lane x after a device reset: the ring and its receivers are reset too. -/
def LaneState.deviceReset (x : LaneState) : LaneState :=
  { LaneState.reset with
    ctl := { LaneState.reset.ctl with railHeld := x.ctl.railHeld }
    queues := x.queues.mapIdx fun q k => { HwQueue.empty (queueDepth q) with discarded := BitVec.ofNat 32 k.entries.length }
    recd := x.recd.afterReset
    ks := x.ks.afterReset true
    slots := x.slots.afterReset }

/-- Lane l restarts at boot step 2 (R70). -/
def resetLane (l : Lane) (s : State) : State := s.modLane l LaneState.afterReset

/-! ## Roles -/

/-- Lane l takes role r. -/
def setRole (l : Lane) (r : Role) (s : State) : State :=
  { s with jct := s.jct.modLane l fun (j : JLane) =>
      { j with role := r, join := none, captured := false, joined := false, joinMatches := 0
               reported := if r = .booting then false else j.reported
               beats := if r = .booting then false else j.beats } }

/-- ns since the release of reset. -/
def nowNs (s : State) : Nat := s.clk.ns

/-- An hour in ns. -/
def hourNs : Nat := 3600000000000

/-- The times of the last 3,600 s. -/
def lastHour (s : State) (l : List Nat) : List Nat := l.filter fun t => decide (nowNs s < t + hourNs)

/-- The Junction fails lane l with verdict code c: it is reset with JCT_LANE and becomes FAILED, EXCLUDED at the third reset
within 3,600 s; after code 4 it is held for 60 s (R277). -/
def junctionFail (l : Lane) (code : Nat) (s : State) : State :=
  let times := nowNs s :: lastHour s (s.jct.lane l).resetTimes
  let s := latchCause 10 (resetLane l s)
  let s := setRole l (if 3 ≤ times.length then .excluded else .failed) s
  { s with jct := s.jct.modLane l fun (j : JLane) =>
      { j with resets := j.resets + 1, resetTimes := times, matches_ := 0, held := code == 4, aborted := 0, devRun := 0
               reported := false, beats := false } }

/-- The standby lane is lost in RUN: DEGRADED (R277). -/
def afterStandbyLoss (s : State) : State := if s.modes.mode = .run ∧ standbyLane s = none then shiftMode .degraded s else s

/-! ## The device -/

/-- Site time in ns of an RTC value. -/
def rtcNs (t : U64) : Nat := t.toNat * 1000000000 / 2 ^ 15

/-- The Junction reset: no lane steered, SAFE_N low; temperatures keep their last reading. -/
def Junction.restart (j : Junction) : Junction := { Junction.reset with temp := j.temp, metTemp := j.metTemp }

/-- Configuration sets across a device reset: what the fast store holds stays; the commit checks and the swap in progress end (R84).
The generations stay (DESIGN CHOICE, log 51). -/
def Sets.afterReset (k : Sets) : Sets :=
  { k with st := if k.st = .swapPending then .committed else k.st
           unpublished := [], checking := false, swapReq := false, swapAt := none, swapTries := 0
           expected := 0, result := 0, failing := 0, nDiscarded := 0, reelCode := 0, reelPos := 0 }

/-- The storage manager across a device reset: counters since reset start again. -/
def Nand.afterReset (n : Nand) : Nand := { n with corrected := 0, answer := none }

/-- Buffers still receiving are dropped. -/
def Staging.afterReset (b : Staging) : Staging := if b.receiving then default else b

/-- Service port and activation across a device reset: a sequence is recorded in the fast store (R404). -/
def Update.afterReset (u : Update) : Update :=
  { u with buf0 := u.buf0.afterReset, buf1 := u.buf1.afterReset, answer := none, hostConfirm := false, seqReq := false }

/-- The device resets (R44): both lanes, the Junction, the shared ring and the fast-store controller; not the metrology section and
not the backup domain. It holds itself in reset until RESET_RELEASE. -/
def deviceReset (s : State) : State :=
  { s with
    clk := State.reset.clk
    modes := State.reset.modes
    rails := (let r := s.rails; { r with inReset := true, short := 0 })
    bk := (let b := s.bk; { b with resetCount := b.resetCount + 1, lastResetTime := b.rtc })
    jct := s.jct.restart
    laneA := s.laneA.deviceReset
    laneB := s.laneB.deviceReset
    sets := s.sets.afterReset
    comm := State.reset.comm
    veh := State.reset.veh
    chans := State.reset.chans
    site := { State.reset.site with ns := rtcNs s.bk.rtc }
    tri := State.reset.tri
    life := (let v := s.life; { v with result := 0, statement := [], csr := [] })
    fs := (let f := s.fs; { f with result := 0 })
    nand := s.nand.afterReset
    upd := s.upd.afterReset
    recs := State.reset.recs
    taps := [] }

/-- The device resets with a cause. -/
def resetWith (cause : Nat) (s : State) : State := deviceReset (latchCause cause s)

/-- A reset that ends SAFE latches SAFE_EXIT. -/
def safeExit (s : State) : State := if s.modes.mode = .safe then latchCause 12 s else s

end Sys2Proof.Machine
end

