-- ==== Sys2Proof/Machine/SiteSource.lean ====
section
/-! DEFINITION. Site time (R332, R333): its sources in the order of Table 16.4, steps and steering, and the PTP slave clock of
Ethernet port 0. -/

namespace Sys2Proof.Machine

/-- s with site time changed. -/
def modSite (f : SiteTime → SiteTime) (s : State) : State := { s with site := f s.site }

/-- The device is neither starting nor in BACKUP. -/
def awake (s : State) : Bool := s.modes.mode != .boot && s.modes.mode != .backup

/-- The first source of Table 16.4 that qualifies. -/
def timeSource (s : State) : U8 :=
  if s.site.locked then 1
  else if s.site.holdover then 2
  else if cfgB s 0x3230 1 && decide (0 < s.site.chanC) then 3
  else if s.bk.invalid then 0
  else 4

/-- Order of the sources: 1 highest, none lowest. -/
def sourceRank (c : U8) : Nat := if c = 0 then 5 else c.toNat

/-- Site time as a source gives it, where the source shows a time: PTP, a reference's TIME v, the RTC. -/
def sourceTime (s : State) (v : Option Nat) (c : U8) : Option Nat :=
  if c = 1 then some s.site.ptpNs else if c = 3 then v else if c = 4 then some (rtcNs s.bk.rtc) else none

/-- The source is chosen again: a higher one is taken with a step, a lower one runs on from the present value (R332). -/
def reselect (v : Option Nat) (s : State) : State :=
  let c := timeSource s
  if c = s.site.source then s
  else
    let up := decide (sourceRank c < sourceRank s.site.source)
    let t := if up then (sourceTime s v c).getD s.site.ns else s.site.ns
    modSite (fun (k : SiteTime) => { k with source := c, ns := t, steer := if up then 0 else k.steer }) (stampEvents s)

/-- Site time is d ns behind its source: a step beyond 100 us, else steering (R332). -/
def steerBy (d : Int) (k : SiteTime) : SiteTime :=
  if 100000 < d.natAbs then { k with ns := ((k.ns : Int) + d).toNat, steer := 0 } else { k with steer := d }

/-! ## PTP (R333) -/

/-- A Sync of PTP time t (as site time, ns) with the measured offset: 16 in a row within 1 us lock the clock; a locked clock is
steered by its offset. -/
def ptpSyncEffect (t : Nat) (o : Int) (s : State) : State :=
  if !(awake s) then s
  else
    let n := if o.natAbs ≤ 1000 then s.site.good + 1 else 0
    let lock := s.site.locked || decide (16 ≤ n)
    let s := modSite (fun (k : SiteTime) =>
      { k with good := n, ptpNs := t, offset := clampInt (-2147483648) 2147483647 o, locked := lock
               holdover := k.holdover && !lock }) s
    if s.site.source = 1 then modSite (steerBy (-o)) (stampEvents s) else reselect none s

/-- PTP_SYNC_RECEIVED. -/
def execPtpSyncReceived (time : U64) (offsetNs : Int) (s : State) : Host.Outcome State Fault Refusal :=
  .next (ptpSyncEffect time.toNat offsetNs s)

/-- Lexicographic order of the ranks the best master clock algorithm compares. -/
def rankBefore : List Nat → List Nat → Bool
  | [], [] => false
  | [], _ :: _ => true
  | _ :: _, [] => false
  | a :: as, b :: bs => decide (a < b) || (a == b && rankBefore as bs)

/-- The best of the masters heard. -/
def bestMaster : List (U64 × List Nat) → Option (U64 × List Nat)
  | [] => none
  | m :: ms =>
    match bestMaster ms with
    | some b => some (if rankBefore b.2 m.2 then b else m)
    | none => some m

/-- An Announce: the master is noted and the selection made again. -/
def ptpAnnounceEffect (id : U64) (rank : List Nat) (s : State) : State :=
  if !(awake s) then s
  else
    let ms := (id, rank) :: s.site.masters.filter fun m => m.1 != id
    modSite (fun (k : SiteTime) => { k with masters := ms, gm := ((bestMaster ms).map Prod.fst).getD k.gm }) s

/-- PTP_ANNOUNCE_RECEIVED. -/
def execPtpAnnounceReceived (identity : U64) (rank : List Nat) (s : State) : Host.Outcome State Fault Refusal :=
  .next (ptpAnnounceEffect identity rank s)

/-- PTP_DELAY_RESP: the path delay, which the active lane mirrors to the standby lane. -/
def execPtpDelayResp (delayNs : U32) (s : State) : Host.Outcome State Fault Refusal :=
  .next (if awake s then modSite (fun (k : SiteTime) => { k with delay := delayNs }) s else s)

/-- Lock is lost: holdover on REFCLK where its limit is above 0, else the next source. -/
def ptpLockLostEffect (s : State) : State :=
  if s.site.locked then
    reselect none (modSite (fun (k : SiteTime) =>
      { k with locked := false, good := 0, steer := 0, holdover := decide (0 < cfgN s 0x3800 7) }) s)
  else s

/-- PTP_LOCK_LOST. -/
def execPtpLockLost (s : State) : Host.Outcome State Fault Refusal := .next (ptpLockLostEffect s)

/-- Holdover has lasted object 3800:07 seconds. -/
def ptpHoldoverExpiryEffect (s : State) : State :=
  if s.site.holdover then reselect none (modSite (fun (k : SiteTime) => { k with holdover := false }) s) else s

/-- PTP_HOLDOVER_EXPIRY. -/
def execPtpHoldoverExpiry (s : State) : Host.Outcome State Fault Refusal := .next (ptpHoldoverExpiryEffect s)

end Sys2Proof.Machine
end

