-- ==== Sys2Proof/Machine/Links.lean ====
section
/-! DEFINITION. Spur links: what an up-frame holds (R94), its checks (R97-R99), delays (R101), the link states (R104, R411) and the
reactions to a failed link (R105). -/

namespace Sys2Proof.Machine

/-! ## Fields of an up-frame (Table 5.3) -/

/-- TYPE. -/
def upType (f : RxFrame) : Nat := field f.bytes 0 1 / 16
/-- VER. -/
def upVer (f : RxFrame) : Nat := field f.bytes 0 1 % 16
/-- COUNT. -/
def upCount (f : RxFrame) : Nat := field f.bytes 1 1
/-- SERIAL. -/
def upSerial (f : RxFrame) : U32 := BitVec.ofNat 32 (field f.bytes 2 4)
/-- SEQ. -/
def upSeq (f : RxFrame) : U16 := BitVec.ofNat 16 (field f.bytes 6 2)
/-- OFFSET. -/
def upOffset (f : RxFrame) : U16 := BitVec.ofNat 16 (field f.bytes 8 2)
/-- TURN, 2 ns. -/
def upTurn (f : RxFrame) : Nat := field f.bytes 10 2

/-- Number of words W by type and count (Table 5.5). -/
def upWords (type count : Nat) : Nat :=
  if type = 1 then (if count = 0 then 1 else 2 + 4 * count) else if type = 2 then 5 + count else 4 + count

/-- Largest COUNT of a type. -/
def maxCount (type : Nat) : Nat := if type = 1 then 4 else if type = 2 then 16 else 8

/-- The bytes the CRC covers. -/
def upBody (f : RxFrame) : List Byte := f.bytes.take (f.bytes.length - 4)

/-- The last four bytes. -/
def upCrc (f : RxFrame) : Nat := field f.bytes (f.bytes.length - 4) 4

/-- No code error, length and COUNT as the type asks, CRC correct (R93, R94). -/
def crcCorrect (f : RxFrame) : Bool :=
  let t := upType f
  let shape :=
    if 1 ≤ t ∧ t ≤ 3 then
      decide (2 ≤ f.bytes.length ∧ upCount f ≤ maxCount t ∧ f.bytes.length = 16 + 3 * upWords t (upCount f))
    else decide (16 ≤ f.bytes.length)
  !f.codeErr && shape && (crc32 (upBody f)).toNat == upCrc f

/-- The words of a frame. -/
def frameWords (f : RxFrame) : List (BitVec 24) :=
  (List.range ((f.bytes.length - 16) / 3)).map fun i => BitVec.ofNat 24 (field f.bytes (12 + 3 * i) 3)

/-! ## Checks (Table 5.8) -/

/-- The serial paired with link n: of the used bay, or of the string, that names it (R99). -/
def pairedSerial (s : State) (n : Nat) : Nat :=
  if linkType s n = 2 then
    match bayOfLink s n with
    | some i => bayN s i 6
    | none => 0
  else
    match strOfLink s n with
    | some i => strN s i 2
    | none => 0

/-- Bay heads and strings are paired. -/
def pairedType (s : State) (n : Nat) : Bool := linkType s n == 2 || linkType s n == 3

/-- TYPE and VER are as configured. -/
def typeOk (s : State) (n : Nat) (f : RxFrame) : Bool := upType f == linkType s n && upVer f == 1

/-- Status code of a frame of link n with expected SEQ e: the first check that fails (Tables 1.2, 5.8). -/
def frameStatus (s : State) (n : Nat) (e : U16) (f : RxFrame) : BitVec 3 :=
  if !(crcCorrect f) then 2
  else if !(typeOk s n f) then 5
  else if pairedType s n && (pairedSerial s n == 0 || (upSerial f).toNat != pairedSerial s n) then 4
  else if upSeq f ≠ e then 3
  else 0

/-! ## Delay (R101, R102) -/

/-- Half round trips of the last 64 periods. -/
def delayRuns (k : Link) : List Int := k.delays.filterMap id

/-- d as sum and number of the half round trips of the last 64 periods, as many as there are (DESIGN CHOICE, log 41): the last d where
no frame came in any of them. -/
def delayMean (k : Link) : Int × Nat :=
  let l := delayRuns k
  if l.isEmpty then (k.d.toNat, 1) else (sumInt l, l.length)

/-- d in ns, rounded to nearest. -/
def delayNs (k : Link) : Int := let m := delayMean k; roundDiv m.1 m.2

/-- The half round trip of one period differs from d by more than 20 ns: d is the average ahead of that sample (DESIGN CHOICE, log 41). -/
def delayFar (k : Link) (h : Int) : Bool :=
  let m := delayMean k
  !(delayRuns k).isEmpty && decide (20 * (m.2 : Int) < (h * m.2 - m.1).natAbs)

/-- The half round trip of the running period's frame enters the average. -/
def takeDelay (f : RxFrame) (k : Link) : Link :=
  let h : Int := (f.sofAt : Int) - upTurn f
  let run := if delayFar k h then k.delayRun + 1 else 0
  let k := { k with delays := some h :: k.delays.drop 1, delayRun := run }
  { k with d := BitVec.ofInt 16 (clampInt 0 65535 (delayNs k)) }

/-- SDELAY in units of 2 ns (R101). -/
def sdelay (s : State) (k : Link) : Nat :=
  let m := delayMean k
  (roundDiv ((periodNs s - 2 * s.clk.lam : Int) * m.2 - m.1) (2 * m.2)).toNat

/-- ADELAY in units of 2 ns. -/
def adelay (s : State) (k : Link) : Nat :=
  let m := delayMean k
  (roundDiv (2 * s.clk.advance * m.2 - m.1) (2 * m.2)).toNat

/-! ## State changes (R104) -/

/-- Link n of lane x goes to state st, with an event. -/
def linkTo (n : Nat) (st : LinkSt) (x : LaneState) : LaneState :=
  (x.modLink n fun k => { k with st := st }).event (eventReq .linkState n [n, st.code])

/-- Link n enters ACQUIRE; seen tells whether a CRC-correct frame of the running period took it there. -/
def toAcquire (n : Nat) (seen : Bool) (x : LaneState) : LaneState :=
  linkTo n .acquire (x.modLink n fun k => { k with acq := true, acqCount := 0, acqSeen := seen, acqDone := false, hold := none })

/-- A frame ahead of its window's cycle 0 waits in the holding buffer; one frame only (R97). -/
def holdFrame (f : RxFrame) (k : Link) : Link := if k.hold.isSome then k else { k with hold := some f }

/-- Run of SEQ values that advance by 1 but differ from the expected one (R98). -/
def seqTrack (f : RxFrame) (k : Link) : Link :=
  if !(crcCorrect f) then { k with seqRun := 0 }
  else if upSeq f = k.expSeq then { k with seqRun := 0, seqLast := upSeq f }
  else if k.seqRun ≠ 0 ∧ upSeq f = k.seqLast + 1 then { k with seqRun := k.seqRun + 1, seqLast := upSeq f }
  else { k with seqRun := 1, seqLast := upSeq f }

/-- The bank slot of a frame with its status. -/
def slotFrom (st : BitVec 3) (f : RxFrame) : FrameSlot :=
  { status := st, words := frameWords f, count := upCount f, serial := upSerial f, seq := upSeq f, offset := upOffset f,
    filled := true }

/-- A frame of an UP link is written into the bank of the running period (R97). -/
def storeFrame (s : State) (n : Nat) (f : RxFrame) (x : LaneState) : LaneState :=
  let k := x.link n
  if (slotOf s x n).filled then x
  else
    let st := frameStatus s n k.expSeq f
    let x := modCurBank s (fun b => put b n (slotFrom st f)) x
    x.modLink n fun k =>
      let k := seqTrack f k
      let k := if crcCorrect f then { k with serial := upSerial f } else k
      if crcCorrect f && typeOk s n f then takeDelay f k else { k with delayRun := 0 }

/-! ## Failures (R104, R105, R411) -/

/-- ns in 60 s. -/
def minuteNs : Nat := 60000000000

/-- The failure is counted with its cause; true where it is the third within 60 s. -/
def countFailure (s : State) (cause : U8) (k : Link) : Link × Bool :=
  let times := s.clk.ns :: k.failTimes.filter fun t => decide (s.clk.ns < t + minuteNs)
  let third := decide (3 ≤ times.length)
  ({ k with failTimes := times, failures := k.failures + 1, cause := if third then 5 else cause }, third)

/-- A cabinet's modules at its failure (Tables 5.11, 9.4). -/
def cabinetLost (s : State) (c : Nat) (x : LaneState) : LaneState :=
  (cabModules s c).foldl (fun x j =>
    let m := x.mod j
    if m.st = .retired ∨ m.st = .notConfigured then x
    else
      let after : ModSt := if m.st = .spare then .spare else if m.st = .moving ∧ m.after = .retired then .retired else .free
      let x :=
        if m.st = .moving then (abandon j x).event (eventReq .moveAbandoned j [j + 1]) else x
      let x := onModuleLoop loopOff j x
      if after = .retired then x.modMod j (settle .retired)
      else x.modMod j fun m => { settle .withdrawn m with afresh := true, after := after, resume := false }) x

/-- The loop of a bay whose head failed enters OFF; its override ramp goes on (Tables 5.11, 7.5). -/
def headLost (i : Nat) (x : LaneState) : LaneState := if h : i < 24 then loopOff (.bay ⟨i, h⟩) x else x

/-- A string at the failure of its link (Tables 5.11, R164). -/
def converterLost (s : State) (i : Nat) (x : LaneState) : LaneState :=
  let x := if h : i < 8 then loopOff (.string ⟨i, h⟩) x else x
  let share := stringLost s.clk.period i x.share
  { x with share := { share with strs := upd share.strs i fun (y : StrState) => { y with run := false, cont := false } } }

/-- The words of the reaction leave at the next cycle 0: those of the link itself, and a bay head's override ramp (Table 5.11). -/
def reactWords (s : State) (n : Nat) (x : LaneState) : LaneState :=
  let x := x.modLink n fun k => { k with reacting := true, reactDue := true }
  match bayOfLink s n with
  | some i =>
    if h : i < 24 then
      if linkType s n = 2 then
        let r := bayRamp s x i
        x.modLoop (.bay ⟨i, h⟩) fun p => { p with override := r }
      else x
    else x
  | none => x

/-- The reaction of Table 5.11 in the lane, at the period boundary after the failure. -/
def reactLane (s : State) (n : Nat) (x : LaneState) : LaneState :=
  let x := x.modLink n fun k => { k with reactDue := false }
  let x :=
    match cabOfLink s n with
    | some c => if linkType s n = 1 then cabinetLost s c x else x
    | none => x
  let x :=
    match bayOfLink s n with
    | some i => if linkType s n = 2 then headLost i x else x
    | none => x
  match strOfLink s n with
  | some i => if linkType s n = 3 then converterLost s i x else x
  | none => x

/-- A bay head's failure ends the session, decided by the active lane (R319). -/
def reactSession (l : Lane) (n : Nat) (s : State) : State :=
  if activeLane s = some l ∧ linkType s n = 2 then
    match bayOfLink s n with
    | some i => endBaySession i 5 s
    | none => s
  else s

/-- An UP link of lane l fails with a cause: FAILED, or DOWN for SYNC; LATCHED at the third failure within 60 s. The reaction begins at
the next period boundary. -/
def failLink (l : Lane) (n : Nat) (cause : U8) (s : State) : State :=
  let x := s.lane l
  let r := countFailure s cause (x.link n)
  let k := { r.1 with latched := r.2, failedFor := 0, syncFailed := cause == 2 && !r.2, hold := none, badRun := 0,
                      delayRun := 0, seqRun := 0 }
  let x := x.modLink n fun _ => k
  let x := linkTo n (if cause = 2 ∧ r.2 = false then .down else .failed) x
  let x := x.event (eventReq .linkFailed n [n, k.cause.toNat])
  s.setLane l (reactWords s n x)

/-! ## Commands -/

/-- LINK_SYNC_ACQUIRED: DOWN goes to SYNC on a typed link (R93, R104). -/
def linkSyncLane (s : State) (n : Nat) (x : LaneState) : LaneState :=
  let x := x.modLink n fun k => { k with synced := true }
  if (x.link n).st = .down ∧ linkType s n ≠ 0 then
    linkTo n .sync (x.modLink n fun k => { k with acq := true, hold := none })
  else x

/-- LINK_SYNC_ACQUIRED. -/
def execLinkSyncAcquired (l : Lane) (link : Fin 64) (s : State) : Host.Outcome State Fault Refusal :=
  .next (s.modLane l (linkSyncLane s link))

/-- LINK_SYNC_LOST: a failure in UP, else DOWN at once; a latched link stays FAILED (R104, R411). -/
def linkSyncLostEffect (l : Lane) (n : Nat) (s : State) : State :=
  let s := s.modLane l fun x => x.modLink n fun k => { k with synced := false }
  let k := (s.lane l).link n
  match k.st with
  | .up => failLink l n 2 s
  | .failed => if k.latched then s else s.modLane l (linkTo n .down)
  | .down => s
  | _ => s.modLane l fun x => linkTo n .down (x.modLink n fun k => { k with acqDone := false, acqCount := 0, hold := none })

/-- LINK_SYNC_LOST. -/
def execLinkSyncLost (l : Lane) (link : Fin 64) (s : State) : Host.Outcome State Fault Refusal :=
  .next (linkSyncLostEffect l link s)

/-- Loops of the channel on link n. -/
def channelLoops (s : State) (n : Nat) : List LoopId :=
  match linkType s n with
  | 1 => (cabOfLink s n).elim [] fun c => (cabModules s c).filterMap moduleLoop
  | 2 => (bayOfLink s n).elim [] fun i => if h : i < 24 then [.bay ⟨i, h⟩] else []
  | 3 => (strOfLink s n).elim [] fun i => if h : i < 8 then [.string ⟨i, h⟩] else []
  | _ => []

/-- A link that is UP again is taken back at a share-cycle boundary: the reaction ends and its loops restart through soft start from any
state but OFF and FAULT (R105, R137). -/
def linkBack (s : State) (n : Nat) (x : LaneState) : LaneState :=
  let x := x.modLink n fun k => { k with reacting := false }
  (channelLoops s n).foldl (fun x i =>
    let st := (x.loop i).st
    if st = .off ∨ st = .fault then x else restartLoop i x) x

/-- The reactions that are due begin in lane x. -/
def reactDueLane (s : State) (x : LaneState) : LaneState :=
  (List.range 64).foldl (fun x n => if (x.link n).reactDue then reactLane s n x else x) x

/-- Links that are UP again are taken back at a share-cycle boundary. -/
def takeBackLane (s : State) (x : LaneState) : LaneState :=
  if atShare s then
    (List.range 64).foldl (fun x n => if (x.link n).st = .up ∧ (x.link n).reacting then linkBack s n x else x) x
  else x

/-- Reactions at a period boundary: in each lane for its own link states, and the sessions by the active lane (R100, R105). -/
def linkReactions (s : State) : State :=
  let t := bothLanes (fun x => takeBackLane s (reactDueLane s x)) s
  match activeLane s with
  | some l => (List.range 64).foldl (fun t n => if ((s.lane l).link n).reactDue then reactSession l n t else t) t
  | none => t

/-- LINK_UP: the first frame in its window after 64 periods takes the link to UP and sets its expected SEQ (R98, R104). -/
def linkUpLane (s : State) (n : Nat) (x : LaneState) : LaneState :=
  let k := x.link n
  match k.hold with
  | some f =>
    if k.st = .acquire ∧ k.acqDone then
      let x := x.modLink n fun k =>
        { k with expSeq := upSeq f, hold := none, acqDone := false, acqCount := 0, badRun := 0, seqRun := 0, syncFailed := false }
      storeFrame s n f (linkTo n .up x)
    else x
  | none => x

/-- A failure cause of Table 5.10 holds on an UP link; DNERR is read from any frame whose CRC and type are right. -/
def causeHolds (s : State) (x : LaneState) (n : Nat) : LinkCause → Bool
  | .noFrame => decide (4 ≤ (x.link n).badRun)
  | .delay =>
    let m := delayMean (x.link n)
    decide ((1000 * m.2 : Int) < m.1) || decide (16 ≤ (x.link n).delayRun)
  | .dnerr =>
    let f := slotOf s x n
    f.filled && f.status != 2 && f.status != 5 && decide (4 ≤ dnerr (nth f.words 0))

/-- Code of a failure cause. -/
def causeCode : LinkCause → U8
  | .noFrame => 1
  | .delay => 3
  | .dnerr => 4

/-- LINK_FAIL. -/
def linkFailEffect (l : Lane) (n : Nat) (c : LinkCause) (s : State) : State :=
  let x := s.lane l
  if (x.link n).st = .up ∧ causeHolds s x n c = true then failLink l n (causeCode c) s else s

/-- LINK_FAIL. -/
def execLinkFail (l : Lane) (link : Fin 64) (cause : LinkCause) (s : State) : Host.Outcome State Fault Refusal :=
  .next (linkFailEffect l link cause s)

/-- 4,000 periods after entry a synchronised link that is not latched returns to ACQUIRE. -/
def linkRetryLane (n : Nat) (x : LaneState) : LaneState :=
  let k := x.link n
  if k.st = .failed ∧ k.latched = false ∧ k.synced ∧ 4000 ≤ k.failedFor then
    toAcquire n false x
  else x

/-- LINK_FAIL_RETRY_EXPIRY. -/
def execLinkFailRetryExpiry (l : Lane) (link : Fin 64) (s : State) : Host.Outcome State Fault Refusal :=
  .next (s.modLane l (linkRetryLane link))

/-- After 40 periods of consistently offset SEQ the remote's count is adopted (R98). -/
def seqAdoptLane (n : Nat) (x : LaneState) : LaneState :=
  let k := x.link n
  if k.st = .up ∧ 40 ≤ k.seqRun then
    (x.modLink n fun k => { k with expSeq := k.seqLast, seqRun := 0 }).event (eventReq .seqAdopted n [n, k.seqLast.toNat])
  else x

/-- SEQ_ADOPT. -/
def execSeqAdopt (l : Lane) (link : Fin 64) (s : State) : Host.Outcome State Fault Refusal :=
  .next (s.modLane l (seqAdoptLane link))

/-! ## Reception (R97) -/

/-- Where a frame's EOF falls: in the running window, in the next one, or late. -/
inductive RxWindow where
  | now | next | late
  deriving DecidableEq, Repr

/-- Window of an EOF at a fabric cycle of the running period. -/
def rxWindow (s : State) (cycle : Nat) : RxWindow :=
  if cycle ≤ 900 then .now else if periodCycles s - 6250 ≤ cycle then .next else .late

/-- The frame is late, or another one of its window came first (R13, R97). -/
def isExtra (w : RxWindow) (k : Link) : Bool :=
  match w with
  | .now => k.got
  | .next => k.gotNext
  | .late => true

/-- A frame in window w is noted; a late or extra one is counted, whatever the state of the link. -/
def noteFrame (w : RxWindow) (k : Link) : Link :=
  let c := if isExtra w k then k.cLate + 1 else k.cLate
  match w with
  | .now => { k with got := true, cLate := c }
  | .next => { k with gotNext := true, cLate := c }
  | .late => { k with cLate := c }

/-- A frame arrives on link n of lane x. In the window that decides ACQUIRE, a frame that is not CRC-correct is ignored (DESIGN CHOICE,
log 42). -/
def receiveLane (s : State) (n : Nat) (f : RxFrame) (x : LaneState) : LaneState :=
  let k := x.link n
  if linkType s n = 0 ∨ k.synced = false then x
  else
    let w := rxWindow s f.eofCycle
    let x := x.modLink n (noteFrame w)
    match k.st with
    | .sync =>
      if crcCorrect f ∧ upType f = linkType s n then (toAcquire n true x).modLink n (takeDelay f) else x
    | .acquire =>
      if crcCorrect f = false then x
      else
        let x := if k.acqSeen then x else x.modLink n fun k => { takeDelay f k with acqSeen := true }
        if k.acqDone ∧ w = .now ∧ k.hold.isNone then x.modLink n (holdFrame f)
        else if w = .next ∧ k.acqCount = 63 ∧ k.hold.isNone then x.modLink n (holdFrame f)
        else x
    | .up =>
      if isExtra w k then x
      else
        match w with
        | .now => storeFrame s n f x
        | .next => x.modLink n (holdFrame f)
        | .late => x
    | _ => x

end Sys2Proof.Machine
end

