-- ==== Sys2Proof/Machine/SpurTx.lean ====
section
/-! DEFINITION. What the device sends on a spur link in a period (R24, R92, R95): period marker, down-frame, idle pairs. -/

namespace Sys2Proof.Machine

/-- A 24-bit word as sent. -/
def wordBytes (w : BitVec 24) : List Byte := leBytes 3 w.toNat

/-- Number of down words of link n (Table 5.5). -/
def downWords (s : State) (n : Nat) : Nat :=
  match linkType s n with
  | 1 => 1 + 2 * linkCount s n
  | 2 => 2
  | 3 => 4
  | _ => 0

/-- A control character of Table 5.2. -/
def ctlChar (b : Byte) : Bool × Byte := (true, b)
/-- /K28.1/, the period marker. -/
def charMarker : Bool × Byte := ctlChar 0x3C
/-- /K27.7/, start of frame. -/
def charSof : Bool × Byte := ctlChar 0xFB
/-- /K29.7/, end of frame. -/
def charEof : Bool × Byte := ctlChar 0xFD

/-- SDELAY and ADELAY of link n; free values with ACQ, where they are not valid (Table 5.4). -/
def downDelays (s : State) (n : Nat) (k : Link) (o : OutLink) : List Byte :=
  if o.hdr.getLsbD 15 then leBytes 2 (Config.freeNat (s.free + 2 * n)) ++ leBytes 2 (Config.freeNat (s.free + 2 * n + 1))
  else leBytes 2 (sdelay s k) ++ leBytes 2 (adelay s k)

/-- Header and words of a down-frame, as the CRC covers them (Table 5.4, R95). -/
def downBody (s : State) (n : Nat) (k : Link) (o : OutLink) : List Byte :=
  leBytes 2 o.hdr.toNat ++ leBytes 2 (s.clk.period % 65536) ++ downDelays s n k o ++ (o.words.take (downWords s n)).flatMap wordBytes

/-- Marker, SOF, header, words, CRC, EOF, back to back (R95). -/
def downFrame (s : State) (n : Nat) (k : Link) (o : OutLink) : List (Bool × Byte) :=
  let b := downBody s n k o
  [charMarker, charSof] ++ (b ++ leBytes 4 (crc32 b).toNat).map (fun c => (false, c)) ++ [charEof]

/-- The lane whose outputs leave on the links of Table 1.7. -/
def steeredLane (s : State) : Option Lane :=
  if s.modes.mode = .boot ∨ s.modes.mode = .backup ∨ s.jct.lost then none else s.jct.mux

/-- What leaves on link n at cycle 0: a frame on a typed link that is not DOWN, idle pairs elsewhere and where no lane drives. -/
def sentOn (s : State) (n : Nat) : List (Bool × Byte) :=
  match steeredLane s with
  | some l =>
    let k := (s.lane l).link n
    if linkType s n = 0 ∨ k.st = .down then [] else downFrame s n k (nth (s.lane l).latched n)
  | none => []

/-- The set-point write of Table 5.1. -/
def sendFrames (s : State) : State :=
  let t := s.useFree 128
  { t with clk := (let c := t.clk; { c with spurTx := (List.range 64).map (sentOn s) }) }

/-- No lane drives: idle pairs on every link, no period markers (R24). -/
def idleLinks (s : State) : State := { s with clk := (let c := s.clk; { c with spurTx := List.replicate 64 [] }) }

end Sys2Proof.Machine
end

