-- ==== Sys2Proof/Machine/Supplies.lean ====
section
/-! DEFINITION. Supplies, clocks, reset, power-fail and die temperature (chapters 2 and 14): what the rail monitors, the reset input, the
crystal detectors and the temperature sensors do. -/

namespace Sys2Proof.Machine

/-! ## Rails (R43, R44, Tables 2.8, 2.10, 2.18) -/

/-- Under-voltage latch bit of a rail in object 2040:06; the over-voltage bit follows it. -/
def railBit : Rail → Option Nat
  | .vcoreA => some 0
  | .vcoreB => some 2
  | .vcom => some 4
  | .vmemA => some 6
  | .vmemB => some 8
  | .vser => some 10
  | .vio => some 12
  | .vjct => some 14
  | .vmet => none
  | .vbk => none

/-- The lane a rail feeds alone. -/
def railLane : Rail → Option Lane
  | .vcoreA | .vmemA => some .a
  | .vcoreB | .vmemB => some .b
  | _ => none

/-- Rails whose fault holds both lanes and the ring in reset. -/
def ringRail (r : Rail) : Bool := r == .vcom || r == .vser || r == .vio

/-- Rails of groups 1 to 3. -/
def groupRails : List Rail := [.vcoreA, .vcoreB, .vcom, .vmemA, .vmemB, .vser, .vio]

/-- s with the rails out of range changed. -/
def modRails (f : Rails → Rails) (s : State) : State := { s with rails := f s.rails }

/-- s with the backup domain changed. -/
def modBk (f : Backup → Backup) (s : State) : State := { s with bk := f s.bk }

/-- s with the Junction changed. -/
def modJct (f : Junction → Junction) (s : State) : State := { s with jct := f s.jct }

/-- The Junction is lost: steering stays, SAFE_N floats, no verdict, a resynchronisation aborts uncounted (Table 2.10, R284). -/
def junctionLose (s : State) : State :=
  if s.jct.lost then modJct (fun j => { j with safeN := .hiZ }) s
  else
    let s := modJct (fun j =>
      let f := fun (k : JLane) => { k with join := none, captured := false, joined := false, joinMatches := 0, entry := none }
      { j with lost := true, ready := false, safeN := .hiZ, decision := none, laneA := f j.laneA, laneB := f j.laneB }) s
    let s := bothLanes (fun x => { x with health := (let h := x.health; { h with jctLost := true }) }) s
    evt (eventReq .junctionLost 127 []) s

/-- VCOM, VSER or VIO fails: SAFE cause 6, SAFE_N low, both lanes and the ring held in reset. SAFE_N is low also while VJCT is out of range,
where Table 2.10 has one row for each level (DESIGN CHOICE, log 48). -/
def ringFault (s : State) : State :=
  let s := takeSafe 6 s
  let s := modJct (fun j => { j with safeN := if s.modes.mode = .backup then j.safeN else .low, safeDue := none }) s
  let s := modRails (fun r => { r with ringHeld := true }) s
  let s := modJct (fun j => { j with mux := none, mark := none, decision := none, cross := none, planReq := false }) (idleLinks s)
  setRole .b .booting (setRole .a .booting (resetLane .b (resetLane .a s)))

/-- Lane l is held in reset by a fault of one of its rails. -/
def holdLane (l : Lane) (s : State) : State :=
  (resetLane l s).modLane l fun x => { x with ctl := (let c := x.ctl; { c with railHeld := true }) }

/-- The action of Table 2.10. -/
def railAction (r : Rail) (s : State) : State :=
  match railLane r with
  | some l => holdLane l s
  | none => if ringRail r then ringFault s else if r = .vjct then junctionLose s else s

/-- What a lane counts since POR starts again: the recorder's SEQ (R379) and the detours (R410). -/
def LaneState.porReset (x : LaneState) : LaneState :=
  { x with recd := (let r := x.recd; { r with nextSeq := 0, newest := none }), slots := (let d := x.slots; { d with detours := 0 }) }

/-- VBK and VIO both out of range: the backup domain is lost and POR sets (R53, R69). -/
def checkPor (s : State) : State :=
  if s.rails.out.contains .vbk && s.rails.out.contains .vio then bothLanes LaneState.porReset { s with bk := Backup.reset } else s

/-- VIO lost: the time from which the device is unpowered (R398). -/
def noteOff (r : Rail) (s : State) : State :=
  if r = .vio ∧ s.bk.offAt.isNone then modBk (fun k => { k with offAt := some k.rtc }) s else s

/-- RAIL_FAULT: latched, reported, acted on. VBK has a low flag and no over-voltage trip; VMET belongs to the metrology section. -/
def railFaultEffect (r : Rail) (ov : Bool) (s : State) : State :=
  if r = .vbk ∧ ov then s
  else
    let s := modRails (fun k => { k with out := if k.out.contains r then k.out else k.out ++ [r] }) s
    let s :=
      match railBit r with
      | some b =>
        let n := if ov then b + 1 else b
        let s := modBk (fun k => { k with railLatches := k.railLatches ||| BitVec.ofNat 16 (2 ^ n) }) s
        emcySend (evt (eventReq .railFault 127 [n]) (latchCause 4 s))
      | none => if r = .vbk then modBk (fun k => { k with vbkLow := true }) s else s
    checkPor (noteOff r (railAction r s))

/-- RAIL_FAULT. -/
def execRailFault (r : Rail) (overVoltage : Bool) (s : State) : Host.Outcome State Fault Refusal :=
  .next (railFaultEffect r overVoltage s)

/-- A lane whose rails are back restarts at boot step 2, unless the Junction holds it. -/
def restartLaneIfFree (l : Lane) (s : State) : State :=
  let mine := fun r => railLane r == some l
  if (s.lane l).ctl.railHeld && !(s.rails.out.any mine) then
    let s := s.modLane l fun x => { x with ctl := (let c := x.ctl; { c with railHeld := false }) }
    let j := s.jct.lane l
    if j.role = .failed ∧ j.held = false then setRole l .booting s else s
  else s

/-- A sequence of R404 or R406 that runs is aborted without revert (Table 20.7). -/
def abortSequence (s : State) : State :=
  if s.upd.st = .firstLane ∨ s.upd.st = .crossover ∨ s.upd.st = .secondLane ∨ s.upd.st = .fullRestart then
    { s with upd := (let u := s.upd; { u with st := .aborted, seqSource := none, seqLane := none }) }
  else s

/-- A device reset that is not a step of an update sequence. -/
def plainReset (cause : Nat) (s : State) : State := resetWith cause (abortSequence s)

/-- RAIL_RECOVERED: back in range for 1 ms; a lane restarts, or the device restarts through BOOT (R57). -/
def railRecoveredEffect (r : Rail) (s : State) : State :=
  if !(s.rails.out.contains r) then s
  else
    let s := modRails (fun k => { k with out := k.out.filter fun q => q != r }) s
    let s := if r = .vbk then modBk (fun k => { k with vbkLow := false }) s else s
    let s := restartLaneIfFree .b (restartLaneIfFree .a s)
    if s.rails.ringHeld && !(s.rails.out.any groupRails.contains) && s.modes.mode != .backup then
      modRails (fun k => { k with ringHeld := false }) (plainReset 4 (safeExit s))
    else s

/-- RAIL_RECOVERED. -/
def execRailRecovered (r : Rail) (s : State) : Host.Outcome State Fault Refusal := .next (railRecoveredEffect r s)

/-- RAIL_SHORT_EXCURSION: counted, without other effect; VBK has none. -/
def execRailShortExcursion (r : Rail) (s : State) : Host.Outcome State Fault Refusal :=
  .next (if r = .vbk then s else modRails (fun k => { k with short := k.short + 1 }) s)

/-- RESET_PIN: a low pulse of 10 us or more resets the device, except in BACKUP, where its rails are off. -/
def execResetPin (micros : Nat) (s : State) : Host.Outcome State Fault Refusal :=
  .next (if 10 ≤ micros ∧ s.modes.mode ≠ .backup then plainReset 6 (safeExit s) else s)

/-- Where every rail of groups 1 to 3 and VJCT is in range, a device held in reset begins its boot sequence. -/
def releaseReset (s : State) : State :=
  if s.rails.inReset && !(s.rails.out.any fun r => groupRails.contains r || r == .vjct) then
    let s := modRails (fun k => { k with inReset := false, ringHeld := false }) s
    { s with clk := (let c := s.clk; { c with ns := 0 }), modes := (let m := s.modes; { m with mode := .boot, releasedAt := s.bk.rtc }) }
  else s

/-- RESET_RELEASE, also after a wake from BACKUP. -/
def resetReleaseEffect (s : State) : State :=
  releaseReset (if s.modes.mode = .backup ∧ s.rails.inReset = false ∧ s.bk.pwrEn then deviceReset s else s)

/-- RESET_RELEASE. -/
def execResetRelease (s : State) : Host.Outcome State Fault Refusal := .next (resetReleaseEffect s)

/-- BACKUP_ENTRY: the rails of groups 1 to 3 are gone; only the backup domain runs (R57). -/
def backupEntryEffect (s : State) : State :=
  if s.modes.mode = .backup ∧ s.rails.inReset then s
  else
    let s := noteOff .vio (deviceReset (abortSequence s))
    let s := modRails (fun k => { k with out := (k.out.filter fun r => !(groupRails.contains r)) ++ groupRails, ringHeld := false }) s
    let s := modJct (fun j => { j with safeN := .hiZ }) s
    checkPor { s with modes := (let m := s.modes; { m with mode := .backup }) }

/-- BACKUP_ENTRY. -/
def execBackupEntry (s : State) : Host.Outcome State Fault Refusal := .next (backupEntryEffect s)

/-- RAIL_FAULT_LATCH_CLEAR: a write to 2040:06, accepted in SAFE too (R55). -/
def execRailFaultLatchClear (mask : U16) (s : State) : Host.Outcome State Fault Refusal :=
  .next (hostWrite (safeWritable s) (modBk fun k => { k with railLatches := k.railLatches &&& ~~~mask }) s)

/-! ## Crystals (R48, R289) -/

/-- JUNCTION_CRYSTAL_LOST: as for VJCT out of range. -/
def execJunctionCrystalLost (s : State) : Host.Outcome State Fault Refusal := .next (junctionLose s)

/-- BACKUP_CRYSTAL_LOST: the RTC is invalid. -/
def execBackupCrystalLost (s : State) : Host.Outcome State Fault Refusal :=
  .next (reselect none (modBk (fun k => { k with invalid := true }) s))

/-! ## Power-fail (R45, R292, R295) -/

/-- POWER_FAIL_WARNING: the timestamp and PFAIL are latched and the warning is signalled to the lanes and the metrology section. -/
def powerFailWarningEffect (s : State) : State :=
  if s.bk.pfActive then s
  else
    let s := modBk (fun k => { k with pfActive := true, pfTime := k.rtc, pfValid := !k.invalid, warnings := k.warnings + 1 }) s
    let s := evt (eventReq .powerFail 127 []) (latchCause 3 s)
    { s with met := (let m := s.met; { m with ctl := (let c := m.ctl; { c with pfPending := true }) }) }

/-- POWER_FAIL_WARNING. -/
def execPowerFailWarning (s : State) : Host.Outcome State Fault Refusal := .next (powerFailWarningEffect s)

/-- POWER_FAIL_END: PFI is back above its reference with every rail in range. -/
def powerFailEndEffect (s : State) : State :=
  if s.bk.pfActive && s.rails.out.isEmpty then
    let s := modBk (fun k => { k with pfActive := false }) s
    { s with met := (let m := s.met; { m with ctl := (let c := m.ctl; { c with pfPending := false, pfDone := false }) }) }
  else s

/-- POWER_FAIL_END. -/
def execPowerFailEnd (s : State) : Host.Outcome State Fault Refusal := .next (powerFailEndEffect s)

/-- POWER_FAIL_SAFE_EXIT: PFI above its reference for 100 ms in SAFE cause 4 resets the device. -/
def execPowerFailSafeExit (s : State) : Host.Outcome State Fault Refusal :=
  .next (if s.modes.mode = .safe ∧ s.modes.safeCause = 4 ∧ s.bk.pfActive = false then plainReset 3 (safeExit s) else s)

/-! ## Die temperature (R51-R53) -/

/-- Median of three readings. -/
def median3 (a b c : Int) : Int := max (min a b) (min (max a b) c)

/-- Median of the three sensors other than i. -/
def medianOthers (l : List Int) (i : Nat) : Int :=
  let o := l.eraseIdx i
  median3 (nth o 0) (nth o 1) (nth o 2)

/-- Sensor i differs from the median of the others by more than 10 degC. -/
def offMedian (l : List Int) (i : Nat) : Bool := decide (100 < (nth l i - medianOthers l i).natAbs)

/-- A run count: n + 1 where b, else 0. -/
def runOf (b : Bool) (n : Nat) : Nat := if b then n + 1 else 0

/-- A level: set after 2 readings at or above its set value, cleared after 10 below its clear value. -/
def levelOf (old : Bool) (setRun clearRun : Nat) : Bool := if old then decide (clearRun < 10) else decide (2 ≤ setRun)

/-- Highest reading among the valid sensors. -/
def hottest (l : List Int) (excluded : List Bool) : Option Int :=
  (List.range 4).foldl (fun (m : Option Int) i => if nth excluded i then m else match m with
    | some v => some (max v (nth l i))
    | none => some (nth l i)) none

/-- The reading of a lane's four sensors; free is the reported value where no sensor is valid. -/
def readTemp (l : List Int) (free : Int) (t : DieTemp) : DieTemp :=
  let runs := t.offRun.mapIdx fun i n => runOf (offMedian l i) n
  let ex := t.excluded.mapIdx fun i b => b || decide (100 ≤ nth runs i)
  let v := (hottest l ex).getD free
  let sr := [runOf (decide (1000 ≤ v)) (nth t.setRun 0), runOf (decide (1050 ≤ v)) (nth t.setRun 1), runOf (decide (1150 ≤ v)) (nth t.setRun 2)]
  let cr := [runOf (decide (v < 950)) (nth t.clearRun 0), runOf (decide (v < 1000)) (nth t.clearRun 1)]
  { reported := v, offRun := runs, excluded := ex, setRun := sr, clearRun := cr
    warn := levelOf t.warn (nth sr 0) (nth cr 0), throttle := levelOf t.throttle (nth sr 1) (nth cr 1)
    stop := t.stop || decide (2 ≤ nth sr 2), above110 := decide (1100 < v) }

/-- The events of a reading: warn set, 110 degC crossed upwards, a sensor excluded. A fall through 110 degC writes none (DESIGN CHOICE,
log 49). -/
def tempEvents (l : Nat) (old new : DieTemp) (x : LaneState) : LaneState :=
  let x := if new.warn && !old.warn then x.event (eventReq .dieWarn 127 [l]) else x
  let x := if new.above110 && !old.above110 then x.event (eventReq .dieAbove110 127 [l]) else x
  (List.range 4).foldl (fun (x : LaneState) i =>
    if nth new.excluded i && !(nth old.excluded i) then x.event (eventReq .sensorExcluded 127 [l, i]) else x) x

/-- STOP is latched until the device resets (R52, Table 2.17). -/
def latchStop (s : State) : State := { s with modes := (let m := s.modes; { m with dieStop := true }) }

/-- A lane's reading. -/
def tempLane (l : Lane) (t : List Int) (s : State) : State :=
  let old := (s.lane l).temp
  let new := readTemp t (Config.freeInt s.free) old
  let s := if new.excluded.all id then s.useFree 1 else s
  let s := if new.stop && !old.stop then latchStop (latchCause 11 s) else s
  s.modLane l fun x => tempEvents (laneNum (some l)) old new { x with temp := new }

/-- DIE_TEMP_READING: both lanes, the Junction and the metrology die. The Junction commands SAFE on its own sensor. -/
def dieTempEffect (t : DieTemps) (s : State) : State :=
  if s.rails.inReset ∨ s.modes.mode = .backup then s
  else
    let s := tempLane .b t.laneB (tempLane .a t.laneA s)
    let hot := max s.laneA.temp.reported s.laneB.temp.reported
    let s := modJct (fun j =>
      { j with temp := t.junction, metTemp := t.metro, peak := max j.peak hot
               throttled := if s.laneA.temp.throttle || s.laneB.temp.throttle then j.throttled + 1 else j.throttled }) s
    let far := decide (t.metro < -250 ∨ 850 < t.metro)
    let s := { s with met := (let m := s.met; { m with ctl := (let c := m.ctl; { c with mettemp := far }) }) }
    if 1150 ≤ t.junction ∧ s.jct.lost = false then takeSafe 3 s else s

/-- DIE_TEMP_READING. -/
def execDieTempReading (t : DieTemps) (s : State) : Host.Outcome State Fault Refusal := .next (dieTempEffect t s)

/-- Thermal state (Table 2.17). -/
def thermalState (s : State) : Nat :=
  let a := s.laneA.temp
  let b := s.laneB.temp
  flagBits [(5, a.excluded.any id || b.excluded.any id), (4, s.modes.dieStop), (3, b.throttle), (2, b.warn), (1, a.throttle), (0, a.warn)]

end Sys2Proof.Machine
end

