-- ==== Sys2Proof/Machine/Boot.lean ====
section
/-! DEFINITION. The boot sequence (R64-R67): the Junction's step, a lane's steps 2 to 7 with the staging check (R401), the slot choice
and detour (R65), the configuration load (R66, R82, R84, R85), and the appointment of the active lane. -/

namespace Sys2Proof.Machine

/-- JUNCTION_BOOT: step 1. A Junction that fails stays in reset and the device does not leave BOOT. -/
def junctionBootEffect (romOk crystalOk : Bool) (s : State) : State :=
  if s.modes.mode = .boot ∧ s.rails.inReset = false ∧ !(s.rails.out.contains .vjct) then
    let ok := romOk && crystalOk
    let s := modJct (fun j => { j with lost := !ok, ready := ok, safeN := if ok then .low else j.safeN }) s
    if ok then bothLanes (fun x => { x with health := (let h := x.health; { h with jctLost := false }) }) s else s
  else s

/-- JUNCTION_BOOT. -/
def execJunctionBoot (romOk : Bool) (crystalOk : Bool) (s : State) : Host.Outcome State Fault Refusal :=
  .next (junctionBootEffect romOk crystalOk s)

/-! ## Step 2 -/

/-- The life cycle at boot step 2: a half-blown field is completed, a breach latched in BACKUP moves FIELD to RETURN (R299, R372). -/
def bootLife (s : State) : State × Bool :=
  let c := lifeCode s.life.fuse
  if lifePartial s.life.fuse then (lifeMove (c + 1) s, true)
  else if s.bk.breach then
    let s := modBk (fun k => { k with breach := false }) s
    if c = 2 then (latchCause 15 (lifeMove 3 s), true) else (s, false)
  else (s, false)

/-- Step 2 in lane l: life cycle, then the keystore's records are loaded and checked (R364, R375). -/
def bootStep2 (l : Lane) (s : State) : State :=
  let p := bootLife s
  let s := p.1
  let code := lifeCode s.life.fuse
  let other := fun (x : LaneState) => if p.2 then { x with ks := x.ks.bootCheck true code } else x
  let s := s.modLane l.other other
  s.modLane l fun x => { x with ks := x.ks.bootCheck p.2 code, ctl := (let c := x.ctl; { c with bootStep := 2, halted := false }) }

/-! ## Step 3 (R401, Table 20.5) -/

/-- Staging buffer k. -/
def Update.buf (u : Update) (k : Nat) : Staging := if k = 0 then u.buf0 else u.buf1

/-- u with staging buffer k changed. -/
def Update.modBuf (k : Nat) (f : Staging → Staging) (u : Update) : Update :=
  if k = 0 then { u with buf0 := f u.buf0 } else { u with buf1 := f u.buf1 }

/-- s with the update unit changed. -/
def modUpd (f : Update → Update) (s : State) : State := { s with upd := f s.upd }

/-- First failing check of a received image; 0 where it passes. -/
def imageCheck (s : State) (readable : Bool) (b : Staging) : Nat :=
  let i := b.image
  let headOk := field i 0 4 == 0x5357464D && field i 4 1 == 1 && field i 5 1 == 1 && field i 6 2 == 0 && field i 20 4 == 0
    && allZero (slice i 72 88)
  if !headOk then 1
  else if field i 16 4 + 256 ≠ b.length then 2
  else if !(Config.verify Config.firmwareAuthority (i.take 160) (slice i 160 96)) then 3
  else if Config.sha384 (i.drop 256) ≠ slice i 24 48 then 4
  else if field i 14 2 < s.upd.minSecurity.toNat then 5
  else if !readable then 6
  else 0

/-- The slot directory's entry of an image just copied: present, not activated. -/
def slotOfImage (i : List Byte) : FwSlot :=
  { (default : FwSlot) with
    version := BitVec.ofNat 32 (field i 8 4), schema := BitVec.ofNat 16 (field i 12 2), security := BitVec.ofNat 16 (field i 14 2)
    digest := slice i 24 48, present := true }

/-- Lane l has taken buffer b. -/
def Staging.taken (b : Staging) : Lane → Bool
  | .a => b.copiedA
  | .b => b.copiedB

/-- b marked as taken by lane l. -/
def Staging.take (l : Lane) (b : Staging) : Staging :=
  match l with
  | .a => { b with copiedA := true }
  | .b => { b with copiedB := true }

/-- The image of buffer k copied into the lane's inactive slot. -/
def copyImage (l : Lane) (k : Nat) (s : State) : State :=
  let img := (s.upd.buf k).image
  let s := modNand (storeSlot l (!(s.lane l).slots.current) img) s
  let s := s.modLane l fun x => { x with slots := x.slots.modSlot (!x.slots.current) fun _ => slotOfImage img }
  modUpd (Update.modBuf k (Staging.take l)) s

/-- A rejected image: the code goes to the slot directory and to object 2513. -/
def rejectImage (l : Lane) (k code : Nat) (s : State) : State :=
  let s := s.modLane l fun x => { x with slots := (let d := x.slots; { d with reject := put d.reject k code }) }
  let s := modUpd (Update.modBuf k fun b => { b with reject := code }) s
  evtLane l (eventReq .imageRejected 3 [k, code]) s

/-- Step 3 for buffer k: a received image this lane has not yet checked. -/
def stagingBuffer (l : Lane) (readable : Bool) (k : Nat) (s : State) : State :=
  let b := s.upd.buf k
  let rejected := b.reject != 0 && nth (s.lane l).slots.reject k != 0
  if b.received && !(b.taken l) && !rejected then
    match imageCheck s readable b with
    | 0 => copyImage l k s
    | code => rejectImage l k code s
  else s

/-- The active lane erases rejected buffers; their code stays in object 2513. -/
def eraseRejected (s : State) : State :=
  let f := fun (b : Staging) => if b.reject ≠ 0 then { b with received := false, image := [], length := 0, next := 0 } else b
  modUpd (fun u => { u with buf0 := f u.buf0, buf1 := f u.buf1 }) s

/-- Step 3: the array is identified, then the buffers are taken, lowest first. -/
def bootStep3 (l : Lane) (f : BootFacts) (s : State) : State :=
  let s := nandBoot l f.nandOk s
  let s := stagingBuffer l f.stagingReadable 1 (stagingBuffer l f.stagingReadable 0 s)
  if (activeLane s).isSome then eraseRejected s else s

/-- A lane named by the running sequence makes the source current and activated (R404 step 2, R406 step 3). -/
def activateSlot (l : Lane) (s : State) : State :=
  let mine := s.upd.st == .fullRestart || ((s.upd.st == .firstLane || s.upd.st == .secondLane) && s.upd.seqLane == some l)
  let d := (s.lane l).slots
  let cur := d.slot d.current
  let new := d.slot (!d.current)
  if mine && new.present && !new.activated && !new.failed && !(cur.activated && !cur.confirmed) then
    s.modLane l fun x => { x with slots := { (x.slots.modSlot (!d.current) fun v => { v with activated := true, confirmed := false, runTime := 0 })
                                             with current := !d.current } }
  else s

/-! ## Step 4 (R65, R402) -/

/-- The image of the slot was activated and has not confirmed its health within 600 s, or was marked failed (R407). -/
def detourDue (v : FwSlot) : Bool := v.activated && !v.confirmed && (v.failed || decide (600 ≤ v.runTime.toNat))

/-- Slot k verifies: the array works, the image is present, signature and digest correct (R402, Table 20.7). -/
def slotVerifies (f : BootFacts) (d : SlotDir) (k : Bool) : Bool :=
  f.nandOk && (d.slot k).present && (if k then f.image1Ok else f.image0Ok)

/-- Slot the lane boots, and whether it is the detour; none where both fail. -/
def chooseSlot (f : BootFacts) (d : SlotDir) : Option (Bool × Bool) :=
  let detour := detourDue (d.slot d.current)
  let first := if detour then !d.current else d.current
  if slotVerifies f d first then some (first, detour)
  else if slotVerifies f d (!first) then some (!first, false)
  else none

/-- Step 4 in lane l. -/
def bootStep4 (l : Lane) (f : BootFacts) (s : State) : State :=
  match chooseSlot f (s.lane l).slots with
  | none => s.modLane l fun x => { x with ctl := (let c := x.ctl; { c with bootStep := 3, recovery := true }) }
  | some (k, detour) =>
    let s := s.modLane l fun x =>
      { x with ctl := (let c := x.ctl; { c with bootStep := 4 })
               slots := (let d := x.slots; { d with booted := k, detours := if detour then d.detours + 1 else d.detours }) }
    if detour then evtLane l (eventReq .detour 4 [if k then 1 else 0]) (latchCause 14 s) else s

/-! ## Step 5 (Table 3.6) -/

/-- The failed tile retires; the spare takes its role (R29). -/
def bootTile (t : Nat) (x : LaneState) : LaneState :=
  let role := (nth x.tiles t).role
  let x :=
    if role = .fast ∨ role = .slow then
      match spareTileNo x with
      | some u => x.modTile u fun y => { y with role := role }
      | none => x
    else x
  (x.modTile t fun y => { y with role := .retired }).event (eventReq .tileRetired t [t])

/-- Tiles of the lane in service that failed the test. -/
def failedNow (x : LaneState) (f : BootFacts) : List Nat :=
  (f.failedTiles.map (·.val)).eraseDups.filter fun t => (nth x.tiles t).role != .retired

/-- Step 5 succeeds: nothing but at most one tile failed, and a spare replaces it. -/
def step5Ok (x : LaneState) (f : BootFacts) : Bool :=
  let bad := failedNow x f
  !f.otherFail && decide (bad.length ≤ 1) &&
    (bad.all fun t => (nth x.tiles t).role == .spare || (spareTileNo x).isSome)

/-- Step 5 in lane l. -/
def bootStep5 (f : BootFacts) (x : LaneState) : LaneState :=
  let x := (failedNow x f).foldl (fun x t => bootTile t x) x
  { x with ctl := (let c := x.ctl; { c with bootStep := 5 }), ks := x.ks.freeOrphans }

/-! ## Step 6 (R66, R82, R84, R85) -/

/-- Schema version of the firmware lane l runs (object 2200:09). -/
def laneSchema (s : State) (l : Lane) : U16 := let d := (s.lane l).slots; (d.slot d.booted).schema

/-- Set flag n (Table 4.10) is set. -/
def setFlag (n : Nat) (k : Sets) : Sets := { k with flags := k.flags ||| BitVec.ofNat 8 (2 ^ n) }

/-- Outcome of the configuration load (Table 3.7): 0 active set, 1 older or newer schema, 2 and 3 CRC wrong. -/
def cfgOutcome (s : State) (l : Lane) : Nat :=
  let k := s.sets
  if !k.activeOk then (if k.st = .committed ∧ k.shadowOk then 2 else 3)
  else if k.schema ≠ laneSchema s l ∨ k.flags.getLsbD 1 then 1
  else 0

/-- Defaults in force because of the schema: both sets reset to them (R85). -/
def schemaReset (schema : U16) (k : Sets) : Sets :=
  setFlag 1 (setFlag 2 { k with active := [], shadow := [], st := .opened, schema := schema, swaps := 0, live := [], published := [] })

/-- Defaults in force because of the CRC (Table 3.7). -/
def crcReset (k : Sets) : Sets := setFlag 0 (setFlag 1 { k with active := [], swaps := 0, live := [], published := [] })

/-- The copy that qualifies: a right CRC, the epoch in force, the higher sequence number (R82). -/
def LiveCell.best (epoch : U32) (c : LiveCell) : Option LiveCopy :=
  let ok := fun (p : LiveCopy) => p.good && p.epoch == epoch
  match c.copyA.filter ok, c.copyB.filter ok with
  | some a, some b => some (if a.seq.toNat < b.seq.toNat then b else a)
  | some a, none => some a
  | none, q => q

/-- Live cells with a copy that qualifies give their values; the others fall back to the set image (R82). -/
def loadLive (k : Sets) : Sets :=
  { k with published := k.live.foldl (fun st c => match c.best k.epoch with
                          | some p => Store.set st c.key p.value []
                          | none => st) [] }

/-- Cells that fall back: written once, and neither copy qualifies (DEDUCED, log 50: so does a cell that a swap has voided). -/
def liveFallback (k : Sets) : List Nat := (k.live.filter fun c => (c.best k.epoch).isNone).map LiveCell.key

/-- Step 6 in lane l. While the device runs, a lane that restarts finds the sets as they are in force. -/
def bootStep6 (l : Lane) (s : State) : State :=
  let o := cfgOutcome s l
  let sets := fun (f : Sets → Sets) (s : State) => { s with sets := f s.sets }
  let s :=
    if (activeLane s).isSome then s
    else if o = 0 then
      let gone := liveFallback s.sets
      let s := if gone.isEmpty then s else sets (setFlag 3) s
      sets loadLive (gone.foldl (fun s k => evtLane l (eventReq .liveCellFallback 127 [k]) s) s)
    else if o = 1 then
      if s.sets.schema = laneSchema s l then sets loadLive s
      else evtLane l (eventReq .setDefaults 127 []) (sets (schemaReset (laneSchema s l)) s)
    else if s.sets.flags.getLsbD 0 then s
    else sets crcReset s
  let timing := (cfgN s 0x3600 1 == 1, cfgN s 0x3600 2, cfgI s 0x3600 3)
  s.modLane l fun x => { x with ctl := (let c := x.ctl; { c with bootStep := 6, cfgOutcome := o, timing := timing }) }

/-! ## Step 7 and the whole -/

/-- As its type is first known, a typed link whose receiver is synchronised goes from DOWN to SYNC (R104). -/
def linksBoot (s : State) (x : LaneState) : LaneState :=
  (List.range 64).foldl (fun x n => if (x.link n).synced then linkSyncLane s n x else x) x

/-- What a lane builds from the active set: links typed, loops placed, banks loaded. -/
def buildLane (s : State) (x : LaneState) : LaneState :=
  let x := placeAll s (linksBoot s x)
  { x with tiles := x.tiles.map (loadBanks s) }

/-- Lane l reports while the other lane is ACTIVE, and the active set gives the two another outcome (R66). -/
def outcomesDiffer (s : State) (l : Lane) : Bool := activeLane s == some l.other && cfgOutcome s l != cfgOutcome s l.other

/-- Step 7 in lane l: the metrology section's status; the lane reports to the Junction, which fails it where its outcome differs. -/
def bootStep7 (l : Lane) (f : BootFacts) (s : State) : State :=
  let ready := f.metroAnswers && s.met.ctl.st == .ready
  let s := s.modLane l fun x => buildLane s { x with ctl := (let c := x.ctl; { c with bootStep := 7, metroReady := ready }) }
  if s.jct.lost then s
  else if outcomesDiffer s l then junctionFail l 0 s
  else modJct (fun j => j.modLane l fun k => { k with reported := true }) s

/-- Lane l may run its boot: out of reset, BOOTING, or FAILED and released. -/
def mayBoot (s : State) (l : Lane) : Bool :=
  let j := s.jct.lane l
  let c := (s.lane l).ctl
  s.modes.mode != .backup && !s.rails.inReset && !s.rails.ringHeld && !c.railHeld && decide (c.bootStep < 7)
    && !c.halted && !c.recovery && (j.role == .booting || (j.role == .failed && !j.held))

/-- LANE_BOOT: steps 2 to 7, each ending the boot where it fails. -/
def laneBootEffect (l : Lane) (f : BootFacts) (s : State) : State :=
  if !(mayBoot s l) then s
  else
    let s := if roleOf s l = .failed then setRole l .booting s else s
    if !f.step2Ok then s.modLane l fun x => { x with ctl := (let c := x.ctl; { c with halted := true, bootStep := 0 }) }
    else
      let s := bootStep4 l f (activateSlot l (bootStep3 l f (bootStep2 l s)))
      if (s.lane l).ctl.recovery then s
      else if !(step5Ok (s.lane l) f) then junctionFail l 0 s
      else bootStep7 l f (bootStep6 l (checkRecords l (s.modLane l (bootStep5 f))))

/-- LANE_BOOT. -/
def execLaneBoot (l : Lane) (facts : BootFacts) (s : State) : Host.Outcome State Fault Refusal :=
  .next (laneBootEffect l facts s)

/-! ## Step 8 (R67) -/

/-- Lane l has reported step 7. -/
def hasReported (s : State) (l : Lane) : Bool := (s.jct.lane l).reported

/-- The lane to appoint: the last-active one if it has reported, else the one that has, Lane A where both have. -/
def appointed (s : State) : Option Lane :=
  match s.bk.lastActive with
  | some l => if hasReported s l then some l else if hasReported s l.other then some l.other else none
  | none => if hasReported s .a then some .a else if hasReported s .b then some .b else none

/-- State of a site-bus channel that starts: error active where enabled. -/
def channelStart (s : State) (c : Nat) : Channel :=
  { Channel.reset with
    st := if cfgB s (0x3810 + c) 1 then .errorActive else .off
    sched := if (cfgBytes s (0x3810 + c) 0xF).length ≤ 16 then .eventTriggered else if c = 2 ∧ cfgB s 0x3230 1 then .lost else .master }

/-- The active lane's first messages: the tamper latches with the power-fail timestamp, then TIME with site time where it is available,
else the RTC (R64, R219, R297). -/
def firstMessages (l : Lane) (s : State) : State :=
  let q : BarrierReq := { lane := l, tag := BitVec.ofNat 16 (Config.freeNat s.free) }
  let s := s.useFree 1
  let latches : Nat := flagBits (s.bk.inputs.mapIdx fun i (t : TampIn) => (i, t.latched))
  let s := barrierTamperEffect q (BitVec.ofNat 4 latches) s.bk.pfTime s.bk.pfValid s
  let m : TimeMsg := { time := if s.site.source = 0 then s.bk.rtc else siteTime s, timeValid := s.site.source != 0, rtc := s.bk.rtc
                       rtcValid := !s.bk.invalid }
  serve q 4 (timeMet (nominalPeriod s) m) s

/-- ms from the release of reset, by the RTC (object 2010:0A). -/
def bootTime (s : State) : U32 := BitVec.ofNat 32 ((s.bk.rtc - s.modes.releasedAt).toNat * 1000 / 2 ^ 15)

/-- ACTIVE_LANE_APPOINT: the device leaves BOOT; the configuration decides between IDLE and COMMISSION (Table 3.3). -/
def appointEffect (s : State) : State :=
  if s.modes.mode ≠ .boot ∨ s.jct.ready = false ∨ s.jct.lost then s
  else
    match appointed s with
    | none => s
    | some l =>
      let o := (s.lane l).ctl.cfgOutcome
      let s := setRole l .active s
      let s := modJct (fun j => { j with mux := some l, mark := some l, safeN := .hiZ, safeDue := none }) s
      let s := if hasReported s l.other && (s.lane l.other).ctl.cfgOutcome != o then junctionFail l.other 0 s else s
      let s := { s with modes := (let m := s.modes; { m with bootMs := bootTime s })
                        comm := (let c := s.comm; { c with nmt := .preOperational })
                        chans := (List.range 4).map (channelStart s)
                        clk := (let c := s.clk
                                let t := (s.lane l).ctl.timing
                                { c with long := t.1, lam := t.2.1, advance := t.2.2 })
                        site := { State.reset.site with ns := rtcNs s.bk.rtc, source := if s.bk.invalid then 0 else 4 } }
      let s := s.modLane l fun x => { x with ctl := (let c := x.ctl; { c with bootStep := 8 }) }
      let s := firstMessages l (nmtFrame 0 (eraseRejected s))
      recheckSpares (goMode (if o = 0 ∧ cfgB s 0x2010 6 then .idle else .commission) s)

/-- ACTIVE_LANE_APPOINT. -/
def execActiveLaneAppoint (s : State) : Host.Outcome State Fault Refusal := .next (appointEffect s)

/-! ## Timeouts -/

/-- LANE_BOOT_TIMEOUT: 60 s after the other lane reported, a lane still booting is reset (R67). -/
def laneBootTimeoutEffect (l : Lane) (s : State) : State :=
  let late := roleOf s l == .booting && decide ((s.lane l).ctl.bootStep < 7) && !(s.lane l).ctl.recovery
  if late && (hasReported s l.other || (activeLane s).isSome) then
    let s := junctionFail l 0 s
    if roleOf s l = .failed then setRole l .booting s else s
  else s

/-- LANE_BOOT_TIMEOUT. -/
def execLaneBootTimeout (l : Lane) (s : State) : Host.Outcome State Fault Refusal := .next (laneBootTimeoutEffect l s)

/-- LANE_WATCHDOG_EXPIRY: that lane only is reset; the Junction finds out by its heartbeat (R70). -/
def laneWatchdogEffect (l : Lane) (s : State) : State :=
  if (s.lane l).ctl.bootStep < 2 then s else resetLane l (latchCause (if l = .a then 8 else 9) s)

/-- LANE_WATCHDOG_EXPIRY. -/
def execLaneWatchdogExpiry (l : Lane) (s : State) : Host.Outcome State Fault Refusal := .next (laneWatchdogEffect l s)

end Sys2Proof.Machine
end

