-- ==== Sys2Proof/Machine/Modes.lean ====
section
/-! DEFINITION. Mode requests and transitions (R56-R58, Table 3.3), the SAFE sequence (R59-R62), the sleep sequence (R63) and the
reset-cause latches (R69). -/

namespace Sys2Proof.Machine

/-- s with the mode unit changed. -/
def modModes (f : ModeUnit → ModeUnit) (s : State) : State := { s with modes := f s.modes }

/-- s with the mode-change result r. -/
def modeResult (r : U8) (s : State) : State := modModes (fun m => { m with result := r }) s

/-! ## Requests (R56, R58) -/

/-- Codes a host may write to 2010:01. -/
def requestCodes : List U8 := [1, 2, 3, 5, 6, 7]

/-- A write to 2010:01: refused with code 1 in SAFE and for another code, and the object then keeps its value; the last request of a share
cycle waits, and 2010:04 reads 5 where it supersedes another, 6 otherwise (DESIGN CHOICE, log 31: the spec gives one object for both requests and
does not say what a refused write leaves in 2010:01). -/
def modeRequestEffect (v : U8) (s : State) : State :=
  if s.modes.mode = .safe ∨ requestCodes.contains v = false then modeResult 1 s
  else
    let r : U8 := if s.modes.waiting.isSome then 5 else 6
    modModes (fun m => { m with requested := v, waiting := some v, result := r }) s

/-- MODE_REQUEST_WRITE. -/
def execModeRequestWrite (v : U8) (s : State) : Host.Outcome State Fault Refusal :=
  .next (hostWrite (safeWritable s) (modeRequestEffect v) s)

/-! ## Taking a request (Table 3.3) -/

/-- The metrology section is ready as far as the active lane knows: by its latest grid-status record, before any by step 7. -/
def metroReady (s : State) : Bool :=
  match s.act.grid.recs.head? with
  | some g => s.act.grid.fresh && !(g.flags.getLsbD 2)
  | none => s.act.ctl.metroReady

/-- The transition to mode m is taken; it completes after n periods at the latest. -/
def startTransition (m : Mode) (n : Nat) (s : State) : State :=
  modModes (fun k => { k with result := 0, pending := some (m, s.clk.period + n) }) s

/-- Bay, module and string loops of lane x are disabled. -/
def disableAll (x : LaneState) : LaneState :=
  (allLoops.filter fun i => !(isSlowLoop i)).foldl (fun x i => disableLoop i x) x

/-- The way to IDLE from a power mode: sessions end, loops ramp to zero. -/
def toIdle (s : State) : State :=
  startTransition .idle (msPeriods s 2000) (bothLanes disableAll (endAllSessions 4 s))

/-- The sleep sequence: flush, last-active lane, channel D wake detector, PWR_EN low; the device then sleeps (R63). -/
def sleepSequence (s : State) : State :=
  match activeLane s with
  | none => s
  | some l =>
    let s := goMode .backup s
    let s := if computing s l.other then flushLane l.other (flushLane l s) else flushLane l s
    let frame := cfgN s 0x3813 8 == 1
    modJct (fun j => { j with safeN := .hiZ })
      (modeResult 0 (modBk (fun b => { b with lastActive := some l, wakeArmed := some frame, pwrEn := false, offAt := some b.rtc }) s))

/-- Request for RUN from IDLE: the checks in the order of R57. -/
def requestRun (s : State) : State :=
  if s.sets.flags.getLsbD 0 then modeResult 2 s
  else if metroReady s = false then modeResult 3 s
  else startTransition (if laneCount s = 2 then .run else .degraded) (shareLen s) s

/-- The transition to the mode of code v is under way. -/
def underWay (v : U8) (s : State) : Bool := s.modes.pending.any fun p => p.1.code == v || (p.1 == .degraded && v == 3)

/-- A request evaluated against Table 3.3; one for the present mode, or for the one under way, changes nothing. -/
def evalRequest (v : U8) (s : State) : State :=
  if v = s.modes.mode.code ∨ underWay v s then modeResult 0 s
  else if v = 5 then takeSafe 1 (modeResult 0 s)
  else
    match s.modes.mode, v.toNat with
    | .idle, 1 => startTransition .commission (shareLen s) s
    | .idle, 3 => requestRun s
    | .idle, 6 => startTransition .service (shareLen s) s
    | .idle, 7 => sleepSequence s
    | .commission, 2 => if cfgB s 0x2010 6 then toIdle s else modeResult 4 s
    | .run, 2 => toIdle s
    | .degraded, 2 => toIdle s
    | .service, 2 => startTransition .idle (shareLen s) s
    | _, _ => modeResult 1 s

/-- A request may be taken: at a share-cycle boundary, with no crossover, resynchronisation or swap in the way. -/
def mayTake (s : State) : Bool :=
  atShare s && !(crossing s) && !(resyncing s) && s.sets.st != .swapPending && !s.sets.swapReq
    && (activeLane s).isSome

/-- MODE_REQUEST_TAKEN: the waiting request is taken. -/
def modeRequestTakenEffect (s : State) : State :=
  match s.modes.waiting with
  | none => s
  | some v => if mayTake s then evalRequest v (modModes (fun m => { m with waiting := none }) s) else s

/-- MODE_REQUEST_TAKEN. -/
def execModeRequestTaken (s : State) : Host.Outcome State Fault Refusal := .next (modeRequestTakenEffect s)

/-! ## Reset request (R62) -/

/-- A write to 2010:03: the key value resets at once in SAFE, elsewhere through the SAFE sequence; any other value is ignored. -/
def resetRequestEffect (v : U32) (s : State) : State :=
  if v ≠ 0x0000A55A then s
  else if s.modes.mode = .safe then plainReset 7 (safeExit s)
  else modModes (fun m => { m with resetAfter := true }) (takeSafe 1 s)

/-- RESET_REQUEST. -/
def execResetRequest (v : U32) (s : State) : Host.Outcome State Fault Refusal :=
  .next (hostWrite (safeWritable s) (resetRequestEffect v) s)

/-! ## SAFE (R59-R61) -/

/-- The condition of a SAFE cause of Table 3.4 holds. -/
def safeCauseHolds (s : State) (cause : Nat) : Bool :=
  match cause with
  | 1 => (s.modes.waiting == some 5 && mayTake s) || s.modes.resetAfter
  | 2 => decide (2 ≤ s.jct.laneA.devRun) && decide (2 ≤ s.jct.laneB.devRun)
  | 3 => decide (1150 ≤ s.jct.temp) || (s.laneA.temp.stop && decide (1050 ≤ s.laneB.temp.reported))
      || (s.laneB.temp.stop && decide (1050 ≤ s.laneA.temp.reported))
  | 4 => s.bk.pfActive && powerMode s
  | 5 => (activeLane s).isNone
  | 6 => s.rails.out.any ringRail
  | _ => false

/-- SAFE_ENTRY on a cause whose condition holds. -/
def execSafeEntry (cause : U8) (s : State) : Host.Outcome State Fault Refusal :=
  .next (if safeCauseHolds s cause.toNat then takeSafe cause s else s)

/-- A loop at the end of the SAFE ramp: those in RAMP and the module loops that follow them enter OFF. -/
def rampOff (i : LoopId) (p : Loop) : Loop :=
  let follows : Bool := match i with
    | .module _ => p.st == .start || p.st == .run || p.st == .stop
    | _ => false
  if p.st = .ramp ∨ follows then
    { p with st := .off, nextSt := none, zeroDue := true, rampStep := { m := 0, e := 0, inv := false } }
  else p

/-- SAFE_RAMP_END, T + 1 periods after the cause was taken; SAFE_N follows 10 ms later unless it is already due. -/
def safeRampEndEffect (s : State) : State :=
  match s.modes.safe with
  | none => s
  | some q =>
    if s.modes.mode = .safe ∧ q.k + q.t + 1 ≤ s.clk.period then
      let s := bothLanes (LaneState.mapLoops rampOff) (modModes (fun m => { m with safe := none }) s)
      if q.cause = 4 ∨ q.cause = 5 ∨ q.cause = 6 then s
      else modJct (fun j => { j with safeDue := some (s.clk.period + msPeriods s 10) }) s
    else s

/-- SAFE_RAMP_END. -/
def execSafeRampEnd (s : State) : Host.Outcome State Fault Refusal := .next (safeRampEndEffect s)

/-- SAFE_N_ASSERT: the Junction drives SAFE_N low when it is due; a reset that waited for the sequence follows (R60, R62). -/
def safeNAssertEffect (s : State) : State :=
  match s.jct.safeDue with
  | none => s
  | some p =>
    if p ≤ s.clk.period ∧ s.jct.lost = false then
      let s := modJct (fun j => { j with safeN := .low, safeDue := none }) s
      if s.modes.resetAfter then plainReset 7 (safeExit s) else s
    else s

/-- SAFE_N_ASSERT. -/
def execSafeNAssert (s : State) : Host.Outcome State Fault Refusal := .next (safeNAssertEffect s)

/-! ## Reset causes (R69) -/

/-- RESET_CAUSE_CLEAR: a write to 2020:01, accepted in SAFE too (R55). -/
def execResetCauseClear (mask : U16) (s : State) : Host.Outcome State Fault Refusal :=
  .next (hostWrite (safeWritable s) (modBk fun k => { k with resetLatches := k.resetLatches &&& ~~~mask }) s)

end Sys2Proof.Machine
end

