-- ==== Sys2Proof/Machine/UpdateOps.lean ====
section
/-! DEFINITION. Shared operations of firmware activation: unconfirmed images, the abort of a sequence (R407), and the restart of one
lane (R404). -/

namespace Sys2Proof.Machine

/-- The image lane x boots is activated and not confirmed. -/
def unconfirmed (x : LaneState) : Bool := let v := x.slots.slot x.slots.current; v.activated && !v.confirmed

/-- The unconfirmed image of lane l is marked failed. -/
def markFailed (l : Lane) (s : State) : State :=
  s.modLane l fun x =>
    if unconfirmed x then { x with slots := x.slots.modSlot x.slots.current fun v => { v with failed := true } } else x

/-- A sequence is running. -/
def seqRunning (s : State) : Bool :=
  s.upd.st == .firstLane || s.upd.st == .crossover || s.upd.st == .secondLane || s.upd.st == .fullRestart

/-- The sequence is aborted; the source buffer is kept. -/
def abortSeq (s : State) : State :=
  if seqRunning s then
    modUpd (fun u => { u with st := .aborted, seqSource := none, seqLane := none, seqReq := false, hostConfirm := false }) s
  else s

/-- Lane l restarts at boot step 2 with cause bit n. -/
def restartLane (n : Nat) (l : Lane) (s : State) : State :=
  let s := setRole l .booting (latchCause n (resetLane l s))
  afterStandbyLoss s

/-- The image of lane l failed: it boots its detour at its next start, which follows at once for a lane other than the active one;
an active lane passes the links by a planned crossover first, or ramps alone (R407). -/
def abortOn (l : Lane) (s : State) : State :=
  let s := abortSeq (markFailed l s)
  if activeLane s ≠ some l then
    if roleOf s l = .standby ∨ roleOf s l = .shadowing then restartLane 13 l s else s
  else if (standbyLane s).isSome then modJct (fun j => { j with planReq := true, result := 1 }) s
  else if powerMode s then toIdle s
  else s

end Sys2Proof.Machine
end

