-- ==== Sys2Proof/Machine/Junction.lean ====
section
/-! DEFINITION. Twin lanes and the Junction (chapter 13): the verdict, what it does at the decision boundary, unplanned and planned
crossovers, resynchronisation, the self-tests, and the loss and restart of the Junction. -/

namespace Sys2Proof.Machine

/-! ## The verdict (R273-R276, Table 13.5) -/

/-- Entry of a lane for period n; none where it is absent (R273). -/
def entryOf (j : JLane) (n : Nat) : Option DigestEntry := j.entry.filter fun e => e.period.toNat == n % 65536

/-- Lane l is judged in full. -/
def judged (s : State) (l : Lane) : Bool := inService s l || roleOf s l == .shadowing

/-- The digest of a lane is compared with the active lane's: STANDBY, or SHADOWING from its join period on. -/
def compared (n : Nat) (j : JLane) : Bool :=
  j.role == .standby || (j.role == .shadowing && j.joined && j.join.any fun q => decide (q ≤ n))

/-- The lanes' digests of period n differ: both entries present, one lane ACTIVE, the other compared with it. -/
def mismatch (s : State) (n : Nat) : Bool :=
  match entryOf s.jct.laneA n, entryOf s.jct.laneB n with
  | some p, some q =>
    ((roleOf s .a == .active && compared n s.jct.laneB) || (roleOf s .b == .active && compared n s.jct.laneA)) && p.digest != q.digest
  | _, _ => false

/-- The lanes' digests of period n match. -/
def digestsMatch (s : State) (n : Nat) : Bool :=
  match entryOf s.jct.laneA n, entryOf s.jct.laneB n with
  | some p, some q =>
    ((roleOf s .a == .active && compared n s.jct.laneB) || (roleOf s .b == .active && compared n s.jct.laneA)) && p.digest == q.digest
  | _, _ => false

/-- An entry sets QUEUE, CONFIG or RECEIVER. -/
def selfBits (e : Option DigestEntry) : Bool :=
  match e with
  | some e => e.health.getLsbD 7 || e.health.getLsbD 6 || e.health.getLsbD 5
  | none => false

/-- Canary of an entry differs from the ROM value of its vector. -/
def canaryWrong (e : Option DigestEntry) (n : Nat) : Bool :=
  match e with
  | some e => e.canary != Config.canaryExpected (n % 16)
  | none => false

/-- Codes of Table 13.5 before 11 and 8, in order; 0 where none holds. -/
def firstCode (s : State) (n : Nat) (l : Lane) : Nat :=
  let j := s.jct.lane l
  let e := entryOf j n
  if (s.lane l).ctl.railHeld then 9
  else
    match e with
    | none => if j.prevAbsent then 1 else if 2 ≤ j.devRun then 3 else 0
    | some v =>
      if 2 ≤ j.devRun then 3
      else if canaryWrong e n then 2
      else if v.health.getLsbD 10 then 4
      else if v.health.getLsbD 8 then 10
      else if v.health.getLsbD 3 then 5
      else if v.health.getLsbD 4 then 6
      else if mismatch s n && selfBits e && !(selfBits (entryOf (s.jct.lane l.other) n)) then 7
      else 0

/-- A code of 1 to 7. -/
def codeAssigns (c : Nat) : Bool := decide (1 ≤ c ∧ c ≤ 7)

/-- Verdict code on lane l for the entries of period n. A BOOTING lane is judged by its heartbeat only, once it has one (Table 13.1). -/
def verdictCode (s : State) (n : Nat) (l : Lane) : Nat :=
  let j := s.jct.lane l
  if !(judged s l) then
    if j.role = .booting ∧ j.beats ∧ j.prevAbsent ∧ entryOf j n = none ∧ !(s.lane l).ctl.railHeld then 1 else 0
  else
    let c := firstCode s n l
    if c ≠ 0 then c
    else if j.role = .shadowing ∧ (mismatch s n ∨ entryOf j n = none) then 11
    else if j.role = .standby ∧ mismatch s n ∧ !(codeAssigns (firstCode s n l.other)) then 8
    else 0

/-- A measured period deviates from nominal by more than 0.5 % (R22). -/
def deviates (s : State) (ps : Nat) : Bool :=
  let p := periodNs s * 1000
  decide (p < ((ps : Int) - p).natAbs * 200)

/-- A lane's record with its period judged. -/
def judgeLane (s : State) (n c : Nat) (l : Lane) (j : JLane) : JLane :=
  let e := entryOf j n
  let gone := e.isNone
  let same := digestsMatch s n
  { j with
    entry := none, prevAbsent := gone
    absent := if gone && judged s l then j.absent + 1 else j.absent
    canaryFails := if judged s l && canaryWrong e n then j.canaryFails + 1 else j.canaryFails
    verdict := if c = 0 then j.verdict else BitVec.ofNat 8 c
    suspects := if c = 8 then nowNs s :: lastHour s j.suspects else lastHour s j.suspects
    matches_ := if same then (if j.matches_ = 0xFFFF then j.matches_ else j.matches_ + 1) else 0
    joinMatches := if j.joined && j.join.any (fun q => decide (q ≤ n)) then (if same && !(canaryWrong e n) then j.joinMatches + 1 else 0) else 0 }

/-- The Junction counts a lane's period markers; a lane held in reset gives none. -/
def countPeriod (s : State) (ps : Nat) (j : JLane) : JLane :=
  { j with devRun := if j.role = .failed ∨ j.role = .excluded then 0 else if deviates s ps then j.devRun + 1 else 0 }

/-- A verdict cancels a planned crossover taken and not yet done (R280). -/
def cancelPlanned (s : State) : State :=
  match s.jct.cross with
  | some c => if c.planned then modJct (fun j => { j with cross := none, result := 6 }) s else s
  | none => s

/-- The entries of period n are judged. -/
def judgeEntries (psA psB n : Nat) (s : State) : State :=
  let s := modJct (fun j => { j with laneA := countPeriod s psA j.laneA, laneB := countPeriod s psB j.laneB, judgedAt := some n }) s
  let a := verdictCode s n .a
  let b := verdictCode s n .b
  let s := if 2 ≤ s.jct.laneA.devRun ∧ 2 ≤ s.jct.laneB.devRun then latchCause 5 s else s
  let s := modJct (fun j => { j with laneA := judgeLane s n a .a j.laneA, laneB := judgeLane s n b .b j.laneB }) s
  if a = 0 ∧ b = 0 then s
  else
    let s := modJct (fun j => { j with decision := some { at_ := n + 2, codeA := BitVec.ofNat 8 a, codeB := BitVec.ofNat 8 b } }) (cancelPlanned s)
    let s := if a ≠ 0 then evt (eventReq .verdict 127 [1, a]) s else s
    if b ≠ 0 then evt (eventReq .verdict 127 [2, b]) s else s

/-- The Junction can judge: not lost, an active lane appointed. -/
def junctionRuns (s : State) : Bool := !s.jct.lost && s.modes.mode != .boot && s.modes.mode != .backup

/-- JUNCTION_VERDICT at cycle 0 of n + 1, once for each period; psA and psB are the lanes' period lengths in ps. -/
def junctionVerdictEffect (psA psB : Nat) (s : State) : State :=
  if junctionRuns s ∧ 0 < s.clk.period ∧ s.jct.judgedAt ≠ some (s.clk.period - 1) then judgeEntries psA psB (s.clk.period - 1) s
  else s

/-- JUNCTION_VERDICT. -/
def execJunctionVerdict (psA psB : Nat) (s : State) : Host.Outcome State Fault Refusal :=
  .next (junctionVerdictEffect psA psB s)

/-! ## The decision boundary (R277, Tables 13.5, 13.7, 13.10) -/

/-- The verdict with code c on lane l is FAIL. -/
def isFail (s : State) (l : Lane) (c : Nat) : Bool :=
  let j := s.jct.lane l
  c == 9 || c == 1 || c == 3 || c == 2 || c == 4 || c == 10 || (c == 8 && decide (cfgN s 0x2120 4 ≤ j.suspects.length))
    || (c == 11 && j.join.isSome && decide (2 ≤ j.aborted))

/-- The verdict with code c is DEMOTE. -/
def isDemote (s : State) (l : Lane) (c : Nat) : Bool := c != 0 && !(isFail s l c)

/-- TEMP of lane l's last health word is at or above 145, 105 degC. -/
def hotLane (s : State) (l : Lane) : Bool := decide (145 ≤ (s.jct.lane l).health.toNat / 2 ^ 20 % 256)

/-- Open USDO sessions end with 0x08000000 (R79). -/
def endSessions (s : State) : State :=
  { s with comm := (let c := s.comm
                    { c with sessions := c.sessions.map fun (u : Usdo) => if u.opened then { opened := false, abort := 0x08000000 } else u }) }

/-- A transmit role of Table 1.8. -/
def transmitQueue (q : Nat) : Bool :=
  (decide (q < 24) && decide (2 ≤ q % 6)) || (decide (24 ≤ q ∧ q < 72) && q % 2 == 1) || (decide (72 ≤ q ∧ q < 88) && decide (4 ≤ q % 8))
    || q == 89 || q == 90 || q == 93

/-- The transmit queues of lane l start empty; what they held is discarded and counted. -/
def emptyTransmit (l : Lane) (s : State) : State :=
  let s := s.modLane l fun x =>
    { x with queues := x.queues.mapIdx fun q k =>
        match roleServed x q with
        | some r => if transmitQueue r && !k.retired then HwQueue.reset (queueDepth q) k else k
        | none => k }
  let mail := s.tri.txq.any (·.mailbox) || s.tri.waiting.any (·.mailbox)
  { s with
    chans := s.chans.map fun (c : Channel) => { c with tx := List.replicate 4 [], cancelHeld := none, window := none }
    tri := (let t := s.tri; { t with txq := [], waiting := none, txResult := if mail then 3 else t.txResult }) }

/-- A pending swap is cancelled with code 8 (R83). -/
def cancelSwap (s : State) : State :=
  if s.sets.st = .swapPending then
    let s := { s with sets := (let k := s.sets; { k with st := .committed, result := 8, swapAt := none, swapTries := 0 }) }
    bothLanes (fun x => { x with ctl := (let c := x.ctl; { c with swapReady := false }) }) s
  else s

/-- What moves to the new lane at a crossover (Table 13.7): roles, the active mark, the dictionary, the transmit queues. -/
def moveToLane (new : Lane) (cause : Nat) (s : State) : State :=
  let s := setRole new .active s
  let s := modJct (fun j => { j with mark := some new, lastCause := BitVec.ofNat 8 cause }) s
  let s := emptyTransmit new (endSessions s)
  let s := evtLane new (eventReq .crossover 127 [laneNum (some new), cause]) s
  let s := flushSigned new s
  if s.nand.st = 2 then evtLane new (eventReq .loadProfileLost 127 []) s else s

/-- Lane l, demoted, becomes SHADOWING without a reset; its attempt to join starts again. A lane demoted three times in 3,600 s for
one link has that receiver failed and is excluded (R277, R282, R283). -/
def demoteLane (l : Lane) (c : Nat) (s : State) : State :=
  let aborted := if c = 11 ∧ (s.jct.lane l).join.isSome then (s.jct.lane l).aborted + 1 else (s.jct.lane l).aborted
  let s := setRole l .shadowing s
  let s := modJct (fun j => j.modLane l fun (k : JLane) => { k with demotions := k.demotions + 1, matches_ := 0, aborted := aborted }) s
  if c = 7 ∧ (s.jct.lane l).health.getLsbD 5 then
    let links := (s.lane l).ctl.rxDiffer
    let old := (s.lane l).ctl.rxDemotions.filter fun p => decide (nowNs s < p.2 + hourNs)
    let all := old ++ links.map fun n => (n, nowNs s)
    let bad := links.filter fun n => decide (3 ≤ (all.filter fun p => p.1 == n).length)
    let s := s.modLane l fun x => { x with ctl := (let k := x.ctl; { k with rxDemotions := all, failedRx := (k.failedRx ++ bad).eraseDups }) }
    if bad.isEmpty then s
    else setRole l .excluded (resetLane l (evt (eventReq .receiverFailed 127 (laneNum (some l) :: bad)) s))
  else s

/-- A verdict on a lane whose image is unconfirmed aborts the running activation (R407). -/
def abortIfUnconfirmed (l : Lane) (was : Bool) (s : State) : State := if was then abortOn l s else s

/-- Lane l fails with code c. -/
def failLane (l : Lane) (c : Nat) (s : State) : State :=
  let was := unconfirmed (s.lane l)
  let standby := decide (roleOf s l = .standby)
  let s := if was then abortSeq (markFailed l s) else s
  let s := junctionFail l c s
  if standby then afterStandbyLoss s else s

/-- Lane l, not the active one, is demoted with code c. -/
def demoteOther (l : Lane) (c : Nat) (s : State) : State :=
  let was := unconfirmed (s.lane l)
  let standby := decide (roleOf s l = .standby)
  let s := demoteLane l c s
  let s := if standby then afterStandbyLoss s else s
  abortIfUnconfirmed l was s

/-- The unplanned crossover of Table 13.6 from the old lane, failed or demoted, to the new one. -/
def unplannedCrossover (old : Lane) (c : Nat) (fail : Bool) (s : State) : State :=
  let new := old.other
  let was := unconfirmed (s.lane old)
  let s := modJct (fun j => { j with mux := none
                                     cross := some { at_ := s.clk.period + 1, lane := new, cause := BitVec.ofNat 8 c, planned := false } }) (idleLinks s)
  let s := if fail then (let s := if was then abortSeq (markFailed old s) else s; junctionFail old c s) else demoteLane old c s
  let s := cancelSwap (moveToLane new c s)
  if fail then s else abortIfUnconfirmed old was s

/-- No lane is left: SAFE cause 5, the multiplexer at no lane. -/
def noLaneLeft (s : State) : State :=
  modJct (fun j => { j with mux := none, mark := none, cross := none }) (takeSafe 5 (idleLinks s))

/-- The active lane l has the code c, the other lane the code o. -/
def activeVerdict (l : Lane) (c o : Nat) (s : State) : State :=
  let ready := roleOf s l.other == .standby && o == 0
  if isFail s l c then
    if ready then unplannedCrossover l c true s
    else if c = 3 ∧ 2 ≤ (s.jct.lane l.other).devRun then takeSafe 2 s
    else noLaneLeft (failLane l c s)
  else if isDemote s l c && ready then unplannedCrossover l c false s
  else s

/-- A lane other than the active one has the code c. -/
def otherVerdict (l : Lane) (c : Nat) (s : State) : State :=
  if isFail s l c then failLane l c s else if isDemote s l c then demoteOther l c s else s

/-- Both lanes in service fail in one verdict. -/
def bothFail (a b : Nat) (s : State) : State :=
  if a = 3 ∧ b = 3 then takeSafe 2 s
  else if a = 4 ∨ b = 4 then takeSafe 3 s
  else noLaneLeft (failLane .b b (failLane .a a s))

/-- The verdicts combined (R277): a STOP with the other lane hot comes first. -/
def combineVerdicts (a b : Nat) (s : State) : State :=
  if (a = 4 ∧ hotLane s .b) ∨ (b = 4 ∧ hotLane s .a) then takeSafe 3 s
  else if isFail s .a a ∧ isFail s .b b ∧ inService s .a ∧ inService s .b then bothFail a b s
  else
    match activeLane s with
    | some .a => otherVerdict .b b (activeVerdict .a a b s)
    | some .b => otherVerdict .a a (activeVerdict .b b a s)
    | none => otherVerdict .b b (otherVerdict .a a s)

/-- VERDICT_TAKE_EFFECT at the decision boundary. -/
def verdictTakeEffectEffect (s : State) : State :=
  match s.jct.decision with
  | none => s
  | some d =>
    if junctionRuns s ∧ d.at_ ≤ s.clk.period then
      recheckSpares (combineVerdicts d.codeA.toNat d.codeB.toNat (modJct (fun j => { j with decision := none }) s))
    else s

/-- VERDICT_TAKE_EFFECT. -/
def execVerdictTakeEffect (s : State) : Host.Outcome State Fault Refusal := .next (verdictTakeEffectEffect s)

/-! ## Crossovers (R278, R280) -/

/-- The steering reaches the new lane. -/
def steerTo (l : Lane) (s : State) : State :=
  sendFrames
    (modJct (fun j => { j with mux := some l, cross := none, crossovers := j.crossovers + 1, lastAt := BitVec.ofNat 64 s.clk.period }) s)

/-- CROSSOVER_OUTPUT_ENABLE at n + 3: the new lane's outputs leave and RUN becomes DEGRADED. -/
def crossoverEnableEffect (s : State) : State :=
  match s.jct.cross with
  | none => s
  | some c =>
    if junctionRuns s ∧ c.planned = false ∧ c.at_ ≤ s.clk.period then
      let s := steerTo c.lane s
      if s.modes.mode = .run ∧ laneCount s < 2 then shiftMode .degraded s else s
    else s

/-- CROSSOVER_OUTPUT_ENABLE. -/
def execCrossoverOutputEnable (s : State) : Host.Outcome State Fault Refusal := .next (crossoverEnableEffect s)

/-- PLANNED_CROSSOVER_REQUEST: a write of 1 to 2100:04 waits for a share-cycle boundary. -/
def plannedRequestEffect (s : State) : State := modJct (fun j => { j with planReq := true, result := 1 }) s

/-- PLANNED_CROSSOVER_REQUEST. -/
def execPlannedCrossoverRequest (v : U8) (s : State) : Host.Outcome State Fault Refusal :=
  .next (hostRange (writable s) (v == 1) plannedRequestEffect s)

/-- Refusal code of a planned crossover; 0 where it is taken. -/
def plannedRefusal (s : State) : Nat :=
  if s.modes.mode ≠ .run then 2
  else
    match standbyLane s with
    | none => 3
    | some l =>
      if (s.jct.lane l).matches_.toNat < 1000 then 4
      else if s.sets.st = .swapPending ∨ s.modes.waiting.isSome then 5
      else 0

/-- PLANNED_CROSSOVER_TAKEN at the share-cycle boundary w - 40. -/
def plannedTakenEffect (s : State) : State :=
  if s.jct.planReq && atShare s && junctionRuns s && s.jct.cross.isNone then
    let s := modJct (fun j => { j with planReq := false }) s
    let code := plannedRefusal s
    match code, standbyLane s with
    | 0, some l => modJct (fun j => { j with cross := some { at_ := s.clk.period + 40, lane := l, cause := 0xFF, planned := true } }) s
    | _, _ => modJct (fun j => { j with result := BitVec.ofNat 8 code }) s
  else s

/-- PLANNED_CROSSOVER_TAKEN. -/
def execPlannedCrossoverTaken (s : State) : Host.Outcome State Fault Refusal := .next (plannedTakenEffect s)

/-- PLANNED_CROSSOVER at cycle 0 of w: straight to the new lane; the old one is STANDBY at once, unless its image failed (R407). -/
def plannedCrossoverEffect (s : State) : State :=
  match s.jct.cross with
  | none => s
  | some c =>
    if junctionRuns s ∧ c.planned ∧ c.at_ ≤ s.clk.period ∧ roleOf s c.lane = .standby then
      let old := c.lane.other
      let n := (s.jct.lane c.lane).matches_
      let s := steerTo c.lane (moveToLane c.lane 0xFF (setRole old .standby s))
      let s := modJct (fun j => (j.modLane old fun (k : JLane) => { k with matches_ := n })) (modJct (fun j => { j with result := 0 }) s)
      let d := (s.lane old).slots
      if (d.slot d.current).failed then restartLane 13 old s else s
    else s

/-- PLANNED_CROSSOVER. -/
def execPlannedCrossover (s : State) : Host.Outcome State Fault Refusal := .next (plannedCrossoverEffect s)

/-! ## Releases (R277) -/

/-- A write to 2100:05: an EXCLUDED lane restarts at boot step 2, and so does one in boot-ROM recovery. -/
def releaseEffect (l : Lane) (s : State) : State :=
  if roleOf s l = .excluded ∨ (s.lane l).ctl.recovery then
    modJct (fun j => { j with result := 0 }) (setRole l .booting (resetLane l s))
  else modJct (fun j => { j with result := 7 }) s

/-- RELEASE_EXCLUDED_LANE. -/
def execReleaseExcludedLane (v : U8) (s : State) : Host.Outcome State Fault Refusal :=
  .next (hostRange (writable s) (laneOfNum v.toNat).isSome (fun s => match laneOfNum v.toNat with
    | some l => releaseEffect l s
    | none => s) s)

/-- FAILED_LANE_RELEASE: the 60 s of a lane failed with code 4 are over. -/
def failedReleaseEffect (l : Lane) (s : State) : State :=
  if (s.jct.lane l).held && roleOf s l == .failed && !s.jct.lost then
    let s := modJct (fun j => j.modLane l fun (k : JLane) => { k with held := false }) s
    setRole l .booting s
  else s

/-- FAILED_LANE_RELEASE. -/
def execFailedLaneRelease (l : Lane) (s : State) : Host.Outcome State Fault Refusal := .next (failedReleaseEffect l s)

/-! ## Resynchronisation (R281, R282) -/

/-- The lane that may join: READY in its last health word, booted, SHADOWING without an attempt, or BOOTING. -/
def joiner (s : State) : Option Lane :=
  let ok := fun l =>
    let j := s.jct.lane l
    (j.role == .booting || (j.role == .shadowing && j.join.isNone)) && j.health.getLsbD 29 && j.beats && decide (7 ≤ (s.lane l).ctl.bootStep)
  match activeLane s with
  | some l => if ok l.other then some l.other else none
  | none => none

/-- First multiple of 40 that is at least n. -/
def ceil40 (n : Nat) : Nat := (n + 39) / 40 * 40

/-- RESYNC_JOIN_NAMED at a decision boundary c: the active lane names q. No join is named while a crossover runs (Table 13.10). -/
def joinNamedEffect (s : State) : State :=
  match joiner s with
  | none => s
  | some l =>
    if junctionRuns s ∧ s.jct.cross = none then
      let s := setRole l .shadowing s
      modJct (fun j => j.modLane l fun (k : JLane) => { k with join := some (ceil40 (s.clk.period + 80)), attempts := k.attempts + 1 }) s
    else s

/-- RESYNC_JOIN_NAMED. -/
def execResyncJoinNamed (s : State) : Host.Outcome State Fault Refusal := .next (joinNamedEffect s)

/-- The lane with an attempt in progress and its join period. -/
def joining (s : State) : Option (Lane × Nat) :=
  match s.jct.laneA.join, s.jct.laneB.join with
  | some q, _ => some (.a, q)
  | none, some q => some (.b, q)
  | none, none => none

/-- SNAPSHOT_SLOW_CAPTURE at cycle 0 of q - 40. -/
def slowCaptureEffect (s : State) : State :=
  match joining s with
  | none => s
  | some (l, q) =>
    if s.clk.period + 40 = q ∧ (activeLane s).isSome then modJct (fun j => j.modLane l fun (k : JLane) => { k with captured := true }) s else s

/-- SNAPSHOT_SLOW_CAPTURE. -/
def execSnapshotSlowCapture (s : State) : Host.Outcome State Fault Refusal := .next (slowCaptureEffect s)

/-- A link of the joining lane: states and expected SEQ from the active lane, its own receiver's measurements. -/
def joinLink (own act : Link) : Link :=
  { act with
    synced := own.synced, hold := own.hold, got := own.got, gotNext := own.gotNext, delays := own.delays, d := own.d, delayRun := own.delayRun, lastStatus := own.lastStatus
    lastOffset := own.lastOffset, serial := own.serial, cValid := own.cValid, cMissing := own.cMissing, cLate := own.cLate
    cCrc := own.cCrc, cType := own.cType, cSeq := own.cSeq, cOffset := own.cOffset, failures := own.failures }

/-- A thermal channel from the active lane with the joining lane's own accumulator. -/
def joinChan (own act : ThChan) : ThChan := { act with acc := own.acc }

/-- The loops of the active lane in the joining lane's own places. -/
def joinLoops (act : LaneState) (x : LaneState) : LaneState :=
  x.mapLoops fun i (p : Loop) => let k := act.loop i; { k with place := p.place, unplaced := p.unplaced }

/-- The state block a loop has in lane x. -/
def blockOf (x : LaneState) (i : LoopId) : StateBlock :=
  match (x.loop i).place with
  | some (t, k) => nth (nth x.tiles t).blocks k
  | none => StateBlock.zero

/-- The state blocks of the active lane, loop by loop, into the joining lane's slots. -/
def joinBlocks (act x : LaneState) : LaneState :=
  allLoops.foldl (fun (x : LaneState) i =>
    match (x.loop i).place with
    | some (t, k) => x.modTile t fun y => { y with blocks := put y.blocks k (blockOf act i) }
    | none => x) x

/-- Lane x in the state that the snapshot gives it (Table 13.8); its accumulators are its own. -/
def joinLane (act x : LaneState) : LaneState :=
  let h := x.share
  let x := { x with
    links := x.links.zipWith joinLink act.links
    share := (let k := act.share; { k with bayAcc := h.bayAcc, strAcc := h.strAcc })
    wp := (let w := act.wp; { w with relieving := x.wp.relieving, reliefs := x.wp.reliefs })
    th := (let t := act.th
           { t with bays := x.th.bays.zipWith joinChan act.th.bays, mods := x.th.mods.zipWith joinChan act.th.mods
                    strs := x.th.strs.zipWith joinChan act.th.strs, xfmr := joinChan x.th.xfmr act.th.xfmr })
    relay := act.relay, out := act.out, latched := act.latched
    ctl := (let c := x.ctl; { c with cont := act.ctl.cont, lock := act.ctl.lock, gens := act.ctl.gens })
    ks := replicate act.ks x.ks }
  joinBlocks act (joinLoops act x)

/-- RESYNC_JOIN at q; during a crossover the attempt is aborted and a new q follows (Table 13.10). -/
def resyncJoinEffect (s : State) : State :=
  match joining s, activeLane s with
  | some (l, q), some _ =>
    if s.clk.period < q ∨ (s.jct.lane l).joined then s
    else if s.jct.cross ≠ none ∨ (s.jct.lane l).captured = false ∨ s.jct.lost then setRole l .shadowing s
    else
      let s := s.modLane l (joinLane (s.lane l.other))
      modJct (fun j => j.modLane l fun (k : JLane) => { k with joined := true, joinMatches := 0 }) s
  | _, _ => s

/-- RESYNC_JOIN. -/
def execResyncJoin (s : State) : Host.Outcome State Fault Refusal := .next (resyncJoinEffect s)

/-- The joined lane has matched for 1,000 periods and its decision boundary q + 1,001 has come. -/
def resyncDone (s : State) (l : Lane) : Bool :=
  let j := s.jct.lane l
  match j.join with
  | some q => j.role == .shadowing && j.joined && decide (1000 ≤ j.joinMatches) && decide (q + 1001 ≤ s.clk.period)
  | none => false

/-- Lane l becomes STANDBY; DEGRADED becomes RUN (R57). -/
def completeResync (l : Lane) (s : State) : State :=
  let s := setRole l .standby s
  let s := modJct (fun j => j.modLane l fun (k : JLane) => { k with resyncs := k.resyncs + 1, aborted := 0 }) s
  let s := s.modLane l fun x => { x with slots := (let d := x.slots; { d with cleanSince := nowNs s })
                                         ctl := (let c := x.ctl; { c with bootStep := 8 }) }
  let s := evt (eventReq .resync 127 [laneNum (some l)]) s
  recheckSpares (if s.modes.mode = .degraded then shiftMode .run s else s)

/-- RESYNC_COMPLETE. -/
def resyncCompleteEffect (s : State) : State :=
  if !(junctionRuns s) then s
  else if resyncDone s .a then completeResync .a s else if resyncDone s .b then completeResync .b s else s

/-- RESYNC_COMPLETE. -/
def execResyncComplete (s : State) : Host.Outcome State Fault Refusal := .next (resyncCompleteEffect s)

/-! ## Self-tests (R283, Table 13.9) -/

/-- Blocks of 4 KiB in 16 MiB of SRAM and 2 GiB of LPDDR4. -/
def marchBlocks : Nat := 528384

/-- The march runs in lane l: standby and shadowing lanes always, the active lane while object 2120:02 is 1. -/
def marches (s : State) (l : Lane) : Bool := computing s l && (roleOf s l != .active || cfgB s 0x2120 2)

/-- One block tested; a failure sets MEMORY. -/
def marchLane (ok : Bool) (x : LaneState) : LaneState :=
  let last := marchBlocks ≤ x.ctl.marchPos + 1
  let x := { x with
    ctl := (let c := x.ctl
            { c with marchPos := if last then 0 else c.marchPos + 1, marchPasses := if last then c.marchPasses + 1 else c.marchPasses })
    health := (let h := x.health; { h with memory := h.memory || !ok }) }
  if ok then x else x.event (eventReq .memoryError 127 [])

/-- MEMORY_MARCH_BLOCK. -/
def execMemoryMarchBlock (l : Lane) (ok : Bool) (s : State) : Host.Outcome State Fault Refusal :=
  .next (if marches s l then s.modLane l (marchLane ok) else s)

/-- A receiver of an untyped link fails its loop test: TEST_FAIL, and the link no longer counts as a spare. -/
def rxTestLane (n : Nat) (x : LaneState) : LaneState :=
  let x := { x with
    ctl := (let c := x.ctl; { c with failedRx := (c.failedRx ++ [n]).eraseDups })
    health := (let h := x.health; { h with testFail := true }) }
  x.event (eventReq .receiverFailed 127 [n])

/-- RECEIVER_LOOP_TEST. -/
def execReceiverLoopTest (l : Lane) (link : Fin 64) (ok : Bool) (s : State) : Host.Outcome State Fault Refusal :=
  .next (if computing s l && linkType s link == 0 && !ok then recheckSpares (s.modLane l (rxTestLane link)) else s)

/-! ## Junction loss and restart (R276, R284) -/

/-- JUNCTION_RESTART: the latched steering and the roles are adopted, the match counts are 0; SAFE_N follows the mode. -/
def junctionRestartEffect (s : State) : State :=
  if s.jct.lost ∧ s.modes.mode ≠ .boot ∧ s.modes.mode ≠ .backup ∧ !(s.rails.out.contains .vjct) then
    let low := s.modes.mode == .safe && s.modes.safe.isNone && s.jct.safeDue.isNone
    let f := fun (k : JLane) => { k with matches_ := 0, entry := none, prevAbsent := false }
    let s := modJct (fun j => { j with lost := false, ready := true, laneA := f j.laneA, laneB := f j.laneB
                                       safeN := if low || s.rails.ringHeld then .low else .hiZ }) s
    bothLanes (fun x => { x with health := (let h := x.health; { h with jctLost := false }) }) s
  else s

/-- JUNCTION_RESTART. -/
def execJunctionRestart (s : State) : Host.Outcome State Fault Refusal := .next (junctionRestartEffect s)

/-- JUNCTION_ROM_CHECK: a failure is handled as VJCT out of range. -/
def execJunctionRomCheck (ok : Bool) (s : State) : Host.Outcome State Fault Refusal :=
  .next (if ok then s else junctionLose s)

/-! ## Status balls (R285) -/

/-- The lane LANE_ACT names: the active lane, through the gap period still the old one (Table 13.6). -/
def shownLane (s : State) : Option Lane :=
  match s.jct.mux, s.jct.cross with
  | none, some c => some c.lane.other
  | _, _ => activeLane s

/-- LANE_ACT: low while Lane A is ACTIVE, high while Lane B is, high impedance while no lane is. -/
def laneAct (s : State) : PinLevel :=
  match shownLane s with
  | some .a => .low
  | some .b => .high
  | none => .hiZ

/-- FAULT_N is driven low. -/
def faultN (s : State) : Bool :=
  s.modes.mode == .boot || s.jct.lost || (s.modes.mode != .backup && decide (laneCount s < 2))

end Sys2Proof.Machine
end

