-- ==== Sys2Proof/Machine/BackupDom.lean ====
section
/-! DEFINITION. The backup domain (chapter 14): the RTC and its alarm (R288-R291), wake-up (R63), the tamper inputs (R296, R297) and
device-security tamper (R298-R300). -/

namespace Sys2Proof.Machine

/-! ## RTC (R288-R291) -/

/-- Site time comes from PTP: sources 1 and 2 of Table 16.4. -/
def fromPtp (s : State) : Bool := s.site.source == 1 || s.site.source == 2

/-- RTC_SITE_TIME_COMPARE, every 10 s while site time from PTP is valid: a difference above 100 ms steps the RTC, which ends its
invalidity. -/
def rtcCompareEffect (s : State) : State :=
  if (activeLane s).isSome && fromPtp s && decide (s.site.compared + 10000000000 ≤ nowNs s) then
    let s := { s with site := (let t := s.site; { t with compared := nowNs s }) }
    let new := timeTicks s.site.ns
    let step : Int := (new : Int) - s.bk.rtc.toNat
    if 100 * 2 ^ 15 < step.natAbs * 1000 then
      let s := evt (eventReq .rtcStep 127 [s.bk.rtc.toNat, new]) s
      modBk (fun k => { k with rtc := BitVec.ofNat 64 new, invalid := false }) s
    else s
  else s

/-- RTC_SITE_TIME_COMPARE. -/
def execRtcSiteTimeCompare (s : State) : Host.Outcome State Fault Refusal := .next (rtcCompareEffect s)

/-- The power controller is asked to restore the rails, with WAKE_RTC (R63, Table 3.8). -/
def wakeBy (n : Nat) (s : State) : State := latchCause n (modBk (fun k => { k with pwrEn := true, wakeArmed := none }) s)

/-- RTC_ALARM: the RTC has reached an alarm value other than 0 with RTC_INVALID clear; outside BACKUP an event only. -/
def rtcAlarmEffect (s : State) : State :=
  if s.bk.alarm ≠ 0 ∧ s.bk.invalid = false ∧ s.bk.alarm.toNat ≤ s.bk.rtc.toNat then
    if s.modes.mode = .backup then wakeBy 1 s else evt (eventReq .rtcAlarm 127 []) s
  else s

/-- RTC_ALARM. -/
def execRtcAlarm (s : State) : Host.Outcome State Fault Refusal := .next (rtcAlarmEffect s)

/-- RTC_WRITE: object 2600:01. -/
def rtcWriteEffect (v : U64) (s : State) : State := reselect none (modBk (fun k => { k with rtc := v, invalid := false }) s)

/-- RTC_WRITE. -/
def execRtcWrite (v : U64) (s : State) : Host.Outcome State Fault Refusal := .next (hostWrite (writable s) (rtcWriteEffect v) s)

/-- PFI_WAKE: PFI rises above its reference in BACKUP. -/
def execPfiWake (s : State) : Host.Outcome State Fault Refusal :=
  .next (if s.modes.mode = .backup then modBk (fun k => { k with pfActive := false }) (wakeBy 1 s) else s)

/-- WAKE_D: the channel D wake detector, armed at the entry into BACKUP, hears its edge or its frame (R342). -/
def execWakeD (s : State) : Host.Outcome State Fault Refusal :=
  .next (if s.modes.mode = .backup ∧ s.bk.wakeArmed.isSome then wakeBy 2 s else s)

/-! ## Tamper inputs (R296, R297) -/

/-- An input held its active level for the debounce at RTC value t. -/
def TampIn.latch (t : U64) (valid : Bool) (k : TampIn) : TampIn :=
  { latched := true, first := if k.count = 0 then t else k.first, latest := t, latestValid := valid
    count := if k.count = 0xFFFF then k.count else k.count + 1, acked := false }

/-- TAMPER_INPUT_LATCH, in every mode; an unused input latches nothing. -/
def tamperLatchEffect (i : Nat) (s : State) : State :=
  if cfgN s (0x2621 + i) 1 = 0 then s
  else modBk (fun k => { k with inputs := upd k.inputs i (TampIn.latch s.bk.rtc (!s.bk.invalid)) }) s

/-- TAMPER_INPUT_LATCH. -/
def execTamperInputLatch (i : Fin 4) (s : State) : Host.Outcome State Fault Refusal := .next (tamperLatchEffect i s)

/-- Inputs whose latest setting waits to be handed over. -/
def toHandOver (s : State) : List Nat := (List.range 4).filter fun i => let k := nth s.bk.inputs i; k.latched && !k.acked

/-- TAMPER_HANDOVER: the active lane sends the latches in the TAMPER message; each is written as an event. The section answers with
BARRIER_TAMPER. -/
def tamperHandoverEffect (s : State) : State :=
  if (activeLane s).isSome then (toHandOver s).foldl (fun s i => evt (eventReq .tamperLatch i [i]) s) s else s

/-- TAMPER_HANDOVER. -/
def execTamperHandover (s : State) : Host.Outcome State Fault Refusal := .next (tamperHandoverEffect s)

/-- The latches a mask names may be cleared: their latest setting was acknowledged. -/
def mayClear (s : State) (m : U8) : Bool :=
  (List.range 4).all fun i => let k := nth s.bk.inputs i; !(m.getLsbD i) || !k.latched || k.acked

/-- The latches a mask names are cleared. -/
def tamperClearEffect (m : U8) (s : State) : State :=
  modBk (fun k => { k with inputs := k.inputs.mapIdx fun i (t : TampIn) => if m.getLsbD i then { t with latched := false } else t }) s

/-- TAMPER_LATCH_CLEAR: a write to 2620:01. -/
def execTamperLatchClear (mask : U8) (s : State) : Host.Outcome State Fault Refusal :=
  .next (hostWrite (writable s && mayClear s mask) (tamperClearEffect mask) s)

/-! ## Device-security tamper (R298-R300) -/

/-- A detection in lane x: an operation in progress is aborted, scratch memory and cache are zeroised. -/
def securityLane (x : LaneState) : LaneState := { x with ks := (x.ks.tamperAbort).zeroise }

/-- A detection in the lanes it affects. -/
def securityLanes (scope : TamperScope) (s : State) : State :=
  match scope with
  | .lane l => s.modLane l securityLane
  | .both => bothLanes securityLane s

/-- Enclosure breach: latched in BACKUP; else the life cycle moves from FIELD to RETURN and the device restarts. -/
def breachEffect (s : State) : State :=
  if s.modes.mode = .backup ∨ s.rails.inReset then modBk (fun k => { k with breach := true }) s
  else if lifeCode s.life.fuse = 2 then plainReset 15 (safeExit (lifeDestroy 3 s))
  else s

/-- SECURITY_TAMPER: counted and recorded; after a power-fail warning no event is written. Classes 1 and 2 need the main supplies; the
mesh affects both lanes. -/
def securityTamperEffect (cls : Nat) (scope : TamperScope) (s : State) : State :=
  if s.modes.mode = .backup ∧ cls ≠ 2 then s
  else
    let s := modBk (fun k => { k with secCounts := upd k.secCounts cls (· + 1) }) s
    let s := if s.bk.pfActive then s else evt (eventReq .securityTamper 127 [cls + 1]) s
    let s := securityLanes (if cls = 2 then .both else scope) s
    if cls = 2 then breachEffect s else s

/-- SECURITY_TAMPER. -/
def execSecurityTamper (cls : Fin 3) (scope : TamperScope) (s : State) : Host.Outcome State Fault Refusal :=
  .next (securityTamperEffect cls scope s)

end Sys2Proof.Machine
end

