-- ==== Sys2Proof/Machine/Quadrille.lean ====
section
/-! DEFINITION. The site bus as configured: bit timing (R324), filters (R325, R326), quadrille images with their windows and frame times
(R334, R337), and the commit checks of both. -/

namespace Sys2Proof.Machine

/-! ## Bit timing (R324, Table 16.2), in units of 1/80 us -/

/-- Field [hi:lo] of a number. -/
def bitsOf (v hi lo : Nat) : Nat := v / 2 ^ lo % 2 ^ (hi + 1 - lo)

/-- BRP of a timing. -/
def tBrp (v : Nat) : Nat := bitsOf v 31 26 + 1
/-- TSEG1 of a timing. -/
def tSeg1 (v : Nat) : Nat := bitsOf v 25 17 + 1
/-- TSEG2 of a timing. -/
def tSeg2 (v : Nat) : Nat := bitsOf v 16 10 + 1
/-- SJW of a timing. -/
def tSjw (v : Nat) : Nat := bitsOf v 9 3 + 1

/-- Length of a bit. -/
def bitTime (v : Nat) : Nat := tBrp v * (1 + tSeg1 v + tSeg2 v)

/-- Nominal bit of channel c. -/
def nomBit (s : State) (c : Nat) : Nat := bitTime (cfgN s (0x3810 + c) 2)
/-- Data bit of channel c. -/
def dataBit (s : State) (c : Nat) : Nat := bitTime (cfgN s (0x3810 + c) 3)

/-- The timing of channel c lies inside Table 16.2. -/
def timingOk (s : State) (c : Nat) : Bool :=
  let n := cfgN s (0x3810 + c) 2
  let d := cfgN s (0x3810 + c) 3
  decide (tBrp n ≤ 32 ∧ tSeg1 n ≤ 256 ∧ tSeg2 n ≤ 128 ∧ tSjw n ≤ tSeg2 n)
    && decide (tBrp d ≤ 32 ∧ tSeg1 d ≤ 32 ∧ tSeg2 d ≤ 16 ∧ tSjw d ≤ tSeg2 d)
    && decide (80 ≤ bitTime n ∧ bitTime n ≤ 640) && decide (16 ≤ bitTime d ∧ bitTime d ≤ bitTime n)

/-- Frame-mode wake runs at 125, 250 or 500 kbit/s only (R341). -/
def wakeRateOk (s : State) (c : Nat) : Bool :=
  cfgN s (0x3810 + c) 8 != 1 || nomBit s c == 640 || nomBit s c == 320 || nomBit s c == 160

/-! ## Filters (R325, R326) -/

/-- Number of user entries of channel c. -/
def userFilters (s : State) (c : Nat) : Nat := (cfgBytes s (0x3810 + c) 0xE).length / 12

/-- MATCH, MASK and CONTROL of user entry i. -/
def filterEntry (s : State) (c i : Nat) : Nat × Nat × Nat :=
  let b := cfgBytes s (0x3810 + c) 0xE
  (field b (12 * i) 4, field b (12 * i + 4) 4, field b (12 * i + 8) 2)

/-- A user entry matches a frame. -/
def filterMatches (f : CanFrame) (e : Nat × Nat × Nat) : Bool :=
  let idf := bitsOf e.2.2 14 13
  let ff := bitsOf e.2.2 12 11
  decide (bitsOf e.2.2 15 15 = 1) && (idf == 2 || idf == (if f.extended then 1 else 0)) && (ff == 2 || ff == (if f.fd then 1 else 0))
    && (BitVec.ofNat 32 (f.ident.toNat) ^^^ BitVec.ofNat 32 e.1) &&& BitVec.ofNat 32 e.2.1 == 0

/-- Node-ID of the device. -/
def nodeId (s : State) : Nat := cfgN s 0x1FA0 1

/-- Channels with dictionary services, NMT, heartbeat and PDOs (Table 16.1). -/
def dictChannel (c : Nat) : Bool := c != 2

/-- Identifier of receive PDO n, where its communication object names one. -/
def rpdoId (s : State) (n : Nat) : Option Nat :=
  let v := rwN s (0x1400 + n) 1
  if v / 2 ^ 31 = 0 ∧ v % 2 ^ 29 ≠ 0 then some (v % 2 ^ 29) else none

/-- Receive PDOs in use. -/
def rpdosUsed (s : State) : Nat := ((List.range 16).filter fun n => (rpdoId s n).isSome).length

/-- Service filters of channel c: the number k of R326. -/
def serviceFilters (s : State) (c : Nat) : Nat := (if dictChannel c then 2 + rpdosUsed s else 2) + 1

/-- Identifier of a reference message from node m. -/
def refIdent (s : State) (m : Nat) : Nat := cfgN s 0x3800 0xB + m

/-- A reference message by its identifier. -/
def isRefIdent (s : State) (f : CanFrame) : Bool :=
  !f.extended && decide (cfgN s 0x3800 0xB + 1 ≤ f.ident.toNat ∧ f.ident.toNat ≤ cfgN s 0x3800 0xB + 127)

/-- Identifier of the federation share frame; the report of node n follows at + n. -/
def fedBase (s : State) : Nat := cfgN s 0x3230 6

/-- A federation frame by its identifier. -/
def isFedIdent (s : State) (f : CanFrame) : Bool := !f.extended && decide (fedBase s ≤ f.ident.toNat ∧ f.ident.toNat ≤ fedBase s + 127)

/-- Federation frames have the form of R339. -/
def fedFormOk (s : State) (f : CanFrame) : Bool :=
  if f.ident.toNat = fedBase s then f.fd && f.dlc == 15 && field f.data 0 1 == 1 else f.fd && f.dlc == 13 && field f.data 0 1 == 1

/-- A service filter of channel c takes the frame. -/
def serviceTakes (s : State) (c : Nat) (f : CanFrame) : Bool :=
  let i := f.ident.toNat
  isRefIdent s f || (if dictChannel c then
      (!f.extended && (i == 0 || (decide (0x600 ≤ i ∧ i ≤ 0x67F) && i == 0x600 + nodeId s)))
        || (List.range 16).any fun n => rpdoId s n == some i
    else isFedIdent s f)

/-! ## Quadrille images (R334) -/

/-- Image of channel c. -/
def quadImage (s : State) (c : Nat) : List Byte := cfgBytes s (0x3810 + c) 0xF
/-- COLUMNS. -/
def qCols (b : List Byte) : Nat := field b 1 1
/-- CYCLES. -/
def qCycles (b : List Byte) : Nat := field b 2 1
/-- BASIC_LEN, us. -/
def qLen (b : List Byte) : Nat := field b 4 4
/-- MATRIX_ID. -/
def qMatrix (b : List Byte) : Nat := field b 8 4
/-- START of column j, us. -/
def qStart (b : List Byte) (j : Nat) : Nat := field b (16 + 4 * j) 4
/-- Offset of the cell of cycle c, column j. -/
def qCell (b : List Byte) (c j : Nat) : Nat := 16 + 4 * qCols b + 4 * (c * qCols b + j)
/-- KIND of a cell. -/
def qKind (b : List Byte) (c j : Nat) : Nat := field b (qCell b c j) 1
/-- OWNER of a cell. -/
def qOwner (b : List Byte) (c j : Nat) : Nat := field b (qCell b c j + 1) 1
/-- CODE of a cell. -/
def qCode (b : List Byte) (c j : Nat) : Nat := field b (qCell b c j + 2) 2
/-- End of column j, us. -/
def qEnd (b : List Byte) (j : Nat) : Nat := if j + 1 < qCols b then qStart b (j + 1) else qLen b

/-- Channel c is event-triggered: no image, or one without columns. -/
def eventTriggered (s : State) (c : Nat) : Bool := (quadImage s c).isEmpty || qCols (quadImage s c) == 0

/-- This hub is the time master of channel c (Table 16.1, R338). -/
def isMaster (s : State) (c : Nat) : Bool := c != 2 || !(cfgB s 0x3230 1) || leads s

/-- This hub can be the time master of channel c. -/
def canBeMaster (s : State) (c : Nat) : Bool := c != 2 || !(cfgB s 0x3230 1) || cfgN s 0x3230 3 != 255

/-- Site time in us. -/
def siteMicros (s : State) : Nat := s.site.ns / 1000

/-- Number of the running basic cycle, counted from 2000. -/
def basicCycle (s : State) (c : Nat) : Nat := let l := qLen (quadImage s c); if l = 0 then 0 else siteMicros s / l

/-! ## Frame times (R337) -/

/-- Ceiling of 1.25 n. -/
def stuffed (n : Nat) : Nat := (5 * n + 3) / 4

/-- T_max of a frame with n data bytes on channel c, in 1/80 us. -/
def tMax (s : State) (c : Nat) (extended fd brs : Bool) (n : Nat) : Nat :=
  if fd then
    (stuffed (if extended then 36 else 17) + 13) * nomBit s c
      + (stuffed (5 + 8 * n) + 32) * (if brs then dataBit s c else nomBit s c)
  else (stuffed ((if extended then 54 else 34) + 8 * n) + 13) * nomBit s c

/-- The channel sends CAN FD. -/
def sendsFd (s : State) (c : Nat) : Bool := decide (cfgN s (0x3810 + c) 4 % 2 = 1)
/-- The channel sends with BRS. -/
def sendsBrs (s : State) (c : Nat) : Bool := sendsFd s c && decide (cfgN s (0x3810 + c) 4 / 2 % 2 = 1)

/-- Bytes of transmit PDO n by its mapping. -/
def tpdoBytes (s : State) (n : Nat) : Nat :=
  ((List.range (rwN s (0x1A00 + n) 0)).foldl (fun (a : Nat) k => a + rwN s (0x1A00 + n) (k + 1) % 256) 0 + 7) / 8

/-- Transmit PDO n has an extended identifier. -/
def tpdoExtended (s : State) (n : Nat) : Bool := decide (rwN s (0x1800 + n) 1 / 2 ^ 29 % 2 = 1)

/-- T_max of the frame a code names; none for frames of other nodes. -/
def codeTime (s : State) (c code : Nat) : Option Nat :=
  if code = 1 then some (tMax s c false true true 12)
  else if 0x10 ≤ code ∧ code ≤ 0x1F then some (tMax s c (tpdoExtended s (code - 0x10)) (sendsFd s c) (sendsBrs s c) (tpdoBytes s (code - 0x10)))
  else if code = 0x20 then some (tMax s c false (sendsFd s c) (sendsBrs s c) 1)
  else if code = 0x30 then some (tMax s c false true (sendsBrs s c) 64)
  else if code = 0x31 then some (tMax s c false true (sendsBrs s c) 32)
  else none

/-! ## Commit checks of a quadrille (R335) -/

/-- One cell keeps Table 16.6 and, where the device would send in it, fits its frame. -/
def cellOk (s : State) (c : Nat) (b : List Byte) (y j : Nat) : Bool :=
  let k := qKind b y j
  let o := qOwner b y j
  let code := qCode b y j
  let form :=
    if k = 1 then
      ((decide (1 ≤ o ∧ o ≤ 127) || o == 0xFF)
        && (code == 1 || decide (0x10 ≤ code ∧ code ≤ 0x1F) || code == 0x20 || code == 0x30 || code == 0x31 || decide (0x100 ≤ code)))
    else decide (k ≤ 2) && o == 0 && code == 0
  let ref := if j = 0 then k == 1 && o == 0xFF && code == 1 else !(k == 1 && code == 1)
  let mine := k == 1 && (o == nodeId s || (o == 0xFF && canBeMaster s c))
  let fits :=
    match codeTime s c code with
    | some t => decide (t ≤ (qEnd b j - qStart b j) * 80)
    | none => true
  form && ref && (!mine || fits)

/-- Arbitrating windows over the matrix cycle, start and end in us. -/
def arbWindows (b : List Byte) : List (Nat × Nat) :=
  (List.range (qCycles b)).flatMap fun y =>
    ((List.range (qCols b)).filter fun j => qKind b y j == 2).map fun j => (y * qLen b + qStart b j, y * qLen b + qEnd b j)

/-- The longest wait for an arbitrating window, starting from the last instant at which a 64-byte base frame still fits, is at most
3 ms. -/
def gapOk (s : State) (c : Nat) (b : List Byte) : Bool :=
  let ws := arbWindows b
  let t := tMax s c false (sendsFd s c) (sendsBrs s c) 64
  let total := qLen b * qCycles b
  let nexts := match ws with
    | [] => []
    | w :: rest => rest ++ [(w.1 + total, w.2 + total)]
  !ws.isEmpty && (ws.zip nexts).all fun p =>
    let last := p.1.2 * 80 - t
    p.1.2 * 80 < p.1.1 * 80 + t || decide (p.2.1 * 80 ≤ last + 3000 * 80)

/-- The quadrille image of channel c passes commit check 4. -/
def quadOk (s : State) (c : Nat) : Bool :=
  let b := quadImage s c
  if b.isEmpty then true
  else if field b 0 1 ≠ 1 ∨ field b 3 1 ≠ 0 ∨ field b 12 4 ≠ 0 then false
  else if qCols b = 0 then b.length == 16
  else
    let C := qCols b
    let K := qCycles b
    let l := qLen b
    decide (C ≤ 64) && [1, 2, 4, 8, 16, 32].contains K && b.length == 16 + 4 * C + 4 * C * K
      && decide (1000 ≤ l ∧ l ≤ 100000) && qMatrix b != 0
      && (if c = 2 then 100000 else 1000000) % (l * K) == 0
      && qStart b 0 == 0 && ((List.range (C - 1)).all fun j => decide (qStart b j < qStart b (j + 1))) && decide (qStart b (C - 1) < l)
      && ((List.range K).all fun y => (List.range C).all fun j => cellOk s c b y j)
      && (c == 2 || gapOk s c b)

/-- User filters of channel c are whole, without reserved fields, and fit beside the service filters. -/
def filtersOk (s : State) (c : Nat) : Bool :=
  let b := cfgBytes s (0x3810 + c) 0xE
  b.length % 12 == 0 && decide (serviceFilters s c + userFilters s c ≤ 64)
    && (List.range (userFilters s c)).all fun i =>
      let e := (filterEntry s c i).2.2
      bitsOf e 14 13 != 3 && bitsOf e 12 11 != 3 && bitsOf e 10 9 != 3

end Sys2Proof.Machine
end

