-- ==== Sys2Proof/Machine/Can.lean ====
section
/-! DEFINITION. Frames on the site bus (R323-R343): reception with filters and duplicates, transmission, cancellation, bus-off, sleep and
wake, reference messages and the schedule, and the layout of the federation's frames. -/

namespace Sys2Proof.Machine

/-- Channel c. -/
def chanOf (s : State) (c : Nat) : Channel := nth s.chans c

/-- Frames waiting in the transmit queues. -/
def txCount (h : Channel) : Nat := sumNat (h.tx.map List.length)

/-- One more in a 32-bit counter. -/
def bump (n : U32) (k : Nat) : U32 := n + BitVec.ofNat 32 k

/-! ## Reception (R325-R327, R331) -/

/-- The channel's controller hears the bus. -/
def Channel.hears (h : Channel) : Bool := h.talks || h.st == .listenOnly

/-- A frame enters receive queue q; a full queue of 64 drops it, counted (R27, R327). -/
def Channel.take (q : Nat) (f : CanFrame) (h : Channel) : Channel :=
  if 64 ≤ (nth h.rx q).length then { h with dropped := bump h.dropped 1 } else { h with rx := upd h.rx q fun l => l ++ [f] }

/-- A frame enters the monitor ring of 64 entries. -/
def Channel.watch (t : U64) (f : CanFrame) (h : Channel) : Channel := { h with monitor := lastN 64 (h.monitor ++ [(t, f)]) }

/-- Frames accepted within w ns before now. -/
def Channel.remember (now w : Nat) (f : CanFrame) (h : Channel) : Channel :=
  { h with history := (h.history.filter fun p => decide (now ≤ p.1 + w)) ++ [(now, f)] }

/-- Duplicate window in ns. -/
def dupWindow (s : State) : Nat := cfgN s 0x3800 2 * 1000000

/-- Identifier, DLC and data are equal. -/
def sameFrame (a b : CanFrame) : Bool := a.ident == b.ident && a.extended == b.extended && a.dlc == b.dlc && a.data == b.data

/-- The frame repeats one accepted on the other channel of the pair within the window (R327). -/
def isDuplicate (s : State) (c : Nat) (f : CanFrame) : Bool :=
  match partner c with
  | some d => cfgB s 0x3800 1
      && (chanOf s d).history.any fun p => decide (s.clk.ns ≤ p.1 + dupWindow s) && sameFrame p.2 f
  | none => false

/-- Bytes of receive PDO n by its mapping. -/
def rpdoBytes (s : State) (n : Nat) : Nat :=
  ((List.range (rwN s (0x1600 + n) 0)).foldl (fun (a : Nat) k => a + rwN s (0x1600 + n) (k + 1) % 256) 0 + 7) / 8

/-- The data of a receive PDO is shorter than its mapping. -/
def shortRpdo (s : State) (c : Nat) (f : CanFrame) : Bool :=
  dictChannel c && (List.range 16).any fun n => rpdoId s n == some f.ident.toNat && decide (f.data.length < rpdoBytes s n)

/-- The first user entry that matches. -/
def userMatch (s : State) (c : Nat) (f : CanFrame) : Option (Nat × Nat × Nat) :=
  ((List.range (userFilters s c)).map (filterEntry s c)).find? (filterMatches f)

/-- What the filters do with a frame: service filters first, then the user entries in order; MON copies to the monitor ring. -/
def filterFrame (s : State) (c : Nat) (f : CanFrame) (h : Channel) : Channel :=
  let keep := Channel.remember s.clk.ns (dupWindow s) f
  if serviceTakes s c f then keep (h.take 0 f)
  else
    match userMatch s c f with
    | none => h
    | some e =>
      let h := if bitsOf e.2.2 8 8 = 1 then h.watch (siteTime s) f else h
      let act := bitsOf e.2.2 10 9
      if act = 1 then keep (h.take 0 f) else if act = 2 then keep (h.take 1 f) else h

/-- Reception of a frame by a channel that hears the bus. -/
def receiveFrame (s : State) (c : Nat) (f : CanFrame) (h : Channel) : Channel :=
  let h := { h with received := bump h.received 1, rec_ := min 127 (h.rec_ - 1)
                    st := if h.st = .integrating then .errorActive else h.st }
  if f.remote then { h with dropped := bump h.dropped 1 }
  else if isDuplicate s c f then { h with duplicates := bump h.duplicates 1 }
  else if c == 2 && isFedIdent s f && !(fedFormOk s f) then { h with fedRefused := bump h.fedRefused 1 }
  else if shortRpdo s c f then { h with dropped := bump h.dropped 1 }
  else filterFrame s c f h

/-- CAN_FRAME_RECEIVED. -/
def execCanFrameReceived (c : Fin 4) (f : CanFrame) (s : State) : Host.Outcome State Fault Refusal :=
  .next (if awake s && (chanOf s c).hears then modChan c (receiveFrame s c f) s else s)

/-! ## Transmission (R328, R337) -/

/-- Arbitration order of ISO 11898-1: a base frame wins over an extended one with the same leading bits. -/
def arbKey (f : CanFrame) : Nat :=
  let i := f.ident.toNat
  if f.extended then i / 2 ^ 18 * 2 ^ 19 + 2 ^ 18 + i % 2 ^ 18 else i % 2 ^ 11 * 2 ^ 19

/-- us since the start of the running basic cycle. -/
def cyclePos (s : State) (c : Nat) : Nat := let l := qLen (quadImage s c); if l = 0 then 0 else siteMicros s % l

/-- Column at that instant. -/
def columnNow (s : State) (c : Nat) : Nat :=
  let b := quadImage s c
  countTrue (qCols b) (fun j => decide (qStart b j ≤ cyclePos s c)) - 1

/-- A frame started now ends within the window that ends at e us (R337). -/
def fitsTo (s : State) (c : Nat) (f : CanFrame) (e : Nat) : Bool :=
  decide (cyclePos s c * 80 + tMax s c f.extended f.fd f.brs f.data.length ≤ e * 80)

/-- Cycle number in force. -/
def cycleNow (s : State) (c : Nat) : Nat :=
  let k := qCycles (quadImage s c)
  if (chanOf s c).sched = .master then (if k = 0 then 0 else basicCycle s c % k) else (chanOf s c).cycle

/-- The head of queue q may start now: TX0 in its exclusive window, TX1-TX3 in an arbitrating one that it fits; on an event-triggered
channel, or while the schedule is lost, whenever the bus is idle (R334, R337, R338). -/
def mayStart (s : State) (c q : Nat) (f : CanFrame) : Bool :=
  let h := chanOf s c
  let b := quadImage s c
  if eventTriggered s c || h.sched == .lost then true
  else
    match h.window with
    | some j => q == 0 && fitsTo s c f (qEnd b j)
    | none => q != 0 && qKind b (cycleNow s c) (columnNow s c) == 2 && fitsTo s c f (qEnd b (columnNow s c))

/-- The queue whose head wins arbitration, with the frame. -/
def nextToSend (s : State) (c : Nat) : Option (Nat × CanFrame) :=
  let heads := (List.range 4).filterMap fun q =>
    match (nth (chanOf s c).tx q).head? with
    | some f => if mayStart s c q f then some (q, f) else none
    | none => none
  heads.foldl (fun best p =>
    match best with
    | none => some p
    | some b => if arbKey p.2 < arbKey b.2 then some p else some b) none

/-- Error state by the transmit and receive error counts (R330). -/
def Channel.confine (h : Channel) : Channel :=
  if h.talks then { h with st := if 128 ≤ h.tec ∨ 128 ≤ h.rec_ then .errorPassive else .errorActive } else h

/-- The head of queue q leaves. -/
def Channel.pop (q : Nat) (h : Channel) : Channel := { h with tx := upd h.tx q List.tail }

/-- The transmission of the head of queue q ends: it completes, or an error destroys it and it stays for its repetition, unless a
cancel is held for it (R328, R329). -/
def Channel.sentEnd (q : Nat) (ok : Bool) (h : Channel) : Channel :=
  let held := h.cancelHeld == some q
  let h := { h with cancelHeld := if held then none else h.cancelHeld }
  if ok then (Channel.pop q { h with sent := bump h.sent 1, tec := h.tec - 1 }).confine
  else
    let h := { h with errors := bump h.errors 1, tec := h.tec + 8 }
    (if held then Channel.pop q { h with cancels := bump h.cancels 1 } else h).confine

/-- The lane marked active drives the bus (R272). -/
def drives (s : State) : Bool := (activeLane s).isSome && s.jct.mux == activeLane s

/-- CAN_FRAME_SENT. -/
def canFrameSentEffect (c : Nat) (ok : Bool) (s : State) : State :=
  if awake s && drives s && (chanOf s c).talks then
    match nextToSend s c with
    | some p => modChan c (Channel.sentEnd p.1 ok) s
    | none => s
  else s

/-- CAN_FRAME_SENT. -/
def execCanFrameSent (c : Fin 4) (ok : Bool) (s : State) : Host.Outcome State Fault Refusal := .next (canFrameSentEffect c ok s)

/-- A frame whose arbitration has not begun is removed and counted; a request for a head whose SOF has been sent is held (R329). -/
def Channel.cancel (q pos : Nat) (started : Bool) (h : Channel) : Channel :=
  if (nth h.tx q).length ≤ pos then h
  else if started && pos == 0 then { h with cancelHeld := some q }
  else { h with tx := upd h.tx q fun l => l.eraseIdx pos, cancels := bump h.cancels 1 }

/-- CAN_FRAME_CANCEL. -/
def execCanFrameCancel (c : Fin 4) (q : Fin 4) (pos : Nat) (started : Bool) (s : State) : Host.Outcome State Fault Refusal :=
  .next (modChan c (Channel.cancel q pos started) s)

/-! ## Bus-off (R330) -/

/-- Every queued frame is discarded and counted. -/
def Channel.flushTx (h : Channel) : Channel :=
  { h with dropped := bump h.dropped (txCount h), tx := List.replicate 4 [], cancelHeld := none, window := none }

/-- A channel goes bus-off at ns t; with n bus-offs within 60 s it is latched off. -/
def Channel.goOff (t n : Nat) (h : Channel) : Channel :=
  let h := h.flushTx
  let ts := (h.busOffTimes.filter fun p => decide (t < p + 60000000000)) ++ [t]
  { h with busOffs := bump h.busOffs 1, busOffTimes := ts, st := if n ≤ ts.length then .latchedOff else .busOff }

/-- The transmit error count exceeds 255. -/
def canBusOffEffect (c : Nat) (s : State) : State :=
  let h := chanOf s c
  if h.talks && decide (255 < h.tec) then
    evt (eventReq .busOff c []) (modChan c (Channel.goOff s.clk.ns (cfgN s (0x3810 + c) 7)) s)
  else s

/-- CAN_BUS_OFF. -/
def execCanBusOff (c : Fin 4) (s : State) : Host.Outcome State Fault Refusal := .next (canBusOffEffect c s)

/-- A channel starts again: error counts 0, integrating. -/
def Channel.restart (h : Channel) : Channel := { h with st := .integrating, tec := 0, rec_ := 0, wakeErrors := 0 }

/-- After the recovery sequence and the bus-off delay the channel rejoins error active. -/
def execCanBusOffRecovery (c : Fin 4) (s : State) : Host.Outcome State Fault Refusal :=
  .next (modChan c (fun (h : Channel) => if h.st = .busOff then { h with st := .errorActive, tec := 0, rec_ := 0 } else h) s)

/-- Command 3 on object 3810+x:0D. -/
def execChannelRestart (c : Fin 4) (s : State) : Host.Outcome State Fault Refusal :=
  .next (hostWrite (writable s)
    (modChan c fun (h : Channel) => if h.st = .latchedOff then { h.restart with busOffTimes := [] } else h) s)

/-! ## Sleep and wake (R340-R342) -/

/-- The sleep command is permitted. -/
def maySleep (s : State) (c : Nat) : Bool :=
  writable s && !(decide (c < 2) && servesSessions s) && !(c == 2 && cfgB s 0x3230 1) && (chanOf s c).st != .latchedOff

/-- Sleep after the wait of at most 100 ms: what remains queued is discarded and counted. -/
def Channel.sleep (h : Channel) : Channel :=
  if h.st = .off ∨ h.st = .sleep then h else { h.flushTx with st := .sleep, wakeErrors := 0 }

/-- CHANNEL_SLEEP: command 1 on object 3810+x:0D. -/
def execChannelSleep (c : Fin 4) (s : State) : Host.Outcome State Fault Refusal :=
  .next (hostWrite (maySleep s c) (modChan c Channel.sleep) s)

/-- Channel c wakes with its cause: it integrates, and an event is written (R340). -/
def wakeChannel (c : Nat) (cause : U8) (s : State) : State :=
  evt (eventReq .channelWake c [cause.toNat]) (modChan c (fun (h : Channel) => { h.restart with wakeCause := cause }) s)

/-- CHANNEL_WAKE_COMMAND: command 2 on object 3810+x:0D. -/
def execChannelWakeCommand (c : Fin 4) (s : State) : Host.Outcome State Fault Refusal :=
  .next (hostWrite (writable s) (fun s => if (chanOf s c).st = .sleep then wakeChannel c 4 s else s) s)

/-- A classical data frame matches the wake identifier, DLC and data of channel c (R341). -/
def wakeMatch (s : State) (c : Nat) (f : CanFrame) : Bool :=
  let w := cfgN s (0x3810 + c) 9
  let m := BitVec.ofNat 29 (cfgN s (0x3810 + c) 0xA)
  let d := BitVec.ofNat 64 (cfgN s (0x3810 + c) 0xC)
  decide (f.extended = decide (w / 2 ^ 31 % 2 = 1)) && (f.ident ^^^ BitVec.ofNat 29 w) &&& m == 0
    && f.dlc.toNat == cfgN s (0x3810 + c) 0xB && (d == 0 || BitVec.ofNat 64 (ofLe f.data) &&& d != 0)

/-- What a sleeping channel's detector hears, by its wake mode. -/
def channelWakeEffect (c : Nat) (k : WakeKind) (s : State) : State :=
  let h := chanOf s c
  let frameMode := cfgN s (0x3810 + c) 8 == 1
  if h.st ≠ .sleep ∨ !(awake s) then s
  else
    match k with
    | .edge => if frameMode then s else wakeChannel c 1 s
    | .frame f =>
      if !frameMode || f.fd || f.remote then s
      else if wakeMatch s c f then wakeChannel c 2 s
      else modChan c (fun (h : Channel) => { h with wakeErrors := h.wakeErrors - 1 }) s
    | .frameError =>
      if !frameMode then s
      else if 32 ≤ h.wakeErrors + 1 then wakeChannel c 3 s
      else modChan c (fun (h : Channel) => { h with wakeErrors := h.wakeErrors + 1 }) s

/-- CHANNEL_WAKE. -/
def execChannelWake (c : Fin 4) (k : WakeKind) (s : State) : Host.Outcome State Fault Refusal := .next (channelWakeEffect c k s)

/-! ## References and the schedule (R336, R338) -/

/-- Payload of a reference message (Table 16.7). -/
def refPayload (m : RefMsg) : List Byte :=
  leBytes 1 (m.cycle.toNat + if m.ptp then 32 else 0) ++ [m.master] ++ leBytes 2 m.matrix.toNat ++ leBytes 8 m.time.toNat

/-- The reference message this hub sends for the running basic cycle. -/
def ownRef (s : State) (c : Nat) : RefMsg :=
  let b := quadImage s c
  let n := basicCycle s c
  { cycle := BitVec.ofNat 5 (if qCycles b = 0 then 0 else n % qCycles b), ptp := s.site.source == 1 || s.site.source == 2
    master := BitVec.ofNat 8 (nodeId s), matrix := BitVec.ofNat 16 (qMatrix b)
    time := BitVec.ofNat 64 (timeTicks (n * qLen b * 1000)) }

/-- The frame that carries it: CAN FD with BRS and DLC 9. -/
def refFrame (s : State) (m : RefMsg) : CanFrame :=
  { ident := BitVec.ofNat 29 (refIdent s m.master.toNat), extended := false, fd := true, brs := true, esi := false, remote := false
    dlc := 9, data := refPayload m }

/-- The master opens a basic cycle: the reference goes into TX0 and the window of column 0 opens. -/
def refSendEffect (c : Nat) (s : State) : State :=
  let h := chanOf s c
  if awake s && drives s && h.talks && !(eventTriggered s c) && isMaster s c && h.refAt != some (basicCycle s c) then
    let m := ownRef s c
    modChan c (fun (h : Channel) =>
      Channel.push 0 (refFrame s m) { h with sched := .master, cycle := m.cycle.toNat, refAt := some (basicCycle s c), window := some 0 }) s
  else s

/-- REFERENCE_MESSAGE_SEND. -/
def execReferenceMessageSend (c : Fin 4) (s : State) : Host.Outcome State Fault Refusal := .next (refSendEffect c s)

/-- ns of a time in units of 2^-15 s. -/
def ticksNs (t : U64) : Nat := t.toNat * 1000000000 / 2 ^ 15

/-- A reference with PTP = 1 from the leader on channel C qualifies source 3 for two basic cycles and gives site time (R332). -/
def refTime (m : RefMsg) (s : State) : State :=
  if m.ptp && cfgB s 0x3230 1 && m.master == s.clk.fed.leaderNode then
    let s := modSite (fun (k : SiteTime) => { k with chanC := 2 }) s
    let t := ticksNs m.time
    if s.site.source = 3 then modSite (steerBy ((t : Int) - s.site.ns)) s else reselect (some t) s
  else s

/-- A follower's channel after the first reference of a basic cycle. -/
def followRef (s : State) (c : Nat) (m : RefMsg) (h : Channel) : Channel :=
  let same := m.matrix.toNat == qMatrix (quadImage s c) % 2 ^ 16
  let follow := same && (h.sched != .lost || m.cycle == 0)
  { h with refAt := some (basicCycle s c), sched := if follow then .following else .lost
           cycle := if follow then m.cycle.toNat else h.cycle }

/-- A reference completes on channel c: foreign or extra ones are counted, the first of a cycle is followed. -/
def refReceivedEffect (c : Nat) (m : RefMsg) (s : State) : State :=
  let h := chanOf s c
  if !(awake s) || !h.hears || eventTriggered s c then s
  else if isMaster s c || h.refAt == some (basicCycle s c) then
    modChan c (fun (h : Channel) => { h with foreign := bump h.foreign 1 }) s
  else
    let s := modChan c (followRef s c m) s
    if c = 2 then refTime m s else s

/-- REFERENCE_MESSAGE_RECEIVED. -/
def execReferenceMessageReceived (c : Fin 4) (m : RefMsg) (s : State) : Host.Outcome State Fault Refusal :=
  .next (refReceivedEffect c m s)

/-- Two references in a row have not completed within BASIC_LEN + 100 us of the expected start. -/
def refsMissing (s : State) (c : Nat) : Bool :=
  let l := qLen (quadImage s c)
  match (chanOf s c).refAt with
  | some n => decide ((n + 2) * l + l + 100 ≤ siteMicros s)
  | none => true

/-- A node that is not master has lost the schedule. -/
def scheduleLostEffect (c : Nat) (s : State) : State :=
  if !(eventTriggered s c) && !(isMaster s c) && (chanOf s c).hears && refsMissing s c then
    let s := modChan c (fun (h : Channel) => { h with sched := .lost }) s
    if c = 2 then reselect none (modSite (fun (k : SiteTime) => { k with chanC := 0 }) s) else s
  else s

/-- SCHEDULE_LOST. -/
def execScheduleLost (c : Fin 4) (s : State) : Host.Outcome State Fault Refusal := .next (scheduleLostEffect c s)

/-- The window ends: a frame of TX0 not complete is cancelled and counted (R337). -/
def Channel.endWindow (h : Channel) : Channel :=
  let n := (nth h.tx 0).length
  { h with tx := upd h.tx 0 fun _ => [], window := none, windowDiscards := bump h.windowDiscards n, cancels := bump h.cancels n
           cancelHeld := if h.cancelHeld = some 0 then none else h.cancelHeld }

/-- WINDOW_END. -/
def execWindowEnd (c : Fin 4) (s : State) : Host.Outcome State Fault Refusal :=
  .next (modChan c (fun (h : Channel) => if h.window.isSome then h.endWindow else h) s)

/-! ## Federation frames (Table 8.11, R339) -/

/-- The 32 bytes of a report. -/
def reportBytes (f : ReportFrame) : List Byte :=
  padTo 32 ([f.ver, f.flags, f.rank, 0] ++ leBytes 2 f.ack.toNat ++ leBytes 2 f.weight.toNat ++ leBytes 4 f.want.toNat
    ++ leBytes 4 f.applied.toNat ++ leBytes 4 f.draw.toNat)

/-- The 64 bytes of a share. -/
def shareBytes (f : ShareFrame) : List Byte :=
  padTo 64 ([f.ver, 0, f.leader, f.rank] ++ leBytes 2 f.round.toNat ++ [0, 0]
    ++ f.entries.flatMap fun e => e.1 :: leBytes 4 e.2.toNat ++ [0, 0])

/-- A federation frame on channel C. -/
def fedFrame (s : State) (ident : Nat) (d : List Byte) : CanFrame :=
  { ident := BitVec.ofNat 29 ident, extended := false, fd := true, brs := sendsBrs s 2, esi := false, remote := false
    dlc := BitVec.ofNat 4 (dlcOf d.length), data := d }

/-- Some exclusive cell of channel c carries the code with the owner. -/
def hasCell (s : State) (c owner code : Nat) : Bool :=
  let b := quadImage s c
  (List.range (qCycles b)).any fun y => (List.range (qCols b)).any fun j =>
    qKind b y j == 1 && qOwner b y j == owner && qCode b y j == code

/-- Frames with an identifier still queued in TX q of channel c are cancelled and counted (R329). -/
def cancelIdent (q : Nat) (ident : BitVec 29) (h : Channel) : Channel :=
  let l := nth h.tx q
  let left := l.filter fun f => f.ident != ident
  { h with tx := put h.tx q left, cancels := bump h.cancels (l.length - left.length) }

/-- The frames of a share and of a report wait for an exclusive cell where the quadrille has one, else they go to TX1. -/
def shareWaits (s : State) : Bool := !(eventTriggered s 2) && hasCell s 2 0xFF 0x30
/-- The same for the report. -/
def reportWaits (s : State) : Bool := !(eventTriggered s 2) && hasCell s 2 (nodeId s) 0x31

end Sys2Proof.Machine
end

