-- ==== Sys2Proof/Machine/LoopSvc.lean ====
section
/-! DEFINITION. Loop commands (R135, R136, R140, R144) and the injection generator (R148-R153). -/

namespace Sys2Proof.Machine

/-! ## Host commands on object 3501 -/

/-- Instance of the loop a code names, 127 where it names none. -/
def codeInst (s : State) (code : U16) : Nat :=
  match loopOfCode code.toNat with
  | some i => loopInst (s.act.loop i)
  | none => 127

/-- A permitted host command waits for the next share-cycle boundary; it supersedes one that waits (R136). -/
def hostLoopCommand (cmd : U8) (code : U16) (s : State) : State :=
  let s := respond 0 [] s
  match s.clk.loopCmd with
  | none => { s with clk := (let c := s.clk; { c with loopCmd := some (code, cmd), loopResult := 1 }) }
  | some (j, old) =>
    let s := { s with clk := (let c := s.clk; { c with loopCmd := some (code, cmd), loopResult := 5 }) }
    evt (eventReq .loopCommandSuperseded (codeInst s j) [j.toNat, old.toNat]) s

/-- The present mode permits the command: enable in COMMISSION, disable in COMMISSION, RUN and DEGRADED, fault reset in every mode
except BOOT, BACKUP and SAFE (R136). -/
def loopPermitted (s : State) (cmd : U8) : Bool :=
  if cmd = 1 then s.modes.mode == .commission
  else if cmd = 2 then powerMode s
  else s.modes.mode != .boot && s.modes.mode != .backup && s.modes.mode != .safe

/-- The command if permitted in the present mode, else a refusal of the write. -/
def ifPermitted (cmd : U8) (code : U16) (s : State) : State :=
  if loopPermitted s cmd then hostLoopCommand cmd code s else respond abortState [] s

/-- Code of a loop as object 3501:01 carries it. -/
def loopCode16 (i : LoopId) : U16 := BitVec.ofNat 16 (codeOfLoop i)

/-- LOOP_ENABLE. -/
def execLoopEnable (loop : LoopId) (s : State) : Host.Outcome State Fault Refusal := .next (ifPermitted 1 (loopCode16 loop) s)

/-- LOOP_DISABLE. -/
def execLoopDisable (loop : LoopId) (s : State) : Host.Outcome State Fault Refusal := .next (ifPermitted 2 (loopCode16 loop) s)

/-- LOOP_FAULT_RESET. -/
def execLoopFaultReset (loop : LoopId) (s : State) : Host.Outcome State Fault Refusal := .next (ifPermitted 3 (loopCode16 loop) s)

/-- A host command has no effect at the boundary: the mode no longer permits it, or it enables or disables a slow loop, which only the
lane does (Table 7.2). Table 7.12 gives no result for it: a free value (DESIGN CHOICE, log 45). -/
def loopNoEffect (s : State) (i : LoopId) (cmd : U8) : Bool := !(loopPermitted s cmd) || (isSlowLoop i && cmd != 3)

/-- Result of a command and its effect on both lanes (object 3501:03). -/
def applyLoopCommand (i : LoopId) (cmd : U8) (s : State) : U8 × State :=
  let st := (s.act.loop i).st
  if !loopUsed s i then (2, s)
  else if loopNoEffect s i cmd then (BitVec.ofNat 8 (Config.freeNat s.free), s.useFree 1)
  else if cmd = 1 then
    if st = .fault then (3, bothLanes (enableLoop i) s) else (0, meterCommission i (bothLanes (enableLoop i) s))
  else if cmd = 2 then (0, captureAbort i (bothLanes (disableLoop i) s))
  else if st = .fault then (0, bothLanes (leaveFault i) s)
  else (4, s)

/-- The command taken, for the loop its code names; a code that names none has result 2. -/
def takeLoopCommand (code : U16) (cmd : U8) (s : State) : U8 × State :=
  match loopOfCode code.toNat with
  | some i => applyLoopCommand i cmd s
  | none => (2, s)

/-- At a share-cycle boundary the command that waits is taken. -/
def loopCommandTakenEffect (s : State) : State :=
  match s.clk.loopCmd with
  | none => s
  | some (code, cmd) =>
    if atShare s then
      let r := takeLoopCommand code cmd s
      let s := r.2
      { s with clk := (let c := s.clk; { c with loopCmd := none, loopResult := r.1 }) }
    else s

/-- LOOP_COMMAND_TAKEN. -/
def execLoopCommandTaken (s : State) : Host.Outcome State Fault Refusal := .next (loopCommandTakenEffect s)

/-! ## Requests of blocks -/

/-- A block of lane l publishes an enable or a disable of a loop (R135). -/
def loopBlockEnableEffect (l : Lane) (i : LoopId) (enable : Bool) (s : State) : State :=
  if !(computing s l) || !loopUsed s i then s
  else if enable then (if enableMode s i then meterCommission i (s.modLane l (enableLoop i)) else s)
  else captureAbort i (s.modLane l (disableLoop i))

/-- LOOP_BLOCK_ENABLE. -/
def execLoopBlockEnable (l : Lane) (loop : LoopId) (enable : Bool) (s : State) : Host.Outcome State Fault Refusal :=
  .next (loopBlockEnableEffect l loop enable s)

/-- A loop still in STOP when the stop time of object 3502:0A ends enters FAULT with cause 3 (R140). -/
def loopStopTimeoutEffect (l : Lane) (i : LoopId) (s : State) : State :=
  let p := (s.lane l).loop i
  if p.st = .stop ∧ p.nextSt ≠ some .off ∧ msPeriods s (cfgN s 0x3502 0xA) ≤ p.stopFor then
    recheckSpares (s.modLane l (enterFault s i 3))
  else s

/-- LOOP_STOP_TIMEOUT. -/
def execLoopStopTimeout (l : Lane) (loop : LoopId) (s : State) : Host.Outcome State Fault Refusal :=
  .next (loopStopTimeoutEffect l loop s)

/-- The override ramp of loop i has written s_80. -/
def rampDone (p : Loop) : Bool := !p.override.isEmpty && p.override.all fun o => decide (80 < o.n)

/-- The words of a ramp that is over stay 0 (Table 7.4). -/
def rampZeros (l : List OvRamp) (x : LaneState) : LaneState :=
  { x with out := l.foldl (fun o r => upd o r.link fun (k : OutLink) => { k with words := put k.words r.word 0 }) x.out }

/-- The end of an override ramp: its words stay 0, a bay's modules open and its session ends with cause 6 after a loop fault; a string's
RUN and CONT fall (R144). -/
def faultRampEndEffect (l : Lane) (i : LoopId) (s : State) : State :=
  let p := (s.lane l).loop i
  if rampDone p then
    let s := s.modLane l fun x => (rampZeros p.override x).modLoop i fun p => { p with override := [] }
    match i with
    | .bay n =>
      let s := s.modLane l (openBay n)
      if p.st = .fault then endBaySession n 6 s else s
    | .string k =>
      s.modLane l fun x =>
        { x with share := (let h := x.share
                           { h with strs := upd h.strs k fun (y : StrState) => { y with run := false, cont := false } }) }
    | _ => s
  else s

/-- FAULT_RAMP_END. -/
def execFaultRampEnd (l : Lane) (loop : LoopId) (s : State) : Host.Outcome State Fault Refusal :=
  .next (faultRampEndEffect l loop s)

/-! ## Injection settings (object 3506) -/

/-- s with the injection changed. -/
def modInj (f : Injection → Injection) (s : State) : State := { s with clk := (let c := s.clk; { c with inj := f c.inj }) }

/-- Loop named by object 3506:01. -/
def injLoop (s : State) : Option LoopId := loopOfCode (rwN s 0x3506 1)

/-- Amplitude as a REAL32 (object 3506:05). -/
def injAmp (s : State) : Int × Int := realVal (BitVec.ofNat 32 (rwN s 0x3506 5))

/-- A: the amplitude rounded to an integer (R150). -/
def ampInt (s : State) : Int := roundShift (injAmp s).1 (-(injAmp s).2)

/-- Rated current of a loop's 2 % bound, A. -/
def ratedOf (s : State) : LoopId → Nat
  | .bay n => bayN s n 8
  | .module j => modN s j 3
  | _ => 0

/-- The loop's reels hold a TSI with point p. -/
def hasTsi (s : State) (i : LoopId) (p : Nat) : Bool :=
  (loopIns s i).any fun w => w.toNat / 2 ^ 26 == 24 && w.toNat % 16 == p

/-- Frequency k (from 0) of object 3507 as a REAL32. -/
def freqOf (s : State) (k : Nat) : Int × Int := realVal (BitVec.ofNat 32 (rwN s 0x3507 (2 + k)))

/-- Number of steps (object 3507:01). -/
def stepCount (s : State) : Nat := rwN s 0x3507 1

/-- Periods in a second. -/
def periodRate (s : State) : Nat := if s.clk.long then 20000 else 40000

/-- Frequency in range: 0.1 Hz to 0.25 / P (R151). -/
def freqOk (s : State) (k : Nat) : Bool :=
  cmpExact ((freqOf s k).1 * 10, (freqOf s k).2) (1, 0) != .lt && cmpExact (freqOf s k) ((periodRate s / 4 : Nat), 0) != .gt

/-- Parameters within the ranges of Tables 7.9 and 7.10. -/
def paramsOk (s : State) : Bool :=
  if rwN s 0x3506 4 = 0 then
    [7, 9, 11, 15].contains (rwN s 0x3506 6) && rwN s 0x3506 7 != 0 && rwN s 0x3506 8 != 0
  else
    decide (rwN s 0x3506 9 ≤ 1000 ∧ 1 ≤ rwN s 0x3506 0xA ∧ rwN s 0x3506 0xA ≤ 10000 ∧ 1 ≤ stepCount s ∧ stepCount s ≤ 32)
      && (List.range (stepCount s)).all (freqOk s)

/-- The loop kind is permitted in RUN and DEGRADED: a module of a bay without a session, or a bay whose session charges. -/
def kindOk (s : State) : LoopId → Bool
  | .module j => let b := (s.act.mod j).bay; b == 0 || !(baySession s (b - 1))
  | .bay n =>
    match bayVehicle s n with
    | some v => (sess s v).st == .charging
    | none => false
  | _ => false

/-- Refusal code of Table 7.7, 0 where every condition holds. -/
def armRefusal (s : State) : Nat :=
  match injLoop s with
  | none => 5
  | some i =>
    if !(powerMode s) then 1
    else if s.modes.mode ≠ .commission ∧ kindOk s i = false then 1
    else if (s.act.loop i).st ≠ .run then 2
    else if cmpExact (injAmp s) (0, 0) ≠ .gt then 3
    else if s.modes.mode ≠ .commission ∧ cmpExact (injAmp s) ((ratedOf s i * 40 : Nat), 0) = .gt then 3
    else if !(hasTsi s i (rwN s 0x3506 2)) then 4
    else if !(paramsOk s) then 5
    else 0

/-- Command 1 on object 3506:0C. -/
def injectionArmEffect (s : State) : State :=
  let c := armRefusal s
  if c = 0 then modInj (fun j => { j with st := 1, cause := 0 }) s
  else modInj (fun j => { j with cause := BitVec.ofNat 8 c }) s

/-- INJECTION_ARM. -/
def execInjectionArm (s : State) : Host.Outcome State Fault Refusal := .next (hostWrite (writable s) injectionArmEffect s)

/-! ## The generators (R150, R151) -/

/-- Order of the PRBS. -/
def prbsOrder (s : State) : Nat := rwN s 0x3506 6

/-- Tap of the feedback polynomial beside the highest. -/
def prbsTap (n : Nat) : Nat := if n = 7 then 6 else if n = 9 then 5 else if n = 11 then 9 else 14

/-- One shift of the register of order n: the feedback enters at the low end; the output is the highest stage. -/
def prbsShift (n : Nat) (r : BitVec 15) : BitVec 15 :=
  let v := r.toNat
  let fb := (v / 2 ^ (n - 1) + v / 2 ^ (prbsTap n - 1)) % 2
  BitVec.ofNat 15 ((v * 2 + fb) % 2 ^ n)

/-- Phase increment of step k: f x P x 2^32 rounded. -/
def phaseInc (s : State) (k : Nat) : Nat :=
  let f := freqOf s k
  let n := f.1 * 2 ^ (f.2 + 32).toNat
  let d := periodRate s * 2 ^ (-(f.2 + 32)).toNat
  (roundDiv n d).toNat

/-- Settle and measured cycles W. -/
def sineCycles (s : State) : Nat := rwN s 0x3506 9 + rwN s 0x3506 0xA

/-- Periods of step k. -/
def stepPeriods (s : State) (k : Nat) : Nat :=
  let d := phaseInc s k
  if d = 0 then 0 else ceilDiv (sineCycles s * 2 ^ 32) d

/-- pi in units of 2^-40. -/
def piScaled : Int := 3454217652358

/-- The next terms of the sine series for the angle x in units of 2^-40: fuel, term t of order k. -/
def sineSeries (x : Int) : Nat → Nat → Int → Int
  | 0, _, _ => 0
  | n + 1, k, t =>
    t + sineSeries x n (k + 2) (-(t * x / 2 ^ 40 * x / 2 ^ 40) / ((k + 1) * (k + 2) : Nat))

/-- sin(2 pi p / 2^32) in units of 2^-40, within the tolerance of R151: the error is a free value of at most 2^-19. -/
def sineScaled (p : Nat) : Int :=
  let q := p / 2 ^ 30 % 4
  let r := p % 2 ^ 30
  let a : Nat := if q % 2 = 0 then r else 2 ^ 30 - r
  let x : Int := a * piScaled / 2 ^ 31
  let v := sineSeries x 10 1 x
  (if q < 2 then v else -v) + clampInt (-(2 ^ 20)) (2 ^ 20) (Config.sineError p)

/-- Stepped-sine value in period j of a step with increment d. -/
def sineValue (a : Int) (d j : Nat) : Int := roundShift (a * sineScaled (j * d % 2 ^ 32)) 40

/-- Generator value of the running period. -/
def genValue (s : State) : Int :=
  let j := s.clk.inj
  let a := ampInt s
  if rwN s 0x3506 4 = 0 then
    (if j.lfsr.toNat / 2 ^ (prbsOrder s - 1) % 2 = 1 then a else -a)
  else sineValue a (phaseInc s j.step) j.inStep

/-- Periods of the whole PRBS injection. -/
def prbsPeriods (s : State) : Nat := (2 ^ prbsOrder s - 1) * rwN s 0x3506 7 * rwN s 0x3506 8

/-- The running period is the injection's last. -/
def lastPeriod (s : State) : Bool :=
  let j := s.clk.inj
  if rwN s 0x3506 4 = 0 then decide (prbsPeriods s ≤ j.elapsed + 1)
  else decide (stepCount s ≤ j.step + 1 ∧ stepPeriods s j.step ≤ j.inStep + 1)

/-- The generator's registers in the next period; a step that starts is logged (object 3508). -/
def nextGen (s : State) (j : Injection) : Injection :=
  let j := { j with elapsed := j.elapsed + 1 }
  if rwN s 0x3506 4 = 0 then
    if j.elapsed % max 1 (rwN s 0x3506 7) = 0 then { j with lfsr := prbsShift (prbsOrder s) j.lfsr } else j
  else if stepPeriods s j.step ≤ j.inStep + 1 then
    let k := j.step + 1
    { j with step := k, inStep := 0
             log := j.log ++ [(BitVec.ofNat 64 s.clk.period, BitVec.ofNat 32 (phaseInc s k), BitVec.ofNat 32 (stepPeriods s k))] }
  else { j with inStep := j.inStep + 1 }

/-! ## Start and end -/

/-- The injection starts at a share-cycle boundary; a capture with trigger mode 3 on the loop triggers. -/
def injectionStartEffect (s : State) : State :=
  if s.clk.inj.st = 1 ∧ atShare s then
    let i := injLoop s
    let log :=
      if rwN s 0x3506 4 = 0 then []
      else [(BitVec.ofNat 64 s.clk.period, BitVec.ofNat 32 (phaseInc s 0), BitVec.ofNat 32 (stepPeriods s 0))]
    let s := modInj (fun (j : Injection) =>
      { j with st := 2, startPeriod := BitVec.ofNat 64 s.clk.period, loop := i, stopDue := none, mode := s.modes.mode, reelNew := false, lfsr := BitVec.ofNat 15 (2 ^ prbsOrder s - 1)
               elapsed := 0, step := 0, inStep := 0, log := log }) s
    let s := modInj (fun j => { j with g := genValue s }) s
    let s :=
      match i with
      | some k => bothLanes (fun x => x.modLoop k fun p => { p with inj := true }) s
      | none => s
    if s.clk.cap.st = 1 ∧ triggerMode s = 3 ∧ captureLoop s = i then captureTriggered (preTrigger s) s else s
  else s

/-- INJECTION_START. -/
def execInjectionStart (s : State) : Host.Outcome State Fault Refusal := .next (injectionStartEffect s)

/-- Checks are off during the injection and its holdoff: object 3506:0B is 0 and the mode is COMMISSION (R153). -/
def checksOff (s : State) : Bool := s.modes.mode == .commission && rwN s 0x3506 0xB == 0

/-- The injection ends with a state and a cause, and the holdoff after it begins. -/
def endInjection (st cause : U8) (s : State) : State :=
  let hold := cfgN s 0x3502 1
  let s :=
    match s.clk.inj.loop with
    | some k => bothLanes (fun x => x.modLoop k fun p => { p with inj := false, injHold := hold }) s
    | none => s
  modInj (fun j => { j with st := st, cause := cause, g := 0, loop := none, stopDue := none }) s

/-- The generator at cycle 0 of a period; a stop of the period before has ended the injection. -/
def injectionPeriod (s : State) : State :=
  if s.clk.inj.st = 2 then
    match s.clk.inj.stopDue with
    | some c => endInjection 4 c s
    | none =>
      let s := modInj (nextGen s) s
      modInj (fun j => { j with g := genValue s }) s
  else s

/-- Command 2 on object 3506:0C stops an armed injection at once, a running one at the end of the period, with cause 6 (R152). -/
def injectionStopEffect (s : State) : State :=
  if s.clk.inj.st = 1 then endInjection 4 6 s
  else if s.clk.inj.st = 2 then modInj (fun j => { j with stopDue := some 6 }) s
  else s

/-- INJECTION_STOP. -/
def execInjectionStop (s : State) : Host.Outcome State Fault Refusal := .next (hostWrite (writable s) injectionStopEffect s)

/-- A stop cause of R152 holds. -/
def stopCause (s : State) (c : U8) : Bool :=
  match s.clk.inj.loop with
  | none => false
  | some i =>
    if c = 7 then (s.act.loop i).st != .run
    else if c = 8 then s.modes.mode != .commission && !kindOk s i
    else if c = 9 then s.modes.mode != s.clk.inj.mode
    else c == 10 && s.clk.inj.reelNew

/-- The injection ends after its last period, or stops early on a cause. -/
def injectionCompleteEffect (c : Option U8) (s : State) : State :=
  if s.clk.inj.st ≠ 2 then s
  else
    match c with
    | none => if lastPeriod s then endInjection 3 0 s else s
    | some k => if stopCause s k then endInjection 4 k s else s

/-- INJECTION_COMPLETE. -/
def execInjectionComplete (cause : Option U8) (s : State) : Host.Outcome State Fault Refusal :=
  .next (injectionCompleteEffect cause s)

end Sys2Proof.Machine
end

