-- ==== Sys2Proof/Machine/Keystore.lean ====
section
/-! DEFINITION. The keystore's rows: update messages (R367-R369), key statements (R370), requests (R365, R366) and replication (R371). -/

namespace Sys2Proof.Machine

/-- The keystore of lane l changed. -/
def modKs (l : Lane) (f : Keystore → Keystore) (s : State) : State := s.modLane l fun x => { x with ks := f x.ks }

/-! ## Algorithms and paths (Tables 18.1, 18.2) -/

/-- ECDSA or Ed448. -/
def isSignAlg (a : U8) : Bool := decide (1 ≤ a.toNat ∧ a.toNat ≤ 4)
/-- ECDH. -/
def isAgreeAlg (a : U8) : Bool := decide (0x11 ≤ a.toNat ∧ a.toNat ≤ 0x13)
/-- AES-GCM. -/
def isAesAlg (a : U8) : Bool := a == 0x21 || a == 0x22
/-- HKDF. -/
def isKdfAlg (a : U8) : Bool := decide (0x31 ≤ a.toNat ∧ a.toNat ≤ 0x33)

/-- Usage bits an algorithm admits. -/
def usageMask (a : U8) : Nat :=
  if isSignAlg a then 1 else if isAgreeAlg a then 2 else if isAesAlg a then 0x14 else if isKdfAlg a then 8 else 0

/-- A usage byte of the algorithm: not empty, nothing outside its bits. -/
def usageOk (a u : U8) : Bool := u != 0 && decide (u.toNat &&& usageMask a = u.toNat)

/-- Bytes of a private key of an algorithm that can be installed. -/
def keyBytes (a : U8) : Option Nat :=
  match a.toNat with
  | 0x01 | 0x11 => some 32
  | 0x02 | 0x12 => some 48
  | 0x03 | 0x13 => some 66
  | 0x04 => some 57
  | 0x21 => some 16
  | 0x22 => some 32
  | _ => none

/-- Bytes of the public part of an algorithm (PUBLEN of Table 18.6). -/
def pubBytes (a : U8) : Nat :=
  match a.toNat with
  | 0x01 | 0x11 => 65
  | 0x02 | 0x12 => 97
  | 0x03 | 0x13 => 133
  | 0x04 => 57
  | _ => 0

/-- Algorithms of a path whose key the device generates (Table 18.1). -/
def generateAlgs (p : U32) : List U8 :=
  match p.toNat with
  | 0x01000000 | 0x02000000 | 0x03000000 => [0x32]
  | 0x01020000 => [0x02]
  | 0x01030000 => [0x12]
  | 0x02010000 => [0x03, 0x04]
  | 0x03010000 => [0x31]
  | _ => []

/-- Algorithms of a path whose key can be installed. -/
def installAlgs (p : U32) : List U8 := if p = 0x02010000 then [0x03, 0x04] else []

/-- Paths OP 3 does not touch. -/
def fixedPath (p : U32) : Bool := p == 0x01010000 || p == 0x01020000

/-- A slot or one of its ancestors was invalidated. -/
def pathOrphaned (k : Keystore) (p : U32) : Bool :=
  k.slots.any fun e => e.2.orphaned && (e.2.path == p || isAncestor e.2.path p)

/-- The parent of a path holds a secret: the root seed or a slot. -/
def parentHeld (s : State) (k : Keystore) (p : U32) : Bool :=
  if pathParent p = 0 then s.life.seeded else (k.find (pathParent p)).isSome

/-! ## Update messages (R367, R368) -/

/-- Bytes 0 to 39 + LENGTH. -/
def keySignedBytes (m : KeyMsg) : List Byte :=
  [m.version, m.op] ++ leBytes 2 m.length.toNat ++ leBytes 4 m.reserved.toNat ++ m.deviceId ++ leBytes 8 m.counter.toNat
    ++ leBytes 4 m.path.toNat ++ [m.algorithm, m.usage] ++ leBytes 2 m.reserved2.toNat ++ m.body

/-- LENGTH of an OP (Table 18.5). -/
def lengthOk (op n : Nat) : Bool :=
  if op = 1 ∨ op = 2 then [16, 32, 48, 57, 66].contains (n - 128) && decide (128 ≤ n)
  else if op = 4 then n == 100
  else n == 8

/-- Reserved bytes of a body. -/
def bodyReserved (op : Nat) (b : List Byte) : List Byte :=
  if op = 1 ∨ op = 2 ∨ op = 4 then slice b 97 3 else if op = 6 then b else b.drop 1

/-- Fields that are 0 for an OP: PATH for 4 and 5, ALGORITHM and USAGE for 3 to 5. -/
def zeroFields (m : KeyMsg) : Bool :=
  let op := m.op.toNat
  ((op != 4 && op != 5) || m.path == 0) && ((op != 3 && op != 4 && op != 5) || (m.algorithm == 0 && m.usage == 0))

/-- The message is well laid out. -/
def formatOk (m : KeyMsg) : Bool :=
  let op := m.op.toNat
  m.version == 1 && decide (1 ≤ op ∧ op ≤ 6) && m.reserved == 0 && m.reserved2 == 0 && m.deviceId.length == 16 && m.signature.length == 96
    && m.body.length == m.length.toNat && lengthOk op m.length.toNat && allZero (bodyReserved op m.body) && zeroFields m
    && (op != 5 || decide ((m.body.getD 0 0).toNat ≤ 4))

/-- Public part of the owner authority. -/
def ownerKey (k : Keystore) : Option (List Byte) := (k.find 0x01010000).map (·.2.pub)

/-- The signature holds under the owner authority. -/
def signatureOk (k : Keystore) (m : KeyMsg) : Bool :=
  match ownerKey k with
  | some p => Config.verify p (keySignedBytes m) m.signature
  | none => false

/-- Life-cycle transitions by OP 5. -/
def lifeAllowed (c d : Nat) : Bool := (c == 1 && (d == 2 || d == 3)) || (c == 2 && d == 3) || (c == 3 && d == 4)

/-- The life-cycle state permits the message: RETURN serves domain 1 and OP 5 to SCRAPPED alone. -/
def lifeServes (c : Nat) (m : KeyMsg) : Bool :=
  if m.op = 5 then lifeAllowed c (m.body.getD 0 0).toNat
  else c == 1 || c == 2 || (c == 3 && (m.op == 4 || pathDomain m.path == 1))

/-- Path status of OP 1, 2, 3 and 6. -/
def pathStatus (s : State) (k : Keystore) (p : U32) : Nat :=
  if !(pathValid p) ∨ p = 0 ∨ !(parentHeld s k p) then 7 else if pathOrphaned k (pathParent p) then 13 else 0

/-- Occupancy status. -/
def occupancy (k : Keystore) (m : KeyMsg) : Nat :=
  let held := (k.find (if m.op = 4 then 0x01010000 else m.path)).isSome
  if m.op = 1 then (if held then 8 else 0) else if m.op = 2 ∨ m.op = 3 ∨ m.op = 4 then (if held then 0 else 8) else 0

/-- The secret an envelope carries: agreed with the transport key, opened with bytes 0 to 39 as additional data. -/
def envelopeSecret (k : Keystore) (m : KeyMsg) : Option Nat :=
  match k.find 0x01030000 with
  | some (_, t) =>
    if !(Config.onCurve (m.body.take 97)) then none
    else
      let z := Config.bodyKey (Config.agree t.secret (m.body.take 97))
      let w := Config.derive z m.path (m.deviceId ++ leBytes 8 m.counter.toNat)
      (Config.openSealed w ((keySignedBytes m).take 40 ++ m.body.drop 100)).map Config.bodyKey
  | none => none

/-- Status of the key value of an OP. -/
def keyStatus (s : State) (k : Keystore) (m : KeyMsg) : Nat :=
  let op := m.op.toNat
  let bad (algs : List U8) : Bool := !(algs.contains m.algorithm) || !(usageOk m.algorithm m.usage)
  if op = 1 ∨ op = 2 then
    match envelopeSecret k m with
    | none => 6
    | some x =>
      if bad (installAlgs m.path) ∨ keyBytes m.algorithm ≠ some (m.length.toNat - 128) ∨ !(Config.keyValueOk m.algorithm x) then 10 else 0
  else if op = 3 then (if fixedPath m.path then 10 else 0)
  else if op = 4 then (if Config.onCurve (m.body.take 97) then 0 else 10)
  else if op = 6 then (if bad (generateAlgs m.path) then 10 else if Config.trngHealthy s.free then 0 else 15)
  else 0

/-- The first failing status of a message, in the order of R368; 0 where every check passes. -/
def messageStatus (s : State) (k : Keystore) (m : KeyMsg) : Nat :=
  let c := lifeCode s.life.fuse
  let op := m.op.toNat
  let tree := op = 1 ∨ op = 2 ∨ op = 3 ∨ op = 6
  if m.length = 0 then 1
  else if !(formatOk m) then 2
  else if m.deviceId ≠ s.life.identity then 3
  else if !(signatureOk k m) then 5
  else if m.counter.toNat ≤ k.counter.toNat then 4
  else if !(lifeServes c m) then 12
  else if tree ∧ pathStatus s k m.path ≠ 0 then pathStatus s k m.path
  else if occupancy k m ≠ 0 then occupancy k m
  else if keyStatus s k m ≠ 0 then keyStatus s k m
  else if (op = 1 ∨ op = 2 ∨ op = 6) ∧ k.freeSlot.isNone then 9
  else 0

/-- A persistent key placed in the lowest free slot that verifies, the one it replaces erased and its descendants orphaned; slots that fail
are retired, and none left means a write that fails (R364). -/
def placeKey (fails : Nat → Bool) (v : KeySlot) (k : Keystore) : Keystore × Bool :=
  match k.placing fails with
  | (some i, bad) =>
    let k := if (k.find v.path).isSome then k.invalidate v.path else k
    ({ k with slots := insertSlot i v k.slots, retired := k.retired ++ bad }, true)
  | (none, bad) => ({ k with retired := k.retired ++ bad }, false)

/-- A volatile key placed in the lowest free slot, the one it replaces erased and its descendants orphaned. -/
def putKey (v : KeySlot) (k : Keystore) : Keystore :=
  match k.freeSlot with
  | some i =>
    let k := if (k.find v.path).isSome then k.invalidate v.path else k
    { k with slots := insertSlot i v k.slots }
  | none => k

/-- A persistent key of path p. -/
def newKey (s : State) (m : KeyMsg) (internal : Bool) (secret : Nat) : KeySlot :=
  { path := m.path, alg := m.algorithm, usage := m.usage, internal := internal, pubOnly := false
    lc := BitVec.ofNat 8 (lifeCode s.life.fuse), secret := secret, pub := Config.publicPart secret, persistent := true, orphaned := false
    good := true }

/-- The owner authority replaced. -/
def putOwner (p : List Byte) (k : Keystore) : Keystore :=
  { k with slots := k.slots.map fun e => (e.1, if e.2.path = 0x01010000 then (let v := e.2; { v with pub := p }) else e.2) }

/-- A status is answered in objects 2400:08 and 2401:02. -/
def keyAnswer (l : Lane) (st : Nat) (s : State) : State :=
  let s := modKs l (fun k => { k with lastStatus := BitVec.ofNat 8 st, answer := some (BitVec.ofNat 8 st, []) }) s
  { s with life := (let v := s.life; { v with result := BitVec.ofNat 8 st }) }

/-- An accepted change in the active lane with its counter: DONE, or in progress until the standby lane has written (R371). -/
def keyCommit (l : Lane) (m : KeyMsg) (f : Keystore → Keystore) (s : State) : State :=
  let s := modKs l (fun k => { f k with counter := m.counter, operations := k.operations + 1, busy := true }) s
  let s := keyAnswer l 0 (evt (eventReq .keyUpdate 127 [m.op.toNat, m.path.toNat, (m.body.getD 0 0).toNat]) s)
  if (standbyLane s).isSome then { s with life := (let v := s.life; { v with result := 0xFF }) } else s

/-- A key written by a message: DONE with its counter, or status 9 where no free slot verifies. -/
def keyPlace (l : Lane) (m : KeyMsg) (v : KeySlot) (s : State) : State :=
  let r := placeKey (Config.slotFails s.free) v (s.lane l).ks
  let s := s.useFree 1
  recheckSpares (if r.2 then keyCommit l m (fun _ => r.1) s else keyAnswer l 9 (modKs l (fun _ => r.1) s))

/-- A write of object 2401:01 with effect f where every check passes; outside SERVICE it is refused with status 11. -/
def updateMessage (m : KeyMsg) (f : Lane → State → State) (s : State) : State :=
  match activeLane s with
  | none => s
  | some l =>
    if s.modes.mode ≠ .service then respond abortState [] (keyAnswer l 11 s)
    else
      let st := messageStatus s (s.lane l).ks m
      let s := respond 0 [] s
      if st = 0 then f l s else keyAnswer l st s

/-- An installed key. -/
def installEffect (m : KeyMsg) (l : Lane) (s : State) : State :=
  match envelopeSecret (s.lane l).ks m with
  | some x => keyPlace l m (newKey s m false x) s
  | none => s

/-- OP 3: a key invalidated. -/
def invalidateEffect (m : KeyMsg) (l : Lane) (s : State) : State :=
  recheckSpares (keyCommit l m (Keystore.invalidate m.path) (evt (eventReq .keyErased 127 [m.path.toNat]) s))

/-- OP 4: the owner authority replaced. -/
def ownerEffect (m : KeyMsg) (l : Lane) (s : State) : State := keyCommit l m (putOwner (m.body.take 97)) s

/-- OP 5: counted, the keys of both lanes destroyed, DONE, and the device restarts through BOOT (R374). -/
def lifeChangeEffect (m : KeyMsg) (l : Lane) (s : State) : State :=
  let s := keyCommit l m id s
  let s := bothLanes (fun x => { x with ks := (let k := x.ks; { k with counter := m.counter, busy := false }) }) s
  plainReset 15 (keyAnswer l 0 (lifeDestroy (m.body.getD 0 0).toNat s))

/-- OP 6: a key drawn from the TRNG. -/
def generateEffect (m : KeyMsg) (l : Lane) (s : State) : State :=
  keyPlace l m (newKey s m true (Config.generate s.free)) (s.useFree 1)

/-- The effect of a message by its OP (Table 18.4). -/
def opEffect (m : KeyMsg) (l : Lane) (s : State) : State :=
  match m.op.toNat with
  | 1 => installEffect m l s
  | 2 => installEffect m l s
  | 3 => invalidateEffect m l s
  | 4 => ownerEffect m l s
  | 5 => lifeChangeEffect m l s
  | 6 => generateEffect m l s
  | _ => s

/-- A message written to object 2401:01 acts by the OP it carries, whichever row brings it (log 6). -/
def updateRow (m : KeyMsg) (s : State) : Host.Outcome State Fault Refusal := .next (updateMessage m (opEffect m) s)

/-- KEY_INSTALL: OP 1. -/
def execKeyInstall (m : KeyMsg) (s : State) : Host.Outcome State Fault Refusal := updateRow m s

/-- KEY_REPLACE: OP 2. -/
def execKeyReplace (m : KeyMsg) (s : State) : Host.Outcome State Fault Refusal := updateRow m s

/-- KEY_INVALIDATE: OP 3. -/
def execKeyInvalidate (m : KeyMsg) (s : State) : Host.Outcome State Fault Refusal := updateRow m s

/-- OWNER_AUTHORITY_REPLACE: OP 4. -/
def execOwnerAuthorityReplace (m : KeyMsg) (s : State) : Host.Outcome State Fault Refusal := updateRow m s

/-- LIFE_CYCLE_CHANGE: OP 5. -/
def execLifeCycleChange (m : KeyMsg) (s : State) : Host.Outcome State Fault Refusal := updateRow m s

/-- KEY_GENERATE: OP 6. -/
def execKeyGenerate (m : KeyMsg) (s : State) : Host.Outcome State Fault Refusal := updateRow m s

/-! ## Key statements (R370) -/

/-- FLAGS of a slot (Table 18.6). -/
def slotFlags (v : KeySlot) : Nat := flagBits [(0, v.internal), (1, true), (2, v.pubOnly), (3, v.persistent)]

/-- Bytes 0-187 of a statement. -/
def statementBody (s : State) (k : Keystore) (v : KeySlot) : List Byte :=
  leBytes 1 1 ++ leBytes 1 (lifeCode s.life.fuse) ++ leBytes 1 (slotFlags v) ++ [v.alg] ++ leBytes 4 v.path.toNat ++ s.life.identity
    ++ leBytes 8 k.counter.toNat ++ rwBytes s 0x2402 2 ++ leBytes 2 (pubBytes v.alg) ++ [v.usage, 0]
    ++ padTo 136 (v.pub.take (pubBytes v.alg))

/-- Status of a command on object 2402:03 and the slot it names. -/
def commandStatus (s : State) (k : Keystore) (p : U32) : Nat :=
  let c := lifeCode s.life.fuse
  if c = 0 ∨ c = 4 then 12
  else if !(pathValid p) then 7
  else if pathOrphaned k p then 13
  else if (k.find p).isNone then 8
  else 0

/-- A status of the keystore without a change. -/
def ksStatus (l : Lane) (st : Nat) (d : List Byte) (s : State) : State :=
  modKs l (fun k => { k with lastStatus := BitVec.ofNat 8 st, answer := some (BitVec.ofNat 8 st, d), busy := st == 0
                             operations := if st = 0 then k.operations + 1 else k.operations }) s

/-- The statement of the path in object 2402:01, signed with the attestation key. -/
def statementEffect (s : State) : State :=
  match activeLane s with
  | none => s
  | some l =>
    let k := (s.lane l).ks
    let p := BitVec.ofNat 32 (rwN s 0x2402 1)
    match commandStatus s k p, k.find p, k.find 0x01020000 with
    | 0, some (_, v), some (_, a) =>
      if a.orphaned then ksStatus l 13 [] s
      else
        let b := statementBody s k v
        let g := (padTo 96 (Config.sign a.secret s.free b)).take 96
        ksStatus l 0 [] { s.useFree 1 with life := (let v := s.life; { v with statement := b ++ g }) }
    | 0, _, _ => ksStatus l 8 [] s
    | st, _, _ => ksStatus l st [] s

/-- KEY_STATEMENT. -/
def execKeyStatement (s : State) : Host.Outcome State Fault Refusal := .next (hostWrite (writable s) statementEffect s)

/-- The PKCS#10 request of the path in object 2402:01, which must carry the sign usage. -/
def csrEffect (s : State) : State :=
  match activeLane s with
  | none => s
  | some l =>
    let k := (s.lane l).ks
    let p := BitVec.ofNat 32 (rwN s 0x2402 1)
    match commandStatus s k p, k.find p with
    | 0, some (_, v) =>
      if !(v.usage.getLsbD 0) ∨ v.pubOnly then ksStatus l 10 [] s
      else if lifeCode s.life.fuse = 3 ∧ pathDomain p ≠ 1 then ksStatus l 12 [] s
      else ksStatus l 0 [] { s.useFree 1 with life := (let w := s.life; { w with csr := Config.certRequest v.secret s.free v.pub }) }
    | st, _ => ksStatus l st [] s

/-- CERTIFICATION_REQUEST. -/
def execCertificationRequest (s : State) : Host.Outcome State Fault Refusal := .next (hostWrite (writable s) csrEffect s)

/-! ## Requests on queues 94 and 95 (R365, R366) -/

/-- Status of a request on a key with usage bit b of an algorithm family. -/
def requestStatus (s : State) (k : Keystore) (r : KeyReq) (b : Nat) (fam : U8 → Bool) : Nat :=
  let c := lifeCode s.life.fuse
  if r.data.isEmpty then 1
  else if c = 0 ∨ c = 4 ∨ (c = 3 ∧ pathDomain r.path ≠ 1) then 12
  else if !(pathValid r.path) then 7
  else if pathOrphaned k r.path then 13
  else
    match k.find r.path with
    | none => 8
    | some (_, v) => if v.usage.getLsbD b && fam v.alg then 0 else 10

/-- A request in its lane's keystore: f answers from the key with a status and data. -/
def keyRequest (r : KeyReq) (b : Nat) (fam : U8 → Bool) (f : KeySlot → Nat × List Byte) (s : State) : State :=
  if s.modes.mode = .backup ∨ !(inService s r.lane) then s
  else
    let k := (s.lane r.lane).ks
    match requestStatus s k r b fam, k.find r.path with
    | 0, some (i, v) =>
      let a := f v
      modKs r.lane (fun k => { k with cache := if k.cache.contains i then k.cache else i :: k.cache }) (ksStatus r.lane a.1 a.2 s)
    | st, _ => ksStatus r.lane st [] s

/-- KEYSTORE_SIGN. -/
def execKeystoreSign (r : KeyReq) (s : State) : Host.Outcome State Fault Refusal :=
  .next ((keyRequest r 0 isSignAlg (fun v => if v.pubOnly then (10, []) else (0, Config.sign v.secret s.free r.data)) s).useFree 1)

/-- KEYSTORE_VERIFY: the answer tells whether the signature holds. -/
def execKeystoreVerify (r : KeyReq) (signature : List Byte) (s : State) : Host.Outcome State Fault Refusal :=
  .next (keyRequest r 0 isSignAlg (fun v => (0, [if Config.verify v.pub r.data signature then 1 else 0])) s)

/-- KEYSTORE_KEY_AGREEMENT with a peer's point. -/
def execKeystoreKeyAgreement (r : KeyReq) (s : State) : Host.Outcome State Fault Refusal :=
  .next (keyRequest r 1 isAgreeAlg (fun v => if Config.onCurve r.data then (0, Config.agree v.secret r.data) else (6, [])) s)

/-- KEYSTORE_ENCRYPT. -/
def execKeystoreEncrypt (r : KeyReq) (s : State) : Host.Outcome State Fault Refusal :=
  .next ((keyRequest r 2 isAesAlg (fun v => (0, Config.sealData v.secret s.free r.data)) s).useFree 1)

/-- KEYSTORE_DECRYPT: a wrong tag is status 6. -/
def execKeystoreDecrypt (r : KeyReq) (s : State) : Host.Outcome State Fault Refusal :=
  .next (keyRequest r 2 isAesAlg (fun v =>
    match Config.openSealed v.secret r.data with
    | some d => (0, d)
    | none => (6, [])) s)

/-- KEYSTORE_WRAP. -/
def execKeystoreWrap (r : KeyReq) (s : State) : Host.Outcome State Fault Refusal :=
  .next (keyRequest r 4 isAesAlg (fun v => (0, Config.wrap v.secret r.data)) s)

/-- Algorithm and usage of a derived session key: TLS traffic keys, SLAC membership keys (Table 18.1). -/
def childAlg (c : U32) : U8 := if pathDomain c = 2 then 0x22 else 0x21

/-- The volatile slot a derivation fills. -/
def childKey (s : State) (v : KeySlot) (r : KeyReq) (c : U32) : KeySlot :=
  let x := Config.derive v.secret c r.data
  { path := c, alg := childAlg c, usage := 0x14, internal := true, pubOnly := false, lc := BitVec.ofNat 8 (lifeCode s.life.fuse)
    secret := x, pub := [], persistent := false, orphaned := false, good := true }

/-- Status of the child path: a session slot of the operational domains below the key, its parent held. -/
def childStatus (s : State) (k : Keystore) (r : KeyReq) (c : U32) : Nat :=
  if !(pathValid c) ∨ pathSession c = 0 ∨ pathPurpose c ≠ 1 ∨ !(operational c) ∨ !(isAncestor r.path c) ∨ !(parentHeld s k c) then 7
  else if pathOrphaned k (pathParent c) then 13
  else if k.freeSlot.isNone then 9
  else 0

/-- A derivation: the child key stands in a volatile slot of the lane. -/
def deriveEffect (r : KeyReq) (c : U32) (s : State) : State :=
  let k := (s.lane r.lane).ks
  match requestStatus s k r 3 isKdfAlg, childStatus s k r c, k.find r.path with
  | 0, 0, some (_, v) => keyRequest r 3 isKdfAlg (fun _ => (0, [])) (recheckSpares (modKs r.lane (putKey (childKey s v r c)) s))
  | 0, 0, none => s
  | 0, st, _ => keyRequest r 3 isKdfAlg (fun _ => (st, [])) s
  | _, _, _ => keyRequest r 3 isKdfAlg (fun _ => (0, [])) s

/-- KEYSTORE_DERIVE. -/
def execKeystoreDerive (r : KeyReq) (child : U32) (s : State) : Host.Outcome State Fault Refusal :=
  .next (if s.modes.mode = .backup ∨ !(inService s r.lane) then s else deriveEffect r child s)

/-- A hash needs no key. -/
def hashEffect (r : KeyReq) (s : State) : State :=
  let c := lifeCode s.life.fuse
  if s.modes.mode = .backup ∨ !(inService s r.lane) then s
  else if r.data.isEmpty then ksStatus r.lane 1 [] s
  else if c = 0 ∨ c = 3 ∨ c = 4 then ksStatus r.lane 12 [] s
  else ksStatus r.lane 0 (Config.hash r.algorithm r.data) s

/-- KEYSTORE_HASH. -/
def execKeystoreHash (r : KeyReq) (s : State) : Host.Outcome State Fault Refusal := .next (hashEffect r s)

/-! ## Replication (R371) -/

/-- KEY_REPLICATION_RECEIVED: a verified envelope is written and acknowledged, and the message reads DONE. -/
def replicationEffect (ok : Bool) (s : State) : State :=
  match activeLane s, standbyLane s with
  | some l, some m =>
    if !ok then s
    else
      let s := modKs m (replicate (s.lane l).ks) s
      if s.life.result = 0xFF then { s with life := (let v := s.life; { v with result := 0 }) } else s
  | _, _ => s

/-- KEY_REPLICATION_RECEIVED. -/
def execKeyReplicationReceived (envelopeOk : Bool) (s : State) : Host.Outcome State Fault Refusal :=
  .next (replicationEffect envelopeOk s)

end Sys2Proof.Machine
end

