-- ==== Sys2Proof/Machine/Fed.lean ====
section
/-! DEFINITION. Site federation on channel C (R171-R174): reports, shares, the leader's division and the fallback. -/

namespace Sys2Proof.Machine

/-- s with the federation changed. -/
def modFed (f : Federation → Federation) (s : State) : State := { s with clk := (let c := s.clk; { c with fed := f c.fed }) }

/-- Node-ID of the device. -/
def ownNode (s : State) : Nat := cfgN s 0x1FA0 1

/-- Federation is enabled (object 3230:01). -/
def fedOn (s : State) : Bool := cfgB s 0x3230 1

/-- Election rank of this hub. -/
def ownRank (s : State) : Nat := cfgN s 0x3230 3

/-- This hub is leader-capable (R172). -/
def leaderCapable (s : State) : Bool := ownRank s != 255 && !(commMode s)

/-- Order of (rank, node-ID). -/
def before (a b : Nat × Nat) : Bool := decide (a.1 < b.1) || (a.1 == b.1 && decide (a.2 < b.2))

/-- A heard hub is leader-capable and has reported in each of the last 3 rounds. -/
def candidate (h : FedHub) : Bool := h.flags.getLsbD 0 && decide (3 ≤ h.run)

/-- This hub finds itself leader. -/
def selfLeader (s : State) : Bool :=
  fedOn s && leaderCapable s
    && s.clk.fed.hubs.all fun h => !(candidate h) || before (ownRank s, ownNode s) (h.rank.toNat, h.node.toNat)

/-- Hubs heard in the last 3 rounds (object 3231:04). -/
def hubsHeard (s : State) : Nat := (s.clk.fed.hubs.filter fun h => decide (h.silent < 3)).length

/-- WANT of this hub, kW (Table 8.11). -/
def ownWant (s : State) : Nat :=
  let h := s.act.share
  ((sumInt h.hi + sumInt h.c + h.pAux) / 1000).toNat

/-- P_imp of the newest record, W. -/
def importPower (s : State) : Nat :=
  match s.act.grid.recs.head? with
  | some r => r.pImp.toNat
  | none => 0

/-! ## The leader's division (R173, R174) -/

/-- Number of the running round of 100 ms of site time (R171). -/
def roundNow (s : State) : Nat := s.site.ns / 100000000

/-- COMMISSION or rank 255 ends a leadership (R172). -/
def dropLead (s : State) : State := if s.clk.fed.leading && !(leads s) then modFed (fun (f : Federation) => { f with leading := false }) s else s

/-- The leader itself as a hub of its own division: its own last report acknowledges its share. -/
def selfHub (s : State) : FedHub :=
  let k := s.clk.fed.lastShare.getD 0
  { node := BitVec.ofNat 8 (ownNode s), rank := BitVec.ofNat 8 (ownRank s), weight := BitVec.ofNat 16 (cfgN s 0x3230 4)
    want := BitVec.ofNat 32 (ownWant s), flags := 1, sent := k, acked := s.clk.fed.ackShare, silent := 0, heard := true, run := 3 }

/-- kW the leader reserves for a silent hub: its last share for 3 rounds, then at most the fallback. -/
def reservation (fallback : Nat) (h : FedHub) : Nat := if h.silent ≤ 3 then h.sent.toNat else min h.sent.toNat fallback

/-- Shares of the hubs from their targets and acknowledged shares. -/
def fedShares (cap : Int) (hubs : List FedHub) (t : List Int) (k : List Int) : List Int :=
  let idx := List.range hubs.length
  let room := max 0 (cap - sumInt k)
  let want := sumInt (idx.map fun i => max 0 (nth t i - nth k i))
  idx.map fun i =>
    let inc := nth t i - nth k i
    if inc ≤ 0 then nth t i else nth k i + min inc (if want = 0 then 0 else room * inc / want)

/-- Every hub with the share of this round. -/
def divideSite (s : State) : List FedHub :=
  let all := (selfHub s :: s.clk.fed.hubs).take 8
  let fallback := cfgN s 0x3230 5
  let quiet := all.filter fun h => h.silent != 0
  let live := all.filter fun h => h.silent == 0
  let reserved : Int := (sumNat (quiet.map (reservation fallback)) : Nat)
  let cap : Int := (cfgN s 0x3230 2 : Nat) - reserved
  let hi := live.map fun h => (h.want.toNat : Int)
  let w := live.map fun h => h.weight.toNat
  let bud := max 0 cap
  let t := bayGrants hi w (waterLevel hi w bud 64 0)
  let sh := fedShares cap live t (live.map fun h => (h.acked.toNat : Int))
  let live := live.mapIdx fun i (h : FedHub) => { h with sent := BitVec.ofInt 32 (nth sh i) }
  let quiet := quiet.map fun (h : FedHub) => { h with sent := BitVec.ofNat 32 (reservation fallback h) }
  live ++ quiet

/-- The share frame waits for its exclusive cell, or is queued in TX1 (R339). -/
def queueShare (f : ShareFrame) (s : State) : State :=
  if shareWaits s then modFed (fun (d : Federation) => { d with dueShare := true }) s
  else queueTx 2 1 (fedFrame s (fedBase s) (shareBytes f)) s

/-- A report still queued is cancelled (R329); the new one waits for its exclusive cell, or is queued in TX1 (R339). -/
def queueReport (f : ReportFrame) (s : State) : State :=
  if reportWaits s then modFed (fun (d : Federation) => { d with dueReport := true }) s
  else
    let id := fedBase s + ownNode s
    queueTx 2 1 (fedFrame s id (reportBytes f)) (modChan 2 (cancelIdent 1 (BitVec.ofNat 29 id)) s)

/-- Round start at the leader: the shares are computed and sent; its own share is taken. -/
def federationShareSendEffect (s : State) : State :=
  if fedOn s && leads s then
    let hubs := divideSite s
    let own := BitVec.ofNat 8 (ownNode s)
    let round := s.clk.fed.round + 1
    let mine := ((hubs.find? fun h => h.node == own).map FedHub.sent).getD 0
    let frame : ShareFrame :=
      { ver := 1, leader := own, rank := BitVec.ofNat 8 (ownRank s), round := round, entries := hubs.map fun h => (h.node, h.sent) }
    queueShare frame (modFed (fun (f : Federation) =>
      { f with round := round, lastShare := some mine, fallback := false, txShare := some frame
               hubs := hubs.filter fun h => h.node != own }) s)
  else dropLead s

/-- FEDERATION_SHARE_SEND. -/
def execFederationShareSend (s : State) : Host.Outcome State Fault Refusal := .next (federationShareSendEffect s)

/-! ## Reports -/

/-- The round of a hub closes: a report heard keeps its run, silence is counted. -/
def closeRound (h : FedHub) : FedHub :=
  if h.heard then { h with heard := false, silent := 0, run := h.run + 1 }
  else { h with silent := h.silent + 1, run := 0 }

/-- The latest share's reductions have applied: the last run took it and nothing is pending (Table 8.11, ACK). -/
def shareSettled (s : State) : Bool :=
  s.act.share.sh == siteShare s && s.act.share.pending.all ShareRun.half

/-- The report this hub sends. -/
def ownReport (s : State) (ack : U16) : ReportFrame :=
  { node := BitVec.ofNat 8 (ownNode s), ver := 1
    flags := BitVec.ofNat 8 (flagBits [(0, leaderCapable s), (1, commMode s), (2, s.clk.fed.fallback)])
    rank := BitVec.ofNat 8 (ownRank s), ack := ack, weight := BitVec.ofNat 16 (cfgN s 0x3230 4)
    want := BitVec.ofNat 32 (ownWant s), applied := s.clk.fed.ackShare
    draw := BitVec.ofNat 32 (importPower s / 1000) }

/-- 50 ms after a round start: the report is composed, and the round's reports are closed. -/
def federationReportSendEffect (s : State) : State :=
  if !(fedOn s) then s
  else
    let s := dropLead s
    let s := if shareSettled s then
        modFed (fun (f : Federation) => { f with ack := f.round, ackShare := BitVec.ofNat 32 (siteShare s / 1000).toNat }) s
      else s
    let r := ownReport s s.clk.fed.ack
    let s := modFed (fun (f : Federation) =>
      { f with txReport := if commMode s then f.txReport else some r, hubs := f.hubs.map closeRound }) s
    if commMode s then s else queueReport r s

/-- FEDERATION_REPORT_SEND. -/
def execFederationReportSend (s : State) : Host.Outcome State Fault Refusal := .next (federationReportSendEffect s)

/-- ACK names a round sent: at most the present one. -/
def ackKnown (round ack : U16) : Bool := decide ((round - ack).toNat < 0x8000)

/-- A hub's entry from its report; the acknowledged share is taken where ACK names a sent round, and is 0 before such a report. -/
def hubFrom (round : U16) (old : Option FedHub) (f : ReportFrame) : FedHub :=
  let k := if ackKnown round f.ack then f.applied else (old.map FedHub.acked).getD 0
  { node := f.node, rank := f.rank, weight := f.weight, want := f.want, flags := f.flags
    sent := (old.map FedHub.sent).getD 0, acked := k, silent := 0, heard := true
    run := (old.map FedHub.run).getD 0 }

/-- A report arrives: the hub's entry is written; at most 7 other hubs are held, in the order first heard. -/
def federationReportEffect (f : ReportFrame) (s : State) : State :=
  if !(fedOn s) || f.ver != 1 || f.node.toNat == ownNode s then s
  else
    modFed (fun (d : Federation) =>
      match d.hubs.find? fun h => h.node == f.node with
      | some old => { d with hubs := d.hubs.map fun h => if h.node = f.node then hubFrom d.round (some old) f else h }
      | none => if d.hubs.length < 7 then { d with hubs := d.hubs ++ [hubFrom d.round none f] } else d) s

/-- FEDERATION_REPORT_RECEIVED. -/
def execFederationReportReceived (f : ReportFrame) (s : State) : Host.Outcome State Fault Refusal :=
  .next (federationReportEffect f s)

/-! ## Shares and leaders -/

/-- Share a frame gives this hub. -/
def frameShare (s : State) (f : ShareFrame) : Option U32 :=
  (f.entries.find? fun e => e.1.toNat == ownNode s).map Prod.snd

/-- The federation after a share frame: the lower of two leaders' shares in one round; a leader yields to a lower one. -/
def takeShare (now : Nat) (own : Nat × Nat) (share : U32) (f : ShareFrame) (d : Federation) : Federation :=
  let from_ := (f.rank.toNat, f.leader.toNat)
  let two := d.sharedIn == some now && d.leaderNode != f.leader
  let v := if two then (if share.toNat < (d.lastShare.getD share).toNat then share else d.lastShare.getD share) else share
  { d with
    leading := d.leading && !(before from_ own)
    changes := if d.leaderNode = f.leader then d.changes else d.changes + 1
    leaderNode := f.leader, leaderRank := f.rank, round := f.round
    dual := if two then d.dual + 1 else d.dual
    lastShare := some v, sharedIn := some now, fallback := false }

/-- A leader stops at once for a hub with lower (rank, node-ID), whether or not its frame names this hub. -/
def yieldLead (f : ShareFrame) (d : Federation) : Federation :=
  { d with leading := false, leaderNode := f.leader, leaderRank := f.rank, changes := if d.leaderNode = f.leader then d.changes else d.changes + 1 }

/-- A share frame arrives (R172, R174). -/
def federationShareEffect (f : ShareFrame) (s : State) : State :=
  if !(fedOn s) || f.ver != 1 then s
  else
    let s := dropLead s
    let own := (ownRank s, ownNode s)
    let new := s.clk.fed.leaderNode != f.leader
    match frameShare s f with
    | none =>
      if s.clk.fed.leading && before (f.rank.toNat, f.leader.toNat) own then
        let s := modFed (yieldLead f) s
        if new then evt (eventReq .leaderChange 127 [f.leader.toNat]) s else s
      else s
    | some share =>
      if s.clk.fed.leading && before own (f.rank.toNat, f.leader.toNat) then s
      else
        let s := modFed (takeShare (roundNow s) own share f) s
        if new then evt (eventReq .leaderChange 127 [f.leader.toNat]) s else s

/-- FEDERATION_SHARE_RECEIVED. -/
def execFederationShareReceived (f : ShareFrame) (s : State) : Host.Outcome State Fault Refusal :=
  .next (federationShareEffect f s)

/-- No share frame for 300 ms: FALLBACK (R174). -/
def federationFallbackEffect (s : State) : State :=
  if fedOn s && !(leads s) then
    evt (eventReq .shareFallback 127 []) (modFed (fun f => { f with fallback := true }) (dropLead s))
  else s

/-- FEDERATION_FALLBACK. -/
def execFederationFallback (s : State) : Host.Outcome State Fault Refusal := .next (federationFallbackEffect s)

/-- A hub that finds itself leader starts to send shares (R172). -/
def leaderTakeoverEffect (s : State) : State :=
  let s := dropLead s
  if selfLeader s && !s.clk.fed.leading then
    let s := modFed (fun (f : Federation) =>
      { f with leading := true, leaderNode := BitVec.ofNat 8 (ownNode s), leaderRank := BitVec.ofNat 8 (ownRank s)
               changes := f.changes + 1 }) s
    evt (eventReq .leaderChange 127 [ownNode s]) s
  else s

/-- LEADER_TAKEOVER. -/
def execLeaderTakeover (s : State) : Host.Outcome State Fault Refusal := .next (leaderTakeoverEffect s)

/-- Role of the hub (object 3231:02). -/
def fedRole (s : State) : Nat :=
  if !(fedOn s) then 0
  else if commMode s then 4
  else if leads s then 2
  else if s.clk.fed.fallback then 3
  else 1

end Sys2Proof.Machine
end

