-- ==== Sys2Proof/Machine/ThermalNet.lean ====
section
/-! DEFINITION. The node networks of the thermal model: one explicit step (R199), the predictions by backward Euler (R209), sensor
checks (R203-R205), correction (R201) and threshold levels (R206, R207). Temperatures are integers in units of 2^-16 x 0.001
degC; sums and products are exact rationals rounded once by R123 (log entry 9). -/

namespace Sys2Proof.Machine

/-! ## Units -/

/-- Units in 1 K. -/
def kelvin : Int := 65536000

/-- Units of a value in 0.001 degC. -/
def ofMilli (m : Int) : Int := m * 65536

/-- degC of a temperature. -/
def degC (t : Int) : ℚ := (t : ℚ) / 65536000

/-- Nearest integer, ties toward plus infinity (R123). -/
def roundQ (q : ℚ) : Int := (q + 1 / 2).floor

/-- Square root rounded down of a rational that is not negative. -/
def sqrtQ (q : ℚ) : Nat := Nat.sqrt q.floor.toNat

/-- Sum of rationals. -/
def sumQ (l : List ℚ) : ℚ := l.foldl (· + ·) 0

/-! ## Classes (R208, object 3410+c) -/

/-- Field k of class c as a signed number. -/
def classI (s : State) (c k : Nat) : Int := cfgI s (0x3410 + c) k

/-- Field k of class c as a natural. -/
def classN (s : State) (c k : Nat) : Nat := cfgN s (0x3410 + c) k

/-- A High threshold in units, none where it is disabled. -/
def highAt (s : State) (c k : Nat) : Option Int :=
  let v := classI s c k
  if v = 0x7FFFFFFF then none else some (ofMilli v)

/-- A Low threshold in units, none where it is disabled. -/
def lowAt (s : State) (c k : Nat) : Option Int :=
  let v := classI s c k
  if v = -0x80000000 then none else some (ofMilli v)

/-- A field of class c in 0.1 K as units. -/
def tenthK (s : State) (c k : Nat) : Int := ofMilli (classN s c k * 100 : Nat)

/-- Quarantine margin of a class. -/
def marginOf (s : State) (c : Nat) : Int := tenthK s c 0xC

/-! ## A node network (R197, R198) -/

/-- One channel's network: class and kind of each node, capacity in J/K, conductances in W/K between nodes and to boundary
values, and the coolant's heat flow into an outlet from an inlet. -/
structure ThNet where
  cls : List Nat
  driven : List Bool
  cap : List ℚ
  links : List (Nat × Nat × ℚ)
  bound : List (Nat × ℚ × ℚ)
  flowIn : Option (Nat × Nat × ℚ)

/-- A node the step moves: no driven node, and its capacity is not 0 (log entry 9). -/
def ThNet.moves (g : ThNet) (i : Nat) : Bool := !(nth g.driven i) && (g.cap.getD i 0 != 0)

/-- The exchange terms of node i: pairs of conductance and neighbour temperature. -/
def ThNet.terms (g : ThNet) (t : List ℚ) (i : Nat) : List (ℚ × ℚ) :=
  (g.links.filterMap fun l =>
    if l.1 = i then some (l.2.2, t.getD l.2.1 0) else if l.2.1 = i then some (l.2.2, t.getD l.1 0) else none)
    ++ (g.bound.filterMap fun b => if b.1 = i then some (b.2.1, b.2.2) else none)
    ++ (match g.flowIn with
        | some f => if f.1 = i then [(f.2.2, t.getD f.2.1 0)] else []
        | none => [])

/-- The model step, s. -/
def thDt : ℚ := 1 / 200

/-- One explicit step from the old values of all nodes (R199). -/
def ThNet.step (g : ThNet) (heat : List ℚ) (t : List Int) : List Int :=
  let tc := t.map degC
  t.mapIdx fun i ti =>
    if g.moves i then
      let q := heat.getD i 0 + sumQ ((g.terms tc i).map fun p => p.1 * (p.2 - degC ti))
      ti + roundQ (thDt * q / g.cap.getD i 1 * 65536000)
    else ti

/-! ## Prediction by backward Euler (R209) -/

/-- Gaussian elimination in node order on augmented rows. -/
def solveLin : Nat → List (List ℚ) → List ℚ
  | 0, _ => []
  | _ + 1, [] => []
  | k + 1, r :: rs =>
    let p := r.headD 1
    let rest := rs.map fun row =>
      let f := row.headD 0 / p
      List.zipWith (fun a b => a - f * b) row.tail r.tail
    let xs := solveLin k rest
    let rhs := r.getLastD 0
    let known := sumQ (List.zipWith (· * ·) r.tail xs)
    ((rhs - known) / p) :: xs

/-- Conductance between nodes i and j, with the coolant's for an outlet i and its inlet j. -/
def ThNet.between (g : ThNet) (i j : Nat) : ℚ :=
  sumQ (g.links.map fun l => if (l.1 = i ∧ l.2.1 = j) ∨ (l.1 = j ∧ l.2.1 = i) then l.2.2 else 0)
    + (match g.flowIn with
       | some f => if f.1 = i ∧ f.2.1 = j then f.2.2 else 0
       | none => 0)

/-- Row of node i for a step of h seconds. -/
def ThNet.row (g : ThNet) (h : ℚ) (heat t : List ℚ) (i : Nat) : List ℚ :=
  let n := t.length
  if g.moves i then
    let c := g.cap.getD i 1 / h
    let out := sumQ ((g.terms t i).map (·.1))
    let b := sumQ (g.bound.map fun b => if b.1 = i then b.2.1 * b.2.2 else 0)
    ((List.range n).map fun j => if i = j then c + out else -(g.between i j)) ++ [c * t.getD i 0 + heat.getD i 0 + b]
  else ((List.range n).map fun j => if i = j then 1 else 0) ++ [t.getD i 0]

/-- The prediction over a horizon of seconds in 40 equal steps. -/
def ThNet.predict (g : ThNet) (horizon : ℚ) (heat t : List ℚ) : List ℚ :=
  (List.range 40).foldl (fun t _ =>
    solveLin t.length ((List.range t.length).map (g.row (horizon / 40) heat t))) t

/-! ## Sensors (R203-R205) -/

/-- One configured sensor of a channel: its index, its node, and whether its link is UP. -/
structure SensIn where
  idx : Nat
  node : Nat
  up : Bool

/-- The last word of a sensor passes range and step (R204). -/
def rangeOk (s : State) (cls : Nat) (w : Int) : Bool := decide (classI s cls 9 ≤ w ∧ w ≤ classI s cls 0xA)

/-- The step limit against the previous VALID value. -/
def stepOk (s : State) (cls : Nat) (k : Sensor) (w : Int) : Bool :=
  match k.prev with
  | some p => decide ((w - p).natAbs ≤ classN s cls 0xB * 100)
  | none => true

/-- The sensor can serve as a neighbour: a VALID word within range and step, on an UP link, not quarantined. -/
def sensCandidate (s : State) (g : ThNet) (c : ThChan) (i : SensIn) : Bool :=
  let k := nth c.sensors i.idx
  match k.word with
  | some w => i.up && k.st != .quarantined && rangeOk s (nth g.cls i.node) w && stepOk s (nth g.cls i.node) k w
  | none => false

/-- T - t of a sensor in units. -/
def residual (c : ThChan) (i : SensIn) : Int :=
  match (nth c.sensors i.idx).word with
  | some w => ofMilli w - (nth c.nodes i.node).t
  | none => 0

/-- Nodes i and j are linked. -/
def ThNet.linked (g : ThNet) (i j : Nat) : Bool :=
  g.links.any fun l => (l.1 == i && l.2.1 == j) || (l.1 == j && l.2.1 == i)

/-- Up to 3 neighbours: the same node first, then linked nodes, each in word order. -/
def neighbours (s : State) (g : ThNet) (c : ThChan) (all : List SensIn) (i : SensIn) : List SensIn :=
  let cand := all.filter fun k => k.idx != i.idx && sensCandidate s g c k
  ((cand.filter fun k => k.node == i.node) ++ (cand.filter fun k => g.linked i.node k.node)).take 3

/-- Some neighbour agrees within the class tolerance. -/
def agrees (s : State) (g : ThNet) (c : ThChan) (all : List SensIn) (i : SensIn) : Bool :=
  let tol := tenthK s (nth g.cls i.node) 8
  (neighbours s g c all i).any fun k => decide ((residual c i - residual c k).natAbs ≤ tol.toNat)

/-- The residual of a state node's sensor exceeds the tolerance. -/
def residualFar (s : State) (g : ThNet) (c : ThChan) (i : SensIn) : Bool :=
  !(nth g.driven i.node) && decide ((tenthK s (nth g.cls i.node) 8).toNat < (residual c i).natAbs)

/-- The sensor passes every check of this update. -/
def sensorPasses (s : State) (g : ThNet) (c : ThChan) (all : List SensIn) (i : SensIn) : Bool :=
  match (nth c.sensors i.idx).word with
  | none => false
  | some w =>
    let cls := nth g.cls i.node
    if nth g.driven i.node then
      if (neighbours s g c all i).isEmpty then rangeOk s cls w
      else rangeOk s cls w && stepOk s cls (nth c.sensors i.idx) w && agrees s g c all i
    else
      rangeOk s cls w && stepOk s cls (nth c.sensors i.idx) w && (!(residualFar s g c i) || agrees s g c all i)

/-- State of a sensor after the update's checks; q is the quarantine count. -/
def sensorNext (q : Nat) (up pass : Bool) (k : Sensor) : Sensor :=
  let k' : Sensor :=
    if k.st = .quarantined then k
    else if !up then { k with st := .unavailable }
    else if pass then { k with st := .valid, count := 0, prev := k.word }
    else if q ≤ k.count + 1 then { k with st := .quarantined, count := min 63 (k.count + 1) }
    else { k with st := .failing, count := k.count + 1 }
  { k' with word := none }

/-! ## One channel's update -/

/-- What an update of a channel yields besides its nodes and sensors. -/
structure ChanOut where
  chan : ThChan
  /-- sensors quarantined now -/
  quarantined : List Nat
  /-- the margin that applies to each node (R206); sensors of a link not UP count as none (R203) -/
  margins : List Int

/-- Mean of the VALID sensors' values in units, none without one. -/
def meanOf (ws : List Int) : Option Int := if ws.isEmpty then none else some (roundDiv (sumInt ws * 65536) ws.length)

/-- Values of the sensors of node n that passed. -/
def validWords (c : ThChan) (pass : List (SensIn × Bool)) (n : Nat) : List Int :=
  pass.filterMap fun p => if p.1.node = n ∧ p.2 then (nth c.sensors p.1.idx).word else none

/-- Initial temperatures of a channel (R196). -/
def initNodes (c : ThChan) (pass : List (SensIn × Bool)) (ambient : Int) : List Int :=
  let all := meanOf (pass.filterMap fun p => if p.2 then (nth c.sensors p.1.idx).word else none)
  (List.range c.nodes.length).map fun n => ((meanOf (validWords c pass n)).orElse fun _ => all).getD (ofMilli ambient)

/-- A level with hysteresis: set at the set value, cleared beyond set value and hysteresis. -/
def levelHigh (lim : Option Int) (hys : Int) (old : Bool) (t : Int) : Bool :=
  match lim with
  | none => false
  | some v => if v ≤ t then true else if t < v - hys then false else old

/-- The same for a Low level. -/
def levelLow (lim : Option Int) (hys : Int) (old : Bool) (t : Int) : Bool :=
  match lim with
  | none => false
  | some v => if t ≤ v then true else if v + hys < t then false else old

/-- Levels of a node with margin m (R206, R207). -/
def levels (s : State) (cls : Nat) (m : Int) (y : Node) (that : Int) : Node :=
  let hys := tenthK s cls 6
  let high := fun k => (highAt s cls k).map (· - m)
  let low := fun k => (lowAt s cls k).map (· + m)
  let lim := tenthK s cls 7
  let rise := y.hist[199]?.map (that - ·)
  let rate :=
    match rise with
    | some r => if lim < r then true else if 2 * r < lim then false else y.rate
    | none => y.rate
  { y with
    that := that
    warn := levelHigh (high 3) hys y.warn that
    derate := levelHigh (high 4) hys y.derate that
    stop := levelHigh (high 5) hys y.stop that
    lowLimit := levelLow (low 2) hys y.lowLimit that
    lowStop := levelLow (low 1) hys y.lowStop that
    rate := rate
    hist := (that :: y.hist).take 200 }

/-- Node n after the correction (R201). -/
def correct (s : State) (g : ThNet) (gain : Nat) (meas : Option Int) (n : Nat) (y : Node) : Node :=
  if nth g.driven n then
    match meas with
    | some v => { y with t := v, lostSensor := false }
    | none => if y.lostSensor then y else { y with t := y.t + marginOf s (nth g.cls n), lostSensor := true }
  else
    match meas with
    | some v => { y with t := y.t + roundQ ((gain : ℚ) / 256 * (v - y.t : Int)) }
    | none => y

/-- A channel's update: step or initialisation, sensor checks, correction, levels (R195, R196, R199-R207). -/
def chanUpdate (s : State) (g : ThNet) (heat : List ℚ) (sens : List SensIn) (gain q : Nat) (ambient : Int) (c : ThChan) :
    ChanOut :=
  let cleared : ThChan :=
    if c.init then
      { c with nodes := c.nodes.map fun (_ : Node) => { (default : Node) with lostSensor := true },
               sensors := c.sensors.map fun (k : Sensor) =>
                 if k.st = .quarantined then k else { k with count := 0, prev := none } }
    else c
  let stepped : ThChan :=
    if c.init then cleared
    else
      let ts := g.step heat (c.nodes.map (·.t))
      { c with nodes := c.nodes.mapIdx fun i (y : Node) => { y with t := ts.getD i y.t } }
  let pass := sens.map fun i =>
    (i, i.up && (nth stepped.sensors i.idx).st != .quarantined &&
      (if c.init then
        (match (nth stepped.sensors i.idx).word with
         | some w => rangeOk s (nth g.cls i.node) w
         | none => false)
       else sensorPasses s g stepped sens i))
  let meas := (List.range c.nodes.length).map fun n => meanOf (validWords stepped pass n)
  let inits := initNodes stepped pass ambient
  let nodes :=
    if c.init then stepped.nodes.mapIdx fun n (y : Node) =>
      { y with t := inits.getD n 0, lostSensor := (nth meas n).isNone }
    else stepped.nodes.mapIdx fun n y => correct s g gain (nth meas n) n y
  let model := !c.init && pass.any fun p => p.2 && residualFar s g stepped p.1
  let margins := (List.range c.nodes.length).map fun n =>
    if model || (sens.any (fun i => i.node == n && i.up) && (nth meas n).isNone) then marginOf s (nth g.cls n) else 0
  let nodes := nodes.mapIdx fun n (y : Node) =>
    let that := match nth meas n with
      | some v => max y.t v
      | none => y.t
    levels s (nth g.cls n) (nth margins n) y that
  let sensors := stepped.sensors.mapIdx fun k x =>
    match pass.find? fun p => p.1.idx == k with
    | some p => sensorNext q p.1.up p.2 x
    | none => { x with st := if x.st = .quarantined then .quarantined else .unavailable, word := none }
  let newQ := (List.range sensors.length).filter fun k =>
    (nth sensors k).st == .quarantined && (nth stepped.sensors k).st != .quarantined
  { chan := { stepped with nodes := nodes, sensors := sensors, init := false,
                           flags := if model then 0x80 else 0 }
    quarantined := newQ
    margins := margins }

/-! ## Ceilings (R209) -/

/-- Targets in degC: High-Derate adjusted by R206. -/
def targets (s : State) (g : ThNet) (margins : List Int) : List (Option ℚ) :=
  g.cls.mapIdx fun n c => (highAt s c 4).map fun v => degC (v - nth margins n)

/-- Smallest of the per-node quotients (target - free) / rise over the nodes whose rise is positive; none without one. -/
def tightest (tg : List (Option ℚ)) (free unit : List ℚ) : Option ℚ :=
  (List.range free.length).foldl (fun best n =>
    match tg.getD n none with
    | none => best
    | some v =>
      let rise := unit.getD n 0 - free.getD n 0
      if 0 < rise then
        let r := max 0 (v - free.getD n 0) / rise
        match best with
        | some b => some (if r < b then r else b)
        | none => some r
      else best) none

/-- A ceiling in 0.1 A for the factor r of I_u^2, limited to I_max (A). -/
def ceilingOf (r : Option ℚ) (iu imax : Nat) : Nat :=
  match r with
  | some q => min (sqrtQ (q * (iu * iu * 100 : Nat))) (imax * 10)
  | none => imax * 10

/-- Threshold actions on a ceiling in 0.1 A (Table 10.5). -/
def actions (s : State) (g : ThNet) (margins : List Int) (nodes : List Node) (imax rms : Nat) (c : Nat) : Nat :=
  (List.range nodes.length).foldl (fun c n =>
    let y := nth nodes n
    let cls := nth g.cls n
    let m := nth margins n
    let c :=
      if y.derate then
        match highAt s cls 4, highAt s cls 5 with
        | some d, some st =>
          if st ≤ d then c else min c ((imax * 10 : Nat) * max 0 (st - m - y.that) / (st - d)).toNat
        | _, _ => c
      else c
    let c := if y.stop || y.lowStop then 0 else c
    let c := if y.lowLimit then min c (imax * 10 * classN s cls 0xD / 1000) else c
    if y.rate then min c rms else c) c

/-- Flags of Table 10.14 that the nodes and sensors of a channel give. -/
def chanFlags (c : ThChan) (model flowFb suspect : Bool) : Nat :=
  (if c.nodes.any (·.warn) then 1 else 0) + (if c.nodes.any (·.derate) then 2 else 0) + (if c.nodes.any (·.stop) then 4 else 0)
    + (if c.nodes.any (·.lowLimit) then 8 else 0) + (if c.nodes.any (·.lowStop) then 16 else 0)
    + (if c.nodes.any (·.rate) then 32 else 0) + (if c.sensors.any (·.st == .quarantined) then 64 else 0)
    + (if model then 128 else 0) + (if flowFb then 256 else 0) + (if suspect then 512 else 0)

end Sys2Proof.Machine
end

