-- ==== Sys2Proof/Machine/Thermal.lean ====
section
/-! DEFINITION. The thermal model and cable cooling (R194-R214): accumulators, the channels of bays, modules, strings and the
transformer, ceilings, pump and fan demands, publication and the release of sensors. -/

namespace Sys2Proof.Machine

/-! ## Accumulators (R15, R195) -/

/-- One period of a source: its current squared and flow, the last VALID value where the sample is not. -/
def ThAcc.take (a : ThAcc) (i : Option Int) (iLast : Int) (f : Option Int) (fLast : Int) : ThAcc :=
  let iv := i.getD iLast
  { sumI2 := a.sumI2 + (iv * iv).toNat, sumFlow := a.sumFlow + f.getD fLast, n := a.n + 1,
    subI := a.subI + (if i.isNone then 1 else 0), subFlow := a.subFlow + (if f.isNone then 1 else 0)
    badFlow := a.badFlow || decide (f.getD 0 < 0) }

/-- A source is suspect: more than 20 substituted periods, or none summed. -/
def suspect (n sub : Nat) : Bool := n == 0 || decide (20 < sub)

/-- The sums start again. -/
def ThAcc.zero : ThAcc := { sumI2 := 0, sumFlow := 0, n := 0, subI := 0, subFlow := 0, badFlow := false }

/-- A channel that is not used: its sums start again at every update, its other fields stand. -/
def ThChan.idle (c : ThChan) : ThChan := { c with acc := ThAcc.zero }

/-- Mean of current squared, A^2. -/
def ThAcc.i2 (a : ThAcc) : ℚ := if a.n = 0 then 0 else (a.sumI2 : ℚ) / (a.n * 4000000 : Nat)

/-- A sensor takes the period's word where it is VALID. -/
def Sensor.take (w : Option Int) (k : Sensor) : Sensor :=
  match w with
  | some v => { k with word := some v }
  | none => k

/-- A channel takes a period: its source and the words of its sensors. -/
def ThChan.take (c : ThChan) (i : Option Int) (iLast : Int) (f : Option Int) (fLast : Int) (words : List (Option Int)) : ThChan :=
  { c with acc := c.acc.take i iLast f fLast
           sensors := c.sensors.mapIdx fun k y => Sensor.take (words.getD k none) y }

/-- Frame-word code of hub source k (object 3401). -/
def hubCode (s : State) (k : Nat) : Option (Nat × Nat) :=
  let c := cfgN s 0x3401 (k + 1)
  if c < 0x4000 then some (c / 256 % 64, c % 256) else none

/-- The thermal accumulator takes the frame bank of the period. -/
def thermalTake (s : State) (x : LaneState) : LaneState :=
  let t := x.th
  { x with th :=
    { t with
      bays := t.bays.mapIdx fun i c =>
        let n := bayLink s i
        c.take (linkMeas s x n 2) (headLast s x i 2) (linkMeas s x n 3) (headLast s x i 3)
          ((List.range 16).map fun k => linkMeas s x n (5 + k))
      mods := t.mods.mapIdx fun j c =>
        let last := match modLink s j with
          | some (n, m) => (x.link n).wordI (2 + 4 * m)
          | none => 0
        c.take (moduleMeas s x j 0) last none 0 [moduleMeas s x j 2]
      strs := t.strs.mapIdx fun i c =>
        let n := strLink s i
        c.take (linkMeas s x n 2) (strLast s x i 2) none 0 ((List.range 8).map fun k => linkMeas s x n (4 + k))
      hub := t.hub.mapIdx fun k y =>
        match hubCode s k with
        | some (n, w) => Sensor.take (linkMeas s x (some n) w) y
        | none => y } }

/-! ## Hub sources (Table 10.10) -/

/-- A hub source checked by range alone; class 7 for ambient, none for the cabinet coolant. -/
def hubUpdate (s : State) (x : LaneState) (k : Nat) (cls : Option Nat) (y : Sensor) : Sensor × Bool :=
  match hubCode s k with
  | none => ({ y with word := none }, false)
  | some (n, _) =>
    let pass := match y.word with
      | some w => (match cls with
        | some c => rangeOk s c w && stepOk s c y w
        | none => true)
      | none => false
    let up := x.linkUp n
    let y' := sensorNext Config.fixedQuarantine up pass y
    (y', y'.st == .quarantined && y.st != .quarantined)

/-- Value in use of a hub source: its VALID sensor, else the object's value. -/
def hubValue (s : State) (sub : Nat) (old new : Sensor) : Int :=
  if new.st = .valid then old.word.getD (cfgI s 0x3401 sub) else cfgI s 0x3401 sub

/-! ## Networks (R197, R198) -/

/-- Cable profile of bay i. -/
def profN (s : State) (i k : Nat) : Nat := cfgN s (bayN s i 0x15) k

/-- UNSIGNED32 number j of an octet string of a profile. -/
def profVec (s : State) (i k j : Nat) : Nat := field (cfgBytes s (bayN s i 0x15) k) (4 * j) 4

/-- mW/K as W/K. -/
def milliW (n : Nat) : ℚ := (n : ℚ) / 1000

/-- Network of bay i's cable with the coolant flow in 0.01 l/min. -/
def cableNet (s : State) (i : Nat) (flow : ℚ) (ambient : ℚ) : ThNet :=
  let g := fun k => milliW (profVec s i 5 k)
  { cls := [0, 1, 2, 3, 4, 4, 5, 6]
    driven := [false, false, true, false, false, false, false, false]
    cap := (List.range 8).map fun k => (profVec s i 4 k : ℚ) / 10
    links := [(0, 1, g 0), (1, 7, g 1), (0, 3, g 3), (4, 0, g 4), (5, 0, g 5), (4, 3, g 6), (5, 3, g 7), (4, 6, g 8), (5, 6, g 8)]
    bound := [(7, g 2, ambient), (6, g 9, ambient)]
    flowIn := some (3, 2, flow / 6000 * profN s i 6) }

/-- Network of a module. -/
def moduleNet (s : State) (coolant : ℚ) : ThNet :=
  { cls := [9, 8], driven := [false, false]
    cap := [(cfgN s 0x3404 4 : ℚ) / 10, (cfgN s 0x3404 5 : ℚ) / 10]
    links := [(0, 1, milliW (cfgN s 0x3404 6))], bound := [(1, milliW (cfgN s 0x3404 7), coolant)], flowIn := none }

/-- Network of a string. -/
def stringNet (s : State) (ambient : ℚ) : ThNet :=
  { cls := [10, 11], driven := [false, false]
    cap := [(cfgN s 0x3405 3 : ℚ) / 10, (cfgN s 0x3405 4 : ℚ) / 10]
    links := [(0, 1, milliW (cfgN s 0x3405 5))]
    bound := [(0, milliW (cfgN s 0x3405 6), ambient), (1, milliW (cfgN s 0x3405 7), ambient)], flowIn := none }

/-- Network of the transformer: top oil, winding. -/
def xfmrNet (s : State) (ambient : ℚ) : ThNet :=
  { cls := [12, 13], driven := [false, false]
    cap := [(cfgN s 0x3402 4 : ℚ) * 1000, (cfgN s 0x3402 6 : ℚ) * 1000]
    links := [(1, 0, (cfgN s 0x3402 7 : ℚ))], bound := [(0, (cfgN s 0x3402 5 : ℚ), ambient)], flowIn := none }

/-! ## Heat (Table 10.3) -/

/-- Resistance in ohm of micro-ohms at 20 degC with coefficient alpha in 10^-6 /K at a temperature. -/
def resistance (micro alpha : Nat) (t : ℚ) : ℚ := (micro : ℚ) / 1000000 * (1 + (alpha : ℚ) / 1000000 * (t - 20))

/-- Heat of a cable for i2 A^2 with the core and the pins at the temperatures given. -/
def cableHeat (s : State) (i : Nat) (i2 tc tp tm : ℚ) : List ℚ :=
  [resistance (profN s i 1) (profN s i 2) tc * i2, 0, 0, 0, resistance (profN s i 3) (profN s i 2) tp * i2,
   resistance (profN s i 3) (profN s i 2) tm * i2, 0, 0]

/-- Heat of a module's power stage for a current in A and its square. -/
def stageHeat (s : State) (i i2 : ℚ) : ℚ :=
  (cfgN s 0x3404 1 : ℚ) + (cfgN s 0x3404 2 : ℚ) / 1000 * i + (cfgN s 0x3404 3 : ℚ) / 1000000 * i2

/-- Heat of a string. -/
def stringHeat (s : State) (i2 tb : ℚ) : List ℚ :=
  [(cfgN s 0x3405 2 : ℚ) / 1000000 * i2, resistance (cfgN s 0x3405 1) 3930 tb * i2]

/-- Root of the mean square in uA, as A. -/
def rootA (i2 : ℚ) : ℚ := (sqrtQ (i2 * 1000000000000) : ℚ) / 1000000

/-- Root of the mean square in 0.1 A. -/
def rmsDeci (i2 : ℚ) : Nat := sqrtQ (i2 * 100)

/-- Square in A^2 of a current in word units. -/
def wordsSq (w : Int) : ℚ := (w * w : Int) / 4000000

/-! ## Substitutions (R200) -/

/-- Sum of the current words of the modules whose POS is bay i, where any is VALID. -/
def moduleSum (s : State) (x : LaneState) (i : Nat) : Option Int :=
  let ws := (List.range 96).filterMap fun j =>
    if cabUp s x j && modPos (moduleLast s x j) == i + 1 then
      match modLink s j with
      | some (n, m) => (match (x.link n).lastWords[2 + 4 * m]? with
        | some v => if v = 0x800000 then none else some v.toInt
        | none => none)
      | none => none
    else none
  if ws.isEmpty then none else some (sumInt ws)

/-- Mean square of a bay and whether it was substituted. -/
def bayI2 (s : State) (x : LaneState) (i : Nat) : ℚ × Bool :=
  let a := (nth x.th.bays i).acc
  if suspect a.n a.subI || !(headUp s x i) then
    (match moduleSum s x i with
     | some w => wordsSq w
     | none => wordsSq (nth x.share.ilim i), true)
  else (a.i2, false)

/-- Mean square of a module. -/
def modI2 (x : LaneState) (j : Nat) : ℚ × Bool :=
  let a := (nth x.th.mods j).acc
  if suspect a.n a.subI then (max a.i2 (((x.mod j).mlim : ℚ) ^ 2 / 100), true) else (a.i2, false)

/-- Mean square of a string. -/
def strI2 (x : LaneState) (i : Nat) : ℚ × Bool :=
  let a := (nth x.th.strs i).acc
  if suspect a.n a.subI then (max a.i2 (wordsSq (nth x.share.slim i)), true) else (a.i2, false)

/-- Flow of a bay in 0.01 l/min and whether the fallback is used: where the source is suspect or a word failed its range
check (R200). -/
def bayFlow (s : State) (x : LaneState) (i : Nat) : ℚ × Bool :=
  let a := (nth x.th.bays i).acc
  if suspect a.n a.subFlow || a.badFlow then ((profN s i 8 : ℚ), true)
  else ((a.sumFlow : ℚ) / (a.n * 10 : Nat), false)

/-! ## Bays -/

/-- Sensors of bay i from its channel map (R202). -/
def baySensors (s : State) (x : LaneState) (i : Nat) : List SensIn :=
  let map := cfgBytes s (0x3000 + i) 0x1A
  (List.range 16).filterMap fun k =>
    let b := (nth map k).toNat
    if b = 0xFF then none else some { idx := k, node := b / 32, up := headUp s x i }

/-- Node n's assessed temperature in degC. -/
def thatC (c : ThChan) (n : Nat) : ℚ := degC (nth c.nodes n).that

/-- High-Derate of a class in degC. -/
def derateC (s : State) (cls : Nat) : ℚ := degC (ofMilli (classI s cls 4))

/-- The three ceilings of bay i in 0.1 A. -/
def bayCeilings (s : State) (i : Nat) (g : ThNet) (o : ChanOut) (rms : Nat) : Nat × Nat × Nat :=
  let t0 := o.chan.nodes.map fun y => degC y.that
  let iu := bayN s i 8
  let imax := profN s i 7
  let unit := cableHeat s i ((iu * iu : Nat) : ℚ) (derateC s 0) (derateC s 4) (derateC s 4)
  let tg := targets s g o.margins
  let one := fun (h : ℚ) =>
    let r := tightest tg (g.predict h [] t0) (g.predict h unit t0)
    actions s g o.margins o.chan.nodes imax rms (ceilingOf r iu imax)
  let i2 := one 2
  let i10 := min (one 10) i2
  (i2, i10, min (one 60) i10)

/-- Flow demand of bay i in 0.01 l/min (R212). -/
def flowDemand (s : State) (i : Nat) (o : ChanOut) : Nat :=
  let ms := (List.range 8).filterMap fun n =>
    (highAt s (nth [0, 1, 2, 3, 4, 4, 5, 6] n) 4).map fun v => v - nth o.margins n - (nth o.chan.nodes n).that
  let m := ms.foldl min (ms.headD (profN s i 0xC * 6553600 : Nat))
  let big : Int := (profN s i 0xC * 6553600 : Nat)
  let qmin := profN s i 0xA
  let qmax := profN s i 0xB
  let q :=
    if m ≤ 0 then qmax
    else if m < big then qmin + ((qmax - qmin : Nat) * (big - m) / big).toNat
    else if bayTransferAt s i then qmin else profN s i 9
  let low := [2, 3].any fun n => (nth o.chan.nodes n).lowLimit || (nth o.chan.nodes n).lowStop
  if low then min q qmin else q
where
  bayTransferAt (s : State) (i : Nat) : Bool :=
    match bayVehicle s i with
    | some n => let st := (nth s.veh.links n).st; st == .precharge || st == .charging
    | none => false

/-- Events of an update: new quarantines and level bits that set. -/
def chanEvents (inst : Nat) (old new : U16) (q : List Nat) (x : LaneState) : LaneState :=
  let x := q.foldl (fun x k => x.event (eventReq .sensorQuarantined inst [k])) x
  (List.range 6).foldl (fun x b =>
    if new.getLsbD b && !old.getLsbD b then x.event (eventReq .thermalLevel inst [b]) else x) x

/-- x with the thermal unit changed. -/
def LaneState.modTh (f : Thermal → Thermal) (x : LaneState) : LaneState := { x with th := f x.th }

/-- Bay i's channel. -/
def updateBay (s : State) (i : Nat) (x : LaneState) : LaneState :=
  if !(bayUsed s i) then x.modTh fun t => { t with bays := upd t.bays i ThChan.idle }
  else
    let c := nth x.th.bays i
    let amb := degC (ofMilli x.th.ambient)
    let i2 := bayI2 s x i
    let fl := bayFlow s x i
    let g := cableNet s i fl.1 amb
    let heat := cableHeat s i i2.1 (degC (nth c.nodes 0).t) (degC (nth c.nodes 4).t) (degC (nth c.nodes 5).t)
    let o := chanUpdate s g heat (baySensors s x i) (profN s i 0xD) (profN s i 0xE) x.th.ambient c
    let cs := bayCeilings s i g o (rmsDeci i2.1)
    let flags : U16 := BitVec.ofNat 16 (chanFlags o.chan (o.chan.flags == 0x80) fl.2 i2.2)
    let q := flowDemand s i o
    let c' : ThChan := { o.chan with acc := ThAcc.zero, flags := flags, n2 := cs.1, n10 := cs.2.1, n60 := cs.2.2, nFlow := q }
    chanEvents i c.flags flags o.quarantined (x.modTh fun t => { t with bays := put t.bays i c' })

/-! ## Modules (R210) -/

/-- The largest current in 0.1 A, below 2^bits, whose heat is within p; bits counts down. -/
def largestCurrent (s : State) (p : ℚ) : Nat → Nat → Nat
  | 0, d => d
  | b + 1, d =>
    let e := d + 2 ^ b
    let i : ℚ := (e : ℚ) / 10
    largestCurrent s p b (if stageHeat s i (i * i) ≤ p then e else d)

/-- I_M of module j in 0.1 A before the threshold actions. -/
def moduleCeiling (s : State) (j : Nat) (g : ThNet) (o : ChanOut) : Nat :=
  let t0 := o.chan.nodes.map fun y => degC y.that
  let rated := modN s j 3 * 10
  match tightest (targets s g o.margins) (g.predict 10 [] t0) (g.predict 10 [1, 0] t0) with
  | none => rated
  | some p => if p < stageHeat s 0 0 then 0 else min rated (largestCurrent s p 17 0)

/-- theta of module j in mK/W; 0xFFFF where it does not serve or has no VALID heatsink sensor. -/
def thetaOf (s : State) (x : LaneState) (j : Nat) (o : ChanOut) (i2 : ℚ) (w : Option Int) : Nat :=
  match w with
  | some v =>
    if (x.mod j).st = .serving ∧ (nth o.chan.sensors 0).st = .valid then
      let p := stageHeat s (rootA i2) i2
      let r := if p = 0 then Config.divByZero v else ((v - x.th.coolant : Int) / p).floor
      (clampInt 0 65534 r).toNat
    else 0xFFFF
  | none => 0xFFFF

/-- Module j's channel; the step uses the old value of the cabinet coolant node, the prediction its present one (R199). -/
def updateModule (s : State) (old : Int) (j : Nat) (x : LaneState) : LaneState :=
  if (modCab s j).isNone then x.modTh fun t => { t with mods := upd t.mods j ThChan.idle }
  else
    let c := nth x.th.mods j
    let i2 := modI2 x j
    let g := moduleNet s (degC (ofMilli old))
    let o := chanUpdate s g [stageHeat s (rootA i2.1) i2.1, 0] [{ idx := 0, node := 1, up := cabUp s x j }] Config.fixedGain
      Config.fixedQuarantine x.th.ambient c
    let flags : U16 := BitVec.ofNat 16 (chanFlags o.chan (o.chan.flags == 0x80) false i2.2)
    let im := actions s g o.margins o.chan.nodes (modN s j 3) (rmsDeci i2.1) (moduleCeiling s j (moduleNet s (degC (ofMilli x.th.coolant))) o)
    let th := thetaOf s x j o i2.1 (nth c.sensors 0).word
    let half := decide (modN s j 3 * 5 ≤ rmsDeci i2.1)
    let c' : ThChan := { o.chan with acc := ThAcc.zero, flags := flags, n2 := im, nTheta := th, half := half }
    chanEvents 127 c.flags flags o.quarantined (x.modTh fun t => { t with mods := put t.mods j c' })

/-! ## Strings and the transformer (R209, R211) -/

/-- Sensors of string i: every temperature word is bound to the cells. -/
def strSensors (s : State) (x : LaneState) (i : Nat) : List SensIn :=
  match strLink s i with
  | some n => (List.range (min 8 (linkCount s n))).map fun k => { idx := k, node := 0, up := strUp s x i }
  | none => []

/-- String i's channel. -/
def updateString (s : State) (i : Nat) (x : LaneState) : LaneState :=
  if !(strUsed s i) then x.modTh fun t => { t with strs := upd t.strs i ThChan.idle }
  else
    let c := nth x.th.strs i
    let i2 := strI2 x i
    let g := stringNet s (degC (ofMilli x.th.ambient))
    let o := chanUpdate s g (stringHeat s i2.1 (degC (nth c.nodes 1).t)) (strSensors s x i) Config.fixedGain
      Config.fixedQuarantine x.th.ambient c
    let iu := max (strN s i 5) (strN s i 6)
    let t0 := o.chan.nodes.map fun y => degC y.that
    let unit := stringHeat s ((iu * iu : Nat) : ℚ) (derateC s 11)
    let one := fun (h : ℚ) =>
      let r := tightest (targets s g o.margins) (g.predict h [] t0) (g.predict h unit t0)
      actions s g o.margins o.chan.nodes iu (rmsDeci i2.1) (ceilingOf r iu iu)
    let a := one 2
    let b := min (one 10) a
    let flags : U16 := BitVec.ofNat 16 (chanFlags o.chan (o.chan.flags == 0x80) false i2.2)
    let c' : ThChan := { o.chan with acc := ThAcc.zero, flags := flags, n2 := a, n10 := b, n60 := min (one 60) b }
    chanEvents (24 + i) c.flags flags o.quarantined (x.modTh fun t => { t with strs := put t.strs i c' })

/-- Sensors of the transformer: the top-oil and hot-spot sources. -/
def xfmrSensors (s : State) (x : LaneState) : List SensIn :=
  [0, 1].filterMap fun k => (hubCode s (2 + k)).map fun p => { idx := k, node := k, up := x.linkUp p.1 }

/-- The transformer and P_tx. -/
def updateXfmr (s : State) (x : LaneState) : LaneState :=
  let sr := cfgN s 0x3402 1
  if sr = 0 then x.modTh fun t => { t with nPtx := 0xFFFFFFFF }
  else
    let c : ThChan := { x.th.xfmr with sensors := x.th.hub.drop 2 }
    let g := xfmrNet s (degC (ofMilli x.th.ambient))
    let load : Nat := match x.grid.recs.head? with
      | some r => max r.pImp.toNat r.pExp.toNat
      | none => 0
    let ratio : ℚ := (load : ℚ) / (sr * 1000 : Nat)
    let pnl : ℚ := (cfgN s 0x3402 2 : ℚ)
    let pll : ℚ := (cfgN s 0x3402 3 : ℚ)
    let o := chanUpdate s g [pnl, pll * ratio ^ 2] (xfmrSensors s x) Config.fixedGain Config.fixedQuarantine x.th.ambient c
    let t0 := o.chan.nodes.map fun y => degC y.that
    let r := tightest (targets s g o.margins) (g.predict 60 [pnl, 0] t0) (g.predict 60 [pnl, pll] t0)
    let ptx : Nat := match r with
      | some q => min 0xFFFFFFFE (sqrtQ (q * (sr * sr : Nat)))
      | none => 0xFFFFFFFF
    let flags : U16 := BitVec.ofNat 16 (chanFlags o.chan (o.chan.flags == 0x80) false false)
    let x := x.modTh fun t =>
      { t with xfmr := { o.chan with sensors := [], flags := flags }, hub := t.hub.take 2 ++ o.chan.sensors, nPtx := ptx }
    chanEvents 127 c.flags flags o.quarantined x

/-! ## The update and its publication (R195) -/

/-- Ambient and cabinet coolant in use. -/
def updateHub (s : State) (x : LaneState) : LaneState :=
  let a := hubUpdate s x 0 (some 7) (nth x.th.hub 0)
  let c := hubUpdate s x 1 none (nth x.th.hub 1)
  let amb := hubValue s 5 (nth x.th.hub 0) a.1
  let cool := hubValue s 6 (nth x.th.hub 1) c.1
  let x := x.modTh fun t => { t with hub := put (put t.hub 0 a.1) 1 c.1, ambient := amb, coolant := cool }
  let x := if a.2 then x.event (eventReq .sensorQuarantined 127 [0]) else x
  if c.2 then x.event (eventReq .sensorQuarantined 127 [1]) else x

/-- FAN of every cabinet: the largest rise of a heatsink node over the cabinet coolant, 0.001 degC, below 0 where every
heatsink is cooler (R212); 0 for a cabinet without a module. -/
def fanDemand (s : State) (x : LaneState) : List Int :=
  (List.range 24).map fun c =>
    let rises := (cabModules s c).map fun j => (nth (nth x.th.mods j).nodes 1).t / 65536 - x.th.coolant
    rises.foldl max (rises.headD 0)

/-- The thermal update of one lane. -/
def thermalLane (s : State) (x : LaneState) : LaneState :=
  let old := x.th.coolant
  let x := updateHub s x
  let x := (List.range 24).foldl (fun x i => updateBay s i x) x
  let x := (List.range 96).foldl (fun x j => updateModule s old j x) x
  let x := (List.range 8).foldl (fun x i => updateString s i x) x
  let x := updateXfmr s x
  let fan := fanDemand s x
  x.modTh fun t => { t with updates := t.updates + 1, nFan := fan }

/-- An update runs at its period. -/
def thermalUpdateEffect (l : Lane) (s : State) : State :=
  if computing s l && s.clk.period % thermalLen s == 0 then s.modLane l (thermalLane s) else s

/-- THERMAL_UPDATE. -/
def execThermalUpdate (l : Lane) (s : State) : Host.Outcome State Fault Refusal := .next (thermalUpdateEffect l s)

/-- A channel's results in force. -/
def ThChan.publish (c : ThChan) : ThChan :=
  { c with i2 := c.n2, i10 := c.n10, i60 := c.n60, flow := c.nFlow, theta := c.nTheta }

/-- The results of the last update are published one share cycle after it; each theta joins its module's window where
the module carried at least half its rated current, as the rms of the update (R184). -/
def thermalPublishLane (x : LaneState) : LaneState :=
  let x := x.modTh fun t =>
    { t with bays := t.bays.map ThChan.publish, mods := t.mods.map ThChan.publish, strs := t.strs.map ThChan.publish,
             ptx := t.nPtx, fan := t.nFan }
  let th := x.th
  x.modWp fun w => { w with mods := w.mods.mapIdx fun j (m : Module) =>
    let v := (nth th.mods j).theta
    if v = 0xFFFF ∨ (nth th.mods j).half = false then m else { m with thetaSum := m.thetaSum + v, thetaN := m.thetaN + 1 } }

/-- THERMAL_PUBLISH runs at period u + 40, u + 20 at the 50 us period. -/
def thermalPublishEffect (l : Lane) (s : State) : State :=
  if computing s l && s.clk.period % thermalLen s == shareLen s then s.modLane l thermalPublishLane else s

/-- THERMAL_PUBLISH. -/
def execThermalPublish (l : Lane) (s : State) : Host.Outcome State Fault Refusal := .next (thermalPublishEffect l s)

/-! ## Release (R205, object 3400:06) -/

/-- A quarantined sensor is released with a count of 0. -/
def Sensor.release (k : Sensor) : Sensor :=
  if k.st = .quarantined then { k with st := .unavailable, count := 0, prev := none } else k

/-- The sensors a release names: number n, or all for 0xFF. -/
def releaseIn (n : Nat) (l : List Sensor) : List Sensor :=
  l.mapIdx fun k y => if n = 0xFF ∨ k = n then y.release else y

/-- The release of one lane: kind, instance from 1, sensor from 0. -/
def releaseLane (kind inst sensor : Nat) (x : LaneState) : LaneState :=
  let rel := fun (c : ThChan) => { c with sensors := releaseIn sensor c.sensors }
  if inst = 0 then x
  else if kind = 1 then x.modTh fun t => { t with bays := upd t.bays (inst - 1) rel }
  else if kind = 2 then x.modTh fun t => { t with mods := upd t.mods (inst - 1) rel }
  else if kind = 3 then x.modTh fun t => { t with strs := upd t.strs (inst - 1) rel }
  else if kind = 5 then x.modTh fun t => { t with hub := upd t.hub (inst - 1) Sensor.release }
  else x

/-- A write to 3400:06 releases in both lanes. -/
def sensorReleaseEffect (v : U32) (s : State) : State :=
  bothLanes (releaseLane (v.toNat / 2 ^ 24) (v.toNat / 2 ^ 16 % 256) (v.toNat % 256)) s

/-- SENSOR_RELEASE: a write accepted where the dictionary accepts one. -/
def execSensorRelease (v : U32) (s : State) : Host.Outcome State Fault Refusal :=
  .next (hostWrite (writable s) (sensorReleaseEffect v) s)

end Sys2Proof.Machine
end

