-- ==== Sys2Proof/Machine/Frames.lean ====
section
/-! DEFINITION. The phases of a period (R89): cycle 0, the receive window and its close, the accumulators, the output latch with the
evaluation of the loops, the digest entry and the alignment marker. -/

namespace Sys2Proof.Machine

/-! ## Tap records (R16, R17) -/

/-- A record with its CRC. -/
def sealTap (r : TapRecord) : TapRecord := { r with crc := tapCrc r }

/-- The tap record of a frame-store slot (Table 1.4). -/
def tapOf (s : State) (n : Nat) (alt : Bool) (f : FrameSlot) : TapRecord :=
  let w := fun (k : Nat) => (f.words.getD k 0 : BitVec 24)
  sealTap { crc := 0, current := w 2, voltage := w 1
            offset := f.offset, serial := f.serial, seq := f.seq, status := f.status, alt := alt
            link := BitVec.ofNat 6 n, period := BitVec.ofNat 6 s.clk.period, stamp := s.met.ctl.cycles }

/-- A record enters the barrier's queue of 64 (Table 1.6). -/
def pushTap (r : TapRecord) (s : State) : State :=
  if s.taps.length < 64 then { s with taps := s.taps ++ [r] } else s

/-- The tap takes link n's frame: the active lane's copy, the other lane's where only that one passes the CRC. -/
def tapSend (l : Lane) (n : Nat) (s : State) : State :=
  if !(pairedType s n) then s
  else
    let mine := slotOf s (s.lane l) n
    let other := slotOf s (s.lane l.other) n
    if !mine.filled then s
    else if activeLane s = some l then
      if mine.status = 2 ∧ other.filled ∧ other.status ≠ 2 then pushTap (tapOf s n true other) s
      else pushTap (tapOf s n false mine) s
    else if activeLane s = some l.other ∧ other.filled ∧ other.status = 2 ∧ mine.status ≠ 2 then
      let key := fun (r : TapRecord) => r.link.toNat == n && r.period == BitVec.ofNat 6 s.clk.period
      pushTap (tapOf s n true mine) { s with taps := s.taps.filter fun r => !(key r) }
    else s

/-- A status-only record where no frame came: its other fields are free values. -/
def tapMissing (n : Nat) (s : State) : State :=
  let i := s.free
  let r : TapRecord :=
    sealTap
      { crc := 0, current := BitVec.ofNat 24 (Config.freeNat i), voltage := BitVec.ofNat 24 (Config.freeNat (i + 1))
        offset := BitVec.ofNat 16 (Config.freeNat (i + 2)), serial := BitVec.ofNat 32 (Config.freeNat (i + 3))
        seq := BitVec.ofNat 16 (Config.freeNat (i + 4)), status := 1, alt := false
        link := BitVec.ofNat 6 n, period := BitVec.ofNat 6 s.clk.period, stamp := s.met.ctl.cycles }
  pushTap r (s.useFree 5)

/-! ## Reception -/

/-- LOCK of a mode 3 bay's head falling to 0 counts as plug lost (R306). -/
def lockFell (l : Lane) (n : Nat) (s : State) : State :=
  let x := s.lane l
  match bayOfLink s n with
  | some i =>
    match bayVehicle s i, linkStatus s x (some n) with
    | some v, some w =>
      if activeLane s = some l ∧ linkType s n = 2 ∧ cfgN s (0x3710 + v) 1 = 3 ∧ lockBit ((x.link n).word 0) ∧ !(lockBit w) then endSession v 9 s
      else s
    | _, _ => s
  | none => s

/-- UP_FRAME_RECEIVED: the frame is assigned to a period, checked, stored or held, and tapped (R97). -/
def upFrameEffect (l : Lane) (n : Nat) (f : RxFrame) (s : State) : State :=
  let before := (slotOf s (s.lane l) n).filled
  let s' := s.modLane l (receiveLane s n f)
  if !before && (slotOf s' (s'.lane l) n).filled then lockFell l n (tapSend l n s') else s'

/-- UP_FRAME_RECEIVED. -/
def execUpFrameReceived (l : Lane) (link : Fin 64) (f : RxFrame) (s : State) : Host.Outcome State Fault Refusal :=
  .next (upFrameEffect l link f s)

/-- LINK_UP: the frame that takes the link to UP is the first the tap takes. -/
def linkUpEffect (l : Lane) (n : Nat) (s : State) : State :=
  let before := (slotOf s (s.lane l) n).filled
  let s' := s.modLane l (linkUpLane s n)
  if !before && (slotOf s' (s'.lane l) n).filled then tapSend l n s' else s'

/-- LINK_UP. -/
def execLinkUp (l : Lane) (link : Fin 64) (s : State) : Host.Outcome State Fault Refusal := .next (linkUpEffect l link s)

/-! ## Cycle 0 (R89, R97, R104) -/

/-- Link n at cycle 0: a new period for the delay average and the window, expected SEQ, the ACQUIRE count, the FAILED time; what is
held is returned for the bank. -/
def linkCycle0 (s : State) (n : Nat) (k : Link) : Link :=
  if linkType s n = 0 then k
  else
    let k := { k with delays := (none :: k.delays).take 64, got := k.gotNext, gotNext := false }
    match k.st with
    | .up => { k with expSeq := k.expSeq + 1 }
    | .acquire =>
      if k.acqDone then k
      else
        let c := if k.acqSeen then k.acqCount + 1 else 0
        if 64 ≤ c then { k with acqCount := 0, acqSeen := false, acqDone := true, acq := false }
        else { k with acqCount := c, acqSeen := false, hold := none }
    | .failed => { k with failedFor := k.failedFor + 1 }
    | _ => k

/-- Held frames of UP links are written into the bank of the new period. -/
def releaseHold (s : State) (x : LaneState) : LaneState :=
  (List.range 64).foldl (fun x n =>
    match (x.link n).hold with
    | some f =>
      if (x.link n).st = .up then storeFrame s n f (x.modLink n fun k => { k with hold := none }) else x
    | none => x) x

/-- Loop states of Table 7.1 take effect at cycle 0. -/
def loopCycle0 (p : Loop) : Loop :=
  let st := p.nextSt.getD p.st
  { p with st := st, nextSt := none, atStart := st, disNow := false, ran := false }

/-- Health bits that report one period only (Table 13.4). -/
def healthCycle0 (h : Health) : Health := { h with testFail := false, receiver := false, tile := false }

/-- A lane at cycle 0: the bank of the new period empty, links advanced, held frames written, loop states in effect. -/
def laneCycle0 (s : State) (x : LaneState) : LaneState :=
  let x := modCurBank s (fun _ => List.replicate 64 FrameSlot.empty) x
  let x := { x with links := x.links.mapIdx (linkCycle0 s), health := healthCycle0 x.health }
  let x := x.mapLoops fun _ => loopCycle0
  releaseHold s x

/-- Site time runs on: one period, with at most 500 ppm of steering (R332). -/
def siteRun (s : State) : State :=
  let p := periodNs s
  let c : Int := p / 2000
  let d := clampInt (-c) c s.site.steer
  { s with site := (let t := s.site
                    { t with ns := ((t.ns : Int) + p + d).toNat, steer := t.steer - d, ptpNs := t.ptpNs + p }) }

/-- Each lane's blocks publish at cycle 0: Waypoint, then the share engine (R163, R178). -/
def lanePublish (s : State) (x : LaneState) : LaneState := sharePeriod s (wpPeriod s x)

/-- Held frames are passed to the tap: active lane first. -/
def tapHeld (s : State) : State :=
  match activeLane s with
  | some l => (List.range 64).foldl (fun s n => if (slotOf s (s.lane l) n).filled then tapSend l n s else s) s
  | none => s

/-- A second of run time passes for lane x where its image is activated and not confirmed (R402). -/
def runSecond (x : LaneState) : LaneState :=
  let f := fun (v : FwSlot) =>
    if v.activated && !v.confirmed && v.runTime != 0xFFFF then { v with runTime := v.runTime + 1 } else v
  if x.slots.booted = x.slots.current then
    { x with slots := (let d := x.slots; if d.current then { d with slot1 := f d.slot1 } else { d with slot0 := f d.slot0 }) }
  else x

/-- Run time unconfirmed of the lanes that run, at each full second since the release of reset. -/
def runTime (before s : State) : State :=
  if before.clk.ns / 1000000000 = s.clk.ns / 1000000000 then s
  else
    let s := if computing s .a then s.modLane .a runSecond else s
    if computing s .b then s.modLane .b runSecond else s

/-- The period counter advances, and the time of the Junction, site time and run time with it. -/
def tickPeriod (s : State) : State :=
  runTime s (siteRun (stampEvents { s with clk := (let c := s.clk; { c with period := c.period + 1, ns := c.ns + periodNs s }) }))

/-- Each computing lane publishes. -/
def publishLanes (s : State) : State :=
  let s := if computing s .a then s.modLane .a (lanePublish s) else s
  if computing s .b then s.modLane .b (lanePublish s) else s

/-- PERIOD_BOUNDARY: cycle 0 of the next period. -/
def periodBoundaryEffect (s : State) : State :=
  if s.modes.mode = .boot ∨ s.modes.mode = .backup then s
  else
    let s := tickPeriod s
    let s := tapHeld (bothLanes (laneCycle0 s) (sendFrames s))
    let s := safeBoundary (modeCompletion (linkReactions s))
    publishLanes (injectionPeriod (meterPeriod (sessionsPeriod s)))

/-- PERIOD_BOUNDARY; a capture whose loop the share engine disables there aborts. -/
def execPeriodBoundary (s : State) : Host.Outcome State Fault Refusal := .next (captureGuard s (periodBoundaryEffect s))

/-! ## Cycle 900 (R14) -/

/-- Counter of a status code (Table 5.15). -/
def countStatus (st : BitVec 3) (k : Link) : Link :=
  match st.toNat with
  | 0 => { k with cValid := k.cValid + 1 }
  | 1 => { k with cMissing := k.cMissing + 1 }
  | 2 => { k with cCrc := k.cCrc + 1 }
  | 3 => { k with cSeq := k.cSeq + 1 }
  | _ => { k with cType := k.cType + 1 }

/-- A slot filled while the link was UP carries MISSING where the link has left UP before the close (R97). -/
def closedSlot (k : Link) (f : FrameSlot) : FrameSlot := if k.st = .up then f else { FrameSlot.empty with filled := f.filled }

/-- A typed link at the close of its window: its code, its counters, its last VALID words. -/
def linkClose (s : State) (n : Nat) (f : FrameSlot) (k : Link) : Link :=
  let k := countStatus f.status { k with lastStatus := f.status }
  let k :=
    if f.status = 0 then
      let far := decide (cfgN s (0x3610 + n) 3 < f.offset.toInt.natAbs)
      { k with badRun := 0, lastWords := keepWords (linkType s n) k.lastWords f.words, lastOffset := f.offset
               cOffset := if far then k.cOffset + 1 else k.cOffset }
    else if k.st = .up then { k with badRun := k.badRun + 1 }
    else k
  let k := if k.st = .up ∧ f.filled = false then { k with delayRun := 0, seqRun := 0 } else k
  if k.st = .acquire ∧ k.acqDone ∧ k.hold.isNone then { k with acq := true, acqCount := 0, acqSeen := false, acqDone := false }
  else k

/-- Every typed link of lane x at cycle 900. -/
def closeLane (s : State) (x : LaneState) : LaneState :=
  let x := modCurBank s (fun b => b.mapIdx fun n f => closedSlot (x.link n) f) x
  { x with links := x.links.mapIdx fun n k => if linkType s n = 0 then k else linkClose s n (slotOf s x n) k }

/-- Typed links whose status code in lane l differs from the other lane's (R100). -/
def differing (s : State) (l : Lane) : List Nat :=
  (List.range 64).filter fun n =>
    linkType s n != 0 && (slotOf s (s.lane l) n).status != (slotOf s (s.lane l.other) n).status

/-- The status codes of the standby lane differ from the active lane's (R100). -/
def codesDiffer (s : State) (l : Lane) : Bool := !(differing s l).isEmpty

/-- Status-only records of the links without a frame. -/
def tapsMissing (s : State) (l : Lane) : State :=
  (List.range 64).foldl (fun (t : State) n =>
    if pairedType s n && !(slotOf s (s.lane l) n).filled then tapMissing n t else t) s

/-- FRAME_BANK_CLOSE. -/
def frameBankCloseEffect (l : Lane) (s : State) : State :=
  let s := s.modLane l (closeLane s)
  if activeLane s = some l then tapsMissing s l
  else if roleOf s l = .standby then
    s.modLane l fun x =>
      { x with health := (let h := x.health; { h with receiver := h.receiver || codesDiffer s l })
               ctl := (let c := x.ctl; { c with rxDiffer := differing s l }) }
  else s

/-- FRAME_BANK_CLOSE. -/
def execFrameBankClose (l : Lane) (s : State) : Host.Outcome State Fault Refusal := .next (frameBankCloseEffect l s)

/-! ## Cycle 950 (R15) -/

/-- A voltage and a current enter the sums where both are VALID. -/
def ShareAcc.take (a : ShareAcc) (v i : Option Int) : ShareAcc :=
  match v, i with
  | some v, some i => { a with sumV := a.sumV + v, sumI := a.sumI + i, sumP := a.sumP + v * i, n := a.n + 1 }
  | _, _ => a

/-- Power of a period, none where a sample is not VALID (R15). -/
def powerOf (v i : Option Int) : Option Int :=
  match v, i with
  | some v, some i => some (v * i)
  | _, _ => none

/-- The share accumulator takes the frame bank of the period. -/
def shareTake (s : State) (x : LaneState) : LaneState :=
  let h := x.share
  let bv := fun i => (headMeas s x i 1, headMeas s x i 2)
  let sv := fun i => (linkMeas s x (strLink s i) 1, linkMeas s x (strLink s i) 2)
  let p := (List.range 24).map (fun i => powerOf (bv i).1 (bv i).2) ++ (List.range 8).map fun i => powerOf (sv i).1 (sv i).2
  { x with share :=
    { h with
      bayAcc := h.bayAcc.mapIdx fun i a => a.take (bv i).1 (bv i).2
      strAcc := h.strAcc.mapIdx fun i a => a.take (sv i).1 (sv i).2
      powers := (p :: h.powers).take 512
      strs := h.strs.mapIdx fun i (y : StrState) =>
        let closed := match linkStatus s x (strLink s i) with
          | some w => contBit w
          | none => false
        { y with contAll := y.contAll && closed } } }

/-- ACCUMULATOR_TAKE. -/
def execAccumulatorTake (l : Lane) (s : State) : Host.Outcome State Fault Refusal :=
  .next (s.modLane l fun x => shareTake s (thermalTake s x))

/-! ## Cycle 12,200: loop states (R134, R138, R140, R142, R143) -/

/-- The controlled quantity of a loop in the running period (R139). -/
def controlled (s : State) (x : LaneState) : LoopId → Option Int
  | .bay n => headMeas s x n 2
  | .module j => moduleMeas s x j 0
  | .string i => linkMeas s x (strLink s i) 2
  | .slow _ => none

/-- Threshold of a loop's kind (object 3502). -/
def threshold (s : State) : LoopId → Nat
  | .bay _ => cfgN s 0x3502 2
  | .module _ => cfgN s 0x3502 3
  | .string _ => cfgN s 0x3502 4
  | .slow _ => cfgN s 0x3502 5

/-- The mismatch count after a RUN period with h periods since START (R142); held while checks are off during an injection and its
holdoff (R153). -/
def nextCount (s : State) (p : Loop) (h : Nat) : U8 :=
  let held := checksOff s && (p.inj || p.injHold != 0)
  if held || decide (h < cfgN s 0x3502 1) || p.inv then p.count
  else if p.mis then (if p.count = 255 then p.count else p.count + 1)
  else if p.count = 0 then 0
  else p.count - 1

/-- The periods of a loop's services run on: flags of a period without a slot are clear, and the holdoffs of a slow loop count its
executions. -/
def loopPeriod (s : State) (x : LaneState) (i : LoopId) (p : Loop) : Loop :=
  let p := if p.ran then p else { p with inv := false, sat := false, mis := false }
  let counts := p.ran || !(isSlowLoop i)
  { p with
    satRun := if p.sat then p.satRun + 1 else 0
    offRun := if below5 (controlled s x i) then p.offRun + 1 else 0
    stopFor := if p.st = .stop then p.stopFor + 1 else p.stopFor
    hold := if p.st = .run && counts then min 4095 (p.hold + 1) else p.hold
    injHold := if counts then p.injHold - 1 else p.injHold }

/-- What the evaluation of a loop answers: the loop and the fault cause that arises, if any. -/
def evalLoop (s : State) (x : LaneState) (i : LoopId) (q : Loop) : Loop × Option Nat :=
  let p := loopPeriod s x i q
  match p.st with
  | .start =>
    if !p.ran then (p, none)
    else if p.inv then
      let r := p.repeats + 1
      ({ p with repeats := r }, if cfgN s 0x3502 0xB < r then some 2 else none)
    else ({ p with nextSt := some .run, hold := 0 }, none)
  | .run =>
    if !p.ran then (p, none)
    else
      let c := nextCount s { p with injHold := q.injHold } p.hold
      ({ p with count := c }, if threshold s i ≤ c.toNat then some 1 else none)
  | .stop => if 4 ≤ p.offRun then ({ p with nextSt := some .off, zeroDue := true }, none) else (p, none)
  | _ => (p, none)

/-- Loop i of lane x evaluated: state, SAT event, fault entry. -/
def evalLane (s : State) (i : LoopId) (x : LaneState) : LaneState :=
  let p := x.loop i
  let r := evalLoop s x i p
  let x := x.modLoop i fun _ => r.1
  let x := if r.1.satRun = cfgN s 0x3502 0xC ∧ p.sat then x.event (eventReq .satRun (loopInst p) [codeOfLoop i]) else x
  match r.2 with
  | some cause => enterFault s i cause x
  | none => x

/-- Loop group of a loop (R145). -/
def loopGroup (x : LaneState) : LoopId → Nat
  | .bay n => n + 1
  | .module j => let b := (x.mod j).bay; if b = 0 then 100 + j else b
  | .string i => 200 + i
  | .slow j => 300 + j

/-- Groups of the loops on tile t that entered FAULT with cause 1 in the running share cycle. -/
def faultGroups (s : State) (x : LaneState) (t : Nat) : List Nat :=
  (allLoops.filterMap fun i =>
    let p := x.loop i
    match p.place, p.faultAt with
    | some (u, _), some k => if u = t ∧ k / shareLen s = s.clk.period / shareLen s then some (loopGroup x i) else none
    | _, _ => none).eraseDups

/-- Faults of two loop groups on one tile within one share cycle report the tile (R145). -/
def tilePlausibility (s : State) (x : LaneState) : LaneState :=
  (List.range 10).foldl (fun x t =>
    if 2 ≤ (faultGroups s x t).length ∧ (nth x.tiles t).fault = false then
      let x := { x with tiles := upd x.tiles t (fun y => { y with fault := true }),
                        health := (let h := x.health; { h with tile := true }) }
      x.event (eventReq .tilePlausibility t [t])
    else x) x

/-- Every loop of lane x at cycle 12,200. -/
def evaluateLoops (s : State) (x : LaneState) : LaneState :=
  let sat := allLoops.any fun i => let p := x.loop i; p.ran && p.sat
  let x := allLoops.foldl (fun x i => evalLane s i x) x
  let x := { x with ctl := (let c := x.ctl; { c with satPeriods := if sat then c.satPeriods + 1 else c.satPeriods }) }
  tilePlausibility s x

/-! ## Cycle 12,200: the output table (R90, R95, R105, R144) -/

/-- Word w of link n set. -/
def putWord (n w : Nat) (v : BitVec 24) (l : List OutLink) : List OutLink :=
  upd l n fun (o : OutLink) => { o with words := put o.words w v }

/-- The override ramps write their next word. -/
def applyOverrides (x : LaneState) (l : List OutLink) : List OutLink :=
  allLoops.foldl (fun l i => (x.loop i).override.foldl (fun l o => putWord o.link o.word (ovValue o) l) l) l

/-- Set-point words a loop in FAULT with reaction 2 holds at 0. -/
def zeroWords (s : State) (x : LaneState) : LoopId → List (Nat × Nat)
  | .bay n => (servingMods x n).filterMap fun j => (modLink s j).map fun p => (p.1, 1 + 2 * p.2)
  | .module j => (modLink s j).elim [] fun p => [(p.1, 1 + 2 * p.2)]
  | .string i => (strLink s i).elim [] fun n => [(n, 1)]
  | .slow j => (outputMap s (.slow j)).filterMap fun c =>
      if outKind c = 0 then some (c.toNat / 256 % 64, c.toNat % 256) else none

/-- Words of the loops in FAULT whose reaction is 0 (Table 7.4, reaction 2). -/
def applyZeros (s : State) (x : LaneState) (l : List OutLink) : List OutLink :=
  allLoops.foldl (fun l i =>
    let p := x.loop i
    if (p.st = .fault ∨ p.nextSt = some .fault) ∧ faultReaction s i = 2 then
      (zeroWords s x i).foldl (fun l w => putWord w.1 w.2 0 l) l
    else l) l

/-- Command word bits: LOCK, RUN, CONT. -/
def commandWord (lock run cont : Bool) : BitVec 24 :=
  BitVec.ofNat 24 ((if lock then 2048 else 0) + (if run then 1024 else 0) + (if cont then 512 else 0))

/-- The module command word. -/
def moduleCommand (m : Module) : BitVec 24 := BitVec.ofNat 24 (m.tgt * 2048 + (if m.en then 512 else 0))

/-- A loop that is operated: neither OFF nor in FAULT beyond its override ramp. -/
def loopOperated (p : Loop) : Bool := p.st != .off && (p.st != .fault || !p.override.isEmpty)

/-- The contactor of a bay operated without a session in COMMISSION (Tables 3.1 and 3.9) follows its loop, which the host commands; in
SAFE it stays closed until the current is below 5 A or the shortened ramp ends (DESIGN CHOICE, log 47). -/
def testContactor (s : State) (x : LaneState) (i : Nat) : Bool :=
  let p := nth x.bayLoops i
  if s.modes.mode = .commission then loopOperated p
  else if s.modes.mode = .safe then
    loopOperated p && !(below5 (headMeas s x i 2)) && !(s.modes.safeCause == 4 && safeLastLatch s)
  else false

/-- The command words of link n. -/
def linkCommands (s : State) (x : LaneState) (n : Nat) (o : OutLink) : OutLink :=
  let free := Config.runBit n s.modes.mode.code.toNat
  match linkType s n with
  | 1 =>
    let w := (List.range (linkCount s n)).foldl (fun w m =>
      match (cabOfLink s n).bind fun c => moduleAt s c m with
      | some j => put w (2 + 2 * m) (moduleCommand (x.mod j))
      | none => put w (2 + 2 * m) 0) (put o.words 0 (commandWord false free false))
    { o with words := w }
  | 2 =>
    let v := (bayOfLink s n).bind fun i => (bayVehicle s i).map (sess s)
    let test := match bayOfLink s n with
      | some i => testContactor s x i
      | none => false
    let lock := match v with
      | some u => u.lock
      | none => false
    let cont := match v with
      | some u => u.cont
      | none => false
    { o with words := put o.words 0 (commandWord lock free (cont || test)) }
  | 3 =>
    let y := match strOfLink s n with
      | some i => nth x.share.strs i
      | none => default
    { o with words := put o.words 0 (commandWord false y.run y.cont) }
  | _ => o

/-- The words of a failed link (Table 5.11, Table 10.7). -/
def linkReaction (s : State) (n : Nat) (k : Link) (o : OutLink) : OutLink :=
  if !k.reacting then o
  else
    match linkType s n with
    | 1 => { o with words := o.words.mapIdx fun w v =>
        if w = 0 then v else if w % 2 = 1 then 0 else v &&& ~~~(512 : BitVec 24) }
    | 2 => { o with words := put o.words 1 0 }
    | 3 => { o with words := put (put o.words 0 0) 1 0 }
    | _ => o

/-- ACQ of the next down-frame: it falls with the latch of the 64th period of ACQUIRE (Table 5.9). -/
def acqBit (k : Link) : Bool := k.acq && !(k.st == .acquire && k.acqSeen && k.acqCount == 63)

/-- Header bytes 0 and 1 of a link's down-frame (Table 5.4). -/
def downHeader (s : State) (n : Nat) (k : Link) : BitVec 16 :=
  let b0 := linkType s n * 16 + 1
  let lane := match activeLane s with
    | some .b => 32
    | _ => 0
  let b1 := (if acqBit k then 128 else 0) + (if s.clk.long then 64 else 0) + lane + (if s.modes.mode = .safe then 16 else 0)
  BitVec.ofNat 16 (b0 + 256 * b1)

/-- The output table latched from the committed words. -/
def latchTable (s : State) (x : LaneState) : List OutLink :=
  let l := applyZeros s x (applyOverrides x x.out)
  l.mapIdx fun n o =>
    if linkType s n = 0 then { words := List.replicate 9 0, hdr := 0 }
    else
      let k := x.link n
      { linkReaction s n k (linkCommands s x n o) with hdr := downHeader s n k }

/-- The override ramps advance. -/
def stepOverrides (x : LaneState) : LaneState :=
  x.mapLoops fun _ p => { p with override := p.override.map fun (o : OvRamp) => { o with n := if o.n ≤ 80 then o.n + 1 else o.n } }

/-- Contactors of strings in SAFE: opened below 5 A, and with the last words of a shortened ramp (R60, R61). -/
def safeStrings (s : State) (x : LaneState) : LaneState :=
  if s.modes.mode ≠ .safe then x
  else
    let last := s.modes.safeCause == 4 && safeLastLatch s
    { x with share := (let h := x.share
                       { h with strs := h.strs.mapIdx fun i (y : StrState) =>
                           if last || below5 (linkMeas s x (strLink s i) 2) then { y with run := false, cont := false } else y }) }

/-- Contactors of bays in SAFE, as the active lane measures them. -/
def safeBays (s : State) : State :=
  if s.modes.mode ≠ .safe then s
  else
    let last := s.modes.safeCause == 4 && safeLastLatch s
    { s with veh := (let v := s.veh
                     { v with links := v.links.mapIdx fun n (u : Session) =>
                         match bayOfVehicle s n with
                         | some i => if last || below5 (headMeas s s.act i 2) then { u with cont := false } else u
                         | none => u }) }

/-! ## Cycle 12,200: queue credits (R27, R29) -/

/-- The credit check fails. -/
def creditFails (q : Nat) (k : HwQueue) : Bool := k.credit + k.entries.length != queueDepth q

/-- Queues not retired that fail their check are noted; the health bit and an event follow. -/
def creditCheck (s : State) (x : LaneState) : LaneState :=
  let bad := (List.range 128).filter fun q => !(nth x.queues q).retired && creditFails q (nth x.queues q)
  let x := { x with
    queues := x.queues.mapIdx fun q (k : HwQueue) =>
      let f := k.fails.filter fun p => decide (s.clk.period < p + 1000)
      { k with fails := if bad.contains q then s.clk.period :: f else f }
    health := (let h := x.health; { h with queue := !bad.isEmpty }) }
  bad.foldl (fun x q => x.event (eventReq .queueCredit 127 [q])) x

/-- OUTPUT_LATCH in lane x. -/
def latchLane (s : State) (x : LaneState) : LaneState :=
  let x := safeStrings s (evaluateLoops s (moveTick s x))
  let t := latchTable s x
  creditCheck s (stepOverrides { x with latched := t })

/-! ## Responses with limits (R316) -/

/-- Status of a response while a session stops (column Vehicle told of Table 15.5). -/
def toldOf (cause : Nat) : U8 :=
  if cause = 1 then 4 else if cause = 2 ∨ cause = 3 ∨ cause = 4 ∨ cause = 14 then 5
  else if 5 ≤ cause ∧ cause ≤ 10 ∧ cause ≠ 9 then 6 else 1

/-- Current at the vehicle's maximum voltage, 0.1 A, of a power in W; d is the voltage in 0.1 V. -/
def advertisedAmps (p d : Nat) : Nat := if d = 0 then (Config.divByZero p).toNat else p * 100 / d

/-- Advertised limits: the smallest current of terms 1, 2, 3 and 9, the smaller of rated power and request, the rated voltage. -/
def advertised (s : State) (i : Nat) (v : Session) : VehResponse :=
  let d := v.values.maxVoltage.toNat
  let rated := bayN s i 9 * 1000
  let request := if bayN s i 0xB = 0 then rated else bayN s i 0xB * 1000
  let amps := min (min (advertisedAmps rated d) (min (advertisedAmps request d) (currentReq s i)))
    (min (nth s.act.th.bays i).i2 (bayN s i 8 * 10))
  { power := min rated request, current := amps, voltage := bayN s i 7 * 10, currentLimit := false, powerLimit := false, status := 0 }

/-- The offer in force with the two flags. -/
def offered (s : State) (i : Nat) (v : Session) : VehResponse :=
  let h := s.act.share
  let p := (nth h.offerP i).toNat
  let t := v.values.targetCurrent.toNat
  { power := p, current := (nth h.offerI i).toNat, voltage := (nth h.offerV i).toNat * 10
    currentLimit := decide (nth h.ref i < (t : Int) * 200), powerLimit := decide (p * 100 < t * v.values.targetVoltage.toNat), status := 0 }

/-- A response composed in the period after its request; a session that stops tells its cause. The next request is awaited. -/
def compose (s : State) (n : Nat) (v : Session) : Session :=
  match v.pend, bayOfVehicle s n with
  | some (k, adv), some i =>
    if s.clk.period ≤ k then v
    else
      let r := if adv then advertised s i v else offered s i v
      if v.st = .stopping then { v with pend := none, response := some { r with status := toldOf v.cause.toNat } }
      else { v with pend := none, response := some r
                    timers := (let t := v.timers; if v.st.transfer then { t with loopSilence := true } else { t with sequence := true }) }
  | _, _ => v

/-- Responses of the active lane. -/
def composeAll (s : State) : State :=
  { s with veh := (let v := s.veh; { v with links := v.links.mapIdx (compose s) }) }

/-- OUTPUT_LATCH: a lane that computes evaluates its loops and latches; the active lane stores the capture samples. -/
def outputLatchEffect (l : Lane) (s : State) : State :=
  if !(computing s l) then s
  else
    let s := if activeLane s = some l then safeBays s else s
    let s := recheckSpares (s.modLane l (latchLane s))
    if activeLane s = some l then capturePeriod (composeAll s) else s

/-- OUTPUT_LATCH. -/
def execOutputLatch (l : Lane) (s : State) : Host.Outcome State Fault Refusal := .next (outputLatchEffect l s)

/-! ## Cycle 12,300: the digest entry (R273-R275) -/

/-- Order 1: the latched output table of every typed link. -/
def digestOut (s : State) (x : LaneState) : List Byte :=
  ((List.range 64).filter fun n => linkType s n != 0).flatMap fun n =>
    let o := nth x.latched n
    leBytes 2 o.hdr.toNat ++ (o.words.take (downWords s n)).flatMap wordBytes

/-- Order 2: a relay cell. -/
def cellBytes (c : Cell) : List Byte := leBytesInt 3 c.m.toInt ++ [BitVec.ofNat 8 (c.e.toNat + if c.inv then 128 else 0)]

/-- Order 3: bays, modules, strings, slow slots. -/
def digestLoops (x : LaneState) : List Byte :=
  (x.bayLoops ++ x.modLoops ++ x.strLoops ++ x.slowLoops).flatMap fun p => leBytes 4 (loopWord p)

/-- Order 4: grants and MLIM. -/
def digestGrants (x : LaneState) : List Byte :=
  (x.share.gb ++ x.share.gs).flatMap (leBytesInt 4) ++ x.wp.mods.flatMap fun m => leBytes 2 m.mlim

/-- The bytes DIGEST covers (Table 13.3). -/
def digestBytes (s : State) (x : LaneState) : List Byte :=
  digestOut s x ++ x.relay.flatMap cellBytes ++ digestLoops x ++ digestGrants x
    ++ [s.modes.mode.code] ++ leBytes 4 s.sets.epoch.toNat ++ leBytes 8 s.clk.period

/-- READY (Table 13.4). -/
def laneReady (s : State) (l : Lane) : Bool :=
  let c := (s.lane l).ctl
  decide (7 ≤ c.bootStep) && (activeLane s == some l || decide (200 ≤ c.alignedRun))

/-- The health word of lane l (Table 13.4). -/
def healthWord (s : State) (l : Lane) : Nat :=
  let x := s.lane l
  let h := x.health
  let t := (clampInt 0 255 (x.temp.reported / 10 + 40)).toNat
  (roleOf s l).code % 4 * 2 ^ 30 + t * 2 ^ 20
    + flagBits [(29, laneReady s l), (28, h.testing), (13, x.temp.warn), (12, x.temp.throttle), (11, h.jctLost),
        (10, x.temp.stop), (9, h.testFail), (8, h.memory), (7, h.queue), (6, h.config), (5, h.receiver), (4, h.unaligned),
        (3, h.tile)]

/-- The lane sends digest entries (R273): boot step 2 complete, not in recovery, not held in reset. -/
def sendsDigest (s : State) (l : Lane) : Bool :=
  let c := (s.lane l).ctl
  decide (2 ≤ c.bootStep) && !c.recovery && !c.halted && !c.railHeld && roleOf s l != .failed && roleOf s l != .excluded

/-- DIGEST_ENTRY_SEND: fields a booting lane has not formed read 0; an entry for a lost Junction is not received. -/
def digestEntryEffect (l : Lane) (canary : U16) (s : State) : State :=
  if !(sendsDigest s l) then s
  else
    let x := s.lane l
    let d : U64 := if computing s l then crc64 (digestBytes s x) else 0
    let e : DigestEntry :=
      { digest := d, health := BitVec.ofNat 32 (healthWord s l)
        canary := if computing s l then canary else 0, period := BitVec.ofNat 16 s.clk.period }
    let s := s.setLane l { x with ctl := (let c := x.ctl; { c with digest := d }) }
    if s.jct.lost then s else { s with jct := s.jct.modLane l fun j => { j with entry := some e, health := e.health, beats := true } }

/-- DIGEST_ENTRY_SEND. -/
def execDigestEntrySend (l : Lane) (canary : U16) (s : State) : Host.Outcome State Fault Refusal :=
  .next (digestEntryEffect l canary s)

/-! ## The alignment marker (R20, R226) -/

/-- The other lane compares its counter with the active lane's marker and takes the grid-status SEQ it names. -/
def alignLane (offset : Int) (named : Option U32) (x : LaneState) : LaneState :=
  let ok := decide (-2 ≤ offset ∧ offset ≤ 2)
  let x := { x with ctl := (let c := x.ctl
                            { c with misRun := if ok then 0 else c.misRun + 1,
                                     alignedRun := if ok then min 200 (c.alignedRun + 1) else 0 }) }
  let miss := match named with
    | some q => !(x.grid.recs.any fun r => r.seq == q)
    | none => false
  { x with
    health := (let h := x.health
               { h with unaligned := decide (2 ≤ x.ctl.misRun), receiver := h.receiver || miss })
    grid := (let g := x.grid; { g with named := named.getD g.named }) }

/-- ALIGNMENT_MARKER_RECEIVED. -/
def alignmentEffect (offset : Int) (s : State) : State :=
  match activeLane s with
  | none => s
  | some l =>
    let named := ((s.lane l).grid.recs.head?).map (·.seq)
    let s := s.modLane l fun x => { x with grid := (let g := x.grid; { g with named := named.getD g.named }) }
    s.modLane l.other (alignLane offset named)

/-- ALIGNMENT_MARKER_RECEIVED. -/
def execAlignmentMarkerReceived (offset : Int) (s : State) : Host.Outcome State Fault Refusal :=
  .next (alignmentEffect offset s)

end Sys2Proof.Machine
end

