-- ==== Sys2Proof/Machine/SetChecks.lean ====
section
/-! DEFINITION. The set image and its CRC (R80), and the commit checks of Table 4.8 over the shadow set. -/

namespace Sys2Proof.Machine

/-! ## The set image (R80) -/

/-- Rows of one run of overlapping index ranges: first index, last index, rows. -/
def joinRow (g : List (Nat × Nat × List ObjRow)) (r : ObjRow) : List (Nat × Nat × List ObjRow) :=
  match g with
  | (a, b, rs) :: t => if r.i0 ≤ b then (a, max b r.i1, rs ++ [r]) :: t else (r.i0, r.i1, [r]) :: g
  | [] => [(r.i0, r.i1, [r])]

/-- All objects held in a set, ascending by index and then subindex. -/
def setObjects : List (Nat × Nat × ObjRow) :=
  (dictTable.foldl joinRow []).reverse.flatMap fun g =>
    (List.range (g.2.1 + 1 - g.1)).flatMap fun d =>
      (List.range 65).filterMap fun k =>
        match g.2.2.find? fun (r : ObjRow) => r.holds (g.1 + d) k with
        | some r => if r.right = .rws ∨ r.right = .rwl then some (g.1 + d, k, r) else none
        | none => none

/-- Value of an object in a set, given its row. -/
def setValue (st : Store) (o : Nat × Nat × ObjRow) : List Byte := (st.get (objKey o.1 o.2.1)).getD o.2.2.dfltBytes

/-- One record: index, subindex, value length, value. -/
def setRecord (st : Store) (o : Nat × Nat × ObjRow) : List Byte :=
  let v := setValue st o
  leBytes 2 o.1 ++ leBytes 1 o.2.1 ++ leBytes 2 v.length ++ v

/-- CRC-32 over all records of a set. -/
def setCrc (st : Store) : U32 := crc32 (setObjects.flatMap (setRecord st))

/-! ## Views of a set -/

/-- The state with the shadow set in force. -/
def shadowView (s : State) : State :=
  { s with sets := (let k := s.sets; { k with active := k.shadow, published := [] }) }

/-- The state with the active set's image in force, without live writes. -/
def imageView (s : State) : State := { s with sets := (let k := s.sets; { k with published := [] }) }

/-- Some rws object at index i differs between two sets. -/
def rwsDiffer (a b : Store) (i : Nat) : Bool :=
  dictTable.any fun r => r.hasIndex i && r.right == .rws
    && (List.range (r.s1 + 1 - r.s0)).any fun d => setBytes a i (r.s0 + d) != setBytes b i (r.s0 + d)

/-! ## Order 2: ranges -/

/-- An entry of a set passes its own range. -/
def entryOk (e : Nat × List Byte) : Bool :=
  let i := e.1 / 256
  let k := e.1 % 256
  match findRow i k with
  | some r => r.ty.lengthOk e.2.length && r.valueOk i k e.2
  | none => false

/-- Objects whose range depends on another field of the same object. -/
def relatedKeys : List (Nat × Nat) :=
  ((List.range 24).flatMap fun n => [0xA, 0xB, 0x17, 0x18].map fun k => (0x3000 + n, k))
    ++ ((List.range 8).flatMap fun i => [7, 8].map fun k => (0x31A0 + i, k)) ++ [(0x3200, 4)]
    ++ (List.range 15).map fun j => (0x3520 + j, 3)

/-- First object outside its range. -/
def badRange (st : Store) : Option (Nat × Nat) :=
  match st.find? fun e => !(entryOk e) with
  | some e => some (e.1 / 256, e.1 % 256)
  | none => relatedKeys.find? fun p => !(relatedOk st p.1 p.2 (setN st p.1 p.2))

/-! ## Order 3: system limits -/

/-- Number of bays in a reach set. -/
def reachCount (m : Nat) : Nat := countTrue 24 fun b => m.testBit b

/-- Module j is the fifth or a later one that names its cabinet. -/
def crowded (v : State) (j : Nat) : Bool :=
  (modCab v j).isSome && decide (4 ≤ countTrue j fun k => modCab v k == modCab v j)

/-- First cabinet whose reach set has more than 6 bays, or the first module beyond the four of its cabinet (R177). -/
def badLimit (v : State) : Option (Nat × Nat) :=
  match (List.range 24).find? fun c => decide (6 < reachCount (cabN v c 3)) with
  | some c => some (0x3180 + c, 3)
  | none => ((List.range 96).find? (crowded v)).map fun j => (0x3100 + j, 1)

/-! ## Order 4: cross-field rules -/

/-- The first of n objects, from index base and with subindex k, that fails p. -/
def firstFail (n base k : Nat) (p : Nat → Bool) : Option (Nat × Nat) :=
  ((List.range n).find? fun i => !(p i)).map fun i => (base + i, k)

/-- Types by which used bays, cabinets and strings name link n. -/
def namers (v : State) (n : Nat) : List Nat :=
  ((List.range 24).filter fun i => bayLink v i == some n).map (fun _ => 2)
    ++ ((List.range 24).filter fun c => cabLink v c == some n).map (fun _ => 1)
    ++ ((List.range 8).filter fun i => strLink v i == some n).map fun _ => 3

/-- A typed link is named once, by its own type; an untyped link by nothing (R103). -/
def linkNamed (v : State) (n : Nat) : Bool :=
  if linkType v n = 0 then (namers v n).isEmpty else namers v n == [linkType v n]

/-- Counts of R103. -/
def linkCountOk (v : State) (n : Nat) : Bool :=
  match linkType v n with
  | 0 => linkCount v n == 0
  | 1 => decide (1 ≤ linkCount v n ∧ linkCount v n ≤ 4)
  | t => decide (linkCount v n ≤ maxCount t)

/-- Line time in ns of the longest up-frame of typed links: 18 + 3W characters of 80 ns (R94). -/
def upTime (v : State) (n : Nat) : Nat :=
  if linkType v n = 0 then 0 else 80 * (18 + 3 * upWords (linkType v n) (linkCount v n))

/-- Line time in ns of the down-frame, marker included: 15 + 3W characters (R90). -/
def downTime (v : State) (n : Nat) : Nat := if linkType v n = 0 then 0 else 80 * (15 + 3 * downWords v n)

/-- The lead covers the longest up-frame. -/
def leadOk (v : State) : Bool := (List.range 64).all fun n => linkType v n == 0 || decide (upTime v n + 200 ≤ 2 * cfgN v 0x3600 2)

/-- The apply delay covers the longest down-frame. -/
def applyOk (v : State) : Bool := (List.range 64).all fun n => linkType v n == 0 || decide (downTime v n + 1500 ≤ 2 * cfgN v 0x3600 3)

/-- Vehicle link of bay i is used by no lower bay. -/
def vehicleOnce (v : State) (i : Nat) : Bool :=
  match bayVehicle v i with
  | some n => (List.range i).all fun k => bayVehicle v k != some n
  | none => true

/-- Module j's cabinet is configured, and no lower module has its place (R177). -/
def moduleOk (v : State) (j : Nat) : Bool :=
  match modCab v j with
  | some c => (cabLink v c).isSome && (List.range j).all fun k => !(modCab v k == some c && modN v k 2 == modN v j 2)
  | none => true

/-- Module count of a configured cabinet is its link's count. -/
def cabOk (v : State) (c : Nat) : Bool :=
  match cabLink v c with
  | some n => cabN v c 2 == linkCount v n
  | none => true

/-- Non-spare modules whose cabinets reach bay i. -/
def reachable (v : State) (i : Nat) : Nat :=
  countTrue 96 fun j =>
    match modCab v j with
    | some c => modN v j 5 == 0 && (cabN v c 3).testBit i
    | none => false

/-- Rated power at most rated voltage x rated current. -/
def powerOk (v : State) (i : Nat) : Bool := !(bayUsed v i) || decide (bayN v i 9 * 1000 ≤ bayN v i 7 * bayN v i 8)

/-- Sensor map of a used bay with a head (R202). -/
def sensorMapOk (v : State) (i : Nat) : Bool :=
  match bayLink v i with
  | none => true
  | some n =>
    let b := cfgBytes v (0x3000 + i) 0x1A
    (List.range 16).all fun k =>
      let w := (b.getD k 0).toNat
      if k < linkCount v n then w != 255 && w % 32 == 0 else w == 255

/-- Thresholds of class c that are enabled stand in order (R208). -/
def classOk (v : State) (c : Nat) : Bool :=
  let low := [lowAt v c 1, lowAt v c 2].filterMap id
  let high := [highAt v c 3, highAt v c 4].filterMap id
  let stop := (highAt v c 5).toList
  List.Pairwise (· ≤ ·) low && List.Pairwise (· ≤ ·) high && (low ++ high).all (fun a => stop.all fun b => decide (a < b))
    && low.all fun a => high.all fun b => decide (a < b)

/-- Sum of the conductances at node i with the coolant's flow term. -/
def conductance (g : ThNet) (i : Nat) : ℚ := sumQ ((g.terms [] i).map (·.1))

/-- No state node of a network has dt x sum(g) / c above 0.5. -/
def netStable (g : ThNet) : Bool :=
  (List.range g.cap.length).all fun i => nth g.driven i || decide (thDt * conductance g i ≤ g.cap.getD i 0 / 2)

/-- Cable profile of a used bay: named, with a conductor, stable at the largest flow, its I_max within the bay's rating. -/
def profileOk (v : State) (i : Nat) : Bool :=
  !(bayUsed v i) ||
    (let p := bayN v i 0x15
     decide (0x3440 ≤ p ∧ p ≤ 0x344F) && profN v i 1 != 0 && decide (profN v i 7 ≤ bayN v i 8)
       && netStable (cableNet v i (profN v i 0xB) 0))

/-- Vehicle link of a used bay (R303). -/
def vehicleOk (v : State) (i : Nat) : Bool :=
  let kind := bayN v i 3
  let base := match bayVehicle v i with
    | some n =>
      let m := cfgN v (0x3710 + n) 1
      (m == 1 && kind == 1) || (m == 2 && kind == 2) || (m == 3 && kind == 0)
    | none => true
  !(bayUsed v i) || (base && (kind != 0 || (bayN v i 0x19).testBit 0))

/-- Pilot enable of a vehicle link by its mode. -/
def pilotOk (v : State) (n : Nat) : Bool :=
  match cfgN v (0x3710 + n) 1 with
  | 1 => cfgB v (0x3710 + n) 5
  | 2 => cfgB v (0x3710 + n) 5
  | 3 => !(cfgB v (0x3710 + n) 5)
  | _ => true

/-- Rules of the links and modules (R103, R177). -/
def crossLinks (v : State) : List (Option (Nat × Nat)) :=
  [if leadOk v then none else some (0x3600, 2), if applyOk v then none else some (0x3600, 3),
   firstFail 64 0x3610 1 (linkNamed v), firstFail 64 0x3610 2 (linkCountOk v), firstFail 24 0x3000 5 (vehicleOnce v),
   firstFail 96 0x3100 1 (moduleOk v), firstFail 24 0x3180 2 (cabOk v)]

/-- The minimum of a used bay can be met (R177). -/
def minimumOk (v : State) (i : Nat) : Bool := !(bayUsed v i) || decide (bayN v i 0x16 ≤ reachable v i)

/-- SoC minimum below SoC maximum (R176). -/
def socOk (v : State) (i : Nat) : Bool := decide (strN v i 0xA < strN v i 0xB)

/-- Rules of bays, strings and the thermal model (R176, R202, R208, R303). -/
def crossBays (v : State) : List (Option (Nat × Nat)) :=
  [firstFail 24 0x3000 0x16 (minimumOk v), firstFail 24 0x3000 9 (powerOk v), firstFail 8 0x31A0 0xA (socOk v),
   firstFail 24 0x3000 0x1A (sensorMapOk v), firstFail 14 0x3410 1 (classOk v), firstFail 24 0x3000 0x15 (profileOk v),
   if netStable (moduleNet v 0) then none else some (0x3404, 4), if netStable (stringNet v 0) then none else some (0x3405, 3),
   if netStable (xfmrNet v 0) then none else some (0x3402, 4)]

/-- Rules of vehicle links and the site bus (R303, R324, R326, R335, R341). -/
def crossBus (v : State) : List (Option (Nat × Nat)) :=
  [firstFail 24 0x3000 5 (vehicleOk v), firstFail 24 0x3710 5 (pilotOk v), firstFail 4 0x3810 2 (timingOk v),
   firstFail 4 0x3810 8 (wakeRateOk v), firstFail 4 0x3810 0xE (filtersOk v), firstFail 4 0x3810 0xF (quadOk v)]

/-- First object that breaks a cross-field rule. -/
def badCross (v : State) : Option (Nat × Nat) := (crossLinks v ++ crossBays v ++ crossBus v).findSome? id

/-! ## Order 5 and the whole -/

/-- A tariff calendar in the set passes Table 12.7 (R254). -/
def calendarOk (v : State) : Bool :=
  let b := cfgBytes v 0x4200 0
  b.isEmpty || calCheck b == 0

/-- The failing code and object of a commit (Table 4.8); none where all checks pass. -/
def commitFail (s : State) : Option (Nat × Nat) :=
  let v := shadowView s
  if s.sets.computed ≠ s.sets.expected then some (1, objKey 0x2200 3)
  else
    match badRange s.sets.shadow with
    | some p => some (3, objKey p.1 p.2)
    | none =>
      match badLimit v with
      | some p => some (2, objKey p.1 p.2)
      | none =>
        match badCross v with
        | some p => some (3, objKey p.1 p.2)
        | none => if calendarOk v then none else some (3, objKey 0x4200 0)

end Sys2Proof.Machine
end

