-- ==== Sys2Proof/Machine/ObjLane.lean ====
section
/-! DEFINITION. What a read of a read-only object returns (R72), first part: identity, lanes, sets, spur links, tiles, loops, share engine,
Waypoint and thermal model. A number the object's type holds is given as an integer; lane objects are the active lane's (R133). -/

namespace Sys2Proof.Machine

/-- The value at subindex k of a list that starts at subindex 1. -/
def subAt (l : List Int) (k : Nat) : Int := l.getD (k - 1) 0

/-- A boolean as an object value. -/
def flagI (b : Bool) : Int := if b then 1 else 0

/-! ## Modes, life cycle, temperatures, lanes (chapters 1, 2, 3, 13, 18) -/

/-- Object 2010 (R56). -/
def readMode (s : State) (k : Nat) : Int :=
  let m := s.modes
  match k with
  | 1 => m.requested.toNat
  | 2 => m.mode.code.toNat
  | 4 => m.result.toNat
  | 7 => m.entered.toNat
  | 8 => m.safeCause.toNat
  | _ => m.bootMs.toNat

/-- Object 2020 (R69). -/
def readReset (s : State) (k : Nat) : Int :=
  subAt [(s.bk.resetLatches.toNat : Int), s.bk.lastReset.toNat, s.bk.resetCount.toNat, s.bk.lastResetTime.toNat,
    s.laneA.ctl.bootStep, s.laneB.ctl.bootStep] k

/-- Object 2030 (R378). -/
def readLife (s : State) (k : Nat) : Int :=
  subAt [(lifeCode s.life.fuse : Int), 0, flagI s.life.debugOff, flagI s.life.rootLock, s.life.lastChange.toNat] k

/-- Object 2040 (R53). -/
def readTemps (s : State) (k : Nat) : Int :=
  subAt [s.laneA.temp.reported, s.laneB.temp.reported, s.jct.temp, s.jct.metTemp, (thermalState s : Nat), s.bk.railLatches.toNat,
    s.jct.peak, (s.jct.throttled / 1000 : Nat), s.rails.short.toNat] k

/-- Object 2100 (R287). -/
def readJunction (s : State) (k : Nat) : Int :=
  match k with
  | 1 => laneNum (activeLane s)
  | 2 => s.jct.laneA.role.code
  | 3 => s.jct.laneB.role.code
  | 8 => s.jct.crossovers.toNat
  | 9 => s.jct.lastAt.toNat
  | 0xA => s.jct.lastCause.toNat
  | 0xB => flagI (decide (laneCount s < 2))
  | _ => s.jct.result.toNat

/-- Object 2110 of lane l (R287). -/
def readLaneHealth (s : State) (l : Lane) (k : Nat) : Int :=
  let j := s.jct.lane l
  let c := (s.lane l).ctl
  subAt [(j.role.code : Int), j.health.toNat, j.verdict.toNat, j.absent.toNat, j.canaryFails.toNat, j.suspects.length, j.demotions.toNat,
    j.resets.toNat, j.attempts.toNat, j.resyncs.toNat, j.matches_.toNat, c.testsPassed.toNat, c.testsFailed.toNat,
    (c.marchPos * 1000 / marchBlocks : Nat), c.marchPasses.toNat,
    (flagBits ((List.range 64).map fun n => (n, c.failedRx.contains n)) : Nat)] k

/-- Object 2180 (R30). -/
def readSpares (s : State) (k : Nat) : Int :=
  subAt [flagI (spareTile s.laneA), flagI (spareTile s.laneB), (spareLinks s : Nat), (s.nand.spare : Nat), (nandFraction s : Nat),
    (s.fs.rows : Nat), (s.met.ctl.rows : Nat), (spareSlots s.act : Nat), (s.life.rows : Nat), (spareModules s.act : Nat),
    (spareQueues s.act : Nat), s.clk.lowSpare.toNat] k

/-! ## Configuration sets and bay table (chapter 4) -/

/-- Object 2200 (Table 4.9). -/
def readSets (s : State) (k : Nat) : Int :=
  let t := s.sets
  match k with
  | 1 => (match t.st with
    | .opened => 0
    | .committed => 1
    | .swapPending => 2
    | .copying => 3)
  | 4 => t.computed.toNat
  | 5 => (setCrc t.active).toNat
  | 6 => t.result.toNat
  | 7 => t.failing.toNat
  | 8 => t.schema.toNat
  | 0xA => t.swaps.toNat
  | 0xB => t.lastSwap.toNat
  | 0xC => t.epoch.toNat
  | 0xE => t.nPublished.toNat
  | _ => t.nDiscarded.toNat

/-- Bytes a to b of the published entry of bay i, as Table 4.11 places the fields. -/
def bayFields : List (Nat × Nat × Nat) :=
  [(4, 2, 1), (5, 3, 1), (6, 4, 1), (7, 5, 1), (8, 6, 4), (0xC, 7, 2), (0xE, 8, 2), (0x10, 9, 2), (0x12, 0xA, 2), (0x14, 0xB, 2),
   (0x16, 0xC, 1), (0x17, 0xD, 1), (0x18, 0xE, 2), (0x1A, 0xF, 2), (0x1C, 0x10, 4), (0x20, 0x11, 8), (0x28, 0x12, 2), (0x2A, 0x13, 2),
   (0x2C, 0x14, 2), (0x2E, 0x15, 2), (0x30, 0x16, 1), (0x31, 0x17, 1), (0x32, 0x18, 2), (0x34, 0x19, 1), (0x40, 0x1A, 16), (0x50, 0x1B, 32)]

/-- Offsets 0x04-0xFB of bay i's published entry; reserved bytes 0, the name filled with 0. -/
def bayEntry (s : State) (i : Nat) : List Byte :=
  let b := bayFields.foldl (fun (b : List Byte) f => padTo (f.1 - 4) b ++ padTo f.2.2 (cfgBytes s (0x3000 + i) f.2.1)) []
  padTo 0xF8 b

/-- Objects 3000-3017:01, 1C (R86). -/
def readBay (s : State) (i k : Nat) : Int := if k = 1 then (nth s.sets.gens i).toNat else (crc32 (bayEntry s i)).toNat

/-! ## Spur links (chapter 5) -/

/-- Object 3600 (R108). -/
def readLinks (s : State) (k : Nat) : Int :=
  match k with
  | 4 => countTrue 64 fun n => s.act.linkUp n
  | 5 => failedMask s.act
  | 6 => s.clk.period
  | _ => flagI s.clk.long

/-- Object 3650+n (R108). -/
def readLink (s : State) (n k : Nat) : Int :=
  let l := s.act.link n
  let hidden := l.lastStatus == 4 && pairedType s n && s.modes.mode != .commission
  subAt [(l.st.code : Int), l.lastStatus.toNat, if hidden then 0 else l.serial.toNat, l.d.toNat, l.lastOffset.toInt, l.cValid.toNat, l.cMissing.toNat, l.cLate.toNat,
    l.cCrc.toNat, l.cType.toNat, l.cSeq.toNat, l.cOffset.toNat, l.cause.toNat, l.failures.toNat] k

/-! ## Tiles and loops (chapters 6, 7) -/

/-- Loops placed in a tile. -/
def loopsPlaced (t : Tile) : Nat := (t.slots.filter Option.isSome).length

/-- Object 3510+t (R133). -/
def readTile (s : State) (t k : Nat) : Int :=
  let x := nth s.laneA.tiles t
  let y := nth s.laneB.tiles t
  subAt [(x.role.code : Int), y.role.code, loopsPlaced x, loopsPlaced y, x.corrected.toNat, y.corrected.toNat] k

/-- Objects 3500:03-05, 3501:03, 3502:0D, 0E, 3504:03, 08, 09 and 3506:0D-0F (R133, R154). -/
def readLoops (s : State) (i k : Nat) : Int :=
  match i, k with
  | 0x3500, 3 => s.sets.reelCode.toNat
  | 0x3500, 4 => s.sets.reelPos.toNat
  | 0x3500, _ => s.act.ctl.satPeriods.toNat
  | 0x3501, _ => s.clk.loopResult.toNat
  | 0x3502, 0xD => loopsInFault s.act
  | 0x3502, _ => s.act.ctl.loopFaults.toNat
  | 0x3504, 3 => s.clk.cap.st.toNat
  | 0x3504, 8 => samplesHeld s
  | 0x3504, _ => s.clk.cap.trigPeriod.toNat
  | _, 0xD => s.clk.inj.st.toNat
  | _, 0xE => s.clk.inj.cause.toNat
  | _, _ => s.clk.inj.startPeriod.toNat

/-- Objects 3530-3533: loop status words (Table 7.15). -/
def readLoopWord (s : State) (i k : Nat) : Int :=
  let x := s.act
  loopWord (match i with
    | 0x3530 => nth x.bayLoops (k - 1)
    | 0x3531 => nth x.modLoops (k - 1)
    | 0x3532 => nth x.strLoops (k - 1)
    | _ => nth x.slowLoops (k - 1))

/-- Objects 3302-3304: tile and slot of a loop, 0xFFFF where it has none (Table 9.11). -/
def readPlace (s : State) (i k : Nat) : Int :=
  let x := s.act
  let p := match i with
    | 0x3302 => nth x.bayLoops (k - 1)
    | 0x3303 => nth x.modLoops (k - 1)
    | _ => nth x.strLoops (k - 1)
  match p.place with
  | some (t, c) => (t * 256 + c : Nat)
  | none => 0xFFFF

/-- Capture buffer of a channel, 16,384 bytes (object 3505, Table 6.16): what lies beyond the samples held is free. -/
def readBuffer (s : State) (c : Nat) : List Byte :=
  let b := (s.clk.cap.bufs.getD c []).flatMap fun w => leBytes 4 w.toNat
  b ++ Config.freeBytes (s.free + c) (4 * captureDepth - b.length)

/-- Step log of the stepped sine (object 3508). -/
def readStepLog (s : State) : List Byte :=
  s.clk.inj.log.flatMap fun e => leBytes 8 e.1.toNat ++ leBytes 4 e.2.1.toNat ++ leBytes 4 e.2.2.toNat

/-! ## Share engine and federation (chapter 8) -/

/-- Object 3201 (R176). -/
def readShare (s : State) (k : Nat) : Int :=
  let x := s.act
  let h := x.share
  subAt [kw h.cap, kw h.sh, x.th.ptx, kw h.pDem, kw h.pAux, kw h.g, kw h.bBud, kw (sumInt h.gb), kw (sumInt h.gs), h.lam.toNat, h.flags.toNat,
    h.runs.toNat, h.eD] k

/-- Objects 3210-3215 of bay i and 3220-3223 of string i (R176). -/
def readGrant (s : State) (o i : Nat) : Int :=
  let h := s.act.share
  match o with
  | 0x3210 => nth h.gb i
  | 0x3211 => nth h.hi i
  | 0x3212 => (nth h.code i).toNat
  | 0x3213 => nth h.w i
  | 0x3214 => nth h.offerP i
  | 0x3215 => nth h.offerI i
  | 0x3220 => nth h.gs i
  | 0x3221 => nth h.d i
  | 0x3222 => nth h.c i
  | _ => (nth h.wd i * 65536 + nth h.wc i : Nat)

/-- Object 3231 (R176). -/
def readFed (s : State) (k : Nat) : Int :=
  let f := s.clk.fed
  subAt [(f.leaderNode.toNat : Int), fedRole s, f.round.toNat, hubsHeard s, f.changes.toNat, f.dual.toNat] k

/-- Objects 31A0:12, 13: SoC in use and age of the report (R169). -/
def readString (s : State) (i k : Nat) : Int :=
  let y := nth s.act.share.strs i
  if k = 0x12 then (strSoc s s.act.share i).getD 0xFFFF
  else if y.known then secsSince s y.reportAt else 0

/-! ## Waypoint (chapter 9) -/

/-- POS of the last VALID frame of module j, 0 before any. -/
def lastPos (s : State) (x : LaneState) (j : Nat) : Nat :=
  match modLink s j with
  | some (n, m) => let w := (x.link n).word (5 + 4 * m); if w = 0x800000 then 0 else modPos w
  | none => 0

/-- Object 3100+j (R193). -/
def readModule (s : State) (j k : Nat) : Int :=
  let m := s.act.mod j
  match k with
  | 8 => (thetaBase s j m * 65536 + m.thetaMean : Nat)
  | 9 => m.st.code
  | 0xA => lastPos s s.act j
  | 0xB => m.mlim
  | 0xC => m.step
  | 0xD => m.retireCause.toNat
  | _ => m.moves.toNat

/-- Object 3180+c:04, 05 (R193). -/
def readCabinet (s : State) (c k : Nat) : Int :=
  if k = 4 then
    match (cabModules s c).find? fun j => (s.act.mod j).st == .moving with
    | some j => j + 1
    | none => 0
  else (nth s.act.wp.cabMoves c).toNat

/-- Object 3301 (R193). -/
def readWaypoint (s : State) (k : Nat) : Int :=
  let w := s.act.wp
  subAt [((w.mods.filter fun m => m.st == .moving).length : Int), w.completed.toNat, w.abandoned.toNat, w.retirements.toNat, w.short.toNat,
    w.reliefs.toNat, (allLoops.filter fun i => (s.act.loop i).unplaced).length, s.nand.relocations.toNat] k

/-! ## Thermal model (chapter 10) -/

/-- Object 3400 (R214). -/
def readThermal (s : State) (k : Nat) : Int :=
  let t := s.act.th
  let all := t.hub ++ (t.bays ++ t.mods ++ t.strs).flatMap ThChan.sensors
  subAt [(t.updates.toNat : Int), t.ptx, t.ambient, t.coolant, (all.filter fun y => y.st == .quarantined).length] k

/-- Currents, flags and flow of objects 3460 and 3480. -/
def readChan (c : ThChan) (k : Nat) : Int := subAt [(c.i2 : Int), c.i10, c.i60, 0, c.flags.toNat, 0, c.flow] k

/-- Node temperatures of a channel in 0.001 degC (objects 3460:04, 3480:04). -/
def chanNodes (c : ThChan) : List Byte := c.nodes.flatMap fun y => leBytesInt 4 (roundDiv y.that 65536)

/-- Sensor states of a channel (objects 3460:06, 3480:06). -/
def chanSensors (c : ThChan) : List Byte := c.sensors.map fun y => BitVec.ofNat 8 (y.st.code * 64 + y.count % 64)

end Sys2Proof.Machine
end

