-- ==== Sys2Proof/Machine/TrievoPhy.lean ====
section
/-! DEFINITION. The Trievo physical layer and frame format (R345-R348): modulation, frame control word, payload coding, the symbols of a
frame, and its duration. -/

namespace Sys2Proof.Machine

/-! ## Durations (R347) -/

/-- Bits a subcarrier carries at a modulation (0 DBPSK, 1 DQPSK, 2 D8PSK, 3 robust DBPSK). -/
def modBits (m : Nat) : Nat := if m = 1 then 2 else if m = 2 then 3 else 1

/-- Times each coded bit is sent. -/
def modRepeat (m : Nat) : Nat := if m = 3 then 4 else 1

/-- Payload symbols of a frame of LENGTH n, ACK apart. -/
def payloadSymbols (n m : Nat) : Nat := ceilDiv ((8 * (n + 4) + 6) * 2 * modRepeat m) (64 * modBits m)

/-- Length of a symbol and of a slot, ns. -/
def symbolNs : Nat := 1440000

/-- Latest end of a compliant ACK after the frame, ns (R349). -/
def ackNs : Nat := 11620000

/-- Slots of a superframe. -/
def superSlots : Nat := 192

/-! ## Frame control word (Table 17.2) -/

/-- The bits of v from bit hi down to bit lo. -/
def bitsDown (v hi lo : Nat) : List Bool := (List.range (hi + 1 - lo)).map fun i => v.testBit (hi - i)

/-- One bit of the CRC-16 register, most significant first. -/
def crc16Bit (c : U16) (b : Bool) : U16 :=
  let r := c <<< 1
  if c.getLsbD 15 != b then r ^^^ 0x1021#16 else r

/-- CRC-16 over bits. -/
def crc16Bits (l : List Bool) : U16 := l.foldl crc16Bit 0xFFFF#16

/-- Frame control: type, version, source, destination, length, modulation, ACKREQ, couplers, SEQ, RELAY. -/
def frameControl (ty ver dst len m : Nat) (ack : Bool) (phase seq : Nat) (relay : Bool) : U64 :=
  let mod := if m = 3 then 0 else m
  let hi := ty * 2 ^ 60 + ver * 2 ^ 58 + dst * 2 ^ 42 + len * 2 ^ 34 + mod * 2 ^ 32 + (if m = 3 then 2 ^ 31 else 0)
    + (if ack then 2 ^ 30 else 0) + phase * 2 ^ 28 + seq * 2 ^ 24 + (if relay then 2 ^ 23 else 0)
  BitVec.ofNat 64 (hi + (crc16Bits (bitsDown hi 63 22)).toNat * 2 ^ 6)

/-! ## Coding (R348) -/

/-- Bits of bytes, least significant first. -/
def bitsOfBytes (l : List Byte) : List Bool := l.flatMap fun b => (List.range 8).map fun i => b.getLsbD i

/-- Scrambler x^7 + x^4 + 1 over a 7-bit register. -/
def scramble : Nat → List Bool → List Bool
  | _, [] => []
  | r, b :: bs =>
    let f := r.testBit 6 != r.testBit 3
    (b != f) :: scramble ((2 * r + (if f then 1 else 0)) % 128) bs

/-- Parity of the bits of v under a mask. -/
def parity (v mask : Nat) : Bool := ((List.range 7).foldl (fun p i => if v.testBit i && mask.testBit i then !p else p) false)

/-- Convolutional code of rate 1/2 and constraint length 7; the newest bit is the highest of the register. -/
def convolve : Nat → List Bool → List Bool
  | _, [] => []
  | r, b :: bs =>
    let w := r / 2 + (if b then 64 else 0)
    parity w 0o133 :: parity w 0o171 :: convolve w bs

/-- A stream filled with 0 to n bits. -/
def fillBits (n : Nat) (l : List Bool) : List Bool := (l ++ List.replicate (n - l.length) false).take n

/-- Coded bits of a payload with its CRC-32, before repetition. -/
def codedPayload (p : List Byte) : List Bool :=
  convolve 0 (scramble 0x7F (bitsOfBytes (p ++ leBytes 4 (crc32 p).toNat)) ++ List.replicate 6 false)

/-- Bits of a block of z symbols: bits of subcarrier c of symbol y as a number with bit plane k at bit k. -/
def blockSymbols (m z : Nat) (l : List Bool) : List (List Nat) :=
  let b := modBits m
  let place (j : Nat) : List (Nat × Nat × Nat) :=
    let s := j % z
    let q := j / z
    if m = 3 then (List.range 4).map fun c => ((s + c * (z / 4)) % z, 16 * c + q, 0)
    else let p := 23 * q % (64 * b); [(s, p % 64, p / 64)]
  l.zipIdx.foldl (fun (g : List (List Nat)) (e : Bool × Nat) =>
      if e.1 then (place e.2).foldl (fun g t => upd g t.1 fun r => upd r t.2.1 fun v => v + 2 ^ t.2.2) g else g)
    (List.replicate z (List.replicate 64 0))

/-- Blocks of at most w symbols over n symbols, each filled from the coded stream; fuel bounds the blocks. -/
def blocks (m w : Nat) : Nat → Nat → List Bool → List (List Nat)
  | 0, _, _ => []
  | fuel + 1, n, l =>
    if n = 0 then []
    else
      let z := min w n
      let k := if m = 3 then 16 * z else 64 * modBits m * z
      blockSymbols m z (fillBits k l) ++ blocks m w fuel (n - z) (l.drop k)

/-- Symbols of a payload at modulation m, interleaver blocks of w symbols. -/
def payloadGrid (m w : Nat) (p : List Byte) : List (List Nat) :=
  let n := payloadSymbols p.length m
  blocks m w (n + 1) n (codedPayload p)

/-- The 4 symbols of the frame control, its 128 coded bits placed twice. -/
def controlGrid (fc : U64) : List (List Nat) :=
  let l := convolve 0 (bitsDown fc.toNat 63 0)
  l.zipIdx.foldl (fun (g : List (List Nat)) (e : Bool × Nat) =>
      if e.1 then
        let s := e.2 % 4
        let q := e.2 / 4
        upd (upd g s fun r => upd r q fun v => v + 1) ((s + 2) % 4) fun r => upd r (32 + q) fun v => v + 1
      else g)
    (List.replicate 4 (List.replicate 64 0))

/-! ## Modulation (R346) -/

/-- Phase step of the bits of a subcarrier, units of pi/64. -/
def phaseStep (m v : Nat) : Nat :=
  if m = 1 then 32 * [0, 1, 3, 2].getD v 0
  else if m = 2 then 16 * [0, 1, 3, 2, 7, 6, 4, 5].getD v 0
  else 64 * (v % 2)

/-- Symbols on the line, each stepping from the last. -/
def modulate (m : Nat) : List Nat → List (List Nat) → List (List Nat)
  | _, [] => []
  | r, x :: xs =>
    let y := (List.range 64).map fun i => (nth r i + phaseStep m (nth x i)) % 128
    y :: modulate m y xs

/-- The preamble: twice the quadratic phases, then the reference symbol. -/
def preamble : List (List Nat) :=
  let a := (List.range 64).map fun i => i * i % 128
  [a, a, a.map fun p => (p + 64) % 128]

/-- All symbols of a frame: preamble, frame control, payload. -/
def frameSymbols (m w : Nat) (fc : U64) (p : List Byte) : List (List Nat) :=
  let c := modulate 0 (preamble.getD 2 []) (controlGrid fc)
  preamble ++ c ++ modulate m (c.getD 3 []) (payloadGrid m w p)

end Sys2Proof.Machine
end

