-- ==== Sys2Proof/Machine/Trievo.lean ====
section
/-! DEFINITION. The Trievo power-line link (chapter 17): superframes and beacons, access, retries, link quality and repeaters, peers, SoC
reports and the host mailbox. -/

namespace Sys2Proof.Machine

/-! ## The link and its peers -/

/-- s with the Trievo link changed. -/
def modTri (f : Trievo → Trievo) (s : State) : State := { s with tri := f s.tri }

/-- Object 3900:k. -/
def triN (s : State) (k : Nat) : Nat := cfgN s 0x3900 k

/-- The link runs: not off, not in BOOT or BACKUP, and a lane is active. -/
def triOn (s : State) : Bool :=
  triN s 1 != 0 && s.modes.mode != .boot && s.modes.mode != .backup && (activeLane s).isSome

/-- Native mode. -/
def triNative (s : State) : Bool := triN s 1 == 1

/-- Three-phase coupling. -/
def threePhase (s : State) : Bool := triN s 2 == 1

/-- The entry of an associated peer. -/
def Trievo.peer (t : Trievo) (a : U8) : Option Peer := t.peers.find? fun p => p.addr == a

/-- The entry of peer a changed. -/
def Trievo.modPeer (a : U8) (f : Peer → Peer) (t : Trievo) : Trievo :=
  { t with peers := t.peers.map fun p => if p.addr = a then f p else p }

/-- Entry e of the peer table: serial, role, instance, CFP slots, flags. -/
structure TableEntry where
  serial : Nat
  role : Nat
  inst : Nat
  slots : Nat
  mayRepeat : Bool
  deriving DecidableEq, Repr, Inhabited

/-- Entry e of object 3910. -/
def tableEntry (s : State) (e : Nat) : TableEntry :=
  let b := slice (cfgBytes s 0x3910 0) (8 * e) 8
  { serial := field b 0 4, role := field b 4 1, inst := field b 5 1, slots := field b 6 1, mayRepeat := (field b 7 1).testBit 0 }

/-- Table entry of an address. -/
def relayEntryOf (s : State) (a : U8) : TableEntry := tableEntry s (a.toNat - 1)

/-! ## Modulation and reach (R354, R355) -/

/-- Modulations in ascending order: rank 0 robust, 1 DBPSK, 2 DQPSK, 3 D8PSK. -/
def rankMod (r : Nat) : Nat := if r = 0 then 3 else r - 1

/-- Rank of a modulation. -/
def modRank (m : Nat) : Nat := if m = 3 then 0 else m + 1

/-- Threshold of a rank, 0.25 dB. -/
def rankThreshold (s : State) (r : Nat) : Nat :=
  if r = 0 then 0 else if r = 1 then triN s 7 else if r = 2 then triN s 6 else triN s 5

/-- Highest rank of the link mode. -/
def topRank (s : State) : Nat := if triNative s then 3 else 2

/-- Highest rank up to r whose threshold an SNR meets. -/
def meetRank (s : State) (snr : Nat) : Nat → Nat
  | 0 => 0
  | r + 1 => if rankThreshold s (r + 1) ≤ snr then r + 1 else meetRank s snr r

/-- An ACK's SNR: the first sets the highest modulation it meets; later ones step down at once, and up one level after 8 in a row 2 dB above
the next threshold. -/
def takeSnr (s : State) (snr : U8) (p : Peer) : Peer :=
  let v := snr.toNat
  let r := modRank p.modulation.toNat
  let first := p.fresh
  let p := { p with snrDl := snr, fresh := false }
  if first ∨ v < rankThreshold s r then
    { p with modulation := BitVec.ofNat 8 (rankMod (meetRank s v (topRank s))), upRun := 0 }
  else if r < topRank s ∧ rankThreshold s (r + 1) + 8 ≤ v then
    if 7 ≤ p.upRun then { p with modulation := BitVec.ofNat 8 (rankMod (r + 1)), upRun := 0 } else { p with upRun := p.upRun + 1 }
  else { p with upRun := 0 }

/-- Poorly reached: final failures among the last 32 unicasts, or SNR below the DBPSK threshold. -/
def poorly (s : State) (p : Peer) : Bool :=
  decide (triN s 0xA ≤ (p.hist.filter (·.2)).length) || (!p.fresh && decide (p.snrDl.toNat < triN s 7))

/-- A directly reached peer's state follows its reach. -/
def reach (s : State) (p : Peer) : Peer := if p.st = 0 ∨ p.st = 3 then { p with st := if poorly s p then 3 else 0 } else p

/-- A unicast to peer a ends: the last 32 are kept. -/
def recordUnicast (s : State) (first final : Bool) (p : Peer) : Peer :=
  reach s { p with hist := ((first, final) :: p.hist).take 32 }

/-! ## Sending (R347, R350-R353) -/

/-- Modulation of a frame: retries robust, a first attempt to a peer at its modulation, DBPSK otherwise. -/
def modOf (t : Trievo) (u : Unicast) : Nat :=
  if u.k ≠ 0 then 3
  else
    match t.peer u.via with
    | some p => p.modulation.toNat
    | none => 0

/-- Couplers of a frame: PH0 in single-phase coupling; a unicast to a peer on its learned phase; all three otherwise. -/
def couplersOf (s : State) (t : Trievo) (via : U8) : Nat :=
  if !(threePhase s) then 1
  else
    match t.peer via with
    | some p => p.phase.toNat
    | none => 0

/-- Interleaver block. -/
def blockSpan (s : State) : Nat := if triNative s then 48 else 16

/-- A frame on the line: counted, its SEQ consumed unless it is repeated. -/
def sendFrame (s : State) (ty : Nat) (dst : U8) (p : List Byte) (m : Nat) (ack : Bool) (seq : BitVec 4) (relay : Bool) (couplers : Nat)
    (t : Trievo) : Trievo :=
  let ver := if triNative s then 1 else 0
  let fc := frameControl ty ver dst.toNat p.length m ack couplers seq.toNat relay
  { t with sent := t.sent + 1, lastTx := some { fc := fc, couplers := couplers, symbols := frameSymbols m (blockSpan s) fc p } }

/-- The peer a frame for d goes to: its repeater, or itself. -/
def viaOf (t : Trievo) (d : U8) : U8 :=
  match t.peer d with
  | some p => if p.st = 1 then p.repeater else d
  | none => d

/-- The payload on the line: a relayed frame names its final destination and origin. -/
def linePayload (u : Unicast) (via : U8) : List Byte := if via = u.dst then u.payload else u.dst :: 0 :: u.payload

/-- End of the frame, with its ACK where one is asked for, ns after the start of its first slot. -/
def frameNs (n m : Nat) (ack : Bool) : Nat := (7 + payloadSymbols n m) * symbolNs + if ack then ackNs else 0

/-- A frame of n bytes may start at a slot: in the coordinator's allocation or in the contention period it ends in, with its ACK (R351). -/
def slotFits (s : State) (t : Trievo) (slot n m : Nat) (ack : Bool) : Bool :=
  let e := slot * symbolNs + frameNs n m ack
  !(triNative s) || (decide (t.cpStart ≤ slot) && decide (e ≤ superSlots * symbolNs))
    || t.allocs.any fun a => a.1 == 0 && decide (a.2.1 ≤ slot) && decide (e ≤ (a.2.1 + a.2.2.1) * symbolNs)

/-- The frame to send next: the oldest of the lowest priority number. -/
def nextFrame (q : List Unicast) : Option Nat :=
  (List.range 3).findSome? fun p => findPos (fun (u : Unicast) => u.prio == p) q

/-- The frame at place i of the queue starts at a slot. -/
def startFrame (s : State) (slot i : Nat) (t : Trievo) : Trievo :=
  let u := nth t.txq i
  let via := viaOf t u.dst
  let u := { u with via := via }
  let m := modOf t u
  let p := linePayload u via
  if !(slotFits s t slot p.length m u.ackReq) then t
  else
    let seq := u.seq.getD t.seq
    let t := { t with txq := t.txq.eraseIdx i, seq := if u.seq.isSome then t.seq else t.seq + 1 }
    let t := sendFrame s u.ftype.toNat via p m u.ackReq seq (via != u.dst) (couplersOf s t via) t
    if u.ackReq then { t with waiting := some { u with seq := some seq } } else t

/-- TRIEVO_FRAME_SEND: the next frame starts at its slot; while a unicast waits for its ACK, nothing is sent. -/
def triSendEffect (slot : Nat) (s : State) : State :=
  if !(triOn s) || s.tri.waiting.isSome then s
  else
    match nextFrame s.tri.txq with
    | some i => modTri (startFrame s slot i) s
    | none => s

/-- TRIEVO_FRAME_SEND. -/
def execTrievoFrameSend (slot : Fin 192) (s : State) : Host.Outcome State Fault Refusal := .next (triSendEffect slot s)

/-- A frame queued, where the queue holds fewer than 64. -/
def queueTri (u : Unicast) (t : Trievo) : Trievo := if t.txq.length < queueDepth 89 then { t with txq := t.txq ++ [u] } else t

/-! ## Acknowledgement (R349, R353, R354) -/

/-- The unicast that waits ends: its peer's entry, a host mailbox result. -/
def endUnicast (s : State) (u : Unicast) (final : Bool) (t : Trievo) : Trievo :=
  let t := t.modPeer u.via (recordUnicast s (u.k == 0 && !final) final)
  { t with waiting := none, txResult := if u.mailbox then (if final then 2 else 0) else t.txResult }

/-- A final failure: counted; in three-phase coupling phase learning is due. -/
def finalFail (s : State) (u : Unicast) (t : Trievo) : Trievo :=
  let t := endUnicast s u true { t with finals := t.finals + 1 }
  if threePhase s then t.modPeer u.via fun p => { p with learn := true } else t

/-- ACK_TIMEOUT: up to 3 robust retries, then the final failure. -/
def ackTimeoutEffect (s : State) : State :=
  match s.tri.waiting with
  | none => s
  | some u =>
    if u.k < 3 then
      modTri (fun t => { t with waiting := none, retries := t.retries + 1, txq := { u with k := u.k + 1 } :: t.txq }) s
    else evt (eventData .finalFailure 5 (u.dst.toNat - 1) [u.dst]) (modTri (finalFail s u) s)

/-- ACK_TIMEOUT. -/
def execAckTimeout (s : State) : Host.Outcome State Fault Refusal := .next (ackTimeoutEffect s)

/-- An ACK to the unicast that waits: its SNR drives the modulation. -/
def takeAck (s : State) (f : TrievoFrame) (t : Trievo) : Trievo :=
  match t.waiting with
  | some u =>
    if u.via = f.src ∧ u.seq = some f.seq then
      endUnicast s u false (t.modPeer u.via (takeSnr s f.ackSnr))
    else t
  | none => t

/-! ## Reception (R349) -/

/-- The frame passes checks 1 to 3. -/
def frameForUs (s : State) (f : TrievoFrame) : Bool :=
  triOn s && f.fcOk && f.ver == (if triNative s then 1 else 0) && (f.dst == 0 || f.dst == 0xFF) && decide (f.ftype.toNat ≤ 6)

/-- The peer a frame comes from: the origin of a relayed frame. -/
def originOf (f : TrievoFrame) : U8 := if f.relay then f.payload.getD 1 0 else f.src

/-- The payload without the bytes of the relay. -/
def innerPayload (f : TrievoFrame) : List Byte := if f.relay then f.payload.drop 2 else f.payload

/-- A frame accepted before with its SRC and SEQ within 2 s. -/
def seenBefore (s : State) (f : TrievoFrame) : Bool :=
  s.tri.seen.any fun e => e.1 == f.src && e.2.1 == f.seq && decide (s.clk.ns ≤ e.2.2 + 2000000000)

/-- The ACK of a unicast that asks for one. -/
def sendAck (s : State) (f : TrievoFrame) (t : Trievo) : Trievo :=
  if f.dst = 0 ∧ f.ackReq then
    let ver := if triNative s then 1 else 0
    let fc := frameControl 2 ver f.src.toNat f.snr.toNat 0 false (couplersOf s t f.src) f.seq.toNat false
    let c := modulate 0 (preamble.getD 2 []) (controlGrid fc)
    { t with lastAck := some (f.src, f.seq, f.snr), sent := t.sent + 1
             lastTx := some { fc := fc, couplers := couplersOf s t f.src, symbols := preamble ++ c } }
  else t

/-- What an accepted frame tells of its sender. -/
def hearPeer (f : TrievoFrame) (t : Trievo) : Trievo :=
  (t.modPeer f.src fun p => { p with snrUl := f.snr, lastHeard := t.sfn }).modPeer (originOf f) fun p => { p with lastHeard := t.sfn }

/-- Frames accepted within the last 2 s. -/
def keepSeen (s : State) (f : TrievoFrame) (t : Trievo) : Trievo :=
  { t with seen := (f.src, f.seq, s.clk.ns) :: t.seen.filter fun e => decide (s.clk.ns ≤ e.2.2 + 2000000000) }

/-- A frame received: ignored, discarded for its payload, acknowledged again, a keep-alive, or delivered by g. -/
def receiveTri (f : TrievoFrame) (g : State → State) (s : State) : State :=
  if !(frameForUs s f) then s
  else if !f.crcOk then modTri (fun t => { t with crcFails := t.crcFails + 1 }) s
  else
    let dup := seenBefore s f
    let s := modTri (fun t => sendAck s f { t with accepted := t.accepted + 1 }) s
    if dup then s
    else
      let s := modTri (fun t => hearPeer f (keepSeen s f t)) s
      if f.payload.isEmpty ∨ (f.relay ∧ f.payload.getD 0 0 ≠ 0) then s else g s

/-- An ACK. -/
def ackEffect (f : TrievoFrame) (s : State) : State :=
  if frameForUs s f then modTri (fun t => takeAck s f { t with accepted := t.accepted + 1 }) s else s

/-! ## DATA (R356) -/

/-- A SoC report reaches string i (R169). -/
def reportSoc (i : Nat) (v : U16) (s : State) : State :=
  bothLanes (fun x => { x with share := (let h := x.share
                                         { h with strs := upd h.strs i fun (y : StrState) =>
                                             { y with reported := v, known := v != 0xFFFF, energy := 0, reportAt := s.site.ns } }) }) s

/-- A SoC report of a string BMU; other roles and values above 1,000 other than 0xFFFF are discarded. -/
def socReport (src : U8) (p : List Byte) (s : State) : State :=
  let e := relayEntryOf s src
  let v := field p 2 2
  if e.role = 3 ∧ 1 ≤ e.inst ∧ e.inst ≤ 8 ∧ p.length = 6 ∧ (v ≤ 1000 ∨ v = 0xFFFF) then reportSoc (e.inst - 1) (BitVec.ofNat 16 v) s else s

/-- A mailbox frame waits for the host, up to 64. -/
def mailIn (src : U8) (port : U8) (d : List Byte) (t : Trievo) : Trievo :=
  if t.mailbox.length < 64 then { t with mailbox := t.mailbox ++ [(src, port, d)] } else t

/-- A DATA payload by its PORT, from an associated peer. -/
def deliverData (src : U8) (p : List Byte) (s : State) : State :=
  if (s.tri.peer src).isNone then s
  else
    match p with
    | port :: d =>
      if port = 1 then socReport src p s
      else if 0x10 ≤ port.toNat ∧ port.toNat ≤ 0x1F then modTri (mailIn src port d) s
      else s
    | [] => s

/-! ## Association and STATUS (R356) -/

/-- Table entry of a serial. -/
def entryFor (s : State) (serial : Nat) : Option Nat :=
  if serial = 0 then none else (List.range 128).find? fun e => (tableEntry s e).serial == serial

/-- A peer as it associates; in three-phase coupling its phase is to be learned. -/
def newPeer (s : State) (e serial : Nat) (f : TrievoFrame) : Peer :=
  { (default : Peer) with addr := BitVec.ofNat 8 (e + 1), modulation := 3, serial := BitVec.ofNat 32 serial, snrUl := f.snr
                          lastHeard := s.tri.sfn, learn := threePhase s, fresh := true }

/-- A peer's entry placed in order of address. -/
def placePeer (p : Peer) : List Peer → List Peer
  | [] => [p]
  | q :: qs => if p.addr.toNat < q.addr.toNat then p :: q :: qs else if p.addr = q.addr then p :: qs else q :: placePeer p qs

/-- The response: address, or 0 for a refusal. -/
def assocResponse (serial a : Nat) (t : Trievo) : Trievo :=
  queueTri { ftype := 4, dst := 0xFE, payload := Config.assocResp (BitVec.ofNat 32 serial) a, ackReq := false, prio := 0, k := 0
             mailbox := false, seq := none, via := 0xFE }
    { t with lastAssoc := some (BitVec.ofNat 32 serial, BitVec.ofNat 8 a) }

/-- An ASSOC_REQ with its serial and firmware version. -/
def associate (f : TrievoFrame) (s : State) : State :=
  if f.payload.length < 6 ∨ f.src ≠ 0xFE then s
  else
    let serial := field f.payload 0 4
    match entryFor s serial with
    | some e => modTri (fun t => assocResponse serial (e + 1) { t with peers := placePeer (newPeer s e serial f) t.peers }) s
    | none => modTri (fun t => assocResponse serial 0 { t with refused := t.refused + 1 }) s

/-- Pairs of address and SNR. -/
def statusPairs : List Byte → List (U8 × U8)
  | a :: b :: l => (a, b) :: statusPairs l
  | _ => []

/-- A STATUS: the beacon SNR and what the peer hears. -/
def takeStatus (f : TrievoFrame) (s : State) : State :=
  match innerPayload f with
  | b :: l => modTri (fun t => t.modPeer (originOf f) fun p => { p with beaconSnr := b, hears := (statusPairs l).take 31 }) s
  | [] => s

/-- A frame received acts by the TYPE it carries, whichever row brings it (log 6). -/
def triReceived (f : TrievoFrame) (s : State) : State :=
  match f.ftype.toNat with
  | 1 => receiveTri f (deliverData (originOf f) (innerPayload f)) s
  | 2 => ackEffect f s
  | 3 => receiveTri f (associate f) s
  | 6 => receiveTri f (takeStatus f) s
  | _ => receiveTri f id s

/-- TRIEVO_ACK_RECEIVED. -/
def execTrievoAckReceived (f : TrievoFrame) (s : State) : Host.Outcome State Fault Refusal := .next (triReceived f s)

/-- TRIEVO_DATA_RECEIVED. -/
def execTrievoDataReceived (f : TrievoFrame) (s : State) : Host.Outcome State Fault Refusal := .next (triReceived f s)

/-- TRIEVO_ASSOC_REQ_RECEIVED. -/
def execTrievoAssocReqReceived (f : TrievoFrame) (s : State) : Host.Outcome State Fault Refusal := .next (triReceived f s)

/-- TRIEVO_STATUS_RECEIVED. -/
def execTrievoStatusReceived (f : TrievoFrame) (s : State) : Host.Outcome State Fault Refusal := .next (triReceived f s)

/-! ## Phase learning (R350) -/

/-- The best of the three reports, the lower phase among equals. -/
def bestPhase (acks : List (Option U8)) : Option (Nat × U8) :=
  acks.zipIdx.foldl (fun (b : Option (Nat × U8)) (e : Option U8 × Nat) =>
    match e.1, b with
    | some v, some (_, w) => if w.toNat < v.toNat then some (e.2 + 1, v) else b
    | some v, none => some (e.2 + 1, v)
    | none, _ => b) none

/-- What the PROBEs on A, B and C tell of a peer. -/
def learnPhase (s : State) (acks : List (Option U8)) (p : Peer) : Peer :=
  match bestPhase acks with
  | some (k, v) => reach s (takeSnr s v { p with phase := BitVec.ofNat 8 k, learn := false })
  | none => { p with phase := 0, learn := false }

/-- Learning of a peer for which it is due. -/
def phaseEffect (a : U8) (acks : List (Option U8)) (s : State) : State :=
  if !(triOn s) || !(threePhase s) || !((s.tri.peer a).any (·.learn)) then s
  else modTri (fun t => { t.modPeer a (learnPhase s acks) with sent := t.sent + 3, seq := t.seq + 3 }) s

/-- PHASE_LEARNING: the report of each PROBE, on A, B and C; a report not given did not arrive. -/
def execPhaseLearning (addr : U8) (acks : List (Option U8)) (s : State) : Host.Outcome State Fault Refusal :=
  .next (phaseEffect addr (acks.take 3) s)

/-! ## Repeaters and the beacon (R351, R355) -/

/-- Peer p may serve as repeater for an address: its report of that address. -/
def candidateSnr (s : State) (a : U8) (r : Peer) : Option Nat :=
  let hears := (r.hears.find? fun e => e.1 == a).map (·.2.toNat)
  if (r.st = 0 ∨ r.st = 2) ∧ !(poorly s r) ∧ (relayEntryOf s r.addr).mayRepeat ∧ triN s 6 ≤ r.snrDl.toNat ∧ triN s 6 ≤ r.snrUl.toNat ∧ r.addr ≠ a then
    match hears with
    | some h => if triN s 7 ≤ h then some (min r.snrDl.toNat h) else none
    | none => none
  else none

/-- The best candidate for an address, the lower address among equals. -/
def bestRepeater (s : State) (t : Trievo) (a : U8) : Option Peer :=
  (t.peers.foldl (fun (b : Option (Peer × Nat)) r =>
    match candidateSnr s a r, b with
    | some v, some (_, w) => if w < v then some (r, v) else b
    | some v, none => some (r, v)
    | none, _ => b) none).map (·.1)

/-- Repeaters. -/
def repeaters (t : Trievo) : List Peer := t.peers.filter fun p => p.st == 2

/-- Peer a is relayed by r. -/
def relayBy (r : U8) (p : Peer) : Peer := { p with st := 1, repeater := r, returnRun := 0 }

/-- One poorly reached peer: assigned to the best candidate, promoting it where this superframe has promoted none yet. -/
def assignPoor (s : State) (st : Trievo × Bool) (a : U8) : Trievo × Bool :=
  let t := st.1
  match bestRepeater s t a with
  | some r =>
    if r.st = 2 then (t.modPeer a (relayBy r.addr), st.2)
    else if !st.2 && decide ((repeaters t).length < triN s 9) && decide (20 * ((repeaters t).length + 1) ≤ 84) then
      (((t.modPeer r.addr fun p => { p with st := 2, idleRun := 0 }).modPeer a (relayBy r.addr)) |> fun t => { t with promotions := t.promotions + 1 }, true)
    else st
  | none => st

/-- Assignment of the poorly reached peers, native mode only. -/
def assignAll (s : State) (t : Trievo) : Trievo :=
  (((t.peers.filter fun p => p.st == 3).map (·.addr)).foldl (assignPoor s) (t, false)).1

/-- A repeater serves a peer. -/
def servesPeer (t : Trievo) (r : U8) : Bool := t.peers.any fun p => p.st == 1 && p.repeater == r

/-- One demotion: a repeater idle too long or poorly reached; its peers are reached directly again. -/
def demoteOne (s : State) (t : Trievo) : Trievo :=
  match t.peers.find? fun p => p.st == 2 && (decide (triN s 0xB ≤ p.idleRun) || poorly s p) with
  | some r =>
    { t with demotions := t.demotions + 1
             peers := t.peers.map fun p =>
               if p.addr = r.addr then reach s { p with st := 0, idleRun := 0 }
               else if p.st = 1 ∧ p.repeater = r.addr then reach s { p with st := 0, repeater := 0 }
               else p }
  | none => t

/-- Relayed peers whose beacon SNR has been high enough for long enough are reached directly. -/
def returnRun (s : State) (p : Peer) : Peer :=
  if p.st ≠ 1 then p
  else
    let n := if triN s 7 + 12 ≤ p.beaconSnr.toNat then p.returnRun + 1 else 0
    if triN s 0xB ≤ n then { p with st := 0, repeater := 0, returnRun := 0 } else { p with returnRun := n }

/-- Superframes a repeater has served no peer. -/
def idleRun (t : Trievo) (p : Peer) : Peer := if p.st = 2 then { p with idleRun := if servesPeer t p.addr then 0 else p.idleRun + 1 } else p

/-- The repeater changes of a superframe. -/
def repeaterChanges (s : State) (t : Trievo) : Trievo :=
  let t := { t with peers := t.peers.map fun p => idleRun t (returnRun s p) }
  assignAll s (demoteOne s t)

/-- A request placed where it ends before slot 104 and fewer than 12 are placed. -/
def placeAlloc (l : List (U8 × Nat × Nat × Bool)) (r : U8 × Nat × Bool) : List (U8 × Nat × Nat × Bool) :=
  let e := match l.getLast? with
    | some a => a.2.1 + a.2.2.1
    | none => 20
  if r.2.1 = 0 ∨ 104 < e + r.2.1 ∨ 12 ≤ l.length then l else l ++ [(r.1, e, r.2.1, r.2.2)]

/-- The allocations: repeat beacons, the coordinator's own, the peers' in table order. -/
def allocate (s : State) (t : Trievo) : List (U8 × Nat × Nat × Bool) :=
  let reqs := (repeaters t).map (fun p => (p.addr, 20, true)) ++ [(0, triN s 8, false)]
    ++ t.peers.map fun p => (p.addr, (relayEntryOf s p.addr).slots, false)
  reqs.foldl placeAlloc []

/-- End of the last allocation. -/
def cpStartOf (l : List (U8 × Nat × Nat × Bool)) : Nat :=
  match l.getLast? with
  | some a => a.2.1 + a.2.2.1
  | none => 20

/-- Beacon payload (Table 17.4). -/
def beaconPayload (s : State) (t : Trievo) : List Byte :=
  padTo 44 ([1] ++ leBytes 1 (triN s 4) ++ leBytes 2 t.sfn.toNat ++ leBytes 1 t.allocs.length ++ leBytes 1 t.cpStart ++ [0, 0]
    ++ t.allocs.flatMap fun a => [a.1] ++ leBytes 1 a.2.1 ++ leBytes 1 (a.2.2.1 + if a.2.2.2 then 128 else 0))

/-- A superframe begins: repeater changes, allocations, the beacon on every coupler. -/
def beacon (s : State) (t : Trievo) : Trievo :=
  let t := repeaterChanges s { t with sfn := t.sfn + 1 }
  let t := { t with allocs := allocate s t }
  let t := { t with cpStart := cpStartOf t.allocs }
  let t := sendFrame s 0 0xFF (beaconPayload s t) 0 false t.seq false (if threePhase s then 0 else 1) t
  { t with seq := t.seq + 1 }

/-- BEACON_SEND: native mode only. -/
def execBeaconSend (s : State) : Host.Outcome State Fault Refusal :=
  .next (if triOn s && triNative s then modTri (beacon s) s else s)

/-! ## Lost peers and the host mailbox (R356, R361) -/

/-- A peer not heard from is disassociated; its peers are reached directly, its queued frames go. -/
def losePeer (s : State) (a : U8) (t : Trievo) : Trievo :=
  let mail := (t.txq.any fun u => u.dst == a && u.mailbox) || t.waiting.any fun u => u.dst == a && u.mailbox
  { t with peers := (t.peers.filter fun p => p.addr != a).map fun p =>
             if p.st = 1 ∧ p.repeater = a then reach s { p with st := 0, repeater := 0 } else p
           txq := t.txq.filter fun u => u.dst != a
           waiting := t.waiting.filter fun u => u.dst != a
           txResult := if mail then 4 else t.txResult }

/-- Disassociation leaves an event. -/
def peerLostEffect (a : U8) (s : State) : State :=
  if (s.tri.peer a).isNone then s else evt (eventReq .peerState (a.toNat - 1) [a.toNat]) (modTri (losePeer s a) s)

/-- PEER_LOST. -/
def execPeerLost (addr : U8) (s : State) : Host.Outcome State Fault Refusal := .next (peerLostEffect addr s)

/-- A host frame is queued, or its result says why not. -/
def mailOut (s : State) (data : List Byte) (t : Trievo) : Trievo :=
  let d := data.getD 0 0
  if !(triOn s) ∨ (t.peer d).isNone then { t with txResult := 4 }
  else if queueDepth 89 ≤ t.txq.length then { t with txResult := 5 }
  else queueTri { ftype := 1, dst := d, payload := data.drop 1, ackReq := true, prio := 2, k := 0, mailbox := true, seq := none, via := d }
    { t with txResult := 1 }

/-- A write of object 3920:01: its length, then its PORT. -/
def mailboxTransmitEffect (data : List Byte) (s : State) : State :=
  let port := (data.getD 1 0).toNat
  if (activeLane s).isSome && writable s && (decide (data.length < 2) || decide (63 < data.length)) then respond 0x06070010 [] s
  else hostRange (writable s) (decide (0x10 ≤ port ∧ port ≤ 0x1F)) (fun s => modTri (mailOut s data) s) s

/-- MAILBOX_TRANSMIT. -/
def execMailboxTransmit (data : List Byte) (s : State) : Host.Outcome State Fault Refusal := .next (mailboxTransmitEffect data s)

/-- A read of object 3920:03 returns the oldest frame and removes it. -/
def mailboxReadEffect (s : State) : State :=
  if (activeLane s).isNone then s
  else
    match s.tri.mailbox with
    | (a, p, d) :: l => respond 0 (a :: p :: d) (modTri (fun t => { t with mailbox := l, mailRead := a :: p :: d }) s)
    | [] => respond 0 [] (modTri (fun t => { t with mailRead := [] }) s)

/-- MAILBOX_RECEIVE_READ. -/
def execMailboxReceiveRead (s : State) : Host.Outcome State Fault Refusal := .next (mailboxReadEffect s)

end Sys2Proof.Machine
end

