-- ==== Sys2Proof/Machine/Update.lean ====
section
/-! DEFINITION. The service port (R399) and firmware activation (R403-R407). -/

namespace Sys2Proof.Machine

/-! ## The service port (R65, R399) -/

/-- VBUS_ATTACH. -/
def execVbusAttach (s : State) : Host.Outcome State Fault Refusal := .next (modUpd (fun u => { u with attached := true }) s)

/-- VBUS_DETACH. -/
def execVbusDetach (s : State) : Host.Outcome State Fault Refusal := .next (modUpd (fun u => { u with attached := false }) s)

/-- The lane in boot-ROM recovery that the port is connected to while no lane is ACTIVE, Lane A first. -/
def recoveryLane (s : State) : Option Lane :=
  if (activeLane s).isSome then none
  else if s.laneA.ctl.recovery then some .a
  else if s.laneB.ctl.recovery then some .b
  else none

/-- The port takes commands. -/
def portServes (s : State) : Bool :=
  s.upd.attached && ((s.modes.mode != .boot && s.modes.mode != .backup && (activeLane s).isSome) || (recoveryLane s).isSome)

/-- An activation sequence names buffer k. -/
def bufferNamed (s : State) (k : Nat) : Bool := seqRunning s && s.upd.seqSource == some k

/-- The 16 bytes that answer a command: OP, STATUS, NEXT. -/
def servicePacket (op st next : Nat) : List Byte := [BitVec.ofNat 8 op, BitVec.ofNat 8 st, 0, 0] ++ leBytes 4 next ++ List.replicate 8 0

/-- A command answered with STATUS and NEXT. -/
def serviceAnswer (op st next : Nat) (s : State) : State := modUpd (fun u => { u with answer := some (servicePacket op st next) }) s

/-- A command of code op on its buffer: its first failing status, else effect f. -/
def serviceRun (op : Nat) (c : ServiceCmd) (status : Staging → Nat) (f : Staging → Staging) (s : State) : State :=
  if !(portServes s) then s
  else
    let k := c.buffer.val
    let b := s.upd.buf k
    match status b with
    | 0 =>
      let s := modUpd (Update.modBuf k f) s
      serviceAnswer op 0 (s.upd.buf k).next s
    | st => serviceAnswer op st b.next s

/-- Status of OPEN. -/
def openStatus (s : State) (c : ServiceCmd) (b : Staging) : Nat :=
  if b.receiving || bufferNamed s c.buffer then 1
  else if c.length.toNat < 256 ∨ 67108864 < c.length.toNat then 2
  else if !c.nandOk then 5
  else 0

/-- SERVICE_OPEN: the buffer is erased and receives an image of a length. -/
def execServiceOpen (c : ServiceCmd) (s : State) : Host.Outcome State Fault Refusal :=
  .next (serviceRun 1 c (openStatus s c) (fun _ => { (default : Staging) with receiving := true, length := c.length.toNat }) s)

/-- Status of DATA. -/
def dataStatus (s : State) (c : ServiceCmd) (b : Staging) : Nat :=
  let n := c.length.toNat
  if bufferNamed s c.buffer then 1
  else if n < 1 ∨ 65536 < n ∨ c.data.length ≠ n ∨ (b.receiving ∧ b.length < c.offset.toNat + n) then 2
  else if crc32 c.data ≠ c.crc then 3
  else if !b.receiving ∨ c.offset.toNat ≠ b.next then 4
  else if !c.nandOk then 5
  else 0

/-- SERVICE_DATA: the bytes stand at their offset. -/
def execServiceData (c : ServiceCmd) (s : State) : Host.Outcome State Fault Refusal :=
  .next (serviceRun 2 c (dataStatus s c) (fun b => { b with image := b.image ++ c.data, next := b.next + c.data.length }) s)

/-- Status of CLOSE: length, then the CRC over the whole image. -/
def closeStatus (s : State) (c : ServiceCmd) (b : Staging) : Nat :=
  if bufferNamed s c.buffer then 1
  else if !b.receiving ∨ b.next ≠ b.length then 2
  else if crc32 b.image ≠ c.crc then 3
  else if !c.nandOk then 5
  else 0

/-- A buffer whose image is whole. -/
def closeBuffer (b : Staging) : Staging := { b with receiving := false, received := true, version := BitVec.ofNat 32 (field b.image 8 4) }

/-- Boot-ROM recovery takes a received image of buffer 0: checked, copied into slot 0, made current, and the lane restarted (Table 20.7). -/
def recoverFrom (s : State) : State :=
  match recoveryLane s with
  | some l =>
    let b := s.upd.buf 0
    if !b.received then s
    else
      match imageCheck s true b with
      | 0 =>
        let v := slotOfImage b.image
        let s := modNand (storeSlot l false b.image) s
        let s := s.modLane l fun x => { x with slots := { (x.slots.modSlot false fun _ => v) with current := false } }
        setRole l .booting (resetLane l s)
      | code => rejectImage l 0 code s
  | none => s

/-- SERVICE_CLOSE. -/
def execServiceClose (c : ServiceCmd) (s : State) : Host.Outcome State Fault Refusal :=
  .next (recoverFrom (serviceRun 3 c (closeStatus s c) closeBuffer s))

/-- SERVICE_STATUS. -/
def execServiceStatus (c : ServiceCmd) (s : State) : Host.Outcome State Fault Refusal :=
  .next (serviceRun 4 c (fun _ => 0) id s)

/-- SERVICE_ERASE: refused on a buffer a sequence names. -/
def execServiceErase (c : ServiceCmd) (s : State) : Host.Outcome State Fault Refusal :=
  .next (serviceRun 5 c (fun _ => if bufferNamed s c.buffer then 1 else if !c.nandOk then 5 else 0) (fun _ => default) s)

/-! ## Starting a sequence (R403) -/

/-- The lanes that serve. -/
def servingLanes (s : State) : List Lane := [Lane.a, Lane.b].filter (inService s)

/-- The inactive slot of lane x. -/
def inactiveSlot (x : LaneState) : FwSlot := x.slots.slot (!x.slots.current)

/-- The source of object 2510:01 is received, or present and not activated in each lane. -/
def sourceReady (s : State) : Bool :=
  let k := s.upd.source.toNat
  if k = 2 then (servingLanes s).all fun l => (inactiveSlot (s.lane l)).present && !(inactiveSlot (s.lane l)).activated
  else (s.upd.buf k).received

/-- SCHEMA of the source. -/
def sourceSchema (s : State) : U16 :=
  let k := s.upd.source.toNat
  if k = 2 then (inactiveSlot s.act).schema else BitVec.ofNat 16 (field (s.upd.buf k).image 12 2)

/-- Digest of the source of a sequence, where a buffer holds it. -/
def sourceDigest (s : State) : Option (List Byte) :=
  match s.upd.seqSource with
  | some k => if k < 2 then some (slice (s.upd.buf k).image 24 48) else none
  | none => none

/-- Result code of a rolling activation. -/
def rollingStatus (s : State) : Nat :=
  if s.modes.mode ≠ .run then 1
  else
    match standbyLane s with
    | none => 2
    | some l =>
      if (s.jct.lane l).matches_.toNat < 1000 then 2
      else if sourceReady s ∧ sourceSchema s ≠ laneSchema s ((activeLane s).getD .a) then 3
      else if !(sourceReady s) then 4
      else if s.sets.st = .swapPending ∨ seqRunning s then 5
      else 0

/-- A command on object 2510:02: its result code, and the sequence where it is accepted. -/
def activation (st : Nat) (f : State → State) (s : State) : State :=
  let s := modUpd (fun u => { u with result := BitVec.ofNat 8 st }) s
  if st = 0 then f s else s

/-- A rolling sequence waits for the share-cycle boundary with the standby lane as its first. -/
def startRolling (s : State) : State :=
  modUpd (fun u => { u with st := .firstLane, seqSource := some u.source.toNat, seqLane := standbyLane s, seqReq := true, hostConfirm := false }) s

/-- ACTIVATION_ROLLING. -/
def execActivationRolling (s : State) : Host.Outcome State Fault Refusal :=
  .next (hostWrite (safeWritable s) (fun s => activation (rollingStatus s) startRolling s) s)

/-- Modes a full restart is accepted in. -/
def restartMode (s : State) : Bool := powerMode s || s.modes.mode == .idle || s.modes.mode == .service || s.modes.mode == .safe

/-- Result code of a full restart. -/
def restartStatus (s : State) : Nat :=
  if !(restartMode s) then 1 else if !(sourceReady s) then 4 else if s.sets.st = .swapPending ∨ seqRunning s then 5 else 0

/-- Sessions end with cause 4 and the grants ramp to zero where power flows (R406). -/
def startRestart (s : State) : State :=
  let s := modUpd (fun u => { u with st := .fullRestart, seqSource := some u.source.toNat, seqLane := none, seqReq := true, hostConfirm := false }) s
  if powerMode s then toIdle s else s

/-- ACTIVATION_FULL_RESTART. -/
def execActivationFullRestart (s : State) : Host.Outcome State Fault Refusal :=
  .next (hostWrite (safeWritable s) (fun s => activation (restartStatus s) startRestart s) s)

/-- The lanes with an unconfirmed image, the active one last, mark it failed (R407). -/
def abortLanes (s : State) : State :=
  let f := fun (s : State) (l : Lane) => if unconfirmed (s.lane l) then abortOn l s else s
  match activeLane s with
  | some l => f (f s l.other) l
  | none => f (f s .b) .a

/-- ACTIVATION_ABORT. -/
def execActivationAbort (s : State) : Host.Outcome State Fault Refusal :=
  .next (hostWrite (safeWritable s) (fun s => if seqRunning s then abortSeq (abortLanes s) else s) s)

/-! ## The steps of a sequence (R404, R406, R407) -/

/-- Lane l runs the image of the sequence, confirmed. -/
def laneUpdated (s : State) (l : Lane) : Bool :=
  let v := (s.lane l).slots.slot (s.lane l).slots.booted
  v.activated && v.confirmed && !v.failed &&
    match sourceDigest s with
    | some d => v.digest == d
    | none => true

/-- The lane of the running step is reset with ACTIVATE, at a share-cycle boundary. -/
def resetStep (l : Lane) (s : State) : State :=
  if atShare s ∧ roleOf s l = .standby then restartLane 13 l (modUpd (fun u => { u with seqReq := false, hostConfirm := false }) s) else s

/-- A lane of the sequence is back: STANDBY, confirmed, two lanes in RUN. -/
def stepDone (s : State) (l : Lane) : Bool := roleOf s l == .standby && s.modes.mode == .run && laneUpdated s l

/-- COMPLETE: the image's security level holds from now on, and its buffer is erased. -/
def completeSeq (s : State) : State :=
  let v := s.act.slots.slot s.act.slots.booted
  let s := modUpd (fun u => { u with st := .complete, minSecurity := v.security, seqLane := none, seqReq := false, hostConfirm := false }) s
  match s.upd.seqSource with
  | some k => modUpd (fun u => { (if k < 2 then u.modBuf k fun _ => default else u) with seqSource := none }) s
  | none => s

/-- The planned crossover to the updated lane is asked for again while none is under way. -/
def askCrossover (s : State) : State :=
  if s.jct.planReq || crossing s then s else modJct (fun j => { j with planReq := true, result := 1 }) s

/-- A rolling step. -/
def rollingStep (l : Lane) (s : State) : State :=
  match s.upd.st with
  | .firstLane =>
    if s.upd.seqReq then resetStep l s
    else if stepDone s l then askCrossover (modUpd (fun u => { u with st := .crossover }) s)
    else s
  | .crossover =>
    if activeLane s = some l ∧ !(crossing s) then
      if roleOf s l.other = .standby ∧ s.modes.mode = .run ∧ atShare s then
        resetStep l.other (modUpd (fun u => { u with st := .secondLane, seqLane := some l.other }) s)
      else s
    else if roleOf s l = .standby then askCrossover s
    else s
  | .secondLane => if stepDone s l then completeSeq s else s
  | _ => s

/-- A full restart: the device resets with ACTIVATE once no power flows; COMPLETE when every lane that has booted has confirmed. -/
def restartStep (s : State) : State :=
  if s.upd.seqReq then
    if powerMode s ∨ s.modes.pending.isSome then s else resetWith 13 (safeExit s)
  else if !(servingLanes s).isEmpty ∧ (servingLanes s).all (laneUpdated s) then completeSeq s
  else s

/-- The image lane x runs was marked failed. -/
def runsFailed (x : LaneState) : Bool := (x.slots.slot x.slots.booted).failed && x.slots.booted == x.slots.current

/-- After an abort: a lane other than the active one that runs a failed image restarts; a sole lane that does resets the device once it has
ramped. -/
def failedStep (s : State) : State :=
  match activeLane s with
  | some l =>
    let o := l.other
    if runsFailed (s.lane o) ∧ (roleOf s o = .standby ∨ roleOf s o = .shadowing) then restartLane 13 o s
    else if runsFailed (s.lane l) then
      if (standbyLane s).isSome then askCrossover s
      else if powerMode s ∨ s.modes.pending.isSome then s
      else resetWith 13 (safeExit s)
    else s
  | none => s

/-- The next step of what runs. -/
def sequenceAdvance (s : State) : State :=
  if s.upd.st = .fullRestart then restartStep s
  else
    match s.upd.seqLane with
    | some l => rollingStep l s
    | none => failedStep s

/-- ROLLING_SEQUENCE_ADVANCE. -/
def execRollingSequenceAdvance (s : State) : Host.Outcome State Fault Refusal := .next (sequenceAdvance s)

/-! ## Confirmation (R405, R407) -/

/-- HOST_CONFIRM: 1 in object 2510:07. -/
def execHostConfirm (v : U8) (s : State) : Host.Outcome State Fault Refusal :=
  .next (hostRange (safeWritable s) (v == 1) (modUpd fun u => { u with hostConfirm := true }) s)

/-- The conditions of a confirmation in lane l hold: in service on its activated image, and the host's word where it is required. -/
def confirmOk (s : State) (l : Lane) : Bool :=
  let d := (s.lane l).slots
  inService s l && unconfirmed (s.lane l) && d.booted == d.current && !(d.slot d.current).failed && (!(cfgB s 0x2510 6) || s.upd.hostConfirm)

/-- The lane's image is confirmed. -/
def confirmEffect (l : Lane) (s : State) : State :=
  if confirmOk s l then
    s.modLane l fun x => { x with slots := x.slots.modSlot x.slots.current fun v => { v with confirmed := true } }
  else s

/-- HEALTH_CONFIRM: the confirm delay of lane l is over without a verdict against it. -/
def execHealthConfirm (l : Lane) (s : State) : Host.Outcome State Fault Refusal := .next (confirmEffect l s)

/-- 600 s of run time without confirmation: the image failed. -/
def unconfirmedEffect (l : Lane) (s : State) : State :=
  if unconfirmed (s.lane l) then
    abortOn l (s.modLane l fun x => { x with slots := x.slots.modSlot x.slots.current fun v => { v with runTime := 600 } })
  else s

/-- UNCONFIRMED_TIMEOUT. -/
def execUnconfirmedTimeout (l : Lane) (s : State) : Host.Outcome State Fault Refusal := .next (unconfirmedEffect l s)

end Sys2Proof.Machine
end

