-- ==== Sys2Proof/Machine/ObjUnit.lean ====
section
/-! DEFINITION. What a read of a read-only object returns (R72), second part: metrology and billing, backup domain, vehicle links, site
bus and site time, Trievo, keystore, recorder, storage and update; then the value of any object. -/

namespace Sys2Proof.Machine

/-! ## Metrology (chapter 11) -/

/-- Object 4000 (R244); LINK_LOST is the active lane's. -/
def readMetro (s : State) (k : Nat) : Int :=
  let c := s.met.ctl
  subAt [(c.st.code : Int), metFlags s.met + flagBits [(10, s.act.grid.linkLost)], c.version.toNat, c.calCrc.toNat, c.cfgCrc.toNat,
    legalTicks c, c.milestone, c.sealOpenings.toNat, c.crcErrors.toNat, s.act.grid.named.toNat, logHeld s.met, c.deviation, c.halt.toNat] k

/-- Object 4010 (R244). -/
def readAc (s : State) (k : Nat) : Int :=
  let a := s.met.ac
  let r := s.met.bill.regs
  subAt [(a.wiring.toNat : Int), a.declared.toNat, a.fnom.toNat, a.vRatio.toNat, a.iRatio.toNat, a.rated.toNat, a.freq, nth a.volts 0,
    nth a.volts 1, nth a.volts 2, nth a.amps 0, nth a.amps 1, nth a.amps 2, nth a.amps 3, a.watts, a.vars, a.va, regOf r 0 0, regOf r 0 1] k

/-- Object 4011 (R244). -/
def readQuality (s : State) (k : Nat) : Int :=
  if k ≤ 5 then (nth s.met.ac.pq (k - 1)).toNat else (nth s.met.ac.pqCounts (k - 6)).toNat

/-- Object 4020+c (R244). -/
def readDc (s : State) (c k : Nat) : Int :=
  let d := nth s.met.dc c
  let r := s.met.bill.regs
  subAt [(d.serial.toNat : Int), d.lastLink.toNat, d.rated.toNat, d.starting.toNat, regOf r (c + 1) 0, regOf r (c + 1) 1, d.power,
    d.accepted.toNat, d.rejected.toNat, d.interpolated.toNat, d.gaps.toNat, d.estimate / 2 ^ 32] k

/-- Objects 4040+i: pulse outputs (R244). -/
def readPulseOut (s : State) (i k : Nat) : Int :=
  let p := nth s.met.pout i
  subAt [(p.source.toNat : Int), p.q.toNat, p.w.toNat, p.pulses.toNat, p.residue * 1000 / 2 ^ 32, p.pending] k

/-- Objects 4048+i: pulse inputs (R244). -/
def readPulseIn (s : State) (i k : Nat) : Int :=
  let p := nth s.met.pin i
  subAt [(p.use.toNat : Int), p.weight.toNat, p.debounce.toNat, p.pulses.toNat, p.diff] k

/-! ## Billing (chapter 12) -/

/-- Register r of block b in the published snapshot, 0 before one (R249). -/
def snapReg (s : State) (b r : Nat) : Nat :=
  match s.act.published.bind fun k => k.blocks.find? fun e => e.1 == b with
  | some e => (nth e.2 r).toNat
  | none => 0

/-- Object 4130 (R270). -/
def readBilling (s : State) (k : Nat) : Int :=
  match k with
  | 1 => (s.act.published.map fun p => p.number.toNat).getD 0
  | 2 => (s.act.published.map fun p => p.legal.toNat).getD 0
  | 4 => snapReg s 291 5
  | 5 => snapReg s 291 0
  | 6 => snapReg s 291 1
  | 7 => snapReg s 291 2
  | 8 => snapReg s 291 3
  | 9 => snapReg s 291 4
  | _ => snapReg s 291 9

/-- Object 4201 (R270). -/
def readCalendars (s : State) (k : Nat) : Int :=
  let b := s.met.bill
  let act := fun (c : Option Calendar) => (c.map fun c => calActivation c.image).getD 0
  let crc := fun (c : Option Calendar) => (c.map fun c => c.crc.toNat).getD 0
  subAt [(calOf b.active : Int), act b.active, calOf b.passive, act b.passive, b.calResult.toNat, crc b.active, crc b.passive] k

/-! ## Backup domain (chapter 14) -/

/-- Objects 2600, 2610, 2620-2624 and 2630 (R302). -/
def readBackup (s : State) (i k : Nat) : Int :=
  let b := s.bk
  match i with
  | 0x2600 => subAt [(b.rtc.toNat : Int), flagBits [(0, b.invalid), (1, b.vbkLow)], b.alarm.toNat] k
  | 0x2610 => subAt [(b.pfTime.toNat : Int), b.warnings.toNat] k
  | 0x2620 => flagBits (b.inputs.mapIdx fun n (t : TampIn) => (n, t.latched))
  | 0x2630 => (nth b.secCounts (k - 1)).toNat
  | _ => let t := nth b.inputs (i - 0x2621); subAt [0, 0, (t.first.toNat : Int), t.latest.toNat, t.count.toNat] k

/-! ## Vehicle links (chapter 15) -/

/-- Object 3740+n but its eMAID (R322). -/
def readSession (s : State) (n k : Nat) : Int :=
  let v := sess s n
  let x := v.values
  subAt [(v.st.code : Int), v.protocol.toNat, v.pilot.toNat, v.id.toNat, v.account.toNat, v.source.toNat, 0, x.maxCurrent.toNat,
    x.targetCurrent.toNat, x.targetVoltage.toNat, x.maxPower.toNat, v.hostAuth.toNat, v.isolation.toNat, v.cause.toNat, v.target.toNat,
    v.departure.toNat, v.count.toNat] k

/-! ## Site bus and site time (chapter 16) -/

/-- Code of a channel state (object 3820:01). -/
def ChanSt.code : ChanSt → Nat
  | .off => 0
  | .integrating => 1
  | .errorActive => 2
  | .errorPassive => 3
  | .busOff => 4
  | .latchedOff => 5
  | .sleep => 6
  | .listenOnly => 7

/-- Code of a schedule state (object 3820:0B). -/
def SchedSt.code : SchedSt → Nat
  | .eventTriggered => 0
  | .following => 1
  | .master => 2
  | .lost => 3

/-- Object 3820+c (R344). -/
def readChannel (s : State) (c k : Nat) : Int :=
  let h := chanOf s c
  subAt [(h.st.code : Int), min h.tec 255, min h.rec_ 255, h.received.toNat, h.sent.toNat, h.errors.toNat, h.dropped.toNat,
    h.windowDiscards.toNat, h.cancels.toNat, h.busOffs.toNat, h.sched.code, h.cycle, h.foreign.toNat, serviceFilters s c, h.duplicates.toNat,
    h.fedRefused.toNat, h.wakeCause.toNat] k

/-- Object 3800 (R344) but the grandmaster identity. -/
def readSite (s : State) (k : Nat) : Int :=
  match k with
  | 3 => s.site.source.toNat
  | 4 => (siteTime s).toNat
  | 8 => s.site.offset
  | _ => s.site.delay.toNat

/-- Monitor ring of channel c (object 3870+c). -/
def readMonitor (s : State) (c : Nat) : List Byte :=
  (chanOf s c).monitor.flatMap fun e =>
    leBytes 8 e.1.toNat ++ leBytes 4 (e.2.ident.toNat + if e.2.extended then 2 ^ 31 else 0)
      ++ leBytes 1 (flagBits [(0, e.2.fd), (1, e.2.brs), (2, e.2.esi)]) ++ leBytes 1 e.2.dlc.toNat ++ [0, 0] ++ padTo 64 e.2.data

/-! ## Trievo (chapter 17) -/

/-- Object 3901 (R361). -/
def readTrievo (s : State) (k : Nat) : Int :=
  let t := s.tri
  subAt [(t.sfn.toNat : Int), t.peers.length, (repeaters t).length, t.cpStart, t.sent.toNat, t.accepted.toNat, t.crcFails.toNat, t.retries.toNat,
    t.finals.toNat, t.refused.toNat, t.promotions.toNat, t.demotions.toNat] k

/-- Peer status (object 3911). -/
def readPeers (s : State) : List Byte :=
  s.tri.peers.flatMap fun p =>
    [p.addr, p.st, p.phase, p.modulation, p.snrDl, p.snrUl, p.repeater, 0] ++ leBytes 4 p.serial.toNat
      ++ leBytes 1 (p.hist.filter fun h => h.1).length ++ leBytes 1 (p.hist.filter fun h => h.2).length ++ leBytes 2 p.lastHeard.toNat

/-! ## Keystore (chapter 18) -/

/-- Object 2400 (R378). -/
def readKeystore (s : State) (k : Nat) : Int :=
  let y := s.act.ks
  subAt [(y.slots.length : Int), (y.slots.filter fun e => e.2.orphaned).length, y.retired.length, y.operations.toNat, y.tamperAborts.toNat,
    y.counter.toNat, (Config.directoryCrc y.slots).toNat, y.lastStatus.toNat] k

/-- Result of the last update message; a change waits for the standby lane only while there is one (object 2401:02). -/
def readKeyResult (s : State) : Int :=
  if s.life.result = 0xFF ∧ (standbyLane s).isNone then 0 else s.life.result.toNat

/-- Slot directory (object 2403). -/
def readDirectory (s : State) : List Byte :=
  s.act.ks.slots.flatMap fun e =>
    leBytes 4 e.2.path.toNat ++ [e.2.alg, e.2.usage, if e.2.orphaned then 1 else 0] ++ leBytes 1 (slotFlags e.2)

/-! ## Recorder, storage, update (chapters 19, 20) -/

/-- Object 2300 (R389). -/
def readRecorder (s : State) (k : Nat) : Int :=
  let c := s.recs
  let newest := fun (x : LaneState) => (x.recd.newest.map (·.toNat)).getD 0
  subAt [(newest s.laneA : Int), newest s.laneB, c.written.toNat, c.flushes.toNat, c.lost.toNat, c.saturated.toNat, c.dropped.toNat] k

/-- Object 2500 (R410). -/
def readNand (s : State) (k : Nat) : Int :=
  let n := s.nand
  subAt [(n.st.toNat : Int), n.good * Config.nandBlockBytes / 2 ^ 20, n.factoryBad.toNat, n.grown.toNat, n.corrected.toNat,
    n.scrubPos * 1000 / max 1 (programmedPages n), n.uncorrectable.toNat, n.moves.toNat] k

/-- Partition table (object 2502). -/
def readPartitions (s : State) : List Byte :=
  (List.range 8).flatMap fun p =>
    let b := partBlocks s.nand p
    [BitVec.ofNat 8 p, if p = 7 then 2 else 1, 0, 0] ++ leBytes 4 b ++ leBytes 4 (b - (partUsed p s.nand).length)

/-- Code of an update-sequence state (object 2510:03). -/
def SeqSt.code : SeqSt → Nat
  | .none => 0
  | .firstLane => 1
  | .crossover => 2
  | .secondLane => 3
  | .fullRestart => 4
  | .complete => 5
  | .aborted => 6

/-- Object 2510:03, 04, 08 (R410). -/
def readUpdate (s : State) (k : Nat) : Int :=
  match k with
  | 3 => s.upd.st.code
  | 4 => s.upd.result.toNat
  | _ => s.upd.minSecurity.toNat

/-- Objects 2511, 2512 of a lane (R410). -/
def readSlots (x : LaneState) (k : Nat) : Int :=
  let d := x.slots
  let v := d.slot d.current
  let version := fun (w : FwSlot) => if w.present then w.version.toNat else 0
  subAt [flagI d.current, version d.slot0, version d.slot1, v.runTime.toNat, flagI v.confirmed, d.detours.toNat] k

/-- State and rejection code of a staging buffer. -/
def bufferWord (b : Staging) : Nat := flagBits [(0, b.received), (1, b.copiedA), (2, b.copiedB)] + b.reject % 16 * 16

/-- Object 2513 (R410). -/
def readBuffers (s : State) (k : Nat) : Int :=
  subAt [(bufferWord s.upd.buf0 : Int), bufferWord s.upd.buf1, s.upd.buf0.version.toNat, s.upd.buf1.version.toNat] k

/-! ## The value of any object (R72) -/

/-- The number a read-only object, or one held with its unit, returns. -/
def objInt (s : State) (i k : Nat) : Int :=
  if i = 0x1001 then s.comm.errorReg.toNat
  else if i = 0x1FA0 then s.comm.dropped.toNat
  else if i = 0x2010 then readMode s k
  else if i = 0x2020 then readReset s k
  else if i = 0x2030 then readLife s k
  else if i = 0x2040 then readTemps s k
  else if i = 0x2100 then (if k = 6 then Config.junctionRom.toNat else if k = 7 then Config.verdictReelCrc.toNat else readJunction s k)
  else if i = 0x2110 then readLaneHealth s .a k
  else if i = 0x2111 then readLaneHealth s .b k
  else if i = 0x2180 then readSpares s k
  else if i = 0x2200 then
    (if k = 3 then s.sets.expected.toNat else if k = 9 then (laneSchema s ((activeLane s).getD .a)).toNat
     else if k = 0xD then s.sets.flags.toNat else readSets s k)
  else if i = 0x2300 then readRecorder s k
  else if i = 0x2400 then readKeystore s k
  else if i = 0x2401 then readKeyResult s
  else if i = 0x2500 then readNand s k
  else if i = 0x2510 then (if k = 1 then s.upd.source.toNat else readUpdate s k)
  else if i = 0x2511 then readSlots s.laneA k
  else if i = 0x2512 then readSlots s.laneB k
  else if i = 0x2513 then readBuffers s k
  else if 0x2600 ≤ i ∧ i ≤ 0x2630 then readBackup s i k
  else if 0x3000 ≤ i ∧ i ≤ 0x3017 then readBay s (i - 0x3000) k
  else if 0x3100 ≤ i ∧ i ≤ 0x315F then readModule s (i - 0x3100) k
  else if 0x3180 ≤ i ∧ i ≤ 0x3197 then readCabinet s (i - 0x3180) k
  else if 0x31A0 ≤ i ∧ i ≤ 0x31A7 then
    (if k = 0x14 then (nth s.act.share.strs (i - 0x31A0)).reported.toNat else readString s (i - 0x31A0) k)
  else if i = 0x3201 then readShare s k
  else if 0x3210 ≤ i ∧ i ≤ 0x3223 then readGrant s i (k - 1)
  else if i = 0x3231 then readFed s k
  else if i = 0x32C2 then (if k = 1 then s.act.share.polCode.toNat else s.act.share.polPos.toNat)
  else if i = 0x3301 then readWaypoint s k
  else if 0x3302 ≤ i ∧ i ≤ 0x3304 then readPlace s i k
  else if i = 0x3400 then readThermal s k
  else if 0x3460 ≤ i ∧ i ≤ 0x3477 then readChan (nth s.act.th.bays (i - 0x3460)) k
  else if 0x3480 ≤ i ∧ i ≤ 0x3487 then readChan (nth s.act.th.strs (i - 0x3480)) k
  else if i = 0x3490 then (nth s.act.th.mods (k - 1)).i2
  else if i = 0x3491 then (nth s.act.th.mods (k - 1)).theta
  else if 0x3500 ≤ i ∧ i ≤ 0x3506 then readLoops s i k
  else if 0x3510 ≤ i ∧ i ≤ 0x3519 then readTile s (i - 0x3510) k
  else if 0x3530 ≤ i ∧ i ≤ 0x3533 then readLoopWord s i k
  else if i = 0x3600 then readLinks s k
  else if 0x3650 ≤ i ∧ i ≤ 0x368F then readLink s (i - 0x3650) k
  else if i = 0x3700 then s.veh.ended.toNat
  else if 0x3740 ≤ i ∧ i ≤ 0x3757 then readSession s (i - 0x3740) k
  else if i = 0x3800 then readSite s k
  else if 0x3820 ≤ i ∧ i ≤ 0x3823 then readChannel s (i - 0x3820) k
  else if i = 0x3901 then readTrievo s k
  else if i = 0x3920 then (if k = 4 then (s.tri.mailbox.length : Int) else s.tri.txResult.toNat)
  else if i = 0x4000 then readMetro s k
  else if i = 0x4010 then readAc s k
  else if i = 0x4011 then readQuality s k
  else if 0x4020 ≤ i ∧ i ≤ 0x403F then readDc s (i - 0x4020) k
  else if 0x4040 ≤ i ∧ i ≤ 0x4043 then readPulseOut s (i - 0x4040) k
  else if 0x4048 ≤ i ∧ i ≤ 0x404B then readPulseIn s (i - 0x4048) k
  else if 0x4100 ≤ i ∧ i ≤ 0x4120 then snapReg s (i - 0x4100) (k - 1)
  else if i = 0x4121 then snapReg s 289 (k - 1)
  else if i = 0x4122 then snapReg s 290 (k - 1)
  else if i = 0x4130 then readBilling s k
  else if i = 0x4131 then s.met.bill.overwritten.toNat
  else if i = 0x4201 then readCalendars s k
  else snapReg s (i - 0x4300 + 33) (k - 1)

/-- The bytes of a string or DOMAIN object the device fills. -/
def objData (s : State) (i k : Nat) : List Byte :=
  if i = 0x2030 then s.life.identity
  else if i = 0x2310 then Config.catalogue
  else if i = 0x2402 then (if k = 4 then s.life.statement else s.life.csr)
  else if i = 0x2403 then readDirectory s
  else if i = 0x2410 then Config.deviceCertificate
  else if i = 0x2502 then readPartitions s
  else if 0x3460 ≤ i ∧ i ≤ 0x3477 then (let c := nth s.act.th.bays (i - 0x3460); if k = 4 then chanNodes c else chanSensors c)
  else if 0x3480 ≤ i ∧ i ≤ 0x3487 then (let c := nth s.act.th.strs (i - 0x3480); if k = 4 then chanNodes c else chanSensors c)
  else if i = 0x3505 then readBuffer s (k - 1)
  else if i = 0x3508 then readStepLog s
  else if 0x3740 ≤ i ∧ i ≤ 0x3757 then (sess s (i - 0x3740)).emaid
  else if i = 0x3800 then leBytes 8 s.site.gm.toNat
  else if 0x3870 ≤ i ∧ i ≤ 0x3873 then readMonitor s (i - 0x3870)
  else if i = 0x3911 then readPeers s
  else []

/-- Objects of right rw or const whose value is held with the unit that uses it. -/
def heldByUnit (i k : Nat) : Bool :=
  (i, k) ∈ [(0x2010, 1), (0x2020, 1), (0x2030, 2), (0x2040, 6), (0x2100, 6), (0x2100, 7), (0x2200, 3), (0x2200, 9), (0x2200, 0xD),
      (0x2310, 0), (0x2510, 1), (0x2600, 1), (0x2600, 3), (0x2620, 1)]
    || (decide (0x31A0 ≤ i ∧ i ≤ 0x31A7) && k == 0x14) || (decide (0x3740 ≤ i ∧ i ≤ 0x3757) && (k == 0xC || k == 0xD))

/-- The bytes of an object in the size of its type. -/
def unitBytes (s : State) (r : ObjRow) (i k : Nat) : List Byte :=
  match r.ty with
  | .vis _ | .oct _ | .dom _ => objData s i k
  | t => leBytesInt (t.size.getD 0) (objInt s i k)

/-- Default of the EMCY identifier word, which the node-ID gives (log entry 12). -/
def rwDefault (s : State) (i k : Nat) : Option (List Byte) :=
  if i = 0x1014 ∧ k = 0 then some (leBytes 4 (emcyId s)) else none

/-- What a read of object i:k, present in row r, returns (R72). -/
def objBytes (s : State) (r : ObjRow) (i k : Nat) : List Byte :=
  match r.right with
  | .rws | .rwl => cfgBytes s i k
  | .ro => unitBytes s r i k
  | .const => if heldByUnit i k then unitBytes s r i k else r.dfltBytes
  | .rw => if heldByUnit i k then unitBytes s r i k else (rwDefault s i k).getD (rwBytes s i k)
  | .wo => []

end Sys2Proof.Machine
end

