-- ==== Sys2Proof/Machine/Reels.lean ====
section
/-! DEFINITION. The swap checks of reels and port maps: the reel checks of Table 6.8 for tile reels (R128), policy reels (R167) and the
filter reel (R387), and the rules of output maps and relay cells (R119, R120, R188). -/

namespace Sys2Proof.Machine

/-! ## Tile instruction words (R130, R131) -/

/-- Opcode of a word. -/
def tileOp (w : U32) : Nat := w.toNat / 2 ^ 26

/-- Operand fields of a word. -/
def tileArgs (w : U32) : TileArgs :=
  { d := (w >>> 21).setWidth 5, a := (w >>> 16).setWidth 5, b := (w >>> 11).setWidth 5, imm := w.setWidth 11 }

/-- Which of D, A and B an opcode uses and the bits of IMM it uses; none where the opcode is undefined. -/
def tileForm : Nat → Option (Bool × Bool × Bool × Nat)
  | 0x00 => some (false, false, false, 0)
  | 0x01 => some (true, false, false, 0x7F)
  | 0x02 => some (true, false, false, 0xFF)
  | 0x03 => some (true, true, false, 0xF)
  | 0x04 => some (false, true, false, 0x3F)
  | 0x08 => some (true, true, true, 0)
  | 0x09 => some (true, true, true, 0)
  | 0x0A => some (true, true, true, 0)
  | 0x0B => some (true, true, true, 0)
  | 0x0C => some (true, true, true, 0x1F)
  | 0x0D => some (true, true, false, 0)
  | 0x10 => some (true, true, true, 0x3FF)
  | 0x11 => some (true, true, true, 0)
  | 0x12 => some (true, true, true, 0)
  | 0x13 => some (true, true, true, 3)
  | 0x14 => some (true, true, true, 7)
  | 0x15 => some (true, true, true, 0x1F)
  | 0x18 => some (true, true, false, 0x7F)
  | 0x19 => some (false, true, false, 0x1F)
  | 0x1A => some (false, true, true, 0x1F)
  | _ => none

/-- Check 5: opcode defined, unused fields 0, a defined CMP condition. -/
def tileCode5 (w : U32) : Bool :=
  let a := tileArgs w
  match tileForm (tileOp w) with
  | none => false
  | some (d, x, y, m) =>
    fieldsOk a d x y m
      && (tileOp w != 0x14 || (decide (argD a < 4) && decide (argImm a 2 0 ≤ 5)))
      && (tileOp w != 0x03 || argImm a 3 3 == 1 || argImm a 2 0 == 0)

/-- The word passes checks 5, 6 and the port ranges of 7. -/
def tileWordOk (w : U32) : Bool :=
  let a := tileArgs w
  match tileOp w with
  | 0x00 => tileNopOk a
  | 0x01 => tileLdpOk a
  | 0x02 => tileLdkOk a
  | 0x03 => tileMovOk a
  | 0x04 => tileStoOk a
  | 0x08 => tileAddOk a
  | 0x09 => tileAddOk a
  | 0x0A => tileMulOk a
  | 0x0B => tileMulOk a
  | 0x0C => tileClpOk a
  | 0x0D => tileRnmOk a
  | 0x10 => tileIntOk a
  | 0x11 => tileDrvOk a
  | 0x12 => tileFltOk a
  | 0x13 => tileSelOk a
  | 0x14 => tileCmpOk a
  | 0x15 => tileRmpOk a
  | 0x18 => tileTsiOk a
  | 0x19 => tileCapOk a
  | 0x1A => tileChkOk a
  | _ => false

/-- The command a word of a reel stands for on tile t of lane l: Table 6.11 by OP; none where the word fails its checks. -/
def tileCommand (l : Lane) (t : Fin 10) (w : U32) : Option Instr :=
  let a := tileArgs w
  if !(tileWordOk w) then none
  else
    match tileOp w with
    | 0x00 => some (.tileNop l t a)
    | 0x01 => some (.tileLdp l t a)
    | 0x02 => some (.tileLdk l t a)
    | 0x03 => some (.tileMov l t a)
    | 0x04 => some (.tileSto l t a)
    | 0x08 => some (.tileAdd l t a)
    | 0x09 => some (.tileSub l t a)
    | 0x0A => some (.tileMul l t a)
    | 0x0B => some (.tileMac l t a)
    | 0x0C => some (.tileClp l t a)
    | 0x0D => some (.tileRnm l t a)
    | 0x10 => some (.tileInt l t a)
    | 0x11 => some (.tileDrv l t a)
    | 0x12 => some (.tileFlt l t a)
    | 0x13 => some (.tileSel l t a)
    | 0x14 => some (.tileCmp l t a)
    | 0x15 => some (.tileRmp l t a)
    | 0x18 => some (.tileTsi l t a)
    | 0x19 => some (.tileCap l t a)
    | 0x1A => some (.tileChk l t a)
    | _ => none

/-- Check 6: register ids defined and of a permitted class. -/
def tileCode6 (w : U32) : Bool := if tileOp w = 0x01 then isStageDest (argD (tileArgs w)) else tileWordOk w

/-- Check 7: constant index and port ranges. -/
def tileCode7 (k : Nat) (w : U32) : Bool :=
  let a := tileArgs w
  if tileOp w = 0x01 then decide (argImm a 3 0 + argImm a 6 4 ≤ 15)
  else if tileOp w = 0x02 then decide (argImm a 7 0 < k)
  else true

/-- Persistent registers a word writes. -/
def tileWrites (w : U32) : List Nat :=
  let a := tileArgs w
  let op := tileOp w
  let d := if op = 0 ∨ op = 0x04 ∨ op = 0x14 ∨ op = 0x19 ∨ op = 0x1A then [] else [argD a]
  (d ++ if op = 0x11 then [argB a] else []).filter fun r => isPId r || isQId r

/-- Check 9: the voltage-loop reel writes only P4-P7 and Q2-Q3, the current-loop reel only P0-P3 and Q0-Q1 (R113). -/
def tileCode9 (voltage : Bool) (w : U32) : Bool :=
  (tileWrites w).all fun r => (if isPId r then decide (20 ≤ r) else decide (26 ≤ r)) == voltage

/-! ## Containers (R127, R128) -/

/-- The role of a reel in a bay's slot: voltage loop, or current loop after a voltage reel of the ICOUNT given. -/
inductive ReelRole where
  | plain
  | voltage
  | current (before : Nat)
  deriving DecidableEq, Repr, Inhabited

/-- DIALECT of a container. -/
def reelDialect (b : List Byte) : Nat := field b 0 1

/-- CRC over bytes 0-11 and the body. -/
def reelCrcOk (b : List Byte) : Bool := (crc32 (b.take 12 ++ b.drop 16)).toNat == field b 12 4

/-- LENGTH is ICOUNT + KCOUNT and the object has the size it names. -/
def reelSizeOk (b : List Byte) : Bool := field b 2 2 == reelI b + reelK b && b.length == 16 + 4 * field b 2 2

/-- First position whose word fails p. -/
def firstBad (p : U32 → Bool) (ws : List U32) : Option Nat := findPos (fun w => !(p w)) ws

/-- The code with the position of the first failing word. -/
def wordCheck (code : Nat) (p : U32 → Bool) (ws : List U32) : Option (Nat × Nat) := (firstBad p ws).map fun i => (code, i)

/-- A check of the header. -/
def headCheck (code : Nat) (ok : Bool) : Option (Nat × Nat) := if ok then none else some (code, 0xFFFF)

/-- Code 4 with the position R128 gives to two reels that are too long together. -/
def lengthCheck (r : ReelRole) (b : List Byte) : Option (Nat × Nat) :=
  if 640 < reelI b ∨ 256 < reelK b then some (4, 0xFFFF)
  else
    match r with
    | .current n => if 640 < n + reelI b then some (4, 640 - n) else none
    | _ => none

/-- Check 9 by the role. -/
def ownCheck (r : ReelRole) (ws : List U32) : Option (Nat × Nat) :=
  match r with
  | .plain => none
  | .voltage => wordCheck 9 (tileCode9 true) ws
  | .current _ => wordCheck 9 (tileCode9 false) ws

/-- The first check of Table 6.8 a tile reel fails, with its position; none where it passes. -/
def tileReelCheck (r : ReelRole) (b : List Byte) : Option (Nat × Nat) :=
  if b.length < 16 then some (3, 0xFFFF)
  else
    (headCheck 1 (reelCrcOk b)).or <|
    (headCheck 2 (reelDialect b == 1 && field b 1 1 == 1)).or <|
    (headCheck 3 (reelSizeOk b)).or <|
    ((wordCheck 3 (fun (w : U32) => w.toNat / 2 ^ 20 % 64 == 0) (reelConsts b)).map fun p => (p.1, p.2 + 0x8000)).or <|
    (lengthCheck r b).or <|
    (wordCheck 5 tileCode5 (reelIns b)).or <|
    (wordCheck 6 tileCode6 (reelIns b)).or <|
    (wordCheck 7 (tileCode7 (reelK b)) (reelIns b)).or <|
    (headCheck 8 (decide (0 < reelI b))).or <| ownCheck r (reelIns b)

/-- The first check a policy reel fails: codes 1, 2, 3, 5, 6 and the range of ICOUNT, which is code 4 (R167). -/
def policyReelCheck (b : List Byte) : Option (Nat × Nat) :=
  if b.length < 16 then some (3, 0xFFFF)
  else
    (headCheck 1 (reelCrcOk b)).or <|
    (headCheck 2 (reelDialect b == 2 && field b 1 1 == 1)).or <|
    (headCheck 3 (reelSizeOk b && reelK b == 0)).or <|
    (headCheck 4 (decide (1 ≤ reelI b ∧ reelI b ≤ 256))).or <| wordCheck 5 policyWordOk (reelIns b)

/-- A filter rule word: ACTION 3 is undefined, and SEV is 0 but for ACTION 2 (Table 19.4). -/
def filterWordOk (w : U32) : Bool :=
  let a := w.toNat / 2 ^ 30
  a != 3 && (a == 2 || w.toNat / 2 ^ 28 % 4 == 0)

/-- The first check a filter reel fails (R387). -/
def filterReelCheck (b : List Byte) : Option (Nat × Nat) :=
  if b.length < 16 then some (3, 0xFFFF)
  else
    (headCheck 1 (reelCrcOk b)).or <|
    (headCheck 2 (reelDialect b == 4 && field b 1 1 == 1)).or <|
    (headCheck 3 (reelSizeOk b && reelK b == 0)).or <|
    (headCheck 4 (decide (1 ≤ reelI b ∧ reelI b ≤ 64))).or <| wordCheck 5 filterWordOk (reelIns b)

/-! ## All reels of a set -/

/-- Loops in the order of the checks: bays, strings, modules, slow slots. The spec fixes the lowest-numbered bay alone; the rest of the
order is the model's (DESIGN CHOICE, log 54). -/
def checkOrder : List LoopId := placeOrder ++ (List.finRange 15).map .slow

/-- Reels a loop runs with their roles; 0 names none. -/
def rolesOf (v : State) : LoopId → List (Nat × ReelRole)
  | .bay n =>
    let a := bayN v n 0x13
    let c := bayN v n 0x12
    (if a = 0 then [] else [(a, .voltage)])
      ++ (if c = 0 then [] else [(c, .current (if a = 0 then 0 else reelI (reelBytes v a)))])
  | i => (loopReels v i).filterMap fun r => if r = 0 then none else some (r, .plain)

/-- The first reel of a used loop that fails: reel, code and position. -/
def badReel (v : State) : Option (Nat × Nat × Nat) :=
  checkOrder.findSome? fun i =>
    if loopUsed v i then
      (rolesOf v i).findSome? fun p => (tileReelCheck p.2 (reelBytes v p.1)).map fun c => (p.1, c.1, c.2)
    else none

/-- The first policy reel that fails. -/
def badPolicy (v : State) : Option (Nat × Nat × Nat) :=
  [0x32C0, 0x32C1].findSome? fun i =>
    let b := cfgBytes v i 0
    if b.isEmpty then none else (policyReelCheck b).map fun c => (i, c.1, c.2)

/-- The filter reel fails. -/
def badFilter (v : State) : Bool :=
  let b := cfgBytes v 0x2320 0
  !b.isEmpty && (filterReelCheck b).isSome

/-! ## Port maps (R115, R119, R120, R188) -/

/-- A code an input port accepts. -/
def inputCodeOk (c : U16) : Bool :=
  let n := c.toNat
  match n / 2 ^ 14 with
  | 0 => true
  | 1 => [0, 1, 2, 3, 8, 9, 0x10, 0x11, 0x12, 0x13, 0x14, 0x20, 0x21].contains (n / 256 % 64)
  | 2 => n / 256 % 64 == 0
  | _ => c == portNone

/-- A down-frame word a reel may write: cabinet words 1+2m, bay-head word 1, string words 1-3. -/
def setPointWord (v : State) (link w : Nat) : Bool :=
  match linkType v link with
  | 1 => w % 2 == 1 && decide (w / 2 < linkCount v link)
  | 2 => w == 1
  | 3 => decide (1 ≤ w ∧ w ≤ 3)
  | _ => false

/-- A code an output port accepts. -/
def outputCodeOk (v : State) (c : U16) : Bool :=
  let n := c.toNat
  match n / 2 ^ 14 with
  | 0 => setPointWord v (n / 256 % 64) (n % 256)
  | 2 => n / 256 % 64 == 0
  | _ => c == portNone

/-- Codes other than none that loop i's output ports name. -/
def outCodes (v : State) (i : LoopId) : List U16 := (outputMap v i).filter fun c => c != portNone

/-- Codes named by used loops other than i. -/
def otherOuts (v : State) (i : LoopId) : List U16 :=
  checkOrder.flatMap fun k => if k ≠ i ∧ loopUsed v k then outCodes v k else []

/-- Slot of a loop in the placement made for the set. -/
def slotIn (x : LaneState) (i : LoopId) : Option Nat := ((x.loop i).place).map (·.2)

/-- Slot in which relay cell c is produced. -/
def producerSlot (v : State) (x : LaneState) (c : U16) : Option Nat :=
  checkOrder.findSome? fun k => if loopUsed v k ∧ (outCodes v k).contains c then slotIn x k else none

/-- Slow slot j's input map reads no cell produced in slot j or higher. -/
def slowReadsOk (v : State) (x : LaneState) (j : Fin 15) : Bool :=
  ((inputMap v x (.slow j)).filter fun c => c.toNat / 2 ^ 14 == 2).all fun c =>
    match producerSlot v x c with
    | some k => decide (k < j.val)
    | none => true

/-- The port maps of loop i are allowed. -/
def mapsOk (v : State) (x : LaneState) (i : LoopId) : Bool :=
  (outputMap v i).all (outputCodeOk v) && (outCodes v i).all (fun c => !((otherOuts v i).contains c))
    && match i with
       | .slow j => (inputMap v x i).all inputCodeOk && slowReadsOk v x j
       | _ => true

/-- Object that names a loop in object 2200:07. -/
def loopObject : LoopId → Nat
  | .bay n => 0x3000 + n
  | .module j => 0x3100 + j
  | .string i => 0x31A0 + i
  | .slow j => 0x3520 + j

/-- The first used loop that cannot be placed or whose port maps are refused. -/
def badPlace (v : State) (x : LaneState) : Option Nat :=
  let y := placeAll v x
  checkOrder.findSome? fun i =>
    if loopUsed v i ∧ ((y.loop i).place.isNone ∨ !(mapsOk v y i)) then some (loopObject i) else none

end Sys2Proof.Machine
end

