-- ==== Sys2Proof/Machine/Sets.lean ====
section
/-! DEFINITION. The configuration sets at work (R80-R87): publication of live writes, commit, reopen, swap, reload, the swap checks,
the flip with everything it changes in the lanes, and the copy after it. -/

namespace Sys2Proof.Machine

/-- s with the sets changed. -/
def modSets (f : Sets → Sets) (s : State) : State := { s with sets := f s.sets }

/-! ## LIVE_WRITE_PUBLISH (R82, R86, R87) -/

/-- Bays whose entry one of the writes changes. -/
def baysWritten (ws : List (Nat × List Byte × Nat)) : List Nat :=
  (List.range 24).filter fun i => ws.any fun w => w.1 / 256 == 0x3000 + i

/-- Generations with those of the bays named raised by 1. -/
def bumpGens (bays : List Nat) (g : List U32) : List U32 := bays.foldl (fun g i => upd g i (· + 1)) g

/-- The caches of a lane re-read the entries whose generation moved (R87). -/
def refreshCache (s : State) (x : LaneState) : LaneState :=
  { x with ctl := (let c := x.ctl; { c with gens := s.sets.gens, staleBays := [] }) }

/-- Sessions of bays that are out of service end with cause 3 (Table 15.5). -/
def endUnavailable (s : State) : State :=
  (List.range 24).foldl (fun s i => if bayUsed s i ∧ bayN s i 0xC = 0 then endBaySession i 3 s else s) s

/-- The live writes due at this boundary come into force, the last acknowledged of one field winning. -/
def publishEffect (s : State) : State :=
  let due := s.sets.unpublished.filter fun w => decide (w.2.2 ≤ s.clk.period)
  if !(atShare s) || due.isEmpty then s
  else
    let s := modSets (fun k =>
      { k with
        unpublished := k.unpublished.filter fun w => decide (s.clk.period < w.2.2)
        published := due.foldl (fun (st : Store) w => st.set w.1 w.2.1 []) k.published
        nPublished := k.nPublished + BitVec.ofNat 32 due.length
        gens := bumpGens (baysWritten due) k.gens }) s
    endUnavailable (bothLanes (refreshCache s) s)

/-- LIVE_WRITE_PUBLISH. -/
def execLiveWritePublish (s : State) : Host.Outcome State Fault Refusal := .next (publishEffect s)

/-! ## Commands on object 2200:02 (R81, R83) -/

/-- s with the result of a command and the failing object. -/
def setResult (r : U8) (obj : Nat) (s : State) : State := modSets (fun k => { k with result := r, failing := BitVec.ofNat 32 obj }) s

/-- Commit is taken: the CRC is computed and the checks run, result 7 until they end. -/
def commitEffect (s : State) : State :=
  if s.sets.st = .opened then setResult 7 0 (modSets (fun k => { k with checking := true, computed := setCrc k.shadow }) s)
  else setResult 4 0 s

/-- SHADOW_COMMIT. -/
def execShadowCommit (s : State) : Host.Outcome State Fault Refusal := .next (hostWrite (writable s) commitEffect s)

/-- COMMIT_CHECKS_COMPLETE: COMMITTED, or OPEN with the failing code and object. -/
def commitDoneEffect (s : State) : State :=
  if !s.sets.checking ∨ s.sets.st ≠ .opened ∨ (activeLane s).isNone then s
  else
    let s := modSets (fun k => { k with checking := false }) s
    match commitFail s with
    | none => setResult 0 0 (modSets (fun k => { k with st := .committed, shadowOk := true }) s)
    | some (c, o) => setResult (BitVec.ofNat 8 c) o s

/-- COMMIT_CHECKS_COMPLETE. -/
def execCommitChecksComplete (s : State) : Host.Outcome State Fault Refusal := .next (commitDoneEffect s)

/-- Reopen returns a COMMITTED shadow to OPEN. -/
def reopenEffect (s : State) : State :=
  if s.sets.st = .committed then setResult 0 0 (modSets (fun k => { k with st := .opened, swapReq := false }) s) else setResult 4 0 s

/-- SHADOW_REOPEN. -/
def execShadowReopen (s : State) : Host.Outcome State Fault Refusal := .next (hostWrite (writable s) reopenEffect s)

/-- Swap waits for a share-cycle boundary; refused in another state and during an update sequence (Table 20.7). -/
def swapCommandEffect (s : State) : State :=
  if s.sets.st = .committed ∧ !(seqRunning s) then setResult 7 0 (modSets (fun k => { k with swapReq := true }) s) else setResult 4 0 s

/-- SHADOW_SWAP. -/
def execShadowSwap (s : State) : Host.Outcome State Fault Refusal := .next (hostWrite (writable s) swapCommandEffect s)

/-- Reload discards the shadow and starts the copy of the active set: its image, without the published live values (DESIGN CHOICE,
log 52). -/
def reloadEffect (s : State) : State :=
  if s.sets.st = .opened ∨ s.sets.st = .committed then
    setResult 0 0 (modSets (fun k => { k with st := .copying, shadow := k.active, checking := false, swapReq := false, shadowOk := false }) s)
  else setResult 4 0 s

/-- SHADOW_RELOAD. -/
def execShadowReload (s : State) : Host.Outcome State Fault Refusal := .next (hostWrite (writable s) reloadEffect s)

/-- The copy completes: OPEN, and the shadow holds the active set (R84). -/
def copyDoneEffect (s : State) : State :=
  if s.sets.st = .copying ∧ (activeLane s).isSome then
    modSets (fun k => { k with st := .opened, shadow := k.active, shadowOk := true }) s
  else s

/-- SET_COPY_COMPLETE. -/
def execSetCopyComplete (s : State) : Host.Outcome State Fault Refusal := .next (copyDoneEffect s)

/-- A write of 1 clears LIVECELL or SCHEMA (Table 4.10). -/
def execSetFlagsClear (mask : U8) (s : State) : Host.Outcome State Fault Refusal :=
  .next (hostWrite (safeWritable s) (modSets fun k => { k with flags := k.flags &&& ~~~ (mask &&& 0x0C) }) s)

/-! ## Swap checks (R83) -/

/-- Contents of the reels a loop runs. -/
def reelContent (s : State) (i : LoopId) : List (List Byte) := (loopReels s i).map (reelBytes s)

/-- The reel content of loop i differs between two views, where it is used in either. -/
def reelChanged (o n : State) (i : LoopId) : Bool := (loopUsed o i || loopUsed n i) && reelContent o i != reelContent n i

/-- Module j may serve bay i in a view. -/
def mayServe (v : State) (j i : Nat) : Bool :=
  match modCab v j with
  | some c => (cabN v c 3).testBit i
  | none => false

/-- The swap changes bay i: its rws fields, its reels, or a reel of a module that may serve it (R129). -/
def bayChanged (o n : State) (i : Fin 24) : Bool :=
  rwsDiffer o.sets.active n.sets.active (0x3000 + i) || reelChanged o n (.bay i)
    || (List.finRange 96).any fun j => reelChanged o n (.module j) && (mayServe o j i || mayServe n j i)

/-- Bay i has a session, or 5 A or more on a head that is UP. -/
def bayBusy (s : State) (i : Nat) : Bool :=
  baySession s i || (headUp s s.act i && !(below5 (some (headLast s s.act i 2))))

/-- The swap changes string i. -/
def strChanged (o n : State) (i : Fin 8) : Bool :=
  rwsDiffer o.sets.active n.sets.active (0x31A0 + i) || reelChanged o n (.string i)

/-- String i carries 5 A or more. -/
def strBusy (s : State) (i : Nat) : Bool := strUp s s.act i && !(below5 (some (strLast s s.act i 2)))

/-- The swap changes module j's own objects 3100+j:01-05 or its cabinet's (R413). -/
def modChanged (o n : State) (j : Nat) : Bool :=
  let cab := fun (v : State) => match modCab v j with
    | some c => rwsDiffer o.sets.active n.sets.active (0x3180 + c)
    | none => false
  ((List.range 5).any fun k => setBytes o.sets.active (0x3100 + j) (k + 1) != setBytes n.sets.active (0x3100 + j) (k + 1)) || cab o || cab n

/-- The swap changes an rws field of module j, its cabinet or its reel (R83, R129). -/
def modDiffers (o n : State) (j : Fin 96) : Bool :=
  modChanged o n j || rwsDiffer o.sets.active n.sets.active (0x3100 + j) || reelChanged o n (.module j)

/-- First bay, string or module in use that the swap changes. -/
def inUse (s n : State) : Option Nat :=
  let o := imageView s
  (((List.finRange 24).find? fun (i : Fin 24) => bayBusy s i && bayChanged o n i).map fun (i : Fin 24) => 0x3000 + i.val).or <|
  (((List.finRange 8).find? fun (i : Fin 8) => strBusy s i && strChanged o n i).map fun (i : Fin 8) => 0x31A0 + i.val).or <|
  ((List.finRange 96).find? fun (j : Fin 96) => (s.act.mod j).st == .moving && modDiffers o n j).map fun (j : Fin 96) => 0x3100 + j.val

/-- Modes in which a swap passes. -/
def swapMode (s : State) : Bool :=
  s.modes.mode == .commission || s.modes.mode == .idle || s.modes.mode == .run || s.modes.mode == .degraded || s.modes.mode == .service

/-- The outcomes of the swap checks in the order of R83: code, failing object's index, and the reel and policy check reports. -/
structure SwapCheck where
  code : Nat
  index : Nat
  reel : Nat × Nat × Nat
  policy : Nat × Nat
  deriving DecidableEq, Repr, Inhabited

/-- The swap checks. -/
def swapCheck (s : State) : SwapCheck :=
  let n := shadowView s
  let no := (0, 0, 0)
  if setCrc s.sets.shadow ≠ s.sets.computed then { code := 1, index := 0, reel := no, policy := (0, 0) }
  else
    match badReel n with
    | some r => { code := 5, index := r.1, reel := r, policy := (0, 0) }
    | none =>
      match badPolicy n with
      | some p => { code := 5, index := p.1, reel := no, policy := (p.2.1, p.2.2) }
      | none =>
        if badFilter n then { code := 5, index := 0x2320, reel := no, policy := (0, 0) }
        else
          match badPlace n s.act with
          | some i => { code := 5, index := i, reel := no, policy := (0, 0) }
          | none =>
            match inUse s n with
            | some i => { code := 9, index := i, reel := no, policy := (0, 0) }
            | none => { code := if swapMode s then 0 else 4, index := 0, reel := no, policy := (0, 0) }

/-- What the checks report in objects 3500:03, 04 and 32C2. -/
def reportChecks (c : SwapCheck) (s : State) : State :=
  if c.code = 1 then s
  else
    let s := modSets (fun k => { k with reelCode := BitVec.ofNat 8 c.reel.2.1
                                        reelPos := BitVec.ofNat 32 (c.reel.1 * 65536 + c.reel.2.2) }) s
    bothLanes (fun x => { x with share := (let h := x.share
                                           { h with polCode := BitVec.ofNat 8 c.policy.1, polPos := BitVec.ofNat 32 c.policy.2 }) }) s

/-- SWAP_TAKEN: the checks run at the boundary; the swap is refused or becomes SWAP_PENDING for period k + 40. -/
def swapTakenEffect (s : State) : State :=
  if !(s.sets.swapReq && s.sets.st == .committed && atShare s && (activeLane s).isSome) || crossing s || resyncing s then s
  else
    let c := swapCheck s
    let s := reportChecks c (modSets (fun k => { k with swapReq := false }) s)
    if c.code = 0 then
      modSets (fun k => { k with st := .swapPending, swapAt := some (s.clk.period + shareLen s), swapTries := 0 }) s
    else
      let s := setResult (BitVec.ofNat 8 c.code) (c.index * 256) s
      if c.code = 1 then modSets (fun k => { k with st := .opened }) s else s

/-- SWAP_TAKEN. -/
def execSwapTaken (s : State) : Host.Outcome State Fault Refusal := .next (swapTakenEffect s)

/-- Nothing to wait for: the standby lane is ready, there is none, or the mode is DEGRADED. -/
def swapReadyNow (s : State) : Bool :=
  s.modes.mode == .degraded ||
    match standbyLane s with
    | some l => (s.lane l).ctl.swapReady
    | none => true

/-- The boundary of a pending swap has come. -/
def swapReached (s : State) : Bool := s.sets.st == .swapPending && s.sets.swapAt.any (fun b => decide (b ≤ s.clk.period))

/-- A boundary that finds the standby lane not ready moves the swap to the next one; after 8 it is refused with code 6. -/
def missBoundary (s : State) : State :=
  if 8 ≤ s.sets.swapTries + 1 then setResult 6 0 (modSets (fun k => { k with st := .committed, swapAt := none, swapTries := 0 }) s)
  else modSets (fun k => { k with swapAt := k.swapAt.map (· + shareLen s), swapTries := k.swapTries + 1 }) s

/-- The standby lane is ready for the swap that is pending. -/
def markReady (s : State) : State :=
  match standbyLane s with
  | some l => if s.sets.st = .swapPending then s.modLane l fun x => { x with ctl := (let c := x.ctl; { c with swapReady := true }) } else s
  | none => s

/-- SWAP_READY_REPORT: one that comes after the boundary has missed it, and counts for the next. -/
def swapReadyEffect (s : State) : State := markReady (if swapReached s && !(swapReadyNow s) then missBoundary s else s)

/-- SWAP_READY_REPORT. -/
def execSwapReadyReport (s : State) : Host.Outcome State Fault Refusal := .next (swapReadyEffect s)

/-! ## The flip in a lane -/

/-- A link whose type or count changed restarts in DOWN; a latched link is released; every other keeps its state (R412). -/
def flipLink (o n : State) (i : Nat) (x : LaneState) : LaneState :=
  let k := x.link i
  if linkType o i ≠ linkType n i ∨ linkCount o i ≠ linkCount n i then
    let x := x.modLink i fun k =>
      { k with synced := false, latched := false, acqCount := 0, acqSeen := false, acqDone := false, hold := none, seqRun := 0,
               badRun := 0, delayRun := 0, failedFor := 0, reacting := false, reactDue := false }
    if k.st = .down then x else linkTo i .down x
  else if k.latched then
    let x := x.modLink i fun k => { k with latched := false, failTimes := [] }
    if k.synced then toAcquire i false x else linkTo i .down x
  else x

/-- The state blocks follow their loops into the new places, cleared where the reel content changed (R129, R188). -/
def flipBlocks (o n : State) (old x : LaneState) : LaneState :=
  let x := { x with tiles := x.tiles.map fun (y : Tile) => { y with blocks := List.replicate 16 StateBlock.zero } }
  allLoops.foldl (fun (x : LaneState) i =>
    match (x.loop i).place with
    | some (t, k) =>
      if reelChanged o n i ∨ (old.loop i).place.isNone then x
      else x.modTile t fun y => { y with blocks := put y.blocks k (blockOf old i) }
    | none => x) x

/-- The object that configures a loop's bay, module or string changed. -/
def loopObjChanged (o n : State) : LoopId → Bool
  | .bay i => rwsDiffer o.sets.active n.sets.active (0x3000 + i)
  | .module j => modChanged o n j || rwsDiffer o.sets.active n.sets.active (0x3100 + j)
  | .string i => rwsDiffer o.sets.active n.sets.active (0x31A0 + i)
  | .slow j => rwsDiffer o.sets.active n.sets.active (0x3520 + j)

/-- A loop at the flip: out of use OFF; out of FAULT where its reel or configuration changed; a module taken afresh OFF; restarted
where its reel changed in any state but OFF and FAULT (R129, R137, R146, R413). -/
def flipLoop (o n : State) (i : LoopId) (x : LaneState) : LaneState :=
  let p := x.loop i
  let reel := reelChanged o n i
  let slow := isSlowLoop i
  let x := if inputMap o x i != inputMap n x i then x.modLoop i fun p => { p with kept := List.replicate 16 0 } else x
  if !(loopUsed n i) then
    if slow ∧ loopUsed o i then x.modLoop i (Loop.toStop true)
    else if p.st = .off then x else leaveFault i x
  else if p.st = .fault then (if reel ∨ loopObjChanged o n i then leaveFault i x else x)
  else
    match i with
    | .module j => if modChanged o n j then loopOff i x else if reel ∧ p.st ≠ .off then restartLoop i x else x
    | .slow _ => if reel ∧ (p.st ≠ .off ∨ enableMode n i) then restartLoop i x else x
    | _ => if reel ∧ p.st ≠ .off then restartLoop i x else x

/-- A module whose own or cabinet's objects changed is taken afresh; the others keep their states (R413). -/
def flipModule (o n : State) (j : Nat) (m : Module) : Module :=
  if !(modChanged o n j) then m
  else
    { (default : Module) with
      st := if (modCab n j).isSome then .withdrawn else .notConfigured, moves := m.moves, afresh := (modCab n j).isSome }

/-- The channel of bay i must initialise: profile, sensor map or configured sensors changed (R196). -/
def bayInit (o n : State) (i : Nat) : Bool :=
  bayN o i 0x15 != bayN n i 0x15 || rwsDiffer o.sets.active n.sets.active (bayN n i 0x15)
    || setBytes o.sets.active (0x3000 + i) 0x1A != setBytes n.sets.active (0x3000 + i) 0x1A
    || bayLink o i != bayLink n i
    || match bayLink n i with
       | some k => linkCount o k != linkCount n k
       | none => false

/-- Sensor k of bay i has another mapping. -/
def sensorMoved (o n : State) (i k : Nat) : Bool :=
  bayLink o i != bayLink n i
    || (setBytes o.sets.active (0x3000 + i) 0x1A).getD k 0 != (setBytes n.sets.active (0x3000 + i) 0x1A).getD k 0

/-- A sensor whose mapping changed is released (R205). -/
def flipSensor (o n : State) (i k : Nat) (y : Sensor) : Sensor := if sensorMoved o n i k then y.release else y

/-- The thermal channel of bay i at the flip. -/
def flipBayChan (o n : State) (i : Nat) (c : ThChan) : ThChan :=
  if bayInit o n i then { c with init := true, sensors := c.sensors.mapIdx (flipSensor o n i) } else c

/-- The thermal channel of string i at the flip. -/
def flipStrChan (o n : State) (i : Nat) (c : ThChan) : ThChan :=
  let cnt := fun (v : State) => (strLink v i).map (linkCount v)
  let moved := fun (k : Nat) =>
    strLink o i != strLink n i || decide (k < (cnt o).getD 0) != decide (k < (cnt n).getD 0)
  if rwsDiffer o.sets.active n.sets.active 0x3405 || strLink o i != strLink n i || cnt o != cnt n then
    { c with init := true, sensors := c.sensors.mapIdx fun k y => if moved k then y.release else y }
  else c

/-- The thermal channel of module j at the flip; a module out of use publishes 0xFFFF for theta (R210). -/
def flipModChan (o n : State) (j : Nat) (c : ThChan) : ThChan :=
  let c := if modLink o j != modLink n j then { c with sensors := c.sensors.map Sensor.release } else c
  let c := if (modCab n j).isNone then { c with nTheta := 0xFFFF } else c
  if rwsDiffer o.sets.active n.sets.active 0x3404 || modChanged o n j then { c with init := true } else c

/-- The thermal model at the flip. -/
def flipThermal (o n : State) (t : Thermal) : Thermal :=
  { t with
    bays := t.bays.mapIdx (flipBayChan o n), strs := t.strs.mapIdx (flipStrChan o n), mods := t.mods.mapIdx (flipModChan o n)
    hub := t.hub.mapIdx fun k y => if hubCode o k != hubCode n k then y.release else y
    xfmr := if rwsDiffer o.sets.active n.sets.active 0x3402 || hubCode o 2 != hubCode n 2 || hubCode o 3 != hubCode n 3
            then { t.xfmr with init := true } else t.xfmr }

/-- Lane x at the flip from view o to view n. -/
def flipLane (o n : State) (x : LaneState) : LaneState :=
  let old := x
  let x := (List.range 64).foldl (fun x i => flipLink o n i x) x
  let x := flipBlocks o n old (placeAll n x)
  let x := { x with tiles := x.tiles.map (loadBanks n) }
  let x := allLoops.foldl (fun x i => flipLoop o n i x) x
  let x := x.modWp fun w => { w with mods := w.mods.mapIdx (flipModule o n), retirements := 0 }
  refreshCache n { x with th := flipThermal o n x.th }

/-! ## The flip in the device -/

/-- Header and records of a set image: schema, length, CRC, records (R80). -/
def setImage (schema : U16) (st : Store) : List Byte :=
  let r := setObjects.flatMap (setRecord st)
  leBytes 2 schema.toNat ++ leBytes 4 r.length ++ leBytes 4 (crc32 r).toNat ++ r

/-- A channel at the flip: reinitialised where its settings or its service filters changed, released where it was latched off
(R330, R343). -/
def flipChannel (o n : State) (c : Nat) (h : Channel) : Channel :=
  let differs := fun (k : Nat) => setBytes o.sets.active (0x3810 + c) k != setBytes n.sets.active (0x3810 + c) k
  let changed := differs 1 || differs 2 || differs 3 || differs 0xE || differs 0xF || serviceFilters o c != serviceFilters n c
  let on := cfgB n (0x3810 + c) 1
  if changed || (h.st == .latchedOff && on) then
    { h with
      st := if on then .integrating else .off
      tec := 0, rec_ := 0, dropped := h.dropped + BitVec.ofNat 32 (sumNat (h.tx.map List.length) + sumNat (h.rx.map List.length))
      tx := List.replicate 4 [], rx := List.replicate 2 [], cancelHeld := none, busOffTimes := [], refAt := none, window := none
      history := [], cycle := 0
      sched := if eventTriggered n c then .eventTriggered else if canBeMaster n c && isMaster n c then .master else .lost }
  else h

/-- The Trievo network restarts with a new superframe, every peer disassociated (Table 17.10). -/
def flipTrievo (o n : State) (t : Trievo) : Trievo :=
  if (List.range 256).any fun d => rwsDiffer o.sets.active n.sets.active (0x3900 + d) then
    { t with peers := [], allocs := [], waiting := none, txq := [], cpStart := 20 }
  else t

/-- A capture whose loop's reel changed aborts; an injection stops at the end of the period (R132, R152). -/
def flipTests (o n : State) (s : State) : State :=
  let s :=
    match captureLoop s with
    | some i => if reelChanged o n i then captureAbort i s else s
    | none => s
  match s.clk.inj.loop with
  | some i =>
    if s.clk.inj.st = 2 ∧ reelChanged o n i then modInj (fun j => { j with reelNew := true, stopDue := some (j.stopDue.getD 10) }) s
    else if s.clk.inj.st = 1 ∧ reelChanged o n i then endInjection 4 10 s
    else s
  | none => s

/-- The sets at the flip: the pointer is written, epoch + 1 voids the live area, every generation + 1, the copy begins (R84). -/
def flipSets (now : U64) (schema : U16) (k : Sets) : Sets :=
  { k with
    active := k.shadow, unpublished := [], published := [], st := .copying, result := 0, failing := 0
    schema := schema, swaps := k.swaps + 1, lastSwap := now, epoch := k.epoch + 1, flags := k.flags &&& 0xFC
    nPublished := 0, gens := k.gens.map (· + 1), swapAt := none, swapTries := 0, swapReq := false, activeOk := true
    shadowOk := false, region := !k.region
    pointers := List.replicate 2 { region := !k.region, epoch := k.epoch + 1, good := true } }

/-- The swap's boundary has come with nothing to wait for. -/
def flipDue (s : State) : Bool :=
  s.sets.st == .swapPending && s.sets.swapAt == some s.clk.period && swapReadyNow s && (activeLane s).isSome

/-- Strings whose lease account changed open a new metrology session (R251). -/
def flipMeters (o n s : State) : State :=
  ((List.range 8).filter fun i => strUsed n i && strN o i 0xD != strN n i 0xD).foldl meterString s

/-- SWAP_FLIP. -/
def swapFlipEffect (s : State) : State :=
  if !(flipDue s) then s
  else
    let o := imageView s
    let s := archive .configArchive (setImage s.sets.schema s.sets.active) s
    let schema := laneSchema s ((activeLane s).getD .a)
    let s := modSets (flipSets (siteTime s) schema) s
    let n := s
    let s := bothLanes (fun x => { x with ctl := (let c := x.ctl; { c with swapReady := false }) }) s
    let s := flipTests o n s
    let s := if computing s .a then s.modLane .a (flipLane o n) else s
    let s := if computing s .b then s.modLane .b (flipLane o n) else s
    let s := handCalendar (flipMeters o n s)
    endUnavailable (recheckSpares { s with chans := s.chans.mapIdx (flipChannel o n), tri := flipTrievo o n s.tri })

/-- SWAP_FLIP: a boundary that finds the standby lane not ready is missed. -/
def execSwapFlip (s : State) : Host.Outcome State Fault Refusal :=
  .next (if swapReached s && !(swapReadyNow s) && (activeLane s).isSome then missBoundary s else captureGuard s (swapFlipEffect s))

end Sys2Proof.Machine
end

