-- ==== Sys2Proof/Machine/Vehicle.lean ====
section
/-! DEFINITION. Vehicle links and charging sessions (chapter 15): pilot and plug, SLAC, the messages of a session, authorization, the start
with its lease account, the end causes and the way back to IDLE. -/

namespace Sys2Proof.Machine

/-- Mode of vehicle link n (Table 15.1). -/
def vehMode (s : State) (n : Nat) : Nat := cfgN s (0x3710 + n) 1

/-- The pilot generator follows the session of link n (R307). -/
def refreshOut (n : Nat) (s : State) : State := modSess n (fun (v : Session) => { v with out := pilotOut s n v }) s

/-- Link n enters a state. -/
def goSess (n : Nat) (st : SessSt) (s : State) : State := refreshOut n (modSess n (fun (v : Session) => { v with st := st }) s)

/-- A response without limits; in SETUP to PARAMETERS the next request is awaited from it (Table 15.6). -/
def answer (n : Nat) (code : U8) (s : State) : State :=
  modSess n (fun (v : Session) =>
    { v with response := some { (default : VehResponse) with status := code }
             timers := (let t := v.timers; if 3 ≤ v.st.code ∧ v.st.code ≤ 5 then { t with sequence := true } else t) }) s

/-- A request arrives: the timers that run until it stop. -/
def requestCame (n : Nat) (s : State) : State :=
  modSess n (fun (v : Session) => { v with timers := (let t := v.timers; { t with sequence := false, loopSilence := false }) }) s

/-- Session n ends on a cause and the pilot follows. -/
def stopSess (n cause : Nat) (s : State) : State := refreshOut n (endSession n cause s)

/-- A message the subset does not hold or that comes out of sequence (R311): failed or sequence error, cause 11. A session that stops tells
its cause. -/
def failMessage (n : Nat) (code : U8) (s : State) : State :=
  let v := sess s n
  if v.st.live then stopSess n 11 (evt (eventReq .protocolError n [n + 1, v.st.code]) (answer n code s))
  else if v.st = .stopping then answer n (toldOf v.cause.toNat) s
  else s

/-- A request that state st takes; any other state takes it as a sequence error. -/
def inState (n : Nat) (ok : Bool) (f : State → State) (s : State) : State := if ok then f (requestCame n s) else failMessage n 2 s

/-! ## Back to IDLE (Table 15.4) -/

/-- The link in IDLE: the session's values are gone; the last end cause, the counter, the host's and dispenser's writes, the pilot, the plug
and a lock not yet released stay. -/
def idleSess (v : Session) : Session :=
  { Session.reset with pilot := v.pilot, plugged := v.plugged, peer := v.peer, out := v.out, hostAuth := v.hostAuth
                       isolation := v.isolation, isoAt := v.isoAt, cause := v.cause, count := v.count, lock := v.lock, cont := v.cont }

/-- ENDED and FAULT_WAIT return to IDLE at pilot A, or without a bridge peer in mode 3. -/
def backToIdle (n : Nat) (s : State) : State :=
  let v := sess s n
  let free := if vehMode s n = 3 then !v.peer else v.pilot == 0
  if (v.st = .ended ∨ v.st = .faultWait) ∧ free then refreshOut n (modSess n idleSess s) else s

/-- SESSION_IDLE. -/
def execSessionIdle (n : Fin 24) (s : State) : Host.Outcome State Fault Refusal := .next (backToIdle n s)

/-! ## Pilot and proximity (R307-R309) -/

/-- A session begins at link n where it may. -/
def tryAttach (n : Nat) (s : State) : State :=
  if attachOk s n (sess s n) then refreshOut n (modSess n (attach s n) s) else s

/-- Class of an accepted pilot: D counts as INVALID unless permitted (Table 15.2). -/
def pilotClass (s : State) (n code : Nat) : Nat := if code = 3 ∧ cfgN s (0x3710 + n) 7 = 0 then 6 else code

/-- A pilot class is accepted on a link with a pilot; A, E and INVALID end a session with cause 9. -/
def pilotAcceptedEffect (n code : Nat) (s : State) : State :=
  if (vehMode s n ≠ 1 ∧ vehMode s n ≠ 2) ∨ s.modes.mode = .boot ∨ s.modes.mode = .backup then s
  else
    let c := pilotClass s n code
    let s := modSess n (fun (v : Session) => { v with pilot := BitVec.ofNat 8 c }) s
    if c = 0 ∨ c = 4 ∨ c = 6 then backToIdle n (stopSess n 9 s) else tryAttach n s

/-- PILOT_STATE_ACCEPTED: codes 0 to 4 and 6 of Table 15.2; there is no other (log 6). -/
def execPilotStateAccepted (n : Fin 24) (code : U8) (s : State) : Host.Outcome State Fault Refusal :=
  .next (if code = 5 ∨ 6 < code.toNat then s else pilotAcceptedEffect n code.toNat s)

/-- The plug is detected. -/
def plugDetectedEffect (n : Nat) (s : State) : State :=
  if vehMode s n ≠ 1 ∧ vehMode s n ≠ 2 then s
  else tryAttach n (modSess n (fun (v : Session) => { v with plugged := true }) s)

/-- PLUG_DETECTED. -/
def execPlugDetected (n : Fin 24) (s : State) : Host.Outcome State Fault Refusal := .next (plugDetectedEffect n s)

/-- The plug is lost: cause 9. -/
def plugLostEffect (n : Nat) (s : State) : State := stopSess n 9 (modSess n (fun (v : Session) => { v with plugged := false }) s)

/-- PLUG_LOST. -/
def execPlugLost (n : Fin 24) (s : State) : Host.Outcome State Fault Refusal := .next (plugLostEffect n s)

/-- X2 from ATTACHED to STOPPING. -/
def pilotX2Effect (n : Nat) (s : State) : State :=
  let st := (sess s n).st.code
  if 1 ≤ st ∧ st ≤ 8 then refreshOut n (modSess n (fun (v : Session) => { v with out := .x2 }) s) else s

/-- PILOT_X2_START. -/
def execPilotX2Start (n : Fin 24) (s : State) : Host.Outcome State Fault Refusal := .next (pilotX2Effect n s)

/-! ## Association (R305, R306) -/

/-- The first CM_SLAC_PARM.REQ enters SLAC; a repeated one is confirmed again. -/
def slacParmEffect (n : Nat) (s : State) : State :=
  let st := (sess s n).st
  if vehMode s n = 2 ∧ (st = .attached ∨ st = .slac) then answer n 7 (goSess n .slac s) else s

/-- CM_SLAC_PARM_REQ. -/
def execCmSlacParmReq (n : Fin 24) (s : State) : Host.Outcome State Fault Refusal := .next (slacParmEffect n s)

/-- CM_START_ATTEN_CHAR is followed by the attenuation report. -/
def attenEffect (n : Nat) (s : State) : State := if vehMode s n = 2 ∧ (sess s n).st = .slac then answer n 8 s else s

/-- CM_START_ATTEN_CHAR. -/
def execCmStartAttenChar (n : Fin 24) (s : State) : Host.Outcome State Fault Refusal := .next (attenEffect n s)

/-- The match: a membership key drawn at random goes to the modem; SETUP with its timer. -/
def slacMatchEffect (n : Nat) (s : State) : State :=
  if vehMode s n = 2 ∧ (sess s n).st = .slac then
    let s := modSess n (fun (v : Session) => { v with nmk := some (Config.generate s.free), timers := { Timers.none with setup := true } }) s
    answer n 7 (goSess n .setup (s.useFree 1))
  else s

/-- CM_SLAC_MATCH. -/
def execCmSlacMatch (n : Fin 24) (s : State) : Host.Outcome State Fault Refusal := .next (slacMatchEffect n s)

/-- CM_VALIDATE.REQ is answered with "not required". -/
def validateEffect (n : Nat) (s : State) : State := if vehMode s n = 2 ∧ (sess s n).st.live then answer n 9 s else s

/-- CM_VALIDATE_REQ. -/
def execCmValidateReq (n : Fin 24) (s : State) : Host.Outcome State Fault Refusal := .next (validateEffect n s)

/-- Mode 3: the bridge peer is there; a session begins and, the bridge having formed the association, is in SETUP. -/
def bridgeBegin (n : Nat) (s : State) : State :=
  let s := modSess n (fun (v : Session) => { v with peer := true }) s
  if (sess s n).st = .idle ∧ mayBegin s n then answer n 0 (goSess n .setup (modSess n (attach s n) s)) else s

/-- An SECC discovery request. -/
def discoveryEffect (n : Nat) (s : State) : State :=
  let st := (sess s n).st
  if vehMode s n = 3 ∧ (st = .idle ∨ st = .ended ∨ st = .faultWait) then bridgeBegin n s
  else if vehMode s n = 1 ∧ st = .attached then answer n 0 (goSess n .setup s)
  else if st = .setup then answer n 0 (requestCame n s)
  else failMessage n 2 s

/-- SECC_DISCOVERY_REQ. -/
def execSeccDiscoveryReq (n : Fin 24) (s : State) : Host.Outcome State Fault Refusal := .next (discoveryEffect n s)

/-- The bridge peer is gone. -/
def peerGoneEffect (n : Nat) (s : State) : State :=
  if vehMode s n = 3 then backToIdle n (stopSess n 9 (modSess n (fun (v : Session) => { v with peer := false }) s)) else s

/-- BRIDGE_PEER_GONE. -/
def execBridgePeerGone (n : Fin 24) (s : State) : Host.Outcome State Fault Refusal := .next (peerGoneEffect n s)

/-! ## Protocol and setup (R310, R311) -/

/-- Code of a protocol (object 3740:02). -/
def Protocol.code : Protocol → Nat
  | .iso20 => 1
  | .iso2 => 2
  | .din => 3

/-- The first protocol of R310's list that the mask and the vehicle's list hold; mode 3 offers ISO 15118-20 alone. -/
def pickProtocol (mode mask : Nat) (l : List Protocol) : Option Protocol :=
  [Protocol.iso20, Protocol.iso2, Protocol.din].find? fun p =>
    mask.testBit (Protocol.code p - 1) && l.contains p && (mode != 3 || p == .iso20)

/-- Protocol mask of the bay of link n. -/
def bayMask (s : State) (n : Nat) : Nat :=
  match bayOfVehicle s n with
  | some i => bayN s i 0x19
  | none => 0

/-- supportedAppProtocol in SETUP. -/
def appProtocol (n : Nat) (l : List Protocol) (s : State) : State :=
  match pickProtocol (vehMode s n) (bayMask s n) l with
  | some p => answer n 0 (modSess n (fun (v : Session) => { v with protocol := BitVec.ofNat 8 (Protocol.code p) }) s)
  | none => stopSess n 11 (answer n 1 s)

/-- SUPPORTED_APP_PROTOCOL_REQ. -/
def execSupportedAppProtocolReq (n : Fin 24) (offered : List Protocol) (s : State) : Host.Outcome State Fault Refusal :=
  .next (inState n ((sess s n).st == .setup) (appProtocol n offered) s)

/-- Session setup: its response ends the setup time. -/
def sessionSetup (n : Nat) (s : State) : State :=
  answer n 0 (modSess n (fun (v : Session) => { v with timers := (let t := v.timers; { t with setup := false }) }) s)

/-- SESSION_SETUP_REQ. -/
def execSessionSetupReq (n : Fin 24) (s : State) : Host.Outcome State Fault Refusal :=
  .next (inState n ((sess s n).st == .setup && (sess s n).protocol != 0) (sessionSetup n) s)

/-! ## Authorization (R312) -/

/-- The decision: at once without the host, else the host's; a refusal is cause 12. -/
def decide312 (n : Nat) (s : State) : State :=
  let v := sess s n
  let clear (ok : Bool) (v : Session) : Session :=
    { v with authWait := !ok, timers := (let t := v.timers; { t with authorization := !ok }) }
  if cfgB s 0x3700 3 ∨ v.hostAuth = 1 then answer n 0 (modSess n (clear true) s)
  else if v.hostAuth = 2 then stopSess n 12 (answer n 1 s)
  else answer n 3 (modSess n (clear false) s)

/-- AUTHORIZING: Plug & Charge verifies the chain and the signature; outside ISO 15118-20 or while switched off it is outside the subset. -/
def authorize (n : Nat) (r : AuthRequest) (s : State) : State :=
  if r.pnc then
    if !(cfgB s 0x3700 2) ∨ (sess s n).protocol ≠ 1 then failMessage n 1 s
    else
      let s := goSess n .authorizing s
      if r.chainOk && r.signatureOk then decide312 n (modSess n (fun (v : Session) => { v with certOk := true, emaid := r.emaid }) s)
      else stopSess n 12 (answer n 1 s)
  else decide312 n (goSess n .authorizing s)

/-- An AuthorizationReq opens AUTHORIZING after session setup; repeated while the decision is awaited, it is answered with "ongoing". -/
def authorizationEffect (n : Nat) (r : AuthRequest) (s : State) : State :=
  let v := sess s n
  if v.st = .authorizing then answer n (if v.authWait then 3 else 0) (requestCame n s)
  else inState n (v.st == .setup && v.protocol != 0 && !v.timers.setup) (authorize n r) s

/-- AUTHORIZATION_REQ. -/
def execAuthorizationReq (n : Fin 24) (r : AuthRequest) (s : State) : Host.Outcome State Fault Refusal :=
  .next (authorizationEffect n r s)

/-- The host's write of object 3740:0C reaches a session that waits for it. -/
def hostAuthEffect (n : Nat) (x : U8) (s : State) : State :=
  let s := modSess n (fun (v : Session) => { v with hostAuth := x }) s
  if (sess s n).st = .authorizing ∧ (sess s n).authWait ∧ x ≠ 0 then decide312 n s else s

/-- HOST_AUTHORIZATION_WRITE. -/
def execHostAuthorizationWrite (n : Fin 24) (v : U8) (s : State) : Host.Outcome State Fault Refusal :=
  .next (hostRange (writable s) (decide (v.toNat ≤ 2)) (hostAuthEffect n v) s)

/-! ## Session start (R314, R315) -/

/-- Entry k of the contract map: prefix and account. -/
def contractEntry (b : List Byte) (k : Nat) : List Byte × Nat :=
  (((slice b (20 * k) 18).takeWhile (· != 0)), field b (20 * k + 18) 2)

/-- Account of the longest prefix of an eMAID in the contract map. -/
def contractAccount (b : List Byte) (emaid : List Byte) : Option Nat :=
  ((List.range (b.length / 20)).foldl (fun (best : Option (Nat × Nat)) k =>
    let e := contractEntry b k
    let longer := match best with
      | some (n, _) => decide (n < e.1.length)
      | none => true
    if !e.1.isEmpty && e.1.isPrefixOf emaid && longer then some (e.1.length, e.2) else best) none).map (·.2)

/-- Lease account and its source: contract map, session entry, bay default, unleased. -/
def leaseOf (s : State) (i : Nat) (v : Session) : Nat × Nat :=
  match (if v.certOk then contractAccount (cfgBytes s 0x3790 0) v.emaid else none) with
  | some a => (a, 1)
  | none =>
    if bayN s i 0xF ≠ 0xFFFF then (bayN s i 0xF, 2)
    else if bayN s i 0xE ≠ 0xFFFF then (bayN s i 0xE, 3)
    else (0xFFFF, 0)

/-- The values of a session that starts on bay i. -/
def startSess (s : State) (n i : Nat) (v : Session) : Session :=
  let a := leaseOf s i v
  let k := (v.count.toNat + 1) % 2 ^ 24
  let target := bayN s i 0x10
  let depart := bayN s i 0x11
  { v with st := .parameters, id := BitVec.ofNat 32 ((n + 1) * 2 ^ 24 + k), count := v.count + 1
           account := BitVec.ofNat 16 a.1, source := BitVec.ofNat 8 a.2, hostAuth := 0
           target := if target = 0 then v.values.energy else BitVec.ofNat 32 target, targetFixed := target != 0
           departure := if depart = 0 then v.values.departure else BitVec.ofNat 64 depart, departFixed := depart != 0
           energy := 0, startNs := s.site.ns, cablePassed := false }

/-- Session start on an authorized session; without metering it ends with cause 8 (R218), on a standing isolation fault with cause 10. -/
def sessionStartEffect (n : Nat) (s : State) : State :=
  let v := sess s n
  match bayOfVehicle s n with
  | some i =>
    if v.st ≠ .authorizing ∨ v.authWait then s
    else if !(meterServes s) then stopSess n 8 s
    else
      let s := refreshOut n (modSess n (startSess s n i) s)
      let u := sess s n
      let s := meterOpen false (i + 1) u.account u.id s
      if u.isolation = 3 then stopSess n 10 s else s
  | none => s

/-- SESSION_START. -/
def execSessionStart (n : Fin 24) (s : State) : Host.Outcome State Fault Refusal := .next (sessionStartEffect n s)

/-! ## Parameters, cable check, precharge, charging (R316-R318) -/

/-- The vehicle values of a decoded request; target and departure follow where the host gave none (R315). -/
def takeValues (x : VehicleValues) (v : Session) : Session :=
  { v with values := x, target := if v.targetFixed then v.target else x.energy
           departure := if v.departFixed then v.departure else x.departure }

/-- A request that the next period answers with limits. -/
def awaitLimits (n : Nat) (adv : Bool) (x : VehicleValues) (s : State) : State :=
  modSess n (fun (v : Session) => { (takeValues x v) with pend := some (s.clk.period, adv) }) s

/-- Charge parameter discovery: advertised limits, CONT := 1. -/
def parameterDiscovery (n : Nat) (x : VehicleValues) (s : State) : State :=
  modSess n (fun (v : Session) => { v with cont := true }) (awaitLimits n true x s)

/-- CHARGE_PARAMETER_DISCOVERY_REQ. -/
def execChargeParameterDiscoveryReq (n : Fin 24) (v : VehicleValues) (s : State) : Host.Outcome State Fault Refusal :=
  .next (inState n ((sess s n).st == .parameters) (parameterDiscovery n v) s)

/-- The cable check passes with CONT = 1 on an isolation state of valid or warning written within the last second. -/
def cableCheckEffect (n : Nat) (s : State) : State :=
  let v := sess s n
  if v.st = .parameters ∧ v.cont ∧ (v.isoAt.any fun t => decide (s.clk.ns ≤ t + 1000000000)) ∧ (v.isolation = 1 ∨ v.isolation = 2) then
    modSess n (fun (v : Session) => { v with cablePassed := true }) s
  else s

/-- CABLE_CHECK_PASS. -/
def execCableCheckPass (n : Fin 24) (s : State) : Host.Outcome State Fault Refusal := .next (cableCheckEffect n s)

/-- A precharge request: the first enters PRECHARGE with its timer. -/
def precharge (n : Nat) (x : VehicleValues) (s : State) : State :=
  let first := (sess s n).st == .parameters
  let s := awaitLimits n false x s
  if first then modSess n (fun (v : Session) => { v with st := .precharge, timers := { Timers.none with precharge := true } }) s else s

/-- PRECHARGE_REQ. -/
def execPrechargeReq (n : Fin 24) (v : VehicleValues) (s : State) : Host.Outcome State Fault Refusal :=
  .next (inState n (((sess s n).st == .parameters && (sess s n).cablePassed) || (sess s n).st == .precharge) (precharge n v) s)

/-- A charge-loop request: the first enters CHARGING. -/
def chargeLoop (n : Nat) (x : VehicleValues) (s : State) : State :=
  modSess n (fun (v : Session) => { v with st := .charging, timers := (let t := v.timers; { t with precharge := false }) }) (awaitLimits n false x s)

/-- CHARGE_LOOP_REQ. -/
def execChargeLoopReq (n : Fin 24) (v : VehicleValues) (s : State) : Host.Outcome State Fault Refusal :=
  .next (inState n (sess s n).st.transfer (chargeLoop n v) s)

/-! ## End causes (R318, R319) -/

/-- VEHICLE_STOP_REQUEST: cause 1 once the vehicle talks. -/
def execVehicleStopRequest (n : Fin 24) (s : State) : Host.Outcome State Fault Refusal :=
  .next (if 3 ≤ (sess s n).st.code then stopSess n 1 (if (sess s n).st.live then answer n 4 s else s) else s)

/-- The dispenser writes the isolation state; a fault from PARAMETERS on ends the session. -/
def isolationEffect (n : Nat) (x : U8) (s : State) : State :=
  let s := modSess n (fun (v : Session) => { v with isolation := x, isoAt := some s.clk.ns }) s
  if x = 3 ∧ 5 ≤ (sess s n).st.code then stopSess n 10 s else s

/-- ISOLATION_STATE_WRITE. -/
def execIsolationStateWrite (n : Fin 24) (v : U8) (s : State) : Host.Outcome State Fault Refusal :=
  .next (hostRange (writable s) (decide (v.toNat ≤ 3)) (isolationEffect n v) s)

/-- ISOLATION_STALE: 1 s without a write in PRECHARGE or CHARGING. -/
def execIsolationStale (n : Fin 24) (s : State) : Host.Outcome State Fault Refusal :=
  .next (if (sess s n).st.transfer then stopSess n 10 s else s)

/-- The timer of a name runs. -/
def Timers.runs (t : Timers) : SessionTimer → Bool
  | .slac => t.slac
  | .setup => t.setup
  | .authorization => t.authorization
  | .sequence => t.sequence
  | .precharge => t.precharge
  | .loopSilence => t.loopSilence

/-- A timer that runs expires: cause 12 for the authorization, 13 otherwise; the vehicle is told "failed". -/
def timeoutEffect (n : Nat) (t : SessionTimer) (s : State) : State :=
  if (sess s n).st.live ∧ (sess s n).timers.runs t then stopSess n (if t = .authorization then 12 else 13) s else s

/-- SESSION_TIMEOUT. -/
def execSessionTimeout (n : Fin 24) (t : SessionTimer) (s : State) : Host.Outcome State Fault Refusal := .next (timeoutEffect n t s)

/-- THERMAL_HOLD_EXPIRY: cause 14 on a session in CHARGING that is held. -/
def execThermalHoldExpiry (n : Fin 24) (s : State) : Host.Outcome State Fault Refusal :=
  .next (if (sess s n).st = .charging ∧ (sess s n).thermalHold then stopSess n 14 s else s)

/-- SESSION_END: a cause of Table 15.5 arises; there is no other (log 6). -/
def execSessionEnd (n : Fin 24) (cause : U8) (s : State) : Host.Outcome State Fault Refusal :=
  .next (if cause = 0 ∨ 14 < cause.toNat then s else stopSess n cause.toNat s)

/-- PROTOCOL_ERROR. -/
def execProtocolError (n : Fin 24) (s : State) : Host.Outcome State Fault Refusal := .next (failMessage n 1 s)

/-! ## The end of STOPPING (R313) -/

/-- 60 V in words of a bay head's voltage. -/
def sixtyVolts : Int := 240000

/-- Bay i's connector voltage is VALID and below 60 V. -/
def connectorLow (s : State) (i : Nat) : Bool :=
  match headMeas s s.act i 1 with
  | some u => decide (-sixtyVolts < u ∧ u < sixtyVolts)
  | none => false

/-- The conditions of ENDED hold for bay i: current, CONT and connector voltage. -/
def endedOk (s : State) (n i : Nat) : Bool := bayQuiet s n && !(sess s n).cont && connectorLow s i

/-- No module reports that it is switched to bay i, each in a VALID frame of its cabinet. -/
def modulesAway (s : State) (i : Nat) : Bool :=
  ((List.range 96).filter fun j => (s.act.mod j).carries i).all fun j =>
    match moduleStatus s s.act j with
    | some w => modPos w == 0
    | none => false

/-- STOPPING may be left without the head link: modules away, or the stop time of object 3502:0A over. -/
def headLessOk (s : State) (n i : Nat) : Bool :=
  modulesAway s i || decide ((sess s n).stopAt + msPeriods s (cfgN s 0x3502 0xA) ≤ s.clk.period)

/-- The session of link n after STOPPING. -/
def endedEffect (n : Nat) (s : State) : State :=
  let v := sess s n
  match bayOfVehicle s n with
  | none => s
  | some i =>
    if headUp s s.act i then
      if !(endedOk s n i) then s
      else if v.st = .stopping then
        let st : SessSt := if v.toFault then .faultWait else .ended
        backToIdle n (goSess n st (modSess n (fun (v : Session) => { v with lock := false }) s))
      else if (v.st = .faultWait ∨ v.st = .idle) ∧ v.lock then modSess n (fun (v : Session) => { v with lock := false }) s
      else s
    else if v.st = .stopping ∧ headLessOk s n i then backToIdle n (goSess n .faultWait s)
    else s

/-- SESSION_ENDED. -/
def execSessionEnded (n : Fin 24) (s : State) : Host.Outcome State Fault Refusal := .next (endedEffect n s)

end Sys2Proof.Machine
end

