-- ==== Sys2Proof/Machine/DictServer.lean ====
section
/-! DEFINITION. The dictionary server (R71-R79, R82): reads, writes in the refusal order of Table 4.3, live writes, and the UDP path. -/

namespace Sys2Proof.Machine

/-! ## Reads -/

/-- Entries of the legal logbook for object 4131:04, by LOG_READ with AREA, COUNT and FIRST of object 4131 (R268). -/
def readLog (s : State) : State :=
  let r := logRead s.free (BitVec.ofNat 8 (rwN s 0x4131 1)) (BitVec.ofNat 8 (rwN s 0x4131 3)) (BitVec.ofNat 32 (rwN s 0x4131 2)) s.met
  respond 0 r.2.2 (s.useFree 1)

/-- A read request: refused in the order of R74, else answered with the object's value. -/
def readObject (i k : Nat) (s : State) : State :=
  if (activeLane s).isNone then s
  else if !(indexPresent i) then respond 0x06020000 [] s
  else
    match findRow i k with
    | none => respond 0x06090011 [] s
    | some r =>
      if r.right = .wo then respond 0x06010001 [] s
      else if i = 0x2301 ∧ k = 4 then eventReadEffect s
      else if i = 0x3920 ∧ k = 3 then mailboxReadEffect s
      else if i = 0x4131 ∧ k = 4 then readLog s
      else respond 0 (objBytes s r i k) s

/-! ## What a write must meet (R74, orders 2 to 5) -/

/-- Objects that SAFE accepts (R55). -/
def safeObject (i k : Nat) : Bool :=
  (i, k) ∈ [(0x2010, 1), (0x2010, 3), (0x2020, 1), (0x2040, 6), (0x2200, 0xD), (0x2510, 1), (0x2510, 2), (0x2510, 7)]

/-- The state permits a write of the object: its right's (Table 4.2), the mode's (R55), and its own chapter's; the key update message
judges its own mode. -/
def stateAllows (s : State) (r : ObjRow) (i k : Nat) : Bool :=
  let mode := if safeObject i k then safeWritable s else writable s
  let own :=
    if 0x31A0 ≤ i ∧ i ≤ 0x31A7 ∧ k = 0x11 then s.modes.mode == .commission
    else if i = 0x3504 ∧ (k = 1 ∨ 4 ≤ k) then !(s.clk.cap.st == 1 || s.clk.cap.st == 2)
    else if i = 0x3506 ∧ k ≤ 0xB then !(s.clk.inj.st == 1 || s.clk.inj.st == 2)
    else true
  let right :=
    match r.right with
    | .rws => s.sets.st == .opened && !s.sets.checking
    | .rwl => s.sets.st != .swapPending
    | _ => true
  (i == 0x2401) || (mode && own && right)

/-- The object a PDO mapping entry names, with its row. -/
def mapped (v : Nat) : Option (Nat × Nat × ObjRow) :=
  let i := v / 2 ^ 16
  let k := v / 2 ^ 8 % 256
  (findRow i k).map fun r => (i, k, r)

/-- A mapping entry names an object of fixed size that the direction accepts, with its length in bits (Table 4.5, R77). -/
def mapEntryOk (receive : Bool) (v : Nat) : Bool :=
  v == 0 || match mapped v with
    | some (_, _, r) =>
      (match r.ty.size with
       | some n => v % 256 == 8 * n
       | none => false) && (if receive then r.right == .rw || r.right == .rwl else r.right != .wo)
    | none => false

/-- The entries of a mapping fit 64 bytes. -/
def mapFits (s : State) (i n : Nat) : Bool :=
  decide (sumNat ((List.range n).map fun k => rwN s i (k + 1) % 256) ≤ 512)

/-- A PDO mapping object accepts the value. -/
def mappingOk (s : State) (i k v : Nat) : Bool :=
  let receive := decide (0x1600 ≤ i ∧ i ≤ 0x160F)
  if receive || decide (0x1A00 ≤ i ∧ i ≤ 0x1A0F) then (if k = 0 then mapFits s i v else mapEntryOk receive v) else true

/-- The value passes Table 4.1 and the ranges of its chapter; a live write is checked against rws fields of the active set (R73). -/
def valueAllows (s : State) (r : ObjRow) (i k : Nat) (d : List Byte) : Bool :=
  r.valueOk i k d && mappingOk s i k (ofLe d) && (r.right != .rwl || relatedOk s.sets.active i k (r.num (r.clean d)))

/-- The value cannot be stored: the fast store's last write failed its verification with no redundant row left (R301). The outcome of the
store's writes is that of FAST_STORE_WRITE (DESIGN CHOICE, log 46). -/
def storeFailed (s : State) (r : ObjRow) : Bool := s.fs.result == 2 && (r.right == .rws || r.right == .rwl)

/-- The abort code of a write, 0 where none applies (R74). -/
def writeCode (s : State) (i k : Nat) (d : List Byte) : U32 :=
  if !(indexPresent i) then 0x06020000
  else
    match findRow i k with
    | none => 0x06090011
    | some r =>
      if r.right = .ro ∨ r.right = .const ∨ (0x4000 ≤ i ∧ i ≤ 0x40FF) then 0x06010002
      else if !(stateAllows s r i k) then abortState
      else if !(r.ty.lengthOk d.length) then 0x06070010
      else if !(valueAllows s r i k d) then 0x06090030
      else if storeFailed s r then 0x08000020
      else 0

/-! ## Live writes (R80, R82) -/

/-- Boundary at which a live write acknowledged now is published (R82). -/
def publishAt (s : State) : Nat :=
  let b := nextShare s s.clk.period
  if s.clk.period + 1 < b then b else b + shareLen s

/-- A live cell with v in the copy that its last write did not take. -/
def LiveCell.write (epoch : U32) (v : List Byte) (c : LiveCell) : LiveCell :=
  let n := fun (p : Option LiveCopy) => (p.map LiveCopy.seq).getD 0
  let new : LiveCopy := { value := v, epoch := epoch, seq := (if n c.copyA < n c.copyB then n c.copyB else n c.copyA) + 1, good := true }
  if n c.copyB < n c.copyA then { c with copyB := some new } else { c with copyA := some new }

/-- The live cell of a key after a write of v. -/
def writeCell (epoch : U32) (key : Nat) (v : List Byte) (l : List LiveCell) : List LiveCell :=
  let old := (l.find? fun c => c.key == key).getD { key := key, copyA := none, copyB := none }
  old.write epoch v :: l.filter fun c => c.key != key

/-- A live value is stored in its cell, waits for its boundary, and reaches the shadow set while that is OPEN. -/
def liveStore (i k : Nat) (v : List Byte) (s : State) : State :=
  let at_ := publishAt s
  modSets (fun (t : Sets) =>
    { t with
      live := writeCell t.epoch (objKey i k) v t.live
      unpublished := t.unpublished ++ [(objKey i k, v, at_)]
      shadow := if t.st = .opened then setPut t.shadow i k v else t.shadow }) s

/-! ## Writes -/

/-- The state an outcome leads to; s itself where the command stops. -/
def stateAfter (o : Host.Outcome State Fault Refusal) (s : State) : State :=
  match o with
  | .next t => t
  | _ => s

/-- The loop command of object 3501:02 for the code that object 3501:01 holds. -/
def loopCommandWrite (n : Nat) (s : State) : State := ifPermitted (BitVec.ofNat 8 n) (BitVec.ofNat 16 (rwN s 0x3501 1)) s

/-- A key update message as its bytes spell it (Table 18.4). -/
def keyMessage (d : List Byte) : KeyMsg :=
  { version := BitVec.ofNat 8 (field d 0 1), op := BitVec.ofNat 8 (field d 1 1), length := BitVec.ofNat 16 (field d 2 2)
    reserved := BitVec.ofNat 32 (field d 4 4), deviceId := slice d 8 16, counter := BitVec.ofNat 64 (field d 24 8)
    path := BitVec.ofNat 32 (field d 32 4), algorithm := BitVec.ofNat 8 (field d 36 1), usage := BitVec.ofNat 8 (field d 37 1)
    reserved2 := BitVec.ofNat 16 (field d 38 2), body := slice d 40 (d.length - 136), signature := d.drop (max 40 (d.length - 96)) }

/-- The key update message of object 2401:01, by its OP. -/
def keyMessageWrite (m : KeyMsg) (s : State) : State := updateMessage m (opEffect m) s

/-- The command of channel c's object 3810+c:0D. -/
def channelCommand (c n : Nat) (s : State) : State :=
  if h : c < 4 then
    if n = 1 then stateAfter (execChannelSleep ⟨c, h⟩ s) s
    else if n = 2 then stateAfter (execChannelWakeCommand ⟨c, h⟩ s) s
    else stateAfter (execChannelRestart ⟨c, h⟩ s) s
  else s

/-- Host writes of vehicle link n. -/
def sessionWrite (n k v : Nat) (s : State) : State :=
  if h : n < 24 then
    if k = 0xC then stateAfter (execHostAuthorizationWrite ⟨n, h⟩ (BitVec.ofNat 8 v) s) s
    else stateAfter (execIsolationStateWrite ⟨n, h⟩ (BitVec.ofNat 8 v) s) s
  else s

/-- A permitted write of a wo object or of an rw object held by a unit: the command of the row the spec gives it, none where the value is
only stored. -/
def unitWrite (i k : Nat) (d : List Byte) (s : State) : Option State :=
  let n := ofLe d
  let run := fun (o : Host.Outcome State Fault Refusal) => some (stateAfter o s)
  match i * 256 + k with
  | 0x201001 => run (execModeRequestWrite (BitVec.ofNat 8 n) s)
  | 0x201003 => run (execResetRequest (BitVec.ofNat 32 n) s)
  | 0x202001 => run (execResetCauseClear (BitVec.ofNat 16 n) s)
  | 0x204006 => run (execRailFaultLatchClear (BitVec.ofNat 16 n) s)
  | 0x210004 => run (execPlannedCrossoverRequest (BitVec.ofNat 8 n) s)
  | 0x210005 => run (execReleaseExcludedLane (BitVec.ofNat 8 n) s)
  | 0x220002 => run (if n = 1 then execShadowCommit s else if n = 2 then execShadowReopen s else if n = 3 then execShadowSwap s else execShadowReload s)
  | 0x220003 => some (respond 0 [] (modSets (fun (t : Sets) => { t with expected := BitVec.ofNat 32 n }) s))
  | 0x22000D => run (execSetFlagsClear (BitVec.ofNat 8 n) s)
  | 0x230201 => run (execEventClear (BitVec.ofNat 8 n) s)
  | 0x240101 => some (keyMessageWrite (keyMessage d) s)
  | 0x240203 => run (if n = 1 then execKeyStatement s else execCertificationRequest s)
  | 0x251001 => some (respond 0 [] (modUpd (fun u => { u with source := BitVec.ofNat 8 n }) s))
  | 0x251002 => run (if n = 1 then execActivationRolling s else if n = 2 then execActivationFullRestart s else execActivationAbort s)
  | 0x251007 => run (execHostConfirm (BitVec.ofNat 8 n) s)
  | 0x260001 => run (execRtcWrite (BitVec.ofNat 64 n) s)
  | 0x260003 => some (respond 0 [] { s with bk := (let b := s.bk; { b with alarm := BitVec.ofNat 64 n }) })
  | 0x262001 => run (execTamperLatchClear (BitVec.ofNat 8 n) s)
  | 0x340006 => run (execSensorRelease (BitVec.ofNat 32 n) s)
  | 0x350102 => some (loopCommandWrite n s)
  | 0x350402 => run (if n = 1 then execCaptureArm s else if n = 2 then execCaptureForceTrigger s else execCaptureStop s)
  | 0x35060C => run (if n = 1 then execInjectionArm s else execInjectionStop s)
  | 0x392001 => run (execMailboxTransmit d s)
  | _ =>
    if 0x31A0 ≤ i ∧ i ≤ 0x31A7 ∧ k = 0x14 then some (respond 0 [] (reportSoc (i - 0x31A0) (BitVec.ofNat 16 n) s))
    else if 0x3740 ≤ i ∧ i ≤ 0x3757 then some (sessionWrite (i - 0x3740) k n s)
    else if 0x3810 ≤ i ∧ i ≤ 0x3813 ∧ k = 0xD then some (channelCommand (i - 0x3810) n s)
    else none

/-- The rw values after v is stored at i:k; the EMCY identifier has no fixed default. -/
def rwStore (i k : Nat) (v : List Byte) (st : Store) : Store :=
  if i = 0x1014 then st.set (objKey i k) v [] else setPut st i k v

/-- The effect of a write that every check permits. -/
def storeObject (r : ObjRow) (i k : Nat) (d : List Byte) (s : State) : State :=
  match r.right with
  | .rws => respond 0 [] (modSets (fun (t : Sets) => { t with shadow := setPut t.shadow i k d }) s)
  | .rwl => respond 0 [] (liveStore i k (r.clean d) s)
  | _ =>
    match unitWrite i k (r.clean d) s with
    | some t => t
    | none => respond 0 [] { s with comm := (let c := s.comm; { c with rw := rwStore i k (r.clean d) c.rw }) }

/-- A write request: refused in the order of R74, else acknowledged with its effect; with no active lane nobody answers. -/
def writeObject (i k : Nat) (d : List Byte) (s : State) : State :=
  if (activeLane s).isNone then s
  else
    let c := writeCode s i k d
    if c ≠ 0 then respond c [] s
    else
      match findRow i k with
      | some r => storeObject r i k d s
      | none => s

/-- OBJECT_WRITE. -/
def execObjectWrite (idx : U16) (sub : U8) (data : List Byte) (s : State) : Host.Outcome State Fault Refusal :=
  .next (writeObject idx.toNat sub.toNat data s)

/-- LIVE_WRITE. -/
def execLiveWrite (idx : U16) (sub : U8) (data : List Byte) (s : State) : Host.Outcome State Fault Refusal :=
  .next (writeObject idx.toNat sub.toNat data s)

/-! ## USDO sessions and UDP (R74, R78, R79) -/

/-- s with the communication profile changed. -/
def modComm (f : Comm → Comm) (s : State) : State := { s with comm := f s.comm }

/-- A USDO session whose segment or block did not come within 1 s ends with 0x05040000, whatever the request's content (R74). -/
def usdoTimeoutEffect (n : Nat) (s : State) : State :=
  if (activeLane s).isSome then
    respond 0x05040000 [] (modComm (fun c => { c with sessions := put c.sessions n { opened := false, abort := 0x05040000 } }) s)
  else s

/-- USDO_TIMEOUT. -/
def execUsdoTimeout (session : Fin 4) (s : State) : Host.Outcome State Fault Refusal := .next (usdoTimeoutEffect session s)

/-- The source is one of the host addresses of object 1FA0:03-06. -/
def hostAddress (s : State) (a : List Byte) : Bool :=
  a.length == 16 && !(allZero a) && (List.range 4).any fun n => cfgBytes s 0x1FA0 (n + 3) == a

/-- The header is that of a request (Table 4.6); its reserved fields are ignored (R5). -/
def headerOk (d : UdpDatagram) : Bool := d.version == 1 && !(d.flags.getLsbD 0) && decide (1 ≤ d.length.toNat ∧ d.length.toNat ≤ 64)

/-- Answers given within the last 2 s. -/
def freshAnswers (s : State) : List (List Byte × U16 × Nat × (U32 × List Byte)) :=
  s.comm.cache.filter fun e => decide (s.clk.ns ≤ e.2.2.1 + 2000000000)

/-- The request of a datagram is executed. -/
def runRequest (q : UsdoReq) (s : State) : State :=
  match q with
  | .read i k => readObject i.toNat k.toNat s
  | .write i k d => writeObject i.toNat k.toNat d s

/-- The header of the response to a datagram: it echoes the sequence number (R78). -/
def udpAnswer (d : UdpDatagram) (s : State) : State := modComm (fun c => { c with udpHeader := some (d.source, 1, 1, d.seq) }) s

/-- A datagram: one from another source is dropped and counted, a repeated one is answered from the cache, any other is executed (R78). -/
def udpEffect (d : UdpDatagram) (s : State) : State :=
  if (activeLane s).isNone || d.port.toNat != cfgN s 0x1FA0 2 then s
  else if !(hostAddress s d.source) then modComm (fun c => { c with dropped := c.dropped + 1 }) s
  else if !(headerOk d) then s
  else
    match (freshAnswers s).find? fun e => e.1 == d.source && e.2.1 == d.seq with
    | some e => udpAnswer d (respond e.2.2.2.1 e.2.2.2.2 s)
    | none =>
      let old := freshAnswers s
      let now := s.clk.ns
      let t := runRequest d.req (modComm (fun c => { c with response := none }) s)
      match t.comm.response with
      | some r => udpAnswer d (modComm (fun c => { c with cache := old ++ [(d.source, d.seq, now, r)] }) t)
      | none => t

/-- UDP_DATAGRAM_RECEIVED. -/
def execUdpDatagramReceived (d : UdpDatagram) (s : State) : Host.Outcome State Fault Refusal := .next (udpEffect d s)

end Sys2Proof.Machine
end

