-- ==== Sys2Proof/Machine/CommProfile.lean ====
section
/-! DEFINITION. The CANopen FD profile (R76, R77): NMT, heartbeat, receive and transmit PDOs, and the frames composed at the start of an
exclusive quadrille window (R337). -/

namespace Sys2Proof.Machine

/-! ## NMT and heartbeat -/

/-- Code of an NMT state in a heartbeat (PRESUMED: CiA 1301, log 12). -/
def NmtSt.code : NmtSt → Byte
  | .initialisation => 0
  | .stopped => 4
  | .operational => 5
  | .preOperational => 127

/-- An NMT command reaches the active lane, which mirrors the state to the standby lane; in Initialisation none is taken. -/
def nmtGo (n : NmtSt) (s : State) : State :=
  if (activeLane s).isSome ∧ s.comm.nmt ≠ .initialisation then modComm (fun c => { c with nmt := n }) s else s

/-- NMT_START. -/
def execNmtStart (s : State) : Host.Outcome State Fault Refusal := .next (nmtGo .operational s)

/-- NMT_STOP. -/
def execNmtStop (s : State) : Host.Outcome State Fault Refusal := .next (nmtGo .stopped s)

/-- NMT_ENTER_PREOPERATIONAL. -/
def execNmtEnterPreoperational (s : State) : Host.Outcome State Fault Refusal := .next (nmtGo .preOperational s)

/-- The communication profile starts again: its objects at their defaults, sessions closed, inhibit times cleared; boot-up, then
Pre-operational (PRESUMED: CiA 1301, log 12). -/
def resetComm (s : State) : State :=
  let s := modComm (fun c =>
    { c with
      nmt := .preOperational
      sessions := c.sessions.map fun _ => { opened := false, abort := 0 }
      rw := c.rw.filter fun e => decide (0x200000 ≤ e.1)
      tpdoAt := c.tpdoAt.map fun _ => none }) s
  nmtFrame 0 s

/-- NMT_RESET_COMMUNICATION. -/
def execNmtResetCommunication (s : State) : Host.Outcome State Fault Refusal :=
  .next (if (activeLane s).isSome ∧ s.comm.nmt ≠ .initialisation then resetComm s else s)

/-- HEARTBEAT_PRODUCE: object 1017 other than 0. -/
def heartbeatEffect (s : State) : State :=
  if (activeLane s).isSome ∧ s.comm.nmt ≠ .initialisation ∧ rwN s 0x1017 0 ≠ 0 then
    nmtFrame s.comm.nmt.code (modComm (fun c => { c with heartbeats := c.heartbeats + 1 }) s)
  else s

/-- HEARTBEAT_PRODUCE. -/
def execHeartbeatProduce (s : State) : Host.Outcome State Fault Refusal := .next (heartbeatEffect s)

/-! ## Receive PDOs -/

/-- PDOs run: Operational, with an active lane (R77). -/
def pdosRun (s : State) : Bool := (activeLane s).isSome && s.comm.nmt == .operational

/-- One mapped object takes its data: a live write is discarded and counted while a swap is pending, any other write is made where the
checks of R74 permit it. No response is sent. -/
def pdoWrite (i k : Nat) (d : List Byte) (s : State) : State :=
  let live := match findRow i k with
    | some r => r.right == .rwl
    | none => false
  if live && s.sets.st == .swapPending then modSets (fun (t : Sets) => { t with nDiscarded := t.nDiscarded + 1 }) s
  else if writeCode s i k d = 0 then
    let old := s.comm.response
    modComm (fun c => { c with response := old }) (writeObject i k d s)
  else s

/-- The objects of receive PDO n in order, each with its part of the data from offset o. -/
def pdoParts (s : State) (i : Nat) : Nat → Nat → Nat → List Byte → List (Nat × Nat × List Byte)
  | 0, _, _, _ => []
  | m + 1, k, o, d =>
    let v := rwN s i k
    let n := v % 256 / 8
    (v / 2 ^ 16, v / 2 ^ 8 % 256, slice d o n) :: pdoParts s i m (k + 1) (o + n) d

/-- RPDO_RECEIVED: a PDO in use with data as long as its mapping. -/
def rpdoEffect (n : Nat) (d : List Byte) (s : State) : State :=
  if pdosRun s && (rpdoId s n).isSome && decide (rpdoBytes s n ≤ d.length) then
    (pdoParts s (0x1600 + n) (rwN s (0x1600 + n) 0) 1 0 d).foldl
      (fun s p => if p.1 = 0 then s else pdoWrite p.1 p.2.1 p.2.2 s) s
  else s

/-- RPDO_RECEIVED. -/
def execRpdoReceived (n : Fin 16) (data : List Byte) (s : State) : Host.Outcome State Fault Refusal := .next (rpdoEffect n data s)

/-! ## Transmit PDOs -/

/-- Identifier and format of transmit PDO n, none where it is not in use (PRESUMED: CiA 1301, log 12). -/
def tpdoId (s : State) (n : Nat) : Option (Nat × Bool) :=
  let v := rwN s (0x1800 + n) 1
  if v / 2 ^ 31 = 0 ∧ v % 2 ^ 29 ≠ 0 then some (v % 2 ^ 29, tpdoExtended s n) else none

/-- The present values of the objects mapped by transmit PDO n. -/
def tpdoData (s : State) (n : Nat) : List Byte :=
  (List.range (rwN s (0x1A00 + n) 0)).flatMap fun m =>
    let v := rwN s (0x1A00 + n) (m + 1)
    let b := v % 256 / 8
    match mapped v with
    | some (i, k, r) => (padTo b (objBytes s r i k)).take b
    | none => List.replicate b 0

/-- The frame of transmit PDO n on channel c. -/
def tpdoFrame (s : State) (n c : Nat) : Option CanFrame :=
  (tpdoId s n).map fun p => makeFrame s c p.1 p.2 ((tpdoData s n).take 64)

/-- A frame of the same identifier still queued in TX2 with other values is cancelled and counted; the new one is queued where none with
its values waits (R329). -/
def requeue (f : CanFrame) (h : Channel) : Channel :=
  let l := nth h.tx 2
  let left := l.filter fun g => !(g.ident == f.ident && g.extended == f.extended) || g.data == f.data
  let h := { h with tx := put h.tx 2 left, cancels := bump h.cancels (l.length - left.length) }
  if left.contains f then h else Channel.push 2 f h

/-- The inhibit time of transmit PDO n has passed since it was last queued (object 1800+n:03, 100 us). -/
def inhibitOver (s : State) (n : Nat) : Bool :=
  match nth s.comm.tpdoAt n with
  | some t => decide (t + rwN s (0x1800 + n) 3 * 100000 ≤ s.clk.ns)
  | none => true

/-- TPDO_EVENT on channel c: composed and queued in TX2, on both channels of a pair. -/
def tpdoEffect (n c : Nat) (s : State) : State :=
  if !(pdosRun s && dictChannel c && inhibitOver s n) then s
  else
    match tpdoFrame s n c with
    | none => s
    | some f =>
      let now := s.clk.ns
      let s := modComm (fun k => { k with tpdoAt := put k.tpdoAt n (some now) }) s
      let s := modChan c (requeue f) s
      match partner c with
      | some d => if cfgB s 0x3800 1 then modChan d (requeue f) s else s
      | none => s

/-- TPDO_EVENT. -/
def execTpdoEvent (n : Fin 16) (chan : Fin 4) (s : State) : Host.Outcome State Fault Refusal := .next (tpdoEffect n chan s)

/-! ## Exclusive windows (R337) -/

/-- The device owns the exclusive cell of column j in the running cycle (Table 16.6). -/
def ownsCell (s : State) (c j : Nat) : Bool :=
  let b := quadImage s c
  let y := cycleNow s c
  let o := qOwner b y j
  qKind b y j == 1 && (o == nodeId s || (o == 0xFF && isMaster s c))

/-- The frame the code names, composed now; the state after a federation frame that was due is taken. -/
def codedFrame (s : State) (c code : Nat) : Option CanFrame × State :=
  if 0x10 ≤ code ∧ code ≤ 0x1F then (if pdosRun s then tpdoFrame s (code - 0x10) c else none, s)
  else if code = 0x20 then
    if s.comm.nmt ≠ .initialisation ∧ rwN s 0x1017 0 ≠ 0 then
      (some (makeFrame s c (0x700 + nodeId s) false [s.comm.nmt.code]), modComm (fun k => { k with heartbeats := k.heartbeats + 1 }) s)
    else (none, s)
  else if code = 0x30 then
    match s.clk.fed.dueShare, s.clk.fed.txShare with
    | true, some f => (some (fedFrame s (fedBase s) (shareBytes f)), modFed (fun (d : Federation) => { d with dueShare := false }) s)
    | _, _ => (none, s)
  else if code = 0x31 then
    match s.clk.fed.dueReport, s.clk.fed.txReport with
    | true, some f => (some (fedFrame s (fedBase s + nodeId s) (reportBytes f)), modFed (fun (d : Federation) => { d with dueReport := false }) s)
    | _, _ => (none, s)
  else (none, s)

/-- At column j of the running cycle the coded frame goes into TX0 and its window opens; the reference opens a basic cycle. -/
def windowStartEffect (c j : Nat) (s : State) : State :=
  let h := chanOf s c
  let b := quadImage s c
  let follows := h.sched == .master || h.sched == .following
  if awake s && drives s && h.talks && !(eventTriggered s c) && follows && decide (j < qCols b) && columnNow s c == j && ownsCell s c j then
    let code := qCode b (cycleNow s c) j
    if code = 1 then refSendEffect c s
    else
      let r := codedFrame s c code
      match r.1 with
      | some f => modChan c (fun (h : Channel) => Channel.push 0 f { h with window := some j }) r.2
      | none => s
  else s

/-- EXCLUSIVE_WINDOW_START. -/
def execExclusiveWindowStart (c : Fin 4) (column : Nat) (s : State) : Host.Outcome State Fault Refusal :=
  .next (windowStartEffect c column s)

end Sys2Proof.Machine
end

