-- ==== Sys2Proof/Machine/Snapshots.lean ====
section
/-! DEFINITION. What a lane does with the metrology section's unsolicited messages: snapshots (R249), logbook copies (R380) and signed
records (R265). -/

namespace Sys2Proof.Machine

/-- The lane runs its firmware. -/
def laneRuns (x : LaneState) : Bool := decide (7 ≤ x.ctl.bootStep)

/-- A milestone record: a snapshot read starts where its number is a multiple of object 4130:03. -/
def startSnapshot (k : Nat) (n legal : U64) (x : LaneState) : LaneState :=
  if laneRuns x && n.toNat % k == 0 then { x with reading := some { number := n, legal := legal, blocks := [] } } else x

/-- MILESTONE_RECEIVED. -/
def execMilestoneReceived (l : Lane) (number legal : U64) (_crc : U32) (s : State) : Host.Outcome State Fault Refusal :=
  .next (s.modLane l (startSnapshot (cfgN s 0x4130 3) number legal))

/-- All 292 blocks are held. -/
def snapshotWhole (k : Snapshot) : Bool := (List.range 292).all fun b => k.blocks.any fun p => p.1 == b

/-- The snapshot is published. -/
def publishSnapshot (x : LaneState) : LaneState :=
  match x.reading with
  | some k => if snapshotWhole k then { x with published := some k, reading := none } else x
  | none => x

/-- SNAPSHOT_PUBLISH. -/
def execSnapshotPublish (l : Lane) (s : State) : Host.Outcome State Fault Refusal := .next (s.modLane l publishSnapshot)

/-- SNAPSHOT_ABANDON: the published snapshot stays. -/
def execSnapshotAbandon (l : Lane) (s : State) : Host.Outcome State Fault Refusal :=
  .next (s.modLane l fun x => { x with reading := none })

/-- A logbook copy becomes an event of group 0x09: its number is the code, its DATA the entry's 12 bytes. -/
def logCopyLane (e : LogEntry) (x : LaneState) : LaneState :=
  if laneRuns x then
    x.event (eventData .logCopy (e.code.setWidth 8) (if e.channel = 0xFF then 127 else e.channel.toNat) e.data)
  else x

/-- LOG_COPY_RECEIVED. -/
def execLogCopyReceived (l : Lane) (e : LogEntry) (s : State) : Host.Outcome State Fault Refusal := .next (s.modLane l (logCopyLane e))

/-- A signed record reaches a running lane: the active one archives it in NAND, with those it still holds. -/
def signedReceivedEffect (l : Lane) (r : SignedRecord) (s : State) : State :=
  if laneRuns (s.lane l) then flushSigned l (s.modLane l fun x => { x with signed := x.signed ++ [r] }) else s

/-- SIGNED_RECEIVED. -/
def execSignedReceived (l : Lane) (r : SignedRecord) (s : State) : Host.Outcome State Fault Refusal := .next (signedReceivedEffect l r s)

end Sys2Proof.Machine
end

