-- ==== Sys2Proof/Machine/Dispatch.lean ====
section
/-! DEFINITION. The effect of each command: one arm for each constructor of `Instr`, one direct call of its meaning. -/

namespace Sys2Proof.Machine

def exec (i : Instr) (s : State) : Host.Outcome State Fault Refusal :=
  match i with
  | .periodBoundary => Sys2Proof.Machine.execPeriodBoundary s
  | .upFrameReceived l link f => Sys2Proof.Machine.execUpFrameReceived l link f s
  | .frameBankClose l => Sys2Proof.Machine.execFrameBankClose l s
  | .accumulatorTake l => Sys2Proof.Machine.execAccumulatorTake l s
  | .slotStart l t slot => Sys2Proof.Machine.execSlotStart l t slot s
  | .slotWriteback l t => Sys2Proof.Machine.execSlotWriteback l t s
  | .outputLatch l => Sys2Proof.Machine.execOutputLatch l s
  | .digestEntrySend l canary => Sys2Proof.Machine.execDigestEntrySend l canary s
  | .alignmentMarkerReceived offset => Sys2Proof.Machine.execAlignmentMarkerReceived offset s
  | .queueEnqueue l q entry => Sys2Proof.Machine.execQueueEnqueue l q entry s
  | .queueDequeue l q => Sys2Proof.Machine.execQueueDequeue l q s
  | .queueRetire l q => Sys2Proof.Machine.execQueueRetire l q s
  | .fastStoreWrite l region row data rowFails => Sys2Proof.Machine.execFastStoreWrite l region row data rowFails s
  | .railFault r overVoltage => Sys2Proof.Machine.execRailFault r overVoltage s
  | .railRecovered r => Sys2Proof.Machine.execRailRecovered r s
  | .railShortExcursion r => Sys2Proof.Machine.execRailShortExcursion r s
  | .resetPin micros => Sys2Proof.Machine.execResetPin micros s
  | .resetRelease => Sys2Proof.Machine.execResetRelease s
  | .junctionBoot romOk crystalOk => Sys2Proof.Machine.execJunctionBoot romOk crystalOk s
  | .laneBoot l facts => Sys2Proof.Machine.execLaneBoot l facts s
  | .activeLaneAppoint => Sys2Proof.Machine.execActiveLaneAppoint s
  | .laneBootTimeout l => Sys2Proof.Machine.execLaneBootTimeout l s
  | .laneWatchdogExpiry l => Sys2Proof.Machine.execLaneWatchdogExpiry l s
  | .powerFailWarning => Sys2Proof.Machine.execPowerFailWarning s
  | .powerFailEnd => Sys2Proof.Machine.execPowerFailEnd s
  | .powerFailSafeExit => Sys2Proof.Machine.execPowerFailSafeExit s
  | .junctionCrystalLost => Sys2Proof.Machine.execJunctionCrystalLost s
  | .metrologyCrystalLost => Sys2Proof.Machine.execMetrologyCrystalLost s
  | .metrologyCrystalReturn => Sys2Proof.Machine.execMetrologyCrystalReturn s
  | .backupCrystalLost => Sys2Proof.Machine.execBackupCrystalLost s
  | .dieTempReading t => Sys2Proof.Machine.execDieTempReading t s
  | .railFaultLatchClear mask => Sys2Proof.Machine.execRailFaultLatchClear mask s
  | .modeRequestWrite v => Sys2Proof.Machine.execModeRequestWrite v s
  | .modeRequestTaken => Sys2Proof.Machine.execModeRequestTaken s
  | .resetRequest v => Sys2Proof.Machine.execResetRequest v s
  | .safeEntry cause => Sys2Proof.Machine.execSafeEntry cause s
  | .safeRampEnd => Sys2Proof.Machine.execSafeRampEnd s
  | .safeNAssert => Sys2Proof.Machine.execSafeNAssert s
  | .resetCauseClear mask => Sys2Proof.Machine.execResetCauseClear mask s
  | .objectWrite idx sub data => Sys2Proof.Machine.execObjectWrite idx sub data s
  | .liveWrite idx sub data => Sys2Proof.Machine.execLiveWrite idx sub data s
  | .usdoTimeout session => Sys2Proof.Machine.execUsdoTimeout session s
  | .udpDatagramReceived d => Sys2Proof.Machine.execUdpDatagramReceived d s
  | .nmtStart => Sys2Proof.Machine.execNmtStart s
  | .nmtStop => Sys2Proof.Machine.execNmtStop s
  | .nmtEnterPreoperational => Sys2Proof.Machine.execNmtEnterPreoperational s
  | .nmtResetCommunication => Sys2Proof.Machine.execNmtResetCommunication s
  | .heartbeatProduce => Sys2Proof.Machine.execHeartbeatProduce s
  | .rpdoReceived n data => Sys2Proof.Machine.execRpdoReceived n data s
  | .tpdoEvent n chan => Sys2Proof.Machine.execTpdoEvent n chan s
  | .liveWritePublish => Sys2Proof.Machine.execLiveWritePublish s
  | .shadowCommit => Sys2Proof.Machine.execShadowCommit s
  | .commitChecksComplete => Sys2Proof.Machine.execCommitChecksComplete s
  | .shadowReopen => Sys2Proof.Machine.execShadowReopen s
  | .shadowSwap => Sys2Proof.Machine.execShadowSwap s
  | .shadowReload => Sys2Proof.Machine.execShadowReload s
  | .swapTaken => Sys2Proof.Machine.execSwapTaken s
  | .swapReadyReport => Sys2Proof.Machine.execSwapReadyReport s
  | .swapFlip => Sys2Proof.Machine.execSwapFlip s
  | .setCopyComplete => Sys2Proof.Machine.execSetCopyComplete s
  | .setFlagsClear mask => Sys2Proof.Machine.execSetFlagsClear mask s
  | .linkSyncAcquired l link => Sys2Proof.Machine.execLinkSyncAcquired l link s
  | .linkSyncLost l link => Sys2Proof.Machine.execLinkSyncLost l link s
  | .linkUp l link => Sys2Proof.Machine.execLinkUp l link s
  | .linkFail l link cause => Sys2Proof.Machine.execLinkFail l link cause s
  | .linkFailRetryExpiry l link => Sys2Proof.Machine.execLinkFailRetryExpiry l link s
  | .seqAdopt l link => Sys2Proof.Machine.execSeqAdopt l link s
  | .tileNop l t w => Sys2Proof.Machine.execTileNop l t w s
  | .tileLdp l t w => Sys2Proof.Machine.execTileLdp l t w s
  | .tileLdk l t w => Sys2Proof.Machine.execTileLdk l t w s
  | .tileMov l t w => Sys2Proof.Machine.execTileMov l t w s
  | .tileSto l t w => Sys2Proof.Machine.execTileSto l t w s
  | .tileAdd l t w => Sys2Proof.Machine.execTileAdd l t w s
  | .tileSub l t w => Sys2Proof.Machine.execTileSub l t w s
  | .tileMul l t w => Sys2Proof.Machine.execTileMul l t w s
  | .tileMac l t w => Sys2Proof.Machine.execTileMac l t w s
  | .tileClp l t w => Sys2Proof.Machine.execTileClp l t w s
  | .tileRnm l t w => Sys2Proof.Machine.execTileRnm l t w s
  | .tileInt l t w => Sys2Proof.Machine.execTileInt l t w s
  | .tileDrv l t w => Sys2Proof.Machine.execTileDrv l t w s
  | .tileFlt l t w => Sys2Proof.Machine.execTileFlt l t w s
  | .tileSel l t w => Sys2Proof.Machine.execTileSel l t w s
  | .tileCmp l t w => Sys2Proof.Machine.execTileCmp l t w s
  | .tileRmp l t w => Sys2Proof.Machine.execTileRmp l t w s
  | .tileTsi l t w => Sys2Proof.Machine.execTileTsi l t w s
  | .tileCap l t w => Sys2Proof.Machine.execTileCap l t w s
  | .tileChk l t w => Sys2Proof.Machine.execTileChk l t w s
  | .tileEccError l t m => Sys2Proof.Machine.execTileEccError l t m s
  | .captureArm => Sys2Proof.Machine.execCaptureArm s
  | .captureForceTrigger => Sys2Proof.Machine.execCaptureForceTrigger s
  | .captureStop => Sys2Proof.Machine.execCaptureStop s
  | .captureTrigger => Sys2Proof.Machine.execCaptureTrigger s
  | .captureComplete => Sys2Proof.Machine.execCaptureComplete s
  | .loopEnable loop => Sys2Proof.Machine.execLoopEnable loop s
  | .loopDisable loop => Sys2Proof.Machine.execLoopDisable loop s
  | .loopFaultReset loop => Sys2Proof.Machine.execLoopFaultReset loop s
  | .loopCommandTaken => Sys2Proof.Machine.execLoopCommandTaken s
  | .loopBlockEnable l loop enable => Sys2Proof.Machine.execLoopBlockEnable l loop enable s
  | .loopStopTimeout l loop => Sys2Proof.Machine.execLoopStopTimeout l loop s
  | .faultRampEnd l loop => Sys2Proof.Machine.execFaultRampEnd l loop s
  | .injectionArm => Sys2Proof.Machine.execInjectionArm s
  | .injectionStop => Sys2Proof.Machine.execInjectionStop s
  | .injectionStart => Sys2Proof.Machine.execInjectionStart s
  | .injectionComplete cause => Sys2Proof.Machine.execInjectionComplete cause s
  | .shareRunStart l => Sys2Proof.Machine.execShareRunStart l s
  | .shareApply l => Sys2Proof.Machine.execShareApply l s
  | .shareIncreaseApply l => Sys2Proof.Machine.execShareIncreaseApply l s
  | .policyNop l w => Sys2Proof.Machine.execPolicyNop l w s
  | .policyLdi l w => Sys2Proof.Machine.execPolicyLdi l w s
  | .policyLdk l w => Sys2Proof.Machine.execPolicyLdk l w s
  | .policyLkh l w => Sys2Proof.Machine.execPolicyLkh l w s
  | .policyAdd l w => Sys2Proof.Machine.execPolicyAdd l w s
  | .policySub l w => Sys2Proof.Machine.execPolicySub l w s
  | .policyMul l w => Sys2Proof.Machine.execPolicyMul l w s
  | .policyDiv l w => Sys2Proof.Machine.execPolicyDiv l w s
  | .policyMin l w => Sys2Proof.Machine.execPolicyMin l w s
  | .policyMax l w => Sys2Proof.Machine.execPolicyMax l w s
  | .policyCmp l w => Sys2Proof.Machine.execPolicyCmp l w s
  | .policySel l w => Sys2Proof.Machine.execPolicySel l w s
  | .policyOut l w => Sys2Proof.Machine.execPolicyOut l w s
  | .stringContactorHoldExpiry l str => Sys2Proof.Machine.execStringContactorHoldExpiry l str s
  | .gridStatusReceived l g => Sys2Proof.Machine.execGridStatusReceived l g s
  | .gridStatusStale l => Sys2Proof.Machine.execGridStatusStale l s
  | .federationShareSend => Sys2Proof.Machine.execFederationShareSend s
  | .federationReportSend => Sys2Proof.Machine.execFederationReportSend s
  | .federationShareReceived f => Sys2Proof.Machine.execFederationShareReceived f s
  | .federationReportReceived f => Sys2Proof.Machine.execFederationReportReceived f s
  | .federationFallback => Sys2Proof.Machine.execFederationFallback s
  | .leaderTakeover => Sys2Proof.Machine.execLeaderTakeover s
  | .reassessment l => Sys2Proof.Machine.execReassessment l s
  | .moveStepAdvance l j => Sys2Proof.Machine.execMoveStepAdvance l j s
  | .moveStepTimeout l j => Sys2Proof.Machine.execMoveStepTimeout l j s
  | .moveRampUp l j => Sys2Proof.Machine.execMoveRampUp l j s
  | .moduleTakeover l j => Sys2Proof.Machine.execModuleTakeover l j s
  | .thetaWindowClose l j => Sys2Proof.Machine.execThetaWindowClose l j s
  | .tileRelief l t => Sys2Proof.Machine.execTileRelief l t s
  | .spareTileTakeover l => Sys2Proof.Machine.execSpareTileTakeover l s
  | .rotatingTileTest l t => Sys2Proof.Machine.execRotatingTileTest l t s
  | .tileTestComplete l t pass => Sys2Proof.Machine.execTileTestComplete l t pass s
  | .nandBlockAllocate st => Sys2Proof.Machine.execNandBlockAllocate st s
  | .nandStaticRelocation => Sys2Proof.Machine.execNandStaticRelocation s
  | .thermalUpdate l => Sys2Proof.Machine.execThermalUpdate l s
  | .thermalPublish l => Sys2Proof.Machine.execThermalPublish l s
  | .sensorRelease v => Sys2Proof.Machine.execSensorRelease v s
  | .metrologyVmetWarning => Sys2Proof.Machine.execMetrologyVmetWarning s
  | .metrologyStart facts => Sys2Proof.Machine.execMetrologyStart facts s
  | .powerFailMilestone => Sys2Proof.Machine.execPowerFailMilestone s
  | .milestone commitOk => Sys2Proof.Machine.execMilestone commitOk s
  | .acEnergySample x => Sys2Proof.Machine.execAcEnergySample x s
  | .voltageEventStart k phases => Sys2Proof.Machine.execVoltageEventStart k phases s
  | .voltageEventEnd k tenMs value => Sys2Proof.Machine.execVoltageEventEnd k tenMs value s
  | .gridStatusSend meanPower freq => Sys2Proof.Machine.execGridStatusSend meanPower freq s
  | .tapRecordReceived r => Sys2Proof.Machine.execTapRecordReceived r s
  | .pulseOutputEdge out => Sys2Proof.Machine.execPulseOutputEdge out s
  | .pulseInputCount inp => Sys2Proof.Machine.execPulseInputCount inp s
  | .reconciliation inp => Sys2Proof.Machine.execReconciliation inp s
  | .sealOpen => Sys2Proof.Machine.execSealOpen s
  | .sealClose facts => Sys2Proof.Machine.execSealClose facts s
  | .barrierStatus q => Sys2Proof.Machine.execBarrierStatus q s
  | .barrierRead q milestone block => Sys2Proof.Machine.execBarrierRead q milestone block s
  | .signedRecordRead q milestone => Sys2Proof.Machine.execSignedRecordRead q milestone s
  | .barrierLogRead q area count first => Sys2Proof.Machine.execBarrierLogRead q area count first s
  | .barrierTime q m => Sys2Proof.Machine.execBarrierTime q m s
  | .barrierSessionOpen q commissioning ch account sid => Sys2Proof.Machine.execBarrierSessionOpen q commissioning ch account sid s
  | .barrierSessionClose q ch sid => Sys2Proof.Machine.execBarrierSessionClose q ch sid s
  | .barrierCalendar q segment last data => Sys2Proof.Machine.execBarrierCalendar q segment last data s
  | .barrierCalWrite q item => Sys2Proof.Machine.execBarrierCalWrite q item s
  | .barrierConfigWrite q item => Sys2Proof.Machine.execBarrierConfigWrite q item s
  | .barrierPqWrite q sag swell interruption hysteresis u0 => Sys2Proof.Machine.execBarrierPqWrite q sag swell interruption hysteresis u0 s
  | .barrierImage q segment last data => Sys2Proof.Machine.execBarrierImage q segment last data s
  | .barrierKey q => Sys2Proof.Machine.execBarrierKey q s
  | .barrierTamper q latches pfTime pfValid => Sys2Proof.Machine.execBarrierTamper q latches pfTime pfValid s
  | .milestoneReceived l number legal crc => Sys2Proof.Machine.execMilestoneReceived l number legal crc s
  | .snapshotPublish l => Sys2Proof.Machine.execSnapshotPublish l s
  | .snapshotAbandon l => Sys2Proof.Machine.execSnapshotAbandon l s
  | .logCopyReceived l e => Sys2Proof.Machine.execLogCopyReceived l e s
  | .signedReceived l r => Sys2Proof.Machine.execSignedReceived l r s
  | .junctionVerdict psA psB => Sys2Proof.Machine.execJunctionVerdict psA psB s
  | .verdictTakeEffect => Sys2Proof.Machine.execVerdictTakeEffect s
  | .crossoverOutputEnable => Sys2Proof.Machine.execCrossoverOutputEnable s
  | .plannedCrossoverRequest v => Sys2Proof.Machine.execPlannedCrossoverRequest v s
  | .plannedCrossoverTaken => Sys2Proof.Machine.execPlannedCrossoverTaken s
  | .plannedCrossover => Sys2Proof.Machine.execPlannedCrossover s
  | .releaseExcludedLane v => Sys2Proof.Machine.execReleaseExcludedLane v s
  | .failedLaneRelease l => Sys2Proof.Machine.execFailedLaneRelease l s
  | .resyncJoinNamed => Sys2Proof.Machine.execResyncJoinNamed s
  | .snapshotSlowCapture => Sys2Proof.Machine.execSnapshotSlowCapture s
  | .resyncJoin => Sys2Proof.Machine.execResyncJoin s
  | .resyncComplete => Sys2Proof.Machine.execResyncComplete s
  | .memoryMarchBlock l ok => Sys2Proof.Machine.execMemoryMarchBlock l ok s
  | .receiverLoopTest l link ok => Sys2Proof.Machine.execReceiverLoopTest l link ok s
  | .junctionRestart => Sys2Proof.Machine.execJunctionRestart s
  | .junctionRomCheck ok => Sys2Proof.Machine.execJunctionRomCheck ok s
  | .rtcSiteTimeCompare => Sys2Proof.Machine.execRtcSiteTimeCompare s
  | .rtcAlarm => Sys2Proof.Machine.execRtcAlarm s
  | .rtcWrite v => Sys2Proof.Machine.execRtcWrite v s
  | .pfiWake => Sys2Proof.Machine.execPfiWake s
  | .tamperInputLatch inp => Sys2Proof.Machine.execTamperInputLatch inp s
  | .tamperHandover => Sys2Proof.Machine.execTamperHandover s
  | .tamperLatchClear mask => Sys2Proof.Machine.execTamperLatchClear mask s
  | .securityTamper cls scope => Sys2Proof.Machine.execSecurityTamper cls scope s
  | .pilotStateAccepted n code => Sys2Proof.Machine.execPilotStateAccepted n code s
  | .plugDetected n => Sys2Proof.Machine.execPlugDetected n s
  | .pilotX2Start n => Sys2Proof.Machine.execPilotX2Start n s
  | .cmSlacParmReq n => Sys2Proof.Machine.execCmSlacParmReq n s
  | .cmStartAttenChar n => Sys2Proof.Machine.execCmStartAttenChar n s
  | .cmSlacMatch n => Sys2Proof.Machine.execCmSlacMatch n s
  | .cmValidateReq n => Sys2Proof.Machine.execCmValidateReq n s
  | .seccDiscoveryReq n => Sys2Proof.Machine.execSeccDiscoveryReq n s
  | .supportedAppProtocolReq n offered => Sys2Proof.Machine.execSupportedAppProtocolReq n offered s
  | .sessionSetupReq n => Sys2Proof.Machine.execSessionSetupReq n s
  | .authorizationReq n r => Sys2Proof.Machine.execAuthorizationReq n r s
  | .sessionStart n => Sys2Proof.Machine.execSessionStart n s
  | .chargeParameterDiscoveryReq n v => Sys2Proof.Machine.execChargeParameterDiscoveryReq n v s
  | .cableCheckPass n => Sys2Proof.Machine.execCableCheckPass n s
  | .prechargeReq n v => Sys2Proof.Machine.execPrechargeReq n v s
  | .chargeLoopReq n v => Sys2Proof.Machine.execChargeLoopReq n v s
  | .vehicleStopRequest n => Sys2Proof.Machine.execVehicleStopRequest n s
  | .hostAuthorizationWrite n v => Sys2Proof.Machine.execHostAuthorizationWrite n v s
  | .isolationStateWrite n v => Sys2Proof.Machine.execIsolationStateWrite n v s
  | .isolationStale n => Sys2Proof.Machine.execIsolationStale n s
  | .sessionTimeout n t => Sys2Proof.Machine.execSessionTimeout n t s
  | .thermalHoldExpiry n => Sys2Proof.Machine.execThermalHoldExpiry n s
  | .sessionEnd n cause => Sys2Proof.Machine.execSessionEnd n cause s
  | .sessionEnded n => Sys2Proof.Machine.execSessionEnded n s
  | .sessionIdle n => Sys2Proof.Machine.execSessionIdle n s
  | .bridgePeerGone n => Sys2Proof.Machine.execBridgePeerGone n s
  | .canFrameReceived c f => Sys2Proof.Machine.execCanFrameReceived c f s
  | .canFrameSent c ok => Sys2Proof.Machine.execCanFrameSent c ok s
  | .canFrameCancel c q pos started => Sys2Proof.Machine.execCanFrameCancel c q pos started s
  | .canBusOff c => Sys2Proof.Machine.execCanBusOff c s
  | .canBusOffRecovery c => Sys2Proof.Machine.execCanBusOffRecovery c s
  | .channelSleep c => Sys2Proof.Machine.execChannelSleep c s
  | .channelWakeCommand c => Sys2Proof.Machine.execChannelWakeCommand c s
  | .channelRestart c => Sys2Proof.Machine.execChannelRestart c s
  | .channelWake c k => Sys2Proof.Machine.execChannelWake c k s
  | .wakeD => Sys2Proof.Machine.execWakeD s
  | .referenceMessageSend c => Sys2Proof.Machine.execReferenceMessageSend c s
  | .referenceMessageReceived c m => Sys2Proof.Machine.execReferenceMessageReceived c m s
  | .scheduleLost c => Sys2Proof.Machine.execScheduleLost c s
  | .exclusiveWindowStart c column => Sys2Proof.Machine.execExclusiveWindowStart c column s
  | .windowEnd c => Sys2Proof.Machine.execWindowEnd c s
  | .ptpSyncReceived time offsetNs => Sys2Proof.Machine.execPtpSyncReceived time offsetNs s
  | .ptpAnnounceReceived identity rank => Sys2Proof.Machine.execPtpAnnounceReceived identity rank s
  | .ptpDelayResp delayNs => Sys2Proof.Machine.execPtpDelayResp delayNs s
  | .ptpLockLost => Sys2Proof.Machine.execPtpLockLost s
  | .beaconSend => Sys2Proof.Machine.execBeaconSend s
  | .trievoFrameSend slot => Sys2Proof.Machine.execTrievoFrameSend slot s
  | .trievoDataReceived f => Sys2Proof.Machine.execTrievoDataReceived f s
  | .trievoAckReceived f => Sys2Proof.Machine.execTrievoAckReceived f s
  | .trievoAssocReqReceived f => Sys2Proof.Machine.execTrievoAssocReqReceived f s
  | .trievoStatusReceived f => Sys2Proof.Machine.execTrievoStatusReceived f s
  | .ackTimeout => Sys2Proof.Machine.execAckTimeout s
  | .phaseLearning addr acks => Sys2Proof.Machine.execPhaseLearning addr acks s
  | .peerLost addr => Sys2Proof.Machine.execPeerLost addr s
  | .mailboxTransmit data => Sys2Proof.Machine.execMailboxTransmit data s
  | .mailboxReceiveRead => Sys2Proof.Machine.execMailboxReceiveRead s
  | .keyInstall m => Sys2Proof.Machine.execKeyInstall m s
  | .keyReplace m => Sys2Proof.Machine.execKeyReplace m s
  | .keyInvalidate m => Sys2Proof.Machine.execKeyInvalidate m s
  | .ownerAuthorityReplace m => Sys2Proof.Machine.execOwnerAuthorityReplace m s
  | .lifeCycleChange m => Sys2Proof.Machine.execLifeCycleChange m s
  | .keyGenerate m => Sys2Proof.Machine.execKeyGenerate m s
  | .keyStatement => Sys2Proof.Machine.execKeyStatement s
  | .certificationRequest => Sys2Proof.Machine.execCertificationRequest s
  | .keystoreSign r => Sys2Proof.Machine.execKeystoreSign r s
  | .keystoreVerify r signature => Sys2Proof.Machine.execKeystoreVerify r signature s
  | .keystoreKeyAgreement r => Sys2Proof.Machine.execKeystoreKeyAgreement r s
  | .keystoreEncrypt r => Sys2Proof.Machine.execKeystoreEncrypt r s
  | .keystoreDecrypt r => Sys2Proof.Machine.execKeystoreDecrypt r s
  | .keystoreWrap r => Sys2Proof.Machine.execKeystoreWrap r s
  | .keystoreDerive r child => Sys2Proof.Machine.execKeystoreDerive r child s
  | .keystoreHash r => Sys2Proof.Machine.execKeystoreHash r s
  | .keyReplicationReceived envelopeOk => Sys2Proof.Machine.execKeyReplicationReceived envelopeOk s
  | .eventWrite l => Sys2Proof.Machine.execEventWrite l s
  | .eventFlush l => Sys2Proof.Machine.execEventFlush l s
  | .eventArchive => Sys2Proof.Machine.execEventArchive s
  | .eventRead => Sys2Proof.Machine.execEventRead s
  | .eventClear v => Sys2Proof.Machine.execEventClear v s
  | .nandRequest q op ans => Sys2Proof.Machine.execNandRequest q op ans s
  | .readDisturbRefresh block => Sys2Proof.Machine.execReadDisturbRefresh block s
  | .scrubPage block worstBits ageDays => Sys2Proof.Machine.execScrubPage block worstBits ageDays s
  | .loadProfileWrite => Sys2Proof.Machine.execLoadProfileWrite s
  | .vbusAttach => Sys2Proof.Machine.execVbusAttach s
  | .serviceOpen c => Sys2Proof.Machine.execServiceOpen c s
  | .serviceData c => Sys2Proof.Machine.execServiceData c s
  | .serviceClose c => Sys2Proof.Machine.execServiceClose c s
  | .serviceStatus c => Sys2Proof.Machine.execServiceStatus c s
  | .serviceErase c => Sys2Proof.Machine.execServiceErase c s
  | .activationRolling => Sys2Proof.Machine.execActivationRolling s
  | .activationFullRestart => Sys2Proof.Machine.execActivationFullRestart s
  | .activationAbort => Sys2Proof.Machine.execActivationAbort s
  | .rollingSequenceAdvance => Sys2Proof.Machine.execRollingSequenceAdvance s
  | .hostConfirm v => Sys2Proof.Machine.execHostConfirm v s
  | .healthConfirm l => Sys2Proof.Machine.execHealthConfirm l s
  | .unconfirmedTimeout l => Sys2Proof.Machine.execUnconfirmedTimeout l s
  | .backupEntry => Sys2Proof.Machine.execBackupEntry s
  | .plugLost n => Sys2Proof.Machine.execPlugLost n s
  | .protocolError n => Sys2Proof.Machine.execProtocolError n s
  | .barrierMessageError q unknownOp => Sys2Proof.Machine.execBarrierMessageError q unknownOp s
  | .ptpHoldoverExpiry => Sys2Proof.Machine.execPtpHoldoverExpiry s
  | .vbusDetach => Sys2Proof.Machine.execVbusDetach s

end Sys2Proof.Machine
end

