-- ==== Sys2Proof/Machine/Idle.lean ====
section
/-! DEFINITION. What passes while no command waits: one tick of the backup crystal, 2^-15 s (log entry 4). The RTC counts, the metrology
crystal runs on with legal time and its slew, pulse outputs fall after their width, the protocol stack reads its receive queues, and a
keystore operation ends. -/

namespace Sys2Proof.Machine

/-- Metrology crystal cycles in a tick: 24.576 MHz x 2^-15 s. -/
def tickCycles : Nat := 750

/-- Whole cycles of slew, at 500 ppm, that fall within the tick. -/
def slewDue (c : MetCtl) : Nat := (c.cycles + tickCycles) / 2000 - c.cycles / 2000

/-- A tick of the metrology crystal: legal time follows it with its slew while set (R219). -/
def metTick (c : MetCtl) : MetCtl :=
  if c.st = .halted ∧ c.halt = 2 then c
  else if c.legalSet then
    let d := clampInt (-(slewDue c : Int)) (slewDue c) c.slew
    { c with cycles := c.cycles + tickCycles, legal := ((c.legal : Int) + tickCycles + d).toNat, slew := c.slew - d }
  else { c with cycles := c.cycles + tickCycles, unsetFor := c.unsetFor + tickCycles }

/-- A pulse output falls once its width has passed (R236). -/
def pulseFall (now : Nat) (p : PulseOut) : PulseOut :=
  match p.lastEdge with
  | some e => if p.high && decide (e + pulseCycles p ≤ now) then { p with high := false } else p
  | none => p

/-- The metrology section after a tick. -/
def metIdle (m : Metro) : Metro :=
  let m := m.onCtl metTick
  { m with pout := m.pout.map (pulseFall m.ctl.cycles) }

/-- The protocol stack reads RX0, then RX1 (R327). -/
def Channel.serve (h : Channel) : Channel := { h with rx := h.rx.map fun _ => [] }

/-- The operation of a lane's keystore ends. -/
def endOperation (x : LaneState) : LaneState := { x with ks := (let k := x.ks; { k with busy := false }) }

/-- The backup domain counts while one of its supplies is in range (R288). -/
def rtcTick (s : State) : State :=
  if s.rails.out.contains .vbk && s.rails.out.contains .vio then s
  else { s with bk := (let b := s.bk; { b with rtc := b.rtc + 1 }) }

/-- One tick with no command waiting. -/
def idleTick (s : State) : State :=
  let s := modMet metIdle (rtcTick s)
  bothLanes endOperation { s with chans := s.chans.map Channel.serve }

end Sys2Proof.Machine
end

