-- ==== Sys2Proof/WellFormed.lean ====
section
/-! DEFINITION. Which commands are well formed. The types of the operands already bound every number that names a lane, link, bay,
channel or slot; what remains is said here: an instruction word that the reel checks refuse (codes 5 to 7 of Table 6.8 and
of R167), a message under a row of another kind, a code outside its table. -/

namespace Sys2Proof

/-- A row's message carries its OP, or one that FORMAT refuses. -/
def opMatches (m : KeyMsg) (op : Nat) : Bool := m.op.toNat == op || m.op == 0 || decide (6 < m.op.toNat)

/-- The command is one the block can meet (log entry 6). -/
def Instr.wf (c : Instr) : Bool :=
  match c with
  | .periodBoundary => true
  | .upFrameReceived _ _ _ => true
  | .frameBankClose _ => true
  | .accumulatorTake _ => true
  | .slotStart _ _ _ => true
  | .slotWriteback _ _ => true
  | .outputLatch _ => true
  | .digestEntrySend _ _ => true
  | .alignmentMarkerReceived _ => true
  | .queueEnqueue _ _ _ => true
  | .queueDequeue _ _ => true
  | .queueRetire _ _ => true
  | .fastStoreWrite _ _ _ _ _ => true
  | .railFault _ _ => true
  | .railRecovered _ => true
  | .railShortExcursion _ => true
  | .resetPin _ => true
  | .resetRelease => true
  | .junctionBoot _ _ => true
  | .laneBoot _ _ => true
  | .activeLaneAppoint => true
  | .laneBootTimeout _ => true
  | .laneWatchdogExpiry _ => true
  | .powerFailWarning => true
  | .powerFailEnd => true
  | .powerFailSafeExit => true
  | .junctionCrystalLost => true
  | .metrologyCrystalLost => true
  | .metrologyCrystalReturn => true
  | .backupCrystalLost => true
  | .dieTempReading _ => true
  | .railFaultLatchClear _ => true
  | .modeRequestWrite _ => true
  | .modeRequestTaken => true
  | .resetRequest _ => true
  | .safeEntry _ => true
  | .safeRampEnd => true
  | .safeNAssert => true
  | .resetCauseClear _ => true
  | .objectWrite _ _ _ => true
  | .liveWrite _ _ _ => true
  | .usdoTimeout _ => true
  | .udpDatagramReceived _ => true
  | .nmtStart => true
  | .nmtStop => true
  | .nmtEnterPreoperational => true
  | .nmtResetCommunication => true
  | .heartbeatProduce => true
  | .rpdoReceived _ _ => true
  | .tpdoEvent _ _ => true
  | .liveWritePublish => true
  | .shadowCommit => true
  | .commitChecksComplete => true
  | .shadowReopen => true
  | .shadowSwap => true
  | .shadowReload => true
  | .swapTaken => true
  | .swapReadyReport => true
  | .swapFlip => true
  | .setCopyComplete => true
  | .setFlagsClear _ => true
  | .linkSyncAcquired _ _ => true
  | .linkSyncLost _ _ => true
  | .linkUp _ _ => true
  | .linkFail _ _ _ => true
  | .linkFailRetryExpiry _ _ => true
  | .seqAdopt _ _ => true
  | .tileNop _ _ w => Machine.tileNopOk w
  | .tileLdp _ _ w => Machine.tileLdpOk w
  | .tileLdk _ _ w => Machine.tileLdkOk w
  | .tileMov _ _ w => Machine.tileMovOk w
  | .tileSto _ _ w => Machine.tileStoOk w
  | .tileAdd _ _ w => Machine.tileAddOk w
  | .tileSub _ _ w => Machine.tileAddOk w
  | .tileMul _ _ w => Machine.tileMulOk w
  | .tileMac _ _ w => Machine.tileMulOk w
  | .tileClp _ _ w => Machine.tileClpOk w
  | .tileRnm _ _ w => Machine.tileRnmOk w
  | .tileInt _ _ w => Machine.tileIntOk w
  | .tileDrv _ _ w => Machine.tileDrvOk w
  | .tileFlt _ _ w => Machine.tileFltOk w
  | .tileSel _ _ w => Machine.tileSelOk w
  | .tileCmp _ _ w => Machine.tileCmpOk w
  | .tileRmp _ _ w => Machine.tileRmpOk w
  | .tileTsi _ _ w => Machine.tileTsiOk w
  | .tileCap _ _ w => Machine.tileCapOk w
  | .tileChk _ _ w => Machine.tileChkOk w
  | .tileEccError _ _ _ => true
  | .captureArm => true
  | .captureForceTrigger => true
  | .captureStop => true
  | .captureTrigger => true
  | .captureComplete => true
  | .loopEnable _ => true
  | .loopDisable _ => true
  | .loopFaultReset _ => true
  | .loopCommandTaken => true
  | .loopBlockEnable _ _ _ => true
  | .loopStopTimeout _ _ => true
  | .faultRampEnd _ _ => true
  | .injectionArm => true
  | .injectionStop => true
  | .injectionStart => true
  | .injectionComplete _ => true
  | .shareRunStart _ => true
  | .shareApply _ => true
  | .shareIncreaseApply _ => true
  | .policyNop _ w => Machine.policyNopOk w
  | .policyLdi _ w => Machine.policyLdiOk w
  | .policyLdk _ w => Machine.policyLdkOk w
  | .policyLkh _ w => Machine.policyLkhOk w
  | .policyAdd _ w => Machine.policyAddOk w
  | .policySub _ w => Machine.policySubOk w
  | .policyMul _ w => Machine.policyMulOk w
  | .policyDiv _ w => Machine.policyDivOk w
  | .policyMin _ w => Machine.policyMinOk w
  | .policyMax _ w => Machine.policyMaxOk w
  | .policyCmp _ w => Machine.policyCmpOk w
  | .policySel _ w => Machine.policySelOk w
  | .policyOut _ w => Machine.policyOutOk w
  | .stringContactorHoldExpiry _ _ => true
  | .gridStatusReceived _ _ => true
  | .gridStatusStale _ => true
  | .federationShareSend => true
  | .federationReportSend => true
  | .federationShareReceived _ => true
  | .federationReportReceived _ => true
  | .federationFallback => true
  | .leaderTakeover => true
  | .reassessment _ => true
  | .moveStepAdvance _ _ => true
  | .moveStepTimeout _ _ => true
  | .moveRampUp _ _ => true
  | .moduleTakeover _ _ => true
  | .thetaWindowClose _ _ => true
  | .tileRelief _ _ => true
  | .spareTileTakeover _ => true
  | .rotatingTileTest _ _ => true
  | .tileTestComplete _ _ _ => true
  | .nandBlockAllocate _ => true
  | .nandStaticRelocation => true
  | .thermalUpdate _ => true
  | .thermalPublish _ => true
  | .sensorRelease _ => true
  | .metrologyVmetWarning => true
  | .metrologyStart _ => true
  | .powerFailMilestone => true
  | .milestone _ => true
  | .acEnergySample _ => true
  | .voltageEventStart _ _ => true
  | .voltageEventEnd _ _ _ => true
  | .gridStatusSend _ _ => true
  | .tapRecordReceived _ => true
  | .pulseOutputEdge _ => true
  | .pulseInputCount _ => true
  | .reconciliation _ => true
  | .sealOpen => true
  | .sealClose _ => true
  | .barrierStatus _ => true
  | .barrierRead _ _ _ => true
  | .signedRecordRead _ _ => true
  | .barrierLogRead _ _ _ _ => true
  | .barrierTime _ _ => true
  | .barrierSessionOpen _ _ _ _ _ => true
  | .barrierSessionClose _ _ _ => true
  | .barrierCalendar _ _ _ _ => true
  | .barrierCalWrite _ _ => true
  | .barrierConfigWrite _ _ => true
  | .barrierPqWrite _ _ _ _ _ _ => true
  | .barrierImage _ _ _ _ => true
  | .barrierKey _ => true
  | .barrierTamper _ _ _ _ => true
  | .milestoneReceived _ _ _ _ => true
  | .snapshotPublish _ => true
  | .snapshotAbandon _ => true
  | .logCopyReceived _ _ => true
  | .signedReceived _ _ => true
  | .junctionVerdict _ _ => true
  | .verdictTakeEffect => true
  | .crossoverOutputEnable => true
  | .plannedCrossoverRequest _ => true
  | .plannedCrossoverTaken => true
  | .plannedCrossover => true
  | .releaseExcludedLane _ => true
  | .failedLaneRelease _ => true
  | .resyncJoinNamed => true
  | .snapshotSlowCapture => true
  | .resyncJoin => true
  | .resyncComplete => true
  | .memoryMarchBlock _ _ => true
  | .receiverLoopTest _ _ _ => true
  | .junctionRestart => true
  | .junctionRomCheck _ => true
  | .rtcSiteTimeCompare => true
  | .rtcAlarm => true
  | .rtcWrite _ => true
  | .pfiWake => true
  | .tamperInputLatch _ => true
  | .tamperHandover => true
  | .tamperLatchClear _ => true
  | .securityTamper _ _ => true
  | .pilotStateAccepted _ code => code != 5 && decide (code.toNat ≤ 6)
  | .plugDetected _ => true
  | .pilotX2Start _ => true
  | .cmSlacParmReq _ => true
  | .cmStartAttenChar _ => true
  | .cmSlacMatch _ => true
  | .cmValidateReq _ => true
  | .seccDiscoveryReq _ => true
  | .supportedAppProtocolReq _ _ => true
  | .sessionSetupReq _ => true
  | .authorizationReq _ _ => true
  | .sessionStart _ => true
  | .chargeParameterDiscoveryReq _ _ => true
  | .cableCheckPass _ => true
  | .prechargeReq _ _ => true
  | .chargeLoopReq _ _ => true
  | .vehicleStopRequest _ => true
  | .hostAuthorizationWrite _ _ => true
  | .isolationStateWrite _ _ => true
  | .isolationStale _ => true
  | .sessionTimeout _ _ => true
  | .thermalHoldExpiry _ => true
  | .sessionEnd _ cause => cause != 0 && decide (cause.toNat ≤ 14)
  | .sessionEnded _ => true
  | .sessionIdle _ => true
  | .bridgePeerGone _ => true
  | .canFrameReceived _ _ => true
  | .canFrameSent _ _ => true
  | .canFrameCancel _ _ _ _ => true
  | .canBusOff _ => true
  | .canBusOffRecovery _ => true
  | .channelSleep _ => true
  | .channelWakeCommand _ => true
  | .channelRestart _ => true
  | .channelWake _ _ => true
  | .wakeD => true
  | .referenceMessageSend _ => true
  | .referenceMessageReceived _ _ => true
  | .scheduleLost _ => true
  | .exclusiveWindowStart _ _ => true
  | .windowEnd _ => true
  | .ptpSyncReceived _ _ => true
  | .ptpAnnounceReceived _ _ => true
  | .ptpDelayResp _ => true
  | .ptpLockLost => true
  | .beaconSend => true
  | .trievoFrameSend _ => true
  | .trievoDataReceived f => f.ftype == 1
  | .trievoAckReceived f => f.ftype == 2
  | .trievoAssocReqReceived f => f.ftype == 3
  | .trievoStatusReceived f => f.ftype == 6
  | .ackTimeout => true
  | .phaseLearning _ acks => acks.length == 3
  | .peerLost _ => true
  | .mailboxTransmit _ => true
  | .mailboxReceiveRead => true
  | .keyInstall m => opMatches m 1
  | .keyReplace m => opMatches m 2
  | .keyInvalidate m => opMatches m 3
  | .ownerAuthorityReplace m => opMatches m 4
  | .lifeCycleChange m => opMatches m 5
  | .keyGenerate m => opMatches m 6
  | .keyStatement => true
  | .certificationRequest => true
  | .keystoreSign _ => true
  | .keystoreVerify _ _ => true
  | .keystoreKeyAgreement _ => true
  | .keystoreEncrypt _ => true
  | .keystoreDecrypt _ => true
  | .keystoreWrap _ => true
  | .keystoreDerive _ _ => true
  | .keystoreHash _ => true
  | .keyReplicationReceived _ => true
  | .eventWrite _ => true
  | .eventFlush _ => true
  | .eventArchive => true
  | .eventRead => true
  | .eventClear _ => true
  | .nandRequest _ _ _ => true
  | .readDisturbRefresh _ => true
  | .scrubPage _ _ _ => true
  | .loadProfileWrite => true
  | .vbusAttach => true
  | .serviceOpen _ => true
  | .serviceData _ => true
  | .serviceClose _ => true
  | .serviceStatus _ => true
  | .serviceErase _ => true
  | .activationRolling => true
  | .activationFullRestart => true
  | .activationAbort => true
  | .rollingSequenceAdvance => true
  | .hostConfirm _ => true
  | .healthConfirm _ => true
  | .unconfirmedTimeout _ => true
  | .backupEntry => true
  | .plugLost _ => true
  | .protocolError _ => true
  | .barrierMessageError _ _ => true
  | .ptpHoldoverExpiry => true
  | .vbusDetach => true

end Sys2Proof
end

