-- ==== Sys2Proof/Safety.lean ====
section
/-! DEFINITION. What claims say about a run: the parts of the block and of a lane, and what it means that a command touches
only some of them. -/

namespace Sys2Proof.Machine

/-- The parts of the block outside the lanes: one for each unit of `State`. -/
inductive Part where
  | pending | free | clk | modes | rails | bk | jct | met | sets | comm | veh | chans | site | tri | life | fs | nand | upd | recs | taps
  deriving DecidableEq, Repr, Inhabited

/-- The parts of a lane: one for each unit of `LaneState`. -/
inductive LanePart where
  | ctl | temp | health | bank0 | bank1 | links | out | latched | tiles | relay | bayLoops | modLoops | strLoops | slowLoops | share | wp | th | queues | roleMap | evq | recd | ks | slots | grid | reading | published | signed
  deriving DecidableEq, Repr, Inhabited

/-- Every part outside the lanes but the queue of waiting commands. -/
abbrev allUnits : List Part :=
  [.free, .clk, .modes, .rails, .bk, .jct, .met, .sets, .comm, .veh, .chans, .site, .tri, .life, .fs, .nand, .upd, .recs, .taps]

/-- Every part of a lane. -/
abbrev allLane : List LanePart :=
  [.ctl, .temp, .health, .bank0, .bank1, .links, .out, .latched, .tiles, .relay, .bayLoops, .modLoops, .strLoops, .slowLoops, .share, .wp, .th, .queues, .roleMap, .evq, .recd, .ks, .slots, .grid, .reading, .published, .signed]

/-- Every part of a lane but the map of queue roles, which a lane reset keeps (R29). -/
abbrev allButRoles : List LanePart :=
  [.ctl, .temp, .health, .bank0, .bank1, .links, .out, .latched, .tiles, .relay, .bayLoops, .modLoops, .strLoops, .slowLoops, .share, .wp, .th, .queues, .evq, .recd, .ks, .slots, .grid, .reading, .published, .signed]

/-- s and t hold part p alike. -/
def Part.same (p : Part) (s t : State) : Prop :=
  match p with
  | .pending => t.pending = s.pending
  | .free => t.free = s.free
  | .clk => t.clk = s.clk
  | .modes => t.modes = s.modes
  | .rails => t.rails = s.rails
  | .bk => t.bk = s.bk
  | .jct => t.jct = s.jct
  | .met => t.met = s.met
  | .sets => t.sets = s.sets
  | .comm => t.comm = s.comm
  | .veh => t.veh = s.veh
  | .chans => t.chans = s.chans
  | .site => t.site = s.site
  | .tri => t.tri = s.tri
  | .life => t.life = s.life
  | .fs => t.fs = s.fs
  | .nand => t.nand = s.nand
  | .upd => t.upd = s.upd
  | .recs => t.recs = s.recs
  | .taps => t.taps = s.taps

/-- Lanes x and y hold part q alike. -/
def LanePart.same (q : LanePart) (x y : LaneState) : Prop :=
  match q with
  | .ctl => y.ctl = x.ctl
  | .temp => y.temp = x.temp
  | .health => y.health = x.health
  | .bank0 => y.bank0 = x.bank0
  | .bank1 => y.bank1 = x.bank1
  | .links => y.links = x.links
  | .out => y.out = x.out
  | .latched => y.latched = x.latched
  | .tiles => y.tiles = x.tiles
  | .relay => y.relay = x.relay
  | .bayLoops => y.bayLoops = x.bayLoops
  | .modLoops => y.modLoops = x.modLoops
  | .strLoops => y.strLoops = x.strLoops
  | .slowLoops => y.slowLoops = x.slowLoops
  | .share => y.share = x.share
  | .wp => y.wp = x.wp
  | .th => y.th = x.th
  | .queues => y.queues = x.queues
  | .roleMap => y.roleMap = x.roleMap
  | .evq => y.evq = x.evq
  | .recd => y.recd = x.recd
  | .ks => y.ks = x.ks
  | .slots => y.slots = x.slots
  | .grid => y.grid = x.grid
  | .reading => y.reading = x.reading
  | .published => y.published = x.published
  | .signed => y.signed = x.signed

/-- Lanes x and y differ at most in the parts qs. -/
def LaneOnly (qs : List LanePart) (x y : LaneState) : Prop := ∀ q, q ∉ qs → q.same x y

/-- Between s and t at most the parts dev changed outside the lanes, the parts own in lane l, and the parts rest in the
other lane. -/
def Only (dev : List Part) (l : Lane) (own rest : List LanePart) (s t : State) : Prop :=
  (∀ p, p ∉ dev → p.same s t) ∧ LaneOnly own (s.lane l) (t.lane l) ∧ LaneOnly rest (s.lane l.other) (t.lane l.other)

/-- Where o is a next state, it differs from s at most so. -/
def OnlyNext (dev : List Part) (l : Lane) (own rest : List LanePart) (s : State) (o : Host.Outcome State Fault Refusal) : Prop :=
  ∀ t, o = .next t → Only dev l own rest s t

/-- The lists of a lane hold one entry for each thing they number: 64 links with their frame slots and output words, 10 tiles, the loops of
24 bays, 96 modules, 8 strings and 15 slow slots, 128 queues and their roles, and the modules, bays and strings of its blocks. -/
structure LaneShape (x : LaneState) : Prop where
  links : x.links.length = 64
  bank0 : x.bank0.length = 64
  bank1 : x.bank1.length = 64
  out : x.out.length = 64
  latched : x.latched.length = 64
  tiles : x.tiles.length = 10
  bayLoops : x.bayLoops.length = 24
  modLoops : x.modLoops.length = 96
  strLoops : x.strLoops.length = 8
  slowLoops : x.slowLoops.length = 15
  queues : x.queues.length = 128
  roleMap : x.roleMap.length = 128
  mods : x.wp.mods.length = 96
  strs : x.share.strs.length = 8
  bayAcc : x.share.bayAcc.length = 24
  polS : x.share.pol.s.length = 16

/-- Every list of the block holds one entry for each thing it numbers: both lanes', 24 vehicle links, 4 site-bus channels with their 4 transmit
and 2 receive queues, 32 energy channels and the section's 32 sessions, 4 pulse outputs and 4 pulse inputs, 4 tamper inputs, 4 dictionary
sessions and 16 transmit PDOs. -/
structure Shape (s : State) : Prop where
  laneA : LaneShape s.laneA
  laneB : LaneShape s.laneB
  veh : s.veh.links.length = 24
  chans : s.chans.length = 4
  queues : ∀ c ∈ s.chans, c.tx.length = 4 ∧ c.rx.length = 2
  dc : s.met.dc.length = 32
  bill : s.met.bill.regs.sessions.length = 32
  pout : s.met.pout.length = 4
  pin : s.met.pin.length = 4
  inputs : s.bk.inputs.length = 4
  sessions : s.comm.sessions.length = 4
  tpdo : s.comm.tpdoAt.length = 16

/-- Every hardware queue of a lane balances: its entries and its credit make up its depth (R26). -/
def LaneBalanced (x : LaneState) : Prop := ∀ q < 128, (nth x.queues q).credit + (nth x.queues q).entries.length = queueDepth q

/-- The hardware queues of both lanes balance. -/
def Balanced (s : State) : Prop := LaneBalanced s.laneA ∧ LaneBalanced s.laneB

/-- A store in canonical form: keys ascending, and every entry one that an unlisted key does not read as. -/
def Store.Canonical (listed : Nat → List Byte → Prop) (st : Store) : Prop := Store.sorted st = true ∧ ∀ p ∈ st, listed p.1 p.2

/-- v is a value of the object at key that differs from the object's default. -/
def NotDefault (key : Nat) (v : List Byte) : Prop := ∃ i k r, key = objKey i k ∧ findRow i k = some r ∧ v ≠ r.dfltBytes

/-- v is not empty: the form of a store whose unlisted keys read as empty. -/
def NotEmpty (_ : Nat) (v : List Byte) : Prop := v ≠ []

/-- Every store of the block is canonical: the configuration sets, the published live values, the rw objects and the fast store. -/
structure StoresCanonical (s : State) : Prop where
  active : Store.Canonical NotDefault s.sets.active
  shadow : Store.Canonical NotDefault s.sets.shadow
  published : Store.Canonical NotEmpty s.sets.published
  rw : Store.Canonical (fun k v => NotEmpty k v ∨ NotDefault k v) s.comm.rw
  fs : Store.Canonical NotEmpty s.fs.cells

/-- The invariant of the block: its lists keep their lengths, its queues balance, its stores stay canonical. -/
structure Inv (s : State) : Prop where
  shape : Shape s
  balanced : Balanced s
  stores : StoresCanonical s

/-- Command c completes at s: it answers a next state, and P holds of that state. -/
def Completes (c : Instr) (s : State) (P : State → Prop) : Prop := ∃ t, exec c s = .next t ∧ P t

/-- Instruction c leaves the slot that runs on tile t with the registers k, one more instruction counted, and changes nothing else. -/
def TileBecomes (c : Instr) (s : State) (l : Lane) (t : Nat) (k : TileRun) : Prop :=
  exec c s = .next (setRunning l t { k with icount := k.icount + 1 } s)

/-- Verdict code of lane l in a decision. -/
def Decision.code (d : Decision) (l : Lane) : Nat :=
  match l with
  | .a => d.codeA.toNat
  | .b => d.codeB.toNat

/-- The section's response that stands at lane l. -/
def respOf (s : State) (l : Lane) : Option BarrierResp :=
  match l with
  | .a => s.met.ctl.respA
  | .b => s.met.ctl.respB

/-- Request c of q is answered with op, status st and no payload, and nothing else of the metrology section changes. -/
def TurnedAway (c : Instr) (s : State) (q : BarrierReq) (op st : Nat) : Prop :=
  Completes c s fun t =>
    respOf t q.lane = some { lane := q.lane, tag := q.tag, op := BitVec.ofNat 8 op, status := BitVec.ofNat 8 st, payload := [] } ∧
    t.met.bill = s.met.bill ∧ t.met.ac = s.met.ac ∧ t.met.dc = s.met.dc ∧ t.met.ctl.legal = s.met.ctl.legal ∧ t.met.ctl.sealedWrites = s.met.ctl.sealedWrites

/-- Request c of q is answered with op and the payload d, status 0. -/
def AnsweredWith (c : Instr) (s : State) (q : BarrierReq) (op : Nat) (d : List Byte) (P : Metro → Prop) : Prop :=
  Completes c s fun t =>
    respOf t q.lane = some { lane := q.lane, tag := q.tag, op := BitVec.ofNat 8 op, status := 0, payload := d } ∧ P t.met

/-- The twenty tile instructions with one word. -/
def tileRows (l : Lane) (t : Fin 10) (w : TileArgs) : List Instr :=
  [.tileNop l t w, .tileLdp l t w, .tileLdk l t w, .tileMov l t w, .tileSto l t w, .tileAdd l t w, .tileSub l t w, .tileMul l t w,
    .tileMac l t w, .tileClp l t w, .tileRnm l t w, .tileInt l t w, .tileDrv l t w, .tileFlt l t w, .tileSel l t w, .tileCmp l t w,
    .tileRmp l t w, .tileTsi l t w, .tileCap l t w, .tileChk l t w]

/-- Instruction c writes v to score register d of lane l, and leaves the other score registers, the flag F and the outputs. -/
def PolicyWrites (c : Instr) (s : State) (l : Lane) (d : Nat) (v : Int) : Prop :=
  Completes c s fun t =>
    let p := (s.lane l).share.pol
    let r := (t.lane l).share.pol
    r.reg d = v ∧ (∀ e, e ≠ d → r.reg e = p.reg e) ∧ r.f = p.f ∧ r.outs = p.outs ∧ r.inputs = p.inputs

/-- Session n of t ended on a cause that arose at s: STOPPING, the cause recorded, the period noted, no timer runs, one more session ended. -/
def SessionStops (s t : State) (n cause : Nat) : Prop :=
  (sess t n).st = .stopping ∧ (sess t n).cause = BitVec.ofNat 8 cause ∧ (sess t n).stopAt = s.clk.period ∧ (sess t n).timers = Timers.none ∧
  t.veh.ended = s.veh.ended + 1

/-- Command c is one of the six update messages on m. -/
def IsKeyRow (m : KeyMsg) (c : Instr) : Prop :=
  c = .keyInstall m ∨ c = .keyReplace m ∨ c = .keyInvalidate m ∨ c = .ownerAuthorityReplace m ∨ c = .lifeCycleChange m ∨ c = .keyGenerate m

/-- Command c is one of the seven requests that use the stored key of r; b is the usage bit and fam the algorithms it asks for. -/
def IsKeyRequest (r : KeyReq) (b : Nat) (fam : U8 → Bool) (c : Instr) : Prop :=
  (b = 0 ∧ fam = isSignAlg ∧ (c = .keystoreSign r ∨ ∃ sig, c = .keystoreVerify r sig)) ∨ (b = 1 ∧ fam = isAgreeAlg ∧ c = .keystoreKeyAgreement r) ∨
  (b = 2 ∧ fam = isAesAlg ∧ (c = .keystoreEncrypt r ∨ c = .keystoreDecrypt r)) ∨ (b = 4 ∧ fam = isAesAlg ∧ c = .keystoreWrap r) ∨
  (b = 3 ∧ fam = isKdfAlg ∧ ∃ child, c = .keystoreDerive r child)

/-- Request c of lane l is answered with st and d by the keystore of that lane, which keeps its slots and its counter. -/
def KeyAnswers (c : Instr) (s : State) (l : Lane) (st : Nat) (d : List Byte) : Prop :=
  Completes c s fun t =>
    (t.lane l).ks.answer = some (BitVec.ofNat 8 st, d) ∧ (t.lane l).ks.lastStatus = BitVec.ofNat 8 st ∧
    (t.lane l).ks.slots = (s.lane l).ks.slots ∧ (t.lane l).ks.counter = (s.lane l).ks.counter

end Sys2Proof.Machine
end

