-- ==== Sys2Proof/Machine/Footprint.lean ====
section
/-! DEFINITION. The footprint of each command: the parts of the block and of the lanes it can change. Everything else it leaves as it
is; a part in the footprint changes only as the command's meaning says. -/

namespace Sys2Proof.Machine

/-- What a command can change: units outside the lanes, parts of lane `lane`, parts of the other lane. -/
structure Footprint where
  units : List Part
  lane : Lane
  own : List LanePart
  rest : List LanePart
  deriving DecidableEq, Repr

/-- Footprint of each command. -/
def footprint (c : Instr) : Footprint :=
  match c with
  | .periodBoundary => ⟨[.free, .clk, .modes, .met, .comm, .veh, .chans, .site, .taps], .a, [.health, .bank0, .bank1, .links, .bayLoops,
      .modLoops, .strLoops, .slowLoops, .share, .wp, .evq, .slots], [.health, .bank0, .bank1, .links, .bayLoops, .modLoops, .strLoops, .slowLoops, .share, .wp, .evq, .slots]⟩
  | .upFrameReceived l _ _ => ⟨[.met, .veh, .taps], l, [.bank0, .bank1, .links, .evq], [.evq]⟩
  | .frameBankClose l => ⟨[.free, .taps], l, [.ctl, .health, .bank0, .bank1, .links], []⟩
  | .accumulatorTake l => ⟨[], l, [.share, .th], []⟩
  | .slotStart l _ _ => ⟨[], l, [.tiles, .bayLoops, .modLoops, .strLoops, .slowLoops], []⟩
  | .slotWriteback l _ => ⟨[], l, [.out, .tiles, .relay, .bayLoops, .modLoops, .strLoops, .slowLoops], []⟩
  | .outputLatch l => ⟨[.clk, .veh], l, [.ctl, .health, .out, .latched, .tiles, .relay, .bayLoops, .modLoops, .strLoops, .slowLoops, .share,
      .wp, .queues, .evq], [.evq]⟩
  | .digestEntrySend l _ => ⟨[.jct], l, [.ctl], []⟩
  | .alignmentMarkerReceived _ => ⟨[], .a, [.ctl, .health, .grid], [.ctl, .health, .grid]⟩
  | .queueEnqueue l _ _ => ⟨[.chans], l, [.queues], []⟩
  | .queueDequeue l _ => ⟨[], l, [.queues], []⟩
  | .queueRetire l _ => ⟨[.clk, .chans], l, [.queues, .roleMap, .evq], [.evq]⟩
  | .fastStoreWrite l _ _ _ _ => ⟨[.clk, .sets, .fs], l, [.evq], [.evq]⟩
  | .railFault _ _ => ⟨[.free, .clk, .modes, .rails, .bk, .jct, .comm, .chans], .a, allButRoles, allButRoles⟩
  | .railRecovered _ => ⟨[.clk, .modes, .rails, .bk, .jct, .sets, .comm, .veh, .chans, .site, .tri, .life, .fs, .nand, .upd, .recs, .taps],
      .a, allLane, allLane⟩
  | .railShortExcursion _ => ⟨[.rails], .a, [], []⟩
  | .resetPin _ => ⟨[.clk, .modes, .rails, .bk, .jct, .sets, .comm, .veh, .chans, .site, .tri, .life, .fs, .nand, .upd, .recs, .taps],
      .a, allLane, allLane⟩
  | .resetRelease => ⟨[.clk, .modes, .rails, .bk, .jct, .sets, .comm, .veh, .chans, .site, .tri, .life, .fs, .nand, .upd, .recs, .taps],
      .a, allLane, allLane⟩
  | .junctionBoot _ _ => ⟨[.jct], .a, [.health], [.health]⟩
  | .laneBoot l _ => ⟨[.free, .clk, .bk, .jct, .sets, .life, .nand, .upd, .recs], l, allButRoles, [.evq, .ks]⟩
  | .activeLaneAppoint => ⟨[.free, .clk, .modes, .bk, .jct, .met, .comm, .chans, .site, .upd], .a, allButRoles, allButRoles⟩
  | .laneBootTimeout l => ⟨[.bk, .jct], l, allButRoles, []⟩
  | .laneWatchdogExpiry l => ⟨[.bk], l, allButRoles, []⟩
  | .powerFailWarning => ⟨[.bk, .met], .a, [.evq], [.evq]⟩
  | .powerFailEnd => ⟨[.bk, .met], .a, [], []⟩
  | .powerFailSafeExit => ⟨[.clk, .modes, .rails, .bk, .jct, .sets, .comm, .veh, .chans, .site, .tri, .life, .fs, .nand, .upd, .recs, .taps],
      .a, allLane, allLane⟩
  | .junctionCrystalLost => ⟨[.jct], .a, [.health, .evq], [.health, .evq]⟩
  | .metrologyCrystalLost => ⟨[.met], .a, [], []⟩
  | .metrologyCrystalReturn => ⟨[.met], .a, [], []⟩
  | .backupCrystalLost => ⟨[.bk, .site], .a, [.evq], [.evq]⟩
  | .dieTempReading _ => ⟨[.free, .modes, .bk, .jct, .met, .comm, .chans], .a, [.temp, .evq], [.temp, .evq]⟩
  | .railFaultLatchClear _ => ⟨[.bk, .comm], .a, [], []⟩
  | .modeRequestWrite _ => ⟨[.modes, .comm], .a, [], []⟩
  | .modeRequestTaken => ⟨[.free, .modes, .bk, .jct, .met, .comm, .veh, .chans, .recs], .a, [.bayLoops, .modLoops, .strLoops, .slowLoops, .evq,
      .recd], [.bayLoops, .modLoops, .strLoops, .slowLoops, .evq, .recd]⟩
  | .resetRequest _ => ⟨[.free, .clk, .modes, .rails, .bk, .jct, .sets, .comm, .veh, .chans, .site, .tri, .life, .fs, .nand, .upd, .recs,
      .taps], .a, allLane, allLane⟩
  | .safeEntry _ => ⟨[.free, .modes, .jct, .comm, .chans], .a, [.evq], [.evq]⟩
  | .safeRampEnd => ⟨[.modes, .jct], .a, [.bayLoops, .modLoops, .strLoops, .slowLoops], [.bayLoops, .modLoops, .strLoops, .slowLoops]⟩
  | .safeNAssert => ⟨[.clk, .modes, .rails, .bk, .jct, .sets, .comm, .veh, .chans, .site, .tri, .life, .fs, .nand, .upd, .recs, .taps],
      .a, allLane, allLane⟩
  | .resetCauseClear _ => ⟨[.bk, .comm], .a, [], []⟩
  | .objectWrite _ _ _ => ⟨allUnits, .a, allLane, allLane⟩
  | .liveWrite _ _ _ => ⟨allUnits, .a, allLane, allLane⟩
  | .usdoTimeout _ => ⟨[.comm], .a, [], []⟩
  | .udpDatagramReceived _ => ⟨allUnits, .a, allLane, allLane⟩
  | .nmtStart => ⟨[.comm], .a, [], []⟩
  | .nmtStop => ⟨[.comm], .a, [], []⟩
  | .nmtEnterPreoperational => ⟨[.comm], .a, [], []⟩
  | .nmtResetCommunication => ⟨[.comm, .chans], .a, [], []⟩
  | .heartbeatProduce => ⟨[.comm, .chans], .a, [], []⟩
  | .rpdoReceived _ _ => ⟨allUnits, .a, allLane, allLane⟩
  | .tpdoEvent _ _ => ⟨[.comm, .chans], .a, [], []⟩
  | .liveWritePublish => ⟨[.met, .sets, .veh], .a, [.ctl, .evq], [.ctl, .evq]⟩
  | .shadowCommit => ⟨[.sets, .comm], .a, [], []⟩
  | .commitChecksComplete => ⟨[.sets], .a, [], []⟩
  | .shadowReopen => ⟨[.sets, .comm], .a, [], []⟩
  | .shadowSwap => ⟨[.sets, .comm], .a, [], []⟩
  | .shadowReload => ⟨[.sets, .comm], .a, [], []⟩
  | .swapTaken => ⟨[.sets], .a, [.share], [.share]⟩
  | .swapReadyReport => ⟨[.sets], .a, [.ctl], [.ctl]⟩
  | .swapFlip => ⟨[.free, .clk, .met, .sets, .veh, .chans, .tri, .nand], .a, [.ctl, .links, .tiles, .bayLoops, .modLoops, .strLoops, .slowLoops,
      .wp, .th, .evq], [.ctl, .links, .tiles, .bayLoops, .modLoops, .strLoops, .slowLoops, .wp, .th, .evq]⟩
  | .setCopyComplete => ⟨[.sets], .a, [], []⟩
  | .setFlagsClear _ => ⟨[.sets, .comm], .a, [], []⟩
  | .linkSyncAcquired l _ => ⟨[], l, [.links, .evq], []⟩
  | .linkSyncLost l _ => ⟨[], l, [.links, .bayLoops, .modLoops, .strLoops, .slowLoops, .evq], []⟩
  | .linkUp l _ => ⟨[.taps], l, [.bank0, .bank1, .links, .evq], []⟩
  | .linkFail l _ _ => ⟨[], l, [.links, .bayLoops, .modLoops, .strLoops, .slowLoops, .evq], []⟩
  | .linkFailRetryExpiry l _ => ⟨[], l, [.links, .evq], []⟩
  | .seqAdopt l _ => ⟨[], l, [.links, .evq], []⟩
  | .tileNop l _ _ => ⟨[], l, [.tiles], []⟩
  | .tileLdp l _ _ => ⟨[], l, [.tiles], []⟩
  | .tileLdk l _ _ => ⟨[], l, [.tiles], []⟩
  | .tileMov l _ _ => ⟨[], l, [.tiles], []⟩
  | .tileSto l _ _ => ⟨[], l, [.tiles], []⟩
  | .tileAdd l _ _ => ⟨[], l, [.tiles], []⟩
  | .tileSub l _ _ => ⟨[], l, [.tiles], []⟩
  | .tileMul l _ _ => ⟨[], l, [.tiles], []⟩
  | .tileMac l _ _ => ⟨[], l, [.tiles], []⟩
  | .tileClp l _ _ => ⟨[], l, [.tiles], []⟩
  | .tileRnm l _ _ => ⟨[], l, [.tiles], []⟩
  | .tileInt l _ _ => ⟨[], l, [.tiles], []⟩
  | .tileDrv l _ _ => ⟨[], l, [.tiles], []⟩
  | .tileFlt l _ _ => ⟨[], l, [.tiles], []⟩
  | .tileSel l _ _ => ⟨[], l, [.tiles], []⟩
  | .tileCmp l _ _ => ⟨[], l, [.tiles], []⟩
  | .tileRmp l _ _ => ⟨[], l, [.tiles], []⟩
  | .tileTsi l _ _ => ⟨[], l, [.tiles], []⟩
  | .tileCap l _ _ => ⟨[.clk], l, [.tiles], []⟩
  | .tileChk l _ _ => ⟨[], l, [.tiles], []⟩
  | .tileEccError l _ _ => ⟨[], l, [.health, .tiles], []⟩
  | .captureArm => ⟨[.clk, .comm], .a, [], []⟩
  | .captureForceTrigger => ⟨[.clk, .comm], .a, [], []⟩
  | .captureStop => ⟨[.clk, .comm], .a, [], []⟩
  | .captureTrigger => ⟨[.clk], .a, [], []⟩
  | .captureComplete => ⟨[.clk], .a, [], []⟩
  | .loopEnable _ => ⟨[.clk, .comm], .a, [.evq], [.evq]⟩
  | .loopDisable _ => ⟨[.clk, .comm], .a, [.evq], [.evq]⟩
  | .loopFaultReset _ => ⟨[.clk, .comm], .a, [.evq], [.evq]⟩
  | .loopCommandTaken => ⟨[.free, .clk, .met], .a, [.bayLoops, .modLoops, .strLoops, .slowLoops, .evq], [.bayLoops, .modLoops, .strLoops,
      .slowLoops, .evq]⟩
  | .loopBlockEnable l _ _ => ⟨[.free, .clk, .met], l, [.bayLoops, .modLoops, .strLoops, .slowLoops, .evq], [.evq]⟩
  | .loopStopTimeout l _ => ⟨[.clk], l, [.ctl, .out, .relay, .bayLoops, .modLoops, .strLoops, .slowLoops, .share, .wp, .evq], [.evq]⟩
  | .faultRampEnd l _ => ⟨[.met, .veh], l, [.out, .bayLoops, .modLoops, .strLoops, .slowLoops, .share, .wp, .evq], [.evq]⟩
  | .injectionArm => ⟨[.clk, .comm], .a, [], []⟩
  | .injectionStop => ⟨[.clk, .comm], .a, [.bayLoops, .modLoops, .strLoops, .slowLoops], [.bayLoops, .modLoops, .strLoops, .slowLoops]⟩
  | .injectionStart => ⟨[.clk], .a, [.bayLoops, .modLoops, .strLoops, .slowLoops], [.bayLoops, .modLoops, .strLoops, .slowLoops]⟩
  | .injectionComplete _ => ⟨[.clk], .a, [.bayLoops, .modLoops, .strLoops, .slowLoops], [.bayLoops, .modLoops, .strLoops, .slowLoops]⟩
  | .shareRunStart l => ⟨[.met, .veh], l, [.share, .evq], [.evq]⟩
  | .shareApply l => ⟨[.clk], l, [.bayLoops, .modLoops, .strLoops, .slowLoops, .share, .evq], []⟩
  | .shareIncreaseApply l => ⟨[.clk], l, [.bayLoops, .modLoops, .strLoops, .slowLoops, .share, .evq], []⟩
  | .policyNop l _ => ⟨[], l, [.share], []⟩
  | .policyLdi l _ => ⟨[], l, [.share], []⟩
  | .policyLdk l _ => ⟨[], l, [.share], []⟩
  | .policyLkh l _ => ⟨[], l, [.share], []⟩
  | .policyAdd l _ => ⟨[], l, [.share], []⟩
  | .policySub l _ => ⟨[], l, [.share], []⟩
  | .policyMul l _ => ⟨[], l, [.share], []⟩
  | .policyDiv l _ => ⟨[], l, [.share], []⟩
  | .policyMin l _ => ⟨[], l, [.share], []⟩
  | .policyMax l _ => ⟨[], l, [.share], []⟩
  | .policyCmp l _ => ⟨[], l, [.share], []⟩
  | .policySel l _ => ⟨[], l, [.share], []⟩
  | .policyOut l _ => ⟨[], l, [.share], []⟩
  | .stringContactorHoldExpiry l _ => ⟨[], l, [.share], []⟩
  | .gridStatusReceived l _ => ⟨[.met, .veh], l, [.evq, .grid], [.evq]⟩
  | .gridStatusStale l => ⟨[.met, .veh], l, [.share, .evq, .grid], [.evq]⟩
  | .federationShareSend => ⟨[.clk, .chans], .a, [], []⟩
  | .federationReportSend => ⟨[.clk, .chans], .a, [], []⟩
  | .federationShareReceived _ => ⟨[.clk], .a, [.evq], [.evq]⟩
  | .federationReportReceived _ => ⟨[.clk], .a, [], []⟩
  | .federationFallback => ⟨[.clk], .a, [.evq], [.evq]⟩
  | .leaderTakeover => ⟨[.clk], .a, [.evq], [.evq]⟩
  | .reassessment l => ⟨[], l, [.wp], []⟩
  | .moveStepAdvance l _ => ⟨[.clk], l, [.bayLoops, .modLoops, .strLoops, .slowLoops, .wp, .evq], []⟩
  | .moveStepTimeout l _ => ⟨[.clk], l, [.ctl, .out, .relay, .bayLoops, .modLoops, .strLoops, .slowLoops, .share, .wp, .evq], [.evq]⟩
  | .moveRampUp l _ => ⟨[], l, [.bayLoops, .modLoops, .strLoops, .slowLoops, .wp, .evq], []⟩
  | .moduleTakeover l _ => ⟨[], l, [.wp], []⟩
  | .thetaWindowClose l _ => ⟨[.clk], l, [.wp, .evq], [.evq]⟩
  | .tileRelief l _ => ⟨[.clk], l, [.tiles, .bayLoops, .modLoops, .strLoops, .slowLoops, .wp, .evq], [.evq]⟩
  | .spareTileTakeover l => ⟨[.clk], l, [.tiles, .bayLoops, .modLoops, .strLoops, .slowLoops, .wp, .evq], [.evq]⟩
  | .rotatingTileTest l _ => ⟨[.clk], l, [.ctl, .health, .tiles, .bayLoops, .modLoops, .strLoops, .slowLoops, .wp, .evq], [.evq]⟩
  | .tileTestComplete l _ _ => ⟨[.clk], l, [.ctl, .health, .tiles, .evq], [.evq]⟩
  | .nandBlockAllocate _ => ⟨[.clk, .nand], .a, [.evq], [.evq]⟩
  | .nandStaticRelocation => ⟨[.clk, .nand], .a, [.evq], [.evq]⟩
  | .thermalUpdate l => ⟨[], l, [.th, .evq], []⟩
  | .thermalPublish l => ⟨[], l, [.wp, .th], []⟩
  | .sensorRelease _ => ⟨[.comm], .a, [.th], [.th]⟩
  | .metrologyVmetWarning => ⟨[.met], .a, [], []⟩
  | .metrologyStart _ => ⟨[.met], .a, [], []⟩
  | .powerFailMilestone => ⟨[.met], .a, [], []⟩
  | .milestone _ => ⟨[.clk, .met], .a, [.evq], [.evq]⟩
  | .acEnergySample _ => ⟨[.met], .a, [], []⟩
  | .voltageEventStart _ _ => ⟨[.met], .a, [], []⟩
  | .voltageEventEnd _ _ _ => ⟨[.met], .a, [], []⟩
  | .gridStatusSend _ _ => ⟨[.free, .met], .a, [], []⟩
  | .tapRecordReceived _ => ⟨[.met, .taps], .a, [], []⟩
  | .pulseOutputEdge _ => ⟨[.met], .a, [], []⟩
  | .pulseInputCount _ => ⟨[.met], .a, [], []⟩
  | .reconciliation _ => ⟨[.met], .a, [], []⟩
  | .sealOpen => ⟨[.met], .a, [], []⟩
  | .sealClose _ => ⟨[.met], .a, [], []⟩
  | .barrierStatus _ => ⟨[.free, .met, .veh], .a, [.evq, .grid], [.evq, .grid]⟩
  | .barrierRead _ _ _ => ⟨[.met], .a, [.reading], [.reading]⟩
  | .signedRecordRead _ _ => ⟨[.met], .a, [], []⟩
  | .barrierLogRead _ _ _ _ => ⟨[.free, .met], .a, [], []⟩
  | .barrierTime _ _ => ⟨[.met], .a, [], []⟩
  | .barrierSessionOpen _ _ _ _ _ => ⟨[.met], .a, [], []⟩
  | .barrierSessionClose _ _ _ => ⟨[.met], .a, [], []⟩
  | .barrierCalendar _ _ _ _ => ⟨[.met], .a, [], []⟩
  | .barrierCalWrite _ _ => ⟨[.free, .met], .a, [], []⟩
  | .barrierConfigWrite _ _ => ⟨[.free, .met], .a, [], []⟩
  | .barrierPqWrite _ _ _ _ _ _ => ⟨[.met], .a, [], []⟩
  | .barrierImage _ _ _ _ => ⟨[.met], .a, [], []⟩
  | .barrierKey _ => ⟨[.met], .a, [], []⟩
  | .barrierTamper _ _ _ _ => ⟨[.bk, .met], .a, [], []⟩
  | .milestoneReceived l _ _ _ => ⟨[], l, [.reading], []⟩
  | .snapshotPublish l => ⟨[], l, [.reading, .published], []⟩
  | .snapshotAbandon l => ⟨[], l, [.reading], []⟩
  | .logCopyReceived l _ => ⟨[], l, [.evq], []⟩
  | .signedReceived l _ => ⟨[.clk, .nand], l, [.evq, .signed], [.evq]⟩
  | .junctionVerdict _ _ => ⟨[.bk, .jct], .a, [.evq], [.evq]⟩
  | .verdictTakeEffect => ⟨[.free, .clk, .modes, .bk, .jct, .met, .sets, .comm, .veh, .chans, .tri, .nand, .upd], .a, allButRoles, allButRoles⟩
  | .crossoverOutputEnable => ⟨[.free, .clk, .modes, .jct, .comm, .chans], .a, [.bayLoops, .modLoops, .strLoops, .slowLoops, .evq], [.bayLoops,
      .modLoops, .strLoops, .slowLoops, .evq]⟩
  | .plannedCrossoverRequest _ => ⟨[.jct, .comm], .a, [], []⟩
  | .plannedCrossoverTaken => ⟨[.jct], .a, [], []⟩
  | .plannedCrossover => ⟨[.free, .clk, .modes, .bk, .jct, .comm, .chans, .tri, .nand], .a, allButRoles, allButRoles⟩
  | .releaseExcludedLane _ => ⟨[.jct, .comm], .a, allButRoles, allButRoles⟩
  | .failedLaneRelease l => ⟨[.jct], l, [], []⟩
  | .resyncJoinNamed => ⟨[.jct], .a, [], []⟩
  | .snapshotSlowCapture => ⟨[.jct], .a, [], []⟩
  | .resyncJoin => ⟨[.jct], .a, [.ctl, .links, .out, .latched, .tiles, .relay, .bayLoops, .modLoops, .strLoops, .slowLoops, .share, .wp, .th,
      .ks], [.ctl, .links, .out, .latched, .tiles, .relay, .bayLoops, .modLoops, .strLoops, .slowLoops, .share, .wp, .th, .ks]⟩
  | .resyncComplete => ⟨[.free, .clk, .modes, .jct, .comm, .chans], .a, [.ctl, .bayLoops, .modLoops, .strLoops, .slowLoops, .evq,
      .slots], [.ctl, .bayLoops, .modLoops, .strLoops, .slowLoops, .evq, .slots]⟩
  | .memoryMarchBlock l _ => ⟨[], l, [.ctl, .health, .evq], []⟩
  | .receiverLoopTest l _ _ => ⟨[.clk], l, [.ctl, .health, .evq], [.evq]⟩
  | .junctionRestart => ⟨[.jct], .a, [.health], [.health]⟩
  | .junctionRomCheck _ => ⟨[.jct], .a, [.health, .evq], [.health, .evq]⟩
  | .rtcSiteTimeCompare => ⟨[.bk, .site], .a, [.evq], [.evq]⟩
  | .rtcAlarm => ⟨[.bk], .a, [.evq], [.evq]⟩
  | .rtcWrite _ => ⟨[.bk, .comm, .site], .a, [.evq], [.evq]⟩
  | .pfiWake => ⟨[.bk], .a, [], []⟩
  | .tamperInputLatch _ => ⟨[.bk], .a, [], []⟩
  | .tamperHandover => ⟨[], .a, [.evq], [.evq]⟩
  | .tamperLatchClear _ => ⟨[.bk, .comm], .a, [], []⟩
  | .securityTamper _ _ => ⟨[.free, .clk, .modes, .rails, .bk, .jct, .sets, .comm, .veh, .chans, .site, .tri, .life, .fs, .nand, .upd, .recs,
      .taps], .a, allLane, allLane⟩
  | .pilotStateAccepted _ _ => ⟨[.met, .veh], .a, [.evq], [.evq]⟩
  | .plugDetected _ => ⟨[.veh], .a, [], []⟩
  | .pilotX2Start _ => ⟨[.veh], .a, [], []⟩
  | .cmSlacParmReq _ => ⟨[.veh], .a, [], []⟩
  | .cmStartAttenChar _ => ⟨[.veh], .a, [], []⟩
  | .cmSlacMatch _ => ⟨[.free, .veh], .a, [], []⟩
  | .cmValidateReq _ => ⟨[.veh], .a, [], []⟩
  | .seccDiscoveryReq _ => ⟨[.met, .veh], .a, [.evq], [.evq]⟩
  | .supportedAppProtocolReq _ _ => ⟨[.met, .veh], .a, [.evq], [.evq]⟩
  | .sessionSetupReq _ => ⟨[.met, .veh], .a, [.evq], [.evq]⟩
  | .authorizationReq _ _ => ⟨[.met, .veh], .a, [.evq], [.evq]⟩
  | .sessionStart _ => ⟨[.met, .veh], .a, [.evq], [.evq]⟩
  | .chargeParameterDiscoveryReq _ _ => ⟨[.met, .veh], .a, [.evq], [.evq]⟩
  | .cableCheckPass _ => ⟨[.veh], .a, [], []⟩
  | .prechargeReq _ _ => ⟨[.met, .veh], .a, [.evq], [.evq]⟩
  | .chargeLoopReq _ _ => ⟨[.met, .veh], .a, [.evq], [.evq]⟩
  | .vehicleStopRequest _ => ⟨[.met, .veh], .a, [.evq], [.evq]⟩
  | .hostAuthorizationWrite _ _ => ⟨[.met, .comm, .veh], .a, [.evq], [.evq]⟩
  | .isolationStateWrite _ _ => ⟨[.met, .comm, .veh], .a, [.evq], [.evq]⟩
  | .isolationStale _ => ⟨[.met, .veh], .a, [.evq], [.evq]⟩
  | .sessionTimeout _ _ => ⟨[.met, .veh], .a, [.evq], [.evq]⟩
  | .thermalHoldExpiry _ => ⟨[.met, .veh], .a, [.evq], [.evq]⟩
  | .sessionEnd _ _ => ⟨[.met, .veh], .a, [.evq], [.evq]⟩
  | .sessionEnded _ => ⟨[.veh], .a, [], []⟩
  | .sessionIdle _ => ⟨[.veh], .a, [], []⟩
  | .bridgePeerGone _ => ⟨[.met, .veh], .a, [.evq], [.evq]⟩
  | .canFrameReceived _ _ => ⟨[.chans], .a, [], []⟩
  | .canFrameSent _ _ => ⟨[.chans], .a, [], []⟩
  | .canFrameCancel _ _ _ _ => ⟨[.chans], .a, [], []⟩
  | .canBusOff _ => ⟨[.chans], .a, [.evq], [.evq]⟩
  | .canBusOffRecovery _ => ⟨[.chans], .a, [], []⟩
  | .channelSleep _ => ⟨[.comm, .chans], .a, [], []⟩
  | .channelWakeCommand _ => ⟨[.comm, .chans], .a, [.evq], [.evq]⟩
  | .channelRestart _ => ⟨[.comm, .chans], .a, [], []⟩
  | .channelWake _ _ => ⟨[.chans], .a, [.evq], [.evq]⟩
  | .wakeD => ⟨[.bk], .a, [], []⟩
  | .referenceMessageSend _ => ⟨[.chans], .a, [], []⟩
  | .referenceMessageReceived _ _ => ⟨[.chans, .site], .a, [.evq], [.evq]⟩
  | .scheduleLost _ => ⟨[.chans, .site], .a, [.evq], [.evq]⟩
  | .exclusiveWindowStart _ _ => ⟨[.clk, .comm, .chans], .a, [], []⟩
  | .windowEnd _ => ⟨[.chans], .a, [], []⟩
  | .ptpSyncReceived _ _ => ⟨[.site], .a, [.evq], [.evq]⟩
  | .ptpAnnounceReceived _ _ => ⟨[.site], .a, [], []⟩
  | .ptpDelayResp _ => ⟨[.site], .a, [], []⟩
  | .ptpLockLost => ⟨[.site], .a, [.evq], [.evq]⟩
  | .beaconSend => ⟨[.tri], .a, [], []⟩
  | .trievoFrameSend _ => ⟨[.tri], .a, [], []⟩
  | .trievoDataReceived _ => ⟨[.tri], .a, [.share], [.share]⟩
  | .trievoAckReceived _ => ⟨[.tri], .a, [.share], [.share]⟩
  | .trievoAssocReqReceived _ => ⟨[.tri], .a, [.share], [.share]⟩
  | .trievoStatusReceived _ => ⟨[.tri], .a, [.share], [.share]⟩
  | .ackTimeout => ⟨[.tri], .a, [.evq], [.evq]⟩
  | .phaseLearning _ _ => ⟨[.tri], .a, [], []⟩
  | .peerLost _ => ⟨[.tri], .a, [.evq], [.evq]⟩
  | .mailboxTransmit _ => ⟨[.comm, .tri], .a, [], []⟩
  | .mailboxReceiveRead => ⟨[.comm, .tri], .a, [], []⟩
  | .keyInstall _ => ⟨[.free, .clk, .modes, .rails, .bk, .jct, .sets, .comm, .veh, .chans, .site, .tri, .life, .fs, .nand, .upd, .recs, .taps],
      .a, allLane, allLane⟩
  | .keyReplace _ => ⟨[.free, .clk, .modes, .rails, .bk, .jct, .sets, .comm, .veh, .chans, .site, .tri, .life, .fs, .nand, .upd, .recs, .taps],
      .a, allLane, allLane⟩
  | .keyInvalidate _ => ⟨[.free, .clk, .modes, .rails, .bk, .jct, .sets, .comm, .veh, .chans, .site, .tri, .life, .fs, .nand, .upd, .recs,
      .taps], .a, allLane, allLane⟩
  | .ownerAuthorityReplace _ => ⟨[.free, .clk, .modes, .rails, .bk, .jct, .sets, .comm, .veh, .chans, .site, .tri, .life, .fs, .nand, .upd,
      .recs, .taps], .a, allLane, allLane⟩
  | .lifeCycleChange _ => ⟨[.free, .clk, .modes, .rails, .bk, .jct, .sets, .comm, .veh, .chans, .site, .tri, .life, .fs, .nand, .upd, .recs,
      .taps], .a, allLane, allLane⟩
  | .keyGenerate _ => ⟨[.free, .clk, .modes, .rails, .bk, .jct, .sets, .comm, .veh, .chans, .site, .tri, .life, .fs, .nand, .upd, .recs, .taps],
      .a, allLane, allLane⟩
  | .keyStatement => ⟨[.free, .comm, .life], .a, [.ks], [.ks]⟩
  | .certificationRequest => ⟨[.free, .comm, .life], .a, [.ks], [.ks]⟩
  | .keystoreSign _ => ⟨[.free], .a, [.ks], [.ks]⟩
  | .keystoreVerify _ _ => ⟨[], .a, [.ks], [.ks]⟩
  | .keystoreKeyAgreement _ => ⟨[], .a, [.ks], [.ks]⟩
  | .keystoreEncrypt _ => ⟨[.free], .a, [.ks], [.ks]⟩
  | .keystoreDecrypt _ => ⟨[], .a, [.ks], [.ks]⟩
  | .keystoreWrap _ => ⟨[], .a, [.ks], [.ks]⟩
  | .keystoreDerive _ _ => ⟨[.clk], .a, [.evq, .ks], [.evq, .ks]⟩
  | .keystoreHash _ => ⟨[], .a, [.ks], [.ks]⟩
  | .keyReplicationReceived _ => ⟨[.life], .a, [.ks], [.ks]⟩
  | .eventWrite l => ⟨[.recs], l, [.evq, .recd], []⟩
  | .eventFlush l => ⟨[.recs], l, [.recd], []⟩
  | .eventArchive => ⟨[.clk, .nand], .a, [.evq, .recd], [.evq, .recd]⟩
  | .eventRead => ⟨[.free, .comm, .recs], .a, [], []⟩
  | .eventClear _ => ⟨[.comm], .a, [.evq, .recd], [.evq, .recd]⟩
  | .nandRequest _ _ _ => ⟨[.free, .clk, .nand], .a, [.evq, .slots], [.evq, .slots]⟩
  | .readDisturbRefresh _ => ⟨[.clk, .nand], .a, [.evq], [.evq]⟩
  | .scrubPage _ _ _ => ⟨[.clk, .nand], .a, [.evq], [.evq]⟩
  | .loadProfileWrite => ⟨[.free, .clk, .nand], .a, [.evq], [.evq]⟩
  | .vbusAttach => ⟨[.upd], .a, [], []⟩
  | .serviceOpen _ => ⟨[.upd], .a, [], []⟩
  | .serviceData _ => ⟨[.upd], .a, [], []⟩
  | .serviceClose _ => ⟨[.jct, .nand, .upd], .a, allButRoles, allButRoles⟩
  | .serviceStatus _ => ⟨[.upd], .a, [], []⟩
  | .serviceErase _ => ⟨[.upd], .a, [], []⟩
  | .activationRolling => ⟨[.comm, .upd], .a, [], []⟩
  | .activationFullRestart => ⟨[.modes, .met, .comm, .veh, .upd], .a, [.bayLoops, .modLoops, .strLoops, .slowLoops, .evq], [.bayLoops,
      .modLoops, .strLoops, .slowLoops, .evq]⟩
  | .activationAbort => ⟨[.free, .modes, .bk, .jct, .met, .comm, .veh, .chans, .upd], .a, allButRoles, allButRoles⟩
  | .rollingSequenceAdvance => ⟨[.free, .clk, .modes, .rails, .bk, .jct, .sets, .comm, .veh, .chans, .site, .tri, .life, .fs, .nand, .upd,
      .recs, .taps], .a, allLane, allLane⟩
  | .hostConfirm _ => ⟨[.comm, .upd], .a, [], []⟩
  | .healthConfirm l => ⟨[], l, [.slots], []⟩
  | .unconfirmedTimeout l => ⟨[.free, .modes, .bk, .jct, .met, .comm, .veh, .chans, .upd], l, allButRoles, [.bayLoops, .modLoops, .strLoops,
      .slowLoops, .evq]⟩
  | .backupEntry => ⟨[.clk, .modes, .rails, .bk, .jct, .sets, .comm, .veh, .chans, .site, .tri, .life, .fs, .nand, .upd, .recs, .taps],
      .a, allLane, allLane⟩
  | .plugLost _ => ⟨[.met, .veh], .a, [.evq], [.evq]⟩
  | .protocolError _ => ⟨[.met, .veh], .a, [.evq], [.evq]⟩
  | .barrierMessageError _ _ => ⟨[.met], .a, [], []⟩
  | .ptpHoldoverExpiry => ⟨[.site], .a, [.evq], [.evq]⟩
  | .vbusDetach => ⟨[.upd], .a, [], []⟩

end Sys2Proof.Machine
end

