-- ==== Sys2Proof/Certificates/Slice0/Obligations.lean ====
section
/-! DEFINITION. The statements for the provers: what every command does and where it completes, the frame of every command, and what every
step keeps. -/

open Sys2Proof Sys2Proof.Machine

/-- The phases of a period (R14, R15, R20, R24, R89, R95, R97, R273). Outside BOOT and BACKUP cycle 0 advances the period by one, and 25 us or
50 us pass; the steered lane's latched words leave on every typed link that is not DOWN as the down-frame of the new period, and idle pairs
on every other link and where no lane is steered. The first frame of an UP link whose EOF falls in the running window takes that link's empty
slot with the status of its first failing check, and no other slot changes; a frame of an untyped or unsynchronised link changes nothing. Cycle
900 records each typed link's status, MISSING for one that is not UP; cycle 950 adds a bay's VALID voltage and current, and their product, to its sums; cycle 12,200 latches
every typed link's header, and zeros for untyped links; cycle 12,300 sends the digest entry; the alignment marker counts the other lane's
periods in and out of alignment. -/
def Obligations.PeriodPhases : Prop :=
  (∀ s, s.modes.mode ≠ .boot → s.modes.mode ≠ .backup →
    Completes .periodBoundary s fun t => t.clk.period = s.clk.period + 1 ∧ t.clk.ns = s.clk.ns + (if s.clk.long then 50000 else 25000)) ∧
  (∀ s, s.modes.mode = .boot ∨ s.modes.mode = .backup → exec .periodBoundary s = .next s) ∧
  (∀ s l, ∀ n < 64, steeredLane s = some l → Completes .periodBoundary s fun t => nth t.clk.spurTx n =
    if linkType s n = 0 ∨ ((s.lane l).link n).st = .down then []
    else downFrame { s with clk := { s.clk with period := s.clk.period + 1 } } n ((s.lane l).link n) (nth (s.lane l).latched n)) ∧
  (∀ s, ∀ n < 64, s.modes.mode ≠ .boot → s.modes.mode ≠ .backup → steeredLane s = none →
    Completes .periodBoundary s fun t => nth t.clk.spurTx n = []) ∧
  (∀ s l (n : Fin 64) f, Shape s → linkType s n ≠ 0 → ((s.lane l).link n).synced = true → ((s.lane l).link n).st = .up →
    f.eofCycle ≤ 900 → ((s.lane l).link n).got = false → (slotOf s (s.lane l) n).filled = false →
    Completes (.upFrameReceived l n f) s fun t =>
      slotOf s (t.lane l) n = slotFrom (frameStatus s n ((s.lane l).link n).expSeq f) f ∧
      ∀ m, m ≠ n.val → slotOf s (t.lane l) m = slotOf s (s.lane l) m) ∧
  (∀ s l (n : Fin 64) f, linkType s n = 0 ∨ ((s.lane l).link n).synced = false → Completes (.upFrameReceived l n f) s fun t => t = s) ∧
  (∀ s l, Shape s → Completes (.frameBankClose l) s fun t => ∀ n < 64, linkType s n ≠ 0 →
    ((t.lane l).link n).lastStatus = if ((s.lane l).link n).st = .up then (slotOf s (s.lane l) n).status else 1) ∧
  (∀ s l i v c, Shape s → i < 24 → headMeas s (s.lane l) i 1 = some v → headMeas s (s.lane l) i 2 = some c →
    Completes (.accumulatorTake l) s fun t =>
      let a := nth (s.lane l).share.bayAcc i
      let b := nth (t.lane l).share.bayAcc i
      b.sumV = a.sumV + v ∧ b.sumI = a.sumI + c ∧ b.sumP = a.sumP + v * c ∧ b.n = a.n + 1) ∧
  (∀ s l, Shape s → computing s l = true → Completes (.outputLatch l) s fun t => ∀ n < 64,
    if linkType s n = 0 then nth (t.lane l).latched n = { words := List.replicate 9 0, hdr := 0 }
    else (nth (t.lane l).latched n).hdr = downHeader s n ((s.lane l).link n)) ∧
  (∀ s l canary, sendsDigest s l = true → computing s l = true → s.jct.lost = false →
    Completes (.digestEntrySend l canary) s fun t =>
      (t.jct.lane l).entry = some { digest := crc64 (digestBytes s (s.lane l)), health := BitVec.ofNat 32 (healthWord s l),
                                    canary := canary, period := BitVec.ofNat 16 s.clk.period }) ∧
  (∀ s l d, activeLane s = some l → Completes (.alignmentMarkerReceived d) s fun t =>
    let c := (s.lane l.other).ctl
    let e := (t.lane l.other).ctl
    if -2 ≤ d ∧ d ≤ 2 then e.misRun = 0 ∧ e.alignedRun = min 200 (c.alignedRun + 1) ∧ (t.lane l.other).health.unaligned = false
    else e.misRun = c.misRun + 1 ∧ e.alignedRun = 0 ∧ (t.lane l.other).health.unaligned = decide (1 ≤ c.misRun))
/-- The link states (R98, R104, R411): a typed link in DOWN that synchronises goes to SYNC; one that loses synchronisation goes to DOWN from SYNC
and ACQUIRE and from FAILED unless latched, and from UP it fails with cause SYNC; the first frame in its window after ACQUIRE takes it to
UP and sets its expected SEQ; an UP link with a cause of Table 5.10 goes to FAILED and the third failure within 60 s latches it with
cause 5; after 4,000 periods a synchronised link that is not latched returns to ACQUIRE with ACQ = 1; after 40 periods of an offset SEQ the
remote's count is adopted. No other link changes. -/
def Obligations.LinkStates : Prop :=
  (∀ s l (n : Fin 64), Shape s → linkType s n ≠ 0 → ((s.lane l).link n).st = .down →
    Completes (.linkSyncAcquired l n) s fun t => ((t.lane l).link n).st = .sync ∧ ((t.lane l).link n).synced = true ∧
      ((t.lane l).link n).acq = true ∧ ∀ m, m ≠ n.val → (t.lane l).link m = (s.lane l).link m) ∧
  (∀ s l (n : Fin 64), Shape s → ((s.lane l).link n).st ≠ .down →
    Completes (.linkSyncAcquired l n) s fun t => (t.lane l).link n = { (s.lane l).link n with synced := true }) ∧
  (∀ s l (n : Fin 64), ((s.lane l).link n).st = .sync ∨ ((s.lane l).link n).st = .acquire ∨
      (((s.lane l).link n).st = .failed ∧ ((s.lane l).link n).latched = false) →
    Completes (.linkSyncLost l n) s fun t => ((t.lane l).link n).st = .down ∧ ((t.lane l).link n).synced = false ∧
      ∀ m, m ≠ n.val → (t.lane l).link m = (s.lane l).link m) ∧
  (∀ s l (n : Fin 64), ((s.lane l).link n).st = .failed → ((s.lane l).link n).latched = true →
    Completes (.linkSyncLost l n) s fun t => (t.lane l).link n = { (s.lane l).link n with synced := false }) ∧
  (∀ s l (n : Fin 64), ((s.lane l).link n).st = .up →
    Completes (.linkSyncLost l n) s fun t =>
      let recent := ((s.lane l).link n).failTimes.filter fun t => decide (s.clk.ns < t + 60000000000)
      let k := (t.lane l).link n
      k.synced = false ∧ k.failures = ((s.lane l).link n).failures + 1 ∧
      if 2 ≤ recent.length then k.st = .failed ∧ k.latched = true ∧ k.cause = 5
      else k.st = .down ∧ k.latched = false ∧ k.cause = 2) ∧
  (∀ s l (n : Fin 64) f, ((s.lane l).link n).hold = some f → ((s.lane l).link n).st = .acquire → ((s.lane l).link n).acqDone = true →
    Completes (.linkUp l n) s fun t => ((t.lane l).link n).st = .up ∧ ((t.lane l).link n).expSeq = upSeq f ∧
      ∀ m, m ≠ n.val → (t.lane l).link m = (s.lane l).link m) ∧
  (∀ s l (n : Fin 64) c, ((s.lane l).link n).st = .up → causeHolds s (s.lane l) n c = true →
    Completes (.linkFail l n c) s fun t =>
      let recent := ((s.lane l).link n).failTimes.filter fun t => decide (s.clk.ns < t + 60000000000)
      let k := (t.lane l).link n
      k.st = .failed ∧ k.failedFor = 0 ∧ k.failures = ((s.lane l).link n).failures + 1 ∧ k.latched = decide (2 ≤ recent.length) ∧
      k.cause = (if 2 ≤ recent.length then 5 else causeCode c) ∧ ∀ m, m ≠ n.val → (t.lane l).link m = (s.lane l).link m) ∧
  (∀ s l (n : Fin 64), ((s.lane l).link n).st = .failed → ((s.lane l).link n).latched = false → ((s.lane l).link n).synced = true →
    4000 ≤ ((s.lane l).link n).failedFor →
    Completes (.linkFailRetryExpiry l n) s fun t => ((t.lane l).link n).st = .acquire ∧ ((t.lane l).link n).acq = true ∧
      ((t.lane l).link n).acqCount = 0 ∧ ∀ m, m ≠ n.val → (t.lane l).link m = (s.lane l).link m) ∧
  (∀ s l (n : Fin 64), ((s.lane l).link n).st = .up → 40 ≤ ((s.lane l).link n).seqRun →
    Completes (.seqAdopt l n) s fun t =>
      (t.lane l).link n = { (s.lane l).link n with expSeq := ((s.lane l).link n).seqLast, seqRun := 0 } ∧
      ∀ m, m ≠ n.val → (t.lane l).link m = (s.lane l).link m)
/-- Slots (R110, R111, R124, R138): a slot whose loop runs on a fast tile in service starts with empty flags, cleared V registers but V15, the
persistent registers of its block (in START cleared ones) and the slot's constants; an empty slot runs nothing; the end of a slot writes
the persistent registers back, the Q registers re-expressed, commits the output ports unless its START was invalid, posts the flags with the
loop and leaves the tile idle; the slot of a loop entering OFF commits zeros only; a corrected memory error is counted; an uncorrectable
error outside the state blocks stops the slot and reports the tile, one in a state block marks that block. -/
def Obligations.SlotsRunAndEnd : Prop :=
  (∀ s l (t : Fin 10) (k : Fin 16) i, nth (nth (s.lane l).tiles t).slots k = some i → isSlowLoop i = false →
    (nth (s.lane l).tiles t).role = .fast → (nth (s.lane l).tiles t).relieved = false →
    (nth (nth (s.lane l).tiles t).blocks k).bad = false → ((s.lane l).loop i).st = .run ∨ ((s.lane l).loop i).st = .start →
    Completes (.slotStart l t k) s fun u => ∃ r, (nth (u.lane l).tiles t).running = some r ∧ r.slot = k ∧ r.loop = some i ∧
      r.icount = 0 ∧ r.flagInv = false ∧ r.flagMis = false ∧ (∀ j < 15, nth r.v j = Stage.zero) ∧
      r.consts = nth (nth (nth (s.lane l).tiles t).constBanks (if (nth (s.lane l).tiles t).bank then 1 else 0)) k ∧
      (if ((s.lane l).loop i).st = .start then r.p = StateBlock.zero.p ∧ r.q = StateBlock.zero.q
       else r.p = (nth (nth (s.lane l).tiles t).blocks k).p ∧ r.q = (nth (nth (s.lane l).tiles t).blocks k).q)) ∧
  (∀ s l (t : Fin 10) (k : Fin 16), Shape s → nth (nth (s.lane l).tiles t).slots k = none →
    Completes (.slotStart l t k) s fun u => (nth (u.lane l).tiles t).running = none) ∧
  (∀ s l (t : Fin 10) r i, Shape s → (nth (s.lane l).tiles t).running = some r → r.loop = some i → r.zero = false →
    Completes (.slotWriteback l t) s fun u =>
      (nth (u.lane l).tiles t).running = none ∧
      (nth (u.lane l).tiles t).blocks =
        put (nth (s.lane l).tiles t).blocks r.slot { p := r.p, q := r.q.map writebackAcc, bad := false } ∧
      ((u.lane l).loop i).inv = r.flagInv ∧ ((u.lane l).loop i).sat = r.flagSat ∧ ((u.lane l).loop i).mis = r.flagMis ∧
      ((u.lane l).loop i).ran = true ∧
      (u.lane l).out = (if r.isStart = true ∧ r.flagInv = true then s.lane l else commitPorts r.outCodes r.outPorts (s.lane l)).out ∧
      (u.lane l).relay = (if r.isStart = true ∧ r.flagInv = true then s.lane l else commitPorts r.outCodes r.outPorts (s.lane l)).relay) ∧
  (∀ s l (t : Fin 10) r i, Shape s → (nth (s.lane l).tiles t).running = some r → r.loop = some i → r.zero = true →
    Completes (.slotWriteback l t) s fun u =>
      (nth (u.lane l).tiles t).running = none ∧ (nth (u.lane l).tiles t).blocks = (nth (s.lane l).tiles t).blocks ∧
      ((u.lane l).loop i).zeroDue = false ∧ (u.lane l).out = (commitPorts r.outCodes (r.outCodes.map zeroOut) (s.lane l)).out) ∧
  (∀ s l (t : Fin 10), (nth (s.lane l).tiles t).running = none → Completes (.slotWriteback l t) s fun u => u = s) ∧
  (∀ s l (t : Fin 10) m, Shape s → m = .instruction ∨ m = .constant → Completes (.tileEccError l t m) s fun u =>
    nth (u.lane l).tiles t = { nth (s.lane l).tiles t with running := none, fault := true } ∧ (u.lane l).health.tile = true) ∧
  (∀ s l (t : Fin 10), Shape s → Completes (.tileEccError l t .corrected) s fun u =>
    nth (u.lane l).tiles t = { nth (s.lane l).tiles t with corrected := (nth (s.lane l).tiles t).corrected + 1 }) ∧
  (∀ s l (t : Fin 10) k, Shape s → Completes (.tileEccError l t (.state k)) s fun u =>
    (nth (u.lane l).tiles t).fault = true ∧ (u.lane l).health.tile = true ∧
    (nth (u.lane l).tiles t).blocks = upd (nth (s.lane l).tiles t).blocks k fun b => { b with bad := true })

/-- Hardware queues and the fast store (R10, R25, R27-R29): a producer with credit enqueues at the end and takes one credit; without credit an
queue in an external receive role counts the frame as dropped and any other queue keeps what it holds; the consumer takes the oldest entry and its
credit returns; a retired queue takes nothing; a queue that failed its check twice within 1,000 periods retires at a share-cycle boundary,
emptied (the event queue of the waiting events it holds) and what it held counted, and its role moves to the spare; a fast-store write by the port the rule of R10 names stores the row, another is refused with
an event. -/
def Obligations.QueuesAndFastStore : Prop :=
  (∀ s l (q : Fin 128) e, (nth (s.lane l).queues q).retired = false → 0 < (nth (s.lane l).queues q).credit →
    Completes (.queueEnqueue l q e) s fun t => nth (t.lane l).queues q =
      { nth (s.lane l).queues q with entries := (nth (s.lane l).queues q).entries ++ [e], credit := (nth (s.lane l).queues q).credit - 1 }) ∧
  (∀ s l (q : Fin 128) e, Shape s → (nth (s.lane l).queues q).retired = false → (nth (s.lane l).queues q).credit = 0 →
    Completes (.queueEnqueue l q e) s fun t => nth (t.lane l).queues q =
      if (roleServed (s.lane l) q).any externalReceive then { nth (s.lane l).queues q with drops := (nth (s.lane l).queues q).drops + 1 } else nth (s.lane l).queues q) ∧
  (∀ s l (q : Fin 128) e, (nth (s.lane l).queues q).retired = true → Completes (.queueEnqueue l q e) s fun t => t = s) ∧
  (∀ s l (q : Fin 128) e es, (nth (s.lane l).queues q).entries = e :: es →
    Completes (.queueDequeue l q) s fun t =>
      (nth (t.lane l).queues q).entries = es ∧ (nth (t.lane l).queues q).credit = (nth (s.lane l).queues q).credit + 1 ∧
      ∀ p, p ≠ q.val → nth (t.lane l).queues p = nth (s.lane l).queues p) ∧
  (∀ s l (q : Fin 128) r p, Shape s → atShare s = true → (nth (s.lane l).queues q).retired = false →
    2 ≤ ((nth (s.lane l).queues q).fails.filter fun k => decide (s.clk.period < k + 1000)).length →
    roleServed (s.lane l) q = some r → spareQueue (s.lane l) = some p →
    Completes (.queueRetire l q) s fun t =>
      (nth (t.lane l).queues q).retired = true ∧ (nth (t.lane l).queues q).entries = [] ∧ (nth (t.lane l).queues q).credit = queueDepth q ∧
      (nth (t.lane l).queues q).discarded = (nth (s.lane l).queues q).discarded + BitVec.ofNat 32 (nth (s.lane l).queues q).entries.length +
        BitVec.ofNat 32 (if r = 98 then min 256 (s.lane l).evq.length else 0) ∧
      nth (t.lane l).roleMap r = p) ∧
  (∀ s l r row d, mayWrite s l r = false → Completes (.fastStoreWrite l r row d false) s fun t =>
    t.fs = { s.fs with result := 1 } ∧ (t.lane l).evq = (s.lane l).evq ++ [eventReq .fastStoreError 127 [regionNum r, row]]) ∧
  (∀ s l r row d fails, mayWrite s l r = true → (fails = true → 0 < s.fs.rows) → Completes (.fastStoreWrite l r row d fails) s fun t =>
    t.fs = { s.fs with cells := Store.set s.fs.cells (regionNum r + 8 * row) d [], result := 0,
                       rows := if fails then s.fs.rows - 1 else s.fs.rows }) ∧
  (∀ s l r row d, mayWrite s l r = true → s.fs.rows = 0 → Completes (.fastStoreWrite l r row d true) s fun t =>
    t.fs = { s.fs with result := 2 })
/-- The tile dialect, data movement, limits and checks (R125, R126, R131, R132, R137): on a running slot and a word the reel checks accept, each
instruction writes the registers the rule names from the registers it reads, and no other register: LDP the ports, LDK a constant, MOV
a stage or one broadcast element, STO an output port with SAT and INV, CLP the values between two stages with the mask M3, RNM an
accumulator normalised, SEL by a mask, CMP a mask, RMP a step of at most B toward A from D (in START from the measured stage), TSI the
generator's value added to the element of object 3506:03 (the model's reading, log 55) where an injection runs at that point, CAP no register, CHK the flags MIS and INV. -/
def Obligations.TileDataInstructions : Prop :=
  (∀ s l (t : Fin 10) w k, runningSlot s l t = some k → tileNopOk w = true → TileBecomes (.tileNop l t w) s l t k) ∧
  (∀ s l (t : Fin 10) w k, runningSlot s l t = some k → tileLdpOk w = true → k.ownReg (argD w) = true →
    let ports := (List.range (argImm w 6 4 + 1)).map fun i => nth k.inPorts (argImm w 3 0 + i)
    TileBecomes (.tileLdp l t w) s l t
      (k.putStage (argD w) (ports.map PortVal.pair ++ List.replicate (8 - (argImm w 6 4 + 1)) (0, 0)) (ports.any (·.inv)))) ∧
  (∀ s l (t : Fin 10) w k, runningSlot s l t = some k → tileLdkOk w = true → k.ownReg (argD w) = true →
    k.constIndex (argImm w 7 0) < k.consts.length →
    TileBecomes (.tileLdk l t w) s l t (k.setStage (argD w) (constStage (nth k.consts (k.constIndex (argImm w 7 0)))))) ∧
  (∀ s l (t : Fin 10) w k, runningSlot s l t = some k → tileMovOk w = true → k.ownReg (argD w) = true →
    TileBecomes (.tileMov l t w) s l t (k.putStage (argD w)
      (if argImm w 3 3 = 1 then List.replicate 8 (k.value (argA w) (argImm w 2 0)) else k.values (argA w)) (k.invalid (argA w)))) ∧
  (∀ s l (t : Fin 10) w k, runningSlot s l t = some k → tileStoOk w = true →
    let e := k.value (argA w) (argImm w 5 3)
    let single := normOne e (k.invalid (argA w))
    let stored := toWord (if isAccId (argA w) then single.1.val else e)
    let cell : Cell :=
      if isAccId (argA w) then single.1
      else { m := nth (k.stage (argA w)).m (argImm w 5 3), e := (k.stage (argA w)).e, inv := k.invalid (argA w) }
    let port := argImm w 2 0
    let kind := outKind (nth k.outCodes port)
    TileBecomes (.tileSto l t w) s l t { k with
      outPorts := if kind = 0 then put k.outPorts port (some (.word stored.1))
        else if kind = 2 then put k.outPorts port (some (.cell cell)) else k.outPorts
      flagSat := k.flagSat || (isAccId (argA w) && single.2) || (kind == 0 && stored.2)
      flagInv := k.flagInv || k.invalid (argA w) }) ∧
  (∀ s l (t : Fin 10) w k, runningSlot s l t = some k → tileClpOk w = true → k.ownReg (argD w) = true → isAccId (argA w) = false →
    let r := clampAll (k.stage (argB w)) (k.stage (argImm w 4 0)) (k.values (argA w))
    TileBecomes (.tileClp l t w) s l t
      ({ k with masks := put k.masks 3 (maskOf (r.map Prod.snd)) }.putStage (argD w) (r.map Prod.fst)
        (k.invalid (argA w) || (k.stage (argB w)).inv || (k.stage (argImm w 4 0)).inv))) ∧
  (∀ s l (t : Fin 10) w k, runningSlot s l t = some k → tileClpOk w = true → k.ownReg (argD w) = true → isAccId (argA w) = true →
    let r := clampAll (k.stage (argB w)) (k.stage (argImm w 4 0)) (k.values (argA w))
    TileBecomes (.tileClp l t w) s l t
      ({ k with masks := put k.masks 3 (maskOf (r.map Prod.snd)) }.putAcc (argD w) (accAt (r.map Prod.fst) (k.acc (argA w)).exp
        (k.invalid (argA w) || (k.stage (argB w)).inv || (k.stage (argImm w 4 0)).inv)))) ∧
  (∀ s l (t : Fin 10) w k, runningSlot s l t = some k → tileRnmOk w = true → k.ownReg (argD w) = true →
    TileBecomes (.tileRnm l t w) s l t (k.putStage (argD w) (k.values (argA w)) (k.invalid (argA w)))) ∧
  (∀ s l (t : Fin 10) w k, runningSlot s l t = some k → tileSelOk w = true → k.ownReg (argD w) = true →
    TileBecomes (.tileSel l t w) s l t (k.putStage (argD w)
      ((List.range 8).map fun i => if (nth k.masks (argImm w 1 0)).getLsbD i then k.value (argA w) i else k.value (argB w) i)
      (k.invalid (argA w) || k.invalid (argB w)))) ∧
  (∀ s l (t : Fin 10) w k, runningSlot s l t = some k → tileCmpOk w = true →
    TileBecomes (.tileCmp l t w) s l t { k with masks := put k.masks (argD w) (maskOf
      ((List.range 8).map fun i => condHolds (argImm w 2 0) (cmpExact (k.value (argA w) i) (k.value (argB w) i)))) }) ∧
  (∀ s l (t : Fin 10) w k, runningSlot s l t = some k → tileRmpOk w = true → k.ownReg (argD w) = true →
    let d := if k.isStart then argImm w 4 0 else argD w
    TileBecomes (.tileRmp l t w) s l t (k.putStage (argD w)
      ((List.range 8).map fun i => rampElem (k.value d i) (k.value (argA w) i) (k.value (argB w) i))
      (k.invalid (argD w) && !k.isStart || k.invalid (argImm w 4 0) || k.invalid (argA w) || k.invalid (argB w)))) ∧
  (∀ s l (t : Fin 10) w k, runningSlot s l t = some k → tileTsiOk w = true → k.ownReg (argD w) = true → s.clk.inj.st ≠ 2 →
    TileBecomes (.tileTsi l t w) s l t (k.putStage (argD w) (k.values (argA w)) (k.invalid (argA w)))) ∧
  (∀ s l (t : Fin 10) w k, runningSlot s l t = some k → tileTsiOk w = true → k.ownReg (argD w) = true → s.clk.inj.st = 2 →
    k.loop.isSome = true → k.loop = s.clk.inj.loop → rwN s 0x3506 2 = argImm w 3 0 →
    TileBecomes (.tileTsi l t w) s l t (k.putStage (argD w)
      ((List.range 8).map fun i => if i = rwN s 0x3506 3 then addExact (k.value (argA w) i) (s.clk.inj.g, 0) else k.value (argA w) i)
      (k.invalid (argA w)))) ∧
  (∀ s l (t : Fin 10) w k, runningSlot s l t = some k → tileCapOk w = true → s.clk.cap.st ≠ 1 → s.clk.cap.st ≠ 2 →
    TileBecomes (.tileCap l t w) s l t k) ∧
  (∀ s l (t : Fin 10) w k, runningSlot s l t = some k → tileCapOk w = true → s.clk.cap.st = 1 ∨ s.clk.cap.st = 2 → k.loop.isSome = true →
    k.loop = captureLoop s →
    Completes (.tileCap l t w) s fun u =>
      u.clk.cap.samples = put s.clk.cap.samples (argImm w 4 3) (some (sampleReal (k.value (argA w) (argImm w 2 0)))) ∧
      (nth (u.lane l).tiles t).running = some { k with icount := k.icount + 1 }) ∧
  (∀ s l (t : Fin 10) w k, runningSlot s l t = some k → tileChkOk w = true →
    let far := (List.range 8).any fun i =>
      let d := subExact (k.value (argA w) i) (k.value (argB w) i)
      cmpExact (d.1.natAbs, d.2) ((k.stage (argImm w 4 0)).elem i) == .gt
    TileBecomes (.tileChk l t w) s l t { k with
      flagMis := k.flagMis || far || (k.invalid (argA w) || k.invalid (argB w))
      flagInv := k.flagInv || (k.invalid (argA w) || k.invalid (argB w)) || (k.stage (argImm w 4 0)).inv }) ∧
  (∀ s l (t : Fin 10) w c, c ∈ tileRows l t w → c.wf = true → runningSlot s l t = none → exec c s = .next s)

/-- The tile dialect, accumulator arithmetic (R123, R131): on a running slot and a word the reel checks accept, ADD and SUB combine two registers
at the larger exponent, MUL is the exact product, MAC adds the product to D, INT adds it and limits the sum by two stages, DRV gives the
difference and then keeps A in B, FLT moves D toward A by B; each raises SAT where its result overflows. -/
def Obligations.TileArithmeticInstructions : Prop :=
  (∀ s l (t : Fin 10) w k, runningSlot s l t = some k → tileAddOk w = true → k.ownReg (argD w) = true →
    TileBecomes (.tileAdd l t w) s l t (k.putAcc (argD w) (combine (· + ·) (k.operand (argA w)) (k.operand (argB w))))) ∧
  (∀ s l (t : Fin 10) w k, runningSlot s l t = some k → tileAddOk w = true → k.ownReg (argD w) = true →
    TileBecomes (.tileSub l t w) s l t (k.putAcc (argD w) (combine (· - ·) (k.operand (argA w)) (k.operand (argB w))))) ∧
  (∀ s l (t : Fin 10) w k, runningSlot s l t = some k → tileMulOk w = true → k.ownReg (argD w) = true →
    TileBecomes (.tileMul l t w) s l t (k.setAcc (argD w) (product (k.stage (argA w)) (k.stage (argB w))))) ∧
  (∀ s l (t : Fin 10) w k, runningSlot s l t = some k → tileMulOk w = true → k.ownReg (argD w) = true →
    TileBecomes (.tileMac l t w) s l t
      (k.putAcc (argD w) (combine (· + ·) (k.acc (argD w)) (product (k.stage (argA w)) (k.stage (argB w)))))) ∧
  (∀ s l (t : Fin 10) w k, runningSlot s l t = some k → tileIntOk w = true → k.ownReg (argD w) = true →
    let sum := combine (· + ·) (k.acc (argD w)) (product (k.stage (argA w)) (k.stage (argB w)))
    let lo := k.stage (argImm w 4 0)
    let hi := k.stage (argImm w 9 5)
    TileBecomes (.tileInt l t w) s l t ((k.sat sum.2).putAcc (argD w)
      (accAt ((clampAll lo hi ((List.range 8).map sum.1.elem)).map Prod.fst) sum.1.exp (sum.1.inv || lo.inv || hi.inv)))) ∧
  (∀ s l (t : Fin 10) w k, runningSlot s l t = some k → tileDrvOk w = true → k.ownReg (argD w) = true → k.ownReg (argB w) = true →
    TileBecomes (.tileDrv l t w) s l t
      ((k.putAcc (argD w) (combine (· - ·) (k.operand (argA w)) (k.operand (argB w)))).putStage (argB w) (k.values (argA w))
        (k.invalid (argA w)))) ∧
  (∀ s l (t : Fin 10) w k, runningSlot s l t = some k → tileFltOk w = true → k.ownReg (argD w) = true →
    TileBecomes (.tileFlt l t w) s l t
      (k.putAcc (argD w) (fltValue (k.acc (argD w)) (k.stage (argA w)) (k.stage (argB w)))))
/-- The policy dialect (R167, Table 8.6): on a word the reel checks accept, LDI loads an input, LDK a sign-extended constant, LKH the upper half,
ADD, SUB, MUL and DIV give the result limited to 32 bits (a product shifted right with rounding, a quotient truncated toward 0 and 0 for
a divisor of 0), MIN and MAX the smaller and the larger, SEL one of two by F, CMP sets F, OUT writes an output limited to 0 to 65,535, and
NOP changes nothing; a word they refuse, which no reel holds, changes nothing (the model's
choice, log 6). -/
def Obligations.PolicyInstructions : Prop :=
  (∀ s l w, policyNopOk w = true → Completes (.policyNop l w) s fun t => t = s) ∧
  (∀ s l w, Shape s → policyLdiOk w = true →
    PolicyWrites (.policyLdi l w) s l (polD w) (nth (s.lane l).share.pol.inputs (polImm w)).toInt) ∧
  (∀ s l w, Shape s → policyLdkOk w = true → PolicyWrites (.policyLdk l w) s l (polD w) w.low.toInt) ∧
  (∀ s l w, Shape s → policyLkhOk w = true → PolicyWrites (.policyLkh l w) s l (polD w)
    (w.low.toInt * 2 ^ 16 + ((nth (s.lane l).share.pol.s (polD w)).toNat % 2 ^ 16 : Nat))) ∧
  (∀ s l w, Shape s → policyAddOk w = true → PolicyWrites (.policyAdd l w) s l (polD w)
    (clampInt (-(2 ^ 31)) (2 ^ 31 - 1) ((s.lane l).share.pol.reg (polA w) + (s.lane l).share.pol.reg (polB w)))) ∧
  (∀ s l w, Shape s → policySubOk w = true → PolicyWrites (.policySub l w) s l (polD w)
    (clampInt (-(2 ^ 31)) (2 ^ 31 - 1) ((s.lane l).share.pol.reg (polA w) - (s.lane l).share.pol.reg (polB w)))) ∧
  (∀ s l w, Shape s → policyMulOk w = true → PolicyWrites (.policyMul l w) s l (polD w)
    (clampInt (-(2 ^ 31)) (2 ^ 31 - 1)
      (roundShift ((s.lane l).share.pol.reg (polA w) * (s.lane l).share.pol.reg (polB w)) (polImm w : Int)))) ∧
  (∀ s l w, Shape s → policyDivOk w = true → PolicyWrites (.policyDiv l w) s l (polD w)
    (if (s.lane l).share.pol.reg (polB w) = 0 then 0
     else clampInt (-(2 ^ 31)) (2 ^ 31 - 1) (Int.tdiv ((s.lane l).share.pol.reg (polA w)) ((s.lane l).share.pol.reg (polB w))))) ∧
  (∀ s l w, Shape s → policyMinOk w = true → PolicyWrites (.policyMin l w) s l (polD w)
    (min ((s.lane l).share.pol.reg (polA w)) ((s.lane l).share.pol.reg (polB w)))) ∧
  (∀ s l w, Shape s → policyMaxOk w = true → PolicyWrites (.policyMax l w) s l (polD w)
    (max ((s.lane l).share.pol.reg (polA w)) ((s.lane l).share.pol.reg (polB w)))) ∧
  (∀ s l w, Shape s → policySelOk w = true → PolicyWrites (.policySel l w) s l (polD w)
    (if (s.lane l).share.pol.f then (s.lane l).share.pol.reg (polA w) else (s.lane l).share.pol.reg (polB w))) ∧
  (∀ s l w, policyCmpOk w = true → Completes (.policyCmp l w) s fun t =>
    let p := (s.lane l).share.pol
    (t.lane l).share.pol = { p with f := condHolds (polImm w) (compare (p.reg (polA w)) (p.reg (polB w))) }) ∧
  (∀ s l w, policyOutOk w = true → Completes (.policyOut l w) s fun t =>
    let p := (s.lane l).share.pol
    (t.lane l).share.pol = { p with outs := put p.outs (polImm w) (BitVec.ofInt 16 (clampInt 0 65535 (p.reg (polA w)))) }) ∧
  (∀ s l w, (policyAddOk w = false → exec (.policyAdd l w) s = .next s) ∧
    (policyLdkOk w = false → exec (.policyLdk l w) s = .next s) ∧
    (policyOutOk w = false → exec (.policyOut l w) s = .next s))

/-- Block floating point (R121-R123): a product of two stages is exact; normalising gives the smallest exponent in -32 to 31 at which every
value, rounded, fits a mantissa, and stores all values with it; where none fits the exponent is 31, elements are limited and SAT is
raised; values that are all zero take exponent -32. -/
def Obligations.NormalisationIsSmallest : Prop :=
  (∀ p q : Stage, ∀ i < 8, (product p q).elem i = ((nth p.m i).toInt * (nth q.m i).toInt, p.exp + q.exp - 38)) ∧
  (∀ vals x inv e, -32 ≤ e → e ≤ 31 → (∀ v ∈ vals, -524288 ≤ roundShift v (e - 19 - x) ∧ roundShift v (e - 19 - x) ≤ 524287) →
    (∀ d, -32 ≤ d → d < e → ∃ v ∈ vals, roundShift v (d - 19 - x) < -524288 ∨ 524287 < roundShift v (d - 19 - x)) →
    (normalise vals x inv).2 = false ∧ (normalise vals x inv).1.exp = e ∧ (normalise vals x inv).1.inv = inv ∧
    ∀ i < vals.length, (nth (normalise vals x inv).1.m i).toInt = roundShift (nth vals i) (e - 19 - x)) ∧
  (∀ vals x inv, (∀ e, -32 ≤ e → e ≤ 31 → ∃ v ∈ vals, roundShift v (e - 19 - x) < -524288 ∨ 524287 < roundShift v (e - 19 - x)) →
    (normalise vals x inv).2 = true ∧ (normalise vals x inv).1.exp = 31 ∧
    ∀ i < vals.length, (nth (normalise vals x inv).1.m i).toInt = clampInt (-524288) 524287 (roundShift (nth vals i) (12 - x))) ∧
  (∀ n x inv, (normalise (List.replicate n 0) x inv).1.exp = -32 ∧ (normalise (List.replicate n 0) x inv).2 = false)
/-- Loop commands (R135-R137, R140, R144, R146): where the mode permits it a host command on a loop waits and supersedes one that waited, else the write
is refused; at a share-cycle boundary the waiting command is taken, and a used fast loop that is OFF enters START, one in RUN enters STOP, and
any loop in FAULT leaves it for OFF with its cause cleared; a command whose mode is gone, or an enable or disable of a slow loop, has no
effect and a free result (the model's choice, log 45); a code of no loop or of an unused one has result 2. A block's request acts at once and
takes a slow loop from RUN to OFF; a loop in STOP for the stop time of object 3502:0A enters FAULT with cause 3 and is counted; an override
ramp that has written its last word ends, and a string's RUN and CONT fall with it. -/
def Obligations.LoopCommands : Prop :=
  (∀ s i, s.modes.mode = .commission → Completes (.loopEnable i) s fun t => t.clk.loopCmd = some (loopCode16 i, 1) ∧
    t.clk.loopResult = (if s.clk.loopCmd.isSome then 5 else 1) ∧ t.comm.response = some (0, [])) ∧
  (∀ s i, s.modes.mode ≠ .commission → Completes (.loopEnable i) s fun t => t = respond 0x08000022 [] s) ∧
  (∀ s i, powerMode s = true →
    Completes (.loopDisable i) s fun t => t.clk.loopCmd = some (loopCode16 i, 2) ∧
      t.clk.loopResult = (if s.clk.loopCmd.isSome then 5 else 1) ∧ t.comm.response = some (0, [])) ∧
  (∀ s i, powerMode s = false → Completes (.loopDisable i) s fun t => t = respond 0x08000022 [] s) ∧
  (∀ s i, s.modes.mode ≠ .boot → s.modes.mode ≠ .backup → s.modes.mode ≠ .safe →
    Completes (.loopFaultReset i) s fun t => t.clk.loopCmd = some (loopCode16 i, 3) ∧
      t.clk.loopResult = (if s.clk.loopCmd.isSome then 5 else 1) ∧ t.comm.response = some (0, [])) ∧
  (∀ s i, s.modes.mode = .boot ∨ s.modes.mode = .backup ∨ s.modes.mode = .safe → Completes (.loopFaultReset i) s fun t =>
    t = respond 0x08000022 [] s) ∧
  (∀ s i l, Shape s → s.clk.loopCmd = some (loopCode16 i, 1) → atShare s = true → loopUsed s i = true → s.modes.mode = .commission →
    isSlowLoop i = false → (s.act.loop i).st ≠ .fault → ((s.lane l).loop i).st = .off → ((s.lane l).loop i).nextSt = none →
    ((s.lane l).loop i).disNow = false →
    Completes .loopCommandTaken s fun t => t.clk.loopCmd = none ∧ t.clk.loopResult = 0 ∧
      ((t.lane l).loop i).st = .start ∧ ((t.lane l).loop i).count = 0) ∧
  (∀ s i l, Shape s → s.clk.loopCmd = some (loopCode16 i, 2) → atShare s = true → loopUsed s i = true → powerMode s = true →
    isSlowLoop i = false → ((s.lane l).loop i).st = .run → ((s.lane l).loop i).nextSt ≠ some .fault →
    Completes .loopCommandTaken s fun t => t.clk.loopCmd = none ∧ t.clk.loopResult = 0 ∧ ((t.lane l).loop i).st = .stop) ∧
  (∀ s i l, Shape s → s.clk.loopCmd = some (loopCode16 i, 3) → atShare s = true → loopUsed s i = true → s.modes.mode ≠ .boot →
    s.modes.mode ≠ .backup → s.modes.mode ≠ .safe → (s.act.loop i).st = .fault →
    Completes .loopCommandTaken s fun t => t.clk.loopCmd = none ∧ t.clk.loopResult = 0 ∧
      ((t.lane l).loop i).st = .off ∧ ((t.lane l).loop i).cause = 0) ∧
  (∀ s i c, s.clk.loopCmd = some (loopCode16 i, c) → atShare s = true → loopUsed s i = true → loopNoEffect s i c = true →
    Completes .loopCommandTaken s fun t => t.clk.loopCmd = none ∧ t.laneA = s.laneA ∧ t.laneB = s.laneB ∧
      t.clk.loopResult = BitVec.ofNat 8 (Config.freeNat s.free)) ∧
  (∀ s i c, s.clk.loopCmd = some (loopCode16 i, c) → atShare s = true → loopUsed s i = false →
    Completes .loopCommandTaken s fun t => t = { s with clk := { s.clk with loopCmd := none, loopResult := 2 } }) ∧
  (∀ s n c, s.clk.loopCmd = some (n, c) → atShare s = true → loopOfCode n.toNat = none →
    Completes .loopCommandTaken s fun t => t = { s with clk := { s.clk with loopCmd := none, loopResult := 2 } }) ∧
  (∀ s l i, Shape s → computing s l = true → loopUsed s i = true → enableMode s i = true → ((s.lane l).loop i).st = .off →
    ((s.lane l).loop i).nextSt = none → ((s.lane l).loop i).disNow = false →
    Completes (.loopBlockEnable l i true) s fun t => ((t.lane l).loop i).st = .start ∧
      ∀ j, j ≠ i → (t.lane l).loop j = (s.lane l).loop j) ∧
  (∀ s l i, Shape s → computing s l = true → loopUsed s i = true → ((s.lane l).loop i).st = .run →
    ((s.lane l).loop i).nextSt ≠ some .fault → Completes (.loopBlockEnable l i false) s fun t => ((t.lane l).loop i).st = (if isSlowLoop i then .off else .stop) ∧
      ∀ j, j ≠ i → (t.lane l).loop j = (s.lane l).loop j) ∧
  (∀ s l i, Shape s → ((s.lane l).loop i).st = .stop → ((s.lane l).loop i).nextSt = none →
    msPeriods s (cfgN s 0x3502 0xA) ≤ ((s.lane l).loop i).stopFor → Completes (.loopStopTimeout l i) s fun t => ((t.lane l).loop i).nextSt = some .fault ∧ ((t.lane l).loop i).cause = 3 ∧
      (t.lane l).ctl.loopFaults = (s.lane l).ctl.loopFaults + 1) ∧
  (∀ s l (k : Fin 8), Shape s → rampDone ((s.lane l).loop (.string k)) = true →
    Completes (.faultRampEnd l (.string k)) s fun t => ((t.lane l).loop (.string k)).override = [] ∧
      (nth (t.lane l).share.strs k).run = false ∧ (nth (t.lane l).share.strs k).cont = false) ∧
  (∀ s l i, Shape s → rampDone ((s.lane l).loop i) = true → Completes (.faultRampEnd l i) s fun t => ((t.lane l).loop i).override = [])

/-- Capture (R132): arming empties the buffers and waits for the trigger, or runs at once in trigger mode 0; a forced or a level trigger starts an
armed capture and records the period; a stop ends an armed or running one; a running one that holds 4,096 samples completes. In a mode without
writes a command is refused for the present state, and without an active lane nobody answers. -/
def Obligations.CaptureCommands : Prop :=
  (∀ s, (activeLane s).isSome = true → writable s = true → Completes .captureArm s fun t =>
    t.clk.cap.bufs = List.replicate 4 [] ∧ t.comm.response = some (0, []) ∧
    (if triggerMode s = 0 then t.clk.cap.st = 2 ∧ t.clk.cap.triggered = true ∧ t.clk.cap.trigPeriod = BitVec.ofNat 64 s.clk.period
     else t.clk.cap.st = 1 ∧ t.clk.cap.triggered = false)) ∧
  (∀ s, (activeLane s).isSome = true → writable s = true → s.clk.cap.st = 1 → Completes .captureForceTrigger s fun t =>
    t.clk.cap.st = 2 ∧ t.clk.cap.triggered = true ∧ t.clk.cap.trigPeriod = BitVec.ofNat 64 s.clk.period ∧
    t.clk.cap.bufs = s.clk.cap.bufs.map (lastN (preTrigger s))) ∧
  (∀ s, (activeLane s).isSome = true → writable s = true → s.clk.cap.st = 1 ∨ s.clk.cap.st = 2 → Completes .captureStop s fun t =>
    t.clk.cap = { s.clk.cap with st := 0 }) ∧
  (∀ s, s.clk.cap.st = 1 → crossed s = true → Completes .captureTrigger s fun t =>
    t.clk.cap.st = 2 ∧ t.clk.cap.trigPeriod = BitVec.ofNat 64 s.clk.period ∧
    t.clk.cap.bufs = s.clk.cap.bufs.map (lastN (preTrigger s + 1))) ∧
  (∀ s, s.clk.cap.st = 2 → 4096 ≤ (nth s.clk.cap.bufs 0).length → Completes .captureComplete s fun t =>
    t.clk.cap = { s.clk.cap with st := 3 }) ∧
  (∀ s c, c = .captureArm ∨ c = .captureForceTrigger ∨ c = .captureStop → (activeLane s).isSome = true → writable s = false →
    exec c s = .next (respond 0x08000022 [] s)) ∧
  (∀ s c, c = .captureArm ∨ c = .captureForceTrigger ∨ c = .captureStop → activeLane s = none → exec c s = .next s)

/-- Injection (R148-R152): arming is accepted where every condition of Table 7.7 holds, else its refusal code is given; an armed injection starts at a
share-cycle boundary with its period recorded and its loop named; it ends after its last period, or early with the cause that holds, and
a stop command ends an armed one at once and a running one at the end of its period, with cause 6. In a mode without writes a command is
refused for the present state, and without an active lane nobody answers. -/
def Obligations.InjectionCommands : Prop :=
  (∀ s, (activeLane s).isSome = true → writable s = true → Completes .injectionArm s fun t =>
    if armRefusal s = 0 then t.clk.inj = { s.clk.inj with st := 1, cause := 0 }
    else t.clk.inj = { s.clk.inj with cause := BitVec.ofNat 8 (armRefusal s) }) ∧
  (∀ s i l, Shape s → s.clk.inj.st = 1 → atShare s = true → injLoop s = some i → Completes .injectionStart s fun t =>
    t.clk.inj.st = 2 ∧ t.clk.inj.startPeriod = BitVec.ofNat 64 s.clk.period ∧ t.clk.inj.loop = some i ∧ t.clk.inj.elapsed = 0 ∧
    t.clk.inj.lfsr = BitVec.ofNat 15 (2 ^ rwN s 0x3506 6 - 1) ∧ ((t.lane l).loop i).inj = true) ∧
  (∀ s, (activeLane s).isSome = true → writable s = true → s.clk.inj.st = 1 →
    Completes .injectionStop s fun t => t.clk.inj.st = 4 ∧ t.clk.inj.cause = 6 ∧ t.clk.inj.g = 0 ∧ t.clk.inj.loop = none) ∧
  (∀ s, (activeLane s).isSome = true → writable s = true → s.clk.inj.st = 2 →
    Completes .injectionStop s fun t => t.clk.inj = { s.clk.inj with stopDue := some 6 }) ∧
  (∀ s c, s.modes.mode ≠ .boot → s.modes.mode ≠ .backup → s.clk.inj.st = 2 → s.clk.inj.stopDue = some c →
    Completes .periodBoundary s fun t => t.clk.inj.st = 4 ∧ t.clk.inj.cause = c ∧ t.clk.inj.g = 0 ∧ t.clk.inj.loop = none) ∧
  (∀ s, s.clk.inj.st = 2 → lastPeriod s = true → Completes (.injectionComplete none) s fun t =>
    t.clk.inj.st = 3 ∧ t.clk.inj.cause = 0 ∧ t.clk.inj.g = 0) ∧
  (∀ s i, s.clk.inj.st = 2 → s.clk.inj.loop = some i → (s.act.loop i).st ≠ .run →
    Completes (.injectionComplete (some 7)) s fun t => t.clk.inj.st = 4 ∧ t.clk.inj.cause = 7 ∧ t.clk.inj.g = 0) ∧
  (∀ s, s.clk.inj.st ≠ 2 → ∀ c, Completes (.injectionComplete c) s fun t => t = s) ∧
  (∀ s c, c = .injectionArm ∨ c = .injectionStop → (activeLane s).isSome = true → writable s = false →
    exec c s = .next (respond 0x08000022 [] s)) ∧
  (∀ s c, c = .injectionArm ∨ c = .injectionStop → activeLane s = none → exec c s = .next s)
/-- The share engine's rhythm (R162, R165, R218, R226): in a power mode, IDLE and SAFE a lane that computes starts one run at each share-cycle boundary,
whose results wait; at the run's apply period they are published and every grant falls to the smaller of the one in force and the run's, and two periods later it takes the run's; the hold
time of a string opens its contactor; the last four grid-status records and their arrivals are kept; a lane whose records stay out marks the link lost. -/
def Obligations.ShareCommands : Prop :=
  (∀ s l, computing s l = true → atShare s = true → shareMode s = true → Completes (.shareRunStart l) s fun t =>
    (t.lane l).share.gb = (s.lane l).share.gb ∧ (t.lane l).share.gs = (s.lane l).share.gs ∧
    ∃ r, (t.lane l).share.pending = (s.lane l).share.pending ++ [r] ∧ r.b = s.clk.period ∧ r.half = false ∧
      r.mlim = (s.lane l).wp.mods.map Module.mlim ∧ r.res.runs = (s.lane l).share.runs + 1) ∧
  (∀ s l, computing s l = false ∨ atShare s = false ∨ shareMode s = false → Completes (.shareRunStart l) s fun t => t = s) ∧
  (∀ s l r, computing s l = true →
    ((s.lane l).share.pending.find? fun r => !r.half && r.b + (if s.clk.long then 4 else 8) == s.clk.period) = some r →
    Completes (.shareApply l) s fun t =>
      (t.lane l).share.gb = ((s.lane l).share.gb.zip r.gb).map (fun p => min p.1 p.2) ∧
      (t.lane l).share.gs = ((s.lane l).share.gs.zip r.gs).map (fun p => min p.1 p.2) ∧
      (t.lane l).share.offerP = (t.lane l).share.gb ∧ (t.lane l).share.runs = r.res.runs ∧ (t.lane l).share.bBud = r.res.bBud ∧
      (t.lane l).share.hi = r.res.hi ∧ (t.lane l).share.lam = r.res.lam) ∧
  (∀ s l r, computing s l = true →
    ((s.lane l).share.pending.find? fun r => r.half && r.b + (if s.clk.long then 4 else 8) + 2 == s.clk.period) = some r →
    Completes (.shareIncreaseApply l) s fun t =>
      (t.lane l).share.gb = r.gb ∧ (t.lane l).share.gs = r.gs ∧ (t.lane l).share.offerP = r.gb ∧
      (t.lane l).share.pending = (s.lane l).share.pending.filter fun q => q.b != r.b) ∧
  (∀ s l (i : Fin 8), (nth (s.lane l).share.strs i).cont = true → (nth (s.lane l).share.strs i).idleSince.isSome = true →
    s.modes.mode ≠ .commission → Completes (.stringContactorHoldExpiry l i) s fun t =>
      nth (t.lane l).share.strs i = { nth (s.lane l).share.strs i with cont := false } ∧
      ∀ j, j ≠ i.val → nth (t.lane l).share.strs j = nth (s.lane l).share.strs j) ∧
  (∀ s l g, Completes (.gridStatusReceived l g) s fun t =>
    (t.lane l).grid.recs = (g :: (s.lane l).grid.recs).take 4 ∧ (t.lane l).grid.fresh = true ∧ (t.lane l).grid.linkLost = false ∧
    (t.lane l).grid.arrivals = (s.clk.period :: (s.lane l).grid.arrivals).take 4 ∧ (t.lane l).grid.ready = !(g.flags.getLsbD 2)) ∧
  (∀ s l, Completes (.gridStatusStale l) s fun t =>
    (t.lane l).grid.fresh = false ∧ (t.lane l).grid.linkLost = true ∧ (t.lane l).share.flags = (s.lane l).share.flags ||| 4)

/-- Bay grants of a run (R160, R161): where every bound and the budget are not negative, each grant lies between 0 and its bound and their sum
does not exceed the budget, which itself does not exceed the cap. -/
def Obligations.BayGrantsWithinBudget : Prop :=
  ∀ s l, computing s l = true → atShare s = true → shareMode s = true → Completes (.shareRunStart l) s fun t =>
    ∃ r, (t.lane l).share.pending = (s.lane l).share.pending ++ [r] ∧ ((∀ i < 24, 0 ≤ nth r.res.hi i) → 0 ≤ r.res.bBud →
      (∀ i < 24, 0 ≤ nth r.gb i ∧ nth r.gb i ≤ nth r.res.hi i) ∧ sumInt r.gb ≤ r.res.bBud ∧ r.res.bBud ≤ r.res.cap)

/-- Federation (R171-R174): a leader opens a round with the next number and sends a share frame under its own node-ID; every hub reports with its
node-ID and closes the round of the hubs it heard; a report adds the hub it names, or refreshes it, and never holds more than 7 other hubs;
a share frame that names this hub gives it its share and ends the fallback, and a second leader's in one round counts and gives the lower
of the two; a leader yields to a lower hub; without a share frame the hub falls back; the hub that finds itself leader takes over. Without federation enabled nothing changes. -/
def Obligations.FederationCommands : Prop :=
  (∀ s, fedOn s = true → s.clk.fed.leading = true → leaderCapable s = true → Completes .federationShareSend s fun t =>
    t.clk.fed.round = s.clk.fed.round + 1 ∧ t.clk.fed.fallback = false ∧ t.clk.fed.lastShare.isSome = true ∧
    ∃ f, t.clk.fed.txShare = some f ∧ f.round = s.clk.fed.round + 1 ∧ f.ver = 1 ∧ f.leader = BitVec.ofNat 8 (ownNode s)) ∧
  (∀ s, fedOn s = true → s.modes.mode ≠ .commission → Completes .federationReportSend s fun t =>
    t.clk.fed.hubs = s.clk.fed.hubs.map closeRound ∧
    ∃ r, t.clk.fed.txReport = some r ∧ r.node = BitVec.ofNat 8 (ownNode s) ∧ r.ver = 1 ∧ r.weight = BitVec.ofNat 16 (cfgN s 0x3230 4)) ∧
  (∀ s f, fedOn s = true → f.ver = 1 → f.node.toNat ≠ ownNode s → (s.clk.fed.hubs.find? fun h => h.node == f.node) = none →
    s.clk.fed.hubs.length < 7 → Completes (.federationReportReceived f) s fun t =>
      t.clk.fed.hubs = s.clk.fed.hubs ++ [{ node := f.node, rank := f.rank, weight := f.weight, want := f.want, flags := f.flags
                                            sent := 0, acked := if ackKnown s.clk.fed.round f.ack then f.applied else 0
                                            silent := 0, heard := true, run := 0 }]) ∧
  (∀ s f old, fedOn s = true → f.ver = 1 → f.node.toNat ≠ ownNode s → (s.clk.fed.hubs.find? fun h => h.node == f.node) = some old →
    Completes (.federationReportReceived f) s fun t => t.clk.fed.hubs = s.clk.fed.hubs.map fun h =>
      if h.node = f.node then
        { node := f.node, rank := f.rank, weight := f.weight, want := f.want, flags := f.flags, sent := old.sent
          acked := if ackKnown s.clk.fed.round f.ack then f.applied else old.acked, silent := 0, heard := true, run := old.run }
      else h) ∧
  (∀ s f, (s.clk.fed.hubs.find? fun h => h.node == f.node) = none → 7 ≤ s.clk.fed.hubs.length →
    Completes (.federationReportReceived f) s fun t => t = s) ∧
  (∀ s f v, fedOn s = true → f.ver = 1 → frameShare s f = some v → s.clk.fed.leading = false → s.clk.fed.sharedIn ≠ some (roundNow s) →
    Completes (.federationShareReceived f) s fun t =>
      t.clk.fed.lastShare = some v ∧ t.clk.fed.round = f.round ∧ t.clk.fed.leaderNode = f.leader ∧ t.clk.fed.fallback = false) ∧
  (∀ s f v, fedOn s = true → f.ver = 1 → frameShare s f = some v → s.clk.fed.leading = false → s.clk.fed.sharedIn = some (roundNow s) →
    s.clk.fed.leaderNode ≠ f.leader → Completes (.federationShareReceived f) s fun t =>
      t.clk.fed.dual = s.clk.fed.dual + 1 ∧
      t.clk.fed.lastShare = some (if v.toNat < (s.clk.fed.lastShare.getD v).toNat then v else s.clk.fed.lastShare.getD v)) ∧
  (∀ s f, fedOn s = true → f.ver = 1 → before (f.rank.toNat, f.leader.toNat) (ownRank s, ownNode s) = true →
    Completes (.federationShareReceived f) s fun t => t.clk.fed.leading = false) ∧
  (∀ s, fedOn s = true → s.clk.fed.leading = false → Completes .federationFallback s fun t =>
    t.clk.fed = { s.clk.fed with fallback := true }) ∧
  (∀ s, selfLeader s = true → s.clk.fed.leading = false → Completes .leaderTakeover s fun t =>
    t.clk.fed = { s.clk.fed with leading := true, leaderNode := BitVec.ofNat 8 (ownNode s), leaderRank := BitVec.ofNat 8 (ownRank s)
                                 changes := s.clk.fed.changes + 1 }) ∧
  (∀ s f g, fedOn s = false → s.clk.fed.leading = false → Completes .federationShareSend s (fun t => t = s) ∧ Completes .federationReportSend s (fun t => t = s) ∧
    Completes (.federationReportReceived f) s (fun t => t = s) ∧ Completes (.federationShareReceived g) s (fun t => t = s) ∧
    Completes .federationFallback s (fun t => t = s) ∧ Completes .leaderTakeover s (fun t => t = s))

/-- Messages of the metrology section at a lane (R249, R265, R380): a milestone record whose number is a multiple of object 4130:03 starts a snapshot read;
a snapshot whose blocks are all held is published; an abandoned one leaves the published snapshot; a logbook copy becomes an event with
the entry's data; the active lane archives a signed record, with those it still holds, and keeps the highest number, and the other lane holds
the records the archive lacks. -/
def Obligations.SectionMessagesAtLane : Prop :=
  (∀ s l n g c, 7 ≤ (s.lane l).ctl.bootStep → n.toNat % cfgN s 0x4130 3 = 0 → Completes (.milestoneReceived l n g c) s fun t =>
    (t.lane l).reading = some { number := n, legal := g, blocks := [] } ∧ (t.lane l).published = (s.lane l).published) ∧
  (∀ s l n g c, n.toNat % cfgN s 0x4130 3 ≠ 0 → Completes (.milestoneReceived l n g c) s fun t => (t.lane l).reading = (s.lane l).reading) ∧
  (∀ s l k, (s.lane l).reading = some k → (∀ b < 292, k.blocks.any (fun p => p.1 == b) = true) →
    Completes (.snapshotPublish l) s fun t => (t.lane l).published = some k ∧ (t.lane l).reading = none) ∧
  (∀ s l, Completes (.snapshotAbandon l) s fun t => (t.lane l).reading = none ∧ (t.lane l).published = (s.lane l).published) ∧
  (∀ s l e, 7 ≤ (s.lane l).ctl.bootStep → Completes (.logCopyReceived l e) s fun t =>
    ∃ v, (t.lane l).evq = (s.lane l).evq ++ [v] ∧ v.kind = .logCopy ∧ v.code = e.code.setWidth 8 ∧ v.data = (padTo 12 e.data).take 12) ∧
  (∀ s l r, 7 ≤ (s.lane l).ctl.bootStep → activeLane s = some l → nandWorks s = true → Completes (.signedReceived l r) s fun t =>
    (t.lane l).signed = [] ∧ ∃ n, t.nand.lastSigned = some n ∧ r.number.toNat ≤ n.toNat) ∧
  (∀ s l r, 7 ≤ (s.lane l).ctl.bootStep → activeLane s ≠ some l → Completes (.signedReceived l r) s fun t =>
    (t.lane l).signed = ((s.lane l).signed ++ [r]).filter (signedAbove s.nand.lastSigned) ∧ t.nand = s.nand)
/-- The steps of a move (R181-R183, R187, Table 9.2): step 1 ends at the grants' apply period, step 3 when the switch is open, step 4 after
its dwell with the module WITHDRAWN (it reported FLT), settled, or on to step 5; step 5 ends at the target, step 7 at a share-cycle
boundary; each step's limit has its own way out, one move counts as abandoned once, a dwell that is over stays so, and nothing moves that is not
moving. -/
def Obligations.MoveSteps : Prop :=
  (∀ s l (j : Fin 96), ((s.lane l).mod j).st ≠ .moving →
    Completes (.moveStepAdvance l j) s (fun t => t.lane l = s.lane l) ∧ Completes (.moveStepTimeout l j) s (fun t => (t.lane l).wp = (s.lane l).wp)) ∧
  (∀ s l (j : Fin 96), ((s.lane l).mod j).st = .moving → ((s.lane l).mod j).step = 1 →
    (((s.lane l).mod j).startW + (if s.clk.long then 4 else 8) ≤ s.clk.period →
      Completes (.moveStepAdvance l j) s fun t => (t.lane l).mod j = { (s.lane l).mod j with step := 2 }) ∧
    (s.clk.period < ((s.lane l).mod j).startW + (if s.clk.long then 4 else 8) →
      Completes (.moveStepAdvance l j) s fun t => (t.lane l).mod j = (s.lane l).mod j)) ∧
  (∀ s l (j : Fin 96), ((s.lane l).mod j).st = .moving → ((s.lane l).mod j).step = 2 → (nth (s.lane l).modLoops j).st = .off →
    Completes (.moveStepAdvance l j) s fun t => (t.lane l).mod j = { (s.lane l).mod j with step := 3, tgt := 0, en := false, dwell := 0 }) ∧
  (∀ s l (j : Fin 96), ((s.lane l).mod j).st = .moving → ((s.lane l).mod j).step = 3 → atPos s (s.lane l) j 0 = true →
    Completes (.moveStepAdvance l j) s fun t => (t.lane l).mod j = { (s.lane l).mod j with step := 4, dwell := 0 }) ∧
  (∀ s l (j : Fin 96), ((s.lane l).mod j).st = .moving → ((s.lane l).mod j).step = 4 → dwellPeriods s 4 ≤ ((s.lane l).mod j).dwell →
    (((s.lane l).mod j).flt = true → ((s.lane l).mod j).after ≠ .retired →
      Completes (.moveStepAdvance l j) s fun t => ((t.lane l).mod j).st = .withdrawn ∧ ((t.lane l).mod j).bay = 0) ∧
    (((s.lane l).mod j).flt = false → ((s.lane l).mod j).target = 0 →
      Completes (.moveStepAdvance l j) s fun t =>
        ((t.lane l).mod j).st = ((s.lane l).mod j).after ∧ ((t.lane l).mod j).bay = 0 ∧ ((t.lane l).mod j).step = 0) ∧
    (((s.lane l).mod j).flt = false → ((s.lane l).mod j).target ≠ 0 → nth (s.lane l).share.need (((s.lane l).mod j).target - 1) ≤ 0 →
      Completes (.moveStepAdvance l j) s fun t => ((t.lane l).mod j).st = .free) ∧
    (((s.lane l).mod j).flt = false → ((s.lane l).mod j).target ≠ 0 → 0 < nth (s.lane l).share.need (((s.lane l).mod j).target - 1) →
      placing s = true → Completes (.moveStepAdvance l j) s fun t =>
        (t.lane l).mod j = { (s.lane l).mod j with step := 5, tgt := ((s.lane l).mod j).target, en := false, dwell := 0 })) ∧
  (∀ s l (j : Fin 96), ((s.lane l).mod j).st = .moving → ((s.lane l).mod j).step = 5 ∨ ((s.lane l).mod j).step = 6 → ((s.lane l).mod j).flt = true →
    Completes (.moveStepAdvance l j) s fun t => (t.lane l).mod j = { reopenSwitch .withdrawn ((s.lane l).mod j) with counted := true } ∧
      (t.lane l).wp.abandoned = (s.lane l).wp.abandoned + (if ((s.lane l).mod j).counted then 0 else 1)) ∧
  (∀ s l (j : Fin 96), ((s.lane l).mod j).st = .moving → ((s.lane l).mod j).step = 5 → ((s.lane l).mod j).flt = false →
    reportsFlt s (s.lane l) j = false → atPos s (s.lane l) j ((s.lane l).mod j).target = true →
    Completes (.moveStepAdvance l j) s fun t => (t.lane l).mod j = { (s.lane l).mod j with step := 6, dwell := 0 }) ∧
  (∀ s l (j : Fin 96), ((s.lane l).mod j).st = .moving → ((s.lane l).mod j).step = 3 → Completes (.moveStepTimeout l j) s fun t =>
    ((t.lane l).mod j).st = .retired ∧ ((t.lane l).mod j).tgt = 0 ∧ ((t.lane l).mod j).en = false ∧ ((t.lane l).mod j).retireCause = 3 ∧
    (t.lane l).wp.retirements = (s.lane l).wp.retirements + (if ((s.lane l).mod j).retireCause = 0 then 1 else 0) ∧
    (t.lane l).wp.abandoned = (s.lane l).wp.abandoned + (if ((s.lane l).mod j).counted then 0 else 1)) ∧
  (∀ s l (j : Fin 96), ((s.lane l).mod j).st = .moving → ((s.lane l).mod j).step = 5 → Completes (.moveStepTimeout l j) s fun t =>
    (t.lane l).mod j = { reopenSwitch .free ((s.lane l).mod j) with counted := true } ∧
    (t.lane l).wp.abandoned = (s.lane l).wp.abandoned + (if ((s.lane l).mod j).counted then 0 else 1)) ∧
  (∀ s l (j : Fin 96), ((s.lane l).mod j).st = .moving → ((s.lane l).mod j).step = 4 ∨ ((s.lane l).mod j).step = 6 →
    Completes (.moveStepTimeout l j) s fun t => (t.lane l).mod j =
      if dwellDone s ((s.lane l).mod j) = true ∨ stepHolds s (s.lane l) j ((s.lane l).mod j) = true then (s.lane l).mod j
      else { (s.lane l).mod j with dwell := 0 }) ∧
  (∀ s l (j : Fin 96), Shape s → atShare s = true → servesSessions s = true → ((s.lane l).mod j).st = .moving → ((s.lane l).mod j).step = 6 →
    dwellPeriods s 6 ≤ ((s.lane l).mod j).dwell → ((s.lane l).mod j).startW + (if s.clk.long then 1200 else 2400) ≤ s.clk.period →
    ((s.lane l).mod j).flt = false → Completes (.moveRampUp l j) s fun t =>
      ((t.lane l).mod j).st = .serving ∧ ((t.lane l).mod j).bay = ((s.lane l).mod j).target ∧ ((t.lane l).mod j).en = true ∧
      ((t.lane l).mod j).tgt = ((s.lane l).mod j).target ∧ ((t.lane l).mod j).moves = ((s.lane l).mod j).moves + 1 ∧
      (t.lane l).wp.completed = (s.lane l).wp.completed + 1) ∧
  (∀ s l (j : Fin 96), atShare s = false → Completes (.moveRampUp l j) s fun t => t.lane l = s.lane l)

/-- Reassessment, takeover and the theta trend (R179, R180, R184, R413): a reassessment runs only at its boundary while placement runs; it leaves
each move in progress, withdraws a serving module that is no longer usable, and starts moves only of modules whose cabinet reaches the bay; a module
with its switch open is taken FREE or SPARE; a window with fewer than 1,000 samples is dropped; one whose
mean exceeds the limit is counted. -/
def Obligations.PlacementCommands : Prop :=
  (∀ s l, computing s l = false ∨ placing s = false ∨ s.clk.period % placeLen s ≠ 0 → Completes (.reassessment l) s fun t => t = s) ∧
  (∀ s l, Shape s → computing s l = true → placing s = true → s.clk.period % placeLen s = 0 → Completes (.reassessment l) s fun t =>
    (∀ j : Fin 96, ((s.lane l).mod j).st = .moving → (t.lane l).mod j = { (s.lane l).mod j with donorRun := 0 }) ∧
    (∀ j : Fin 96, ((s.lane l).mod j).st = .serving → ((s.lane l).mod j).retireDue = false → moduleUsable s (s.lane l) j = false →
      cabUp s (s.lane l) j = true →
      ((t.lane l).mod j).st = .moving ∧ ((t.lane l).mod j).step = 1 ∧ ((t.lane l).mod j).target = 0 ∧ ((t.lane l).mod j).after = .withdrawn) ∧
    (∀ j : Fin 96, ((s.lane l).mod j).st ≠ .moving → ((t.lane l).mod j).st = .moving → ((t.lane l).mod j).target ≠ 0 →
      ((t.lane l).mod j).step = 1 ∧ ((t.lane l).mod j).startW = s.clk.period ∧ ((t.lane l).mod j).mlim = 0 ∧
      (reachOf s j).testBit (((t.lane l).mod j).target - 1) = true)) ∧
  (∀ s l (j : Fin 96), Shape s → ((s.lane l).mod j).afresh = true → atShare s = true → cabUp s (s.lane l) j = true →
    (modCab s j).isSome = true → ((s.lane l).mod j).st ≠ .retired → modPos (moduleLast s (s.lane l) j) = 0 →
    moduleUsable s (s.lane l) j = true → ((s.lane l).mod j).after ≠ .free → ((s.lane l).mod j).after ≠ .spare →
    Completes (.moduleTakeover l j) s fun t =>
      ((t.lane l).mod j).st = (if modN s j 5 = 0 then .free else .spare) ∧ ((t.lane l).mod j).afresh = false ∧
      ((t.lane l).mod j).bay = 0 ∧ ((t.lane l).mod j).tgt = 0 ∧ ((t.lane l).mod j).en = false) ∧
  (∀ s l (j : Fin 96), ((s.lane l).mod j).afresh = false ∨ atShare s = false ∨ cabUp s (s.lane l) j = false →
    Completes (.moduleTakeover l j) s fun t => t.lane l = s.lane l) ∧
  (∀ s l (j : Fin 96), Shape s → ((s.lane l).mod j).thetaN < 1000 → ((s.lane l).mod j).thetaOver = 0 → Completes (.thetaWindowClose l j) s fun t =>
    (t.lane l).mod j = { (s.lane l).mod j with thetaSum := 0, thetaN := 0 }) ∧
  (∀ s l (j : Fin 96), Shape s → 1000 ≤ ((s.lane l).mod j).thetaN → modN s j 7 ≠ 0 →
    Completes (.thetaWindowClose l j) s fun t =>
    let m := (s.lane l).mod j
    let r := (t.lane l).mod j
    r.thetaMean = m.thetaSum / m.thetaN ∧ r.thetaN = 0 ∧
    (modN s j 7 * (1000 + cfgN s 0x3300 8) < m.thetaSum / m.thetaN * 1000 → r.thetaOver = m.thetaOver + 1) ∧
    (m.thetaSum / m.thetaN * 1000 ≤ modN s j 7 * (1000 + cfgN s 0x3300 8) → r.thetaOver = 0))

/-- Relief and testing of tiles (R29, R189-R191): the spare is loaded for a faulty tile, takes its role, and the tile goes under test; without a
spare a fast tile's place goes under test; a scheduled test swaps a working tile with the spare; a passed test makes the tile the
spare, a failed one retires it. -/
def Obligations.TileRelief : Prop :=
  (∀ s l (t : Fin 10), (nth (s.lane l).tiles t).fault = false → Completes (.tileRelief l t) s fun u =>
    (u.lane l).tiles = (s.lane l).tiles ∧ (u.lane l).wp = (s.lane l).wp) ∧
  (∀ s l (t : Fin 10) k, Shape s → (nth (s.lane l).tiles t).fault = true → (s.lane l).wp.relieving = none → spareTileNo (s.lane l) = some k →
    k ≠ t.val → Completes (.tileRelief l t) s fun u =>
      (u.lane l).wp.relieving = some t.val ∧ (nth (u.lane l).tiles t).relieved = true ∧ (nth (u.lane l).tiles t).running = none ∧
      (nth (u.lane l).tiles k).slots = (nth (s.lane l).tiles t).slots ∧
      (nth (u.lane l).tiles k).instrBanks = (nth (s.lane l).tiles t).instrBanks) ∧
  (∀ s l (t : Fin 10), Shape s → (nth (s.lane l).tiles t).fault = true → (s.lane l).wp.relieving = none → spareTileNo (s.lane l) = none →
    (nth (s.lane l).tiles t).role ≠ .slow → Completes (.tileRelief l t) s fun u => (nth (u.lane l).tiles t).role = .underTest) ∧
  (∀ s l (t : Fin 10) k, Shape s → (s.lane l).wp.relieving = some t.val → spareTileNo (s.lane l) = some k → k ≠ t.val →
    Completes (.spareTileTakeover l) s fun u =>
      (nth (u.lane l).tiles k).role = (nth (s.lane l).tiles t).role ∧ (nth (u.lane l).tiles t).role = .underTest ∧
      (u.lane l).wp.relieving = none ∧ (u.lane l).wp.reliefs = (s.lane l).wp.reliefs + 1) ∧
  (∀ s l, (s.lane l).wp.relieving = none → Completes (.spareTileTakeover l) s fun u =>
    (u.lane l).tiles = (s.lane l).tiles ∧ (u.lane l).wp = (s.lane l).wp) ∧
  (∀ s l (t : Fin 10) k, Shape s → computing s l = true → atShare s = true → (nth (s.lane l).tiles t).role = .fast →
    (nth (s.lane l).tiles t).fault = false → (s.lane l).wp.relieving = none → spareTileNo (s.lane l) = some k →
    Completes (.rotatingTileTest l t) s fun u =>
      (nth (u.lane l).tiles t).role = .underTest ∧ (nth (u.lane l).tiles k).role = .fast ∧
      (nth (u.lane l).tiles k).slots = (nth (s.lane l).tiles t).slots ∧ (u.lane l).health.testing = true ∧ (u.lane l).ctl.testing = some t.val) ∧
  (∀ s l (t : Fin 10), atShare s = false → Completes (.rotatingTileTest l t) s fun u => u = s) ∧
  (∀ s l (t : Fin 10) (pass : Bool), Shape s → (nth (s.lane l).tiles t).role = .underTest → Completes (.tileTestComplete l t pass) s fun u =>
    (nth (u.lane l).tiles t).role = (if pass then .spare else .retired) ∧ (nth (u.lane l).tiles t).corrected = (nth (s.lane l).tiles t).corrected ∧
    (u.lane l).ctl.testsPassed = (s.lane l).ctl.testsPassed + (if pass then 1 else 0) ∧
    (u.lane l).ctl.testsFailed = (s.lane l).ctl.testsFailed + (if pass then 0 else 1) ∧ (u.lane l).health.testing = false) ∧
  (∀ s l (t : Fin 10) (pass : Bool), (nth (s.lane l).tiles t).role ≠ .underTest → Completes (.tileTestComplete l t pass) s fun u =>
    (u.lane l).tiles = (s.lane l).tiles)
/-- Rails (R43, R44, R57, R69, Tables 2.8 and 2.10): a fault latches its bit of object 2040:06 and the cause RAIL of 2020:01 and
2020:02; a lane's rail holds that lane in reset until it is back, VCOM, VSER or VIO drives SAFE_N low, resets both lanes and takes
SAFE cause 6, ended by a device reset when the rails are back; VJCT loses the Junction and floats SAFE_N, with VMET neither; VBK
sets its low flag and stands among the rails out of range, and VBK and VIO out together lose the backup domain (DEDUCED, log 27); a
short excursion is only counted; a write of ones clears latches. -/
def Obligations.RailCommands : Prop :=
  (∀ s, Completes (.railFault .vbk true) s fun t => t = s) ∧
  (∀ s, s.rails.out.contains .vio = false → Completes (.railFault .vbk false) s fun t =>
    t.bk = { s.bk with vbkLow := true } ∧ t.rails.out.contains .vbk = true ∧ t.modes = s.modes) ∧
  (∀ s l, s.rails.out.contains .vio = true → Completes (.railFault .vbk false) s fun t =>
    t.bk = Backup.reset ∧ t.lane l = (s.lane l).porReset) ∧
  (∀ s (ov : Bool), s.rails.out.contains .vbk = true → Completes (.railFault .vio ov) s fun t => t.bk = Backup.reset) ∧
  (∀ s r b (ov : Bool), railBit r = some b → s.rails.out.contains .vbk = false → Completes (.railFault r ov) s fun t =>
    t.bk.railLatches = s.bk.railLatches ||| BitVec.ofNat 16 (2 ^ (if ov then b + 1 else b)) ∧
    t.bk.resetLatches = s.bk.resetLatches ||| 0x10 ∧ t.bk.lastReset = 4 ∧ t.rails.out.contains r = true) ∧
  (∀ s (ov : Bool), Completes (.railFault .vmet ov) s fun t => t.rails.out.contains .vmet = true ∧ t.modes = s.modes ∧ t.jct = s.jct) ∧
  (∀ s l r (ov : Bool), railLane r = some l → Completes (.railFault r ov) s fun t =>
    (t.lane l).ctl.railHeld = true ∧ (t.lane l).ctl.bootStep = 0 ∧ (t.lane l).bayLoops = LaneState.reset.bayLoops) ∧
  (∀ s r (ov : Bool), r = .vcom ∨ r = .vser ∨ r = .vio → s.modes.mode ≠ .backup → Completes (.railFault r ov) s fun t =>
    t.jct.safeN = .low ∧ t.jct.mux = none ∧ t.rails.ringHeld = true ∧ t.laneA.ctl.bootStep = 0 ∧ t.laneB.ctl.bootStep = 0) ∧
  (∀ s r (ov : Bool), r = .vcom ∨ r = .vser ∨ r = .vio → s.modes.mode ≠ .safe → s.modes.mode ≠ .boot → s.modes.mode ≠ .backup →
    Completes (.railFault r ov) s fun t => t.modes.mode = .safe ∧ t.modes.safeCause = 6) ∧
  (∀ s (ov : Bool), s.jct.lost = false → Completes (.railFault .vjct ov) s fun t =>
    t.jct.lost = true ∧ t.jct.ready = false ∧ t.jct.safeN = .hiZ ∧ t.laneA.health.jctLost = true ∧ t.laneB.health.jctLost = true) ∧
  (∀ s (ov : Bool), s.jct.lost = true → Completes (.railFault .vjct ov) s fun t => t.jct = { s.jct with safeN := .hiZ }) ∧
  (∀ s r, s.rails.out.contains r = false → Completes (.railRecovered r) s fun t => t = s) ∧
  (∀ s r, s.rails.out.contains r = true → s.rails.ringHeld = false → Completes (.railRecovered r) s fun t =>
    t.rails.out = s.rails.out.filter fun q => q != r) ∧
  (∀ s r l, s.rails.out.contains r = true → s.rails.ringHeld = false → railLane r = some l →
    (∀ q ∈ s.rails.out, q ≠ r → railLane q ≠ some l) → Completes (.railRecovered r) s fun t => (t.lane l).ctl.railHeld = false) ∧
  (∀ s r, s.rails.out.contains r = true → s.rails.ringHeld = true → s.modes.mode ≠ .backup →
    (∀ q ∈ s.rails.out, q ≠ r → groupRails.contains q = false) → Completes (.railRecovered r) s fun t =>
    t.modes.mode = .boot ∧ t.rails.inReset = true ∧ t.rails.ringHeld = false ∧ t.bk.lastReset = 4) ∧
  (∀ s, Completes (.railShortExcursion .vbk) s fun t => t = s) ∧
  (∀ s r, r ≠ .vbk → Completes (.railShortExcursion r) s fun t => t = { s with rails := { s.rails with short := s.rails.short + 1 } }) ∧
  (∀ s, s.modes.mode ≠ .boot → s.modes.mode ≠ .backup → (activeLane s).isSome = true → ∀ m, Completes (.railFaultLatchClear m) s fun t =>
    t.bk = { s.bk with railLatches := s.bk.railLatches &&& ~~~m }) ∧
  (∀ s, s.jct.lost = false → Completes .junctionCrystalLost s fun t =>
    t.jct.lost = true ∧ t.jct.safeN = .hiZ ∧ t.laneA.health.jctLost = true ∧ t.laneB.health.jctLost = true) ∧
  (∀ s, s.jct.lost = true → Completes .junctionCrystalLost s fun t => t.jct = { s.jct with safeN := .hiZ }) ∧
  (∀ s, Completes .backupCrystalLost s fun t => t.bk = { s.bk with invalid := true })

/-- Reset, power-fail and BACKUP entry (R44, R45, R57, R69, R292): the reset input resets after 10 us, never in BACKUP; the release
starts BOOT at time 0 with the rails of groups 1 to 3 and VJCT in range, and waits for them; BACKUP entry resets all but the
metrology section and floats SAFE_N; the warning latches time, validity and PFAIL once and ends with every rail in range; SAFE
cause 4 ends in a reset when the warning has gone. -/
def Obligations.ResetAndPowerFail : Prop :=
  (∀ s (n : Nat), n < 10 → Completes (.resetPin n) s fun t => t = s) ∧
  (∀ s (n : Nat), 10 ≤ n → s.modes.mode ≠ .backup → Completes (.resetPin n) s fun t =>
    t.modes.mode = .boot ∧ t.rails.inReset = true ∧ t.bk.lastReset = 6 ∧ t.bk.resetCount = s.bk.resetCount + 1 ∧
    t.bk.lastResetTime = s.bk.rtc ∧ t.bk.rtc = s.bk.rtc ∧ t.met = s.met) ∧
  (∀ s (n : Nat), s.modes.mode = .backup → Completes (.resetPin n) s fun t => t = s) ∧
  (∀ s, s.rails.inReset = true → (∀ r ∈ s.rails.out, r = .vbk ∨ r = .vmet) → Completes .resetRelease s fun t =>
    t.rails.inReset = false ∧ t.modes.mode = .boot ∧ t.modes.releasedAt = s.bk.rtc ∧ t.clk.ns = 0 ∧ t.bk = s.bk) ∧
  (∀ s r, s.modes.mode ≠ .backup → r ∈ s.rails.out → r ≠ .vbk → r ≠ .vmet → Completes .resetRelease s fun t => t = s) ∧
  (∀ s, s.modes.mode ≠ .backup → Completes .backupEntry s fun t =>
    t.modes.mode = .backup ∧ t.rails.inReset = true ∧ t.jct.safeN = .hiZ ∧ t.met = s.met) ∧
  (∀ s, s.modes.mode = .backup → s.rails.inReset = true → Completes .backupEntry s fun t => t = s) ∧
  (∀ s, s.bk.pfActive = false → Completes .powerFailWarning s fun t =>
    t.bk.pfActive = true ∧ t.bk.pfTime = s.bk.rtc ∧ t.bk.pfValid = !s.bk.invalid ∧ t.bk.warnings = s.bk.warnings + 1 ∧
    t.bk.resetLatches = s.bk.resetLatches ||| 0x8 ∧ t.bk.lastReset = 3 ∧ t.met.ctl.pfPending = true) ∧
  (∀ s, s.bk.pfActive = true → Completes .powerFailWarning s fun t => t = s) ∧
  (∀ s, s.bk.pfActive = true → s.rails.out = [] → Completes .powerFailEnd s fun t =>
    t.bk = { s.bk with pfActive := false } ∧ t.met.ctl.pfPending = false ∧ t.met.ctl.pfDone = false) ∧
  (∀ s, s.rails.out ≠ [] ∨ s.bk.pfActive = false → Completes .powerFailEnd s fun t => t = s) ∧
  (∀ s, s.modes.mode = .safe → s.modes.safeCause = 4 → s.bk.pfActive = false → Completes .powerFailSafeExit s fun t =>
    t.modes.mode = .boot ∧ t.rails.inReset = true ∧ t.bk.lastReset = 3) ∧
  (∀ s, s.modes.mode ≠ .safe ∨ s.modes.safeCause ≠ 4 ∨ s.bk.pfActive = true → Completes .powerFailSafeExit s fun t => t = s)

/-- Die temperature and thermal rhythm (R51-R53, R195, R203, R205): a lane's reading is the highest of its sensors in use, its stop
level stays set and STOP is latched; the Junction takes SAFE at 115 degC; an update runs and its results are published only at
their periods; the release of a bay sensor frees it only where it is quarantined. -/
def Obligations.TemperatureCommands : Prop :=
  (∀ s d l, s.rails.inReset = false → s.modes.mode ≠ .backup → Completes (.dieTempReading d) s fun t =>
    (∀ i < 4, nth (t.lane l).temp.excluded i = false → nth (match l with | .a => d.laneA | .b => d.laneB) i ≤ (t.lane l).temp.reported) ∧
    ((∃ i < 4, nth (t.lane l).temp.excluded i = false) → ∃ i < 4, nth (t.lane l).temp.excluded i = false ∧
      (t.lane l).temp.reported = nth (match l with | .a => d.laneA | .b => d.laneB) i) ∧
    ((s.lane l).temp.stop = true → (t.lane l).temp.stop = true) ∧
    ((s.lane l).temp.stop = false → (t.lane l).temp.stop = true → t.modes.dieStop = true) ∧
    (s.modes.dieStop = true → t.modes.dieStop = true) ∧
    ((t.lane l).temp.above110 = decide (1100 < (t.lane l).temp.reported)) ∧
    t.jct.temp = d.junction ∧ t.jct.metTemp = d.metro ∧
    t.jct.peak = max s.jct.peak (max t.laneA.temp.reported t.laneB.temp.reported)) ∧
  (∀ s d, s.rails.inReset = false → s.modes.mode ≠ .backup → s.modes.mode ≠ .boot → s.modes.mode ≠ .safe → s.jct.lost = false →
    1150 ≤ d.junction → Completes (.dieTempReading d) s fun t => t.modes.mode = .safe ∧ t.modes.safeCause = 3) ∧
  (∀ s d, s.rails.inReset = true → Completes (.dieTempReading d) s fun t => t = s) ∧
  (∀ s l, computing s l = true → s.clk.period % thermalLen s = 0 → Completes (.thermalUpdate l) s fun t =>
    (t.lane l).th.updates = (s.lane l).th.updates + 1 ∧ (t.lane l).th.ptx = (s.lane l).th.ptx ∧ (t.lane l).th.fan = (s.lane l).th.fan ∧
    (cfgN s 0x3402 1 = 0 → (t.lane l).th.nPtx = 0xFFFFFFFF)) ∧
  (∀ s l, computing s l = false ∨ s.clk.period % thermalLen s ≠ 0 → Completes (.thermalUpdate l) s fun t => t = s) ∧
  (∀ s l, computing s l = true → s.clk.period % thermalLen s = shareLen s → Completes (.thermalPublish l) s fun t =>
    (t.lane l).th.bays = (s.lane l).th.bays.map ThChan.publish ∧ (t.lane l).th.mods = (s.lane l).th.mods.map ThChan.publish ∧
    (t.lane l).th.strs = (s.lane l).th.strs.map ThChan.publish ∧ (t.lane l).th.ptx = (s.lane l).th.nPtx ∧ (t.lane l).th.fan = (s.lane l).th.nFan) ∧
  (∀ s l, computing s l = false ∨ s.clk.period % thermalLen s ≠ shareLen s → Completes (.thermalPublish l) s fun t => t = s) ∧
  (∀ s l (i : Fin 24) (k : Fin 16), writable s = true → (activeLane s).isSome = true → i.val < (s.lane l).th.bays.length →
    k.val < (nth (s.lane l).th.bays i).sensors.length →
    Completes (.sensorRelease (BitVec.ofNat 32 (2 ^ 24 + (i.val + 1) * 2 ^ 16 + k.val))) s fun t =>
      let old := nth (nth (s.lane l).th.bays i).sensors k
      nth (nth (t.lane l).th.bays i).sensors k = (if old.st = .quarantined then { old with st := .unavailable, count := 0, prev := none } else old))
/-- Mode requests (R56-R58, R62, Table 3.3): a permitted write waits as result 6, replaces an earlier one as result 5, and is refused
with result 1 in SAFE or for another code; where it may be taken, one for the present mode or the one under way changes no mode,
and each pair of Table 3.3 answers as the table says; the reset request acts on its key value alone. The results 5 and 6 and the
value a refused write leaves are the model's choice (log 31). -/
def Obligations.ModeRequests : Prop :=
  (∀ s (v : U8), (activeLane s).isSome = true → s.modes.mode ≠ .boot → s.modes.mode ≠ .backup → s.modes.mode ≠ .safe → v ∈ ([1, 2, 3, 5, 6, 7] : List U8) →
    Completes (.modeRequestWrite v) s fun t =>
      t.modes = { s.modes with requested := v, waiting := some v, result := if s.modes.waiting.isSome then 5 else 6 } ∧
      t.comm.response = some (0, [])) ∧
  (∀ s (v : U8), (activeLane s).isSome = true → s.modes.mode = .safe ∨ (v ∉ ([1, 2, 3, 5, 6, 7] : List U8) ∧ s.modes.mode ≠ .boot ∧ s.modes.mode ≠ .backup) →
    Completes (.modeRequestWrite v) s fun t => t.modes = { s.modes with result := 1 }) ∧
  (∀ s, s.modes.waiting = none ∨ mayTake s = false → Completes .modeRequestTaken s fun t => t = s) ∧
  (∀ s v, s.modes.waiting = some v → mayTake s = true →
    (v = s.modes.mode.code ∨ underWay v s = true → Completes .modeRequestTaken s fun t =>
      t.modes = { s.modes with waiting := none, result := 0 })) ∧
  (∀ s v, s.modes.waiting = some v → mayTake s = true → underWay v s = false →
    (v = 5 → s.modes.mode = .commission ∨ s.modes.mode = .idle ∨ s.modes.mode = .run ∨ s.modes.mode = .degraded ∨ s.modes.mode = .service →
      Completes .modeRequestTaken s fun t =>
      t.modes.mode = .safe ∧ t.modes.safeCause = 1 ∧ t.modes.result = 0 ∧
      ∃ q, t.modes.safe = some q ∧ q.cause = 1 ∧ q.k = s.clk.period ∧ q.t = msPeriods s (cfgN s 0x2010 9)) ∧
    (s.modes.mode = .idle → v = 1 ∨ v = 6 → Completes .modeRequestTaken s fun t =>
      t.modes = { s.modes with waiting := none, result := 0, pending := some (if v = 1 then .commission else .service, s.clk.period + shareLen s) }) ∧
    (s.modes.mode = .idle → v = 3 → s.sets.flags.getLsbD 0 = true → Completes .modeRequestTaken s fun t =>
      t.modes = { s.modes with waiting := none, result := 2 }) ∧
    (s.modes.mode = .idle → v = 3 → s.sets.flags.getLsbD 0 = false → metroReady s = false → Completes .modeRequestTaken s fun t =>
      t.modes = { s.modes with waiting := none, result := 3 }) ∧
    (s.modes.mode = .idle → v = 3 → s.sets.flags.getLsbD 0 = false → metroReady s = true → Completes .modeRequestTaken s fun t =>
      t.modes = { s.modes with waiting := none, result := 0,
                               pending := some (if laneCount s = 2 then .run else .degraded, s.clk.period + shareLen s) }) ∧
    (s.modes.mode = .run ∨ s.modes.mode = .degraded → v = 2 → Completes .modeRequestTaken s fun t =>
      t.modes = { s.modes with waiting := none, result := 0, pending := some (.idle, s.clk.period + msPeriods s 2000) }) ∧
    (s.modes.mode = .commission → v = 2 → cfgB s 0x2010 6 = true → Completes .modeRequestTaken s fun t =>
      t.modes = { s.modes with waiting := none, result := 0, pending := some (.idle, s.clk.period + msPeriods s 2000) }) ∧
    (s.modes.mode = .service → v = 2 → Completes .modeRequestTaken s fun t =>
      t.modes = { s.modes with waiting := none, result := 0, pending := some (.idle, s.clk.period + shareLen s) }) ∧
    (s.modes.mode = .commission → v = 2 → cfgB s 0x2010 6 = false → Completes .modeRequestTaken s fun t =>
      t.modes = { s.modes with waiting := none, result := 4 }) ∧
    ((s.modes.mode = .commission ∧ (v = 3 ∨ v = 6 ∨ v = 7)) ∨ (s.modes.mode = .run ∧ (v = 1 ∨ v = 6 ∨ v = 7)) ∨
      (s.modes.mode = .degraded ∧ (v = 1 ∨ v = 3 ∨ v = 6 ∨ v = 7)) ∨ (s.modes.mode = .service ∧ (v = 1 ∨ v = 3 ∨ v = 7)) → Completes .modeRequestTaken s fun t =>
      t.modes = { s.modes with waiting := none, result := 1 }) ∧
    (∀ l, s.modes.mode = .idle → v = 7 → activeLane s = some l → Completes .modeRequestTaken s fun t =>
      t.modes.mode = .backup ∧ t.bk.pwrEn = false ∧ t.bk.lastActive = some l ∧ t.jct.safeN = .hiZ)) ∧
  (∀ s (v : U32), (activeLane s).isSome = true → v ≠ 0x0000A55A → Completes (.resetRequest v) s fun t => t.modes = s.modes ∧ t.bk = s.bk) ∧
  (∀ s, (activeLane s).isSome = true → s.modes.mode = .safe → Completes (.resetRequest 0x0000A55A) s fun t =>
    t.modes.mode = .boot ∧ t.rails.inReset = true ∧ t.bk.lastReset = 7) ∧
  (∀ s, (activeLane s).isSome = true → s.modes.mode ≠ .boot → s.modes.mode ≠ .backup → s.modes.mode ≠ .safe →
    Completes (.resetRequest 0x0000A55A) s fun t => t.modes.mode = .safe ∧ t.modes.safeCause = 1 ∧ t.modes.resetAfter = true)

/-- The SAFE sequence (R59-R61, R141): SAFE is entered only on a cause that holds; a power-fail drives SAFE_N within 20 periods, causes
5 and 6 at once, cause 5 also during the ramp of another; at the end of the ramp the ramping bay loops are OFF; SAFE_N follows 10 ms
later while the Junction lives; the reset-cause latches clear by their mask. -/
def Obligations.SafeSequence : Prop :=
  (∀ s c, safeCauseHolds s c.toNat = false → Completes (.safeEntry c) s fun t => t = s) ∧
  (∀ s c, safeCauseHolds s c.toNat = true → s.modes.mode ≠ .safe → s.modes.mode ≠ .boot → s.modes.mode ≠ .backup → Completes (.safeEntry c) s fun t =>
    t.modes.mode = .safe ∧ t.modes.safeCause = c ∧ t.modes.pending = none ∧ t.modes.waiting = none ∧
    (c = 5 ∨ c = 6 → t.jct.safeN = .low) ∧
    (c = 4 → t.jct.safeDue = some (s.clk.period + 20) ∧ ∃ q, t.modes.safe = some q ∧ q.t = 16)) ∧
  (∀ s c, (s.modes.mode = .safe ∧ c ≠ 5) ∨ s.modes.mode = .boot ∨ s.modes.mode = .backup → Completes (.safeEntry c) s fun t => t = s) ∧
  (∀ s, safeCauseHolds s 5 = true → s.modes.mode = .safe → s.jct.lost = false → Completes (.safeEntry 5) s fun t =>
    t = { s with jct := { s.jct with safeN := .low } }) ∧
  (∀ s q l, Shape s → s.modes.safe = some q → s.modes.mode = .safe → q.k + q.t + 1 ≤ s.clk.period → Completes .safeRampEnd s fun t =>
    (∀ i : Fin 24, ((s.lane l).loop (.bay i)).st = .ramp → ((t.lane l).loop (.bay i)).st = .off ∧ ((t.lane l).loop (.bay i)).zeroDue = true) ∧
    t.modes.safe = none ∧ (q.cause = 1 ∨ q.cause = 2 ∨ q.cause = 3 → t.jct.safeDue = some (s.clk.period + msPeriods s 10))) ∧
  (∀ s, s.modes.safe = none → Completes .safeRampEnd s fun t => t = s) ∧
  (∀ s q, s.modes.safe = some q → s.clk.period < q.k + q.t + 1 → Completes .safeRampEnd s fun t => t = s) ∧
  (∀ s p, s.jct.safeDue = some p → p ≤ s.clk.period → s.jct.lost = false → s.modes.resetAfter = false → Completes .safeNAssert s fun t =>
    t = { s with jct := { s.jct with safeN := .low, safeDue := none } }) ∧
  (∀ s p, s.jct.safeDue = some p → p ≤ s.clk.period → s.jct.lost = false → s.modes.resetAfter = true → Completes .safeNAssert s fun t =>
    t.modes.mode = .boot ∧ t.rails.inReset = true ∧ t.bk.lastReset = 7) ∧
  (∀ s, s.jct.safeDue = none ∨ s.jct.lost = true → Completes .safeNAssert s fun t => t = s) ∧
  (∀ s m, (activeLane s).isSome = true → s.modes.mode ≠ .boot → s.modes.mode ≠ .backup → Completes (.resetCauseClear m) s fun t =>
    t.bk = { s.bk with resetLatches := s.bk.resetLatches &&& ~~~m })

/-- The boot sequence (R64-R67, R70): the Junction's step decides READY and drives SAFE_N low; a lane that may not boot does nothing, one
that fails step 2 halts, one with no slot that verifies enters recovery, one that passes its tests before a lane is active reports
step 7; the last-active lane that reported is appointed; a lane still booting at its timeout and a hung one are reset. -/
def Obligations.BootCommands : Prop :=
  (∀ s r c, s.modes.mode = .boot → s.rails.inReset = false → s.rails.out.contains .vjct = false → Completes (.junctionBoot r c) s fun t =>
    t.jct = { s.jct with lost := !(r && c), ready := r && c, safeN := if r && c then .low else s.jct.safeN } ∧ t.modes = s.modes ∧
    (r = true → c = true → ∀ l, (t.lane l).health.jctLost = false)) ∧
  (∀ s r c, s.modes.mode ≠ .boot ∨ s.rails.inReset = true ∨ s.rails.out.contains .vjct = true → Completes (.junctionBoot r c) s fun t =>
    t = s) ∧
  (∀ s l f, mayBoot s l = false → Completes (.laneBoot l f) s fun t => t = s) ∧
  (∀ s l f, mayBoot s l = true → f.step2Ok = false → Completes (.laneBoot l f) s fun t =>
    (t.lane l).ctl.halted = true ∧ (t.lane l).ctl.bootStep = 0) ∧
  (∀ s l f, mayBoot s l = true → f.step2Ok = true → f.image0Ok = false → f.image1Ok = false → Completes (.laneBoot l f) s fun t =>
    (t.lane l).ctl.recovery = true ∧ (t.lane l).ctl.bootStep = 3) ∧
  (∀ s l f, mayBoot s l = true → f.step2Ok = true → (s.lane l).ctl.recovery = false → f.otherFail = false → f.failedTiles = [] →
    f.nandOk = true → f.image0Ok = true → f.image1Ok = true → ((s.lane l).slots.slot (s.lane l).slots.current).present = true →
    s.upd.st = .none → s.jct.lost = false → activeLane s = none →
    Completes (.laneBoot l f) s fun t =>
      (t.lane l).ctl.bootStep = 7 ∧ (t.lane l).ctl.metroReady = (f.metroAnswers && s.met.ctl.st == .ready) ∧ (t.jct.lane l).reported = true) ∧
  (∀ s l, s.modes.mode = .boot → s.jct.ready = true → s.jct.lost = false → s.bk.lastActive = some l → (s.jct.lane l).reported = true →
    Completes .activeLaneAppoint s fun t =>
      (t.jct.lane l).role = .active ∧ t.jct.mux = some l ∧ t.comm.nmt = .preOperational ∧
      (t.modes.mode = .idle ∨ t.modes.mode = .commission) ∧ ((s.lane l).ctl.cfgOutcome ≠ 0 → t.modes.mode = .commission)) ∧
  (∀ s, s.modes.mode ≠ .boot ∨ s.jct.ready = false ∨ s.jct.lost = true → Completes .activeLaneAppoint s fun t => t = s) ∧
  (∀ s l, roleOf s l ≠ .booting ∨ 7 ≤ (s.lane l).ctl.bootStep → Completes (.laneBootTimeout l) s fun t => t = s) ∧
  (∀ s l, roleOf s l = .booting → (s.lane l).ctl.bootStep < 7 → (s.lane l).ctl.recovery = false → (s.jct.lane l.other).reported = true →
    Completes (.laneBootTimeout l) s fun t => (t.jct.lane l).resets = (s.jct.lane l).resets + 1 ∧ (t.lane l).ctl.bootStep = 0) ∧
  (∀ s l, 2 ≤ (s.lane l).ctl.bootStep → Completes (.laneWatchdogExpiry l) s fun t =>
    t.lane l = (s.lane l).afterReset ∧ t.lane l.other = s.lane l.other ∧
    t.bk.lastReset = (if l = .a then 8 else 9) ∧
    t.bk.resetLatches = s.bk.resetLatches ||| BitVec.ofNat 16 (2 ^ (if l = .a then 8 else 9)))
/-- The dictionary (R71-R74, R78, R80, R82, Table 4.3): without an active lane nobody answers; a refused write answers its code and
changes nothing else; an index or subindex absent from the tables and a read-only object are refused as Table 4.3 orders; a set
object goes to the shadow set, a live object into its cell, where it waits for its boundary, an object of no unit into its own
value; a USDO timeout ends its session; a datagram from another source is counted, a repeated one is answered from the cache, any
other is executed and answered with its sequence number. -/
def Obligations.DictionaryCommands : Prop :=
  (∀ s i k d, activeLane s = none → Completes (.objectWrite i k d) s (fun t => t = s) ∧ Completes (.liveWrite i k d) s (fun t => t = s)) ∧
  (∀ s i k d, (activeLane s).isSome = true → writeCode s i.toNat k.toNat d ≠ 0 → Completes (.objectWrite i k d) s fun t =>
    t = { s with comm := { s.comm with response := some (writeCode s i.toNat k.toNat d, []) } }) ∧
  (∀ s (i : U16) (k : U8) d, indexPresent i.toNat = false → writeCode s i.toNat k.toNat d = 0x06020000) ∧
  (∀ s (i : U16) (k : U8) d, indexPresent i.toNat = true → findRow i.toNat k.toNat = none → writeCode s i.toNat k.toNat d = 0x06090011) ∧
  (∀ s (i : U16) (k : U8) d r, findRow i.toNat k.toNat = some r → r.right = .ro ∨ r.right = .const → writeCode s i.toNat k.toNat d = 0x06010002) ∧
  (∀ s i k d r, (activeLane s).isSome = true → findRow i.toNat k.toNat = some r → r.right = .rws → writeCode s i.toNat k.toNat d = 0 →
    Completes (.objectWrite i k d) s fun t =>
      t = { s with sets := { s.sets with shadow := setPut s.sets.shadow i.toNat k.toNat d }, comm := { s.comm with response := some (0, []) } }) ∧
  (∀ s i k d r, (activeLane s).isSome = true → findRow i.toNat k.toNat = some r → r.right = .rwl → writeCode s i.toNat k.toNat d = 0 →
    Completes (.liveWrite i k d) s fun t =>
      t.sets.published = s.sets.published ∧ t.sets.active = s.sets.active ∧
      t.sets.unpublished = s.sets.unpublished ++ [(objKey i.toNat k.toNat, r.clean d,
        if s.clk.period + 1 < (s.clk.period / shareLen s + 1) * shareLen s then (s.clk.period / shareLen s + 1) * shareLen s
        else (s.clk.period / shareLen s + 1) * shareLen s + shareLen s)] ∧
      (∃ c ∈ t.sets.live, ∃ p, c.key = objKey i.toNat k.toNat ∧ (c.copyA = some p ∨ c.copyB = some p) ∧ p.value = r.clean d ∧
        p.epoch = s.sets.epoch ∧ p.good = true) ∧ t.comm.response = some (0, [])) ∧
  (∀ s i k d r, (activeLane s).isSome = true → findRow i.toNat k.toNat = some r → r.right = .rw ∨ r.right = .wo →
    writeCode s i.toNat k.toNat d = 0 → unitWrite i.toNat k.toNat (r.clean d) s = none → Completes (.objectWrite i k d) s fun t =>
      t = { s with comm := { s.comm with rw := rwStore i.toNat k.toNat (r.clean d) s.comm.rw, response := some (0, []) } }) ∧
  (∀ s (n : Fin 4), (activeLane s).isSome = true → n.val < s.comm.sessions.length → Completes (.usdoTimeout n) s fun t =>
    nth t.comm.sessions n = { opened := false, abort := 0x05040000 } ∧ t.comm.response = some (0x05040000, [])) ∧
  (∀ s d, (activeLane s).isSome = true → d.port.toNat = cfgN s 0x1FA0 2 → hostAddress s d.source = false → Completes (.udpDatagramReceived d) s fun t =>
    t = { s with comm := { s.comm with dropped := s.comm.dropped + 1 } }) ∧
  (∀ s d e, (activeLane s).isSome = true → d.port.toNat = cfgN s 0x1FA0 2 → hostAddress s d.source = true → headerOk d = true →
    ((freshAnswers s).find? fun e => e.1 == d.source && e.2.1 == d.seq) = some e → Completes (.udpDatagramReceived d) s fun t =>
      t = { s with comm := { s.comm with response := some e.2.2.2, udpHeader := some (d.source, 1, 1, d.seq) } }) ∧
  (∀ s d a, (activeLane s).isSome = true → d.port.toNat = cfgN s 0x1FA0 2 → hostAddress s d.source = true → headerOk d = true →
    ((freshAnswers s).find? fun e => e.1 == d.source && e.2.1 == d.seq) = none →
    (runRequest d.req { s with comm := { s.comm with response := none } }).comm.response = some a → Completes (.udpDatagramReceived d) s fun t =>
      let q := runRequest d.req { s with comm := { s.comm with response := none } }
      t = { q with comm := { q.comm with cache := freshAnswers s ++ [(d.source, d.seq, s.clk.ns, a)], udpHeader := some (d.source, 1, 1, d.seq) } })

/-- The CANopen FD profile (R76, R77): an NMT command sets the state its name gives, outside Initialisation and with an active lane; a
reset of the communication returns to Pre-operational; a heartbeat is counted while object 1017 is not 0; PDOs run only in
Operational; a receive PDO of one object writes it, and discards a live value while a swap is pending; a transmit PDO starts its
inhibit time. The return to Pre-operational is PRESUMED (log 12). -/
def Obligations.CommunicationCommands : Prop :=
  (∀ s, (activeLane s).isSome = true → s.comm.nmt ≠ .initialisation →
    Completes .nmtStart s (fun t => t = { s with comm := { s.comm with nmt := .operational } }) ∧
    Completes .nmtStop s (fun t => t = { s with comm := { s.comm with nmt := .stopped } }) ∧
    Completes .nmtEnterPreoperational s (fun t => t = { s with comm := { s.comm with nmt := .preOperational } }) ∧
    Completes .nmtResetCommunication s (fun t => t.comm.nmt = .preOperational ∧ t.sets = s.sets ∧ t.modes = s.modes ∧
      ∀ i, 0x2000 ≤ i → rwN t i 0 = rwN s i 0)) ∧
  (∀ s, activeLane s = none ∨ s.comm.nmt = .initialisation → Completes .nmtStart s (fun t => t = s) ∧ Completes .nmtStop s (fun t => t = s) ∧
    Completes .nmtEnterPreoperational s (fun t => t = s) ∧ Completes .nmtResetCommunication s (fun t => t = s) ∧
    Completes .heartbeatProduce s (fun t => t = s)) ∧
  (∀ s, (activeLane s).isSome = true → s.comm.nmt ≠ .initialisation → Completes .heartbeatProduce s fun t =>
    t.comm.heartbeats = s.comm.heartbeats + (if rwN s 0x1017 0 = 0 then 0 else 1)) ∧
  (∀ s n d c, s.comm.nmt ≠ .operational → Completes (.rpdoReceived n d) s (fun t => t = s) ∧ Completes (.tpdoEvent n c) s (fun t => t = s)) ∧
  (∀ s (n : Fin 16) d i k r, pdosRun s = true → (rpdoId s n).isSome = true → rpdoBytes s n ≤ d.length → rwN s (0x1600 + n) 0 = 1 →
    rwN s (0x1600 + n) 1 = i * 2 ^ 16 + k * 2 ^ 8 + 32 → i ≠ 0 → k < 256 → findRow i k = some r → r.right = .rwl → s.sets.st = .swapPending →
    Completes (.rpdoReceived n d) s fun t => t = { s with sets := { s.sets with nDiscarded := s.sets.nDiscarded + 1 } }) ∧
  (∀ s (n : Fin 16) d i k r, pdosRun s = true → (rpdoId s n).isSome = true → rpdoBytes s n ≤ d.length → rwN s (0x1600 + n) 0 = 1 →
    rwN s (0x1600 + n) 1 = i * 2 ^ 16 + k * 2 ^ 8 + 32 → i ≠ 0 → k < 256 → findRow i k = some r → s.sets.st ≠ .swapPending →
    writeCode s i k (slice d 0 4) = 0 → Completes (.rpdoReceived n d) s fun t =>
      t = { writeObject i k (slice d 0 4) s with comm := { (writeObject i k (slice d 0 4) s).comm with response := s.comm.response } }) ∧
  (∀ s (n : Fin 16) (c : Fin 4) f, pdosRun s = true → dictChannel c = true → inhibitOver s n = true → tpdoFrame s n c = some f →
    s.comm.tpdoAt.length = 16 → Completes (.tpdoEvent n c) s fun t => nth t.comm.tpdoAt n = some s.clk.ns ∧ t.clk = s.clk)

/-- The event recorder (R379-R386): the oldest waiting event leaves the queue; a kept one that equals the newest record raises its
count, and the first of a ring is recorded with the next number and the time of the event; a dropped one is counted; a flush
leaves the ring and numbering; an archive takes a region of 4,096 records not archived; a read returns served records and moves
none; a clear of Lane A drops its records, and its own event comes next. -/
def Obligations.RecorderCommands : Prop :=
  (∀ s l, (s.lane l).evq = [] → Completes (.eventWrite l) s fun t => t = s) ∧
  (∀ s l e es, (s.lane l).evq = e :: es →
    filterEvent (eventGroup e.kind) (eventNumber e).toNat (eventSev e) (filterRules s) = .drop → Completes (.eventWrite l) s fun t =>
      (t.lane l).evq = es ∧ t.recs.dropped = s.recs.dropped + 1 ∧ (t.lane l).recd = (s.lane l).recd) ∧
  (∀ s l e es sev, (s.lane l).evq = e :: es →
    filterEvent (eventGroup e.kind) (eventNumber e).toNat (eventSev e) (filterRules s) = .keep sev → (s.lane l).recd.ring = [] →
    Completes (.eventWrite l) s fun t => (t.lane l).evq = es ∧ t.recs.written = s.recs.written + 1 ∧
      ∃ v, (t.lane l).recd.ring = [v] ∧ v.seq = (s.lane l).recd.nextSeq ∧ v.time = e.time.getD (siteTime s) ∧ v.rep = 1 ∧ v.gen = 0 ∧ v.data = e.data ∧
        v.code = eventCode sev (eventGroup e.kind) (eventNumber e).toNat ∧ v.crc = crc16 (recordBody v) ∧
        (t.lane l).recd.nextSeq = (s.lane l).recd.nextSeq + 1) ∧
  (∀ s l e es sev v r, (s.lane l).evq = e :: es →
    filterEvent (eventGroup e.kind) (eventNumber e).toNat (eventSev e) (filterRules s) = .keep sev → (s.lane l).recd.ring = r ++ [v] →
    v.code = eventCode sev (eventGroup e.kind) (eventNumber e).toNat → v.source = eventSource l e.inst → v.data = e.data → v.rep ≠ 0xFFFF →
    Completes (.eventWrite l) s fun t => (t.lane l).evq = es ∧
      ∃ w, (t.lane l).recd.ring = r ++ [w] ∧ w.seq = v.seq ∧ w.rep = v.rep + 1 ∧ w.gen = v.gen + 1 ∧ (t.lane l).recd.nextSeq = (s.lane l).recd.nextSeq) ∧
  (∀ s l, Completes (.eventFlush l) s fun t =>
    (t.lane l).recd.nextSeq = (s.lane l).recd.nextSeq ∧ (t.lane l).recd.ring.length = (s.lane l).recd.ring.length ∧
    (t.lane l).recd.sinceFlush = 0 ∧ t.recs.flushes = s.recs.flushes + 1) ∧
  (∀ s l, nandWorks s = true → Completes .eventArchive s fun t =>
    ((unarchived (s.lane l).recd).length < 4096 → (t.lane l).recd = (s.lane l).recd) ∧
    (4096 ≤ (unarchived (s.lane l).recd).length → (t.lane l).recd.fast = (s.lane l).recd.fast ∧
      (t.lane l).recd.archivedOf = (s.lane l).recd.fast.length ∧
      ∃ n, (t.lane l).recd.archive = ((s.lane l).recd.archive ++ unarchived (s.lane l).recd).drop n)) ∧
  (∀ s, nandWorks s = false → Completes .eventArchive s fun t => t = s) ∧
  (∀ s, (activeLane s).isSome = true → Completes .eventRead s fun t =>
    t.laneA = s.laneA ∧ t.laneB = s.laneB ∧ ∃ lo hi out, t.recs.reading = some (lo, hi, out) ∧ out.length ≤ rwN s 0x2301 3 ∧
      ∀ v ∈ out, v ∈ servedRecords (s.lane (readLane s)).recd) ∧
  (∀ s, writable s = true → (activeLane s).isSome = true → Completes (.eventClear 1) s fun t =>
    t.laneA.recd.ring = [] ∧ t.laneA.recd.fast = [] ∧ t.laneA.recd.clearedTo = s.laneA.recd.newest ∧ t.laneB = s.laneB ∧
    ∃ e, t.laneA.evq = e :: s.laneA.evq ∧ e.kind = .recorderClear) ∧
  (∀ s (v : U8), (activeLane s).isSome = true → v = 0 ∨ 3 < v.toNat → Completes (.eventClear v) s fun t => t.laneA = s.laneA ∧ t.laneB = s.laneB)
/-- The configuration sets (R81-R84, Table 4.8): each command acts in the states its row names and has result 4 in any other; the checks end a commit;
live writes come into force only at a share-cycle boundary that is due; a swap that passes its checks waits one share cycle; the
flip makes the shadow the active set under the next epoch and starts the copy; a boundary that finds the standby lane not ready is
missed, and the eighth refuses with code 6; the copy makes the shadow equal. The result 7 of a command taken is DEDUCED (log 33),
and the copy of the image alone is the model's choice (log 52). -/
def Obligations.SetCommands : Prop :=
  (∀ s, writable s = true → (activeLane s).isSome = true →
    (s.sets.st = .opened → Completes .shadowCommit s fun t =>
      t.sets = { s.sets with checking := true, computed := setCrc s.sets.shadow, result := 7, failing := 0 }) ∧
    (s.sets.st ≠ .opened → Completes .shadowCommit s fun t => t.sets = { s.sets with result := 4, failing := 0 }) ∧
    (s.sets.st = .committed → Completes .shadowReopen s fun t =>
      t.sets = { s.sets with st := .opened, swapReq := false, result := 0, failing := 0 }) ∧
    (s.sets.st ≠ .committed → Completes .shadowReopen s (fun t => t.sets = { s.sets with result := 4, failing := 0 }) ∧
      Completes .shadowSwap s fun t => t.sets = { s.sets with result := 4, failing := 0 }) ∧
    (s.sets.st = .committed → seqRunning s = false → Completes .shadowSwap s fun t =>
      t.sets = { s.sets with swapReq := true, result := 7, failing := 0 }) ∧
    (s.sets.st = .opened ∨ s.sets.st = .committed → Completes .shadowReload s fun t =>
      t.sets = { s.sets with st := .copying, shadow := s.sets.active, checking := false, swapReq := false, shadowOk := false, result := 0, failing := 0 }) ∧
    (s.sets.st = .swapPending ∨ s.sets.st = .copying → Completes .shadowReload s fun t => t.sets = { s.sets with result := 4, failing := 0 })) ∧
  (∀ s, s.sets.checking = true → s.sets.st = .opened → (activeLane s).isSome = true →
    (commitFail { s with sets := { s.sets with checking := false } } = none → Completes .commitChecksComplete s fun t =>
      t.sets.st = .committed ∧ t.sets.result = 0 ∧ t.sets.checking = false ∧ t.sets.shadow = s.sets.shadow) ∧
    (∀ c o, commitFail { s with sets := { s.sets with checking := false } } = some (c, o) → Completes .commitChecksComplete s fun t =>
      t.sets.st = .opened ∧ t.sets.result = BitVec.ofNat 8 c ∧ t.sets.failing = BitVec.ofNat 32 o)) ∧
  (∀ s, s.sets.checking = false → Completes .commitChecksComplete s fun t => t = s) ∧
  (∀ s, atShare s = false → Completes .liveWritePublish s fun t => t = s) ∧
  (∀ s k v n, atShare s = true → s.sets.unpublished = [(k, v, n)] → n ≤ s.clk.period → Completes .liveWritePublish s fun t =>
    t.sets.unpublished = [] ∧ t.sets.published = s.sets.published.set k v [] ∧ t.sets.nPublished = s.sets.nPublished + 1) ∧
  (∀ s, s.sets.swapReq = false ∨ atShare s = false → Completes .swapTaken s fun t => t = s) ∧
  (∀ s, s.sets.swapReq = true → s.sets.st = .committed → atShare s = true → (activeLane s).isSome = true → crossing s = false → resyncing s = false →
    (setCrc s.sets.shadow ≠ s.sets.computed → Completes .swapTaken s fun t => t.sets.st = .opened ∧ t.sets.result = 1 ∧ t.sets.swapReq = false) ∧
    ((swapCheck s).code = 0 → Completes .swapTaken s fun t =>
      t.sets.st = .swapPending ∧ t.sets.swapAt = some (s.clk.period + shareLen s) ∧ t.sets.active = s.sets.active)) ∧
  (∀ s b l, s.sets.swapAt = some b → s.sets.st = .swapPending → s.clk.period < b → standbyLane s = some l → Completes .swapReadyReport s fun t =>
    (t.lane l).ctl.swapReady = true ∧ t.sets = s.sets) ∧
  (∀ s b, s.sets.swapAt = some b → s.sets.st = .swapPending → b ≤ s.clk.period → swapReadyNow s = false →
    (s.sets.swapTries < 7 → Completes .swapReadyReport s fun t =>
      t.sets = { s.sets with swapAt := some (b + shareLen s), swapTries := s.sets.swapTries + 1 } ∧
      (∀ l, standbyLane s = some l → (t.lane l).ctl.swapReady = true)) ∧
    (7 ≤ s.sets.swapTries → Completes .swapReadyReport s fun t => t.sets.st = .committed ∧ t.sets.result = 6) ∧
    ((activeLane s).isSome = true → s.sets.swapTries < 7 → Completes .swapFlip s fun t =>
      t = { s with sets := { s.sets with swapAt := some (b + shareLen s), swapTries := s.sets.swapTries + 1 } })) ∧
  (∀ s, flipDue s = false → swapReached s = false ∨ swapReadyNow s = true ∨ activeLane s = none → Completes .swapFlip s fun t => t = s) ∧
  (∀ s, flipDue s = true → Completes .swapFlip s fun t =>
    t.sets.active = s.sets.shadow ∧ t.sets.st = .copying ∧ t.sets.epoch = s.sets.epoch + 1 ∧ t.sets.swaps = s.sets.swaps + 1 ∧
    t.sets.live = s.sets.live ∧ t.sets.published = [] ∧ t.sets.unpublished = [] ∧ t.sets.gens = s.sets.gens.map (· + 1)) ∧
  (∀ s, s.sets.st = .copying → (activeLane s).isSome = true → Completes .setCopyComplete s fun t =>
    t.sets.st = .opened ∧ t.sets.shadow = s.sets.active) ∧
  (∀ s, s.sets.st ≠ .copying → Completes .setCopyComplete s fun t => t = s) ∧
  (∀ s m, safeWritable s = true → (activeLane s).isSome = true → Completes (.setFlagsClear m) s fun t =>
    t.sets = { s.sets with flags := s.sets.flags &&& ~~~ (m &&& 0x0C) })

/-- The storage manager (R390-R398, R192): nothing is served unless the array is ready under an active lane; a program that passes stands
in its page, one on a block that is not the queue's changes no block, and one whose status fails retires the block; an erase frees the
block and counts; a read answers the page, corrected, a free value where it was not programmed, and counts an uncorrectable one; a full
read threshold and a scrub threshold move a block and count; the load profile counts its 33 records. -/
def Obligations.NandCommands : Prop :=
  (∀ s q op a b st n w d, nandWorks s = false → Completes (.nandRequest q op a) s (fun t => t = s) ∧ Completes (.nandBlockAllocate st) s (fun t => t = s) ∧
    Completes (.readDisturbRefresh b) s (fun t => t = s) ∧ Completes (.scrubPage n w d) s (fun t => t = s) ∧
    Completes .loadProfileWrite s (fun t => t = s) ∧ Completes .nandStaticRelocation s (fun t => t = s)) ∧
  (∀ s (q : Fin 8) i p d a, nandWorks s = true → blockUsable s q i = true → a.statusFail = false → d ≠ [] →
    Completes (.nandRequest q (.program i p d) a) s fun t =>
      t.nand.answer = some (true, []) ∧ t.nand.blocks = insertBlk (NandBlk.program p d (s.nand.blk i)) s.nand.blocks) ∧
  (∀ s (q : Fin 8) i a, nandWorks s = true → blockUsable s q i = true → a.statusFail = false → Completes (.nandRequest q (.erase i) a) s fun t =>
    t.nand.answer = some (true, []) ∧ t.nand.blocks = insertBlk (NandBlk.erase (s.nand.blk i)) s.nand.blocks) ∧
  (∀ s (q : Fin 8) i p a d e, nandWorks s = true → blockUsable s q i = true → (s.nand.blk i).page p = some d → corrected s a = some e →
    Completes (.nandRequest q (.read i p) a) s fun t =>
      t.nand.answer = some (true, d) ∧ t.nand.corrected = s.nand.corrected + BitVec.ofNat 64 e) ∧
  (∀ s (q : Fin 8) i p a e, nandWorks s = true → blockUsable s q i = true → (s.nand.blk i).page p = none → corrected s a = some e →
    Completes (.nandRequest q (.read i p) a) s fun t => t.nand.answer = some (true, Config.freeBytes s.free Config.nandPageBytes)) ∧
  (∀ s (q : Fin 8) i p a, nandWorks s = true → blockUsable s q i = true → (s.nand.blk i).stream ≠ some .signedBilling → corrected s a = none →
    Completes (.nandRequest q (.read i p) a) s fun t =>
      t.nand.answer = some (false, []) ∧ t.nand.uncorrectable = s.nand.uncorrectable + 1 ∧ t.nand.grown = s.nand.grown + 1) ∧
  (∀ s (q : Fin 8) i p a d, nandWorks s = true → blockUsable s q i = true → (s.nand.blk i).stream = some .signedBilling →
    (s.nand.blk i).page p = some d → corrected s a = none → Completes (.nandRequest q (.read i p) a) s fun t =>
      t.nand.answer = some (true, d) ∧ t.nand.grown = s.nand.grown + 1) ∧
  (∀ s (q : Fin 8) i p d a, nandWorks s = true → blockUsable s q i = true → a.statusFail = true →
    Completes (.nandRequest q (.erase i) a) s (fun t => t.nand.answer = some (false, []) ∧ t.nand.grown = s.nand.grown + 1) ∧
    (d ≠ [] → Completes (.nandRequest q (.program i p d) a) s fun t => t.nand.answer = some (false, []) ∧ t.nand.grown = s.nand.grown + 1)) ∧
  (∀ s (q : Fin 8) i p a, nandWorks s = true → Completes (.nandRequest q (.program i p []) a) s fun t =>
    t = { s with nand := { s.nand with answer := some (true, []) } }) ∧
  (∀ s (q : Fin 8) i p d a, nandWorks s = true → blockUsable s q i = false →
    Completes (.nandRequest q (.read i p) a) s (fun t => t = { s with nand := { s.nand with answer := some (false, []) } }) ∧
    Completes (.nandRequest q (.erase i) a) s (fun t => t = { s with nand := { s.nand with answer := some (false, []) } }) ∧
    (d ≠ [] → Completes (.nandRequest q (.program i p d) a) s fun t => t = { s with nand := { s.nand with answer := some (false, []) } })) ∧
  (∀ s st, nandWorks s = true → Completes (.nandBlockAllocate st) s fun t => t.nand = allocStream st s.nand) ∧
  (∀ s b, (s.nand.blk b).reads < cfgN s 0x2501 2 → Completes (.readDisturbRefresh b) s fun t => t = s) ∧
  (∀ s b, nandWorks s = true → (s.nand.blk b).stream.isSome = true → cfgN s 0x2501 2 ≤ (s.nand.blk b).reads → Completes (.readDisturbRefresh b) s fun t =>
    t.nand.moves = s.nand.moves + 1) ∧
  (∀ s b w d, nandWorks s = true → (s.nand.blk b).stream.isSome = true → w < cfgN s 0x2501 1 → d ≤ cfgN s 0x2501 4 →
    Completes (.scrubPage b w d) s fun t => t.nand = scrubStep b w s.nand) ∧
  (∀ s b w d, nandWorks s = true → (s.nand.blk b).stream.isSome = true → cfgN s 0x2501 1 ≤ w ∨ cfgN s 0x2501 4 < d →
    Completes (.scrubPage b w d) s fun t => t.nand.moves = s.nand.moves + 1 ∧ t.nand.corrected = s.nand.corrected + BitVec.ofNat 64 w) ∧
  (∀ s, usedSpread s.nand = none → Completes .nandStaticRelocation s fun t => t = s) ∧
  (∀ s, nandWorks s = true → Completes .loadProfileWrite s fun t => t.nand.profiles = s.nand.profiles + 33)

/-- The service port (R399): it serves nothing unattached; OPEN erases the buffer for a length in range, DATA appends its bytes at their
offset, CLOSE makes the image whole, ERASE empties it, STATUS changes nothing; each answers its code, the first status that applies and
the next offset, and one refused changes no buffer. -/
def Obligations.ServicePort : Prop :=
  (∀ s, Completes .vbusAttach s fun t => t = { s with upd := { s.upd with attached := true } }) ∧
  (∀ s, Completes .vbusDetach s fun t => t = { s with upd := { s.upd with attached := false } }) ∧
  (∀ s c, s.upd.attached = false → Completes (.serviceOpen c) s (fun t => t = s) ∧ Completes (.serviceData c) s (fun t => t = s) ∧
    Completes (.serviceStatus c) s (fun t => t = s) ∧ Completes (.serviceErase c) s (fun t => t = s)) ∧
  (∀ s c n, portServes s = true → n ≠ 0 →
    (openStatus s c (s.upd.buf c.buffer) = n → Completes (.serviceOpen c) s fun t =>
      t.upd.answer = some (servicePacket 1 n (s.upd.buf c.buffer).next) ∧ t.upd.buf c.buffer = s.upd.buf c.buffer) ∧
    (dataStatus s c (s.upd.buf c.buffer) = n → Completes (.serviceData c) s fun t =>
      t.upd.answer = some (servicePacket 2 n (s.upd.buf c.buffer).next) ∧ t.upd.buf c.buffer = s.upd.buf c.buffer) ∧
    ((activeLane s).isSome = true → closeStatus s c (s.upd.buf c.buffer) = n → Completes (.serviceClose c) s fun t =>
      t.upd.answer = some (servicePacket 3 n (s.upd.buf c.buffer).next) ∧ t.upd.buf c.buffer = s.upd.buf c.buffer)) ∧
  (∀ s c, portServes s = true → (s.upd.buf c.buffer).receiving = false → bufferNamed s c.buffer = false → 256 ≤ c.length.toNat →
    c.length.toNat ≤ 67108864 → c.nandOk = true → Completes (.serviceOpen c) s fun t =>
      t.upd.buf c.buffer = { (default : Staging) with receiving := true, length := c.length.toNat } ∧
      t.upd.answer = some (servicePacket 1 0 0)) ∧
  (∀ s c, portServes s = true → (s.upd.buf c.buffer).receiving = true ∨ bufferNamed s c.buffer = true → Completes (.serviceOpen c) s fun t =>
    t.upd.answer = some (servicePacket 1 1 (s.upd.buf c.buffer).next) ∧ t.upd.buf c.buffer = s.upd.buf c.buffer) ∧
  (∀ s c, portServes s = true → dataStatus s c (s.upd.buf c.buffer) = 0 → Completes (.serviceData c) s fun t =>
    (t.upd.buf c.buffer).image = (s.upd.buf c.buffer).image ++ c.data ∧ (t.upd.buf c.buffer).next = (s.upd.buf c.buffer).next + c.data.length ∧
    t.upd.answer = some (servicePacket 2 0 ((s.upd.buf c.buffer).next + c.data.length))) ∧
  (∀ s c, portServes s = true → bufferNamed s c.buffer = false → 1 ≤ c.length.toNat → c.length.toNat ≤ 65536 → c.data.length = c.length.toNat →
    c.offset.toNat + c.length.toNat ≤ (s.upd.buf c.buffer).length → crc32 c.data ≠ c.crc → Completes (.serviceData c) s fun t =>
      t.upd.answer = some (servicePacket 2 3 (s.upd.buf c.buffer).next) ∧ t.upd.buf c.buffer = s.upd.buf c.buffer) ∧
  (∀ s c, portServes s = true → (activeLane s).isSome = true → closeStatus s c (s.upd.buf c.buffer) = 0 → Completes (.serviceClose c) s fun t =>
    (t.upd.buf c.buffer).received = true ∧ (t.upd.buf c.buffer).receiving = false ∧ (t.upd.buf c.buffer).image = (s.upd.buf c.buffer).image ∧
    t.upd.answer = some (servicePacket 3 0 (s.upd.buf c.buffer).next)) ∧
  (∀ s c, portServes s = true → Completes (.serviceStatus c) s fun t =>
    t.upd.answer = some (servicePacket 4 0 (s.upd.buf c.buffer).next) ∧ t.upd.buf c.buffer = s.upd.buf c.buffer) ∧
  (∀ s c, portServes s = true → bufferNamed s c.buffer = false → c.nandOk = true → Completes (.serviceErase c) s fun t =>
    t.upd.buf c.buffer = default ∧ t.upd.answer = some (servicePacket 5 0 0)) ∧
  (∀ s c, portServes s = true → bufferNamed s c.buffer = true → Completes (.serviceErase c) s fun t =>
    t.upd.buf c.buffer = s.upd.buf c.buffer ∧ t.upd.answer = some (servicePacket 5 1 (s.upd.buf c.buffer).next))

/-- Activation (R403-R407, Table 20.6): a rolling activation is refused outside RUN or with a standby lane of fewer than 1,000 matches, a
full restart without its source; an accepted rolling one names the standby lane, an accepted restart ramps to IDLE first where power
flows; the first lane of a rolling sequence restarts with ACTIVATE, the last completes it and raises the security level; an abort ends
the sequence; a lane is confirmed only with what R405 requires, and one that runs 600 s without is marked failed. -/
def Obligations.ActivationCommands : Prop :=
  (∀ s, safeWritable s = true → (activeLane s).isSome = true →
    (s.modes.mode ≠ .run → Completes .activationRolling s fun t => t.upd = { s.upd with result := 1 }) ∧
    (∀ l, s.modes.mode = .run → standbyLane s = some l → (s.jct.lane l).matches_.toNat < 1000 →
      Completes .activationRolling s fun t => t.upd = { s.upd with result := 2 }) ∧
    (rollingStatus s = 0 → Completes .activationRolling s fun t =>
      t.upd = { s.upd with result := 0, st := .firstLane, seqSource := some s.upd.source.toNat, seqLane := standbyLane s, seqReq := true,
                           hostConfirm := false }) ∧
    (sourceReady s = false → Completes .activationFullRestart s fun t => t.upd = { s.upd with result := 4 }) ∧
    (restartStatus s = 0 → powerMode s = true → Completes .activationFullRestart s fun t =>
      t.upd.st = .fullRestart ∧ t.upd.seqReq = true ∧ t.modes.pending = some (.idle, s.clk.period + msPeriods s 2000)) ∧
    (restartStatus s = 0 → s.modes.mode = .idle → Completes .activationFullRestart s fun t =>
      t.upd = { s.upd with result := 0, st := .fullRestart, seqSource := some s.upd.source.toNat, seqLane := none, seqReq := true, hostConfirm := false }) ∧
    (seqRunning s = false → Completes .activationAbort s fun t => t.upd = s.upd) ∧
    (seqRunning s = true → unconfirmed s.laneA = false → unconfirmed s.laneB = false → Completes .activationAbort s fun t =>
      t.upd = { s.upd with st := .aborted, seqSource := none, seqLane := none, seqReq := false, hostConfirm := false }) ∧
    Completes (.hostConfirm 1) s (fun t => t.upd = { s.upd with hostConfirm := true }) ∧
    (∀ v, v ≠ 1 → Completes (.hostConfirm v) s fun t => t.upd = s.upd)) ∧
  (∀ s l, s.upd.st = .firstLane → s.upd.seqLane = some l → s.upd.seqReq = true → atShare s = true → roleOf s l = .standby →
    Completes .rollingSequenceAdvance s fun t =>
      (t.lane l).ctl.bootStep = 0 ∧ (t.lane l).share = LaneState.reset.share ∧ (t.jct.lane l).role = .booting ∧ t.upd.seqReq = false ∧
      t.bk.resetLatches = s.bk.resetLatches ||| 0x2000) ∧
  (∀ s l, s.upd.st = .firstLane → s.upd.seqLane = some l → s.upd.seqReq = true → atShare s = false →
    Completes .rollingSequenceAdvance s fun t => t = s) ∧
  (∀ s l, s.upd.st = .secondLane → s.upd.seqLane = some l → stepDone s l = true → Completes .rollingSequenceAdvance s fun t =>
    t.upd.st = .complete ∧ t.upd.minSecurity = (s.act.slots.slot s.act.slots.booted).security ∧ t.upd.seqSource = none) ∧
  (∀ s, s.upd.st = .fullRestart → s.upd.seqReq = true → powerMode s = false → s.modes.pending = none →
    Completes .rollingSequenceAdvance s fun t => t.modes.mode = .boot ∧ t.rails.inReset = true ∧ t.bk.lastReset = 13) ∧
  (∀ s l, confirmOk s l = true → Completes (.healthConfirm l) s fun t =>
    (t.lane l).slots = (s.lane l).slots.modSlot (s.lane l).slots.current fun v => { v with confirmed := true }) ∧
  (∀ s l, confirmOk s l = false → Completes (.healthConfirm l) s fun t => t = s) ∧
  (∀ s l, unconfirmed (s.lane l) = false → Completes (.unconfirmedTimeout l) s fun t => t = s) ∧
  (∀ s l, unconfirmed (s.lane l) = true → roleOf s l = .standby → activeLane s ≠ some l →
    Completes (.unconfirmedTimeout l) s fun t => (t.jct.lane l).role = .booting ∧ (t.lane l).ctl.bootStep = 0 ∧
      ((t.lane l).slots.slot (s.lane l).slots.current).failed = true)
/-- The Junction's verdict (R276, R277, Table 13.5): entries are judged once for each period; a judged lane held by a rail has code 9, one absent twice
code 1, one with a wrong canary code 2; two matching entries give no verdict and count a match; a decision acts at its boundary: a failing
standby lane is reset, a demoted one becomes SHADOWING, a failing active lane hands its links to a standby lane without a verdict, else SAFE cause 5. -/
def Obligations.JunctionVerdictAndCrossover : Prop :=
  (∀ s a b, junctionRuns s = false ∨ s.clk.period = 0 ∨ s.jct.judgedAt = some (s.clk.period - 1) → Completes (.junctionVerdict a b) s fun t => t = s) ∧
  (∀ s a b l, junctionRuns s = true → 0 < s.clk.period → s.jct.judgedAt ≠ some (s.clk.period - 1) → judged s l = true →
    ((s.lane l).ctl.railHeld = true → Completes (.junctionVerdict a b) s fun t =>
      ∃ d, t.jct.decision = some d ∧ d.at_ = s.clk.period + 1 ∧ d.code l = 9) ∧
    ((s.lane l).ctl.railHeld = false → entryOf (s.jct.lane l) (s.clk.period - 1) = none → (s.jct.lane l).prevAbsent = true →
      Completes (.junctionVerdict a b) s fun t => ∃ d, t.jct.decision = some d ∧ d.at_ = s.clk.period + 1 ∧ d.code l = 1) ∧
    (∀ e, (s.lane l).ctl.railHeld = false → entryOf (s.jct.lane l) (s.clk.period - 1) = some e → deviates s a = false → deviates s b = false →
      e.canary ≠ Config.canaryExpected ((s.clk.period - 1) % 16) →
      Completes (.junctionVerdict a b) s fun t => ∃ d, t.jct.decision = some d ∧ d.at_ = s.clk.period + 1 ∧ d.code l = 2)) ∧
  (∀ s a b l p q, junctionRuns s = true → 0 < s.clk.period → s.jct.judgedAt ≠ some (s.clk.period - 1) →
    roleOf s l = .active → roleOf s l.other = .standby → s.laneA.ctl.railHeld = false → s.laneB.ctl.railHeld = false →
    entryOf (s.jct.lane l) (s.clk.period - 1) = some p → entryOf (s.jct.lane l.other) (s.clk.period - 1) = some q → p.digest = q.digest →
    deviates s a = false → deviates s b = false → p.health &&& 0x518 = 0 → q.health &&& 0x518 = 0 →
    p.canary = Config.canaryExpected ((s.clk.period - 1) % 16) → q.canary = Config.canaryExpected ((s.clk.period - 1) % 16) →
    Completes (.junctionVerdict a b) s fun t =>
      t.jct.decision = s.jct.decision ∧ (t.jct.lane l.other).matches_ =
        (if (s.jct.lane l.other).matches_ = 0xFFFF then 0xFFFF else (s.jct.lane l.other).matches_ + 1)) ∧
  (∀ s, s.jct.decision = none → Completes .verdictTakeEffect s fun t => t = s) ∧
  (∀ s d, s.jct.decision = some d → s.clk.period < d.at_ → Completes .verdictTakeEffect s fun t => t = s) ∧
  (∀ s d l, s.jct.decision = some d → junctionRuns s = true → d.at_ ≤ s.clk.period → activeLane s = some l →
    (d.code l = 0 → d.code l.other = 1 → Completes .verdictTakeEffect s fun t =>
      roleOf t l = .active ∧ roleOf t l.other = (if 2 ≤ (lastHour s (s.jct.lane l.other).resetTimes).length then .excluded else .failed) ∧
      (t.jct.lane l.other).resets = (s.jct.lane l.other).resets + 1 ∧ t.bk.resetLatches = s.bk.resetLatches ||| 0x400) ∧
    (d.code l = 0 → d.code l.other = 5 → unconfirmed (s.lane l.other) = false → Completes .verdictTakeEffect s fun t =>
      roleOf t l = .active ∧ roleOf t l.other = .shadowing ∧ t.bk = s.bk ∧ (t.jct.lane l.other).matches_ = 0) ∧
    (d.code l = 1 → d.code l.other = 0 → roleOf s l.other = .standby → Completes .verdictTakeEffect s fun t =>
      t.jct.mark = some l.other ∧ t.jct.mux = none ∧ roleOf t l.other = .active ∧ roleOf t l ≠ .active ∧
      t.jct.cross = some { at_ := s.clk.period + 1, lane := l.other, cause := 1, planned := false }) ∧
    (d.code l = 1 → d.code l.other = 0 → roleOf s l.other ≠ .standby → s.modes.mode ≠ .safe → Completes .verdictTakeEffect s fun t =>
      t.modes.mode = .safe ∧ t.modes.safeCause = 5 ∧ t.jct.mark = none ∧ t.jct.mux = none)) ∧
  (∀ s, s.jct.cross = none → Completes .crossoverOutputEnable s fun t => t = s) ∧
  (∀ s c, s.jct.cross = some c → junctionRuns s = true → c.planned = false → c.at_ ≤ s.clk.period → Completes .crossoverOutputEnable s fun t =>
    t.jct.mux = some c.lane ∧ t.jct.cross = none ∧ t.jct.crossovers = s.jct.crossovers + 1 ∧
    t.modes.pending = s.modes.pending ∧ t.modes.mode = if s.modes.mode = .run ∧ laneCount s < 2 then .degraded else s.modes.mode)

/-- Planned crossovers and releases (R277, R280): a request of 1 waits for a share-cycle boundary; there it is taken or refused with its code; 40 periods
on the links go straight to the other lane and the old one is STANDBY; a write to 2100:05 restarts an EXCLUDED lane; a lane held for
60 s restarts. -/
def Obligations.PlannedCrossoverAndReleases : Prop :=
  (∀ s, writable s = true → (activeLane s).isSome = true →
    Completes (.plannedCrossoverRequest 1) s (fun t => t.jct = { s.jct with planReq := true, result := 1 }) ∧
    (∀ v, v ≠ 1 → Completes (.plannedCrossoverRequest v) s fun t => t.jct = s.jct) ∧
    (∀ l, roleOf s l = .excluded → Completes (.releaseExcludedLane (BitVec.ofNat 8 (laneNum (some l)))) s fun t =>
      roleOf t l = .booting ∧ t.jct.result = 0 ∧ (t.lane l).ctl.bootStep = 0) ∧
    (∀ l, roleOf s l ≠ .excluded → (s.lane l).ctl.recovery = false → Completes (.releaseExcludedLane (BitVec.ofNat 8 (laneNum (some l)))) s fun t =>
      t.jct = { s.jct with result := 7 })) ∧
  (∀ s, s.jct.planReq = false ∨ atShare s = false → Completes .plannedCrossoverTaken s fun t => t = s) ∧
  (∀ s, s.jct.planReq = true → atShare s = true → junctionRuns s = true → s.jct.cross = none →
    (plannedRefusal s ≠ 0 → Completes .plannedCrossoverTaken s fun t =>
      t.jct = { s.jct with planReq := false, result := BitVec.ofNat 8 (plannedRefusal s) }) ∧
    (∀ l, s.modes.mode = .run → standbyLane s = some l → 1000 ≤ (s.jct.lane l).matches_.toNat → s.sets.st ≠ .swapPending → s.modes.waiting = none →
      Completes .plannedCrossoverTaken s fun t => t.jct =
        { s.jct with planReq := false, cross := some { at_ := s.clk.period + 40, lane := l, cause := 0xFF, planned := true } })) ∧
  (∀ s, s.jct.cross = none → Completes .plannedCrossover s fun t => t = s) ∧
  (∀ s c, s.jct.cross = some c → junctionRuns s = true → c.planned = true → c.at_ ≤ s.clk.period → roleOf s c.lane = .standby →
    ((s.lane c.lane.other).slots.slot (s.lane c.lane.other).slots.current).failed = false →
    Completes .plannedCrossover s fun t =>
      t.jct.mux = some c.lane ∧ t.jct.mark = some c.lane ∧ t.jct.cross = none ∧ t.jct.crossovers = s.jct.crossovers + 1 ∧ t.jct.result = 0 ∧
      roleOf t c.lane = .active ∧ roleOf t c.lane.other = .standby ∧ (t.jct.lane c.lane.other).matches_ = (s.jct.lane c.lane).matches_) ∧
  (∀ s l, (s.jct.lane l).held = true → roleOf s l = .failed → s.jct.lost = false → Completes (.failedLaneRelease l) s fun t =>
    roleOf t l = .booting ∧ (t.jct.lane l).held = false ∧ roleOf t l.other = roleOf s l.other) ∧
  (∀ s l, (s.jct.lane l).held = false → Completes (.failedLaneRelease l) s fun t => t = s)

/-- Resynchronisation and self-tests (R281-R284): a ready lane that may join becomes SHADOWING with its join period; its slow part is captured 40 periods
before; at q it takes the active lane's loops, grants and outputs; 1,000 matches make it STANDBY and DEGRADED becomes RUN; a failed march
sets MEMORY, a failed receiver TEST_FAIL; a lost Junction restarts with match counts 0. -/
def Obligations.ResynchronisationAndSelfTests : Prop :=
  (∀ s, joiner s = none → Completes .resyncJoinNamed s fun t => t = s) ∧
  (∀ s l, joiner s = some l → junctionRuns s = true → s.jct.cross = none → Completes .resyncJoinNamed s fun t =>
    roleOf t l = .shadowing ∧ (t.jct.lane l).attempts = (s.jct.lane l).attempts + 1 ∧
    ∃ q, (t.jct.lane l).join = some q ∧ q % 40 = 0 ∧ s.clk.period + 80 ≤ q ∧ q < s.clk.period + 120) ∧
  (∀ s, joining s = none → Completes .snapshotSlowCapture s (fun t => t = s) ∧ Completes .resyncJoin s fun t => t = s) ∧
  (∀ s l q, joining s = some (l, q) → s.clk.period + 40 = q → (activeLane s).isSome = true → Completes .snapshotSlowCapture s fun t =>
    (t.jct.lane l).captured = true) ∧
  (∀ s l q, joining s = some (l, q) → (activeLane s).isSome = true → s.clk.period < q → Completes .resyncJoin s fun t => t = s) ∧
  (∀ s l q, joining s = some (l, q) → (activeLane s).isSome = true → q ≤ s.clk.period → (s.jct.lane l).joined = false →
    (s.jct.lane l).captured = false ∨ s.jct.cross ≠ none → Completes .resyncJoin s fun t =>
      roleOf t l = .shadowing ∧ (t.jct.lane l).join = none ∧ t.lane l = s.lane l) ∧
  (∀ s l q, joining s = some (l, q) → (activeLane s).isSome = true → q ≤ s.clk.period → (s.jct.lane l).joined = false →
    (s.jct.lane l).captured = true → s.jct.cross = none → s.jct.lost = false → Completes .resyncJoin s fun t =>
      (t.jct.lane l).joined = true ∧ (t.lane l).relay = (s.lane l.other).relay ∧ (t.lane l).out = (s.lane l.other).out ∧
      (t.lane l).latched = (s.lane l.other).latched ∧ (t.lane l).share.bayAcc = (s.lane l).share.bayAcc ∧ (t.lane l).share.gb = (s.lane l.other).share.gb) ∧
  (∀ s, junctionRuns s = false → Completes .resyncComplete s fun t => t = s) ∧
  (∀ s, resyncDone s .a = false → resyncDone s .b = false → Completes .resyncComplete s fun t => t = s) ∧
  (∀ s l, junctionRuns s = true → resyncDone s l = true → resyncDone s l.other = false → Completes .resyncComplete s fun t =>
    roleOf t l = .standby ∧ (t.jct.lane l).resyncs = (s.jct.lane l).resyncs + 1 ∧
    t.modes.pending = s.modes.pending ∧ t.modes.mode = if s.modes.mode = .degraded then .run else s.modes.mode) ∧
  (∀ s l ok, marches s l = false → Completes (.memoryMarchBlock l ok) s fun t => t = s) ∧
  (∀ s l, marches s l = true → Completes (.memoryMarchBlock l false) s fun t => (t.lane l).health.memory = true) ∧
  (∀ s l, marches s l = true → (s.lane l).ctl.marchPos < 528383 → Completes (.memoryMarchBlock l true) s fun t =>
    (t.lane l).health = (s.lane l).health ∧ (t.lane l).ctl.marchPos = (s.lane l).ctl.marchPos + 1) ∧
  (∀ s l (n : Fin 64), Completes (.receiverLoopTest l n true) s fun t => t = s) ∧
  (∀ s l (n : Fin 64), computing s l = true → linkType s n = 0 → Completes (.receiverLoopTest l n false) s fun t =>
    (t.lane l).health.testFail = true ∧ n.val ∈ (t.lane l).ctl.failedRx) ∧
  (∀ s, s.jct.lost = false → Completes .junctionRestart s fun t => t = s) ∧
  (∀ s, s.jct.lost = true → s.modes.mode ≠ .boot → s.modes.mode ≠ .backup → Rail.vjct ∉ s.rails.out → Completes .junctionRestart s fun t =>
    t.jct.lost = false ∧ (∀ l, roleOf t l = roleOf s l ∧ (t.jct.lane l).matches_ = 0 ∧ (t.lane l).health.jctLost = false) ∧ t.jct.mux = s.jct.mux) ∧
  (∀ s, Completes (.junctionRomCheck true) s fun t => t = s) ∧
  (∀ s, s.jct.lost = false → Completes (.junctionRomCheck false) s fun t => t.jct.lost = true ∧ t.jct.safeN = .hiZ)
/-- The backup domain (R288-R291, R296-R300, R63): a difference of more than 100 ms from PTP steps the RTC; the alarm wakes the device in
BACKUP and only writes an event elsewhere; a tamper input latches its time and is cleared only once acknowledged; a security
detection is counted, aborts the key operation and clears the key cache of the lanes it affects, and a breach in FIELD moves the life
cycle to RETURN with a device reset. -/
def Obligations.BackupAndTamper : Prop :=
  (∀ s, activeLane s = none ∨ fromPtp s = false ∨ nowNs s < s.site.compared + 10000000000 → Completes .rtcSiteTimeCompare s fun t => t = s) ∧
  (∀ s, (activeLane s).isSome = true → fromPtp s = true → s.site.compared + 10000000000 ≤ nowNs s →
    (3276800 < ((timeTicks s.site.ns : Int) - s.bk.rtc.toNat).natAbs * 1000 → Completes .rtcSiteTimeCompare s fun t =>
      t.bk = { s.bk with rtc := BitVec.ofNat 64 (timeTicks s.site.ns), invalid := false } ∧ t.met = s.met) ∧
    (((timeTicks s.site.ns : Int) - s.bk.rtc.toNat).natAbs * 1000 ≤ 3276800 → Completes .rtcSiteTimeCompare s fun t =>
      t = { s with site := { s.site with compared := nowNs s } })) ∧
  (∀ s, s.bk.alarm = 0 ∨ s.bk.invalid = true ∨ s.bk.rtc.toNat < s.bk.alarm.toNat → Completes .rtcAlarm s fun t => t = s) ∧
  (∀ s, s.bk.alarm ≠ 0 → s.bk.invalid = false → s.bk.alarm.toNat ≤ s.bk.rtc.toNat →
    (s.modes.mode = .backup → Completes .rtcAlarm s fun t => t.bk.pwrEn = true ∧ t.bk.resetLatches = s.bk.resetLatches ||| 2) ∧
    (s.modes.mode ≠ .backup → Completes .rtcAlarm s fun t => t.bk = s.bk)) ∧
  (∀ s v, writable s = true → (activeLane s).isSome = true → Completes (.rtcWrite v) s fun t => t.bk = { s.bk with rtc := v, invalid := false }) ∧
  (∀ s v, writable s = false → Completes (.rtcWrite v) s fun t => t.bk = s.bk) ∧
  (∀ s, s.modes.mode ≠ .backup → Completes .pfiWake s (fun t => t = s) ∧ Completes .wakeD s fun t => t = s) ∧
  (∀ s, s.modes.mode = .backup → Completes .pfiWake s fun t =>
    t.bk.pwrEn = true ∧ t.bk.pfActive = false ∧ t.bk.resetLatches = s.bk.resetLatches ||| 2) ∧
  (∀ s, s.modes.mode = .backup → s.bk.wakeArmed.isSome = true → Completes .wakeD s fun t =>
    t.bk.pwrEn = true ∧ t.bk.resetLatches = s.bk.resetLatches ||| 4) ∧
  (∀ s (i : Fin 4), cfgN s (0x2621 + i) 1 = 0 → Completes (.tamperInputLatch i) s fun t => t = s) ∧
  (∀ s (i : Fin 4), s.bk.inputs.length = 4 → cfgN s (0x2621 + i) 1 ≠ 0 → Completes (.tamperInputLatch i) s fun t =>
    (nth t.bk.inputs i).latched = true ∧ (nth t.bk.inputs i).latest = s.bk.rtc ∧ (nth t.bk.inputs i).latestValid = !s.bk.invalid ∧
    (nth t.bk.inputs i).acked = false ∧ ∀ j : Fin 4, j ≠ i → nth t.bk.inputs j = nth s.bk.inputs j) ∧
  (∀ s, Completes .tamperHandover s fun t => t.bk = s.bk ∧ t.met = s.met ∧ (toHandOver s = [] → t = s)) ∧
  (∀ s m, s.bk.inputs.length = 4 → writable s = true → (activeLane s).isSome = true → mayClear s m = true → Completes (.tamperLatchClear m) s fun t =>
    ∀ i : Fin 4, nth t.bk.inputs i = if m.getLsbD i then { nth s.bk.inputs i with latched := false } else nth s.bk.inputs i) ∧
  (∀ s m, mayClear s m = false → Completes (.tamperLatchClear m) s fun t => t.bk = s.bk) ∧
  (∀ s (c : Fin 3) sc, s.modes.mode = .backup → c ≠ 2 → Completes (.securityTamper c sc) s fun t => t = s) ∧
  (∀ s (c : Fin 3) l, s.modes.mode ≠ .backup → c ≠ 2 → Completes (.securityTamper c (.lane l)) s fun t =>
    t.bk = { s.bk with secCounts := upd s.bk.secCounts c (· + 1) } ∧ (t.lane l).ks = ((s.lane l).ks.tamperAbort).zeroise ∧
    (t.lane l.other).ks = (s.lane l.other).ks) ∧
  (∀ s sc, s.modes.mode = .backup → Completes (.securityTamper 2 sc) s fun t =>
    t.bk = { s.bk with secCounts := upd s.bk.secCounts 2 (· + 1), breach := true } ∧ ∀ l, (t.lane l).ks = ((s.lane l).ks.tamperAbort).zeroise) ∧
  (∀ s sc, s.modes.mode ≠ .backup → s.rails.inReset = false → lifeCode s.life.fuse = 2 → Completes (.securityTamper 2 sc) s fun t =>
    t.life.fuse = s.life.fuse ||| 0x3F ∧ t.bk.lastReset = 15 ∧ t.modes.mode = .boot)

/-- Site time and the schedule (R332, R333, R336-R338): 16 Syncs in a row within 1 us lock the clock, which steps site time; a locked clock
steps beyond 100 us and steers below it; a lost lock holds over; the master opens a basic cycle with its reference; a follower follows
the first reference of its matrix; two missing references lose the schedule; a window's end cancels TX0. -/
def Obligations.SiteTimeAndSchedule : Prop :=
  (∀ s v o i r d, awake s = false → Completes (.ptpSyncReceived v o) s (fun t => t = s) ∧ Completes (.ptpAnnounceReceived i r) s (fun t => t = s) ∧
    Completes (.ptpDelayResp d) s fun t => t = s) ∧
  (∀ s v o, awake s = true → s.site.locked = false → s.site.source ≠ 1 →
    (o.natAbs ≤ 1000 → 15 ≤ s.site.good → Completes (.ptpSyncReceived v o) s fun t =>
      t.site.locked = true ∧ t.site.source = 1 ∧ t.site.ns = v.toNat ∧ t.site.steer = 0) ∧
    (1000 < o.natAbs → Completes (.ptpSyncReceived v o) s fun t => t.site.locked = false ∧ t.site.good = 0)) ∧
  (∀ s v o, awake s = true → s.site.locked = true → s.site.source = 1 →
    (100000 < o.natAbs → Completes (.ptpSyncReceived v o) s fun t => t.site.ns = ((s.site.ns : Int) - o).toNat ∧ t.site.steer = 0) ∧
    (o.natAbs ≤ 100000 → Completes (.ptpSyncReceived v o) s fun t => t.site.ns = s.site.ns ∧ t.site.steer = -o)) ∧
  (∀ s i r, awake s = true → Completes (.ptpAnnounceReceived i r) s fun t =>
    t.site.masters = (i, r) :: s.site.masters.filter (fun m => m.1 != i) ∧ (s.site.masters = [] → t.site.gm = i)) ∧
  (∀ s d, awake s = true → Completes (.ptpDelayResp d) s fun t => t = { s with site := { s.site with delay := d } }) ∧
  (∀ s, s.site.locked = false → Completes .ptpLockLost s fun t => t = s) ∧
  (∀ s, s.site.locked = true → s.site.source = 1 → 0 < cfgN s 0x3800 7 → Completes .ptpLockLost s fun t =>
    t.site.locked = false ∧ t.site.holdover = true ∧ t.site.source = 2 ∧ t.site.ns = s.site.ns) ∧
  (∀ s, s.site.locked = true → cfgN s 0x3800 7 = 0 → Completes .ptpLockLost s fun t => t.site.locked = false ∧ t.site.holdover = false) ∧
  (∀ s, s.site.holdover = false → Completes .ptpHoldoverExpiry s fun t => t = s) ∧
  (∀ s, s.site.holdover = true → s.site.locked = false → Completes .ptpHoldoverExpiry s fun t => t.site.holdover = false ∧ t.site.source ≠ 2) ∧
  (∀ s (c : Fin 4), isMaster s c = false ∨ drives s = false → Completes (.referenceMessageSend c) s fun t => t = s) ∧
  (∀ s (c : Fin 4), s.chans.length = 4 → awake s = true → drives s = true → (chanOf s c).talks = true → eventTriggered s c = false → isMaster s c = true →
    (chanOf s c).refAt ≠ some (basicCycle s c) → (nth (chanOf s c).tx 0).length < 16 → (chanOf s c).tx.length = 4 →
    Completes (.referenceMessageSend c) s fun t =>
      nth (chanOf t c).tx 0 = nth (chanOf s c).tx 0 ++ [refFrame s (ownRef s c)] ∧ (chanOf t c).sched = .master ∧ (chanOf t c).window = some 0 ∧
      (chanOf t c).refAt = some (basicCycle s c)) ∧
  (∀ s (c : Fin 4) m, awake s = false ∨ (chanOf s c).hears = false ∨ eventTriggered s c = true → Completes (.referenceMessageReceived c m) s fun t => t = s) ∧
  (∀ s (c : Fin 4) m, s.chans.length = 4 → awake s = true → (chanOf s c).hears = true → eventTriggered s c = false →
    (isMaster s c = true → Completes (.referenceMessageReceived c m) s fun t =>
      chanOf t c = { chanOf s c with foreign := (chanOf s c).foreign + 1 } ∧ t.site = s.site) ∧
    (isMaster s c = false → (chanOf s c).refAt ≠ some (basicCycle s c) → m.matrix.toNat ≠ qMatrix (quadImage s c) % 2 ^ 16 →
      Completes (.referenceMessageReceived c m) s fun t => (chanOf t c).sched = .lost) ∧
    (isMaster s c = false → (chanOf s c).refAt ≠ some (basicCycle s c) → m.matrix.toNat = qMatrix (quadImage s c) % 2 ^ 16 →
      (chanOf s c).sched ≠ .lost ∨ m.cycle = 0 →
      Completes (.referenceMessageReceived c m) s fun t => (chanOf t c).sched = .following ∧ (chanOf t c).cycle = m.cycle.toNat)) ∧
  (∀ s (c : Fin 4), refsMissing s c = false → Completes (.scheduleLost c) s fun t => t = s) ∧
  (∀ s (c : Fin 4), s.chans.length = 4 → eventTriggered s c = false → isMaster s c = false → (chanOf s c).hears = true → refsMissing s c = true →
    Completes (.scheduleLost c) s fun t => (chanOf t c).sched = .lost) ∧
  (∀ s (c : Fin 4), (chanOf s c).window = none → Completes (.windowEnd c) s fun t => t.chans = s.chans) ∧
  (∀ s (c : Fin 4), s.chans.length = 4 → (chanOf s c).tx.length = 4 → (chanOf s c).window.isSome = true → Completes (.windowEnd c) s fun t =>
    nth (chanOf t c).tx 0 = [] ∧ (chanOf t c).window = none ∧
    (chanOf t c).windowDiscards = (chanOf s c).windowDiscards + BitVec.ofNat 32 (nth (chanOf s c).tx 0).length ∧
    ∀ q : Fin 4, q ≠ 0 → nth (chanOf t c).tx q = nth (chanOf s c).tx q) ∧
  (∀ s (c : Fin 4) j, ownsCell s c j = false ∨ columnNow s c ≠ j ∨ drives s = false → Completes (.exclusiveWindowStart c j) s fun t => t = s) ∧
  (∀ s (c : Fin 4) j z f, s.chans.length = 4 → awake s = true → drives s = true → (chanOf s c).talks = true → eventTriggered s c = false →
    (chanOf s c).sched = .master ∨ (chanOf s c).sched = .following → j < qCols (quadImage s c) → columnNow s c = j → ownsCell s c j = true →
    qCode (quadImage s c) (cycleNow s c) j ≠ 1 → codedFrame s c (qCode (quadImage s c) (cycleNow s c) j) = (some f, z) →
    (nth (chanOf s c).tx 0).length < 16 → (chanOf s c).tx.length = 4 → Completes (.exclusiveWindowStart c j) s fun t =>
      (chanOf t c).window = some j ∧ nth (chanOf t c).tx 0 = nth (chanOf s c).tx 0 ++ [f])

/-- Frames of the site bus (R325-R331, R340-R342): what a channel that hears the bus takes, drops or counts; the head that wins leaves, or stays
after an error; a queued frame is cancelled at once and one under way is held; above 255 errors the channel goes bus-off with its
queues empty; recovery, restart, sleep and wake. -/
def Obligations.SiteBusFrames : Prop :=
  (∀ s (c : Fin 4) f, awake s = false ∨ (chanOf s c).hears = false → Completes (.canFrameReceived c f) s fun t => t = s) ∧
  (∀ s (c : Fin 4) f, s.chans.length = 4 → awake s = true → (chanOf s c).hears = true →
    (f.remote = true → Completes (.canFrameReceived c f) s fun t =>
      (chanOf t c).rx = (chanOf s c).rx ∧ (chanOf t c).dropped = (chanOf s c).dropped + 1 ∧ (chanOf t c).received = (chanOf s c).received + 1) ∧
    (f.remote = false → isDuplicate s c f = true → Completes (.canFrameReceived c f) s fun t =>
      (chanOf t c).rx = (chanOf s c).rx ∧ (chanOf t c).duplicates = (chanOf s c).duplicates + 1) ∧
    (f.remote = false → isDuplicate s c f = false → isFedIdent s f = false → shortRpdo s c f = false → serviceTakes s c f = true →
      (chanOf s c).rx.length = 2 → (nth (chanOf s c).rx 0).length < 64 →
      Completes (.canFrameReceived c f) s fun t => nth (chanOf t c).rx 0 = nth (chanOf s c).rx 0 ++ [f] ∧ nth (chanOf t c).rx 1 = nth (chanOf s c).rx 1) ∧
    (f.remote = false → isDuplicate s c f = false → isFedIdent s f = false → shortRpdo s c f = false → serviceTakes s c f = true →
      64 ≤ (nth (chanOf s c).rx 0).length → Completes (.canFrameReceived c f) s fun t =>
        (chanOf t c).rx = (chanOf s c).rx ∧ (chanOf t c).dropped = (chanOf s c).dropped + 1) ∧
    (f.remote = false → isDuplicate s c f = false → isFedIdent s f = false → shortRpdo s c f = false → serviceTakes s c f = false →
      userMatch s c f = none → Completes (.canFrameReceived c f) s fun t => (chanOf t c).rx = (chanOf s c).rx ∧ (chanOf t c).monitor = (chanOf s c).monitor)) ∧
  (∀ s (c : Fin 4) ok, drives s = false ∨ nextToSend s c = none → Completes (.canFrameSent c ok) s fun t => t = s) ∧
  (∀ s (c : Fin 4) q f, s.chans.length = 4 → awake s = true → drives s = true → (chanOf s c).talks = true → nextToSend s c = some (q, f) →
    (Completes (.canFrameSent c true) s fun t =>
      (chanOf t c).tx = upd (chanOf s c).tx q List.tail ∧ (chanOf t c).sent = (chanOf s c).sent + 1 ∧ (chanOf t c).tec = (chanOf s c).tec - 1) ∧
    ((chanOf s c).cancelHeld ≠ some q → Completes (.canFrameSent c false) s fun t =>
      (chanOf t c).tx = (chanOf s c).tx ∧ (chanOf t c).errors = (chanOf s c).errors + 1 ∧ (chanOf t c).tec = (chanOf s c).tec + 8) ∧
    ((chanOf s c).cancelHeld = some q → Completes (.canFrameSent c false) s fun t =>
      (chanOf t c).tx = upd (chanOf s c).tx q List.tail ∧ (chanOf t c).cancels = (chanOf s c).cancels + 1 ∧ (chanOf t c).cancelHeld = none)) ∧
  (∀ s (c q : Fin 4) p b, s.chans.length = 4 →
    ((nth (chanOf s c).tx q).length ≤ p → Completes (.canFrameCancel c q p b) s fun t => t.chans = s.chans) ∧
    (p < (nth (chanOf s c).tx q).length → Completes (.canFrameCancel c q p false) s fun t =>
      chanOf t c = { chanOf s c with tx := upd (chanOf s c).tx q (fun l => l.eraseIdx p), cancels := (chanOf s c).cancels + 1 }) ∧
    (0 < (nth (chanOf s c).tx q).length → Completes (.canFrameCancel c q 0 true) s fun t =>
      chanOf t c = { chanOf s c with cancelHeld := some q.val })) ∧
  (∀ s (c : Fin 4), (chanOf s c).talks = false ∨ (chanOf s c).tec ≤ 255 → Completes (.canBusOff c) s fun t => t = s) ∧
  (∀ s (c : Fin 4), s.chans.length = 4 → (chanOf s c).talks = true → 255 < (chanOf s c).tec → Completes (.canBusOff c) s fun t =>
    ((chanOf t c).st = .busOff ∨ (chanOf t c).st = .latchedOff) ∧ (chanOf t c).tx = List.replicate 4 [] ∧
    (chanOf t c).busOffs = (chanOf s c).busOffs + 1 ∧
    (chanOf t c).dropped = (chanOf s c).dropped + BitVec.ofNat 32 (txCount (chanOf s c))) ∧
  (∀ s (c : Fin 4), s.chans.length = 4 →
    ((chanOf s c).st = .busOff → Completes (.canBusOffRecovery c) s fun t => chanOf t c = { chanOf s c with st := .errorActive, tec := 0, rec_ := 0 }) ∧
    ((chanOf s c).st ≠ .busOff → Completes (.canBusOffRecovery c) s fun t => t.chans = s.chans) ∧
    (writable s = true → (activeLane s).isSome = true → (chanOf s c).st = .latchedOff → Completes (.channelRestart c) s fun t =>
      chanOf t c = { chanOf s c with st := .integrating, tec := 0, rec_ := 0, wakeErrors := 0, busOffTimes := [] }) ∧
    (writable s = true → (activeLane s).isSome = true → (chanOf s c).st ≠ .latchedOff → Completes (.channelRestart c) s fun t => t.chans = s.chans) ∧
    ((activeLane s).isSome = true → maySleep s c = true → (chanOf s c).st ≠ .off → Completes (.channelSleep c) s fun t => (chanOf t c).st = .sleep) ∧
    (maySleep s c = false → Completes (.channelSleep c) s fun t => t.chans = s.chans) ∧
    (writable s = true → (activeLane s).isSome = true → (chanOf s c).st = .sleep → Completes (.channelWakeCommand c) s fun t =>
      (chanOf t c).st = .integrating ∧ (chanOf t c).wakeCause = 4) ∧
    (writable s = true → (activeLane s).isSome = true → (chanOf s c).st ≠ .sleep → Completes (.channelWakeCommand c) s fun t => t.chans = s.chans) ∧
    (∀ k, (chanOf s c).st ≠ .sleep → Completes (.channelWake c k) s fun t => t = s) ∧
    ((chanOf s c).st = .sleep → awake s = true → cfgN s (0x3810 + c) 8 ≠ 1 → Completes (.channelWake c .edge) s fun t =>
      (chanOf t c).st = .integrating ∧ (chanOf t c).wakeCause = 1) ∧
    (∀ f, (chanOf s c).st = .sleep → awake s = true → cfgN s (0x3810 + c) 8 = 1 → f.fd = false → f.remote = false → wakeMatch s c f = true →
      Completes (.channelWake c (.frame f)) s fun t => (chanOf t c).st = .integrating ∧ (chanOf t c).wakeCause = 2))
/-- Halts, starts and milestones of the metrology section (R215-R217, R220, R221): its own supply warning and a lost crystal take a milestone and halt
it; its own supply warning while it is halted for another cause makes that cause its supply; it starts from the valid copy with the higher
number, with its sessions closed and legal time unset; a milestone whose rows verify takes
the next number; failing rows cost redundant rows, then a failed commit, then a halt. -/
def Obligations.MetrologyHaltsAndMilestones : Prop :=
  (∀ s, metRuns s.met = false →
    (s.met.ctl.halt ≠ 2 → s.met.ctl.halt ≠ 3 →
      Completes .metrologyVmetWarning s fun t => t.met = { s.met with ctl := { s.met.ctl with vmetLow := true } }) ∧
    (s.met.ctl.halt = 2 ∨ s.met.ctl.halt = 3 →
      Completes .metrologyVmetWarning s fun t => t.met.ctl.halt = 1 ∧ t.met.ctl.vmetLow = true ∧ t.met.ctl.st = s.met.ctl.st) ∧
    Completes .metrologyCrystalLost s (fun t => t.met = { s.met with ctl := { s.met.ctl with clockLost := true } }) ∧
    ∀ ok, Completes (.milestone ok) s fun t => t.met = s.met) ∧
  (∀ s, metRuns s.met = true → Completes .metrologyVmetWarning s fun t =>
    t.met.ctl.st = .halted ∧ t.met.ctl.halt = 1 ∧ t.met.ctl.vmetLow = true ∧ t.met.ctl.legalSet = false ∧
    t.met.ctl.milestone = if !s.met.ctl.pfPending && !s.met.ctl.pfDone then s.met.ctl.milestone + 1 else s.met.ctl.milestone) ∧
  (∀ s, metRuns s.met = true → Completes .metrologyCrystalLost s fun t =>
    t.met.ctl.st = .halted ∧ t.met.ctl.halt = 2 ∧ t.met.ctl.clockLost = true ∧ t.met.ctl.milestone = s.met.ctl.milestone + 1) ∧
  (∀ s f, s.met.ctl.st ≠ .halted → Completes (.metrologyStart f) s (fun t => t = s) ∧ Completes .metrologyCrystalReturn s fun t => t = s) ∧
  (∀ s f, s.met.ctl.st = .halted → s.met.ctl.halt = 2 → Completes (.metrologyStart f) s fun t => t = s) ∧
  (∀ s f, s.met.ctl.st = .halted → s.met.ctl.halt ≠ 2 → Completes .metrologyCrystalReturn s (fun t => t = s) ∧
    Completes (.metrologyStart f) s (fun t =>
      t.met.ctl.st = (if f.calOk && f.cfgOk then .start else .noCal) ∧ t.met.ctl.halt = 0 ∧ t.met.ctl.legalSet = false ∧
      t.met.bill.regs.sessions = List.replicate 32 none) ∧
    ∀ i, loadedImage f s.met.ctl = some i → Completes (.metrologyStart f) s fun t =>
      t.met.ctl.milestone = i.number ∧ t.met.ctl.loaded = some i ∧ t.met.bill.regs.groups = i.regs.groups) ∧
  (∀ s, s.met.ctl.st = .halted → s.met.ctl.halt = 2 → Completes .metrologyCrystalReturn s fun t =>
    t.met.ctl.st = (if s.met.ctl.calBad then .noCal else .start) ∧ t.met.ctl.halt = 0 ∧ t.met.ctl.legalSet = false) ∧
  (∀ s, s.met.ctl.pfPending = false ∨ metRuns s.met = false → Completes .powerFailMilestone s fun t => t.met = s.met) ∧
  (∀ s, s.met.ctl.pfPending = true → metRuns s.met = true → Completes .powerFailMilestone s fun t =>
    t.met.ctl.pfPending = false ∧ t.met.ctl.pfDone = true ∧ t.met.ctl.milestone = s.met.ctl.milestone + 1 ∧ t.met.ctl.st = s.met.ctl.st) ∧
  (∀ s, metRuns s.met = true → Completes (.milestone true) s fun t =>
    t.met.ctl.milestone = s.met.ctl.milestone + 1 ∧ t.met.ctl.commitFails = 0 ∧ t.met.ctl.st = s.met.ctl.st ∧ t.met.ctl.rows = s.met.ctl.rows ∧
    t.met.ctl.cycles = s.met.ctl.cycles + toMilestone s.met.ctl ∧ t.met.ctl.legal = s.met.ctl.legal + toMilestone s.met.ctl) ∧
  (∀ s, metRuns s.met = true →
    (0 < s.met.ctl.rows → Completes (.milestone false) s fun t =>
      t.met.ctl.milestone = s.met.ctl.milestone + 1 ∧ t.met.ctl.rows = s.met.ctl.rows - 1 ∧ t.met.ctl.st = s.met.ctl.st) ∧
    (s.met.ctl.rows = 0 → s.met.ctl.commitFails = 0 → Completes (.milestone false) s fun t =>
      t.met.ctl.milestone = s.met.ctl.milestone ∧ t.met.ctl.commitFails = 1 ∧ t.met.ctl.st = s.met.ctl.st) ∧
    (s.met.ctl.rows = 0 → 1 ≤ s.met.ctl.commitFails → Completes (.milestone false) s fun t =>
      t.met.ctl.milestone = s.met.ctl.milestone ∧ t.met.ctl.st = .halted ∧ t.met.ctl.halt = 3))

/-- Measurement (R223-R232, R236-R238): an AC energy above the starting current goes to the direction of its sign, whole mWh to the
hub's registers and the rest to the residue; voltage events are kept and counted; the grid record takes the next number; a tap record
is held, or rejected and counted; pulses, reconciliation and SEAL. -/
def Obligations.MetrologyMeasurement : Prop :=
  (∀ s x, metRuns s.met = false → Completes (.acEnergySample x) s fun t => t = s) ∧
  (∀ s x, metRuns s.met = true → Completes (.acEnergySample x) s fun t =>
    t.met.ac.volts = x.volts ∧ t.met.ac.amps = x.amps ∧ t.met.ac.vars = x.vars ∧ t.met.ac.va = x.va ∧ t.met.dc = s.met.dc) ∧
  (∀ s x, (x.usedCurrents.all fun i => decide (i * 1000 < s.met.ac.rated.toNat)) = true ∨ advances s.met = false →
    Completes (.acEnergySample x) s fun t => t.met.bill = s.met.bill ∧ t.met.ac.imp = s.met.ac.imp ∧ t.met.ac.exp = s.met.ac.exp) ∧
  (∀ s x, advances s.met = true → (x.usedCurrents.all fun i => decide (i * 1000 < s.met.ac.rated.toNat)) = false → 0 < x.energy →
    2 ^ 32 ≤ s.met.ac.imp + x.energy → Completes (.acEnergySample x) s fun t =>
      t.met.ac.imp = (s.met.ac.imp + x.energy) % 2 ^ 32 ∧ t.met.ac.exp = s.met.ac.exp ∧
      t.met.bill.regs.groups = (creditGroup 0 0 ((s.met.ac.imp + x.energy) / 2 ^ 32).toNat s.met.bill.regs).groups) ∧
  (∀ s x, advances s.met = true → (x.usedCurrents.all fun i => decide (i * 1000 < s.met.ac.rated.toNat)) = false → x.energy < 0 →
    2 ^ 32 ≤ s.met.ac.exp - x.energy → Completes (.acEnergySample x) s fun t =>
      t.met.ac.exp = (s.met.ac.exp - x.energy) % 2 ^ 32 ∧ t.met.ac.imp = s.met.ac.imp ∧
      t.met.bill.regs.groups = (creditGroup 0 1 ((s.met.ac.exp - x.energy) / 2 ^ 32).toNat s.met.bill.regs).groups) ∧
  (∀ s k p, metRuns s.met = true → detects s.met k = true → inEvent s.met k = false → Completes (.voltageEventStart k p) s fun t =>
    t.met = { s.met with ac := { s.met.ac with inProgress := s.met.ac.inProgress ++ [(k, s.met.ctl.legal, s.met.ctl.legalSet, p)] } }) ∧
  (∀ s k p, metRuns s.met = false ∨ detects s.met k = false ∨ inEvent s.met k = true → Completes (.voltageEventStart k p) s fun t => t = s) ∧
  (∀ s k a v, inEvent s.met k = false → Completes (.voltageEventEnd k a v) s fun t => t = s) ∧
  (∀ s k a v, metRuns s.met = true → inEvent s.met k = true → Completes (.voltageEventEnd k a v) s fun t =>
    inEvent t.met k = false ∧ t.met.ac.pqCounts = upd s.met.ac.pqCounts (voltNum k) (· + 1) ∧
    t.met.bill.event.next = s.met.bill.event.next + 1) ∧
  (∀ s p f, metRuns s.met = false → Completes (.gridStatusSend p f) s fun t => t = s) ∧
  (∀ s p f, metRuns s.met = true → Completes (.gridStatusSend p f) s fun t =>
    t.met.ac.gridSeq = s.met.ac.gridSeq + 1 ∧ t.met.bill = s.met.bill ∧ ∃ g, t.met.ac.grid = some g ∧ g.seq = s.met.ac.gridSeq + 1 ∧ g.freq = f ∧
      g.pImp = BitVec.ofInt 32 (max p 0) ∧ g.pExp = BitVec.ofInt 32 (max (-p) 0)) ∧
  (∀ s r, tapGood r = false → Completes (.tapRecordReceived r) s fun t =>
    t.met = { s.met with ctl := { s.met.ctl with crcErrors := s.met.ctl.crcErrors + 1 } }) ∧
  (∀ s r, tapGood r = true → advances s.met = false → Completes (.tapRecordReceived r) s fun t => t.met = s.met) ∧
  (∀ s r (c : Fin 32), s.met.dc.length = 32 → tapGood r = true → advances s.met = true → s.met.ctl.curPeriod = some r.period →
    (∀ t0, s.met.ctl.lastTap = some t0 → (r.stamp - t0) * (nominalPeriod s).2 < 32 * (nominalPeriod s).1) →
    channelOf s.met r.serial = some (c.val + 1) →
    (r.status ≠ 0 → (nth s.met.dc c).seenNow = false → Completes (.tapRecordReceived r) s fun t =>
      nth t.met.dc c = { nth s.met.dc c with rejected := (nth s.met.dc c).rejected + 1, seenNow := true, held := none }) ∧
    (r.status = 0 → (nth s.met.dc c).seenNow = false → (nth s.met.dc c).lastSeq = none → Completes (.tapRecordReceived r) s fun t =>
      nth t.met.dc c = { nth s.met.dc c with seenNow := true, held := some (r.voltage.toInt, r.current.toInt, r.seq, BitVec.ofNat 8 r.link.toNat) })) ∧
  (∀ s (o i : Fin 4), metRuns s.met = false → Completes (.pulseOutputEdge o) s (fun t => t = s) ∧ Completes (.pulseInputCount i) s (fun t => t = s) ∧
    Completes (.reconciliation i) s fun t => t = s) ∧
  (∀ s (o : Fin 4) e b es, s.met.pout.length = 4 → metRuns s.met = true → (nth s.met.pout o).edges = (e, b) :: es → Completes (.pulseOutputEdge o) s fun t =>
    (nth t.met.pout o).edges = es ∧ (nth t.met.pout o).pulses = (nth s.met.pout o).pulses + 1 ∧ (nth t.met.pout o).high = true) ∧
  (∀ s (i : Fin 4), s.met.pin.length = 4 → metRuns s.met = true →
    Completes (.pulseInputCount i) s (fun t => (nth t.met.pin i).pulses = (nth s.met.pin i).pulses + 1) ∧
    ((nth s.met.pin i).use = 0 → Completes (.reconciliation i) s fun t => t = s) ∧
    ((nth s.met.pin i).use = 1 → Completes (.reconciliation i) s fun t =>
      (nth t.met.pin i).diff = (regOf s.met.bill.regs 0 0 : Int) - ((nth s.met.pin i).pulses.toNat * (nth s.met.pin i).weight.toNat : Nat) ∧
      t.met.bill.event.next = s.met.bill.event.next + 1)) ∧
  (∀ s, s.met.ctl.sealOpen = true → Completes .sealOpen s fun t => t = s) ∧
  (∀ s, s.met.ctl.sealOpen = false → Completes .sealOpen s fun t =>
    t.met.ctl.sealOpen = true ∧ t.met.ctl.sealOpenings = s.met.ctl.sealOpenings + 1 ∧ t.met.ctl.sealedWrites = 0) ∧
  (∀ s f, s.met.ctl.sealOpen = false → Completes (.sealClose f) s fun t => t = s) ∧
  (∀ s f, s.met.ctl.sealOpen = true →
    (s.met.ctl.heldImg = none → Completes (.sealClose f) s fun t => t.met.ctl.sealOpen = false ∧ t.met.ctl.partialImg = none ∧
      t.met.ctl.st = if advances s.met && !(f.calOk && f.cfgOk) then .noCal else s.met.ctl.st) ∧
    (∀ img, s.met.ctl.heldImg = some img → Completes (.sealClose f) s fun t => t.met.ctl.sealOpen = false ∧ t.met.ctl.heldImg = none ∧
      t.met.ctl.imageCrc = crc32 img ∧ t.met.ctl.st = (if f.calOk && f.cfgOk then .start else .noCal) ∧ t.met.ctl.legalSet = false))

/-- The barrier's requests (R241, R242, R219, R239, R250, R254, R268): another lane's are answered with status 4, a halted section's with 6,
a sealed one with SEAL closed with 3; a served request has its effect and its payload, or status 5 for a value out of range, which
leaves legal time, the passive calendar and the held image. -/
def Obligations.BarrierRequests : Prop :=
  (∀ s q m c ch a sid g lst d w1 w2 w3 w4 w5 lt pf pv ar ct fi, s.jct.mark ≠ some q.lane →
    TurnedAway (.barrierTime q m) s q 4 4 ∧ TurnedAway (.barrierSessionOpen q c ch a sid) s q 5 4 ∧ TurnedAway (.barrierSessionClose q ch sid) s q 5 4 ∧
    TurnedAway (.barrierCalendar q g lst d) s q 6 4 ∧ TurnedAway (.barrierPqWrite q w1 w2 w3 w4 w5) s q 9 4 ∧
    TurnedAway (.barrierTamper q lt pf pv) s q 0xC 4 ∧ TurnedAway (.barrierLogRead q ar ct fi) s q 3 4) ∧
  (∀ s q m c ch a sid g lst d w1 w2 w3 w4 w5 lt pf pv, s.jct.mark = some q.lane → metRuns s.met = false →
    TurnedAway (.barrierTime q m) s q 4 6 ∧ TurnedAway (.barrierSessionOpen q c ch a sid) s q 5 6 ∧ TurnedAway (.barrierSessionClose q ch sid) s q 5 6 ∧
    TurnedAway (.barrierCalendar q g lst d) s q 6 6 ∧ TurnedAway (.barrierPqWrite q w1 w2 w3 w4 w5) s q 9 6 ∧ TurnedAway (.barrierTamper q lt pf pv) s q 0xC 6) ∧
  (∀ s q ci si g lst d, forwards s 7 = true → s.jct.mark = some q.lane → metRuns s.met = true → s.met.ctl.sealOpen = false →
    TurnedAway (.barrierCalWrite q ci) s q 7 3 ∧ TurnedAway (.barrierConfigWrite q si) s q 8 3 ∧ TurnedAway (.barrierImage q g lst d) s q 0xA 3) ∧
  (∀ s q ci si g lst d, forwards s 7 = false → Completes (.barrierCalWrite q ci) s (fun t => t.met = s.met) ∧
    Completes (.barrierConfigWrite q si) s (fun t => t.met = s.met) ∧ Completes (.barrierImage q g lst d) s fun t => t.met = s.met) ∧
  (∀ s q u, Completes (.barrierMessageError q u) s fun t =>
    respOf t q.lane = some { lane := q.lane, tag := q.tag, op := 0, status := if u then 1 else 2, payload := [] } ∧
    t.met.ctl.crcErrors = if u then s.met.ctl.crcErrors else s.met.ctl.crcErrors + 1) ∧
  (∀ s q, s.jct.mark ≠ some q.lane → AnsweredWith (.barrierStatus q) s q 1 (statusBytes s.met) fun n => n.bill = s.met.bill) ∧
  (∀ s q, s.jct.mark = some q.lane → s.met.ctl.st = .ready → s.met.ctl.reported = true →
    AnsweredWith (.barrierStatus q) s q 1 (statusBytes s.met) fun n => n.bill = s.met.bill) ∧
  (∀ s q, AnsweredWith (.barrierKey q) s q 0xB Config.metrologyKey fun n => n.bill = s.met.bill) ∧
  (∀ s q n b,
    (readBlock n.toNat b.toNat s.met = none → TurnedAway (.barrierRead q n b) s q 2 5) ∧
    (∀ l, readBlock n.toNat b.toNat s.met = some l → AnsweredWith (.barrierRead q n b) s q 2 (readPayload n.toNat b.toNat l) fun n => n.bill = s.met.bill) ∧
    (heldRecord (n.setWidth 32) s.met = none → TurnedAway (.signedRecordRead q n) s q 2 5) ∧
    (∀ r, heldRecord (n.setWidth 32) s.met = some r → AnsweredWith (.signedRecordRead q n) s q 2 (r.body ++ r.signature) fun n => n.bill = s.met.bill)) ∧
  (∀ s q ct fi, s.jct.mark = some q.lane →
    (7 < ct.toNat → TurnedAway (.barrierLogRead q 0 ct fi) s q 3 5) ∧
    (∀ o n, ct.toNat ≤ 7 → s.met.bill.param.entries.head? = some o → s.met.bill.param.entries.getLast? = some n →
      AnsweredWith (.barrierLogRead q 0 ct fi) s q 3 (leBytes 4 o.seq.toNat ++ leBytes 4 n.seq.toNat ++
        ((s.met.bill.param.entries.filter fun e => decide (fi.toNat ≤ e.seq.toNat)).take ct.toNat).flatMap entryBytes) fun n => n.bill = s.met.bill)) ∧
  (∀ s q m, s.jct.mark = some q.lane → metRuns s.met = true → m.timeValid = true → s.met.ctl.legalSet = true →
    (((m.time.toNat * 750 : Nat) - (s.met.ctl.legal : Int)).natAbs ≤ secCycles → AnsweredWith (.barrierTime q m) s q 4 [] fun n =>
      n.ctl.slew = (m.time.toNat * 750 : Nat) - (s.met.ctl.legal : Int) ∧ n.ctl.legal = s.met.ctl.legal) ∧
    (stepLimit s.met * secCycles < ((m.time.toNat * 750 : Nat) - (s.met.ctl.legal : Int)).natAbs → 1 ≤ stepLimit s.met → s.met.ctl.sealOpen = false →
      Completes (.barrierTime q m) s fun t => t.met.ctl.legal = s.met.ctl.legal ∧ t.met.bill.regs.flags = s.met.bill.regs.flags ||| 2 ∧
        ∃ r, respOf t q.lane = some r ∧ r.status = 5) ∧
    (secCycles < ((m.time.toNat * 750 : Nat) - (s.met.ctl.legal : Int)).natAbs →
      ((m.time.toNat * 750 : Nat) - (s.met.ctl.legal : Int)).natAbs ≤ stepLimit s.met * secCycles → AnsweredWith (.barrierTime q m) s q 4 [] fun n =>
        n.ctl.legal = m.time.toNat * 750 ∧ n.ctl.slew = 0)) ∧
  (∀ s q m, s.jct.mark = some q.lane → metRuns s.met = true → m.timeValid = true → s.met.ctl.legalSet = false →
    AnsweredWith (.barrierTime q m) s q 4 [] fun n => n.ctl.legalSet = true ∧ n.ctl.legal = m.time.toNat * 750 ∧
      n.ctl.st = (if s.met.ctl.st = .start then .ready else s.met.ctl.st) ∧ n.ctl.milestone = s.met.ctl.milestone + 1) ∧
  (∀ s q c (ch : Fin 32) a sid, s.jct.mark = some q.lane → metRuns s.met = true → s.met.bill.regs.sessions.length = 32 → sid ≠ 0 → a.toNat ≤ 255 →
    (nth s.met.bill.regs.sessions ch = none → AnsweredWith (.barrierSessionOpen q c (BitVec.ofNat 8 (ch.val + 1)) a sid) s q 5 [] fun n =>
      ∃ x, nth n.bill.regs.sessions ch = some x ∧ x.id = sid ∧ x.account = a ∧ x.commissioning = c ∧ n.bill.records = s.met.bill.records) ∧
    (∀ x, nth s.met.bill.regs.sessions ch = some x → x.id ≠ sid →
      TurnedAway (.barrierSessionOpen q c (BitVec.ofNat 8 (ch.val + 1)) a sid) s q 5 5 ∧
      TurnedAway (.barrierSessionClose q (BitVec.ofNat 8 (ch.val + 1)) sid) s q 5 5) ∧
    (∀ x, nth s.met.bill.regs.sessions ch = some x → x.id = sid →
      AnsweredWith (.barrierSessionClose q (BitVec.ofNat 8 (ch.val + 1)) sid) s q 5 [] fun n =>
        nth n.bill.regs.sessions ch = none ∧ n.bill.record = s.met.bill.record + 1)) ∧
  (∀ s q g lst d, s.jct.mark = some q.lane → metRuns s.met = true →
    (joinSegment s.met.bill.partialCal g.toNat d = none → Completes (.barrierCalendar q g lst d) s fun t =>
      t.met.bill = { s.met.bill with partialCal := none } ∧ ∃ r, respOf t q.lane = some r ∧ r.status = 5) ∧
    (∀ p, joinSegment s.met.bill.partialCal g.toNat d = some p → AnsweredWith (.barrierCalendar q g false d) s q 6 [] fun n =>
      n.bill = { s.met.bill with partialCal := some p }) ∧
    (∀ k b, joinSegment s.met.bill.partialCal g.toNat d = some (k, b) → receiptCheck b s.met ≠ 0 → Completes (.barrierCalendar q g true d) s fun t =>
      t.met.bill.calResult = BitVec.ofNat 8 (receiptCheck b s.met) ∧ t.met.bill.passive = s.met.bill.passive ∧ ∃ r, respOf t q.lane = some r ∧ r.status = 5) ∧
    (∀ k b, joinSegment s.met.bill.partialCal g.toNat d = some (k, b) → receiptCheck b s.met = 0 → AnsweredWith (.barrierCalendar q g true d) s q 6 [] fun n =>
      n.bill.calResult = 0 ∧ ∃ c, n.bill.passive = some c ∧ c.image = b)) ∧
  (∀ s q ci si g lst d, forwards s 7 = true → s.jct.mark = some q.lane → metRuns s.met = true → s.met.ctl.sealOpen = true → logFull s.met = false →
    (calOk ci = false → TurnedAway (.barrierCalWrite q ci) s q 7 5) ∧
    (calOk ci = true → AnsweredWith (.barrierCalWrite q ci) s q 7 [] fun n =>
      n.ac = (calWrite ci s.met).ac ∧ n.dc = (calWrite ci s.met).dc ∧ n.ctl.sealedWrites = s.met.ctl.sealedWrites + 1) ∧
    (itemOk s.met si = false → TurnedAway (.barrierConfigWrite q si) s q 8 5) ∧
    (itemOk s.met si = true → AnsweredWith (.barrierConfigWrite q si) s q 8 [] fun n =>
      n.ac = (itemWrite si s.met).ac ∧ n.dc = (itemWrite si s.met).dc ∧ n.pout = (itemWrite si s.met).pout ∧ n.pin = (itemWrite si s.met).pin ∧
      n.ctl.sealedWrites = s.met.ctl.sealedWrites + 1) ∧
    (joinSegment s.met.ctl.partialImg g.toNat d = none → Completes (.barrierImage q g lst d) s fun t =>
      t.met.ctl.partialImg = none ∧ t.met.ctl.heldImg = s.met.ctl.heldImg ∧ ∃ r, respOf t q.lane = some r ∧ r.status = 5) ∧
    (∀ k b, joinSegment s.met.ctl.partialImg g.toNat d = some (k, b) → Config.metrologyImageOk b = true → AnsweredWith (.barrierImage q g true d) s q 0xA [] fun n =>
      n.ctl.heldImg = some b ∧ n.ctl.partialImg = none)) ∧
  (∀ s q w1 w2 w3 w4 w5, s.jct.mark = some q.lane → metRuns s.met = true → AnsweredWith (.barrierPqWrite q w1 w2 w3 w4 w5) s q 9 [] fun n =>
    n.ac = { s.met.ac with pq := [w1, w2, w3, w4, w5] }) ∧
  (∀ s q lt pf pv, s.jct.mark = some q.lane → metRuns s.met = true → Completes (.barrierTamper q lt pf pv) s fun t =>
    t.met.ctl.loaded = none ∧ t.bk.inputs = s.bk.inputs.mapIdx (fun i (k : TampIn) => { k with acked := k.acked || (k.latched && lt.getLsbD i) }) ∧
    ∃ r, respOf t q.lane = some r ∧ r.status = 0 ∧ r.op = 0xC)
/-- The way to an authorized vehicle (R305-R312, Table 15.4): the pilot and the plug attach a session, states A, E and INVALID and a
state D that is not permitted end one; SLAC, discovery, the protocol choice, session setup and the authorization decision each advance it, a discovery, protocol or
setup message out of its place ends it on cause 11 and a refused vehicle on cause 12. -/
def Obligations.VehicleAssociation : Prop :=
  (∀ s (n : Fin 24) c, c = 5 ∨ 6 < c.toNat → Completes (.pilotStateAccepted n c) s fun t => t = s) ∧
  (∀ s (n : Fin 24) c, c ≠ 5 → c.toNat ≤ 6 → (vehMode s n ≠ 1 ∧ vehMode s n ≠ 2) ∨ s.modes.mode = .boot ∨ s.modes.mode = .backup →
    Completes (.pilotStateAccepted n c) s fun t => t = s) ∧
  (∀ s (n : Fin 24), s.veh.links.length = 24 → vehMode s n = 1 ∨ vehMode s n = 2 → s.modes.mode ≠ .boot → s.modes.mode ≠ .backup →
    (∀ c : U8, c = 0 ∨ c = 4 ∨ c = 6 → (sess s n).st.live = true → Completes (.pilotStateAccepted n c) s fun t =>
      (sess t n).pilot = c ∧ SessionStops s t n 9) ∧
    (cfgN s (0x3710 + n) 7 = 0 → (sess s n).st.live = true → Completes (.pilotStateAccepted n 3) s fun t =>
      (sess t n).pilot = 6 ∧ SessionStops s t n 9) ∧
    (∀ c : U8, c = 1 ∨ c = 2 → (sess s n).st ≠ .idle → Completes (.pilotStateAccepted n c) s fun t =>
      sess t n = { sess s n with pilot := c }) ∧
    ((sess s n).st = .idle → (sess s n).plugged = true → mayBegin s n = true → Completes (.pilotStateAccepted n 1) s fun t =>
      (sess t n).st = .attached ∧ (sess t n).lock = true ∧ (sess t n).pilot = 1)) ∧
  (∀ s (n : Fin 24), vehMode s n ≠ 1 → vehMode s n ≠ 2 → Completes (.plugDetected n) s fun t => t = s) ∧
  (∀ s (n : Fin 24), s.veh.links.length = 24 → vehMode s n = 1 ∨ vehMode s n = 2 → Completes (.plugDetected n) s fun t =>
    (sess t n).plugged = true ∧ ((sess s n).st = .idle → (sess s n).pilot = 1 → mayBegin s n = true →
      (sess t n).st = .attached ∧ (sess t n).lock = true ∧ (sess t n).timers.slac = (vehMode s n == 2) ∧ (sess t n).timers.setup = (vehMode s n != 2))) ∧
  (∀ s (n : Fin 24), s.veh.links.length = 24 →
    ((sess s n).st.code < 1 ∨ 8 < (sess s n).st.code → Completes (.pilotX2Start n) s fun t => t = s) ∧
    (1 ≤ (sess s n).st.code → (sess s n).st.code ≤ 8 → Completes (.pilotX2Start n) s fun t =>
      sess t n = { sess s n with out := pilotOut s n { sess s n with out := .x2 } })) ∧
  (∀ s (n : Fin 24), vehMode s n ≠ 2 → Completes (.cmSlacParmReq n) s (fun t => t = s) ∧ Completes (.cmStartAttenChar n) s (fun t => t = s) ∧
    Completes (.cmSlacMatch n) s (fun t => t = s) ∧ Completes (.cmValidateReq n) s fun t => t = s) ∧
  (∀ s (n : Fin 24), s.veh.links.length = 24 → vehMode s n = 2 →
    ((sess s n).st = .attached ∨ (sess s n).st = .slac → Completes (.cmSlacParmReq n) s fun t =>
      (sess t n).st = .slac ∧ (sess t n).response.map (·.status) = some 7) ∧
    ((sess s n).st = .slac → Completes (.cmStartAttenChar n) s fun t =>
      (sess t n).st = .slac ∧ (sess t n).response.map (·.status) = some 8) ∧
    ((sess s n).st = .slac → Completes (.cmSlacMatch n) s fun t =>
      (sess t n).st = .setup ∧ (sess t n).nmk = some (Config.generate s.free) ∧ (sess t n).timers.setup = true ∧ (sess t n).timers.slac = false ∧
      t.free = s.free + 1) ∧
    ((sess s n).st.live = true → Completes (.cmValidateReq n) s fun t =>
      (sess t n).st = (sess s n).st ∧ (sess t n).response.map (·.status) = some 9)) ∧
  (∀ s (n : Fin 24), s.veh.links.length = 24 → vehMode s n = 1 → (sess s n).st = .attached → Completes (.seccDiscoveryReq n) s fun t =>
    (sess t n).st = .setup ∧ (sess t n).response.map (·.status) = some 0) ∧
  (∀ s (n : Fin 24), s.veh.links.length = 24 → vehMode s n = 3 → (sess s n).st = .idle → Completes (.seccDiscoveryReq n) s fun t =>
    (sess t n).peer = true ∧ (mayBegin s n = true → (sess t n).st = .setup ∧ (sess t n).lock = true)) ∧
  (∀ s (n : Fin 24), s.veh.links.length = 24 → 4 ≤ (sess s n).st.code → (sess s n).st.live = true →
    Completes (.seccDiscoveryReq n) s (fun t => SessionStops s t n 11) ∧
    (∀ l, Completes (.supportedAppProtocolReq n l) s fun t => SessionStops s t n 11) ∧
    Completes (.sessionSetupReq n) s fun t => SessionStops s t n 11) ∧
  (∀ s (n : Fin 24) l, s.veh.links.length = 24 → (sess s n).st = .setup →
    (∀ p, pickProtocol (vehMode s n) (bayMask s n) l = some p → Completes (.supportedAppProtocolReq n l) s fun t =>
      (sess t n).st = .setup ∧ (sess t n).protocol = BitVec.ofNat 8 (Protocol.code p) ∧ (sess t n).response.map (·.status) = some 0) ∧
    (pickProtocol (vehMode s n) (bayMask s n) l = none → Completes (.supportedAppProtocolReq n l) s fun t =>
      SessionStops s t n 11 ∧ (sess t n).response.map (·.status) = some 1)) ∧
  (∀ s (n : Fin 24), s.veh.links.length = 24 → (sess s n).st = .setup →
    ((sess s n).protocol ≠ 0 → Completes (.sessionSetupReq n) s fun t =>
      (sess t n).st = .setup ∧ (sess t n).timers.setup = false ∧ (sess t n).response.map (·.status) = some 0) ∧
    ((sess s n).protocol = 0 → Completes (.sessionSetupReq n) s fun t => SessionStops s t n 11)) ∧
  (∀ s (n : Fin 24) r, s.veh.links.length = 24 → (sess s n).st = .setup → (sess s n).protocol ≠ 0 → (sess s n).timers.setup = false →
    (r.pnc = false →
      (cfgB s 0x3700 3 = true ∨ (sess s n).hostAuth = 1 → Completes (.authorizationReq n r) s fun t =>
        (sess t n).st = .authorizing ∧ (sess t n).authWait = false ∧ (sess t n).response.map (·.status) = some 0) ∧
      (cfgB s 0x3700 3 = false → (sess s n).hostAuth = 2 → Completes (.authorizationReq n r) s fun t => SessionStops s t n 12) ∧
      (cfgB s 0x3700 3 = false → (sess s n).hostAuth ≠ 1 → (sess s n).hostAuth ≠ 2 → Completes (.authorizationReq n r) s fun t =>
        (sess t n).st = .authorizing ∧ (sess t n).authWait = true ∧ (sess t n).timers.authorization = true ∧
        (sess t n).response.map (·.status) = some 3)) ∧
    (r.pnc = true →
      (cfgB s 0x3700 2 = false ∨ (sess s n).protocol ≠ 1 → Completes (.authorizationReq n r) s fun t => SessionStops s t n 11) ∧
      (cfgB s 0x3700 2 = true → (sess s n).protocol = 1 → r.chainOk = false ∨ r.signatureOk = false →
        Completes (.authorizationReq n r) s fun t => SessionStops s t n 12) ∧
      (cfgB s 0x3700 2 = true → (sess s n).protocol = 1 → r.chainOk = true → r.signatureOk = true → cfgB s 0x3700 3 = true →
        Completes (.authorizationReq n r) s fun t =>
          (sess t n).st = .authorizing ∧ (sess t n).certOk = true ∧ (sess t n).emaid = r.emaid ∧ (sess t n).authWait = false))) ∧
  (∀ s (n : Fin 24) v, writable s = false → Completes (.hostAuthorizationWrite n v) s fun t => t.veh = s.veh) ∧
  (∀ s (n : Fin 24) v, writable s = true → (activeLane s).isSome = true →
    (2 < v.toNat → Completes (.hostAuthorizationWrite n v) s fun t => t = respond 0x06090030 [] s) ∧
    (v.toNat ≤ 2 → s.veh.links.length = 24 →
      ((sess s n).st ≠ .authorizing ∨ (sess s n).authWait = false ∨ v = 0 → Completes (.hostAuthorizationWrite n v) s fun t =>
        sess t n = { sess s n with hostAuth := v }) ∧
      ((sess s n).st = .authorizing → (sess s n).authWait = true → v = 1 → Completes (.hostAuthorizationWrite n v) s fun t =>
        (sess t n).st = .authorizing ∧ (sess t n).authWait = false ∧ (sess t n).response.map (·.status) = some 0) ∧
      ((sess s n).st = .authorizing → (sess s n).authWait = true → cfgB s 0x3700 3 = false → v = 2 →
        Completes (.hostAuthorizationWrite n v) s fun t => SessionStops s t n 12))) ∧
  (∀ s (n : Fin 24), s.veh.links.length = 24 → (sess s n).st.live = true → Completes (.protocolError n) s fun t =>
    SessionStops s t n 11 ∧ (sess t n).response.map (·.status) = some 1)

/-- A charging session from its start to IDLE (R313-R319, R321): an authorized session takes its ID, account, target and departure and opens the
metrology session; parameters, cable check, precharge and the charge loop in their order; each end cause stops it with its own code, the lower
of two causes of one period stays; a stopped session leaves STOPPING when the bay is measured quiet or the modules are away. -/
def Obligations.ChargingSession : Prop :=
  (∀ s (n : Fin 24), bayOfVehicle s n = none ∨ (sess s n).st ≠ .authorizing ∨ (sess s n).authWait = true → Completes (.sessionStart n) s fun t => t = s) ∧
  (∀ s (n : Fin 24) i, s.veh.links.length = 24 → bayOfVehicle s n = some i → (sess s n).st = .authorizing → (sess s n).authWait = false →
    (meterServes s = false → Completes (.sessionStart n) s fun t => SessionStops s t n 8) ∧
    (meterServes s = true → (sess s n).isolation = 3 → Completes (.sessionStart n) s fun t => SessionStops s t n 10) ∧
    (meterServes s = true → (sess s n).isolation ≠ 3 → Completes (.sessionStart n) s fun t =>
      (sess t n).st = .parameters ∧ (sess t n).count = (sess s n).count + 1 ∧
      (sess t n).id = BitVec.ofNat 32 ((n + 1) * 2 ^ 24 + ((sess s n).count.toNat + 1) % 2 ^ 24) ∧
      (sess t n).account = BitVec.ofNat 16 (leaseOf s i (sess s n)).1 ∧ (sess t n).source = BitVec.ofNat 8 (leaseOf s i (sess s n)).2 ∧
      (sess t n).hostAuth = 0 ∧ (sess t n).energy = 0 ∧
      (sess t n).target = (if bayN s i 0x10 = 0 then (sess s n).values.energy else BitVec.ofNat 32 (bayN s i 0x10)) ∧
      (sess t n).departure = (if bayN s i 0x11 = 0 then (sess s n).values.departure else BitVec.ofNat 64 (bayN s i 0x11)) ∧
      (metRuns s.met = true → t.met = (sessionOpen false (i + 1) (meterAccount s (sess t n).account) (sess t n).id s.met).1))) ∧
  (∀ s (n : Fin 24) x, s.veh.links.length = 24 →
    ((sess s n).st = .parameters → Completes (.chargeParameterDiscoveryReq n x) s fun t =>
      (sess t n).st = .parameters ∧ (sess t n).values = x ∧ (sess t n).cont = true ∧ (sess t n).pend = some (s.clk.period, true)) ∧
    ((sess s n).st ≠ .parameters → (sess s n).st.live = true → Completes (.chargeParameterDiscoveryReq n x) s fun t => SessionStops s t n 11)) ∧
  (∀ s (n : Fin 24), s.veh.links.length = 24 →
    ((sess s n).st = .parameters → (sess s n).cont = true →
      (sess s n).isoAt.any (fun t => decide (s.clk.ns ≤ t + 1000000000)) = true → (sess s n).isolation = 1 ∨ (sess s n).isolation = 2 →
      Completes (.cableCheckPass n) s fun t => sess t n = { sess s n with cablePassed := true }) ∧
    ((sess s n).st ≠ .parameters ∨ (sess s n).cont = false ∨
        (sess s n).isoAt.any (fun t => decide (s.clk.ns ≤ t + 1000000000)) = false ∨ ((sess s n).isolation ≠ 1 ∧ (sess s n).isolation ≠ 2) →
      Completes (.cableCheckPass n) s fun t => t = s)) ∧
  (∀ s (n : Fin 24) x, s.veh.links.length = 24 →
    ((sess s n).st = .parameters → (sess s n).cablePassed = true → Completes (.prechargeReq n x) s fun t =>
      (sess t n).st = .precharge ∧ (sess t n).values = x ∧ (sess t n).timers = { Timers.none with precharge := true } ∧
      (sess t n).pend = some (s.clk.period, false)) ∧
    ((sess s n).st = .parameters → (sess s n).cablePassed = false → Completes (.prechargeReq n x) s fun t =>
      SessionStops s t n 11 ∧ (sess t n).response.map (·.status) = some 2) ∧
    ((sess s n).st = .precharge → Completes (.prechargeReq n x) s fun t =>
      (sess t n).st = .precharge ∧ (sess t n).values = x ∧ (sess t n).pend = some (s.clk.period, false)) ∧
    ((sess s n).st.transfer = true → Completes (.chargeLoopReq n x) s fun t =>
      (sess t n).st = .charging ∧ (sess t n).values = x ∧ (sess t n).timers.precharge = false ∧ (sess t n).pend = some (s.clk.period, false)) ∧
    ((sess s n).st.transfer = false → (sess s n).st.live = true → Completes (.chargeLoopReq n x) s fun t => SessionStops s t n 11)) ∧
  (∀ s (n : Fin 24), s.veh.links.length = 24 →
    ((sess s n).st.code < 3 → Completes (.vehicleStopRequest n) s fun t => t = s) ∧
    (3 ≤ (sess s n).st.code → (sess s n).st.live = true → Completes (.vehicleStopRequest n) s fun t =>
      SessionStops s t n 1 ∧ (sess t n).response.map (·.status) = some 4)) ∧
  (∀ s (n : Fin 24) v, writable s = false → Completes (.isolationStateWrite n v) s fun t => t.veh = s.veh) ∧
  (∀ s (n : Fin 24) v, writable s = true → (activeLane s).isSome = true →
    (3 < v.toNat → Completes (.isolationStateWrite n v) s fun t => t = respond 0x06090030 [] s) ∧
    (v.toNat ≤ 3 → s.veh.links.length = 24 →
      (v ≠ 3 ∨ (sess s n).st.code < 5 → Completes (.isolationStateWrite n v) s fun t =>
        sess t n = { sess s n with isolation := v, isoAt := some s.clk.ns }) ∧
      (v = 3 → 5 ≤ (sess s n).st.code → (sess s n).st.live = true → Completes (.isolationStateWrite n v) s fun t =>
        (sess t n).isolation = 3 ∧ SessionStops s t n 10))) ∧
  (∀ s (n : Fin 24), s.veh.links.length = 24 →
    ((sess s n).st.transfer = true → Completes (.isolationStale n) s fun t => SessionStops s t n 10) ∧
    ((sess s n).st.transfer = false → Completes (.isolationStale n) s fun t => t = s)) ∧
  (∀ s (n : Fin 24) k, s.veh.links.length = 24 →
    ((sess s n).st.live = true → (sess s n).timers.runs k = true → Completes (.sessionTimeout n k) s fun t =>
      SessionStops s t n (if k = .authorization then 12 else 13)) ∧
    ((sess s n).timers.runs k = false → Completes (.sessionTimeout n k) s fun t => t = s)) ∧
  (∀ s (n : Fin 24), s.veh.links.length = 24 →
    ((sess s n).st = .charging → (sess s n).thermalHold = true → Completes (.thermalHoldExpiry n) s fun t => SessionStops s t n 14) ∧
    ((sess s n).thermalHold = false → Completes (.thermalHoldExpiry n) s fun t => t = s)) ∧
  (∀ s (n : Fin 24) c, c = 0 ∨ 14 < c.toNat → Completes (.sessionEnd n c) s fun t => t = s) ∧
  (∀ s (n : Fin 24) c, c ≠ 0 → c.toNat ≤ 14 → s.veh.links.length = 24 →
    ((sess s n).st.live = true → Completes (.sessionEnd n c) s fun t => SessionStops s t n c.toNat) ∧
    ((sess s n).st = .stopping → (sess s n).stopAt = s.clk.period → Completes (.sessionEnd n c) s fun t =>
      (sess t n).st = .stopping ∧ (sess t n).cause = (if c.toNat < (sess s n).cause.toNat then c else (sess s n).cause) ∧
      (sess t n).toFault = ((sess s n).toFault || faultCause c.toNat))) ∧
  (∀ s (n : Fin 24), s.veh.links.length = 24 → (sess s n).st.live = true →
    (Completes (.plugLost n) s fun t => (sess t n).plugged = false ∧ SessionStops s t n 9) ∧
    (vehMode s n = 3 → Completes (.bridgePeerGone n) s fun t => (sess t n).peer = false ∧ SessionStops s t n 9)) ∧
  (∀ s (n : Fin 24), vehMode s n ≠ 3 → Completes (.bridgePeerGone n) s fun t => t = s) ∧
  (∀ s (n : Fin 24), s.veh.links.length = 24 → vehMode s n = 3 → (sess s n).st = .ended ∨ (sess s n).st = .faultWait →
    Completes (.bridgePeerGone n) s fun t => (sess t n).st = .idle) ∧
  (∀ s (n : Fin 24), (sess s n).st ≠ .ended → (sess s n).st ≠ .faultWait → Completes (.sessionIdle n) s fun t => t = s) ∧
  (∀ s (n : Fin 24), s.veh.links.length = 24 → vehMode s n ≠ 3 → (sess s n).st = .ended ∨ (sess s n).st = .faultWait →
    ((sess s n).pilot ≠ 0 → Completes (.sessionIdle n) s fun t => t = s) ∧
    ((sess s n).pilot = 0 → Completes (.sessionIdle n) s fun t => (sess t n).st = .idle ∧ (sess t n).cause = (sess s n).cause ∧ (sess t n).count = (sess s n).count)) ∧
  (∀ s (n : Fin 24) i, bayOfVehicle s n = some i → headUp s s.act i = true → endedOk s n i = false → Completes (.sessionEnded n) s fun t => t = s) ∧
  (∀ s (n : Fin 24) i, s.veh.links.length = 24 → bayOfVehicle s n = some i → (sess s n).st = .stopping → vehMode s n ≠ 3 → (sess s n).pilot ≠ 0 →
    (headUp s s.act i = true → endedOk s n i = true → Completes (.sessionEnded n) s fun t =>
      (sess t n).st = (if (sess s n).toFault = true then .faultWait else .ended) ∧ (sess t n).lock = false) ∧
    (headUp s s.act i = false → headLessOk s n i = true → Completes (.sessionEnded n) s fun t =>
      (sess t n).st = .faultWait ∧ (sess t n).lock = (sess s n).lock) ∧
    (headUp s s.act i = false → headLessOk s n i = false → Completes (.sessionEnded n) s fun t => t = s))
/-- Frames the Trievo link receives (R349, R354, R356): a frame acts by the type it carries, whichever of the four commands brings it
(log 6); one that is not for the device leaves everything; a payload with a wrong CRC is only counted and a repeated one only acknowledged; a SoC report reaches its string, a host port the mailbox;
a known serial is given its address and an unknown one refused; an ACK ends the unicast that waits for it; a STATUS enters the peer's entry. -/
def Obligations.TrievoReception : Prop :=
  (∀ s f, exec (.trievoAckReceived f) s = exec (.trievoDataReceived f) s ∧ exec (.trievoAssocReqReceived f) s = exec (.trievoDataReceived f) s ∧
    exec (.trievoStatusReceived f) s = exec (.trievoDataReceived f) s) ∧
  (∀ s f, frameForUs s f = false → (f.ftype = 1 → Completes (.trievoDataReceived f) s fun t => t = s) ∧
    (f.ftype = 2 → Completes (.trievoAckReceived f) s fun t => t = s) ∧ (f.ftype = 3 → Completes (.trievoAssocReqReceived f) s fun t => t = s) ∧
    (f.ftype = 6 → Completes (.trievoStatusReceived f) s fun t => t = s)) ∧
  (∀ s f, frameForUs s f = true → f.crcOk = false →
    let bad := fun t : State => t = { s with tri := { s.tri with crcFails := s.tri.crcFails + 1 } }
    (f.ftype = 1 → Completes (.trievoDataReceived f) s bad) ∧ (f.ftype = 3 → Completes (.trievoAssocReqReceived f) s bad) ∧
    (f.ftype = 6 → Completes (.trievoStatusReceived f) s bad)) ∧
  (∀ s f, frameForUs s f = true → f.crcOk = true → seenBefore s f = true →
    let again := fun t : State => t.tri.accepted = s.tri.accepted + 1 ∧ t.tri.peers = s.tri.peers ∧ t.tri.mailbox = s.tri.mailbox ∧
      t.tri.txq = s.tri.txq ∧ t.tri.refused = s.tri.refused ∧ t.laneA = s.laneA ∧ t.laneB = s.laneB ∧
      (f.dst = 0 → f.ackReq = true → t.tri.lastAck = some (f.src, f.seq, f.snr) ∧ t.tri.sent = s.tri.sent + 1)
    (f.ftype = 1 → Completes (.trievoDataReceived f) s again) ∧ (f.ftype = 3 → Completes (.trievoAssocReqReceived f) s again) ∧
    (f.ftype = 6 → Completes (.trievoStatusReceived f) s again)) ∧
  (∀ s f port d, frameForUs s f = true → f.crcOk = true → seenBefore s f = false → f.ftype = 1 → f.relay = false → f.payload = port :: d →
    (s.tri.peer f.src).isSome = true →
    (0x10 ≤ port.toNat → port.toNat ≤ 0x1F → Completes (.trievoDataReceived f) s fun t =>
      t.tri.mailbox = (if s.tri.mailbox.length < 64 then s.tri.mailbox ++ [(f.src, port, d)] else s.tri.mailbox) ∧
      t.laneA = s.laneA ∧ t.laneB = s.laneB) ∧
    (port = 1 → d.length = 5 → (relayEntryOf s f.src).role = 3 → 1 ≤ (relayEntryOf s f.src).inst → (relayEntryOf s f.src).inst ≤ 8 →
      field (port :: d) 2 2 ≤ 1000 ∨ field (port :: d) 2 2 = 0xFFFF → LaneShape s.laneA → LaneShape s.laneB →
      Completes (.trievoDataReceived f) s fun t => ∀ l,
        (nth (t.lane l).share.strs ((relayEntryOf s f.src).inst - 1)).reported = BitVec.ofNat 16 (field (port :: d) 2 2) ∧
        (nth (t.lane l).share.strs ((relayEntryOf s f.src).inst - 1)).reportAt = s.site.ns) ∧
    (port = 1 → (relayEntryOf s f.src).role ≠ 3 ∨ (1000 < field (port :: d) 2 2 ∧ field (port :: d) 2 2 ≠ 0xFFFF) →
      Completes (.trievoDataReceived f) s fun t => t.laneA = s.laneA ∧ t.laneB = s.laneB ∧ t.tri.mailbox = s.tri.mailbox)) ∧
  (∀ s f, frameForUs s f = true → f.crcOk = true → seenBefore s f = false → f.ftype = 3 → f.relay = false → f.src = 0xFE → 6 ≤ f.payload.length →
    (∀ e, entryFor s (field f.payload 0 4) = some e → Completes (.trievoAssocReqReceived f) s fun t =>
      t.tri.peer (BitVec.ofNat 8 (e + 1)) = some (newPeer s e (field f.payload 0 4) f) ∧ t.tri.refused = s.tri.refused ∧
      t.tri.lastAssoc = some (BitVec.ofNat 32 (field f.payload 0 4), BitVec.ofNat 8 (e + 1))) ∧
    (entryFor s (field f.payload 0 4) = none → Completes (.trievoAssocReqReceived f) s fun t =>
      t.tri.refused = s.tri.refused + 1 ∧ t.tri.lastAssoc = some (BitVec.ofNat 32 (field f.payload 0 4), 0) ∧
      t.tri.peers.map (·.addr) = s.tri.peers.map (·.addr))) ∧
  (∀ s f b l, frameForUs s f = true → f.crcOk = true → seenBefore s f = false → f.ftype = 6 → f.relay = false → f.payload = b :: l →
    ∀ p, s.tri.peer f.src = some p → Completes (.trievoStatusReceived f) s fun t =>
      t.tri.peer f.src = some { p with snrUl := f.snr, lastHeard := s.tri.sfn, beaconSnr := b, hears := (statusPairs l).take 31 }) ∧
  (∀ s f u, frameForUs s f = true → f.ftype = 2 → s.tri.waiting = some u →
    (u.via = f.src → u.seq = some f.seq → Completes (.trievoAckReceived f) s fun t =>
      t.tri.waiting = none ∧ t.tri.accepted = s.tri.accepted + 1 ∧ t.tri.txResult = (if u.mailbox = true then 0 else s.tri.txResult) ∧
      ∀ p, s.tri.peer f.src = some p → (t.tri.peer f.src).map (·.snrDl) = some f.ackSnr) ∧
    (u.via ≠ f.src ∨ u.seq ≠ some f.seq → Completes (.trievoAckReceived f) s fun t =>
      t.tri = { s.tri with accepted := s.tri.accepted + 1 }))

/-- What the Trievo link sends (R350, R351, R353, R355, R356, R361): a beacon opens a superframe and its allocations end by slot 104; the next frame
starts only where it fits and waits for its ACK; an unacknowledged unicast is retried three times and then fails finally; a learned
phase is the best of the three reports; a lost peer leaves with its frames; the mailbox queues a host frame and hands out the oldest received one. -/
def Obligations.TrievoSending : Prop :=
  (∀ s, triOn s = false ∨ triNative s = false → Completes .beaconSend s fun t => t = s) ∧
  (∀ s, triOn s = true → triNative s = true → Completes .beaconSend s fun t =>
    t.tri.sfn = s.tri.sfn + 1 ∧ t.tri.sent = s.tri.sent + 1 ∧ t.tri.seq = s.tri.seq + 1 ∧ t.tri.txq = s.tri.txq ∧ t.tri.allocs.length ≤ 12 ∧
    t.tri.cpStart ≤ 104 ∧ ∀ a ∈ t.tri.allocs, 20 ≤ a.2.1 ∧ 0 < a.2.2.1 ∧ a.2.1 + a.2.2.1 ≤ 104) ∧
  (∀ s (k : Fin 192), triOn s = false ∨ s.tri.waiting.isSome = true ∨ nextFrame s.tri.txq = none → Completes (.trievoFrameSend k) s fun t => t = s) ∧
  (∀ s (k : Fin 192) i u, triOn s = true → s.tri.waiting = none → nextFrame s.tri.txq = some i → nth s.tri.txq i = u →
    let via := viaOf s.tri u.dst
    let fits := slotFits s s.tri k (linePayload { u with via := via } via).length (modOf s.tri { u with via := via }) u.ackReq
    (fits = false → Completes (.trievoFrameSend k) s fun t => t.tri = s.tri) ∧
    (fits = true → Completes (.trievoFrameSend k) s fun t =>
      t.tri.txq = s.tri.txq.eraseIdx i ∧ t.tri.sent = s.tri.sent + 1 ∧
      t.tri.seq = (if u.seq.isSome = true then s.tri.seq else s.tri.seq + 1) ∧
      t.tri.waiting = (if u.ackReq = true then some { u with via := via, seq := some (u.seq.getD s.tri.seq) } else none))) ∧
  (∀ s, s.tri.waiting = none → Completes .ackTimeout s fun t => t = s) ∧
  (∀ s u, s.tri.waiting = some u →
    (u.k < 3 → Completes .ackTimeout s fun t =>
      t.tri = { s.tri with waiting := none, retries := s.tri.retries + 1, txq := { u with k := u.k + 1 } :: s.tri.txq }) ∧
    (3 ≤ u.k → Completes .ackTimeout s fun t =>
      t.tri.waiting = none ∧ t.tri.finals = s.tri.finals + 1 ∧ t.tri.txq = s.tri.txq ∧ t.tri.retries = s.tri.retries ∧
      t.tri.txResult = (if u.mailbox = true then 2 else s.tri.txResult) ∧
      (threePhase s = true → ∀ p, s.tri.peer u.via = some p → (t.tri.peer u.via).map (·.learn) = some true))) ∧
  (∀ s a acks, triOn s = false ∨ threePhase s = false ∨ s.tri.peer a = none → Completes (.phaseLearning a acks) s fun t => t = s) ∧
  (∀ s a x y z p, triOn s = true → threePhase s = true → s.tri.peer a = some p → p.learn = true → Completes (.phaseLearning a [x, y, z]) s fun t =>
    t.tri.sent = s.tri.sent + 3 ∧ ∃ q, t.tri.peer a = some q ∧ q.learn = false ∧
      (x = none → y = none → z = none → q.phase = 0) ∧
      (∀ v, x = some v → (∀ w, y = some w → w.toNat ≤ v.toNat) → (∀ w, z = some w → w.toNat ≤ v.toNat) → q.phase = 1 ∧ q.snrDl = v) ∧
      (∀ v, y = some v → (∀ w, x = some w → w.toNat < v.toNat) → (∀ w, z = some w → w.toNat ≤ v.toNat) → q.phase = 2 ∧ q.snrDl = v) ∧
      (∀ v, z = some v → (∀ w, x = some w → w.toNat < v.toNat) → (∀ w, y = some w → w.toNat < v.toNat) → q.phase = 3 ∧ q.snrDl = v)) ∧
  (∀ s a, s.tri.peer a = none → Completes (.peerLost a) s fun t => t = s) ∧
  (∀ s a, (s.tri.peer a).isSome = true → Completes (.peerLost a) s fun t =>
    t.tri.peer a = none ∧ t.tri.txq = s.tri.txq.filter (fun u => u.dst != a) ∧ t.tri.waiting = s.tri.waiting.filter (fun u => u.dst != a) ∧
    (∀ u ∈ s.tri.txq, u.dst = a → u.mailbox = true → t.tri.txResult = 4)) ∧
  (∀ s d, writable s = false → Completes (.mailboxTransmit d) s fun t => t.tri = s.tri) ∧
  (∀ s d, writable s = true → (activeLane s).isSome = true →
    (d.length < 2 ∨ 63 < d.length → Completes (.mailboxTransmit d) s fun t => t = respond 0x06070010 [] s) ∧
    (2 ≤ d.length → d.length ≤ 63 → (d.getD 1 0).toNat < 0x10 ∨ 0x1F < (d.getD 1 0).toNat → Completes (.mailboxTransmit d) s fun t =>
      t = respond 0x06090030 [] s) ∧
    (2 ≤ d.length → d.length ≤ 63 → 0x10 ≤ (d.getD 1 0).toNat → (d.getD 1 0).toNat ≤ 0x1F →
      (triOn s = false ∨ s.tri.peer (d.getD 0 0) = none → Completes (.mailboxTransmit d) s fun t => t.tri = { s.tri with txResult := 4 }) ∧
      (triOn s = true → (s.tri.peer (d.getD 0 0)).isSome = true → 64 ≤ s.tri.txq.length → Completes (.mailboxTransmit d) s fun t =>
        t.tri = { s.tri with txResult := 5 }) ∧
      (triOn s = true → (s.tri.peer (d.getD 0 0)).isSome = true → s.tri.txq.length < 64 → Completes (.mailboxTransmit d) s fun t =>
        t.tri.txResult = 1 ∧ t.tri.txq = s.tri.txq ++ [{ ftype := 1, dst := d.getD 0 0, payload := d.drop 1, ackReq := true, prio := 2, k := 0, mailbox := true, seq := none, via := d.getD 0 0 }]))) ∧
  (∀ s, activeLane s = none → Completes .mailboxReceiveRead s fun t => t = s) ∧
  (∀ s, (activeLane s).isSome = true →
    (s.tri.mailbox = [] → Completes .mailboxReceiveRead s fun t => t.comm.response = some (0, []) ∧ t.tri.mailbox = []) ∧
    (∀ a p d l, s.tri.mailbox = (a, p, d) :: l → Completes .mailboxReceiveRead s fun t =>
      t.comm.response = some (0, a :: p :: d) ∧ t.tri.mailbox = l))
/-- Key update messages (R364, R367-R369, R371, R372, R374): a message acts by the OP it carries, whichever of the six commands brings it (log 6).
Outside SERVICE it is refused with status 11; one that fails a check is answered with the first failing status and changes no record; one
that passes moves the counter and does its operation: a key placed in a slot that verifies, invalidated or generated, the owner authority
replaced, the life cycle moved with a restart; with no slot that verifies the status is 9; with a standby lane the message stays in progress
until replication. -/
def Obligations.KeyUpdateMessages : Prop :=
  (∀ s m c, IsKeyRow m c → activeLane s = none → Completes c s fun t => t = s) ∧
  (∀ s m c l, IsKeyRow m c → activeLane s = some l →
    (s.modes.mode ≠ .service → Completes c s fun t =>
      (t.lane l).ks = { (s.lane l).ks with lastStatus := 11, answer := some (11, []) } ∧ (t.lane l.other).ks = (s.lane l.other).ks ∧
      t.life = { s.life with result := 11 } ∧ t.comm.response = some (abortState, [])) ∧
    (s.modes.mode = .service → messageStatus s (s.lane l).ks m ≠ 0 → Completes c s fun t =>
      (t.lane l).ks = { (s.lane l).ks with lastStatus := BitVec.ofNat 8 (messageStatus s (s.lane l).ks m), answer := some (BitVec.ofNat 8 (messageStatus s (s.lane l).ks m), []) } ∧
      (t.lane l.other).ks = (s.lane l.other).ks ∧
      t.life = { s.life with result := BitVec.ofNat 8 (messageStatus s (s.lane l).ks m) } ∧ t.comm.response = some (0, []))) ∧
  (∀ s k m, (m.length = 0 → messageStatus s k m = 1) ∧ (m.length ≠ 0 → formatOk m = false → messageStatus s k m = 2) ∧
    (m.length ≠ 0 → formatOk m = true → m.deviceId ≠ s.life.identity → messageStatus s k m = 3) ∧
    (m.length ≠ 0 → formatOk m = true → m.deviceId = s.life.identity →
      (signatureOk k m = false → messageStatus s k m = 5) ∧
      (signatureOk k m = true → m.counter.toNat ≤ k.counter.toNat → messageStatus s k m = 4) ∧
      (signatureOk k m = true → k.counter.toNat < m.counter.toNat → lifeServes (lifeCode s.life.fuse) m = false → messageStatus s k m = 12))) ∧
  (∀ s m c l, IsKeyRow m c → activeLane s = some l → s.modes.mode = .service → messageStatus s (s.lane l).ks m = 0 →
    let k := (s.lane l).ks
    let done := fun (n : Keystore) (t : State) =>
      (t.lane l).ks.slots = n.slots ∧ (t.lane l).ks.counter = m.counter ∧ (t.lane l).ks.operations = k.operations + 1 ∧
      (t.lane l).ks.lastStatus = 0 ∧ (t.lane l.other).ks = (s.lane l.other).ks ∧ t.life.fuse = s.life.fuse ∧
      t.life.result = if (standbyLane s).isSome then 0xFF else 0
    let full := fun (t : State) =>
      (t.lane l).ks.slots = k.slots ∧ (t.lane l).ks.counter = k.counter ∧ (t.lane l).ks.lastStatus = 9 ∧ (t.lane l.other).ks = (s.lane l.other).ks ∧
      t.life = { s.life with result := 9 }
    (∀ x, m.op = 1 ∨ m.op = 2 → envelopeSecret k m = some x →
      ((placeKey (Config.slotFails s.free) (newKey s m false x) k).2 = true →
        Completes c s (done (placeKey (Config.slotFails s.free) (newKey s m false x) k).1)) ∧
      ((placeKey (Config.slotFails s.free) (newKey s m false x) k).2 = false → Completes c s full)) ∧
    (m.op = 3 → Completes c s (done (Keystore.invalidate m.path k))) ∧
    (m.op = 4 → Completes c s (done (putOwner (m.body.take 97) k))) ∧
    (m.op = 6 →
      ((placeKey (Config.slotFails (s.free + 1)) (newKey s m true (Config.generate s.free)) k).2 = true → Completes c s fun t =>
        done (placeKey (Config.slotFails (s.free + 1)) (newKey s m true (Config.generate s.free)) k).1 t ∧ t.free = s.free + 2) ∧
      ((placeKey (Config.slotFails (s.free + 1)) (newKey s m true (Config.generate s.free)) k).2 = false → Completes c s full)) ∧
    (m.op = 5 → Completes c s fun t =>
      t.life.fuse = s.life.fuse ||| lifeFuse (m.body.getD 0 0).toNat ∧ t.modes.mode = .boot ∧ t.bk.lastReset = 15 ∧
      ∀ l', (t.lane l').ks.counter = m.counter)) ∧
  (∀ s, activeLane s = none ∨ standbyLane s = none → Completes (.keyReplicationReceived true) s fun t => t = s) ∧
  (∀ s, Completes (.keyReplicationReceived false) s fun t => t = s) ∧
  (∀ s l, activeLane s = some l → standbyLane s = some l.other → Completes (.keyReplicationReceived true) s fun t =>
    (t.lane l.other).ks.counter = (s.lane l).ks.counter ∧ (t.lane l).ks = (s.lane l).ks ∧
    t.life.result = if s.life.result = 0xFF then 0 else s.life.result)

/-- Key statements and requests (R362, R365, R366, R370): a statement and a certification request name a held key or leave their status;
a request that fails its checks is answered with its status and no data; one that passes is answered from the key, which enters the
lane's cache; a derivation fills a volatile slot below its key; a hash needs no key. -/
def Obligations.KeystoreRequests : Prop :=
  (∀ s, writable s = false → Completes .keyStatement s (fun t => t.laneA = s.laneA ∧ t.laneB = s.laneB ∧ t.life = s.life) ∧
    Completes .certificationRequest s fun t => t.laneA = s.laneA ∧ t.laneB = s.laneB ∧ t.life = s.life) ∧
  (∀ s l, activeLane s = some l → writable s = true →
    let k := (s.lane l).ks
    let p := BitVec.ofNat 32 (rwN s 0x2402 1)
    (commandStatus s k p ≠ 0 → KeyAnswers .keyStatement s l (commandStatus s k p) [] ∧ KeyAnswers .certificationRequest s l (commandStatus s k p) []) ∧
    (∀ i v, commandStatus s k p = 0 → k.find p = some (i, v) →
      (∀ j a, k.find 0x01020000 = some (j, a) → a.orphaned = false → Completes .keyStatement s fun t =>
        t.life.statement = statementBody s k v ++ (padTo 96 (Config.sign a.secret s.free (statementBody s k v))).take 96 ∧
        (t.lane l).ks.lastStatus = 0 ∧ (t.lane l).ks.slots = k.slots) ∧
      (v.usage.getLsbD 0 = false ∨ v.pubOnly = true → KeyAnswers .certificationRequest s l 10 []) ∧
      (v.usage.getLsbD 0 = true → v.pubOnly = false → lifeCode s.life.fuse ≠ 3 ∨ pathDomain p = 1 → Completes .certificationRequest s fun t =>
        t.life.csr = Config.certRequest v.secret s.free v.pub ∧ (t.lane l).ks.lastStatus = 0 ∧ (t.lane l).ks.slots = k.slots))) ∧
  (∀ s r b fam c, IsKeyRequest r b fam c → s.modes.mode = .backup ∨ inService s r.lane = false → Completes c s fun t =>
    t.laneA = s.laneA ∧ t.laneB = s.laneB ∧ t.life = s.life) ∧
  (∀ s r b fam c, IsKeyRequest r b fam c → s.modes.mode ≠ .backup → inService s r.lane = true →
    requestStatus s (s.lane r.lane).ks r b fam ≠ 0 → KeyAnswers c s r.lane (requestStatus s (s.lane r.lane).ks r b fam) []) ∧
  (∀ s r i v, s.modes.mode ≠ .backup → inService s r.lane = true → (s.lane r.lane).ks.find r.path = some (i, v) →
    (requestStatus s (s.lane r.lane).ks r 0 isSignAlg = 0 →
      (v.pubOnly = false → KeyAnswers (.keystoreSign r) s r.lane 0 (Config.sign v.secret s.free r.data)) ∧
      (v.pubOnly = true → KeyAnswers (.keystoreSign r) s r.lane 10 []) ∧
      (∀ sig, Config.verify v.pub r.data sig = true → KeyAnswers (.keystoreVerify r sig) s r.lane 0 [1]) ∧
      (∀ sig, Config.verify v.pub r.data sig = false → KeyAnswers (.keystoreVerify r sig) s r.lane 0 [0])) ∧
    (requestStatus s (s.lane r.lane).ks r 1 isAgreeAlg = 0 →
      (Config.onCurve r.data = true → KeyAnswers (.keystoreKeyAgreement r) s r.lane 0 (Config.agree v.secret r.data)) ∧
      (Config.onCurve r.data = false → KeyAnswers (.keystoreKeyAgreement r) s r.lane 6 [])) ∧
    (requestStatus s (s.lane r.lane).ks r 2 isAesAlg = 0 →
      KeyAnswers (.keystoreEncrypt r) s r.lane 0 (Config.sealData v.secret s.free r.data) ∧
      (∀ d, Config.openSealed v.secret r.data = some d → KeyAnswers (.keystoreDecrypt r) s r.lane 0 d) ∧
      (Config.openSealed v.secret r.data = none → KeyAnswers (.keystoreDecrypt r) s r.lane 6 [])) ∧
    (requestStatus s (s.lane r.lane).ks r 4 isAesAlg = 0 → KeyAnswers (.keystoreWrap r) s r.lane 0 (Config.wrap v.secret r.data)) ∧
    (∀ c, requestStatus s (s.lane r.lane).ks r 3 isKdfAlg = 0 →
      (childStatus s (s.lane r.lane).ks r c ≠ 0 → KeyAnswers (.keystoreDerive r c) s r.lane (childStatus s (s.lane r.lane).ks r c) []) ∧
      (childStatus s (s.lane r.lane).ks r c = 0 → Completes (.keystoreDerive r c) s fun t =>
        (t.lane r.lane).ks.slots = (putKey (childKey s v r c) (s.lane r.lane).ks).slots))) ∧
  (∀ s r, s.modes.mode = .backup ∨ inService s r.lane = false → Completes (.keystoreHash r) s fun t => t = s) ∧
  (∀ s r, s.modes.mode ≠ .backup → inService s r.lane = true →
    (r.data = [] → KeyAnswers (.keystoreHash r) s r.lane 1 []) ∧
    (r.data ≠ [] → lifeCode s.life.fuse = 0 ∨ lifeCode s.life.fuse = 3 ∨ lifeCode s.life.fuse = 4 → KeyAnswers (.keystoreHash r) s r.lane 12 []) ∧
    (r.data ≠ [] → lifeCode s.life.fuse = 1 ∨ lifeCode s.life.fuse = 2 → KeyAnswers (.keystoreHash r) s r.lane 0 (Config.hash r.algorithm r.data)))
/-- The frame of every command: it completes, in every state and with every operand, and the next state differs from the one before only in
the parts of its footprint. -/
def Obligations.CommandFootprint : Prop :=
  ∀ c s, ∃ t, exec c s = .next t ∧ Only (footprint c).units (footprint c).lane (footprint c).own (footprint c).rest s t
/-- One step takes the command at the front of the queue and is exec of it on the state with the queue's rest. -/
def Obligations.StepRunsFrontCommand : Prop :=
  ∀ (c : Instr) (q : List Instr) (s : State), step { s with pending := c :: q } = exec c { s with pending := q }

/-- With no command waiting the block idles for one tick of the backup crystal, the model's choice (log entry 4): no mode, lane role, set,
session or output changes; the RTC gains one while one of its supplies is in range, and the metrology crystal 750 cycles outside a loss of
that crystal. -/
def Obligations.IdleTick : Prop :=
  ∀ s : State, s.pending = [] → ∃ t, step s = .next t ∧
    (∀ p, p ∉ [Part.bk, .met, .chans] → p.same s t) ∧ LaneOnly [.ks] s.laneA t.laneA ∧ LaneOnly [.ks] s.laneB t.laneB ∧
    (Rail.vbk ∉ s.rails.out → t.bk = { s.bk with rtc := s.bk.rtc + 1 }) ∧
    (Rail.vbk ∈ s.rails.out → Rail.vio ∈ s.rails.out → t.bk = s.bk) ∧
    t.met.ctl.cycles = s.met.ctl.cycles + (if s.met.ctl.st = .halted ∧ s.met.ctl.halt = 2 then 0 else 750)

/-- No command touches the queue of waiting commands: a step only takes the one at the front. -/
def Obligations.StepShortensQueue : Prop :=
  ∀ (c : Instr) (q : List Instr) (s t : State), s.pending = c :: q → step s = .next t → t.pending = q

/-- Every command completes: exec answers a next state for every command, operand and state; no command stops the block (logs 5 and 6: one whose
condition does not hold leaves the state). A tile instruction completes with no effect where no slot runs on its tile. -/
def Obligations.CommandsComplete : Prop :=
  (∀ (c : Instr) (s : State), ∃ t, exec c s = .next t) ∧
  ∀ (c : Instr) (s : State) l t w, c ∈ tileRows l t w → runningSlot s l t = none → exec c s = .next s

/-- The invariant of the block holds after reset. -/
def Obligations.InvariantAtReset : Prop := Inv State.reset

/-- Every step keeps the invariant: its lists keep their lengths, its hardware queues balance, its stores stay canonical. -/
def Obligations.StepKeepsInvariant : Prop := ∀ s t : State, Inv s → step s = .next t → Inv t

/-- C + Q = D on all 128 queues of both lanes after every step, and a dequeue returns its credit at once (R26). -/
def Obligations.QueueCredits : Prop :=
  (∀ s t : State, Inv s → step s = .next t → Balanced t) ∧
  ∀ (s : State) (l : Lane) (q : Fin 128) e es, Inv s → (nth (s.lane l).queues q).entries = e :: es →
    Completes (.queueDequeue l q) s fun t =>
      (nth (t.lane l).queues q).entries = es ∧ (nth (t.lane l).queues q).credit = (nth (s.lane l).queues q).credit + 1

/-- A one-time-programmable fuse that is blown stays blown, whatever the step. -/
def Obligations.FusesStayBlown : Prop := ∀ s t : State, step s = .next t → s.life.fuse &&& t.life.fuse = s.life.fuse

/-- An input port coded as a frame word reads from frame bank k mod 2 of the running period and keeps its last VALID value; a word that is not
VALID gives the kept value marked invalid, 0 before the first; a slot's start keeps them for its loop (R118). -/
def Obligations.FrameWordPorts : Prop :=
  (∀ (s : State) (l : Lane) (link word : Nat) (k : BitVec 24), link < 64 → word < 256 →
    let f := nth (if s.clk.period % 2 = 0 then (s.lane l).bank0 else (s.lane l).bank1) link
    let r := portRead s (s.lane l) (BitVec.ofNat 16 (256 * link + word)) k
    (∀ v : BitVec 24, f.status = 0 → f.words[word]? = some v → v ≠ 0x800000 → r = ({ m := v.toInt, e := 0, inv := false }, v)) ∧
    (f.status ≠ 0 ∨ f.words[word]? = none ∨ f.words[word]? = some 0x800000 → r = ({ m := k.toInt, e := 0, inv := true }, k))) ∧
  (∀ (s : State) (l : Lane) (codes : List U16), (portsRead s (s.lane l) codes []).1 = (List.range 16).map fun i => (portRead s (s.lane l) (nth codes i) 0).1) ∧
  (∀ l i, (((State.reset).lane l).loop i).kept = []) ∧
  ∀ (s : State) (l : Lane) (t : Fin 10) (k : Fin 16) run i, Shape s → slotRun s (s.lane l) t k = some run → run.loop = some i →
    Completes (.slotStart l t k) s fun u =>
      ((u.lane l).loop i).kept = (portsRead s (s.lane l) (inputMap s (s.lane l) i) ((s.lane l).loop i).kept).2

/-- The first protocol of ISO 15118-20, ISO 15118-2, DIN SPEC 70121 that both the bay's mask and the vehicle's list hold is chosen, in the
device's order; with none the response fails and the session ends with cause 11 (R310). A link in mode 3 offers ISO 15118-20 alone. -/
def Obligations.ProtocolChoice : Prop :=
  ∀ (s : State) (n : Fin 24) (l : List Protocol), s.veh.links.length = 24 → (sess s n).st = .setup →
    let has := fun (p : Protocol) (bit : Nat) => (bayMask s n).testBit bit = true ∧ p ∈ l
    let chosen := fun (c : U8) => Completes (.supportedAppProtocolReq n l) s fun t =>
      (sess t n).st = .setup ∧ (sess t n).protocol = c ∧ (sess t n).response.map (·.status) = some 0
    let none := Completes (.supportedAppProtocolReq n l) s fun t => SessionStops s t n 11 ∧ (sess t n).response.map (·.status) = some 1
    (has .iso20 0 → chosen 1) ∧
    (vehMode s n ≠ 3 → ¬ has .iso20 0 → has .iso2 1 → chosen 2) ∧
    (vehMode s n ≠ 3 → ¬ has .iso20 0 → ¬ has .iso2 1 → has .din 2 → chosen 3) ∧
    (vehMode s n ≠ 3 → ¬ has .iso20 0 → ¬ has .iso2 1 → ¬ has .din 2 → none) ∧
    (vehMode s n = 3 → ¬ has .iso20 0 → none)

/-- After reset: BOOT, no lane active, tiles 0-7 fast, tile 8 slow, tile 9 spare, every hardware queue empty with full credit, no vehicle
session, legal time unset, and no command waiting (R28, R54, R109). -/
def Obligations.ResetState : Prop :=
  let s := State.reset
  s.modes.mode = .boot ∧ s.jct.mark = none ∧ activeLane s = none ∧ s.pending = [] ∧
  (∀ l : Lane, (∀ t < 10, (nth (s.lane l).tiles t).role = if t < 8 then .fast else if t = 8 then .slow else .spare) ∧
    ∀ q < 128, (nth (s.lane l).queues q).entries = [] ∧ (nth (s.lane l).queues q).credit = queueDepth q) ∧
  (∀ n < 24, (sess s n).st = .idle) ∧ s.met.ctl.legalSet = false
end

