-- ==== Sys2Proof/Laws/Parts.lean ====
section
/-! SUPPORT. The laws of `Only` and `LaneOnly`: they hold of a state and itself, they compose, and they follow a record update,
a branch, a fold and a change of a lane. Each later lemma about what a function touches is a chain of these. -/

namespace Sys2Proof.Machine

set_option Elab.async false

/-! ## Lanes -/

theorem LaneOnly.refl {qs x} : LaneOnly qs x x := by intro q _; cases q <;> rfl

theorem LanePart.same_trans {q : LanePart} {x y z} (h : q.same x y) (k : q.same y z) : q.same x z := by
  cases q <;> exact Eq.trans k h

theorem LaneOnly.step {qs rs x y z} (h : LaneOnly qs x y) (k : LaneOnly rs y z) (m : rs ⊆ qs := by decide) :
    LaneOnly qs x z := fun q hq => LanePart.same_trans (h q hq) (k q fun r => hq (m r))

theorem LaneOnly.trans {qs x y z} (h : LaneOnly qs x y) (k : LaneOnly qs y z) : LaneOnly qs x z := h.step k (List.Subset.refl _)

theorem LaneOnly.mono {qs rs x y} (k : LaneOnly rs x y) (m : rs ⊆ qs := by decide) : LaneOnly qs x y :=
  fun q hq => k q fun r => hq (m r)

/-- A change of several parts at once. -/
theorem LaneOnly.parts {qs x y}
    (h : ∀ q, q ∉ qs → q.same x y := by intro q hq; cases q <;> first | exact absurd (by decide) hq | rfl) : LaneOnly qs x y := h

theorem LaneOnly.ite {qs x a b} {c : Prop} [Decidable c] (ha : LaneOnly qs x a) (hb : LaneOnly qs x b) :
    LaneOnly qs x (if c then a else b) := by split <;> assumption

theorem LaneOnly.foldl {α : Type} {qs x init} {g : LaneState → α → LaneState} {xs : List α} (h : LaneOnly qs x init)
    (hg : ∀ y i, LaneOnly qs y (g y i)) : LaneOnly qs x (xs.foldl g init) := by
  induction xs generalizing init with
  | nil => exact h
  | cons i xs ih => exact ih (h.step (hg init i) (List.Subset.refl qs))

theorem LaneOnly.ctl {qs x y v} (h : LaneOnly qs x y) (m : LanePart.ctl ∈ qs := by decide) :
    LaneOnly qs x { y with ctl := v } :=
  LaneOnly.step (rs := [.ctl]) h (by intro q hq; cases q <;> first | rfl | simp at hq) (by simpa using m)

theorem LaneOnly.temp {qs x y v} (h : LaneOnly qs x y) (m : LanePart.temp ∈ qs := by decide) :
    LaneOnly qs x { y with temp := v } :=
  LaneOnly.step (rs := [.temp]) h (by intro q hq; cases q <;> first | rfl | simp at hq) (by simpa using m)

theorem LaneOnly.health {qs x y v} (h : LaneOnly qs x y) (m : LanePart.health ∈ qs := by decide) :
    LaneOnly qs x { y with health := v } :=
  LaneOnly.step (rs := [.health]) h (by intro q hq; cases q <;> first | rfl | simp at hq) (by simpa using m)

theorem LaneOnly.bank0 {qs x y v} (h : LaneOnly qs x y) (m : LanePart.bank0 ∈ qs := by decide) :
    LaneOnly qs x { y with bank0 := v } :=
  LaneOnly.step (rs := [.bank0]) h (by intro q hq; cases q <;> first | rfl | simp at hq) (by simpa using m)

theorem LaneOnly.bank1 {qs x y v} (h : LaneOnly qs x y) (m : LanePart.bank1 ∈ qs := by decide) :
    LaneOnly qs x { y with bank1 := v } :=
  LaneOnly.step (rs := [.bank1]) h (by intro q hq; cases q <;> first | rfl | simp at hq) (by simpa using m)

theorem LaneOnly.links {qs x y v} (h : LaneOnly qs x y) (m : LanePart.links ∈ qs := by decide) :
    LaneOnly qs x { y with links := v } :=
  LaneOnly.step (rs := [.links]) h (by intro q hq; cases q <;> first | rfl | simp at hq) (by simpa using m)

theorem LaneOnly.out {qs x y v} (h : LaneOnly qs x y) (m : LanePart.out ∈ qs := by decide) :
    LaneOnly qs x { y with out := v } :=
  LaneOnly.step (rs := [.out]) h (by intro q hq; cases q <;> first | rfl | simp at hq) (by simpa using m)

theorem LaneOnly.latched {qs x y v} (h : LaneOnly qs x y) (m : LanePart.latched ∈ qs := by decide) :
    LaneOnly qs x { y with latched := v } :=
  LaneOnly.step (rs := [.latched]) h (by intro q hq; cases q <;> first | rfl | simp at hq) (by simpa using m)

theorem LaneOnly.tiles {qs x y v} (h : LaneOnly qs x y) (m : LanePart.tiles ∈ qs := by decide) :
    LaneOnly qs x { y with tiles := v } :=
  LaneOnly.step (rs := [.tiles]) h (by intro q hq; cases q <;> first | rfl | simp at hq) (by simpa using m)

theorem LaneOnly.relay {qs x y v} (h : LaneOnly qs x y) (m : LanePart.relay ∈ qs := by decide) :
    LaneOnly qs x { y with relay := v } :=
  LaneOnly.step (rs := [.relay]) h (by intro q hq; cases q <;> first | rfl | simp at hq) (by simpa using m)

theorem LaneOnly.bayLoops {qs x y v} (h : LaneOnly qs x y) (m : LanePart.bayLoops ∈ qs := by decide) :
    LaneOnly qs x { y with bayLoops := v } :=
  LaneOnly.step (rs := [.bayLoops]) h (by intro q hq; cases q <;> first | rfl | simp at hq) (by simpa using m)

theorem LaneOnly.modLoops {qs x y v} (h : LaneOnly qs x y) (m : LanePart.modLoops ∈ qs := by decide) :
    LaneOnly qs x { y with modLoops := v } :=
  LaneOnly.step (rs := [.modLoops]) h (by intro q hq; cases q <;> first | rfl | simp at hq) (by simpa using m)

theorem LaneOnly.strLoops {qs x y v} (h : LaneOnly qs x y) (m : LanePart.strLoops ∈ qs := by decide) :
    LaneOnly qs x { y with strLoops := v } :=
  LaneOnly.step (rs := [.strLoops]) h (by intro q hq; cases q <;> first | rfl | simp at hq) (by simpa using m)

theorem LaneOnly.slowLoops {qs x y v} (h : LaneOnly qs x y) (m : LanePart.slowLoops ∈ qs := by decide) :
    LaneOnly qs x { y with slowLoops := v } :=
  LaneOnly.step (rs := [.slowLoops]) h (by intro q hq; cases q <;> first | rfl | simp at hq) (by simpa using m)

theorem LaneOnly.share {qs x y v} (h : LaneOnly qs x y) (m : LanePart.share ∈ qs := by decide) :
    LaneOnly qs x { y with share := v } :=
  LaneOnly.step (rs := [.share]) h (by intro q hq; cases q <;> first | rfl | simp at hq) (by simpa using m)

theorem LaneOnly.wp {qs x y v} (h : LaneOnly qs x y) (m : LanePart.wp ∈ qs := by decide) :
    LaneOnly qs x { y with wp := v } :=
  LaneOnly.step (rs := [.wp]) h (by intro q hq; cases q <;> first | rfl | simp at hq) (by simpa using m)

theorem LaneOnly.th {qs x y v} (h : LaneOnly qs x y) (m : LanePart.th ∈ qs := by decide) :
    LaneOnly qs x { y with th := v } :=
  LaneOnly.step (rs := [.th]) h (by intro q hq; cases q <;> first | rfl | simp at hq) (by simpa using m)

theorem LaneOnly.queues {qs x y v} (h : LaneOnly qs x y) (m : LanePart.queues ∈ qs := by decide) :
    LaneOnly qs x { y with queues := v } :=
  LaneOnly.step (rs := [.queues]) h (by intro q hq; cases q <;> first | rfl | simp at hq) (by simpa using m)

theorem LaneOnly.roleMap {qs x y v} (h : LaneOnly qs x y) (m : LanePart.roleMap ∈ qs := by decide) :
    LaneOnly qs x { y with roleMap := v } :=
  LaneOnly.step (rs := [.roleMap]) h (by intro q hq; cases q <;> first | rfl | simp at hq) (by simpa using m)

theorem LaneOnly.evq {qs x y v} (h : LaneOnly qs x y) (m : LanePart.evq ∈ qs := by decide) :
    LaneOnly qs x { y with evq := v } :=
  LaneOnly.step (rs := [.evq]) h (by intro q hq; cases q <;> first | rfl | simp at hq) (by simpa using m)

theorem LaneOnly.recd {qs x y v} (h : LaneOnly qs x y) (m : LanePart.recd ∈ qs := by decide) :
    LaneOnly qs x { y with recd := v } :=
  LaneOnly.step (rs := [.recd]) h (by intro q hq; cases q <;> first | rfl | simp at hq) (by simpa using m)

theorem LaneOnly.ks {qs x y v} (h : LaneOnly qs x y) (m : LanePart.ks ∈ qs := by decide) :
    LaneOnly qs x { y with ks := v } :=
  LaneOnly.step (rs := [.ks]) h (by intro q hq; cases q <;> first | rfl | simp at hq) (by simpa using m)

theorem LaneOnly.slots {qs x y v} (h : LaneOnly qs x y) (m : LanePart.slots ∈ qs := by decide) :
    LaneOnly qs x { y with slots := v } :=
  LaneOnly.step (rs := [.slots]) h (by intro q hq; cases q <;> first | rfl | simp at hq) (by simpa using m)

theorem LaneOnly.grid {qs x y v} (h : LaneOnly qs x y) (m : LanePart.grid ∈ qs := by decide) :
    LaneOnly qs x { y with grid := v } :=
  LaneOnly.step (rs := [.grid]) h (by intro q hq; cases q <;> first | rfl | simp at hq) (by simpa using m)

theorem LaneOnly.reading {qs x y v} (h : LaneOnly qs x y) (m : LanePart.reading ∈ qs := by decide) :
    LaneOnly qs x { y with reading := v } :=
  LaneOnly.step (rs := [.reading]) h (by intro q hq; cases q <;> first | rfl | simp at hq) (by simpa using m)

theorem LaneOnly.published {qs x y v} (h : LaneOnly qs x y) (m : LanePart.published ∈ qs := by decide) :
    LaneOnly qs x { y with published := v } :=
  LaneOnly.step (rs := [.published]) h (by intro q hq; cases q <;> first | rfl | simp at hq) (by simpa using m)

theorem LaneOnly.signed {qs x y v} (h : LaneOnly qs x y) (m : LanePart.signed ∈ qs := by decide) :
    LaneOnly qs x { y with signed := v } :=
  LaneOnly.step (rs := [.signed]) h (by intro q hq; cases q <;> first | rfl | simp at hq) (by simpa using m)

/-! ## The block -/

theorem Part.same_trans {p : Part} {s t u} (h : p.same s t) (k : p.same t u) : p.same s u := by
  cases p <;> exact Eq.trans k h

theorem Only.refl {dev l own rest s} : Only dev l own rest s s :=
  ⟨by intro p _; cases p <;> rfl, LaneOnly.refl, LaneOnly.refl⟩

theorem Only.step {dev dg : List Part} {l own rest og rg s x y} (h : Only dev l own rest s x) (k : Only dg l og rg x y)
    (hd : dg ⊆ dev := by decide) (ho : og ⊆ own := by decide) (hr : rg ⊆ rest := by decide) : Only dev l own rest s y :=
  ⟨fun p hp => Part.same_trans (h.1 p hp) (k.1 p fun r => hp (hd r)), h.2.1.step k.2.1 ho, h.2.2.step k.2.2 hr⟩

theorem Only.swap {dev l own rest s x} (h : Only dev l own rest s x) : Only dev l.other rest own s x := by
  refine ⟨h.1, h.2.2, ?_⟩; rw [Lane.other_other]; exact h.2.1

theorem Only.swap' {dev l own rest s x} (h : Only dev l.other own rest s x) : Only dev l rest own s x := by
  have := h.swap; rwa [Lane.other_other] at this

theorem Only.weaken {dev dg : List Part} {l own rest og rg s x} (k : Only dg l og rg s x) (hd : dg ⊆ dev := by decide)
    (ho : og ⊆ own := by decide) (hr : rg ⊆ rest := by decide) : Only dev l own rest s x := Only.refl.step k hd ho hr

theorem Only.atLane {dev l k own rest q s x} (h : Only dev l own rest s x) (ho : own ⊆ q := by decide)
    (hr : rest ⊆ q := by decide) : Only dev k q q s x := by
  have h1 : Only dev l q q s x := h.weaken (List.Subset.refl _) ho hr
  cases l <;> cases k <;> first | exact h1 | exact h1.swap'

theorem Only.stepOther {dev dg : List Part} {l own rest og rg s x y} (h : Only dev l own rest s x)
    (k : Only dg l.other og rg x y) (hd : dg ⊆ dev := by decide) (ho : og ⊆ rest := by decide) (hr : rg ⊆ own := by decide) :
    Only dev l own rest s y := h.step k.swap' hd hr ho

theorem Only.stepAny {dev dg : List Part} {l k own rest og rg s x y} (h : Only dev l own rest s x) (hk : Only dg k og rg x y)
    (hd : dg ⊆ dev := by decide) (ho : og ++ rg ⊆ own := by decide) (hr : og ++ rg ⊆ rest := by decide) :
    Only dev l own rest s y :=
  h.step (hk.atLane (q := og ++ rg) (List.subset_append_left _ _) (List.subset_append_right _ _)) hd ho hr

theorem Only.ite {dev l own rest s a b} {c : Prop} [Decidable c] (ha : Only dev l own rest s a) (hb : Only dev l own rest s b) :
    Only dev l own rest s (if c then a else b) := by split <;> assumption

theorem Only.foldl {α : Type} {dev l own rest s init} {g : State → α → State} {xs : List α} (h : Only dev l own rest s init)
    (hg : ∀ x i, Only dev l own rest x (g x i)) : Only dev l own rest s (xs.foldl g init) := by
  induction xs generalizing init with
  | nil => exact h
  | cons i xs ih => exact ih (h.step (hg init i) (List.Subset.refl _) (List.Subset.refl _) (List.Subset.refl _))

theorem Only.pending {dev l own rest s x v} (h : Only dev l own rest s x) (m : Part.pending ∈ dev := by decide) :
    Only dev l own rest s { x with pending := v } :=
  Only.step (dg := [.pending]) (og := []) (rg := []) h
    ⟨by intro p hp; cases p <;> first | rfl | simp at hp, by cases l <;> exact LaneOnly.refl, by cases l <;> exact LaneOnly.refl⟩
    (by simpa using m) (by simp) (by simp)

theorem Only.free {dev l own rest s x v} (h : Only dev l own rest s x) (m : Part.free ∈ dev := by decide) :
    Only dev l own rest s { x with free := v } :=
  Only.step (dg := [.free]) (og := []) (rg := []) h
    ⟨by intro p hp; cases p <;> first | rfl | simp at hp, by cases l <;> exact LaneOnly.refl, by cases l <;> exact LaneOnly.refl⟩
    (by simpa using m) (by simp) (by simp)

theorem Only.clk {dev l own rest s x v} (h : Only dev l own rest s x) (m : Part.clk ∈ dev := by decide) :
    Only dev l own rest s { x with clk := v } :=
  Only.step (dg := [.clk]) (og := []) (rg := []) h
    ⟨by intro p hp; cases p <;> first | rfl | simp at hp, by cases l <;> exact LaneOnly.refl, by cases l <;> exact LaneOnly.refl⟩
    (by simpa using m) (by simp) (by simp)

theorem Only.modes {dev l own rest s x v} (h : Only dev l own rest s x) (m : Part.modes ∈ dev := by decide) :
    Only dev l own rest s { x with modes := v } :=
  Only.step (dg := [.modes]) (og := []) (rg := []) h
    ⟨by intro p hp; cases p <;> first | rfl | simp at hp, by cases l <;> exact LaneOnly.refl, by cases l <;> exact LaneOnly.refl⟩
    (by simpa using m) (by simp) (by simp)

theorem Only.rails {dev l own rest s x v} (h : Only dev l own rest s x) (m : Part.rails ∈ dev := by decide) :
    Only dev l own rest s { x with rails := v } :=
  Only.step (dg := [.rails]) (og := []) (rg := []) h
    ⟨by intro p hp; cases p <;> first | rfl | simp at hp, by cases l <;> exact LaneOnly.refl, by cases l <;> exact LaneOnly.refl⟩
    (by simpa using m) (by simp) (by simp)

theorem Only.bk {dev l own rest s x v} (h : Only dev l own rest s x) (m : Part.bk ∈ dev := by decide) :
    Only dev l own rest s { x with bk := v } :=
  Only.step (dg := [.bk]) (og := []) (rg := []) h
    ⟨by intro p hp; cases p <;> first | rfl | simp at hp, by cases l <;> exact LaneOnly.refl, by cases l <;> exact LaneOnly.refl⟩
    (by simpa using m) (by simp) (by simp)

theorem Only.jct {dev l own rest s x v} (h : Only dev l own rest s x) (m : Part.jct ∈ dev := by decide) :
    Only dev l own rest s { x with jct := v } :=
  Only.step (dg := [.jct]) (og := []) (rg := []) h
    ⟨by intro p hp; cases p <;> first | rfl | simp at hp, by cases l <;> exact LaneOnly.refl, by cases l <;> exact LaneOnly.refl⟩
    (by simpa using m) (by simp) (by simp)

theorem Only.met {dev l own rest s x v} (h : Only dev l own rest s x) (m : Part.met ∈ dev := by decide) :
    Only dev l own rest s { x with met := v } :=
  Only.step (dg := [.met]) (og := []) (rg := []) h
    ⟨by intro p hp; cases p <;> first | rfl | simp at hp, by cases l <;> exact LaneOnly.refl, by cases l <;> exact LaneOnly.refl⟩
    (by simpa using m) (by simp) (by simp)

theorem Only.sets {dev l own rest s x v} (h : Only dev l own rest s x) (m : Part.sets ∈ dev := by decide) :
    Only dev l own rest s { x with sets := v } :=
  Only.step (dg := [.sets]) (og := []) (rg := []) h
    ⟨by intro p hp; cases p <;> first | rfl | simp at hp, by cases l <;> exact LaneOnly.refl, by cases l <;> exact LaneOnly.refl⟩
    (by simpa using m) (by simp) (by simp)

theorem Only.comm {dev l own rest s x v} (h : Only dev l own rest s x) (m : Part.comm ∈ dev := by decide) :
    Only dev l own rest s { x with comm := v } :=
  Only.step (dg := [.comm]) (og := []) (rg := []) h
    ⟨by intro p hp; cases p <;> first | rfl | simp at hp, by cases l <;> exact LaneOnly.refl, by cases l <;> exact LaneOnly.refl⟩
    (by simpa using m) (by simp) (by simp)

theorem Only.veh {dev l own rest s x v} (h : Only dev l own rest s x) (m : Part.veh ∈ dev := by decide) :
    Only dev l own rest s { x with veh := v } :=
  Only.step (dg := [.veh]) (og := []) (rg := []) h
    ⟨by intro p hp; cases p <;> first | rfl | simp at hp, by cases l <;> exact LaneOnly.refl, by cases l <;> exact LaneOnly.refl⟩
    (by simpa using m) (by simp) (by simp)

theorem Only.chans {dev l own rest s x v} (h : Only dev l own rest s x) (m : Part.chans ∈ dev := by decide) :
    Only dev l own rest s { x with chans := v } :=
  Only.step (dg := [.chans]) (og := []) (rg := []) h
    ⟨by intro p hp; cases p <;> first | rfl | simp at hp, by cases l <;> exact LaneOnly.refl, by cases l <;> exact LaneOnly.refl⟩
    (by simpa using m) (by simp) (by simp)

theorem Only.site {dev l own rest s x v} (h : Only dev l own rest s x) (m : Part.site ∈ dev := by decide) :
    Only dev l own rest s { x with site := v } :=
  Only.step (dg := [.site]) (og := []) (rg := []) h
    ⟨by intro p hp; cases p <;> first | rfl | simp at hp, by cases l <;> exact LaneOnly.refl, by cases l <;> exact LaneOnly.refl⟩
    (by simpa using m) (by simp) (by simp)

theorem Only.tri {dev l own rest s x v} (h : Only dev l own rest s x) (m : Part.tri ∈ dev := by decide) :
    Only dev l own rest s { x with tri := v } :=
  Only.step (dg := [.tri]) (og := []) (rg := []) h
    ⟨by intro p hp; cases p <;> first | rfl | simp at hp, by cases l <;> exact LaneOnly.refl, by cases l <;> exact LaneOnly.refl⟩
    (by simpa using m) (by simp) (by simp)

theorem Only.life {dev l own rest s x v} (h : Only dev l own rest s x) (m : Part.life ∈ dev := by decide) :
    Only dev l own rest s { x with life := v } :=
  Only.step (dg := [.life]) (og := []) (rg := []) h
    ⟨by intro p hp; cases p <;> first | rfl | simp at hp, by cases l <;> exact LaneOnly.refl, by cases l <;> exact LaneOnly.refl⟩
    (by simpa using m) (by simp) (by simp)

theorem Only.fs {dev l own rest s x v} (h : Only dev l own rest s x) (m : Part.fs ∈ dev := by decide) :
    Only dev l own rest s { x with fs := v } :=
  Only.step (dg := [.fs]) (og := []) (rg := []) h
    ⟨by intro p hp; cases p <;> first | rfl | simp at hp, by cases l <;> exact LaneOnly.refl, by cases l <;> exact LaneOnly.refl⟩
    (by simpa using m) (by simp) (by simp)

theorem Only.nand {dev l own rest s x v} (h : Only dev l own rest s x) (m : Part.nand ∈ dev := by decide) :
    Only dev l own rest s { x with nand := v } :=
  Only.step (dg := [.nand]) (og := []) (rg := []) h
    ⟨by intro p hp; cases p <;> first | rfl | simp at hp, by cases l <;> exact LaneOnly.refl, by cases l <;> exact LaneOnly.refl⟩
    (by simpa using m) (by simp) (by simp)

theorem Only.upd {dev l own rest s x v} (h : Only dev l own rest s x) (m : Part.upd ∈ dev := by decide) :
    Only dev l own rest s { x with upd := v } :=
  Only.step (dg := [.upd]) (og := []) (rg := []) h
    ⟨by intro p hp; cases p <;> first | rfl | simp at hp, by cases l <;> exact LaneOnly.refl, by cases l <;> exact LaneOnly.refl⟩
    (by simpa using m) (by simp) (by simp)

theorem Only.recs {dev l own rest s x v} (h : Only dev l own rest s x) (m : Part.recs ∈ dev := by decide) :
    Only dev l own rest s { x with recs := v } :=
  Only.step (dg := [.recs]) (og := []) (rg := []) h
    ⟨by intro p hp; cases p <;> first | rfl | simp at hp, by cases l <;> exact LaneOnly.refl, by cases l <;> exact LaneOnly.refl⟩
    (by simpa using m) (by simp) (by simp)

theorem Only.taps {dev l own rest s x v} (h : Only dev l own rest s x) (m : Part.taps ∈ dev := by decide) :
    Only dev l own rest s { x with taps := v } :=
  Only.step (dg := [.taps]) (og := []) (rg := []) h
    ⟨by intro p hp; cases p <;> first | rfl | simp at hp, by cases l <;> exact LaneOnly.refl, by cases l <;> exact LaneOnly.refl⟩
    (by simpa using m) (by simp) (by simp)

theorem Only.trans {dev l own rest s x y} (h : Only dev l own rest s x) (k : Only dev l own rest x y) : Only dev l own rest s y :=
  h.step k (List.Subset.refl _) (List.Subset.refl _) (List.Subset.refl _)

/-- A change of several parts at once. -/
theorem Only.parts {dev l s x}
    (h : ∀ p, p ∉ dev → p.same s x := by intro p hp; cases p <;> first | exact absurd (by decide) hp | rfl)
    (ha : x.laneA = s.laneA := by rfl) (hb : x.laneB = s.laneB := by rfl) : Only dev l [] [] s x := by
  refine ⟨h, ?_, ?_⟩ <;> cases l <;> simp only [State.lane, Lane.other, ha, hb] <;> exact LaneOnly.refl

/-- What a change of lane k leaves alone. -/
theorem Only.setLane {dev l own rest s x y} (h : Only dev l own rest s x) (hy : LaneOnly own (x.lane l) y) :
    Only dev l own rest s (x.setLane l y) := by
  refine Only.step h (dg := []) (og := own) (rg := []) ⟨?_, ?_, ?_⟩ (by simp) (List.Subset.refl _) (by simp)
  · intro p _; cases l <;> cases p <;> rfl
  · cases l <;> exact hy
  · cases l <;> exact LaneOnly.refl

theorem Only.setOther {dev l own rest s x y} (h : Only dev l own rest s x) (hy : LaneOnly rest (x.lane l.other) y) :
    Only dev l own rest s (x.setLane l.other y) := (Only.setLane h.swap hy).swap'

theorem Only.setAny {dev l k own rest s x y} (h : Only dev l own rest s x) (ho : LaneOnly own (x.lane k) y)
    (hr : LaneOnly rest (x.lane k) y) : Only dev l own rest s (x.setLane k y) := by
  cases l <;> cases k <;> first | exact Only.setLane h ho | exact Only.setOther h hr

theorem Only.modLane {dev l own rest s x f} (h : Only dev l own rest s x) (hf : ∀ y, LaneOnly own y (f y)) :
    Only dev l own rest s (x.modLane l f) := Only.setLane h (hf _)

theorem Only.modOther {dev l own rest s x f} (h : Only dev l own rest s x) (hf : ∀ y, LaneOnly rest y (f y)) :
    Only dev l own rest s (x.modLane l.other f) := Only.setOther h (hf _)

theorem Only.modAny {dev l k own rest s x f} (h : Only dev l own rest s x) (ho : ∀ y, LaneOnly own y (f y))
    (hr : ∀ y, LaneOnly rest y (f y)) : Only dev l own rest s (x.modLane k f) := Only.setAny h (ho _) (hr _)

theorem Only.lanes {dev l q s x a b} (h : Only dev l q q s x) (ha : LaneOnly q x.laneA a) (hb : LaneOnly q x.laneB b) :
    Only dev l q q s { x with laneA := a, laneB := b } := by
  refine Only.step h (dg := []) (og := q) (rg := q) ⟨?_, ?_, ?_⟩ (by simp) (List.Subset.refl _) (List.Subset.refl _)
  · intro p _; cases p <;> rfl
  · cases l <;> assumption
  · cases l <;> assumption

theorem Only.bothLanes {dev l q s x f} (h : Only dev l q q s x) (hf : ∀ y, LaneOnly q y (f y)) :
    Only dev l q q s (bothLanes f x) := Only.lanes h (hf _) (hf _)

theorem Only.lane {dev l own rest s x} (h : Only dev l own rest s x) : LaneOnly own (s.lane l) (x.lane l) := h.2.1

theorem Only.laneA {dev l q s x} (h : Only dev l q q s x) : LaneOnly q s.laneA x.laneA := by
  cases l
  · exact h.2.1
  · exact h.2.2

theorem Only.laneB {dev l q s x} (h : Only dev l q q s x) : LaneOnly q s.laneB x.laneB := by
  cases l
  · exact h.2.2
  · exact h.2.1

theorem OnlyNext.next {dev l own rest s x} (h : Only dev l own rest s x) : OnlyNext dev l own rest s (.next x) := by
  intro t e; cases e; exact h

theorem OnlyNext.step {dev l own rest s x o} (h : Only dev l own rest s x) (k : OnlyNext dev l own rest x o) :
    OnlyNext dev l own rest s o := fun t e => h.trans (k t e)

theorem OnlyNext.fault {dev l own rest s r} : OnlyNext dev l own rest s (.fault r) := by intro t e; cases e

theorem OnlyNext.ite {dev l own rest s a b} {c : Prop} [Decidable c] (ha : OnlyNext dev l own rest s a)
    (hb : OnlyNext dev l own rest s b) : OnlyNext dev l own rest s (if c then a else b) := by split <;> assumption

theorem OnlyNext.weaken {dev dg : List Part} {l own rest og rg s o} (k : OnlyNext dg l og rg s o) (hd : dg ⊆ dev := by decide)
    (ho : og ⊆ own := by decide) (hr : rg ⊆ rest := by decide) : OnlyNext dev l own rest s o := fun t e => (k t e).weaken hd ho hr

/-- A host write touches the response and what its effect touches. -/
theorem hostWrite_only {dev l own rest ok s} {f : State → State} (hf : ∀ x, Only dev l own rest x (f x))
    (m : Part.comm ∈ dev := by decide) : Only dev l own rest s (hostWrite ok f s) := by
  unfold hostWrite
  split
  · exact Only.refl
  · split
    · exact Only.step (Only.comm Only.refl m) (hf _) (List.Subset.refl _) (List.Subset.refl _) (List.Subset.refl _)
    · exact Only.comm Only.refl m

/-- The same with a range. -/
theorem hostRange_only {dev l own rest ok r s} {f : State → State} (hf : ∀ x, Only dev l own rest x (f x))
    (m : Part.comm ∈ dev := by decide) : Only dev l own rest s (hostRange ok r f s) := by
  unfold hostRange
  split
  · exact Only.comm Only.refl m
  · exact hostWrite_only hf m

end Sys2Proof.Machine
end

