-- ==== Sys2Proof/Laws/Ops.lean ====
section
/-! SUPPORT. What each operation of Machine/Ops.lean can change: one lemma for each function on the block or a lane, to be cited in
place of unfolding it. -/

namespace Sys2Proof.Machine

set_option Elab.async false

theorem respond_only {a0 a1 s l} :
    Only [.comm] l [] [] s (respond a0 a1 s) := by
  unfold respond
  exact Only.comm Only.refl

theorem State.useFree_only {s a0 l} :
    Only [.free] l [] [] s (State.useFree s a0) := by
  unfold State.useFree
  exact Only.free Only.refl

theorem LaneState.event_only {a0 x} : LaneOnly [.evq] x (LaneState.event a0 x) := by
  unfold LaneState.event
  exact LaneOnly.evq LaneOnly.refl

theorem evtLane_only {l a0 s} :
    Only [] l [.evq] [] s (evtLane l a0 s) := by
  unfold evtLane
  exact Only.modLane Only.refl (fun _ => LaneOnly.step LaneOnly.refl LaneState.event_only)

theorem evt_only {a0 s l} :
    Only [] l [.evq] [.evq] s (evt a0 s) := by
  unfold evt
  exact Only.ite (Only.stepAny (Only.ite (Only.stepAny Only.refl evtLane_only) Only.refl) evtLane_only)
    (Only.ite (Only.stepAny Only.refl evtLane_only) Only.refl)

theorem modChan_only {a0 a1 s l} :
    Only [.chans] l [] [] s (modChan a0 a1 s) := by
  unfold modChan
  exact Only.chans Only.refl

theorem queueTx_only {a0 a1 a2 s l} :
    Only [.chans] l [] [] s (queueTx a0 a1 a2 s) := by
  unfold queueTx
  split
  · exact Only.ite (Only.step (Only.step Only.refl modChan_only) modChan_only) (Only.step Only.refl modChan_only)
  · exact Only.step Only.refl modChan_only

theorem queueDict_only {a0 a1 s l} :
    Only [.chans] l [] [] s (queueDict a0 a1 s) := by
  unfold queueDict
  exact Only.step
    (Only.ite (Only.step Only.refl queueTx_only) (Only.step (Only.step Only.refl queueTx_only) queueTx_only)) queueTx_only

theorem emcySend_only {s l} :
    Only [.free, .comm, .chans] l [] [] s (emcySend s) := by
  unfold emcySend
  exact Only.ite
    (Only.step (Only.ite (Only.step (Only.comm Only.refl) queueDict_only) (Only.comm Only.refl)) State.useFree_only)
    Only.refl

theorem enterMode_only {a0 s l} :
    Only [.free, .modes, .comm, .chans] l [.evq] [.evq] s (enterMode a0 s) := by
  unfold enterMode
  exact Only.ite (Only.step (Only.step (Only.modes Only.refl) evt_only) emcySend_only)
    (Only.step (Only.modes Only.refl) evt_only)

theorem LaneState.modLoop_only {a0 a1 x} : LaneOnly [.bayLoops, .modLoops, .strLoops,
      .slowLoops] x (LaneState.modLoop a0 a1 x) := by
  unfold LaneState.modLoop
  split
  · exact LaneOnly.bayLoops LaneOnly.refl
  · exact LaneOnly.modLoops LaneOnly.refl
  · exact LaneOnly.strLoops LaneOnly.refl
  · exact LaneOnly.slowLoops LaneOnly.refl

theorem nmtFrame_only {a0 s l} :
    Only [.chans] l [] [] s (nmtFrame a0 s) := by
  unfold nmtFrame
  exact Only.step Only.refl queueDict_only

theorem LaneState.stamp_only {a0 x} : LaneOnly [.evq] x (LaneState.stamp a0 x) := by
  unfold LaneState.stamp
  exact LaneOnly.evq LaneOnly.refl

theorem stampEvents_only {s l} :
    Only [] l [.evq] [.evq] s (stampEvents s) := by
  unfold stampEvents
  exact Only.bothLanes Only.refl (fun _ => LaneOnly.step LaneOnly.refl LaneState.stamp_only)

theorem takeSafe_only {a0 s l} :
    Only [.free, .modes, .jct, .comm, .chans] l [.evq] [.evq] s (takeSafe a0 s) := by
  unfold takeSafe
  exact Only.ite Only.refl
    (Only.ite (Only.ite (Only.jct Only.refl) Only.refl)
      (Only.ite (Only.jct (Only.step (Only.modes (Only.modes Only.refl)) enterMode_only))
        (Only.ite (Only.jct (Only.step (Only.modes (Only.modes Only.refl)) enterMode_only))
          (Only.step (Only.modes (Only.modes Only.refl)) enterMode_only))))

theorem modCurBank_only {t0 a1 x} : LaneOnly [.bank0, .bank1] x (modCurBank t0 a1 x) := by
  unfold modCurBank
  exact LaneOnly.ite (LaneOnly.bank0 LaneOnly.refl) (LaneOnly.bank1 LaneOnly.refl)

theorem LaneState.mapLoops_only {a0 x} : LaneOnly [.bayLoops, .modLoops, .strLoops,
      .slowLoops] x (LaneState.mapLoops a0 x) := by
  unfold LaneState.mapLoops
  exact LaneOnly.foldl LaneOnly.refl (fun _ _ => LaneOnly.step LaneOnly.refl LaneState.modLoop_only)

theorem LaneState.modLink_only {a0 a1 x} : LaneOnly [.links] x (LaneState.modLink a0 a1 x) := by
  unfold LaneState.modLink
  exact LaneOnly.links LaneOnly.refl

end Sys2Proof.Machine
end

