-- ==== Sys2Proof/Laws/Flags.lean ====
section
/-! SUPPORT. What each operation of Machine/Flags.lean can change: one lemma for each function on the block or a lane, to be cited in
place of unfolding it. -/

namespace Sys2Proof.Machine

set_option Elab.async false

theorem recheckSpares_only {s l} :
    Only [.clk] l [.evq] [.evq] s (recheckSpares s) := by
  unfold recheckSpares
  exact Only.foldl (Only.clk Only.refl) (fun _ _ => Only.ite (Only.step Only.refl evt_only) Only.refl)

end Sys2Proof.Machine
end

