-- ==== Sys2Proof/Laws/KeyOps.lean ====
section
/-! SUPPORT. What each operation of Machine/KeyOps.lean can change: one lemma for each function on the block or a lane, to be cited in
place of unfolding it. -/

namespace Sys2Proof.Machine

set_option Elab.async false

theorem lifeMove_only {a0 s l} :
    Only [.free, .clk, .life] l [.evq] [.evq] s (lifeMove a0 s) := by
  unfold lifeMove
  exact Only.step (Only.step (Only.life Only.refl) State.useFree_only) recheckSpares_only

theorem lifeDestroy_only {a0 s l} :
    Only [.free, .clk, .life] l [.evq, .ks] [.evq, .ks] s (lifeDestroy a0 s) := by
  unfold lifeDestroy
  exact Only.foldl
    (Only.bothLanes (Only.step (Only.bothLanes Only.refl (fun _ => LaneOnly.ks LaneOnly.refl)) lifeMove_only)
      (fun _ => LaneOnly.ks LaneOnly.refl)) (fun _ _ => Only.step Only.refl evt_only)

end Sys2Proof.Machine
end

