-- ==== Sys2Proof/Laws/Slots.lean ====
section
/-! SUPPORT. What each operation of Machine/Slots.lean can change: one lemma for each function on the block or a lane, to be cited in
place of unfolding it. -/

namespace Sys2Proof.Machine

set_option Elab.async false

theorem setPlace_only {a0 a1 a2 x} : LaneOnly [.tiles, .bayLoops, .modLoops, .strLoops,
      .slowLoops] x (setPlace a0 a1 a2 x) := by
  unfold setPlace
  exact LaneOnly.tiles (LaneOnly.step LaneOnly.refl LaneState.modLoop_only)

theorem placeSlow_only {t0 x} : LaneOnly [.tiles, .bayLoops, .modLoops, .strLoops, .slowLoops] x (placeSlow t0 x) := by
  unfold placeSlow
  split
  · exact LaneOnly.foldl LaneOnly.refl (fun _ _ => LaneOnly.ite (LaneOnly.step LaneOnly.refl setPlace_only) LaneOnly.refl)
  · exact LaneOnly.refl

theorem clearPlaces_only {x} : LaneOnly [.tiles, .bayLoops, .modLoops, .strLoops, .slowLoops] x (clearPlaces x) := by
  unfold clearPlaces
  exact LaneOnly.step (LaneOnly.tiles LaneOnly.refl) LaneState.mapLoops_only

theorem placeLoop_only {t0 a1 x} : LaneOnly [.tiles, .bayLoops, .modLoops, .strLoops, .slowLoops] x (placeLoop t0 a1 x) := by
  unfold placeLoop
  split
  · exact by
      split
      · exact LaneOnly.step LaneOnly.refl setPlace_only
      · exact LaneOnly.refl
  · exact LaneOnly.step LaneOnly.refl LaneState.modLoop_only

theorem placeAll_only {t0 x} : LaneOnly [.tiles, .bayLoops, .modLoops, .strLoops, .slowLoops] x (placeAll t0 x) := by
  unfold placeAll
  exact LaneOnly.foldl (LaneOnly.step (LaneOnly.step LaneOnly.refl clearPlaces_only) placeSlow_only)
    (fun _ _ => LaneOnly.ite (LaneOnly.step LaneOnly.refl placeLoop_only) LaneOnly.refl)

theorem commitPort_only {a0 a1 x} : LaneOnly [.out, .relay] x (commitPort a0 a1 x) := by
  unfold commitPort
  split
  · exact LaneOnly.out LaneOnly.refl
  · exact LaneOnly.relay LaneOnly.refl
  · exact LaneOnly.refl

theorem commitPorts_only {a0 a1 x} : LaneOnly [.out, .relay] x (commitPorts a0 a1 x) := by
  unfold commitPorts
  exact LaneOnly.foldl LaneOnly.refl
    (fun _ _ => by split <;> [exact LaneOnly.step LaneOnly.refl commitPort_only; exact LaneOnly.refl])

theorem slotStartEffect_only {l a0 a1 s} :
    Only [] l [.tiles, .bayLoops, .modLoops, .strLoops, .slowLoops] [] s (slotStartEffect l a0 a1 s) := by
  unfold slotStartEffect
  dsimp only; split
  · exact Only.setLane Only.refl (LaneOnly.tiles LaneOnly.refl)
  · exact by
      split
      · exact Only.setLane Only.refl (LaneOnly.tiles LaneOnly.refl)
      · exact Only.setLane Only.refl (LaneOnly.step (LaneOnly.tiles LaneOnly.refl) LaneState.modLoop_only)

theorem writebackLane_only {a0 x} : LaneOnly [.out, .tiles, .relay, .bayLoops, .modLoops, .strLoops,
      .slowLoops] x (writebackLane a0 x) := by
  unfold writebackLane
  split
  · exact LaneOnly.refl
  · exact by
      split
      · exact LaneOnly.tiles LaneOnly.refl
      · exact LaneOnly.ite
          (LaneOnly.step (LaneOnly.step (LaneOnly.tiles LaneOnly.refl) commitPorts_only) LaneState.modLoop_only)
          (LaneOnly.step
            (LaneOnly.ite (LaneOnly.tiles (LaneOnly.tiles LaneOnly.refl))
              (LaneOnly.step (LaneOnly.tiles (LaneOnly.tiles LaneOnly.refl)) commitPorts_only)) LaneState.modLoop_only)

end Sys2Proof.Machine
end

