-- ==== Sys2Proof/Laws/WpOps.lean ====
section
/-! SUPPORT. What each operation of Machine/WpOps.lean can change: one lemma for each function on the block or a lane, to be cited in
place of unfolding it. -/

namespace Sys2Proof.Machine

set_option Elab.async false

theorem loopOff_only {a0 x} : LaneOnly [.bayLoops, .modLoops, .strLoops, .slowLoops] x (loopOff a0 x) := by
  unfold loopOff
  exact LaneOnly.step LaneOnly.refl LaneState.modLoop_only

theorem LaneState.modMod_only {a0 a1 x} : LaneOnly [.wp] x (LaneState.modMod a0 a1 x) := by
  unfold LaneState.modMod
  exact LaneOnly.wp LaneOnly.refl

theorem openBay_only {a0 x} : LaneOnly [.bayLoops, .modLoops, .strLoops, .slowLoops, .wp] x (openBay a0 x) := by
  unfold openBay
  exact LaneOnly.foldl LaneOnly.refl
    (fun _ _ =>
      LaneOnly.step
        (by
          split
          · exact LaneOnly.step LaneOnly.refl loopOff_only
          · exact LaneOnly.refl) LaneState.modMod_only)

theorem LaneState.modWp_only {a0 x} : LaneOnly [.wp] x (LaneState.modWp a0 x) := by
  unfold LaneState.modWp
  exact LaneOnly.wp LaneOnly.refl

theorem abandon_only {a0 x} : LaneOnly [.wp] x (abandon a0 x) := by
  unfold abandon
  exact LaneOnly.ite LaneOnly.refl
    (LaneOnly.step (LaneOnly.step LaneOnly.refl LaneState.modMod_only) LaneState.modWp_only)

theorem retireDecision_only {t0 a1 a2 x} : LaneOnly [.wp, .evq] x (retireDecision t0 a1 a2 x) := by
  unfold retireDecision
  exact LaneOnly.step
    (by
      split
      · exact LaneOnly.step (LaneOnly.step (LaneOnly.step LaneOnly.refl LaneState.modMod_only) LaneState.modWp_only)
          LaneState.modMod_only
      · exact LaneOnly.step (LaneOnly.step LaneOnly.refl LaneState.modMod_only) LaneState.modWp_only) LaneState.event_only

theorem retireByLoop_only {t0 a1 x} : LaneOnly [.wp, .evq] x (retireByLoop t0 a1 x) := by
  unfold retireByLoop
  exact LaneOnly.ite LaneOnly.refl
    (LaneOnly.step
      (LaneOnly.ite
        (LaneOnly.step (LaneOnly.ite (LaneOnly.step LaneOnly.refl abandon_only) LaneOnly.refl) retireDecision_only)
        (LaneOnly.ite (LaneOnly.step LaneOnly.refl abandon_only) LaneOnly.refl)) LaneState.modMod_only)

theorem retireBySwitch_only {t0 a1 x} : LaneOnly [.wp, .evq] x (retireBySwitch t0 a1 x) := by
  unfold retireBySwitch
  exact LaneOnly.step
    (LaneOnly.step
      (LaneOnly.ite (LaneOnly.step LaneOnly.refl retireDecision_only) (LaneOnly.step LaneOnly.refl LaneState.modMod_only))
      LaneState.event_only) LaneState.modMod_only

theorem publishMlim_only {t0 x} : LaneOnly [.wp] x (publishMlim t0 x) := by
  unfold publishMlim
  exact LaneOnly.step LaneOnly.refl LaneState.modWp_only

end Sys2Proof.Machine
end

