-- ==== Sys2Proof/Laws/LoopOps.lean ====
section
/-! SUPPORT. What each operation of Machine/LoopOps.lean can change: one lemma for each function on the block or a lane, to be cited in
place of unfolding it. -/

namespace Sys2Proof.Machine

set_option Elab.async false

theorem enableLoop_only {a0 x} : LaneOnly [.bayLoops, .modLoops, .strLoops, .slowLoops, .evq] x (enableLoop a0 x) := by
  unfold enableLoop
  exact LaneOnly.ite (LaneOnly.step LaneOnly.refl LaneState.event_only)
    (LaneOnly.ite LaneOnly.refl (LaneOnly.ite (LaneOnly.step LaneOnly.refl LaneState.modLoop_only) LaneOnly.refl))

theorem disableLoop_only {a0 x} : LaneOnly [.bayLoops, .modLoops, .strLoops, .slowLoops] x (disableLoop a0 x) := by
  unfold disableLoop
  exact LaneOnly.step LaneOnly.refl LaneState.modLoop_only

theorem leaveFault_only {a0 x} : LaneOnly [.bayLoops, .modLoops, .strLoops, .slowLoops] x (leaveFault a0 x) := by
  unfold leaveFault
  exact LaneOnly.step LaneOnly.refl LaneState.modLoop_only

theorem startReaction_only {t0 a1 x} : LaneOnly [.out, .relay, .bayLoops, .modLoops, .strLoops, .slowLoops, .share,
      .wp, .evq] x (startReaction t0 a1 x) := by
  unfold startReaction
  split
  · exact LaneOnly.ite (LaneOnly.step LaneOnly.refl LaneState.modLoop_only) LaneOnly.refl
  · exact LaneOnly.step LaneOnly.refl retireByLoop_only
  · exact LaneOnly.ite (LaneOnly.share (LaneOnly.step LaneOnly.refl LaneState.modLoop_only)) LaneOnly.refl
  · exact LaneOnly.ite (LaneOnly.step LaneOnly.refl commitPorts_only) LaneOnly.refl

theorem enterFault_only {t0 a1 a2 x} : LaneOnly [.ctl, .out, .relay, .bayLoops, .modLoops, .strLoops, .slowLoops,
      .share, .wp, .evq] x (enterFault t0 a1 a2 x) := by
  unfold enterFault
  exact LaneOnly.ite LaneOnly.refl
    (LaneOnly.step
      (LaneOnly.step (LaneOnly.ctl (LaneOnly.step LaneOnly.refl LaneState.modLoop_only)) LaneState.event_only)
      startReaction_only)

theorem restartLoop_only {a0 x} : LaneOnly [.bayLoops, .modLoops, .strLoops, .slowLoops] x (restartLoop a0 x) := by
  unfold restartLoop
  exact LaneOnly.step LaneOnly.refl LaneState.modLoop_only

end Sys2Proof.Machine
end

