-- ==== Sys2Proof/Laws/MetSess.lean ====
section
/-! SUPPORT. What each operation of Machine/MetSess.lean can change: one lemma for each function on the block or a lane, to be cited in
place of unfolding it. -/

namespace Sys2Proof.Machine

set_option Elab.async false

theorem meterSend_only {a0 s l} :
    Only [.met] l [] [] s (meterSend a0 s) := by
  unfold meterSend
  exact Only.ite (Only.met Only.refl) Only.refl

theorem meterClose_only {a0 s l} :
    Only [.met] l [] [] s (meterClose a0 s) := by
  unfold meterClose
  split
  · exact Only.step Only.refl meterSend_only
  · exact Only.refl

theorem meterOpen_only {a0 a1 a2 a3 s l} :
    Only [.met] l [.evq] [.evq] s (meterOpen a0 a1 a2 a3 s) := by
  unfold meterOpen
  exact Only.step (Only.ite Only.refl (Only.step Only.refl evt_only)) meterSend_only

theorem meterReopen_only {a0 a1 a2 s l} :
    Only [.free, .met] l [.evq] [.evq] s (meterReopen a0 a1 a2 s) := by
  unfold meterReopen
  exact Only.step (Only.step (Only.step Only.refl State.useFree_only) meterClose_only) meterOpen_only

theorem meterString_only {s a0 l} :
    Only [.free, .met] l [.evq] [.evq] s (meterString s a0) := by
  unfold meterString
  exact Only.step Only.refl meterReopen_only

theorem meterReady_only {s l} :
    Only [.free, .met] l [.evq] [.evq] s (meterReady s) := by
  unfold meterReady
  exact Only.ite (Only.met (Only.foldl Only.refl (fun _ _ => Only.step Only.refl meterString_only))) Only.refl

theorem handCalendar_only {s l} :
    Only [.met] l [] [] s (handCalendar s) := by
  unfold handCalendar
  exact Only.ite (Only.step Only.refl meterSend_only) Only.refl

theorem readyReported_only {s l} :
    Only [.free, .met] l [.evq] [.evq] s (readyReported s) := by
  unfold readyReported
  exact Only.ite Only.refl (Only.step (Only.step Only.refl handCalendar_only) meterReady_only)

theorem meterCommission_only {a0 s l} :
    Only [.free, .met] l [.evq] [.evq] s (meterCommission a0 s) := by
  unfold meterCommission
  split
  · exact Only.ite Only.refl
      (by
        split
        · exact Only.ite Only.refl (Only.step Only.refl meterReopen_only)
        · exact Only.step Only.refl meterReopen_only)
  · exact Only.refl

theorem meterLeave_only {s a0 l} :
    Only [.free, .met] l [.evq] [.evq] s (meterLeave s a0) := by
  unfold meterLeave
  split
  · exact Only.ite
      (Only.ite (Only.step (Only.step Only.refl meterClose_only) meterString_only) (Only.step Only.refl meterClose_only))
      Only.refl
  · exact Only.refl

theorem meterPeriod_only {s l} :
    Only [.free, .met] l [.evq] [.evq] s (meterPeriod s) := by
  unfold meterPeriod
  exact Only.ite Only.refl (Only.foldl Only.refl (fun _ _ => Only.step Only.refl meterLeave_only))

end Sys2Proof.Machine
end

