-- ==== Sys2Proof/Laws/VehOps.lean ====
section
/-! SUPPORT. What each operation of Machine/VehOps.lean can change: one lemma for each function on the block or a lane, to be cited in
place of unfolding it. -/

namespace Sys2Proof.Machine

set_option Elab.async false

theorem modSess_only {a0 a1 s l} :
    Only [.veh] l [] [] s (modSess a0 a1 s) := by
  unfold modSess
  exact Only.veh Only.refl

theorem meterEnd_only {a0 s l} :
    Only [.met] l [] [] s (meterEnd a0 s) := by
  unfold meterEnd
  split
  · exact by
      split
      · exact Only.ite (Only.step Only.refl meterClose_only) Only.refl
      · exact Only.refl
  · exact Only.refl

theorem endSession_only {a0 a1 s l} :
    Only [.met, .veh] l [.evq] [.evq] s (endSession a0 a1 s) := by
  unfold endSession
  exact Only.ite (Only.step (Only.step (Only.veh (Only.step Only.refl modSess_only)) evt_only) meterEnd_only)
    (Only.ite (Only.step Only.refl modSess_only) Only.refl)

theorem endAllSessions_only {a0 s l} :
    Only [.met, .veh] l [.evq] [.evq] s (endAllSessions a0 s) := by
  unfold endAllSessions
  exact Only.foldl Only.refl (fun _ _ => Only.step Only.refl endSession_only)

theorem endBaySession_only {a0 a1 s l} :
    Only [.met, .veh] l [.evq] [.evq] s (endBaySession a0 a1 s) := by
  unfold endBaySession
  split
  · exact Only.step Only.refl endSession_only
  · exact Only.refl

end Sys2Proof.Machine
end

