-- ==== Sys2Proof/Laws/ModeOps.lean ====
section
/-! SUPPORT. What each operation of Machine/ModeOps.lean can change: one lemma for each function on the block or a lane, to be cited in
place of unfolding it. -/

namespace Sys2Proof.Machine

set_option Elab.async false

theorem slowEnable_only {t0 x} : LaneOnly [.bayLoops, .modLoops, .strLoops, .slowLoops, .evq] x (slowEnable t0 x) := by
  unfold slowEnable
  exact LaneOnly.foldl LaneOnly.refl (fun _ _ => LaneOnly.ite (LaneOnly.step LaneOnly.refl enableLoop_only) LaneOnly.refl)

theorem goMode_only {a0 s l} :
    Only [.free, .modes, .comm, .chans] l [.bayLoops, .modLoops, .strLoops, .slowLoops, .evq] [.bayLoops, .modLoops,
      .strLoops, .slowLoops, .evq] s (goMode a0 s) := by
  unfold goMode
  exact Only.ite (Only.step Only.refl enterMode_only)
    (Only.bothLanes (Only.step Only.refl enterMode_only) (fun _ => LaneOnly.step LaneOnly.refl slowEnable_only))

theorem shiftMode_only {a0 s l} :
    Only [.free, .modes, .comm, .chans] l [.bayLoops, .modLoops, .strLoops, .slowLoops, .evq] [.bayLoops, .modLoops,
      .strLoops, .slowLoops, .evq] s (shiftMode a0 s) := by
  unfold shiftMode
  exact Only.modes (Only.step Only.refl goMode_only)

theorem rampLane_only {a0 x} : LaneOnly [.bayLoops, .strLoops] x (rampLane a0 x) := by
  unfold rampLane
  exact LaneOnly.step LaneOnly.refl (LaneOnly.parts (qs := [.bayLoops, .strLoops]))

theorem safeBoundary_only {s l} :
    Only [.met, .veh] l [.bayLoops, .modLoops, .strLoops, .slowLoops, .evq] [.bayLoops, .modLoops, .strLoops,
      .slowLoops, .evq] s (safeBoundary s) := by
  unfold safeBoundary
  split
  · exact Only.refl
  · exact Only.ite
      (Only.bothLanes
        (Only.step (Only.bothLanes Only.refl (fun _ => LaneOnly.step LaneOnly.refl rampLane_only)) endAllSessions_only)
        (fun _ => LaneOnly.step LaneOnly.refl slowEnable_only)) Only.refl

theorem modeCompletion_only {s l} :
    Only [.free, .modes, .comm, .chans] l [.bayLoops, .modLoops, .strLoops, .slowLoops, .evq] [.bayLoops, .modLoops,
      .strLoops, .slowLoops, .evq] s (modeCompletion s) := by
  unfold modeCompletion
  split
  · exact Only.refl
  · exact Only.ite (Only.step Only.refl goMode_only) Only.refl

theorem sessionsPeriod_only {s l} :
    Only [.veh] l [] [] s (sessionsPeriod s) := by
  unfold sessionsPeriod
  exact Only.veh Only.refl

end Sys2Proof.Machine
end

