-- ==== Sys2Proof/Laws/ResetOps.lean ====
section
/-! SUPPORT. What each operation of Machine/ResetOps.lean can change: one lemma for each function on the block or a lane, to be cited in
place of unfolding it. -/

namespace Sys2Proof.Machine

set_option Elab.async false

theorem LaneState.deviceReset_only {x} : LaneOnly allLane x (LaneState.deviceReset x) := by
  intro q hq
  cases q <;> exact absurd (by decide) hq

theorem deviceReset_only {s l} : Only [.clk, .modes, .rails, .bk, .jct, .sets, .comm, .veh, .chans, .site, .tri, .life, .fs, .nand, .upd, .recs, .taps]
    l allLane allLane s (deviceReset s) :=
  ⟨by intro p hp; cases p <;> first | exact absurd (by decide) hp | rfl,
   by intro q hq; cases q <;> exact absurd (by decide) hq, by intro q hq; cases q <;> exact absurd (by decide) hq⟩

theorem latchCause_only {a0 s l} :
    Only [.bk] l [] [] s (latchCause a0 s) := by
  unfold latchCause
  exact Only.bk Only.refl

theorem resetWith_only {a0 s l} :
    Only [.clk, .modes, .rails, .bk, .jct, .sets, .comm, .veh, .chans, .site, .tri, .life, .fs, .nand, .upd, .recs,
      .taps] l allLane allLane s (resetWith a0 s) := by
  unfold resetWith
  exact Only.step (Only.step Only.refl latchCause_only) deviceReset_only

theorem setRole_only {l a0 s} :
    Only [.jct] l [] [] s (setRole l a0 s) := by
  unfold setRole
  exact Only.jct Only.refl

theorem LaneState.afterReset_only {x} : LaneOnly allButRoles x (LaneState.afterReset x) := by
  intro q hq
  cases q <;> first | exact absurd (by decide) hq | rfl

theorem resetLane_only {l s} :
    Only [] l allButRoles [] s (resetLane l s) := by
  unfold resetLane
  exact Only.modLane Only.refl (fun _ => LaneOnly.step LaneOnly.refl LaneState.afterReset_only)

theorem afterStandbyLoss_only {s l} :
    Only [.free, .modes, .comm, .chans] l [.bayLoops, .modLoops, .strLoops, .slowLoops, .evq] [.bayLoops, .modLoops,
      .strLoops, .slowLoops, .evq] s (afterStandbyLoss s) := by
  unfold afterStandbyLoss
  exact Only.ite (Only.step Only.refl shiftMode_only) Only.refl

theorem junctionFail_only {l a0 s} :
    Only [.bk, .jct] l allButRoles [] s (junctionFail l a0 s) := by
  unfold junctionFail
  exact Only.jct (Only.step (Only.step (Only.step Only.refl resetLane_only) latchCause_only) setRole_only)

theorem safeExit_only {s l} :
    Only [.bk] l [] [] s (safeExit s) := by
  unfold safeExit
  exact Only.ite (Only.step Only.refl latchCause_only) Only.refl

end Sys2Proof.Machine
end

