-- ==== Sys2Proof/Laws/SiteSource.lean ====
section
/-! SUPPORT. What each operation of Machine/SiteSource.lean can change: one lemma for each function on the block or a lane, to be cited in
place of unfolding it. -/

namespace Sys2Proof.Machine

set_option Elab.async false

theorem modSite_only {a0 s l} :
    Only [.site] l [] [] s (modSite a0 s) := by
  unfold modSite
  exact Only.site Only.refl

theorem reselect_only {a0 s l} :
    Only [.site] l [.evq] [.evq] s (reselect a0 s) := by
  unfold reselect
  exact Only.ite Only.refl (Only.step (Only.step Only.refl stampEvents_only) modSite_only)

theorem ptpAnnounceEffect_only {a0 a1 s l} :
    Only [.site] l [] [] s (ptpAnnounceEffect a0 a1 s) := by
  unfold ptpAnnounceEffect
  exact Only.ite Only.refl (Only.step Only.refl modSite_only)

theorem ptpHoldoverExpiryEffect_only {s l} :
    Only [.site] l [.evq] [.evq] s (ptpHoldoverExpiryEffect s) := by
  unfold ptpHoldoverExpiryEffect
  exact Only.ite (Only.step (Only.step Only.refl modSite_only) reselect_only) Only.refl

theorem ptpLockLostEffect_only {s l} :
    Only [.site] l [.evq] [.evq] s (ptpLockLostEffect s) := by
  unfold ptpLockLostEffect
  exact Only.ite (Only.step (Only.step Only.refl modSite_only) reselect_only) Only.refl

theorem ptpSyncEffect_only {a0 a1 s l} :
    Only [.site] l [.evq] [.evq] s (ptpSyncEffect a0 a1 s) := by
  unfold ptpSyncEffect
  exact Only.ite Only.refl
    (Only.ite (Only.step (Only.step (Only.step Only.refl modSite_only) stampEvents_only) modSite_only)
      (Only.step (Only.step Only.refl modSite_only) reselect_only))

end Sys2Proof.Machine
end

