-- ==== Sys2Proof/Laws/SpurTx.lean ====
section
/-! SUPPORT. What each operation of Machine/SpurTx.lean can change: one lemma for each function on the block or a lane, to be cited in
place of unfolding it. -/

namespace Sys2Proof.Machine

set_option Elab.async false

theorem sendFrames_only {s l} :
    Only [.free, .clk] l [] [] s (sendFrames s) := by
  unfold sendFrames
  exact Only.clk (Only.step Only.refl State.useFree_only)

theorem idleLinks_only {s l} :
    Only [.clk] l [] [] s (idleLinks s) := by
  unfold idleLinks
  exact Only.clk Only.refl

end Sys2Proof.Machine
end

