-- ==== Sys2Proof/Laws/Supplies.lean ====
section
/-! SUPPORT. What each operation of Machine/Supplies.lean can change: one lemma for each function on the block or a lane, to be cited in
place of unfolding it. -/

namespace Sys2Proof.Machine

set_option Elab.async false

theorem abortSequence_only {s l} :
    Only [.upd] l [] [] s (abortSequence s) := by
  unfold abortSequence
  exact Only.ite (Only.upd Only.refl) Only.refl

theorem plainReset_only {a0 s l} :
    Only [.clk, .modes, .rails, .bk, .jct, .sets, .comm, .veh, .chans, .site, .tri, .life, .fs, .nand, .upd, .recs,
      .taps] l allLane allLane s (plainReset a0 s) := by
  unfold plainReset
  exact Only.step (Only.step Only.refl abortSequence_only) resetWith_only

theorem modJct_only {a0 s l} :
    Only [.jct] l [] [] s (modJct a0 s) := by
  unfold modJct
  exact Only.jct Only.refl

theorem modBk_only {a0 s l} :
    Only [.bk] l [] [] s (modBk a0 s) := by
  unfold modBk
  exact Only.bk Only.refl

theorem noteOff_only {a0 s l} :
    Only [.bk] l [] [] s (noteOff a0 s) := by
  unfold noteOff
  exact Only.ite (Only.step Only.refl modBk_only) Only.refl

theorem modRails_only {a0 s l} :
    Only [.rails] l [] [] s (modRails a0 s) := by
  unfold modRails
  exact Only.rails Only.refl

theorem LaneState.porReset_only {x} : LaneOnly [.recd, .slots] x (LaneState.porReset x) := by
  unfold LaneState.porReset
  exact LaneOnly.step LaneOnly.refl (LaneOnly.parts (qs := [.recd, .slots]))

theorem checkPor_only {s l} :
    Only [.bk] l [.recd, .slots] [.recd, .slots] s (checkPor s) := by
  unfold checkPor
  exact Only.ite (Only.bothLanes (Only.bk Only.refl) (fun _ => LaneOnly.step LaneOnly.refl LaneState.porReset_only))
    Only.refl

theorem backupEntryEffect_only {s l} :
    Only [.clk, .modes, .rails, .bk, .jct, .sets, .comm, .veh, .chans, .site, .tri, .life, .fs, .nand, .upd, .recs,
      .taps] l allLane allLane s (backupEntryEffect s) := by
  unfold backupEntryEffect
  exact Only.ite Only.refl
    (Only.step
      (Only.modes
        (Only.step
          (Only.step (Only.step (Only.step (Only.step Only.refl abortSequence_only) deviceReset_only) noteOff_only)
            modRails_only) modJct_only)) checkPor_only)

theorem latchStop_only {s l} :
    Only [.modes] l [] [] s (latchStop s) := by
  unfold latchStop
  exact Only.modes Only.refl

theorem tempEvents_only {a0 a1 a2 x} : LaneOnly [.evq] x (tempEvents a0 a1 a2 x) := by
  unfold tempEvents
  exact LaneOnly.foldl
    (LaneOnly.ite
      (LaneOnly.step (LaneOnly.ite (LaneOnly.step LaneOnly.refl LaneState.event_only) LaneOnly.refl) LaneState.event_only)
      (LaneOnly.ite (LaneOnly.step LaneOnly.refl LaneState.event_only) LaneOnly.refl))
    (fun _ _ => LaneOnly.ite (LaneOnly.step LaneOnly.refl LaneState.event_only) LaneOnly.refl)

theorem tempLane_only {l a0 s} :
    Only [.free, .modes, .bk] l [.temp, .evq] [] s (tempLane l a0 s) := by
  unfold tempLane
  exact Only.modLane
    (Only.ite
      (Only.step (Only.step (Only.ite (Only.step Only.refl State.useFree_only) Only.refl) latchCause_only) latchStop_only)
      (Only.ite (Only.step Only.refl State.useFree_only) Only.refl))
    (fun _ => LaneOnly.step (LaneOnly.temp LaneOnly.refl) tempEvents_only)

theorem dieTempEffect_only {a0 s l} :
    Only [.free, .modes, .bk, .jct, .met, .comm, .chans] l [.temp, .evq] [.temp, .evq] s (dieTempEffect a0 s) := by
  unfold dieTempEffect
  exact Only.ite Only.refl
    (Only.ite
      (Only.step (Only.met (Only.step (Only.stepAny (Only.stepAny Only.refl tempLane_only) tempLane_only) modJct_only))
        takeSafe_only)
      (Only.met (Only.step (Only.stepAny (Only.stepAny Only.refl tempLane_only) tempLane_only) modJct_only)))

theorem junctionLose_only {s l} :
    Only [.jct] l [.health, .evq] [.health, .evq] s (junctionLose s) := by
  unfold junctionLose
  exact Only.ite (Only.step Only.refl modJct_only)
    (Only.step (Only.bothLanes (Only.step Only.refl modJct_only) (fun _ => LaneOnly.health LaneOnly.refl)) evt_only)

theorem execRailFaultLatchClear_only {a0 s l} :
    OnlyNext [.bk, .comm] l [] [] s (execRailFaultLatchClear a0 s) := by
  unfold execRailFaultLatchClear
  exact OnlyNext.next (hostWrite_only (fun _ => Only.step Only.refl modBk_only))

theorem powerFailEndEffect_only {s l} :
    Only [.bk, .met] l [] [] s (powerFailEndEffect s) := by
  unfold powerFailEndEffect
  exact Only.ite (Only.met (Only.step Only.refl modBk_only)) Only.refl

theorem powerFailWarningEffect_only {s l} :
    Only [.bk, .met] l [.evq] [.evq] s (powerFailWarningEffect s) := by
  unfold powerFailWarningEffect
  exact Only.ite Only.refl (Only.met (Only.step (Only.step (Only.step Only.refl modBk_only) latchCause_only) evt_only))

theorem holdLane_only {l s} :
    Only [] l allButRoles [] s (holdLane l s) := by
  unfold holdLane
  exact Only.modLane (Only.step Only.refl resetLane_only) (fun _ => LaneOnly.ctl LaneOnly.refl)

theorem ringFault_only {s l} :
    Only [.free, .clk, .modes, .rails, .jct, .comm, .chans] l allButRoles allButRoles s (ringFault s) := by
  unfold ringFault
  exact Only.stepAny
    (Only.stepAny
      (Only.stepAny
        (Only.stepAny
          (Only.step
            (Only.step (Only.step (Only.step (Only.step Only.refl takeSafe_only) modJct_only) modRails_only)
              idleLinks_only) modJct_only) resetLane_only) resetLane_only) setRole_only) setRole_only

theorem railAction_only {a0 s l} :
    Only [.free, .clk, .modes, .rails, .jct, .comm, .chans] l allButRoles allButRoles s (railAction a0 s) := by
  unfold railAction
  split
  · exact Only.stepAny Only.refl holdLane_only
  · exact Only.ite (Only.step Only.refl ringFault_only) (Only.ite (Only.step Only.refl junctionLose_only) Only.refl)

theorem railFaultEffect_only {a0 a1 s l} :
    Only [.free, .clk, .modes, .rails, .bk, .jct, .comm, .chans] l allButRoles allButRoles s (railFaultEffect a0 a1 s) := by
  unfold railFaultEffect
  exact Only.ite Only.refl
    (Only.step
      (Only.step
        (Only.step
          (by
            split
            · exact Only.step
                (Only.step (Only.step (Only.step (Only.step Only.refl modRails_only) modBk_only) latchCause_only) evt_only)
                emcySend_only
            · exact Only.ite (Only.step (Only.step Only.refl modRails_only) modBk_only)
                (Only.step Only.refl modRails_only)) railAction_only) noteOff_only) checkPor_only)

theorem restartLaneIfFree_only {l s} :
    Only [.jct] l [.ctl] [] s (restartLaneIfFree l s) := by
  unfold restartLaneIfFree
  exact Only.ite
    (Only.ite (Only.step (Only.modLane Only.refl (fun _ => LaneOnly.ctl LaneOnly.refl)) setRole_only)
      (Only.modLane Only.refl (fun _ => LaneOnly.ctl LaneOnly.refl))) Only.refl

theorem railRecoveredEffect_only {a0 s l} :
    Only [.clk, .modes, .rails, .bk, .jct, .sets, .comm, .veh, .chans, .site, .tri, .life, .fs, .nand, .upd, .recs,
      .taps] l allLane allLane s (railRecoveredEffect a0 s) := by
  unfold railRecoveredEffect
  exact Only.ite Only.refl
    (Only.ite
      (Only.step
        (Only.step
          (Only.step
            (Only.stepAny
              (Only.stepAny
                (Only.ite (Only.step (Only.step Only.refl modRails_only) modBk_only) (Only.step Only.refl modRails_only))
                restartLaneIfFree_only) restartLaneIfFree_only) safeExit_only) plainReset_only) modRails_only)
      (Only.stepAny
        (Only.stepAny
          (Only.ite (Only.step (Only.step Only.refl modRails_only) modBk_only) (Only.step Only.refl modRails_only))
          restartLaneIfFree_only) restartLaneIfFree_only))

theorem releaseReset_only {s l} : Only [.clk, .modes, .rails] l [] [] s (releaseReset s) := by
  unfold releaseReset
  exact Only.ite (Only.parts (dev := [.clk, .modes, .rails])) Only.refl

theorem resetReleaseEffect_only {s l} :
    Only [.clk, .modes, .rails, .bk, .jct, .sets, .comm, .veh, .chans, .site, .tri, .life, .fs, .nand, .upd, .recs,
      .taps] l allLane allLane s (resetReleaseEffect s) := by
  unfold resetReleaseEffect
  exact Only.step (Only.ite (Only.step Only.refl deviceReset_only) Only.refl) releaseReset_only

end Sys2Proof.Machine
end

