-- ==== Sys2Proof/Laws/BackupDom.lean ====
section
/-! SUPPORT. What each operation of Machine/BackupDom.lean can change: one lemma for each function on the block or a lane, to be cited in
place of unfolding it. -/

namespace Sys2Proof.Machine

set_option Elab.async false

theorem rtcWriteEffect_only {a0 s l} :
    Only [.bk, .site] l [.evq] [.evq] s (rtcWriteEffect a0 s) := by
  unfold rtcWriteEffect
  exact Only.step (Only.step Only.refl modBk_only) reselect_only

theorem execRtcWrite_only {a0 s l} :
    OnlyNext [.bk, .comm, .site] l [.evq] [.evq] s (execRtcWrite a0 s) := by
  unfold execRtcWrite
  exact OnlyNext.next (hostWrite_only (fun _ => Only.step Only.refl rtcWriteEffect_only))

theorem tamperClearEffect_only {a0 s l} :
    Only [.bk] l [] [] s (tamperClearEffect a0 s) := by
  unfold tamperClearEffect
  exact Only.step Only.refl modBk_only

theorem execTamperLatchClear_only {a0 s l} :
    OnlyNext [.bk, .comm] l [] [] s (execTamperLatchClear a0 s) := by
  unfold execTamperLatchClear
  exact OnlyNext.next (hostWrite_only (fun _ => Only.step Only.refl tamperClearEffect_only))

theorem wakeBy_only {a0 s l} :
    Only [.bk] l [] [] s (wakeBy a0 s) := by
  unfold wakeBy
  exact Only.step (Only.step Only.refl modBk_only) latchCause_only

theorem rtcAlarmEffect_only {s l} :
    Only [.bk] l [.evq] [.evq] s (rtcAlarmEffect s) := by
  unfold rtcAlarmEffect
  exact Only.ite (Only.ite (Only.step Only.refl wakeBy_only) (Only.step Only.refl evt_only)) Only.refl

theorem rtcCompareEffect_only {s l} :
    Only [.bk, .site] l [.evq] [.evq] s (rtcCompareEffect s) := by
  unfold rtcCompareEffect
  exact Only.ite (Only.ite (Only.step (Only.step (Only.site Only.refl) evt_only) modBk_only) (Only.site Only.refl))
    Only.refl

theorem securityLane_only {x} : LaneOnly [.ks] x (securityLane x) := by
  unfold securityLane
  exact LaneOnly.ks LaneOnly.refl

theorem securityLanes_only {a0 s l} :
    Only [] l [.ks] [.ks] s (securityLanes a0 s) := by
  unfold securityLanes
  split
  · exact Only.modAny Only.refl (fun _ => LaneOnly.step LaneOnly.refl securityLane_only)
      (fun _ => LaneOnly.step LaneOnly.refl securityLane_only)
  · exact Only.bothLanes Only.refl (fun _ => LaneOnly.step LaneOnly.refl securityLane_only)

theorem breachEffect_only {s l} :
    Only [.free, .clk, .modes, .rails, .bk, .jct, .sets, .comm, .veh, .chans, .site, .tri, .life, .fs, .nand, .upd,
      .recs, .taps] l allLane allLane s (breachEffect s) := by
  unfold breachEffect
  exact Only.ite (Only.step Only.refl modBk_only)
    (Only.ite (Only.step (Only.step (Only.step Only.refl lifeDestroy_only) safeExit_only) plainReset_only) Only.refl)

theorem securityTamperEffect_only {a0 a1 s l} :
    Only [.free, .clk, .modes, .rails, .bk, .jct, .sets, .comm, .veh, .chans, .site, .tri, .life, .fs, .nand, .upd,
      .recs, .taps] l allLane allLane s (securityTamperEffect a0 a1 s) := by
  unfold securityTamperEffect
  exact Only.ite Only.refl
    (Only.ite
      (Only.step
        (Only.step (Only.ite (Only.step Only.refl modBk_only) (Only.step (Only.step Only.refl modBk_only) evt_only))
          securityLanes_only) breachEffect_only)
      (Only.step (Only.ite (Only.step Only.refl modBk_only) (Only.step (Only.step Only.refl modBk_only) evt_only))
        securityLanes_only))

theorem tamperHandoverEffect_only {s l} :
    Only [] l [.evq] [.evq] s (tamperHandoverEffect s) := by
  unfold tamperHandoverEffect
  exact Only.ite (Only.foldl Only.refl (fun _ _ => Only.step Only.refl evt_only)) Only.refl

theorem tamperLatchEffect_only {a0 s l} :
    Only [.bk] l [] [] s (tamperLatchEffect a0 s) := by
  unfold tamperLatchEffect
  exact Only.ite Only.refl (Only.step Only.refl modBk_only)

end Sys2Proof.Machine
end

