-- ==== Sys2Proof/Laws/MetOps.lean ====
section
/-! SUPPORT. What each operation of Machine/MetOps.lean can change: one lemma for each function on the block or a lane, to be cited in
place of unfolding it. -/

namespace Sys2Proof.Machine

set_option Elab.async false

theorem modMet_only {a0 s l} :
    Only [.met] l [] [] s (modMet a0 s) := by
  unfold modMet
  exact Only.met Only.refl

end Sys2Proof.Machine
end

