-- ==== Sys2Proof/Laws/Barrier.lean ====
section
/-! SUPPORT. What each operation of Machine/Barrier.lean can change: one lemma for each function on the block or a lane, to be cited in
place of unfolding it. -/

namespace Sys2Proof.Machine

set_option Elab.async false

theorem serve_only {a0 a1 a2 s l} :
    Only [.met] l [] [] s (serve a0 a1 a2 s) := by
  unfold serve
  exact Only.ite Only.refl (by split <;> exact Only.step Only.refl modMet_only)

theorem ackLatches_only {a0 s l} :
    Only [.bk] l [] [] s (ackLatches a0 s) := by
  unfold ackLatches
  exact Only.bk Only.refl

theorem barrierTamperEffect_only {a0 a1 a2 a3 s l} :
    Only [.bk, .met] l [] [] s (barrierTamperEffect a0 a1 a2 a3 s) := by
  unfold barrierTamperEffect
  exact Only.ite (Only.step (Only.step Only.refl serve_only) ackLatches_only) (Only.step Only.refl serve_only)

theorem holdBlock_only {a0 a1 a2 x} : LaneOnly [.reading] x (holdBlock a0 a1 a2 x) := by
  unfold holdBlock
  split
  · exact LaneOnly.ite (LaneOnly.reading LaneOnly.refl) LaneOnly.refl
  · exact LaneOnly.refl

theorem barrierReadEffect_only {a0 a1 a2 s l} :
    Only [.met] l [.reading] [.reading] s (barrierReadEffect a0 a1 a2 s) := by
  unfold barrierReadEffect
  split
  · exact Only.modAny (Only.step Only.refl serve_only) (fun _ => LaneOnly.step LaneOnly.refl holdBlock_only)
      (fun _ => LaneOnly.step LaneOnly.refl holdBlock_only)
  · exact Only.step Only.refl serve_only

theorem statusEffect_only {a0 s l} :
    Only [.free, .met, .veh] l [.evq, .grid] [.evq, .grid] s (statusEffect a0 s) := by
  unfold statusEffect
  exact Only.ite
    (Only.modAny (Only.step Only.refl serve_only) (fun _ => LaneOnly.grid LaneOnly.refl)
      (fun _ => LaneOnly.grid LaneOnly.refl))
    (Only.ite
      (Only.step
        (Only.modAny (Only.step Only.refl serve_only) (fun _ => LaneOnly.grid LaneOnly.refl)
          (fun _ => LaneOnly.grid LaneOnly.refl)) readyReported_only)
      (Only.step
        (Only.modAny (Only.step Only.refl serve_only) (fun _ => LaneOnly.grid LaneOnly.refl)
          (fun _ => LaneOnly.grid LaneOnly.refl)) endAllSessions_only))

end Sys2Proof.Machine
end

