-- ==== Sys2Proof/Laws/Waypoint.lean ====
section
/-! SUPPORT. What each operation of Machine/Waypoint.lean can change: one lemma for each function on the block or a lane, to be cited in
place of unfolding it. -/

namespace Sys2Proof.Machine

set_option Elab.async false

theorem LaneState.modTile_only {a0 a1 x} : LaneOnly [.tiles] x (LaneState.modTile a0 a1 x) := by
  unfold LaneState.modTile
  exact LaneOnly.tiles LaneOnly.refl

theorem moduleTakeoverLane_only {t0 a1 x} : LaneOnly [.wp] x (moduleTakeoverLane t0 a1 x) := by
  unfold moduleTakeoverLane
  exact LaneOnly.ite LaneOnly.refl
    (LaneOnly.ite (LaneOnly.step LaneOnly.refl LaneState.modMod_only)
      (LaneOnly.ite (LaneOnly.step LaneOnly.refl LaneState.modMod_only)
        (LaneOnly.step LaneOnly.refl LaneState.modMod_only)))

theorem countMove_only {t0 a1 a2 x} : LaneOnly [.wp] x (countMove t0 a1 a2 x) := by
  unfold countMove
  exact LaneOnly.ite LaneOnly.refl (LaneOnly.step LaneOnly.refl LaneState.modWp_only)

theorem onModuleLoop_only {f a0 x qs} (hf : ∀ i y, LaneOnly qs y (f i y)) : LaneOnly qs x (onModuleLoop f a0 x) := by
  unfold onModuleLoop
  split
  · exact hf _ _
  · exact LaneOnly.refl

theorem rampUp_only {t0 a1 a2 a3 x} : LaneOnly [.bayLoops, .modLoops, .strLoops, .slowLoops, .wp,
      .evq] x (rampUp t0 a1 a2 a3 x) := by
  unfold rampUp
  exact LaneOnly.step
    (LaneOnly.step
      (LaneOnly.trans (LaneOnly.step LaneOnly.refl LaneState.modMod_only)
        (onModuleLoop_only (fun _ _ => LaneOnly.step LaneOnly.refl enableLoop_only))) LaneState.modMod_only)
    countMove_only

theorem moveRampUpLane_only {t0 a1 x} : LaneOnly [.bayLoops, .modLoops, .strLoops, .slowLoops, .wp,
      .evq] x (moveRampUpLane t0 a1 x) := by
  unfold moveRampUpLane
  exact LaneOnly.ite LaneOnly.refl
    (LaneOnly.ite (LaneOnly.step LaneOnly.refl rampUp_only)
      (LaneOnly.ite
        (LaneOnly.ite (LaneOnly.step LaneOnly.refl rampUp_only) (LaneOnly.step LaneOnly.refl LaneState.modMod_only))
        LaneOnly.refl))

theorem afterOpen_only {t0 x a1} : LaneOnly [.wp] x (afterOpen t0 x a1) := by
  unfold afterOpen
  exact LaneOnly.ite (LaneOnly.step LaneOnly.refl LaneState.modMod_only)
    (LaneOnly.ite (LaneOnly.step LaneOnly.refl LaneState.modMod_only)
      (LaneOnly.ite (LaneOnly.step LaneOnly.refl LaneState.modMod_only)
        (LaneOnly.step LaneOnly.refl LaneState.modMod_only)))

theorem fltBack_only {a0 x} : LaneOnly [.wp, .evq] x (fltBack a0 x) := by
  unfold fltBack
  exact LaneOnly.step (LaneOnly.step (LaneOnly.step LaneOnly.refl LaneState.modMod_only) abandon_only)
    LaneState.event_only

theorem moveAdvanceLane_only {t0 a1 x} : LaneOnly [.bayLoops, .modLoops, .strLoops, .slowLoops, .wp,
      .evq] x (moveAdvanceLane t0 a1 x) := by
  unfold moveAdvanceLane
  exact LaneOnly.ite LaneOnly.refl
    (by
      split
      · exact LaneOnly.ite
          (LaneOnly.trans (LaneOnly.step LaneOnly.refl LaneState.modMod_only)
            (onModuleLoop_only (fun _ _ => LaneOnly.step LaneOnly.refl disableLoop_only))) LaneOnly.refl
      · exact LaneOnly.ite (LaneOnly.step LaneOnly.refl LaneState.modMod_only) LaneOnly.refl
      · exact LaneOnly.ite (LaneOnly.step LaneOnly.refl LaneState.modMod_only) LaneOnly.refl
      · exact LaneOnly.ite (LaneOnly.step LaneOnly.refl afterOpen_only) LaneOnly.refl
      · exact LaneOnly.ite (LaneOnly.step LaneOnly.refl fltBack_only)
          (LaneOnly.ite (LaneOnly.step LaneOnly.refl LaneState.modMod_only) LaneOnly.refl)
      · exact LaneOnly.ite (LaneOnly.step LaneOnly.refl fltBack_only)
          (LaneOnly.ite (LaneOnly.step LaneOnly.refl LaneState.modMod_only) LaneOnly.refl)
      · exact LaneOnly.refl)

theorem moveTimeoutLane_only {t0 a1 x} : LaneOnly [.ctl, .out, .relay, .bayLoops, .modLoops, .strLoops, .slowLoops,
      .share, .wp, .evq] x (moveTimeoutLane t0 a1 x) := by
  unfold moveTimeoutLane
  exact LaneOnly.ite LaneOnly.refl
    (by
      split
      · exact LaneOnly.ite (onModuleLoop_only (fun _ _ => LaneOnly.step LaneOnly.refl enterFault_only)) LaneOnly.refl
      · exact LaneOnly.step (LaneOnly.step LaneOnly.refl abandon_only) retireBySwitch_only
      · exact LaneOnly.step (LaneOnly.step (LaneOnly.step LaneOnly.refl LaneState.modMod_only) abandon_only)
          LaneState.event_only
      · exact LaneOnly.ite LaneOnly.refl (LaneOnly.step LaneOnly.refl LaneState.modMod_only))

theorem moveTick_only {t0 x} : LaneOnly [.wp] x (moveTick t0 x) := by
  unfold moveTick
  exact LaneOnly.step LaneOnly.refl LaneState.modWp_only

theorem wpPeriod_only {t0 x} : LaneOnly [.wp] x (wpPeriod t0 x) := by
  unfold wpPeriod
  exact LaneOnly.ite
    (LaneOnly.step
      (LaneOnly.step (LaneOnly.ite LaneOnly.refl (LaneOnly.step LaneOnly.refl LaneState.modWp_only)) LaneState.modWp_only)
      publishMlim_only) (LaneOnly.ite LaneOnly.refl (LaneOnly.step LaneOnly.refl LaneState.modWp_only))

theorem withdrawals_only {t0 x} : LaneOnly [.wp] x (withdrawals t0 x) := by
  unfold withdrawals
  exact LaneOnly.foldl LaneOnly.refl
    (fun _ _ =>
      LaneOnly.ite LaneOnly.refl
        (LaneOnly.ite (LaneOnly.step LaneOnly.refl LaneState.modMod_only)
          (LaneOnly.ite (LaneOnly.step LaneOnly.refl LaneState.modMod_only) LaneOnly.refl)))

theorem donorRuns_only {t0 x} : LaneOnly [.wp] x (donorRuns t0 x) := by
  unfold donorRuns
  exact LaneOnly.step LaneOnly.refl LaneState.modWp_only

theorem placeMoves_only {t0 a0 x a1 a2 a3} : LaneOnly [.wp] x (placeMoves t0 a0 x a1 a2 a3).1 := by
  induction a0 generalizing x a1 a2 a3 with
  | zero => exact LaneOnly.refl
  | succ n ih =>
    unfold placeMoves
    repeat' first
      | exact LaneOnly.refl
      | exact ih
      | exact LaneOnly.trans (LaneOnly.step LaneOnly.refl LaneState.modMod_only) ih
      | split
      | dsimp only

theorem reassessLane_only {t0 x} : LaneOnly [.wp] x (reassessLane t0 x) := by
  unfold reassessLane
  exact LaneOnly.step (LaneOnly.step (LaneOnly.step (LaneOnly.step LaneOnly.refl donorRuns_only) withdrawals_only) placeMoves_only)
    LaneState.modWp_only

theorem reassessmentEffect_only {l s} :
    Only [] l [.wp] [] s (reassessmentEffect l s) := by
  unfold reassessmentEffect
  exact Only.ite (Only.modLane Only.refl (fun _ => LaneOnly.step LaneOnly.refl reassessLane_only)) Only.refl

theorem copyTile_only {a0 a1 x} : LaneOnly [.tiles] x (copyTile a0 a1 x) := by
  unfold copyTile
  exact LaneOnly.step LaneOnly.refl LaneState.modTile_only

theorem movePlaces_only {a0 a1 x} : LaneOnly [.bayLoops, .modLoops, .strLoops, .slowLoops] x (movePlaces a0 a1 x) := by
  unfold movePlaces
  exact LaneOnly.foldl LaneOnly.refl (fun _ _ => LaneOnly.step LaneOnly.refl LaneState.modLoop_only)

theorem rotatingTestLane_only {a0 x} : LaneOnly [.ctl, .health, .tiles, .bayLoops, .modLoops, .strLoops, .slowLoops,
      .wp] x (rotatingTestLane a0 x) := by
  unfold rotatingTestLane
  exact LaneOnly.ite LaneOnly.refl
    (by
      split
      · exact LaneOnly.refl
      · exact LaneOnly.step
          (LaneOnly.step
            (LaneOnly.step
              (LaneOnly.step (LaneOnly.step (LaneOnly.step LaneOnly.refl movePlaces_only) copyTile_only)
                LaneState.modTile_only) LaneState.modTile_only) (LaneOnly.parts (qs := [.ctl, .health])))
          LaneState.modWp_only)

theorem spareTakeoverLane_only {x} : LaneOnly [.tiles, .bayLoops, .modLoops, .strLoops, .slowLoops,
      .wp] x (spareTakeoverLane x) := by
  unfold spareTakeoverLane
  split
  · exact LaneOnly.step
      (LaneOnly.step (LaneOnly.step (LaneOnly.step LaneOnly.refl movePlaces_only) LaneState.modTile_only)
        LaneState.modTile_only) LaneState.modWp_only
  · exact LaneOnly.refl

theorem thetaWindowLane_only {t0 a1 x} : LaneOnly [.wp, .evq] x (thetaWindowLane t0 a1 x) := by
  unfold thetaWindowLane
  exact LaneOnly.ite
    (LaneOnly.step (LaneOnly.step (LaneOnly.step LaneOnly.refl LaneState.modMod_only) retireDecision_only)
      LaneState.modMod_only) (LaneOnly.step LaneOnly.refl LaneState.modMod_only)

theorem replaceLoop_only {t0 a1 a2 x} : LaneOnly [.tiles, .bayLoops, .modLoops, .strLoops,
      .slowLoops] x (replaceLoop t0 a1 a2 x) := by
  unfold replaceLoop
  dsimp only; split
  · exact LaneOnly.step (LaneOnly.step LaneOnly.refl LaneState.modLoop_only) placeLoop_only
  · exact LaneOnly.step
      (LaneOnly.ite
        (LaneOnly.step (LaneOnly.step (LaneOnly.step LaneOnly.refl LaneState.modLoop_only) placeLoop_only)
          restartLoop_only) (LaneOnly.step (LaneOnly.step LaneOnly.refl LaneState.modLoop_only) placeLoop_only))
      LaneState.modTile_only

theorem loseTile_only {t0 a1 x} : LaneOnly [.tiles, .bayLoops, .modLoops, .strLoops, .slowLoops] x (loseTile t0 a1 x) := by
  unfold loseTile
  exact LaneOnly.ite
    (by
      split
      · exact LaneOnly.step LaneOnly.refl LaneState.modTile_only
      · exact LaneOnly.foldl
          (LaneOnly.step
            (LaneOnly.step (LaneOnly.step (LaneOnly.step LaneOnly.refl movePlaces_only) copyTile_only)
              LaneState.modTile_only) LaneState.modTile_only) (fun _ _ => LaneOnly.step LaneOnly.refl replaceLoop_only))
    (LaneOnly.foldl (LaneOnly.step LaneOnly.refl LaneState.modTile_only)
      (fun _ _ => LaneOnly.step LaneOnly.refl replaceLoop_only))

theorem clearBad_only {a0 x} : LaneOnly [.tiles, .bayLoops, .modLoops, .strLoops, .slowLoops] x (clearBad a0 x) := by
  unfold clearBad
  exact LaneOnly.foldl LaneOnly.refl
    (fun _ _ =>
      LaneOnly.ite
        (by
          split
          · exact LaneOnly.ite (LaneOnly.step LaneOnly.refl LaneState.modTile_only)
              (LaneOnly.step (LaneOnly.step LaneOnly.refl LaneState.modTile_only) restartLoop_only)
          · exact LaneOnly.step LaneOnly.refl LaneState.modTile_only) LaneOnly.refl)

theorem tileReliefLane_only {t0 a1 x} : LaneOnly [.tiles, .bayLoops, .modLoops, .strLoops, .slowLoops,
      .wp] x (tileReliefLane t0 a1 x) := by
  unfold tileReliefLane
  exact LaneOnly.ite LaneOnly.refl
    (by
      split
      · exact LaneOnly.step LaneOnly.refl loseTile_only
      · exact LaneOnly.step
          (LaneOnly.step (LaneOnly.step (LaneOnly.step LaneOnly.refl copyTile_only) clearBad_only) LaneState.modTile_only)
          LaneState.modWp_only)

theorem tileTestLane_only {a0 a1 x} : LaneOnly [.ctl, .health, .tiles, .evq] x (tileTestLane a0 a1 x) := by
  unfold tileTestLane
  exact LaneOnly.ite LaneOnly.refl
    (LaneOnly.ite
      (LaneOnly.step (LaneOnly.step LaneOnly.refl LaneState.modTile_only) (LaneOnly.parts (qs := [.ctl, .health])))
      (LaneOnly.step
        (LaneOnly.step (LaneOnly.step LaneOnly.refl LaneState.modTile_only) (LaneOnly.parts (qs := [.ctl, .health])))
        LaneState.event_only))

end Sys2Proof.Machine
end

