-- ==== Sys2Proof/Laws/Links.lean ====
section
/-! SUPPORT. What each operation of Machine/Links.lean can change: one lemma for each function on the block or a lane, to be cited in
place of unfolding it. -/

namespace Sys2Proof.Machine

set_option Elab.async false

theorem linkTo_only {a0 a1 x} : LaneOnly [.links, .evq] x (linkTo a0 a1 x) := by
  unfold linkTo
  exact LaneOnly.step (LaneOnly.step LaneOnly.refl LaneState.modLink_only) LaneState.event_only

theorem linkSyncLane_only {t0 a1 x} : LaneOnly [.links, .evq] x (linkSyncLane t0 a1 x) := by
  unfold linkSyncLane
  exact LaneOnly.ite
    (LaneOnly.step (LaneOnly.step (LaneOnly.step LaneOnly.refl LaneState.modLink_only) LaneState.modLink_only) linkTo_only)
    (LaneOnly.step LaneOnly.refl LaneState.modLink_only)

theorem reactWords_only {t0 a1 x} : LaneOnly [.links, .bayLoops, .modLoops, .strLoops, .slowLoops] x (reactWords t0 a1 x) := by
  unfold reactWords
  split
  · exact by
      split
      · exact LaneOnly.ite (LaneOnly.step (LaneOnly.step LaneOnly.refl LaneState.modLink_only) LaneState.modLoop_only)
          (LaneOnly.step LaneOnly.refl LaneState.modLink_only)
      · exact LaneOnly.step LaneOnly.refl LaneState.modLink_only
  · exact LaneOnly.step LaneOnly.refl LaneState.modLink_only

theorem failLink_only {l a0 a1 s} :
    Only [] l [.links, .bayLoops, .modLoops, .strLoops, .slowLoops, .evq] [] s (failLink l a0 a1 s) := by
  unfold failLink
  exact Only.setLane Only.refl
    (LaneOnly.step
      (LaneOnly.step (LaneOnly.step (LaneOnly.step LaneOnly.refl LaneState.modLink_only) linkTo_only) LaneState.event_only)
      reactWords_only)

theorem linkFailEffect_only {l a0 a1 s} :
    Only [] l [.links, .bayLoops, .modLoops, .strLoops, .slowLoops, .evq] [] s (linkFailEffect l a0 a1 s) := by
  unfold linkFailEffect
  exact Only.ite (Only.step Only.refl failLink_only) Only.refl

theorem toAcquire_only {a0 a1 x} : LaneOnly [.links, .evq] x (toAcquire a0 a1 x) := by
  unfold toAcquire
  exact LaneOnly.step (LaneOnly.step LaneOnly.refl LaneState.modLink_only) linkTo_only

theorem linkRetryLane_only {a0 x} : LaneOnly [.links, .evq] x (linkRetryLane a0 x) := by
  unfold linkRetryLane
  exact LaneOnly.ite (LaneOnly.step LaneOnly.refl toAcquire_only) LaneOnly.refl

theorem linkSyncLostEffect_only {l a0 s} :
    Only [] l [.links, .bayLoops, .modLoops, .strLoops, .slowLoops, .evq] [] s (linkSyncLostEffect l a0 s) := by
  unfold linkSyncLostEffect
  dsimp only; split
  · exact Only.step (Only.modLane Only.refl (fun _ => LaneOnly.step LaneOnly.refl LaneState.modLink_only)) failLink_only
  · exact Only.ite (Only.modLane Only.refl (fun _ => LaneOnly.step LaneOnly.refl LaneState.modLink_only))
      (Only.modLane (Only.modLane Only.refl (fun _ => LaneOnly.step LaneOnly.refl LaneState.modLink_only))
        (fun _ => LaneOnly.step LaneOnly.refl linkTo_only))
  · exact Only.modLane Only.refl (fun _ => LaneOnly.step LaneOnly.refl LaneState.modLink_only)
  · exact Only.modLane (Only.modLane Only.refl (fun _ => LaneOnly.step LaneOnly.refl LaneState.modLink_only))
      (fun _ => LaneOnly.step (LaneOnly.step LaneOnly.refl LaneState.modLink_only) linkTo_only)

theorem storeFrame_only {t0 a1 a2 x} : LaneOnly [.bank0, .bank1, .links] x (storeFrame t0 a1 a2 x) := by
  unfold storeFrame
  exact LaneOnly.ite LaneOnly.refl (LaneOnly.step (LaneOnly.step LaneOnly.refl modCurBank_only) LaneState.modLink_only)

theorem linkUpLane_only {t0 a1 x} : LaneOnly [.bank0, .bank1, .links, .evq] x (linkUpLane t0 a1 x) := by
  unfold linkUpLane
  dsimp only; split
  · exact LaneOnly.ite
      (LaneOnly.step (LaneOnly.step (LaneOnly.step LaneOnly.refl LaneState.modLink_only) linkTo_only) storeFrame_only)
      LaneOnly.refl
  · exact LaneOnly.refl

theorem linkBack_only {t0 a1 x} : LaneOnly [.links, .bayLoops, .modLoops, .strLoops, .slowLoops] x (linkBack t0 a1 x) := by
  unfold linkBack
  exact LaneOnly.foldl (LaneOnly.step LaneOnly.refl LaneState.modLink_only)
    (fun _ _ => LaneOnly.ite LaneOnly.refl (LaneOnly.step LaneOnly.refl restartLoop_only))

theorem takeBackLane_only {t0 x} : LaneOnly [.links, .bayLoops, .modLoops, .strLoops, .slowLoops] x (takeBackLane t0 x) := by
  unfold takeBackLane
  exact LaneOnly.ite
    (LaneOnly.foldl LaneOnly.refl (fun _ _ => LaneOnly.ite (LaneOnly.step LaneOnly.refl linkBack_only) LaneOnly.refl))
    LaneOnly.refl

theorem cabinetLost_only {t0 a1 x} : LaneOnly [.bayLoops, .modLoops, .strLoops, .slowLoops, .wp,
      .evq] x (cabinetLost t0 a1 x) := by
  unfold cabinetLost
  exact LaneOnly.foldl LaneOnly.refl
    (fun _ _ =>
      LaneOnly.ite LaneOnly.refl
        (LaneOnly.ite
          (LaneOnly.step
            (LaneOnly.trans
              (LaneOnly.ite (LaneOnly.step (LaneOnly.step LaneOnly.refl abandon_only) LaneState.event_only) LaneOnly.refl)
              (onModuleLoop_only (fun _ _ => LaneOnly.step LaneOnly.refl loopOff_only))) LaneState.modMod_only)
          (LaneOnly.step
            (LaneOnly.trans
              (LaneOnly.ite (LaneOnly.step (LaneOnly.step LaneOnly.refl abandon_only) LaneState.event_only) LaneOnly.refl)
              (onModuleLoop_only (fun _ _ => LaneOnly.step LaneOnly.refl loopOff_only))) LaneState.modMod_only)))

theorem headLost_only {a0 x} : LaneOnly [.bayLoops, .modLoops, .strLoops, .slowLoops] x (headLost a0 x) := by
  unfold headLost
  split
  · exact LaneOnly.step LaneOnly.refl loopOff_only
  · exact LaneOnly.refl

theorem converterLost_only {t0 a1 x} : LaneOnly [.bayLoops, .modLoops, .strLoops, .slowLoops,
      .share] x (converterLost t0 a1 x) := by
  unfold converterLost
  exact LaneOnly.share (by split <;> [exact LaneOnly.step LaneOnly.refl loopOff_only; exact LaneOnly.refl])

theorem reactLane_only {t0 a1 x} : LaneOnly [.links, .bayLoops, .modLoops, .strLoops, .slowLoops, .share, .wp,
      .evq] x (reactLane t0 a1 x) := by
  unfold reactLane
  dsimp only; split
  · exact LaneOnly.ite
      (LaneOnly.step
        (by
          split
          · exact LaneOnly.ite
              (LaneOnly.step
                (by
                  split
                  · exact LaneOnly.ite
                      (LaneOnly.step (LaneOnly.step LaneOnly.refl LaneState.modLink_only) cabinetLost_only)
                      (LaneOnly.step LaneOnly.refl LaneState.modLink_only)
                  · exact LaneOnly.step LaneOnly.refl LaneState.modLink_only) headLost_only)
              (by
                split
                · exact LaneOnly.ite (LaneOnly.step (LaneOnly.step LaneOnly.refl LaneState.modLink_only) cabinetLost_only)
                    (LaneOnly.step LaneOnly.refl LaneState.modLink_only)
                · exact LaneOnly.step LaneOnly.refl LaneState.modLink_only)
          · exact by
              split
              · exact LaneOnly.ite (LaneOnly.step (LaneOnly.step LaneOnly.refl LaneState.modLink_only) cabinetLost_only)
                  (LaneOnly.step LaneOnly.refl LaneState.modLink_only)
              · exact LaneOnly.step LaneOnly.refl LaneState.modLink_only) converterLost_only)
      (by
        split
        · exact LaneOnly.ite
            (LaneOnly.step
              (by
                split
                · exact LaneOnly.ite (LaneOnly.step (LaneOnly.step LaneOnly.refl LaneState.modLink_only) cabinetLost_only)
                    (LaneOnly.step LaneOnly.refl LaneState.modLink_only)
                · exact LaneOnly.step LaneOnly.refl LaneState.modLink_only) headLost_only)
            (by
              split
              · exact LaneOnly.ite (LaneOnly.step (LaneOnly.step LaneOnly.refl LaneState.modLink_only) cabinetLost_only)
                  (LaneOnly.step LaneOnly.refl LaneState.modLink_only)
              · exact LaneOnly.step LaneOnly.refl LaneState.modLink_only)
        · exact by
            split
            · exact LaneOnly.ite (LaneOnly.step (LaneOnly.step LaneOnly.refl LaneState.modLink_only) cabinetLost_only)
                (LaneOnly.step LaneOnly.refl LaneState.modLink_only)
            · exact LaneOnly.step LaneOnly.refl LaneState.modLink_only)
  · exact by
      split
      · exact LaneOnly.ite
          (LaneOnly.step
            (by
              split
              · exact LaneOnly.ite (LaneOnly.step (LaneOnly.step LaneOnly.refl LaneState.modLink_only) cabinetLost_only)
                  (LaneOnly.step LaneOnly.refl LaneState.modLink_only)
              · exact LaneOnly.step LaneOnly.refl LaneState.modLink_only) headLost_only)
          (by
            split
            · exact LaneOnly.ite (LaneOnly.step (LaneOnly.step LaneOnly.refl LaneState.modLink_only) cabinetLost_only)
                (LaneOnly.step LaneOnly.refl LaneState.modLink_only)
            · exact LaneOnly.step LaneOnly.refl LaneState.modLink_only)
      · exact by
          split
          · exact LaneOnly.ite (LaneOnly.step (LaneOnly.step LaneOnly.refl LaneState.modLink_only) cabinetLost_only)
              (LaneOnly.step LaneOnly.refl LaneState.modLink_only)
          · exact LaneOnly.step LaneOnly.refl LaneState.modLink_only

theorem reactDueLane_only {t0 x} : LaneOnly [.links, .bayLoops, .modLoops, .strLoops, .slowLoops, .share, .wp,
      .evq] x (reactDueLane t0 x) := by
  unfold reactDueLane
  exact LaneOnly.foldl LaneOnly.refl (fun _ _ => LaneOnly.ite (LaneOnly.step LaneOnly.refl reactLane_only) LaneOnly.refl)

theorem reactSession_only {l a0 s} :
    Only [.met, .veh] l [.evq] [.evq] s (reactSession l a0 s) := by
  unfold reactSession
  exact Only.ite (by split <;> [exact Only.step Only.refl endBaySession_only; exact Only.refl]) Only.refl

theorem linkReactions_only {s l} :
    Only [.met, .veh] l [.links, .bayLoops, .modLoops, .strLoops, .slowLoops, .share, .wp, .evq] [.links, .bayLoops,
      .modLoops, .strLoops, .slowLoops, .share, .wp, .evq] s (linkReactions s) := by
  unfold linkReactions
  split
  · exact Only.foldl
      (Only.bothLanes Only.refl (fun _ => LaneOnly.step (LaneOnly.step LaneOnly.refl reactDueLane_only) takeBackLane_only))
      (fun _ _ => Only.ite (Only.stepAny Only.refl reactSession_only) Only.refl)
  · exact Only.bothLanes Only.refl
      (fun _ => LaneOnly.step (LaneOnly.step LaneOnly.refl reactDueLane_only) takeBackLane_only)

theorem seqAdoptLane_only {a0 x} : LaneOnly [.links, .evq] x (seqAdoptLane a0 x) := by
  unfold seqAdoptLane
  exact LaneOnly.ite (LaneOnly.step (LaneOnly.step LaneOnly.refl LaneState.modLink_only) LaneState.event_only)
    LaneOnly.refl

theorem receiveLane_only {t0 a1 a2 x} : LaneOnly [.bank0, .bank1, .links, .evq] x (receiveLane t0 a1 a2 x) := by
  unfold receiveLane
  exact LaneOnly.ite LaneOnly.refl
    (by
      split
      · exact LaneOnly.ite
          (LaneOnly.step (LaneOnly.step (LaneOnly.step LaneOnly.refl LaneState.modLink_only) toAcquire_only)
            LaneState.modLink_only) (LaneOnly.step LaneOnly.refl LaneState.modLink_only)
      · exact LaneOnly.ite (LaneOnly.step LaneOnly.refl LaneState.modLink_only)
          (LaneOnly.ite
            (LaneOnly.step
              (LaneOnly.ite (LaneOnly.step LaneOnly.refl LaneState.modLink_only)
                (LaneOnly.step (LaneOnly.step LaneOnly.refl LaneState.modLink_only) LaneState.modLink_only))
              LaneState.modLink_only)
            (LaneOnly.ite
              (LaneOnly.step
                (LaneOnly.ite (LaneOnly.step LaneOnly.refl LaneState.modLink_only)
                  (LaneOnly.step (LaneOnly.step LaneOnly.refl LaneState.modLink_only) LaneState.modLink_only))
                LaneState.modLink_only)
              (LaneOnly.ite (LaneOnly.step LaneOnly.refl LaneState.modLink_only)
                (LaneOnly.step (LaneOnly.step LaneOnly.refl LaneState.modLink_only) LaneState.modLink_only))))
      · exact LaneOnly.ite (LaneOnly.step LaneOnly.refl LaneState.modLink_only)
          (by
            split
            · exact LaneOnly.step (LaneOnly.step LaneOnly.refl LaneState.modLink_only) storeFrame_only
            · exact LaneOnly.step (LaneOnly.step LaneOnly.refl LaneState.modLink_only) LaneState.modLink_only
            · exact LaneOnly.step LaneOnly.refl LaneState.modLink_only)
      · exact LaneOnly.step LaneOnly.refl LaneState.modLink_only)

end Sys2Proof.Machine
end

