-- ==== Sys2Proof/Laws/Storage.lean ====
section
/-! SUPPORT. What each operation of Machine/Storage.lean can change: one lemma for each function on the block or a lane, to be cited in
place of unfolding it. -/

namespace Sys2Proof.Machine

set_option Elab.async false

theorem modNand_only {a0 s l} :
    Only [.nand] l [] [] s (modNand a0 s) := by
  unfold modNand
  exact Only.nand Only.refl

theorem archive_only {a0 a1 s l} :
    Only [.clk, .nand] l [.evq] [.evq] s (archive a0 a1 s) := by
  unfold archive
  exact Only.ite (Only.step (Only.step Only.refl modNand_only) recheckSpares_only) Only.refl

theorem scrubRestart_only {s l} :
    Only [.bk, .nand] l [] [] s (scrubRestart s) := by
  unfold scrubRestart
  exact Only.bk (Only.ite (Only.step Only.refl modNand_only) Only.refl)

theorem nandBoot_only {l a0 s} :
    Only [.bk, .nand] l [.evq] [] s (nandBoot l a0 s) := by
  unfold nandBoot
  exact Only.ite (Only.step (Only.step Only.refl modNand_only) scrubRestart_only)
    (Only.step (Only.step Only.refl modNand_only) evtLane_only)

theorem loadProfileEffect_only {s l} :
    Only [.free, .clk, .nand] l [.evq] [.evq] s (loadProfileEffect s) := by
  unfold loadProfileEffect
  exact Only.ite (Only.step (Only.step (Only.step Only.refl State.useFree_only) archive_only) modNand_only) Only.refl

theorem nandAllocateEffect_only {a0 s l} :
    Only [.clk, .nand] l [.evq] [.evq] s (nandAllocateEffect a0 s) := by
  unfold nandAllocateEffect
  exact Only.ite (Only.step (Only.step Only.refl modNand_only) recheckSpares_only) Only.refl

theorem nandAnswer_only {a0 a1 s l} :
    Only [.nand] l [] [] s (nandAnswer a0 a1 s) := by
  unfold nandAnswer
  exact Only.step Only.refl modNand_only

theorem slotBad_only {a0 s l} :
    Only [] l [.slots] [.slots] s (slotBad a0 s) := by
  unfold slotBad
  split
  · exact Only.modAny Only.refl (fun _ => LaneOnly.slots LaneOnly.refl) (fun _ => LaneOnly.slots LaneOnly.refl)
  · exact Only.modAny Only.refl (fun _ => LaneOnly.slots LaneOnly.refl) (fun _ => LaneOnly.slots LaneOnly.refl)
  · exact Only.refl

theorem growBad_only {a0 a1 s l} :
    Only [.clk, .nand] l [.evq, .slots] [.evq, .slots] s (growBad a0 a1 s) := by
  unfold growBad
  exact Only.step (Only.step (Only.step (Only.step Only.refl modNand_only) slotBad_only) evt_only) recheckSpares_only

theorem nandRead_only {a0 a1 a2 a3 s l} :
    Only [.free, .clk, .nand] l [.evq, .slots] [.evq, .slots] s (nandRead a0 a1 a2 a3 s) := by
  unfold nandRead
  dsimp only; split
  · exact Only.step (Only.step (Only.step (Only.step Only.refl modNand_only) State.useFree_only) modNand_only)
      nandAnswer_only
  · exact Only.ite
      (Only.step (Only.step (Only.step (Only.step Only.refl modNand_only) State.useFree_only) nandAnswer_only)
        growBad_only)
      (Only.step
        (Only.step (Only.step (Only.step (Only.step Only.refl modNand_only) State.useFree_only) modNand_only)
          nandAnswer_only) growBad_only)

theorem nandRequestEffect_only {a0 a1 a2 s l} :
    Only [.free, .clk, .nand] l [.evq, .slots] [.evq, .slots] s (nandRequestEffect a0 a1 a2 s) := by
  unfold nandRequestEffect
  exact Only.ite Only.refl
    (by
      split
      · exact Only.ite (Only.step Only.refl nandRead_only) (Only.step Only.refl nandAnswer_only)
      · exact Only.ite (Only.step Only.refl nandAnswer_only)
          (Only.ite (Only.step Only.refl nandAnswer_only)
            (Only.ite (Only.step (Only.step Only.refl nandAnswer_only) growBad_only)
              (Only.step (Only.step Only.refl modNand_only) nandAnswer_only)))
      · exact Only.ite (Only.step Only.refl nandAnswer_only)
          (Only.ite (Only.step (Only.step Only.refl nandAnswer_only) growBad_only)
            (Only.step (Only.step Only.refl modNand_only) nandAnswer_only)))

theorem nandRelocationEffect_only {s l} :
    Only [.clk, .nand] l [.evq] [.evq] s (nandRelocationEffect s) := by
  unfold nandRelocationEffect
  split
  · exact Only.ite (Only.step (Only.step Only.refl modNand_only) recheckSpares_only) Only.refl
  · exact Only.refl

theorem writeSigned_only {s a0 l} :
    Only [.clk, .nand] l [.evq] [.evq] s (writeSigned s a0) := by
  unfold writeSigned
  exact Only.step (Only.step Only.refl archive_only) modNand_only

theorem flushSigned_only {l s} :
    Only [.clk, .nand] l [.evq, .signed] [.evq] s (flushSigned l s) := by
  unfold flushSigned
  exact Only.ite
    (Only.modLane (Only.foldl Only.refl (fun _ _ => Only.step Only.refl writeSigned_only))
      (fun _ => LaneOnly.signed LaneOnly.refl)) (Only.modLane Only.refl (fun _ => LaneOnly.signed LaneOnly.refl))

theorem refresh_only {a0 s l} :
    Only [.clk, .nand] l [.evq] [.evq] s (refresh a0 s) := by
  unfold refresh
  exact Only.step (Only.step Only.refl modNand_only) recheckSpares_only

theorem readDisturbEffect_only {a0 s l} :
    Only [.clk, .nand] l [.evq] [.evq] s (readDisturbEffect a0 s) := by
  unfold readDisturbEffect
  exact Only.ite (Only.step Only.refl refresh_only) Only.refl

theorem scrubEffect_only {a0 a1 a2 s l} :
    Only [.clk, .nand] l [.evq] [.evq] s (scrubEffect a0 a1 a2 s) := by
  unfold scrubEffect
  exact Only.ite (Only.ite (Only.step (Only.step Only.refl modNand_only) refresh_only) (Only.step Only.refl modNand_only))
    Only.refl

end Sys2Proof.Machine
end

