-- ==== Sys2Proof/Laws/Recorder.lean ====
section
/-! SUPPORT. What each operation of Machine/Recorder.lean can change: one lemma for each function on the block or a lane, to be cited in
place of unfolding it. -/

namespace Sys2Proof.Machine

set_option Elab.async false

theorem archiveLane_only {l s} :
    Only [.clk, .nand] l [.evq, .recd] [.evq] s (archiveLane l s) := by
  unfold archiveLane
  exact Only.ite Only.refl (Only.modLane (Only.step Only.refl archive_only) (fun _ => LaneOnly.recd LaneOnly.refl))

theorem eventArchiveEffect_only {s l} :
    Only [.clk, .nand] l [.evq, .recd] [.evq, .recd] s (eventArchiveEffect s) := by
  unfold eventArchiveEffect
  exact Only.ite (Only.stepAny (Only.stepAny Only.refl archiveLane_only) archiveLane_only) Only.refl

theorem clearLane_only {l s} :
    Only [] l [.evq, .recd] [] s (clearLane l s) := by
  unfold clearLane
  exact Only.modLane Only.refl (fun _ => LaneOnly.step LaneOnly.refl (LaneOnly.parts (qs := [.evq, .recd])))

theorem eventClearEffect_only {a0 s l} :
    Only [] l [.evq, .recd] [.evq, .recd] s (eventClearEffect a0 s) := by
  unfold eventClearEffect
  exact Only.ite (Only.stepAny (Only.ite (Only.stepAny Only.refl clearLane_only) Only.refl) clearLane_only)
    (Only.ite (Only.stepAny Only.refl clearLane_only) Only.refl)

theorem modRecs_only {a0 s l} :
    Only [.recs] l [] [] s (modRecs a0 s) := by
  unfold modRecs
  exact Only.recs Only.refl

theorem flushLane_only {l s} :
    Only [.recs] l [.recd] [] s (flushLane l s) := by
  unfold flushLane
  exact Only.step (Only.modLane Only.refl (fun _ => LaneOnly.recd LaneOnly.refl)) modRecs_only

theorem eventReadEffect_only {s l} :
    Only [.free, .comm, .recs] l [] [] s (eventReadEffect s) := by
  unfold eventReadEffect
  exact Only.step (Only.step (Only.ite (Only.step Only.refl State.useFree_only) Only.refl) modRecs_only) respond_only

theorem recordEvent_only {l a0 a1 a2 a3 s} :
    Only [.recs] l [.recd] [] s (recordEvent l a0 a1 a2 a3 s) := by
  unfold recordEvent
  dsimp only; split
  · exact Only.ite (Only.step Only.refl modRecs_only) (Only.modLane Only.refl (fun _ => LaneOnly.recd LaneOnly.refl))
  · exact Only.step (Only.modLane Only.refl (fun _ => LaneOnly.recd LaneOnly.refl)) modRecs_only

theorem eventWriteEffect_only {l s} :
    Only [.recs] l [.evq, .recd] [] s (eventWriteEffect l s) := by
  unfold eventWriteEffect
  dsimp only; split
  · exact Only.refl
  · exact by
      split
      · exact Only.step (Only.modLane Only.refl (fun _ => LaneOnly.evq LaneOnly.refl)) modRecs_only
      · exact Only.step (Only.modLane Only.refl (fun _ => LaneOnly.evq LaneOnly.refl)) recordEvent_only

theorem checkRecords_only {l s} :
    Only [.recs] l [.recd] [] s (checkRecords l s) := by
  unfold checkRecords
  exact Only.step (Only.modLane Only.refl (fun _ => LaneOnly.recd LaneOnly.refl)) modRecs_only

theorem execEventClear_only {a0 s l} :
    OnlyNext [.comm] l [.evq, .recd] [.evq, .recd] s (execEventClear a0 s) := by
  unfold execEventClear
  exact OnlyNext.next (hostRange_only (fun _ => Only.step Only.refl eventClearEffect_only))

end Sys2Proof.Machine
end

