-- ==== Sys2Proof/Laws/Boot.lean ====
section
/-! SUPPORT. What each operation of Machine/Boot.lean can change: one lemma for each function on the block or a lane, to be cited in
place of unfolding it. -/

namespace Sys2Proof.Machine

set_option Elab.async false

theorem modUpd_only {a0 s l} :
    Only [.upd] l [] [] s (modUpd a0 s) := by
  unfold modUpd
  exact Only.upd Only.refl

theorem firstMessages_only {l s} :
    Only [.free, .bk, .met] l [] [] s (firstMessages l s) := by
  unfold firstMessages
  exact Only.step (Only.step (Only.step Only.refl State.useFree_only) barrierTamperEffect_only) serve_only

theorem eraseRejected_only {s l} :
    Only [.upd] l [] [] s (eraseRejected s) := by
  unfold eraseRejected
  exact Only.step Only.refl modUpd_only

theorem appointEffect_only {s l} :
    Only [.free, .clk, .modes, .bk, .jct, .met, .comm, .chans, .site, .upd] l allButRoles allButRoles s (appointEffect s) := by
  unfold appointEffect
  exact Only.ite Only.refl
    (by
      split
      · exact Only.refl
      · exact Only.step
          (Only.step
            (Only.stepAny
              (Only.step
                (Only.step
                  (Only.modAny
                    (Only.step
                      (Only.ite
                        (Only.stepAny (Only.step (Only.stepAny Only.refl setRole_only) modJct_only) junctionFail_only)
                        (Only.step (Only.stepAny Only.refl setRole_only) modJct_only))
                      (Only.parts (dev := [.clk, .modes, .comm, .chans, .site]))) (fun _ => LaneOnly.ctl LaneOnly.refl)
                    (fun _ => LaneOnly.ctl LaneOnly.refl)) eraseRejected_only) nmtFrame_only) firstMessages_only)
            goMode_only) recheckSpares_only)

theorem junctionBootEffect_only {a0 a1 s l} :
    Only [.jct] l [.health] [.health] s (junctionBootEffect a0 a1 s) := by
  unfold junctionBootEffect
  exact Only.ite
    (Only.ite (Only.bothLanes (Only.step Only.refl modJct_only) (fun _ => LaneOnly.health LaneOnly.refl))
      (Only.step Only.refl modJct_only)) Only.refl

theorem bootStep4_only {l a0 s} :
    Only [.bk] l [.ctl, .evq, .slots] [] s (bootStep4 l a0 s) := by
  unfold bootStep4
  split
  · exact Only.modLane Only.refl (fun _ => LaneOnly.ctl LaneOnly.refl)
  · exact Only.ite
      (Only.step
        (Only.step (Only.modLane Only.refl (fun _ => LaneOnly.step LaneOnly.refl (LaneOnly.parts (qs := [.ctl, .slots]))))
          latchCause_only) evtLane_only)
      (Only.modLane Only.refl (fun _ => LaneOnly.step LaneOnly.refl (LaneOnly.parts (qs := [.ctl, .slots]))))

theorem activateSlot_only {l s} :
    Only [] l [.slots] [] s (activateSlot l s) := by
  unfold activateSlot
  exact Only.ite (Only.modLane Only.refl (fun _ => LaneOnly.slots LaneOnly.refl)) Only.refl

theorem copyImage_only {l a0 s} :
    Only [.nand, .upd] l [.slots] [] s (copyImage l a0 s) := by
  unfold copyImage
  exact Only.step (Only.modLane (Only.step Only.refl modNand_only) (fun _ => LaneOnly.slots LaneOnly.refl)) modUpd_only

theorem rejectImage_only {l a0 a1 s} :
    Only [.upd] l [.evq, .slots] [] s (rejectImage l a0 a1 s) := by
  unfold rejectImage
  exact Only.step (Only.step (Only.modLane Only.refl (fun _ => LaneOnly.slots LaneOnly.refl)) modUpd_only) evtLane_only

theorem stagingBuffer_only {l a0 a1 s} :
    Only [.nand, .upd] l [.evq, .slots] [] s (stagingBuffer l a0 a1 s) := by
  unfold stagingBuffer
  exact Only.ite
    (by
      split
      · exact Only.step Only.refl copyImage_only
      · exact Only.step Only.refl rejectImage_only) Only.refl

theorem bootStep3_only {l a0 s} :
    Only [.bk, .nand, .upd] l [.evq, .slots] [] s (bootStep3 l a0 s) := by
  unfold bootStep3
  exact Only.ite
    (Only.step (Only.step (Only.step (Only.step Only.refl nandBoot_only) stagingBuffer_only) stagingBuffer_only)
      eraseRejected_only)
    (Only.step (Only.step (Only.step Only.refl nandBoot_only) stagingBuffer_only) stagingBuffer_only)

theorem bootLife_only {s l} : Only [.free, .clk, .bk, .life] l [.evq] [.evq] s (bootLife s).1 := by
  unfold bootLife
  dsimp only
  split
  · exact Only.step Only.refl lifeMove_only
  · split
    · split
      · exact Only.step (Only.step (Only.step Only.refl modBk_only) lifeMove_only) latchCause_only
      · exact Only.step Only.refl modBk_only
    · exact Only.refl

theorem bootStep2_only {l s} : Only [.free, .clk, .bk, .life] l [.ctl, .evq, .ks] [.evq, .ks] s (bootStep2 l s) := by
  unfold bootStep2
  refine Only.modLane (Only.modOther (Only.step Only.refl bootLife_only) fun _ => ?_) fun _ =>
    LaneOnly.step LaneOnly.refl (LaneOnly.parts (qs := [.ctl, .ks]))
  exact LaneOnly.ite (LaneOnly.ks LaneOnly.refl) LaneOnly.refl

theorem linksBoot_only {t0 x} : LaneOnly [.links, .evq] x (linksBoot t0 x) := by
  unfold linksBoot
  exact LaneOnly.foldl LaneOnly.refl
    (fun _ _ => LaneOnly.ite (LaneOnly.step LaneOnly.refl linkSyncLane_only) LaneOnly.refl)

theorem buildLane_only {t0 x} : LaneOnly [.links, .tiles, .bayLoops, .modLoops, .strLoops, .slowLoops,
      .evq] x (buildLane t0 x) := by
  unfold buildLane
  exact LaneOnly.tiles (LaneOnly.step (LaneOnly.step LaneOnly.refl linksBoot_only) placeAll_only)

theorem bootStep7_only {l a0 s} :
    Only [.bk, .jct] l allButRoles [] s (bootStep7 l a0 s) := by
  unfold bootStep7
  exact Only.ite (Only.modLane Only.refl (fun _ => LaneOnly.step (LaneOnly.ctl LaneOnly.refl) buildLane_only))
    (Only.ite
      (Only.step (Only.modLane Only.refl (fun _ => LaneOnly.step (LaneOnly.ctl LaneOnly.refl) buildLane_only))
        junctionFail_only)
      (Only.step (Only.modLane Only.refl (fun _ => LaneOnly.step (LaneOnly.ctl LaneOnly.refl) buildLane_only)) modJct_only))

theorem bootStep6_only {l s} :
    Only [.sets] l [.ctl, .evq] [] s (bootStep6 l s) := by
  unfold bootStep6
  exact Only.modLane
    (Only.ite Only.refl
      (Only.ite
        (Only.sets (Only.foldl (Only.ite Only.refl (Only.sets Only.refl)) (fun _ _ => Only.step Only.refl evtLane_only)))
        (Only.ite (Only.ite (Only.sets Only.refl) (Only.step (Only.sets Only.refl) evtLane_only))
          (Only.ite Only.refl (Only.sets Only.refl))))) (fun _ => LaneOnly.ctl LaneOnly.refl)

theorem bootTile_only {a0 x} : LaneOnly [.tiles, .evq] x (bootTile a0 x) := by
  unfold bootTile
  exact LaneOnly.step
    (LaneOnly.step
      (LaneOnly.ite
        (by
          split
          · exact LaneOnly.step LaneOnly.refl LaneState.modTile_only
          · exact LaneOnly.refl) LaneOnly.refl) LaneState.modTile_only) LaneState.event_only

theorem bootStep5_only {a0 x} : LaneOnly [.ctl, .tiles, .evq, .ks] x (bootStep5 a0 x) := by
  unfold bootStep5
  exact LaneOnly.step (LaneOnly.foldl LaneOnly.refl (fun _ _ => LaneOnly.step LaneOnly.refl bootTile_only))
    (LaneOnly.parts (qs := [.ctl, .ks]))

theorem laneBootEffect_only {l a0 s} :
    Only [.free, .clk, .bk, .jct, .sets, .life, .nand, .upd, .recs] l allButRoles [.evq, .ks] s (laneBootEffect l a0 s) := by
  unfold laneBootEffect
  exact Only.ite Only.refl
    (Only.ite (Only.modLane (Only.ite (Only.step Only.refl setRole_only) Only.refl) (fun _ => LaneOnly.ctl LaneOnly.refl))
      (Only.ite
        (Only.step
          (Only.step
            (Only.step (Only.step (Only.ite (Only.step Only.refl setRole_only) Only.refl) bootStep2_only) bootStep3_only)
            activateSlot_only) bootStep4_only)
        (Only.ite
          (Only.step
            (Only.step
              (Only.step
                (Only.step (Only.step (Only.ite (Only.step Only.refl setRole_only) Only.refl) bootStep2_only)
                  bootStep3_only) activateSlot_only) bootStep4_only) junctionFail_only)
          (Only.step
            (Only.step
              (Only.step
                (Only.modLane
                  (Only.step
                    (Only.step
                      (Only.step (Only.step (Only.ite (Only.step Only.refl setRole_only) Only.refl) bootStep2_only)
                        bootStep3_only) activateSlot_only) bootStep4_only)
                  (fun _ => LaneOnly.step LaneOnly.refl bootStep5_only)) checkRecords_only) bootStep6_only) bootStep7_only))))

theorem laneBootTimeoutEffect_only {l s} :
    Only [.bk, .jct] l allButRoles [] s (laneBootTimeoutEffect l s) := by
  unfold laneBootTimeoutEffect
  exact Only.ite
    (Only.ite (Only.step (Only.step Only.refl junctionFail_only) setRole_only) (Only.step Only.refl junctionFail_only))
    Only.refl

theorem laneWatchdogEffect_only {l s} :
    Only [.bk] l allButRoles [] s (laneWatchdogEffect l s) := by
  unfold laneWatchdogEffect
  exact Only.ite Only.refl (Only.step (Only.step Only.refl latchCause_only) resetLane_only)

end Sys2Proof.Machine
end

