-- ==== Sys2Proof/Laws/Can.lean ====
section
/-! SUPPORT. What each operation of Machine/Can.lean can change: one lemma for each function on the block or a lane, to be cited in
place of unfolding it. -/

namespace Sys2Proof.Machine

set_option Elab.async false

theorem wakeChannel_only {a0 a1 s l} :
    Only [.chans] l [.evq] [.evq] s (wakeChannel a0 a1 s) := by
  unfold wakeChannel
  exact Only.step (Only.step Only.refl modChan_only) evt_only

theorem execChannelSleep_only {a0 s l} :
    OnlyNext [.comm, .chans] l [] [] s (execChannelSleep a0 s) := by
  unfold execChannelSleep
  exact OnlyNext.next (hostWrite_only (fun _ => Only.step Only.refl modChan_only))

theorem execChannelWakeCommand_only {a0 s l} :
    OnlyNext [.comm, .chans] l [.evq] [.evq] s (execChannelWakeCommand a0 s) := by
  unfold execChannelWakeCommand
  exact OnlyNext.next (hostWrite_only (fun _ => Only.ite (Only.step Only.refl wakeChannel_only) Only.refl))

theorem execChannelRestart_only {a0 s l} :
    OnlyNext [.comm, .chans] l [] [] s (execChannelRestart a0 s) := by
  unfold execChannelRestart
  exact OnlyNext.next (hostWrite_only (fun _ => Only.step Only.refl modChan_only))

theorem canBusOffEffect_only {a0 s l} :
    Only [.chans] l [.evq] [.evq] s (canBusOffEffect a0 s) := by
  unfold canBusOffEffect
  exact Only.ite (Only.step (Only.step Only.refl modChan_only) evt_only) Only.refl

theorem canFrameSentEffect_only {a0 a1 s l} :
    Only [.chans] l [] [] s (canFrameSentEffect a0 a1 s) := by
  unfold canFrameSentEffect
  exact Only.ite (by split <;> [exact Only.step Only.refl modChan_only; exact Only.refl]) Only.refl

theorem channelWakeEffect_only {a0 a1 s l} :
    Only [.chans] l [.evq] [.evq] s (channelWakeEffect a0 a1 s) := by
  unfold channelWakeEffect
  exact Only.ite Only.refl
    (by
      split
      · exact Only.ite Only.refl (Only.step Only.refl wakeChannel_only)
      · exact Only.ite Only.refl (Only.ite (Only.step Only.refl wakeChannel_only) (Only.step Only.refl modChan_only))
      · exact Only.ite Only.refl (Only.ite (Only.step Only.refl wakeChannel_only) (Only.step Only.refl modChan_only)))

theorem refSendEffect_only {a0 s l} :
    Only [.chans] l [] [] s (refSendEffect a0 s) := by
  unfold refSendEffect
  exact Only.ite (Only.step Only.refl modChan_only) Only.refl

theorem refTime_only {a0 s l} :
    Only [.site] l [.evq] [.evq] s (refTime a0 s) := by
  unfold refTime
  exact Only.ite
    (Only.ite (Only.step (Only.step Only.refl modSite_only) modSite_only)
      (Only.step (Only.step Only.refl modSite_only) reselect_only)) Only.refl

theorem refReceivedEffect_only {a0 a1 s l} :
    Only [.chans, .site] l [.evq] [.evq] s (refReceivedEffect a0 a1 s) := by
  unfold refReceivedEffect
  exact Only.ite Only.refl
    (Only.ite (Only.step Only.refl modChan_only)
      (Only.ite (Only.step (Only.step Only.refl modChan_only) refTime_only) (Only.step Only.refl modChan_only)))

theorem scheduleLostEffect_only {a0 s l} :
    Only [.chans, .site] l [.evq] [.evq] s (scheduleLostEffect a0 s) := by
  unfold scheduleLostEffect
  exact Only.ite
    (Only.ite (Only.step (Only.step (Only.step Only.refl modChan_only) modSite_only) reselect_only)
      (Only.step Only.refl modChan_only)) Only.refl

end Sys2Proof.Machine
end

