-- ==== Sys2Proof/Laws/Capture.lean ====
section
/-! SUPPORT. What each operation of Machine/Capture.lean can change: one lemma for each function on the block or a lane, to be cited in
place of unfolding it. -/

namespace Sys2Proof.Machine

set_option Elab.async false

theorem modCap_only {a0 s l} :
    Only [.clk] l [] [] s (modCap a0 s) := by
  unfold modCap
  exact Only.clk Only.refl

theorem captureTriggered_only {a0 s l} :
    Only [.clk] l [] [] s (captureTriggered a0 s) := by
  unfold captureTriggered
  exact Only.step Only.refl modCap_only

theorem captureArmEffect_only {s l} :
    Only [.clk] l [] [] s (captureArmEffect s) := by
  unfold captureArmEffect
  exact Only.ite (Only.step (Only.step Only.refl modCap_only) captureTriggered_only) (Only.step Only.refl modCap_only)

theorem captureCompleteEffect_only {s l} :
    Only [.clk] l [] [] s (captureCompleteEffect s) := by
  unfold captureCompleteEffect
  exact Only.ite (Only.step Only.refl modCap_only) Only.refl

theorem captureForceEffect_only {s l} :
    Only [.clk] l [] [] s (captureForceEffect s) := by
  unfold captureForceEffect
  exact Only.ite (Only.step Only.refl captureTriggered_only) Only.refl

theorem captureStopEffect_only {s l} :
    Only [.clk] l [] [] s (captureStopEffect s) := by
  unfold captureStopEffect
  exact Only.ite (Only.step Only.refl modCap_only) Only.refl

theorem captureTriggerEffect_only {s l} :
    Only [.clk] l [] [] s (captureTriggerEffect s) := by
  unfold captureTriggerEffect
  exact Only.ite (Only.step Only.refl captureTriggered_only) Only.refl

theorem execCaptureArm_only {s l} :
    OnlyNext [.clk, .comm] l [] [] s (execCaptureArm s) := by
  unfold execCaptureArm
  exact OnlyNext.next (hostWrite_only (fun _ => Only.step Only.refl captureArmEffect_only))

theorem execCaptureForceTrigger_only {s l} :
    OnlyNext [.clk, .comm] l [] [] s (execCaptureForceTrigger s) := by
  unfold execCaptureForceTrigger
  exact OnlyNext.next (hostWrite_only (fun _ => Only.step Only.refl captureForceEffect_only))

theorem execCaptureStop_only {s l} :
    OnlyNext [.clk, .comm] l [] [] s (execCaptureStop s) := by
  unfold execCaptureStop
  exact OnlyNext.next (hostWrite_only (fun _ => Only.step Only.refl captureStopEffect_only))

theorem captureAbort_only {a0 s l} :
    Only [.clk] l [] [] s (captureAbort a0 s) := by
  unfold captureAbort
  exact Only.ite (Only.step Only.refl modCap_only) Only.refl

theorem capturePeriod_only {s l} :
    Only [.clk] l [] [] s (capturePeriod s) := by
  unfold capturePeriod
  exact Only.ite (Only.step Only.refl modCap_only) Only.refl

theorem captureGuard_only {t0 s l} :
    Only [.clk] l [] [] s (captureGuard t0 s) := by
  unfold captureGuard
  split
  · exact Only.ite (Only.step Only.refl captureAbort_only) Only.refl
  · exact Only.refl

end Sys2Proof.Machine
end

