-- ==== Sys2Proof/Laws/Modes.lean ====
section
/-! SUPPORT. What each operation of Machine/Modes.lean can change: one lemma for each function on the block or a lane, to be cited in
place of unfolding it. -/

namespace Sys2Proof.Machine

set_option Elab.async false

theorem modModes_only {a0 s l} :
    Only [.modes] l [] [] s (modModes a0 s) := by
  unfold modModes
  exact Only.modes Only.refl

theorem startTransition_only {a0 a1 s l} :
    Only [.modes] l [] [] s (startTransition a0 a1 s) := by
  unfold startTransition
  exact Only.step Only.refl modModes_only

theorem disableAll_only {x} : LaneOnly [.bayLoops, .modLoops, .strLoops, .slowLoops] x (disableAll x) := by
  unfold disableAll
  exact LaneOnly.foldl LaneOnly.refl (fun _ _ => LaneOnly.step LaneOnly.refl disableLoop_only)

theorem toIdle_only {s l} :
    Only [.modes, .met, .veh] l [.bayLoops, .modLoops, .strLoops, .slowLoops, .evq] [.bayLoops, .modLoops, .strLoops,
      .slowLoops, .evq] s (toIdle s) := by
  unfold toIdle
  exact Only.step
    (Only.bothLanes (Only.step Only.refl endAllSessions_only) (fun _ => LaneOnly.step LaneOnly.refl disableAll_only))
    startTransition_only

theorem modeResult_only {a0 s l} :
    Only [.modes] l [] [] s (modeResult a0 s) := by
  unfold modeResult
  exact Only.step Only.refl modModes_only

theorem modeRequestEffect_only {a0 s l} :
    Only [.modes] l [] [] s (modeRequestEffect a0 s) := by
  unfold modeRequestEffect
  exact Only.ite (Only.step Only.refl modeResult_only) (Only.step Only.refl modModes_only)

theorem execModeRequestWrite_only {a0 s l} :
    OnlyNext [.modes, .comm] l [] [] s (execModeRequestWrite a0 s) := by
  unfold execModeRequestWrite
  exact OnlyNext.next (hostWrite_only (fun _ => Only.step Only.refl modeRequestEffect_only))

theorem resetRequestEffect_only {a0 s l} :
    Only [.free, .clk, .modes, .rails, .bk, .jct, .sets, .comm, .veh, .chans, .site, .tri, .life, .fs, .nand, .upd,
      .recs, .taps] l allLane allLane s (resetRequestEffect a0 s) := by
  unfold resetRequestEffect
  exact Only.ite Only.refl
    (Only.ite (Only.step (Only.step Only.refl safeExit_only) plainReset_only)
      (Only.step (Only.step Only.refl takeSafe_only) modModes_only))

theorem execResetRequest_only {a0 s l} :
    OnlyNext [.free, .clk, .modes, .rails, .bk, .jct, .sets, .comm, .veh, .chans, .site, .tri, .life, .fs, .nand,
      .upd, .recs, .taps] l allLane allLane s (execResetRequest a0 s) := by
  unfold execResetRequest
  exact OnlyNext.next (hostWrite_only (fun _ => Only.step Only.refl resetRequestEffect_only))

theorem execResetCauseClear_only {a0 s l} :
    OnlyNext [.bk, .comm] l [] [] s (execResetCauseClear a0 s) := by
  unfold execResetCauseClear
  exact OnlyNext.next (hostWrite_only (fun _ => Only.step Only.refl modBk_only))

theorem requestRun_only {s l} :
    Only [.modes] l [] [] s (requestRun s) := by
  unfold requestRun
  exact Only.ite (Only.step Only.refl modeResult_only)
    (Only.ite (Only.step Only.refl modeResult_only) (Only.step Only.refl startTransition_only))

theorem sleepSequence_only {s l} :
    Only [.free, .modes, .bk, .jct, .comm, .chans, .recs] l [.bayLoops, .modLoops, .strLoops, .slowLoops, .evq,
      .recd] [.bayLoops, .modLoops, .strLoops, .slowLoops, .evq, .recd] s (sleepSequence s) := by
  unfold sleepSequence
  split
  · exact Only.refl
  · exact Only.step
      (Only.step
        (Only.step
          (Only.ite (Only.stepAny (Only.stepAny (Only.step Only.refl goMode_only) flushLane_only) flushLane_only)
            (Only.stepAny (Only.step Only.refl goMode_only) flushLane_only)) modBk_only) modeResult_only) modJct_only

theorem evalRequest_only {a0 s l} :
    Only [.free, .modes, .bk, .jct, .met, .comm, .veh, .chans, .recs] l [.bayLoops, .modLoops, .strLoops, .slowLoops,
      .evq, .recd] [.bayLoops, .modLoops, .strLoops, .slowLoops, .evq, .recd] s (evalRequest a0 s) := by
  unfold evalRequest
  exact Only.ite (Only.step Only.refl modeResult_only)
    (Only.ite (Only.step (Only.step Only.refl modeResult_only) takeSafe_only)
      (by
        split
        · exact Only.step Only.refl startTransition_only
        · exact Only.step Only.refl requestRun_only
        · exact Only.step Only.refl startTransition_only
        · exact Only.step Only.refl sleepSequence_only
        · exact Only.ite (Only.step Only.refl toIdle_only) (Only.step Only.refl modeResult_only)
        · exact Only.step Only.refl toIdle_only
        · exact Only.step Only.refl toIdle_only
        · exact Only.step Only.refl startTransition_only
        · exact Only.step Only.refl modeResult_only))

theorem modeRequestTakenEffect_only {s l} :
    Only [.free, .modes, .bk, .jct, .met, .comm, .veh, .chans, .recs] l [.bayLoops, .modLoops, .strLoops, .slowLoops,
      .evq, .recd] [.bayLoops, .modLoops, .strLoops, .slowLoops, .evq, .recd] s (modeRequestTakenEffect s) := by
  unfold modeRequestTakenEffect
  split
  · exact Only.refl
  · exact Only.ite (Only.step (Only.step Only.refl modModes_only) evalRequest_only) Only.refl

theorem safeNAssertEffect_only {s l} :
    Only [.clk, .modes, .rails, .bk, .jct, .sets, .comm, .veh, .chans, .site, .tri, .life, .fs, .nand, .upd, .recs,
      .taps] l allLane allLane s (safeNAssertEffect s) := by
  unfold safeNAssertEffect
  split
  · exact Only.refl
  · exact Only.ite
      (Only.ite (Only.step (Only.step (Only.step Only.refl modJct_only) safeExit_only) plainReset_only)
        (Only.step Only.refl modJct_only)) Only.refl

theorem safeRampEndEffect_only {s l} :
    Only [.modes, .jct] l [.bayLoops, .modLoops, .strLoops, .slowLoops] [.bayLoops, .modLoops, .strLoops,
      .slowLoops] s (safeRampEndEffect s) := by
  unfold safeRampEndEffect
  split
  · exact Only.refl
  · exact Only.ite
      (Only.ite
        (Only.bothLanes (Only.step Only.refl modModes_only) (fun _ => LaneOnly.step LaneOnly.refl LaneState.mapLoops_only))
        (Only.step
          (Only.bothLanes (Only.step Only.refl modModes_only)
            (fun _ => LaneOnly.step LaneOnly.refl LaneState.mapLoops_only)) modJct_only)) Only.refl

end Sys2Proof.Machine
end

