-- ==== Sys2Proof/Laws/UpdateOps.lean ====
section
/-! SUPPORT. What each operation of Machine/UpdateOps.lean can change: one lemma for each function on the block or a lane, to be cited in
place of unfolding it. -/

namespace Sys2Proof.Machine

set_option Elab.async false

theorem abortSeq_only {s l} :
    Only [.upd] l [] [] s (abortSeq s) := by
  unfold abortSeq
  exact Only.ite (Only.step Only.refl modUpd_only) Only.refl

theorem markFailed_only {l s} :
    Only [] l [.slots] [] s (markFailed l s) := by
  unfold markFailed
  exact Only.modLane Only.refl (fun _ => LaneOnly.ite (LaneOnly.slots LaneOnly.refl) LaneOnly.refl)

theorem restartLane_only {a0 l s} :
    Only [.free, .modes, .bk, .jct, .comm, .chans] l allButRoles [.bayLoops, .modLoops, .strLoops, .slowLoops,
      .evq] s (restartLane a0 l s) := by
  unfold restartLane
  exact Only.step (Only.step (Only.step (Only.step Only.refl resetLane_only) latchCause_only) setRole_only)
    afterStandbyLoss_only

theorem abortOn_only {l s} :
    Only [.free, .modes, .bk, .jct, .met, .comm, .veh, .chans, .upd] l allButRoles [.bayLoops, .modLoops, .strLoops,
      .slowLoops, .evq] s (abortOn l s) := by
  unfold abortOn
  exact Only.ite
    (Only.ite (Only.step (Only.step (Only.step Only.refl markFailed_only) abortSeq_only) restartLane_only)
      (Only.step (Only.step Only.refl markFailed_only) abortSeq_only))
    (Only.ite (Only.step (Only.step (Only.step Only.refl markFailed_only) abortSeq_only) modJct_only)
      (Only.ite (Only.step (Only.step (Only.step Only.refl markFailed_only) abortSeq_only) toIdle_only)
        (Only.step (Only.step Only.refl markFailed_only) abortSeq_only)))

end Sys2Proof.Machine
end

