-- ==== Sys2Proof/Laws/Junction.lean ====
section
/-! SUPPORT. What each operation of Machine/Junction.lean can change: one lemma for each function on the block or a lane, to be cited in
place of unfolding it. -/

namespace Sys2Proof.Machine

set_option Elab.async false

theorem steerTo_only {l s} :
    Only [.free, .clk, .jct] l [] [] s (steerTo l s) := by
  unfold steerTo
  exact Only.step (Only.step Only.refl modJct_only) sendFrames_only

theorem crossoverEnableEffect_only {s l} :
    Only [.free, .clk, .modes, .jct, .comm, .chans] l [.bayLoops, .modLoops, .strLoops, .slowLoops, .evq] [.bayLoops,
      .modLoops, .strLoops, .slowLoops, .evq] s (crossoverEnableEffect s) := by
  unfold crossoverEnableEffect
  split
  · exact Only.refl
  · exact Only.ite
      (Only.ite (Only.step (Only.stepAny Only.refl steerTo_only) shiftMode_only) (Only.stepAny Only.refl steerTo_only))
      Only.refl

theorem failedReleaseEffect_only {l s} :
    Only [.jct] l [] [] s (failedReleaseEffect l s) := by
  unfold failedReleaseEffect
  exact Only.ite (Only.step (Only.step Only.refl modJct_only) setRole_only) Only.refl

theorem junctionRestartEffect_only {s l} :
    Only [.jct] l [.health] [.health] s (junctionRestartEffect s) := by
  unfold junctionRestartEffect
  exact Only.ite (Only.bothLanes (Only.step Only.refl modJct_only) (fun _ => LaneOnly.health LaneOnly.refl)) Only.refl

theorem cancelPlanned_only {s l} :
    Only [.jct] l [] [] s (cancelPlanned s) := by
  unfold cancelPlanned
  split
  · exact Only.ite (Only.step Only.refl modJct_only) Only.refl
  · exact Only.refl

theorem judgeEntries_only {a0 a1 a2 s l} :
    Only [.bk, .jct] l [.evq] [.evq] s (judgeEntries a0 a1 a2 s) := by
  unfold judgeEntries
  exact Only.ite
    (Only.step (Only.ite (Only.step (Only.step Only.refl modJct_only) latchCause_only) (Only.step Only.refl modJct_only))
      modJct_only)
    (Only.ite
      (Only.step
        (Only.ite
          (Only.step
            (Only.step
              (Only.step
                (Only.step
                  (Only.ite (Only.step (Only.step Only.refl modJct_only) latchCause_only)
                    (Only.step Only.refl modJct_only)) modJct_only) cancelPlanned_only) modJct_only) evt_only)
          (Only.step
            (Only.step
              (Only.step
                (Only.ite (Only.step (Only.step Only.refl modJct_only) latchCause_only) (Only.step Only.refl modJct_only))
                modJct_only) cancelPlanned_only) modJct_only)) evt_only)
      (Only.ite
        (Only.step
          (Only.step
            (Only.step
              (Only.step
                (Only.ite (Only.step (Only.step Only.refl modJct_only) latchCause_only) (Only.step Only.refl modJct_only))
                modJct_only) cancelPlanned_only) modJct_only) evt_only)
        (Only.step
          (Only.step
            (Only.step
              (Only.ite (Only.step (Only.step Only.refl modJct_only) latchCause_only) (Only.step Only.refl modJct_only))
              modJct_only) cancelPlanned_only) modJct_only)))

theorem junctionVerdictEffect_only {a0 a1 s l} :
    Only [.bk, .jct] l [.evq] [.evq] s (junctionVerdictEffect a0 a1 s) := by
  unfold junctionVerdictEffect
  exact Only.ite (Only.step Only.refl judgeEntries_only) Only.refl

theorem plannedRequestEffect_only {s l} :
    Only [.jct] l [] [] s (plannedRequestEffect s) := by
  unfold plannedRequestEffect
  exact Only.step Only.refl modJct_only

theorem execPlannedCrossoverRequest_only {a0 s l} :
    OnlyNext [.jct, .comm] l [] [] s (execPlannedCrossoverRequest a0 s) := by
  unfold execPlannedCrossoverRequest
  exact OnlyNext.next (hostRange_only (fun _ => Only.step Only.refl plannedRequestEffect_only))

theorem releaseEffect_only {l s} :
    Only [.jct] l allButRoles [] s (releaseEffect l s) := by
  unfold releaseEffect
  exact Only.ite (Only.step (Only.step (Only.step Only.refl resetLane_only) setRole_only) modJct_only)
    (Only.step Only.refl modJct_only)

theorem execReleaseExcludedLane_only {a0 s l} :
    OnlyNext [.jct, .comm] l allButRoles allButRoles s (execReleaseExcludedLane a0 s) := by
  unfold execReleaseExcludedLane
  exact OnlyNext.next
    (hostRange_only (fun _ => by split <;> [exact Only.stepAny Only.refl releaseEffect_only; exact Only.refl]))

theorem marchLane_only {a0 x} : LaneOnly [.ctl, .health, .evq] x (marchLane a0 x) := by
  unfold marchLane
  exact LaneOnly.ite (LaneOnly.step LaneOnly.refl (LaneOnly.parts (qs := [.ctl, .health])))
    (LaneOnly.step (LaneOnly.step LaneOnly.refl (LaneOnly.parts (qs := [.ctl, .health]))) LaneState.event_only)

theorem emptyTransmit_only {l s} :
    Only [.chans, .tri] l [.queues] [] s (emptyTransmit l s) := by
  unfold emptyTransmit
  exact Only.step (Only.modLane Only.refl (fun _ => LaneOnly.queues LaneOnly.refl)) (Only.parts (dev := [.chans, .tri]))

theorem endSessions_only {s l} :
    Only [.comm] l [] [] s (endSessions s) := by
  unfold endSessions
  exact Only.comm Only.refl

theorem moveToLane_only {l a0 s} :
    Only [.clk, .jct, .comm, .chans, .tri, .nand] l [.queues, .evq, .signed] [.evq] s (moveToLane l a0 s) := by
  unfold moveToLane
  exact Only.ite
    (Only.step
      (Only.step
        (Only.step
          (Only.step (Only.step (Only.step (Only.step Only.refl setRole_only) modJct_only) endSessions_only)
            emptyTransmit_only) evtLane_only) flushSigned_only) evtLane_only)
    (Only.step
      (Only.step
        (Only.step (Only.step (Only.step (Only.step Only.refl setRole_only) modJct_only) endSessions_only)
          emptyTransmit_only) evtLane_only) flushSigned_only)

theorem plannedCrossoverEffect_only {s l} :
    Only [.free, .clk, .modes, .bk, .jct, .comm, .chans, .tri, .nand] l allButRoles allButRoles
      s (plannedCrossoverEffect s) := by
  unfold plannedCrossoverEffect
  split
  · exact Only.refl
  · exact Only.ite
      (Only.ite
        (Only.stepAny
          (Only.step
            (Only.step (Only.stepAny (Only.stepAny (Only.stepAny Only.refl setRole_only) moveToLane_only) steerTo_only)
              modJct_only) modJct_only) restartLane_only)
        (Only.step
          (Only.step (Only.stepAny (Only.stepAny (Only.stepAny Only.refl setRole_only) moveToLane_only) steerTo_only)
            modJct_only) modJct_only)) Only.refl

theorem plannedTakenEffect_only {s l} :
    Only [.jct] l [] [] s (plannedTakenEffect s) := by
  unfold plannedTakenEffect
  exact Only.ite (by dsimp only; split <;> exact Only.step (Only.step Only.refl modJct_only) modJct_only) Only.refl

theorem rxTestLane_only {a0 x} : LaneOnly [.ctl, .health, .evq] x (rxTestLane a0 x) := by
  unfold rxTestLane
  exact LaneOnly.step (LaneOnly.step LaneOnly.refl (LaneOnly.parts (qs := [.ctl, .health]))) LaneState.event_only

theorem completeResync_only {l s} :
    Only [.free, .clk, .modes, .jct, .comm, .chans] l [.ctl, .bayLoops, .modLoops, .strLoops, .slowLoops, .evq,
      .slots] [.bayLoops, .modLoops, .strLoops, .slowLoops, .evq] s (completeResync l s) := by
  unfold completeResync
  exact Only.step
    (Only.ite
      (Only.step
        (Only.step
          (Only.modLane (Only.step (Only.step Only.refl setRole_only) modJct_only)
            (fun _ => LaneOnly.step LaneOnly.refl (LaneOnly.parts (qs := [.ctl, .slots])))) evt_only) shiftMode_only)
      (Only.step
        (Only.modLane (Only.step (Only.step Only.refl setRole_only) modJct_only)
          (fun _ => LaneOnly.step LaneOnly.refl (LaneOnly.parts (qs := [.ctl, .slots])))) evt_only)) recheckSpares_only

theorem resyncCompleteEffect_only {s l} :
    Only [.free, .clk, .modes, .jct, .comm, .chans] l [.ctl, .bayLoops, .modLoops, .strLoops, .slowLoops, .evq,
      .slots] [.ctl, .bayLoops, .modLoops, .strLoops, .slowLoops, .evq, .slots] s (resyncCompleteEffect s) := by
  unfold resyncCompleteEffect
  exact Only.ite Only.refl
    (Only.ite (Only.stepAny Only.refl completeResync_only)
      (Only.ite (Only.stepAny Only.refl completeResync_only) Only.refl))

theorem joinBlocks_only {y0 x} : LaneOnly [.tiles] x (joinBlocks y0 x) := by
  unfold joinBlocks
  exact LaneOnly.foldl LaneOnly.refl
    (fun _ _ => by split <;> [exact LaneOnly.step LaneOnly.refl LaneState.modTile_only; exact LaneOnly.refl])

theorem joinLoops_only {y0 x} : LaneOnly [.bayLoops, .modLoops, .strLoops, .slowLoops] x (joinLoops y0 x) := by
  unfold joinLoops
  exact LaneOnly.step LaneOnly.refl LaneState.mapLoops_only

theorem joinLane_only {y0 x} : LaneOnly [.ctl, .links, .out, .latched, .relay, .share, .wp, .th, .ks, .bayLoops, .modLoops,
    .strLoops, .slowLoops, .tiles] x (joinLane y0 x) := by
  unfold joinLane
  exact LaneOnly.step (LaneOnly.step (LaneOnly.step LaneOnly.refl
    (LaneOnly.parts (qs := [.ctl, .links, .out, .latched, .relay, .share, .wp, .th, .ks]))) joinLoops_only) joinBlocks_only

theorem resyncJoinEffect_only {s l} :
    Only [.jct] l [.ctl, .links, .out, .latched, .tiles, .relay, .bayLoops, .modLoops, .strLoops, .slowLoops, .share,
      .wp, .th, .ks] [.ctl, .links, .out, .latched, .tiles, .relay, .bayLoops, .modLoops, .strLoops, .slowLoops,
      .share, .wp, .th, .ks] s (resyncJoinEffect s) := by
  unfold resyncJoinEffect
  split
  · exact Only.ite Only.refl
      (Only.ite (Only.stepAny Only.refl setRole_only)
        (Only.step
          (Only.modAny Only.refl (fun _ => LaneOnly.step LaneOnly.refl joinLane_only)
            (fun _ => LaneOnly.step LaneOnly.refl joinLane_only)) modJct_only))
  · exact Only.refl

theorem joinNamedEffect_only {s l} :
    Only [.jct] l [] [] s (joinNamedEffect s) := by
  unfold joinNamedEffect
  split
  · exact Only.refl
  · exact Only.ite (Only.step (Only.stepAny Only.refl setRole_only) modJct_only) Only.refl

theorem slowCaptureEffect_only {s l} :
    Only [.jct] l [] [] s (slowCaptureEffect s) := by
  unfold slowCaptureEffect
  split
  · exact Only.refl
  · exact Only.ite (Only.step Only.refl modJct_only) Only.refl

theorem noLaneLeft_only {s l} :
    Only [.free, .clk, .modes, .jct, .comm, .chans] l [.evq] [.evq] s (noLaneLeft s) := by
  unfold noLaneLeft
  exact Only.step (Only.step (Only.step Only.refl idleLinks_only) takeSafe_only) modJct_only

theorem failLane_only {l a0 s} :
    Only [.free, .modes, .bk, .jct, .comm, .chans, .upd] l allButRoles [.bayLoops, .modLoops, .strLoops, .slowLoops,
      .evq] s (failLane l a0 s) := by
  unfold failLane
  exact Only.ite
    (Only.step
      (Only.step (Only.ite (Only.step (Only.step Only.refl markFailed_only) abortSeq_only) Only.refl) junctionFail_only)
      afterStandbyLoss_only)
    (Only.step (Only.ite (Only.step (Only.step Only.refl markFailed_only) abortSeq_only) Only.refl) junctionFail_only)

theorem bothFail_only {a0 a1 s l} :
    Only [.free, .clk, .modes, .bk, .jct, .comm, .chans, .upd] l allButRoles allButRoles s (bothFail a0 a1 s) := by
  unfold bothFail
  exact Only.ite (Only.step Only.refl takeSafe_only)
    (Only.ite (Only.step Only.refl takeSafe_only)
      (Only.step (Only.stepAny (Only.stepAny Only.refl failLane_only) failLane_only) noLaneLeft_only))

theorem demoteLane_only {l a0 s} :
    Only [.jct] l allButRoles [.evq] s (demoteLane l a0 s) := by
  unfold demoteLane
  exact Only.ite
    (Only.ite
      (Only.modLane (Only.step (Only.step Only.refl setRole_only) modJct_only) (fun _ => LaneOnly.ctl LaneOnly.refl))
      (Only.step
        (Only.step
          (Only.step
            (Only.modLane (Only.step (Only.step Only.refl setRole_only) modJct_only) (fun _ => LaneOnly.ctl LaneOnly.refl))
            evt_only) resetLane_only) setRole_only)) (Only.step (Only.step Only.refl setRole_only) modJct_only)

theorem abortIfUnconfirmed_only {l a0 s} :
    Only [.free, .modes, .bk, .jct, .met, .comm, .veh, .chans, .upd] l allButRoles [.bayLoops, .modLoops, .strLoops,
      .slowLoops, .evq] s (abortIfUnconfirmed l a0 s) := by
  unfold abortIfUnconfirmed
  exact Only.ite (Only.step Only.refl abortOn_only) Only.refl

theorem demoteOther_only {l a0 s} :
    Only [.free, .modes, .bk, .jct, .met, .comm, .veh, .chans, .upd] l allButRoles [.bayLoops, .modLoops, .strLoops,
      .slowLoops, .evq] s (demoteOther l a0 s) := by
  unfold demoteOther
  exact Only.step
    (Only.ite (Only.step (Only.step Only.refl demoteLane_only) afterStandbyLoss_only)
      (Only.step Only.refl demoteLane_only)) abortIfUnconfirmed_only

theorem otherVerdict_only {l a0 s} :
    Only [.free, .modes, .bk, .jct, .met, .comm, .veh, .chans, .upd] l allButRoles [.bayLoops, .modLoops, .strLoops,
      .slowLoops, .evq] s (otherVerdict l a0 s) := by
  unfold otherVerdict
  exact Only.ite (Only.step Only.refl failLane_only) (Only.ite (Only.step Only.refl demoteOther_only) Only.refl)

theorem cancelSwap_only {s l} :
    Only [.sets] l [.ctl] [.ctl] s (cancelSwap s) := by
  unfold cancelSwap
  exact Only.ite (Only.bothLanes (Only.sets Only.refl) (fun _ => LaneOnly.ctl LaneOnly.refl)) Only.refl

theorem unplannedCrossover_only {l a0 a1 s} :
    Only [.free, .clk, .modes, .bk, .jct, .met, .sets, .comm, .veh, .chans, .tri, .nand, .upd] l allButRoles [.ctl,
      .bayLoops, .modLoops, .strLoops, .slowLoops, .queues, .evq, .signed] s (unplannedCrossover l a0 a1 s) := by
  unfold unplannedCrossover
  exact Only.ite
    (Only.step
      (Only.stepOther
        (Only.ite
          (Only.step
            (Only.ite
              (Only.step (Only.step (Only.step (Only.step Only.refl idleLinks_only) modJct_only) markFailed_only)
                abortSeq_only) (Only.step (Only.step Only.refl idleLinks_only) modJct_only)) junctionFail_only)
          (Only.step (Only.step (Only.step Only.refl idleLinks_only) modJct_only) demoteLane_only)) moveToLane_only)
      cancelSwap_only)
    (Only.step
      (Only.step
        (Only.stepOther
          (Only.ite
            (Only.step
              (Only.ite
                (Only.step (Only.step (Only.step (Only.step Only.refl idleLinks_only) modJct_only) markFailed_only)
                  abortSeq_only) (Only.step (Only.step Only.refl idleLinks_only) modJct_only)) junctionFail_only)
            (Only.step (Only.step (Only.step Only.refl idleLinks_only) modJct_only) demoteLane_only)) moveToLane_only)
        cancelSwap_only) abortIfUnconfirmed_only)

theorem activeVerdict_only {l a0 a1 s} :
    Only [.free, .clk, .modes, .bk, .jct, .met, .sets, .comm, .veh, .chans, .tri, .nand, .upd] l allButRoles [.ctl,
      .bayLoops, .modLoops, .strLoops, .slowLoops, .queues, .evq, .signed] s (activeVerdict l a0 a1 s) := by
  unfold activeVerdict
  exact Only.ite
    (Only.ite (Only.step Only.refl unplannedCrossover_only)
      (Only.ite (Only.step Only.refl takeSafe_only) (Only.step (Only.step Only.refl failLane_only) noLaneLeft_only)))
    (Only.ite (Only.step Only.refl unplannedCrossover_only) Only.refl)

theorem combineVerdicts_only {a0 a1 s l} :
    Only [.free, .clk, .modes, .bk, .jct, .met, .sets, .comm, .veh, .chans, .tri, .nand,
      .upd] l allButRoles allButRoles s (combineVerdicts a0 a1 s) := by
  unfold combineVerdicts
  exact Only.ite (Only.step Only.refl takeSafe_only)
    (Only.ite (Only.step Only.refl bothFail_only)
      (by
        split
        · exact Only.stepAny (Only.stepAny Only.refl activeVerdict_only) otherVerdict_only
        · exact Only.stepAny (Only.stepAny Only.refl activeVerdict_only) otherVerdict_only
        · exact Only.stepAny (Only.stepAny Only.refl otherVerdict_only) otherVerdict_only))

theorem verdictTakeEffectEffect_only {s l} :
    Only [.free, .clk, .modes, .bk, .jct, .met, .sets, .comm, .veh, .chans, .tri, .nand,
      .upd] l allButRoles allButRoles s (verdictTakeEffectEffect s) := by
  unfold verdictTakeEffectEffect
  split
  · exact Only.refl
  · exact Only.ite (Only.step (Only.step (Only.step Only.refl modJct_only) combineVerdicts_only) recheckSpares_only)
      Only.refl

end Sys2Proof.Machine
end

