-- ==== Sys2Proof/Laws/Keystore.lean ====
section
/-! SUPPORT. What each operation of Machine/Keystore.lean can change: one lemma for each function on the block or a lane, to be cited in
place of unfolding it. -/

namespace Sys2Proof.Machine

set_option Elab.async false

theorem modKs_only {l a0 s} :
    Only [] l [.ks] [] s (modKs l a0 s) := by
  unfold modKs
  exact Only.modLane Only.refl (fun _ => LaneOnly.ks LaneOnly.refl)

theorem keyAnswer_only {l a0 s} :
    Only [.life] l [.ks] [] s (keyAnswer l a0 s) := by
  unfold keyAnswer
  exact Only.life (Only.step Only.refl modKs_only)

theorem keyCommit_only {l a0 a1 s} :
    Only [.life] l [.evq, .ks] [.evq] s (keyCommit l a0 a1 s) := by
  unfold keyCommit
  exact Only.ite (Only.life (Only.step (Only.step (Only.step Only.refl modKs_only) evt_only) keyAnswer_only))
    (Only.step (Only.step (Only.step Only.refl modKs_only) evt_only) keyAnswer_only)

theorem keyPlace_only {l a0 a1 s} :
    Only [.free, .clk, .life] l [.evq, .ks] [.evq] s (keyPlace l a0 a1 s) := by
  unfold keyPlace
  exact Only.step
    (Only.ite (Only.step (Only.step Only.refl State.useFree_only) keyCommit_only)
      (Only.step (Only.step (Only.step Only.refl State.useFree_only) modKs_only) keyAnswer_only)) recheckSpares_only

theorem installEffect_only {a0 l s} :
    Only [.free, .clk, .life] l [.evq, .ks] [.evq] s (installEffect a0 l s) := by
  unfold installEffect
  split
  · exact Only.step Only.refl keyPlace_only
  · exact Only.refl

theorem invalidateEffect_only {a0 l s} :
    Only [.clk, .life] l [.evq, .ks] [.evq] s (invalidateEffect a0 l s) := by
  unfold invalidateEffect
  exact Only.step (Only.step (Only.step Only.refl evt_only) keyCommit_only) recheckSpares_only

theorem ownerEffect_only {a0 l s} :
    Only [.life] l [.evq, .ks] [.evq] s (ownerEffect a0 l s) := by
  unfold ownerEffect
  exact Only.step Only.refl keyCommit_only

theorem lifeChangeEffect_only {a0 l s} :
    Only [.free, .clk, .modes, .rails, .bk, .jct, .sets, .comm, .veh, .chans, .site, .tri, .life, .fs, .nand, .upd,
      .recs, .taps] l allLane allLane s (lifeChangeEffect a0 l s) := by
  unfold lifeChangeEffect
  exact Only.step
    (Only.step
      (Only.step (Only.bothLanes (Only.step Only.refl keyCommit_only) (fun _ => LaneOnly.ks LaneOnly.refl))
        lifeDestroy_only) keyAnswer_only) plainReset_only

theorem generateEffect_only {a0 l s} :
    Only [.free, .clk, .life] l [.evq, .ks] [.evq] s (generateEffect a0 l s) := by
  unfold generateEffect
  exact Only.step (Only.step Only.refl State.useFree_only) keyPlace_only

theorem opEffect_only {a0 l s} :
    Only [.free, .clk, .modes, .rails, .bk, .jct, .sets, .comm, .veh, .chans, .site, .tri, .life, .fs, .nand, .upd,
      .recs, .taps] l allLane allLane s (opEffect a0 l s) := by
  unfold opEffect
  split
  · exact Only.step Only.refl installEffect_only
  · exact Only.step Only.refl installEffect_only
  · exact Only.step Only.refl invalidateEffect_only
  · exact Only.step Only.refl ownerEffect_only
  · exact Only.step Only.refl lifeChangeEffect_only
  · exact Only.step Only.refl generateEffect_only
  · exact Only.refl

theorem updateMessage_only {a0 f s dev l q} (hf : ∀ k x, Only dev l q q x (f k x)) (m : Part.comm ∈ dev := by decide)
    (hl : Part.life ∈ dev := by decide) (hk : LanePart.ks ∈ q := by decide) :
    Only dev l q q s (updateMessage a0 f s) := by
  have hq : [LanePart.ks] ++ [] ⊆ q := by simpa using hk
  have hd : [Part.life] ⊆ dev := by simpa using hl
  unfold updateMessage
  split
  · exact Only.refl
  · refine Only.ite (Only.comm (Only.stepAny Only.refl keyAnswer_only hd hq hq) m) (Only.ite ?_ ?_)
    · exact Only.trans (Only.comm Only.refl m) (hf _ _)
    · exact Only.stepAny (Only.comm Only.refl m) keyAnswer_only hd hq hq

theorem ksStatus_only {l a0 a1 s} :
    Only [] l [.ks] [] s (ksStatus l a0 a1 s) := by
  unfold ksStatus
  exact Only.step Only.refl modKs_only

theorem csrEffect_only {s l} :
    Only [.free, .life] l [.ks] [.ks] s (csrEffect s) := by
  unfold csrEffect
  dsimp only; split
  · exact Only.refl
  · exact by
      split
      · exact Only.ite (Only.stepAny Only.refl ksStatus_only)
          (Only.ite (Only.stepAny Only.refl ksStatus_only)
            (Only.stepAny (Only.life (Only.step Only.refl State.useFree_only)) ksStatus_only))
      · exact Only.stepAny Only.refl ksStatus_only

theorem updateRow_only {a0 s l} : OnlyNext [.free, .clk, .modes, .rails, .bk, .jct, .sets, .comm, .veh, .chans, .site, .tri, .life, .fs, .nand, .upd, .recs, .taps]
    l allLane allLane s (updateRow a0 s) := by
  unfold updateRow
  exact OnlyNext.next (updateMessage_only fun _ _ => Only.stepAny Only.refl opEffect_only)

theorem replicationEffect_only {a0 s l} :
    Only [.life] l [.ks] [.ks] s (replicationEffect a0 s) := by
  unfold replicationEffect
  split
  · exact Only.ite Only.refl
      (Only.ite (Only.life (Only.stepAny Only.refl modKs_only)) (Only.stepAny Only.refl modKs_only))
  · exact Only.refl

theorem statementEffect_only {s l} :
    Only [.free, .life] l [.ks] [.ks] s (statementEffect s) := by
  unfold statementEffect
  dsimp only; split
  · exact Only.refl
  · exact by
      split
      · exact Only.ite (Only.stepAny Only.refl ksStatus_only)
          (Only.stepAny (Only.life (Only.step Only.refl State.useFree_only)) ksStatus_only)
      · exact Only.stepAny Only.refl ksStatus_only
      · exact Only.stepAny Only.refl ksStatus_only

theorem keyRequest_only {a0 a1 a2 a3 s l} :
    Only [] l [.ks] [.ks] s (keyRequest a0 a1 a2 a3 s) := by
  unfold keyRequest
  exact Only.ite Only.refl
    (by
      dsimp only; split
      · exact Only.stepAny (Only.stepAny Only.refl ksStatus_only) modKs_only
      · exact Only.stepAny Only.refl ksStatus_only)

theorem deriveEffect_only {a0 a1 s l} :
    Only [.clk] l [.evq, .ks] [.evq, .ks] s (deriveEffect a0 a1 s) := by
  unfold deriveEffect
  dsimp only; split
  · exact Only.step (Only.step (Only.stepAny Only.refl modKs_only) recheckSpares_only) keyRequest_only
  · exact Only.refl
  · exact Only.step Only.refl keyRequest_only
  · exact Only.step Only.refl keyRequest_only

theorem hashEffect_only {a0 s l} :
    Only [] l [.ks] [.ks] s (hashEffect a0 s) := by
  unfold hashEffect
  exact Only.ite Only.refl
    (Only.ite (Only.stepAny Only.refl ksStatus_only)
      (Only.ite (Only.stepAny Only.refl ksStatus_only) (Only.stepAny Only.refl ksStatus_only)))

theorem execKeyStatement_only {s l} :
    OnlyNext [.free, .comm, .life] l [.ks] [.ks] s (execKeyStatement s) := by
  unfold execKeyStatement
  exact OnlyNext.next (hostWrite_only (fun _ => Only.step Only.refl statementEffect_only))

theorem execCertificationRequest_only {s l} :
    OnlyNext [.free, .comm, .life] l [.ks] [.ks] s (execCertificationRequest s) := by
  unfold execCertificationRequest
  exact OnlyNext.next (hostWrite_only (fun _ => Only.step Only.refl csrEffect_only))

end Sys2Proof.Machine
end

