-- ==== Sys2Proof/Laws/LoopSvc.lean ====
section
/-! SUPPORT. What each operation of Machine/LoopSvc.lean can change: one lemma for each function on the block or a lane, to be cited in
place of unfolding it. -/

namespace Sys2Proof.Machine

set_option Elab.async false

theorem hostLoopCommand_only {a0 a1 s l} :
    Only [.clk, .comm] l [.evq] [.evq] s (hostLoopCommand a0 a1 s) := by
  unfold hostLoopCommand
  dsimp only; split
  · exact Only.clk (Only.step Only.refl respond_only)
  · exact Only.step (Only.clk (Only.step Only.refl respond_only)) evt_only

theorem ifPermitted_only {a0 a1 s l} :
    Only [.clk, .comm] l [.evq] [.evq] s (ifPermitted a0 a1 s) := by
  unfold ifPermitted
  exact Only.ite (Only.step Only.refl hostLoopCommand_only) (Only.step Only.refl respond_only)

theorem rampZeros_only {a0 x} : LaneOnly [.out] x (rampZeros a0 x) := by
  unfold rampZeros
  exact LaneOnly.out LaneOnly.refl

theorem faultRampEndEffect_only {l a0 s} :
    Only [.met, .veh] l [.out, .bayLoops, .modLoops, .strLoops, .slowLoops, .share, .wp, .evq] [.evq]
      s (faultRampEndEffect l a0 s) := by
  unfold faultRampEndEffect
  exact Only.ite
    (by
      split
      · exact Only.ite
          (Only.step
            (Only.modLane
              (Only.modLane Only.refl
                (fun _ => LaneOnly.step (LaneOnly.step LaneOnly.refl rampZeros_only) LaneState.modLoop_only))
              (fun _ => LaneOnly.step LaneOnly.refl openBay_only)) endBaySession_only)
          (Only.modLane
            (Only.modLane Only.refl
              (fun _ => LaneOnly.step (LaneOnly.step LaneOnly.refl rampZeros_only) LaneState.modLoop_only))
            (fun _ => LaneOnly.step LaneOnly.refl openBay_only))
      · exact Only.modLane
          (Only.modLane Only.refl
            (fun _ => LaneOnly.step (LaneOnly.step LaneOnly.refl rampZeros_only) LaneState.modLoop_only))
          (fun _ => LaneOnly.share LaneOnly.refl)
      · exact Only.modLane Only.refl
          (fun _ => LaneOnly.step (LaneOnly.step LaneOnly.refl rampZeros_only) LaneState.modLoop_only)) Only.refl

theorem modInj_only {a0 s l} :
    Only [.clk] l [] [] s (modInj a0 s) := by
  unfold modInj
  exact Only.clk Only.refl

theorem injectionArmEffect_only {s l} :
    Only [.clk] l [] [] s (injectionArmEffect s) := by
  unfold injectionArmEffect
  exact Only.ite (Only.step Only.refl modInj_only) (Only.step Only.refl modInj_only)

theorem endInjection_only {a0 a1 s l} :
    Only [.clk] l [.bayLoops, .modLoops, .strLoops, .slowLoops] [.bayLoops, .modLoops, .strLoops, .slowLoops]
      s (endInjection a0 a1 s) := by
  unfold endInjection
  exact Only.step
    (by
      split
      · exact Only.bothLanes Only.refl (fun _ => LaneOnly.step LaneOnly.refl LaneState.modLoop_only)
      · exact Only.refl) modInj_only

theorem injectionCompleteEffect_only {a0 s l} :
    Only [.clk] l [.bayLoops, .modLoops, .strLoops, .slowLoops] [.bayLoops, .modLoops, .strLoops, .slowLoops]
      s (injectionCompleteEffect a0 s) := by
  unfold injectionCompleteEffect
  exact Only.ite Only.refl (by split <;> exact Only.ite (Only.step Only.refl endInjection_only) Only.refl)

theorem injectionStartEffect_only {s l} :
    Only [.clk] l [.bayLoops, .modLoops, .strLoops, .slowLoops] [.bayLoops, .modLoops, .strLoops, .slowLoops]
      s (injectionStartEffect s) := by
  unfold injectionStartEffect
  exact Only.ite
    (Only.ite
      (Only.step
        (by
          split
          · exact Only.bothLanes (Only.step (Only.step Only.refl modInj_only) modInj_only)
              (fun _ => LaneOnly.step LaneOnly.refl LaneState.modLoop_only)
          · exact Only.step (Only.step Only.refl modInj_only) modInj_only) captureTriggered_only)
      (by
        split
        · exact Only.bothLanes (Only.step (Only.step Only.refl modInj_only) modInj_only)
            (fun _ => LaneOnly.step LaneOnly.refl LaneState.modLoop_only)
        · exact Only.step (Only.step Only.refl modInj_only) modInj_only)) Only.refl

theorem injectionStopEffect_only {s l} :
    Only [.clk] l [.bayLoops, .modLoops, .strLoops, .slowLoops] [.bayLoops, .modLoops, .strLoops, .slowLoops]
      s (injectionStopEffect s) := by
  unfold injectionStopEffect
  exact Only.ite (Only.step Only.refl endInjection_only) (Only.ite (Only.step Only.refl modInj_only) Only.refl)

theorem execInjectionArm_only {s l} :
    OnlyNext [.clk, .comm] l [] [] s (execInjectionArm s) := by
  unfold execInjectionArm
  exact OnlyNext.next (hostWrite_only (fun _ => Only.step Only.refl injectionArmEffect_only))

theorem execInjectionStop_only {s l} :
    OnlyNext [.clk, .comm] l [.bayLoops, .modLoops, .strLoops, .slowLoops] [.bayLoops, .modLoops, .strLoops,
      .slowLoops] s (execInjectionStop s) := by
  unfold execInjectionStop
  exact OnlyNext.next (hostWrite_only (fun _ => Only.step Only.refl injectionStopEffect_only))

theorem loopBlockEnableEffect_only {l a0 a1 s} :
    Only [.free, .clk, .met] l [.bayLoops, .modLoops, .strLoops, .slowLoops, .evq] [.evq]
      s (loopBlockEnableEffect l a0 a1 s) := by
  unfold loopBlockEnableEffect
  exact Only.ite Only.refl
    (Only.ite
      (Only.ite
        (Only.step (Only.modLane Only.refl (fun _ => LaneOnly.step LaneOnly.refl enableLoop_only)) meterCommission_only)
        Only.refl)
      (Only.step (Only.modLane Only.refl (fun _ => LaneOnly.step LaneOnly.refl disableLoop_only)) captureAbort_only))

theorem applyLoopCommand_only {a0 a1 s l} : Only [.free, .clk, .met] l [.bayLoops, .modLoops, .strLoops, .slowLoops, .evq]
    [.bayLoops, .modLoops, .strLoops, .slowLoops, .evq] s (applyLoopCommand a0 a1 s).2 := by
  unfold applyLoopCommand
  repeat' first
    | exact Only.refl
    | exact Only.step (Only.bothLanes Only.refl fun _ => LaneOnly.step LaneOnly.refl enableLoop_only) meterCommission_only
    | exact Only.step (Only.bothLanes Only.refl fun _ => LaneOnly.step LaneOnly.refl disableLoop_only) captureAbort_only
    | exact Only.bothLanes Only.refl fun _ => LaneOnly.step LaneOnly.refl enableLoop_only
    | exact Only.bothLanes Only.refl fun _ => LaneOnly.step LaneOnly.refl leaveFault_only
    | exact Only.step Only.refl State.useFree_only
    | split
    | dsimp only

theorem takeLoopCommand_only {a0 a1 s l} : Only [.free, .clk, .met] l [.bayLoops, .modLoops, .strLoops, .slowLoops, .evq]
    [.bayLoops, .modLoops, .strLoops, .slowLoops, .evq] s (takeLoopCommand a0 a1 s).2 := by
  unfold takeLoopCommand
  split
  · exact applyLoopCommand_only
  · exact Only.refl

theorem loopCommandTakenEffect_only {s l} : Only [.free, .clk, .met] l [.bayLoops, .modLoops, .strLoops, .slowLoops, .evq]
    [.bayLoops, .modLoops, .strLoops, .slowLoops, .evq] s (loopCommandTakenEffect s) := by
  unfold loopCommandTakenEffect
  split
  · exact Only.refl
  · exact Only.ite (Only.clk (Only.step Only.refl takeLoopCommand_only)) Only.refl

theorem loopStopTimeoutEffect_only {l a0 s} :
    Only [.clk] l [.ctl, .out, .relay, .bayLoops, .modLoops, .strLoops, .slowLoops, .share, .wp, .evq] [.evq]
      s (loopStopTimeoutEffect l a0 s) := by
  unfold loopStopTimeoutEffect
  exact Only.ite
    (Only.step (Only.modLane Only.refl (fun _ => LaneOnly.step LaneOnly.refl enterFault_only)) recheckSpares_only)
    Only.refl

theorem injectionPeriod_only {s l} :
    Only [.clk] l [.bayLoops, .modLoops, .strLoops, .slowLoops] [.bayLoops, .modLoops, .strLoops, .slowLoops]
      s (injectionPeriod s) := by
  unfold injectionPeriod
  exact Only.ite
    (by
      split
      · exact Only.step Only.refl endInjection_only
      · exact Only.step (Only.step Only.refl modInj_only) modInj_only) Only.refl

end Sys2Proof.Machine
end

