-- ==== Sys2Proof/Laws/Sets.lean ====
section
/-! SUPPORT. What each operation of Machine/Sets.lean can change: one lemma for each function on the block or a lane, to be cited in
place of unfolding it. -/

namespace Sys2Proof.Machine

set_option Elab.async false

theorem modSets_only {a0 s l} :
    Only [.sets] l [] [] s (modSets a0 s) := by
  unfold modSets
  exact Only.sets Only.refl

theorem setResult_only {a0 a1 s l} :
    Only [.sets] l [] [] s (setResult a0 a1 s) := by
  unfold setResult
  exact Only.step Only.refl modSets_only

theorem commitDoneEffect_only {s l} :
    Only [.sets] l [] [] s (commitDoneEffect s) := by
  unfold commitDoneEffect
  exact Only.ite Only.refl
    (by
      dsimp only; split
      · exact Only.step (Only.step (Only.step Only.refl modSets_only) modSets_only) setResult_only
      · exact Only.step (Only.step Only.refl modSets_only) setResult_only)

theorem commitEffect_only {s l} :
    Only [.sets] l [] [] s (commitEffect s) := by
  unfold commitEffect
  exact Only.ite (Only.step (Only.step Only.refl modSets_only) setResult_only) (Only.step Only.refl setResult_only)

theorem execShadowCommit_only {s l} :
    OnlyNext [.sets, .comm] l [] [] s (execShadowCommit s) := by
  unfold execShadowCommit
  exact OnlyNext.next (hostWrite_only (fun _ => Only.step Only.refl commitEffect_only))

theorem reopenEffect_only {s l} :
    Only [.sets] l [] [] s (reopenEffect s) := by
  unfold reopenEffect
  exact Only.ite (Only.step (Only.step Only.refl modSets_only) setResult_only) (Only.step Only.refl setResult_only)

theorem execShadowReopen_only {s l} :
    OnlyNext [.sets, .comm] l [] [] s (execShadowReopen s) := by
  unfold execShadowReopen
  exact OnlyNext.next (hostWrite_only (fun _ => Only.step Only.refl reopenEffect_only))

theorem swapCommandEffect_only {s l} :
    Only [.sets] l [] [] s (swapCommandEffect s) := by
  unfold swapCommandEffect
  exact Only.ite (Only.step (Only.step Only.refl modSets_only) setResult_only) (Only.step Only.refl setResult_only)

theorem execShadowSwap_only {s l} :
    OnlyNext [.sets, .comm] l [] [] s (execShadowSwap s) := by
  unfold execShadowSwap
  exact OnlyNext.next (hostWrite_only (fun _ => Only.step Only.refl swapCommandEffect_only))

theorem reloadEffect_only {s l} :
    Only [.sets] l [] [] s (reloadEffect s) := by
  unfold reloadEffect
  exact Only.ite (Only.step (Only.step Only.refl modSets_only) setResult_only) (Only.step Only.refl setResult_only)

theorem execShadowReload_only {s l} :
    OnlyNext [.sets, .comm] l [] [] s (execShadowReload s) := by
  unfold execShadowReload
  exact OnlyNext.next (hostWrite_only (fun _ => Only.step Only.refl reloadEffect_only))

theorem execSetFlagsClear_only {a0 s l} :
    OnlyNext [.sets, .comm] l [] [] s (execSetFlagsClear a0 s) := by
  unfold execSetFlagsClear
  exact OnlyNext.next (hostWrite_only (fun _ => Only.step Only.refl modSets_only))

theorem endUnavailable_only {s l} :
    Only [.met, .veh] l [.evq] [.evq] s (endUnavailable s) := by
  unfold endUnavailable
  exact Only.foldl Only.refl (fun _ _ => Only.ite (Only.step Only.refl endBaySession_only) Only.refl)

theorem refreshCache_only {t0 x} : LaneOnly [.ctl] x (refreshCache t0 x) := by
  unfold refreshCache
  exact LaneOnly.ctl LaneOnly.refl

theorem publishEffect_only {s l} :
    Only [.met, .sets, .veh] l [.ctl, .evq] [.ctl, .evq] s (publishEffect s) := by
  unfold publishEffect
  exact Only.ite Only.refl
    (Only.step
      (Only.bothLanes (Only.step Only.refl modSets_only) (fun _ => LaneOnly.step LaneOnly.refl refreshCache_only))
      endUnavailable_only)

theorem copyDoneEffect_only {s l} :
    Only [.sets] l [] [] s (copyDoneEffect s) := by
  unfold copyDoneEffect
  exact Only.ite (Only.step Only.refl modSets_only) Only.refl

theorem missBoundary_only {s l} :
    Only [.sets] l [] [] s (missBoundary s) := by
  unfold missBoundary
  exact Only.ite (Only.step (Only.step Only.refl modSets_only) setResult_only) (Only.step Only.refl modSets_only)

theorem flipTests_only {t0 t1 s l} :
    Only [.clk] l [.bayLoops, .modLoops, .strLoops, .slowLoops] [.bayLoops, .modLoops, .strLoops, .slowLoops]
      s (flipTests t0 t1 s) := by
  unfold flipTests
  dsimp only; split
  · exact Only.ite
      (Only.step
        (by
          split
          · exact Only.ite (Only.step Only.refl captureAbort_only) Only.refl
          · exact Only.refl) modInj_only)
      (Only.ite
        (Only.step
          (by
            split
            · exact Only.ite (Only.step Only.refl captureAbort_only) Only.refl
            · exact Only.refl) endInjection_only)
        (by
          split
          · exact Only.ite (Only.step Only.refl captureAbort_only) Only.refl
          · exact Only.refl))
  · exact by
      split
      · exact Only.ite (Only.step Only.refl captureAbort_only) Only.refl
      · exact Only.refl

theorem flipLink_only {t0 t1 a2 x} : LaneOnly [.links, .evq] x (flipLink t0 t1 a2 x) := by
  unfold flipLink
  exact LaneOnly.ite
    (LaneOnly.ite (LaneOnly.step LaneOnly.refl LaneState.modLink_only)
      (LaneOnly.step (LaneOnly.step LaneOnly.refl LaneState.modLink_only) linkTo_only))
    (LaneOnly.ite
      (LaneOnly.ite (LaneOnly.step (LaneOnly.step LaneOnly.refl LaneState.modLink_only) toAcquire_only)
        (LaneOnly.step (LaneOnly.step LaneOnly.refl LaneState.modLink_only) linkTo_only)) LaneOnly.refl)

theorem flipBlocks_only {t0 t1 y2 x} : LaneOnly [.tiles] x (flipBlocks t0 t1 y2 x) := by
  unfold flipBlocks
  exact LaneOnly.foldl (LaneOnly.tiles LaneOnly.refl)
    (fun _ _ =>
      by
        split
        · exact LaneOnly.ite LaneOnly.refl (LaneOnly.step LaneOnly.refl LaneState.modTile_only)
        · exact LaneOnly.refl)

theorem flipLoop_only {t0 t1 a2 x} : LaneOnly [.bayLoops, .modLoops, .strLoops, .slowLoops] x (flipLoop t0 t1 a2 x) := by
  unfold flipLoop
  exact LaneOnly.ite
    (LaneOnly.ite
      (LaneOnly.step (LaneOnly.ite (LaneOnly.step LaneOnly.refl LaneState.modLoop_only) LaneOnly.refl)
        LaneState.modLoop_only)
      (LaneOnly.ite (LaneOnly.ite (LaneOnly.step LaneOnly.refl LaneState.modLoop_only) LaneOnly.refl)
        (LaneOnly.step (LaneOnly.ite (LaneOnly.step LaneOnly.refl LaneState.modLoop_only) LaneOnly.refl) leaveFault_only)))
    (LaneOnly.ite
      (LaneOnly.ite
        (LaneOnly.step (LaneOnly.ite (LaneOnly.step LaneOnly.refl LaneState.modLoop_only) LaneOnly.refl) leaveFault_only)
        (LaneOnly.ite (LaneOnly.step LaneOnly.refl LaneState.modLoop_only) LaneOnly.refl))
      (by
        split
        · exact LaneOnly.ite
            (LaneOnly.step (LaneOnly.ite (LaneOnly.step LaneOnly.refl LaneState.modLoop_only) LaneOnly.refl) loopOff_only)
            (LaneOnly.ite
              (LaneOnly.step (LaneOnly.ite (LaneOnly.step LaneOnly.refl LaneState.modLoop_only) LaneOnly.refl)
                restartLoop_only) (LaneOnly.ite (LaneOnly.step LaneOnly.refl LaneState.modLoop_only) LaneOnly.refl))
        · exact LaneOnly.ite
            (LaneOnly.step (LaneOnly.ite (LaneOnly.step LaneOnly.refl LaneState.modLoop_only) LaneOnly.refl)
              restartLoop_only) (LaneOnly.ite (LaneOnly.step LaneOnly.refl LaneState.modLoop_only) LaneOnly.refl)
        · exact LaneOnly.ite
            (LaneOnly.step (LaneOnly.ite (LaneOnly.step LaneOnly.refl LaneState.modLoop_only) LaneOnly.refl)
              restartLoop_only) (LaneOnly.ite (LaneOnly.step LaneOnly.refl LaneState.modLoop_only) LaneOnly.refl)))

theorem flipLane_only {t0 t1 x} : LaneOnly [.ctl, .links, .tiles, .bayLoops, .modLoops, .strLoops, .slowLoops, .wp,
      .th, .evq] x (flipLane t0 t1 x) := by
  unfold flipLane
  exact LaneOnly.step
    (LaneOnly.th
      (LaneOnly.step
        (LaneOnly.foldl
          (LaneOnly.tiles
            (LaneOnly.step
              (LaneOnly.step (LaneOnly.foldl LaneOnly.refl (fun _ _ => LaneOnly.step LaneOnly.refl flipLink_only))
                placeAll_only) flipBlocks_only)) (fun _ _ => LaneOnly.step LaneOnly.refl flipLoop_only))
        LaneState.modWp_only)) refreshCache_only

theorem flipMeters_only {t0 t1 s l} :
    Only [.free, .met] l [.evq] [.evq] s (flipMeters t0 t1 s) := by
  unfold flipMeters
  exact Only.foldl Only.refl (fun _ _ => Only.step Only.refl meterString_only)

theorem swapFlipEffect_only {s l} :
    Only [.free, .clk, .met, .sets, .veh, .chans, .tri, .nand] l [.ctl, .links, .tiles, .bayLoops, .modLoops,
      .strLoops, .slowLoops, .wp, .th, .evq] [.ctl, .links, .tiles, .bayLoops, .modLoops, .strLoops, .slowLoops, .wp,
      .th, .evq] s (swapFlipEffect s) := by
  unfold swapFlipEffect
  exact Only.ite Only.refl
    (Only.step
      (Only.step
        (Only.step
          (Only.step
            (Only.step
              (Only.ite
                (Only.modAny
                  (Only.ite
                    (Only.modAny
                      (Only.step
                        (Only.bothLanes (Only.step (Only.step Only.refl archive_only) modSets_only)
                          (fun _ => LaneOnly.ctl LaneOnly.refl)) flipTests_only)
                      (fun _ => LaneOnly.step LaneOnly.refl flipLane_only)
                      (fun _ => LaneOnly.step LaneOnly.refl flipLane_only))
                    (Only.step
                      (Only.bothLanes (Only.step (Only.step Only.refl archive_only) modSets_only)
                        (fun _ => LaneOnly.ctl LaneOnly.refl)) flipTests_only))
                  (fun _ => LaneOnly.step LaneOnly.refl flipLane_only)
                  (fun _ => LaneOnly.step LaneOnly.refl flipLane_only))
                (Only.ite
                  (Only.modAny
                    (Only.step
                      (Only.bothLanes (Only.step (Only.step Only.refl archive_only) modSets_only)
                        (fun _ => LaneOnly.ctl LaneOnly.refl)) flipTests_only)
                    (fun _ => LaneOnly.step LaneOnly.refl flipLane_only)
                    (fun _ => LaneOnly.step LaneOnly.refl flipLane_only))
                  (Only.step
                    (Only.bothLanes (Only.step (Only.step Only.refl archive_only) modSets_only)
                      (fun _ => LaneOnly.ctl LaneOnly.refl)) flipTests_only))) flipMeters_only) handCalendar_only)
          (Only.parts (dev := [.chans, .tri]))) recheckSpares_only) endUnavailable_only)

theorem markReady_only {s l} :
    Only [] l [.ctl] [.ctl] s (markReady s) := by
  unfold markReady
  split
  · exact Only.ite (Only.modAny Only.refl (fun _ => LaneOnly.ctl LaneOnly.refl) (fun _ => LaneOnly.ctl LaneOnly.refl))
      Only.refl
  · exact Only.refl

theorem swapReadyEffect_only {s l} :
    Only [.sets] l [.ctl] [.ctl] s (swapReadyEffect s) := by
  unfold swapReadyEffect
  exact Only.step (Only.ite (Only.step Only.refl missBoundary_only) Only.refl) markReady_only

theorem reportChecks_only {a0 s l} :
    Only [.sets] l [.share] [.share] s (reportChecks a0 s) := by
  unfold reportChecks
  exact Only.ite Only.refl (Only.bothLanes (Only.step Only.refl modSets_only) (fun _ => LaneOnly.share LaneOnly.refl))

theorem swapTakenEffect_only {s l} :
    Only [.sets] l [.share] [.share] s (swapTakenEffect s) := by
  unfold swapTakenEffect
  exact Only.ite Only.refl
    (Only.ite (Only.step (Only.step (Only.step Only.refl modSets_only) reportChecks_only) modSets_only)
      (Only.ite
        (Only.step (Only.step (Only.step (Only.step Only.refl modSets_only) reportChecks_only) setResult_only)
          modSets_only) (Only.step (Only.step (Only.step Only.refl modSets_only) reportChecks_only) setResult_only)))

end Sys2Proof.Machine
end

