-- ==== Sys2Proof/Laws/Thermal.lean ====
section
/-! SUPPORT. What each operation of Machine/Thermal.lean can change: one lemma for each function on the block or a lane, to be cited in
place of unfolding it. -/

namespace Sys2Proof.Machine

set_option Elab.async false

theorem thermalTake_only {t0 x} : LaneOnly [.th] x (thermalTake t0 x) := by
  unfold thermalTake
  exact LaneOnly.th LaneOnly.refl

theorem LaneState.modTh_only {a0 x} : LaneOnly [.th] x (LaneState.modTh a0 x) := by
  unfold LaneState.modTh
  exact LaneOnly.th LaneOnly.refl

theorem releaseLane_only {a0 a1 a2 x} : LaneOnly [.th] x (releaseLane a0 a1 a2 x) := by
  unfold releaseLane
  exact LaneOnly.ite LaneOnly.refl
    (LaneOnly.ite (LaneOnly.step LaneOnly.refl LaneState.modTh_only)
      (LaneOnly.ite (LaneOnly.step LaneOnly.refl LaneState.modTh_only)
        (LaneOnly.ite (LaneOnly.step LaneOnly.refl LaneState.modTh_only)
          (LaneOnly.ite (LaneOnly.step LaneOnly.refl LaneState.modTh_only) LaneOnly.refl))))

theorem sensorReleaseEffect_only {a0 s l} :
    Only [] l [.th] [.th] s (sensorReleaseEffect a0 s) := by
  unfold sensorReleaseEffect
  exact Only.bothLanes Only.refl (fun _ => LaneOnly.step LaneOnly.refl releaseLane_only)

theorem execSensorRelease_only {a0 s l} :
    OnlyNext [.comm] l [.th] [.th] s (execSensorRelease a0 s) := by
  unfold execSensorRelease
  exact OnlyNext.next (hostWrite_only (fun _ => Only.step Only.refl sensorReleaseEffect_only))

theorem thermalPublishLane_only {x} : LaneOnly [.wp, .th] x (thermalPublishLane x) := by
  unfold thermalPublishLane
  exact LaneOnly.step (LaneOnly.step LaneOnly.refl LaneState.modTh_only) LaneState.modWp_only

theorem thermalPublishEffect_only {l s} :
    Only [] l [.wp, .th] [] s (thermalPublishEffect l s) := by
  unfold thermalPublishEffect
  exact Only.ite (Only.modLane Only.refl (fun _ => LaneOnly.step LaneOnly.refl thermalPublishLane_only)) Only.refl

theorem updateHub_only {t0 x} : LaneOnly [.th, .evq] x (updateHub t0 x) := by
  unfold updateHub
  exact LaneOnly.ite
    (LaneOnly.step
      (LaneOnly.ite (LaneOnly.step (LaneOnly.step LaneOnly.refl LaneState.modTh_only) LaneState.event_only)
        (LaneOnly.step LaneOnly.refl LaneState.modTh_only)) LaneState.event_only)
    (LaneOnly.ite (LaneOnly.step (LaneOnly.step LaneOnly.refl LaneState.modTh_only) LaneState.event_only)
      (LaneOnly.step LaneOnly.refl LaneState.modTh_only))

theorem chanEvents_only {a0 a1 a2 a3 x} : LaneOnly [.evq] x (chanEvents a0 a1 a2 a3 x) := by
  unfold chanEvents
  exact LaneOnly.foldl (LaneOnly.foldl LaneOnly.refl (fun _ _ => LaneOnly.step LaneOnly.refl LaneState.event_only))
    (fun _ _ => LaneOnly.ite (LaneOnly.step LaneOnly.refl LaneState.event_only) LaneOnly.refl)

theorem updateBay_only {t0 a1 x} : LaneOnly [.th, .evq] x (updateBay t0 a1 x) := by
  unfold updateBay
  exact LaneOnly.ite (LaneOnly.step LaneOnly.refl LaneState.modTh_only)
    (LaneOnly.step (LaneOnly.step LaneOnly.refl LaneState.modTh_only) chanEvents_only)

theorem updateModule_only {t0 a1 a2 x} : LaneOnly [.th, .evq] x (updateModule t0 a1 a2 x) := by
  unfold updateModule
  exact LaneOnly.ite (LaneOnly.step LaneOnly.refl LaneState.modTh_only)
    (LaneOnly.step (LaneOnly.step LaneOnly.refl LaneState.modTh_only) chanEvents_only)

theorem updateString_only {t0 a1 x} : LaneOnly [.th, .evq] x (updateString t0 a1 x) := by
  unfold updateString
  exact LaneOnly.ite (LaneOnly.step LaneOnly.refl LaneState.modTh_only)
    (LaneOnly.step (LaneOnly.step LaneOnly.refl LaneState.modTh_only) chanEvents_only)

theorem updateXfmr_only {t0 x} : LaneOnly [.th, .evq] x (updateXfmr t0 x) := by
  unfold updateXfmr
  exact LaneOnly.ite (LaneOnly.step LaneOnly.refl LaneState.modTh_only)
    (LaneOnly.step (LaneOnly.step LaneOnly.refl LaneState.modTh_only) chanEvents_only)

theorem thermalLane_only {t0 x} : LaneOnly [.th, .evq] x (thermalLane t0 x) := by
  unfold thermalLane
  exact LaneOnly.step
    (LaneOnly.step
      (LaneOnly.foldl
        (LaneOnly.foldl
          (LaneOnly.foldl (LaneOnly.step LaneOnly.refl updateHub_only)
            (fun _ _ => LaneOnly.step LaneOnly.refl updateBay_only))
          (fun _ _ => LaneOnly.step LaneOnly.refl updateModule_only))
        (fun _ _ => LaneOnly.step LaneOnly.refl updateString_only)) updateXfmr_only) LaneState.modTh_only

theorem thermalUpdateEffect_only {l s} :
    Only [] l [.th, .evq] [] s (thermalUpdateEffect l s) := by
  unfold thermalUpdateEffect
  exact Only.ite (Only.modLane Only.refl (fun _ => LaneOnly.step LaneOnly.refl thermalLane_only)) Only.refl

end Sys2Proof.Machine
end

