-- ==== Sys2Proof/Laws/Trievo.lean ====
section
/-! SUPPORT. What each operation of Machine/Trievo.lean can change: one lemma for each function on the block or a lane, to be cited in
place of unfolding it. -/

namespace Sys2Proof.Machine

set_option Elab.async false

theorem reportSoc_only {a0 a1 s l} :
    Only [] l [.share] [.share] s (reportSoc a0 a1 s) := by
  unfold reportSoc
  exact Only.bothLanes Only.refl (fun _ => LaneOnly.share LaneOnly.refl)

theorem modTri_only {a0 s l} :
    Only [.tri] l [] [] s (modTri a0 s) := by
  unfold modTri
  exact Only.tri Only.refl

theorem ackTimeoutEffect_only {s l} :
    Only [.tri] l [.evq] [.evq] s (ackTimeoutEffect s) := by
  unfold ackTimeoutEffect
  split
  · exact Only.refl
  · exact Only.ite (Only.step Only.refl modTri_only) (Only.step (Only.step Only.refl modTri_only) evt_only)

theorem mailboxTransmitEffect_only {a0 s l} :
    Only [.comm, .tri] l [] [] s (mailboxTransmitEffect a0 s) := by
  unfold mailboxTransmitEffect
  exact Only.ite (Only.step Only.refl respond_only) (hostRange_only (fun _ => Only.step Only.refl modTri_only))

theorem execMailboxTransmit_only {a0 s l} :
    OnlyNext [.comm, .tri] l [] [] s (execMailboxTransmit a0 s) := by
  unfold execMailboxTransmit
  exact OnlyNext.next (Only.step Only.refl mailboxTransmitEffect_only)

theorem mailboxReadEffect_only {s l} :
    Only [.comm, .tri] l [] [] s (mailboxReadEffect s) := by
  unfold mailboxReadEffect
  exact Only.ite Only.refl (by split <;> exact Only.step (Only.step Only.refl modTri_only) respond_only)

theorem peerLostEffect_only {a0 s l} :
    Only [.tri] l [.evq] [.evq] s (peerLostEffect a0 s) := by
  unfold peerLostEffect
  exact Only.ite Only.refl (Only.step (Only.step Only.refl modTri_only) evt_only)

theorem phaseEffect_only {a0 a1 s l} :
    Only [.tri] l [] [] s (phaseEffect a0 a1 s) := by
  unfold phaseEffect
  exact Only.ite Only.refl (Only.step Only.refl modTri_only)

theorem socReport_only {a0 a1 s l} :
    Only [] l [.share] [.share] s (socReport a0 a1 s) := by
  unfold socReport
  exact Only.ite (Only.step Only.refl reportSoc_only) Only.refl

theorem deliverData_only {a0 a1 s l} :
    Only [.tri] l [.share] [.share] s (deliverData a0 a1 s) := by
  unfold deliverData
  exact Only.ite Only.refl
    (by
      split
      · exact Only.ite (Only.step Only.refl socReport_only) (Only.ite (Only.step Only.refl modTri_only) Only.refl)
      · exact Only.refl)

theorem ackEffect_only {a0 s l} :
    Only [.tri] l [] [] s (ackEffect a0 s) := by
  unfold ackEffect
  exact Only.ite (Only.step Only.refl modTri_only) Only.refl

theorem associate_only {a0 s l} :
    Only [.tri] l [] [] s (associate a0 s) := by
  unfold associate
  exact Only.ite Only.refl (by dsimp only; split <;> exact Only.step Only.refl modTri_only)

theorem takeStatus_only {a0 s l} :
    Only [.tri] l [] [] s (takeStatus a0 s) := by
  unfold takeStatus
  split
  · exact Only.step Only.refl modTri_only
  · exact Only.refl

theorem receiveTri_only {a0 g s dev l own rest} (hg : ∀ x, Only dev l own rest x (g x)) (m : Part.tri ∈ dev := by decide) :
    Only dev l own rest s (receiveTri a0 g s) := by
  have h : ∀ {x f}, Only dev l own rest s x → Only dev l own rest s (modTri f x) := fun k => Only.tri k m
  unfold receiveTri
  exact Only.ite Only.refl (Only.ite (h Only.refl) (Only.ite (h Only.refl) (Only.ite (h (h Only.refl)) (Only.trans (h (h Only.refl)) (hg _)))))

theorem triReceived_only {a0 s l} :
    Only [.tri] l [.share] [.share] s (triReceived a0 s) := by
  unfold triReceived
  split
  · exact receiveTri_only (fun _ => Only.step Only.refl deliverData_only)
  · exact Only.step Only.refl ackEffect_only
  · exact receiveTri_only (fun _ => Only.step Only.refl associate_only)
  · exact receiveTri_only (fun _ => Only.step Only.refl takeStatus_only)
  · exact receiveTri_only (fun _ => Only.refl)

theorem triSendEffect_only {a0 s l} :
    Only [.tri] l [] [] s (triSendEffect a0 s) := by
  unfold triSendEffect
  exact Only.ite Only.refl (by split <;> [exact Only.step Only.refl modTri_only; exact Only.refl])

end Sys2Proof.Machine
end

