-- ==== Sys2Proof/Laws/Update.lean ====
section
/-! SUPPORT. What each operation of Machine/Update.lean can change: one lemma for each function on the block or a lane, to be cited in
place of unfolding it. -/

namespace Sys2Proof.Machine

set_option Elab.async false

theorem abortLanes_only {s l} :
    Only [.free, .modes, .bk, .jct, .met, .comm, .veh, .chans, .upd] l allButRoles allButRoles s (abortLanes s) := by
  unfold abortLanes
  split <;> exact
    Only.ite (Only.stepAny (Only.ite (Only.stepAny Only.refl abortOn_only) Only.refl) abortOn_only)
      (Only.ite (Only.stepAny Only.refl abortOn_only) Only.refl)

theorem startRestart_only {s l} :
    Only [.modes, .met, .veh, .upd] l [.bayLoops, .modLoops, .strLoops, .slowLoops, .evq] [.bayLoops, .modLoops,
      .strLoops, .slowLoops, .evq] s (startRestart s) := by
  unfold startRestart
  exact Only.ite (Only.step (Only.step Only.refl modUpd_only) toIdle_only) (Only.step Only.refl modUpd_only)

theorem startRolling_only {s l} :
    Only [.upd] l [] [] s (startRolling s) := by
  unfold startRolling
  exact Only.step Only.refl modUpd_only

theorem confirmEffect_only {l s} :
    Only [] l [.slots] [] s (confirmEffect l s) := by
  unfold confirmEffect
  exact Only.ite (Only.modLane Only.refl (fun _ => LaneOnly.slots LaneOnly.refl)) Only.refl

theorem activation_only {a0 f s dev l own rest} (hf : ∀ x, Only dev l own rest x (f x)) (m : Part.upd ∈ dev := by decide) :
    Only dev l own rest s (activation a0 f s) := by
  have h : Only dev l own rest s (modUpd (fun u => { u with result := BitVec.ofNat 8 a0 }) s) := Only.upd Only.refl m
  unfold activation
  exact Only.ite (h.trans (hf _)) h

theorem execActivationRolling_only {s l} :
    OnlyNext [.comm, .upd] l [] [] s (execActivationRolling s) := by
  unfold execActivationRolling
  exact OnlyNext.next (hostWrite_only (fun _ => activation_only (fun _ => Only.step Only.refl startRolling_only)))

theorem execActivationFullRestart_only {s l} :
    OnlyNext [.modes, .met, .comm, .veh, .upd] l [.bayLoops, .modLoops, .strLoops, .slowLoops, .evq] [.bayLoops,
      .modLoops, .strLoops, .slowLoops, .evq] s (execActivationFullRestart s) := by
  unfold execActivationFullRestart
  exact OnlyNext.next (hostWrite_only (fun _ => activation_only (fun _ => Only.step Only.refl startRestart_only)))

theorem execActivationAbort_only {s l} :
    OnlyNext [.free, .modes, .bk, .jct, .met, .comm, .veh, .chans, .upd] l allButRoles allButRoles
      s (execActivationAbort s) := by
  unfold execActivationAbort
  exact OnlyNext.next
    (hostWrite_only (fun _ => Only.ite (Only.step (Only.step Only.refl abortLanes_only) abortSeq_only) Only.refl))

theorem execHostConfirm_only {a0 s l} :
    OnlyNext [.comm, .upd] l [] [] s (execHostConfirm a0 s) := by
  unfold execHostConfirm
  exact OnlyNext.next (hostRange_only (fun _ => Only.step Only.refl modUpd_only))

theorem completeSeq_only {s l} :
    Only [.upd] l [] [] s (completeSeq s) := by
  unfold completeSeq
  dsimp only; split
  · exact Only.step (Only.step Only.refl modUpd_only) modUpd_only
  · exact Only.step Only.refl modUpd_only

theorem restartStep_only {s l} :
    Only [.clk, .modes, .rails, .bk, .jct, .sets, .comm, .veh, .chans, .site, .tri, .life, .fs, .nand, .upd, .recs,
      .taps] l allLane allLane s (restartStep s) := by
  unfold restartStep
  exact Only.ite (Only.ite Only.refl (Only.step (Only.step Only.refl safeExit_only) resetWith_only))
    (Only.ite (Only.step Only.refl completeSeq_only) Only.refl)

theorem resetStep_only {l s} :
    Only [.free, .modes, .bk, .jct, .comm, .chans, .upd] l allButRoles [.bayLoops, .modLoops, .strLoops, .slowLoops,
      .evq] s (resetStep l s) := by
  unfold resetStep
  exact Only.ite (Only.step (Only.step Only.refl modUpd_only) restartLane_only) Only.refl

theorem askCrossover_only {s l} :
    Only [.jct] l [] [] s (askCrossover s) := by
  unfold askCrossover
  exact Only.ite Only.refl (Only.step Only.refl modJct_only)

theorem rollingStep_only {l s} :
    Only [.free, .modes, .bk, .jct, .comm, .chans, .upd] l allButRoles allButRoles s (rollingStep l s) := by
  unfold rollingStep
  split
  · exact Only.ite (Only.step Only.refl resetStep_only)
      (Only.ite (Only.step (Only.step Only.refl modUpd_only) askCrossover_only) Only.refl)
  · exact Only.ite (Only.ite (Only.stepOther (Only.step Only.refl modUpd_only) resetStep_only) Only.refl)
      (Only.ite (Only.step Only.refl askCrossover_only) Only.refl)
  · exact Only.ite (Only.step Only.refl completeSeq_only) Only.refl
  · exact Only.refl

theorem failedStep_only {s l} :
    Only [.free, .clk, .modes, .rails, .bk, .jct, .sets, .comm, .veh, .chans, .site, .tri, .life, .fs, .nand, .upd,
      .recs, .taps] l allLane allLane s (failedStep s) := by
  unfold failedStep
  split
  · exact Only.ite (Only.stepAny Only.refl restartLane_only)
      (Only.ite
        (Only.ite (Only.step Only.refl askCrossover_only)
          (Only.ite Only.refl (Only.step (Only.step Only.refl safeExit_only) resetWith_only))) Only.refl)
  · exact Only.refl

theorem sequenceAdvance_only {s l} :
    Only [.free, .clk, .modes, .rails, .bk, .jct, .sets, .comm, .veh, .chans, .site, .tri, .life, .fs, .nand, .upd,
      .recs, .taps] l allLane allLane s (sequenceAdvance s) := by
  unfold sequenceAdvance
  exact Only.ite (Only.step Only.refl restartStep_only)
    (by
      split
      · exact Only.stepAny Only.refl rollingStep_only
      · exact Only.step Only.refl failedStep_only)

theorem recoverFrom_only {s l} :
    Only [.jct, .nand, .upd] l allButRoles allButRoles s (recoverFrom s) := by
  unfold recoverFrom
  split
  · exact Only.ite Only.refl
      (by
        split
        · exact Only.stepAny
            (Only.stepAny
              (Only.modAny (Only.step Only.refl modNand_only) (fun _ => LaneOnly.slots LaneOnly.refl)
                (fun _ => LaneOnly.slots LaneOnly.refl)) resetLane_only) setRole_only
        · exact Only.stepAny Only.refl rejectImage_only)
  · exact Only.refl

theorem serviceAnswer_only {a0 a1 a2 s l} :
    Only [.upd] l [] [] s (serviceAnswer a0 a1 a2 s) := by
  unfold serviceAnswer
  exact Only.step Only.refl modUpd_only

theorem serviceRun_only {a0 a1 a2 a3 s l} :
    Only [.upd] l [] [] s (serviceRun a0 a1 a2 a3 s) := by
  unfold serviceRun
  exact Only.ite Only.refl
    (by
      dsimp only; split
      · exact Only.step (Only.step Only.refl modUpd_only) serviceAnswer_only
      · exact Only.step Only.refl serviceAnswer_only)

theorem unconfirmedEffect_only {l s} :
    Only [.free, .modes, .bk, .jct, .met, .comm, .veh, .chans, .upd] l allButRoles [.bayLoops, .modLoops, .strLoops,
      .slowLoops, .evq] s (unconfirmedEffect l s) := by
  unfold unconfirmedEffect
  exact Only.ite (Only.step (Only.modLane Only.refl (fun _ => LaneOnly.slots LaneOnly.refl)) abortOn_only) Only.refl

end Sys2Proof.Machine
end

