-- ==== Sys2Proof/Laws/Vehicle.lean ====
section
/-! SUPPORT. What each operation of Machine/Vehicle.lean can change: one lemma for each function on the block or a lane, to be cited in
place of unfolding it. -/

namespace Sys2Proof.Machine

set_option Elab.async false

theorem answer_only {a0 a1 s l} :
    Only [.veh] l [] [] s (answer a0 a1 s) := by
  unfold answer
  exact Only.step Only.refl modSess_only

theorem refreshOut_only {a0 s l} :
    Only [.veh] l [] [] s (refreshOut a0 s) := by
  unfold refreshOut
  exact Only.step Only.refl modSess_only

theorem stopSess_only {a0 a1 s l} :
    Only [.met, .veh] l [.evq] [.evq] s (stopSess a0 a1 s) := by
  unfold stopSess
  exact Only.step (Only.step Only.refl endSession_only) refreshOut_only

theorem decide312_only {a0 s l} :
    Only [.met, .veh] l [.evq] [.evq] s (decide312 a0 s) := by
  unfold decide312
  exact Only.ite (Only.step (Only.step Only.refl modSess_only) answer_only)
    (Only.ite (Only.step (Only.step Only.refl answer_only) stopSess_only)
      (Only.step (Only.step Only.refl modSess_only) answer_only))

theorem hostAuthEffect_only {a0 a1 s l} :
    Only [.met, .veh] l [.evq] [.evq] s (hostAuthEffect a0 a1 s) := by
  unfold hostAuthEffect
  exact Only.ite (Only.step (Only.step Only.refl modSess_only) decide312_only) (Only.step Only.refl modSess_only)

theorem isolationEffect_only {a0 a1 s l} :
    Only [.met, .veh] l [.evq] [.evq] s (isolationEffect a0 a1 s) := by
  unfold isolationEffect
  exact Only.ite (Only.step (Only.step Only.refl modSess_only) stopSess_only) (Only.step Only.refl modSess_only)

theorem execHostAuthorizationWrite_only {a0 a1 s l} :
    OnlyNext [.met, .comm, .veh] l [.evq] [.evq] s (execHostAuthorizationWrite a0 a1 s) := by
  unfold execHostAuthorizationWrite
  exact OnlyNext.next (hostRange_only (fun _ => Only.step Only.refl hostAuthEffect_only))

theorem execIsolationStateWrite_only {a0 a1 s l} :
    OnlyNext [.met, .comm, .veh] l [.evq] [.evq] s (execIsolationStateWrite a0 a1 s) := by
  unfold execIsolationStateWrite
  exact OnlyNext.next (hostRange_only (fun _ => Only.step Only.refl isolationEffect_only))

theorem requestCame_only {a0 s l} :
    Only [.veh] l [] [] s (requestCame a0 s) := by
  unfold requestCame
  exact Only.step Only.refl modSess_only

theorem failMessage_only {a0 a1 s l} :
    Only [.met, .veh] l [.evq] [.evq] s (failMessage a0 a1 s) := by
  unfold failMessage
  exact Only.ite (Only.step (Only.step (Only.step Only.refl answer_only) evt_only) stopSess_only)
    (Only.ite (Only.step Only.refl answer_only) Only.refl)

theorem goSess_only {a0 a1 s l} :
    Only [.veh] l [] [] s (goSess a0 a1 s) := by
  unfold goSess
  exact Only.step (Only.step Only.refl modSess_only) refreshOut_only

theorem authorize_only {a0 a1 s l} :
    Only [.met, .veh] l [.evq] [.evq] s (authorize a0 a1 s) := by
  unfold authorize
  exact Only.ite
    (Only.ite (Only.step Only.refl failMessage_only)
      (Only.ite (Only.step (Only.step (Only.step Only.refl goSess_only) modSess_only) decide312_only)
        (Only.step (Only.step (Only.step Only.refl goSess_only) answer_only) stopSess_only)))
    (Only.step (Only.step Only.refl goSess_only) decide312_only)

theorem inState_only {a0 a1 f s l} (hf : ∀ x, Only [.met, .veh] l [.evq] [.evq] x (f x)) :
    Only [.met, .veh] l [.evq] [.evq] s (inState a0 a1 f s) := by
  unfold inState
  exact Only.ite (Only.trans (Only.step Only.refl requestCame_only) (hf _)) (Only.step Only.refl failMessage_only)

theorem authorizationEffect_only {a0 a1 s l} :
    Only [.met, .veh] l [.evq] [.evq] s (authorizationEffect a0 a1 s) := by
  unfold authorizationEffect
  exact Only.ite (Only.step (Only.step Only.refl requestCame_only) answer_only)
    (inState_only (fun _ => Only.step Only.refl authorize_only))

theorem backToIdle_only {a0 s l} :
    Only [.veh] l [] [] s (backToIdle a0 s) := by
  unfold backToIdle
  exact Only.ite (Only.step (Only.step Only.refl modSess_only) refreshOut_only) Only.refl

theorem peerGoneEffect_only {a0 s l} :
    Only [.met, .veh] l [.evq] [.evq] s (peerGoneEffect a0 s) := by
  unfold peerGoneEffect
  exact Only.ite (Only.step (Only.step (Only.step Only.refl modSess_only) stopSess_only) backToIdle_only) Only.refl

theorem cableCheckEffect_only {a0 s l} :
    Only [.veh] l [] [] s (cableCheckEffect a0 s) := by
  unfold cableCheckEffect
  exact Only.ite (Only.step Only.refl modSess_only) Only.refl

theorem awaitLimits_only {a0 a1 a2 s l} :
    Only [.veh] l [] [] s (awaitLimits a0 a1 a2 s) := by
  unfold awaitLimits
  exact Only.step Only.refl modSess_only

theorem chargeLoop_only {a0 a1 s l} :
    Only [.veh] l [] [] s (chargeLoop a0 a1 s) := by
  unfold chargeLoop
  exact Only.step (Only.step Only.refl awaitLimits_only) modSess_only

theorem parameterDiscovery_only {a0 a1 s l} :
    Only [.veh] l [] [] s (parameterDiscovery a0 a1 s) := by
  unfold parameterDiscovery
  exact Only.step (Only.step Only.refl awaitLimits_only) modSess_only

theorem slacMatchEffect_only {a0 s l} :
    Only [.free, .veh] l [] [] s (slacMatchEffect a0 s) := by
  unfold slacMatchEffect
  exact Only.ite
    (Only.step (Only.step (Only.step (Only.step Only.refl modSess_only) State.useFree_only) goSess_only) answer_only)
    Only.refl

theorem slacParmEffect_only {a0 s l} :
    Only [.veh] l [] [] s (slacParmEffect a0 s) := by
  unfold slacParmEffect
  exact Only.ite (Only.step (Only.step Only.refl goSess_only) answer_only) Only.refl

theorem attenEffect_only {a0 s l} :
    Only [.veh] l [] [] s (attenEffect a0 s) := by
  unfold attenEffect
  exact Only.ite (Only.step Only.refl answer_only) Only.refl

theorem validateEffect_only {a0 s l} :
    Only [.veh] l [] [] s (validateEffect a0 s) := by
  unfold validateEffect
  exact Only.ite (Only.step Only.refl answer_only) Only.refl

theorem tryAttach_only {a0 s l} :
    Only [.veh] l [] [] s (tryAttach a0 s) := by
  unfold tryAttach
  exact Only.ite (Only.step (Only.step Only.refl modSess_only) refreshOut_only) Only.refl

theorem pilotAcceptedEffect_only {a0 a1 s l} :
    Only [.met, .veh] l [.evq] [.evq] s (pilotAcceptedEffect a0 a1 s) := by
  unfold pilotAcceptedEffect
  exact Only.ite Only.refl
    (Only.ite (Only.step (Only.step (Only.step Only.refl modSess_only) stopSess_only) backToIdle_only)
      (Only.step (Only.step Only.refl modSess_only) tryAttach_only))

theorem pilotX2Effect_only {a0 s l} :
    Only [.veh] l [] [] s (pilotX2Effect a0 s) := by
  unfold pilotX2Effect
  exact Only.ite (Only.step (Only.step Only.refl modSess_only) refreshOut_only) Only.refl

theorem plugDetectedEffect_only {a0 s l} :
    Only [.veh] l [] [] s (plugDetectedEffect a0 s) := by
  unfold plugDetectedEffect
  exact Only.ite Only.refl (Only.step (Only.step Only.refl modSess_only) tryAttach_only)

theorem plugLostEffect_only {a0 s l} :
    Only [.met, .veh] l [.evq] [.evq] s (plugLostEffect a0 s) := by
  unfold plugLostEffect
  exact Only.step (Only.step Only.refl modSess_only) stopSess_only

theorem precharge_only {a0 a1 s l} :
    Only [.veh] l [] [] s (precharge a0 a1 s) := by
  unfold precharge
  exact Only.ite (Only.step (Only.step Only.refl awaitLimits_only) modSess_only) (Only.step Only.refl awaitLimits_only)

theorem bridgeBegin_only {a0 s l} :
    Only [.veh] l [] [] s (bridgeBegin a0 s) := by
  unfold bridgeBegin
  exact Only.ite
    (Only.step (Only.step (Only.step (Only.step Only.refl modSess_only) modSess_only) goSess_only) answer_only)
    (Only.step Only.refl modSess_only)

theorem discoveryEffect_only {a0 s l} :
    Only [.met, .veh] l [.evq] [.evq] s (discoveryEffect a0 s) := by
  unfold discoveryEffect
  exact Only.ite (Only.step Only.refl bridgeBegin_only)
    (Only.ite (Only.step (Only.step Only.refl goSess_only) answer_only)
      (Only.ite (Only.step (Only.step Only.refl requestCame_only) answer_only) (Only.step Only.refl failMessage_only)))

theorem endedEffect_only {a0 s l} :
    Only [.veh] l [] [] s (endedEffect a0 s) := by
  unfold endedEffect
  split
  · exact Only.refl
  · exact Only.ite
      (Only.ite Only.refl
        (Only.ite (Only.step (Only.step (Only.step Only.refl modSess_only) goSess_only) backToIdle_only)
          (Only.ite (Only.step Only.refl modSess_only) Only.refl)))
      (Only.ite (Only.step (Only.step Only.refl goSess_only) backToIdle_only) Only.refl)

theorem sessionSetup_only {a0 s l} :
    Only [.veh] l [] [] s (sessionSetup a0 s) := by
  unfold sessionSetup
  exact Only.step (Only.step Only.refl modSess_only) answer_only

theorem sessionStartEffect_only {a0 s l} :
    Only [.met, .veh] l [.evq] [.evq] s (sessionStartEffect a0 s) := by
  unfold sessionStartEffect
  split
  · exact Only.ite Only.refl
      (Only.ite (Only.step Only.refl stopSess_only)
        (Only.ite
          (Only.step (Only.step (Only.step (Only.step Only.refl modSess_only) refreshOut_only) meterOpen_only)
            stopSess_only) (Only.step (Only.step (Only.step Only.refl modSess_only) refreshOut_only) meterOpen_only)))
  · exact Only.refl

theorem timeoutEffect_only {a0 a1 s l} :
    Only [.met, .veh] l [.evq] [.evq] s (timeoutEffect a0 a1 s) := by
  unfold timeoutEffect
  exact Only.ite (Only.step Only.refl stopSess_only) Only.refl

theorem appProtocol_only {a0 a1 s l} :
    Only [.met, .veh] l [.evq] [.evq] s (appProtocol a0 a1 s) := by
  unfold appProtocol
  split
  · exact Only.step (Only.step Only.refl modSess_only) answer_only
  · exact Only.step (Only.step Only.refl answer_only) stopSess_only

end Sys2Proof.Machine
end

