-- ==== Sys2Proof/Laws/DictServer.lean ====
section
/-! SUPPORT. What each operation of Machine/DictServer.lean can change: one lemma for each function on the block or a lane, to be cited in
place of unfolding it. -/

namespace Sys2Proof.Machine

set_option Elab.async false

theorem keyMessageWrite_only {a0 s l} :
    Only [.free, .clk, .modes, .rails, .bk, .jct, .sets, .comm, .veh, .chans, .site, .tri, .life, .fs, .nand, .upd,
      .recs, .taps] l allLane allLane s (keyMessageWrite a0 s) := by
  unfold keyMessageWrite
  exact updateMessage_only (fun _ _ => Only.stepAny Only.refl opEffect_only)

theorem loopCommandWrite_only {a0 s l} :
    Only [.clk, .comm] l [.evq] [.evq] s (loopCommandWrite a0 s) := by
  unfold loopCommandWrite
  exact Only.step Only.refl ifPermitted_only

/-- What an outcome's next state touches, the state after it touches. -/
theorem stateAfter_only {o s dev l own rest} (h : OnlyNext dev l own rest s o) :
    Only dev l own rest s (stateAfter o s) := by
  unfold stateAfter
  split
  · exact h _ rfl
  · exact Only.refl

theorem sessionWrite_only {a0 a1 a2 s l} :
    Only [.met, .comm, .veh] l [.evq] [.evq] s (sessionWrite a0 a1 a2 s) := by
  unfold sessionWrite
  split
  · exact Only.ite (stateAfter_only (OnlyNext.weaken execHostAuthorizationWrite_only))
      (stateAfter_only (OnlyNext.weaken execIsolationStateWrite_only))
  · exact Only.refl

theorem channelCommand_only {a0 a1 s l} :
    Only [.comm, .chans] l [.evq] [.evq] s (channelCommand a0 a1 s) := by
  unfold channelCommand
  split
  · exact Only.ite (stateAfter_only (OnlyNext.weaken execChannelSleep_only))
      (Only.ite (stateAfter_only (OnlyNext.weaken execChannelWakeCommand_only))
        (stateAfter_only (OnlyNext.weaken execChannelRestart_only)))
  · exact Only.refl

theorem modComm_only {a0 s l} :
    Only [.comm] l [] [] s (modComm a0 s) := by
  unfold modComm
  exact Only.comm Only.refl

theorem liveStore_only {a0 a1 a2 s l} :
    Only [.sets] l [] [] s (liveStore a0 a1 a2 s) := by
  unfold liveStore
  exact Only.step Only.refl modSets_only

/-- A write a unit holds leaves the waiting commands alone. -/
theorem unitWrite_only {a0 a1 a2 s t l} (h : unitWrite a0 a1 a2 s = some t) : Only allUnits l allLane allLane s t := by
  unfold unitWrite at h
  dsimp only at h
  split at h
  · cases h; exact stateAfter_only (OnlyNext.weaken execModeRequestWrite_only)
  · cases h; exact stateAfter_only (OnlyNext.weaken execResetRequest_only)
  · cases h; exact stateAfter_only (OnlyNext.weaken execResetCauseClear_only)
  · cases h; exact stateAfter_only (OnlyNext.weaken execRailFaultLatchClear_only)
  · cases h; exact stateAfter_only (OnlyNext.weaken execPlannedCrossoverRequest_only)
  · cases h; exact stateAfter_only (OnlyNext.weaken execReleaseExcludedLane_only)
  · cases h; exact stateAfter_only
      (OnlyNext.ite (OnlyNext.weaken execShadowCommit_only) (OnlyNext.ite (OnlyNext.weaken execShadowReopen_only) (OnlyNext.ite (OnlyNext.weaken execShadowSwap_only) (OnlyNext.weaken execShadowReload_only))))
  · cases h; exact Only.step (Only.step Only.refl modSets_only) respond_only
  · cases h; exact stateAfter_only (OnlyNext.weaken execSetFlagsClear_only)
  · cases h; exact stateAfter_only (OnlyNext.weaken execEventClear_only)
  · cases h; exact Only.weaken keyMessageWrite_only
  · cases h; exact stateAfter_only
      (OnlyNext.ite (OnlyNext.weaken execKeyStatement_only) (OnlyNext.weaken execCertificationRequest_only))
  · cases h; exact Only.step (Only.step Only.refl modUpd_only) respond_only
  · cases h; exact stateAfter_only
      (OnlyNext.ite (OnlyNext.weaken execActivationRolling_only) (OnlyNext.ite (OnlyNext.weaken execActivationFullRestart_only) (OnlyNext.weaken execActivationAbort_only)))
  · cases h; exact stateAfter_only (OnlyNext.weaken execHostConfirm_only)
  · cases h; exact stateAfter_only (OnlyNext.weaken execRtcWrite_only)
  · cases h; exact Only.step (Only.bk Only.refl) respond_only
  · cases h; exact stateAfter_only (OnlyNext.weaken execTamperLatchClear_only)
  · cases h; exact stateAfter_only (OnlyNext.weaken execSensorRelease_only)
  · cases h; exact Only.weaken loopCommandWrite_only
  · cases h; exact stateAfter_only
      (OnlyNext.ite (OnlyNext.weaken execCaptureArm_only) (OnlyNext.ite (OnlyNext.weaken execCaptureForceTrigger_only) (OnlyNext.weaken execCaptureStop_only)))
  · cases h; exact stateAfter_only
      (OnlyNext.ite (OnlyNext.weaken execInjectionArm_only) (OnlyNext.weaken execInjectionStop_only))
  · cases h; exact stateAfter_only (OnlyNext.weaken execMailboxTransmit_only)
  · rcases ite_eq_iff.mp h with ⟨_, h⟩ | ⟨_, h⟩
    · cases h; exact Only.step (Only.step Only.refl reportSoc_only) respond_only
    · rcases ite_eq_iff.mp h with ⟨_, h⟩ | ⟨_, h⟩
      · have e := Option.some.inj h; subst e; exact Only.weaken sessionWrite_only
      · rcases ite_eq_iff.mp h with ⟨_, h⟩ | ⟨_, h⟩
        · have e := Option.some.inj h; subst e; exact Only.weaken channelCommand_only
        · cases h

theorem storeObject_only {a0 a1 a2 a3 s l} : Only allUnits l allLane allLane s (storeObject a0 a1 a2 a3 s) := by
  unfold storeObject
  split
  · exact Only.step (Only.step Only.refl modSets_only) respond_only
  · exact Only.step (Only.step Only.refl liveStore_only) respond_only
  · split
    · exact unitWrite_only ‹_›
    · exact Only.step (Only.comm Only.refl) respond_only

theorem writeObject_only {a0 a1 a2 s l} :
    Only allUnits l allLane allLane s (writeObject a0 a1 a2 s) := by
  unfold writeObject
  exact Only.ite Only.refl
    (Only.ite (Only.step Only.refl respond_only)
      (by
        split
        · exact Only.step Only.refl storeObject_only
        · exact Only.refl))

theorem udpAnswer_only {a0 s l} :
    Only [.comm] l [] [] s (udpAnswer a0 s) := by
  unfold udpAnswer
  exact Only.step Only.refl modComm_only

theorem readLog_only {s l} :
    Only [.free, .comm] l [] [] s (readLog s) := by
  unfold readLog
  exact Only.step (Only.step Only.refl State.useFree_only) respond_only

theorem readObject_only {a0 a1 s l} :
    Only [.free, .comm, .tri, .recs] l [] [] s (readObject a0 a1 s) := by
  unfold readObject
  exact Only.ite Only.refl
    (Only.ite (Only.step Only.refl respond_only)
      (by
        split
        · exact Only.step Only.refl respond_only
        · exact Only.ite (Only.step Only.refl respond_only)
            (Only.ite (Only.step Only.refl eventReadEffect_only)
              (Only.ite (Only.step Only.refl mailboxReadEffect_only)
                (Only.ite (Only.step Only.refl readLog_only) (Only.step Only.refl respond_only))))))

theorem runRequest_only {a0 s l} :
    Only allUnits l allLane allLane s (runRequest a0 s) := by
  unfold runRequest
  split
  · exact Only.step Only.refl readObject_only
  · exact Only.step Only.refl writeObject_only

theorem udpEffect_only {a0 s l} :
    Only allUnits l allLane allLane s (udpEffect a0 s) := by
  unfold udpEffect
  exact Only.ite Only.refl
    (Only.ite (Only.step Only.refl modComm_only)
      (Only.ite Only.refl
        (by
          dsimp only; split
          · exact Only.step (Only.step Only.refl respond_only) udpAnswer_only
          · exact by
              split
              · exact Only.step (Only.step (Only.step (Only.step Only.refl modComm_only) runRequest_only) modComm_only)
                  udpAnswer_only
              · exact Only.step (Only.step Only.refl modComm_only) runRequest_only)))

theorem usdoTimeoutEffect_only {a0 s l} :
    Only [.comm] l [] [] s (usdoTimeoutEffect a0 s) := by
  unfold usdoTimeoutEffect
  exact Only.ite (Only.step (Only.step Only.refl modComm_only) respond_only) Only.refl

end Sys2Proof.Machine
end

