-- ==== Sys2Proof/Laws/Fed.lean ====
section
/-! SUPPORT. What each operation of Machine/Fed.lean can change: one lemma for each function on the block or a lane, to be cited in
place of unfolding it. -/

namespace Sys2Proof.Machine

set_option Elab.async false

theorem modFed_only {a0 s l} :
    Only [.clk] l [] [] s (modFed a0 s) := by
  unfold modFed
  exact Only.clk Only.refl

theorem dropLead_only {s l} :
    Only [.clk] l [] [] s (dropLead s) := by
  unfold dropLead
  exact Only.ite (Only.step Only.refl modFed_only) Only.refl

theorem federationFallbackEffect_only {s l} :
    Only [.clk] l [.evq] [.evq] s (federationFallbackEffect s) := by
  unfold federationFallbackEffect
  exact Only.ite (Only.step (Only.step (Only.step Only.refl dropLead_only) modFed_only) evt_only) Only.refl

theorem federationReportEffect_only {a0 s l} :
    Only [.clk] l [] [] s (federationReportEffect a0 s) := by
  unfold federationReportEffect
  exact Only.ite Only.refl (Only.step Only.refl modFed_only)

theorem queueReport_only {a0 s l} :
    Only [.clk, .chans] l [] [] s (queueReport a0 s) := by
  unfold queueReport
  exact Only.ite (Only.step Only.refl modFed_only) (Only.step (Only.step Only.refl modChan_only) queueTx_only)

theorem federationReportSendEffect_only {s l} :
    Only [.clk, .chans] l [] [] s (federationReportSendEffect s) := by
  unfold federationReportSendEffect
  exact Only.ite Only.refl
    (Only.ite
      (Only.step
        (Only.ite (Only.step (Only.step Only.refl dropLead_only) modFed_only) (Only.step Only.refl dropLead_only))
        modFed_only)
      (Only.step
        (Only.step
          (Only.ite (Only.step (Only.step Only.refl dropLead_only) modFed_only) (Only.step Only.refl dropLead_only))
          modFed_only) queueReport_only))

theorem federationShareEffect_only {a0 s l} : Only [.clk] l [.evq] [.evq] s (federationShareEffect a0 s) := by
  have h {f x} : Only [.clk] l [.evq] [.evq] s x → Only [.clk] l [.evq] [.evq] s (modFed f x) := fun k => Only.step k modFed_only
  have d : Only [.clk] l [.evq] [.evq] s (dropLead s) := Only.step Only.refl dropLead_only
  unfold federationShareEffect
  refine Only.ite Only.refl ?_
  dsimp only
  cases frameShare (dropLead s) a0 with
  | none => exact Only.ite (Only.ite (Only.step (h d) evt_only) (h d)) d
  | some _ => exact Only.ite d (Only.ite (Only.step (h d) evt_only) (h d))

theorem queueShare_only {a0 s l} :
    Only [.clk, .chans] l [] [] s (queueShare a0 s) := by
  unfold queueShare
  exact Only.ite (Only.step Only.refl modFed_only) (Only.step Only.refl queueTx_only)

theorem federationShareSendEffect_only {s l} :
    Only [.clk, .chans] l [] [] s (federationShareSendEffect s) := by
  unfold federationShareSendEffect
  exact Only.ite (Only.step (Only.step Only.refl modFed_only) queueShare_only) (Only.step Only.refl dropLead_only)

theorem leaderTakeoverEffect_only {s l} :
    Only [.clk] l [.evq] [.evq] s (leaderTakeoverEffect s) := by
  unfold leaderTakeoverEffect
  exact Only.ite (Only.step (Only.step (Only.step Only.refl dropLead_only) modFed_only) evt_only)
    (Only.step Only.refl dropLead_only)

end Sys2Proof.Machine
end

