-- ==== Sys2Proof/Laws/CommProfile.lean ====
section
/-! SUPPORT. What each operation of Machine/CommProfile.lean can change: one lemma for each function on the block or a lane, to be cited in
place of unfolding it. -/

namespace Sys2Proof.Machine

set_option Elab.async false

theorem codedFrame_only {s a0 a1 l} : Only [.clk, .comm] l [] [] s (codedFrame s a0 a1).2 := by
  unfold codedFrame
  repeat' first
    | exact Only.refl
    | exact Only.step Only.refl modComm_only
    | exact Only.step Only.refl modFed_only
    | split

theorem windowStartEffect_only {a0 a1 s l} : Only [.clk, .comm, .chans] l [] [] s (windowStartEffect a0 a1 s) := by
  unfold windowStartEffect
  refine Only.ite (Only.ite (Only.step Only.refl refSendEffect_only) ?_) Only.refl
  dsimp only
  split
  · exact Only.step (Only.step Only.refl codedFrame_only) modChan_only
  · exact Only.refl

theorem heartbeatEffect_only {s l} :
    Only [.comm, .chans] l [] [] s (heartbeatEffect s) := by
  unfold heartbeatEffect
  exact Only.ite (Only.step (Only.step Only.refl modComm_only) nmtFrame_only) Only.refl

theorem nmtGo_only {a0 s l} :
    Only [.comm] l [] [] s (nmtGo a0 s) := by
  unfold nmtGo
  exact Only.ite (Only.step Only.refl modComm_only) Only.refl

theorem resetComm_only {s l} :
    Only [.comm, .chans] l [] [] s (resetComm s) := by
  unfold resetComm
  exact Only.step (Only.step Only.refl modComm_only) nmtFrame_only

theorem pdoWrite_only {a0 a1 a2 s l} :
    Only allUnits l allLane allLane s (pdoWrite a0 a1 a2 s) := by
  unfold pdoWrite
  exact Only.ite (Only.step Only.refl modSets_only)
    (Only.ite (Only.step (Only.step Only.refl writeObject_only) modComm_only) Only.refl)

theorem rpdoEffect_only {a0 a1 s l} :
    Only allUnits l allLane allLane s (rpdoEffect a0 a1 s) := by
  unfold rpdoEffect
  exact Only.ite (Only.foldl Only.refl (fun _ _ => Only.ite Only.refl (Only.step Only.refl pdoWrite_only))) Only.refl

theorem tpdoEffect_only {a0 a1 s l} :
    Only [.comm, .chans] l [] [] s (tpdoEffect a0 a1 s) := by
  unfold tpdoEffect
  exact Only.ite Only.refl
    (by
      split
      · exact Only.refl
      · exact by
          split
          · exact Only.ite (Only.step (Only.step (Only.step Only.refl modComm_only) modChan_only) modChan_only)
              (Only.step (Only.step Only.refl modComm_only) modChan_only)
          · exact Only.step (Only.step Only.refl modComm_only) modChan_only)

end Sys2Proof.Machine
end

