-- ==== Sys2Proof/Laws/ShareEng.lean ====
section
/-! SUPPORT. What each operation of Machine/ShareEng.lean can change: one lemma for each function on the block or a lane, to be cited in
place of unfolding it. -/

namespace Sys2Proof.Machine

set_option Elab.async false

theorem gridStatusLane_only {t0 a1 x} : LaneOnly [.grid] x (gridStatusLane t0 a1 x) := by
  unfold gridStatusLane
  exact LaneOnly.grid LaneOnly.refl

theorem gridStatusEffect_only {l a0 s} :
    Only [.met, .veh] l [.evq, .grid] [.evq] s (gridStatusEffect l a0 s) := by
  unfold gridStatusEffect
  exact Only.ite
    (Only.step (Only.modLane Only.refl (fun _ => LaneOnly.step LaneOnly.refl gridStatusLane_only)) endAllSessions_only)
    (Only.modLane Only.refl (fun _ => LaneOnly.step LaneOnly.refl gridStatusLane_only))

theorem gridStatusStaleEffect_only {l s} :
    Only [.met, .veh] l [.share, .evq, .grid] [.evq] s (gridStatusStaleEffect l s) := by
  unfold gridStatusStaleEffect
  exact Only.ite
    (Only.step (Only.modLane Only.refl (fun _ => LaneOnly.step LaneOnly.refl (LaneOnly.parts (qs := [.share, .grid]))))
      endAllSessions_only)
    (Only.modLane Only.refl (fun _ => LaneOnly.step LaneOnly.refl (LaneOnly.parts (qs := [.share, .grid]))))

theorem limitBlock_only {t0 x} : LaneOnly [.share] x (limitBlock t0 x) := by
  unfold limitBlock
  exact LaneOnly.share LaneOnly.refl

theorem stringCommands_only {t0 x} : LaneOnly [.share] x (stringCommands t0 x) := by
  unfold stringCommands
  exact LaneOnly.share LaneOnly.refl

theorem dropBays_only {t0 x} : LaneOnly [.bayLoops, .modLoops, .strLoops, .slowLoops, .share] x (dropBays t0 x) := by
  unfold dropBays
  exact LaneOnly.foldl LaneOnly.refl
    (fun _ _ =>
      LaneOnly.ite (LaneOnly.step (LaneOnly.ite LaneOnly.refl (LaneOnly.share LaneOnly.refl)) disableLoop_only)
        (LaneOnly.ite LaneOnly.refl (LaneOnly.share LaneOnly.refl)))

theorem modeGrants_only {t0 x} : LaneOnly [.share] x (modeGrants t0 x) := by
  unfold modeGrants
  exact LaneOnly.ite LaneOnly.refl (LaneOnly.share LaneOnly.refl)

theorem idleLatch_only {t0 x} : LaneOnly [.share] x (idleLatch t0 x) := by
  unfold idleLatch
  exact LaneOnly.ite (LaneOnly.share LaneOnly.refl) LaneOnly.refl

theorem sharePeriod_only {t0 x} : LaneOnly [.bayLoops, .modLoops, .strLoops, .slowLoops, .share] x (sharePeriod t0 x) := by
  unfold sharePeriod
  exact LaneOnly.step
    (LaneOnly.step
      (LaneOnly.step (LaneOnly.step (LaneOnly.step LaneOnly.refl idleLatch_only) modeGrants_only) dropBays_only)
      stringCommands_only) limitBlock_only

theorem setFunded_only {a0 a1 x} : LaneOnly [.share] x (setFunded a0 a1 x) := by
  unfold setFunded
  exact LaneOnly.share LaneOnly.refl

theorem fundStrings_only {t0 x} : LaneOnly [.bayLoops, .modLoops, .strLoops, .slowLoops, .share,
      .evq] x (fundStrings t0 x) := by
  unfold fundStrings
  exact LaneOnly.foldl LaneOnly.refl
    (fun _ _ =>
      LaneOnly.ite (LaneOnly.step (LaneOnly.step LaneOnly.refl enableLoop_only) setFunded_only)
        (LaneOnly.ite
          (LaneOnly.step (LaneOnly.ite (LaneOnly.step LaneOnly.refl disableLoop_only) LaneOnly.refl) setFunded_only)
          LaneOnly.refl))

theorem fundBays_only {t0 x} : LaneOnly [.bayLoops, .modLoops, .strLoops, .slowLoops, .share, .evq] x (fundBays t0 x) := by
  unfold fundBays
  exact LaneOnly.foldl LaneOnly.refl
    (fun _ _ => LaneOnly.ite (LaneOnly.share (LaneOnly.step LaneOnly.refl enableLoop_only)) LaneOnly.refl)

theorem shareApplyLane_only {t0 x} : LaneOnly [.bayLoops, .modLoops, .strLoops, .slowLoops, .share,
      .evq] x (shareApplyLane t0 x) := by
  unfold shareApplyLane
  split
  · exact LaneOnly.refl
  · exact LaneOnly.step (LaneOnly.step (LaneOnly.step (LaneOnly.share LaneOnly.refl) fundBays_only) fundStrings_only)
      limitBlock_only

theorem shareIncreaseLane_only {t0 x} : LaneOnly [.bayLoops, .modLoops, .strLoops, .slowLoops, .share,
      .evq] x (shareIncreaseLane t0 x) := by
  unfold shareIncreaseLane
  split
  · exact LaneOnly.refl
  · exact LaneOnly.step (LaneOnly.step (LaneOnly.step (LaneOnly.share LaneOnly.refl) fundBays_only) fundStrings_only)
      limitBlock_only

theorem energyReached_only {s l} :
    Only [.met, .veh] l [.evq] [.evq] s (energyReached s) := by
  unfold energyReached
  exact Only.foldl Only.refl (fun _ _ => Only.ite (Only.step Only.refl endSession_only) Only.refl)

theorem sessionEnergy_only {a0 s l} :
    Only [.veh] l [] [] s (sessionEnergy a0 s) := by
  unfold sessionEnergy
  exact Only.foldl Only.refl (fun _ _ => by split <;> [exact Only.step Only.refl modSess_only; exact Only.refl])

theorem shareRunStartEffect_only {l s} :
    Only [.met, .veh] l [.share, .evq] [.evq] s (shareRunStartEffect l s) := by
  unfold shareRunStartEffect
  exact Only.ite
    (Only.ite
      (Only.step (Only.step (Only.modLane Only.refl (fun _ => LaneOnly.share LaneOnly.refl)) sessionEnergy_only)
        energyReached_only) (Only.modLane Only.refl (fun _ => LaneOnly.share LaneOnly.refl))) Only.refl

theorem contactorHoldLane_only {t0 a1 x} : LaneOnly [.share] x (contactorHoldLane t0 a1 x) := by
  unfold contactorHoldLane
  exact LaneOnly.ite (LaneOnly.share LaneOnly.refl) LaneOnly.refl

end Sys2Proof.Machine
end

