-- ==== Sys2Proof/Laws/Frames.lean ====
section
/-! SUPPORT. What each operation of Machine/Frames.lean can change: one lemma for each function on the block or a lane, to be cited in
place of unfolding it. -/

namespace Sys2Proof.Machine

set_option Elab.async false

theorem shareTake_only {t0 x} : LaneOnly [.share] x (shareTake t0 x) := by
  unfold shareTake
  exact LaneOnly.share LaneOnly.refl

theorem alignLane_only {a0 a1 x} : LaneOnly [.ctl, .health, .grid] x (alignLane a0 a1 x) := by
  unfold alignLane
  exact LaneOnly.step (LaneOnly.ctl LaneOnly.refl) (LaneOnly.parts (qs := [.health, .grid]))

theorem alignmentEffect_only {a0 s l} :
    Only [] l [.ctl, .health, .grid] [.ctl, .health, .grid] s (alignmentEffect a0 s) := by
  unfold alignmentEffect
  split
  · exact Only.refl
  · exact Only.modAny
      (Only.modAny Only.refl (fun _ => LaneOnly.grid LaneOnly.refl) (fun _ => LaneOnly.grid LaneOnly.refl))
      (fun _ => LaneOnly.step LaneOnly.refl alignLane_only) (fun _ => LaneOnly.step LaneOnly.refl alignLane_only)

theorem digestEntryEffect_only {l a0 s} :
    Only [.jct] l [.ctl] [] s (digestEntryEffect l a0 s) := by
  unfold digestEntryEffect
  exact Only.ite Only.refl
    (Only.ite (Only.setLane Only.refl (LaneOnly.ctl LaneOnly.refl))
      (Only.jct (Only.setLane Only.refl (LaneOnly.ctl LaneOnly.refl))))

theorem closeLane_only {t0 x} : LaneOnly [.bank0, .bank1, .links] x (closeLane t0 x) := by
  unfold closeLane
  exact LaneOnly.links (LaneOnly.step LaneOnly.refl modCurBank_only)

theorem pushTap_only {a0 s l} :
    Only [.taps] l [] [] s (pushTap a0 s) := by
  unfold pushTap
  exact Only.ite (Only.taps Only.refl) Only.refl

theorem tapMissing_only {a0 s l} :
    Only [.free, .taps] l [] [] s (tapMissing a0 s) := by
  unfold tapMissing
  exact Only.step (Only.step Only.refl State.useFree_only) pushTap_only

theorem tapsMissing_only {s l} :
    Only [.free, .taps] l [] [] s (tapsMissing s l) := by
  unfold tapsMissing
  exact Only.foldl Only.refl (fun _ _ => Only.ite (Only.step Only.refl tapMissing_only) Only.refl)

theorem frameBankCloseEffect_only {l s} :
    Only [.free, .taps] l [.ctl, .health, .bank0, .bank1, .links] [] s (frameBankCloseEffect l s) := by
  unfold frameBankCloseEffect
  exact Only.ite
    (Only.step (Only.modLane Only.refl (fun _ => LaneOnly.step LaneOnly.refl closeLane_only)) tapsMissing_only)
    (Only.ite
      (Only.modLane (Only.modLane Only.refl (fun _ => LaneOnly.step LaneOnly.refl closeLane_only))
        (fun _ => LaneOnly.step LaneOnly.refl (LaneOnly.parts (qs := [.ctl, .health]))))
      (Only.modLane Only.refl (fun _ => LaneOnly.step LaneOnly.refl closeLane_only)))

theorem tapSend_only {l a0 s} :
    Only [.taps] l [] [] s (tapSend l a0 s) := by
  unfold tapSend
  exact Only.ite Only.refl
    (Only.ite Only.refl
      (Only.ite (Only.ite (Only.step Only.refl pushTap_only) (Only.step Only.refl pushTap_only))
        (Only.ite (Only.step (Only.taps Only.refl) pushTap_only) Only.refl)))

theorem linkUpEffect_only {l a0 s} :
    Only [.taps] l [.bank0, .bank1, .links, .evq] [] s (linkUpEffect l a0 s) := by
  unfold linkUpEffect
  exact Only.ite (Only.step (Only.modLane Only.refl (fun _ => LaneOnly.step LaneOnly.refl linkUpLane_only)) tapSend_only)
    (Only.modLane Only.refl (fun _ => LaneOnly.step LaneOnly.refl linkUpLane_only))

theorem safeBays_only {s l} :
    Only [.veh] l [] [] s (safeBays s) := by
  unfold safeBays
  exact Only.ite Only.refl (Only.veh Only.refl)

theorem safeStrings_only {t0 x} : LaneOnly [.share] x (safeStrings t0 x) := by
  unfold safeStrings
  exact LaneOnly.ite LaneOnly.refl (LaneOnly.share LaneOnly.refl)

theorem evalLane_only {t0 a1 x} : LaneOnly [.ctl, .out, .relay, .bayLoops, .modLoops, .strLoops, .slowLoops, .share,
      .wp, .evq] x (evalLane t0 a1 x) := by
  unfold evalLane
  dsimp only; split
  · exact LaneOnly.step
      (LaneOnly.ite (LaneOnly.step (LaneOnly.step LaneOnly.refl LaneState.modLoop_only) LaneState.event_only)
        (LaneOnly.step LaneOnly.refl LaneState.modLoop_only)) enterFault_only
  · exact LaneOnly.ite (LaneOnly.step (LaneOnly.step LaneOnly.refl LaneState.modLoop_only) LaneState.event_only)
      (LaneOnly.step LaneOnly.refl LaneState.modLoop_only)

theorem tilePlausibility_only {t0 x} : LaneOnly [.health, .tiles, .evq] x (tilePlausibility t0 x) := by
  unfold tilePlausibility
  exact LaneOnly.foldl LaneOnly.refl
    (fun _ _ =>
      LaneOnly.ite
        (LaneOnly.step (LaneOnly.step LaneOnly.refl (LaneOnly.parts (qs := [.health, .tiles]))) LaneState.event_only)
        LaneOnly.refl)

theorem evaluateLoops_only {t0 x} : LaneOnly [.ctl, .health, .out, .tiles, .relay, .bayLoops, .modLoops, .strLoops,
      .slowLoops, .share, .wp, .evq] x (evaluateLoops t0 x) := by
  unfold evaluateLoops
  exact LaneOnly.step (LaneOnly.ctl (LaneOnly.foldl LaneOnly.refl (fun _ _ => LaneOnly.step LaneOnly.refl evalLane_only)))
    tilePlausibility_only

theorem creditCheck_only {t0 x} : LaneOnly [.health, .queues, .evq] x (creditCheck t0 x) := by
  unfold creditCheck
  exact LaneOnly.foldl (LaneOnly.step LaneOnly.refl (LaneOnly.parts (qs := [.health, .queues])))
    (fun _ _ => LaneOnly.step LaneOnly.refl LaneState.event_only)

theorem stepOverrides_only {x} : LaneOnly [.bayLoops, .modLoops, .strLoops, .slowLoops] x (stepOverrides x) := by
  unfold stepOverrides
  exact LaneOnly.step LaneOnly.refl LaneState.mapLoops_only

theorem latchLane_only {t0 x} : LaneOnly [.ctl, .health, .out, .latched, .tiles, .relay, .bayLoops, .modLoops,
      .strLoops, .slowLoops, .share, .wp, .queues, .evq] x (latchLane t0 x) := by
  unfold latchLane
  exact LaneOnly.step
    (LaneOnly.step
      (LaneOnly.latched
        (LaneOnly.step (LaneOnly.step (LaneOnly.step LaneOnly.refl moveTick_only) evaluateLoops_only) safeStrings_only))
      stepOverrides_only) creditCheck_only

theorem composeAll_only {s l} :
    Only [.veh] l [] [] s (composeAll s) := by
  unfold composeAll
  exact Only.veh Only.refl

theorem outputLatchEffect_only {l s} :
    Only [.clk, .veh] l [.ctl, .health, .out, .latched, .tiles, .relay, .bayLoops, .modLoops, .strLoops, .slowLoops,
      .share, .wp, .queues, .evq] [.evq] s (outputLatchEffect l s) := by
  unfold outputLatchEffect
  exact Only.ite Only.refl
    (Only.ite
      (Only.step
        (Only.step
          (Only.step
            (Only.modLane (Only.ite (Only.step Only.refl safeBays_only) Only.refl)
              (fun _ => LaneOnly.step LaneOnly.refl latchLane_only)) recheckSpares_only) composeAll_only)
        capturePeriod_only)
      (Only.step
        (Only.modLane (Only.ite (Only.step Only.refl safeBays_only) Only.refl)
          (fun _ => LaneOnly.step LaneOnly.refl latchLane_only)) recheckSpares_only))

theorem runSecond_only {x} : LaneOnly [.slots] x (runSecond x) := by
  unfold runSecond
  exact LaneOnly.ite (LaneOnly.slots LaneOnly.refl) LaneOnly.refl

theorem runTime_only {t0 s l} :
    Only [] l [.slots] [.slots] s (runTime t0 s) := by
  unfold runTime
  exact Only.ite Only.refl
    (Only.ite
      (Only.modAny
        (Only.ite
          (Only.modAny Only.refl (fun _ => LaneOnly.step LaneOnly.refl runSecond_only)
            (fun _ => LaneOnly.step LaneOnly.refl runSecond_only)) Only.refl)
        (fun _ => LaneOnly.step LaneOnly.refl runSecond_only) (fun _ => LaneOnly.step LaneOnly.refl runSecond_only))
      (Only.ite
        (Only.modAny Only.refl (fun _ => LaneOnly.step LaneOnly.refl runSecond_only)
          (fun _ => LaneOnly.step LaneOnly.refl runSecond_only)) Only.refl))

theorem siteRun_only {s l} :
    Only [.site] l [] [] s (siteRun s) := by
  unfold siteRun
  exact Only.site Only.refl

theorem tickPeriod_only {s l} :
    Only [.clk, .site] l [.evq, .slots] [.evq, .slots] s (tickPeriod s) := by
  unfold tickPeriod
  exact Only.step (Only.step (Only.step (Only.clk Only.refl) stampEvents_only) siteRun_only) runTime_only

theorem tapHeld_only {s l} :
    Only [.taps] l [] [] s (tapHeld s) := by
  unfold tapHeld
  split
  · exact Only.foldl Only.refl (fun _ _ => Only.ite (Only.stepAny Only.refl tapSend_only) Only.refl)
  · exact Only.refl

theorem releaseHold_only {t0 x} : LaneOnly [.bank0, .bank1, .links] x (releaseHold t0 x) := by
  unfold releaseHold
  exact LaneOnly.foldl LaneOnly.refl
    (fun _ _ =>
      by
        split
        · exact LaneOnly.ite (LaneOnly.step (LaneOnly.step LaneOnly.refl LaneState.modLink_only) storeFrame_only)
            LaneOnly.refl
        · exact LaneOnly.refl)

theorem laneCycle0_only {t0 x} : LaneOnly [.health, .bank0, .bank1, .links, .bayLoops, .modLoops, .strLoops,
      .slowLoops] x (laneCycle0 t0 x) := by
  unfold laneCycle0
  exact LaneOnly.step
    (LaneOnly.step
      (LaneOnly.step (LaneOnly.step LaneOnly.refl modCurBank_only) (LaneOnly.parts (qs := [.health, .links])))
      LaneState.mapLoops_only) releaseHold_only

theorem lanePublish_only {t0 x} : LaneOnly [.bayLoops, .modLoops, .strLoops, .slowLoops, .share, .wp] x (lanePublish t0 x) := by
  unfold lanePublish
  exact LaneOnly.step (LaneOnly.step LaneOnly.refl wpPeriod_only) sharePeriod_only

theorem publishLanes_only {s l} :
    Only [] l [.bayLoops, .modLoops, .strLoops, .slowLoops, .share, .wp] [.bayLoops, .modLoops, .strLoops,
      .slowLoops, .share, .wp] s (publishLanes s) := by
  unfold publishLanes
  exact Only.ite
    (Only.modAny
      (Only.ite
        (Only.modAny Only.refl (fun _ => LaneOnly.step LaneOnly.refl lanePublish_only)
          (fun _ => LaneOnly.step LaneOnly.refl lanePublish_only)) Only.refl)
      (fun _ => LaneOnly.step LaneOnly.refl lanePublish_only) (fun _ => LaneOnly.step LaneOnly.refl lanePublish_only))
    (Only.ite
      (Only.modAny Only.refl (fun _ => LaneOnly.step LaneOnly.refl lanePublish_only)
        (fun _ => LaneOnly.step LaneOnly.refl lanePublish_only)) Only.refl)

theorem periodBoundaryEffect_only {s l} :
    Only [.free, .clk, .modes, .met, .comm, .veh, .chans, .site, .taps] l [.health, .bank0, .bank1, .links,
      .bayLoops, .modLoops, .strLoops, .slowLoops, .share, .wp, .evq, .slots] [.health, .bank0, .bank1, .links,
      .bayLoops, .modLoops, .strLoops, .slowLoops, .share, .wp, .evq, .slots] s (periodBoundaryEffect s) := by
  unfold periodBoundaryEffect
  exact Only.ite Only.refl
    (Only.step
      (Only.step
        (Only.step
          (Only.step
            (Only.step
              (Only.step
                (Only.step
                  (Only.step
                    (Only.bothLanes (Only.step (Only.step Only.refl tickPeriod_only) sendFrames_only)
                      (fun _ => LaneOnly.step LaneOnly.refl laneCycle0_only)) tapHeld_only) linkReactions_only)
                modeCompletion_only) safeBoundary_only) sessionsPeriod_only) meterPeriod_only) injectionPeriod_only)
      publishLanes_only)

theorem lockFell_only {l a0 s} :
    Only [.met, .veh] l [.evq] [.evq] s (lockFell l a0 s) := by
  unfold lockFell
  dsimp only; split
  · exact by
      split
      · exact Only.ite (Only.step Only.refl endSession_only) Only.refl
      · exact Only.refl
  · exact Only.refl

theorem upFrameEffect_only {l a0 a1 s} :
    Only [.met, .veh, .taps] l [.bank0, .bank1, .links, .evq] [.evq] s (upFrameEffect l a0 a1 s) := by
  unfold upFrameEffect
  exact Only.ite
    (Only.step (Only.step (Only.modLane Only.refl (fun _ => LaneOnly.step LaneOnly.refl receiveLane_only)) tapSend_only)
      lockFell_only) (Only.modLane Only.refl (fun _ => LaneOnly.step LaneOnly.refl receiveLane_only))

end Sys2Proof.Machine
end

