-- ==== Sys2Proof/Laws/Lists.lean ====
section
/-! SUPPORT. Lists by index: what `nth`, `upd` and `put` read and leave, and the canonical form of stores. -/

namespace Sys2Proof.Machine

set_option Elab.async false

variable {α : Type}

@[simp] theorem upd_length (l : List α) (i : Nat) (f : α → α) : (upd l i f).length = l.length := by simp [upd]
@[simp] theorem put_length (l : List α) (i : Nat) (x : α) : (put l i x).length = l.length := by simp [put]

theorem nth_upd [Inhabited α] (l : List α) (i j : Nat) (f : α → α) (h : i < l.length) :
    nth (upd l i f) j = if i = j then f (nth l j) else nth l j := by
  by_cases e : i = j
  · subst e; simp [nth, upd, h]
  · simp [nth, upd, e]

theorem nth_upd_self [Inhabited α] (l : List α) (i : Nat) (f : α → α) (h : i < l.length) : nth (upd l i f) i = f (nth l i) := by
  rw [nth_upd l i i f h, if_pos rfl]

theorem nth_upd_ne [Inhabited α] (l : List α) (i j : Nat) (f : α → α) (h : i ≠ j) : nth (upd l i f) j = nth l j := by
  simp [nth, upd, h]

theorem nth_put_self [Inhabited α] (l : List α) (i : Nat) (x : α) (h : i < l.length) : nth (put l i x) i = x :=
  nth_upd_self l i (fun _ => x) h

theorem nth_put_ne [Inhabited α] (l : List α) (i j : Nat) (x : α) (h : i ≠ j) : nth (put l i x) j = nth l j :=
  nth_upd_ne l i j (fun _ => x) h

theorem nth_map [Inhabited α] {β : Type} [Inhabited β] (f : α → β) (l : List α) (i : Nat) (h : i < l.length) :
    nth (l.map f) i = f (nth l i) := by simp [nth, h]

theorem nth_mapIdx [Inhabited α] {β : Type} [Inhabited β] (f : Nat → α → β) (l : List α) (i : Nat) (h : i < l.length) :
    nth (l.mapIdx f) i = f i (nth l i) := by simp [nth, h]

end Sys2Proof.Machine
end

