-- ==== Sys2Proof/Laws/Keeps.lean ====
section
/-! SUPPORT. The laws of `Keeps` and `LaneKeeps`, what an operation does to the invariant: they hold of a state and itself, they compose,
and they follow a record update, a branch, a fold and a change of a lane. -/

namespace Sys2Proof.Machine

set_option Elab.async false

/-! ## Parts of the invariant -/

/-- The share engine's lists. -/
def ShareOk (h : Share) : Prop := h.strs.length = 8 ∧ h.bayAcc.length = 24 ∧ h.pol.s.length = 16

/-- The queues: 128, each balanced. -/
def QueuesOk (l : List HwQueue) : Prop := l.length = 128 ∧ ∀ q < 128, (nth l q).credit + (nth l q).entries.length = queueDepth q

/-- The site-bus channels. -/
def ChansOk (l : List Channel) : Prop := l.length = 4 ∧ ∀ c ∈ l, c.tx.length = 4 ∧ c.rx.length = 2

/-- The metrology section's lists. -/
def MetOk (m : Metro) : Prop := m.dc.length = 32 ∧ m.bill.regs.sessions.length = 32 ∧ m.pout.length = 4 ∧ m.pin.length = 4

/-- The dictionary's lists and rw values. -/
def CommOk (c : Comm) : Prop :=
  c.sessions.length = 4 ∧ c.tpdoAt.length = 16 ∧ Store.Canonical (fun k v => NotEmpty k v ∨ NotDefault k v) c.rw

/-- The configuration sets. -/
def SetsOk (k : Sets) : Prop :=
  Store.Canonical NotDefault k.active ∧ Store.Canonical NotDefault k.shadow ∧ Store.Canonical NotEmpty k.published

/-- The invariant of a lane. -/
def LaneInv (x : LaneState) : Prop :=
  (x.links.length = 64 ∧ x.bank0.length = 64 ∧ x.bank1.length = 64 ∧ x.out.length = 64 ∧ x.latched.length = 64) ∧ x.tiles.length = 10 ∧
  (x.bayLoops.length = 24 ∧ x.modLoops.length = 96 ∧ x.strLoops.length = 8 ∧ x.slowLoops.length = 15) ∧ QueuesOk x.queues ∧
  x.roleMap.length = 128 ∧ x.wp.mods.length = 96 ∧ ShareOk x.share

theorem LaneInv.iff {x} : LaneInv x ↔ LaneShape x ∧ LaneBalanced x := by
  constructor
  · rintro ⟨⟨h1, h2, h3, h4, h5⟩, h6, ⟨h7, h8, h9, h10⟩, ⟨h11, h12⟩, h13, h14, h15, h16, h17⟩
    exact ⟨⟨h1, h2, h3, h4, h5, h6, h7, h8, h9, h10, h11, h13, h14, h15, h16, h17⟩, h12⟩
  · rintro ⟨h, b⟩
    exact ⟨⟨h.links, h.bank0, h.bank1, h.out, h.latched⟩, h.tiles, ⟨h.bayLoops, h.modLoops, h.strLoops, h.slowLoops⟩, ⟨h.queues, b⟩,
      h.roleMap, h.mods, h.strs, h.bayAcc, h.polS⟩

theorem Inv.iff {s} : Inv s ↔ LaneInv s.laneA ∧ LaneInv s.laneB ∧ s.veh.links.length = 24 ∧ ChansOk s.chans ∧ MetOk s.met ∧
    s.bk.inputs.length = 4 ∧ CommOk s.comm ∧ SetsOk s.sets ∧ Store.Canonical NotEmpty s.fs.cells := by
  constructor
  · rintro ⟨h, b, t⟩
    exact ⟨LaneInv.iff.2 ⟨h.laneA, b.1⟩, LaneInv.iff.2 ⟨h.laneB, b.2⟩, h.veh, ⟨h.chans, h.queues⟩, ⟨h.dc, h.bill, h.pout, h.pin⟩, h.inputs,
      ⟨h.sessions, h.tpdo, t.rw⟩, ⟨t.active, t.shadow, t.published⟩, t.fs⟩
  · rintro ⟨a, b, hv, hc, hm, hi, hs, ht, hf⟩
    exact ⟨⟨(LaneInv.iff.1 a).1, (LaneInv.iff.1 b).1, hv, hc.1, hc.2, hm.1, hm.2.1, hm.2.2.1, hm.2.2.2, hi, hs.1, hs.2.1⟩,
      ⟨(LaneInv.iff.1 a).2, (LaneInv.iff.1 b).2⟩, ⟨ht.1, ht.2.1, ht.2.2, hs.2.2, hf⟩⟩

/-! ## Lanes -/

/-- The invariant goes over from lane x to lane y. -/
def LaneKeeps (x y : LaneState) : Prop := LaneInv x → LaneInv y

theorem LaneKeeps.refl {x} : LaneKeeps x x := id

theorem LaneKeeps.step {x y z} (h : LaneKeeps x y) (k : LaneKeeps y z) : LaneKeeps x z := k ∘ h

theorem LaneKeeps.ite {x a b} {c : Prop} [Decidable c] (ha : LaneKeeps x a) (hb : LaneKeeps x b) : LaneKeeps x (if c then a else b) := by
  split <;> assumption

theorem LaneKeeps.foldl {α : Type} {x init} {g : LaneState → α → LaneState} {xs : List α} (h : LaneKeeps x init)
    (hg : ∀ y i, LaneKeeps y (g y i)) : LaneKeeps x (xs.foldl g init) := by
  induction xs generalizing init with
  | nil => exact h
  | cons i xs ih => exact ih (h.step (hg init i))

/-- A record update of a lane: each list it replaces has the length of the one before. -/
theorem LaneKeeps.leaf {x y : LaneState}
    (links : x.links.length = 64 → y.links.length = 64 := by first | exact id | (intro h; simpa using h))
    (bank0 : x.bank0.length = 64 → y.bank0.length = 64 := by first | exact id | (intro h; simpa using h))
    (bank1 : x.bank1.length = 64 → y.bank1.length = 64 := by first | exact id | (intro h; simpa using h))
    (out : x.out.length = 64 → y.out.length = 64 := by first | exact id | (intro h; simpa using h))
    (latched : x.latched.length = 64 → y.latched.length = 64 := by first | exact id | (intro h; simpa using h))
    (tiles : x.tiles.length = 10 → y.tiles.length = 10 := by first | exact id | (intro h; simpa using h))
    (bayLoops : x.bayLoops.length = 24 → y.bayLoops.length = 24 := by first | exact id | (intro h; simpa using h))
    (modLoops : x.modLoops.length = 96 → y.modLoops.length = 96 := by first | exact id | (intro h; simpa using h))
    (strLoops : x.strLoops.length = 8 → y.strLoops.length = 8 := by first | exact id | (intro h; simpa using h))
    (slowLoops : x.slowLoops.length = 15 → y.slowLoops.length = 15 := by first | exact id | (intro h; simpa using h))
    (queues : QueuesOk x.queues → QueuesOk y.queues := by exact id)
    (roleMap : x.roleMap.length = 128 → y.roleMap.length = 128 := by first | exact id | (intro h; simpa using h))
    (mods : x.wp.mods.length = 96 → y.wp.mods.length = 96 := by first | exact id | (intro h; simpa using h))
    (share : ShareOk x.share → ShareOk y.share := by first | exact id | (intro h; simpa [ShareOk] using h)) : LaneKeeps x y := by
  rintro ⟨⟨h1, h2, h3, h4, h5⟩, h6, ⟨h7, h8, h9, h10⟩, h11, h12, h13, h14⟩
  exact ⟨⟨links h1, bank0 h2, bank1 h3, out h4, latched h5⟩, tiles h6, ⟨bayLoops h7, modLoops h8, strLoops h9, slowLoops h10⟩, queues h11,
    roleMap h12, mods h13, share h14⟩

/-- The parts of a lane the invariant speaks of. -/
abbrev invLane : List LanePart :=
  [.links, .bank0, .bank1, .out, .latched, .tiles, .bayLoops, .modLoops, .strLoops, .slowLoops, .queues, .roleMap, .wp, .share]

/-- A change of other parts keeps the invariant. -/
theorem LaneOnly.keeps {qs x y} (h : LaneOnly qs x y) (hq : ∀ q ∈ invLane, q ∉ qs := by decide) : LaneKeeps x y := by
  have e : ∀ q ∈ invLane, q.same x y := fun q hm => h q (hq q hm)
  exact LaneKeeps.leaf (by rw [e .links (by decide)]; exact id) (by rw [e .bank0 (by decide)]; exact id)
    (by rw [e .bank1 (by decide)]; exact id) (by rw [e .out (by decide)]; exact id) (by rw [e .latched (by decide)]; exact id)
    (by rw [e .tiles (by decide)]; exact id) (by rw [e .bayLoops (by decide)]; exact id) (by rw [e .modLoops (by decide)]; exact id)
    (by rw [e .strLoops (by decide)]; exact id) (by rw [e .slowLoops (by decide)]; exact id) (by rw [e .queues (by decide)]; exact id)
    (by rw [e .roleMap (by decide)]; exact id) (by rw [e .wp (by decide)]; exact id) (by rw [e .share (by decide)]; exact id)

/-! ## The block -/

/-- The invariant goes over from s to t. -/
def Keeps (s t : State) : Prop := Inv s → Inv t

theorem Keeps.refl {s} : Keeps s s := id

theorem Keeps.step {s x y} (h : Keeps s x) (k : Keeps x y) : Keeps s y := k ∘ h

theorem Keeps.ite {s a b} {c : Prop} [Decidable c] (ha : Keeps s a) (hb : Keeps s b) : Keeps s (if c then a else b) := by
  split <;> assumption

theorem Keeps.foldl {α : Type} {s init} {g : State → α → State} {xs : List α} (h : Keeps s init) (hg : ∀ x i, Keeps x (g x i)) :
    Keeps s (xs.foldl g init) := by
  induction xs generalizing init with
  | nil => exact h
  | cons i xs ih => exact ih (h.step (hg init i))

/-- A record update of the block. -/
theorem Keeps.leaf {s t : State}
    (laneA : LaneKeeps s.laneA t.laneA := by exact id) (laneB : LaneKeeps s.laneB t.laneB := by exact id)
    (veh : s.veh.links.length = 24 → t.veh.links.length = 24 := by first | exact id | (intro h; simpa using h))
    (chans : ChansOk s.chans → ChansOk t.chans := by exact id)
    (met : MetOk s.met → MetOk t.met := by first | exact id | (intro h; simpa [MetOk] using h))
    (bk : s.bk.inputs.length = 4 → t.bk.inputs.length = 4 := by first | exact id | (intro h; simpa using h))
    (comm : CommOk s.comm → CommOk t.comm := by first | exact id | (intro h; simpa [CommOk] using h))
    (sets : SetsOk s.sets → SetsOk t.sets := by first | exact id | (intro h; simpa [SetsOk] using h))
    (fs : Store.Canonical NotEmpty s.fs.cells → Store.Canonical NotEmpty t.fs.cells := by exact id) : Keeps s t := by
  intro h
  obtain ⟨a, b, hv, hc, hm, hi, hs, ht, hf⟩ := Inv.iff.1 h
  exact Inv.iff.2 ⟨laneA a, laneB b, veh hv, chans hc, met hm, bk hi, comm hs, sets ht, fs hf⟩

/-! ## One part of a lane replaced -/

theorem LaneKeeps.ctl {x y : LaneState} {v} (h : LaneKeeps x y) : LaneKeeps x { y with ctl := v } := h.step LaneKeeps.leaf

theorem LaneKeeps.temp {x y : LaneState} {v} (h : LaneKeeps x y) : LaneKeeps x { y with temp := v } := h.step LaneKeeps.leaf

theorem LaneKeeps.health {x y : LaneState} {v} (h : LaneKeeps x y) : LaneKeeps x { y with health := v } := h.step LaneKeeps.leaf

theorem LaneKeeps.bank0 {x y : LaneState} {v} (h : LaneKeeps x y)
    (k : y.bank0.length = 64 → v.length = 64 := by first | exact id | (intro h; simpa using h)) : LaneKeeps x { y with bank0 := v } := h.step (LaneKeeps.leaf (bank0 := k))

theorem LaneKeeps.bank1 {x y : LaneState} {v} (h : LaneKeeps x y)
    (k : y.bank1.length = 64 → v.length = 64 := by first | exact id | (intro h; simpa using h)) : LaneKeeps x { y with bank1 := v } := h.step (LaneKeeps.leaf (bank1 := k))

theorem LaneKeeps.links {x y : LaneState} {v} (h : LaneKeeps x y)
    (k : y.links.length = 64 → v.length = 64 := by first | exact id | (intro h; simpa using h)) : LaneKeeps x { y with links := v } := h.step (LaneKeeps.leaf (links := k))

theorem LaneKeeps.out {x y : LaneState} {v} (h : LaneKeeps x y)
    (k : y.out.length = 64 → v.length = 64 := by first | exact id | (intro h; simpa using h)) : LaneKeeps x { y with out := v } := h.step (LaneKeeps.leaf (out := k))

theorem LaneKeeps.latched {x y : LaneState} {v} (h : LaneKeeps x y)
    (k : y.latched.length = 64 → v.length = 64 := by first | exact id | (intro h; simpa using h)) : LaneKeeps x { y with latched := v } := h.step (LaneKeeps.leaf (latched := k))

theorem LaneKeeps.tiles {x y : LaneState} {v} (h : LaneKeeps x y)
    (k : y.tiles.length = 10 → v.length = 10 := by first | exact id | (intro h; simpa using h)) : LaneKeeps x { y with tiles := v } := h.step (LaneKeeps.leaf (tiles := k))

theorem LaneKeeps.relay {x y : LaneState} {v} (h : LaneKeeps x y) : LaneKeeps x { y with relay := v } := h.step LaneKeeps.leaf

theorem LaneKeeps.bayLoops {x y : LaneState} {v} (h : LaneKeeps x y)
    (k : y.bayLoops.length = 24 → v.length = 24 := by first | exact id | (intro h; simpa using h)) : LaneKeeps x { y with bayLoops := v } := h.step (LaneKeeps.leaf (bayLoops := k))

theorem LaneKeeps.modLoops {x y : LaneState} {v} (h : LaneKeeps x y)
    (k : y.modLoops.length = 96 → v.length = 96 := by first | exact id | (intro h; simpa using h)) : LaneKeeps x { y with modLoops := v } := h.step (LaneKeeps.leaf (modLoops := k))

theorem LaneKeeps.strLoops {x y : LaneState} {v} (h : LaneKeeps x y)
    (k : y.strLoops.length = 8 → v.length = 8 := by first | exact id | (intro h; simpa using h)) : LaneKeeps x { y with strLoops := v } := h.step (LaneKeeps.leaf (strLoops := k))

theorem LaneKeeps.slowLoops {x y : LaneState} {v} (h : LaneKeeps x y)
    (k : y.slowLoops.length = 15 → v.length = 15 := by first | exact id | (intro h; simpa using h)) : LaneKeeps x { y with slowLoops := v } := h.step (LaneKeeps.leaf (slowLoops := k))

theorem LaneKeeps.share {x y : LaneState} {v} (h : LaneKeeps x y)
    (k : ShareOk y.share → ShareOk v := by first | exact id | (intro h; simpa [ShareOk] using h)) : LaneKeeps x { y with share := v } := h.step (LaneKeeps.leaf (share := k))

theorem LaneKeeps.wp {x y : LaneState} {v} (h : LaneKeeps x y)
    (k : y.wp.mods.length = 96 → v.mods.length = 96 := by first | exact id | (intro h; simpa using h)) : LaneKeeps x { y with wp := v } := h.step (LaneKeeps.leaf (mods := k))

theorem LaneKeeps.th {x y : LaneState} {v} (h : LaneKeeps x y) : LaneKeeps x { y with th := v } := h.step LaneKeeps.leaf

theorem LaneKeeps.queues {x y : LaneState} {v} (h : LaneKeeps x y)
    (k : QueuesOk y.queues → QueuesOk v := by exact id) : LaneKeeps x { y with queues := v } := h.step (LaneKeeps.leaf (queues := k))

theorem LaneKeeps.roleMap {x y : LaneState} {v} (h : LaneKeeps x y)
    (k : y.roleMap.length = 128 → v.length = 128 := by first | exact id | (intro h; simpa using h)) : LaneKeeps x { y with roleMap := v } := h.step (LaneKeeps.leaf (roleMap := k))

theorem LaneKeeps.evq {x y : LaneState} {v} (h : LaneKeeps x y) : LaneKeeps x { y with evq := v } := h.step LaneKeeps.leaf

theorem LaneKeeps.recd {x y : LaneState} {v} (h : LaneKeeps x y) : LaneKeeps x { y with recd := v } := h.step LaneKeeps.leaf

theorem LaneKeeps.ks {x y : LaneState} {v} (h : LaneKeeps x y) : LaneKeeps x { y with ks := v } := h.step LaneKeeps.leaf

theorem LaneKeeps.slots {x y : LaneState} {v} (h : LaneKeeps x y) : LaneKeeps x { y with slots := v } := h.step LaneKeeps.leaf

theorem LaneKeeps.grid {x y : LaneState} {v} (h : LaneKeeps x y) : LaneKeeps x { y with grid := v } := h.step LaneKeeps.leaf

theorem LaneKeeps.reading {x y : LaneState} {v} (h : LaneKeeps x y) : LaneKeeps x { y with reading := v } := h.step LaneKeeps.leaf

theorem LaneKeeps.published {x y : LaneState} {v} (h : LaneKeeps x y) : LaneKeeps x { y with published := v } := h.step LaneKeeps.leaf

/-! ## One part of the block replaced -/

theorem Keeps.pending {s y : State} {v} (h : Keeps s y) : Keeps s { y with pending := v } := h.step Keeps.leaf

theorem Keeps.free {s y : State} {v} (h : Keeps s y) : Keeps s { y with free := v } := h.step Keeps.leaf

theorem Keeps.clk {s y : State} {v} (h : Keeps s y) : Keeps s { y with clk := v } := h.step Keeps.leaf

theorem Keeps.modes {s y : State} {v} (h : Keeps s y) : Keeps s { y with modes := v } := h.step Keeps.leaf

theorem Keeps.rails {s y : State} {v} (h : Keeps s y) : Keeps s { y with rails := v } := h.step Keeps.leaf

theorem Keeps.bk {s y : State} {v} (h : Keeps s y)
    (k : y.bk.inputs.length = 4 → v.inputs.length = 4 := by first | exact id | (intro h; simpa using h)) : Keeps s { y with bk := v } := h.step (Keeps.leaf (bk := k))

theorem Keeps.jct {s y : State} {v} (h : Keeps s y) : Keeps s { y with jct := v } := h.step Keeps.leaf

theorem Keeps.met {s y : State} {v} (h : Keeps s y)
    (k : MetOk y.met → MetOk v := by first | exact id | (intro h; simpa [MetOk] using h)) : Keeps s { y with met := v } := h.step (Keeps.leaf (met := k))

theorem Keeps.sets {s y : State} {v} (h : Keeps s y)
    (k : SetsOk y.sets → SetsOk v := by first | exact id | (intro h; simpa [SetsOk] using h)) : Keeps s { y with sets := v } := h.step (Keeps.leaf (sets := k))

theorem Keeps.comm {s y : State} {v} (h : Keeps s y)
    (k : CommOk y.comm → CommOk v := by first | exact id | (intro h; simpa [CommOk] using h)) : Keeps s { y with comm := v } := h.step (Keeps.leaf (comm := k))

theorem Keeps.veh {s y : State} {v} (h : Keeps s y)
    (k : y.veh.links.length = 24 → v.links.length = 24 := by first | exact id | (intro h; simpa using h)) : Keeps s { y with veh := v } := h.step (Keeps.leaf (veh := k))

theorem Keeps.chans {s y : State} {v} (h : Keeps s y)
    (k : ChansOk y.chans → ChansOk v := by exact id) : Keeps s { y with chans := v } := h.step (Keeps.leaf (chans := k))

theorem Keeps.site {s y : State} {v} (h : Keeps s y) : Keeps s { y with site := v } := h.step Keeps.leaf

theorem Keeps.tri {s y : State} {v} (h : Keeps s y) : Keeps s { y with tri := v } := h.step Keeps.leaf

theorem Keeps.life {s y : State} {v} (h : Keeps s y) : Keeps s { y with life := v } := h.step Keeps.leaf

theorem Keeps.fs {s y : State} {v} (h : Keeps s y)
    (k : Store.Canonical NotEmpty y.fs.cells → Store.Canonical NotEmpty v.cells := by exact id) : Keeps s { y with fs := v } := h.step (Keeps.leaf (fs := k))

theorem Keeps.nand {s y : State} {v} (h : Keeps s y) : Keeps s { y with nand := v } := h.step Keeps.leaf

theorem Keeps.upd {s y : State} {v} (h : Keeps s y) : Keeps s { y with upd := v } := h.step Keeps.leaf

theorem Keeps.recs {s y : State} {v} (h : Keeps s y) : Keeps s { y with recs := v } := h.step Keeps.leaf

theorem Keeps.taps {s y : State} {v} (h : Keeps s y) : Keeps s { y with taps := v } := h.step Keeps.leaf

theorem hostWrite_keeps {ok s} {f : State → State} (hf : ∀ x, Keeps x (f x)) : Keeps s (hostWrite ok f s) := by
  unfold hostWrite respond
  split
  · exact Keeps.refl
  · split
    · exact Keeps.step (Keeps.comm Keeps.refl) (hf _)
    · exact Keeps.comm Keeps.refl

theorem hostRange_keeps {ok b s} {f : State → State} (hf : ∀ x, Keeps x (f x)) : Keeps s (hostRange ok b f s) := by
  unfold hostRange respond
  split
  · exact Keeps.comm Keeps.refl
  · exact hostWrite_keeps hf

/-- The parts of the block the invariant speaks of. -/
abbrev invUnits : List Part := [.veh, .chans, .met, .bk, .comm, .sets, .fs]

/-- A change of other parts keeps the invariant. -/
theorem Only.keeps {dev l own rest s t} (h : Only dev l own rest s t) (hd : ∀ p ∈ invUnits, p ∉ dev := by decide)
    (ho : ∀ q ∈ invLane, q ∉ own := by decide) (hr : ∀ q ∈ invLane, q ∉ rest := by decide) : Keeps s t := by
  have e : ∀ p ∈ invUnits, p.same s t := fun p hm => h.1 p (hd p hm)
  have k1 := h.2.1.keeps ho
  have k2 := h.2.2.keeps hr
  refine Keeps.leaf ?_ ?_ (by rw [e .veh (by decide)]; exact id) (by rw [e .chans (by decide)]; exact id)
    (by rw [e .met (by decide)]; exact id) (by rw [e .bk (by decide)]; exact id) (by rw [e .comm (by decide)]; exact id)
    (by rw [e .sets (by decide)]; exact id) (by rw [e .fs (by decide)]; exact id)
  · cases l; exact k1; exact k2
  · cases l; exact k2; exact k1

theorem Keeps.setLane {s x l y} (h : Keeps s x) (hy : LaneKeeps (x.lane l) y) : Keeps s (x.setLane l y) := by
  cases l
  · exact h.step (Keeps.leaf (laneA := hy))
  · exact h.step (Keeps.leaf (laneB := hy))

theorem Keeps.modLane {s x l f} (h : Keeps s x) (hf : ∀ y, LaneKeeps y (f y)) : Keeps s (x.modLane l f) := Keeps.setLane h (hf _)

theorem Keeps.bothLanes {s x f} (h : Keeps s x) (hf : ∀ y, LaneKeeps y (f y)) : Keeps s (bothLanes f x) :=
  h.step (Keeps.leaf (laneA := hf _) (laneB := hf _))

/-- The invariant goes over to the next state of o. -/
def KeepsNext (s : State) (o : Host.Outcome State Fault Refusal) : Prop := ∀ t, o = .next t → Keeps s t

theorem KeepsNext.next {s t} (h : Keeps s t) : KeepsNext s (.next t) := by intro u hu; cases hu; exact h

theorem KeepsNext.fault {s f} : KeepsNext s (.fault f) := by intro u hu; cases hu

theorem KeepsNext.ite {s a b} {c : Prop} [Decidable c] (ha : KeepsNext s a) (hb : KeepsNext s b) : KeepsNext s (if c then a else b) := by
  split <;> assumption

/-! ## Stores -/

theorem Store.sorted_cons {p : Nat × List Byte} {l : Store} : Store.sorted (p :: l) = true ↔ (∀ q ∈ l, p.1 < q.1) ∧ Store.sorted l = true := by
  induction l generalizing p with
  | nil => simp [Store.sorted]
  | cons q l ih =>
    rw [Store.sorted, Bool.and_eq_true, decide_eq_true_iff, ih]
    constructor
    · rintro ⟨h, h2, h3⟩
      refine ⟨?_, h2, h3⟩
      intro r hr
      rcases List.mem_cons.1 hr with rfl | hr
      · exact h
      · exact Nat.lt_trans h (h2 r hr)
    · rintro ⟨h, h2, h3⟩
      exact ⟨h q List.mem_cons_self, h2, h3⟩

theorem Store.sorted_filter {l : Store} {f} (h : Store.sorted l = true) : Store.sorted (l.filter f) = true := by
  induction l with
  | nil => rfl
  | cons p l ih =>
    rw [Store.sorted_cons] at h
    rw [List.filter_cons]
    split
    · rw [Store.sorted_cons]
      exact ⟨fun q hq => h.1 q (List.mem_filter.1 hq).1, ih h.2⟩
    · exact ih h.2

theorem Store.mem_insert {k v p} {l : Store} : p ∈ Store.insert k v l ↔ p = (k, v) ∨ p ∈ l := by
  induction l with
  | nil => simp [Store.insert]
  | cons q l ih =>
    unfold Store.insert
    split
    · simp
    · rw [List.mem_cons, ih, List.mem_cons]
      constructor
      · rintro (h | h | h)
        · exact .inr (.inl h)
        · exact .inl h
        · exact .inr (.inr h)
      · rintro (h | h | h)
        · exact .inr (.inl h)
        · exact .inl h
        · exact .inr (.inr h)

theorem Store.sorted_insert {k v} {l : Store} (h : Store.sorted l = true) (hk : ∀ p ∈ l, p.1 ≠ k) : Store.sorted (Store.insert k v l) = true := by
  induction l with
  | nil => rfl
  | cons q l ih =>
    have h' := Store.sorted_cons.1 h
    unfold Store.insert
    split
    · rename_i hlt
      rw [Store.sorted_cons]
      refine ⟨?_, h⟩
      intro r hr
      rcases List.mem_cons.1 hr with rfl | hr
      · exact hlt
      · exact Nat.lt_trans hlt (h'.1 r hr)
    · rename_i hge
      rw [Store.sorted_cons]
      refine ⟨?_, ih h'.2 fun p hp => hk p (List.mem_cons_of_mem _ hp)⟩
      intro r hr
      rcases Store.mem_insert.1 hr with rfl | hr
      · have := hk q List.mem_cons_self
        show q.1 < k
        omega
      · exact h'.1 r hr

/-- Storing a value keeps a store canonical where the value differs from the default only if it may be listed. -/
theorem Store.Canonical.set {listed : Nat → List Byte → Prop} {st : Store} {k : Nat} {v d : List Byte} (h : Store.Canonical listed st) (hv : v ≠ d → listed k v) :
    Store.Canonical listed (Store.set st k v d) := by
  unfold Store.set Store.erase
  split
  · exact ⟨Store.sorted_filter h.1, fun p hp => h.2 p (List.mem_filter.1 hp).1⟩
  · rename_i hne
    refine ⟨Store.sorted_insert (Store.sorted_filter h.1) ?_, ?_⟩
    · intro p hp
      have := (List.mem_filter.1 hp).2
      simpa using this
    · intro p hp
      rcases Store.mem_insert.1 hp with rfl | hp
      · exact hv hne
      · exact h.2 p (List.mem_filter.1 hp).1

theorem Store.Canonical.filter {listed} {st : Store} {f} (h : Store.Canonical listed st) : Store.Canonical listed (st.filter f) :=
  ⟨Store.sorted_filter h.1, fun p hp => h.2 p (List.mem_filter.1 hp).1⟩

theorem Store.Canonical.nil {listed} : Store.Canonical listed [] := ⟨rfl, by simp⟩

theorem Store.Canonical.setPut {st : Store} {i k v} (h : Store.Canonical NotDefault st) : Store.Canonical NotDefault (setPut st i k v) := by
  unfold Sys2Proof.Machine.setPut
  split
  · rename_i r hr
    exact h.set fun hne => ⟨i, k, r, rfl, hr, hne⟩
  · exact h

/-! ## Queues -/

theorem QueuesOk.upd {l : List HwQueue} {q : Nat} {f : HwQueue → HwQueue} (h : QueuesOk l)
    (hf : ∀ k : HwQueue, k.credit + k.entries.length = queueDepth q → (f k).credit + (f k).entries.length = queueDepth q) :
    QueuesOk (upd l q f) := by
  refine ⟨by rw [upd_length]; exact h.1, fun i hi => ?_⟩
  by_cases e : q = i
  · subst e
    rw [nth_upd_self _ _ _ (by rw [h.1]; exact hi)]
    exact hf _ (h.2 q hi)
  · rw [nth_upd_ne _ _ _ _ e]
    exact h.2 i hi

theorem QueuesOk.mapIdx {l : List HwQueue} {f : Nat → HwQueue → HwQueue} (h : QueuesOk l)
    (hf : ∀ q (k : HwQueue), q < 128 → k.credit + k.entries.length = queueDepth q → (f q k).credit + (f q k).entries.length = queueDepth q) :
    QueuesOk (l.mapIdx f) := by
  refine ⟨by rw [List.length_mapIdx]; exact h.1, fun i hi => ?_⟩
  rw [nth_mapIdx _ _ _ (by rw [h.1]; exact hi)]
  exact hf i _ hi (h.2 i hi)

/-! ## Channels -/

theorem ChansOk.upd {l : List Channel} {c : Nat} {f : Channel → Channel} (h : ChansOk l)
    (hf : ∀ k : Channel, k.tx.length = 4 ∧ k.rx.length = 2 → (f k).tx.length = 4 ∧ (f k).rx.length = 2) : ChansOk (upd l c f) := by
  refine ⟨by rw [upd_length]; exact h.1, ?_⟩
  intro k hk
  unfold Sys2Proof.Machine.upd at hk
  obtain ⟨i, hi, rfl⟩ := List.mem_iff_getElem.1 hk
  rw [List.getElem_modify]
  rw [List.length_modify] at hi
  split
  · exact hf _ (h.2 _ (List.getElem_mem hi))
  · exact h.2 _ (List.getElem_mem hi)

end Sys2Proof.Machine
end

