-- ==== Sys2Proof/Laws/MetInv.lean ====
section
/-! SUPPORT. The operations of the metrology section keep the lengths of its lists: 32 channels, 32 sessions, 4 pulse outputs and 4 pulse
inputs. -/

namespace Sys2Proof.Machine

set_option Elab.async false

/-- The lengths go over from m to n. -/
def MetKeeps (m n : Metro) : Prop := MetOk m → MetOk n

theorem MetKeeps.refl {m} : MetKeeps m m := id

theorem MetKeeps.step {m n k} (h : MetKeeps m n) (g : MetKeeps n k) : MetKeeps m k := g ∘ h

theorem MetKeeps.ite {m a b} {c : Prop} [Decidable c] (ha : MetKeeps m a) (hb : MetKeeps m b) : MetKeeps m (if c then a else b) := by
  split <;> assumption

theorem MetKeeps.foldl {α : Type} {g : Metro → α → Metro} {l : List α} {m} (hg : ∀ m a, MetKeeps m (g m a)) : MetKeeps m (l.foldl g m) := by
  induction l generalizing m with
  | nil => exact .refl
  | cons a l ih => exact (hg m a).step ih

theorem MetKeeps.leaf {m n : Metro} (dc : m.dc.length = 32 → n.dc.length = 32 := by first | exact id | (intro h; simpa using h))
    (bill : m.bill.regs.sessions.length = 32 → n.bill.regs.sessions.length = 32 := by first | exact id | (intro h; simpa using h))
    (pout : m.pout.length = 4 → n.pout.length = 4 := by first | exact id | (intro h; simpa using h))
    (pin : m.pin.length = 4 → n.pin.length = 4 := by first | exact id | (intro h; simpa using h)) : MetKeeps m n :=
  fun h => ⟨dc h.1, bill h.2.1, pout h.2.2.1, pin h.2.2.2⟩

/-- A record update of the section. -/
theorem MetKeeps.upd {m k n : Metro} (h : MetKeeps m k) (g : MetKeeps k n) : MetKeeps m n := h.step g

theorem MetKeeps.onCtl {m n f} (h : MetKeeps m n) : MetKeeps m (Metro.onCtl f n) := h.step .leaf

theorem MetKeeps.onDc {m n c f} (h : MetKeeps m n) : MetKeeps m (Metro.onDc c f n) := h.step (.leaf (dc := fun e => by
  show (Sys2Proof.Machine.upd _ _ _).length = 32; rw [upd_length]; exact e))

theorem MetKeeps.onBill {m n f} (h : MetKeeps m n) (k : n.bill.regs.sessions.length = 32 → (f n.bill).regs.sessions.length = 32 := by exact id) :
    MetKeeps m (Metro.onBill f n) := h.step (.leaf (bill := k))

theorem MetKeeps.onRegs {m n f} (h : MetKeeps m n)
    (k : n.bill.regs.sessions.length = 32 → (f n.bill.regs).sessions.length = 32 := by first | exact id | (intro h; simpa using h)) :
    MetKeeps m (Metro.onRegs f n) := h.step (.leaf (bill := k))

/-! ## Registers -/

@[simp] theorem creditGroup_sessions {g d n r} : (creditGroup g d n r).sessions = r.sessions := rfl
@[simp] theorem addReg_sessions {g d n r} : (addReg g d n r).sessions = r.sessions := rfl
@[simp] theorem markSpan_sessions {g i r} : (markSpan g i r).sessions = r.sessions := rfl
@[simp] theorem markSession_sessions_length {g i r} : (markSession g i r).sessions.length = r.sessions.length := by simp [markSession]
@[simp] theorem markChannel_sessions_length {g i r} : (markChannel g i r).sessions.length = r.sessions.length := by
  unfold markChannel; split <;> simp

/-! ## Logbook, crediting, pulses -/

theorem logAdd_metKeeps {e m} : MetKeeps m (logAdd e m) := by
  unfold logAdd
  exact .ite .refl (.ite (.onBill (.onCtl .refl)) (.onBill (.onCtl .refl)))

theorem logEntry_metKeeps {c h d m} : MetKeeps m (logEntry c h d m) := logAdd_metKeeps

theorem creditMwh_metKeeps {c d n m} : MetKeeps m (creditMwh c d n m) := by
  unfold creditMwh
  refine .onRegs .refl fun h => ?_
  dsimp only
  repeat' split
  all_goals simpa using h

theorem pulseTake_metKeeps {c d u a b m} : MetKeeps m (pulseTake c d u a b m) := .leaf (pout := fun h => by
  show (List.map _ _).length = 4; rw [List.length_map]; exact h)

theorem setResidue_metKeeps {c d v m} : MetKeeps m (setResidue c d v m) := by
  unfold setResidue; exact .ite .leaf (.onDc .refl)

theorem accumulate_metKeeps {c d u a b m} : MetKeeps m (accumulate c d u a b m) := by
  unfold accumulate
  dsimp only
  refine MetKeeps.step ?_ pulseTake_metKeeps
  generalize (if 0 < residueOf m c d + u then (residueOf m c d + u) / 2 ^ 32 else 0) = n
  split
  · exact setResidue_metKeeps
  · exact setResidue_metKeeps.step creditMwh_metKeeps

theorem creditSample_metKeeps {c u a b m} : MetKeeps m (creditSample c u a b m) := by
  unfold creditSample
  split
  · exact .refl
  · exact accumulate_metKeeps

/-! ## DC samples -/

theorem dcSample_metKeeps {nom c k v i a b m} : MetKeeps m (dcSample nom c k v i a b m).1 := by
  unfold dcSample
  extract_lets x p e u y
  split
  · exact .refl
  · exact (MetKeeps.onDc .refl).step creditSample_metKeeps

theorem recordGap_metKeeps {c g m} : MetKeeps m (recordGap c g m) := by
  unfold recordGap
  exact .ite ((MetKeeps.onRegs (.onDc .refl)).step logEntry_metKeeps) (.onRegs (.onDc .refl))

theorem interpolate_metKeeps {nom c g v i a b m} : MetKeeps m (interpolate nom c g v i a b m) := by
  unfold interpolate
  split
  · exact .refl
  · exact .onDc (.foldl fun _ _ => dcSample_metKeeps)

theorem closeGap_metKeeps {nom c v i a b m} : MetKeeps m (closeGap nom c v i a b m) := by
  unfold closeGap
  exact .ite .refl (.ite (.ite (.onDc .refl) .refl) (.ite interpolate_metKeeps recordGap_metKeeps))

theorem acceptHeld_metKeeps {nom a b m c} : MetKeeps m (acceptHeld nom a b m c) := by
  unfold acceptHeld
  dsimp only
  split
  · exact .refl
  · exact .onDc (closeGap_metKeeps.step dcSample_metKeeps)

theorem acceptAll_metKeeps {nom a b m} : MetKeeps m (acceptAll nom a b m) := .foldl fun _ _ => acceptHeld_metKeeps

theorem cutGap_metKeeps {m c} : MetKeeps m (cutGap m c) := by
  unfold cutGap; exact .ite (.onDc recordGap_metKeeps) .refl

theorem cutGaps_metKeeps {m} : MetKeeps m (cutGaps m) := .foldl fun _ _ => cutGap_metKeeps

theorem dcMap_metKeeps (f : DcChan → DcChan) (m : Metro) : MetKeeps m { m with dc := m.dc.map f } :=
  .leaf (dc := fun h => by rw [List.length_map]; exact h)

theorem periodElapsed_metKeeps {nom t n m} : MetKeeps m (periodElapsed nom t n m) := by
  unfold periodElapsed
  split
  · exact .onCtl .refl
  · exact .onCtl (acceptAll_metKeeps.step (dcMap_metKeeps _ _))

theorem openPeriod_metKeeps {nom r m} : MetKeeps m (openPeriod nom r m) := by
  unfold openPeriod; exact .ite .refl (.onCtl periodElapsed_metKeeps)

theorem judgeRecord_metKeeps {r c m} : MetKeeps m (judgeRecord r c m) := by
  unfold judgeRecord
  exact .ite ((MetKeeps.onDc .refl).step logEntry_metKeeps) (.ite (.onDc .refl) (.ite (.onDc (.onDc .refl)) (.onDc .refl)))

theorem takeTap_metKeeps {nom r m} : MetKeeps m (takeTap nom r m) := by
  unfold takeTap
  refine .ite (.onCtl .refl) (.ite .refl ?_)
  dsimp only
  split
  · exact openPeriod_metKeeps.step ((MetKeeps.leaf (m := openPeriod nom r m)).step judgeRecord_metKeeps)
  · exact openPeriod_metKeeps.step .leaf

/-! ## Billing -/

theorem signRecord_metKeeps {b m} : MetKeeps m (signRecord b m) := .onCtl (.onBill .refl)

theorem sessionRecord_metKeeps {e f m c} : MetKeeps m (sessionRecord e f m c) := by
  unfold sessionRecord
  split
  · exact signRecord_metKeeps
  · exact .refl

theorem closeRecords_metKeeps {e f m} : MetKeeps m (closeRecords e f m) := by
  unfold closeRecords
  exact ((MetKeeps.foldl fun _ _ => signRecord_metKeeps).step (.foldl fun _ _ => signRecord_metKeeps)).step
    (.foldl fun _ _ => sessionRecord_metKeeps)

theorem billingClose_metKeeps {o e m} : MetKeeps m (billingClose o e m) := by
  unfold billingClose
  have h : MetKeeps m (closeRecords e (if o = true then 1 else 0) (cutGaps m)) := cutGaps_metKeeps.step closeRecords_metKeeps
  dsimp only
  generalize closeRecords e (if o = true then 1 else 0) (cutGaps m) = k at h
  exact (MetKeeps.onRegs h fun x => x).step logEntry_metKeeps

theorem markFold_sessions {l : List Nat} {i r} : (l.foldl (fun r ch => markChannel ch i r) r).sessions.length = r.sessions.length := by
  induction l generalizing r with
  | nil => rfl
  | cons a l ih => exact (ih (r := markChannel a i r)).trans markChannel_sessions_length

theorem closeWindow_metKeeps {t m} : MetKeeps m (closeWindow t m) := by
  unfold closeWindow
  dsimp only
  refine .onRegs (.leaf) fun h => ?_
  dsimp only
  split
  · rw [markFold_sessions]; exact h
  · exact h

theorem boundWindow_metKeeps {t b} : MetKeeps b.m (boundWindow t b).m := by
  unfold boundWindow
  split
  · exact .refl
  · split
    · exact .onRegs .refl
    · exact closeWindow_metKeeps

theorem boundClose_metKeeps {t b} : MetKeeps b.m (boundClose t b).m := by
  unfold boundClose
  split
  · exact billingClose_metKeeps
  · exact .refl

theorem boundCalendar_metKeeps {t b} : MetKeeps b.m (boundCalendar t b).m := by
  unfold boundCalendar
  split
  · split
    · exact (MetKeeps.onBill .refl).step logEntry_metKeeps
    · exact .refl
  · exact .refl

theorem boundTariff_metKeeps {t b} : MetKeeps b.m (boundTariff t b).m := by
  unfold boundTariff
  split
  · dsimp only
    split
    · exact .refl
    · exact .onRegs .refl
  · exact .refl

theorem boundaryAt_metKeeps {t b} : MetKeeps b.m (boundaryAt t b).m := by
  have h : MetKeeps b.m (boundTariff t (boundCalendar t (boundClose t (boundWindow t { b with kinds := 0 })))).m :=
    ((boundWindow_metKeeps (b := { b with kinds := 0 })).step boundClose_metKeeps).step (boundCalendar_metKeeps.step boundTariff_metKeeps)
  unfold boundaryAt
  dsimp only
  split
  · exact h
  · exact .onRegs h

theorem boundFold_metKeeps {l : List Nat} {b : BoundRun} : MetKeeps b.m (l.foldl (fun b t => boundaryAt t b) b).m := by
  induction l generalizing b with
  | nil => exact .refl
  | cons t l ih => exact (boundaryAt_metKeeps (t := t)).step ih

theorem runBoundaries_metKeeps {o m} : MetKeeps m (runBoundaries o m).m := by
  unfold runBoundaries
  dsimp only
  split
  · exact .refl
  · split
    · exact .onRegs .refl
    · exact boundFold_metKeeps (b := { m := m, outage := o, windows := 0, skipped := 0, kinds := 0 })

theorem balanceCheck_metKeeps {m} : MetKeeps m (balanceCheck m) := by
  unfold balanceCheck
  split
  · exact (MetKeeps.onRegs .refl).step logEntry_metKeeps
  · exact .refl

theorem newInterval_metKeeps {t m} : MetKeeps m (newInterval t m) := by
  unfold newInterval
  refine .onCtl (.leaf (dc := fun h => ?_))
  rw [List.length_map]; exact h

theorem commitOk_metKeeps {i m} (hi : i.regs.sessions.length = m.bill.regs.sessions.length) : MetKeeps m (commitOk i m) := by
  unfold commitOk
  refine .onCtl (.onRegs (.onCtl .refl) fun h => ?_)
  rw [hi]; exact h

theorem haltMet_metKeeps {c m} : MetKeeps m (haltMet c m) := by
  unfold haltMet; exact .onCtl (cutGaps_metKeeps.step logEntry_metKeeps)

theorem commitImage_metKeeps {i ok m} (hi : i.regs.sessions.length = m.bill.regs.sessions.length) : MetKeeps m (commitImage i ok m) := by
  unfold commitImage
  exact .ite (commitOk_metKeeps hi) (.ite ((MetKeeps.onCtl .refl).step (commitOk_metKeeps hi))
    (.ite ((MetKeeps.onCtl .refl).step haltMet_metKeeps) (.onCtl .refl)))

theorem correctRows_metKeeps {a b m c d} : MetKeeps m (correctRows a b m c d) := by
  unfold correctRows; exact .ite .refl accumulate_metKeeps

theorem correctAll_metKeeps {a b m} : MetKeeps m (correctAll a b m) :=
  .foldl fun _ _ => correctRows_metKeeps.step correctRows_metKeeps

theorem judgePeriod_metKeeps {a b m} : MetKeeps m (judgePeriod a b m) := by
  unfold judgePeriod
  exact .ite ((MetKeeps.onCtl (.onCtl .refl)).step logEntry_metKeeps) (.onCtl .refl)

theorem makeImage_sessions (t : Nat × Nat) (pf : Bool) (m : Metro) : (makeImage t pf m).regs.sessions = m.bill.regs.sessions := rfl

theorem takeMilestone_metKeeps {nom pf ok m} : MetKeeps m (takeMilestone nom pf ok m) := by
  have h : ∀ {k : Metro}, MetKeeps k (balanceCheck (runBoundaries false k).m) := runBoundaries_metKeeps.step balanceCheck_metKeeps
  unfold takeMilestone
  exact (((MetKeeps.ite (correctAll_metKeeps.step judgePeriod_metKeeps) .refl).step h).step
    (commitImage_metKeeps (congrArg List.length (makeImage_sessions _ _ _)))).step newInterval_metKeeps

/-! ## The section's own events -/

theorem vmetWarning_metKeeps {nom m} : MetKeeps m (vmetWarning nom m) := by
  unfold vmetWarning
  exact .ite (.ite ((MetKeeps.onCtl (.onCtl .refl)).step logEntry_metKeeps) (.onCtl .refl)) (.step (.ite ((MetKeeps.onCtl .refl).step (cutGaps_metKeeps.step takeMilestone_metKeeps)) (.onCtl .refl))
    haltMet_metKeeps)

theorem crystalLost_metKeeps {nom m} : MetKeeps m (crystalLost nom m) := by
  unfold crystalLost
  exact .ite (.step ((MetKeeps.onCtl .refl).step (cutGaps_metKeeps.step takeMilestone_metKeeps)) haltMet_metKeeps) (.onCtl .refl)

/-- The section's lists with sessions of any number: what a loaded image leaves before the open sessions close. -/
def MetLists (m : Metro) : Prop := m.dc.length = 32 ∧ m.pout.length = 4 ∧ m.pin.length = 4

theorem restoreImage_lists {i m} (h : MetLists m) : MetLists (restoreImage i m) :=
  ⟨by show (List.mapIdx _ _).length = 32; rw [List.length_mapIdx]; exact h.1, h.2.1, h.2.2⟩

theorem sessionFold_lists {e f : Nat} {l : List Nat} {m} (h : MetLists m) : MetLists (l.foldl (sessionRecord e f) m) := by
  induction l generalizing m with
  | nil => exact h
  | cons c l ih =>
    refine ih ?_
    unfold sessionRecord
    split <;> exact h

theorem closeAfterHalt_ok {m} (h : MetLists m) : MetOk (closeAfterHalt m) := by
  have k := sessionFold_lists (e := (m.ctl.loaded.bind fun i => i.legal).getD 0) (f := 1) (l := openChannels m.bill.regs) h
  exact ⟨k.1, List.length_replicate, k.2.1, k.2.2⟩

theorem loadMet_lists {f m} (h : MetLists m) : MetLists (loadMet f m) := by
  unfold loadMet
  split
  · exact restoreImage_lists h
  · exact h

theorem freshMet_metKeeps {m} : MetKeeps m (freshMet m) := .leaf (dc := fun e => by
  show (List.map _ _).length = 32; rw [List.length_map]; exact e)

theorem resumeWindow_metKeeps {m} : MetKeeps m (resumeWindow m) := by
  unfold resumeWindow; exact .onRegs .refl

theorem logTamperDue_metKeeps {m} : MetKeeps m (logTamperDue m) := by
  unfold logTamperDue
  split
  · exact .ite ((MetKeeps.onCtl .refl).step logEntry_metKeeps) .refl
  · exact .refl

theorem startMet_metKeeps {f m} : MetKeeps m (startMet f m) := by
  intro h
  have k := closeAfterHalt_ok (loadMet_lists (f := f) ⟨h.1, h.2.2.1, h.2.2.2⟩)
  unfold startMet
  exact logTamperDue_metKeeps (logEntry_metKeeps (MetKeeps.onCtl (freshMet_metKeeps.step resumeWindow_metKeeps) k))

theorem milestoneMet_metKeeps {nom ok m} : MetKeeps m (milestoneMet nom ok m) := by
  unfold milestoneMet
  refine .ite .refl ?_
  dsimp only
  have h : MetKeeps m (takeMilestone nom m.ctl.pfPending ok (if m.ctl.pfPending = true then
      cutGaps (m.onCtl fun c => runCycles (toMilestone c) c) else m.onCtl fun c => runCycles (toMilestone c) c)) :=
    (MetKeeps.ite ((MetKeeps.onCtl .refl).step cutGaps_metKeeps) (.onCtl .refl)).step takeMilestone_metKeeps
  exact .ite (.onCtl h) h

theorem powerFailMet_metKeeps {nom m} : MetKeeps m (powerFailMet nom m) := by
  unfold powerFailMet
  exact .ite .refl (.onCtl (((MetKeeps.ite (.onCtl .refl) .refl).step cutGaps_metKeeps).step takeMilestone_metKeeps))

theorem acSample_metKeeps {x m} : MetKeeps m (acSample x m) := by
  unfold acSample
  exact .ite .refl (.ite .leaf (MetKeeps.step .leaf (MetKeeps.step .leaf creditSample_metKeeps)))

theorem voltStart_metKeeps {k p m} : MetKeeps m (voltStart k p m) := by
  unfold voltStart; exact .ite .leaf .refl

theorem voltEnd_metKeeps {k a b m} : MetKeeps m (voltEnd k a b m) := by
  unfold voltEnd
  split
  · exact .refl
  · exact .ite .refl ((MetKeeps.leaf (m := m)).step logAdd_metKeeps)

theorem gridSend_metKeeps {a b c m} : MetKeeps m (gridSend a b c m) := .leaf (dc := fun h => by
  show (List.map _ _).length = 32; rw [List.length_map]; exact h)

theorem reconcile_metKeeps {i m} : MetKeeps m (reconcile i m) := by
  unfold reconcile
  refine .ite .refl ?_
  have h : ∀ {k : Metro} {g}, MetKeeps k { k with pin := Sys2Proof.Machine.upd k.pin i g } := .leaf
  exact (MetKeeps.ite (.onCtl h) h).step logEntry_metKeeps

theorem openSeal_metKeeps {m} : MetKeeps m (openSeal m) := by
  unfold openSeal; exact .ite .refl ((MetKeeps.onCtl .refl).step logEntry_metKeeps)

theorem startImage_metKeeps {nom f b m} : MetKeeps m (startImage nom f b m) := by
  unfold startImage
  exact (((MetKeeps.onCtl (.ite (cutGaps_metKeeps.step takeMilestone_metKeeps) .refl))).step startMet_metKeeps).step logEntry_metKeeps

theorem shutSeal_metKeeps {f m} : MetKeeps m (shutSeal f m) := by
  unfold shutSeal
  exact .ite (.onCtl (.onCtl ((MetKeeps.onCtl .refl).step logEntry_metKeeps))) (.onCtl ((MetKeeps.onCtl .refl).step logEntry_metKeeps))

theorem closeSeal_metKeeps {nom f m} : MetKeeps m (closeSeal nom f m) := by
  unfold closeSeal
  refine .ite .refl ?_
  dsimp only
  split
  · exact shutSeal_metKeeps.step startImage_metKeeps
  · exact shutSeal_metKeeps

/-! ## Sessions -/

theorem sessionOpen_metKeeps {com c a i m} : MetKeeps m (sessionOpen com c a i m).1 := by
  unfold sessionOpen
  split
  · exact .refl
  · split
    · exact .refl
    · exact .onRegs .refl

theorem sessionClose_metKeeps {c i m} : MetKeeps m (sessionClose c i m).1 := by
  unfold sessionClose
  split
  · exact .refl
  · split
    · split
      · exact .onRegs sessionRecord_metKeeps
      · exact .refl
    · exact .refl

/-! ## Messages -/

theorem reply_metKeeps {q op st d m} : MetKeeps m (reply q op st d m) := by
  exact .onCtl .refl

theorem messageError_metKeeps {q u m} : MetKeeps m (messageError q u m) := by
  unfold messageError; exact .ite reply_metKeeps ((MetKeeps.onCtl .refl).step reply_metKeeps)

theorem signedRead_metKeeps {n m} : MetKeeps m (signedRead n m).1 := by
  unfold signedRead; split <;> exact .refl

theorem logRead_metKeeps {a b c d m} : MetKeeps m (logRead a b c d m).1 := by
  unfold logRead
  split
  · exact .refl
  · dsimp only; split <;> exact .refl

theorem markWindow_metKeeps {f m} : MetKeeps m (markWindow f m) := .onRegs .refl

theorem setLegal_metKeeps {nom t m} : MetKeeps m (setLegal nom t m) := by
  unfold setLegal
  have h : MetKeeps m (markWindow (fun x => { x with incomplete := true })
      (runBoundaries true (m.onCtl fun c => { c with legal := t * 750, legalSet := true, slew := 0, unsetFor := 0 })).m) :=
    ((MetKeeps.onCtl .refl).step runBoundaries_metKeeps).step markWindow_metKeeps
  exact (MetKeeps.onCtl ((MetKeeps.ite h (h.step logEntry_metKeeps)).step logEntry_metKeeps)).step takeMilestone_metKeeps

theorem applyStep_metKeeps {d m} : MetKeeps m (applyStep d m) := by
  unfold applyStep
  exact ((MetKeeps.onCtl markWindow_metKeeps).step runBoundaries_metKeeps).step logEntry_metKeeps

theorem setDispute_metKeeps {b m} : MetKeeps m (setDispute b m) := .onRegs .refl

theorem refuseStep_metKeeps {d m} : MetKeeps m (refuseStep d m) := by
  unfold refuseStep
  have h : MetKeeps m (setDispute true m) := setDispute_metKeeps
  exact .ite (.onBill (h.step logEntry_metKeeps)) h

theorem adjustLegal_metKeeps {t m} : MetKeeps m (adjustLegal t m).1 := by
  unfold adjustLegal
  dsimp only
  split
  · exact (MetKeeps.onCtl .refl).step setDispute_metKeeps
  · split
    · exact applyStep_metKeeps
    · split
      · exact applyStep_metKeeps
      · exact refuseStep_metKeeps

theorem takeDelta_metKeeps {x m} : MetKeeps m (takeDelta x m) := by
  unfold takeDelta; exact .ite (.onCtl .refl) .refl

theorem timeMet_metKeeps {nom x m} : MetKeeps m (timeMet nom x m).1 := by
  unfold timeMet
  split
  · exact takeDelta_metKeeps
  · split
    · exact adjustLegal_metKeeps.step takeDelta_metKeeps
    · exact setLegal_metKeeps.step takeDelta_metKeeps

theorem takeCalendar_metKeeps {b m} : MetKeeps m (takeCalendar b m).1 := by
  unfold takeCalendar
  extract_lets k
  split
  · exact (MetKeeps.onBill .refl).step logEntry_metKeeps
  · exact (MetKeeps.onBill .refl).step logEntry_metKeeps

theorem calendarMet_metKeeps {a l d m} : MetKeeps m (calendarMet a l d m).1 := by
  unfold calendarMet
  split
  · exact .onBill .refl
  · split
    · exact takeCalendar_metKeeps
    · exact .onBill .refl

theorem calWrite_metKeeps {x m} : MetKeeps m (calWrite x m) := by
  unfold calWrite; split <;> first | exact .leaf | exact .onDc .refl

theorem itemWrite_metKeeps {x m} : MetKeeps m (itemWrite x m) := by
  unfold itemWrite; split <;> first | exact .onDc .refl | exact .leaf

theorem logWrite_metKeeps {a b c m} : MetKeeps m (logWrite a b c m) := by
  unfold logWrite; exact (MetKeeps.onCtl .refl).step logEntry_metKeeps

theorem calWriteMet_metKeeps {f x m} : MetKeeps m (calWriteMet f x m).1 := by
  unfold calWriteMet
  split
  · exact (MetKeeps.onCtl calWrite_metKeeps).step logWrite_metKeeps
  · exact .refl

theorem configWriteMet_metKeeps {f x m} : MetKeeps m (configWriteMet f x m).1 := by
  unfold configWriteMet
  split
  · exact (MetKeeps.onCtl itemWrite_metKeeps).step logWrite_metKeeps
  · exact .refl

theorem imageMet_metKeeps {a l d m} : MetKeeps m (imageMet a l d m).1 := by
  unfold imageMet
  split
  · exact .onCtl .refl
  · split
    · exact .onCtl .refl
    · split
      · exact .onCtl .refl
      · exact .onCtl .refl

theorem unbilled_metKeeps {i t m} : MetKeeps m (unbilled i t m) := by
  unfold unbilled; exact (MetKeeps.onRegs .refl).step logEntry_metKeeps

theorem tamperMet_metKeeps {a b c m} : MetKeeps m (tamperMet a b c m).1 := by
  unfold tamperMet
  refine .onCtl ?_
  have h : MetKeeps m (if advances m = true then logEntry 0x14 0xFF [a.setWidth 8] m else m.onCtl fun c => { c with tamperDue := some a }) :=
    .ite logEntry_metKeeps (.onCtl .refl)
  split
  · exact .ite h (h.step unbilled_metKeeps)
  · exact h

theorem metIdle_metKeeps {m} : MetKeeps m (metIdle m) := .leaf (pout := fun h => by
  show (List.map _ _).length = 4; rw [List.length_map]; exact h)

end Sys2Proof.Machine
end

