-- ==== Sys2Proof/Laws/MetKeep.lean ====
section
/-! SUPPORT. What the metrology section's measurement, logbook and billing operations leave of its control part: all of it but the
period deviation, the pulse overflow flag and the records waiting to leave. -/

namespace Sys2Proof.Machine

set_option Elab.async false

/-- The control parts of m and n are equal but for the deviation, its flag, the pulse overflow flag and the waiting records. -/
def MetKeep (m n : Metro) : Prop :=
  n.ctl = { m.ctl with deviation := n.ctl.deviation, periodDev := n.ctl.periodDev, pulseOvf := n.ctl.pulseOvf
                       txLog := n.ctl.txLog, txSigned := n.ctl.txSigned }

theorem MetKeep.of_ctl {m n : Metro} (h : n.ctl = m.ctl) : MetKeep m n := by unfold MetKeep; rw [h]
theorem MetKeep.refl {m : Metro} : MetKeep m m := .of_ctl rfl
theorem MetKeep.trans {m n k : Metro} (h : MetKeep m n) (g : MetKeep n k) : MetKeep m k := by
  unfold MetKeep at *; rw [g, h]
theorem MetKeep.ite {c : Prop} [Decidable c] {m n k : Metro} (h : MetKeep m n) (g : MetKeep m k) : MetKeep m (if c then n else k) := by
  split; exacts [h, g]
theorem MetKeep.foldl {α : Type} {f : Metro → α → Metro} (h : ∀ m a, MetKeep m (f m a)) (l : List α) (m : Metro) : MetKeep m (l.foldl f m) := by
  induction l generalizing m with
  | nil => exact .refl
  | cons a l ih => exact (h m a).trans (ih _)

theorem onDc_keep {m : Metro} {c f} : MetKeep m (m.onDc c f) := .of_ctl rfl
theorem onBill_keep {m : Metro} {f} : MetKeep m (m.onBill f) := .of_ctl rfl
theorem onRegs_keep {m : Metro} {f} : MetKeep m (m.onRegs f) := .of_ctl rfl
theorem logEntry_keep {m : Metro} {c h d} : MetKeep m (logEntry c h d m) := by
  unfold logEntry logAdd; split
  · exact .refl
  · dsimp only; split <;> rfl
theorem creditMwh_keep {m : Metro} {c d n} : MetKeep m (creditMwh c d n m) := .of_ctl rfl
theorem pulseTake_keep {m : Metro} {c d u a b} : MetKeep m (pulseTake c d u a b m) := rfl
theorem setResidue_keep {m : Metro} {c d v} : MetKeep m (setResidue c d v m) := .of_ctl (by unfold setResidue; split <;> rfl)
theorem accumulate_keep {m : Metro} {c d u a b} : MetKeep m (accumulate c d u a b m) := by
  unfold accumulate; exact (setResidue_keep.trans (.ite .refl creditMwh_keep)).trans pulseTake_keep
theorem creditSample_keep {m : Metro} {c u a b} : MetKeep m (creditSample c u a b m) := by
  unfold creditSample; exact .ite .refl accumulate_keep
theorem recordGap_keep {m : Metro} {c g} : MetKeep m (recordGap c g m) := by
  unfold recordGap; dsimp only; exact .ite (((onDc_keep).trans onRegs_keep).trans logEntry_keep) ((onDc_keep).trans onRegs_keep)
theorem cutGaps_keep {m : Metro} : MetKeep m (cutGaps m) := by
  unfold cutGaps; exact .foldl (fun m i => by unfold cutGap; dsimp only; exact .ite (recordGap_keep.trans onDc_keep) .refl) _ _
theorem signRecord_keep {m : Metro} {b} : MetKeep m (signRecord b m) := rfl
theorem sessionRecord_keep {m : Metro} {e f c} : MetKeep m (sessionRecord e f m c) := by
  unfold sessionRecord; split; exacts [signRecord_keep, .refl]
theorem closeRecords_keep {m : Metro} {e f} : MetKeep m (closeRecords e f m) := by
  unfold closeRecords; dsimp only
  exact ((MetKeep.foldl (fun _ _ => signRecord_keep) _ _).trans (.foldl (fun _ _ => signRecord_keep) _ _)).trans
    (.foldl (fun _ _ => sessionRecord_keep) _ _)
theorem billingClose_keep {m : Metro} {o e} : MetKeep m (billingClose o e m) := by
  unfold billingClose; exact ((cutGaps_keep.trans closeRecords_keep).trans onRegs_keep).trans logEntry_keep
theorem closeWindow_keep {m : Metro} {t} : MetKeep m (closeWindow t m) := .of_ctl rfl
theorem boundaryAt_keep {t : Nat} {b : BoundRun} : MetKeep b.m (boundaryAt t b).m := by
  have w : ∀ b, MetKeep b.m (boundWindow t b).m := by
    intro b; unfold boundWindow; split; · exact .refl
    split; exacts [onRegs_keep, closeWindow_keep]
  have c : ∀ b, MetKeep b.m (boundClose t b).m := by intro b; unfold boundClose; split; exacts [billingClose_keep, .refl]
  have k : ∀ b, MetKeep b.m (boundCalendar t b).m := by
    intro b; unfold boundCalendar; split
    · split; exacts [onBill_keep.trans logEntry_keep, .refl]
    · exact .refl
  have f : ∀ b, MetKeep b.m (boundTariff t b).m := by
    intro b; unfold boundTariff; split
    · dsimp only; split; exacts [.refl, onRegs_keep]
    · exact .refl
  have all : MetKeep b.m (boundTariff t (boundCalendar t (boundClose t (boundWindow t { b with kinds := 0 })))).m :=
    (((w { b with kinds := 0 }).trans (c _)).trans (k _)).trans (f _)
  unfold boundaryAt; dsimp only; split
  · exact all
  · exact all.trans onRegs_keep
theorem runBoundaries_keep {m : Metro} {o} : MetKeep m (runBoundaries o m).m := by
  have f : ∀ (l : List Nat) b, MetKeep b.m (l.foldl (fun b t => boundaryAt t b) b).m := by
    intro l; induction l with
    | nil => intro b; exact .refl
    | cons a l ih => intro b; exact boundaryAt_keep.trans (ih _)
  unfold runBoundaries; dsimp only; split
  · exact .refl
  · split; exacts [onRegs_keep, f _ _]
theorem balanceCheck_keep {m : Metro} : MetKeep m (balanceCheck m) := by
  unfold balanceCheck; split; exacts [onRegs_keep.trans logEntry_keep, .refl]
theorem correctAll_keep {m : Metro} {a b} : MetKeep m (correctAll a b m) := by
  have c : ∀ (m : Metro) ch d, MetKeep m (correctRows a b m ch d) := by
    intro m ch d; unfold correctRows; dsimp only; exact .ite .refl accumulate_keep
  unfold correctAll; exact .foldl (fun m i => (c _ _ _).trans (c _ _ _)) _ _
theorem judgePeriod_keep {m : Metro} {a b} : MetKeep m (judgePeriod a b m) := by
  unfold judgePeriod; dsimp only; refine .ite (MetKeep.trans ?_ logEntry_keep) ?_ <;> exact rfl

/-- A section up to its commit. -/
def beforeCommit (nom : Nat × Nat) (m : Metro) : Metro :=
  let tw := weight nom m
  let tm := (measured m.ctl).getD tw
  balanceCheck (runBoundaries false (if (measured m.ctl).isSome then judgePeriod tm nom (correctAll tm tw m) else m)).m
theorem beforeCommit_keep {nom} {m : Metro} : MetKeep m (beforeCommit nom m) := by
  unfold beforeCommit; dsimp only
  exact ((MetKeep.ite (correctAll_keep.trans judgePeriod_keep) .refl).trans runBoundaries_keep).trans balanceCheck_keep
theorem takeMilestone_eq (nom : Nat × Nat) (pf rowsOk : Bool) (m : Metro) : ∃ tm, takeMilestone nom pf rowsOk m =
    newInterval tm (commitImage (makeImage tm pf (beforeCommit nom m)) rowsOk (beforeCommit nom m)) := ⟨_, rfl⟩

/-- A milestone whose rows verify: one higher number, no failed commit, and the state of the section as before. -/
theorem takeMilestone_ok {nom pf} {m : Metro} : let t := takeMilestone nom pf true m
    t.ctl.milestone = m.ctl.milestone + 1 ∧ t.ctl.commitFails = 0 ∧ t.ctl.st = m.ctl.st ∧ t.ctl.halt = m.ctl.halt ∧ t.ctl.cycles = m.ctl.cycles ∧
    t.ctl.legal = m.ctl.legal ∧ t.ctl.legalSet = m.ctl.legalSet ∧ t.ctl.vmetLow = m.ctl.vmetLow ∧ t.ctl.clockLost = m.ctl.clockLost ∧
    t.ctl.rows = m.ctl.rows ∧ t.ctl.sealOpen = m.ctl.sealOpen ∧ t.ctl.pfPending = m.ctl.pfPending ∧ t.ctl.pfDone = m.ctl.pfDone := by
  obtain ⟨tm, h⟩ := takeMilestone_eq nom pf true m
  have k : (beforeCommit nom m).ctl = _ := beforeCommit_keep
  intro t
  have e : t.ctl = { (commitOk (makeImage tm pf (beforeCommit nom m)) (beforeCommit nom m)).ctl with
      tPrev := some tm, ivStart := (commitOk (makeImage tm pf (beforeCommit nom m)) (beforeCommit nom m)).ctl.cycles
      firstTap := (commitOk (makeImage tm pf (beforeCommit nom m)) (beforeCommit nom m)).ctl.lastTap, tapPeriods := 0 } := by
    show (takeMilestone nom pf true m).ctl = _; rw [h]; rfl
  rw [e]
  generalize beforeCommit nom m = b at *
  have c : (commitOk (makeImage tm pf b) b).ctl.milestone = b.ctl.milestone + 1 ∧ (commitOk (makeImage tm pf b) b).ctl.commitFails = 0 ∧
      (commitOk (makeImage tm pf b) b).ctl = { b.ctl with
        copyA := (commitOk (makeImage tm pf b) b).ctl.copyA, copyB := (commitOk (makeImage tm pf b) b).ctl.copyB
        milestone := b.ctl.milestone + 1, commitFails := 0, txMilestone := (commitOk (makeImage tm pf b) b).ctl.txMilestone } := by
    refine ⟨rfl, rfl, ?_⟩
    unfold commitOk; dsimp only [Metro.onCtl, Metro.onRegs, Metro.onBill]; split <;> rfl
  rw [c.2.2, k]
  exact ⟨rfl, rfl, rfl, rfl, rfl, rfl, rfl, rfl, rfl, rfl, rfl, rfl, rfl⟩

end Sys2Proof.Machine
end

