-- ==== Sys2Proof/Laws/Metrology.lean ====
section
/-! SUPPORT. What each operation of Machine/Metrology.lean can change: one lemma for each function on the block or a lane, to be cited in
place of unfolding it. -/

namespace Sys2Proof.Machine

set_option Elab.async false

theorem tapReceivedEffect_only {a0 s l} :
    Only [.met, .taps] l [] [] s (tapReceivedEffect a0 s) := by
  unfold tapReceivedEffect
  exact Only.step (Only.taps Only.refl) modMet_only

end Sys2Proof.Machine
end

