-- ==== Sys2Proof/Laws/PolicyIns.lean ====
section
/-! SUPPORT. What each operation of Machine/PolicyIns.lean can change: one lemma for each function on the block or a lane, to be cited in
place of unfolding it. -/

namespace Sys2Proof.Machine

set_option Elab.async false

theorem runPolicyIns_only {ok f l s} : OnlyNext [] l [.share] [] s (runPolicyIns ok f l s) := by
  unfold runPolicyIns
  exact OnlyNext.next (Only.ite (Only.modLane Only.refl fun _ => LaneOnly.share LaneOnly.refl) Only.refl)

end Sys2Proof.Machine
end

