-- ==== Sys2Proof/Laws/Queues.lean ====
section
/-! SUPPORT. What each operation of Machine/Queues.lean can change: one lemma for each function on the block or a lane, to be cited in
place of unfolding it. -/

namespace Sys2Proof.Machine

set_option Elab.async false

theorem modFs_only {a0 s l} :
    Only [.fs] l [] [] s (modFs a0 s) := by
  unfold modFs
  exact Only.fs Only.refl

theorem damageSet_only {a0 a1 s l} :
    Only [.sets] l [] [] s (damageSet a0 a1 s) := by
  unfold damageSet
  split
  · exact Only.sets Only.refl
  · exact Only.refl

theorem fastStoreWriteEffect_only {l a0 a1 a2 a3 s} :
    Only [.clk, .sets, .fs] l [.evq] [.evq] s (fastStoreWriteEffect l a0 a1 a2 a3 s) := by
  unfold fastStoreWriteEffect
  exact Only.ite (Only.step (Only.step Only.refl modFs_only) evtLane_only)
    (Only.ite (Only.step (Only.step (Only.step Only.refl modFs_only) damageSet_only) recheckSpares_only)
      (Only.step (Only.step Only.refl modFs_only) recheckSpares_only))

theorem LaneState.modQueue_only {a0 a1 x} : LaneOnly [.queues] x (LaneState.modQueue a0 a1 x) := by
  unfold LaneState.modQueue
  exact LaneOnly.queues LaneOnly.refl

theorem countDrop_only {l a0 s} :
    Only [.chans] l [] [] s (countDrop l a0 s) := by
  unfold countDrop
  exact Only.ite (Only.chans Only.refl) Only.refl

theorem queueEnqueueEffect_only {l a0 a1 s} :
    Only [.chans] l [.queues] [] s (queueEnqueueEffect l a0 a1 s) := by
  unfold queueEnqueueEffect
  exact Only.ite Only.refl
    (Only.ite (Only.modLane Only.refl (fun _ => LaneOnly.step LaneOnly.refl LaneState.modQueue_only))
      (by
        split
        · exact Only.ite
            (Only.step (Only.modLane Only.refl (fun _ => LaneOnly.step LaneOnly.refl LaneState.modQueue_only))
              countDrop_only) Only.refl
        · exact Only.refl))

theorem queueRetireLane_only {a0 x} : LaneOnly [.queues, .roleMap, .evq] x (queueRetireLane a0 x) := by
  unfold queueRetireLane
  split
  · exact LaneOnly.step (LaneOnly.step LaneOnly.refl LaneState.modQueue_only) (LaneOnly.parts (qs := [.roleMap, .evq]))
  · exact LaneOnly.refl

theorem dropRole_only {l a0 s} :
    Only [.chans] l [] [] s (dropRole l a0 s) := by
  unfold dropRole
  split
  · exact Only.ite (Only.chans Only.refl) Only.refl
  · exact Only.refl

theorem queueRetireEffect_only {l a0 s} :
    Only [.clk, .chans] l [.queues, .roleMap, .evq] [.evq] s (queueRetireEffect l a0 s) := by
  unfold queueRetireEffect
  exact Only.ite
    (Only.step
      (Only.modLane (Only.ite (Only.step Only.refl dropRole_only) Only.refl)
        (fun _ => LaneOnly.step LaneOnly.refl queueRetireLane_only)) recheckSpares_only) Only.refl

end Sys2Proof.Machine
end

