-- ==== Sys2Proof/Laws/State.lean ====
section
/-! SUPPORT. What the named updates of State leave and write, one lemma for each field and update, so that no later proof unfolds a
record update. -/

namespace Sys2Proof.Machine

set_option Elab.async false

/-! ## A lane replaced or changed -/

@[simp] theorem State.lane_setLane (s : State) (l : Lane) (x : LaneState) : (s.setLane l x).lane l = x := by cases l <;> rfl
@[simp] theorem State.lane_setLane_other (s : State) (l : Lane) (x : LaneState) :
    (s.setLane l x).lane l.other = s.lane l.other := by cases l <;> rfl
@[simp] theorem State.lane_modLane (s : State) (l : Lane) (f : LaneState → LaneState) :
    (s.modLane l f).lane l = f (s.lane l) := by cases l <;> rfl
@[simp] theorem State.lane_modLane_other (s : State) (l : Lane) (f : LaneState → LaneState) :
    (s.modLane l f).lane l.other = s.lane l.other := by cases l <;> rfl
theorem State.lane_modLane_ne (s : State) {l m : Lane} (f : LaneState → LaneState) (h : m ≠ l) :
    (s.modLane l f).lane m = s.lane m := by cases l <;> cases m <;> first | exact absurd rfl h | rfl
theorem State.lane_setLane_ne (s : State) {l m : Lane} (x : LaneState) (h : m ≠ l) :
    (s.setLane l x).lane m = s.lane m := by cases l <;> cases m <;> first | exact absurd rfl h | rfl
@[simp] theorem State.lane_a (s : State) : s.lane .a = s.laneA := rfl
@[simp] theorem State.lane_b (s : State) : s.lane .b = s.laneB := rfl
@[simp] theorem State.setLane_pending (s : State) (l : Lane) (x : LaneState) : (s.setLane l x).pending = s.pending := by cases l <;> rfl
@[simp] theorem State.modLane_pending (s : State) (l : Lane) (f : LaneState → LaneState) : (s.modLane l f).pending = s.pending := by cases l <;> rfl
@[simp] theorem State.setLane_free (s : State) (l : Lane) (x : LaneState) : (s.setLane l x).free = s.free := by cases l <;> rfl
@[simp] theorem State.modLane_free (s : State) (l : Lane) (f : LaneState → LaneState) : (s.modLane l f).free = s.free := by cases l <;> rfl
@[simp] theorem State.setLane_clk (s : State) (l : Lane) (x : LaneState) : (s.setLane l x).clk = s.clk := by cases l <;> rfl
@[simp] theorem State.modLane_clk (s : State) (l : Lane) (f : LaneState → LaneState) : (s.modLane l f).clk = s.clk := by cases l <;> rfl
@[simp] theorem State.setLane_modes (s : State) (l : Lane) (x : LaneState) : (s.setLane l x).modes = s.modes := by cases l <;> rfl
@[simp] theorem State.modLane_modes (s : State) (l : Lane) (f : LaneState → LaneState) : (s.modLane l f).modes = s.modes := by cases l <;> rfl
@[simp] theorem State.setLane_rails (s : State) (l : Lane) (x : LaneState) : (s.setLane l x).rails = s.rails := by cases l <;> rfl
@[simp] theorem State.modLane_rails (s : State) (l : Lane) (f : LaneState → LaneState) : (s.modLane l f).rails = s.rails := by cases l <;> rfl
@[simp] theorem State.setLane_bk (s : State) (l : Lane) (x : LaneState) : (s.setLane l x).bk = s.bk := by cases l <;> rfl
@[simp] theorem State.modLane_bk (s : State) (l : Lane) (f : LaneState → LaneState) : (s.modLane l f).bk = s.bk := by cases l <;> rfl
@[simp] theorem State.setLane_jct (s : State) (l : Lane) (x : LaneState) : (s.setLane l x).jct = s.jct := by cases l <;> rfl
@[simp] theorem State.modLane_jct (s : State) (l : Lane) (f : LaneState → LaneState) : (s.modLane l f).jct = s.jct := by cases l <;> rfl
@[simp] theorem State.setLane_met (s : State) (l : Lane) (x : LaneState) : (s.setLane l x).met = s.met := by cases l <;> rfl
@[simp] theorem State.modLane_met (s : State) (l : Lane) (f : LaneState → LaneState) : (s.modLane l f).met = s.met := by cases l <;> rfl
@[simp] theorem State.setLane_sets (s : State) (l : Lane) (x : LaneState) : (s.setLane l x).sets = s.sets := by cases l <;> rfl
@[simp] theorem State.modLane_sets (s : State) (l : Lane) (f : LaneState → LaneState) : (s.modLane l f).sets = s.sets := by cases l <;> rfl
@[simp] theorem State.setLane_comm (s : State) (l : Lane) (x : LaneState) : (s.setLane l x).comm = s.comm := by cases l <;> rfl
@[simp] theorem State.modLane_comm (s : State) (l : Lane) (f : LaneState → LaneState) : (s.modLane l f).comm = s.comm := by cases l <;> rfl
@[simp] theorem State.setLane_veh (s : State) (l : Lane) (x : LaneState) : (s.setLane l x).veh = s.veh := by cases l <;> rfl
@[simp] theorem State.modLane_veh (s : State) (l : Lane) (f : LaneState → LaneState) : (s.modLane l f).veh = s.veh := by cases l <;> rfl
@[simp] theorem State.setLane_chans (s : State) (l : Lane) (x : LaneState) : (s.setLane l x).chans = s.chans := by cases l <;> rfl
@[simp] theorem State.modLane_chans (s : State) (l : Lane) (f : LaneState → LaneState) : (s.modLane l f).chans = s.chans := by cases l <;> rfl
@[simp] theorem State.setLane_site (s : State) (l : Lane) (x : LaneState) : (s.setLane l x).site = s.site := by cases l <;> rfl
@[simp] theorem State.modLane_site (s : State) (l : Lane) (f : LaneState → LaneState) : (s.modLane l f).site = s.site := by cases l <;> rfl
@[simp] theorem State.setLane_tri (s : State) (l : Lane) (x : LaneState) : (s.setLane l x).tri = s.tri := by cases l <;> rfl
@[simp] theorem State.modLane_tri (s : State) (l : Lane) (f : LaneState → LaneState) : (s.modLane l f).tri = s.tri := by cases l <;> rfl
@[simp] theorem State.setLane_life (s : State) (l : Lane) (x : LaneState) : (s.setLane l x).life = s.life := by cases l <;> rfl
@[simp] theorem State.modLane_life (s : State) (l : Lane) (f : LaneState → LaneState) : (s.modLane l f).life = s.life := by cases l <;> rfl
@[simp] theorem State.setLane_fs (s : State) (l : Lane) (x : LaneState) : (s.setLane l x).fs = s.fs := by cases l <;> rfl
@[simp] theorem State.modLane_fs (s : State) (l : Lane) (f : LaneState → LaneState) : (s.modLane l f).fs = s.fs := by cases l <;> rfl
@[simp] theorem State.setLane_nand (s : State) (l : Lane) (x : LaneState) : (s.setLane l x).nand = s.nand := by cases l <;> rfl
@[simp] theorem State.modLane_nand (s : State) (l : Lane) (f : LaneState → LaneState) : (s.modLane l f).nand = s.nand := by cases l <;> rfl
@[simp] theorem State.setLane_upd (s : State) (l : Lane) (x : LaneState) : (s.setLane l x).upd = s.upd := by cases l <;> rfl
@[simp] theorem State.modLane_upd (s : State) (l : Lane) (f : LaneState → LaneState) : (s.modLane l f).upd = s.upd := by cases l <;> rfl
@[simp] theorem State.setLane_recs (s : State) (l : Lane) (x : LaneState) : (s.setLane l x).recs = s.recs := by cases l <;> rfl
@[simp] theorem State.modLane_recs (s : State) (l : Lane) (f : LaneState → LaneState) : (s.modLane l f).recs = s.recs := by cases l <;> rfl
@[simp] theorem State.setLane_taps (s : State) (l : Lane) (x : LaneState) : (s.setLane l x).taps = s.taps := by cases l <;> rfl
@[simp] theorem State.modLane_taps (s : State) (l : Lane) (f : LaneState → LaneState) : (s.modLane l f).taps = s.taps := by cases l <;> rfl

/-! ## The named updates of Ops -/

@[simp] theorem bothLanes_pending (f : LaneState → LaneState) (s : State) : (bothLanes f s).pending = s.pending := rfl
@[simp] theorem bothLanes_free (f : LaneState → LaneState) (s : State) : (bothLanes f s).free = s.free := rfl
@[simp] theorem bothLanes_clk (f : LaneState → LaneState) (s : State) : (bothLanes f s).clk = s.clk := rfl
@[simp] theorem bothLanes_modes (f : LaneState → LaneState) (s : State) : (bothLanes f s).modes = s.modes := rfl
@[simp] theorem bothLanes_rails (f : LaneState → LaneState) (s : State) : (bothLanes f s).rails = s.rails := rfl
@[simp] theorem bothLanes_bk (f : LaneState → LaneState) (s : State) : (bothLanes f s).bk = s.bk := rfl
@[simp] theorem bothLanes_jct (f : LaneState → LaneState) (s : State) : (bothLanes f s).jct = s.jct := rfl
@[simp] theorem bothLanes_met (f : LaneState → LaneState) (s : State) : (bothLanes f s).met = s.met := rfl
@[simp] theorem bothLanes_sets (f : LaneState → LaneState) (s : State) : (bothLanes f s).sets = s.sets := rfl
@[simp] theorem bothLanes_comm (f : LaneState → LaneState) (s : State) : (bothLanes f s).comm = s.comm := rfl
@[simp] theorem bothLanes_veh (f : LaneState → LaneState) (s : State) : (bothLanes f s).veh = s.veh := rfl
@[simp] theorem bothLanes_chans (f : LaneState → LaneState) (s : State) : (bothLanes f s).chans = s.chans := rfl
@[simp] theorem bothLanes_site (f : LaneState → LaneState) (s : State) : (bothLanes f s).site = s.site := rfl
@[simp] theorem bothLanes_tri (f : LaneState → LaneState) (s : State) : (bothLanes f s).tri = s.tri := rfl
@[simp] theorem bothLanes_life (f : LaneState → LaneState) (s : State) : (bothLanes f s).life = s.life := rfl
@[simp] theorem bothLanes_fs (f : LaneState → LaneState) (s : State) : (bothLanes f s).fs = s.fs := rfl
@[simp] theorem bothLanes_nand (f : LaneState → LaneState) (s : State) : (bothLanes f s).nand = s.nand := rfl
@[simp] theorem bothLanes_upd (f : LaneState → LaneState) (s : State) : (bothLanes f s).upd = s.upd := rfl
@[simp] theorem bothLanes_recs (f : LaneState → LaneState) (s : State) : (bothLanes f s).recs = s.recs := rfl
@[simp] theorem bothLanes_taps (f : LaneState → LaneState) (s : State) : (bothLanes f s).taps = s.taps := rfl
@[simp] theorem State.useFree_pending (s : State) (n : Nat) : (s.useFree n).pending = s.pending := rfl
@[simp] theorem State.useFree_clk (s : State) (n : Nat) : (s.useFree n).clk = s.clk := rfl
@[simp] theorem State.useFree_modes (s : State) (n : Nat) : (s.useFree n).modes = s.modes := rfl
@[simp] theorem State.useFree_rails (s : State) (n : Nat) : (s.useFree n).rails = s.rails := rfl
@[simp] theorem State.useFree_bk (s : State) (n : Nat) : (s.useFree n).bk = s.bk := rfl
@[simp] theorem State.useFree_jct (s : State) (n : Nat) : (s.useFree n).jct = s.jct := rfl
@[simp] theorem State.useFree_met (s : State) (n : Nat) : (s.useFree n).met = s.met := rfl
@[simp] theorem State.useFree_sets (s : State) (n : Nat) : (s.useFree n).sets = s.sets := rfl
@[simp] theorem State.useFree_comm (s : State) (n : Nat) : (s.useFree n).comm = s.comm := rfl
@[simp] theorem State.useFree_veh (s : State) (n : Nat) : (s.useFree n).veh = s.veh := rfl
@[simp] theorem State.useFree_chans (s : State) (n : Nat) : (s.useFree n).chans = s.chans := rfl
@[simp] theorem State.useFree_site (s : State) (n : Nat) : (s.useFree n).site = s.site := rfl
@[simp] theorem State.useFree_tri (s : State) (n : Nat) : (s.useFree n).tri = s.tri := rfl
@[simp] theorem State.useFree_life (s : State) (n : Nat) : (s.useFree n).life = s.life := rfl
@[simp] theorem State.useFree_fs (s : State) (n : Nat) : (s.useFree n).fs = s.fs := rfl
@[simp] theorem State.useFree_nand (s : State) (n : Nat) : (s.useFree n).nand = s.nand := rfl
@[simp] theorem State.useFree_upd (s : State) (n : Nat) : (s.useFree n).upd = s.upd := rfl
@[simp] theorem State.useFree_recs (s : State) (n : Nat) : (s.useFree n).recs = s.recs := rfl
@[simp] theorem State.useFree_taps (s : State) (n : Nat) : (s.useFree n).taps = s.taps := rfl
@[simp] theorem State.useFree_free (s : State) (n : Nat) : (s.useFree n).free = s.free + n := rfl
@[simp] theorem State.useFree_lane (s : State) (n : Nat) (l : Lane) : (s.useFree n).lane l = s.lane l := by cases l <;> rfl
@[simp] theorem bothLanes_lane (f : LaneState → LaneState) (s : State) (l : Lane) : (bothLanes f s).lane l = f (s.lane l) := by
  cases l <;> rfl
@[simp] theorem evtLane_pending (l : Lane) (e : EventReq) (s : State) : (evtLane l e s).pending = s.pending := by cases l <;> rfl
@[simp] theorem evtLane_free (l : Lane) (e : EventReq) (s : State) : (evtLane l e s).free = s.free := by cases l <;> rfl
@[simp] theorem evtLane_clk (l : Lane) (e : EventReq) (s : State) : (evtLane l e s).clk = s.clk := by cases l <;> rfl
@[simp] theorem evtLane_modes (l : Lane) (e : EventReq) (s : State) : (evtLane l e s).modes = s.modes := by cases l <;> rfl
@[simp] theorem evtLane_rails (l : Lane) (e : EventReq) (s : State) : (evtLane l e s).rails = s.rails := by cases l <;> rfl
@[simp] theorem evtLane_bk (l : Lane) (e : EventReq) (s : State) : (evtLane l e s).bk = s.bk := by cases l <;> rfl
@[simp] theorem evtLane_jct (l : Lane) (e : EventReq) (s : State) : (evtLane l e s).jct = s.jct := by cases l <;> rfl
@[simp] theorem evtLane_met (l : Lane) (e : EventReq) (s : State) : (evtLane l e s).met = s.met := by cases l <;> rfl
@[simp] theorem evtLane_sets (l : Lane) (e : EventReq) (s : State) : (evtLane l e s).sets = s.sets := by cases l <;> rfl
@[simp] theorem evtLane_comm (l : Lane) (e : EventReq) (s : State) : (evtLane l e s).comm = s.comm := by cases l <;> rfl
@[simp] theorem evtLane_veh (l : Lane) (e : EventReq) (s : State) : (evtLane l e s).veh = s.veh := by cases l <;> rfl
@[simp] theorem evtLane_chans (l : Lane) (e : EventReq) (s : State) : (evtLane l e s).chans = s.chans := by cases l <;> rfl
@[simp] theorem evtLane_site (l : Lane) (e : EventReq) (s : State) : (evtLane l e s).site = s.site := by cases l <;> rfl
@[simp] theorem evtLane_tri (l : Lane) (e : EventReq) (s : State) : (evtLane l e s).tri = s.tri := by cases l <;> rfl
@[simp] theorem evtLane_life (l : Lane) (e : EventReq) (s : State) : (evtLane l e s).life = s.life := by cases l <;> rfl
@[simp] theorem evtLane_fs (l : Lane) (e : EventReq) (s : State) : (evtLane l e s).fs = s.fs := by cases l <;> rfl
@[simp] theorem evtLane_nand (l : Lane) (e : EventReq) (s : State) : (evtLane l e s).nand = s.nand := by cases l <;> rfl
@[simp] theorem evtLane_upd (l : Lane) (e : EventReq) (s : State) : (evtLane l e s).upd = s.upd := by cases l <;> rfl
@[simp] theorem evtLane_recs (l : Lane) (e : EventReq) (s : State) : (evtLane l e s).recs = s.recs := by cases l <;> rfl
@[simp] theorem evtLane_taps (l : Lane) (e : EventReq) (s : State) : (evtLane l e s).taps = s.taps := by cases l <;> rfl
@[simp] theorem evt_pending (e : EventReq) (s : State) : (evt e s).pending = s.pending := by simp only [evt]; split <;> split <;> rfl
@[simp] theorem evt_free (e : EventReq) (s : State) : (evt e s).free = s.free := by simp only [evt]; split <;> split <;> rfl
@[simp] theorem evt_clk (e : EventReq) (s : State) : (evt e s).clk = s.clk := by simp only [evt]; split <;> split <;> rfl
@[simp] theorem evt_modes (e : EventReq) (s : State) : (evt e s).modes = s.modes := by simp only [evt]; split <;> split <;> rfl
@[simp] theorem evt_rails (e : EventReq) (s : State) : (evt e s).rails = s.rails := by simp only [evt]; split <;> split <;> rfl
@[simp] theorem evt_bk (e : EventReq) (s : State) : (evt e s).bk = s.bk := by simp only [evt]; split <;> split <;> rfl
@[simp] theorem evt_jct (e : EventReq) (s : State) : (evt e s).jct = s.jct := by simp only [evt]; split <;> split <;> rfl
@[simp] theorem evt_met (e : EventReq) (s : State) : (evt e s).met = s.met := by simp only [evt]; split <;> split <;> rfl
@[simp] theorem evt_sets (e : EventReq) (s : State) : (evt e s).sets = s.sets := by simp only [evt]; split <;> split <;> rfl
@[simp] theorem evt_comm (e : EventReq) (s : State) : (evt e s).comm = s.comm := by simp only [evt]; split <;> split <;> rfl
@[simp] theorem evt_veh (e : EventReq) (s : State) : (evt e s).veh = s.veh := by simp only [evt]; split <;> split <;> rfl
@[simp] theorem evt_chans (e : EventReq) (s : State) : (evt e s).chans = s.chans := by simp only [evt]; split <;> split <;> rfl
@[simp] theorem evt_site (e : EventReq) (s : State) : (evt e s).site = s.site := by simp only [evt]; split <;> split <;> rfl
@[simp] theorem evt_tri (e : EventReq) (s : State) : (evt e s).tri = s.tri := by simp only [evt]; split <;> split <;> rfl
@[simp] theorem evt_life (e : EventReq) (s : State) : (evt e s).life = s.life := by simp only [evt]; split <;> split <;> rfl
@[simp] theorem evt_fs (e : EventReq) (s : State) : (evt e s).fs = s.fs := by simp only [evt]; split <;> split <;> rfl
@[simp] theorem evt_nand (e : EventReq) (s : State) : (evt e s).nand = s.nand := by simp only [evt]; split <;> split <;> rfl
@[simp] theorem evt_upd (e : EventReq) (s : State) : (evt e s).upd = s.upd := by simp only [evt]; split <;> split <;> rfl
@[simp] theorem evt_recs (e : EventReq) (s : State) : (evt e s).recs = s.recs := by simp only [evt]; split <;> split <;> rfl
@[simp] theorem evt_taps (e : EventReq) (s : State) : (evt e s).taps = s.taps := by simp only [evt]; split <;> split <;> rfl
theorem computing_evtLane (m l : Lane) (e : EventReq) (s : State) : computing (evtLane m e s) l = computing s l := by
  cases m <;> cases l <;> rfl
@[simp] theorem evt_lane (e : EventReq) (s : State) (l : Lane) :
    (evt e s).lane l = if computing s l then (s.lane l).event e else s.lane l := by
  by_cases ha : computing s .a = true <;> by_cases hb : computing s .b = true <;>
    cases l <;> simp [evt, ha, hb, computing_evtLane] <;> rfl
@[simp] theorem respond_pending (c : U32) (d : List Byte) (s : State) : (respond c d s).pending = s.pending := rfl
@[simp] theorem respond_free (c : U32) (d : List Byte) (s : State) : (respond c d s).free = s.free := rfl
@[simp] theorem respond_clk (c : U32) (d : List Byte) (s : State) : (respond c d s).clk = s.clk := rfl
@[simp] theorem respond_modes (c : U32) (d : List Byte) (s : State) : (respond c d s).modes = s.modes := rfl
@[simp] theorem respond_rails (c : U32) (d : List Byte) (s : State) : (respond c d s).rails = s.rails := rfl
@[simp] theorem respond_bk (c : U32) (d : List Byte) (s : State) : (respond c d s).bk = s.bk := rfl
@[simp] theorem respond_jct (c : U32) (d : List Byte) (s : State) : (respond c d s).jct = s.jct := rfl
@[simp] theorem respond_met (c : U32) (d : List Byte) (s : State) : (respond c d s).met = s.met := rfl
@[simp] theorem respond_sets (c : U32) (d : List Byte) (s : State) : (respond c d s).sets = s.sets := rfl
@[simp] theorem respond_veh (c : U32) (d : List Byte) (s : State) : (respond c d s).veh = s.veh := rfl
@[simp] theorem respond_chans (c : U32) (d : List Byte) (s : State) : (respond c d s).chans = s.chans := rfl
@[simp] theorem respond_site (c : U32) (d : List Byte) (s : State) : (respond c d s).site = s.site := rfl
@[simp] theorem respond_tri (c : U32) (d : List Byte) (s : State) : (respond c d s).tri = s.tri := rfl
@[simp] theorem respond_life (c : U32) (d : List Byte) (s : State) : (respond c d s).life = s.life := rfl
@[simp] theorem respond_fs (c : U32) (d : List Byte) (s : State) : (respond c d s).fs = s.fs := rfl
@[simp] theorem respond_nand (c : U32) (d : List Byte) (s : State) : (respond c d s).nand = s.nand := rfl
@[simp] theorem respond_upd (c : U32) (d : List Byte) (s : State) : (respond c d s).upd = s.upd := rfl
@[simp] theorem respond_recs (c : U32) (d : List Byte) (s : State) : (respond c d s).recs = s.recs := rfl
@[simp] theorem respond_taps (c : U32) (d : List Byte) (s : State) : (respond c d s).taps = s.taps := rfl
@[simp] theorem respond_response (c : U32) (d : List Byte) (s : State) : (respond c d s).comm.response = some (c, d) := rfl
@[simp] theorem respond_lane (c : U32) (d : List Byte) (s : State) (l : Lane) : (respond c d s).lane l = s.lane l := by cases l <;> rfl

/-! ## The Junction's record of a lane -/

@[simp] theorem Junction.lane_modLane (j : Junction) (l : Lane) (f : JLane → JLane) : (j.modLane l f).lane l = f (j.lane l) := by
  cases l <;> rfl
@[simp] theorem Junction.lane_modLane_other (j : Junction) (l : Lane) (f : JLane → JLane) :
    (j.modLane l f).lane l.other = j.lane l.other := by cases l <;> rfl
@[simp] theorem Junction.modLane_lost (j : Junction) (l : Lane) (f : JLane → JLane) : (j.modLane l f).lost = j.lost := by cases l <;> rfl
@[simp] theorem Junction.modLane_ready (j : Junction) (l : Lane) (f : JLane → JLane) : (j.modLane l f).ready = j.ready := by cases l <;> rfl
@[simp] theorem Junction.modLane_mux (j : Junction) (l : Lane) (f : JLane → JLane) : (j.modLane l f).mux = j.mux := by cases l <;> rfl
@[simp] theorem Junction.modLane_mark (j : Junction) (l : Lane) (f : JLane → JLane) : (j.modLane l f).mark = j.mark := by cases l <;> rfl
@[simp] theorem Junction.modLane_decision (j : Junction) (l : Lane) (f : JLane → JLane) : (j.modLane l f).decision = j.decision := by cases l <;> rfl
@[simp] theorem Junction.modLane_judgedAt (j : Junction) (l : Lane) (f : JLane → JLane) : (j.modLane l f).judgedAt = j.judgedAt := by cases l <;> rfl
@[simp] theorem Junction.modLane_cross (j : Junction) (l : Lane) (f : JLane → JLane) : (j.modLane l f).cross = j.cross := by cases l <;> rfl
@[simp] theorem Junction.modLane_planReq (j : Junction) (l : Lane) (f : JLane → JLane) : (j.modLane l f).planReq = j.planReq := by cases l <;> rfl
@[simp] theorem Junction.modLane_result (j : Junction) (l : Lane) (f : JLane → JLane) : (j.modLane l f).result = j.result := by cases l <;> rfl
@[simp] theorem Junction.modLane_crossovers (j : Junction) (l : Lane) (f : JLane → JLane) : (j.modLane l f).crossovers = j.crossovers := by cases l <;> rfl
@[simp] theorem Junction.modLane_lastAt (j : Junction) (l : Lane) (f : JLane → JLane) : (j.modLane l f).lastAt = j.lastAt := by cases l <;> rfl
@[simp] theorem Junction.modLane_lastCause (j : Junction) (l : Lane) (f : JLane → JLane) : (j.modLane l f).lastCause = j.lastCause := by cases l <;> rfl
@[simp] theorem Junction.modLane_temp (j : Junction) (l : Lane) (f : JLane → JLane) : (j.modLane l f).temp = j.temp := by cases l <;> rfl
@[simp] theorem Junction.modLane_metTemp (j : Junction) (l : Lane) (f : JLane → JLane) : (j.modLane l f).metTemp = j.metTemp := by cases l <;> rfl
@[simp] theorem Junction.modLane_peak (j : Junction) (l : Lane) (f : JLane → JLane) : (j.modLane l f).peak = j.peak := by cases l <;> rfl
@[simp] theorem Junction.modLane_throttled (j : Junction) (l : Lane) (f : JLane → JLane) : (j.modLane l f).throttled = j.throttled := by cases l <;> rfl
@[simp] theorem Junction.modLane_safeDue (j : Junction) (l : Lane) (f : JLane → JLane) : (j.modLane l f).safeDue = j.safeDue := by cases l <;> rfl
@[simp] theorem Junction.modLane_safeN (j : Junction) (l : Lane) (f : JLane → JLane) : (j.modLane l f).safeN = j.safeN := by cases l <;> rfl

end Sys2Proof.Machine
end

