-- ==== Sys2Proof/Laws/Shape.lean ====
section
/-! SUPPORT. What `Shape` gives of a lane, and completion from an equation. -/

namespace Sys2Proof.Machine

set_option Elab.async false

theorem Shape.lane {s : State} (h : Shape s) (l : Lane) : LaneShape (s.lane l) := by cases l; exacts [h.laneA, h.laneB]

/-- A command whose outcome is known completes. -/
theorem Completes.of {c : Instr} {s t : State} {P : State → Prop} (h : exec c s = .next t) (hp : P t) : Completes c s P := ⟨t, h, hp⟩

end Sys2Proof.Machine
end

