-- ==== Sys2Proof/Laws/Reads.lean ====
section
/-! SUPPORT. What a link, a loop, a queue or a tile reads after an update of it or of another, and how a frame carries a reading across an
operation. -/

namespace Sys2Proof.Machine

set_option Elab.async false

/-- An element that is not the default stands in the list. -/
theorem nth_lt_of_ne {α : Type} [Inhabited α] {l : List α} {n : Nat} (h : nth l n ≠ default) : n < l.length := by
  by_contra c
  exact h (by unfold nth; simp [not_lt.mp c])

/-! ## Links -/

theorem LaneState.link_modLink_self {x : LaneState} {n f} (h : n < x.links.length) : (x.modLink n f).link n = f (x.link n) :=
  nth_upd_self _ _ _ h

theorem LaneState.link_modLink_ne {x : LaneState} {n m f} (h : m ≠ n) : (x.modLink n f).link m = x.link m :=
  nth_upd_ne _ _ _ _ (Ne.symm h)

@[simp] theorem LaneState.links_length_modLink {x : LaneState} {n f} : (x.modLink n f).links.length = x.links.length := upd_length _ _ _

@[simp] theorem LaneState.link_event {x : LaneState} {e m} : (x.event e).link m = x.link m := rfl

theorem LaneState.link_congr {x y : LaneState} (h : x.links = y.links) (n : Nat) : x.link n = y.link n := by
  unfold LaneState.link; rw [h]

theorem link_linkTo_self {x : LaneState} {n st} (h : n < x.links.length) : (linkTo n st x).link n = { x.link n with st := st } := by
  unfold linkTo; rw [LaneState.link_event, LaneState.link_modLink_self h]

theorem link_linkTo_ne {x : LaneState} {n m st} (h : m ≠ n) : (linkTo n st x).link m = x.link m := by
  unfold linkTo; rw [LaneState.link_event, LaneState.link_modLink_ne h]

/-! ## Loops -/

theorem LaneShape.loop_modLoop {x : LaneState} (h : LaneShape x) (i : LoopId) (f : Loop → Loop) :
    (x.modLoop i f).loop i = f (x.loop i) := by
  cases i with
  | bay n => exact nth_upd_self _ _ _ (by rw [h.bayLoops]; exact n.2)
  | module n => exact nth_upd_self _ _ _ (by rw [h.modLoops]; exact n.2)
  | string n => exact nth_upd_self _ _ _ (by rw [h.strLoops]; exact n.2)
  | slow n => exact nth_upd_self _ _ _ (by rw [h.slowLoops]; exact n.2)

theorem LaneState.loop_modLoop_ne {x : LaneState} {i j : LoopId} {f : Loop → Loop} (h : j ≠ i) : (x.modLoop i f).loop j = x.loop j := by
  cases i <;> cases j <;> try rfl
  all_goals exact nth_upd_ne _ _ _ _ (fun e => h (by congr 1; exact (Fin.ext e).symm))

/-- A function that leaves the four lists of loops leaves every loop. -/
theorem LaneOnly.loop {qs x y} (h : LaneOnly qs x y) (i : LoopId)
    (hq : LanePart.bayLoops ∉ qs ∧ LanePart.modLoops ∉ qs ∧ LanePart.strLoops ∉ qs ∧ LanePart.slowLoops ∉ qs := by decide) :
    y.loop i = x.loop i := by
  cases i with
  | bay n => unfold LaneState.loop; rw [h .bayLoops hq.1]
  | module n => unfold LaneState.loop; rw [h .modLoops hq.2.1]
  | string n => unfold LaneState.loop; rw [h .strLoops hq.2.2.1]
  | slow n => unfold LaneState.loop; rw [h .slowLoops hq.2.2.2]

theorem LaneState.modLoop_lists_length {x : LaneState} (i : LoopId) (f : Loop → Loop) :
    (x.modLoop i f).bayLoops.length = x.bayLoops.length ∧ (x.modLoop i f).modLoops.length = x.modLoops.length ∧
    (x.modLoop i f).strLoops.length = x.strLoops.length ∧ (x.modLoop i f).slowLoops.length = x.slowLoops.length := by
  cases i <;> simp [LaneState.modLoop]

/-- A lane keeps its shape where one of its loops changes. -/
theorem LaneShape.modLoop {x : LaneState} (h : LaneShape x) (i : LoopId) (f : Loop → Loop) : LaneShape (x.modLoop i f) := by
  cases i <;> exact { h with bayLoops := by simp [LaneState.modLoop, h.bayLoops], modLoops := by simp [LaneState.modLoop, h.modLoops], strLoops := by simp [LaneState.modLoop, h.strLoops], slowLoops := by simp [LaneState.modLoop, h.slowLoops] }

end Sys2Proof.Machine
end

