-- ==== Sys2Proof/Laws/SetChecks.lean ====
section
/-! SUPPORT. What each operation of Machine/SetChecks.lean can change: one lemma for each function on the block or a lane, to be cited in
place of unfolding it. -/

namespace Sys2Proof.Machine

set_option Elab.async false

theorem imageView_only {s l} :
    Only [.sets] l [] [] s (imageView s) := by
  unfold imageView
  exact Only.sets Only.refl

end Sys2Proof.Machine
end

