-- ==== Sys2Proof/Laws/Snapshots.lean ====
section
/-! SUPPORT. What each operation of Machine/Snapshots.lean can change: one lemma for each function on the block or a lane, to be cited in
place of unfolding it. -/

namespace Sys2Proof.Machine

set_option Elab.async false

theorem logCopyLane_only {a0 x} : LaneOnly [.evq] x (logCopyLane a0 x) := by
  unfold logCopyLane
  exact LaneOnly.ite (LaneOnly.step LaneOnly.refl LaneState.event_only) LaneOnly.refl

theorem startSnapshot_only {a0 a1 a2 x} : LaneOnly [.reading] x (startSnapshot a0 a1 a2 x) := by
  unfold startSnapshot
  exact LaneOnly.ite (LaneOnly.reading LaneOnly.refl) LaneOnly.refl

theorem signedReceivedEffect_only {l a0 s} :
    Only [.clk, .nand] l [.evq, .signed] [.evq] s (signedReceivedEffect l a0 s) := by
  unfold signedReceivedEffect
  exact Only.ite (Only.step (Only.modLane Only.refl (fun _ => LaneOnly.signed LaneOnly.refl)) flushSigned_only) Only.refl

theorem publishSnapshot_only {x} : LaneOnly [.reading, .published] x (publishSnapshot x) := by
  unfold publishSnapshot
  split
  · exact LaneOnly.ite (LaneOnly.step LaneOnly.refl (LaneOnly.parts (qs := [.reading, .published]))) LaneOnly.refl
  · exact LaneOnly.refl

end Sys2Proof.Machine
end

