-- ==== Sys2Proof/Laws/TileIns.lean ====
section
/-! SUPPORT. What each operation of Machine/TileIns.lean can change: one lemma for each function on the block or a lane, to be cited in
place of unfolding it. -/

namespace Sys2Proof.Machine

set_option Elab.async false

theorem setRunning_only {l a0 a1 s} :
    Only [] l [.tiles] [] s (setRunning l a0 a1 s) := by
  unfold setRunning
  exact Only.modLane Only.refl (fun _ => LaneOnly.tiles LaneOnly.refl)

theorem runTile_only {ok c f l a0 s} : OnlyNext [] l [.tiles] [] s (runTile ok c f l a0 s) := by
  unfold runTile
  refine OnlyNext.next ?_
  split
  · exact Only.refl
  · exact Only.ite (Only.step Only.refl setRunning_only) Only.refl

theorem captureTake_only {a0 l a1 s} :
    Only [.clk] l [] [] s (captureTake a0 l a1 s) := by
  unfold captureTake
  split
  · exact Only.refl
  · exact Only.ite (Only.clk Only.refl) Only.refl

theorem tileFault_only {l a0 s} :
    Only [] l [.health, .tiles] [] s (tileFault l a0 s) := by
  unfold tileFault
  exact Only.modLane Only.refl (fun _ => LaneOnly.step LaneOnly.refl (LaneOnly.parts (qs := [.health, .tiles])))

theorem tileEccEffect_only {l a0 a1 s} :
    Only [] l [.health, .tiles] [] s (tileEccEffect l a0 a1 s) := by
  unfold tileEccEffect
  exact Only.ite (Only.modLane Only.refl (fun _ => LaneOnly.tiles LaneOnly.refl))
    (Only.step (Only.modLane Only.refl (fun _ => LaneOnly.tiles LaneOnly.refl)) tileFault_only)

end Sys2Proof.Machine
end

