-- ==== Sys2Proof/Tests/Slice0.lean ====
section
/-! SUPPORT. Small tests: an ill-formed command for each check of WellFormed, worked examples of the spec, and for every statement with premises a
state and operands that meet them. A premise on an opaque constant of Config (a cipher, a canary, the NAND's size, whether a slot fails) cannot be
evaluated and is left out of its witness: it is free of the rest. -/

namespace Sys2Proof.Tests
open Sys2Proof.Machine
set_option Elab.async false
set_option maxRecDepth 100000
set_option linter.unusedVariables false

/-! ## Helpers -/

/-- s with v stored in n bytes at object i:k of the active set. -/
def putCfg (i k n v : Nat) (s : State) : State :=
  modSets (fun (x : Sets) => { x with active := Store.insert (objKey i k) (leBytes n v) (x.active.erase (objKey i k)) }) s

/-- s with v stored in n bytes at the rw object i:k. -/
def putRw (i k n v : Nat) (s : State) : State :=
  modComm (fun (x : Comm) => { x with rw := Store.insert (objKey i k) (leBytes n v) (x.rw.erase (objKey i k)) }) s

/-- s with lane l of the Junction changed. -/
def onJ (l : Lane) (f : JLane → JLane) (s : State) : State := modJct (fun (x : Junction) => x.modLane l f) s

/-- s in mode m. -/
def inMode (m : Mode) (s : State) : State := modModes (fun (x : ModeUnit) => { x with mode := m }) s

/-- A device at work in IDLE: Lane A active, Lane B standby, the Junction, the metrology section and the storage manager running. -/
def work : State :=
  (inMode .idle
    (modNand (fun (x : Nand) => { x with st := 2 })
      (modMet (fun (x : Metro) => { x with ctl := (let c := x.ctl; { c with st := .ready, legalSet := true }) })
        (modJct (fun (x : Junction) => { x with lost := false, ready := true, mark := some .a, mux := some .a })
          (modRails (fun (x : Rails) => { x with inReset := false })
            (onJ .a (fun (x : JLane) => { x with role := .active, reported := true, beats := true })
              (onJ .b (fun (x : JLane) => { x with role := .standby, reported := true, beats := true })
                (bothLanes (fun (x : LaneState) => { x with ctl := (let c := x.ctl; { c with bootStep := 7, metroReady := true }) })
                  { State.reset with chans := State.reset.chans.map fun (x : Channel) => { x with st := .errorActive }, upd.attached := true }))))))))

/-- Bay 1 on spur link 0 with vehicle link 1, module 1 in cabinet 1 on spur link 1, string 1 on spur link 2. -/
def hub (s : State) : State :=
  putCfg 0x3000 2 1 1 (putCfg 0x3000 4 1 0 (putCfg 0x3000 5 1 1 (putCfg 0x3100 1 1 1 (putCfg 0x3180 1 1 1 (putCfg 0x31A0 1 1 2
    (putCfg 0x3610 1 1 2 (putCfg 0x3900 1 1 1 (putCfg 0x3230 1 1 1 (putCfg 0x3611 1 1 1 (putCfg 0x3612 1 1 3 (putCfg 0x3710 1 1 1 (putCfg 0x3300 1 1 1 s))))))))))))

/-- The device at work with the hub configured. -/
def base : State := hub work

/-- s with the bytes b stored at object i:k of the active set. -/
def putBytes (i k : Nat) (b : List Byte) (s : State) : State :=
  modSets (fun (x : Sets) => { x with active := Store.insert (objKey i k) b (x.active.erase (objKey i k)) }) s

/-- A quadrille image of one column of 1 ms whose only cell is exclusive, of the time master, with the heartbeat's code. -/
def quadWord : List Byte := [0, 1, 1, 0] ++ leBytes 4 1000 ++ leBytes 8 0 ++ leBytes 4 0 ++ [1, 0xFF, 0x20, 0]

/-- A calendar of one season, one week and one day profile with one tariff, active one hour after the start of legal time. -/
def plainCalendar : List Byte :=
  let b : List Byte := [1, 1, 1, 1, 0, 15, 0, 0, 1] ++ List.replicate 23 0 ++ leBytes 8 117964800 ++ leBytes 4 1 ++ leBytes 2 2 ++ [0, 0]
    ++ [1, 1, 0, 0] ++ List.replicate 8 0 ++ [1] ++ List.replicate 51 0
  b ++ leBytes 4 (crc32 b).toNat

/-- A filter reel of one rule that drops every event. -/
def dropReel : List Byte := [1, 0, 0, 0, 1, 0] ++ List.replicate 10 0 ++ leBytes 4 (2 ^ 30)

/-- Frames of every TYPE with each mark. -/
def frames : List TrievoFrame :=
  ([1, 2, 3, 6, 0] : List (BitVec 4)).flatMap fun t =>
    [true, false].flatMap fun c =>
      ([0, 1, 254] : List U8).flatMap fun a =>
        ([[], [1, 0, 0, 0, 0, 0], [16], [7, 0, 0, 0, 1, 1]] : List (List Byte)).map fun p =>
          { (default : TrievoFrame) with fcOk := true, ver := 1, ftype := t, src := a, payload := p, crcOk := c }

/-- Slots of the vehicle-link domain: one for each family of algorithms, with every usage. -/
def keys : List KeySlot :=
  ([1, 0x11, 0x21, 0x31] : List U8).flatMap fun a =>
    [false, true].map fun p => { (default : KeySlot) with path := 0x01020000, alg := a, usage := 0xFF, good := true, pubOnly := p }

/-- Requests on that path. -/
def reqs : List KeyReq := [{ (default : KeyReq) with path := 0x01020000, data := [1] }, default, { (default : KeyReq) with data := [1] }]

/-- Update messages of each OP. -/
def msgs : List KeyMsg := [default, { (default : KeyMsg) with length := 1 }]

/-- An update message of a layout that passes the FORMAT check. -/
def updateMsg (op : U8) (n : U16) (body : List Byte) (p : U32) (alg us : U8) : KeyMsg :=
  { (default : KeyMsg) with
    op := op, length := n, version := 1, body := body, path := p, algorithm := alg, usage := us, counter := 1
    deviceId := List.replicate 16 0, signature := List.replicate 96 0, reserved := 0, reserved2 := 0 }

/-- A tile run of bay loop 1 in slot 0. -/
def run0 : TileRun :=
  { (default : TileRun) with
    loop := some (.bay 0), v := List.replicate 16 Stage.zero, p := List.replicate 8 Stage.zero, q := List.replicate 4 Acc.zero
    a := List.replicate 2 Acc.zero, masks := List.replicate 4 0, inPorts := List.replicate 16 ⟨0, 0, false⟩
    outPorts := List.replicate 8 none, outCodes := List.replicate 8 0, consts := List.replicate 16 0 }

/-- The list lengths of a lane, as a check. -/
def shapeL (x : LaneState) : Bool :=
  decide (x.links.length = 64 ∧ x.bank0.length = 64 ∧ x.bank1.length = 64 ∧ x.out.length = 64 ∧ x.latched.length = 64 ∧ x.tiles.length = 10 ∧
    x.bayLoops.length = 24 ∧ x.modLoops.length = 96 ∧ x.strLoops.length = 8 ∧ x.slowLoops.length = 15 ∧ x.queues.length = 128 ∧
    x.roleMap.length = 128 ∧ x.wp.mods.length = 96 ∧ x.share.strs.length = 8 ∧ x.share.bayAcc.length = 24 ∧ x.share.pol.s.length = 16)

/-- The list lengths of the block, as a check. -/
def shapeB (s : State) : Bool :=
  shapeL s.laneA && shapeL s.laneB && decide (s.veh.links.length = 24 ∧ s.chans.length = 4 ∧ (∀ c ∈ s.chans, c.tx.length = 4 ∧ c.rx.length = 2) ∧
    s.met.dc.length = 32 ∧ s.met.bill.regs.sessions.length = 32 ∧ s.met.pout.length = 4 ∧ s.met.pin.length = 4 ∧ s.bk.inputs.length = 4 ∧
    s.comm.sessions.length = 4 ∧ s.comm.tpdoAt.length = 16)

theorem laneShape_of_shapeL {x : LaneState} (h : shapeL x = true) : LaneShape x := by
  obtain ⟨h1, h2, h3, h4, h5, h6, h7, h8, h9, h10, h11, h12, h13, h14, h15, h16⟩ := of_decide_eq_true h
  exact ⟨h1, h2, h3, h4, h5, h6, h7, h8, h9, h10, h11, h12, h13, h14, h15, h16⟩

/-- The check proves the shape: the witnesses below use it where a clause assumes Shape. -/
theorem shape_of_shapeB {s : State} (h : shapeB s = true) : Shape s := by
  simp only [shapeB, Bool.and_eq_true, decide_eq_true_eq] at h
  obtain ⟨⟨ha, hb⟩, h1, h2, h3, h4, h5, h6, h7, h8, h9, h10⟩ := h
  exact ⟨laneShape_of_shapeL ha, laneShape_of_shapeL hb, h1, h2, h3, h4, h5, h6, h7, h8, h9, h10⟩

/-! ## Ill-formed commands, one for each check of WellFormed -/

theorem test_wf_tile :
    ([.tileNop .a 0 ⟨31, 31, 31, 0x7FF⟩, .tileLdp .a 0 ⟨31, 31, 31, 0x7FF⟩, .tileLdk .a 0 ⟨31, 31, 31, 0x7FF⟩, .tileMov .a 0 ⟨31, 31, 31, 0x7FF⟩,
      .tileSto .a 0 ⟨31, 31, 31, 0x7FF⟩, .tileAdd .a 0 ⟨31, 31, 31, 0x7FF⟩, .tileSub .a 0 ⟨31, 31, 31, 0x7FF⟩, .tileMul .a 0 ⟨31, 31, 31, 0x7FF⟩,
      .tileMac .a 0 ⟨31, 31, 31, 0x7FF⟩, .tileClp .a 0 ⟨31, 31, 31, 0x7FF⟩, .tileRnm .a 0 ⟨31, 31, 31, 0x7FF⟩, .tileInt .a 0 ⟨31, 31, 31, 0x7FF⟩,
      .tileDrv .a 0 ⟨31, 31, 31, 0x7FF⟩, .tileFlt .a 0 ⟨31, 31, 31, 0x7FF⟩, .tileSel .a 0 ⟨31, 31, 31, 0x7FF⟩, .tileCmp .a 0 ⟨31, 31, 31, 0x7FF⟩,
      .tileRmp .a 0 ⟨31, 31, 31, 0x7FF⟩, .tileTsi .a 0 ⟨31, 31, 31, 0x7FF⟩, .tileCap .a 0 ⟨31, 31, 31, 0x7FF⟩,
      .tileChk .a 0 ⟨31, 31, 31, 0x7FF⟩] : List Instr).all (fun c => !c.wf) = true := by
  decide

theorem test_wf_policy :
    ([.policyNop .a ⟨15, 15, 0xFFFF⟩, .policyLdi .a ⟨15, 15, 0xFFFF⟩, .policyLdk .a ⟨15, 15, 0xFFFF⟩, .policyLkh .a ⟨15, 15, 0xFFFF⟩,
      .policyAdd .a ⟨15, 15, 0xFFFF⟩, .policySub .a ⟨15, 15, 0xFFFF⟩, .policyMul .a ⟨15, 15, 0xFFFF⟩, .policyDiv .a ⟨15, 15, 0xFFFF⟩,
      .policyMin .a ⟨15, 15, 0xFFFF⟩, .policyMax .a ⟨15, 15, 0xFFFF⟩, .policyCmp .a ⟨15, 15, 0xFFFF⟩, .policySel .a ⟨15, 15, 0xFFFF⟩,
      .policyOut .a ⟨15, 15, 0xFFFF⟩] : List Instr).all (fun c => !c.wf) = true := by
  decide

theorem test_wf_others :
    ([.pilotStateAccepted 0 5, .pilotStateAccepted 0 7, .sessionEnd 0 0, .sessionEnd 0 15,
      .trievoDataReceived { (default : TrievoFrame) with ftype := 2 }, .trievoAckReceived { (default : TrievoFrame) with ftype := 1 },
      .trievoAssocReqReceived { (default : TrievoFrame) with ftype := 1 }, .trievoStatusReceived { (default : TrievoFrame) with ftype := 1 },
      .phaseLearning 1 [none], .keyInstall { (default : KeyMsg) with op := 2 }, .keyReplace { (default : KeyMsg) with op := 1 },
      .keyInvalidate { (default : KeyMsg) with op := 1 }, .ownerAuthorityReplace { (default : KeyMsg) with op := 1 },
      .lifeCycleChange { (default : KeyMsg) with op := 1 }, .keyGenerate { (default : KeyMsg) with op := 1 }] : List Instr).all
      (fun c => !c.wf) = true := by
  decide

/-! ## Worked examples of the spec -/

/-- Table 6.12: 0.25 is 262,144 at e = -1 (word 0xFC040000), and 40,000 is 320,000 at e = 16 (word 0x4004E200). -/
theorem test_normalise_constants :
    normalise [1] (-2) false = ({ m := [262144], e := 0x3F, inv := false }, false) ∧
      normalise [40000] 0 false = ({ m := [320000], e := 16, inv := false }, false) := by
  decide

/-- Table 5.16: d = 310 ns gives SDELAY 8,345 and ADELAY 2,345 at the default lead and delay. -/
theorem test_delays :
    sdelay { State.reset with clk.lam := 4000, clk.advance := 2500 } { (default : Link) with delays := List.replicate 64 (some 310) } = 8345 ∧
      adelay { State.reset with clk.lam := 4000, clk.advance := 2500 } { (default : Link) with delays := List.replicate 64 (some 310) } = 2345 := by
  decide +kernel

/-- Table 7.6: the set-point of an override ramp from 300,000 is 296,250 at step 1 and 150,000 at step 40. -/
theorem test_override_ramp :
    ovValue { (default : OvRamp) with s0 := 300000, n := 1 } = 296250 ∧ ovValue { (default : OvRamp) with s0 := 300000, n := 40 } = 150000 := by
  decide

/-- Table 19.6: SEV 1, group 0x0E, number 5 of Lane B for peer 0x13 has code 0x4E05 and SOURCE 0x92. -/
theorem test_event_code : eventCode 1 0x0E 5 = 0x4E05 ∧ eventSource .b 0x12 = 0x92 := by
  decide

/-- The filter rule 0x40FF0000 drops group 0x03 and matches no other (19, worked example). -/
theorem test_filter_rule : filterEvent 3 1 0 [0x40FF0000] = .drop ∧ filterEvent 4 1 0 [0x40FF0000] = .keep 0 := by
  decide

/-- Table 17.7: a DQPSK frame of LENGTH 62 takes 23.04 ms; the robust one 106.56 ms. -/
theorem test_frame_time : frameNs 62 1 false = 23040000 ∧ frameNs 62 3 false = 106560000 := by
  decide

/-- Table 16.8: at 500 kbit/s and 2 Mbit/s a reference takes 149.5 us, an 8-byte PDO 129.5 us and a 64-byte PDO 409.5 us. -/
theorem test_can_times :
    tMax State.reset 0 false true true 12 = 11960 ∧ tMax State.reset 0 false true true 8 = 10360 ∧
      tMax State.reset 0 false true true 64 = 32760 := by
  decide +kernel

/-- 18, worked example: OP 1 with a key of 48 bytes has LENGTH 176; path 0x02010000 lies under domain 2. -/
theorem test_key_layout : lengthOk 1 176 = true ∧ lengthOk 1 175 = false ∧ pathParent 0x02010000 = 0x02000000 := by
  decide

/-- A word that no row of the table spells stays undecoded, and the state is unchanged. -/
theorem test_withFetchWord : (State.reset.withFetchWord 8 0).pending = [] ∧ decodeTableWord 8 0 = none := by
  decide

/-- The block idles on an empty queue, and runs the front command of another. -/
theorem test_step_front : (match step { State.reset with pending := [.resetPin 20] } with
    | .next t => t.pending.isEmpty
    | _ => false) = true := by
  decide +kernel

/-! ## Premises of the statements -/

/-- Lane A holds one entry in queue 0, and a command waits. -/
def queued : State :=
  { State.reset with
    pending := [.periodBoundary]
    laneA := { State.reset.laneA with queues := upd State.reset.laneA.queues 0 fun (q : HwQueue) => { q with entries := [0], credit := q.credit - 1 } } }

/-- A state and operands that meet the premises of StepKeepsInvariant, of QueueCredits, of StepShortensQueue and of FusesStayBlown. -/
theorem witness_StepKeepsInvariant :
    Inv queued ∧ (∃ t, step queued = .next t) ∧ queued.pending = [.periodBoundary] ∧ (nth (queued.lane .a).queues 0).entries = [0] := by
  refine ⟨⟨⟨⟨rfl, rfl, rfl, rfl, rfl, rfl, rfl, rfl, rfl, rfl, rfl, rfl, rfl, rfl, rfl, rfl⟩,
    ⟨rfl, rfl, rfl, rfl, rfl, rfl, rfl, rfl, rfl, rfl, rfl, rfl, rfl, rfl, rfl, rfl⟩, rfl, rfl, by decide, rfl, rfl, rfl, rfl, rfl, rfl, rfl⟩,
    ⟨?_, ?_⟩, ⟨⟨rfl, fun _ h => nomatch h⟩, ⟨rfl, fun _ h => nomatch h⟩, ⟨rfl, fun _ h => nomatch h⟩, ⟨rfl, fun _ h => nomatch h⟩,
    ⟨rfl, fun _ h => nomatch h⟩⟩⟩, ⟨_, rfl⟩, rfl, rfl⟩
  · unfold LaneBalanced; decide +kernel
  · unfold LaneBalanced; decide +kernel

/-- An instruction and a state that meet the premises of the second clause of CommandsComplete. -/
theorem witness_CommandsComplete :
    .tileNop .a 0 ⟨0, 0, 0, 0⟩ ∈ tileRows .a 0 ⟨0, 0, 0, 0⟩ ∧ (runningSlot base .a 0).isNone = true := by
  refine ⟨List.mem_cons_self, ?_⟩
  decide +kernel

/-- Values, old exponents and new exponents that meet the premises of each clause of NormalisationIsSmallest: 2^18 needs exponent -12 where 0 is
the old one and e - 19 - x the shift; 2^80 fits at none. -/
theorem witness_NormalisationIsSmallest_exponents :
    ((-524288 ≤ roundShift (2 ^ 19) (1 - 19 - (-19)) ∧ roundShift (2 ^ 19) (1 - 19 - (-19)) ≤ 524287) ∧
      (∀ k : Fin 33, 524287 < roundShift (2 ^ 19) ((k.val : Int) - 32 - 19 - (-19)))) ∧
    ∀ k : Fin 64, 524287 < roundShift (2 ^ 80) ((k.val : Int) - 32 - 19 - 0) := by
  decide +kernel

/-- A state that meets the premises of the swap clauses of SetCommands but for the CRC, which is computed beside it. -/
def swapping (c : U32) : State :=
  { base with
    modes := { base.modes with mode := .run }
    sets := { base.sets with swapReq := true, st := .committed, computed := c } }

theorem swapping_shadow (c : U32) : (swapping c).sets.shadow = [] := rfl

theorem swapping_computed (c : U32) : (swapping c).sets.computed = c := rfl

/-- The shadow set's CRC differs from the computed one, at the CRC plus 1. -/
theorem witness_SetCommands_changed :
    setCrc (swapping (setCrc [] + 1)).sets.shadow ≠ (swapping (setCrc [] + 1)).sets.computed ∧ (swapping 0).sets.swapReq = true ∧
      (swapping 0).sets.st = .committed ∧ atShare (swapping 0) = true ∧ (activeLane (swapping 0)).isSome = true ∧ crossing (swapping 0) = false ∧
      resyncing (swapping 0) = false := by
  rw [swapping_shadow, swapping_computed]
  have h : ∀ x : U32, x ≠ x + 1 := fun x => by bv_omega
  exact ⟨h _, by decide +kernel⟩

/-- Where the CRC agrees every later swap check passes. -/
theorem swapping_checks (c : U32) (h : setCrc [] = c) :
    badReel (shadowView (swapping c)) = none ∧ badPolicy (shadowView (swapping c)) = none ∧ badFilter (shadowView (swapping c)) = false ∧
      badPlace (shadowView (swapping c)) (swapping c).act = none ∧ inUse (swapping c) (shadowView (swapping c)) = none ∧ swapMode (swapping c) = true := by
  subst h
  decide +kernel

/-- The swap checks pass where the CRC agrees and every other check passes. -/
theorem swapCheck_passes (s : State) (h0 : setCrc s.sets.shadow = s.sets.computed) (h1 : badReel (shadowView s) = none)
    (h2 : badPolicy (shadowView s) = none) (h3 : badFilter (shadowView s) = false) (h4 : badPlace (shadowView s) s.act = none)
    (h5 : inUse s (shadowView s) = none) (h6 : swapMode s = true) : (swapCheck s).code = 0 := by
  unfold swapCheck
  simp [h0, h1, h2, h3, h4, h5, h6]

/-- The swap checks pass at a state whose committed CRC is that of the shadow set. -/
theorem witness_SetCommands_swap (c : U32) (h : setCrc [] = c) : (swapCheck (swapping c)).code = 0 := by
  obtain ⟨h1, h2, h3, h4, h5, h6⟩ := swapping_checks c h
  exact swapCheck_passes (swapping c) (by rw [swapping_shadow, swapping_computed, h]) h1 h2 h3 h4 h5 h6

/-- A state and operands that meet the premises of each of these clauses of ActivationCommands. -/
theorem witness_ActivationCommands_1 :
    (let s : State := base
     decide (safeWritable s = true ∧ (activeLane s).isSome = true ∧ s.modes.mode ≠ Mode.run)) &&
    (let l : Lane := Lane.b
     let s : State := (fun (z : State) => { z with modes.mode := Mode.run }) <| base
     decide (safeWritable s = true ∧ (activeLane s).isSome = true ∧ s.modes.mode = Mode.run ∧ standbyLane s = some l ∧
       BitVec.toNat (s.jct.lane l).matches_ < 1000)) &&
    (let s : State := (inMode .run) <| (onJ .b fun (z : JLane) => { z with matches_ := 1000 }) <|
       (fun (z : State) => { z with upd.buf0.received := true }) <| base
     decide (safeWritable s = true ∧ (activeLane s).isSome = true ∧ rollingStatus s = 0)) &&
    (let s : State := base
     decide (safeWritable s = true ∧ (activeLane s).isSome = true ∧ sourceReady s = false)) &&
    (let s : State := (inMode .run) <| (fun (z : State) => { z with upd.buf0.received := true }) <| base
     decide (safeWritable s = true ∧ (activeLane s).isSome = true ∧ restartStatus s = 0 ∧ powerMode s = true)) &&
    (let s : State := (fun (z : State) => { z with upd.buf0.received := true }) <| base
     decide (safeWritable s = true ∧ (activeLane s).isSome = true ∧ restartStatus s = 0 ∧ s.modes.mode = Mode.idle)) &&
    (let s : State := base
     decide (safeWritable s = true ∧ (activeLane s).isSome = true ∧ seqRunning s = false)) := by
  decide +kernel

/-- A state and operands that meet the premises of each of these clauses of ActivationCommands. -/
theorem witness_ActivationCommands_2 :
    (let s : State := (fun (z : State) => { z with upd.st := .firstLane }) <| base
     decide (safeWritable s = true ∧ (activeLane s).isSome = true ∧ seqRunning s = true ∧ unconfirmed s.laneA = false ∧
       unconfirmed s.laneB = false)) &&
    (let v : U8 := 0
     let s : State := base
     decide (safeWritable s = true ∧ (activeLane s).isSome = true ∧ v ≠ 1)) &&
    (let l : Lane := Lane.a
     let s : State := (onJ l fun (z : JLane) => { z with role := Role.standby }) <| (fun (z : State) => { z with upd.seqReq := true }) <|
       (fun (z : State) => { z with upd.seqLane := some l }) <| (fun (z : State) => { z with upd.st := SeqSt.firstLane }) <| base
     decide (s.upd.st = SeqSt.firstLane ∧ s.upd.seqLane = some l ∧ s.upd.seqReq = true ∧ atShare s = true ∧ roleOf s l = Role.standby)) &&
    (let l : Lane := Lane.a
     let s : State := (fun (z : State) => { z with clk.period := 41 }) <| (fun (z : State) => { z with upd.seqReq := true }) <|
       (fun (z : State) => { z with upd.seqLane := some l }) <| (fun (z : State) => { z with upd.st := SeqSt.firstLane }) <| base
     decide (s.upd.st = SeqSt.firstLane ∧ s.upd.seqLane = some l ∧ s.upd.seqReq = true ∧ atShare s = false)) &&
    (let l : Lane := .b
     let s : State := (fun (y : State) => y.modLane .b fun (z : LaneState) => { z with slots := (let z := base.laneB.slots; { z with slot0 := { z.slot0 with activated := true, confirmed := true } }) }) <|
       (inMode .run) <| (fun (z : State) => { z with upd.seqLane := some l }) <| (fun (z : State) => { z with upd.st := SeqSt.secondLane }) <|
       base
     decide (s.upd.st = SeqSt.secondLane ∧ s.upd.seqLane = some l ∧ stepDone s l = true)) &&
    (let s : State := (fun (z : State) => { z with upd.seqReq := true }) <| (fun (z : State) => { z with upd.st := SeqSt.fullRestart }) <|
       base
     decide (s.upd.st = SeqSt.fullRestart ∧ s.upd.seqReq = true ∧ powerMode s = false ∧ s.modes.pending = none)) &&
    (let l : Lane := Lane.a
     let s : State := (fun (y : State) => y.modLane l fun (z : LaneState) => { z with slots.slot0.activated := true }) <|
       (fun (z : State) => { z with upd.hostConfirm := true }) <| base
     decide (confirmOk s l = true)) := by
  decide +kernel

/-- A state and operands that meet the premises of each of these clauses of ActivationCommands. -/
theorem witness_ActivationCommands_3 :
    (let l : Lane := Lane.a
     let s : State := base
     decide (confirmOk s l = false)) &&
    (let l : Lane := Lane.a
     let s : State := base
     decide (unconfirmed (s.lane l) = false)) &&
    (let l : Lane := Lane.a
     let s : State := (onJ l fun (z : JLane) => { z with role := Role.standby }) <|
       (fun (y : State) => y.modLane l fun (z : LaneState) => { z with slots.slot0.activated := true }) <| base
     decide (unconfirmed (s.lane l) = true ∧ roleOf s l = Role.standby ∧ activeLane s ≠ some l)) := by
  decide +kernel

/-- A state and operands that meet the premises of each of these clauses of BackupAndTamper. -/
theorem witness_BackupAndTamper_1 :
    (let s : State := base
     decide ((activeLane s = none ∨ fromPtp s = false ∨ nowNs s < s.site.compared + 10000000000))) &&
    (let s : State := (fun (z : State) => { z with clk.ns := 20000000000 }) <| (fun (z : State) => { z with site.source := 1 }) <|
       (fun (z : State) => { z with site.ns := 10000000000 }) <| base
     decide ((activeLane s).isSome = true ∧ fromPtp s = true ∧ s.site.compared + 10000000000 ≤ nowNs s ∧
       3276800 < (((timeTicks s.site.ns : Nat) : Int) - ((s.bk.rtc.toNat : Nat) : Int)).natAbs * 1000)) &&
    (let s : State := (fun (z : State) => { z with clk.ns := 20000000000 }) <| (fun (z : State) => { z with site.source := 1 }) <| base
     decide ((activeLane s).isSome = true ∧ fromPtp s = true ∧ s.site.compared + 10000000000 ≤ nowNs s ∧
       (((timeTicks s.site.ns : Nat) : Int) - ((s.bk.rtc.toNat : Nat) : Int)).natAbs * 1000 ≤ 3276800)) &&
    (let s : State := base
     decide ((s.bk.alarm = 0 ∨ s.bk.invalid = true ∨ BitVec.toNat s.bk.rtc < BitVec.toNat s.bk.alarm))) &&
    (let s : State := (fun (z : State) => { z with bk.invalid := false }) <| (fun (z : State) => { z with modes.mode := Mode.backup }) <|
       (fun (z : State) => { z with bk.alarm := 1 }) <| (fun (z : State) => { z with bk.rtc := 5 }) <| base
     decide (s.bk.alarm ≠ 0 ∧ s.bk.invalid = false ∧ BitVec.toNat s.bk.alarm ≤ BitVec.toNat s.bk.rtc ∧ s.modes.mode = Mode.backup)) &&
    (let s : State := (fun (z : State) => { z with bk.invalid := false }) <| (fun (z : State) => { z with bk.alarm := 1 }) <|
       (fun (z : State) => { z with bk.rtc := 5 }) <| base
     decide (s.bk.alarm ≠ 0 ∧ s.bk.invalid = false ∧ BitVec.toNat s.bk.alarm ≤ BitVec.toNat s.bk.rtc ∧ s.modes.mode ≠ Mode.backup)) &&
    (let s : State := base
     decide (writable s = true ∧ (activeLane s).isSome = true)) := by
  decide +kernel

/-- A state and operands that meet the premises of each of these clauses of BackupAndTamper. -/
theorem witness_BackupAndTamper_2 :
    (let s : State := (inMode .safe) <| base
     decide (writable s = false)) &&
    (let s : State := (fun (z : State) => { z with bk.wakeArmed := some default }) <|
       (fun (z : State) => { z with modes.mode := Mode.backup }) <| base
     decide (s.modes.mode = Mode.backup ∧ s.bk.wakeArmed.isSome = true)) &&
    (let i : Fin 4 := (0 : Fin 4)
     let s : State := (putCfg (9761 + (↑i : Nat)) 1 (cfgBytes base (9761 + (↑i : Nat)) 1).length (0)) <| base
     decide (cfgN s (9761 + ↑i) 1 = 0)) &&
    (let i : Fin 4 := (0 : Fin 4)
     let s : State := (putCfg 0x2621 1 1 1) <| base
     decide (s.bk.inputs.length = 4 ∧ cfgN s (9761 + ↑i) 1 ≠ 0)) &&
    (let m : U8 := 0
     let s : State := base
     decide (s.bk.inputs.length = 4 ∧ writable s = true ∧ (activeLane s).isSome = true ∧ mayClear s m = true)) &&
    (let m : U8 := 1
     let s : State := (fun (y : State) => { y with bk.inputs := upd y.bk.inputs 0 fun (z : TampIn) => { z with latched := true, acked := false } }) <|
       base
     decide (mayClear s m = false)) &&
    (let c : Fin 3 := (0 : Fin 3)
     let s : State := (fun (z : State) => { z with modes.mode := Mode.backup }) <| base
     decide (s.modes.mode = Mode.backup ∧ c ≠ 2)) := by
  decide +kernel

/-- A state and operands that meet the premises of each of these clauses of BackupAndTamper. -/
theorem witness_BackupAndTamper_3 :
    (let c : Fin 3 := (0 : Fin 3)
     let s : State := base
     decide (s.modes.mode ≠ Mode.backup ∧ c ≠ 2)) &&
    (let s : State := (fun (z : State) => { z with life.fuse := 0x0F }) <| base
     decide (s.modes.mode ≠ Mode.backup ∧ s.rails.inReset = false ∧ lifeCode s.life.fuse = 2)) := by
  decide +kernel

/-- A state and operands that meet the premises of each of these clauses of BarrierRequests. -/
theorem witness_BarrierRequests_1 :
    (let q : BarrierReq := ⟨.b, 0⟩
     let s : State := base
     decide (s.jct.mark ≠ some q.lane)) &&
    (let q : BarrierReq := ⟨.a, 0⟩
     let s : State := (fun (z : State) => { z with met.ctl.st := .halted }) <| (fun (z : State) => { z with jct.mark := some q.lane }) <|
       base
     decide (s.jct.mark = some q.lane ∧ metRuns s.met = false)) &&
    (let q : BarrierReq := ⟨.a, 0⟩
     let s : State := (fun (z : State) => { z with met.ctl.sealOpen := false }) <| (fun (z : State) => { z with jct.mark := some q.lane }) <|
       base
     decide (forwards s 7 = true ∧ s.jct.mark = some q.lane ∧ metRuns s.met = true ∧ s.met.ctl.sealOpen = false)) &&
    (let s : State := (inMode .run) <| base
     decide (forwards s 7 = false)) &&
    (let q : BarrierReq := ⟨.a, 0⟩
     let s : State := (fun (z : State) => { z with met.ctl.reported := true }) <| (fun (z : State) => { z with jct.mark := some q.lane }) <|
       base
     decide (s.jct.mark = some q.lane ∧ s.met.ctl.st = MetroSt.ready ∧ s.met.ctl.reported = true)) &&
    (let n : U64 := 0
     let b : U16 := 0
     let s : State := base
     decide (readBlock (BitVec.toNat n) (BitVec.toNat b) s.met = none)) &&
    (let n : U64 := 0
     let b : U16 := 0
     let s : State := (fun (z : State) => { z with met.ctl.copyA := some default }) <| base
     let l : List Nat := ((readBlock n.toNat b.toNat s.met).toList).getD 0 default
     decide (readBlock (BitVec.toNat n) (BitVec.toNat b) s.met = some l)) := by
  decide +kernel

/-- A state and operands that meet the premises of each of these clauses of BarrierRequests. -/
theorem witness_BarrierRequests_2 :
    (let n : U64 := 0
     let s : State := base
     decide (heldRecord (BitVec.setWidth 32 n) s.met = none)) &&
    (let n : U64 := 0
     let r : SignedRecord := (default : SignedRecord)
     let s : State := (fun (z : State) => { z with met.bill.records := [r] }) <| base
     decide (heldRecord (BitVec.setWidth 32 n) s.met = some r)) &&
    (let q : BarrierReq := ⟨.a, 0⟩
     let ct : U8 := 16
     let s : State := (fun (z : State) => { z with jct.mark := some q.lane }) <| base
     decide (s.jct.mark = some q.lane ∧ 7 < BitVec.toNat ct)) &&
    (let q : BarrierReq := ⟨.a, 0⟩
     let ct : U8 := 0
     let o : LogEntry := default
     let n : LogEntry := default
     let s : State := (fun (z : State) => { z with met.bill.param.entries := [default] }) <|
       (fun (z : State) => { z with jct.mark := some q.lane }) <| base
     decide (s.jct.mark = some q.lane ∧ BitVec.toNat ct ≤ 7 ∧ s.met.bill.param.entries.head? = some o ∧
       s.met.bill.param.entries.getLast? = some n)) &&
    (let q : BarrierReq := ⟨.a, 0⟩
     let m : TimeMsg := { (default : TimeMsg) with timeValid := true }
     let s : State := (fun (z : State) => { z with jct.mark := some q.lane }) <| base
     decide (s.jct.mark = some q.lane ∧ metRuns s.met = true ∧ m.timeValid = true ∧ s.met.ctl.legalSet = true ∧
       (((m.time.toNat * 750 : Nat) : Int) - ((s.met.ctl.legal : Nat) : Int)).natAbs ≤ secCycles)) &&
    (let q : BarrierReq := ⟨.a, 0⟩
     let m : TimeMsg := { (default : TimeMsg) with timeValid := true, time := 1000000000 }
     let s : State := (fun (z : State) => { z with met.ctl.sealOpen := false }) <| (fun (z : State) => { z with jct.mark := some q.lane }) <|
       base
     decide (s.jct.mark = some q.lane ∧ metRuns s.met = true ∧ m.timeValid = true ∧ s.met.ctl.legalSet = true ∧
       stepLimit s.met * secCycles < (((m.time.toNat * 750 : Nat) : Int) - ((s.met.ctl.legal : Nat) : Int)).natAbs ∧ 1 ≤ stepLimit s.met ∧
       s.met.ctl.sealOpen = false)) &&
    (let q : BarrierReq := ⟨.a, 0⟩
     let m : TimeMsg := { (default : TimeMsg) with timeValid := true, time := 32768 * 10 }
     let s : State := (fun (z : State) => { z with jct.mark := some q.lane }) <| base
     decide (s.jct.mark = some q.lane ∧ metRuns s.met = true ∧ m.timeValid = true ∧ s.met.ctl.legalSet = true ∧
       secCycles < (((m.time.toNat * 750 : Nat) : Int) - ((s.met.ctl.legal : Nat) : Int)).natAbs ∧
       (((m.time.toNat * 750 : Nat) : Int) - ((s.met.ctl.legal : Nat) : Int)).natAbs ≤ stepLimit s.met * secCycles)) := by
  decide +kernel

/-- A state and operands that meet the premises of each of these clauses of BarrierRequests. -/
theorem witness_BarrierRequests_3 :
    (let q : BarrierReq := ⟨.a, 0⟩
     let m : TimeMsg := { (default : TimeMsg) with timeValid := true }
     let s : State := (fun (z : State) => { z with met.ctl.legalSet := false }) <| (fun (z : State) => { z with jct.mark := some q.lane }) <|
       base
     decide (s.jct.mark = some q.lane ∧ metRuns s.met = true ∧ m.timeValid = true ∧ s.met.ctl.legalSet = false)) &&
    (let q : BarrierReq := ⟨.a, 0⟩
     let ch : Fin 32 := (0 : Fin 32)
     let a : U16 := 0
     let sid : U32 := 1
     let s : State := (fun (z : State) => { z with jct.mark := some q.lane }) <| base
     decide (s.jct.mark = some q.lane ∧ metRuns s.met = true ∧ s.met.bill.regs.sessions.length = 32 ∧ sid ≠ 0 ∧ BitVec.toNat a ≤ 255 ∧
       nth s.met.bill.regs.sessions ↑ch = none)) &&
    (let q : BarrierReq := ⟨.a, 0⟩
     let ch : Fin 32 := (0 : Fin 32)
     let a : U16 := 0
     let sid : U32 := 1
     let x : MetSession := { (default : MetSession) with id := 9 }
     let s : State := (fun (z : State) => { z with met.bill.regs.sessions := (some x :: List.replicate 31 none) }) <|
       (fun (z : State) => { z with jct.mark := some q.lane }) <| base
     decide (s.jct.mark = some q.lane ∧ metRuns s.met = true ∧ s.met.bill.regs.sessions.length = 32 ∧ sid ≠ 0 ∧ BitVec.toNat a ≤ 255 ∧
       nth s.met.bill.regs.sessions ↑ch = some x ∧ x.id ≠ sid)) &&
    (let q : BarrierReq := ⟨.a, 0⟩
     let ch : Fin 32 := (0 : Fin 32)
     let a : U16 := 0
     let sid : U32 := 1
     let x : MetSession := { (default : MetSession) with id := 1 }
     let s : State := (fun (z : State) => { z with met.bill.regs.sessions := (some x :: List.replicate 31 none) }) <|
       (fun (z : State) => { z with jct.mark := some q.lane }) <| base
     decide (s.jct.mark = some q.lane ∧ metRuns s.met = true ∧ s.met.bill.regs.sessions.length = 32 ∧ sid ≠ 0 ∧ BitVec.toNat a ≤ 255 ∧
       nth s.met.bill.regs.sessions ↑ch = some x ∧ x.id = sid)) &&
    (let q : BarrierReq := ⟨.a, 0⟩
     let g : U8 := 1
     let d : List Byte := []
     let s : State := (fun (z : State) => { z with jct.mark := some q.lane }) <| base
     decide (s.jct.mark = some q.lane ∧ metRuns s.met = true ∧ joinSegment s.met.bill.partialCal (BitVec.toNat g) d = none)) &&
    (let q : BarrierReq := ⟨.a, 0⟩
     let g : U8 := 0
     let d : List Byte := []
     let s : State := (fun (z : State) => { z with jct.mark := some q.lane }) <| base
     let p : Nat × List Byte := ((joinSegment s.met.bill.partialCal g.toNat d).toList).getD 0 default
     decide (s.jct.mark = some q.lane ∧ metRuns s.met = true ∧ joinSegment s.met.bill.partialCal (BitVec.toNat g) d = some p)) &&
    (let q : BarrierReq := ⟨.a, 0⟩
     let g : U8 := 0
     let d : List Byte := []
     let s : State := (fun (z : State) => { z with jct.mark := some q.lane }) <| base
     let k : Nat := ((joinSegment s.met.bill.partialCal g.toNat d).toList.map Prod.fst).getD 0 default
     let b : List Byte := ((joinSegment s.met.bill.partialCal g.toNat d).toList.map Prod.snd).getD 0 default
     decide (s.jct.mark = some q.lane ∧ metRuns s.met = true ∧ joinSegment s.met.bill.partialCal (BitVec.toNat g) d = some (k, b) ∧
       receiptCheck b s.met ≠ 0)) := by
  decide +kernel

/-- A state and operands that meet the premises of each of these clauses of BarrierRequests. -/
theorem witness_BarrierRequests_4 :
    (let q : BarrierReq := ⟨.a, 0⟩
     let g : U8 := 0
     let d : List Byte := plainCalendar
     let s : State := (fun (z : State) => { z with jct.mark := some q.lane }) <| base
     let k : Nat := ((joinSegment s.met.bill.partialCal g.toNat d).toList.map Prod.fst).getD 0 default
     let b : List Byte := ((joinSegment s.met.bill.partialCal g.toNat d).toList.map Prod.snd).getD 0 default
     decide (s.jct.mark = some q.lane ∧ metRuns s.met = true ∧ joinSegment s.met.bill.partialCal (BitVec.toNat g) d = some (k, b) ∧
       receiptCheck b s.met = 0)) &&
    (let q : BarrierReq := ⟨.a, 0⟩
     let ci : CalItem := CalItem.acGain 0 (-5)
     let s : State := (fun (z : State) => { z with met.ctl.sealOpen := true }) <| (fun (z : State) => { z with jct.mark := some q.lane }) <|
       base
     decide (forwards s 7 = true ∧ s.jct.mark = some q.lane ∧ metRuns s.met = true ∧ s.met.ctl.sealOpen = true ∧ logFull s.met = false ∧
       calOk ci = false)) &&
    (let q : BarrierReq := ⟨.a, 0⟩
     let ci : CalItem := CalItem.acGain 0 1000000
     let s : State := (fun (z : State) => { z with met.ctl.sealOpen := true }) <| (fun (z : State) => { z with jct.mark := some q.lane }) <|
       base
     decide (forwards s 7 = true ∧ s.jct.mark = some q.lane ∧ metRuns s.met = true ∧ s.met.ctl.sealOpen = true ∧ logFull s.met = false ∧
       calOk ci = true)) &&
    (let q : BarrierReq := ⟨.a, 0⟩
     let si : SealedItem := SealedItem.wiringMode 77
     let s : State := (fun (z : State) => { z with met.ctl.sealOpen := true }) <| (fun (z : State) => { z with jct.mark := some q.lane }) <|
       base
     decide (forwards s 7 = true ∧ s.jct.mark = some q.lane ∧ metRuns s.met = true ∧ s.met.ctl.sealOpen = true ∧ logFull s.met = false ∧
       itemOk s.met si = false)) &&
    (let q : BarrierReq := ⟨.a, 0⟩
     let si : SealedItem := SealedItem.wiringMode 2
     let s : State := (fun (z : State) => { z with met.ctl.sealOpen := true }) <| (fun (z : State) => { z with jct.mark := some q.lane }) <|
       base
     decide (forwards s 7 = true ∧ s.jct.mark = some q.lane ∧ metRuns s.met = true ∧ s.met.ctl.sealOpen = true ∧ logFull s.met = false ∧
       itemOk s.met si = true)) &&
    (let q : BarrierReq := ⟨.a, 0⟩
     let g : U16 := 1
     let d : List Byte := []
     let s : State := (fun (z : State) => { z with met.ctl.sealOpen := true }) <| (fun (z : State) => { z with jct.mark := some q.lane }) <|
       base
     decide (forwards s 7 = true ∧ s.jct.mark = some q.lane ∧ metRuns s.met = true ∧ s.met.ctl.sealOpen = true ∧ logFull s.met = false ∧
       joinSegment s.met.ctl.partialImg (BitVec.toNat g) d = none)) &&
    (let q : BarrierReq := ⟨.a, 0⟩
     let g : U16 := 0
     let d : List Byte := []
     let s : State := (fun (z : State) => { z with met.ctl.sealOpen := true }) <| (fun (z : State) => { z with jct.mark := some q.lane }) <|
       base
     let k : Nat := ((joinSegment s.met.ctl.partialImg g.toNat d).toList.map Prod.fst).getD 0 default
     let b : List Byte := ((joinSegment s.met.ctl.partialImg g.toNat d).toList.map Prod.snd).getD 0 default
     decide (forwards s 7 = true ∧ s.jct.mark = some q.lane ∧ metRuns s.met = true ∧ s.met.ctl.sealOpen = true ∧ logFull s.met = false ∧
       joinSegment s.met.ctl.partialImg (BitVec.toNat g) d = some (k, b))) := by
  decide +kernel

/-- A state and operands that meet the premises of each of these clauses of BarrierRequests. -/
theorem witness_BarrierRequests_5 :
    (let q : BarrierReq := ⟨.a, 0⟩
     let s : State := (fun (z : State) => { z with jct.mark := some q.lane }) <| base
     decide (s.jct.mark = some q.lane ∧ metRuns s.met = true)) &&
    (let q : BarrierReq := ⟨.a, 0⟩
     let s : State := (fun (z : State) => { z with jct.mark := some q.lane }) <| base
     decide (s.jct.mark = some q.lane ∧ metRuns s.met = true)) := by
  decide +kernel

/-- A state and operands that meet the premises of this clause of BayGrantsWithinBudget. -/
theorem witness_BayGrantsWithinBudget :
    (let l : Lane := Lane.a
     let s : State := base
     decide (computing s l = true ∧ atShare s = true ∧ shareMode s = true)) := by
  decide +kernel

/-- A state and operands that meet the premises of each of these clauses of BootCommands. -/
theorem witness_BootCommands_1 :
    (let s : State := (fun (z : State) => { z with modes.mode := Mode.boot }) <| base
     decide (s.modes.mode = Mode.boot ∧ s.rails.inReset = false ∧ s.rails.out.contains Rail.vjct = false)) &&
    (let s : State := base
     decide ((s.modes.mode ≠ Mode.boot ∨ s.rails.inReset = true ∨ s.rails.out.contains Rail.vjct = true))) &&
    (let l : Lane := Lane.a
     let s : State := base
     decide (mayBoot s l = false)) &&
    (let l : Lane := Lane.a
     let f : BootFacts := default
     let s : State := (fun (y : State) => y.modLane l fun (z : LaneState) => { z with ctl.bootStep := 3 }) <|
       (onJ l fun (z : JLane) => { z with role := .booting }) <| base
     decide (mayBoot s l = true ∧ f.step2Ok = false)) &&
    (let l : Lane := Lane.a
     let f : BootFacts := ⟨true, false, false, true, true, [], false, true⟩
     let s : State := (fun (y : State) => y.modLane l fun (z : LaneState) => { z with ctl.bootStep := 3 }) <|
       (onJ l fun (z : JLane) => { z with role := .booting }) <| base
     decide (mayBoot s l = true ∧ f.step2Ok = true ∧ f.image0Ok = false ∧ f.image1Ok = false)) &&
    (let l : Lane := Lane.a
     let f : BootFacts := ⟨true, true, true, true, true, [], false, true⟩
     let s : State := (onJ .a fun (z : JLane) => { z with role := .failed }) <|
       (fun (y : State) => y.modLane l fun (z : LaneState) => { z with ctl.recovery := false }) <|
       (fun (y : State) => y.modLane l fun (z : LaneState) => { z with ctl.bootStep := 3 }) <|
       (onJ l fun (z : JLane) => { z with role := .booting }) <| base
     decide (mayBoot s l = true ∧ f.step2Ok = true ∧ (s.lane l).ctl.recovery = false ∧ f.otherFail = false ∧ f.failedTiles = [] ∧
       f.nandOk = true ∧ f.image0Ok = true ∧ f.image1Ok = true ∧ ((s.lane l).slots.slot (s.lane l).slots.current).present = true ∧
       s.upd.st = SeqSt.none ∧ s.jct.lost = false ∧ activeLane s = none)) &&
    (let l : Lane := Lane.a
     let s : State := (onJ l fun (z : JLane) => { z with reported := true }) <| (fun (z : State) => { z with bk.lastActive := some l }) <|
       (fun (z : State) => { z with modes.mode := Mode.boot }) <| base
     decide (s.modes.mode = Mode.boot ∧ s.jct.ready = true ∧ s.jct.lost = false ∧ s.bk.lastActive = some l ∧ (s.jct.lane l).reported = true)) := by
  decide +kernel

/-- A state and operands that meet the premises of each of these clauses of BootCommands. -/
theorem witness_BootCommands_2 :
    (let s : State := base
     decide ((s.modes.mode ≠ Mode.boot ∨ s.jct.ready = false ∨ s.jct.lost = true))) &&
    (let l : Lane := Lane.a
     let s : State := base
     decide ((roleOf s l ≠ Role.booting ∨ 7 ≤ (s.lane l).ctl.bootStep))) &&
    (let l : Lane := Lane.a
     let s : State := (onJ l.other fun (z : JLane) => { z with reported := true }) <|
       (fun (y : State) => y.modLane l fun (z : LaneState) => { z with ctl.recovery := false }) <|
       (fun (y : State) => y.modLane l fun (z : LaneState) => { z with ctl.bootStep := 3 }) <|
       (onJ l fun (z : JLane) => { z with role := Role.booting }) <| base
     decide (roleOf s l = Role.booting ∧ (s.lane l).ctl.bootStep < 7 ∧ (s.lane l).ctl.recovery = false ∧
       (s.jct.lane l.other).reported = true)) &&
    (let l : Lane := Lane.a
     let s : State := base
     decide (2 ≤ (s.lane l).ctl.bootStep)) := by
  decide +kernel

/-- A state and operands that meet the premises of each of these clauses of CaptureCommands. -/
theorem witness_CaptureCommands :
    (let s : State := (fun (z : State) => { z with clk.cap.st := 1 }) <| base
     decide ((activeLane s).isSome = true ∧ writable s = true ∧ s.clk.cap.st = 1)) &&
    (let s : State := (fun (z : State) => { z with clk.cap.st := 1 }) <| base
     decide ((activeLane s).isSome = true ∧ writable s = true ∧ (s.clk.cap.st = 1 ∨ s.clk.cap.st = 2))) &&
    (let s : State := (fun (z : State) => { z with clk.cap.prev0 := some 0 }) <|
       (fun (z : State) => { z with clk.cap.last0 := some 0x40000000 }) <| (putRw 0x3504 5 4 0x3f800000) <| (putRw 0x3504 4 1 1) <|
       (fun (z : State) => { z with clk.cap.st := 1 }) <| base
     decide (s.clk.cap.st = 1 ∧ crossed s = true)) &&
    (let s : State := (fun (z : State) => { z with clk.cap.bufs := [List.replicate 4096 0, [], [], []] }) <|
       (fun (z : State) => { z with clk.cap.st := 2 }) <| base
     decide (s.clk.cap.st = 2 ∧ 4096 ≤ (nth s.clk.cap.bufs 0).length)) &&
    (let c : Instr := .captureArm
     let s : State := (inMode .safe) <| base
     decide ((c = Instr.captureArm ∨ c = Instr.captureForceTrigger ∨ c = Instr.captureStop) ∧ (activeLane s).isSome = true ∧
       writable s = false)) &&
    (let c : Instr := .captureArm
     let s : State := (onJ .a fun (z : JLane) => { z with role := .failed }) <| base
     decide ((c = Instr.captureArm ∨ c = Instr.captureForceTrigger ∨ c = Instr.captureStop) ∧ activeLane s = none)) := by
  decide +kernel

/-- A state and operands that meet the premises of each of these clauses of ChargingSession. -/
theorem witness_ChargingSession_1 :
    (let n : Fin 24 := (0 : Fin 24)
     let s : State := base
     decide ((bayOfVehicle s ↑n = none ∨ (sess s ↑n).st ≠ SessSt.authorizing ∨ (sess s ↑n).authWait = true))) &&
    (let n : Fin 24 := (0 : Fin 24)
     let i : Nat := 0
     let s : State := (fun (z : State) => { z with met.ctl.st := .halted }) <|
       (modSess (↑n : Nat) fun (z : Session) => { z with authWait := false }) <|
       (modSess (↑n : Nat) fun (z : Session) => { z with st := SessSt.authorizing }) <| base
     decide (s.veh.links.length = 24 ∧ bayOfVehicle s ↑n = some i ∧ (sess s ↑n).st = SessSt.authorizing ∧ (sess s ↑n).authWait = false ∧
       meterServes s = false)) &&
    (let n : Fin 24 := (0 : Fin 24)
     let i : Nat := 0
     let s : State := (fun (y : State) => y.modLane .a fun (z : LaneState) => { z with grid := (let g := base.laneA.grid; { g with ready := true, linkLost := false }) }) <|
       (modSess (↑n : Nat) fun (z : Session) => { z with isolation := 3 }) <|
       (modSess (↑n : Nat) fun (z : Session) => { z with authWait := false }) <|
       (modSess (↑n : Nat) fun (z : Session) => { z with st := SessSt.authorizing }) <| base
     decide (s.veh.links.length = 24 ∧ bayOfVehicle s ↑n = some i ∧ (sess s ↑n).st = SessSt.authorizing ∧ (sess s ↑n).authWait = false ∧
       meterServes s = true ∧ (sess s ↑n).isolation = 3)) &&
    (let n : Fin 24 := (0 : Fin 24)
     let i : Nat := 0
     let s : State := (fun (y : State) => y.modLane .a fun (z : LaneState) => { z with grid := (let g := base.laneA.grid; { g with ready := true, linkLost := false }) }) <|
       (modSess (↑n : Nat) fun (z : Session) => { z with authWait := false }) <|
       (modSess (↑n : Nat) fun (z : Session) => { z with st := SessSt.authorizing }) <| base
     decide (s.veh.links.length = 24 ∧ bayOfVehicle s ↑n = some i ∧ (sess s ↑n).st = SessSt.authorizing ∧ (sess s ↑n).authWait = false ∧
       meterServes s = true ∧ (sess s ↑n).isolation ≠ 3)) &&
    (let n : Fin 24 := (0 : Fin 24)
     let s : State := (modSess (↑n : Nat) fun (z : Session) => { z with st := SessSt.charging }) <| base
     decide (s.veh.links.length = 24 ∧ (sess s ↑n).st ≠ SessSt.parameters ∧ (sess s ↑n).st.live = true)) &&
    (let n : Fin 24 := (0 : Fin 24)
     let s : State := (modSess n fun (z : Session) => { z with isoAt := some 0 }) <|
       (modSess n fun (z : Session) => { z with isolation := 1 }) <| (modSess (↑n : Nat) fun (z : Session) => { z with cont := true }) <|
       (modSess (↑n : Nat) fun (z : Session) => { z with st := SessSt.parameters }) <| base
     decide (s.veh.links.length = 24 ∧ (sess s ↑n).st = SessSt.parameters ∧ (sess s ↑n).cont = true ∧
       Option.any (fun t => decide (s.clk.ns ≤ t + 1000000000)) (sess s ↑n).isoAt = true ∧
       ((sess s ↑n).isolation = 1 ∨ (sess s ↑n).isolation = 2))) &&
    (let n : Fin 24 := (0 : Fin 24)
     let s : State := base
     decide (s.veh.links.length = 24 ∧
       ((sess s ↑n).st ≠ SessSt.parameters ∨ (sess s ↑n).cont = false ∨ Option.any (fun t => decide (s.clk.ns ≤ t + 1000000000)) (sess s ↑n).isoAt = false ∨ (sess s ↑n).isolation ≠ 1 ∧
       (sess s ↑n).isolation ≠ 2))) := by
  decide +kernel

/-- A state and operands that meet the premises of each of these clauses of ChargingSession. -/
theorem witness_ChargingSession_2 :
    (let n : Fin 24 := (0 : Fin 24)
     let s : State := (modSess (↑n : Nat) fun (z : Session) => { z with cablePassed := true }) <|
       (modSess (↑n : Nat) fun (z : Session) => { z with st := SessSt.parameters }) <| base
     decide (s.veh.links.length = 24 ∧ (sess s ↑n).st = SessSt.parameters ∧ (sess s ↑n).cablePassed = true)) &&
    (let n : Fin 24 := (0 : Fin 24)
     let s : State := (modSess (↑n : Nat) fun (z : Session) => { z with cablePassed := false }) <|
       (modSess (↑n : Nat) fun (z : Session) => { z with st := SessSt.parameters }) <| base
     decide (s.veh.links.length = 24 ∧ (sess s ↑n).st = SessSt.parameters ∧ (sess s ↑n).cablePassed = false)) &&
    (let n : Fin 24 := (0 : Fin 24)
     let s : State := (modSess (↑n : Nat) fun (z : Session) => { z with st := SessSt.precharge }) <| base
     decide (s.veh.links.length = 24 ∧ (sess s ↑n).st = SessSt.precharge)) &&
    (let n : Fin 24 := (0 : Fin 24)
     let s : State := (modSess n fun (z : Session) => { z with st := .charging }) <| base
     decide (s.veh.links.length = 24 ∧ (sess s ↑n).st.transfer = true)) &&
    (let n : Fin 24 := (0 : Fin 24)
     let s : State := (modSess n fun (z : Session) => { z with st := .setup }) <|
       (modSess (↑n : Nat) fun (z : Session) => { z with st := SessSt.charging }) <|
       (modSess n fun (z : Session) => { z with st := .setup }) <| base
     decide (s.veh.links.length = 24 ∧ (sess s ↑n).st.transfer = false ∧ (sess s ↑n).st.live = true)) &&
    (let n : Fin 24 := (0 : Fin 24)
     let s : State := base
     decide (s.veh.links.length = 24 ∧ (sess s ↑n).st.code < 3)) &&
    (let n : Fin 24 := (0 : Fin 24)
     let s : State := (modSess (↑n : Nat) fun (z : Session) => { z with st := SessSt.charging }) <| base
     decide (s.veh.links.length = 24 ∧ 3 ≤ (sess s ↑n).st.code ∧ (sess s ↑n).st.live = true)) := by
  decide +kernel

/-- A state and operands that meet the premises of each of these clauses of ChargingSession. -/
theorem witness_ChargingSession_3 :
    (let s : State := (inMode .safe) <| base
     decide (writable s = false)) &&
    (let v : U8 := 5
     let s : State := base
     decide (writable s = true ∧ (activeLane s).isSome = true ∧ 3 < BitVec.toNat v)) &&
    (let n : Fin 24 := (0 : Fin 24)
     let v : U8 := 0
     let s : State := base
     decide (writable s = true ∧ (activeLane s).isSome = true ∧ BitVec.toNat v ≤ 3 ∧ s.veh.links.length = 24 ∧
       (v ≠ 3 ∨ (sess s ↑n).st.code < 5))) &&
    (let n : Fin 24 := (0 : Fin 24)
     let v : U8 := 3
     let s : State := (modSess (↑n : Nat) fun (z : Session) => { z with st := SessSt.charging }) <| base
     decide (writable s = true ∧ (activeLane s).isSome = true ∧ BitVec.toNat v ≤ 3 ∧ s.veh.links.length = 24 ∧ v = 3 ∧
       5 ≤ (sess s ↑n).st.code ∧ (sess s ↑n).st.live = true)) &&
    (let n : Fin 24 := (0 : Fin 24)
     let k : SessionTimer := .slac
     let s : State := (modSess n fun (z : Session) => { z with timers := ⟨true, true, true, true, true, true⟩ }) <|
       (modSess (↑n : Nat) fun (z : Session) => { z with st := SessSt.charging }) <| base
     decide (s.veh.links.length = 24 ∧ (sess s ↑n).st.live = true ∧ (sess s ↑n).timers.runs k = true)) &&
    (let n : Fin 24 := (0 : Fin 24)
     let k : SessionTimer := .slac
     let s : State := base
     decide (s.veh.links.length = 24 ∧ (sess s ↑n).timers.runs k = false)) &&
    (let n : Fin 24 := (0 : Fin 24)
     let s : State := (modSess (↑n : Nat) fun (z : Session) => { z with thermalHold := true }) <|
       (modSess (↑n : Nat) fun (z : Session) => { z with st := SessSt.charging }) <| base
     decide (s.veh.links.length = 24 ∧ (sess s ↑n).st = SessSt.charging ∧ (sess s ↑n).thermalHold = true)) := by
  decide +kernel

/-- A state and operands that meet the premises of each of these clauses of ChargingSession. -/
theorem witness_ChargingSession_4 :
    (let n : Fin 24 := (0 : Fin 24)
     let s : State := (modSess (↑n : Nat) fun (z : Session) => { z with thermalHold := false }) <| base
     decide (s.veh.links.length = 24 ∧ (sess s ↑n).thermalHold = false)) &&
    (let c : U8 := 0
     let s : State := base
     decide ((c = 0 ∨ 14 < BitVec.toNat c))) &&
    (let n : Fin 24 := (0 : Fin 24)
     let c : U8 := 1
     let s : State := (modSess (↑n : Nat) fun (z : Session) => { z with st := SessSt.charging }) <| base
     decide (c ≠ 0 ∧ BitVec.toNat c ≤ 14 ∧ s.veh.links.length = 24 ∧ (sess s ↑n).st.live = true)) &&
    (let n : Fin 24 := (0 : Fin 24)
     let c : U8 := 1
     let s : State := (modSess (↑n : Nat) fun (z : Session) => { z with st := SessSt.stopping }) <| base
     decide (c ≠ 0 ∧ BitVec.toNat c ≤ 14 ∧ s.veh.links.length = 24 ∧ (sess s ↑n).st = SessSt.stopping ∧ (sess s ↑n).stopAt = s.clk.period)) &&
    (let n : Fin 24 := (0 : Fin 24)
     let s : State := (putCfg (0x3710 + (↑n : Nat)) 1 1 3) <| (modSess (↑n : Nat) fun (z : Session) => { z with st := SessSt.charging }) <|
       base
     decide (s.veh.links.length = 24 ∧ (sess s ↑n).st.live = true ∧ vehMode s ↑n = 3)) &&
    (let n : Fin 24 := (0 : Fin 24)
     let s : State := (modSess n fun (z : Session) => { z with st := .ended }) <| (putCfg (0x3710 + (↑n : Nat)) 1 1 3) <| base
     decide (s.veh.links.length = 24 ∧ vehMode s ↑n = 3 ∧ ((sess s ↑n).st = SessSt.ended ∨ (sess s ↑n).st = SessSt.faultWait))) &&
    (let n : Fin 24 := (0 : Fin 24)
     let s : State := base
     decide ((sess s ↑n).st ≠ SessSt.ended ∧ (sess s ↑n).st ≠ SessSt.faultWait)) := by
  decide +kernel

/-- A state and operands that meet the premises of each of these clauses of ChargingSession. -/
theorem witness_ChargingSession_5 :
    (let n : Fin 24 := (0 : Fin 24)
     let s : State := (modSess n fun (z : Session) => { z with pilot := 1 }) <| (modSess n fun (z : Session) => { z with st := .ended }) <|
       base
     decide (s.veh.links.length = 24 ∧ vehMode s ↑n ≠ 3 ∧ ((sess s ↑n).st = SessSt.ended ∨ (sess s ↑n).st = SessSt.faultWait) ∧
       (sess s ↑n).pilot ≠ 0)) &&
    (let n : Fin 24 := (0 : Fin 24)
     let s : State := (modSess (↑n : Nat) fun (z : Session) => { z with pilot := 0 }) <|
       (modSess n fun (z : Session) => { z with st := .ended }) <| base
     decide (s.veh.links.length = 24 ∧ vehMode s ↑n ≠ 3 ∧ ((sess s ↑n).st = SessSt.ended ∨ (sess s ↑n).st = SessSt.faultWait) ∧
       (sess s ↑n).pilot = 0)) &&
    (let n : Fin 24 := (0 : Fin 24)
     let i : Nat := 0
     let s : State := (fun (y : State) => y.modLane .a (LaneState.modLink 0 fun (z : Link) => { z with st := .up })) <| base
     decide (bayOfVehicle s ↑n = some i ∧ headUp s s.act i = true ∧ endedOk s (↑n) i = false)) &&
    (let n : Fin 24 := (0 : Fin 24)
     let i : Nat := 0
     let s : State := (fun (y : State) => y.modLane .a (LaneState.modLoop (LoopId.bay 0) fun (z : Loop) => { z with offRun := 4 })) <|
       (fun (y : State) => y.modLane .a (modCurBank y fun b => upd b 0 fun (z : FrameSlot) => { z with status := 0, words := [0, 0, 0] })) <|
       (fun (y : State) => y.modLane .a (LaneState.modLink 0 fun (z : Link) => { z with st := .up })) <|
       (modSess n fun (z : Session) => { z with pilot := 1 }) <| (modSess (↑n : Nat) fun (z : Session) => { z with st := SessSt.stopping }) <|
       base
     decide (s.veh.links.length = 24 ∧ bayOfVehicle s ↑n = some i ∧ (sess s ↑n).st = SessSt.stopping ∧ vehMode s ↑n ≠ 3 ∧
       (sess s ↑n).pilot ≠ 0 ∧ headUp s s.act i = true ∧ endedOk s (↑n) i = true)) &&
    (let n : Fin 24 := (0 : Fin 24)
     let i : Nat := 0
     let s : State := (modSess n fun (z : Session) => { z with pilot := 1 }) <|
       (modSess (↑n : Nat) fun (z : Session) => { z with st := SessSt.stopping }) <| base
     decide (s.veh.links.length = 24 ∧ bayOfVehicle s ↑n = some i ∧ (sess s ↑n).st = SessSt.stopping ∧ vehMode s ↑n ≠ 3 ∧
       (sess s ↑n).pilot ≠ 0 ∧ headUp s s.act i = false ∧ headLessOk s (↑n) i = true)) &&
    (let n : Fin 24 := (0 : Fin 24)
     let i : Nat := 0
     let s : State := (modSess n fun (z : Session) => { z with stopAt := 1000000 }) <|
       (fun (y : State) => y.modLane .a (LaneState.modMod 0 fun (z : Module) => { z with st := .serving })) <|
       (fun (y : State) => y.modLane .a (LaneState.modMod 0 fun (z : Module) => { z with bay := 1 })) <|
       (modSess n fun (z : Session) => { z with pilot := 1 }) <| (modSess (↑n : Nat) fun (z : Session) => { z with st := SessSt.stopping }) <|
       base
     decide (s.veh.links.length = 24 ∧ bayOfVehicle s ↑n = some i ∧ (sess s ↑n).st = SessSt.stopping ∧ vehMode s ↑n ≠ 3 ∧
       (sess s ↑n).pilot ≠ 0 ∧ headUp s s.act i = false ∧ headLessOk s (↑n) i = false)) := by
  decide +kernel

/-- A state and operands that meet the premises of each of these clauses of CommunicationCommands. -/
theorem witness_CommunicationCommands :
    (let s : State := (fun (z : State) => { z with comm.nmt := .operational }) <| base
     decide ((activeLane s).isSome = true ∧ s.comm.nmt ≠ NmtSt.initialisation)) &&
    (let s : State := base
     decide ((activeLane s = none ∨ s.comm.nmt = NmtSt.initialisation))) &&
    (let s : State := base
     decide (s.comm.nmt ≠ NmtSt.operational)) &&
    (let n : Fin 16 := (0 : Fin 16)
     let d : List Byte := [0,0,0,0]
     let i : Nat := 0x3000
     let k : Nat := 0xC
     let s : State := (putRw 0x1600 1 4 (0x3000 * 2 ^ 16 + 0xC * 2 ^ 8 + 32)) <| (putRw 0x1600 0 1 1) <|
       (fun (z : State) => { z with sets.st := ShadowSt.swapPending }) <|
       (putRw (5632 + (↑n : Nat)) 1 (rwBytes base (5632 + (↑n : Nat)) 1).length (i * 2 ^ 16 + k * 2 ^ 8 + 32)) <|
       (putRw (5632 + (↑n : Nat)) 0 (rwBytes base (5632 + (↑n : Nat)) 0).length (1)) <| (putRw 0x1400 1 4 0x185) <|
       (fun (z : State) => { z with comm.nmt := .operational }) <| base
     let r : ObjRow := ((findRow 0x3000 0xC).toList).getD 0 default
     decide (pdosRun s = true ∧ (rpdoId s ↑n).isSome = true ∧ rpdoBytes s ↑n ≤ d.length ∧ rwN s (5632 + ↑n) 0 = 1 ∧
       rwN s (5632 + ↑n) 1 = i * 2 ^ 16 + k * 2 ^ 8 + 32 ∧ i ≠ 0 ∧ k < 256 ∧ findRow i k = some r ∧ r.right = Right.rwl ∧
       s.sets.st = ShadowSt.swapPending)) &&
    (let n : Fin 16 := (0 : Fin 16)
     let d : List Byte := [0,0,0,0]
     let i : Nat := 0x3000
     let k : Nat := 0x10
     let s : State := (putRw 0x1600 1 4 (0x3000 * 2 ^ 16 + 0x10 * 2 ^ 8 + 32)) <| (putRw 0x1600 0 1 1) <|
       (putRw (5632 + (↑n : Nat)) 1 (rwBytes base (5632 + (↑n : Nat)) 1).length (i * 2 ^ 16 + k * 2 ^ 8 + 32)) <|
       (putRw (5632 + (↑n : Nat)) 0 (rwBytes base (5632 + (↑n : Nat)) 0).length (1)) <| (putRw 0x1400 1 4 0x185) <|
       (fun (z : State) => { z with comm.nmt := .operational }) <| base
     let r : ObjRow := ((findRow 0x3000 0x10).toList).getD 0 default
     decide (pdosRun s = true ∧ (rpdoId s ↑n).isSome = true ∧ rpdoBytes s ↑n ≤ d.length ∧ rwN s (5632 + ↑n) 0 = 1 ∧
       rwN s (5632 + ↑n) 1 = i * 2 ^ 16 + k * 2 ^ 8 + 32 ∧ i ≠ 0 ∧ k < 256 ∧ findRow i k = some r ∧ s.sets.st ≠ ShadowSt.swapPending ∧
       writeCode s i k (slice d 0 4) = 0)) &&
    (let n : Fin 16 := (0 : Fin 16)
     let c : Fin 4 := (0 : Fin 4)
     let s : State := (putRw 0x1A00 0 1 0) <| (putRw 0x1800 1 4 0x185) <| (fun (z : State) => { z with comm.nmt := .operational }) <| base
     let f : CanFrame := ((tpdoFrame s n c).toList).getD 0 default
     decide (pdosRun s = true ∧ dictChannel ↑c = true ∧ inhibitOver s ↑n = true ∧ tpdoFrame s ↑n ↑c = some f ∧ s.comm.tpdoAt.length = 16)) := by
  decide +kernel

/-- A state and operands that meet the premises of each of these clauses of DictionaryCommands. -/
theorem witness_DictionaryCommands_1 :
    (let s : State := (onJ .a fun (z : JLane) => { z with role := .failed }) <| base
     decide (activeLane s = none)) &&
    (let i : U16 := 0
     let k : U8 := 0
     let d : List Byte := []
     let s : State := base
     decide ((activeLane s).isSome = true ∧ writeCode s (BitVec.toNat i) (BitVec.toNat k) d ≠ 0)) &&
    (let i : U16 := 0
     let s : State := base
     decide (indexPresent (BitVec.toNat i) = false)) &&
    (let i : U16 := 0x2010
     let k : U8 := 0xF0
     let s : State := base
     decide (indexPresent (BitVec.toNat i) = true ∧ findRow (BitVec.toNat i) (BitVec.toNat k) = none)) &&
    (let i : U16 := 0x2010
     let k : U8 := 0
     let s : State := base
     let r : ObjRow := ((findRow i.toNat k.toNat).toList).getD 0 default
     decide (findRow (BitVec.toNat i) (BitVec.toNat k) = some r ∧ (r.right = Right.ro ∨ r.right = Right.const))) &&
    (let i : U16 := 0x2010
     let k : U8 := 5
     let d : List Byte := leBytes 2 20
     let s : State := base
     let r : ObjRow := ((findRow i.toNat k.toNat).toList).getD 0 default
     decide ((activeLane s).isSome = true ∧ findRow (BitVec.toNat i) (BitVec.toNat k) = some r ∧ r.right = Right.rws ∧
       writeCode s (BitVec.toNat i) (BitVec.toNat k) d = 0)) &&
    (let i : U16 := 0x3000
     let k : U8 := 0xC
     let d : List Byte := [1]
     let s : State := base
     let r : ObjRow := ((findRow i.toNat k.toNat).toList).getD 0 default
     decide ((activeLane s).isSome = true ∧ findRow (BitVec.toNat i) (BitVec.toNat k) = some r ∧ r.right = Right.rwl ∧
       writeCode s (BitVec.toNat i) (BitVec.toNat k) d = 0)) := by
  decide +kernel

/-- A state and operands that meet the premises of each of these clauses of DictionaryCommands. -/
theorem witness_DictionaryCommands_2 :
    (let i : U16 := 0x1017
     let k : U8 := 0
     let d : List Byte := leBytes 2 100
     let s : State := base
     let r : ObjRow := ((findRow i.toNat k.toNat).toList).getD 0 default
     decide ((activeLane s).isSome = true ∧ findRow (BitVec.toNat i) (BitVec.toNat k) = some r ∧ (r.right = Right.rw ∨ r.right = Right.wo) ∧
       writeCode s (BitVec.toNat i) (BitVec.toNat k) d = 0 ∧ unitWrite (BitVec.toNat i) (BitVec.toNat k) (r.clean d) s = none)) &&
    (let n : Fin 4 := (0 : Fin 4)
     let s : State := base
     decide ((activeLane s).isSome = true ∧ ↑n < s.comm.sessions.length)) &&
    (let d : UdpDatagram := { (default : UdpDatagram) with source := List.replicate 16 1, port := BitVec.ofNat 16 (cfgN base 8096 2), version := 1, length := 4 }
     let s : State := base
     decide ((activeLane s).isSome = true ∧ BitVec.toNat d.port = cfgN s 8096 2 ∧ hostAddress s d.source = false)) &&
    (let d : UdpDatagram := { (default : UdpDatagram) with source := List.replicate 16 1, port := BitVec.ofNat 16 (cfgN base 8096 2), version := 1, length := 4 }
     let e : List Byte × U16 × Nat × U32 × List Byte := (List.replicate 16 1, 0, 0, 0, [])
     let s : State := (fun (z : State) => { z with comm.cache := [e] }) <| (putBytes 0x1FA0 3 d.source) <| base
     decide ((activeLane s).isSome = true ∧ BitVec.toNat d.port = cfgN s 8096 2 ∧ hostAddress s d.source = true ∧ headerOk d = true ∧
       List.find? (fun e => e.1 == d.source && e.2.1 == d.seq) (freshAnswers s) = some e)) &&
    (let d : UdpDatagram := { (default : UdpDatagram) with source := List.replicate 16 1, port := BitVec.ofNat 16 (cfgN base 8096 2), version := 1, length := 4, req := .read 0x1017 0 }
     let s : State := (putBytes 0x1FA0 3 d.source) <| base
     let a : U32 × List Byte := (((runRequest d.req s).comm.response).toList).getD 0 default
     decide ((activeLane s).isSome = true ∧ BitVec.toNat d.port = cfgN s 8096 2 ∧ hostAddress s d.source = true ∧ headerOk d = true ∧
       List.find? (fun e => e.1 == d.source && e.2.1 == d.seq) (freshAnswers s) = none ∧
       (runRequest d.req { pending := s.pending, free := s.free, clk := s.clk, modes := s.modes, rails := s.rails, bk := s.bk, jct := s.jct, laneA := s.laneA, laneB := s.laneB, met := s.met, sets := s.sets, comm := have __src := s.comm; { nmt := __src.nmt, sessions := __src.sessions, response := none, udpHeader := __src.udpHeader, cache := __src.cache, dropped := __src.dropped, errorReg := __src.errorReg, emcy := __src.emcy, heartbeats := __src.heartbeats, tpdoAt := __src.tpdoAt, rw := __src.rw }, veh := s.veh, chans := s.chans, site := s.site, tri := s.tri, life := s.life, fs := s.fs, nand := s.nand, upd := s.upd, recs := s.recs, taps := s.taps }).comm.response = some a)) := by
  decide +kernel

/-- A state and operands that meet the premises of each of these clauses of FederationCommands. -/
theorem witness_FederationCommands_1 :
    (let s : State := (fun (z : State) => { z with clk.fed.leading := true }) <| base
     decide (fedOn s = true ∧ s.clk.fed.leading = true ∧ leaderCapable s = true)) &&
    (let s : State := base
     decide (fedOn s = true ∧ s.modes.mode ≠ Mode.commission)) &&
    (let f : ReportFrame := { (default : ReportFrame) with ver := 1, node := 9 }
     let s : State := base
     decide (fedOn s = true ∧ f.ver = 1 ∧ BitVec.toNat f.node ≠ ownNode s ∧ List.find? (fun h => h.node == f.node) s.clk.fed.hubs = none ∧
       s.clk.fed.hubs.length < 7)) &&
    (let f : ReportFrame := { (default : ReportFrame) with ver := 1, node := 9 }
     let old : FedHub := { (default : FedHub) with node := 9 }
     let s : State := (fun (z : State) => { z with clk.fed.hubs := [old] }) <| base
     decide (fedOn s = true ∧ f.ver = 1 ∧ BitVec.toNat f.node ≠ ownNode s ∧
       List.find? (fun h => h.node == f.node) s.clk.fed.hubs = some old)) &&
    (let f : ReportFrame := { (default : ReportFrame) with ver := 1, node := 9 }
     let s : State := (fun (z : State) => { z with clk.fed.hubs := List.replicate 7 default }) <| base
     decide (List.find? (fun h => h.node == f.node) s.clk.fed.hubs = none ∧ 7 ≤ s.clk.fed.hubs.length)) &&
    (let f : ShareFrame := { (default : ShareFrame) with ver := 1, leader := 5, entries := [(BitVec.ofNat 8 (ownNode base), 5)] }
     let v : U32 := 5
     let s : State := base
     decide (fedOn s = true ∧ f.ver = 1 ∧ frameShare s f = some v ∧ s.clk.fed.leading = false ∧ s.clk.fed.sharedIn ≠ some (roundNow s))) &&
    (let f : ShareFrame := { (default : ShareFrame) with ver := 1, leader := 5, entries := [(BitVec.ofNat 8 (ownNode base), 5)] }
     let v : U32 := 5
     let s : State := (fun (z : State) => { z with clk.fed.leaderNode := 77 }) <|
       (fun (z : State) => { z with clk.fed.sharedIn := some (roundNow base) }) <| (fun (z : State) => { z with clk.fed.leaderNode := 9 }) <|
       base
     decide (fedOn s = true ∧ f.ver = 1 ∧ frameShare s f = some v ∧ s.clk.fed.leading = false ∧ s.clk.fed.sharedIn = some (roundNow s) ∧
       s.clk.fed.leaderNode ≠ f.leader)) := by
  decide +kernel

/-- A state and operands that meet the premises of each of these clauses of FederationCommands. -/
theorem witness_FederationCommands_2 :
    (let f : ShareFrame := { (default : ShareFrame) with ver := 1, leader := 5, entries := [(BitVec.ofNat 8 (ownNode base), 5)] }
     let s : State := base
     decide (fedOn s = true ∧ f.ver = 1 ∧ before (BitVec.toNat f.rank, BitVec.toNat f.leader) (ownRank s, ownNode s) = true)) &&
    (let s : State := base
     decide (selfLeader s = true ∧ s.clk.fed.leading = false)) &&
    (let s : State := (putCfg 0x3230 1 1 0) <| base
     decide (fedOn s = false ∧ s.clk.fed.leading = false)) := by
  decide +kernel

/-- A state and operands that meet the premises of each of these clauses of FrameWordPorts. -/
theorem witness_FrameWordPorts :
    (let l : Lane := Lane.a
     let link : Nat := 0
     let word : Nat := 0
     let v : BitVec 24 := 7
     let s : State := (fun (y : State) => y.modLane l (modCurBank y fun b => upd b link fun (z : FrameSlot) => { z with status := 0, words := [v] })) <|
       base
     let f := nth (if s.clk.period % 2 = 0 then (s.lane l).bank0 else (s.lane l).bank1) link
     decide (link < 64 ∧ word < 256 ∧ f.status = 0 ∧ f.words[word]? = some v ∧ v ≠ 8388608)) &&
    (let l : Lane := Lane.a
     let link : Nat := 0
     let word : Nat := 0
     let s : State := base
     let f := nth (if s.clk.period % 2 = 0 then (s.lane l).bank0 else (s.lane l).bank1) link
     decide (link < 64 ∧ word < 256 ∧ (f.status ≠ 0 ∨ f.words[word]? = none ∨ f.words[word]? = some 8388608))) &&
    (let l : Lane := Lane.a
     let t : Fin 10 := (0 : Fin 10)
     let k : Fin 16 := (0 : Fin 16)
     let i : LoopId := LoopId.bay 0
     let s : State := (fun (y : State) => y.modLane l fun (x : LaneState) => { x with tiles := upd x.tiles t fun (z : Tile) => { z with slots := some (.bay 0) :: List.replicate 15 none } }) <|
       (fun (y : State) => y.modLane l (LaneState.modLoop (.bay 0) fun (z : Loop) => { z with st := .run })) <| base
     let run : TileRun := ((slotRun s (s.lane l) t k).toList).getD 0 default
     decide (shapeB s = true ∧ slotRun s (s.lane l) ↑t ↑k = some run ∧ run.loop = some i)) := by
  decide +kernel

/-- A state and operands that meet the premises of this clause of IdleTick. -/
theorem witness_IdleTick :
    (let s : State := (fun (z : State) => { z with pending := [] }) <| base
     decide (s.pending = [])) := by
  decide +kernel

/-- A state and operands that meet the premises of each of these clauses of InjectionCommands. -/
theorem witness_InjectionCommands_1 :
    (let i : LoopId := LoopId.slow 0
     let s : State := (putRw 0x3506 1 2 0x400) <| (fun (z : State) => { z with clk.inj.st := 1 }) <| base
     decide (shapeB s = true ∧ s.clk.inj.st = 1 ∧ atShare s = true ∧ injLoop s = some i)) &&
    (let s : State := (fun (z : State) => { z with clk.inj.st := 1 }) <| base
     decide ((activeLane s).isSome = true ∧ writable s = true ∧ s.clk.inj.st = 1)) &&
    (let s : State := (fun (z : State) => { z with clk.inj.st := 2 }) <| base
     decide ((activeLane s).isSome = true ∧ writable s = true ∧ s.clk.inj.st = 2)) &&
    (let c : U8 := 0
     let s : State := (fun (z : State) => { z with clk.inj.stopDue := some c }) <| (fun (z : State) => { z with clk.inj.st := 2 }) <| base
     decide (s.modes.mode ≠ Mode.boot ∧ s.modes.mode ≠ Mode.backup ∧ s.clk.inj.st = 2 ∧ s.clk.inj.stopDue = some c)) &&
    (let s : State := (putRw 0x3506 7 2 0) <| (fun (z : State) => { z with clk.inj.st := 2 }) <| base
     decide (s.clk.inj.st = 2 ∧ lastPeriod s = true)) &&
    (let i : LoopId := LoopId.bay 0
     let s : State := (fun (z : State) => { z with clk.inj.loop := some i }) <| (fun (z : State) => { z with clk.inj.st := 2 }) <| base
     decide (s.clk.inj.st = 2 ∧ s.clk.inj.loop = some i ∧ (s.act.loop i).st ≠ LoopSt.run)) &&
    (let s : State := base
     decide (s.clk.inj.st ≠ 2)) := by
  decide +kernel

/-- A state and operands that meet the premises of each of these clauses of InjectionCommands. -/
theorem witness_InjectionCommands_2 :
    (let c : Instr := .injectionArm
     let s : State := (inMode .safe) <| base
     decide ((c = Instr.injectionArm ∨ c = Instr.injectionStop) ∧ (activeLane s).isSome = true ∧ writable s = false)) &&
    (let c : Instr := .injectionArm
     let s : State := (onJ .a fun (z : JLane) => { z with role := .failed }) <| base
     decide ((c = Instr.injectionArm ∨ c = Instr.injectionStop) ∧ activeLane s = none)) := by
  decide +kernel

/-- A state and operands that meet the premises of each of these clauses of JunctionVerdictAndCrossover. -/
theorem witness_JunctionVerdictAndCrossover_1 :
    (let s : State := base
     decide ((junctionRuns s = false ∨ s.clk.period = 0 ∨ s.jct.judgedAt = some (s.clk.period - 1)))) &&
    (let l : Lane := Lane.a
     let s : State := (fun (y : State) => y.modLane l fun (z : LaneState) => { z with ctl.railHeld := true }) <|
       (fun (z : State) => { z with clk.period := 40 }) <| base
     decide (junctionRuns s = true ∧ 0 < s.clk.period ∧ s.jct.judgedAt ≠ some (s.clk.period - 1) ∧ judged s l = true ∧
       (s.lane l).ctl.railHeld = true)) &&
    (let l : Lane := Lane.a
     let s : State := (onJ l fun (z : JLane) => { z with prevAbsent := true }) <|
       (fun (y : State) => y.modLane l fun (z : LaneState) => { z with ctl.railHeld := false }) <|
       (fun (z : State) => { z with clk.period := 40 }) <| base
     decide (junctionRuns s = true ∧ 0 < s.clk.period ∧ s.jct.judgedAt ≠ some (s.clk.period - 1) ∧ judged s l = true ∧
       (s.lane l).ctl.railHeld = false ∧ entryOf (s.jct.lane l) (s.clk.period - 1) = none ∧ (s.jct.lane l).prevAbsent = true)) &&
    (let a : Nat := 25000000
     let b : Nat := 25000000
     let l : Lane := Lane.a
     let e : DigestEntry := ⟨0, 0, 0, 39⟩
     let s : State := (onJ l fun (z : JLane) => { z with entry := some e }) <| (fun (z : State) => { z with clk.period := 40 }) <|
       (fun (y : State) => y.modLane l fun (z : LaneState) => { z with ctl.railHeld := false }) <|
       (fun (z : State) => { z with clk.period := 40 }) <| base
     decide (junctionRuns s = true ∧ 0 < s.clk.period ∧ s.jct.judgedAt ≠ some (s.clk.period - 1) ∧ judged s l = true ∧
       (s.lane l).ctl.railHeld = false ∧ entryOf (s.jct.lane l) (s.clk.period - 1) = some e ∧ deviates s a = false ∧ deviates s b = false)) &&
    (let a : Nat := 25000000
     let b : Nat := 25000000
     let l : Lane := Lane.a
     let p : DigestEntry := ⟨0, 0, 0, 39⟩
     let q : DigestEntry := ⟨0, 0, 0, 39⟩
     let s : State := (onJ l.other fun (z : JLane) => { z with entry := some q }) <| (onJ l fun (z : JLane) => { z with entry := some p }) <|
       (fun (z : State) => { z with clk.period := 40 }) <| (onJ l.other fun (z : JLane) => { z with role := Role.standby }) <|
       (onJ l fun (z : JLane) => { z with role := Role.active }) <| (fun (z : State) => { z with clk.period := 40 }) <| base
     decide (junctionRuns s = true ∧ 0 < s.clk.period ∧ s.jct.judgedAt ≠ some (s.clk.period - 1) ∧ roleOf s l = Role.active ∧
       roleOf s l.other = Role.standby ∧ s.laneA.ctl.railHeld = false ∧ s.laneB.ctl.railHeld = false ∧
       entryOf (s.jct.lane l) (s.clk.period - 1) = some p ∧ entryOf (s.jct.lane l.other) (s.clk.period - 1) = some q ∧ p.digest = q.digest ∧
       deviates s a = false ∧ deviates s b = false ∧ p.health &&& 1304 = 0 ∧ q.health &&& 1304 = 0)) &&
    (let s : State := base
     decide (s.jct.decision = none)) &&
    (let d : Decision := ⟨50,0,0⟩
     let s : State := (fun (z : State) => { z with jct.decision := some d }) <| base
     decide (s.jct.decision = some d ∧ s.clk.period < d.at_)) := by
  decide +kernel

/-- A state and operands that meet the premises of each of these clauses of JunctionVerdictAndCrossover. -/
theorem witness_JunctionVerdictAndCrossover_2 :
    (let d : Decision := ⟨0,0,1⟩
     let l : Lane := Lane.a
     let s : State := (fun (z : State) => { z with jct.decision := some d }) <| base
     decide (s.jct.decision = some d ∧ junctionRuns s = true ∧ d.at_ ≤ s.clk.period ∧ activeLane s = some l ∧ d.code l = 0 ∧
       d.code l.other = 1)) &&
    (let d : Decision := ⟨0,0,5⟩
     let l : Lane := Lane.a
     let s : State := (fun (z : State) => { z with jct.decision := some d }) <| base
     decide (s.jct.decision = some d ∧ junctionRuns s = true ∧ d.at_ ≤ s.clk.period ∧ activeLane s = some l ∧ d.code l = 0 ∧
       d.code l.other = 5 ∧ unconfirmed (s.lane l.other) = false)) &&
    (let d : Decision := ⟨0,1,0⟩
     let l : Lane := Lane.a
     let s : State := (onJ l.other fun (z : JLane) => { z with role := Role.standby }) <|
       (fun (z : State) => { z with jct.decision := some d }) <| base
     decide (s.jct.decision = some d ∧ junctionRuns s = true ∧ d.at_ ≤ s.clk.period ∧ activeLane s = some l ∧ d.code l = 1 ∧
       d.code l.other = 0 ∧ roleOf s l.other = Role.standby)) &&
    (let d : Decision := ⟨0,1,0⟩
     let l : Lane := Lane.a
     let s : State := (onJ l.other fun (z : JLane) => { z with role := .failed }) <| (fun (z : State) => { z with jct.decision := some d }) <|
       base
     decide (s.jct.decision = some d ∧ junctionRuns s = true ∧ d.at_ ≤ s.clk.period ∧ activeLane s = some l ∧ d.code l = 1 ∧
       d.code l.other = 0 ∧ roleOf s l.other ≠ Role.standby ∧ s.modes.mode ≠ Mode.safe)) &&
    (let s : State := base
     decide (s.jct.cross = none)) &&
    (let c : Crossover := default
     let s : State := (fun (z : State) => { z with jct.cross := some c }) <| base
     decide (s.jct.cross = some c ∧ junctionRuns s = true ∧ c.planned = false ∧ c.at_ ≤ s.clk.period)) := by
  decide +kernel

/-- A state and operands that meet the premises of each of these clauses of KeyUpdateMessages. -/
theorem witness_KeyUpdateMessages_1 :
    (let s : State := (onJ .a fun (z : JLane) => { z with role := .failed }) <| base
     decide (activeLane s = none)) &&
    (let l : Lane := Lane.a
     let s : State := base
     decide (activeLane s = some l ∧ s.modes.mode ≠ Mode.service)) &&
    (let m : KeyMsg := (msgs).getD 0 default
     let l : Lane := Lane.a
     let s : State := (fun (z : State) => { z with modes.mode := Mode.service }) <| base
     decide (activeLane s = some l ∧ s.modes.mode = Mode.service ∧ messageStatus s (s.lane l).ks m ≠ 0)) &&
    (let m : KeyMsg := (msgs).getD 0 default
     let s : State := base
     decide (m.length = 0)) &&
    (let m : KeyMsg := (msgs).getD 1 default
     let s : State := base
     decide (m.length ≠ 0 ∧ formatOk m = false)) &&
    (let m : KeyMsg := updateMsg 3 8 (1 :: List.replicate 7 0) 0x01020000 0 0
     let s : State := (fun (z : State) => { z with life.identity := List.replicate 16 (1 : Byte) }) <| base
     decide (m.length ≠ 0 ∧ formatOk m = true ∧ m.deviceId ≠ s.life.identity)) &&
    (let k : Keystore := (default : Keystore)
     let m : KeyMsg := updateMsg 3 8 (1 :: List.replicate 7 0) 0x01020000 0 0
     let s : State := (fun (z : State) => { z with life.identity := List.replicate 16 (0 : Byte) }) <| base
     decide (m.length ≠ 0 ∧ formatOk m = true ∧ m.deviceId = s.life.identity ∧ signatureOk k m = false)) := by
  decide +kernel

/-- A state and operands that meet the premises of each of these clauses of KeyUpdateMessages. -/
theorem witness_KeyUpdateMessages_2 :
    (let k : Keystore := (default : Keystore)
     let m : KeyMsg := { updateMsg 3 8 (1 :: List.replicate 7 0) 0x01020000 0 0 with counter := 0 }
     let s : State := (fun (z : State) => { z with life.identity := List.replicate 16 (0 : Byte) }) <| base
     decide (m.length ≠ 0 ∧ formatOk m = true ∧ m.deviceId = s.life.identity ∧ BitVec.toNat m.counter ≤ BitVec.toNat k.counter)) &&
    (let k : Keystore := (default : Keystore)
     let m : KeyMsg := updateMsg 5 8 (2 :: List.replicate 7 0) 0 0 0
     let s : State := (fun (z : State) => { z with life.identity := List.replicate 16 (0 : Byte) }) <| base
     decide (m.length ≠ 0 ∧ formatOk m = true ∧ m.deviceId = s.life.identity ∧ BitVec.toNat k.counter < BitVec.toNat m.counter ∧
       lifeServes (lifeCode s.life.fuse) m = false)) &&
    (let m : KeyMsg := updateMsg 1 144 (List.replicate 144 0) 0x01020000 1 1
     let l : Lane := Lane.a
     let s : State := (inMode .service) <| (fun (z : State) => { z with life.fuse := 3 }) <|
       (fun (z : State) => { z with life.identity := List.replicate 16 (0 : Byte) }) <|
       (fun (z : State) => { z with modes.mode := Mode.service }) <| base
     let k := (s.lane l).ks
     decide (activeLane s = some l ∧ s.modes.mode = Mode.service ∧ formatOk m = true ∧ m.deviceId = s.life.identity ∧
       (s.lane l).ks.counter.toNat < m.counter.toNat ∧ lifeServes (lifeCode s.life.fuse) m = true ∧ (m.op = 1 ∨ m.op = 2))) &&
    (let m : KeyMsg := updateMsg 1 144 (List.replicate 144 0) 0x01020000 1 1
     let l : Lane := Lane.a
     let s : State := (inMode .service) <| (fun (z : State) => { z with life.fuse := 3 }) <|
       (fun (z : State) => { z with life.identity := List.replicate 16 (0 : Byte) }) <|
       (fun (z : State) => { z with modes.mode := Mode.service }) <| base
     let k := (s.lane l).ks
     decide (activeLane s = some l ∧ s.modes.mode = Mode.service ∧ formatOk m = true ∧ m.deviceId = s.life.identity ∧
       (s.lane l).ks.counter.toNat < m.counter.toNat ∧ lifeServes (lifeCode s.life.fuse) m = true ∧ (m.op = 1 ∨ m.op = 2))) &&
    (let m : KeyMsg := updateMsg 3 8 (1 :: List.replicate 7 0) 0x01020000 0 0
     let l : Lane := Lane.a
     let s : State := (inMode .service) <| (fun (z : State) => { z with life.fuse := 3 }) <|
       (fun (z : State) => { z with life.identity := List.replicate 16 (0 : Byte) }) <|
       (fun (z : State) => { z with modes.mode := Mode.service }) <| base
     decide (activeLane s = some l ∧ s.modes.mode = Mode.service ∧ formatOk m = true ∧ m.deviceId = s.life.identity ∧
       (s.lane l).ks.counter.toNat < m.counter.toNat ∧ lifeServes (lifeCode s.life.fuse) m = true ∧ m.op = 3)) &&
    (let m : KeyMsg := updateMsg 4 100 (List.replicate 100 0) 0 0 0
     let l : Lane := Lane.a
     let s : State := (inMode .service) <| (fun (z : State) => { z with life.fuse := 3 }) <|
       (fun (z : State) => { z with life.identity := List.replicate 16 (0 : Byte) }) <|
       (fun (z : State) => { z with modes.mode := Mode.service }) <| base
     decide (activeLane s = some l ∧ s.modes.mode = Mode.service ∧ formatOk m = true ∧ m.deviceId = s.life.identity ∧
       (s.lane l).ks.counter.toNat < m.counter.toNat ∧ lifeServes (lifeCode s.life.fuse) m = true ∧ m.op = 4)) &&
    (let m : KeyMsg := updateMsg 6 8 (List.replicate 8 0) 0x01020000 1 1
     let l : Lane := Lane.a
     let s : State := (inMode .service) <| (fun (z : State) => { z with life.fuse := 3 }) <|
       (fun (z : State) => { z with life.identity := List.replicate 16 (0 : Byte) }) <|
       (fun (z : State) => { z with modes.mode := Mode.service }) <| base
     let k := (s.lane l).ks
     decide (activeLane s = some l ∧ s.modes.mode = Mode.service ∧ formatOk m = true ∧ m.deviceId = s.life.identity ∧
       (s.lane l).ks.counter.toNat < m.counter.toNat ∧ lifeServes (lifeCode s.life.fuse) m = true ∧ m.op = 6)) := by
  decide +kernel

/-- A state and operands that meet the premises of each of these clauses of KeyUpdateMessages. -/
theorem witness_KeyUpdateMessages_3 :
    (let m : KeyMsg := updateMsg 6 8 (List.replicate 8 0) 0x01020000 1 1
     let l : Lane := Lane.a
     let s : State := (inMode .service) <| (fun (z : State) => { z with life.fuse := 3 }) <|
       (fun (z : State) => { z with life.identity := List.replicate 16 (0 : Byte) }) <|
       (fun (z : State) => { z with modes.mode := Mode.service }) <| base
     let k := (s.lane l).ks
     decide (activeLane s = some l ∧ s.modes.mode = Mode.service ∧ formatOk m = true ∧ m.deviceId = s.life.identity ∧
       (s.lane l).ks.counter.toNat < m.counter.toNat ∧ lifeServes (lifeCode s.life.fuse) m = true ∧ m.op = 6)) &&
    (let m : KeyMsg := updateMsg 5 8 (2 :: List.replicate 7 0) 0 0 0
     let l : Lane := Lane.a
     let s : State := (inMode .service) <| (fun (z : State) => { z with life.fuse := 3 }) <|
       (fun (z : State) => { z with life.identity := List.replicate 16 (0 : Byte) }) <|
       (fun (z : State) => { z with modes.mode := Mode.service }) <| base
     decide (activeLane s = some l ∧ s.modes.mode = Mode.service ∧ formatOk m = true ∧ m.deviceId = s.life.identity ∧
       (s.lane l).ks.counter.toNat < m.counter.toNat ∧ lifeServes (lifeCode s.life.fuse) m = true ∧ m.op = 5)) &&
    (let s : State := (onJ .a fun (z : JLane) => { z with role := .failed }) <| base
     decide ((activeLane s = none ∨ standbyLane s = none))) &&
    (let l : Lane := Lane.a
     let s : State := base
     decide (activeLane s = some l ∧ standbyLane s = some l.other)) := by
  decide +kernel

/-- A state and operands that meet the premises of each of these clauses of KeystoreRequests. -/
theorem witness_KeystoreRequests_1 :
    (let s : State := (inMode .safe) <| base
     decide (writable s = false)) &&
    (let l : Lane := Lane.a
     let s : State := base
     let k := (s.lane l).ks
     let p := BitVec.ofNat 32 (rwN s 9218 1)
     decide (activeLane s = some l ∧ writable s = true ∧ commandStatus s k p ≠ 0)) &&
    (let l : Lane := Lane.a
     let i : Nat := 0
     let v : KeySlot := (keys).getD 0 default
     let j : Nat := 0
     let a : KeySlot := (keys).getD 0 default
     let s : State := (fun (y : State) => y.modLane l fun (z : LaneState) => { z with ks.slots := [(i, v)] }) <|
       (putRw 0x2402 1 4 0x01020000) <| (fun (z : State) => { z with life.fuse := 0x0F }) <| base
     let k := (s.lane l).ks
     let p := BitVec.ofNat 32 (rwN s 9218 1)
     decide (activeLane s = some l ∧ writable s = true ∧ commandStatus s k p = 0 ∧ k.find p = some (i, v) ∧ k.find 16908288 = some (j, a) ∧
       a.orphaned = false)) &&
    (let l : Lane := Lane.a
     let i : Nat := 0
     let v : KeySlot := (keys).getD 1 default
     let s : State := (fun (y : State) => y.modLane l fun (z : LaneState) => { z with ks.slots := [(i, v)] }) <|
       (putRw 0x2402 1 4 0x01020000) <| (fun (z : State) => { z with life.fuse := 0x0F }) <| base
     let k := (s.lane l).ks
     let p := BitVec.ofNat 32 (rwN s 9218 1)
     decide (activeLane s = some l ∧ writable s = true ∧ commandStatus s k p = 0 ∧ k.find p = some (i, v) ∧
       (BitVec.getLsbD v.usage 0 = false ∨ v.pubOnly = true))) &&
    (let l : Lane := Lane.a
     let i : Nat := 0
     let v : KeySlot := (keys).getD 0 default
     let s : State := (fun (y : State) => y.modLane l fun (z : LaneState) => { z with ks.slots := [(i, v)] }) <|
       (putRw 0x2402 1 4 0x01020000) <| (fun (z : State) => { z with life.fuse := 0x0F }) <| base
     let k := (s.lane l).ks
     let p := BitVec.ofNat 32 (rwN s 9218 1)
     decide (activeLane s = some l ∧ writable s = true ∧ commandStatus s k p = 0 ∧ k.find p = some (i, v) ∧ BitVec.getLsbD v.usage 0 = true ∧
       v.pubOnly = false ∧ (lifeCode s.life.fuse ≠ 3 ∨ pathDomain p = 1))) &&
    (let r : KeyReq := (reqs).getD 0 default
     let s : State := (inMode .backup) <| base
     decide ((s.modes.mode = Mode.backup ∨ inService s r.lane = false))) &&
    (let r : KeyReq := (reqs).getD 0 default
     let b : Nat := 0
     let fam : U8 → Bool := isSignAlg
     let s : State := base
     decide (s.modes.mode ≠ Mode.backup ∧ inService s r.lane = true ∧ requestStatus s (s.lane r.lane).ks r b fam ≠ 0)) := by
  decide +kernel

/-- A state and operands that meet the premises of each of these clauses of KeystoreRequests. -/
theorem witness_KeystoreRequests_2 :
    (let r : KeyReq := (reqs).getD 0 default
     let i : Nat := 0
     let v : KeySlot := (keys).getD 0 default
     let s : State := (fun (z : State) => { z with life.fuse := 0x0F }) <|
       (fun (y : State) => y.modLane r.lane fun (z : LaneState) => { z with ks.slots := [(i, v)] }) <| base
     decide (s.modes.mode ≠ Mode.backup ∧ inService s r.lane = true ∧ (s.lane r.lane).ks.find r.path = some (i, v) ∧
       requestStatus s (s.lane r.lane).ks r 0 isSignAlg = 0 ∧ v.pubOnly = false)) &&
    (let r : KeyReq := (reqs).getD 0 default
     let i : Nat := 0
     let v : KeySlot := (keys).getD 1 default
     let s : State := (fun (z : State) => { z with life.fuse := 0x0F }) <|
       (fun (y : State) => y.modLane r.lane fun (z : LaneState) => { z with ks.slots := [(i, v)] }) <| base
     decide (s.modes.mode ≠ Mode.backup ∧ inService s r.lane = true ∧ (s.lane r.lane).ks.find r.path = some (i, v) ∧
       requestStatus s (s.lane r.lane).ks r 0 isSignAlg = 0 ∧ v.pubOnly = true)) &&
    (let r : KeyReq := (reqs).getD 0 default
     let i : Nat := 0
     let v : KeySlot := (keys).getD 0 default
     let s : State := (fun (z : State) => { z with life.fuse := 0x0F }) <|
       (fun (y : State) => y.modLane r.lane fun (z : LaneState) => { z with ks.slots := [(i, v)] }) <| base
     decide (s.modes.mode ≠ Mode.backup ∧ inService s r.lane = true ∧ (s.lane r.lane).ks.find r.path = some (i, v) ∧
       requestStatus s (s.lane r.lane).ks r 0 isSignAlg = 0)) &&
    (let r : KeyReq := (reqs).getD 0 default
     let i : Nat := 0
     let v : KeySlot := (keys).getD 0 default
     let s : State := (fun (z : State) => { z with life.fuse := 0x0F }) <|
       (fun (y : State) => y.modLane r.lane fun (z : LaneState) => { z with ks.slots := [(i, v)] }) <| base
     decide (s.modes.mode ≠ Mode.backup ∧ inService s r.lane = true ∧ (s.lane r.lane).ks.find r.path = some (i, v) ∧
       requestStatus s (s.lane r.lane).ks r 0 isSignAlg = 0)) &&
    (let r : KeyReq := (reqs).getD 0 default
     let i : Nat := 0
     let v : KeySlot := (keys).getD 2 default
     let s : State := (fun (z : State) => { z with life.fuse := 0x0F }) <|
       (fun (y : State) => y.modLane r.lane fun (z : LaneState) => { z with ks.slots := [(i, v)] }) <| base
     decide (s.modes.mode ≠ Mode.backup ∧ inService s r.lane = true ∧ (s.lane r.lane).ks.find r.path = some (i, v) ∧
       requestStatus s (s.lane r.lane).ks r 1 isAgreeAlg = 0)) &&
    (let r : KeyReq := (reqs).getD 0 default
     let i : Nat := 0
     let v : KeySlot := (keys).getD 2 default
     let s : State := (fun (z : State) => { z with life.fuse := 0x0F }) <|
       (fun (y : State) => y.modLane r.lane fun (z : LaneState) => { z with ks.slots := [(i, v)] }) <| base
     decide (s.modes.mode ≠ Mode.backup ∧ inService s r.lane = true ∧ (s.lane r.lane).ks.find r.path = some (i, v) ∧
       requestStatus s (s.lane r.lane).ks r 1 isAgreeAlg = 0)) &&
    (let r : KeyReq := (reqs).getD 0 default
     let i : Nat := 0
     let v : KeySlot := (keys).getD 4 default
     let s : State := (fun (z : State) => { z with life.fuse := 0x0F }) <|
       (fun (y : State) => y.modLane r.lane fun (z : LaneState) => { z with ks.slots := [(i, v)] }) <| base
     decide (s.modes.mode ≠ Mode.backup ∧ inService s r.lane = true ∧ (s.lane r.lane).ks.find r.path = some (i, v) ∧
       requestStatus s (s.lane r.lane).ks r 2 isAesAlg = 0)) := by
  decide +kernel

/-- A state and operands that meet the premises of each of these clauses of KeystoreRequests. -/
theorem witness_KeystoreRequests_3 :
    (let r : KeyReq := (reqs).getD 0 default
     let i : Nat := 0
     let v : KeySlot := (keys).getD 4 default
     let s : State := (fun (z : State) => { z with life.fuse := 0x0F }) <|
       (fun (y : State) => y.modLane r.lane fun (z : LaneState) => { z with ks.slots := [(i, v)] }) <| base
     decide (s.modes.mode ≠ Mode.backup ∧ inService s r.lane = true ∧ (s.lane r.lane).ks.find r.path = some (i, v) ∧
       requestStatus s (s.lane r.lane).ks r 2 isAesAlg = 0)) &&
    (let r : KeyReq := (reqs).getD 0 default
     let i : Nat := 0
     let v : KeySlot := (keys).getD 4 default
     let s : State := (fun (z : State) => { z with life.fuse := 0x0F }) <|
       (fun (y : State) => y.modLane r.lane fun (z : LaneState) => { z with ks.slots := [(i, v)] }) <| base
     decide (s.modes.mode ≠ Mode.backup ∧ inService s r.lane = true ∧ (s.lane r.lane).ks.find r.path = some (i, v) ∧
       requestStatus s (s.lane r.lane).ks r 4 isAesAlg = 0)) &&
    (let r : KeyReq := (reqs).getD 0 default
     let i : Nat := 0
     let v : KeySlot := (keys).getD 6 default
     let c : U32 := 0
     let s : State := (fun (z : State) => { z with life.fuse := 0x0F }) <|
       (fun (y : State) => y.modLane r.lane fun (z : LaneState) => { z with ks.slots := [(i, v)] }) <| base
     decide (s.modes.mode ≠ Mode.backup ∧ inService s r.lane = true ∧ (s.lane r.lane).ks.find r.path = some (i, v) ∧
       requestStatus s (s.lane r.lane).ks r 3 isKdfAlg = 0 ∧ childStatus s (s.lane r.lane).ks r c ≠ 0)) &&
    (let r : KeyReq := { (default : KeyReq) with path := 0x02010000, data := [1] }
     let i : Nat := 0
     let v : KeySlot := { (default : KeySlot) with path := 0x02010000, alg := 0x31, usage := 0xFF, good := true }
     let c : U32 := 0x02010001
     let s : State := (fun (z : State) => { z with life.fuse := 0x0F }) <|
       (fun (y : State) => y.modLane r.lane fun (z : LaneState) => { z with ks.slots := [(i, v)] }) <| base
     decide (s.modes.mode ≠ Mode.backup ∧ inService s r.lane = true ∧ (s.lane r.lane).ks.find r.path = some (i, v) ∧
       requestStatus s (s.lane r.lane).ks r 3 isKdfAlg = 0 ∧ childStatus s (s.lane r.lane).ks r c = 0)) &&
    (let r : KeyReq := (reqs).getD 1 default
     let s : State := base
     decide (s.modes.mode ≠ Mode.backup ∧ inService s r.lane = true ∧ r.data = [])) &&
    (let r : KeyReq := (reqs).getD 0 default
     let s : State := base
     decide (s.modes.mode ≠ Mode.backup ∧ inService s r.lane = true ∧ r.data ≠ [] ∧
       (lifeCode s.life.fuse = 0 ∨ lifeCode s.life.fuse = 3 ∨ lifeCode s.life.fuse = 4))) &&
    (let r : KeyReq := (reqs).getD 0 default
     let s : State := (fun (z : State) => { z with life.fuse := 0x0F }) <| base
     decide (s.modes.mode ≠ Mode.backup ∧ inService s r.lane = true ∧ r.data ≠ [] ∧ (lifeCode s.life.fuse = 1 ∨ lifeCode s.life.fuse = 2))) := by
  decide +kernel

/-- A state and operands that meet the premises of each of these clauses of LinkStates. -/
theorem witness_LinkStates_1 :
    (let l : Lane := Lane.a
     let n : Fin 64 := (0 : Fin 64)
     let s : State := (fun (y : State) => y.modLane l (LaneState.modLink (↑n : Nat) fun (z : Link) => { z with st := LinkSt.down })) <| base
     decide (shapeB s = true ∧ linkType s ↑n ≠ 0 ∧ ((s.lane l).link ↑n).st = LinkSt.down)) &&
    (let l : Lane := Lane.a
     let n : Fin 64 := (0 : Fin 64)
     let s : State := (fun (y : State) => y.modLane l (LaneState.modLink n fun (z : Link) => { z with st := .up })) <| base
     decide (shapeB s = true ∧ ((s.lane l).link ↑n).st ≠ LinkSt.down)) &&
    (let l : Lane := Lane.a
     let n : Fin 64 := (0 : Fin 64)
     let s : State := (fun (y : State) => y.modLane l (LaneState.modLink n fun (z : Link) => { z with st := .sync })) <| base
     decide ((((s.lane l).link ↑n).st = LinkSt.sync ∨ ((s.lane l).link ↑n).st = LinkSt.acquire ∨ ((s.lane l).link ↑n).st = LinkSt.failed ∧
       ((s.lane l).link ↑n).latched = false))) &&
    (let l : Lane := Lane.a
     let n : Fin 64 := (0 : Fin 64)
     let s : State := (fun (y : State) => y.modLane l (LaneState.modLink (↑n : Nat) fun (z : Link) => { z with latched := true })) <|
       (fun (y : State) => y.modLane l (LaneState.modLink (↑n : Nat) fun (z : Link) => { z with st := LinkSt.failed })) <| base
     decide (((s.lane l).link ↑n).st = LinkSt.failed ∧ ((s.lane l).link ↑n).latched = true)) &&
    (let l : Lane := Lane.a
     let n : Fin 64 := (0 : Fin 64)
     let f : RxFrame := (default : RxFrame)
     let s : State := (fun (y : State) => y.modLane l (LaneState.modLink (↑n : Nat) fun (z : Link) => { z with acqDone := true })) <|
       (fun (y : State) => y.modLane l (LaneState.modLink (↑n : Nat) fun (z : Link) => { z with st := LinkSt.acquire })) <|
       (fun (y : State) => y.modLane l (LaneState.modLink (↑n : Nat) fun (z : Link) => { z with hold := some f })) <| base
     decide (((s.lane l).link ↑n).hold = some f ∧ ((s.lane l).link ↑n).st = LinkSt.acquire ∧ ((s.lane l).link ↑n).acqDone = true)) &&
    (let l : Lane := Lane.a
     let n : Fin 64 := (0 : Fin 64)
     let c : LinkCause := .noFrame
     let s : State := (fun (y : State) => y.modLane l (LaneState.modLink n fun (z : Link) => { z with badRun := 4 })) <|
       (fun (y : State) => y.modLane l (LaneState.modLink (↑n : Nat) fun (z : Link) => { z with st := LinkSt.up })) <| base
     decide (((s.lane l).link ↑n).st = LinkSt.up ∧ causeHolds s (s.lane l) (↑n) c = true)) &&
    (let l : Lane := Lane.a
     let n : Fin 64 := (0 : Fin 64)
     let s : State := (fun (y : State) => y.modLane l (LaneState.modLink n fun (z : Link) => { z with failedFor := 4000 })) <|
       (fun (y : State) => y.modLane l (LaneState.modLink (↑n : Nat) fun (z : Link) => { z with synced := true })) <|
       (fun (y : State) => y.modLane l (LaneState.modLink (↑n : Nat) fun (z : Link) => { z with latched := false })) <|
       (fun (y : State) => y.modLane l (LaneState.modLink (↑n : Nat) fun (z : Link) => { z with st := LinkSt.failed })) <| base
     decide (((s.lane l).link ↑n).st = LinkSt.failed ∧ ((s.lane l).link ↑n).latched = false ∧ ((s.lane l).link ↑n).synced = true ∧
       4000 ≤ ((s.lane l).link ↑n).failedFor)) := by
  decide +kernel

/-- A state and operands that meet the premises of this clause of LinkStates. -/
theorem witness_LinkStates_2 :
    (let l : Lane := Lane.a
     let n : Fin 64 := (0 : Fin 64)
     let s : State := (fun (y : State) => y.modLane l (LaneState.modLink n fun (z : Link) => { z with seqRun := 40 })) <|
       (fun (y : State) => y.modLane l (LaneState.modLink (↑n : Nat) fun (z : Link) => { z with st := LinkSt.up })) <| base
     decide (((s.lane l).link ↑n).st = LinkSt.up ∧ 40 ≤ ((s.lane l).link ↑n).seqRun)) := by
  decide +kernel

/-- A state and operands that meet the premises of each of these clauses of LoopCommands. -/
theorem witness_LoopCommands_1 :
    (let s : State := base
     decide (s.modes.mode ≠ Mode.commission)) &&
    (let s : State := base
     decide (powerMode s = false)) &&
    (let s : State := (inMode .safe) <| base
     decide ((s.modes.mode = Mode.boot ∨ s.modes.mode = Mode.backup ∨ s.modes.mode = Mode.safe))) &&
    (let i : LoopId := LoopId.bay 0
     let l : Lane := Lane.a
     let s : State := (fun (y : State) => y.modLane l (LaneState.modLoop i fun (z : Loop) => { z with disNow := false })) <|
       (fun (y : State) => y.modLane l (LaneState.modLoop i fun (z : Loop) => { z with nextSt := none })) <|
       (fun (y : State) => y.modLane l (LaneState.modLoop i fun (z : Loop) => { z with st := LoopSt.off })) <|
       (fun (z : State) => { z with modes.mode := Mode.commission }) <|
       (fun (z : State) => { z with clk.loopCmd := some (loopCode16 i, 1) }) <| base
     decide (shapeB s = true ∧ s.clk.loopCmd = some (loopCode16 i, 1) ∧ atShare s = true ∧ loopUsed s i = true ∧
       s.modes.mode = Mode.commission ∧ isSlowLoop i = false ∧ (s.act.loop i).st ≠ LoopSt.fault ∧ ((s.lane l).loop i).st = LoopSt.off ∧
       ((s.lane l).loop i).nextSt = none ∧ ((s.lane l).loop i).disNow = false)) &&
    (let i : LoopId := LoopId.bay 0
     let l : Lane := Lane.a
     let s : State := (fun (y : State) => y.modLane l (LaneState.modLoop i fun (z : Loop) => { z with st := LoopSt.run })) <| (inMode .run) <|
       (fun (z : State) => { z with clk.loopCmd := some (loopCode16 i, 2) }) <| base
     decide (shapeB s = true ∧ s.clk.loopCmd = some (loopCode16 i, 2) ∧ atShare s = true ∧ loopUsed s i = true ∧ powerMode s = true ∧
       isSlowLoop i = false ∧ ((s.lane l).loop i).st = LoopSt.run ∧ ((s.lane l).loop i).nextSt ≠ some LoopSt.fault)) &&
    (let i : LoopId := LoopId.bay 0
     let s : State := (fun (y : State) => y.modLane .a (LaneState.modLoop i fun (z : Loop) => { z with st := LoopSt.fault })) <|
       (fun (z : State) => { z with clk.loopCmd := some (loopCode16 i, 3) }) <| base
     decide (shapeB s = true ∧ s.clk.loopCmd = some (loopCode16 i, 3) ∧ atShare s = true ∧ loopUsed s i = true ∧ s.modes.mode ≠ Mode.boot ∧
       s.modes.mode ≠ Mode.backup ∧ s.modes.mode ≠ Mode.safe ∧ (s.act.loop i).st = LoopSt.fault)) &&
    (let i : LoopId := LoopId.bay 0
     let c : U8 := 1
     let s : State := (fun (z : State) => { z with clk.loopCmd := some (loopCode16 i, c) }) <| base
     decide (s.clk.loopCmd = some (loopCode16 i, c) ∧ atShare s = true ∧ loopUsed s i = true ∧ loopNoEffect s i c = true)) := by
  decide +kernel

/-- A state and operands that meet the premises of each of these clauses of LoopCommands. -/
theorem witness_LoopCommands_2 :
    (let i : LoopId := LoopId.bay 0
     let c : U8 := 0
     let s : State := (putCfg 0x3000 2 1 0) <| (fun (z : State) => { z with clk.loopCmd := some (loopCode16 i, c) }) <| base
     decide (s.clk.loopCmd = some (loopCode16 i, c) ∧ atShare s = true ∧ loopUsed s i = false)) &&
    (let n : U16 := 0
     let c : U8 := 0
     let s : State := (fun (z : State) => { z with clk.loopCmd := some (n, c) }) <| base
     decide (s.clk.loopCmd = some (n, c) ∧ atShare s = true ∧ loopOfCode (BitVec.toNat n) = none)) &&
    (let l : Lane := Lane.a
     let i : LoopId := LoopId.bay 0
     let s : State := (fun (y : State) => y.modLane l (LaneState.modLoop i fun (z : Loop) => { z with disNow := false })) <|
       (fun (y : State) => y.modLane l (LaneState.modLoop i fun (z : Loop) => { z with nextSt := none })) <|
       (fun (y : State) => y.modLane l (LaneState.modLoop i fun (z : Loop) => { z with st := LoopSt.off })) <| (inMode .run) <| base
     decide (shapeB s = true ∧ computing s l = true ∧ loopUsed s i = true ∧ enableMode s i = true ∧ ((s.lane l).loop i).st = LoopSt.off ∧
       ((s.lane l).loop i).nextSt = none ∧ ((s.lane l).loop i).disNow = false)) &&
    (let l : Lane := Lane.a
     let i : LoopId := LoopId.bay 0
     let s : State := (fun (y : State) => y.modLane l (LaneState.modLoop i fun (z : Loop) => { z with st := LoopSt.run })) <| base
     decide (shapeB s = true ∧ computing s l = true ∧ loopUsed s i = true ∧ ((s.lane l).loop i).st = LoopSt.run ∧
       ((s.lane l).loop i).nextSt ≠ some LoopSt.fault)) &&
    (let l : Lane := Lane.a
     let i : LoopId := LoopId.bay 0
     let s : State := (fun (y : State) => y.modLane l (LaneState.modLoop i fun (z : Loop) => { z with stopFor := 100000000 })) <|
       (fun (y : State) => y.modLane l (LaneState.modLoop i fun (z : Loop) => { z with nextSt := none })) <|
       (fun (y : State) => y.modLane l (LaneState.modLoop i fun (z : Loop) => { z with st := LoopSt.stop })) <| base
     decide (shapeB s = true ∧ ((s.lane l).loop i).st = LoopSt.stop ∧ ((s.lane l).loop i).nextSt = none ∧
       msPeriods s (cfgN s 13570 10) ≤ ((s.lane l).loop i).stopFor)) &&
    (let l : Lane := Lane.a
     let k : Fin 8 := (0 : Fin 8)
     let s : State := (fun (y : State) => y.modLane l (LaneState.modLoop (LoopId.string k) fun (z : Loop) => { z with override := [⟨0, 0, 0, 81⟩] })) <|
       base
     decide (shapeB s = true ∧ rampDone ((s.lane l).loop (LoopId.string k)) = true)) &&
    (let l : Lane := Lane.a
     let i : LoopId := LoopId.bay 0
     let s : State := (fun (y : State) => y.modLane l (LaneState.modLoop i fun (z : Loop) => { z with override := [{ (default : OvRamp) with n := 81 }] })) <|
       base
     decide (shapeB s = true ∧ rampDone ((s.lane l).loop i) = true)) := by
  decide +kernel

/-- A state and operands that meet the premises of each of these clauses of MetrologyHaltsAndMilestones. -/
theorem witness_MetrologyHaltsAndMilestones_1 :
    (let s : State := (fun (z : State) => { z with met.ctl.st := .halted }) <| base
     decide (metRuns s.met = false ∧ s.met.ctl.halt ≠ 2 ∧ s.met.ctl.halt ≠ 3)) &&
    (let s : State := (fun (z : State) => { z with met.ctl.halt := 2 }) <| (fun (z : State) => { z with met.ctl.st := .halted }) <| base
     decide (metRuns s.met = false ∧ (s.met.ctl.halt = 2 ∨ s.met.ctl.halt = 3))) &&
    (let s : State := (fun (z : State) => { z with met.ctl.st := .halted }) <| base
     decide (metRuns s.met = false)) &&
    (let s : State := base
     decide (s.met.ctl.st ≠ MetroSt.halted)) &&
    (let s : State := (fun (z : State) => { z with met.ctl.halt := 2 }) <| (fun (z : State) => { z with met.ctl.st := MetroSt.halted }) <|
       base
     decide (s.met.ctl.st = MetroSt.halted ∧ s.met.ctl.halt = 2)) &&
    (let f : MetroStartFacts := ⟨true, true, true, true⟩
     let i : MetImage := (default : MetImage)
     let s : State := (fun (z : State) => { z with met.ctl.copyA := some i }) <|
       (fun (z : State) => { z with met.ctl.st := MetroSt.halted }) <| base
     decide (s.met.ctl.st = MetroSt.halted ∧ s.met.ctl.halt ≠ 2 ∧ loadedImage f s.met.ctl = some i)) &&
    (let s : State := base
     decide ((s.met.ctl.pfPending = false ∨ metRuns s.met = false))) := by
  decide +kernel

/-- A state and operands that meet the premises of each of these clauses of MetrologyHaltsAndMilestones. -/
theorem witness_MetrologyHaltsAndMilestones_2 :
    (let s : State := (fun (z : State) => { z with met.ctl.pfPending := true }) <| base
     decide (s.met.ctl.pfPending = true ∧ metRuns s.met = true)) &&
    (let s : State := base
     decide (metRuns s.met = true ∧ 0 < s.met.ctl.rows)) &&
    (let s : State := (fun (z : State) => { z with met.ctl.commitFails := 0 }) <| (fun (z : State) => { z with met.ctl.rows := 0 }) <| base
     decide (metRuns s.met = true ∧ s.met.ctl.rows = 0 ∧ s.met.ctl.commitFails = 0)) &&
    (let s : State := (fun (z : State) => { z with met.ctl.commitFails := 1 }) <| (fun (z : State) => { z with met.ctl.rows := 0 }) <| base
     decide (metRuns s.met = true ∧ s.met.ctl.rows = 0 ∧ 1 ≤ s.met.ctl.commitFails)) := by
  decide +kernel

/-- A state and operands that meet the premises of each of these clauses of MetrologyMeasurement. -/
theorem witness_MetrologyMeasurement_1 :
    (let s : State := (fun (z : State) => { z with met.ctl.st := .halted }) <| base
     decide (metRuns s.met = false)) &&
    (let s : State := base
     decide (metRuns s.met = true)) &&
    (let x : AcSample := default
     let s : State := base
     decide (((x.usedCurrents.all fun i => decide (i * 1000 < BitVec.toNat s.met.ac.rated)) = true ∨ advances s.met = false))) &&
    (let x : AcSample := { (default : AcSample) with usedCurrents := [1000000000], energy := 4294967296 }
     let s : State := base
     decide (advances s.met = true ∧ (x.usedCurrents.all fun i => decide (i * 1000 < BitVec.toNat s.met.ac.rated)) = false ∧ 0 < x.energy ∧
       2 ^ 32 ≤ s.met.ac.imp + x.energy)) &&
    (let x : AcSample := { (default : AcSample) with energy := -4294967296, usedCurrents := [1000000000] }
     let s : State := base
     decide (advances s.met = true ∧ (x.usedCurrents.all fun i => decide (i * 1000 < BitVec.toNat s.met.ac.rated)) = false ∧ x.energy < 0 ∧
       2 ^ 32 ≤ s.met.ac.exp - x.energy)) &&
    (let k : VoltEvent := .sag
     let s : State := base
     decide (metRuns s.met = true ∧ detects s.met k = true ∧ inEvent s.met k = false)) &&
    (let k : VoltEvent := .sag
     let s : State := (fun (z : State) => { z with met.ctl.st := .halted }) <| base
     decide ((metRuns s.met = false ∨ detects s.met k = false ∨ inEvent s.met k = true))) := by
  decide +kernel

/-- A state and operands that meet the premises of each of these clauses of MetrologyMeasurement. -/
theorem witness_MetrologyMeasurement_2 :
    (let k : VoltEvent := .sag
     let s : State := base
     decide (inEvent s.met k = false)) &&
    (let k : VoltEvent := .sag
     let s : State := (fun (z : State) => { z with met.ac.inProgress := [(k, default)] }) <| base
     decide (metRuns s.met = true ∧ inEvent s.met k = true)) &&
    (let s : State := (fun (z : State) => { z with met.ctl.st := .halted }) <| base
     decide (metRuns s.met = false)) &&
    (let s : State := base
     decide (metRuns s.met = true)) &&
    (let r : TapRecord := default
     let s : State := base
     decide (tapGood r = false)) &&
    (let r : TapRecord := (let r : TapRecord := { (default : TapRecord) with serial := 7 }; { r with crc := tapCrc r })
     let s : State := (fun (z : State) => { z with met.ctl.st := .halted }) <| base
     decide (tapGood r = true ∧ advances s.met = false)) &&
    (let r : TapRecord := (let r : TapRecord := { (default : TapRecord) with serial := 7, status := 1 }; { r with crc := tapCrc r })
     let c : Fin 32 := (0 : Fin 32)
     let s : State := (fun (y : State) => { y with met.dc := upd y.met.dc (↑c : Nat) fun z => { z with seenNow := false } }) <|
       (fun (y : State) => { y with met.dc := upd y.met.dc c fun (z : DcChan) => { z with serial := r.serial } }) <|
       (fun (z : State) => { z with met.ctl.curPeriod := some r.period }) <| base
     decide (s.met.dc.length = 32 ∧ tapGood r = true ∧ advances s.met = true ∧ s.met.ctl.curPeriod = some r.period ∧
       s.met.ctl.lastTap = none ∧ channelOf s.met r.serial = some ((c : Nat) + 1) ∧ r.status ≠ 0 ∧ (nth s.met.dc ↑c).seenNow = false)) := by
  decide +kernel

/-- A state and operands that meet the premises of each of these clauses of MetrologyMeasurement. -/
theorem witness_MetrologyMeasurement_3 :
    (let r : TapRecord := (let r : TapRecord := { (default : TapRecord) with serial := 7 }; { r with crc := tapCrc r })
     let c : Fin 32 := (0 : Fin 32)
     let s : State := (fun (y : State) => { y with met.dc := upd y.met.dc (↑c : Nat) fun z => { z with lastSeq := none } }) <|
       (fun (y : State) => { y with met.dc := upd y.met.dc (↑c : Nat) fun z => { z with seenNow := false } }) <|
       (fun (y : State) => { y with met.dc := upd y.met.dc c fun (z : DcChan) => { z with serial := r.serial } }) <|
       (fun (z : State) => { z with met.ctl.curPeriod := some r.period }) <| base
     decide (s.met.dc.length = 32 ∧ tapGood r = true ∧ advances s.met = true ∧ s.met.ctl.curPeriod = some r.period ∧
       s.met.ctl.lastTap = none ∧ channelOf s.met r.serial = some ((c : Nat) + 1) ∧ r.status = 0 ∧ (nth s.met.dc ↑c).seenNow = false ∧
       (nth s.met.dc ↑c).lastSeq = none)) &&
    (let s : State := (fun (z : State) => { z with met.ctl.st := .halted }) <| base
     decide (metRuns s.met = false)) &&
    (let o : Fin 4 := (0 : Fin 4)
     let e : Nat := 0
     let b : Bool := true
     let es : List (Nat × Bool) := (default : List (Nat × Bool))
     let s : State := (fun (y : State) => { y with met.pout := upd y.met.pout (↑o : Nat) fun z => { z with edges := (e, b) :: es } }) <|
       base
     decide (s.met.pout.length = 4 ∧ metRuns s.met = true ∧ (nth s.met.pout ↑o).edges = (e, b) :: es)) &&
    (let i : Fin 4 := (0 : Fin 4)
     let s : State := (fun (y : State) => { y with met.pin := upd y.met.pin (↑i : Nat) fun z => { z with use := 0 } }) <| base
     decide (s.met.pin.length = 4 ∧ metRuns s.met = true ∧ (nth s.met.pin ↑i).use = 0)) &&
    (let i : Fin 4 := (0 : Fin 4)
     let s : State := (fun (y : State) => { y with met.pin := upd y.met.pin (↑i : Nat) fun z => { z with use := 1 } }) <| base
     decide (s.met.pin.length = 4 ∧ metRuns s.met = true ∧ (nth s.met.pin ↑i).use = 1)) &&
    (let s : State := (fun (z : State) => { z with met.ctl.sealOpen := false }) <| base
     decide (s.met.ctl.sealOpen = false)) &&
    (let s : State := (fun (z : State) => { z with met.ctl.sealOpen := true }) <| base
     decide (s.met.ctl.sealOpen = true ∧ s.met.ctl.heldImg = none)) := by
  decide +kernel

/-- A state and operands that meet the premises of this clause of MetrologyMeasurement. -/
theorem witness_MetrologyMeasurement_4 :
    (let img : List Byte := []
     let s : State := (fun (z : State) => { z with met.ctl.heldImg := some img }) <|
       (fun (z : State) => { z with met.ctl.sealOpen := true }) <| base
     decide (s.met.ctl.sealOpen = true ∧ s.met.ctl.heldImg = some img)) := by
  decide +kernel

/-- A state and operands that meet the premises of each of these clauses of ModeRequests. -/
theorem witness_ModeRequests_1 :
    (let v : U8 := 1
     let s : State := base
     decide ((activeLane s).isSome = true ∧ s.modes.mode ≠ Mode.boot ∧ s.modes.mode ≠ Mode.backup ∧ s.modes.mode ≠ Mode.safe ∧
       v ∈ [1, 2, 3, 5, 6, 7])) &&
    (let v : U8 := 0
     let s : State := base
     decide ((activeLane s).isSome = true ∧ (s.modes.mode = Mode.safe ∨ v ∉ [1, 2, 3, 5, 6, 7] ∧ s.modes.mode ≠ Mode.boot ∧
       s.modes.mode ≠ Mode.backup))) &&
    (let s : State := base
     decide ((s.modes.waiting = none ∨ mayTake s = false))) &&
    (let v : U8 := 2
     let s : State := (fun (z : State) => { z with modes.waiting := some v }) <| base
     decide (s.modes.waiting = some v ∧ mayTake s = true ∧ (v = s.modes.mode.code ∨ underWay v s = true))) &&
    (let v : U8 := 5
     let s : State := (fun (z : State) => { z with modes.waiting := some v }) <| base
     decide (s.modes.waiting = some v ∧ mayTake s = true ∧ underWay v s = false ∧ v = 5 ∧
       (s.modes.mode = Mode.commission ∨ s.modes.mode = Mode.idle ∨ s.modes.mode = Mode.run ∨ s.modes.mode = Mode.degraded ∨ s.modes.mode = Mode.service))) &&
    (let v : U8 := 1
     let s : State := (fun (z : State) => { z with modes.waiting := some v }) <| base
     decide (s.modes.waiting = some v ∧ mayTake s = true ∧ underWay v s = false ∧ s.modes.mode = Mode.idle ∧ (v = 1 ∨ v = 6))) &&
    (let v : U8 := 3
     let s : State := (fun (z : State) => { z with sets.flags := 1 }) <| (fun (z : State) => { z with modes.waiting := some v }) <| base
     decide (s.modes.waiting = some v ∧ mayTake s = true ∧ underWay v s = false ∧ s.modes.mode = Mode.idle ∧ v = 3 ∧
       BitVec.getLsbD s.sets.flags 0 = true)) := by
  decide +kernel

/-- A state and operands that meet the premises of each of these clauses of ModeRequests. -/
theorem witness_ModeRequests_2 :
    (let v : U8 := 3
     let s : State := (fun (y : State) => y.modLane .a fun (z : LaneState) => { z with ctl.metroReady := false }) <|
       (fun (z : State) => { z with modes.waiting := some v }) <| base
     decide (s.modes.waiting = some v ∧ mayTake s = true ∧ underWay v s = false ∧ s.modes.mode = Mode.idle ∧ v = 3 ∧
       BitVec.getLsbD s.sets.flags 0 = false ∧ metroReady s = false)) &&
    (let v : U8 := 3
     let s : State := (fun (z : State) => { z with modes.waiting := some v }) <| base
     decide (s.modes.waiting = some v ∧ mayTake s = true ∧ underWay v s = false ∧ s.modes.mode = Mode.idle ∧ v = 3 ∧
       BitVec.getLsbD s.sets.flags 0 = false ∧ metroReady s = true)) &&
    (let v : U8 := 2
     let s : State := (inMode .run) <| (fun (z : State) => { z with modes.waiting := some v }) <| base
     decide (s.modes.waiting = some v ∧ mayTake s = true ∧ underWay v s = false ∧ (s.modes.mode = Mode.run ∨ s.modes.mode = Mode.degraded) ∧
       v = 2)) &&
    (let v : U8 := 2
     let s : State := (putCfg 8208 6 1 (if (true) then 1 else 0)) <| (fun (z : State) => { z with modes.mode := Mode.commission }) <|
       (fun (z : State) => { z with modes.waiting := some v }) <| base
     decide (s.modes.waiting = some v ∧ mayTake s = true ∧ underWay v s = false ∧ s.modes.mode = Mode.commission ∧ v = 2 ∧
       cfgB s 8208 6 = true)) &&
    (let v : U8 := 2
     let s : State := (fun (z : State) => { z with modes.mode := Mode.service }) <| (fun (z : State) => { z with modes.waiting := some v }) <|
       base
     decide (s.modes.waiting = some v ∧ mayTake s = true ∧ underWay v s = false ∧ s.modes.mode = Mode.service ∧ v = 2)) &&
    (let v : U8 := 2
     let s : State := (putCfg 8208 6 1 (if (false) then 1 else 0)) <| (fun (z : State) => { z with modes.mode := Mode.commission }) <|
       (fun (z : State) => { z with modes.waiting := some v }) <| base
     decide (s.modes.waiting = some v ∧ mayTake s = true ∧ underWay v s = false ∧ s.modes.mode = Mode.commission ∧ v = 2 ∧
       cfgB s 8208 6 = false)) &&
    (let v : U8 := 1
     let s : State := (inMode .run) <| (fun (z : State) => { z with modes.waiting := some v }) <| base
     decide (s.modes.waiting = some v ∧ mayTake s = true ∧ underWay v s = false ∧ (s.modes.mode = Mode.commission ∧
       (v = 3 ∨ v = 6 ∨ v = 7) ∨ s.modes.mode = Mode.run ∧ (v = 1 ∨ v = 6 ∨ v = 7) ∨ s.modes.mode = Mode.degraded ∧
       (v = 1 ∨ v = 3 ∨ v = 6 ∨ v = 7) ∨ s.modes.mode = Mode.service ∧ (v = 1 ∨ v = 3 ∨ v = 7)))) := by
  decide +kernel

/-- A state and operands that meet the premises of each of these clauses of ModeRequests. -/
theorem witness_ModeRequests_3 :
    (let v : U8 := 7
     let l : Lane := Lane.a
     let s : State := (fun (z : State) => { z with modes.waiting := some v }) <| base
     decide (s.modes.waiting = some v ∧ mayTake s = true ∧ underWay v s = false ∧ s.modes.mode = Mode.idle ∧ v = 7 ∧ activeLane s = some l)) &&
    (let v : U32 := 0
     let s : State := base
     decide ((activeLane s).isSome = true ∧ v ≠ 42330)) &&
    (let s : State := (fun (z : State) => { z with modes.mode := Mode.safe }) <| base
     decide ((activeLane s).isSome = true ∧ s.modes.mode = Mode.safe)) := by
  decide +kernel

/-- A state and operands that meet the premises of each of these clauses of MoveSteps. -/
theorem witness_MoveSteps_1 :
    (let l : Lane := Lane.a
     let j : Fin 96 := (0 : Fin 96)
     let s : State := base
     decide (((s.lane l).mod ↑j).st ≠ ModSt.moving)) &&
    (let l : Lane := Lane.a
     let j : Fin 96 := (0 : Fin 96)
     let s : State := (fun (z : State) => { z with clk.period := 40 }) <|
       (fun (y : State) => y.modLane l (LaneState.modMod (↑j : Nat) fun (z : Module) => { z with step := 1 })) <|
       (fun (y : State) => y.modLane l (LaneState.modMod (↑j : Nat) fun (z : Module) => { z with st := ModSt.moving })) <| base
     decide (((s.lane l).mod ↑j).st = ModSt.moving ∧ ((s.lane l).mod ↑j).step = 1 ∧
       (((s.lane l).mod ↑j).startW + if s.clk.long = true then 4 else 8) ≤ s.clk.period)) &&
    (let l : Lane := Lane.a
     let j : Fin 96 := (0 : Fin 96)
     let s : State := (fun (y : State) => y.modLane l (LaneState.modMod (↑j : Nat) fun (z : Module) => { z with step := 1 })) <|
       (fun (y : State) => y.modLane l (LaneState.modMod (↑j : Nat) fun (z : Module) => { z with st := ModSt.moving })) <| base
     decide (((s.lane l).mod ↑j).st = ModSt.moving ∧ ((s.lane l).mod ↑j).step = 1 ∧
       s.clk.period < ((s.lane l).mod ↑j).startW + if s.clk.long = true then 4 else 8)) &&
    (let l : Lane := Lane.a
     let j : Fin 96 := (0 : Fin 96)
     let s : State := (fun (y : State) => y.modLane l fun (x : LaneState) => { x with modLoops := upd x.modLoops (↑j : Nat) fun z => { z with st := LoopSt.off } }) <|
       (fun (y : State) => y.modLane l (LaneState.modMod (↑j : Nat) fun (z : Module) => { z with step := 2 })) <|
       (fun (y : State) => y.modLane l (LaneState.modMod (↑j : Nat) fun (z : Module) => { z with st := ModSt.moving })) <| base
     decide (((s.lane l).mod ↑j).st = ModSt.moving ∧ ((s.lane l).mod ↑j).step = 2 ∧ (nth (s.lane l).modLoops ↑j).st = LoopSt.off)) &&
    (let l : Lane := Lane.a
     let j : Fin 96 := (0 : Fin 96)
     let s : State := (fun (y : State) => y.modLane l (modCurBank y fun b => upd b 1 fun (z : FrameSlot) => { z with status := 0, words := List.replicate 6 0 })) <|
       (fun (y : State) => y.modLane l (LaneState.modMod (↑j : Nat) fun (z : Module) => { z with step := 3 })) <|
       (fun (y : State) => y.modLane l (LaneState.modMod (↑j : Nat) fun (z : Module) => { z with st := ModSt.moving })) <| base
     decide (((s.lane l).mod ↑j).st = ModSt.moving ∧ ((s.lane l).mod ↑j).step = 3 ∧ atPos s (s.lane l) (↑j) 0 = true)) &&
    (let l : Lane := Lane.a
     let j : Fin 96 := (0 : Fin 96)
     let s : State := (fun (y : State) => y.modLane l (LaneState.modMod (↑j : Nat) fun (z : Module) => { z with flt := true })) <|
       (fun (y : State) => y.modLane l (LaneState.modMod j fun (z : Module) => { z with dwell := 1000000 })) <|
       (fun (y : State) => y.modLane l (LaneState.modMod (↑j : Nat) fun (z : Module) => { z with step := 4 })) <|
       (fun (y : State) => y.modLane l (LaneState.modMod (↑j : Nat) fun (z : Module) => { z with st := ModSt.moving })) <| base
     decide (((s.lane l).mod ↑j).st = ModSt.moving ∧ ((s.lane l).mod ↑j).step = 4 ∧ dwellPeriods s 4 ≤ ((s.lane l).mod ↑j).dwell ∧
       ((s.lane l).mod ↑j).flt = true ∧ ((s.lane l).mod ↑j).after ≠ ModSt.retired)) &&
    (let l : Lane := Lane.a
     let j : Fin 96 := (0 : Fin 96)
     let s : State := (fun (y : State) => y.modLane l (LaneState.modMod (↑j : Nat) fun (z : Module) => { z with target := 0 })) <|
       (fun (y : State) => y.modLane l (LaneState.modMod (↑j : Nat) fun (z : Module) => { z with flt := false })) <|
       (fun (y : State) => y.modLane l (LaneState.modMod j fun (z : Module) => { z with dwell := 1000000 })) <|
       (fun (y : State) => y.modLane l (LaneState.modMod (↑j : Nat) fun (z : Module) => { z with step := 4 })) <|
       (fun (y : State) => y.modLane l (LaneState.modMod (↑j : Nat) fun (z : Module) => { z with st := ModSt.moving })) <| base
     decide (((s.lane l).mod ↑j).st = ModSt.moving ∧ ((s.lane l).mod ↑j).step = 4 ∧ dwellPeriods s 4 ≤ ((s.lane l).mod ↑j).dwell ∧
       ((s.lane l).mod ↑j).flt = false ∧ ((s.lane l).mod ↑j).target = 0)) := by
  decide +kernel

/-- A state and operands that meet the premises of each of these clauses of MoveSteps. -/
theorem witness_MoveSteps_2 :
    (let l : Lane := Lane.a
     let j : Fin 96 := (0 : Fin 96)
     let s : State := (fun (y : State) => y.modLane l (LaneState.modMod j fun (z : Module) => { z with target := 1 })) <|
       (fun (y : State) => y.modLane l (LaneState.modMod (↑j : Nat) fun (z : Module) => { z with flt := false })) <|
       (fun (y : State) => y.modLane l (LaneState.modMod j fun (z : Module) => { z with dwell := 1000000 })) <|
       (fun (y : State) => y.modLane l (LaneState.modMod (↑j : Nat) fun (z : Module) => { z with step := 4 })) <|
       (fun (y : State) => y.modLane l (LaneState.modMod (↑j : Nat) fun (z : Module) => { z with st := ModSt.moving })) <| base
     decide (((s.lane l).mod ↑j).st = ModSt.moving ∧ ((s.lane l).mod ↑j).step = 4 ∧ dwellPeriods s 4 ≤ ((s.lane l).mod ↑j).dwell ∧
       ((s.lane l).mod ↑j).flt = false ∧ ((s.lane l).mod ↑j).target ≠ 0 ∧ nth (s.lane l).share.need (((s.lane l).mod ↑j).target - 1) ≤ 0)) &&
    (let l : Lane := Lane.a
     let j : Fin 96 := (0 : Fin 96)
     let s : State := (inMode .run) <| (fun (y : State) => y.modLane l fun (z : LaneState) => { z with share.need := [5] }) <|
       (fun (y : State) => y.modLane l (LaneState.modMod j fun (z : Module) => { z with target := 1 })) <|
       (fun (y : State) => y.modLane l (LaneState.modMod (↑j : Nat) fun (z : Module) => { z with flt := false })) <|
       (fun (y : State) => y.modLane l (LaneState.modMod j fun (z : Module) => { z with dwell := 1000000 })) <|
       (fun (y : State) => y.modLane l (LaneState.modMod (↑j : Nat) fun (z : Module) => { z with step := 4 })) <|
       (fun (y : State) => y.modLane l (LaneState.modMod (↑j : Nat) fun (z : Module) => { z with st := ModSt.moving })) <| base
     decide (((s.lane l).mod ↑j).st = ModSt.moving ∧ ((s.lane l).mod ↑j).step = 4 ∧ dwellPeriods s 4 ≤ ((s.lane l).mod ↑j).dwell ∧
       ((s.lane l).mod ↑j).flt = false ∧ ((s.lane l).mod ↑j).target ≠ 0 ∧ 0 < nth (s.lane l).share.need (((s.lane l).mod ↑j).target - 1) ∧
       placing s = true)) &&
    (let l : Lane := Lane.a
     let j : Fin 96 := (0 : Fin 96)
     let s : State := (fun (y : State) => y.modLane l (LaneState.modMod (↑j : Nat) fun (z : Module) => { z with flt := true })) <|
       (fun (y : State) => y.modLane l (LaneState.modMod j fun (z : Module) => { z with step := 5 })) <|
       (fun (y : State) => y.modLane l (LaneState.modMod (↑j : Nat) fun (z : Module) => { z with st := ModSt.moving })) <| base
     decide (((s.lane l).mod ↑j).st = ModSt.moving ∧ (((s.lane l).mod ↑j).step = 5 ∨ ((s.lane l).mod ↑j).step = 6) ∧
       ((s.lane l).mod ↑j).flt = true)) &&
    (let l : Lane := Lane.a
     let j : Fin 96 := (0 : Fin 96)
     let s : State := (fun (y : State) => y.modLane l (modCurBank y fun b => upd b 1 fun (z : FrameSlot) => { z with status := 0, words := List.replicate 6 0 })) <|
       (fun (y : State) => y.modLane l (LaneState.modMod (↑j : Nat) fun (z : Module) => { z with flt := false })) <|
       (fun (y : State) => y.modLane l (LaneState.modMod (↑j : Nat) fun (z : Module) => { z with step := 5 })) <|
       (fun (y : State) => y.modLane l (LaneState.modMod (↑j : Nat) fun (z : Module) => { z with st := ModSt.moving })) <| base
     decide (((s.lane l).mod ↑j).st = ModSt.moving ∧ ((s.lane l).mod ↑j).step = 5 ∧ ((s.lane l).mod ↑j).flt = false ∧
       reportsFlt s (s.lane l) ↑j = false ∧ atPos s (s.lane l) (↑j) ((s.lane l).mod ↑j).target = true)) &&
    (let l : Lane := Lane.a
     let j : Fin 96 := (0 : Fin 96)
     let s : State := (fun (y : State) => y.modLane l (LaneState.modMod j fun (z : Module) => { z with step := 4 })) <|
       (fun (y : State) => y.modLane l (LaneState.modMod (↑j : Nat) fun (z : Module) => { z with st := ModSt.moving })) <| base
     decide (((s.lane l).mod ↑j).st = ModSt.moving ∧ (((s.lane l).mod ↑j).step = 4 ∨ ((s.lane l).mod ↑j).step = 6))) &&
    (let l : Lane := Lane.a
     let j : Fin 96 := (0 : Fin 96)
     let s : State := (fun (y : State) => y.modLane l (LaneState.modMod (↑j : Nat) fun (z : Module) => { z with flt := false })) <|
       (fun (z : State) => { z with clk.period := 4000 }) <|
       (fun (y : State) => y.modLane l (LaneState.modMod j fun (z : Module) => { z with dwell := 1000000 })) <|
       (fun (y : State) => y.modLane l (LaneState.modMod (↑j : Nat) fun (z : Module) => { z with step := 6 })) <|
       (fun (y : State) => y.modLane l (LaneState.modMod (↑j : Nat) fun (z : Module) => { z with st := ModSt.moving })) <| (inMode .run) <|
       base
     decide (shapeB s = true ∧ atShare s = true ∧ servesSessions s = true ∧ ((s.lane l).mod ↑j).st = ModSt.moving ∧
       ((s.lane l).mod ↑j).step = 6 ∧ dwellPeriods s 6 ≤ ((s.lane l).mod ↑j).dwell ∧
       (((s.lane l).mod ↑j).startW + if s.clk.long = true then 1200 else 2400) ≤ s.clk.period ∧ ((s.lane l).mod ↑j).flt = false)) &&
    (let s : State := (fun (z : State) => { z with clk.period := 41 }) <| base
     decide (atShare s = false)) := by
  decide +kernel

/-- A state and operands that meet the premises of each of these clauses of NandCommands. -/
theorem witness_NandCommands_1 :
    (let s : State := (fun (z : State) => { z with nand.st := 3 }) <| base
     decide (nandWorks s = false)) &&
    (let q : Fin 8 := (0 : Fin 8)
     let i : Nat := 0
     let d : List Byte := [0]
     let a : NandAnswer := default
     let s : State := (fun (z : State) => { z with nand.blocks := [{ (default : NandBlk) with id := i }] }) <| base
     decide (nandWorks s = true ∧ (i % 8 == queueTarget q && !(s.nand.blk i).bad) = true ∧ a.statusFail = false ∧ d ≠ [])) &&
    (let q : Fin 8 := (0 : Fin 8)
     let i : Nat := 0
     let p : Nat := 0
     let a : NandAnswer := ⟨false, [3]⟩
     let d : List Byte := []
     let e : Nat := 3
     let s : State := (fun (z : State) => { z with nand.blocks := [{ (default : NandBlk) with id := i, pages := [(p, d)] }] }) <| base
     decide (nandWorks s = true ∧ (i % 8 == queueTarget q && !(s.nand.blk i).bad) = true ∧ (s.nand.blk i).page p = some d ∧
       corrected s a = some e)) &&
    (let q : Fin 8 := (0 : Fin 8)
     let i : Nat := 0
     let p : Nat := 0
     let a : NandAnswer := ⟨false, [3]⟩
     let e : Nat := 3
     let s : State := (fun (z : State) => { z with nand.blocks := [{ (default : NandBlk) with id := i }] }) <| base
     decide (nandWorks s = true ∧ (i % 8 == queueTarget q && !(s.nand.blk i).bad) = true ∧ (s.nand.blk i).page p = none ∧
       corrected s a = some e)) &&
    (let q : Fin 8 := (0 : Fin 8)
     let i : Nat := 0
     let a : NandAnswer := default
     let s : State := (fun (z : State) => { z with nand.blocks := [{ (default : NandBlk) with id := i }] }) <| base
     decide (nandWorks s = true ∧ (i % 8 == queueTarget q && !(s.nand.blk i).bad) = true ∧ (s.nand.blk i).stream ≠ some Stream.signedBilling ∧
       corrected s a = none)) &&
    (let q : Fin 8 := (0 : Fin 8)
     let i : Nat := 0
     let p : Nat := 0
     let a : NandAnswer := default
     let d : List Byte := []
     let s : State := (fun (z : State) => { z with nand.blocks := [{ (default : NandBlk) with id := i, stream := some .signedBilling, pages := [(p, d)] }] }) <|
       (fun (z : State) => { z with nand.blocks := [{ (default : NandBlk) with id := i, pages := [(p, d)] }] }) <| base
     decide (nandWorks s = true ∧ (i % 8 == queueTarget q && !(s.nand.blk i).bad) = true ∧ (s.nand.blk i).stream = some Stream.signedBilling ∧
       (s.nand.blk i).page p = some d ∧ corrected s a = none)) &&
    (let q : Fin 8 := (0 : Fin 8)
     let i : Nat := 0
     let d : List Byte := [0]
     let a : NandAnswer := ⟨true, [3]⟩
     let s : State := (fun (z : State) => { z with nand.blocks := [{ (default : NandBlk) with id := i }] }) <| base
     decide (nandWorks s = true ∧ (i % 8 == queueTarget q && !(s.nand.blk i).bad) = true ∧ a.statusFail = true ∧ d ≠ [])) := by
  decide +kernel

/-- A state and operands that meet the premises of each of these clauses of NandCommands. -/
theorem witness_NandCommands_2 :
    (let q : Fin 8 := (0 : Fin 8)
     let i : Nat := 1
     let d : List Byte := [0]
     let s : State := base
     decide (nandWorks s = true ∧ (i % 8 == queueTarget q) = false ∧ d ≠ [])) &&
    (let s : State := base
     decide (nandWorks s = true)) &&
    (let b : Nat := 0
     let s : State := base
     decide ((s.nand.blk b).reads < cfgN s 9473 2)) &&
    (let b : Nat := 0
     let s : State := (fun (z : State) => { z with nand.blocks := [{ (default : NandBlk) with id := b, stream := some .eventArchive, reads := 5000000 }] }) <|
       base
     decide (nandWorks s = true ∧ (s.nand.blk b).stream.isSome = true ∧ cfgN s 9473 2 ≤ (s.nand.blk b).reads)) &&
    (let b : Nat := 0
     let w : Nat := 0
     let d : Nat := 0
     let s : State := (fun (z : State) => { z with nand.blocks := [{ (default : NandBlk) with id := b, stream := some .eventArchive, reads := 5000000 }] }) <|
       base
     decide (nandWorks s = true ∧ (s.nand.blk b).stream.isSome = true ∧ w < cfgN s 9473 1 ∧ d ≤ cfgN s 9473 4)) &&
    (let b : Nat := 0
     let w : Nat := 1000000
     let d : Nat := 0
     let s : State := (fun (z : State) => { z with nand.blocks := [{ (default : NandBlk) with id := b, stream := some .eventArchive, reads := 5000000 }] }) <|
       base
     decide (nandWorks s = true ∧ (s.nand.blk b).stream.isSome = true ∧ (cfgN s 9473 1 ≤ w ∨ cfgN s 9473 4 < d))) &&
    (let s : State := base
     decide (usedSpread s.nand = none)) := by
  decide +kernel

/-- A state and operands that meet the premises of this clause of NormalisationIsSmallest. -/
theorem witness_NormalisationIsSmallest :
    (let i : Nat := 0
     decide (i < 8)) := by
  decide +kernel

/-- A state and operands that meet the premises of each of these clauses of PeriodPhases. -/
theorem witness_PeriodPhases_1 :
    (let s : State := (inMode .boot) <| base
     decide ((s.modes.mode = Mode.boot ∨ s.modes.mode = Mode.backup))) &&
    (let l : Lane := Lane.a
     let n : Nat := 0
     let s : State := base
     decide (n < 64 ∧ steeredLane s = some l)) &&
    (let n : Nat := 0
     let s : State := (fun (z : State) => { z with jct.lost := true }) <| base
     decide (n < 64 ∧ s.modes.mode ≠ Mode.boot ∧ s.modes.mode ≠ Mode.backup ∧ steeredLane s = none)) &&
    (let l : Lane := Lane.a
     let n : Fin 64 := (0 : Fin 64)
     let f : RxFrame := (default : RxFrame)
     let s : State := (fun (y : State) => y.modLane l (LaneState.modLink (↑n : Nat) fun (z : Link) => { z with got := false })) <|
       (fun (y : State) => y.modLane l (LaneState.modLink (↑n : Nat) fun (z : Link) => { z with st := LinkSt.up })) <|
       (fun (y : State) => y.modLane l (LaneState.modLink (↑n : Nat) fun (z : Link) => { z with synced := true })) <| base
     decide (shapeB s = true ∧ linkType s ↑n ≠ 0 ∧ ((s.lane l).link ↑n).synced = true ∧ ((s.lane l).link ↑n).st = LinkSt.up ∧
       f.eofCycle ≤ 900 ∧ ((s.lane l).link ↑n).got = false ∧ (slotOf s (s.lane l) ↑n).filled = false)) &&
    (let l : Lane := Lane.a
     let n : Fin 64 := (0 : Fin 64)
     let s : State := base
     decide ((linkType s ↑n = 0 ∨ ((s.lane l).link ↑n).synced = false))) &&
    (let l : Lane := Lane.a
     let i : Nat := 0
     let v : ℤ := 100
     let c : ℤ := 200
     let s : State := (fun (y : State) => y.modLane l (modCurBank y fun b => upd b 0 fun (z : FrameSlot) => { z with status := 0, words := [0, 100, 200] })) <|
       base
     decide (shapeB s = true ∧ i < 24 ∧ headMeas s (s.lane l) i 1 = some v ∧ headMeas s (s.lane l) i 2 = some c)) &&
    (let l : Lane := Lane.a
     let s : State := base
     decide (shapeB s = true ∧ computing s l = true)) := by
  decide +kernel

/-- A state and operands that meet the premises of each of these clauses of PeriodPhases. -/
theorem witness_PeriodPhases_2 :
    (let l : Lane := Lane.a
     let s : State := base
     decide (sendsDigest s l = true ∧ computing s l = true ∧ s.jct.lost = false)) &&
    (let l : Lane := Lane.a
     let s : State := base
     decide (activeLane s = some l)) := by
  decide +kernel

/-- A state and operands that meet the premises of each of these clauses of PlacementCommands. -/
theorem witness_PlacementCommands :
    (let l : Lane := Lane.a
     let s : State := base
     decide ((computing s l = false ∨ placing s = false ∨ s.clk.period % placeLen s ≠ 0))) &&
    (let l : Lane := Lane.a
     let s : State := (inMode .run) <| base
     decide (shapeB s = true ∧ computing s l = true ∧ placing s = true ∧ s.clk.period % placeLen s = 0)) &&
    (let l : Lane := Lane.a
     let j : Fin 96 := (0 : Fin 96)
     let s : State := (putCfg 0x3100 6 4 160000) <|
       (fun (y : State) => y.modLane l (LaneState.modLink 1 fun (z : Link) => { z with st := .up })) <|
       (fun (y : State) => y.modLane l (LaneState.modMod (↑j : Nat) fun (z : Module) => { z with afresh := true })) <| base
     decide (shapeB s = true ∧ ((s.lane l).mod ↑j).afresh = true ∧ atShare s = true ∧ cabUp s (s.lane l) ↑j = true ∧
       (modCab s ↑j).isSome = true ∧ ((s.lane l).mod ↑j).st ≠ ModSt.retired ∧ modPos (moduleLast s (s.lane l) ↑j) = 0 ∧
       moduleUsable s (s.lane l) ↑j = true ∧ ((s.lane l).mod ↑j).after ≠ ModSt.free ∧ ((s.lane l).mod ↑j).after ≠ ModSt.spare)) &&
    (let l : Lane := Lane.a
     let j : Fin 96 := (0 : Fin 96)
     let s : State := base
     decide ((((s.lane l).mod ↑j).afresh = false ∨ atShare s = false ∨ cabUp s (s.lane l) ↑j = false))) &&
    (let l : Lane := Lane.a
     let j : Fin 96 := (0 : Fin 96)
     let s : State := (fun (y : State) => y.modLane l (LaneState.modMod (↑j : Nat) fun (z : Module) => { z with thetaOver := 0 })) <| base
     decide (shapeB s = true ∧ ((s.lane l).mod ↑j).thetaN < 1000 ∧ ((s.lane l).mod ↑j).thetaOver = 0)) &&
    (let l : Lane := Lane.a
     let j : Fin 96 := (0 : Fin 96)
     let s : State := (putCfg 0x3100 7 4 1000) <|
       (fun (y : State) => y.modLane l (LaneState.modMod j fun (z : Module) => { z with thetaN := 1000 })) <| base
     decide (shapeB s = true ∧ 1000 ≤ ((s.lane l).mod ↑j).thetaN ∧ modN s (↑j) 7 ≠ 0)) := by
  decide +kernel

/-- A state and operands that meet the premises of each of these clauses of PlannedCrossoverAndReleases. -/
theorem witness_PlannedCrossoverAndReleases_1 :
    (let v : U8 := 0
     let s : State := base
     decide (writable s = true ∧ (activeLane s).isSome = true ∧ v ≠ 1)) &&
    (let l : Lane := Lane.b
     let s : State := (onJ l fun (z : JLane) => { z with role := Role.excluded }) <| base
     decide (writable s = true ∧ (activeLane s).isSome = true ∧ roleOf s l = Role.excluded)) &&
    (let l : Lane := Lane.a
     let s : State := (fun (y : State) => y.modLane l fun (z : LaneState) => { z with ctl.recovery := false }) <| base
     decide (writable s = true ∧ (activeLane s).isSome = true ∧ roleOf s l ≠ Role.excluded ∧ (s.lane l).ctl.recovery = false)) &&
    (let s : State := base
     decide ((s.jct.planReq = false ∨ atShare s = false))) &&
    (let s : State := (fun (z : State) => { z with jct.planReq := true }) <| base
     decide (s.jct.planReq = true ∧ atShare s = true ∧ junctionRuns s = true ∧ s.jct.cross = none ∧ plannedRefusal s ≠ 0)) &&
    (let l : Lane := Lane.b
     let s : State := (onJ l fun (z : JLane) => { z with matches_ := 1000 }) <| (fun (z : State) => { z with modes.mode := Mode.run }) <|
       (fun (z : State) => { z with jct.planReq := true }) <| base
     decide (s.jct.planReq = true ∧ atShare s = true ∧ junctionRuns s = true ∧ s.jct.cross = none ∧ s.modes.mode = Mode.run ∧
       standbyLane s = some l ∧ 1000 ≤ BitVec.toNat (s.jct.lane l).matches_ ∧ s.sets.st ≠ ShadowSt.swapPending ∧ s.modes.waiting = none)) &&
    (let c : Crossover := ⟨0, .a, 0, true⟩
     let s : State := (onJ c.lane fun (z : JLane) => { z with role := .standby }) <|
       (onJ c.lane.other fun (z : JLane) => { z with role := .active }) <| (fun (z : State) => { z with jct.cross := some c }) <| base
     decide (s.jct.cross = some c ∧ junctionRuns s = true ∧ c.planned = true ∧ c.at_ ≤ s.clk.period ∧ roleOf s c.lane = Role.standby ∧
       ((s.lane c.lane.other).slots.slot (s.lane c.lane.other).slots.current).failed = false)) := by
  decide +kernel

/-- A state and operands that meet the premises of each of these clauses of PlannedCrossoverAndReleases. -/
theorem witness_PlannedCrossoverAndReleases_2 :
    (let l : Lane := Lane.a
     let s : State := (onJ l fun (z : JLane) => { z with role := Role.failed }) <| (onJ l fun (z : JLane) => { z with held := true }) <|
       base
     decide ((s.jct.lane l).held = true ∧ roleOf s l = Role.failed ∧ s.jct.lost = false)) &&
    (let l : Lane := Lane.a
     let s : State := (onJ l fun (z : JLane) => { z with held := false }) <| base
     decide ((s.jct.lane l).held = false)) := by
  decide +kernel

/-- A state and operands that meet the premises of each of these clauses of PolicyInstructions. -/
theorem witness_PolicyInstructions_1 :
    (let w : PolicyArgs := ⟨0,0,0⟩
     let s : State := base
     decide (policyNopOk w = true)) &&
    (let w : PolicyArgs := ⟨0,0,0⟩
     let s : State := base
     decide (shapeB s = true ∧ policyLdiOk w = true)) &&
    (let w : PolicyArgs := ⟨0,0,0⟩
     let s : State := base
     decide (shapeB s = true ∧ policyLdkOk w = true)) &&
    (let w : PolicyArgs := ⟨0,0,0⟩
     let s : State := base
     decide (shapeB s = true ∧ policyLkhOk w = true)) &&
    (let w : PolicyArgs := ⟨0,0,0⟩
     let s : State := base
     decide (shapeB s = true ∧ policyAddOk w = true)) &&
    (let w : PolicyArgs := ⟨0,0,0⟩
     let s : State := base
     decide (shapeB s = true ∧ policySubOk w = true)) &&
    (let w : PolicyArgs := ⟨0,0,0⟩
     let s : State := base
     decide (shapeB s = true ∧ policyMulOk w = true)) := by
  decide +kernel

/-- A state and operands that meet the premises of each of these clauses of PolicyInstructions. -/
theorem witness_PolicyInstructions_2 :
    (let w : PolicyArgs := ⟨0,0,0⟩
     let s : State := base
     decide (shapeB s = true ∧ policyDivOk w = true)) &&
    (let w : PolicyArgs := ⟨0,0,0⟩
     let s : State := base
     decide (shapeB s = true ∧ policyMinOk w = true)) &&
    (let w : PolicyArgs := ⟨0,0,0⟩
     let s : State := base
     decide (shapeB s = true ∧ policyMaxOk w = true)) &&
    (let w : PolicyArgs := ⟨0,0,0⟩
     let s : State := base
     decide (shapeB s = true ∧ policySelOk w = true)) &&
    (let w : PolicyArgs := ⟨0,0,0⟩
     let s : State := base
     decide (policyCmpOk w = true)) &&
    (let w : PolicyArgs := ⟨0,0,0⟩
     let s : State := base
     decide (policyOutOk w = true)) &&
    (let w : PolicyArgs := ⟨1,1,1⟩
     let s : State := base
     decide (policyAddOk w = false)) := by
  decide +kernel

/-- A state and operands that meet the premises of each of these clauses of PolicyInstructions. -/
theorem witness_PolicyInstructions_3 :
    (let w : PolicyArgs := ⟨1,1,1⟩
     let s : State := base
     decide (policyLdkOk w = false)) &&
    (let w : PolicyArgs := ⟨1,1,1⟩
     let s : State := base
     decide (policyOutOk w = false)) := by
  decide +kernel

/-- A state and operands that meet the premises of each of these clauses of ProtocolChoice. -/
theorem witness_ProtocolChoice :
    (let n : Fin 24 := (0 : Fin 24)
     let l : List Protocol := [.iso20]
     let s : State := (putCfg 0x3000 0x19 1 7) <| (modSess (↑n : Nat) fun (z : Session) => { z with st := SessSt.setup }) <| base
     let has := fun p bit => (bayMask s ↑n).testBit bit = true ∧ p ∈ l
     decide (s.veh.links.length = 24 ∧ (sess s ↑n).st = SessSt.setup ∧ has Protocol.iso20 0)) &&
    (let n : Fin 24 := (0 : Fin 24)
     let l : List Protocol := [.iso2]
     let s : State := (putCfg 0x3000 0x19 1 7) <| (modSess (↑n : Nat) fun (z : Session) => { z with st := SessSt.setup }) <| base
     let has := fun p bit => (bayMask s ↑n).testBit bit = true ∧ p ∈ l
     decide (s.veh.links.length = 24 ∧ (sess s ↑n).st = SessSt.setup ∧ vehMode s ↑n ≠ 3 ∧ ¬has Protocol.iso20 0 ∧ has Protocol.iso2 1)) &&
    (let n : Fin 24 := (0 : Fin 24)
     let l : List Protocol := [.din]
     let s : State := (putCfg 0x3000 0x19 1 7) <| (modSess (↑n : Nat) fun (z : Session) => { z with st := SessSt.setup }) <| base
     let has := fun p bit => (bayMask s ↑n).testBit bit = true ∧ p ∈ l
     decide (s.veh.links.length = 24 ∧ (sess s ↑n).st = SessSt.setup ∧ vehMode s ↑n ≠ 3 ∧ ¬has Protocol.iso20 0 ∧ ¬has Protocol.iso2 1 ∧
       has Protocol.din 2)) &&
    (let n : Fin 24 := (0 : Fin 24)
     let l : List Protocol := []
     let s : State := (modSess (↑n : Nat) fun (z : Session) => { z with st := SessSt.setup }) <| base
     let has := fun p bit => (bayMask s ↑n).testBit bit = true ∧ p ∈ l
     decide (s.veh.links.length = 24 ∧ (sess s ↑n).st = SessSt.setup ∧ vehMode s ↑n ≠ 3 ∧ ¬has Protocol.iso20 0 ∧ ¬has Protocol.iso2 1 ∧
       ¬has Protocol.din 2)) &&
    (let n : Fin 24 := (0 : Fin 24)
     let l : List Protocol := []
     let s : State := (putCfg (0x3710 + (↑n : Nat)) 1 1 3) <| (modSess (↑n : Nat) fun (z : Session) => { z with st := SessSt.setup }) <|
       base
     let has := fun p bit => (bayMask s ↑n).testBit bit = true ∧ p ∈ l
     decide (s.veh.links.length = 24 ∧ (sess s ↑n).st = SessSt.setup ∧ vehMode s ↑n = 3 ∧ ¬has Protocol.iso20 0)) := by
  decide +kernel

/-- A state and operands that meet the premises of this clause of QueueCredits. -/
theorem witness_QueueCredits :
    (let l : Lane := Lane.a
     let q : Fin 128 := (0 : Fin 128)
     let e : U64 := 0
     let es : List U64 := (default : List U64)
     let s : State := (fun (y : State) => y.modLane l fun (x : LaneState) => { x with queues := upd x.queues (↑q : Nat) fun z => { z with entries := e :: es } }) <|
       base
     decide (True ∧ (nth (s.lane l).queues ↑q).entries = e :: es)) := by
  decide +kernel

/-- A state and operands that meet the premises of each of these clauses of QueuesAndFastStore. -/
theorem witness_QueuesAndFastStore_1 :
    (let l : Lane := Lane.a
     let q : Fin 128 := (0 : Fin 128)
     let s : State := (fun (y : State) => y.modLane l fun (x : LaneState) => { x with queues := upd x.queues (↑q : Nat) fun z => { z with retired := false } }) <|
       base
     decide ((nth (s.lane l).queues ↑q).retired = false ∧ 0 < (nth (s.lane l).queues ↑q).credit)) &&
    (let l : Lane := Lane.a
     let q : Fin 128 := (0 : Fin 128)
     let s : State := (fun (y : State) => y.modLane l fun (x : LaneState) => { x with queues := upd x.queues (↑q : Nat) fun z => { z with credit := 0 } }) <|
       (fun (y : State) => y.modLane l fun (x : LaneState) => { x with queues := upd x.queues (↑q : Nat) fun z => { z with retired := false } }) <|
       base
     decide (shapeB s = true ∧ (nth (s.lane l).queues ↑q).retired = false ∧ (nth (s.lane l).queues ↑q).credit = 0)) &&
    (let l : Lane := Lane.a
     let q : Fin 128 := (0 : Fin 128)
     let s : State := (fun (y : State) => y.modLane l fun (x : LaneState) => { x with queues := upd x.queues (↑q : Nat) fun z => { z with retired := true } }) <|
       base
     decide ((nth (s.lane l).queues ↑q).retired = true)) &&
    (let l : Lane := Lane.a
     let q : Fin 128 := (0 : Fin 128)
     let e : U64 := 0
     let es : List U64 := (default : List U64)
     let s : State := (fun (y : State) => y.modLane l fun (x : LaneState) => { x with queues := upd x.queues (↑q : Nat) fun z => { z with entries := e :: es } }) <|
       base
     decide ((nth (s.lane l).queues ↑q).entries = e :: es)) &&
    (let l : Lane := Lane.a
     let q : Fin 128 := (0 : Fin 128)
     let r : Nat := 0
     let p : Nat := 124
     let s : State := (fun (y : State) => y.modLane l fun (x : LaneState) => { x with queues := upd x.queues q fun (z : HwQueue) => { z with fails := [0, 0] } }) <|
       (fun (y : State) => y.modLane l fun (x : LaneState) => { x with queues := upd x.queues (↑q : Nat) fun z => { z with retired := false } }) <|
       base
     decide (shapeB s = true ∧ atShare s = true ∧ (nth (s.lane l).queues ↑q).retired = false ∧
       2 ≤ (List.filter (fun k => decide (s.clk.period < k + 1000)) (nth (s.lane l).queues ↑q).fails).length ∧
       roleServed (s.lane l) ↑q = some r ∧ spareQueue (s.lane l) = some p)) &&
    (let l : Lane := Lane.b
     let r : FsRegion := (default : FsRegion)
     let s : State := base
     decide (mayWrite s l r = false)) &&
    (let l : Lane := Lane.a
     let r : FsRegion := (default : FsRegion)
     let fails : Bool := true
     let s : State := base
     decide (mayWrite s l r = true ∧ (fails = true → 0 < s.fs.rows))) := by
  decide +kernel

/-- A state and operands that meet the premises of this clause of QueuesAndFastStore. -/
theorem witness_QueuesAndFastStore_2 :
    (let l : Lane := Lane.a
     let r : FsRegion := (default : FsRegion)
     let s : State := (fun (z : State) => { z with fs.rows := 0 }) <| base
     decide (mayWrite s l r = true ∧ s.fs.rows = 0)) := by
  decide +kernel

/-- A state and operands that meet the premises of each of these clauses of RailCommands. -/
theorem witness_RailCommands_1 :
    (let s : State := base
     decide (s.rails.out.contains Rail.vio = false)) &&
    (let s : State := (fun (z : State) => { z with rails.out := [.vio] }) <| base
     decide (s.rails.out.contains Rail.vio = true)) &&
    (let s : State := (fun (z : State) => { z with rails.out := [Rail.vbk] }) <| base
     decide (s.rails.out.contains Rail.vbk = true)) &&
    (let r : Rail := .vcoreA
     let b : Nat := 0
     let s : State := base
     decide (railBit r = some b ∧ s.rails.out.contains Rail.vbk = false)) &&
    (let l : Lane := Lane.a
     let r : Rail := .vcoreA
     let s : State := base
     decide (railLane r = some l)) &&
    (let r : Rail := .vcom
     let s : State := base
     decide ((r = Rail.vcom ∨ r = Rail.vser ∨ r = Rail.vio) ∧ s.modes.mode ≠ Mode.safe ∧ s.modes.mode ≠ Mode.boot ∧
       s.modes.mode ≠ Mode.backup)) &&
    (let s : State := base
     decide (s.jct.lost = false)) := by
  decide +kernel

/-- A state and operands that meet the premises of each of these clauses of RailCommands. -/
theorem witness_RailCommands_2 :
    (let s : State := (fun (z : State) => { z with jct.lost := true }) <| base
     decide (s.jct.lost = true)) &&
    (let r : Rail := .vcoreA
     let s : State := base
     decide (s.rails.out.contains r = false)) &&
    (let r : Rail := .vcoreA
     let l : Lane := Lane.a
     let s : State := (fun (z : State) => { z with rails.out := [r] }) <| base
     decide (s.rails.out.contains r = true ∧ s.rails.ringHeld = false ∧ railLane r = some l ∧
       (∀ q ∈ s.rails.out, q ≠ r → railLane q ≠ some l))) &&
    (let r : Rail := .vcoreA
     let s : State := (fun (z : State) => { z with rails.ringHeld := true }) <| (fun (z : State) => { z with rails.out := [r] }) <| base
     decide (s.rails.out.contains r = true ∧ s.rails.ringHeld = true ∧ s.modes.mode ≠ Mode.backup ∧
       (∀ q ∈ s.rails.out, q ≠ r → groupRails.contains q = false))) &&
    (let r : Rail := .vcoreA
     let s : State := base
     decide (r ≠ Rail.vbk)) &&
    (let s : State := base
     decide (s.modes.mode ≠ Mode.boot ∧ s.modes.mode ≠ Mode.backup ∧ (activeLane s).isSome = true)) := by
  decide +kernel

/-- A state and operands that meet the premises of each of these clauses of RecorderCommands. -/
theorem witness_RecorderCommands_1 :
    (let l : Lane := Lane.a
     let s : State := (fun (y : State) => y.modLane l fun (z : LaneState) => { z with evq := [] }) <| base
     decide ((s.lane l).evq = [])) &&
    (let l : Lane := Lane.a
     let e : EventReq := { (default : EventReq) with kind := .finalFailure }
     let es : List EventReq := (default : List EventReq)
     let s : State := (putBytes 0x2320 0 dropReel) <| (putBytes 0x2320 0 dropReel) <|
       (fun (y : State) => y.modLane l fun (z : LaneState) => { z with evq := e :: es }) <| base
     decide ((s.lane l).evq = e :: es ∧
       filterEvent (eventGroup e.kind) (BitVec.toNat (eventNumber e)) (eventSev e) (filterRules s) = FilterOut.drop)) &&
    (let l : Lane := Lane.a
     let e : EventReq := { (default : EventReq) with kind := .recorderClear }
     let es : List EventReq := (default : List EventReq)
     let sev : Nat := 0
     let s : State := (fun (y : State) => y.modLane l fun (z : LaneState) => { z with recd.ring := [] }) <|
       (fun (y : State) => y.modLane l fun (z : LaneState) => { z with evq := e :: es }) <| base
     decide ((s.lane l).evq = e :: es ∧
       filterEvent (eventGroup e.kind) (BitVec.toNat (eventNumber e)) (eventSev e) (filterRules s) = FilterOut.keep sev ∧
       (s.lane l).recd.ring = [])) &&
    (let l : Lane := Lane.a
     let e : EventReq := { (default : EventReq) with kind := .recorderClear }
     let es : List EventReq := (default : List EventReq)
     let sev : Nat := 0
     let v : EventRec := { (default : EventRec) with code := 0x1001, source := eventSource .a 0 }
     let r : List EventRec := []
     let s : State := (fun (y : State) => y.modLane l fun (z : LaneState) => { z with recd.ring := r ++ [v] }) <|
       (fun (y : State) => y.modLane l fun (z : LaneState) => { z with evq := e :: es }) <| base
     decide ((s.lane l).evq = e :: es ∧
       filterEvent (eventGroup e.kind) (BitVec.toNat (eventNumber e)) (eventSev e) (filterRules s) = FilterOut.keep sev ∧
       (s.lane l).recd.ring = r ++ [v] ∧ v.code = eventCode sev (eventGroup e.kind) (BitVec.toNat (eventNumber e)) ∧
       v.source = eventSource l e.inst ∧ v.data = e.data ∧ v.rep ≠ 65535)) &&
    (let s : State := base
     decide (nandWorks s = true)) &&
    (let s : State := (fun (z : State) => { z with nand.st := 3 }) <| base
     decide (nandWorks s = false)) &&
    (let s : State := base
     decide (writable s = true ∧ (activeLane s).isSome = true)) := by
  decide +kernel

/-- A state and operands that meet the premises of this clause of RecorderCommands. -/
theorem witness_RecorderCommands_2 :
    (let v : U8 := 0
     let s : State := base
     decide ((activeLane s).isSome = true ∧ (v = 0 ∨ 3 < BitVec.toNat v))) := by
  decide +kernel

/-- A state and operands that meet the premises of each of these clauses of ResetAndPowerFail. -/
theorem witness_ResetAndPowerFail_1 :
    (let n : Nat := 0
     let s : State := base
     decide (n < 10)) &&
    (let n : Nat := 10
     let s : State := base
     decide (10 ≤ n ∧ s.modes.mode ≠ Mode.backup)) &&
    (let s : State := (fun (z : State) => { z with modes.mode := Mode.backup }) <| base
     decide (s.modes.mode = Mode.backup)) &&
    (let s : State := (fun (z : State) => { z with rails.inReset := true }) <| base
     decide (s.rails.inReset = true ∧ (∀ r ∈ s.rails.out, r = Rail.vbk ∨ r = Rail.vmet))) &&
    (let r : Rail := .vcoreA
     let s : State := (fun (z : State) => { z with rails.out := [r] }) <| base
     decide (s.modes.mode ≠ Mode.backup ∧ r ∈ s.rails.out ∧ r ≠ Rail.vbk ∧ r ≠ Rail.vmet)) &&
    (let s : State := (fun (z : State) => { z with rails.inReset := true }) <| (fun (z : State) => { z with modes.mode := Mode.backup }) <|
       base
     decide (s.modes.mode = Mode.backup ∧ s.rails.inReset = true)) &&
    (let s : State := (fun (z : State) => { z with rails.out := [] }) <| (fun (z : State) => { z with bk.pfActive := true }) <| base
     decide (s.bk.pfActive = true ∧ s.rails.out = [])) := by
  decide +kernel

/-- A state and operands that meet the premises of each of these clauses of ResetAndPowerFail. -/
theorem witness_ResetAndPowerFail_2 :
    (let s : State := base
     decide ((s.rails.out ≠ [] ∨ s.bk.pfActive = false))) &&
    (let s : State := (fun (z : State) => { z with modes.safeCause := 4 }) <| (fun (z : State) => { z with modes.mode := Mode.safe }) <|
       base
     decide (s.modes.mode = Mode.safe ∧ s.modes.safeCause = 4 ∧ s.bk.pfActive = false)) &&
    (let s : State := base
     decide ((s.modes.mode ≠ Mode.safe ∨ s.modes.safeCause ≠ 4 ∨ s.bk.pfActive = true))) := by
  decide +kernel

/-- A state and operands that meet the premises of each of these clauses of ResetState. -/
theorem witness_ResetState :
    (let t : Nat := 0
     decide (t < 10)) &&
    (let q : Nat := 0
     decide (q < 128)) &&
    (let n : Nat := 0
     decide (n < 24)) := by
  decide +kernel

/-- A state and operands that meet the premises of each of these clauses of ResynchronisationAndSelfTests. -/
theorem witness_ResynchronisationAndSelfTests_1 :
    (let s : State := base
     decide (joiner s = none)) &&
    (let l : Lane := Lane.b
     let s : State := (onJ l fun (z : JLane) => { z with role := .shadowing }) <| (onJ l fun (z : JLane) => { z with health := 0x20000000 }) <|
       (onJ l fun (z : JLane) => { z with beats := true }) <| base
     decide (joiner s = some l ∧ junctionRuns s = true ∧ s.jct.cross = none)) &&
    (let s : State := base
     decide (joining s = none)) &&
    (let l : Lane := Lane.a
     let q : Nat := 40
     let s : State := (fun (z : State) => { z with clk.period := (q - 40) }) <| (onJ l fun (z : JLane) => { z with join := some q }) <| base
     decide (joining s = some (l, q) ∧ s.clk.period + 40 = q ∧ (activeLane s).isSome = true)) &&
    (let l : Lane := Lane.a
     let q : Nat := 1
     let s : State := (onJ l fun (z : JLane) => { z with join := some q }) <| base
     decide (joining s = some (l, q) ∧ (activeLane s).isSome = true ∧ s.clk.period < q)) &&
    (let l : Lane := Lane.a
     let q : Nat := 0
     let s : State := (onJ l fun (z : JLane) => { z with joined := false }) <| (onJ l fun (z : JLane) => { z with join := some q }) <| base
     decide (joining s = some (l, q) ∧ (activeLane s).isSome = true ∧ q ≤ s.clk.period ∧ (s.jct.lane l).joined = false ∧
       ((s.jct.lane l).captured = false ∨ s.jct.cross ≠ none))) &&
    (let l : Lane := Lane.a
     let q : Nat := 0
     let s : State := (onJ l fun (z : JLane) => { z with captured := true }) <| (onJ l fun (z : JLane) => { z with joined := false }) <|
       (onJ l fun (z : JLane) => { z with join := some q }) <| base
     decide (joining s = some (l, q) ∧ (activeLane s).isSome = true ∧ q ≤ s.clk.period ∧ (s.jct.lane l).joined = false ∧
       (s.jct.lane l).captured = true ∧ s.jct.cross = none ∧ s.jct.lost = false)) := by
  decide +kernel

/-- A state and operands that meet the premises of each of these clauses of ResynchronisationAndSelfTests. -/
theorem witness_ResynchronisationAndSelfTests_2 :
    (let s : State := (fun (z : State) => { z with jct.lost := true }) <| base
     decide (junctionRuns s = false)) &&
    (let s : State := base
     decide (resyncDone s Lane.a = false ∧ resyncDone s Lane.b = false)) &&
    (let l : Lane := Lane.a
     let s : State := (onJ l fun (z : JLane) => { z with role := .shadowing }) <| (onJ l fun (z : JLane) => { z with join := some 0 }) <|
       (onJ l fun (z : JLane) => { z with joined := true }) <| (onJ l fun (z : JLane) => { z with joinMatches := 1000 }) <|
       (fun (z : State) => { z with clk.period := 1001 }) <| base
     decide (junctionRuns s = true ∧ resyncDone s l = true ∧ resyncDone s l.other = false)) &&
    (let l : Lane := Lane.a
     let s : State := (onJ l fun (z : JLane) => { z with role := .failed }) <| base
     decide (marches s l = false)) &&
    (let l : Lane := Lane.a
     let s : State := base
     decide (marches s l = true ∧ (s.lane l).ctl.marchPos < 528383)) &&
    (let l : Lane := Lane.a
     let n : Fin 64 := (0 : Fin 64)
     let s : State := (putCfg (0x3610 + (↑n : Nat)) 1 1 0) <| base
     decide (computing s l = true ∧ linkType s ↑n = 0)) &&
    (let s : State := (fun (z : State) => { z with jct.lost := true }) <| base
     decide (s.jct.lost = true ∧ s.modes.mode ≠ Mode.boot ∧ s.modes.mode ≠ Mode.backup ∧ Rail.vjct ∉ s.rails.out)) := by
  decide +kernel

/-- A state and operands that meet the premises of each of these clauses of SafeSequence. -/
theorem witness_SafeSequence_1 :
    (let c : U8 := 0
     let s : State := base
     decide (safeCauseHolds s (BitVec.toNat c) = false)) &&
    (let c : U8 := 6
     let s : State := (fun (z : State) => { z with rails.out := [.vcom] }) <| base
     decide (safeCauseHolds s (BitVec.toNat c) = true ∧ s.modes.mode ≠ Mode.safe ∧ s.modes.mode ≠ Mode.boot ∧ s.modes.mode ≠ Mode.backup)) &&
    (let c : U8 := 1
     let s : State := (inMode .safe) <| base
     decide ((s.modes.mode = Mode.safe ∧ c ≠ 5 ∨ s.modes.mode = Mode.boot ∨ s.modes.mode = Mode.backup))) &&
    (let s : State := (onJ .b fun (z : JLane) => { z with role := .failed }) <| (onJ .a fun (z : JLane) => { z with role := .failed }) <|
       (fun (z : State) => { z with modes.mode := Mode.safe }) <| base
     decide (safeCauseHolds s 5 = true ∧ s.modes.mode = Mode.safe ∧ s.jct.lost = false)) &&
    (let q : SafeSeq := ⟨1, 0, 0⟩
     let s : State := (fun (z : State) => { z with clk.period := (q.k + q.t + 1) }) <|
       (fun (z : State) => { z with modes.mode := Mode.safe }) <| (fun (z : State) => { z with modes.safe := some q }) <| base
     decide (shapeB s = true ∧ s.modes.safe = some q ∧ s.modes.mode = Mode.safe ∧ q.k + q.t + 1 ≤ s.clk.period)) &&
    (let s : State := base
     decide (s.modes.safe = none)) &&
    (let q : SafeSeq := ⟨1, 0, 0⟩
     let s : State := (fun (z : State) => { z with modes.safe := some q }) <| base
     decide (s.modes.safe = some q ∧ s.clk.period < q.k + q.t + 1)) := by
  decide +kernel

/-- A state and operands that meet the premises of each of these clauses of SafeSequence. -/
theorem witness_SafeSequence_2 :
    (let p : Nat := 0
     let s : State := (fun (z : State) => { z with jct.safeDue := some p }) <| base
     decide (s.jct.safeDue = some p ∧ p ≤ s.clk.period ∧ s.jct.lost = false ∧ s.modes.resetAfter = false)) &&
    (let p : Nat := 0
     let s : State := (fun (z : State) => { z with modes.resetAfter := true }) <| (fun (z : State) => { z with jct.safeDue := some p }) <|
       base
     decide (s.jct.safeDue = some p ∧ p ≤ s.clk.period ∧ s.jct.lost = false ∧ s.modes.resetAfter = true)) &&
    (let s : State := base
     decide ((s.jct.safeDue = none ∨ s.jct.lost = true))) &&
    (let s : State := base
     decide ((activeLane s).isSome = true ∧ s.modes.mode ≠ Mode.boot ∧ s.modes.mode ≠ Mode.backup)) := by
  decide +kernel

/-- A state and operands that meet the premises of each of these clauses of SectionMessagesAtLane. -/
theorem witness_SectionMessagesAtLane :
    (let l : Lane := Lane.a
     let n : U64 := 0
     let s : State := base
     decide (7 ≤ (s.lane l).ctl.bootStep ∧ BitVec.toNat n % cfgN s 16688 3 = 0)) &&
    (let n : U64 := 1
     let s : State := base
     decide (BitVec.toNat n % cfgN s 16688 3 ≠ 0)) &&
    (let l : Lane := Lane.a
     let k : Snapshot := { (default : Snapshot) with blocks := (List.range 292).map fun b => (b, []) }
     let s : State := (fun (y : State) => y.modLane l fun (z : LaneState) => { z with reading := some k }) <| base
     decide ((s.lane l).reading = some k ∧ (∀ b : Nat, b < 292 → (k.blocks.any fun p => p.1 == b) = true))) &&
    (let l : Lane := Lane.a
     let s : State := base
     decide (7 ≤ (s.lane l).ctl.bootStep)) &&
    (let l : Lane := Lane.a
     let s : State := base
     decide (7 ≤ (s.lane l).ctl.bootStep ∧ activeLane s = some l ∧ nandWorks s = true)) &&
    (let l : Lane := Lane.b
     let s : State := base
     decide (7 ≤ (s.lane l).ctl.bootStep ∧ activeLane s ≠ some l)) := by
  decide +kernel

/-- A state and operands that meet the premises of each of these clauses of ServicePort. -/
theorem witness_ServicePort_1 :
    (let s : State := (fun (z : State) => { z with upd.attached := false }) <| base
     decide (s.upd.attached = false)) &&
    (let c : ServiceCmd := default
     let n : Nat := 2
     let s : State := base
     decide (portServes s = true ∧ n ≠ 0 ∧ openStatus s c (s.upd.buf ↑c.buffer) = n)) &&
    (let c : ServiceCmd := default
     let n : Nat := 2
     let s : State := base
     decide (portServes s = true ∧ n ≠ 0 ∧ dataStatus s c (s.upd.buf ↑c.buffer) = n)) &&
    (let c : ServiceCmd := default
     let n : Nat := 2
     let s : State := base
     decide (portServes s = true ∧ n ≠ 0 ∧ (activeLane s).isSome = true ∧ closeStatus s c (s.upd.buf ↑c.buffer) = n)) &&
    (let c : ServiceCmd := ⟨0, 0, 256, 0, [], true⟩
     let s : State := base
     decide (portServes s = true ∧ (s.upd.buf ↑c.buffer).receiving = false ∧ bufferNamed s ↑c.buffer = false ∧ 256 ≤ BitVec.toNat c.length ∧
       BitVec.toNat c.length ≤ 67108864 ∧ c.nandOk = true)) &&
    (let c : ServiceCmd := default
     let s : State := (fun (z : State) => { z with upd.buf0.receiving := true }) <| base
     decide (portServes s = true ∧ ((s.upd.buf ↑c.buffer).receiving = true ∨ bufferNamed s ↑c.buffer = true))) &&
    (let c : ServiceCmd := ⟨0, 0, 1, crc32 [7], [7], true⟩
     let s : State := (fun (z : State) => { z with upd.buf0.receiving := true }) <| (fun (z : State) => { z with upd.buf0.length := 256 }) <|
       base
     decide (portServes s = true ∧ dataStatus s c (s.upd.buf ↑c.buffer) = 0)) := by
  decide +kernel

/-- A state and operands that meet the premises of each of these clauses of ServicePort. -/
theorem witness_ServicePort_2 :
    (let c : ServiceCmd := ⟨0, 0, 1, 5, [7], true⟩
     let s : State := (fun (z : State) => { z with upd.buf0.length := 256 }) <| base
     decide (portServes s = true ∧ bufferNamed s ↑c.buffer = false ∧ 1 ≤ BitVec.toNat c.length ∧ BitVec.toNat c.length ≤ 65536 ∧
       c.data.length = BitVec.toNat c.length ∧ BitVec.toNat c.offset + BitVec.toNat c.length ≤ (s.upd.buf ↑c.buffer).length ∧
       crc32 c.data ≠ c.crc)) &&
    (let c : ServiceCmd := ⟨0, 0, 256, 0, [], true⟩
     let s : State := (fun (z : State) => { z with upd.buf0.receiving := true }) <| base
     decide (portServes s = true ∧ (activeLane s).isSome = true ∧ closeStatus s c (s.upd.buf ↑c.buffer) = 0)) &&
    (let c : ServiceCmd := default
     let s : State := (fun (z : State) => { z with upd.seqSource := some 0 }) <| (fun (z : State) => { z with upd.st := .firstLane }) <|
       base
     decide (portServes s = true ∧ bufferNamed s ↑c.buffer = true)) := by
  decide +kernel

/-- A state and operands that meet the premises of each of these clauses of SetCommands. -/
theorem witness_SetCommands_1 :
    (let s : State := base
     decide (writable s = true ∧ (activeLane s).isSome = true ∧ s.sets.st = ShadowSt.opened)) &&
    (let s : State := (fun (z : State) => { z with sets.st := .committed }) <| base
     decide (writable s = true ∧ (activeLane s).isSome = true ∧ s.sets.st ≠ ShadowSt.opened)) &&
    (let s : State := base
     decide (writable s = true ∧ (activeLane s).isSome = true ∧ s.sets.st ≠ ShadowSt.committed)) &&
    (let s : State := (fun (z : State) => { z with sets.st := ShadowSt.committed }) <| base
     decide (writable s = true ∧ (activeLane s).isSome = true ∧ s.sets.st = ShadowSt.committed ∧ seqRunning s = false)) &&
    (let s : State := base
     decide (writable s = true ∧ (activeLane s).isSome = true ∧ (s.sets.st = ShadowSt.opened ∨ s.sets.st = ShadowSt.committed))) &&
    (let s : State := (fun (z : State) => { z with sets.st := .copying }) <| base
     decide (writable s = true ∧ (activeLane s).isSome = true ∧ (s.sets.st = ShadowSt.swapPending ∨ s.sets.st = ShadowSt.copying))) &&
    (let s : State := (fun (z : State) => { z with sets.checking := true }) <| base
     decide (s.sets.checking = true ∧ s.sets.st = ShadowSt.opened ∧ (activeLane s).isSome = true ∧
       commitFail { pending := s.pending, free := s.free, clk := s.clk, modes := s.modes, rails := s.rails, bk := s.bk, jct := s.jct, laneA := s.laneA, laneB := s.laneB, met := s.met, sets := have __src := s.sets; { active := __src.active, shadow := __src.shadow, live := __src.live, unpublished := __src.unpublished, published := __src.published, st := __src.st, expected := __src.expected, computed := __src.computed, result := __src.result, failing := __src.failing, schema := __src.schema, swaps := __src.swaps, lastSwap := __src.lastSwap, epoch := __src.epoch, flags := __src.flags, nPublished := __src.nPublished, nDiscarded := __src.nDiscarded, checking := false, swapReq := __src.swapReq, swapAt := __src.swapAt, swapTries := __src.swapTries, activeOk := __src.activeOk, shadowOk := __src.shadowOk, region := __src.region, pointers := __src.pointers, gens := __src.gens, reelCode := __src.reelCode, reelPos := __src.reelPos }, comm := s.comm, veh := s.veh, chans := s.chans, site := s.site, tri := s.tri, life := s.life, fs := s.fs, nand := s.nand, upd := s.upd, recs := s.recs, taps := s.taps } = none)) := by
  decide +kernel

/-- A state and operands that meet the premises of each of these clauses of SetCommands. -/
theorem witness_SetCommands_2 :
    (let s : State := (fun (z : State) => { z with sets.computed := 1 }) <| (fun (z : State) => { z with sets.checking := true }) <| base
     let c : Nat := 1
     let o : Nat := objKey 0x2200 3
     decide (s.sets.checking = true ∧ s.sets.st = ShadowSt.opened ∧ (activeLane s).isSome = true ∧
       commitFail { pending := s.pending, free := s.free, clk := s.clk, modes := s.modes, rails := s.rails, bk := s.bk, jct := s.jct, laneA := s.laneA, laneB := s.laneB, met := s.met, sets := have __src := s.sets; { active := __src.active, shadow := __src.shadow, live := __src.live, unpublished := __src.unpublished, published := __src.published, st := __src.st, expected := __src.expected, computed := __src.computed, result := __src.result, failing := __src.failing, schema := __src.schema, swaps := __src.swaps, lastSwap := __src.lastSwap, epoch := __src.epoch, flags := __src.flags, nPublished := __src.nPublished, nDiscarded := __src.nDiscarded, checking := false, swapReq := __src.swapReq, swapAt := __src.swapAt, swapTries := __src.swapTries, activeOk := __src.activeOk, shadowOk := __src.shadowOk, region := __src.region, pointers := __src.pointers, gens := __src.gens, reelCode := __src.reelCode, reelPos := __src.reelPos }, comm := s.comm, veh := s.veh, chans := s.chans, site := s.site, tri := s.tri, life := s.life, fs := s.fs, nand := s.nand, upd := s.upd, recs := s.recs, taps := s.taps } = some (c, o))) &&
    (let s : State := base
     decide (s.sets.checking = false)) &&
    (let s : State := (fun (z : State) => { z with clk.period := 41 }) <| base
     decide (atShare s = false)) &&
    (let k : Nat := 0
     let v : List Byte := []
     let n : Nat := 0
     let s : State := (fun (z : State) => { z with sets.unpublished := [(k, v, n)] }) <| base
     decide (atShare s = true ∧ s.sets.unpublished = [(k, v, n)] ∧ n ≤ s.clk.period)) &&
    (let s : State := base
     decide ((s.sets.swapReq = false ∨ atShare s = false))) &&
    (let b : Nat := 1
     let l : Lane := Lane.b
     let s : State := (fun (z : State) => { z with sets.st := ShadowSt.swapPending }) <|
       (fun (z : State) => { z with sets.swapAt := some b }) <| base
     decide (s.sets.swapAt = some b ∧ s.sets.st = ShadowSt.swapPending ∧ s.clk.period < b ∧ standbyLane s = some l)) &&
    (let b : Nat := 0
     let s : State := (fun (z : State) => { z with sets.swapTries := 7 }) <| (fun (z : State) => { z with sets.st := ShadowSt.swapPending }) <|
       (fun (z : State) => { z with sets.swapAt := some b }) <| base
     decide (s.sets.swapAt = some b ∧ s.sets.st = ShadowSt.swapPending ∧ b ≤ s.clk.period ∧ swapReadyNow s = false ∧ 7 ≤ s.sets.swapTries)) := by
  decide +kernel

/-- A state and operands that meet the premises of each of these clauses of SetCommands. -/
theorem witness_SetCommands_3 :
    (let b : Nat := 0
     let s : State := (fun (z : State) => { z with sets.st := ShadowSt.swapPending }) <|
       (fun (z : State) => { z with sets.swapAt := some b }) <| base
     decide (s.sets.swapAt = some b ∧ s.sets.st = ShadowSt.swapPending ∧ b ≤ s.clk.period ∧ swapReadyNow s = false ∧
       (activeLane s).isSome = true ∧ s.sets.swapTries < 7)) &&
    (let s : State := base
     decide (flipDue s = false ∧ (swapReached s = false ∨ swapReadyNow s = true ∨ activeLane s = none))) &&
    (let s : State := (fun (z : State) => { z with sets.st := .swapPending }) <| (fun (z : State) => { z with sets.swapAt := some 0 }) <|
       (fun (y : State) => y.modLane .b fun (z : LaneState) => { z with ctl.swapReady := true }) <| base
     decide (flipDue s = true)) &&
    (let s : State := (fun (z : State) => { z with sets.st := ShadowSt.copying }) <| base
     decide (s.sets.st = ShadowSt.copying ∧ (activeLane s).isSome = true)) &&
    (let s : State := base
     decide (s.sets.st ≠ ShadowSt.copying)) &&
    (let s : State := base
     decide (safeWritable s = true ∧ (activeLane s).isSome = true)) := by
  decide +kernel

/-- A state and operands that meet the premises of each of these clauses of ShareCommands. -/
theorem witness_ShareCommands :
    (let l : Lane := Lane.a
     let s : State := base
     decide (computing s l = true ∧ atShare s = true ∧ shareMode s = true)) &&
    (let l : Lane := Lane.a
     let s : State := (onJ l fun (z : JLane) => { z with role := .failed }) <| base
     decide ((computing s l = false ∨ atShare s = false ∨ shareMode s = false))) &&
    (let l : Lane := Lane.a
     let r : ShareRun := default
     let s : State := (fun (y : State) => y.modLane l fun (z : LaneState) => { z with share.pending := [r] }) <|
       (fun (z : State) => { z with clk.period := 8 }) <| base
     decide (computing s l = true ∧
       List.find? (fun r => !r.half && (r.b + if s.clk.long = true then 4 else 8) == s.clk.period) (s.lane l).share.pending = some r)) &&
    (let l : Lane := Lane.a
     let r : ShareRun := { (default : ShareRun) with half := true }
     let s : State := (fun (y : State) => y.modLane l fun (z : LaneState) => { z with share.pending := [r] }) <|
       (fun (z : State) => { z with clk.period := 10 }) <| base
     decide (computing s l = true ∧
       List.find? (fun r => r.half && (r.b + if s.clk.long = true then 4 else 8) + 2 == s.clk.period) (s.lane l).share.pending = some r)) &&
    (let l : Lane := Lane.a
     let i : Fin 8 := (0 : Fin 8)
     let s : State := (fun (y : State) => y.modLane l fun (x : LaneState) => { x with share.strs := upd x.share.strs i fun (z : StrState) => { z with cont := true, idleSince := some 0 } }) <|
       base
     decide ((nth (s.lane l).share.strs ↑i).cont = true ∧ (nth (s.lane l).share.strs ↑i).idleSince.isSome = true ∧
       s.modes.mode ≠ Mode.commission)) := by
  decide +kernel

/-- A state and operands that meet the premises of each of these clauses of SiteBusFrames. -/
theorem witness_SiteBusFrames_1 :
    (let c : Fin 4 := (0 : Fin 4)
     let s : State := (inMode .boot) <| base
     decide ((awake s = false ∨ (chanOf s ↑c).hears = false))) &&
    (let c : Fin 4 := (0 : Fin 4)
     let f : CanFrame := { (default : CanFrame) with remote := true }
     let s : State := base
     decide (s.chans.length = 4 ∧ awake s = true ∧ (chanOf s ↑c).hears = true ∧ f.remote = true)) &&
    (let c : Fin 4 := (0 : Fin 4)
     let f : CanFrame := default
     let s : State := (modChan 1 fun (z : Channel) => { z with history := [(0, f)] }) <| (putCfg 0x3800 1 1 1) <| base
     decide (s.chans.length = 4 ∧ awake s = true ∧ (chanOf s ↑c).hears = true ∧ f.remote = false ∧ isDuplicate s (↑c) f = true)) &&
    (let c : Fin 4 := (0 : Fin 4)
     let f : CanFrame := default
     let s : State := base
     decide (s.chans.length = 4 ∧ awake s = true ∧ (chanOf s ↑c).hears = true ∧ f.remote = false ∧ isDuplicate s (↑c) f = false ∧
       isFedIdent s f = false ∧ shortRpdo s (↑c) f = false ∧ serviceTakes s (↑c) f = true ∧ (chanOf s ↑c).rx.length = 2 ∧
       (nth (chanOf s ↑c).rx 0).length < 64)) &&
    (let c : Fin 4 := (0 : Fin 4)
     let f : CanFrame := default
     let s : State := (modChan c fun (z : Channel) => { z with rx := [List.replicate 64 default, []] }) <| base
     decide (s.chans.length = 4 ∧ awake s = true ∧ (chanOf s ↑c).hears = true ∧ f.remote = false ∧ isDuplicate s (↑c) f = false ∧
       isFedIdent s f = false ∧ shortRpdo s (↑c) f = false ∧ serviceTakes s (↑c) f = true ∧ 64 ≤ (nth (chanOf s ↑c).rx 0).length)) &&
    (let c : Fin 4 := (0 : Fin 4)
     let f : CanFrame := { (default : CanFrame) with ident := 0x100 }
     let s : State := base
     decide (s.chans.length = 4 ∧ awake s = true ∧ (chanOf s ↑c).hears = true ∧ f.remote = false ∧ isDuplicate s (↑c) f = false ∧
       isFedIdent s f = false ∧ shortRpdo s (↑c) f = false ∧ serviceTakes s (↑c) f = false ∧ userMatch s (↑c) f = none)) &&
    (let c : Fin 4 := (0 : Fin 4)
     let s : State := base
     decide ((drives s = false ∨ nextToSend s ↑c = none))) := by
  decide +kernel

/-- A state and operands that meet the premises of each of these clauses of SiteBusFrames. -/
theorem witness_SiteBusFrames_2 :
    (let c : Fin 4 := (0 : Fin 4)
     let q : Nat := 0
     let f : CanFrame := default
     let s : State := (modChan c fun (z : Channel) => { z with tx := [[f], [], [], []] }) <| base
     decide (s.chans.length = 4 ∧ awake s = true ∧ drives s = true ∧ (chanOf s ↑c).talks = true ∧ nextToSend s ↑c = some (q, f) ∧
       (chanOf s ↑c).cancelHeld ≠ some q)) &&
    (let c : Fin 4 := (0 : Fin 4)
     let q : Nat := 0
     let f : CanFrame := default
     let s : State := (modChan (↑c : Nat) fun (z : Channel) => { z with cancelHeld := some q }) <|
       (modChan c fun (z : Channel) => { z with tx := [[f], [], [], []] }) <| base
     decide (s.chans.length = 4 ∧ awake s = true ∧ drives s = true ∧ (chanOf s ↑c).talks = true ∧ nextToSend s ↑c = some (q, f) ∧
       (chanOf s ↑c).cancelHeld = some q)) &&
    (let c : Fin 4 := (0 : Fin 4)
     let q : Fin 4 := (0 : Fin 4)
     let p : Nat := 0
     let s : State := base
     decide (s.chans.length = 4 ∧ (nth (chanOf s ↑c).tx ↑q).length ≤ p)) &&
    (let c : Fin 4 := (0 : Fin 4)
     let q : Fin 4 := (0 : Fin 4)
     let p : Nat := 0
     let s : State := (modChan c fun (z : Channel) => { z with tx := [[default], [], [], []] }) <| base
     decide (s.chans.length = 4 ∧ p < (nth (chanOf s ↑c).tx ↑q).length)) &&
    (let c : Fin 4 := (0 : Fin 4)
     let q : Fin 4 := (0 : Fin 4)
     let s : State := (modChan c fun (z : Channel) => { z with tx := [[default], [], [], []] }) <| base
     decide (s.chans.length = 4 ∧ 0 < (nth (chanOf s ↑c).tx ↑q).length)) &&
    (let c : Fin 4 := (0 : Fin 4)
     let s : State := base
     decide (((chanOf s ↑c).talks = false ∨ (chanOf s ↑c).tec ≤ 255))) &&
    (let c : Fin 4 := (0 : Fin 4)
     let s : State := (modChan c fun (z : Channel) => { z with tec := 256 }) <| base
     decide (s.chans.length = 4 ∧ (chanOf s ↑c).talks = true ∧ 255 < (chanOf s ↑c).tec)) := by
  decide +kernel

/-- A state and operands that meet the premises of each of these clauses of SiteBusFrames. -/
theorem witness_SiteBusFrames_3 :
    (let c : Fin 4 := (0 : Fin 4)
     let s : State := (modChan (↑c : Nat) fun (z : Channel) => { z with st := ChanSt.busOff }) <| base
     decide (s.chans.length = 4 ∧ (chanOf s ↑c).st = ChanSt.busOff)) &&
    (let c : Fin 4 := (0 : Fin 4)
     let s : State := base
     decide (s.chans.length = 4 ∧ (chanOf s ↑c).st ≠ ChanSt.busOff)) &&
    (let c : Fin 4 := (0 : Fin 4)
     let s : State := (modChan (↑c : Nat) fun (z : Channel) => { z with st := ChanSt.latchedOff }) <| base
     decide (s.chans.length = 4 ∧ writable s = true ∧ (activeLane s).isSome = true ∧ (chanOf s ↑c).st = ChanSt.latchedOff)) &&
    (let c : Fin 4 := (0 : Fin 4)
     let s : State := base
     decide (s.chans.length = 4 ∧ writable s = true ∧ (activeLane s).isSome = true ∧ (chanOf s ↑c).st ≠ ChanSt.latchedOff)) &&
    (let c : Fin 4 := (0 : Fin 4)
     let s : State := base
     decide (s.chans.length = 4 ∧ (activeLane s).isSome = true ∧ maySleep s ↑c = true ∧ (chanOf s ↑c).st ≠ ChanSt.off)) &&
    (let c : Fin 4 := (0 : Fin 4)
     let s : State := (inMode .run) <| base
     decide (s.chans.length = 4 ∧ maySleep s ↑c = false)) &&
    (let c : Fin 4 := (0 : Fin 4)
     let s : State := (modChan (↑c : Nat) fun (z : Channel) => { z with st := ChanSt.sleep }) <| base
     decide (s.chans.length = 4 ∧ writable s = true ∧ (activeLane s).isSome = true ∧ (chanOf s ↑c).st = ChanSt.sleep)) := by
  decide +kernel

/-- A state and operands that meet the premises of each of these clauses of SiteBusFrames. -/
theorem witness_SiteBusFrames_4 :
    (let c : Fin 4 := (0 : Fin 4)
     let s : State := base
     decide (s.chans.length = 4 ∧ writable s = true ∧ (activeLane s).isSome = true ∧ (chanOf s ↑c).st ≠ ChanSt.sleep)) &&
    (let c : Fin 4 := (0 : Fin 4)
     let s : State := base
     decide (s.chans.length = 4 ∧ (chanOf s ↑c).st ≠ ChanSt.sleep)) &&
    (let c : Fin 4 := (0 : Fin 4)
     let s : State := (modChan (↑c : Nat) fun (z : Channel) => { z with st := ChanSt.sleep }) <| base
     decide (s.chans.length = 4 ∧ (chanOf s ↑c).st = ChanSt.sleep ∧ awake s = true ∧ cfgN s (14352 + ↑c) 8 ≠ 1)) &&
    (let c : Fin 4 := (0 : Fin 4)
     let f : CanFrame := { (default : CanFrame) with extended := decide (cfgN base 0x3810 9 / 2 ^ 31 % 2 = 1), ident := BitVec.ofNat 29 (cfgN base 0x3810 9), dlc := BitVec.ofNat 4 (cfgN base 0x3810 0xB) }
     let s : State := (putCfg 0x3810 0xC 8 0) <| (putCfg (14352 + (↑c : Nat)) 8 (cfgBytes base (14352 + (↑c : Nat)) 8).length (1)) <|
       (modChan (↑c : Nat) fun (z : Channel) => { z with st := ChanSt.sleep }) <| base
     decide (s.chans.length = 4 ∧ (chanOf s ↑c).st = ChanSt.sleep ∧ awake s = true ∧ cfgN s (14352 + ↑c) 8 = 1 ∧ f.fd = false ∧
       f.remote = false ∧ wakeMatch s (↑c) f = true)) := by
  decide +kernel

/-- A state and operands that meet the premises of each of these clauses of SiteTimeAndSchedule. -/
theorem witness_SiteTimeAndSchedule_1 :
    (let s : State := (inMode .boot) <| base
     decide (awake s = false)) &&
    (let o : ℤ := 0
     let s : State := (fun (z : State) => { z with site.good := 15 }) <| base
     decide (awake s = true ∧ s.site.locked = false ∧ s.site.source ≠ 1 ∧ o.natAbs ≤ 1000 ∧ 15 ≤ s.site.good)) &&
    (let o : ℤ := 2000
     let s : State := base
     decide (awake s = true ∧ s.site.locked = false ∧ s.site.source ≠ 1 ∧ 1000 < o.natAbs)) &&
    (let o : ℤ := 200000
     let s : State := (fun (z : State) => { z with site.source := 1 }) <| (fun (z : State) => { z with site.locked := true }) <| base
     decide (awake s = true ∧ s.site.locked = true ∧ s.site.source = 1 ∧ 100000 < o.natAbs)) &&
    (let o : ℤ := 0
     let s : State := (fun (z : State) => { z with site.source := 1 }) <| (fun (z : State) => { z with site.locked := true }) <| base
     decide (awake s = true ∧ s.site.locked = true ∧ s.site.source = 1 ∧ o.natAbs ≤ 100000)) &&
    (let s : State := base
     decide (awake s = true)) &&
    (let s : State := base
     decide (awake s = true)) := by
  decide +kernel

/-- A state and operands that meet the premises of each of these clauses of SiteTimeAndSchedule. -/
theorem witness_SiteTimeAndSchedule_2 :
    (let s : State := (fun (z : State) => { z with site.source := 1 }) <| (fun (z : State) => { z with site.locked := true }) <| base
     decide (s.site.locked = true ∧ s.site.source = 1 ∧ 0 < cfgN s 14336 7)) &&
    (let s : State := (putCfg 14336 7 (cfgBytes base 14336 7).length (0)) <| (fun (z : State) => { z with site.locked := true }) <| base
     decide (s.site.locked = true ∧ cfgN s 14336 7 = 0)) &&
    (let s : State := base
     decide (s.site.holdover = false)) &&
    (let s : State := (fun (z : State) => { z with site.holdover := true }) <| base
     decide (s.site.holdover = true ∧ s.site.locked = false)) &&
    (let c : Fin 4 := (0 : Fin 4)
     let s : State := (fun (z : State) => { z with jct.mux := none }) <| base
     decide ((isMaster s ↑c = false ∨ drives s = false))) &&
    (let c : Fin 4 := (0 : Fin 4)
     let s : State := (putBytes (0x3810 + c) 0xF quadWord) <| base
     decide (s.chans.length = 4 ∧ awake s = true ∧ drives s = true ∧ (chanOf s ↑c).talks = true ∧ eventTriggered s ↑c = false ∧
       isMaster s ↑c = true ∧ (chanOf s ↑c).refAt ≠ some (basicCycle s ↑c) ∧ (nth (chanOf s ↑c).tx 0).length < 16 ∧
       (chanOf s ↑c).tx.length = 4)) &&
    (let c : Fin 4 := (0 : Fin 4)
     let s : State := base
     decide ((awake s = false ∨ (chanOf s ↑c).hears = false ∨ eventTriggered s ↑c = true))) := by
  decide +kernel

/-- A state and operands that meet the premises of each of these clauses of SiteTimeAndSchedule. -/
theorem witness_SiteTimeAndSchedule_3 :
    (let c : Fin 4 := (0 : Fin 4)
     let s : State := (putBytes (0x3810 + c) 0xF quadWord) <| base
     decide (s.chans.length = 4 ∧ awake s = true ∧ (chanOf s ↑c).hears = true ∧ eventTriggered s ↑c = false ∧ isMaster s ↑c = true)) &&
    (let c : Fin 4 := 2
     let m : RefMsg := { (default : RefMsg) with matrix := 9 }
     let s : State := (putBytes (0x3810 + c) 0xF quadWord) <| base
     decide (s.chans.length = 4 ∧ awake s = true ∧ (chanOf s ↑c).hears = true ∧ eventTriggered s ↑c = false ∧ isMaster s ↑c = false ∧
       (chanOf s ↑c).refAt ≠ some (basicCycle s ↑c) ∧ BitVec.toNat m.matrix ≠ qMatrix (quadImage s ↑c) % 2 ^ 16)) &&
    (let c : Fin 4 := 2
     let m : RefMsg := default
     let s : State := (putBytes (0x3810 + c) 0xF quadWord) <| base
     decide (s.chans.length = 4 ∧ awake s = true ∧ (chanOf s ↑c).hears = true ∧ eventTriggered s ↑c = false ∧ isMaster s ↑c = false ∧
       (chanOf s ↑c).refAt ≠ some (basicCycle s ↑c) ∧ BitVec.toNat m.matrix = qMatrix (quadImage s ↑c) % 2 ^ 16 ∧
       ((chanOf s ↑c).sched ≠ SchedSt.lost ∨ m.cycle = 0))) &&
    (let c : Fin 4 := (0 : Fin 4)
     let s : State := (modChan c fun (z : Channel) => { z with refAt := some 0 }) <| base
     decide (refsMissing s ↑c = false)) &&
    (let c : Fin 4 := 2
     let s : State := (putBytes (0x3810 + c) 0xF quadWord) <| base
     decide (s.chans.length = 4 ∧ eventTriggered s ↑c = false ∧ isMaster s ↑c = false ∧ (chanOf s ↑c).hears = true ∧
       refsMissing s ↑c = true)) &&
    (let c : Fin 4 := 0
     let s : State := (modChan (↑c : Nat) fun (z : Channel) => { z with window := none }) <| base
     decide ((chanOf s ↑c).window = none)) &&
    (let c : Fin 4 := 0
     let s : State := (modChan (↑c : Nat) fun (z : Channel) => { z with window := some default }) <| base
     decide (s.chans.length = 4 ∧ (chanOf s ↑c).tx.length = 4 ∧ (chanOf s ↑c).window.isSome = true)) := by
  decide +kernel

/-- A state and operands that meet the premises of each of these clauses of SiteTimeAndSchedule. -/
theorem witness_SiteTimeAndSchedule_4 :
    (let c : Fin 4 := 0
     let j : Nat := 0
     let s : State := base
     decide ((ownsCell s (↑c) j = false ∨ columnNow s ↑c ≠ j ∨ drives s = false))) &&
    (let c : Fin 4 := 0
     let j : Nat := 0
     let s : State := (fun (z : State) => { z with comm.nmt := .operational }) <| (putRw 0x1017 0 2 100) <|
       (modChan c fun (z : Channel) => { z with sched := .master }) <| (putBytes (0x3810 + c) 0xF quadWord) <| base
     let z : State := (codedFrame s c (qCode (quadImage s c) (cycleNow s c) j)).2
     let f : CanFrame := ((codedFrame s c (qCode (quadImage s c) (cycleNow s c) j)).1.toList).getD 0 default
     decide (s.chans.length = 4 ∧ awake s = true ∧ drives s = true ∧ (chanOf s ↑c).talks = true ∧ eventTriggered s ↑c = false ∧
       ((chanOf s ↑c).sched = SchedSt.master ∨ (chanOf s ↑c).sched = SchedSt.following) ∧ j < qCols (quadImage s ↑c) ∧ columnNow s ↑c = j ∧
       ownsCell s (↑c) j = true ∧ qCode (quadImage s ↑c) (cycleNow s ↑c) j ≠ 1 ∧
       codedFrame s (↑c) (qCode (quadImage s ↑c) (cycleNow s ↑c) j) = (some f, z) ∧ (nth (chanOf s ↑c).tx 0).length < 16 ∧
       (chanOf s ↑c).tx.length = 4)) := by
  decide +kernel

/-- A state and operands that meet the premises of each of these clauses of SlotsRunAndEnd. -/
theorem witness_SlotsRunAndEnd :
    (let l : Lane := Lane.a
     let t : Fin 10 := (0 : Fin 10)
     let k : Fin 16 := (0 : Fin 16)
     let i : LoopId := LoopId.bay 0
     let s : State := (fun (y : State) => y.modLane l (LaneState.modLoop i fun (z : Loop) => { z with st := .run })) <|
       (fun (y : State) => y.modLane l fun (x : LaneState) => { x with tiles := upd x.tiles (↑t : Nat) fun z => { z with relieved := false } }) <|
       (fun (y : State) => y.modLane l fun (x : LaneState) => { x with tiles := upd x.tiles (↑t : Nat) fun z => { z with role := TileRole.fast } }) <|
       (fun (y : State) => y.modLane l fun (x : LaneState) => { x with tiles := upd x.tiles t fun (z : Tile) => { z with slots := some i :: List.replicate 15 none } }) <|
       base
     decide (nth (nth (s.lane l).tiles ↑t).slots ↑k = some i ∧ isSlowLoop i = false ∧ (nth (s.lane l).tiles ↑t).role = TileRole.fast ∧
       (nth (s.lane l).tiles ↑t).relieved = false ∧ (nth (nth (s.lane l).tiles ↑t).blocks ↑k).bad = false ∧
       (((s.lane l).loop i).st = LoopSt.run ∨ ((s.lane l).loop i).st = LoopSt.start))) &&
    (let l : Lane := Lane.a
     let t : Fin 10 := (0 : Fin 10)
     let k : Fin 16 := (0 : Fin 16)
     let s : State := base
     decide (shapeB s = true ∧ nth (nth (s.lane l).tiles ↑t).slots ↑k = none)) &&
    (let l : Lane := Lane.a
     let t : Fin 10 := (0 : Fin 10)
     let r : TileRun := run0
     let i : LoopId := LoopId.bay 0
     let s : State := (fun (y : State) => y.modLane l fun (x : LaneState) => { x with tiles := upd x.tiles (↑t : Nat) fun z => { z with running := some r } }) <|
       base
     decide (shapeB s = true ∧ (nth (s.lane l).tiles ↑t).running = some r ∧ r.loop = some i ∧ r.zero = false)) &&
    (let l : Lane := Lane.a
     let t : Fin 10 := (0 : Fin 10)
     let r : TileRun := { run0 with zero := true }
     let i : LoopId := LoopId.bay 0
     let s : State := (fun (y : State) => y.modLane l fun (x : LaneState) => { x with tiles := upd x.tiles t fun (z : Tile) => { z with running := some r } }) <|
       (fun (y : State) => y.modLane l fun (x : LaneState) => { x with tiles := upd x.tiles (↑t : Nat) fun z => { z with running := some r } }) <|
       base
     decide (shapeB s = true ∧ (nth (s.lane l).tiles ↑t).running = some r ∧ r.loop = some i ∧ r.zero = true)) &&
    (let l : Lane := Lane.a
     let t : Fin 10 := (0 : Fin 10)
     let s : State := (fun (y : State) => y.modLane l fun (x : LaneState) => { x with tiles := upd x.tiles (↑t : Nat) fun z => { z with running := none } }) <|
       base
     decide ((nth (s.lane l).tiles ↑t).running = none)) &&
    (let m : TileMem := (default : TileMem)
     let s : State := base
     decide (shapeB s = true ∧ (m = TileMem.instruction ∨ m = TileMem.constant))) := by
  decide +kernel

/-- A state and operands that meet the premises of each of these clauses of TemperatureCommands. -/
theorem witness_TemperatureCommands_1 :
    (let s : State := base
     decide (s.rails.inReset = false ∧ s.modes.mode ≠ Mode.backup)) &&
    (let d : DieTemps := { (default : DieTemps) with junction := 1150 }
     let s : State := base
     decide (s.rails.inReset = false ∧ s.modes.mode ≠ Mode.backup ∧ s.modes.mode ≠ Mode.boot ∧ s.modes.mode ≠ Mode.safe ∧ s.jct.lost = false ∧
       1150 ≤ d.junction)) &&
    (let s : State := (fun (z : State) => { z with rails.inReset := true }) <| base
     decide (s.rails.inReset = true)) &&
    (let l : Lane := Lane.a
     let s : State := base
     decide (computing s l = true ∧ s.clk.period % thermalLen s = 0)) &&
    (let l : Lane := Lane.a
     let s : State := (fun (z : State) => { z with clk.period := 1 }) <| base
     decide ((computing s l = false ∨ s.clk.period % thermalLen s ≠ 0))) &&
    (let l : Lane := Lane.a
     let s : State := (fun (z : State) => { z with clk.period := 40 }) <| base
     decide (computing s l = true ∧ s.clk.period % thermalLen s = shareLen s)) &&
    (let l : Lane := Lane.a
     let s : State := base
     decide ((computing s l = false ∨ s.clk.period % thermalLen s ≠ shareLen s))) := by
  decide +kernel

/-- A state and operands that meet the premises of this clause of TemperatureCommands. -/
theorem witness_TemperatureCommands_2 :
    (let l : Lane := Lane.a
     let i : Fin 24 := (0 : Fin 24)
     let k : Fin 16 := (0 : Fin 16)
     let s : State := base
     decide (writable s = true ∧ (activeLane s).isSome = true ∧ ↑i < (s.lane l).th.bays.length ∧
       ↑k < (nth (s.lane l).th.bays ↑i).sensors.length)) := by
  decide +kernel

/-- A state and operands that meet the premises of each of these clauses of TileArithmeticInstructions. -/
theorem witness_TileArithmeticInstructions :
    (let l : Lane := Lane.a
     let t : Fin 10 := (0 : Fin 10)
     let w : TileArgs := ⟨24,24,0,0⟩
     let k : TileRun := run0
     let s : State := (fun (y : State) => y.modLane l fun (x : LaneState) => { x with tiles := upd x.tiles t fun (z : Tile) => { z with running := some k } }) <|
       base
     decide (runningSlot s l ↑t = some k ∧ tileAddOk w = true ∧ k.ownReg (argD w) = true)) &&
    (let l : Lane := Lane.a
     let t : Fin 10 := (0 : Fin 10)
     let w : TileArgs := ⟨24,0,0,0⟩
     let k : TileRun := run0
     let s : State := (fun (y : State) => y.modLane l fun (x : LaneState) => { x with tiles := upd x.tiles t fun (z : Tile) => { z with running := some k } }) <|
       base
     decide (runningSlot s l ↑t = some k ∧ tileMulOk w = true ∧ k.ownReg (argD w) = true)) &&
    (let l : Lane := Lane.a
     let t : Fin 10 := (0 : Fin 10)
     let w : TileArgs := ⟨24,0,0,0⟩
     let k : TileRun := run0
     let s : State := (fun (y : State) => y.modLane l fun (x : LaneState) => { x with tiles := upd x.tiles t fun (z : Tile) => { z with running := some k } }) <|
       base
     decide (runningSlot s l ↑t = some k ∧ tileIntOk w = true ∧ k.ownReg (argD w) = true)) &&
    (let l : Lane := Lane.a
     let t : Fin 10 := (0 : Fin 10)
     let w : TileArgs := ⟨24,0,16,0⟩
     let k : TileRun := run0
     let s : State := (fun (y : State) => y.modLane l fun (x : LaneState) => { x with tiles := upd x.tiles t fun (z : Tile) => { z with running := some k } }) <|
       base
     decide (runningSlot s l ↑t = some k ∧ tileDrvOk w = true ∧ k.ownReg (argD w) = true ∧ k.ownReg (argB w) = true)) &&
    (let l : Lane := Lane.a
     let t : Fin 10 := (0 : Fin 10)
     let w : TileArgs := ⟨24,0,0,0⟩
     let k : TileRun := run0
     let s : State := (fun (y : State) => y.modLane l fun (x : LaneState) => { x with tiles := upd x.tiles t fun (z : Tile) => { z with running := some k } }) <|
       base
     decide (runningSlot s l ↑t = some k ∧ tileFltOk w = true ∧ k.ownReg (argD w) = true)) := by
  decide +kernel

/-- A state and operands that meet the premises of each of these clauses of TileDataInstructions. -/
theorem witness_TileDataInstructions_1 :
    (let l : Lane := Lane.a
     let t : Fin 10 := (0 : Fin 10)
     let w : TileArgs := ⟨0,0,0,0⟩
     let k : TileRun := run0
     let s : State := (fun (y : State) => y.modLane l fun (x : LaneState) => { x with tiles := upd x.tiles t fun (z : Tile) => { z with running := some k } }) <|
       base
     decide (runningSlot s l ↑t = some k ∧ tileNopOk w = true)) &&
    (let l : Lane := Lane.a
     let t : Fin 10 := (0 : Fin 10)
     let w : TileArgs := ⟨0,0,0,0⟩
     let k : TileRun := run0
     let s : State := (fun (y : State) => y.modLane l fun (x : LaneState) => { x with tiles := upd x.tiles t fun (z : Tile) => { z with running := some k } }) <|
       base
     decide (runningSlot s l ↑t = some k ∧ tileLdpOk w = true ∧ k.ownReg (argD w) = true)) &&
    (let l : Lane := Lane.a
     let t : Fin 10 := (0 : Fin 10)
     let w : TileArgs := ⟨0,0,0,0⟩
     let k : TileRun := run0
     let s : State := (fun (y : State) => y.modLane l fun (x : LaneState) => { x with tiles := upd x.tiles t fun (z : Tile) => { z with running := some k } }) <|
       base
     decide (runningSlot s l ↑t = some k ∧ tileLdkOk w = true ∧ k.ownReg (argD w) = true ∧ k.constIndex (argImm w 7 0) < k.consts.length)) &&
    (let l : Lane := Lane.a
     let t : Fin 10 := (0 : Fin 10)
     let w : TileArgs := ⟨0,0,0,0⟩
     let k : TileRun := run0
     let s : State := (fun (y : State) => y.modLane l fun (x : LaneState) => { x with tiles := upd x.tiles t fun (z : Tile) => { z with running := some k } }) <|
       base
     decide (runningSlot s l ↑t = some k ∧ tileMovOk w = true ∧ k.ownReg (argD w) = true)) &&
    (let l : Lane := Lane.a
     let t : Fin 10 := (0 : Fin 10)
     let w : TileArgs := ⟨0,0,0,0⟩
     let k : TileRun := run0
     let s : State := (fun (y : State) => y.modLane l fun (x : LaneState) => { x with tiles := upd x.tiles t fun (z : Tile) => { z with running := some k } }) <|
       base
     decide (runningSlot s l ↑t = some k ∧ tileStoOk w = true)) &&
    (let l : Lane := Lane.a
     let t : Fin 10 := (0 : Fin 10)
     let w : TileArgs := ⟨0,0,0,0⟩
     let k : TileRun := run0
     let s : State := (fun (y : State) => y.modLane l fun (x : LaneState) => { x with tiles := upd x.tiles t fun (z : Tile) => { z with running := some k } }) <|
       base
     decide (runningSlot s l ↑t = some k ∧ tileClpOk w = true ∧ k.ownReg (argD w) = true ∧ isAccId (argA w) = false)) &&
    (let l : Lane := Lane.a
     let t : Fin 10 := (0 : Fin 10)
     let w : TileArgs := ⟨24,24,0,0⟩
     let k : TileRun := run0
     let s : State := (fun (y : State) => y.modLane l fun (x : LaneState) => { x with tiles := upd x.tiles t fun (z : Tile) => { z with running := some k } }) <|
       base
     decide (runningSlot s l ↑t = some k ∧ tileClpOk w = true ∧ k.ownReg (argD w) = true ∧ isAccId (argA w) = true)) := by
  decide +kernel

/-- A state and operands that meet the premises of each of these clauses of TileDataInstructions. -/
theorem witness_TileDataInstructions_2 :
    (let l : Lane := Lane.a
     let t : Fin 10 := (0 : Fin 10)
     let w : TileArgs := ⟨8,24,0,0⟩
     let k : TileRun := run0
     let s : State := (fun (y : State) => y.modLane l fun (x : LaneState) => { x with tiles := upd x.tiles t fun (z : Tile) => { z with running := some k } }) <|
       base
     decide (runningSlot s l ↑t = some k ∧ tileRnmOk w = true ∧ k.ownReg (argD w) = true)) &&
    (let l : Lane := Lane.a
     let t : Fin 10 := (0 : Fin 10)
     let w : TileArgs := ⟨0,0,0,0⟩
     let k : TileRun := run0
     let s : State := (fun (y : State) => y.modLane l fun (x : LaneState) => { x with tiles := upd x.tiles t fun (z : Tile) => { z with running := some k } }) <|
       base
     decide (runningSlot s l ↑t = some k ∧ tileSelOk w = true ∧ k.ownReg (argD w) = true)) &&
    (let l : Lane := Lane.a
     let t : Fin 10 := (0 : Fin 10)
     let w : TileArgs := ⟨0,0,0,0⟩
     let k : TileRun := run0
     let s : State := (fun (y : State) => y.modLane l fun (x : LaneState) => { x with tiles := upd x.tiles t fun (z : Tile) => { z with running := some k } }) <|
       base
     decide (runningSlot s l ↑t = some k ∧ tileCmpOk w = true)) &&
    (let l : Lane := Lane.a
     let t : Fin 10 := (0 : Fin 10)
     let w : TileArgs := ⟨16,0,0,0⟩
     let k : TileRun := run0
     let s : State := (fun (y : State) => y.modLane l fun (x : LaneState) => { x with tiles := upd x.tiles t fun (z : Tile) => { z with running := some k } }) <|
       base
     decide (runningSlot s l ↑t = some k ∧ tileRmpOk w = true ∧ k.ownReg (argD w) = true)) &&
    (let l : Lane := Lane.a
     let t : Fin 10 := (0 : Fin 10)
     let w : TileArgs := ⟨0,0,0,0⟩
     let k : TileRun := run0
     let s : State := (fun (y : State) => y.modLane l fun (x : LaneState) => { x with tiles := upd x.tiles t fun (z : Tile) => { z with running := some k } }) <|
       base
     decide (runningSlot s l ↑t = some k ∧ tileTsiOk w = true ∧ k.ownReg (argD w) = true ∧ s.clk.inj.st ≠ 2)) &&
    (let l : Lane := Lane.a
     let t : Fin 10 := (0 : Fin 10)
     let w : TileArgs := ⟨0,0,0,0⟩
     let k : TileRun := run0
     let s : State := (putRw 13574 2 (rwBytes base 13574 2).length (argImm w 3 0)) <| (fun (z : State) => { z with clk.inj.loop := k.loop }) <|
       (fun (z : State) => { z with clk.inj.st := 2 }) <|
       (fun (y : State) => y.modLane l fun (x : LaneState) => { x with tiles := upd x.tiles t fun (z : Tile) => { z with running := some k } }) <|
       base
     decide (runningSlot s l ↑t = some k ∧ tileTsiOk w = true ∧ k.ownReg (argD w) = true ∧ s.clk.inj.st = 2 ∧ k.loop.isSome = true ∧
       k.loop = s.clk.inj.loop ∧ rwN s 13574 2 = argImm w 3 0)) &&
    (let l : Lane := Lane.a
     let t : Fin 10 := (0 : Fin 10)
     let w : TileArgs := ⟨0,0,0,0⟩
     let k : TileRun := run0
     let s : State := (fun (y : State) => y.modLane l fun (x : LaneState) => { x with tiles := upd x.tiles t fun (z : Tile) => { z with running := some k } }) <|
       base
     decide (runningSlot s l ↑t = some k ∧ tileCapOk w = true ∧ s.clk.cap.st ≠ 1 ∧ s.clk.cap.st ≠ 2)) := by
  decide +kernel

/-- A state and operands that meet the premises of each of these clauses of TileDataInstructions. -/
theorem witness_TileDataInstructions_3 :
    (let l : Lane := Lane.a
     let t : Fin 10 := (0 : Fin 10)
     let w : TileArgs := ⟨0,0,0,0⟩
     let k : TileRun := run0
     let s : State := (putRw 0x3504 1 2 0x101) <| (putRw 0x3504 1 2 0x100) <| (fun (z : State) => { z with clk.cap.st := 1 }) <|
       (fun (y : State) => y.modLane l fun (x : LaneState) => { x with tiles := upd x.tiles t fun (z : Tile) => { z with running := some k } }) <|
       base
     decide (runningSlot s l ↑t = some k ∧ tileCapOk w = true ∧ (s.clk.cap.st = 1 ∨ s.clk.cap.st = 2) ∧ k.loop.isSome = true ∧
       k.loop = captureLoop s)) &&
    (let l : Lane := Lane.a
     let t : Fin 10 := (0 : Fin 10)
     let w : TileArgs := ⟨0,0,0,0⟩
     let k : TileRun := run0
     let s : State := (fun (y : State) => y.modLane l fun (x : LaneState) => { x with tiles := upd x.tiles t fun (z : Tile) => { z with running := some k } }) <|
       base
     decide (runningSlot s l ↑t = some k ∧ tileChkOk w = true)) &&
    (let l : Lane := Lane.a
     let t : Fin 10 := (0 : Fin 10)
     let w : TileArgs := ⟨0,0,0,0⟩
     let c : Instr := Instr.tileNop .a 0 ⟨0,0,0,0⟩
     let s : State := base
     decide (c ∈ tileRows l t w ∧ c.wf = true ∧ runningSlot s l ↑t = none)) := by
  decide +kernel

/-- A state and operands that meet the premises of each of these clauses of TileRelief. -/
theorem witness_TileRelief :
    (let l : Lane := Lane.a
     let t : Fin 10 := (0 : Fin 10)
     let k : Nat := 9
     let s : State := (fun (y : State) => y.modLane l fun (z : LaneState) => { z with wp.relieving := none }) <|
       (fun (y : State) => y.modLane l fun (x : LaneState) => { x with tiles := upd x.tiles (↑t : Nat) fun z => { z with fault := true } }) <|
       base
     decide (shapeB s = true ∧ (nth (s.lane l).tiles ↑t).fault = true ∧ (s.lane l).wp.relieving = none ∧ spareTileNo (s.lane l) = some k ∧
       k ≠ ↑t)) &&
    (let l : Lane := Lane.a
     let t : Fin 10 := (0 : Fin 10)
     let s : State := (fun (y : State) => y.modLane l fun (x : LaneState) => { x with tiles := upd x.tiles 9 fun (z : Tile) => { z with role := .retired } }) <|
       (fun (y : State) => y.modLane l fun (z : LaneState) => { z with wp.relieving := none }) <|
       (fun (y : State) => y.modLane l fun (x : LaneState) => { x with tiles := upd x.tiles (↑t : Nat) fun z => { z with fault := true } }) <|
       base
     decide (shapeB s = true ∧ (nth (s.lane l).tiles ↑t).fault = true ∧ (s.lane l).wp.relieving = none ∧ spareTileNo (s.lane l) = none ∧
       (nth (s.lane l).tiles ↑t).role ≠ TileRole.slow)) &&
    (let l : Lane := Lane.a
     let t : Fin 10 := (0 : Fin 10)
     let k : Nat := 9
     let s : State := (fun (y : State) => y.modLane l fun (z : LaneState) => { z with wp.relieving := some (↑t : Nat) }) <| base
     decide (shapeB s = true ∧ (s.lane l).wp.relieving = some ↑t ∧ spareTileNo (s.lane l) = some k ∧ k ≠ ↑t)) &&
    (let l : Lane := Lane.a
     let t : Fin 10 := (0 : Fin 10)
     let k : Nat := 9
     let s : State := (fun (y : State) => y.modLane l fun (z : LaneState) => { z with wp.relieving := none }) <|
       (fun (y : State) => y.modLane l fun (x : LaneState) => { x with tiles := upd x.tiles (↑t : Nat) fun z => { z with fault := false } }) <|
       (fun (y : State) => y.modLane l fun (x : LaneState) => { x with tiles := upd x.tiles (↑t : Nat) fun z => { z with role := TileRole.fast } }) <|
       base
     decide (shapeB s = true ∧ computing s l = true ∧ atShare s = true ∧ (nth (s.lane l).tiles ↑t).role = TileRole.fast ∧
       (nth (s.lane l).tiles ↑t).fault = false ∧ (s.lane l).wp.relieving = none ∧ spareTileNo (s.lane l) = some k)) &&
    (let s : State := (fun (z : State) => { z with clk.period := 41 }) <| base
     decide (atShare s = false)) &&
    (let l : Lane := Lane.a
     let t : Fin 10 := (0 : Fin 10)
     let s : State := (fun (y : State) => y.modLane l fun (x : LaneState) => { x with tiles := upd x.tiles (↑t : Nat) fun z => { z with role := TileRole.underTest } }) <|
       base
     decide (shapeB s = true ∧ (nth (s.lane l).tiles ↑t).role = TileRole.underTest)) &&
    (let l : Lane := Lane.a
     let t : Fin 10 := (0 : Fin 10)
     let s : State := base
     decide ((nth (s.lane l).tiles ↑t).role ≠ TileRole.underTest)) := by
  decide +kernel

/-- A state and operands that meet the premises of each of these clauses of TrievoReception. -/
theorem witness_TrievoReception_1 :
    (let f : TrievoFrame := (frames).getD 0 default
     let s : State := (putCfg 0x3900 1 1 0) <| base
     decide (frameForUs s f = false ∧ f.ftype = 1)) &&
    (let f : TrievoFrame := (frames).getD 24 default
     let s : State := (putCfg 0x3900 1 1 0) <| base
     decide (frameForUs s f = false ∧ f.ftype = 2)) &&
    (let f : TrievoFrame := (frames).getD 48 default
     let s : State := (putCfg 0x3900 1 1 0) <| base
     decide (frameForUs s f = false ∧ f.ftype = 3)) &&
    (let f : TrievoFrame := (frames).getD 72 default
     let s : State := (putCfg 0x3900 1 1 0) <| base
     decide (frameForUs s f = false ∧ f.ftype = 6)) &&
    (let f : TrievoFrame := (frames).getD 12 default
     let s : State := base
     decide (frameForUs s f = true ∧ f.crcOk = false ∧ f.ftype = 1)) &&
    (let f : TrievoFrame := (frames).getD 60 default
     let s : State := base
     decide (frameForUs s f = true ∧ f.crcOk = false ∧ f.ftype = 3)) &&
    (let f : TrievoFrame := (frames).getD 84 default
     let s : State := base
     decide (frameForUs s f = true ∧ f.crcOk = false ∧ f.ftype = 6)) := by
  decide +kernel

/-- A state and operands that meet the premises of each of these clauses of TrievoReception. -/
theorem witness_TrievoReception_2 :
    (let f : TrievoFrame := (frames).getD 0 default
     let s : State := (fun (z : State) => { z with tri.seen := [(f.src, f.seq, 0)] }) <| base
     decide (frameForUs s f = true ∧ f.crcOk = true ∧ seenBefore s f = true ∧ f.ftype = 1)) &&
    (let f : TrievoFrame := (frames).getD 48 default
     let s : State := (fun (z : State) => { z with tri.seen := [(f.src, f.seq, 0)] }) <| base
     decide (frameForUs s f = true ∧ f.crcOk = true ∧ seenBefore s f = true ∧ f.ftype = 3)) &&
    (let f : TrievoFrame := (frames).getD 72 default
     let s : State := (fun (z : State) => { z with tri.seen := [(f.src, f.seq, 0)] }) <| base
     decide (frameForUs s f = true ∧ f.crcOk = true ∧ seenBefore s f = true ∧ f.ftype = 6)) &&
    (let f : TrievoFrame := (frames).getD 2 default
     let port : Byte := 16
     let d : List Byte := []
     let s : State := (fun (z : State) => { z with tri.peers := [{ (default : Peer) with addr := f.src }] }) <| base
     decide (frameForUs s f = true ∧ f.crcOk = true ∧ seenBefore s f = false ∧ f.ftype = 1 ∧ f.relay = false ∧ f.payload = port :: d ∧
       (s.tri.peer f.src).isSome = true ∧ 16 ≤ BitVec.toNat port ∧ BitVec.toNat port ≤ 31)) &&
    (let f : TrievoFrame := (frames.filter fun f => f.src == 1).getD 1 default
     let port : Byte := 1
     let d : List Byte := [0,0,0,0,0]
     let s : State := (putBytes 0x3910 0 [7, 0, 0, 0, 3, 1, 0, 0]) <| (putBytes 0x3910 0 [7, 0, 0, 0, 3, 1, 0, 0]) <|
       (fun (z : State) => { z with tri.peers := [{ (default : Peer) with addr := f.src }] }) <| base
     decide (frameForUs s f = true ∧ f.crcOk = true ∧ seenBefore s f = false ∧ f.ftype = 1 ∧ f.relay = false ∧ f.payload = port :: d ∧
       (s.tri.peer f.src).isSome = true ∧ port = 1 ∧ d.length = 5 ∧ (relayEntryOf s f.src).role = 3 ∧ 1 ≤ (relayEntryOf s f.src).inst ∧
       (relayEntryOf s f.src).inst ≤ 8 ∧ (field (port :: d) 2 2 ≤ 1000 ∨ field (port :: d) 2 2 = 65535) ∧ shapeL s.laneA = true ∧
       shapeL s.laneB = true)) &&
    (let f : TrievoFrame := (frames).getD 1 default
     let port : Byte := 1
     let d : List Byte := [0,0,0,0,0]
     let s : State := (fun (z : State) => { z with tri.peers := [{ (default : Peer) with addr := f.src }] }) <| base
     decide (frameForUs s f = true ∧ f.crcOk = true ∧ seenBefore s f = false ∧ f.ftype = 1 ∧ f.relay = false ∧ f.payload = port :: d ∧
       (s.tri.peer f.src).isSome = true ∧ port = 1 ∧ ((relayEntryOf s f.src).role ≠ 3 ∨ 1000 < field (port :: d) 2 2 ∧
       field (port :: d) 2 2 ≠ 65535))) &&
    (let f : TrievoFrame := (frames).getD 59 default
     let e : Nat := 0
     let s : State := (putBytes 0x3910 0 [7, 0, 0, 0, 1, 0, 0, 0]) <| base
     decide (frameForUs s f = true ∧ f.crcOk = true ∧ seenBefore s f = false ∧ f.ftype = 3 ∧ f.relay = false ∧ f.src = 254 ∧
       6 ≤ f.payload.length ∧ entryFor s (field f.payload 0 4) = some e)) := by
  decide +kernel

/-- A state and operands that meet the premises of each of these clauses of TrievoReception. -/
theorem witness_TrievoReception_3 :
    (let f : TrievoFrame := (frames).getD 57 default
     let s : State := base
     decide (frameForUs s f = true ∧ f.crcOk = true ∧ seenBefore s f = false ∧ f.ftype = 3 ∧ f.relay = false ∧ f.src = 254 ∧
       6 ≤ f.payload.length ∧ entryFor s (field f.payload 0 4) = none)) &&
    (let f : TrievoFrame := (frames).getD 74 default
     let b : Byte := 16
     let l : List Byte := []
     let p : Peer := default
     let s : State := (fun (z : State) => { z with tri.peers := [p] }) <| base
     decide (frameForUs s f = true ∧ f.crcOk = true ∧ seenBefore s f = false ∧ f.ftype = 6 ∧ f.relay = false ∧ f.payload = b :: l ∧
       s.tri.peer f.src = some p)) &&
    (let f : TrievoFrame := (frames).getD 24 default
     let u : Unicast := { (default : Unicast) with seq := some 0 }
     let s : State := (fun (z : State) => { z with tri.waiting := some u }) <| base
     decide (frameForUs s f = true ∧ f.ftype = 2 ∧ s.tri.waiting = some u ∧ u.via = f.src ∧ u.seq = some f.seq)) &&
    (let f : TrievoFrame := (frames).getD 24 default
     let u : Unicast := default
     let s : State := (fun (z : State) => { z with tri.waiting := some u }) <| base
     decide (frameForUs s f = true ∧ f.ftype = 2 ∧ s.tri.waiting = some u ∧ (u.via ≠ f.src ∨ u.seq ≠ some f.seq))) := by
  decide +kernel

/-- A state and operands that meet the premises of each of these clauses of TrievoSending. -/
theorem witness_TrievoSending_1 :
    (let s : State := (putCfg 0x3900 1 1 0) <| base
     decide ((triOn s = false ∨ triNative s = false))) &&
    (let s : State := base
     decide (triOn s = true ∧ triNative s = true)) &&
    (let s : State := base
     decide ((triOn s = false ∨ s.tri.waiting.isSome = true ∨ nextFrame s.tri.txq = none))) &&
    (let k : Fin 192 := (0 : Fin 192)
     let i : Nat := 0
     let u : Unicast := { (default : Unicast) with k := 3 }
     let s : State := (fun (z : State) => { z with tri.txq := [u] }) <| base
     let via := viaOf s.tri u.dst
     let fits := slotFits s s.tri (↑k) (linePayload { ftype := u.ftype, dst := u.dst, payload := u.payload, ackReq := u.ackReq, prio := u.prio, k := u.k, mailbox := u.mailbox, seq := u.seq, via := via } via).length (modOf s.tri { ftype := u.ftype, dst := u.dst, payload := u.payload, ackReq := u.ackReq, prio := u.prio, k := u.k, mailbox := u.mailbox, seq := u.seq, via := via }) u.ackReq
     decide (triOn s = true ∧ s.tri.waiting = none ∧ nextFrame s.tri.txq = some i ∧ nth s.tri.txq i = u ∧ fits = false)) &&
    (let k : Fin 192 := 100
     let i : Nat := 0
     let u : Unicast := default
     let s : State := (fun (z : State) => { z with tri.txq := [u] }) <| base
     let via := viaOf s.tri u.dst
     let fits := slotFits s s.tri (↑k) (linePayload { ftype := u.ftype, dst := u.dst, payload := u.payload, ackReq := u.ackReq, prio := u.prio, k := u.k, mailbox := u.mailbox, seq := u.seq, via := via } via).length (modOf s.tri { ftype := u.ftype, dst := u.dst, payload := u.payload, ackReq := u.ackReq, prio := u.prio, k := u.k, mailbox := u.mailbox, seq := u.seq, via := via }) u.ackReq
     decide (triOn s = true ∧ s.tri.waiting = none ∧ nextFrame s.tri.txq = some i ∧ nth s.tri.txq i = u ∧ fits = true)) &&
    (let u : Unicast := default
     let s : State := (fun (z : State) => { z with tri.waiting := some u }) <| base
     decide (s.tri.waiting = some u ∧ u.k < 3)) &&
    (let u : Unicast := { (default : Unicast) with k := 3 }
     let s : State := (fun (z : State) => { z with tri.waiting := some u }) <| base
     decide (s.tri.waiting = some u ∧ 3 ≤ u.k)) := by
  decide +kernel

/-- A state and operands that meet the premises of each of these clauses of TrievoSending. -/
theorem witness_TrievoSending_2 :
    (let a : U8 := 0
     let s : State := base
     decide ((triOn s = false ∨ threePhase s = false ∨ s.tri.peer a = none))) &&
    (let a : U8 := 0
     let z : Option U8 := (default : Option U8)
     let p : Peer := { (default : Peer) with learn := true }
     let s : State := (fun (z : State) => { z with tri.peers := [p] }) <| (putCfg 0x3900 2 1 1) <| base
     decide (triOn s = true ∧ threePhase s = true ∧ s.tri.peer a = some p ∧ p.learn = true)) &&
    (let a : U8 := 0
     let s : State := base
     decide (s.tri.peer a = none)) &&
    (let a : U8 := 0
     let s : State := (fun (z : State) => { z with tri.peers := [{ (default : Peer) with addr := a }] }) <| base
     decide ((s.tri.peer a).isSome = true)) &&
    (let s : State := (inMode .safe) <| base
     decide (writable s = false)) &&
    (let d : List Byte := []
     let s : State := base
     decide (writable s = true ∧ (activeLane s).isSome = true ∧ (d.length < 2 ∨ 63 < d.length))) &&
    (let d : List Byte := [1,3]
     let s : State := base
     decide (writable s = true ∧ (activeLane s).isSome = true ∧ 2 ≤ d.length ∧ d.length ≤ 63 ∧
       (BitVec.toNat (d.getD 1 0) < 16 ∨ 31 < BitVec.toNat (d.getD 1 0)))) := by
  decide +kernel

/-- A state and operands that meet the premises of each of these clauses of TrievoSending. -/
theorem witness_TrievoSending_3 :
    (let d : List Byte := [1,16]
     let s : State := base
     decide (writable s = true ∧ (activeLane s).isSome = true ∧ 2 ≤ d.length ∧ d.length ≤ 63 ∧ 16 ≤ BitVec.toNat (d.getD 1 0) ∧
       BitVec.toNat (d.getD 1 0) ≤ 31 ∧ (triOn s = false ∨ s.tri.peer (d.getD 0 0) = none))) &&
    (let d : List Byte := [1,16]
     let s : State := (fun (z : State) => { z with tri.txq := List.replicate 64 default }) <|
       (fun (z : State) => { z with tri.peers := [{ (default : Peer) with addr := d.getD 0 0 }] }) <| base
     decide (writable s = true ∧ (activeLane s).isSome = true ∧ 2 ≤ d.length ∧ d.length ≤ 63 ∧ 16 ≤ BitVec.toNat (d.getD 1 0) ∧
       BitVec.toNat (d.getD 1 0) ≤ 31 ∧ triOn s = true ∧ (s.tri.peer (d.getD 0 0)).isSome = true ∧ 64 ≤ s.tri.txq.length)) &&
    (let d : List Byte := [1,16]
     let s : State := (fun (z : State) => { z with tri.peers := [{ (default : Peer) with addr := d.getD 0 0 }] }) <| base
     decide (writable s = true ∧ (activeLane s).isSome = true ∧ 2 ≤ d.length ∧ d.length ≤ 63 ∧ 16 ≤ BitVec.toNat (d.getD 1 0) ∧
       BitVec.toNat (d.getD 1 0) ≤ 31 ∧ triOn s = true ∧ (s.tri.peer (d.getD 0 0)).isSome = true ∧ s.tri.txq.length < 64)) &&
    (let s : State := (onJ .a fun (z : JLane) => { z with role := .failed }) <| base
     decide (activeLane s = none)) &&
    (let s : State := (fun (z : State) => { z with tri.mailbox := [] }) <| base
     decide ((activeLane s).isSome = true ∧ s.tri.mailbox = [])) &&
    (let a : U8 := 0
     let p : U8 := 0
     let d : List Byte := []
     let l : List (U8 × U8 × List Byte) := (default : List (U8 × U8 × List Byte))
     let s : State := (fun (z : State) => { z with tri.mailbox := (a, p, d) :: l }) <| base
     decide ((activeLane s).isSome = true ∧ s.tri.mailbox = (a, p, d) :: l)) := by
  decide +kernel

/-- A state and operands that meet the premises of each of these clauses of VehicleAssociation. -/
theorem witness_VehicleAssociation_1 :
    (let c : U8 := 5
     let s : State := base
     decide ((c = 5 ∨ 6 < BitVec.toNat c))) &&
    (let n : Fin 24 := (0 : Fin 24)
     let c : U8 := 0
     let s : State := (putCfg 0x3710 1 1 0) <| base
     decide (c ≠ 5 ∧ BitVec.toNat c ≤ 6 ∧ (vehMode s ↑n ≠ 1 ∧ vehMode s ↑n ≠ 2 ∨ s.modes.mode = Mode.boot ∨ s.modes.mode = Mode.backup))) &&
    (let n : Fin 24 := (0 : Fin 24)
     let c : U8 := 0
     let s : State := (modSess (↑n : Nat) fun (z : Session) => { z with st := SessSt.charging }) <| base
     decide (s.veh.links.length = 24 ∧ (vehMode s ↑n = 1 ∨ vehMode s ↑n = 2) ∧ s.modes.mode ≠ Mode.boot ∧ s.modes.mode ≠ Mode.backup ∧
       (c = 0 ∨ c = 4 ∨ c = 6) ∧ (sess s ↑n).st.live = true)) &&
    (let n : Fin 24 := (0 : Fin 24)
     let s : State := (modSess (↑n : Nat) fun (z : Session) => { z with st := SessSt.charging }) <|
       (putCfg (14096 + (↑n : Nat)) 7 (cfgBytes base (14096 + (↑n : Nat)) 7).length (0)) <| base
     decide (s.veh.links.length = 24 ∧ (vehMode s ↑n = 1 ∨ vehMode s ↑n = 2) ∧ s.modes.mode ≠ Mode.boot ∧ s.modes.mode ≠ Mode.backup ∧
       cfgN s (14096 + ↑n) 7 = 0 ∧ (sess s ↑n).st.live = true)) &&
    (let n : Fin 24 := (0 : Fin 24)
     let c : U8 := 1
     let s : State := (modSess n fun (z : Session) => { z with st := .attached }) <| base
     decide (s.veh.links.length = 24 ∧ (vehMode s ↑n = 1 ∨ vehMode s ↑n = 2) ∧ s.modes.mode ≠ Mode.boot ∧ s.modes.mode ≠ Mode.backup ∧
       (c = 1 ∨ c = 2) ∧ (sess s ↑n).st ≠ SessSt.idle)) &&
    (let n : Fin 24 := (0 : Fin 24)
     let s : State := (inMode .run) <|
       (fun (y : State) => y.modLane .a fun (z : LaneState) => { z with grid := (let g := base.laneA.grid; { g with ready := true, linkLost := false }) }) <|
       (inMode .run) <| (putCfg 0x3000 0xC 1 1) <| (modSess (↑n : Nat) fun (z : Session) => { z with plugged := true }) <|
       (modSess (↑n : Nat) fun (z : Session) => { z with st := SessSt.idle }) <| base
     decide (s.veh.links.length = 24 ∧ (vehMode s ↑n = 1 ∨ vehMode s ↑n = 2) ∧ s.modes.mode ≠ Mode.boot ∧ s.modes.mode ≠ Mode.backup ∧
       (sess s ↑n).st = SessSt.idle ∧ (sess s ↑n).plugged = true ∧ mayBegin s ↑n = true)) &&
    (let n : Fin 24 := (0 : Fin 24)
     let s : State := (putCfg 0x3710 1 1 0) <| base
     decide (vehMode s ↑n ≠ 1 ∧ vehMode s ↑n ≠ 2)) := by
  decide +kernel

/-- A state and operands that meet the premises of each of these clauses of VehicleAssociation. -/
theorem witness_VehicleAssociation_2 :
    (let n : Fin 24 := (0 : Fin 24)
     let s : State := base
     decide (s.veh.links.length = 24 ∧ ((sess s ↑n).st.code < 1 ∨ 8 < (sess s ↑n).st.code))) &&
    (let n : Fin 24 := (0 : Fin 24)
     let s : State := (modSess n fun (z : Session) => { z with st := .attached }) <| base
     decide (s.veh.links.length = 24 ∧ 1 ≤ (sess s ↑n).st.code ∧ (sess s ↑n).st.code ≤ 8)) &&
    (let n : Fin 24 := (0 : Fin 24)
     let s : State := (modSess n fun (z : Session) => { z with st := .attached }) <| (putCfg (0x3710 + (↑n : Nat)) 1 1 2) <| base
     decide (s.veh.links.length = 24 ∧ vehMode s ↑n = 2 ∧ ((sess s ↑n).st = SessSt.attached ∨ (sess s ↑n).st = SessSt.slac))) &&
    (let n : Fin 24 := (0 : Fin 24)
     let s : State := (modSess (↑n : Nat) fun (z : Session) => { z with st := SessSt.slac }) <| (putCfg (0x3710 + (↑n : Nat)) 1 1 2) <| base
     decide (s.veh.links.length = 24 ∧ vehMode s ↑n = 2 ∧ (sess s ↑n).st = SessSt.slac)) &&
    (let n : Fin 24 := (0 : Fin 24)
     let s : State := (modSess (↑n : Nat) fun (z : Session) => { z with st := SessSt.charging }) <| (putCfg (0x3710 + (↑n : Nat)) 1 1 2) <|
       base
     decide (s.veh.links.length = 24 ∧ vehMode s ↑n = 2 ∧ (sess s ↑n).st.live = true)) &&
    (let n : Fin 24 := (0 : Fin 24)
     let s : State := (modSess (↑n : Nat) fun (z : Session) => { z with st := SessSt.attached }) <| (putCfg (0x3710 + (↑n : Nat)) 1 1 1) <|
       base
     decide (s.veh.links.length = 24 ∧ vehMode s ↑n = 1 ∧ (sess s ↑n).st = SessSt.attached)) &&
    (let n : Fin 24 := (0 : Fin 24)
     let s : State := (modSess (↑n : Nat) fun (z : Session) => { z with st := SessSt.idle }) <| (putCfg (0x3710 + (↑n : Nat)) 1 1 3) <| base
     decide (s.veh.links.length = 24 ∧ vehMode s ↑n = 3 ∧ (sess s ↑n).st = SessSt.idle)) := by
  decide +kernel

/-- A state and operands that meet the premises of each of these clauses of VehicleAssociation. -/
theorem witness_VehicleAssociation_3 :
    (let n : Fin 24 := (0 : Fin 24)
     let s : State := (modSess (↑n : Nat) fun (z : Session) => { z with st := SessSt.charging }) <| base
     decide (s.veh.links.length = 24 ∧ 4 ≤ (sess s ↑n).st.code ∧ (sess s ↑n).st.live = true)) &&
    (let n : Fin 24 := (0 : Fin 24)
     let l : List Protocol := [.iso20]
     let p : Protocol := .iso20
     let s : State := (putCfg 0x3000 0x19 1 7) <| (modSess (↑n : Nat) fun (z : Session) => { z with st := SessSt.setup }) <| base
     decide (s.veh.links.length = 24 ∧ (sess s ↑n).st = SessSt.setup ∧ pickProtocol (vehMode s ↑n) (bayMask s ↑n) l = some p)) &&
    (let n : Fin 24 := (0 : Fin 24)
     let l : List Protocol := []
     let s : State := (modSess (↑n : Nat) fun (z : Session) => { z with st := SessSt.setup }) <| base
     decide (s.veh.links.length = 24 ∧ (sess s ↑n).st = SessSt.setup ∧ pickProtocol (vehMode s ↑n) (bayMask s ↑n) l = none)) &&
    (let n : Fin 24 := (0 : Fin 24)
     let s : State := (modSess (↑n : Nat) fun (z : Session) => { z with protocol := 0 }) <|
       (modSess (↑n : Nat) fun (z : Session) => { z with st := SessSt.setup }) <| base
     decide (s.veh.links.length = 24 ∧ (sess s ↑n).st = SessSt.setup ∧ (sess s ↑n).protocol = 0)) &&
    (let n : Fin 24 := (0 : Fin 24)
     let r : AuthRequest := default
     let s : State := (modSess (↑n : Nat) fun (z : Session) => { z with timers.setup := false }) <|
       (modSess n fun (z : Session) => { z with protocol := 1 }) <| (modSess (↑n : Nat) fun (z : Session) => { z with st := SessSt.setup }) <|
       base
     decide (s.veh.links.length = 24 ∧ (sess s ↑n).st = SessSt.setup ∧ (sess s ↑n).protocol ≠ 0 ∧ (sess s ↑n).timers.setup = false ∧
       r.pnc = false ∧ (cfgB s 14080 3 = true ∨ (sess s ↑n).hostAuth = 1))) &&
    (let n : Fin 24 := (0 : Fin 24)
     let r : AuthRequest := default
     let s : State := (modSess (↑n : Nat) fun (z : Session) => { z with hostAuth := 2 }) <| (putCfg 14080 3 1 (if (false) then 1 else 0)) <|
       (modSess (↑n : Nat) fun (z : Session) => { z with timers.setup := false }) <|
       (modSess n fun (z : Session) => { z with protocol := 1 }) <| (modSess (↑n : Nat) fun (z : Session) => { z with st := SessSt.setup }) <|
       base
     decide (s.veh.links.length = 24 ∧ (sess s ↑n).st = SessSt.setup ∧ (sess s ↑n).protocol ≠ 0 ∧ (sess s ↑n).timers.setup = false ∧
       r.pnc = false ∧ cfgB s 14080 3 = false ∧ (sess s ↑n).hostAuth = 2)) &&
    (let n : Fin 24 := (0 : Fin 24)
     let r : AuthRequest := default
     let s : State := (putCfg 14080 3 1 (if (false) then 1 else 0)) <|
       (modSess (↑n : Nat) fun (z : Session) => { z with timers.setup := false }) <|
       (modSess n fun (z : Session) => { z with protocol := 1 }) <| (modSess (↑n : Nat) fun (z : Session) => { z with st := SessSt.setup }) <|
       base
     decide (s.veh.links.length = 24 ∧ (sess s ↑n).st = SessSt.setup ∧ (sess s ↑n).protocol ≠ 0 ∧ (sess s ↑n).timers.setup = false ∧
       r.pnc = false ∧ cfgB s 14080 3 = false ∧ (sess s ↑n).hostAuth ≠ 1 ∧ (sess s ↑n).hostAuth ≠ 2)) := by
  decide +kernel

/-- A state and operands that meet the premises of each of these clauses of VehicleAssociation. -/
theorem witness_VehicleAssociation_4 :
    (let n : Fin 24 := (0 : Fin 24)
     let r : AuthRequest := ⟨true, true, true, []⟩
     let s : State := (putCfg 0x3700 2 1 0) <| (modSess (↑n : Nat) fun (z : Session) => { z with timers.setup := false }) <|
       (modSess n fun (z : Session) => { z with protocol := 1 }) <| (modSess (↑n : Nat) fun (z : Session) => { z with st := SessSt.setup }) <|
       base
     decide (s.veh.links.length = 24 ∧ (sess s ↑n).st = SessSt.setup ∧ (sess s ↑n).protocol ≠ 0 ∧ (sess s ↑n).timers.setup = false ∧
       r.pnc = true ∧ (cfgB s 14080 2 = false ∨ (sess s ↑n).protocol ≠ 1))) &&
    (let n : Fin 24 := (0 : Fin 24)
     let r : AuthRequest := ⟨true, false, false, []⟩
     let s : State := (modSess (↑n : Nat) fun (z : Session) => { z with protocol := 1 }) <| (putCfg 14080 2 1 (if (true) then 1 else 0)) <|
       (modSess (↑n : Nat) fun (z : Session) => { z with timers.setup := false }) <|
       (modSess n fun (z : Session) => { z with protocol := 1 }) <| (modSess (↑n : Nat) fun (z : Session) => { z with st := SessSt.setup }) <|
       base
     decide (s.veh.links.length = 24 ∧ (sess s ↑n).st = SessSt.setup ∧ (sess s ↑n).protocol ≠ 0 ∧ (sess s ↑n).timers.setup = false ∧
       r.pnc = true ∧ cfgB s 14080 2 = true ∧ (sess s ↑n).protocol = 1 ∧ (r.chainOk = false ∨ r.signatureOk = false))) &&
    (let n : Fin 24 := (0 : Fin 24)
     let r : AuthRequest := ⟨true, true, true, []⟩
     let s : State := (putCfg 14080 3 1 (if (true) then 1 else 0)) <| (modSess (↑n : Nat) fun (z : Session) => { z with protocol := 1 }) <|
       (putCfg 14080 2 1 (if (true) then 1 else 0)) <| (modSess (↑n : Nat) fun (z : Session) => { z with timers.setup := false }) <|
       (modSess n fun (z : Session) => { z with protocol := 1 }) <| (modSess (↑n : Nat) fun (z : Session) => { z with st := SessSt.setup }) <|
       base
     decide (s.veh.links.length = 24 ∧ (sess s ↑n).st = SessSt.setup ∧ (sess s ↑n).protocol ≠ 0 ∧ (sess s ↑n).timers.setup = false ∧
       r.pnc = true ∧ cfgB s 14080 2 = true ∧ (sess s ↑n).protocol = 1 ∧ r.chainOk = true ∧ r.signatureOk = true ∧ cfgB s 14080 3 = true)) &&
    (let s : State := (inMode .safe) <| base
     decide (writable s = false)) &&
    (let v : U8 := 3
     let s : State := base
     decide (writable s = true ∧ (activeLane s).isSome = true ∧ 2 < BitVec.toNat v)) &&
    (let n : Fin 24 := (0 : Fin 24)
     let v : U8 := 0
     let s : State := base
     decide (writable s = true ∧ (activeLane s).isSome = true ∧ BitVec.toNat v ≤ 2 ∧ s.veh.links.length = 24 ∧
       ((sess s ↑n).st ≠ SessSt.authorizing ∨ (sess s ↑n).authWait = false ∨ v = 0))) &&
    (let n : Fin 24 := (0 : Fin 24)
     let v : U8 := 1
     let s : State := (modSess (↑n : Nat) fun (z : Session) => { z with authWait := true }) <|
       (modSess (↑n : Nat) fun (z : Session) => { z with st := SessSt.authorizing }) <| base
     decide (writable s = true ∧ (activeLane s).isSome = true ∧ BitVec.toNat v ≤ 2 ∧ s.veh.links.length = 24 ∧
       (sess s ↑n).st = SessSt.authorizing ∧ (sess s ↑n).authWait = true ∧ v = 1)) := by
  decide +kernel

/-- A state and operands that meet the premises of this clause of VehicleAssociation. -/
theorem witness_VehicleAssociation_5 :
    (let n : Fin 24 := (0 : Fin 24)
     let v : U8 := 2
     let s : State := (putCfg 14080 3 1 (if (false) then 1 else 0)) <| (modSess (↑n : Nat) fun (z : Session) => { z with authWait := true }) <|
       (modSess (↑n : Nat) fun (z : Session) => { z with st := SessSt.authorizing }) <| base
     decide (writable s = true ∧ (activeLane s).isSome = true ∧ BitVec.toNat v ≤ 2 ∧ s.veh.links.length = 24 ∧
       (sess s ↑n).st = SessSt.authorizing ∧ (sess s ↑n).authWait = true ∧ cfgB s 14080 3 = false ∧ v = 2)) := by
  decide +kernel

end Sys2Proof.Tests
end

section
/-! PROOF. Every operation of the model keeps the invariant of the block: one lemma for each operation, built from those of the operations it
calls. -/

namespace Sys2Proof.Machine
set_option Elab.async false

/-! ## The host answers, the free units and the events -/

theorem respond_keeps {code data s} : Keeps s (respond code data s) := by
  unfold respond
  exact .comm .refl

theorem State.useFree_keeps {s n} : Keeps s (State.useFree s n) := (State.useFree_only (l := .a)).keeps

theorem evtLane_keeps {l e s} : Keeps s (evtLane l e s) := evtLane_only.keeps

theorem evt_keeps {e s} : Keeps s (evt e s) := (evt_only (l := .a)).keeps

/-- A channel keeps its numbers of transmit and receive queues from h to k. -/
def ChanKeeps (h k : Channel) : Prop := h.tx.length = 4 ∧ h.rx.length = 2 → k.tx.length = 4 ∧ k.rx.length = 2

theorem ChanKeeps.refl {h} : ChanKeeps h h := id

theorem ChanKeeps.ite {h a b} {c : Prop} [Decidable c] (ha : ChanKeeps h a) (hb : ChanKeeps h b) : ChanKeeps h (if c then a else b) := by
  split <;> assumption

theorem ChanKeeps.step {h k l} (a : ChanKeeps h k) (b : ChanKeeps k l) : ChanKeeps h l := b ∘ a

theorem ChanKeeps.leaf {h k : Channel} (tx : h.tx.length = 4 → k.tx.length = 4 := by first | exact id | (intro h; simpa using h))
    (rx : h.rx.length = 2 → k.rx.length = 2 := by first | exact id | (intro h; simpa using h)) : ChanKeeps h k :=
  fun o => ⟨tx o.1, rx o.2⟩

theorem Channel.push_keeps {q f h} : ChanKeeps h (Channel.push q f h) := by
  unfold Channel.push
  exact .ite .leaf .refl

theorem Channel.flushTx_keeps {h} : ChanKeeps h h.flushTx := .leaf (tx := fun _ => rfl)

theorem Channel.pop_keeps {q h} : ChanKeeps h (Channel.pop q h) := .leaf (tx := fun e => by rw [← e]; exact upd_length _ _ _)

theorem Channel.confine_keeps {h} : ChanKeeps h h.confine := by
  unfold Channel.confine
  exact .ite .leaf .refl

theorem Channel.sentEnd_keeps {q ok h} : ChanKeeps h (Channel.sentEnd q ok h) := by
  unfold Channel.sentEnd
  exact .ite (.step (.step .leaf Channel.pop_keeps) Channel.confine_keeps) (.step (.ite (.step .leaf Channel.pop_keeps) .leaf)
    Channel.confine_keeps)

theorem Channel.cancel_keeps {q pos started h} : ChanKeeps h (Channel.cancel q pos started h) := by
  unfold Channel.cancel
  exact .ite .refl (.ite .leaf .leaf)

theorem Channel.goOff_keeps {t n h} : ChanKeeps h (Channel.goOff t n h) := Channel.flushTx_keeps.step .leaf

theorem Channel.sleep_keeps {h} : ChanKeeps h h.sleep := by
  unfold Channel.sleep
  exact .ite .refl (Channel.flushTx_keeps.step .leaf)

theorem Channel.endWindow_keeps {h} : ChanKeeps h h.endWindow := .leaf (tx := fun e => by rw [← e]; exact upd_length _ _ _)

theorem Channel.take_keeps {q f h} : ChanKeeps h (Channel.take q f h) := by
  unfold Channel.take
  exact .ite .leaf .leaf

theorem filterFrame_keeps {s c f h} : ChanKeeps h (filterFrame s c f h) := by
  have kept : ∀ {k : Channel} {q}, ChanKeeps k (Channel.remember s.clk.ns (dupWindow s) f (k.take q f)) := Channel.take_keeps.step .leaf
  unfold filterFrame
  refine .ite kept ?_
  dsimp only
  split
  · exact .refl
  · have watched : ∀ {b : Prop} [Decidable b], ChanKeeps h (if b then h.watch (siteTime s) f else h) := .ite .leaf .refl
    exact .ite (watched.step kept) (.ite (watched.step kept) watched)

theorem receiveFrame_keeps {s c f h} : ChanKeeps h (receiveFrame s c f h) := by
  unfold receiveFrame
  exact .ite .leaf (.ite .leaf (.ite .leaf (.ite .leaf (.step .leaf filterFrame_keeps))))

theorem cancelIdent_keeps {q i h} : ChanKeeps h (cancelIdent q i h) := .leaf (tx := fun e => by rw [← e]; exact put_length _ _ _)

theorem requeue_keeps {f h} : ChanKeeps h (requeue f h) := by
  unfold requeue
  exact .ite .leaf (.step .leaf Channel.push_keeps)

theorem flipChannel_keeps {o n c h} : ChanKeeps h (flipChannel o n c h) := by
  unfold flipChannel
  exact .ite (.leaf (tx := fun _ => rfl) (rx := fun _ => rfl)) .refl

theorem Channel.serve_keeps {h} : ChanKeeps h h.serve := .leaf (rx := fun e => by rw [← e]; exact List.length_map _)

theorem modChan_keeps {c f s} (hf : ∀ k, ChanKeeps k (f k) := by exact fun _ => .leaf) : Keeps s (modChan c f s) :=
  .chans .refl fun h => h.upd hf

theorem queueTx_keeps {c q f s} : Keeps s (queueTx c q f s) := by
  have push : ∀ {c s}, Keeps s (modChan c (Channel.push q f) s) := modChan_keeps fun _ => Channel.push_keeps
  unfold queueTx
  split
  · exact .ite (push.step push) push
  · exact push

theorem queueDict_keeps {q f s} : Keeps s (queueDict q f s) := by
  unfold queueDict
  exact .step (.ite queueTx_keeps (.step queueTx_keeps queueTx_keeps)) queueTx_keeps

theorem emcySend_keeps {s} : Keeps s (emcySend s) := by
  unfold emcySend
  exact .ite (.step (.ite (.step (.comm .refl) queueDict_keeps) (.comm .refl)) State.useFree_keeps) .refl

theorem enterMode_keeps {m s} : Keeps s (enterMode m s) := by
  unfold enterMode
  exact .ite (.step (.step (.modes .refl) evt_keeps) emcySend_keeps) (.step (.modes .refl) evt_keeps)

theorem ChansOk.map {l : List Channel} {f : Channel → Channel} (h : ChansOk l) (hf : ∀ c, ChanKeeps c (f c)) : ChansOk (l.map f) := by
  refine ⟨by rw [List.length_map]; exact h.1, fun c hc => ?_⟩
  obtain ⟨k, hk, rfl⟩ := List.mem_map.1 hc
  exact hf k (h.2 k hk)

theorem ChansOk.mapIdx {l : List Channel} {f : Nat → Channel → Channel} (h : ChansOk l) (hf : ∀ n c, ChanKeeps c (f n c)) :
    ChansOk (l.mapIdx f) := by
  refine ⟨by rw [List.length_mapIdx]; exact h.1, fun c hc => ?_⟩
  obtain ⟨n, hn, rfl⟩ := List.mem_mapIdx.1 hc
  exact hf n _ (h.2 _ (List.getElem_mem hn))

theorem LaneState.modLoop_keeps {i f x} : LaneKeeps x (LaneState.modLoop i f x) := by
  unfold LaneState.modLoop
  split
  · exact .bayLoops .refl
  · exact .modLoops .refl
  · exact .strLoops .refl
  · exact .slowLoops .refl

theorem nmtFrame_keeps {c s} : Keeps s (nmtFrame c s) := by
  unfold nmtFrame
  exact queueDict_keeps

theorem takeSafe_keeps {cause s} : Keeps s (takeSafe cause s) := by
  unfold takeSafe
  exact .ite .refl (.ite (.ite (.jct .refl) .refl) (.ite (.jct (.step (.modes (.modes .refl)) enterMode_keeps)) (.ite (.jct (.step
    (.modes (.modes .refl)) enterMode_keeps)) (.step (.modes (.modes .refl)) enterMode_keeps))))

theorem modCurBank_keeps {s f x} (hf : ∀ b : List FrameSlot, b.length = 64 → (f b).length = 64 :=
      by first | exact fun _ => id | (intro k h; simpa using h)) : LaneKeeps x (modCurBank s f x) := by
  unfold modCurBank
  exact .ite (.bank0 .refl (hf _)) (.bank1 .refl (hf _))

theorem LaneState.mapLoops_keeps {f x} : LaneKeeps x (LaneState.mapLoops f x) := by
  unfold LaneState.mapLoops
  exact .foldl .refl (fun _ _ => LaneState.modLoop_keeps)

theorem LaneState.modLink_keeps {n f x} : LaneKeeps x (LaneState.modLink n f x) := by
  unfold LaneState.modLink
  exact .links .refl

/-! ## Flags and status words -/

theorem recheckSpares_keeps {s} : Keeps s (recheckSpares s) := (recheckSpares_only (l := .a)).keeps

/-! ## Key operations -/

theorem lifeMove_keeps {c s} : Keeps s (lifeMove c s) := (lifeMove_only (l := .a)).keeps

theorem lifeDestroy_keeps {c s} : Keeps s (lifeDestroy c s) := (lifeDestroy_only (l := .a)).keeps

/-! ## Update slots -/

theorem setPlace_keeps {i t k x} : LaneKeeps x (setPlace i t k x) := by
  unfold setPlace
  exact .tiles LaneState.modLoop_keeps

theorem placeSlow_keeps {s x} : LaneKeeps x (placeSlow s x) := by
  unfold placeSlow
  split
  · exact .foldl .refl (fun _ _ => .ite setPlace_keeps .refl)
  · exact .refl

theorem clearPlaces_keeps {x} : LaneKeeps x (clearPlaces x) := by
  unfold clearPlaces
  exact .step (.tiles .refl) LaneState.mapLoops_keeps

theorem placeLoop_keeps {s i x} : LaneKeeps x (placeLoop s i x) := by
  unfold placeLoop
  split
  · split
    · exact setPlace_keeps
    · exact .refl
  · exact LaneState.modLoop_keeps

theorem placeAll_keeps {s x} : LaneKeeps x (placeAll s x) := by
  unfold placeAll
  exact .foldl (.step clearPlaces_keeps placeSlow_keeps) (fun _ _ => .ite placeLoop_keeps .refl)

theorem commitPort_keeps {c v x} : LaneKeeps x (commitPort c v x) := by
  unfold commitPort
  split
  · exact .out .refl
  · exact .relay .refl
  · exact .refl

theorem commitPorts_keeps {codes outs x} : LaneKeeps x (commitPorts codes outs x) := by
  unfold commitPorts
  refine .foldl .refl fun _ _ => ?_
  split
  · exact commitPort_keeps
  · exact .refl

theorem slotStartEffect_keeps {l t k s} : Keeps s (slotStartEffect l t k s) := by
  unfold slotStartEffect
  dsimp only; split
  · exact .setLane .refl (.tiles .refl)
  · split
    · exact .setLane .refl (.tiles .refl)
    · exact .setLane .refl (.step (.tiles .refl) LaneState.modLoop_keeps)

theorem writebackLane_keeps {t x} : LaneKeeps x (writebackLane t x) := by
  unfold writebackLane
  split
  · exact .refl
  · split
    · exact .tiles .refl
    · exact .ite (.step (.step (.tiles .refl) commitPorts_keeps) LaneState.modLoop_keeps) (.step (.ite (.tiles (.tiles .refl)) (.step
        (.tiles (.tiles .refl)) commitPorts_keeps)) LaneState.modLoop_keeps)

/-! ## Waypoint operations -/

theorem loopOff_keeps {i x} : LaneKeeps x (loopOff i x) := by
  unfold loopOff
  exact LaneState.modLoop_keeps

theorem LaneState.modMod_keeps {j f x} : LaneKeeps x (LaneState.modMod j f x) := by
  unfold LaneState.modMod
  exact .wp .refl

theorem openBay_keeps {i x} : LaneKeeps x (openBay i x) := by
  unfold openBay
  refine .foldl .refl fun _ _ => .step ?_ LaneState.modMod_keeps
  split
  · exact loopOff_keeps
  · exact .refl

theorem LaneState.modWp_keeps {f x} (hf : ∀ w : Waypoint, w.mods.length = 96 → (f w).mods.length = 96 :=
      by first | exact fun _ => id | (intro k h; simpa using h)) : LaneKeeps x (LaneState.modWp f x) :=
  .wp .refl (hf _)

theorem abandon_keeps {j x} : LaneKeeps x (abandon j x) := by
  unfold abandon
  exact .ite .refl (.step LaneState.modMod_keeps LaneState.modWp_keeps)

theorem retireDecision_keeps {s j cause x} : LaneKeeps x (retireDecision s j cause x) := by
  unfold retireDecision
  extract_lets y z u
  have spare : LaneKeeps z u := by
    unfold u
    split
    · exact LaneState.modMod_keeps
    · exact .refl
  exact .step (.step (.step LaneState.modMod_keeps LaneState.modWp_keeps) spare) LaneState.event_only.keeps

theorem retireByLoop_keeps {s j x} : LaneKeeps x (retireByLoop s j x) := by
  unfold retireByLoop
  exact .ite .refl (.step (.ite (.step (.ite abandon_keeps .refl) retireDecision_keeps) (.ite abandon_keeps .refl))
    LaneState.modMod_keeps)

theorem retireBySwitch_keeps {s j x} : LaneKeeps x (retireBySwitch s j x) := by
  unfold retireBySwitch
  exact .step (.step (.ite retireDecision_keeps LaneState.modMod_keeps) LaneState.event_only.keeps) LaneState.modMod_keeps

theorem publishMlim_keeps {s x} : LaneKeeps x (publishMlim s x) := by
  unfold publishMlim
  exact LaneState.modWp_keeps

/-! ## Loop operations -/

theorem enableLoop_keeps {i x} : LaneKeeps x (enableLoop i x) := by
  unfold enableLoop
  exact .ite LaneState.event_only.keeps (.ite .refl (.ite LaneState.modLoop_keeps .refl))

theorem disableLoop_keeps {i x} : LaneKeeps x (disableLoop i x) := by
  unfold disableLoop
  exact LaneState.modLoop_keeps

theorem leaveFault_keeps {i x} : LaneKeeps x (leaveFault i x) := by
  unfold leaveFault
  exact LaneState.modLoop_keeps

theorem stringLost_shareOk {n i h} (ok : ShareOk h) : ShareOk (stringLost n i h) := by
  unfold stringLost
  dsimp only
  split <;> exact ok

theorem startReaction_keeps {s i x} : LaneKeeps x (startReaction s i x) := by
  unfold startReaction
  split
  · exact .ite LaneState.modLoop_keeps .refl
  · exact retireByLoop_keeps
  · exact .ite (.share LaneState.modLoop_keeps stringLost_shareOk) .refl
  · exact .ite commitPorts_keeps .refl

theorem enterFault_keeps {s i cause x} : LaneKeeps x (enterFault s i cause x) := by
  unfold enterFault
  exact .ite .refl (.step (.step (.ctl LaneState.modLoop_keeps) LaneState.event_only.keeps) startReaction_keeps)

theorem restartLoop_keeps {i x} : LaneKeeps x (restartLoop i x) := by
  unfold restartLoop
  exact LaneState.modLoop_keeps

/-! ## Metrology sessions -/

theorem meterSend_keeps {f s} (hf : ∀ m, MetKeeps m (f m)) : Keeps s (meterSend f s) := by
  unfold meterSend
  exact .ite (.met .refl (hf _)) .refl

theorem meterClose_keeps {ch s} : Keeps s (meterClose ch s) := by
  unfold meterClose
  split
  · exact meterSend_keeps fun _ => sessionClose_metKeeps
  · exact .refl

theorem meterOpen_keeps {com ch a sid s} : Keeps s (meterOpen com ch a sid s) := by
  unfold meterOpen
  exact .step (.ite .refl evt_keeps) (meterSend_keeps fun _ => sessionOpen_metKeeps)

theorem meterReopen_keeps {com ch a s} : Keeps s (meterReopen com ch a s) := by
  unfold meterReopen
  exact .step (.step State.useFree_keeps meterClose_keeps) meterOpen_keeps

theorem meterString_keeps {s i} : Keeps s (meterString s i) := by
  unfold meterString
  exact meterReopen_keeps

theorem meterReady_keeps {s} : Keeps s (meterReady s) := by
  unfold meterReady
  exact .ite (.met (.foldl .refl (fun _ _ => meterString_keeps))) .refl

theorem handCalendar_keeps {s} : Keeps s (handCalendar s) := by
  unfold handCalendar
  exact .ite (meterSend_keeps fun _ => takeCalendar_metKeeps) .refl

theorem readyReported_keeps {s} : Keeps s (readyReported s) := by
  unfold readyReported
  exact .ite .refl (.step handCalendar_keeps meterReady_keeps)

theorem meterCommission_keeps {i s} : Keeps s (meterCommission i s) := by
  unfold meterCommission
  split
  · refine .ite .refl ?_
    split
    · exact .ite .refl meterReopen_keeps
    · exact meterReopen_keeps
  · exact .refl

theorem meterLeave_keeps {s i} : Keeps s (meterLeave s i) := by
  unfold meterLeave
  split
  · exact .ite (.ite (.step meterClose_keeps meterString_keeps) meterClose_keeps) .refl
  · exact .refl

theorem meterPeriod_keeps {s} : Keeps s (meterPeriod s) := by
  unfold meterPeriod
  exact .ite .refl (.foldl .refl (fun _ _ => meterLeave_keeps))

/-! ## Vehicle operations -/

theorem modSess_keeps {n f s} : Keeps s (modSess n f s) := by
  unfold modSess
  exact .veh .refl

theorem meterEnd_keeps {n s} : Keeps s (meterEnd n s) := by
  unfold meterEnd
  split
  · split
    · exact .ite meterClose_keeps .refl
    · exact .refl
  · exact .refl

theorem endSession_keeps {n cause s} : Keeps s (endSession n cause s) := by
  unfold endSession
  exact .ite (.step (.step (.veh modSess_keeps) evt_keeps) meterEnd_keeps) (.ite modSess_keeps .refl)

theorem endAllSessions_keeps {cause s} : Keeps s (endAllSessions cause s) := by
  unfold endAllSessions
  exact .foldl .refl (fun _ _ => endSession_keeps)

theorem endBaySession_keeps {i cause s} : Keeps s (endBaySession i cause s) := by
  unfold endBaySession
  split
  · exact endSession_keeps
  · exact .refl

/-! ## Operating modes -/

theorem slowEnable_keeps {s x} : LaneKeeps x (slowEnable s x) := by
  unfold slowEnable
  exact .foldl .refl (fun _ _ => .ite enableLoop_keeps .refl)

theorem goMode_keeps {m s} : Keeps s (goMode m s) := by
  unfold goMode
  exact .ite enterMode_keeps (.bothLanes enterMode_keeps (fun _ => slowEnable_keeps))

theorem shiftMode_keeps {m s} : Keeps s (shiftMode m s) := by
  unfold shiftMode
  exact .modes goMode_keeps

theorem rampLane_keeps {t x} : LaneKeeps x (rampLane t x) := by
  unfold rampLane
  exact .leaf

theorem safeBoundary_keeps {s} : Keeps s (safeBoundary s) := by
  unfold safeBoundary
  split
  · exact .refl
  · exact .ite (.bothLanes (.step (.bothLanes .refl (fun _ => rampLane_keeps)) endAllSessions_keeps) (fun _ => slowEnable_keeps)) .refl

theorem modeCompletion_keeps {s} : Keeps s (modeCompletion s) := by
  unfold modeCompletion
  split
  · exact .refl
  · exact .ite goMode_keeps .refl

theorem sessionsPeriod_keeps {s} : Keeps s (sessionsPeriod s) := by
  unfold sessionsPeriod
  exact .veh .refl

/-! ## Resets -/

theorem LaneState.reset_queue {q} (hq : q < 128) : nth LaneState.reset.queues q = HwQueue.empty (queueDepth q) := by
  show nth ((List.range 128).map fun q => HwQueue.empty (queueDepth q)) q = _
  simp [nth, hq]

theorem QueuesOk.reset : QueuesOk LaneState.reset.queues :=
  ⟨rfl, fun _ hq => by rw [LaneState.reset_queue hq]; rfl⟩

theorem Inv.lane {s} (h : Inv s) (l : Lane) : LaneInv (s.lane l) := by
  obtain ⟨ha, hb, -⟩ := Inv.iff.1 h
  cases l
  · exact ha
  · exact hb

/-- Each list of a lane after reset has one entry for each thing it numbers, and its queues are empty with full credit. -/
theorem LaneState.reset_inv : LaneInv LaneState.reset :=
  ⟨by decide, rfl, by decide, .reset, rfl, rfl, rfl, rfl, rfl⟩

/-- A lane after a device reset is a lane after reset but for its counts, and its queues are empty. -/
theorem LaneState.deviceReset_keeps {x} : LaneKeeps x (LaneState.deviceReset x) := by
  obtain ⟨hlists, htiles, hloops, -, hrest⟩ := LaneState.reset_inv
  exact fun ⟨_, _, _, hq, _⟩ => ⟨hlists, htiles, hloops, hq.mapIdx fun _ _ _ _ => rfl, hrest⟩

theorem Comm.reset_ok : CommOk Comm.reset := ⟨rfl, rfl, .nil⟩

theorem Channel.reset_ok : ChansOk State.reset.chans := ⟨rfl, by decide⟩

theorem deviceReset_keeps {s} : Keeps s (deviceReset s) :=
  .leaf (laneA := LaneState.deviceReset_keeps) (laneB := LaneState.deviceReset_keeps) (veh := fun _ => rfl)
    (chans := fun _ => Channel.reset_ok) (comm := fun _ => Comm.reset_ok)

theorem latchCause_keeps {n s} : Keeps s (latchCause n s) := by
  unfold latchCause
  exact .bk .refl

theorem resetWith_keeps {cause s} : Keeps s (resetWith cause s) := by
  unfold resetWith
  exact .step latchCause_keeps deviceReset_keeps

theorem setRole_keeps {l r s} : Keeps s (setRole l r s) := setRole_only.keeps

theorem HwQueue.reset_balanced {d k} : (HwQueue.reset d k).credit + (HwQueue.reset d k).entries.length = d := rfl

theorem LaneState.afterReset_keeps {x} : LaneKeeps x (LaneState.afterReset x) := by
  obtain ⟨⟨-, hb0, hb1, ho, hl⟩, -, hloops, -, -, hm, hsh⟩ := LaneState.reset_inv
  exact fun ⟨⟨hlinks, _⟩, htiles, _, hq, hrole, _⟩ =>
    ⟨⟨by simpa [LaneState.afterReset] using hlinks, hb0, hb1, ho, hl⟩, by simpa [LaneState.afterReset] using htiles, hloops,
      hq.mapIdx fun _ _ _ _ => HwQueue.reset_balanced, hrole, hm, hsh⟩

theorem resetLane_keeps {l s} : Keeps s (resetLane l s) := by
  unfold resetLane
  exact .modLane .refl (fun _ => LaneState.afterReset_keeps)

theorem afterStandbyLoss_keeps {s} : Keeps s (afterStandbyLoss s) := by
  unfold afterStandbyLoss
  exact .ite shiftMode_keeps .refl

theorem junctionFail_keeps {l code s} : Keeps s (junctionFail l code s) := by
  unfold junctionFail
  exact .jct (.step (.step resetLane_keeps latchCause_keeps) setRole_keeps)

theorem safeExit_keeps {s} : Keeps s (safeExit s) := by
  unfold safeExit
  exact .ite latchCause_keeps .refl

/-! ## Sources of the site bus -/

theorem modSite_keeps {f s} : Keeps s (modSite f s) := (modSite_only (l := .a)).keeps

theorem reselect_keeps {v s} : Keeps s (reselect v s) := (reselect_only (l := .a)).keeps

/-! ## Frames to the links -/

theorem sendFrames_keeps {s} : Keeps s (sendFrames s) := (sendFrames_only (l := .a)).keeps

theorem idleLinks_keeps {s} : Keeps s (idleLinks s) := (idleLinks_only (l := .a)).keeps

/-! ## Supply rails -/

theorem abortSequence_keeps {s} : Keeps s (abortSequence s) := (abortSequence_only (l := .a)).keeps

theorem plainReset_keeps {cause s} : Keeps s (plainReset cause s) := by
  unfold plainReset
  exact .step abortSequence_keeps resetWith_keeps

theorem modJct_keeps {f s} : Keeps s (modJct f s) := (modJct_only (l := .a)).keeps

theorem modBk_keeps {f s} (hf : ∀ k : Backup, k.inputs.length = 4 → (f k).inputs.length = 4 :=
      by first | exact fun _ => id | (intro k h; simpa using h)) : Keeps s (modBk f s) :=
  .bk .refl (hf _)

theorem noteOff_keeps {r s} : Keeps s (noteOff r s) := by
  unfold noteOff
  exact .ite modBk_keeps .refl

theorem modRails_keeps {f s} : Keeps s (modRails f s) := (modRails_only (l := .a)).keeps

theorem checkPor_keeps {s} : Keeps s (checkPor s) := by
  unfold checkPor
  exact .ite (.bothLanes (.bk .refl fun _ => rfl) (fun _ => LaneState.porReset_only.keeps)) .refl

theorem backupEntryEffect_keeps {s} : Keeps s (backupEntryEffect s) := by
  unfold backupEntryEffect
  exact .ite .refl (.step (.modes (.step (.step (.step (.step abortSequence_keeps deviceReset_keeps) noteOff_keeps) modRails_keeps)
    modJct_keeps)) checkPor_keeps)

theorem latchStop_keeps {s} : Keeps s (latchStop s) := (latchStop_only (l := .a)).keeps

theorem tempLane_keeps {l t s} : Keeps s (tempLane l t s) := by
  unfold tempLane
  exact .modLane (.ite (.step (.step (.ite State.useFree_keeps .refl) latchCause_keeps) latchStop_keeps) (.ite State.useFree_keeps
    .refl)) (fun _ => .step (.temp .refl) tempEvents_only.keeps)

theorem dieTempEffect_keeps {t s} : Keeps s (dieTempEffect t s) := by
  unfold dieTempEffect
  exact .ite .refl (.ite (.step (.met (.step (.step tempLane_keeps tempLane_keeps) modJct_keeps)) takeSafe_keeps) (.met (.step (.step
    tempLane_keeps tempLane_keeps) modJct_keeps)))

theorem junctionLose_keeps {s} : Keeps s (junctionLose s) := (junctionLose_only (l := .a)).keeps

theorem execRailFaultLatchClear_keeps {mask s} : KeepsNext s (execRailFaultLatchClear mask s) := by
  unfold execRailFaultLatchClear
  exact .next (hostWrite_keeps (fun _ => modBk_keeps))

theorem powerFailEndEffect_keeps {s} : Keeps s (powerFailEndEffect s) := by
  unfold powerFailEndEffect
  exact .ite (.met modBk_keeps) .refl

theorem powerFailWarningEffect_keeps {s} : Keeps s (powerFailWarningEffect s) := by
  unfold powerFailWarningEffect
  exact .ite .refl (.met (.step (.step modBk_keeps latchCause_keeps) evt_keeps))

theorem holdLane_keeps {l s} : Keeps s (holdLane l s) := by
  unfold holdLane
  exact .modLane resetLane_keeps (fun _ => .ctl .refl)

theorem ringFault_keeps {s} : Keeps s (ringFault s) := by
  unfold ringFault
  exact .step (.step (.step (.step (.step (.step (.step (.step takeSafe_keeps modJct_keeps) modRails_keeps) idleLinks_keeps)
    modJct_keeps) resetLane_keeps) resetLane_keeps) setRole_keeps) setRole_keeps

theorem railAction_keeps {r s} : Keeps s (railAction r s) := by
  unfold railAction
  split
  · exact holdLane_keeps
  · exact .ite ringFault_keeps (.ite junctionLose_keeps .refl)

theorem railFaultEffect_keeps {r ov s} : Keeps s (railFaultEffect r ov s) := by
  unfold railFaultEffect
  refine .ite .refl ?_
  extract_lets y z
  have latched : Keeps y z := by
    unfold z
    split
    · exact .step (.step (.step modBk_keeps latchCause_keeps) evt_keeps) emcySend_keeps
    · exact .ite modBk_keeps .refl
  exact .step (.step (.step (.step modRails_keeps latched) railAction_keeps) noteOff_keeps) checkPor_keeps

theorem restartLaneIfFree_keeps {l s} : Keeps s (restartLaneIfFree l s) := restartLaneIfFree_only.keeps

theorem railRecoveredEffect_keeps {r s} : Keeps s (railRecoveredEffect r s) := by
  unfold railRecoveredEffect
  exact .ite .refl (.ite (.step (.step (.step (.step (.step (.ite (.step modRails_keeps modBk_keeps) modRails_keeps)
    restartLaneIfFree_keeps) restartLaneIfFree_keeps) safeExit_keeps) plainReset_keeps) modRails_keeps) (.step (.step (.ite (.step
    modRails_keeps modBk_keeps) modRails_keeps) restartLaneIfFree_keeps) restartLaneIfFree_keeps))

theorem releaseReset_keeps {s} : Keeps s (releaseReset s) := (releaseReset_only (l := .a)).keeps

theorem resetReleaseEffect_keeps {s} : Keeps s (resetReleaseEffect s) := by
  unfold resetReleaseEffect
  exact .step (.ite deviceReset_keeps .refl) releaseReset_keeps

/-! ## The backup domain -/

theorem rtcWriteEffect_keeps {v s} : Keeps s (rtcWriteEffect v s) := by
  unfold rtcWriteEffect
  exact .step modBk_keeps reselect_keeps

theorem execRtcWrite_keeps {v s} : KeepsNext s (execRtcWrite v s) := by
  unfold execRtcWrite
  exact .next (hostWrite_keeps (fun _ => rtcWriteEffect_keeps))

theorem tamperClearEffect_keeps {m s} : Keeps s (tamperClearEffect m s) := by
  unfold tamperClearEffect
  exact modBk_keeps

theorem execTamperLatchClear_keeps {mask s} : KeepsNext s (execTamperLatchClear mask s) := by
  unfold execTamperLatchClear
  exact .next (hostWrite_keeps (fun _ => tamperClearEffect_keeps))

theorem wakeBy_keeps {n s} : Keeps s (wakeBy n s) := by
  unfold wakeBy
  exact .step modBk_keeps latchCause_keeps

theorem rtcAlarmEffect_keeps {s} : Keeps s (rtcAlarmEffect s) := by
  unfold rtcAlarmEffect
  exact .ite (.ite wakeBy_keeps evt_keeps) .refl

theorem rtcCompareEffect_keeps {s} : Keeps s (rtcCompareEffect s) := by
  unfold rtcCompareEffect
  exact .ite (.ite (.step (.step (.site .refl) evt_keeps) modBk_keeps) (.site .refl)) .refl

theorem securityLanes_keeps {scope s} : Keeps s (securityLanes scope s) := (securityLanes_only (l := .a)).keeps

theorem breachEffect_keeps {s} : Keeps s (breachEffect s) := by
  unfold breachEffect
  exact .ite modBk_keeps (.ite (.step (.step lifeDestroy_keeps safeExit_keeps) plainReset_keeps) .refl)

theorem securityTamperEffect_keeps {cls scope s} : Keeps s (securityTamperEffect cls scope s) := by
  unfold securityTamperEffect
  exact .ite .refl (.ite (.step (.step (.ite modBk_keeps (.step modBk_keeps evt_keeps)) securityLanes_keeps) breachEffect_keeps) (.step
    (.ite modBk_keeps (.step modBk_keeps evt_keeps)) securityLanes_keeps))

theorem tamperLatchEffect_keeps {i s} : Keeps s (tamperLatchEffect i s) := by
  unfold tamperLatchEffect
  exact .ite .refl modBk_keeps

/-! ## Metrology operations -/

theorem modMet_keeps {f s} (hf : ∀ m, MetKeeps m (f m)) : Keeps s (modMet f s) :=
  .met .refl (hf _)

/-! ## The metrology barrier -/

theorem serve_keeps {q op f s} (hf : ∀ m, MetKeeps m (f m).1) : Keeps s (serve q op f s) := by
  unfold serve
  exact .ite .refl (by split <;> [exact modMet_keeps fun _ => reply_metKeeps; exact modMet_keeps fun _ => (hf _).step reply_metKeeps])

theorem ackLatches_keeps {latches s} : Keeps s (ackLatches latches s) := by
  unfold ackLatches
  exact .bk .refl

theorem barrierTamperEffect_keeps {q latches pf pfValid s} : Keeps s (barrierTamperEffect q latches pf pfValid s) := by
  have asked : ∀ {x}, Keeps x (serve q 0xC (tamperMet latches pf pfValid) x) := serve_keeps fun _ => tamperMet_metKeeps
  unfold barrierTamperEffect
  exact .ite (.step asked ackLatches_keeps) asked

theorem barrierReadEffect_keeps {q n block s} : Keeps s (barrierReadEffect q n block s) := by
  unfold barrierReadEffect
  split
  · exact .modLane (serve_keeps fun _ => .refl) fun _ => holdBlock_only.keeps
  · exact serve_keeps fun _ => .refl

theorem statusEffect_keeps {q s} : Keeps s (statusEffect q s) := by
  have asked : ∀ {x} {f : LaneState → GridRx},
      Keeps x ((serve q 1 (fun m => (m, 0, statusBytes m)) x).modLane q.lane fun y => { y with grid := f y }) :=
    .modLane (serve_keeps fun _ => .refl) fun _ => .grid .refl
  unfold statusEffect
  exact .ite asked (.ite (asked.step readyReported_keeps) (asked.step endAllSessions_keeps))

/-! ## Waypoint -/

theorem LaneState.modTile_keeps {t f x} : LaneKeeps x (LaneState.modTile t f x) := by
  unfold LaneState.modTile
  exact .tiles .refl

theorem moduleTakeoverLane_keeps {s j x} : LaneKeeps x (moduleTakeoverLane s j x) := by
  unfold moduleTakeoverLane
  exact .ite .refl (.ite LaneState.modMod_keeps (.ite LaneState.modMod_keeps LaneState.modMod_keeps))

theorem countMove_keeps {s j completes x} : LaneKeeps x (countMove s j completes x) := by
  unfold countMove
  exact .ite .refl LaneState.modWp_keeps

theorem onModuleLoop_keeps {f j x} (hf : ∀ i y, LaneKeeps y (f i y)) : LaneKeeps x (onModuleLoop f j x) := by
  unfold onModuleLoop
  split
  · exact hf _ _
  · exact .refl

theorem rampUp_keeps {s j bay completes x} : LaneKeeps x (rampUp s j bay completes x) := by
  unfold rampUp
  exact .step (.step (.step LaneState.modMod_keeps (onModuleLoop_keeps (fun _ _ => enableLoop_keeps))) LaneState.modMod_keeps)
    countMove_keeps

theorem moveRampUpLane_keeps {s j x} : LaneKeeps x (moveRampUpLane s j x) := by
  unfold moveRampUpLane
  exact .ite .refl (.ite rampUp_keeps (.ite (.ite rampUp_keeps LaneState.modMod_keeps) .refl))

theorem afterOpen_keeps {s x j} : LaneKeeps x (afterOpen s x j) := by
  unfold afterOpen
  exact .ite LaneState.modMod_keeps (.ite LaneState.modMod_keeps (.ite LaneState.modMod_keeps LaneState.modMod_keeps))

theorem fltBack_keeps {j x} : LaneKeeps x (fltBack j x) := by
  unfold fltBack
  exact .step (.step LaneState.modMod_keeps abandon_keeps) LaneState.event_only.keeps

theorem moveAdvanceLane_keeps {s j x} : LaneKeeps x (moveAdvanceLane s j x) := by
  unfold moveAdvanceLane
  refine .ite .refl ?_
  split
  · exact .ite (.step LaneState.modMod_keeps (onModuleLoop_keeps (fun _ _ => disableLoop_keeps))) .refl
  · exact .ite LaneState.modMod_keeps .refl
  · exact .ite LaneState.modMod_keeps .refl
  · exact .ite afterOpen_keeps .refl
  · exact .ite fltBack_keeps (.ite LaneState.modMod_keeps .refl)
  · exact .ite fltBack_keeps (.ite LaneState.modMod_keeps .refl)
  · exact .refl

theorem moveTimeoutLane_keeps {s j x} : LaneKeeps x (moveTimeoutLane s j x) := by
  unfold moveTimeoutLane
  refine .ite .refl ?_
  split
  · exact .ite (onModuleLoop_keeps (fun _ _ => enterFault_keeps)) .refl
  · exact .step abandon_keeps retireBySwitch_keeps
  · exact .step (.step LaneState.modMod_keeps abandon_keeps) LaneState.event_only.keeps
  · exact .ite .refl LaneState.modMod_keeps

theorem moveTick_keeps {s x} : LaneKeeps x (moveTick s x) := by
  unfold moveTick
  exact LaneState.modWp_keeps

theorem wpPeriod_keeps {s x} : LaneKeeps x (wpPeriod s x) := by
  unfold wpPeriod
  exact .ite (.step (.step (.ite .refl LaneState.modWp_keeps) LaneState.modWp_keeps) publishMlim_keeps) (.ite .refl LaneState.modWp_keeps)

theorem withdrawals_keeps {s x} : LaneKeeps x (withdrawals s x) := by
  unfold withdrawals
  exact .foldl .refl (fun _ _ => .ite .refl (.ite LaneState.modMod_keeps (.ite LaneState.modMod_keeps .refl)))

theorem donorRuns_keeps {s x} : LaneKeeps x (donorRuns s x) := by
  unfold donorRuns
  exact LaneState.modWp_keeps

theorem placeMoves_keeps {s n x bays started un} : LaneKeeps x (placeMoves s n x bays started un).1 := by
  induction n generalizing x bays started un with
  | zero => exact .refl
  | succ n ih =>
    unfold placeMoves
    dsimp only
    split
    · exact .refl
    · split
      · exact .refl
      · split
        · exact ih
        · exact LaneState.modMod_keeps.step ih

theorem reassessLane_keeps {s x} : LaneKeeps x (reassessLane s x) := by
  unfold reassessLane
  exact .step (.step (.step donorRuns_keeps withdrawals_keeps) placeMoves_keeps) LaneState.modWp_keeps

theorem reassessmentEffect_keeps {l s} : Keeps s (reassessmentEffect l s) := by
  unfold reassessmentEffect
  exact .ite (.modLane .refl (fun _ => reassessLane_keeps)) .refl

theorem copyTile_keeps {t u x} : LaneKeeps x (copyTile t u x) := by
  unfold copyTile
  exact LaneState.modTile_keeps

theorem movePlaces_keeps {t u x} : LaneKeeps x (movePlaces t u x) := by
  unfold movePlaces
  exact .foldl .refl (fun _ _ => LaneState.modLoop_keeps)

theorem rotatingTestLane_keeps {t x} : LaneKeeps x (rotatingTestLane t x) := by
  unfold rotatingTestLane
  refine .ite .refl ?_
  split
  · exact .refl
  · exact .step (.step (.step (.step (.step movePlaces_keeps copyTile_keeps) LaneState.modTile_keeps) LaneState.modTile_keeps) .leaf)
      LaneState.modWp_keeps

theorem spareTakeoverLane_keeps {x} : LaneKeeps x (spareTakeoverLane x) := by
  unfold spareTakeoverLane
  split
  · exact .step (.step (.step movePlaces_keeps LaneState.modTile_keeps) LaneState.modTile_keeps) LaneState.modWp_keeps
  · exact .refl

theorem thetaWindowLane_keeps {s j x} : LaneKeeps x (thetaWindowLane s j x) := by
  unfold thetaWindowLane
  exact .ite (.step (.step LaneState.modMod_keeps retireDecision_keeps) LaneState.modMod_keeps) LaneState.modMod_keeps

theorem replaceLoop_keeps {s i b x} : LaneKeeps x (replaceLoop s i b x) := by
  unfold replaceLoop
  dsimp only; split
  · exact .step LaneState.modLoop_keeps placeLoop_keeps
  · exact .step (.ite (.step (.step LaneState.modLoop_keeps placeLoop_keeps) restartLoop_keeps) (.step LaneState.modLoop_keeps
      placeLoop_keeps)) LaneState.modTile_keeps

theorem loseTile_keeps {s t x} : LaneKeeps x (loseTile s t x) := by
  have replaced : ∀ {y} {out : List (LoopId × StateBlock)}, LaneKeeps x y →
      LaneKeeps x (out.foldl (fun z p => replaceLoop s p.1 p.2 z) (y.modTile t toTest)) :=
    fun h => .foldl (.step h LaneState.modTile_keeps) fun _ _ => replaceLoop_keeps
  unfold loseTile
  refine .ite ?_ (replaced .refl)
  split
  · exact LaneState.modTile_keeps
  · exact replaced (.step (.step movePlaces_keeps copyTile_keeps) LaneState.modTile_keeps)

theorem clearBad_keeps {t x} : LaneKeeps x (clearBad t x) := by
  unfold clearBad
  refine .foldl .refl fun _ _ => .ite ?_ .refl
  extract_lets y
  refine LaneKeeps.step (y := y) LaneState.modTile_keeps ?_
  split
  · exact .ite .refl restartLoop_keeps
  · exact .refl

theorem tileReliefLane_keeps {s t x} : LaneKeeps x (tileReliefLane s t x) := by
  unfold tileReliefLane
  refine .ite .refl ?_
  split
  · exact loseTile_keeps
  · exact .step (.step (.step copyTile_keeps clearBad_keeps) LaneState.modTile_keeps) LaneState.modWp_keeps

theorem tileTestLane_keeps {t pass x} : LaneKeeps x (tileTestLane t pass x) := by
  unfold tileTestLane
  exact .ite .refl (.ite (.step LaneState.modTile_keeps .leaf) (.step (.step LaneState.modTile_keeps .leaf) LaneState.event_only.keeps))

/-! ## Links -/

theorem linkTo_keeps {n st x} : LaneKeeps x (linkTo n st x) := by
  unfold linkTo
  exact .step LaneState.modLink_keeps LaneState.event_only.keeps

theorem linkSyncLane_keeps {s n x} : LaneKeeps x (linkSyncLane s n x) := by
  unfold linkSyncLane
  exact .ite (.step (.step LaneState.modLink_keeps LaneState.modLink_keeps) linkTo_keeps) LaneState.modLink_keeps

theorem reactWords_keeps {s n x} : LaneKeeps x (reactWords s n x) := by
  unfold reactWords
  split
  · split
    · exact .ite (.step LaneState.modLink_keeps LaneState.modLoop_keeps) LaneState.modLink_keeps
    · exact LaneState.modLink_keeps
  · exact LaneState.modLink_keeps

theorem failLink_keeps {l n cause s} : Keeps s (failLink l n cause s) := by
  unfold failLink
  exact .setLane .refl (.step (.step (.step LaneState.modLink_keeps linkTo_keeps) LaneState.event_only.keeps) reactWords_keeps)

theorem linkFailEffect_keeps {l n c s} : Keeps s (linkFailEffect l n c s) := by
  unfold linkFailEffect
  exact .ite failLink_keeps .refl

theorem toAcquire_keeps {n seen x} : LaneKeeps x (toAcquire n seen x) := by
  unfold toAcquire
  exact .step LaneState.modLink_keeps linkTo_keeps

theorem linkRetryLane_keeps {n x} : LaneKeeps x (linkRetryLane n x) := by
  unfold linkRetryLane
  exact .ite toAcquire_keeps .refl

theorem linkSyncLostEffect_keeps {l n s} : Keeps s (linkSyncLostEffect l n s) := by
  unfold linkSyncLostEffect
  dsimp only; split
  · exact .step (.modLane .refl (fun _ => LaneState.modLink_keeps)) failLink_keeps
  · exact .ite (.modLane .refl (fun _ => LaneState.modLink_keeps)) (.modLane (.modLane .refl (fun _ => LaneState.modLink_keeps))
      (fun _ => linkTo_keeps))
  · exact .modLane .refl (fun _ => LaneState.modLink_keeps)
  · exact .modLane (.modLane .refl (fun _ => LaneState.modLink_keeps)) (fun _ => .step LaneState.modLink_keeps linkTo_keeps)

theorem storeFrame_keeps {s n f x} : LaneKeeps x (storeFrame s n f x) := by
  unfold storeFrame
  exact .ite .refl (.step modCurBank_keeps LaneState.modLink_keeps)

theorem linkUpLane_keeps {s n x} : LaneKeeps x (linkUpLane s n x) := by
  unfold linkUpLane
  dsimp only; split
  · exact .ite (.step (.step LaneState.modLink_keeps linkTo_keeps) storeFrame_keeps) .refl
  · exact .refl

theorem linkBack_keeps {s n x} : LaneKeeps x (linkBack s n x) := by
  unfold linkBack
  exact .foldl LaneState.modLink_keeps (fun _ _ => .ite .refl restartLoop_keeps)

theorem takeBackLane_keeps {s x} : LaneKeeps x (takeBackLane s x) := by
  unfold takeBackLane
  exact .ite (.foldl .refl (fun _ _ => .ite linkBack_keeps .refl)) .refl

theorem cabinetLost_keeps {s c x} : LaneKeeps x (cabinetLost s c x) := by
  unfold cabinetLost
  exact .foldl .refl (fun _ _ => .ite .refl (.ite (.step (.step (.ite (.step abandon_keeps LaneState.event_only.keeps) .refl)
    (onModuleLoop_keeps (fun _ _ => loopOff_keeps))) LaneState.modMod_keeps) (.step (.step (.ite (.step abandon_keeps
    LaneState.event_only.keeps) .refl) (onModuleLoop_keeps (fun _ _ => loopOff_keeps))) LaneState.modMod_keeps)))

theorem headLost_keeps {i x} : LaneKeeps x (headLost i x) := by
  unfold headLost
  split
  · exact loopOff_keeps
  · exact .refl

theorem converterLost_keeps {s i x} : LaneKeeps x (converterLost s i x) := by
  unfold converterLost
  dsimp only
  refine .share ?_ fun h => ?_
  · split
    · exact loopOff_keeps
    · exact .refl
  · exact ⟨by rw [upd_length]; exact (stringLost_shareOk h).1, (stringLost_shareOk h).2⟩

theorem reactLane_keeps {s n x} : LaneKeeps x (reactLane s n x) := by
  unfold reactLane
  extract_lets y z u
  have cab : LaneKeeps y z := by
    unfold z
    split
    · exact .ite cabinetLost_keeps .refl
    · exact .refl
  have bay : LaneKeeps z u := by
    unfold u
    split
    · exact .ite headLost_keeps .refl
    · exact .refl
  refine .step (.step (.step LaneState.modLink_keeps cab) bay) ?_
  split
  · exact .ite converterLost_keeps .refl
  · exact .refl

theorem reactDueLane_keeps {s x} : LaneKeeps x (reactDueLane s x) := by
  unfold reactDueLane
  exact .foldl .refl (fun _ _ => .ite reactLane_keeps .refl)

theorem reactSession_keeps {l n s} : Keeps s (reactSession l n s) := by
  unfold reactSession
  exact .ite (by split <;> [exact endBaySession_keeps; exact .refl]) .refl

theorem linkReactions_keeps {s} : Keeps s (linkReactions s) := by
  unfold linkReactions
  split
  · exact .foldl (.bothLanes .refl (fun _ => .step reactDueLane_keeps takeBackLane_keeps)) (fun _ _ => .ite reactSession_keeps .refl)
  · exact .bothLanes .refl (fun _ => .step reactDueLane_keeps takeBackLane_keeps)

theorem seqAdoptLane_keeps {n x} : LaneKeeps x (seqAdoptLane n x) := by
  unfold seqAdoptLane
  exact .ite (.step LaneState.modLink_keeps LaneState.event_only.keeps) .refl

theorem receiveLane_keeps {s n f x} : LaneKeeps x (receiveLane s n f x) := by
  unfold receiveLane
  refine .ite .refl ?_
  split
  · exact .ite (.step (.step LaneState.modLink_keeps toAcquire_keeps) LaneState.modLink_keeps) LaneState.modLink_keeps
  · exact .ite LaneState.modLink_keeps (.ite (.step (.ite LaneState.modLink_keeps (.step LaneState.modLink_keeps
      LaneState.modLink_keeps)) LaneState.modLink_keeps) (.ite (.step (.ite LaneState.modLink_keeps (.step LaneState.modLink_keeps
      LaneState.modLink_keeps)) LaneState.modLink_keeps) (.ite LaneState.modLink_keeps (.step LaneState.modLink_keeps
      LaneState.modLink_keeps))))
  · refine .ite LaneState.modLink_keeps ?_
    split
    · exact .step LaneState.modLink_keeps storeFrame_keeps
    · exact .step LaneState.modLink_keeps LaneState.modLink_keeps
    · exact LaneState.modLink_keeps
  · exact LaneState.modLink_keeps

/-! ## Storage -/

theorem modNand_keeps {f s} : Keeps s (modNand f s) := (modNand_only (l := .a)).keeps

theorem archive_keeps {st data s} : Keeps s (archive st data s) := (archive_only (l := .a)).keeps

theorem scrubRestart_keeps {s} : Keeps s (scrubRestart s) := by
  unfold scrubRestart
  exact .bk (.ite modNand_keeps .refl)

theorem nandBoot_keeps {l ok s} : Keeps s (nandBoot l ok s) := by
  unfold nandBoot
  exact .ite (.step modNand_keeps scrubRestart_keeps) (.step modNand_keeps evtLane_keeps)

theorem flushSigned_keeps {l s} : Keeps s (flushSigned l s) := flushSigned_only.keeps

/-! ## The recorder -/

theorem eventClearEffect_keeps {v s} : Keeps s (eventClearEffect v s) := (eventClearEffect_only (l := .a)).keeps

theorem modRecs_keeps {f s} : Keeps s (modRecs f s) := (modRecs_only (l := .a)).keeps

theorem flushLane_keeps {l s} : Keeps s (flushLane l s) := flushLane_only.keeps

theorem eventReadEffect_keeps {s} : Keeps s (eventReadEffect s) := by
  unfold eventReadEffect
  exact .step (.step (.ite State.useFree_keeps .refl) modRecs_keeps) respond_keeps

theorem checkRecords_keeps {l s} : Keeps s (checkRecords l s) := checkRecords_only.keeps

theorem execEventClear_keeps {v s} : KeepsNext s (execEventClear v s) := by
  unfold execEventClear
  exact .next (hostRange_keeps (fun _ => eventClearEffect_keeps))

/-! ## Boot -/

theorem modUpd_keeps {f s} : Keeps s (modUpd f s) := (modUpd_only (l := .a)).keeps

theorem firstMessages_keeps {l s} : Keeps s (firstMessages l s) := by
  unfold firstMessages
  exact .step (.step State.useFree_keeps barrierTamperEffect_keeps) (serve_keeps fun _ => timeMet_metKeeps)

theorem eraseRejected_keeps {s} : Keeps s (eraseRejected s) := (eraseRejected_only (l := .a)).keeps

theorem channelsStart_ok (s : State) : ChansOk ((List.range 4).map (channelStart s)) := by
  refine ⟨rfl, fun c hc => ?_⟩
  obtain ⟨n, -, rfl⟩ := List.mem_map.1 hc
  exact ⟨rfl, rfl⟩

theorem appointEffect_keeps {s} : Keeps s (appointEffect s) := by
  have appointed : ∀ {x l j}, Keeps x (modJct j (setRole l .active x)) := setRole_keeps.step modJct_keeps
  unfold appointEffect
  refine .ite .refl ?_
  split
  · exact .refl
  · exact .step (.step (.step (.step (.modLane (.step (.ite (appointed.step junctionFail_keeps) appointed) (.leaf (chans
      := fun _ => channelsStart_ok _))) fun _ => .ctl .refl) eraseRejected_keeps) nmtFrame_keeps) firstMessages_keeps) (goMode_keeps.step
      recheckSpares_keeps)

theorem bootStep4_keeps {l f s} : Keeps s (bootStep4 l f s) := by
  unfold bootStep4
  split
  · exact .modLane .refl (fun _ => .ctl .refl)
  · exact .ite (.step (.step (.modLane .refl (fun _ => .leaf)) latchCause_keeps) evtLane_keeps) (.modLane .refl (fun _ => .leaf))

theorem activateSlot_keeps {l s} : Keeps s (activateSlot l s) := activateSlot_only.keeps

theorem rejectImage_keeps {l k code s} : Keeps s (rejectImage l k code s) := rejectImage_only.keeps

theorem stagingBuffer_keeps {l readable k s} : Keeps s (stagingBuffer l readable k s) := stagingBuffer_only.keeps

theorem bootStep3_keeps {l f s} : Keeps s (bootStep3 l f s) := by
  unfold bootStep3
  exact .ite (.step (.step (.step nandBoot_keeps stagingBuffer_keeps) stagingBuffer_keeps) eraseRejected_keeps) (.step (.step
    nandBoot_keeps stagingBuffer_keeps) stagingBuffer_keeps)

theorem bootLife_keeps {s} : Keeps s (bootLife s).1 := by
  have breach : Keeps s (modBk (fun k => { k with breach := false }) s) := modBk_keeps
  unfold bootLife
  dsimp only
  split
  · exact lifeMove_keeps
  · split
    · split
      · exact breach.step (lifeMove_keeps.step latchCause_keeps)
      · exact breach
    · exact .refl

theorem bootStep2_keeps {l s} : Keeps s (bootStep2 l s) := by
  unfold bootStep2
  refine .modLane (.modLane bootLife_keeps fun _ => ?_) fun _ => .leaf
  exact .ite (.ks .refl) .refl

theorem linksBoot_keeps {s x} : LaneKeeps x (linksBoot s x) := by
  unfold linksBoot
  exact .foldl .refl (fun _ _ => .ite linkSyncLane_keeps .refl)

theorem buildLane_keeps {s x} : LaneKeeps x (buildLane s x) := by
  unfold buildLane
  exact .tiles (.step linksBoot_keeps placeAll_keeps)

theorem bootStep7_keeps {l f s} : Keeps s (bootStep7 l f s) := by
  unfold bootStep7
  exact .ite (.modLane .refl (fun _ => .step (.ctl .refl) buildLane_keeps)) (.ite (.step (.modLane .refl (fun _ => .step (.ctl .refl)
    buildLane_keeps)) junctionFail_keeps) (.step (.modLane .refl (fun _ => .step (.ctl .refl) buildLane_keeps)) modJct_keeps))

theorem setFlag_ok {n k} (h : SetsOk k) : SetsOk (setFlag n k) := h

theorem crcReset_ok {k} (h : SetsOk k) : SetsOk (crcReset k) := ⟨.nil, h.2.1, .nil⟩

theorem schemaReset_ok {schema k} : SetsOk (schemaReset schema k) := ⟨.nil, .nil, .nil⟩

theorem loadLive_ok {k} (h : SetsOk k) : SetsOk (loadLive k) := by
  refine ⟨h.1, h.2.1, ?_⟩
  unfold loadLive
  dsimp only
  have hnil : Store.Canonical NotEmpty [] := .nil
  revert hnil
  generalize ([] : Store) = st
  induction k.live generalizing st with
  | nil => exact id
  | cons c l ih =>
    intro hst
    refine ih _ ?_
    dsimp only
    split
    · exact hst.set id
    · exact hst

theorem bootStep6_keeps {l s} : Keeps s (bootStep6 l s) := by
  have onSets : ∀ {x : State} {f : Sets → Sets}, (SetsOk x.sets → SetsOk (f x.sets)) → Keeps x { x with sets := f x.sets } :=
    fun h => .sets .refl h
  unfold bootStep6
  refine .modLane (.ite .refl (.ite (.step (.foldl (.ite .refl (onSets setFlag_ok)) fun _ _ => evtLane_keeps) (onSets loadLive_ok)) (.ite
    (.ite (onSets loadLive_ok) (.step (onSets fun _ => schemaReset_ok) evtLane_keeps)) (.ite .refl (onSets crcReset_ok))))) fun _ => .ctl
    .refl

theorem bootTile_keeps {t x} : LaneKeeps x (bootTile t x) := by
  unfold bootTile
  refine .step (.step (.ite ?_ .refl) LaneState.modTile_keeps) LaneState.event_only.keeps
  split
  · exact LaneState.modTile_keeps
  · exact .refl

theorem bootStep5_keeps {f x} : LaneKeeps x (bootStep5 f x) := by
  unfold bootStep5
  exact .step (.foldl .refl (fun _ _ => bootTile_keeps)) .leaf

theorem laneBootEffect_keeps {l f s} : Keeps s (laneBootEffect l f s) := by
  unfold laneBootEffect
  exact .ite .refl (.ite (.modLane (.ite setRole_keeps .refl) (fun _ => .ctl .refl)) (.ite (.step (.step (.step (.step (.ite
    setRole_keeps .refl) bootStep2_keeps) bootStep3_keeps) activateSlot_keeps) bootStep4_keeps) (.ite (.step (.step (.step (.step (.step
    (.ite setRole_keeps .refl) bootStep2_keeps) bootStep3_keeps) activateSlot_keeps) bootStep4_keeps) junctionFail_keeps) (.step (.step
    (.step (.modLane (.step (.step (.step (.step (.ite setRole_keeps .refl) bootStep2_keeps) bootStep3_keeps) activateSlot_keeps)
    bootStep4_keeps) (fun _ => bootStep5_keeps)) checkRecords_keeps) bootStep6_keeps) bootStep7_keeps))))

theorem laneBootTimeoutEffect_keeps {l s} : Keeps s (laneBootTimeoutEffect l s) := by
  unfold laneBootTimeoutEffect
  exact .ite (.ite (.step junctionFail_keeps setRole_keeps) junctionFail_keeps) .refl

theorem laneWatchdogEffect_keeps {l s} : Keeps s (laneWatchdogEffect l s) := by
  unfold laneWatchdogEffect
  exact .ite .refl (.step latchCause_keeps resetLane_keeps)

/-! ## Site bus channels -/

theorem wakeChannel_keeps {c cause s} : Keeps s (wakeChannel c cause s) := by
  unfold wakeChannel
  exact .step modChan_keeps evt_keeps

theorem execChannelSleep_keeps {c s} : KeepsNext s (execChannelSleep c s) :=
  .next (hostWrite_keeps fun _ => modChan_keeps fun _ => Channel.sleep_keeps)

theorem execChannelWakeCommand_keeps {c s} : KeepsNext s (execChannelWakeCommand c s) := by
  unfold execChannelWakeCommand
  exact .next (hostWrite_keeps (fun _ => .ite wakeChannel_keeps .refl))

theorem execChannelRestart_keeps {c s} : KeepsNext s (execChannelRestart c s) :=
  .next (hostWrite_keeps fun _ => modChan_keeps fun _ => .ite .leaf .refl)

theorem canBusOffEffect_keeps {c s} : Keeps s (canBusOffEffect c s) := by
  unfold canBusOffEffect
  exact .ite (.step (modChan_keeps fun _ => Channel.goOff_keeps) evt_keeps) .refl

theorem canFrameSentEffect_keeps {c ok s} : Keeps s (canFrameSentEffect c ok s) := by
  unfold canFrameSentEffect
  refine .ite ?_ .refl
  split
  · exact modChan_keeps fun _ => Channel.sentEnd_keeps
  · exact .refl

theorem channelWakeEffect_keeps {c k s} : Keeps s (channelWakeEffect c k s) := by
  unfold channelWakeEffect
  refine .ite .refl ?_
  split
  · exact .ite .refl wakeChannel_keeps
  · exact .ite .refl (.ite wakeChannel_keeps modChan_keeps)
  · exact .ite .refl (.ite wakeChannel_keeps modChan_keeps)

theorem refSendEffect_keeps {c s} : Keeps s (refSendEffect c s) := by
  unfold refSendEffect
  exact .ite (modChan_keeps fun _ => .step .leaf Channel.push_keeps) .refl

theorem refTime_keeps {m s} : Keeps s (refTime m s) := (refTime_only (l := .a)).keeps

theorem refReceivedEffect_keeps {c m s} : Keeps s (refReceivedEffect c m s) := by
  unfold refReceivedEffect
  exact .ite .refl (.ite modChan_keeps (.ite (.step modChan_keeps refTime_keeps) modChan_keeps))

theorem scheduleLostEffect_keeps {c s} : Keeps s (scheduleLostEffect c s) := by
  unfold scheduleLostEffect
  exact .ite (.ite (.step (.step modChan_keeps modSite_keeps) reselect_keeps) modChan_keeps) .refl

/-! ## Capture and injection -/

theorem captureTriggered_keeps {n s} : Keeps s (captureTriggered n s) := (captureTriggered_only (l := .a)).keeps

theorem captureArmEffect_keeps {s} : Keeps s (captureArmEffect s) := (captureArmEffect_only (l := .a)).keeps

theorem captureForceEffect_keeps {s} : Keeps s (captureForceEffect s) := (captureForceEffect_only (l := .a)).keeps

theorem captureStopEffect_keeps {s} : Keeps s (captureStopEffect s) := (captureStopEffect_only (l := .a)).keeps

theorem execCaptureArm_keeps {s} : KeepsNext s (execCaptureArm s) := by
  unfold execCaptureArm
  exact .next (hostWrite_keeps (fun _ => captureArmEffect_keeps))

theorem execCaptureForceTrigger_keeps {s} : KeepsNext s (execCaptureForceTrigger s) := by
  unfold execCaptureForceTrigger
  exact .next (hostWrite_keeps (fun _ => captureForceEffect_keeps))

theorem execCaptureStop_keeps {s} : KeepsNext s (execCaptureStop s) := by
  unfold execCaptureStop
  exact .next (hostWrite_keeps (fun _ => captureStopEffect_keeps))

theorem captureAbort_keeps {i s} : Keeps s (captureAbort i s) := (captureAbort_only (l := .a)).keeps

theorem capturePeriod_keeps {s} : Keeps s (capturePeriod s) := (capturePeriod_only (l := .a)).keeps

/-! ## Mode changes -/

theorem modModes_keeps {f s} : Keeps s (modModes f s) := (modModes_only (l := .a)).keeps

theorem startTransition_keeps {m n s} : Keeps s (startTransition m n s) := (startTransition_only (l := .a)).keeps

theorem disableAll_keeps {x} : LaneKeeps x (disableAll x) := by
  unfold disableAll
  exact .foldl .refl (fun _ _ => disableLoop_keeps)

theorem toIdle_keeps {s} : Keeps s (toIdle s) := by
  unfold toIdle
  exact .step (.bothLanes endAllSessions_keeps (fun _ => disableAll_keeps)) startTransition_keeps

theorem modeResult_keeps {r s} : Keeps s (modeResult r s) := (modeResult_only (l := .a)).keeps

theorem modeRequestEffect_keeps {v s} : Keeps s (modeRequestEffect v s) := (modeRequestEffect_only (l := .a)).keeps

theorem execModeRequestWrite_keeps {v s} : KeepsNext s (execModeRequestWrite v s) := by
  unfold execModeRequestWrite
  exact .next (hostWrite_keeps (fun _ => modeRequestEffect_keeps))

theorem resetRequestEffect_keeps {v s} : Keeps s (resetRequestEffect v s) := by
  unfold resetRequestEffect
  exact .ite .refl (.ite (.step safeExit_keeps plainReset_keeps) (.step takeSafe_keeps modModes_keeps))

theorem execResetRequest_keeps {v s} : KeepsNext s (execResetRequest v s) := by
  unfold execResetRequest
  exact .next (hostWrite_keeps (fun _ => resetRequestEffect_keeps))

theorem execResetCauseClear_keeps {mask s} : KeepsNext s (execResetCauseClear mask s) := by
  unfold execResetCauseClear
  exact .next (hostWrite_keeps (fun _ => modBk_keeps))

theorem requestRun_keeps {s} : Keeps s (requestRun s) := (requestRun_only (l := .a)).keeps

theorem sleepSequence_keeps {s} : Keeps s (sleepSequence s) := by
  unfold sleepSequence
  split
  · exact .refl
  · exact .step (.step (.step (.ite (.step (.step goMode_keeps flushLane_keeps) flushLane_keeps) (.step goMode_keeps flushLane_keeps))
      modBk_keeps) modeResult_keeps) modJct_keeps

theorem evalRequest_keeps {v s} : Keeps s (evalRequest v s) := by
  unfold evalRequest
  refine .ite modeResult_keeps (.ite (.step modeResult_keeps takeSafe_keeps) ?_)
  split
  · exact startTransition_keeps
  · exact requestRun_keeps
  · exact startTransition_keeps
  · exact sleepSequence_keeps
  · exact .ite toIdle_keeps modeResult_keeps
  · exact toIdle_keeps
  · exact toIdle_keeps
  · exact startTransition_keeps
  · exact modeResult_keeps

theorem modeRequestTakenEffect_keeps {s} : Keeps s (modeRequestTakenEffect s) := by
  unfold modeRequestTakenEffect
  split
  · exact .refl
  · exact .ite (.step modModes_keeps evalRequest_keeps) .refl

theorem safeNAssertEffect_keeps {s} : Keeps s (safeNAssertEffect s) := by
  unfold safeNAssertEffect
  split
  · exact .refl
  · exact .ite (.ite (.step (.step modJct_keeps safeExit_keeps) plainReset_keeps) modJct_keeps) .refl

theorem safeRampEndEffect_keeps {s} : Keeps s (safeRampEndEffect s) := by
  unfold safeRampEndEffect
  split
  · exact .refl
  · exact .ite (.ite (.bothLanes modModes_keeps (fun _ => LaneState.mapLoops_keeps)) (.step (.bothLanes modModes_keeps
      (fun _ => LaneState.mapLoops_keeps)) modJct_keeps)) .refl

/-! ## Update operations -/

theorem abortSeq_keeps {s} : Keeps s (abortSeq s) := (abortSeq_only (l := .a)).keeps

theorem markFailed_keeps {l s} : Keeps s (markFailed l s) := markFailed_only.keeps

theorem restartLane_keeps {n l s} : Keeps s (restartLane n l s) := by
  unfold restartLane
  exact .step (.step (.step resetLane_keeps latchCause_keeps) setRole_keeps) afterStandbyLoss_keeps

theorem abortOn_keeps {l s} : Keeps s (abortOn l s) := by
  unfold abortOn
  exact .ite (.ite (.step (.step markFailed_keeps abortSeq_keeps) restartLane_keeps) (.step markFailed_keeps abortSeq_keeps)) (.ite
    (.step (.step markFailed_keeps abortSeq_keeps) modJct_keeps) (.ite (.step (.step markFailed_keeps abortSeq_keeps) toIdle_keeps)
    (.step markFailed_keeps abortSeq_keeps)))

/-! ## The junction of the lanes -/

theorem steerTo_keeps {l s} : Keeps s (steerTo l s) := steerTo_only.keeps

theorem crossoverEnableEffect_keeps {s} : Keeps s (crossoverEnableEffect s) := by
  unfold crossoverEnableEffect
  split
  · exact .refl
  · exact .ite (.ite (.step steerTo_keeps shiftMode_keeps) steerTo_keeps) .refl

theorem cancelPlanned_keeps {s} : Keeps s (cancelPlanned s) := (cancelPlanned_only (l := .a)).keeps

theorem judgeEntries_keeps {psA psB n s} : Keeps s (judgeEntries psA psB n s) := by
  unfold judgeEntries
  exact .ite (.step (.ite (.step modJct_keeps latchCause_keeps) modJct_keeps) modJct_keeps) (.ite (.step (.ite (.step (.step (.step
    (.step (.ite (.step modJct_keeps latchCause_keeps) modJct_keeps) modJct_keeps) cancelPlanned_keeps) modJct_keeps) evt_keeps) (.step
    (.step (.step (.ite (.step modJct_keeps latchCause_keeps) modJct_keeps) modJct_keeps) cancelPlanned_keeps) modJct_keeps)) evt_keeps)
    (.ite (.step (.step (.step (.step (.ite (.step modJct_keeps latchCause_keeps) modJct_keeps) modJct_keeps) cancelPlanned_keeps)
    modJct_keeps) evt_keeps) (.step (.step (.step (.ite (.step modJct_keeps latchCause_keeps) modJct_keeps) modJct_keeps)
    cancelPlanned_keeps) modJct_keeps)))

theorem junctionVerdictEffect_keeps {psA psB s} : Keeps s (junctionVerdictEffect psA psB s) := by
  unfold junctionVerdictEffect
  exact .ite judgeEntries_keeps .refl

theorem plannedRequestEffect_keeps {s} : Keeps s (plannedRequestEffect s) := (plannedRequestEffect_only (l := .a)).keeps

theorem execPlannedCrossoverRequest_keeps {v s} : KeepsNext s (execPlannedCrossoverRequest v s) := by
  unfold execPlannedCrossoverRequest
  exact .next (hostRange_keeps (fun _ => plannedRequestEffect_keeps))

theorem releaseEffect_keeps {l s} : Keeps s (releaseEffect l s) := by
  unfold releaseEffect
  exact .ite (.step (.step resetLane_keeps setRole_keeps) modJct_keeps) modJct_keeps

theorem execReleaseExcludedLane_keeps {v s} : KeepsNext s (execReleaseExcludedLane v s) := by
  unfold execReleaseExcludedLane
  exact .next
    (hostRange_keeps (fun _ => by split <;> [exact releaseEffect_keeps; exact .refl]))

theorem emptyTransmit_keeps {l s} : Keeps s (emptyTransmit l s) := by
  unfold emptyTransmit
  refine Keeps.step (.modLane .refl fun _ => .queues .refl fun h => h.mapIdx fun q k _ hk => ?_) (.leaf (chans := fun h => h.map ?_))
  · split
    · split
      · exact HwQueue.reset_balanced
      · exact hk
    · exact hk
  · exact fun c hc => ⟨rfl, hc.2⟩

theorem endSessions_keeps {s} : Keeps s (endSessions s) := by
  unfold endSessions
  exact .comm .refl

theorem moveToLane_keeps {l cause s} : Keeps s (moveToLane l cause s) := by
  unfold moveToLane
  exact .ite (.step (.step (.step (.step (.step (.step setRole_keeps modJct_keeps) endSessions_keeps) emptyTransmit_keeps) evtLane_keeps)
    flushSigned_keeps) evtLane_keeps) (.step (.step (.step (.step (.step setRole_keeps modJct_keeps) endSessions_keeps)
    emptyTransmit_keeps) evtLane_keeps) flushSigned_keeps)

theorem plannedCrossoverEffect_keeps {s} : Keeps s (plannedCrossoverEffect s) := by
  unfold plannedCrossoverEffect
  split
  · exact .refl
  · exact .ite (.ite (.step (.step (.step (.step (.step setRole_keeps moveToLane_keeps) steerTo_keeps) modJct_keeps) modJct_keeps)
      restartLane_keeps) (.step (.step (.step (.step setRole_keeps moveToLane_keeps) steerTo_keeps) modJct_keeps) modJct_keeps)) .refl

theorem completeResync_keeps {l s} : Keeps s (completeResync l s) := by
  unfold completeResync
  exact .step (.ite (.step (.step (.modLane (.step setRole_keeps modJct_keeps) (fun _ => .leaf)) evt_keeps) shiftMode_keeps) (.step
    (.modLane (.step setRole_keeps modJct_keeps) (fun _ => .leaf)) evt_keeps)) recheckSpares_keeps

theorem resyncCompleteEffect_keeps {s} : Keeps s (resyncCompleteEffect s) := by
  unfold resyncCompleteEffect
  exact .ite .refl (.ite completeResync_keeps (.ite completeResync_keeps .refl))

theorem joinBlocks_keeps {y0 x} : LaneKeeps x (joinBlocks y0 x) := by
  unfold joinBlocks
  exact .foldl .refl
    (fun _ _ => by split <;> [exact LaneState.modTile_keeps; exact .refl])

theorem joinLoops_keeps {y0 x} : LaneKeeps x (joinLoops y0 x) := by
  unfold joinLoops
  exact LaneState.mapLoops_keeps

theorem joinLane_keeps {act x} (hact : LaneInv act) : LaneKeeps x (joinLane act x) := by
  obtain ⟨⟨hl, -, -, ho, ha⟩, -, -, -, -, hm, hstr, -, hp⟩ := hact
  unfold joinLane
  refine LaneKeeps.step ?_ (joinLoops_keeps.step joinBlocks_keeps)
  refine .leaf (links := fun h => ?_) (out := fun _ => ho) (latched := fun _ => ha) (mods := fun _ => hm) (share := fun h => ⟨hstr,
    h.2.1, hp⟩)
  rw [List.length_zipWith, h, hl]
  rfl

theorem resyncJoinEffect_keeps {s} : Keeps s (resyncJoinEffect s) := by
  unfold resyncJoinEffect
  split
  · refine .ite .refl (.ite setRole_keeps (.step ?_ modJct_keeps))
    exact fun h => Keeps.setLane .refl (joinLane_keeps (h.lane _)) h
  · exact .refl

theorem noLaneLeft_keeps {s} : Keeps s (noLaneLeft s) := by
  unfold noLaneLeft
  exact .step (.step idleLinks_keeps takeSafe_keeps) modJct_keeps

theorem failLane_keeps {l c s} : Keeps s (failLane l c s) := by
  unfold failLane
  exact .ite (.step (.step (.ite (.step markFailed_keeps abortSeq_keeps) .refl) junctionFail_keeps) afterStandbyLoss_keeps) (.step (.ite
    (.step markFailed_keeps abortSeq_keeps) .refl) junctionFail_keeps)

theorem bothFail_keeps {a b s} : Keeps s (bothFail a b s) := by
  unfold bothFail
  exact .ite takeSafe_keeps (.ite takeSafe_keeps (.step (.step failLane_keeps failLane_keeps) noLaneLeft_keeps))

theorem demoteLane_keeps {l c s} : Keeps s (demoteLane l c s) := by
  unfold demoteLane
  exact .ite (.ite (.modLane (.step setRole_keeps modJct_keeps) (fun _ => .ctl .refl)) (.step (.step (.step (.modLane (.step
    setRole_keeps modJct_keeps) (fun _ => .ctl .refl)) evt_keeps) resetLane_keeps) setRole_keeps)) (.step setRole_keeps modJct_keeps)

theorem abortIfUnconfirmed_keeps {l was s} : Keeps s (abortIfUnconfirmed l was s) := by
  unfold abortIfUnconfirmed
  exact .ite abortOn_keeps .refl

theorem demoteOther_keeps {l c s} : Keeps s (demoteOther l c s) := by
  unfold demoteOther
  exact .step (.ite (.step demoteLane_keeps afterStandbyLoss_keeps) demoteLane_keeps) abortIfUnconfirmed_keeps

theorem otherVerdict_keeps {l c s} : Keeps s (otherVerdict l c s) := by
  unfold otherVerdict
  exact .ite failLane_keeps (.ite demoteOther_keeps .refl)

theorem cancelSwap_keeps {s} : Keeps s (cancelSwap s) := by
  unfold cancelSwap
  exact .ite (.bothLanes (.sets .refl) (fun _ => .ctl .refl)) .refl

theorem unplannedCrossover_keeps {l c fail s} : Keeps s (unplannedCrossover l c fail s) := by
  unfold unplannedCrossover
  exact .ite (.step (.step (.ite (.step (.ite (.step (.step (.step idleLinks_keeps modJct_keeps) markFailed_keeps) abortSeq_keeps) (.step
    idleLinks_keeps modJct_keeps)) junctionFail_keeps) (.step (.step idleLinks_keeps modJct_keeps) demoteLane_keeps)) moveToLane_keeps)
    cancelSwap_keeps) (.step (.step (.step (.ite (.step (.ite (.step (.step (.step idleLinks_keeps modJct_keeps) markFailed_keeps)
    abortSeq_keeps) (.step idleLinks_keeps modJct_keeps)) junctionFail_keeps) (.step (.step idleLinks_keeps modJct_keeps)
    demoteLane_keeps)) moveToLane_keeps) cancelSwap_keeps) abortIfUnconfirmed_keeps)

theorem activeVerdict_keeps {l c o s} : Keeps s (activeVerdict l c o s) := by
  unfold activeVerdict
  exact .ite (.ite unplannedCrossover_keeps (.ite takeSafe_keeps (.step failLane_keeps noLaneLeft_keeps))) (.ite unplannedCrossover_keeps
    .refl)

theorem combineVerdicts_keeps {a b s} : Keeps s (combineVerdicts a b s) := by
  unfold combineVerdicts
  refine .ite takeSafe_keeps (.ite bothFail_keeps ?_)
  split
  · exact .step activeVerdict_keeps otherVerdict_keeps
  · exact .step activeVerdict_keeps otherVerdict_keeps
  · exact .step otherVerdict_keeps otherVerdict_keeps

theorem verdictTakeEffectEffect_keeps {s} : Keeps s (verdictTakeEffectEffect s) := by
  unfold verdictTakeEffectEffect
  split
  · exact .refl
  · exact .ite (.step (.step modJct_keeps combineVerdicts_keeps) recheckSpares_keeps) .refl

/-! ## The keystore -/

theorem keyAnswer_keeps {l st s} : Keeps s (keyAnswer l st s) := keyAnswer_only.keeps

theorem keyCommit_keeps {l m f s} : Keeps s (keyCommit l m f s) := keyCommit_only.keeps

theorem installEffect_keeps {m l s} : Keeps s (installEffect m l s) := installEffect_only.keeps

theorem invalidateEffect_keeps {m l s} : Keeps s (invalidateEffect m l s) := invalidateEffect_only.keeps

theorem ownerEffect_keeps {m l s} : Keeps s (ownerEffect m l s) := ownerEffect_only.keeps

theorem lifeChangeEffect_keeps {m l s} : Keeps s (lifeChangeEffect m l s) := by
  unfold lifeChangeEffect
  exact .step (.step (.step (.bothLanes keyCommit_keeps (fun _ => .ks .refl)) lifeDestroy_keeps) keyAnswer_keeps) plainReset_keeps

theorem generateEffect_keeps {m l s} : Keeps s (generateEffect m l s) := generateEffect_only.keeps

theorem opEffect_keeps {m l s} : Keeps s (opEffect m l s) := by
  unfold opEffect
  split
  · exact installEffect_keeps
  · exact installEffect_keeps
  · exact invalidateEffect_keeps
  · exact ownerEffect_keeps
  · exact lifeChangeEffect_keeps
  · exact generateEffect_keeps
  · exact .refl

theorem updateMessage_keeps {m f s} (hf : ∀ l x, Keeps x (f l x)) : Keeps s (updateMessage m f s) := by
  unfold updateMessage
  split
  · exact .refl
  · exact .ite (keyAnswer_keeps.step respond_keeps) (.ite (respond_keeps.step (hf _ _)) (respond_keeps.step keyAnswer_keeps))

theorem csrEffect_keeps {s} : Keeps s (csrEffect s) := (csrEffect_only (l := .a)).keeps

theorem updateRow_keeps {m s} : KeepsNext s (updateRow m s) := by
  unfold updateRow
  exact .next (updateMessage_keeps fun _ _ => .step .refl opEffect_keeps)

theorem statementEffect_keeps {s} : Keeps s (statementEffect s) := (statementEffect_only (l := .a)).keeps

theorem execKeyStatement_keeps {s} : KeepsNext s (execKeyStatement s) := by
  unfold execKeyStatement
  exact .next (hostWrite_keeps (fun _ => statementEffect_keeps))

theorem execCertificationRequest_keeps {s} : KeepsNext s (execCertificationRequest s) := by
  unfold execCertificationRequest
  exact .next (hostWrite_keeps (fun _ => csrEffect_keeps))

/-! ## Loop services -/

theorem hostLoopCommand_keeps {cmd code s} : Keeps s (hostLoopCommand cmd code s) := by
  unfold hostLoopCommand
  dsimp only; split
  · exact .clk respond_keeps
  · exact .step (.clk respond_keeps) evt_keeps

theorem ifPermitted_keeps {cmd code s} : Keeps s (ifPermitted cmd code s) := by
  unfold ifPermitted
  exact .ite hostLoopCommand_keeps respond_keeps

theorem foldl_length {α β : Type} {g : List α → β → List α} (hg : ∀ o b, (g o b).length = o.length) (l : List β) (o : List α) :
    (l.foldl g o).length = o.length := by
  induction l generalizing o with
  | nil => rfl
  | cons b l ih => rw [List.foldl_cons, ih, hg]

theorem rampZeros_keeps {l x} : LaneKeeps x (rampZeros l x) := by
  unfold rampZeros
  exact .out .refl fun h => by rw [foldl_length fun _ _ => upd_length _ _ _]; exact h

theorem faultRampEndEffect_keeps {l i s} : Keeps s (faultRampEndEffect l i s) := by
  unfold faultRampEndEffect
  refine .ite ?_ .refl
  extract_lets x
  have zeroed : Keeps s x := .modLane .refl fun _ => .step rampZeros_keeps LaneState.modLoop_keeps
  refine zeroed.step ?_
  split
  · exact .ite (.step (.modLane .refl fun _ => openBay_keeps) endBaySession_keeps) (.modLane .refl fun _ => openBay_keeps)
  · exact .modLane .refl fun _ => .share .refl
  · exact .refl

theorem modInj_keeps {f s} : Keeps s (modInj f s) := (modInj_only (l := .a)).keeps

theorem injectionArmEffect_keeps {s} : Keeps s (injectionArmEffect s) := (injectionArmEffect_only (l := .a)).keeps

theorem endInjection_keeps {st cause s} : Keeps s (endInjection st cause s) := by
  unfold endInjection
  refine .step ?_ modInj_keeps
  split
  · exact .bothLanes .refl fun _ => LaneState.modLoop_keeps
  · exact .refl

theorem injectionCompleteEffect_keeps {c s} : Keeps s (injectionCompleteEffect c s) := by
  unfold injectionCompleteEffect
  exact .ite .refl (by split <;> exact .ite endInjection_keeps .refl)

theorem injectionStartEffect_keeps {s} : Keeps s (injectionStartEffect s) := by
  unfold injectionStartEffect
  refine .ite ?_ .refl
  extract_lets i log x y z
  have marked : Keeps y z := by
    unfold z
    cases i with
    | some k => exact .bothLanes .refl fun _ => LaneState.modLoop_keeps
    | none => exact .refl
  have started : Keeps s z := .step (.step modInj_keeps modInj_keeps) marked
  exact .ite (.step started captureTriggered_keeps) started

theorem injectionStopEffect_keeps {s} : Keeps s (injectionStopEffect s) := by
  unfold injectionStopEffect
  exact .ite endInjection_keeps (.ite modInj_keeps .refl)

theorem execInjectionArm_keeps {s} : KeepsNext s (execInjectionArm s) := by
  unfold execInjectionArm
  exact .next (hostWrite_keeps (fun _ => injectionArmEffect_keeps))

theorem execInjectionStop_keeps {s} : KeepsNext s (execInjectionStop s) := by
  unfold execInjectionStop
  exact .next (hostWrite_keeps (fun _ => injectionStopEffect_keeps))

theorem loopBlockEnableEffect_keeps {l i enable s} : Keeps s (loopBlockEnableEffect l i enable s) := by
  unfold loopBlockEnableEffect
  exact .ite .refl (.ite (.ite (.step (.modLane .refl (fun _ => enableLoop_keeps)) meterCommission_keeps) .refl) (.step (.modLane .refl
    (fun _ => disableLoop_keeps)) captureAbort_keeps))

theorem applyLoopCommand_keeps {i cmd s} : Keeps s (applyLoopCommand i cmd s).2 := by
  unfold applyLoopCommand
  dsimp only
  split
  · exact .refl
  · split
    · exact State.useFree_keeps
    · split
      · split
        · exact .bothLanes .refl fun _ => enableLoop_keeps
        · exact .step (.bothLanes .refl fun _ => enableLoop_keeps) meterCommission_keeps
      · split
        · exact .step (.bothLanes .refl fun _ => disableLoop_keeps) captureAbort_keeps
        · split
          · exact .bothLanes .refl fun _ => leaveFault_keeps
          · exact .refl

theorem takeLoopCommand_keeps {a0 a1 s} : Keeps s (takeLoopCommand a0 a1 s).2 := by
  unfold takeLoopCommand
  split
  · exact applyLoopCommand_keeps
  · exact .refl

theorem loopCommandTakenEffect_keeps {s} : Keeps s (loopCommandTakenEffect s) := by
  unfold loopCommandTakenEffect
  split
  · exact .refl
  · exact .ite (.clk takeLoopCommand_keeps) .refl

theorem loopStopTimeoutEffect_keeps {l i s} : Keeps s (loopStopTimeoutEffect l i s) := by
  unfold loopStopTimeoutEffect
  exact .ite (.step (.modLane .refl (fun _ => enterFault_keeps)) recheckSpares_keeps) .refl

theorem injectionPeriod_keeps {s} : Keeps s (injectionPeriod s) := by
  unfold injectionPeriod
  refine .ite ?_ .refl
  split
  · exact endInjection_keeps
  · exact .step modInj_keeps modInj_keeps

/-! ## Parameter sets -/

theorem modSets_keeps {f s} (hf : ∀ k, SetsOk k → SetsOk (f k) := by first | exact fun _ => id | (intro k h; simpa using h)) :
    Keeps s (modSets f s) := .sets .refl (hf _)

theorem setResult_keeps {r obj s} : Keeps s (setResult r obj s) := by
  unfold setResult
  exact modSets_keeps

theorem commitDoneEffect_keeps {s} : Keeps s (commitDoneEffect s) := by
  unfold commitDoneEffect
  refine .ite .refl ?_
  dsimp only; split
  · exact .step (.step modSets_keeps modSets_keeps) setResult_keeps
  · exact .step modSets_keeps setResult_keeps

theorem commitEffect_keeps {s} : Keeps s (commitEffect s) := by
  unfold commitEffect
  exact .ite (.step modSets_keeps setResult_keeps) setResult_keeps

theorem execShadowCommit_keeps {s} : KeepsNext s (execShadowCommit s) := by
  unfold execShadowCommit
  exact .next (hostWrite_keeps (fun _ => commitEffect_keeps))

theorem reopenEffect_keeps {s} : Keeps s (reopenEffect s) := by
  unfold reopenEffect
  exact .ite (.step modSets_keeps setResult_keeps) setResult_keeps

theorem execShadowReopen_keeps {s} : KeepsNext s (execShadowReopen s) := by
  unfold execShadowReopen
  exact .next (hostWrite_keeps (fun _ => reopenEffect_keeps))

theorem swapCommandEffect_keeps {s} : Keeps s (swapCommandEffect s) := by
  unfold swapCommandEffect
  exact .ite (.step modSets_keeps setResult_keeps) setResult_keeps

theorem execShadowSwap_keeps {s} : KeepsNext s (execShadowSwap s) := by
  unfold execShadowSwap
  exact .next (hostWrite_keeps (fun _ => swapCommandEffect_keeps))

theorem reloadEffect_keeps {s} : Keeps s (reloadEffect s) := by
  unfold reloadEffect
  refine .ite (.step (modSets_keeps ?_) setResult_keeps) setResult_keeps
  exact fun _ h => ⟨h.1, h.1, h.2.2⟩

theorem execShadowReload_keeps {s} : KeepsNext s (execShadowReload s) := by
  unfold execShadowReload
  exact .next (hostWrite_keeps (fun _ => reloadEffect_keeps))

theorem execSetFlagsClear_keeps {mask s} : KeepsNext s (execSetFlagsClear mask s) := by
  unfold execSetFlagsClear
  exact .next (hostWrite_keeps (fun _ => modSets_keeps))

theorem endUnavailable_keeps {s} : Keeps s (endUnavailable s) := by
  unfold endUnavailable
  exact .foldl .refl (fun _ _ => .ite endBaySession_keeps .refl)

theorem Store.Canonical.foldl_set {l : List (Nat × List Byte × Nat)} {st : Store} (h : Store.Canonical NotEmpty st) :
    Store.Canonical NotEmpty (l.foldl (fun (st : Store) w => st.set w.1 w.2.1 []) st) := by
  induction l generalizing st with
  | nil => exact h
  | cons w l ih => exact ih (h.set id)

theorem publishEffect_keeps {s} : Keeps s (publishEffect s) := by
  unfold publishEffect
  refine .ite .refl (.step (.bothLanes (modSets_keeps ?_) fun _ => refreshCache_only.keeps) endUnavailable_keeps)
  exact fun _ h => ⟨h.1, h.2.1, h.2.2.foldl_set⟩

theorem copyDoneEffect_keeps {s} : Keeps s (copyDoneEffect s) := by
  unfold copyDoneEffect
  refine .ite (modSets_keeps ?_) .refl
  exact fun _ h => ⟨h.1, h.1, h.2.2⟩

theorem missBoundary_keeps {s} : Keeps s (missBoundary s) := by
  unfold missBoundary
  exact .ite (.step modSets_keeps setResult_keeps) modSets_keeps

theorem flipTests_keeps {o n s} : Keeps s (flipTests o n s) := by
  unfold flipTests
  extract_lets t
  have aborted : Keeps s t := by
    unfold t
    split
    · exact .ite captureAbort_keeps .refl
    · exact .refl
  refine aborted.step ?_
  split
  · exact .ite modInj_keeps (.ite endInjection_keeps .refl)
  · exact .refl

theorem flipLink_keeps {o n i x} : LaneKeeps x (flipLink o n i x) := by
  unfold flipLink
  exact .ite (.step LaneState.modLink_keeps (.ite .refl linkTo_keeps)) (.ite (.step LaneState.modLink_keeps (.ite toAcquire_keeps
    linkTo_keeps)) .refl)

theorem flipBlocks_keeps {o n old x} : LaneKeeps x (flipBlocks o n old x) := by
  unfold flipBlocks
  refine .foldl (.tiles .refl) fun _ _ => ?_
  split
  · exact .ite .refl LaneState.modTile_keeps
  · exact .refl

theorem flipLoop_keeps {o n i x} : LaneKeeps x (flipLoop o n i x) := by
  unfold flipLoop
  extract_lets p reel slow y
  have cleared : LaneKeeps x y := .ite LaneState.modLoop_keeps .refl
  refine .step cleared (.ite (.ite LaneState.modLoop_keeps (.ite .refl leaveFault_keeps)) (.ite (.ite leaveFault_keeps .refl) ?_))
  split
  · exact .ite loopOff_keeps (.ite restartLoop_keeps .refl)
  · exact .ite restartLoop_keeps .refl
  · exact .ite restartLoop_keeps .refl

theorem flipLane_keeps {o n x} : LaneKeeps x (flipLane o n x) := by
  have banks : ∀ {y : LaneState}, LaneKeeps y { y with tiles := y.tiles.map (loadBanks n) } :=
    .tiles .refl (List.length_map _).trans
  have modules : ∀ {y : LaneState}, LaneKeeps y (y.modWp fun w => { w with mods := w.mods.mapIdx (flipModule o n), retirements := 0 }) :=
    LaneState.modWp_keeps fun _ => List.length_mapIdx.trans
  unfold flipLane
  exact .step (.th (.step (.foldl (.step (.step (.step (.foldl .refl fun _ _ => flipLink_keeps) placeAll_keeps) flipBlocks_keeps) banks)
    fun _ _ => flipLoop_keeps) modules)) refreshCache_only.keeps

theorem flipMeters_keeps {o n s} : Keeps s (flipMeters o n s) := by
  unfold flipMeters
  exact .foldl .refl (fun _ _ => meterString_keeps)

theorem flipSets_ok {now schema k} (h : SetsOk k) : SetsOk (flipSets now schema k) := ⟨h.2.1, h.2.1, .nil⟩

theorem swapFlipEffect_keeps {s} : Keeps s (swapFlipEffect s) := by
  have flipped : ∀ {l x o n}, Keeps x (if computing x l then x.modLane l (flipLane o n) else x) :=
    .ite (.modLane .refl fun _ => flipLane_keeps) .refl
  have cleared : ∀ {x now schema}, Keeps x (bothLanes (fun y => { y with ctl := (let c := y.ctl; { c with swapReady := false }) })
      (modSets (flipSets now schema) x)) := .bothLanes (modSets_keeps fun _ => flipSets_ok) fun _ => .ctl .refl
  unfold swapFlipEffect
  exact .ite .refl (.step (.step (.step (.step (.step (.step (.step (.step (.step archive_keeps cleared) flipTests_keeps) flipped)
    flipped) flipMeters_keeps) handCalendar_keeps) (.leaf (chans := fun h => h.mapIdx fun _ _ => flipChannel_keeps)))
    recheckSpares_keeps) endUnavailable_keeps)

theorem markReady_keeps {s} : Keeps s (markReady s) := (markReady_only (l := .a)).keeps

theorem swapReadyEffect_keeps {s} : Keeps s (swapReadyEffect s) := by
  unfold swapReadyEffect
  exact .step (.ite missBoundary_keeps .refl) markReady_keeps

theorem reportChecks_keeps {c s} : Keeps s (reportChecks c s) := by
  unfold reportChecks
  exact .ite .refl (.bothLanes modSets_keeps (fun _ => .share .refl))

theorem swapTakenEffect_keeps {s} : Keeps s (swapTakenEffect s) := by
  unfold swapTakenEffect
  exact .ite .refl (.ite (.step (.step modSets_keeps reportChecks_keeps) modSets_keeps) (.ite (.step (.step (.step modSets_keeps
    reportChecks_keeps) setResult_keeps) modSets_keeps) (.step (.step modSets_keeps reportChecks_keeps) setResult_keeps)))

/-! ## The thermal table -/

theorem sensorReleaseEffect_keeps {v s} : Keeps s (sensorReleaseEffect v s) := (sensorReleaseEffect_only (l := .a)).keeps

theorem execSensorRelease_keeps {v s} : KeepsNext s (execSensorRelease v s) := by
  unfold execSensorRelease
  exact .next (hostWrite_keeps (fun _ => sensorReleaseEffect_keeps))

theorem thermalPublishLane_keeps {x} : LaneKeeps x (thermalPublishLane x) := by
  unfold thermalPublishLane
  exact .step LaneState.modTh_only.keeps LaneState.modWp_keeps

theorem thermalPublishEffect_keeps {l s} : Keeps s (thermalPublishEffect l s) := by
  unfold thermalPublishEffect
  exact .ite (.modLane .refl (fun _ => thermalPublishLane_keeps)) .refl

/-! ## The Trievo power-line link -/

theorem reportSoc_keeps {i v s} : Keeps s (reportSoc i v s) := by
  unfold reportSoc
  exact .bothLanes .refl (fun _ => .share .refl)

theorem modTri_keeps {f s} : Keeps s (modTri f s) := (modTri_only (l := .a)).keeps

theorem mailboxTransmitEffect_keeps {data s} : Keeps s (mailboxTransmitEffect data s) := by
  unfold mailboxTransmitEffect
  exact .ite respond_keeps (hostRange_keeps (fun _ => modTri_keeps))

theorem execMailboxTransmit_keeps {data s} : KeepsNext s (execMailboxTransmit data s) := by
  unfold execMailboxTransmit
  exact .next mailboxTransmitEffect_keeps

theorem mailboxReadEffect_keeps {s} : Keeps s (mailboxReadEffect s) := by
  unfold mailboxReadEffect
  exact .ite .refl (by split <;> exact .step modTri_keeps respond_keeps)

theorem socReport_keeps {src p s} : Keeps s (socReport src p s) := by
  unfold socReport
  exact .ite reportSoc_keeps .refl

theorem deliverData_keeps {src p s} : Keeps s (deliverData src p s) := by
  unfold deliverData
  refine .ite .refl ?_
  split
  · exact .ite socReport_keeps (.ite modTri_keeps .refl)
  · exact .refl

theorem ackEffect_keeps {f s} : Keeps s (ackEffect f s) := (ackEffect_only (l := .a)).keeps

theorem associate_keeps {f s} : Keeps s (associate f s) := (associate_only (l := .a)).keeps

theorem takeStatus_keeps {f s} : Keeps s (takeStatus f s) := (takeStatus_only (l := .a)).keeps

theorem receiveTri_keeps {f g s} (hg : ∀ x, Keeps x (g x)) : Keeps s (receiveTri f g s) := by
  unfold receiveTri
  exact .ite .refl (.ite modTri_keeps (.ite modTri_keeps (.ite (modTri_keeps.step modTri_keeps) ((modTri_keeps.step modTri_keeps).step
    (hg _)))))

theorem triReceived_keeps {f s} : Keeps s (triReceived f s) := by
  unfold triReceived
  split
  · exact receiveTri_keeps (fun _ => deliverData_keeps)
  · exact ackEffect_keeps
  · exact receiveTri_keeps (fun _ => associate_keeps)
  · exact receiveTri_keeps (fun _ => takeStatus_keeps)
  · exact receiveTri_keeps (fun _ => .refl)

/-! ## Updates -/

theorem abortLanes_keeps {s} : Keeps s (abortLanes s) := by
  unfold abortLanes
  split <;> exact .ite (.step (.ite abortOn_keeps .refl) abortOn_keeps) (.ite abortOn_keeps .refl)

theorem startRestart_keeps {s} : Keeps s (startRestart s) := by
  unfold startRestart
  exact .ite (.step modUpd_keeps toIdle_keeps) modUpd_keeps

theorem startRolling_keeps {s} : Keeps s (startRolling s) := (startRolling_only (l := .a)).keeps

theorem activation_keeps {st f s} (hf : ∀ x, Keeps x (f x)) : Keeps s (activation st f s) := by
  unfold activation
  exact .ite (modUpd_keeps.step (hf _)) modUpd_keeps

theorem execActivationRolling_keeps {s} : KeepsNext s (execActivationRolling s) := by
  unfold execActivationRolling
  exact .next (hostWrite_keeps (fun _ => activation_keeps (fun _ => startRolling_keeps)))

theorem execActivationFullRestart_keeps {s} : KeepsNext s (execActivationFullRestart s) := by
  unfold execActivationFullRestart
  exact .next (hostWrite_keeps (fun _ => activation_keeps (fun _ => startRestart_keeps)))

theorem execActivationAbort_keeps {s} : KeepsNext s (execActivationAbort s) := by
  unfold execActivationAbort
  exact .next (hostWrite_keeps (fun _ => .ite (.step abortLanes_keeps abortSeq_keeps) .refl))

theorem execHostConfirm_keeps {v s} : KeepsNext s (execHostConfirm v s) := by
  unfold execHostConfirm
  exact .next (hostRange_keeps (fun _ => modUpd_keeps))

theorem completeSeq_keeps {s} : Keeps s (completeSeq s) := (completeSeq_only (l := .a)).keeps

theorem restartStep_keeps {s} : Keeps s (restartStep s) := by
  unfold restartStep
  exact .ite (.ite .refl (.step safeExit_keeps resetWith_keeps)) (.ite completeSeq_keeps .refl)

theorem resetStep_keeps {l s} : Keeps s (resetStep l s) := by
  unfold resetStep
  exact .ite (.step modUpd_keeps restartLane_keeps) .refl

theorem askCrossover_keeps {s} : Keeps s (askCrossover s) := (askCrossover_only (l := .a)).keeps

theorem rollingStep_keeps {l s} : Keeps s (rollingStep l s) := by
  unfold rollingStep
  split
  · exact .ite resetStep_keeps (.ite (.step modUpd_keeps askCrossover_keeps) .refl)
  · exact .ite (.ite (.step modUpd_keeps resetStep_keeps) .refl) (.ite askCrossover_keeps .refl)
  · exact .ite completeSeq_keeps .refl
  · exact .refl

theorem failedStep_keeps {s} : Keeps s (failedStep s) := by
  unfold failedStep
  split
  · exact .ite restartLane_keeps (.ite (.ite askCrossover_keeps (.ite .refl (.step safeExit_keeps resetWith_keeps))) .refl)
  · exact .refl

theorem sequenceAdvance_keeps {s} : Keeps s (sequenceAdvance s) := by
  unfold sequenceAdvance
  refine .ite restartStep_keeps ?_
  split
  · exact rollingStep_keeps
  · exact failedStep_keeps

theorem recoverFrom_keeps {s} : Keeps s (recoverFrom s) := by
  unfold recoverFrom
  split
  · refine .ite .refl ?_
    split
    · exact .step (.step (.modLane modNand_keeps fun _ => .slots .refl) resetLane_keeps) setRole_keeps
    · exact rejectImage_keeps
  · exact .refl

theorem unconfirmedEffect_keeps {l s} : Keeps s (unconfirmedEffect l s) := by
  unfold unconfirmedEffect
  exact .ite (.step (.modLane .refl (fun _ => .slots .refl)) abortOn_keeps) .refl

/-! ## Vehicle sessions -/

theorem answer_keeps {n code s} : Keeps s (answer n code s) := by
  unfold answer
  exact modSess_keeps

theorem refreshOut_keeps {n s} : Keeps s (refreshOut n s) := by
  unfold refreshOut
  exact modSess_keeps

theorem stopSess_keeps {n cause s} : Keeps s (stopSess n cause s) := by
  unfold stopSess
  exact .step endSession_keeps refreshOut_keeps

theorem decide312_keeps {n s} : Keeps s (decide312 n s) := by
  unfold decide312
  exact .ite (.step modSess_keeps answer_keeps) (.ite (.step answer_keeps stopSess_keeps) (.step modSess_keeps answer_keeps))

theorem hostAuthEffect_keeps {n x s} : Keeps s (hostAuthEffect n x s) := by
  unfold hostAuthEffect
  exact .ite (.step modSess_keeps decide312_keeps) modSess_keeps

theorem isolationEffect_keeps {n x s} : Keeps s (isolationEffect n x s) := by
  unfold isolationEffect
  exact .ite (.step modSess_keeps stopSess_keeps) modSess_keeps

theorem execHostAuthorizationWrite_keeps {n v s} : KeepsNext s (execHostAuthorizationWrite n v s) := by
  unfold execHostAuthorizationWrite
  exact .next (hostRange_keeps (fun _ => hostAuthEffect_keeps))

theorem execIsolationStateWrite_keeps {n v s} : KeepsNext s (execIsolationStateWrite n v s) := by
  unfold execIsolationStateWrite
  exact .next (hostRange_keeps (fun _ => isolationEffect_keeps))

theorem requestCame_keeps {n s} : Keeps s (requestCame n s) := by
  unfold requestCame
  exact modSess_keeps

theorem failMessage_keeps {n code s} : Keeps s (failMessage n code s) := by
  unfold failMessage
  exact .ite (.step (.step answer_keeps evt_keeps) stopSess_keeps) (.ite answer_keeps .refl)

theorem goSess_keeps {n st s} : Keeps s (goSess n st s) := by
  unfold goSess
  exact .step modSess_keeps refreshOut_keeps

theorem authorize_keeps {n r s} : Keeps s (authorize n r s) := by
  unfold authorize
  exact .ite (.ite failMessage_keeps (.ite (.step (.step goSess_keeps modSess_keeps) decide312_keeps) (.step (.step goSess_keeps
    answer_keeps) stopSess_keeps))) (.step goSess_keeps decide312_keeps)

theorem inState_keeps {n ok f s} (hf : ∀ x, Keeps x (f x)) : Keeps s (inState n ok f s) := by
  unfold inState
  exact .ite (.step requestCame_keeps (hf _)) failMessage_keeps

theorem authorizationEffect_keeps {n r s} : Keeps s (authorizationEffect n r s) := by
  unfold authorizationEffect
  exact .ite (.step requestCame_keeps answer_keeps) (inState_keeps (fun _ => authorize_keeps))

theorem backToIdle_keeps {n s} : Keeps s (backToIdle n s) := by
  unfold backToIdle
  exact .ite (.step modSess_keeps refreshOut_keeps) .refl

theorem peerGoneEffect_keeps {n s} : Keeps s (peerGoneEffect n s) := by
  unfold peerGoneEffect
  exact .ite (.step (.step modSess_keeps stopSess_keeps) backToIdle_keeps) .refl

theorem cableCheckEffect_keeps {n s} : Keeps s (cableCheckEffect n s) := by
  unfold cableCheckEffect
  exact .ite modSess_keeps .refl

theorem awaitLimits_keeps {n adv x s} : Keeps s (awaitLimits n adv x s) := by
  unfold awaitLimits
  exact modSess_keeps

theorem chargeLoop_keeps {n x s} : Keeps s (chargeLoop n x s) := by
  unfold chargeLoop
  exact .step awaitLimits_keeps modSess_keeps

theorem parameterDiscovery_keeps {n x s} : Keeps s (parameterDiscovery n x s) := by
  unfold parameterDiscovery
  exact .step awaitLimits_keeps modSess_keeps

theorem slacMatchEffect_keeps {n s} : Keeps s (slacMatchEffect n s) := by
  unfold slacMatchEffect
  exact .ite (.step (.step (.step modSess_keeps State.useFree_keeps) goSess_keeps) answer_keeps) .refl

theorem slacParmEffect_keeps {n s} : Keeps s (slacParmEffect n s) := by
  unfold slacParmEffect
  exact .ite (.step goSess_keeps answer_keeps) .refl

theorem attenEffect_keeps {n s} : Keeps s (attenEffect n s) := by
  unfold attenEffect
  exact .ite answer_keeps .refl

theorem validateEffect_keeps {n s} : Keeps s (validateEffect n s) := by
  unfold validateEffect
  exact .ite answer_keeps .refl

theorem tryAttach_keeps {n s} : Keeps s (tryAttach n s) := by
  unfold tryAttach
  exact .ite (.step modSess_keeps refreshOut_keeps) .refl

theorem pilotAcceptedEffect_keeps {n code s} : Keeps s (pilotAcceptedEffect n code s) := by
  unfold pilotAcceptedEffect
  exact .ite .refl (.ite (.step (.step modSess_keeps stopSess_keeps) backToIdle_keeps) (.step modSess_keeps tryAttach_keeps))

theorem pilotX2Effect_keeps {n s} : Keeps s (pilotX2Effect n s) := by
  unfold pilotX2Effect
  exact .ite (.step modSess_keeps refreshOut_keeps) .refl

theorem plugDetectedEffect_keeps {n s} : Keeps s (plugDetectedEffect n s) := by
  unfold plugDetectedEffect
  exact .ite .refl (.step modSess_keeps tryAttach_keeps)

theorem plugLostEffect_keeps {n s} : Keeps s (plugLostEffect n s) := by
  unfold plugLostEffect
  exact .step modSess_keeps stopSess_keeps

theorem precharge_keeps {n x s} : Keeps s (precharge n x s) := by
  unfold precharge
  exact .ite (.step awaitLimits_keeps modSess_keeps) awaitLimits_keeps

theorem bridgeBegin_keeps {n s} : Keeps s (bridgeBegin n s) := by
  unfold bridgeBegin
  exact .ite (.step (.step (.step modSess_keeps modSess_keeps) goSess_keeps) answer_keeps) modSess_keeps

theorem discoveryEffect_keeps {n s} : Keeps s (discoveryEffect n s) := by
  unfold discoveryEffect
  exact .ite bridgeBegin_keeps (.ite (.step goSess_keeps answer_keeps) (.ite (.step requestCame_keeps answer_keeps) failMessage_keeps))

theorem endedEffect_keeps {n s} : Keeps s (endedEffect n s) := by
  unfold endedEffect
  split
  · exact .refl
  · exact .ite (.ite .refl (.ite (.step (.step modSess_keeps goSess_keeps) backToIdle_keeps) (.ite modSess_keeps .refl))) (.ite (.step
      goSess_keeps backToIdle_keeps) .refl)

theorem sessionSetup_keeps {n s} : Keeps s (sessionSetup n s) := by
  unfold sessionSetup
  exact .step modSess_keeps answer_keeps

theorem sessionStartEffect_keeps {n s} : Keeps s (sessionStartEffect n s) := by
  unfold sessionStartEffect
  split
  · exact .ite .refl (.ite stopSess_keeps (.ite (.step (.step (.step modSess_keeps refreshOut_keeps) meterOpen_keeps) stopSess_keeps)
      (.step (.step modSess_keeps refreshOut_keeps) meterOpen_keeps)))
  · exact .refl

theorem timeoutEffect_keeps {n t s} : Keeps s (timeoutEffect n t s) := by
  unfold timeoutEffect
  exact .ite stopSess_keeps .refl

theorem appProtocol_keeps {n l s} : Keeps s (appProtocol n l s) := by
  unfold appProtocol
  split
  · exact .step modSess_keeps answer_keeps
  · exact .step answer_keeps stopSess_keeps

/-! ## The object dictionary -/

theorem keyMessageWrite_keeps {m s} : Keeps s (keyMessageWrite m s) := by
  unfold keyMessageWrite
  exact updateMessage_keeps (fun _ _ => opEffect_keeps)

theorem loopCommandWrite_keeps {n s} : Keeps s (loopCommandWrite n s) := by
  unfold loopCommandWrite
  exact ifPermitted_keeps

theorem stateAfter_keeps {o s} (h : KeepsNext s o) : Keeps s (stateAfter o s) := by
  unfold stateAfter
  split
  · exact h _ rfl
  · exact .refl

theorem sessionWrite_keeps {n k v s} : Keeps s (sessionWrite n k v s) := by
  unfold sessionWrite
  split
  · exact .ite (stateAfter_keeps execHostAuthorizationWrite_keeps) (stateAfter_keeps execIsolationStateWrite_keeps)
  · exact .refl

theorem channelCommand_keeps {c n s} : Keeps s (channelCommand c n s) := by
  unfold channelCommand
  split
  · exact .ite (stateAfter_keeps execChannelSleep_keeps) (.ite (stateAfter_keeps execChannelWakeCommand_keeps) (stateAfter_keeps
      execChannelRestart_keeps))
  · exact .refl

theorem modComm_keeps {f s} (hf : ∀ c, CommOk c → CommOk (f c) := by first | exact fun _ => id | (intro c h; simpa [CommOk] using h)) :
    Keeps s (modComm f s) := .comm .refl (hf _)

theorem liveStore_keeps {i k v s} : Keeps s (liveStore i k v s) := by
  unfold liveStore
  refine modSets_keeps fun t h => ⟨h.1, ?_, h.2.2⟩
  dsimp only
  split
  · exact h.2.1.setPut
  · exact h.2.1

/-- A write that acts on a unit is its command, or one record update of that unit. -/
theorem unitWrite_keeps {i k d s t} (h : unitWrite i k d s = some t) : Keeps s t := by
  unfold unitWrite at h
  dsimp only at h
  split at h
  · cases h; exact stateAfter_keeps execModeRequestWrite_keeps
  · cases h; exact stateAfter_keeps execResetRequest_keeps
  · cases h; exact stateAfter_keeps execResetCauseClear_keeps
  · cases h; exact stateAfter_keeps execRailFaultLatchClear_keeps
  · cases h; exact stateAfter_keeps execPlannedCrossoverRequest_keeps
  · cases h; exact stateAfter_keeps execReleaseExcludedLane_keeps
  · cases h
    exact stateAfter_keeps (.ite execShadowCommit_keeps (.ite execShadowReopen_keeps (.ite execShadowSwap_keeps execShadowReload_keeps)))
  · cases h; exact .step modSets_keeps respond_keeps
  · cases h; exact stateAfter_keeps execSetFlagsClear_keeps
  · cases h; exact stateAfter_keeps execEventClear_keeps
  · cases h; exact keyMessageWrite_keeps
  · cases h; exact stateAfter_keeps (.ite execKeyStatement_keeps execCertificationRequest_keeps)
  · cases h; exact modUpd_keeps.step respond_keeps
  · cases h
    exact stateAfter_keeps (.ite execActivationRolling_keeps (.ite execActivationFullRestart_keeps execActivationAbort_keeps))
  · cases h; exact stateAfter_keeps execHostConfirm_keeps
  · cases h; exact stateAfter_keeps execRtcWrite_keeps
  · cases h; exact .step (.bk .refl) respond_keeps
  · cases h; exact stateAfter_keeps execTamperLatchClear_keeps
  · cases h; exact stateAfter_keeps execSensorRelease_keeps
  · cases h; exact loopCommandWrite_keeps
  · cases h; exact stateAfter_keeps (.ite execCaptureArm_keeps (.ite execCaptureForceTrigger_keeps execCaptureStop_keeps))
  · cases h; exact stateAfter_keeps (.ite execInjectionArm_keeps execInjectionStop_keeps)
  · cases h; exact stateAfter_keeps execMailboxTransmit_keeps
  · rcases ite_eq_iff.mp h with ⟨_, h⟩ | ⟨_, h⟩
    · cases h; exact reportSoc_keeps.step respond_keeps
    · rcases ite_eq_iff.mp h with ⟨_, h⟩ | ⟨_, h⟩
      · exact Option.some.inj h ▸ sessionWrite_keeps
      · rcases ite_eq_iff.mp h with ⟨_, h⟩ | ⟨_, h⟩
        · exact Option.some.inj h ▸ channelCommand_keeps
        · cases h

theorem rwStore_ok {i k v c} (h : CommOk c) : CommOk { c with rw := rwStore i k v c.rw } := by
  refine ⟨h.1, h.2.1, ?_⟩
  unfold rwStore setPut
  dsimp only
  split
  · exact h.2.2.set .inl
  · split
    · rename_i r hr
      exact h.2.2.set fun hne => .inr ⟨i, k, r, rfl, hr, hne⟩
    · exact h.2.2

theorem storeObject_keeps {r i k d s} : Keeps s (storeObject r i k d s) := by
  unfold storeObject
  split
  · refine .step (modSets_keeps ?_) respond_keeps
    exact fun _ h => ⟨h.1, h.2.1.setPut, h.2.2⟩
  · exact .step liveStore_keeps respond_keeps
  · split
    · exact unitWrite_keeps ‹_›
    · exact .step (.comm .refl rwStore_ok) respond_keeps

theorem writeObject_keeps {i k d s} : Keeps s (writeObject i k d s) := by
  unfold writeObject
  refine .ite .refl (.ite respond_keeps ?_)
  split
  · exact storeObject_keeps
  · exact .refl

theorem udpAnswer_keeps {d s} : Keeps s (udpAnswer d s) := by
  unfold udpAnswer
  exact modComm_keeps

theorem readLog_keeps {s} : Keeps s (readLog s) := by
  unfold readLog
  exact .step State.useFree_keeps respond_keeps

theorem readObject_keeps {i k s} : Keeps s (readObject i k s) := by
  unfold readObject
  refine .ite .refl (.ite respond_keeps ?_)
  split
  · exact respond_keeps
  · exact .ite respond_keeps (.ite eventReadEffect_keeps (.ite mailboxReadEffect_keeps (.ite readLog_keeps respond_keeps)))

theorem runRequest_keeps {q s} : Keeps s (runRequest q s) := by
  unfold runRequest
  split
  · exact readObject_keeps
  · exact writeObject_keeps

theorem udpEffect_keeps {d s} : Keeps s (udpEffect d s) := by
  unfold udpEffect
  refine .ite .refl (.ite modComm_keeps (.ite .refl ?_))
  dsimp only; split
  · exact .step respond_keeps udpAnswer_keeps
  · split
    · exact .step (.step (.step modComm_keeps runRequest_keeps) modComm_keeps) udpAnswer_keeps
    · exact .step modComm_keeps runRequest_keeps

theorem usdoTimeoutEffect_keeps {n s} : Keeps s (usdoTimeoutEffect n s) := by
  unfold usdoTimeoutEffect
  exact .ite (.step modComm_keeps respond_keeps) .refl

/-! ## Site federation -/

theorem modFed_keeps {f s} : Keeps s (modFed f s) := (modFed_only (l := .a)).keeps

theorem dropLead_keeps {s} : Keeps s (dropLead s) := (dropLead_only (l := .a)).keeps

theorem queueReport_keeps {f s} : Keeps s (queueReport f s) := by
  unfold queueReport
  exact .ite modFed_keeps (.step (modChan_keeps fun _ => cancelIdent_keeps) queueTx_keeps)

theorem federationReportSendEffect_keeps {s} : Keeps s (federationReportSendEffect s) := by
  unfold federationReportSendEffect
  exact .ite .refl (.ite (.step (.ite (.step dropLead_keeps modFed_keeps) dropLead_keeps) modFed_keeps) (.step (.step (.ite (.step
    dropLead_keeps modFed_keeps) dropLead_keeps) modFed_keeps) queueReport_keeps))

theorem queueShare_keeps {f s} : Keeps s (queueShare f s) := by
  unfold queueShare
  exact .ite modFed_keeps queueTx_keeps

theorem federationShareSendEffect_keeps {s} : Keeps s (federationShareSendEffect s) := by
  unfold federationShareSendEffect
  exact .ite (.step modFed_keeps queueShare_keeps) dropLead_keeps

/-! ## The communication profile -/

theorem codedFrame_keeps {s c code} : Keeps s (codedFrame s c code).2 := by
  unfold codedFrame
  split
  · exact .refl
  · split
    · split
      · exact .comm .refl
      · exact .refl
    · split
      · split
        · exact .clk .refl
        · exact .refl
      · split
        · split
          · exact .clk .refl
          · exact .refl
        · exact .refl

theorem windowStartEffect_keeps {c j s} : Keeps s (windowStartEffect c j s) := by
  unfold windowStartEffect
  refine .ite (.ite refSendEffect_keeps ?_) .refl
  dsimp only
  split
  · exact .step codedFrame_keeps (modChan_keeps fun _ => .step .leaf Channel.push_keeps)
  · exact .refl

theorem heartbeatEffect_keeps {s} : Keeps s (heartbeatEffect s) := by
  unfold heartbeatEffect
  exact .ite (.step modComm_keeps nmtFrame_keeps) .refl

theorem nmtGo_keeps {n s} : Keeps s (nmtGo n s) := by
  unfold nmtGo
  exact .ite modComm_keeps .refl

theorem resetComm_keeps {s} : Keeps s (resetComm s) := by
  unfold resetComm
  refine .step (modComm_keeps ?_) nmtFrame_keeps
  exact fun c h => ⟨(List.length_map _).trans h.1, (List.length_map _).trans h.2.1, h.2.2.filter⟩

theorem pdoWrite_keeps {i k d s} : Keeps s (pdoWrite i k d s) := by
  unfold pdoWrite
  exact .ite modSets_keeps (.ite (.step writeObject_keeps modComm_keeps) .refl)

theorem rpdoEffect_keeps {n d s} : Keeps s (rpdoEffect n d s) := by
  unfold rpdoEffect
  exact .ite (.foldl .refl (fun _ _ => .ite .refl pdoWrite_keeps)) .refl

theorem tpdoEffect_keeps {n c s} : Keeps s (tpdoEffect n c s) := by
  have queued : ∀ {c f x}, Keeps x (modChan c (requeue f) x) := modChan_keeps fun _ => requeue_keeps
  unfold tpdoEffect
  refine .ite .refl ?_
  split
  · exact .refl
  · dsimp only
    split
    · exact .ite (.step (.step modComm_keeps queued) queued) (.step modComm_keeps queued)
    · exact .step modComm_keeps queued

/-! ## The share engine -/

theorem gridStatusEffect_keeps {l g s} : Keeps s (gridStatusEffect l g s) := by
  unfold gridStatusEffect
  exact .ite (.step (.modLane .refl (fun _ => gridStatusLane_only.keeps)) endAllSessions_keeps) (.modLane .refl
    (fun _ => gridStatusLane_only.keeps))

theorem gridStatusStaleEffect_keeps {l s} : Keeps s (gridStatusStaleEffect l s) := by
  unfold gridStatusStaleEffect
  exact .ite (.step (.modLane .refl (fun _ => .leaf)) endAllSessions_keeps) (.modLane .refl (fun _ => .leaf))

theorem limitBlock_keeps {s x} : LaneKeeps x (limitBlock s x) := by
  unfold limitBlock
  exact .share .refl

theorem stringCommands_keeps {s x} : LaneKeeps x (stringCommands s x) := by
  unfold stringCommands
  exact .share .refl

theorem dropBays_keeps {s x} : LaneKeeps x (dropBays s x) := by
  unfold dropBays
  exact .foldl .refl (fun _ _ => .ite (.step (.ite .refl (.share .refl)) disableLoop_keeps) (.ite .refl (.share .refl)))

theorem modeGrants_keeps {s x} : LaneKeeps x (modeGrants s x) := by
  unfold modeGrants
  exact .ite .refl (.share .refl)

theorem latchRun_ok {h} (ok : ShareOk h) : ShareOk (latchRun h) :=
  ⟨List.length_mapIdx.trans ok.1, (List.length_map _).trans ok.2.1, ok.2.2⟩

theorem policyWord_scores {p w} (h : p.s.length = 16) : (policyWord p w).s.length = 16 := by
  have set : ∀ {r v}, (p.setReg r v).s.length = 16 := (put_length _ _ _).trans h
  unfold policyWord
  dsimp only
  split <;> first | exact set | exact h

theorem runReel_scores {l i} : (runReel l i).s.length = 16 := by
  have fresh : (Policy.fresh i).s.length = 16 := rfl
  unfold runReel
  revert fresh
  generalize Policy.fresh i = p
  induction l generalizing p with
  | nil => exact id
  | cons w l ih => exact fun h => ih _ (policyWord_scores h)

theorem bayWeight_scores {s l h tail reel i} (ok : h.pol.s.length = 16) : (bayWeight s l h tail reel i).2.s.length = 16 := by
  unfold bayWeight
  split
  · exact ok
  · exact runReel_scores

theorem strWeight_scores {s l h tail reel i} (ok : h.pol.s.length = 16) : (strWeight s l h tail reel i).2.2.s.length = 16 := by
  unfold strWeight
  split
  · split <;> exact ok
  · exact runReel_scores

/-- The last of the machines the instances leave, or the one before them where there is none. -/
theorem lastMachine_scores {α : Type} {l : List Nat} {g : Nat → α} {m : α → Policy} {p : Policy} (hp : p.s.length = 16)
    (hg : ∀ i, (m (g i)).s.length = 16) : ((((l.map g).getLast?).map m).getD p).s.length = 16 := by
  cases e : (l.map g).getLast? with
  | none => exact hp
  | some a =>
    obtain ⟨i, -, rfl⟩ := List.mem_map.1 (List.mem_of_getLast? e)
    exact hg i

theorem weightsRun_scores {s l h} (ok : h.pol.s.length = 16) : (weightsRun s l h).pol.s.length = 16 := by
  unfold weightsRun
  dsimp only
  split
  · exact lastMachine_scores ok fun _ => bayWeight_scores ok
  · exact lastMachine_scores (m := fun (q : Nat × Nat × Policy) => q.2.2) ok fun _ => strWeight_scores ok

theorem budgetsRun_pol {s l x h} : (budgetsRun s l x h).pol = h.pol := by
  unfold budgetsRun
  dsimp only
  split
  · split <;> rfl
  · rfl

theorem shareRun_ok {s l} (ok : ShareOk (s.lane l).share) : ShareOk (shareRun s l) := by
  have hl := latchRun_ok ok
  refine ⟨hl.1, hl.2.1, weightsRun_scores ?_⟩
  rw [budgetsRun_pol]
  exact ok.2.2

theorem idleLatch_keeps {s x} : LaneKeeps x (idleLatch s x) := by
  unfold idleLatch
  exact .ite (.share .refl latchRun_ok) .refl

theorem sharePeriod_keeps {s x} : LaneKeeps x (sharePeriod s x) := by
  unfold sharePeriod
  exact .step (.step (.step (.step idleLatch_keeps modeGrants_keeps) dropBays_keeps) stringCommands_keeps) limitBlock_keeps

theorem setFunded_keeps {i v x} : LaneKeeps x (setFunded i v x) := by
  unfold setFunded
  exact .share .refl

theorem fundStrings_keeps {s x} : LaneKeeps x (fundStrings s x) := by
  unfold fundStrings
  exact .foldl .refl (fun _ _ => .ite (.step enableLoop_keeps setFunded_keeps) (.ite (.step (.ite disableLoop_keeps .refl)
    setFunded_keeps) .refl))

theorem fundBays_keeps {s x} : LaneKeeps x (fundBays s x) := by
  unfold fundBays
  exact .foldl .refl (fun _ _ => .ite (.share enableLoop_keeps) .refl)

theorem endShrink_ok {b h} (ok : ShareOk h) : ShareOk (endShrink b h) := by
  unfold endShrink
  split
  · split <;> exact ok
  · exact ok

theorem shareApplyLane_keeps {s x} : LaneKeeps x (shareApplyLane s x) := by
  unfold shareApplyLane
  split
  · exact .refl
  · refine .step (.step (.step (.share .refl ?_) fundBays_keeps) fundStrings_keeps) limitBlock_keeps
    exact fun h => endShrink_ok h

theorem shareIncreaseLane_keeps {s x} : LaneKeeps x (shareIncreaseLane s x) := by
  unfold shareIncreaseLane
  split
  · exact .refl
  · exact .step (.step (.step (.share .refl) fundBays_keeps) fundStrings_keeps) limitBlock_keeps

theorem energyReached_keeps {s} : Keeps s (energyReached s) := by
  unfold energyReached
  exact .foldl .refl (fun _ _ => .ite endSession_keeps .refl)

theorem sessionEnergy_keeps {h s} : Keeps s (sessionEnergy h s) := by
  unfold sessionEnergy
  exact .foldl .refl (fun _ _ => by split <;> [exact modSess_keeps; exact .refl])

theorem shareRunStartEffect_keeps {l s} : Keeps s (shareRunStartEffect l s) := by
  have ran : Keeps s (s.modLane l fun x => { x with share := shareRun s l }) := .setLane .refl (.share .refl shareRun_ok)
  unfold shareRunStartEffect
  exact .ite (.ite (ran.step (sessionEnergy_keeps.step energyReached_keeps)) ran) .refl

theorem contactorHoldLane_keeps {s i x} : LaneKeeps x (contactorHoldLane s i x) := by
  unfold contactorHoldLane
  exact .ite (.share .refl) .refl

/-! ## Frames and the period -/

theorem shareTake_keeps {s x} : LaneKeeps x (shareTake s x) := by
  unfold shareTake
  exact .share .refl

theorem closeLane_keeps {s x} : LaneKeeps x (closeLane s x) := by
  unfold closeLane
  exact .links modCurBank_keeps

theorem tapsMissing_keeps {s l} : Keeps s (tapsMissing s l) := tapsMissing_only.keeps

theorem frameBankCloseEffect_keeps {l s} : Keeps s (frameBankCloseEffect l s) := by
  unfold frameBankCloseEffect
  exact .ite (.step (.modLane .refl (fun _ => closeLane_keeps)) tapsMissing_keeps) (.ite (.modLane (.modLane .refl
    (fun _ => closeLane_keeps)) (fun _ => .leaf)) (.modLane .refl (fun _ => closeLane_keeps)))

theorem tapSend_keeps {l n s} : Keeps s (tapSend l n s) := tapSend_only.keeps

theorem linkUpEffect_keeps {l n s} : Keeps s (linkUpEffect l n s) := by
  unfold linkUpEffect
  exact .ite (.step (.modLane .refl (fun _ => linkUpLane_keeps)) tapSend_keeps) (.modLane .refl (fun _ => linkUpLane_keeps))

theorem safeBays_keeps {s} : Keeps s (safeBays s) := by
  unfold safeBays
  exact .ite .refl (.veh .refl)

theorem safeStrings_keeps {s x} : LaneKeeps x (safeStrings s x) := by
  unfold safeStrings
  exact .ite .refl (.share .refl)

theorem evalLane_keeps {s i x} : LaneKeeps x (evalLane s i x) := by
  unfold evalLane
  dsimp only; split
  · exact .step (.ite (.step LaneState.modLoop_keeps LaneState.event_only.keeps) LaneState.modLoop_keeps) enterFault_keeps
  · exact .ite (.step LaneState.modLoop_keeps LaneState.event_only.keeps) LaneState.modLoop_keeps

theorem tilePlausibility_keeps {s x} : LaneKeeps x (tilePlausibility s x) := by
  unfold tilePlausibility
  exact .foldl .refl (fun _ _ => .ite (.step .leaf LaneState.event_only.keeps) .refl)

theorem evaluateLoops_keeps {s x} : LaneKeeps x (evaluateLoops s x) := by
  unfold evaluateLoops
  exact .step (.ctl (.foldl .refl (fun _ _ => evalLane_keeps))) tilePlausibility_keeps

theorem creditCheck_keeps {s x} : LaneKeeps x (creditCheck s x) := by
  unfold creditCheck
  refine .foldl (.leaf (queues := fun h => h.mapIdx ?_)) fun _ _ => LaneState.event_only.keeps
  exact fun _ _ _ h => h

theorem stepOverrides_keeps {x} : LaneKeeps x (stepOverrides x) := by
  unfold stepOverrides
  exact LaneState.mapLoops_keeps

theorem applyOverrides_length {x l} : (applyOverrides x l).length = l.length :=
  foldl_length (fun _ _ => foldl_length (fun _ _ => upd_length _ _ _) _ _) _ _

theorem applyZeros_length {s x l} : (applyZeros s x l).length = l.length := by
  refine foldl_length (fun o i => ?_) _ _
  dsimp only
  split
  · exact foldl_length (fun _ _ => upd_length _ _ _) _ _
  · rfl

theorem latchTable_length {s x} : (latchTable s x).length = x.out.length := by
  unfold latchTable
  dsimp only
  rw [List.length_mapIdx, applyZeros_length, applyOverrides_length]

theorem latchLane_keeps {s x} : LaneKeeps x (latchLane s x) := by
  have latched : ∀ {y : LaneState}, LaneKeeps y { y with latched := latchTable s y } := fun h => by
    obtain ⟨⟨_, _, _, ho, _⟩, _⟩ := id h
    exact LaneKeeps.latched .refl (fun _ => latchTable_length.trans ho) h
  unfold latchLane
  exact .step (.step (.step (.step moveTick_keeps evaluateLoops_keeps) safeStrings_keeps) latched) (stepOverrides_keeps.step
    creditCheck_keeps)

theorem composeAll_keeps {s} : Keeps s (composeAll s) := by
  unfold composeAll
  exact .veh .refl

theorem outputLatchEffect_keeps {l s} : Keeps s (outputLatchEffect l s) := by
  unfold outputLatchEffect
  exact .ite .refl (.ite (.step (.step (.step (.modLane (.ite safeBays_keeps .refl) (fun _ => latchLane_keeps)) recheckSpares_keeps)
    composeAll_keeps) capturePeriod_keeps) (.step (.modLane (.ite safeBays_keeps .refl) (fun _ => latchLane_keeps)) recheckSpares_keeps))

theorem tickPeriod_keeps {s} : Keeps s (tickPeriod s) := (tickPeriod_only (l := .a)).keeps

theorem tapHeld_keeps {s} : Keeps s (tapHeld s) := (tapHeld_only (l := .a)).keeps

theorem releaseHold_keeps {s x} : LaneKeeps x (releaseHold s x) := by
  unfold releaseHold
  refine .foldl .refl fun _ _ => ?_
  split
  · exact .ite (.step LaneState.modLink_keeps storeFrame_keeps) .refl
  · exact .refl

theorem laneCycle0_keeps {s x} : LaneKeeps x (laneCycle0 s x) := by
  unfold laneCycle0
  exact .step (.step (.step (modCurBank_keeps fun _ _ => rfl) .leaf) LaneState.mapLoops_keeps) releaseHold_keeps

theorem lanePublish_keeps {s x} : LaneKeeps x (lanePublish s x) := by
  unfold lanePublish
  exact .step wpPeriod_keeps sharePeriod_keeps

theorem publishLanes_keeps {s} : Keeps s (publishLanes s) := by
  unfold publishLanes
  exact .ite (.modLane (.ite (.modLane .refl (fun _ => lanePublish_keeps)) .refl) (fun _ => lanePublish_keeps)) (.ite (.modLane .refl
    (fun _ => lanePublish_keeps)) .refl)

theorem periodBoundaryEffect_keeps {s} : Keeps s (periodBoundaryEffect s) := by
  unfold periodBoundaryEffect
  exact .ite .refl (.step (.step (.step (.step (.step (.step (.step (.step (.bothLanes (.step tickPeriod_keeps sendFrames_keeps)
    (fun _ => laneCycle0_keeps)) tapHeld_keeps) linkReactions_keeps) modeCompletion_keeps) safeBoundary_keeps) sessionsPeriod_keeps)
    meterPeriod_keeps) injectionPeriod_keeps) publishLanes_keeps)

theorem lockFell_keeps {l n s} : Keeps s (lockFell l n s) := by
  unfold lockFell
  dsimp only; split
  · split
    · exact .ite endSession_keeps .refl
    · exact .refl
  · exact .refl

theorem upFrameEffect_keeps {l n f s} : Keeps s (upFrameEffect l n f s) := by
  unfold upFrameEffect
  exact .ite (.step (.step (.modLane .refl (fun _ => receiveLane_keeps)) tapSend_keeps) lockFell_keeps) (.modLane .refl
    (fun _ => receiveLane_keeps))

/-! ## Metrology -/

theorem tapReceivedEffect_keeps {r s} : Keeps s (tapReceivedEffect r s) := by
  unfold tapReceivedEffect
  exact .step (.taps .refl) (modMet_keeps fun _ => takeTap_metKeeps)

/-! ## Policy instructions -/

theorem runPolicyIns_keeps {ok f l s}
    (hf : ∀ p : Policy, p.s.length = 16 → (f p).s.length = 16 := by intro p h; exact (put_length _ _ _).trans h) :
    KeepsNext s (runPolicyIns ok f l s) := by
  unfold runPolicyIns
  refine .next (.ite (.modLane .refl fun x => .share .refl ?_) .refl)
  exact fun h => ⟨h.1, h.2.1, hf _ h.2.2⟩

/-! ## Hardware queues and the fast store -/

theorem modFs_keeps {f s} (hf : ∀ k, Store.Canonical NotEmpty k.cells → Store.Canonical NotEmpty (f k).cells) : Keeps s (modFs f s) :=
  .fs .refl (hf _)

theorem damageSet_keeps {r row s} : Keeps s (damageSet r row s) := by
  unfold damageSet
  split
  · refine .sets .refl fun h => ?_
    dsimp only
    split <;> exact h
  · exact .refl

theorem fastStoreWriteEffect_keeps {l r row data fails s} : Keeps s (fastStoreWriteEffect l r row data fails s) := by
  have told : ∀ {n x}, Keeps x (modFs (fun f => { f with result := n }) x) := modFs_keeps fun _ => id
  have stored : ∀ {x} {f : FastStore → Nat}, Keeps x (modFs (fun k => { k with
      cells := Store.set k.cells (regionNum r + 8 * row) data [], result := 0, rows := f k }) x) := modFs_keeps fun _ h => h.set id
  unfold fastStoreWriteEffect
  exact .ite (told.step evtLane_keeps) (.ite (.step (told.step damageSet_keeps) recheckSpares_keeps) (stored.step recheckSpares_keeps))

/-- An update of queue q that keeps its balance keeps the invariant of the lane. -/
theorem LaneState.modQueue_keeps {q f x} (hf : (nth x.queues q).credit + (nth x.queues q).entries.length = queueDepth q →
      (f (nth x.queues q)).credit + (f (nth x.queues q)).entries.length = queueDepth q) : LaneKeeps x (LaneState.modQueue q f x) := by
  refine .queues .refl fun h => ⟨by rw [upd_length]; exact h.1, fun p hp => ?_⟩
  by_cases e : q = p
  · subst e
    rw [nth_upd_self _ _ _ (by rw [h.1]; exact hp)]
    exact hf (h.2 q hp)
  · rw [nth_upd_ne _ _ _ _ e]
    exact h.2 p hp

/-- Enqueueing takes one credit for the entry it adds (R26). -/
theorem HwQueue.enqueue_balance {e k} (h : 0 < k.credit) :
    (HwQueue.enqueue e k).credit + (HwQueue.enqueue e k).entries.length = k.credit + k.entries.length := by
  simp only [HwQueue.enqueue, List.length_append, List.length_singleton]
  omega

/-- Dequeueing returns the credit of the entry it takes (R26). -/
theorem HwQueue.dequeue_balance {k} : (HwQueue.dequeue k).credit + (HwQueue.dequeue k).entries.length = k.credit + k.entries.length := by
  unfold HwQueue.dequeue
  split
  · rfl
  · rename_i e es h
    simp only [h, List.length_cons]
    omega

theorem countDrop_keeps {l r s} : Keeps s (countDrop l r s) := by
  unfold countDrop
  refine .ite (.chans .refl fun h => h.upd ?_) .refl
  exact fun _ h => h

theorem queueEnqueueEffect_keeps {l q e s} : Keeps s (queueEnqueueEffect l q e s) := by
  unfold queueEnqueueEffect
  dsimp only
  split
  · exact .refl
  · split
    · rename_i hc
      exact .setLane .refl (LaneState.modQueue_keeps (HwQueue.enqueue_balance hc).trans)
    · split
      · exact .ite (.step (.modLane .refl fun _ => LaneState.modQueue_keeps id) countDrop_keeps) .refl
      · exact .refl

theorem queueRetireLane_keeps {q x} : LaneKeeps x (queueRetireLane q x) := by
  unfold queueRetireLane
  split
  · dsimp only
    refine .step (LaneState.modQueue_keeps (q := q) ?_) .leaf
    exact fun _ => HwQueue.reset_balanced (k := nth x.queues q)
  · exact .refl

theorem dropRole_keeps {l q s} : Keeps s (dropRole l q s) := by
  unfold dropRole
  split
  · refine .ite (.chans .refl fun h => h.upd fun c => ?_) .refl
    exact ChanKeeps.ite (.leaf) (.leaf)
  · exact .refl

theorem queueRetireEffect_keeps {l q s} : Keeps s (queueRetireEffect l q s) := by
  unfold queueRetireEffect
  exact .ite (.step (.modLane (.ite dropRole_keeps .refl) (fun _ => queueRetireLane_keeps)) recheckSpares_keeps) .refl

/-! ## Tile instructions -/

theorem setRunning_keeps {l t k s} : Keeps s (setRunning l t k s) := by
  unfold setRunning
  exact .modLane .refl (fun _ => .tiles .refl)

theorem runTile_keeps {ok c f l t s} : KeepsNext s (runTile ok c f l t s) := by
  unfold runTile
  refine .next ?_
  split
  · exact .refl
  · exact .ite setRunning_keeps .refl

theorem tileFault_keeps {l t s} : Keeps s (tileFault l t s) := by
  unfold tileFault
  exact .modLane .refl (fun _ => .leaf)

theorem tileEccEffect_keeps {l t m s} : Keeps s (tileEccEffect l t m s) := by
  unfold tileEccEffect
  exact .ite (.modLane .refl (fun _ => .tiles .refl)) (.step (.modLane .refl (fun _ => .tiles .refl)) tileFault_keeps)

end Sys2Proof.Machine
end

section
/-! PROOF. Every instruction, the idle tick and every step keep the invariant of the block (R25, R26, R80, R110). -/

namespace Sys2Proof.Machine
set_option Elab.async false

theorem KeepsNext.step {s x o} (h : Keeps s x) (k : KeepsNext x o) : KeepsNext s o := fun t e => h.step (k t e)

theorem captureGuard_keeps {s t} : Keeps t (captureGuard s t) := (captureGuard_only (l := .a)).keeps

theorem captureTake_keeps {w l t s} : Keeps s (captureTake w l t s) := captureTake_only.keeps

theorem exec_keeps (c : Instr) (s : State) : KeepsNext s (exec c s) := by
  cases c with
  | periodBoundary => exact .next (.step periodBoundaryEffect_keeps captureGuard_keeps)
  | upFrameReceived _ _ _ => exact .next upFrameEffect_keeps
  | frameBankClose _ => exact .next frameBankCloseEffect_keeps
  | accumulatorTake _ => exact .next (.modLane .refl fun _ => thermalTake_only.keeps.step shareTake_keeps)
  | slotStart _ _ _ => exact .next slotStartEffect_keeps
  | slotWriteback _ _ => exact .next (.modLane .refl fun _ => writebackLane_keeps)
  | outputLatch _ => exact .next outputLatchEffect_keeps
  | digestEntrySend _ _ => exact .next digestEntryEffect_only.keeps
  | alignmentMarkerReceived _ => exact .next (alignmentEffect_only (l := .a)).keeps
  | queueEnqueue _ _ _ => exact .next queueEnqueueEffect_keeps
  | queueDequeue _ _ => exact .next (.modLane .refl fun _ => LaneState.modQueue_keeps HwQueue.dequeue_balance.trans)
  | queueRetire _ _ => exact .next queueRetireEffect_keeps
  | fastStoreWrite _ _ _ _ _ => exact .next fastStoreWriteEffect_keeps
  | railFault _ _ => exact .next railFaultEffect_keeps
  | railRecovered _ => exact .next railRecoveredEffect_keeps
  | railShortExcursion _ => exact .next (.ite .refl modRails_keeps)
  | resetPin _ => exact .next (.ite (.step safeExit_keeps plainReset_keeps) .refl)
  | resetRelease => exact .next resetReleaseEffect_keeps
  | junctionBoot _ _ => exact .next (junctionBootEffect_only (l := .a)).keeps
  | laneBoot _ _ => exact .next laneBootEffect_keeps
  | activeLaneAppoint => exact .next appointEffect_keeps
  | laneBootTimeout _ => exact .next laneBootTimeoutEffect_keeps
  | laneWatchdogExpiry _ => exact .next laneWatchdogEffect_keeps
  | powerFailWarning => exact .next powerFailWarningEffect_keeps
  | powerFailEnd => exact .next powerFailEndEffect_keeps
  | powerFailSafeExit => exact .next (.ite (.step safeExit_keeps plainReset_keeps) .refl)
  | junctionCrystalLost => exact .next junctionLose_keeps
  | metrologyCrystalLost => exact .next (modMet_keeps fun _ => crystalLost_metKeeps)
  | metrologyCrystalReturn => exact .next (.ite (modMet_keeps fun _ => startMet_metKeeps) .refl)
  | backupCrystalLost => exact .next (.step modBk_keeps reselect_keeps)
  | dieTempReading _ => exact .next dieTempEffect_keeps
  | railFaultLatchClear _ => exact execRailFaultLatchClear_keeps
  | modeRequestWrite _ => exact execModeRequestWrite_keeps
  | modeRequestTaken => exact .next modeRequestTakenEffect_keeps
  | resetRequest _ => exact execResetRequest_keeps
  | safeEntry _ => exact .next (.ite takeSafe_keeps .refl)
  | safeRampEnd => exact .next safeRampEndEffect_keeps
  | safeNAssert => exact .next safeNAssertEffect_keeps
  | resetCauseClear _ => exact execResetCauseClear_keeps
  | objectWrite _ _ _ => exact .next writeObject_keeps
  | liveWrite _ _ _ => exact .next writeObject_keeps
  | usdoTimeout _ => exact .next usdoTimeoutEffect_keeps
  | udpDatagramReceived _ => exact .next udpEffect_keeps
  | nmtStart => exact .next nmtGo_keeps
  | nmtStop => exact .next nmtGo_keeps
  | nmtEnterPreoperational => exact .next nmtGo_keeps
  | nmtResetCommunication => exact .next (.ite resetComm_keeps .refl)
  | heartbeatProduce => exact .next heartbeatEffect_keeps
  | rpdoReceived _ _ => exact .next rpdoEffect_keeps
  | tpdoEvent _ _ => exact .next tpdoEffect_keeps
  | liveWritePublish => exact .next publishEffect_keeps
  | shadowCommit => exact execShadowCommit_keeps
  | commitChecksComplete => exact .next commitDoneEffect_keeps
  | shadowReopen => exact execShadowReopen_keeps
  | shadowSwap => exact execShadowSwap_keeps
  | shadowReload => exact execShadowReload_keeps
  | swapTaken => exact .next swapTakenEffect_keeps
  | swapReadyReport => exact .next swapReadyEffect_keeps
  | swapFlip => exact .next (.ite missBoundary_keeps (.step swapFlipEffect_keeps captureGuard_keeps))
  | setCopyComplete => exact .next copyDoneEffect_keeps
  | setFlagsClear _ => exact execSetFlagsClear_keeps
  | linkSyncAcquired _ _ => exact .next (.modLane .refl fun _ => linkSyncLane_keeps)
  | linkSyncLost _ _ => exact .next linkSyncLostEffect_keeps
  | linkUp _ _ => exact .next linkUpEffect_keeps
  | linkFail _ _ _ => exact .next linkFailEffect_keeps
  | linkFailRetryExpiry _ _ => exact .next (.modLane .refl fun _ => linkRetryLane_keeps)
  | seqAdopt _ _ => exact .next (.modLane .refl fun _ => seqAdoptLane_keeps)
  | tileNop _ _ _ => exact runTile_keeps
  | tileLdp _ _ _ => exact runTile_keeps
  | tileLdk _ _ _ => exact runTile_keeps
  | tileMov _ _ _ => exact runTile_keeps
  | tileSto _ _ _ => exact runTile_keeps
  | tileAdd _ _ _ => exact runTile_keeps
  | tileSub _ _ _ => exact runTile_keeps
  | tileMul _ _ _ => exact runTile_keeps
  | tileMac _ _ _ => exact runTile_keeps
  | tileClp _ _ _ => exact runTile_keeps
  | tileRnm _ _ _ => exact runTile_keeps
  | tileInt _ _ _ => exact runTile_keeps
  | tileDrv _ _ _ => exact runTile_keeps
  | tileFlt _ _ _ => exact runTile_keeps
  | tileSel _ _ _ => exact runTile_keeps
  | tileCmp _ _ _ => exact runTile_keeps
  | tileRmp _ _ _ => exact runTile_keeps
  | tileTsi _ _ _ => exact runTile_keeps
  | tileCap _ _ _ => exact .step (.ite captureTake_keeps .refl) runTile_keeps
  | tileChk _ _ _ => exact runTile_keeps
  | tileEccError _ _ _ => exact .next tileEccEffect_keeps
  | captureArm => exact execCaptureArm_keeps
  | captureForceTrigger => exact execCaptureForceTrigger_keeps
  | captureStop => exact execCaptureStop_keeps
  | captureTrigger => exact .next (captureTriggerEffect_only (l := .a)).keeps
  | captureComplete => exact .next (captureCompleteEffect_only (l := .a)).keeps
  | loopEnable _ => exact .next ifPermitted_keeps
  | loopDisable _ => exact .next ifPermitted_keeps
  | loopFaultReset _ => exact .next ifPermitted_keeps
  | loopCommandTaken => exact .next loopCommandTakenEffect_keeps
  | loopBlockEnable _ _ _ => exact .next loopBlockEnableEffect_keeps
  | loopStopTimeout _ _ => exact .next loopStopTimeoutEffect_keeps
  | faultRampEnd _ _ => exact .next faultRampEndEffect_keeps
  | injectionArm => exact execInjectionArm_keeps
  | injectionStop => exact execInjectionStop_keeps
  | injectionStart => exact .next injectionStartEffect_keeps
  | injectionComplete _ => exact .next injectionCompleteEffect_keeps
  | shareRunStart _ => exact .next shareRunStartEffect_keeps
  | shareApply _ => exact .next (.ite (.step (.modLane .refl fun _ => shareApplyLane_keeps) captureGuard_keeps) .refl)
  | shareIncreaseApply _ => exact .next (.ite (.step (.modLane .refl fun _ => shareIncreaseLane_keeps) captureGuard_keeps) .refl)
  | policyNop _ _ => exact runPolicyIns_keeps fun _ => id
  | policyLdi _ _ => exact runPolicyIns_keeps
  | policyLdk _ _ => exact runPolicyIns_keeps
  | policyLkh _ _ => exact runPolicyIns_keeps
  | policyAdd _ _ => exact runPolicyIns_keeps
  | policySub _ _ => exact runPolicyIns_keeps
  | policyMul _ _ => exact runPolicyIns_keeps
  | policyDiv _ _ => exact runPolicyIns_keeps
  | policyMin _ _ => exact runPolicyIns_keeps
  | policyMax _ _ => exact runPolicyIns_keeps
  | policyCmp _ _ => exact runPolicyIns_keeps fun _ => id
  | policySel _ _ => exact runPolicyIns_keeps
  | policyOut _ _ => exact runPolicyIns_keeps fun _ => id
  | stringContactorHoldExpiry _ _ => exact .next (.modLane .refl fun _ => contactorHoldLane_keeps)
  | gridStatusReceived _ _ => exact .next gridStatusEffect_keeps
  | gridStatusStale _ => exact .next gridStatusStaleEffect_keeps
  | federationShareSend => exact .next federationShareSendEffect_keeps
  | federationReportSend => exact .next federationReportSendEffect_keeps
  | federationShareReceived _ => exact .next (federationShareEffect_only (l := .a)).keeps
  | federationReportReceived _ => exact .next (federationReportEffect_only (l := .a)).keeps
  | federationFallback => exact .next (federationFallbackEffect_only (l := .a)).keeps
  | leaderTakeover => exact .next (leaderTakeoverEffect_only (l := .a)).keeps
  | reassessment _ => exact .next reassessmentEffect_keeps
  | moveStepAdvance _ _ =>
      exact .next (.ite (.step (.modLane .refl fun _ => moveAdvanceLane_keeps) captureAbort_keeps) (.modLane .refl fun _ => moveAdvanceLane_keeps))
  | moveStepTimeout _ _ => exact .next (.step (.modLane .refl fun _ => moveTimeoutLane_keeps) recheckSpares_keeps)
  | moveRampUp _ _ => exact .next (.modLane .refl fun _ => moveRampUpLane_keeps)
  | moduleTakeover _ _ => exact .next (.modLane .refl fun _ => moduleTakeoverLane_keeps)
  | thetaWindowClose _ _ => exact .next (.step (.modLane .refl fun _ => thetaWindowLane_keeps) recheckSpares_keeps)
  | tileRelief _ _ => exact .next (.step (.step (.modLane .refl fun _ => tileReliefLane_keeps) captureGuard_keeps) recheckSpares_keeps)
  | spareTileTakeover _ =>
      exact .next (.step (.step (.modLane .refl fun _ => spareTakeoverLane_keeps) captureGuard_keeps) recheckSpares_keeps)
  | rotatingTileTest _ _ =>
      exact .next (.ite (.step (.step (.modLane .refl fun _ => rotatingTestLane_keeps) captureGuard_keeps) recheckSpares_keeps) .refl)
  | tileTestComplete _ _ _ => exact .next (.step (.modLane .refl fun _ => tileTestLane_keeps) recheckSpares_keeps)
  | nandBlockAllocate _ => exact .next (nandAllocateEffect_only (l := .a)).keeps
  | nandStaticRelocation => exact .next (nandRelocationEffect_only (l := .a)).keeps
  | thermalUpdate _ => exact .next thermalUpdateEffect_only.keeps
  | thermalPublish _ => exact .next thermalPublishEffect_keeps
  | sensorRelease _ => exact execSensorRelease_keeps
  | metrologyVmetWarning => exact .next (modMet_keeps fun _ => vmetWarning_metKeeps)
  | metrologyStart _ => exact .next (.ite (modMet_keeps fun _ => startMet_metKeeps) .refl)
  | powerFailMilestone => exact .next (modMet_keeps fun _ => powerFailMet_metKeeps)
  | milestone _ => exact .next (.step (modMet_keeps fun _ => milestoneMet_metKeeps) recheckSpares_keeps)
  | acEnergySample _ => exact .next (modMet_keeps fun _ => acSample_metKeeps)
  | voltageEventStart _ _ => exact .next (modMet_keeps fun _ => voltStart_metKeeps)
  | voltageEventEnd _ _ _ => exact .next (modMet_keeps fun _ => voltEnd_metKeeps)
  | gridStatusSend _ _ => exact .next (.ite (.step (modMet_keeps fun _ => gridSend_metKeeps) State.useFree_keeps) .refl)
  | tapRecordReceived _ => exact .next tapReceivedEffect_keeps
  | pulseOutputEdge _ => exact .next (.ite (modMet_keeps fun _ => .leaf) .refl)
  | pulseInputCount _ => exact .next (.ite (modMet_keeps fun _ => .leaf) .refl)
  | reconciliation _ => exact .next (modMet_keeps fun _ => reconcile_metKeeps)
  | sealOpen => exact .next (modMet_keeps fun _ => openSeal_metKeeps)
  | sealClose _ => exact .next (modMet_keeps fun _ => closeSeal_metKeeps)
  | barrierStatus _ => exact .next statusEffect_keeps
  | barrierRead _ _ _ => exact .next barrierReadEffect_keeps
  | signedRecordRead _ _ => exact .next (serve_keeps fun _ => signedRead_metKeeps)
  | barrierLogRead _ _ _ _ => exact .next (.step (serve_keeps fun _ => logRead_metKeeps) State.useFree_keeps)
  | barrierTime _ _ => exact .next (serve_keeps fun _ => timeMet_metKeeps)
  | barrierSessionOpen _ _ _ _ _ => exact .next (serve_keeps fun _ => sessionOpen_metKeeps)
  | barrierSessionClose _ _ _ => exact .next (serve_keeps fun _ => sessionClose_metKeeps)
  | barrierCalendar _ _ _ _ => exact .next (serve_keeps fun _ => calendarMet_metKeeps)
  | barrierCalWrite _ _ => exact .next (.step (serve_keeps fun _ => calWriteMet_metKeeps) State.useFree_keeps)
  | barrierConfigWrite _ _ => exact .next (.step (serve_keeps fun _ => configWriteMet_metKeeps) State.useFree_keeps)
  | barrierPqWrite _ _ _ _ _ _ => exact .next (serve_keeps fun _ => .leaf)
  | barrierImage _ _ _ _ => exact .next (serve_keeps fun _ => imageMet_metKeeps)
  | barrierKey _ => exact .next (serve_keeps fun _ => .refl)
  | barrierTamper _ _ _ _ => exact .next barrierTamperEffect_keeps
  | milestoneReceived _ _ _ _ => exact .next (.modLane .refl fun _ => startSnapshot_only.keeps)
  | snapshotPublish _ => exact .next (.modLane .refl fun _ => publishSnapshot_only.keeps)
  | snapshotAbandon _ => exact .next (.modLane .refl fun _ => .reading .refl)
  | logCopyReceived _ _ => exact .next (.modLane .refl fun _ => logCopyLane_only.keeps)
  | signedReceived _ _ => exact .next signedReceivedEffect_only.keeps
  | junctionVerdict _ _ => exact .next junctionVerdictEffect_keeps
  | verdictTakeEffect => exact .next verdictTakeEffectEffect_keeps
  | crossoverOutputEnable => exact .next crossoverEnableEffect_keeps
  | plannedCrossoverRequest _ => exact execPlannedCrossoverRequest_keeps
  | plannedCrossoverTaken => exact .next (plannedTakenEffect_only (l := .a)).keeps
  | plannedCrossover => exact .next plannedCrossoverEffect_keeps
  | releaseExcludedLane _ => exact execReleaseExcludedLane_keeps
  | failedLaneRelease _ => exact .next failedReleaseEffect_only.keeps
  | resyncJoinNamed => exact .next (joinNamedEffect_only (l := .a)).keeps
  | snapshotSlowCapture => exact .next (slowCaptureEffect_only (l := .a)).keeps
  | resyncJoin => exact .next resyncJoinEffect_keeps
  | resyncComplete => exact .next resyncCompleteEffect_keeps
  | memoryMarchBlock _ _ => exact .next (.ite (.modLane .refl fun _ => marchLane_only.keeps) .refl)
  | receiverLoopTest _ _ _ => exact .next (.ite (.step (.modLane .refl fun _ => rxTestLane_only.keeps) recheckSpares_keeps) .refl)
  | junctionRestart => exact .next (junctionRestartEffect_only (l := .a)).keeps
  | junctionRomCheck _ => exact .next (.ite .refl junctionLose_keeps)
  | rtcSiteTimeCompare => exact .next rtcCompareEffect_keeps
  | rtcAlarm => exact .next rtcAlarmEffect_keeps
  | rtcWrite _ => exact execRtcWrite_keeps
  | pfiWake => exact .next (.ite (.step wakeBy_keeps modBk_keeps) .refl)
  | tamperInputLatch _ => exact .next tamperLatchEffect_keeps
  | tamperHandover => exact .next (tamperHandoverEffect_only (l := .a)).keeps
  | tamperLatchClear _ => exact execTamperLatchClear_keeps
  | securityTamper _ _ => exact .next securityTamperEffect_keeps
  | pilotStateAccepted _ _ => exact .next (.ite .refl pilotAcceptedEffect_keeps)
  | plugDetected _ => exact .next plugDetectedEffect_keeps
  | pilotX2Start _ => exact .next pilotX2Effect_keeps
  | cmSlacParmReq _ => exact .next slacParmEffect_keeps
  | cmStartAttenChar _ => exact .next attenEffect_keeps
  | cmSlacMatch _ => exact .next slacMatchEffect_keeps
  | cmValidateReq _ => exact .next validateEffect_keeps
  | seccDiscoveryReq _ => exact .next discoveryEffect_keeps
  | supportedAppProtocolReq _ _ => exact .next (inState_keeps fun _ => appProtocol_keeps)
  | sessionSetupReq _ => exact .next (inState_keeps fun _ => sessionSetup_keeps)
  | authorizationReq _ _ => exact .next authorizationEffect_keeps
  | sessionStart _ => exact .next sessionStartEffect_keeps
  | chargeParameterDiscoveryReq _ _ => exact .next (inState_keeps fun _ => parameterDiscovery_keeps)
  | cableCheckPass _ => exact .next cableCheckEffect_keeps
  | prechargeReq _ _ => exact .next (inState_keeps fun _ => precharge_keeps)
  | chargeLoopReq _ _ => exact .next (inState_keeps fun _ => chargeLoop_keeps)
  | vehicleStopRequest _ => exact .next (.ite (.step (.ite answer_keeps .refl) stopSess_keeps) .refl)
  | hostAuthorizationWrite _ _ => exact execHostAuthorizationWrite_keeps
  | isolationStateWrite _ _ => exact execIsolationStateWrite_keeps
  | isolationStale _ => exact .next (.ite stopSess_keeps .refl)
  | sessionTimeout _ _ => exact .next timeoutEffect_keeps
  | thermalHoldExpiry _ => exact .next (.ite stopSess_keeps .refl)
  | sessionEnd _ _ => exact .next (.ite .refl stopSess_keeps)
  | sessionEnded _ => exact .next endedEffect_keeps
  | sessionIdle _ => exact .next backToIdle_keeps
  | bridgePeerGone _ => exact .next peerGoneEffect_keeps
  | canFrameReceived _ _ => exact .next (.ite (modChan_keeps fun _ => receiveFrame_keeps) .refl)
  | canFrameSent _ _ => exact .next canFrameSentEffect_keeps
  | canFrameCancel _ _ _ _ => exact .next (modChan_keeps fun _ => Channel.cancel_keeps)
  | canBusOff _ => exact .next canBusOffEffect_keeps
  | canBusOffRecovery _ => exact .next (modChan_keeps fun _ => .ite .leaf .refl)
  | channelSleep _ => exact execChannelSleep_keeps
  | channelWakeCommand _ => exact execChannelWakeCommand_keeps
  | channelRestart _ => exact execChannelRestart_keeps
  | channelWake _ _ => exact .next channelWakeEffect_keeps
  | wakeD => exact .next (.ite wakeBy_keeps .refl)
  | referenceMessageSend _ => exact .next refSendEffect_keeps
  | referenceMessageReceived _ _ => exact .next refReceivedEffect_keeps
  | scheduleLost _ => exact .next scheduleLostEffect_keeps
  | exclusiveWindowStart _ _ => exact .next windowStartEffect_keeps
  | windowEnd _ => exact .next (modChan_keeps fun _ => .ite Channel.endWindow_keeps .refl)
  | ptpSyncReceived _ _ => exact .next (ptpSyncEffect_only (l := .a)).keeps
  | ptpAnnounceReceived _ _ => exact .next (ptpAnnounceEffect_only (l := .a)).keeps
  | ptpDelayResp _ => exact .next (.ite modSite_keeps .refl)
  | ptpLockLost => exact .next (ptpLockLostEffect_only (l := .a)).keeps
  | beaconSend => exact .next (.ite modTri_keeps .refl)
  | trievoFrameSend _ => exact .next (triSendEffect_only (l := .a)).keeps
  | trievoDataReceived _ => exact .next triReceived_keeps
  | trievoAckReceived _ => exact .next triReceived_keeps
  | trievoAssocReqReceived _ => exact .next triReceived_keeps
  | trievoStatusReceived _ => exact .next triReceived_keeps
  | ackTimeout => exact .next (ackTimeoutEffect_only (l := .a)).keeps
  | phaseLearning _ _ => exact .next (phaseEffect_only (l := .a)).keeps
  | peerLost _ => exact .next (peerLostEffect_only (l := .a)).keeps
  | mailboxTransmit _ => exact execMailboxTransmit_keeps
  | mailboxReceiveRead => exact .next mailboxReadEffect_keeps
  | keyInstall _ => exact updateRow_keeps
  | keyReplace _ => exact updateRow_keeps
  | keyInvalidate _ => exact updateRow_keeps
  | ownerAuthorityReplace _ => exact updateRow_keeps
  | lifeCycleChange _ => exact updateRow_keeps
  | keyGenerate _ => exact updateRow_keeps
  | keyStatement => exact execKeyStatement_keeps
  | certificationRequest => exact execCertificationRequest_keeps
  | keystoreSign _ => exact .next (.step (keyRequest_only (l := .a)).keeps State.useFree_keeps)
  | keystoreVerify _ _ => exact .next (keyRequest_only (l := .a)).keeps
  | keystoreKeyAgreement _ => exact .next (keyRequest_only (l := .a)).keeps
  | keystoreEncrypt _ => exact .next (.step (keyRequest_only (l := .a)).keeps State.useFree_keeps)
  | keystoreDecrypt _ => exact .next (keyRequest_only (l := .a)).keeps
  | keystoreWrap _ => exact .next (keyRequest_only (l := .a)).keeps
  | keystoreDerive _ _ => exact .next (.ite .refl (deriveEffect_only (l := .a)).keeps)
  | keystoreHash _ => exact .next (hashEffect_only (l := .a)).keeps
  | keyReplicationReceived _ => exact .next (replicationEffect_only (l := .a)).keeps
  | eventWrite _ => exact .next eventWriteEffect_only.keeps
  | eventFlush _ => exact .next flushLane_keeps
  | eventArchive => exact .next (eventArchiveEffect_only (l := .a)).keeps
  | eventRead => exact .next (.ite eventReadEffect_keeps .refl)
  | eventClear _ => exact execEventClear_keeps
  | nandRequest _ _ _ => exact .next (nandRequestEffect_only (l := .a)).keeps
  | readDisturbRefresh _ => exact .next (readDisturbEffect_only (l := .a)).keeps
  | scrubPage _ _ _ => exact .next (scrubEffect_only (l := .a)).keeps
  | loadProfileWrite => exact .next (loadProfileEffect_only (l := .a)).keeps
  | vbusAttach => exact .next modUpd_keeps
  | serviceOpen _ => exact .next (serviceRun_only (l := .a)).keeps
  | serviceData _ => exact .next (serviceRun_only (l := .a)).keeps
  | serviceClose _ => exact .next (.step (serviceRun_only (l := .a)).keeps recoverFrom_keeps)
  | serviceStatus _ => exact .next (serviceRun_only (l := .a)).keeps
  | serviceErase _ => exact .next (serviceRun_only (l := .a)).keeps
  | activationRolling => exact execActivationRolling_keeps
  | activationFullRestart => exact execActivationFullRestart_keeps
  | activationAbort => exact execActivationAbort_keeps
  | rollingSequenceAdvance => exact .next sequenceAdvance_keeps
  | hostConfirm _ => exact execHostConfirm_keeps
  | healthConfirm _ => exact .next confirmEffect_only.keeps
  | unconfirmedTimeout _ => exact .next unconfirmedEffect_keeps
  | backupEntry => exact .next backupEntryEffect_keeps
  | plugLost _ => exact .next plugLostEffect_keeps
  | protocolError _ => exact .next failMessage_keeps
  | barrierMessageError _ _ => exact .next (modMet_keeps fun _ => messageError_metKeeps)
  | ptpHoldoverExpiry => exact .next (ptpHoldoverExpiryEffect_only (l := .a)).keeps
  | vbusDetach => exact .next modUpd_keeps

theorem idleTick_keeps {s} : Keeps s (idleTick s) := by
  unfold idleTick rtcTick
  exact .bothLanes (.step (.step (.ite .refl (.bk .refl)) (modMet_keeps fun _ => metIdle_metKeeps))
    (.chans .refl fun h => h.map fun _ => Channel.serve_keeps)) fun _ => .ks .refl

theorem step_keeps (s : State) : KeepsNext s (step s) := by
  unfold step
  split
  · exact .next idleTick_keeps
  · exact .step (.pending .refl) (exec_keeps _ _)

/-- Settles O53: each instruction and the idle tick keep the invariant part by part, by a lemma for each operation they call. -/
theorem stepKeepsInvariant : Obligations.StepKeepsInvariant := fun s t hs ht => step_keeps s t ht hs

end Sys2Proof.Machine
end

section
/-! PROOF. What follows from the invariant: the state after reset, and the credits of the hardware queues (R26, R28, R54). -/

namespace Sys2Proof.Machine
set_option Elab.async false

/-! ## After reset -/

theorem State.lane_reset {l} : State.reset.lane l = LaneState.reset := by
  cases l <;> rfl

/-- Settles O52: each lane meets the invariant of a lane, and every other list and store of the reset state is as long or as empty as it
asks. -/
theorem invariantAtReset : Obligations.InvariantAtReset :=
  Inv.iff.2 ⟨LaneState.reset_inv, LaneState.reset_inv, rfl, Channel.reset_ok, ⟨rfl, rfl, rfl, rfl⟩, rfl, Comm.reset_ok,
    ⟨.nil, .nil, .nil⟩, .nil⟩

/-- Settles O58: each part is read off the reset state; the tiles by their ten places, the queues by their numbers. -/
theorem resetState : Obligations.ResetState := by
  unfold Obligations.ResetState
  refine ⟨rfl, rfl, rfl, rfl, fun l => ?_, by decide, rfl⟩
  rw [State.lane_reset]
  refine ⟨by decide, fun q hq => ?_⟩
  rw [LaneState.reset_queue hq]
  exact ⟨rfl, rfl⟩

/-! ## Credits of the hardware queues -/

theorem HwQueue.dequeue_cons {k : HwQueue} {e es} (h : k.entries = e :: es) :
    k.dequeue.entries = es ∧ k.dequeue.credit = k.credit + 1 := by
  unfold HwQueue.dequeue
  rw [h]
  exact ⟨rfl, rfl⟩

theorem LaneState.queue_modQueue {x q f} (hq : q < x.queues.length) : nth (LaneState.modQueue q f x).queues q = f (nth x.queues q) :=
  nth_upd_self _ _ _ hq

/-- The consumer takes the oldest entry of queue q, whose credit returns at once. -/
theorem queueDequeue_completes {s l e es} {q : Fin 128} (h : (nth (s.lane l).queues q).entries = e :: es) :
    Completes (.queueDequeue l q) s fun t =>
      (nth (t.lane l).queues q).entries = es ∧ (nth (t.lane l).queues q).credit = (nth (s.lane l).queues q).credit + 1 := by
  have hq : q.1 < (s.lane l).queues.length := nth_lt_of_ne fun d => nomatch d ▸ h
  refine .of rfl ?_
  rw [State.lane_modLane, LaneState.queue_modQueue hq]
  exact HwQueue.dequeue_cons h

/-- Settles O54: balance is part of the invariant every step keeps, and a dequeue counts its credit up in the same step. -/
theorem queueCredits : Obligations.QueueCredits :=
  ⟨fun s t hs ht => (step_keeps s t ht hs).balanced, fun _ _ _ _ _ _ h => queueDequeue_completes h⟩

end Sys2Proof.Machine
end

section
/-! PROOF. Hardware queues and the fast store (R10, R25, R27-R29). -/

namespace Sys2Proof.Machine
set_option Elab.async false

/-! ## What a look at the spares leaves -/

@[simp] theorem recheckSpares_fs {s} : (recheckSpares s).fs = s.fs :=
  (recheckSpares_only (l := .a)).1 .fs (by decide)

@[simp] theorem recheckSpares_queues {s l} : ((recheckSpares s).lane l).queues = (s.lane l).queues :=
  recheckSpares_only.2.1 .queues (by decide)

@[simp] theorem recheckSpares_roleMap {s l} : ((recheckSpares s).lane l).roleMap = (s.lane l).roleMap :=
  recheckSpares_only.2.1 .roleMap (by decide)

/-! ## Enqueueing -/

@[simp] theorem countDrop_queues {l r s} : ((countDrop l r s).lane l).queues = (s.lane l).queues :=
  countDrop_only.2.1 .queues (by decide)

/-- A producer with credit enqueues at the end and takes one credit (R25). -/
theorem queueEnqueue_credit {s l e} {q : Fin 128} (hr : (nth (s.lane l).queues q).retired = false)
    (hc : 0 < (nth (s.lane l).queues q).credit) :
    Completes (.queueEnqueue l q e) s fun t => nth (t.lane l).queues q =
      { nth (s.lane l).queues q with entries := (nth (s.lane l).queues q).entries ++ [e], credit := (nth (s.lane l).queues q).credit - 1 } := by
  have hq : q.1 < (s.lane l).queues.length := nth_lt_of_ne fun d => Nat.lt_irrefl 0 (d ▸ hc :)
  have run : queueEnqueueEffect l q e s = s.modLane l (LaneState.modQueue q (HwQueue.enqueue e)) := by
    simp [queueEnqueueEffect, hr, hc]
  refine .of rfl ?_
  rw [run, State.lane_modLane, LaneState.queue_modQueue hq]
  rfl

/-- Without credit a queue in an external receive role counts the frame as dropped, and another keeps what it holds (R27). -/
theorem queueEnqueue_noCredit {s l e} {q : Fin 128} (h : Shape s) (hr : (nth (s.lane l).queues q).retired = false)
    (hc : (nth (s.lane l).queues q).credit = 0) :
    Completes (.queueEnqueue l q e) s fun t => nth (t.lane l).queues q =
      if (roleServed (s.lane l) q).any externalReceive then { nth (s.lane l).queues q with drops := (nth (s.lane l).queues q).drops + 1 }
      else nth (s.lane l).queues q := by
  have hq : q.1 < (s.lane l).queues.length := by rw [(h.lane l).queues]; exact q.2
  refine .of rfl ?_
  unfold queueEnqueueEffect
  simp only [hr, hc, Nat.lt_irrefl, if_false, Bool.false_eq_true]
  cases roleServed (s.lane l) q with
  | none => rfl
  | some r =>
    cases hx : externalReceive r with
    | true => simp [hx, hr, hc, LaneState.queue_modQueue hq]
    | false => simp [hx]

/-- A retired queue takes nothing (R29). -/
theorem queueEnqueue_retired {s l e} {q : Fin 128} (hr : (nth (s.lane l).queues q).retired = true) :
    Completes (.queueEnqueue l q e) s fun t => t = s :=
  .of rfl (by simp [queueEnqueueEffect, hr])

/-! ## Dequeueing -/

/-- The consumer takes the oldest entry of queue q alone. -/
theorem queueDequeue_takes {s l e es} {q : Fin 128} (h : (nth (s.lane l).queues q).entries = e :: es) :
    Completes (.queueDequeue l q) s fun t =>
      (nth (t.lane l).queues q).entries = es ∧ (nth (t.lane l).queues q).credit = (nth (s.lane l).queues q).credit + 1 ∧
      ∀ p, p ≠ q.val → nth (t.lane l).queues p = nth (s.lane l).queues p := by
  obtain ⟨t, ht, hes, hc⟩ := queueDequeue_completes h
  obtain rfl : s.modLane l (LaneState.modQueue q HwQueue.dequeue) = t := Host.Outcome.next.inj ht
  refine .of rfl ⟨hes, hc, fun p hp => ?_⟩
  rw [State.lane_modLane]
  exact nth_upd_ne _ _ _ _ hp.symm

/-! ## Retirement -/

theorem findPos_lt {α : Type} {p : α → Bool} {xs : List α} {n} (h : findPos p xs = some n) : n < xs.length := by
  induction xs generalizing n with
  | nil => exact nomatch h
  | cons x xs ih =>
    unfold findPos at h
    split at h
    · cases h
      exact Nat.succ_pos _
    · obtain ⟨m, hm, rfl⟩ := Option.map_eq_some_iff.1 h
      exact Nat.succ_lt_succ (ih hm)

theorem roleServed_lt {x q r} (h : roleServed x q = some r) : r < x.roleMap.length :=
  lt_of_lt_of_le (findPos_lt h) (List.length_take_le' _ _)

theorem dropRole_lane {l q s} : (dropRole l q s).lane l = s.lane l := by
  unfold dropRole
  split
  · split
    · cases l <;> rfl
    · rfl
  · rfl

theorem queueRetireEffect_due {s l q p} (ha : atShare s = true) (hn : (nth (s.lane l).queues q).retired = false)
    (hf : 2 ≤ ((nth (s.lane l).queues q).fails.filter fun k => decide (s.clk.period < k + 1000)).length)
    (hp : spareQueue (s.lane l) = some p) : queueRetireEffect l q s = recheckSpares ((dropRole l q s).modLane l (queueRetireLane q)) := by
  simp [queueRetireEffect, ha, hn, hf, hp]

/-- A queue that failed its check twice within 1,000 periods retires at a share-cycle boundary in favour of the spare (R28, R29). -/
theorem queueRetire_completes {s l r p} {q : Fin 128} (h : Shape s) (ha : atShare s = true) (hn : (nth (s.lane l).queues q).retired = false)
    (hf : 2 ≤ ((nth (s.lane l).queues q).fails.filter fun k => decide (s.clk.period < k + 1000)).length)
    (hr : roleServed (s.lane l) q = some r) (hp : spareQueue (s.lane l) = some p) :
    Completes (.queueRetire l q) s fun t =>
      (nth (t.lane l).queues q).retired = true ∧ (nth (t.lane l).queues q).entries = [] ∧ (nth (t.lane l).queues q).credit = queueDepth q ∧
      (nth (t.lane l).queues q).discarded = (nth (s.lane l).queues q).discarded + BitVec.ofNat 32 (nth (s.lane l).queues q).entries.length +
        BitVec.ofNat 32 (if r = 98 then min 256 (s.lane l).evq.length else 0) ∧
      nth (t.lane l).roleMap r = p := by
  have hq : q.1 < (s.lane l).queues.length := by rw [(h.lane l).queues]; exact q.2
  refine .of rfl ?_
  rw [queueRetireEffect_due ha hn hf hp]
  simp only [recheckSpares_queues, recheckSpares_roleMap, State.lane_modLane, dropRole_lane, queueRetireLane, hr, hp]
  exact ⟨congrArg HwQueue.retired (LaneState.queue_modQueue hq), congrArg HwQueue.entries (LaneState.queue_modQueue hq),
    congrArg HwQueue.credit (LaneState.queue_modQueue hq), congrArg HwQueue.discarded (LaneState.queue_modQueue hq),
    nth_put_self _ _ _ (roleServed_lt hr)⟩

/-! ## The fast store -/

@[simp] theorem damageSet_fs {r row s} : (damageSet r row s).fs = s.fs :=
  (damageSet_only (l := .a)).1 .fs (by decide)

theorem modFs_fs {f s} : (modFs f s).fs = f s.fs := rfl

/-- A write by a port that may not write the region is refused with an event (R10). -/
theorem fastStoreWrite_refused {s l r row d} (h : mayWrite s l r = false) :
    Completes (.fastStoreWrite l r row d false) s fun t =>
      t.fs = { s.fs with result := 1 } ∧ (t.lane l).evq = (s.lane l).evq ++ [eventReq .fastStoreError 127 [regionNum r, row]] := by
  refine .of rfl ?_
  simp only [fastStoreWriteEffect, h, Bool.not_false, if_true]
  exact ⟨by cases l <;> rfl, by cases l <;> rfl⟩

/-- A write by the right port stores the row, in a redundant one where it fails (R10). -/
theorem fastStoreWrite_stored {s l r row d fails} (h : mayWrite s l r = true) (hf : fails = true → 0 < s.fs.rows) :
    Completes (.fastStoreWrite l r row d fails) s fun t =>
      t.fs = { s.fs with cells := Store.set s.fs.cells (regionNum r + 8 * row) d [], result := 0,
                         rows := if fails then s.fs.rows - 1 else s.fs.rows } := by
  have row_left : ¬ (fails = true ∧ s.fs.rows = 0) := fun ⟨f, z⟩ => absurd (hf f) (by omega)
  refine .of rfl ?_
  simp only [fastStoreWriteEffect, h, Bool.not_true, Bool.false_eq_true, if_false, if_neg row_left, recheckSpares_fs, modFs_fs]

/-- A row that fails with no redundant row left is not stored. -/
theorem fastStoreWrite_failed {s l r row d} (h : mayWrite s l r = true) (hz : s.fs.rows = 0) :
    Completes (.fastStoreWrite l r row d true) s fun t => t.fs = { s.fs with result := 2 } := by
  refine .of rfl ?_
  simp only [fastStoreWriteEffect, h, hz, Bool.not_true, Bool.false_eq_true, if_false, and_self, if_true, recheckSpares_fs, damageSet_fs,
    modFs_fs]

/-- Settles O4, clause by clause: enqueueing, dequeueing, retirement and the fast store. -/
theorem queuesAndFastStore : Obligations.QueuesAndFastStore :=
  ⟨fun _ _ _ _ => queueEnqueue_credit, fun _ _ _ _ => queueEnqueue_noCredit, fun _ _ _ _ => queueEnqueue_retired,
    fun _ _ _ _ _ => queueDequeue_takes, fun _ _ _ _ _ => queueRetire_completes, fun _ _ _ _ _ => fastStoreWrite_refused,
    fun _ _ _ _ _ _ => fastStoreWrite_stored, fun _ _ _ _ _ => fastStoreWrite_failed⟩

end Sys2Proof.Machine
end

section
/-! PROOF. Relief and testing of tiles (R29, R189-R191). -/

namespace Sys2Proof.Machine
set_option Elab.async false

/-! ## What a guard of the capture and a look at the spares leave -/

@[simp] theorem recheckSpares_tiles {s l} : ((recheckSpares s).lane l).tiles = (s.lane l).tiles :=
  recheckSpares_only.2.1 .tiles (by decide)

@[simp] theorem recheckSpares_wp {s l} : ((recheckSpares s).lane l).wp = (s.lane l).wp :=
  recheckSpares_only.2.1 .wp (by decide)

@[simp] theorem recheckSpares_health {s l} : ((recheckSpares s).lane l).health = (s.lane l).health :=
  recheckSpares_only.2.1 .health (by decide)

@[simp] theorem recheckSpares_ctl {s l} : ((recheckSpares s).lane l).ctl = (s.lane l).ctl :=
  recheckSpares_only.2.1 .ctl (by decide)

@[simp] theorem captureGuard_lane {s t l} : (captureGuard s t).lane l = t.lane l := by
  unfold captureGuard captureAbort
  split
  · dsimp only
    split_ifs <;> cases l <;> rfl
  · rfl

/-! ## One tile of a lane -/

theorem LaneState.tile_modTile {x : LaneState} {t f} (h : t < x.tiles.length) : nth (x.modTile t f).tiles t = f (nth x.tiles t) :=
  nth_upd_self _ _ _ h

theorem LaneState.tile_modTile_ne {x : LaneState} {t u f} (h : u ≠ t) : nth (x.modTile t f).tiles u = nth x.tiles u :=
  nth_upd_ne _ _ _ _ h.symm

@[simp] theorem LaneState.tiles_length_modTile {x : LaneState} {t f} : (x.modTile t f).tiles.length = x.tiles.length := upd_length _ _ _

@[simp] theorem LaneState.wp_modTile {x : LaneState} {t f} : (x.modTile t f).wp = x.wp := rfl

@[simp] theorem LaneState.ctl_modTile {x : LaneState} {t f} : (x.modTile t f).ctl = x.ctl := rfl

@[simp] theorem LaneState.tiles_modWp {x : LaneState} {f} : (x.modWp f).tiles = x.tiles := rfl

@[simp] theorem LaneState.wp_modWp {x : LaneState} {f} : (x.modWp f).wp = f x.wp := rfl

@[simp] theorem LaneState.ctl_modWp {x : LaneState} {f} : (x.modWp f).ctl = x.ctl := rfl

@[simp] theorem LaneState.health_modWp {x : LaneState} {f} : (x.modWp f).health = x.health := rfl

@[simp] theorem movePlaces_tiles {t u x} : (movePlaces t u x).tiles = x.tiles := movePlaces_only .tiles (by decide)

@[simp] theorem movePlaces_wp {t u x} : (movePlaces t u x).wp = x.wp := movePlaces_only .wp (by decide)

@[simp] theorem restartLoop_tiles {i x} : (restartLoop i x).tiles = x.tiles := restartLoop_only .tiles (by decide)

@[simp] theorem LaneState.tiles_modLoop {x : LaneState} {i f} : (x.modLoop i f).tiles = x.tiles := LaneState.modLoop_only .tiles (by decide)

theorem copyTile_tile {x : LaneState} {t u} (h : u < x.tiles.length) :
    (nth (copyTile t u x).tiles u).slots = (nth x.tiles t).slots ∧ (nth (copyTile t u x).tiles u).instrBanks = (nth x.tiles t).instrBanks := by
  unfold copyTile
  rw [LaneState.tile_modTile h]
  exact ⟨rfl, rfl⟩

@[simp] theorem copyTile_tiles_length {x t u} : (copyTile t u x).tiles.length = x.tiles.length := LaneState.tiles_length_modTile

/-- The spare tile is one of the lane's tiles. -/
theorem spareTileNo_lt {x u} (h : spareTileNo x = some u) : u < x.tiles.length := findPos_lt h

theorem findPos_holds {α : Type} [Inhabited α] {p : α → Bool} {xs : List α} {n} (h : findPos p xs = some n) : p (nth xs n) = true := by
  induction xs generalizing n with
  | nil => exact nomatch h
  | cons x xs ih =>
    unfold findPos at h
    split at h
    · cases h
      assumption
    · obtain ⟨m, hm, rfl⟩ := Option.map_eq_some_iff.1 h
      exact ih hm

theorem spareTileNo_role {x u} (h : spareTileNo x = some u) : (nth x.tiles u).role = .spare := beq_iff_eq.1 (findPos_holds h)

/-! ## What an operation leaves of every tile -/

/-- From lane x to lane y every tile keeps what g reads of it. -/
def TilesKeep {α : Type} (g : Tile → α) (x y : LaneState) : Prop := y.tiles.map g = x.tiles.map g

section
variable {α : Type} {g : Tile → α} {x y : LaneState}

theorem TilesKeep.same (h : y.tiles = x.tiles) : TilesKeep g x y := congrArg (List.map g) h

theorem TilesKeep.step {z} (h : TilesKeep g x y) (k : TilesKeep g y z) : TilesKeep g x z := Eq.trans k h

theorem TilesKeep.modTile {t f} (h : ∀ z, g (f z) = g z) : TilesKeep g x (x.modTile t f) := by
  refine List.ext_getElem (by simp) fun n _ _ => ?_
  simp only [LaneState.modTile, upd, List.getElem_map, List.getElem_modify]
  split
  · exact h _
  · rfl

theorem TilesKeep.foldl {β : Type} {k : LaneState → β → LaneState} {bs : List β} (hk : ∀ z b, TilesKeep g z (k z b)) :
    TilesKeep g x (bs.foldl k x) := by
  induction bs generalizing x with
  | nil => exact .same rfl
  | cons b bs ih => exact (hk x b).step ih

theorem TilesKeep.length (h : TilesKeep g x y) : y.tiles.length = x.tiles.length := by
  simpa using congrArg List.length h

theorem TilesKeep.tile (h : TilesKeep g x y) (t : Nat) : g (nth y.tiles t) = g (nth x.tiles t) := by
  have e : (y.tiles.map g)[t]? = (x.tiles.map g)[t]? := congrArg (·[t]?) h
  simp only [List.getElem?_map] at e
  simp only [nth, List.getD_eq_getElem?_getD]
  by_cases ht : t < x.tiles.length
  · simpa [List.getElem?_eq_getElem, ht, h.length] using e
  · simp [Nat.le_of_not_lt ht, h.length]
end

theorem TilesKeep.ite {α : Type} {g : Tile → α} {x y z : LaneState} {c : Prop} [Decidable c] (hy : TilesKeep g x y) (hz : TilesKeep g x z) :
    TilesKeep g x (if c then y else z) := by split <;> assumption

/-- Clearing the blocks in error touches neither the slots nor the instructions. -/
theorem clearBad_reels {t x} : TilesKeep (fun z => (z.slots, z.instrBanks)) x (clearBad t x) := by
  unfold clearBad
  refine .foldl fun z k => .ite ?_ (.same rfl)
  extract_lets y
  have cleared : TilesKeep (fun z => (z.slots, z.instrBanks)) z y := .modTile fun _ => rfl
  refine cleared.step ?_
  split
  · exact .ite (.same rfl) (.same restartLoop_tiles)
  · exact .same rfl

theorem setPlace_roles {i t k x} : TilesKeep Tile.role x (setPlace i t k x) := by
  unfold setPlace
  exact .step (.same LaneState.tiles_modLoop) (.modTile fun _ => rfl)

theorem placeLoop_roles {s i x} : TilesKeep Tile.role x (placeLoop s i x) := by
  unfold placeLoop
  split
  · split
    · exact setPlace_roles
    · exact .same rfl
  · exact .same LaneState.tiles_modLoop

/-- A loop that finds another place leaves the roles of the tiles. -/
theorem replaceLoop_roles {s i b x} : TilesKeep Tile.role x (replaceLoop s i b x) := by
  have placed : TilesKeep Tile.role x (placeLoop s i (x.modLoop i fun p => { p with place := none })) :=
    .step (.same LaneState.tiles_modLoop) placeLoop_roles
  unfold replaceLoop
  dsimp only
  split
  · exact placed
  · exact .step (.step placed (.ite (.same restartLoop_tiles) (.same rfl))) (.modTile fun _ => rfl)

/-! ## Relief of a faulty tile -/

/-- A tile without a fault is not relieved. -/
theorem tileRelief_noFault {s l} {t : Fin 10} (h : (nth (s.lane l).tiles t).fault = false) :
    Completes (.tileRelief l t) s fun u => (u.lane l).tiles = (s.lane l).tiles ∧ (u.lane l).wp = (s.lane l).wp :=
  .of rfl (by simp [tileReliefLane, h])

/-- The spare is loaded for a faulty tile, which runs no slot any more (R191). -/
theorem tileRelief_spare {s l k} {t : Fin 10} (h : Shape s) (hf : (nth (s.lane l).tiles t).fault = true)
    (hw : (s.lane l).wp.relieving = none) (hk : spareTileNo (s.lane l) = some k) (hne : k ≠ t.val) :
    Completes (.tileRelief l t) s fun u =>
      (u.lane l).wp.relieving = some t.val ∧ (nth (u.lane l).tiles t).relieved = true ∧ (nth (u.lane l).tiles t).running = none ∧
      (nth (u.lane l).tiles k).slots = (nth (s.lane l).tiles t).slots ∧
      (nth (u.lane l).tiles k).instrBanks = (nth (s.lane l).tiles t).instrBanks := by
  have reels := clearBad_reels (t := k) (x := copyTile t k (s.lane l))
  have ht : t.1 < (clearBad k (copyTile t k (s.lane l))).tiles.length := by
    rw [reels.length, copyTile_tiles_length, (h.lane l).tiles]
    exact t.2
  obtain ⟨hslots, hinstr⟩ := Prod.mk.inj (reels.tile k)
  obtain ⟨cslots, cinstr⟩ := copyTile_tile (t := t) (spareTileNo_lt hk)
  refine .of rfl ?_
  simp only [recheckSpares_wp, recheckSpares_tiles, captureGuard_lane, State.lane_modLane, tileReliefLane, hf, hw, hk, Bool.true_eq_false,
    Option.isSome_none, Bool.false_eq_true, or_self, if_false, LaneState.wp_modWp, LaneState.tiles_modWp, LaneState.tile_modTile ht,
    LaneState.tile_modTile_ne hne, true_and]
  exact ⟨hslots.trans cslots, hinstr.trans cinstr⟩

/-- Without a spare a fast tile's place goes under test (R191). -/
theorem tileRelief_noSpare {s l} {t : Fin 10} (h : Shape s) (hf : (nth (s.lane l).tiles t).fault = true)
    (hw : (s.lane l).wp.relieving = none) (hk : spareTileNo (s.lane l) = none) (hr : (nth (s.lane l).tiles t).role ≠ .slow) :
    Completes (.tileRelief l t) s fun u => (nth (u.lane l).tiles t).role = .underTest := by
  have ht : t.1 < (s.lane l).tiles.length := by rw [(h.lane l).tiles]; exact t.2
  have replaced : ∀ (out : List (LoopId × StateBlock)) x, TilesKeep Tile.role x (out.foldl (fun y p => replaceLoop s p.1 p.2 y) x) :=
    fun _ _ => .foldl fun _ _ => replaceLoop_roles
  refine .of rfl ?_
  simp only [recheckSpares_tiles, captureGuard_lane, State.lane_modLane, tileReliefLane, loseTile, hf, hw, hk, hr, Bool.true_eq_false,
    Option.isSome_none, Bool.false_eq_true, or_self, if_false, (replaced _ _).tile, LaneState.tile_modTile ht, toTest]

/-! ## Takeover by the spare -/

/-- The loaded spare takes the relieved tile's role, and that tile goes under test (R191). -/
theorem spareTileTakeover_completes {s l k} {t : Fin 10} (h : Shape s) (hw : (s.lane l).wp.relieving = some t.val)
    (hk : spareTileNo (s.lane l) = some k) (hne : k ≠ t.val) :
    Completes (.spareTileTakeover l) s fun u =>
      (nth (u.lane l).tiles k).role = (nth (s.lane l).tiles t).role ∧ (nth (u.lane l).tiles t).role = .underTest ∧
      (u.lane l).wp.relieving = none ∧ (u.lane l).wp.reliefs = (s.lane l).wp.reliefs + 1 := by
  have ht : t.1 < (s.lane l).tiles.length := by rw [(h.lane l).tiles]; exact t.2
  have hk' := spareTileNo_lt hk
  refine .of rfl ?_
  simp [spareTakeoverLane, hw, hk, LaneState.tile_modTile, LaneState.tile_modTile_ne, hne, ht, hk', toTest]

/-- Where no tile is being relieved nothing is taken over. -/
theorem spareTileTakeover_none {s l} (hw : (s.lane l).wp.relieving = none) :
    Completes (.spareTileTakeover l) s fun u => (u.lane l).tiles = (s.lane l).tiles ∧ (u.lane l).wp = (s.lane l).wp :=
  .of rfl (by simp [spareTakeoverLane, hw])

/-! ## Tests of tiles -/

/-- A scheduled test swaps a working tile with the spare (R190). -/
theorem rotatingTileTest_completes {s l k} {t : Fin 10} (h : Shape s) (hc : computing s l = true) (ha : atShare s = true)
    (hr : (nth (s.lane l).tiles t).role = .fast) (hf : (nth (s.lane l).tiles t).fault = false) (hw : (s.lane l).wp.relieving = none)
    (hk : spareTileNo (s.lane l) = some k) :
    Completes (.rotatingTileTest l t) s fun u =>
      (nth (u.lane l).tiles t).role = .underTest ∧ (nth (u.lane l).tiles k).role = .fast ∧
      (nth (u.lane l).tiles k).slots = (nth (s.lane l).tiles t).slots ∧ (u.lane l).health.testing = true ∧
      (u.lane l).ctl.testing = some t.val := by
  have ht : t.1 < (s.lane l).tiles.length := by rw [(h.lane l).tiles]; exact t.2
  have hk' := spareTileNo_lt hk
  have hne : k ≠ t.val := fun e => by simp [← e, spareTileNo_role hk] at hr
  have copied : (nth (copyTile t k (movePlaces t k (s.lane l))).tiles k).slots = (nth (s.lane l).tiles t).slots := by
    simpa using (copyTile_tile (t := t) (x := movePlaces t k (s.lane l)) (by simpa using hk')).1
  refine .of rfl ?_
  simp [hc, ha, rotatingTestLane, hr, hf, hw, hk, LaneState.tile_modTile, LaneState.tile_modTile_ne, hne, ht, hk', toTest, copied]

/-- Between share-cycle boundaries no test starts. -/
theorem rotatingTileTest_notDue {s l} {t : Fin 10} (ha : atShare s = false) : Completes (.rotatingTileTest l t) s fun u => u = s :=
  .of rfl (by simp [ha])

/-- A passed test makes the tile the spare, a failed one retires it (R189, R190). -/
theorem tileTestComplete_completes {s l pass} {t : Fin 10} (h : Shape s) (hr : (nth (s.lane l).tiles t).role = .underTest) :
    Completes (.tileTestComplete l t pass) s fun u =>
      (nth (u.lane l).tiles t).role = (if pass then .spare else .retired) ∧
      (nth (u.lane l).tiles t).corrected = (nth (s.lane l).tiles t).corrected ∧
      (u.lane l).ctl.testsPassed = (s.lane l).ctl.testsPassed + (if pass then 1 else 0) ∧
      (u.lane l).ctl.testsFailed = (s.lane l).ctl.testsFailed + (if pass then 0 else 1) ∧ (u.lane l).health.testing = false := by
  have ht : t.1 < (s.lane l).tiles.length := by rw [(h.lane l).tiles]; exact t.2
  refine .of rfl ?_
  cases pass <;> simp [tileTestLane, hr, LaneState.tile_modTile ht, LaneState.event]

/-- A tile that is not under test keeps its place. -/
theorem tileTestComplete_notUnderTest {s l pass} {t : Fin 10} (hr : (nth (s.lane l).tiles t).role ≠ .underTest) :
    Completes (.tileTestComplete l t pass) s fun u => (u.lane l).tiles = (s.lane l).tiles :=
  .of rfl (by simp [tileTestLane, hr])

/-- Settles O18, clause by clause: relief, takeover and tests. -/
theorem tileRelief : Obligations.TileRelief :=
  ⟨fun _ _ _ => tileRelief_noFault, fun _ _ _ _ => tileRelief_spare, fun _ _ _ => tileRelief_noSpare,
    fun _ _ _ _ => spareTileTakeover_completes, fun _ _ => spareTileTakeover_none, fun _ _ _ _ => rotatingTileTest_completes,
    fun _ _ _ => rotatingTileTest_notDue, fun _ _ _ _ => tileTestComplete_completes, fun _ _ _ _ => tileTestComplete_notUnderTest⟩

end Sys2Proof.Machine
end

section
/-! PROOF. The phases of a control period (R14, R15, R20, R24, R89, R95, R97, R273). -/

namespace Sys2Proof.Machine
set_option Elab.async false

/-! ## Objects and link types read from the sets alone -/

theorem cfgN_congr {s t : State} {i k} (h : t.sets = s.sets) : cfgN t i k = cfgN s i k := by
  unfold cfgN cfgBytes
  rw [h]

theorem linkType_congr {s t : State} {n} (h : t.sets = s.sets) : linkType t n = linkType s n := cfgN_congr h

theorem activeLane_congr {s t : State} (h : t.jct = s.jct) : activeLane t = activeLane s := by
  unfold activeLane roleOf
  rw [h]

/-! ## Cycle 0 -/

/-- From state s to state t the time of the device and what leaves on the links stay. -/
def TimeKept (s t : State) : Prop := t.clk.period = s.clk.period ∧ t.clk.ns = s.clk.ns ∧ t.clk.spurTx = s.clk.spurTx

theorem TimeKept.same {s t : State} (h : t.clk = s.clk) : TimeKept s t := by
  unfold TimeKept
  rw [h]
  exact ⟨rfl, rfl, rfl⟩

theorem TimeKept.step {s t u : State} (h : TimeKept s t) (k : TimeKept t u) : TimeKept s u :=
  ⟨k.1.trans h.1, k.2.1.trans h.2.1, k.2.2.trans h.2.2⟩

/-- An operation that does not touch the clock keeps the time. -/
theorem Only.timeKept {dev : List Part} {s t : State} {l own rest} (h : Only dev l own rest s t) (hc : Part.clk ∉ dev := by decide) :
    TimeKept s t := .same (h.1 .clk hc)

theorem endInjection_timeKept {st cause s} : TimeKept s (endInjection st cause s) := by
  unfold endInjection
  split
  · exact ⟨rfl, rfl, rfl⟩
  · exact ⟨rfl, rfl, rfl⟩

theorem injectionPeriod_timeKept {s} : TimeKept s (injectionPeriod s) := by
  unfold injectionPeriod
  split
  · split
    · exact endInjection_timeKept
    · exact ⟨rfl, rfl, rfl⟩
  · exact ⟨rfl, rfl, rfl⟩

theorem captureGuard_timeKept {s t} : TimeKept t (captureGuard s t) := by
  unfold captureGuard captureAbort
  split
  · dsimp only
    split_ifs <;> exact ⟨rfl, rfl, rfl⟩
  · exact ⟨rfl, rfl, rfl⟩

theorem bothLanes_timeKept {f s} : TimeKept s (bothLanes f s) := ⟨rfl, rfl, rfl⟩

/-- After the frames have left no operation of cycle 0 touches the time or what left. -/
theorem periodBoundary_timeKept {s} (hb : s.modes.mode ≠ .boot) (hk : s.modes.mode ≠ .backup) :
    TimeKept (sendFrames (tickPeriod s)) (captureGuard s (periodBoundaryEffect s)) := by
  unfold periodBoundaryEffect
  rw [if_neg (not_or.2 ⟨hb, hk⟩)]
  refine .step ?_ captureGuard_timeKept
  refine .step ?_ (publishLanes_only (l := .a)).timeKept
  refine .step ?_ injectionPeriod_timeKept
  refine .step ?_ (meterPeriod_only (l := .a)).timeKept
  refine .step ?_ (sessionsPeriod_only (l := .a)).timeKept
  refine .step ?_ (safeBoundary_only (l := .a)).timeKept
  refine .step ?_ (modeCompletion_only (l := .a)).timeKept
  refine .step ?_ (linkReactions_only (l := .a)).timeKept
  exact .step bothLanes_timeKept (tapHeld_only (l := .a)).timeKept

theorem tickPeriod_clk {s} : (tickPeriod s).clk = { s.clk with period := s.clk.period + 1, ns := s.clk.ns + periodNs s } := by
  have run : ∀ b t, (runTime b t).clk = t.clk := fun _ _ => (runTime_only (l := .a)).1 .clk (by decide)
  unfold tickPeriod
  rw [run]
  rfl

/-- Cycle 0 advances the period by one, and one period passes (R14). -/
theorem periodBoundary_time {s} (hb : s.modes.mode ≠ .boot) (hk : s.modes.mode ≠ .backup) :
    Completes .periodBoundary s fun t => t.clk.period = s.clk.period + 1 ∧ t.clk.ns = s.clk.ns + (if s.clk.long then 50000 else 25000) := by
  obtain ⟨hperiod, hns, -⟩ := periodBoundary_timeKept hb hk
  have sent : ∀ t, (sendFrames t).clk.period = t.clk.period ∧ (sendFrames t).clk.ns = t.clk.ns := fun _ => ⟨rfl, rfl⟩
  refine .of rfl ⟨?_, ?_⟩
  · rw [hperiod, (sent _).1, tickPeriod_clk]
  · rw [hns, (sent _).2, tickPeriod_clk]
    rfl

theorem captureGuard_self {s} : captureGuard s s = s := by
  unfold captureGuard
  split
  · rename_i i _
    cases h : (s.act.loop i).st <;> simp [h]
  · rfl

/-- In BOOT and BACKUP there are no periods. -/
theorem periodBoundary_still {s} (h : s.modes.mode = .boot ∨ s.modes.mode = .backup) : exec .periodBoundary s = .next s := by
  have run : periodBoundaryEffect s = s := if_pos h
  show Host.Outcome.next (captureGuard s (periodBoundaryEffect s)) = _
  rw [run, captureGuard_self]

/-! ## The frames of cycle 0 -/

theorem steeredLane_mode {s} {l : Lane} (h : steeredLane s = some l) : s.modes.mode ≠ .boot ∧ s.modes.mode ≠ .backup := by
  unfold steeredLane at h
  split at h
  · exact nomatch h
  · rename_i hn
    exact ⟨fun b => hn (.inl b), fun b => hn (.inr (.inl b))⟩

theorem steeredLane_congr {s t : State} (hm : t.modes = s.modes) (hj : t.jct = s.jct) : steeredLane t = steeredLane s := by
  unfold steeredLane
  rw [hm, hj]

theorem tickPeriod_steeredLane {s} : steeredLane (tickPeriod s) = steeredLane s :=
  steeredLane_congr ((tickPeriod_only (l := .a)).1 .modes (by decide)) ((tickPeriod_only (l := .a)).1 .jct (by decide))

/-- A down-frame carries the number of its period, and does not depend on the time of it. -/
theorem downFrame_tickPeriod {s n k o} :
    downFrame (tickPeriod s) n k o = downFrame { s with clk := { s.clk with period := s.clk.period + 1 } } n k o := by
  have sets : (tickPeriod s).sets = s.sets := (tickPeriod_only (l := .a)).1 .sets (by decide)
  have free : (tickPeriod s).free = s.free := (tickPeriod_only (l := .a)).1 .free (by decide)
  simp only [downFrame, downBody, downDelays, sdelay, adelay, periodNs, downWords, linkCount, linkType, cfgN, cfgBytes, tickPeriod_clk,
    sets, free]

theorem periodBoundary_sends {s n} (hn : n < 64) (hb : s.modes.mode ≠ .boot) (hk : s.modes.mode ≠ .backup) :
    Completes .periodBoundary s fun t => nth t.clk.spurTx n = sentOn (tickPeriod s) n := by
  obtain ⟨-, -, hsent⟩ := periodBoundary_timeKept hb hk
  refine .of rfl ?_
  rw [hsent]
  show nth ((List.range 64).map (sentOn (tickPeriod s))) n = _
  simp [nth, hn]

/-- The steered lane's latched words leave as the down-frame of the new period (R24, R95). -/
theorem periodBoundary_frames {s} {l : Lane} {n} (hn : n < 64) (h : steeredLane s = some l) :
    Completes .periodBoundary s fun t => nth t.clk.spurTx n =
      if linkType s n = 0 ∨ ((s.lane l).link n).st = .down then []
      else downFrame { s with clk := { s.clk with period := s.clk.period + 1 } } n ((s.lane l).link n) (nth (s.lane l).latched n) := by
  have lane := (tickPeriod_only (s := s) (l := l)).lane
  have links : ((tickPeriod s).lane l).link n = (s.lane l).link n := LaneState.link_congr (lane .links (by decide)) n
  have latched : ((tickPeriod s).lane l).latched = (s.lane l).latched := lane .latched (by decide)
  have types : linkType (tickPeriod s) n = linkType s n := linkType_congr ((tickPeriod_only (l := .a)).1 .sets (by decide))
  obtain ⟨t, ht, hsent⟩ := periodBoundary_sends hn (steeredLane_mode h).1 (steeredLane_mode h).2
  refine ⟨t, ht, hsent.trans ?_⟩
  simp only [sentOn, tickPeriod_steeredLane, h, links, latched, types, downFrame_tickPeriod]

/-- Idle pairs leave where no lane is steered (R24). -/
theorem periodBoundary_idlePairs {s n} (hn : n < 64) (hb : s.modes.mode ≠ .boot) (hk : s.modes.mode ≠ .backup) (h : steeredLane s = none) :
    Completes .periodBoundary s fun t => nth t.clk.spurTx n = [] := by
  obtain ⟨t, ht, hsent⟩ := periodBoundary_sends hn hb hk
  exact ⟨t, ht, hsent.trans (by simp only [sentOn, tickPeriod_steeredLane, h])⟩

/-! ## The receive window -/

theorem slotOf_congr {s t : State} {x y : LaneState} {n} (hs : t.clk.period = s.clk.period) (h0 : y.bank0 = x.bank0)
    (h1 : y.bank1 = x.bank1) : slotOf t y n = slotOf s x n := by
  unfold slotOf curBank
  rw [hs, h0, h1]

theorem curBank_modCurBank {s f x} : curBank s (modCurBank s f x) = f (curBank s x) := by
  unfold curBank modCurBank
  split <;> rfl

theorem LaneShape.curBank_length {s x} (h : LaneShape x) : (curBank s x).length = 64 := by
  unfold curBank
  split
  · exact h.bank0
  · exact h.bank1

/-- A frame that takes an empty slot enters it with the status of its first failing check, and no other slot changes (R97). -/
theorem storeFrame_slots {s n f x} (h : LaneShape x) (hn : n < 64) (he : (slotOf s x n).filled = false) :
    slotOf s (storeFrame s n f x) n = slotFrom (frameStatus s n (x.link n).expSeq f) f ∧
      ∀ m, m ≠ n → slotOf s (storeFrame s n f x) m = slotOf s x m := by
  have bank : curBank s (storeFrame s n f x) = put (curBank s x) n (slotFrom (frameStatus s n (x.link n).expSeq f) f) := by
    unfold storeFrame
    rw [he]
    exact curBank_modCurBank
  unfold slotOf
  rw [bank]
  exact ⟨nth_put_self _ _ _ (by rw [h.curBank_length]; exact hn), fun m hm => nth_upd_ne _ _ _ _ hm.symm⟩

/-- The tap and the fall of a lock leave the frame store. -/
theorem upFrameEffect_slots {s l n f m} : slotOf s ((upFrameEffect l n f s).lane l) m = slotOf s (receiveLane s n f (s.lane l)) m := by
  unfold upFrameEffect
  dsimp only
  split
  · have tapped := (tapSend_only (l := l) (a0 := n) (s := s.modLane l (receiveLane s n f))).lane
    have fell := (lockFell_only (l := l) (a0 := n) (s := tapSend l n (s.modLane l (receiveLane s n f)))).lane
    rw [slotOf_congr rfl ((fell .bank0 (by decide)).trans (tapped .bank0 (by decide)))
      ((fell .bank1 (by decide)).trans (tapped .bank1 (by decide))), State.lane_modLane]
  · rw [State.lane_modLane]

theorem upFrameReceived_completes {s l f} {n : Fin 64} (h : Shape s) (ht : linkType s n ≠ 0) (hs : ((s.lane l).link n).synced = true)
    (hu : ((s.lane l).link n).st = .up) (hc : f.eofCycle ≤ 900) (hg : ((s.lane l).link n).got = false)
    (he : (slotOf s (s.lane l) n).filled = false) :
    Completes (.upFrameReceived l n f) s fun t =>
      slotOf s (t.lane l) n = slotFrom (frameStatus s n ((s.lane l).link n).expSeq f) f ∧
      ∀ m, m ≠ n.val → slotOf s (t.lane l) m = slotOf s (s.lane l) m := by
  have received : receiveLane s n f (s.lane l) = storeFrame s n f ((s.lane l).modLink n (noteFrame .now)) := by
    simp [receiveLane, ht, hs, hu, rxWindow, hc, isExtra, hg]
  have noted : ((s.lane l).modLink n (noteFrame .now)).link n = noteFrame .now ((s.lane l).link n) :=
    LaneState.link_modLink_self (by rw [(h.lane l).links]; exact n.2)
  have shape : LaneShape ((s.lane l).modLink n (noteFrame .now)) := { h.lane l with links := by simp [(h.lane l).links] }
  obtain ⟨hself, hother⟩ := storeFrame_slots (f := f) shape n.2 he
  rw [noted] at hself
  refine .of rfl ⟨?_, fun m hm => ?_⟩
  · rw [upFrameEffect_slots, received]
    exact hself
  · rw [upFrameEffect_slots, received]
    exact hother m hm

/-- A frame of an untyped or unsynchronised link changes nothing. -/
theorem upFrameReceived_ignored {s l f} {n : Fin 64} (h : linkType s n = 0 ∨ ((s.lane l).link n).synced = false) :
    Completes (.upFrameReceived l n f) s fun t => t = s := by
  have ignored : s.modLane l (receiveLane s n f) = s := by
    unfold State.modLane receiveLane
    rw [if_pos h]
    cases l <;> rfl
  refine .of rfl ?_
  simp [upFrameEffect, ignored]

/-! ## Cycle 900 -/

@[simp] theorem countStatus_lastStatus {st k} : (countStatus st k).lastStatus = k.lastStatus := by
  unfold countStatus
  split <;> rfl

theorem linkClose_lastStatus {s n f k} : (linkClose s n f k).lastStatus = f.status := by
  simp only [linkClose, apply_ite Link.lastStatus, countStatus_lastStatus, ite_self]

theorem closedSlot_status {k f} : (closedSlot k f).status = if k.st = .up then f.status else 1 := by
  unfold closedSlot
  split <;> rfl

theorem modCurBank_links {s f x} : (modCurBank s f x).links = x.links := modCurBank_only .links (by decide)

theorem closeLane_lastStatus {s x n} (h : LaneShape x) (hn : n < 64) (ht : linkType s n ≠ 0) :
    ((closeLane s x).link n).lastStatus = if (x.link n).st = .up then (slotOf s x n).status else 1 := by
  have slot : slotOf s (modCurBank s (fun b => b.mapIdx fun n f => closedSlot (x.link n) f) x) n = closedSlot (x.link n) (slotOf s x n) := by
    unfold slotOf
    rw [curBank_modCurBank, nth_mapIdx _ _ _ (by rw [h.curBank_length]; exact hn)]
  have closed : (closeLane s x).link n = linkClose s n (closedSlot (x.link n) (slotOf s x n)) (x.link n) := by
    rw [← slot]
    unfold closeLane LaneState.link
    dsimp only
    rw [modCurBank_links, nth_mapIdx _ _ _ (by rw [h.links]; exact hn), if_neg ht]
  rw [closed, linkClose_lastStatus, closedSlot_status]

theorem frameBankClose_links {s l} : ((frameBankCloseEffect l s).lane l).links = (closeLane s (s.lane l)).links := by
  unfold frameBankCloseEffect
  dsimp only
  split
  · rw [(tapsMissing_only (l := l)).lane .links (by decide), State.lane_modLane]
  · split
    · rw [State.lane_modLane, State.lane_modLane]
    · rw [State.lane_modLane]

/-- The close of the window records each typed link's status, MISSING for one that is not UP (R97). -/
theorem frameBankClose_completes {s l} (h : Shape s) :
    Completes (.frameBankClose l) s fun t => ∀ n < 64, linkType s n ≠ 0 →
      ((t.lane l).link n).lastStatus = if ((s.lane l).link n).st = .up then (slotOf s (s.lane l) n).status else 1 := by
  refine .of rfl fun n hn ht => ?_
  rw [LaneState.link_congr frameBankClose_links, closeLane_lastStatus (h.lane l) hn ht]

/-! ## Cycle 950 -/

theorem thermalTake_headMeas {s x i w} : headMeas s (thermalTake s x) i w = headMeas s x i w := by
  unfold headMeas linkMeas
  simp only [slotOf_congr rfl (thermalTake_only .bank0 (by decide)) (thermalTake_only .bank1 (by decide))]

/-- Cycle 950 adds a bay's VALID voltage and current, and their product, to its sums (R15). -/
theorem accumulatorTake_completes {s l i v c} (h : Shape s) (hi : i < 24) (hv : headMeas s (s.lane l) i 1 = some v)
    (hc : headMeas s (s.lane l) i 2 = some c) :
    Completes (.accumulatorTake l) s fun t =>
      let a := nth (s.lane l).share.bayAcc i
      let b := nth (t.lane l).share.bayAcc i
      b.sumV = a.sumV + v ∧ b.sumI = a.sumI + c ∧ b.sumP = a.sumP + v * c ∧ b.n = a.n + 1 := by
  have taken : nth (shareTake s (thermalTake s (s.lane l))).share.bayAcc i = (nth (s.lane l).share.bayAcc i).take (some v) (some c) := by
    rw [← hv, ← hc, ← thermalTake_headMeas (w := 1), ← thermalTake_headMeas (w := 2)]
    exact nth_mapIdx _ _ _ ((h.lane l).bayAcc.symm ▸ hi :)
  refine .of rfl ?_
  dsimp only
  rw [State.lane_modLane, taken]
  exact ⟨rfl, rfl, rfl, rfl⟩

/-! ## Cycle 12,200 -/

theorem downHeader_congr {s t : State} {n k} (hs : t.sets = s.sets) (hj : t.jct = s.jct) (hc : t.clk = s.clk) (hm : t.modes = s.modes) :
    downHeader t n k = downHeader s n k := by
  unfold downHeader
  rw [linkType_congr hs, activeLane_congr hj, hc, hm]

/-- A typed link's header, and zeros for an untyped link, stand in the latched table. -/
theorem latchTable_link {s x n} (hn : n < x.out.length) :
    if linkType s n = 0 then nth (latchTable s x) n = { words := List.replicate 9 0, hdr := 0 }
    else (nth (latchTable s x) n).hdr = downHeader s n (x.link n) := by
  have length : (applyZeros s x (applyOverrides x x.out)).length = x.out.length := by rw [applyZeros_length, applyOverrides_length]
  unfold latchTable
  dsimp only
  rw [nth_mapIdx _ _ _ (by rw [length]; exact hn)]
  split
  · rfl
  · rfl

theorem commitPort_out {c v x} : (commitPort c v x).out.length = x.out.length := by
  unfold commitPort
  split
  · exact upd_length _ _ _
  · rfl
  · rfl

theorem foldl_out {α : Type} {g : LaneState → α → LaneState} (hg : ∀ x a, (g x a).out.length = x.out.length) (as : List α)
    (x : LaneState) : (as.foldl g x).out.length = x.out.length := by
  induction as generalizing x with
  | nil => rfl
  | cons a as ih => rw [List.foldl_cons, ih, hg]

theorem commitPorts_out {codes outs x} : (commitPorts codes outs x).out.length = x.out.length := by
  refine foldl_out (fun y k => ?_) _ _
  split
  · exact commitPort_out
  · rfl

@[simp] theorem LaneState.out_modLoop {x : LaneState} {i f} : (x.modLoop i f).out = x.out := LaneState.modLoop_only .out (by decide)

theorem startReaction_out {s i x} : (startReaction s i x).out.length = x.out.length := by
  unfold startReaction
  split
  · split
    · exact congrArg List.length LaneState.out_modLoop
    · rfl
  · exact congrArg List.length (retireByLoop_only .out (by decide))
  · split
    · exact congrArg List.length LaneState.out_modLoop
    · rfl
  · split
    · exact commitPorts_out
    · rfl

theorem enterFault_out {s i cause x} : (enterFault s i cause x).out.length = x.out.length := by
  unfold enterFault
  dsimp only
  split
  · rfl
  · exact startReaction_out.trans (congrArg List.length LaneState.out_modLoop)

theorem evalLane_out {s i x} : (evalLane s i x).out.length = x.out.length := by
  have evaluated : ∀ {b : Prop} [Decidable b] {e f},
      (if b then (x.modLoop i f).event e else x.modLoop i f).out.length = x.out.length := by
    intros
    split <;> exact congrArg List.length LaneState.out_modLoop
  unfold evalLane
  dsimp only
  split
  · exact enterFault_out.trans evaluated
  · exact evaluated

/-- The evaluation of the loops keeps the length of the output table. -/
theorem evaluateLoops_out {s x} : (evaluateLoops s x).out.length = x.out.length := by
  unfold evaluateLoops
  rw [tilePlausibility_only .out (by decide)]
  dsimp only
  rw [foldl_out fun _ _ => evalLane_out]

/-- The lane whose words are latched at cycle 12,200. -/
def evaluatedLane (s : State) (x : LaneState) : LaneState := safeStrings s (evaluateLoops s (moveTick s x))

theorem evaluatedLane_out {s x} : (evaluatedLane s x).out.length = x.out.length := by
  unfold evaluatedLane
  rw [safeStrings_only .out (by decide), evaluateLoops_out, moveTick_only .out (by decide)]

theorem evaluatedLane_link {s x n} : (evaluatedLane s x).link n = x.link n :=
  LaneState.link_congr (safeStrings_only .links (by decide) |>.trans (evaluateLoops_only .links (by decide))
    |>.trans (moveTick_only .links (by decide))) n

theorem latchLane_latched {s x} : (latchLane s x).latched = latchTable s (evaluatedLane s x) := by
  unfold latchLane
  dsimp only
  rw [creditCheck_only .latched (by decide), stepOverrides_only .latched (by decide)]
  rfl

/-- The latch reads a state that differs from s in the vehicle sessions alone, whose contactors SAFE opens. -/
theorem outputLatchEffect_latched {s l} (hc : computing s l = true) : ∃ u : State, Only [.veh] l [] [] s u ∧
    ((outputLatchEffect l s).lane l).latched = latchTable u (evaluatedLane u (u.lane l)) := by
  refine ⟨if activeLane s = some l then safeBays s else s, .ite safeBays_only .refl, ?_⟩
  have checked : ∀ t, ((recheckSpares t).lane l).latched = (t.lane l).latched := fun _ => recheckSpares_only.lane .latched (by decide)
  have composed : ∀ t, ((capturePeriod (composeAll t)).lane l).latched = (t.lane l).latched := fun _ =>
    (capturePeriod_only.lane .latched (by decide)).trans (composeAll_only.lane .latched (by decide))
  have answered : ∀ t, ((if activeLane t = some l then capturePeriod (composeAll t) else t).lane l).latched = (t.lane l).latched := by
    intro t
    split
    · exact composed t
    · rfl
  simp only [outputLatchEffect, hc, Bool.not_true, Bool.false_eq_true, if_false, answered, checked, State.lane_modLane, latchLane_latched]

/-- Cycle 12,200 latches every typed link's header, and zeros for untyped links (R95). -/
theorem outputLatch_completes {s l} (h : Shape s) (hc : computing s l = true) :
    Completes (.outputLatch l) s fun t => ∀ n < 64,
      if linkType s n = 0 then nth (t.lane l).latched n = { words := List.replicate 9 0, hdr := 0 }
      else (nth (t.lane l).latched n).hdr = downHeader s n ((s.lane l).link n) := by
  obtain ⟨u, hu, latched⟩ := outputLatchEffect_latched hc
  refine .of rfl fun n hn => ?_
  have out : n < (evaluatedLane u (u.lane l)).out.length := by
    rw [evaluatedLane_out, hu.lane .out (by decide), (h.lane l).out]
    exact hn
  have link : (evaluatedLane u (u.lane l)).link n = (s.lane l).link n :=
    evaluatedLane_link.trans (LaneState.link_congr (hu.lane .links (by decide)) n)
  have header : ∀ k, downHeader u n k = downHeader s n k := fun _ =>
    downHeader_congr (hu.1 .sets (by decide)) (hu.1 .jct (by decide)) (hu.1 .clk (by decide)) (hu.1 .modes (by decide))
  have types : linkType u n = linkType s n := linkType_congr (hu.1 .sets (by decide))
  have table := latchTable_link (s := u) out
  rw [types, link, header] at table
  rw [latched]
  exact table

/-! ## Cycle 12,300 and the alignment marker -/

/-- A computing lane sends its digest entry to the Junction (R273). -/
theorem digestEntrySend_completes {s l canary} (hd : sendsDigest s l = true) (hc : computing s l = true) (hj : s.jct.lost = false) :
    Completes (.digestEntrySend l canary) s fun t =>
      (t.jct.lane l).entry = some { digest := crc64 (digestBytes s (s.lane l)), health := BitVec.ofNat 32 (healthWord s l),
                                    canary := canary, period := BitVec.ofNat 16 s.clk.period } := by
  refine .of rfl ?_
  cases l <;> simp [digestEntryEffect, hd, hc, hj, State.setLane, Junction.modLane, Junction.lane]

/-- The marker counts the other lane's periods in and out of alignment (R20). -/
theorem alignmentMarker_completes {s l d} (h : activeLane s = some l) :
    Completes (.alignmentMarkerReceived d) s fun t =>
      let c := (s.lane l.other).ctl
      let e := (t.lane l.other).ctl
      if -2 ≤ d ∧ d ≤ 2 then e.misRun = 0 ∧ e.alignedRun = min 200 (c.alignedRun + 1) ∧ (t.lane l.other).health.unaligned = false
      else e.misRun = c.misRun + 1 ∧ e.alignedRun = 0 ∧ (t.lane l.other).health.unaligned = decide (1 ≤ c.misRun) := by
  have aligned : ∃ named, (alignmentEffect d s).lane l.other = alignLane d named (s.lane l.other) := by
    refine ⟨((s.lane l).grid.recs.head?).map (·.seq), ?_⟩
    simp only [alignmentEffect, h, State.lane_modLane, State.lane_modLane_other]
  obtain ⟨named, lane⟩ := aligned
  refine .of rfl ?_
  dsimp only
  rw [lane]
  by_cases ok : -2 ≤ d ∧ d ≤ 2
  · simp [alignLane, ok]
  · simp [alignLane, ok]

/-- Settles O1, clause by clause: cycle 0, the receive window, cycles 900, 950, 12,200 and 12,300, and the alignment marker. -/
theorem periodPhases : Obligations.PeriodPhases :=
  ⟨fun _ => periodBoundary_time, fun _ => periodBoundary_still, fun _ _ _ => periodBoundary_frames, fun _ _ => periodBoundary_idlePairs,
    fun _ _ _ _ => upFrameReceived_completes, fun _ _ _ _ => upFrameReceived_ignored, fun _ _ => frameBankClose_completes,
    fun _ _ _ _ _ => accumulatorTake_completes, fun _ _ => outputLatch_completes, fun _ _ _ => digestEntrySend_completes,
    fun _ _ _ => alignmentMarker_completes⟩

end Sys2Proof.Machine
end

section
/-! PROOF. What a reset, the entry into SAFE and a host write that is permitted leave and write (R44, R55, R58-R61, R69, R76). -/

namespace Sys2Proof.Machine
set_option Elab.async false

/-! ## The named updates of the supplies -/

@[simp] theorem modRails_rails {f s} : (modRails f s).rails = f s.rails := rfl
@[simp] theorem modRails_jct {f s} : (modRails f s).jct = s.jct := rfl
@[simp] theorem modRails_modes {f s} : (modRails f s).modes = s.modes := rfl
@[simp] theorem modBk_bk {f s} : (modBk f s).bk = f s.bk := rfl
@[simp] theorem modBk_rails {f s} : (modBk f s).rails = s.rails := rfl
@[simp] theorem modJct_jct {f s} : (modJct f s).jct = f s.jct := rfl
@[simp] theorem modJct_rails {f s} : (modJct f s).rails = s.rails := rfl
@[simp] theorem modJct_modes {f s} : (modJct f s).modes = s.modes := rfl

/-! ## Resets -/

theorem latchCause_bk {n s} : (latchCause n s).bk =
    { s.bk with resetLatches := s.bk.resetLatches ||| BitVec.ofNat 16 (2 ^ n), lastReset := BitVec.ofNat 8 n } := rfl

/-- A latched cause leaves the RTC and the number of resets. -/
theorem safeExit_counts {s} : (safeExit s).bk.rtc = s.bk.rtc ∧ (safeExit s).bk.resetCount = s.bk.resetCount := by
  unfold safeExit
  split
  · exact ⟨rfl, rfl⟩
  · exact ⟨rfl, rfl⟩

theorem plainReset_bk {c s} : (plainReset c s).bk =
    { (latchCause c s).bk with resetCount := s.bk.resetCount + 1, lastResetTime := s.bk.rtc } := by
  have same : (abortSequence s).bk = s.bk := (abortSequence_only (l := .a)).1 .bk (by decide)
  show { (latchCause c (abortSequence s)).bk with
      resetCount := (abortSequence s).bk.resetCount + 1, lastResetTime := (abortSequence s).bk.rtc } = _
  rw [latchCause_bk, latchCause_bk, same]

theorem plainReset_rails {c s} : (plainReset c s).rails = { s.rails with inReset := true, short := 0 } := by
  have same : (abortSequence s).rails = s.rails := (abortSequence_only (l := .a)).1 .rails (by decide)
  show { (abortSequence s).rails with inReset := true, short := 0 } = _
  rw [same]

/-- A reset out of any mode starts BOOT held in reset, latches its cause last, counts itself at the present time of the RTC, and does not
reach the metrology section (R44, R69). -/
theorem plainReset_safeExit {c s} : (plainReset c (safeExit s)).modes.mode = .boot ∧ (plainReset c (safeExit s)).rails.inReset = true ∧
    (plainReset c (safeExit s)).bk.lastReset = BitVec.ofNat 8 c ∧ (plainReset c (safeExit s)).bk.resetCount = s.bk.resetCount + 1 ∧
    (plainReset c (safeExit s)).bk.lastResetTime = s.bk.rtc ∧ (plainReset c (safeExit s)).bk.rtc = s.bk.rtc ∧
    (plainReset c (safeExit s)).met = s.met := by
  obtain ⟨rtc, count⟩ := safeExit_counts (s := s)
  have met : (plainReset c (safeExit s)).met = s.met :=
    ((plainReset_only (l := .a)).1 .met (by decide)).trans ((safeExit_only (l := .a)).1 .met (by decide))
  rw [plainReset_bk, plainReset_rails, latchCause_bk, rtc, count]
  exact ⟨rfl, rfl, rfl, rfl, rfl, rfl, met⟩

/-! ## The entry into SAFE -/

/-- A mode that is entered changes the mode, what is pending and the time of entry alone. -/
theorem enterMode_modes {m s} : (enterMode m s).modes = { s.modes with mode := m, pending := none, entered := siteTime s } := by
  have sent : ∀ t, (emcySend t).modes = t.modes := fun _ => (emcySend_only (l := .a)).1 .modes (by decide)
  unfold enterMode
  dsimp only
  split
  · rw [sent, evt_modes]
  · rw [evt_modes]

theorem enterMode_jct {m s} : (enterMode m s).jct = s.jct := (enterMode_only (l := .a)).1 .jct (by decide)

/-- Where SAFE may be taken, it is entered with its cause, whatever drives SAFE_N. -/
theorem takeSafe_entered {c s} (hb : s.modes.mode ≠ .boot) (hk : s.modes.mode ≠ .backup) (hs : s.modes.mode ≠ .safe) :
    (takeSafe c s).modes.mode = .safe ∧ (takeSafe c s).modes.safeCause = c ∧ (takeSafe c s).modes.dieStop = s.modes.dieStop := by
  simp [takeSafe, hb, hk, hs, apply_ite State.modes, enterMode_modes]

/-- In BOOT, BACKUP and SAFE the mode unit stands. -/
theorem takeSafe_stands {c s} (h : s.modes.mode = .boot ∨ s.modes.mode = .backup ∨ s.modes.mode = .safe) :
    (takeSafe c s).modes = s.modes := by
  unfold takeSafe
  rcases h with h | h | h <;> simp [h, apply_ite State.modes]

theorem takeSafe_dieStop {c s} : (takeSafe c s).modes.dieStop = s.modes.dieStop := by
  by_cases h : s.modes.mode = .boot ∨ s.modes.mode = .backup ∨ s.modes.mode = .safe
  · rw [takeSafe_stands h]
  · simp only [not_or] at h
    exact (takeSafe_entered h.1 h.2.1 h.2.2).2.2

/-- SAFE is never taken to BACKUP. -/
theorem takeSafe_notBackup {c s} (h : s.modes.mode ≠ .backup) : (takeSafe c s).modes.mode ≠ .backup := by
  by_cases k : s.modes.mode = .boot ∨ s.modes.mode = .backup ∨ s.modes.mode = .safe
  · rwa [takeSafe_stands k]
  · simp only [not_or] at k
    rw [(takeSafe_entered k.1 k.2.1 k.2.2).1]
    decide

/-- Cause 3 ramps down: the Junction is left as it was. -/
theorem takeSafe_jct {s} : (takeSafe 3 s).jct = s.jct := by
  simp [takeSafe, apply_ite State.jct, enterMode_jct]

/-! ## Host writes -/

/-- A host write that is permitted is acknowledged and has its effect (R76). -/
theorem hostWrite_permitted {ok f s} (ha : (activeLane s).isSome = true) (hok : ok = true) : hostWrite ok f s = f (respond 0 [] s) := by
  rw [Option.isSome_iff_ne_none] at ha
  simp [hostWrite, ha, hok]

theorem safeWritable_of {s : State} (hb : s.modes.mode ≠ .boot) (hk : s.modes.mode ≠ .backup) : safeWritable s = true := by
  simp [safeWritable, hb, hk]

end Sys2Proof.Machine
end

section
/-! PROOF. Rail faults, recoveries and lost crystals (R43, R44, R48, R53, R57, R69, Tables 2.8 and 2.10). -/

namespace Sys2Proof.Machine
set_option Elab.async false

/-! ## The rails out of range -/

/-- Rail r stands among the rails out of range. -/
def Rails.lose (r : Rail) (k : Rails) : Rails := { k with out := if k.out.contains r then k.out else k.out ++ [r] }

@[simp] theorem Rails.mem_lose {r q : Rail} {k : Rails} : q ∈ (k.lose r).out ↔ q = r ∨ q ∈ k.out := by
  unfold Rails.lose
  by_cases h : r ∈ k.out
  · simp only [List.contains_iff_mem, h, if_true]
    exact ⟨.inr, fun | .inl e => e ▸ h | .inr m => m⟩
  · simp [h, or_comm]

/-! ## A lane held, the ring held, the Junction lost (Table 2.10) -/

/-- A lane is held in reset by its rail. -/
theorem holdLane_lane {l s} : ((holdLane l s).lane l).ctl.railHeld = true ∧ ((holdLane l s).lane l).ctl.bootStep = 0 ∧
    ((holdLane l s).lane l).bayLoops = LaneState.reset.bayLoops := by
  unfold holdLane resetLane
  rw [State.lane_modLane, State.lane_modLane]
  exact ⟨rfl, rfl, rfl⟩

@[simp] theorem setRole_lane {l r s m} : (setRole l r s).lane m = s.lane m := by cases m <;> rfl

theorem resetLanes_bootStep {s l} : ((resetLane .b (resetLane .a s)).lane l).ctl.bootStep = 0 := by cases l <;> rfl

theorem ringFault_lane {s l} : ((ringFault s).lane l).ctl.bootStep = 0 := by
  unfold ringFault
  rw [setRole_lane, setRole_lane, resetLanes_bootStep]

/-- A rail of the ring drives SAFE_N low outside BACKUP, takes the multiplexer off and holds the ring (R43). -/
theorem ringFault_holds {s} (h : s.modes.mode ≠ .backup) :
    (ringFault s).jct.safeN = .low ∧ (ringFault s).jct.mux = none ∧ (ringFault s).rails.ringHeld = true := by
  simp [ringFault, takeSafe_notBackup h, idleLinks, setRole, resetLane]

theorem ringFault_modes {s} : (ringFault s).modes = (takeSafe 6 s).modes := by
  simp [ringFault, idleLinks, setRole, resetLane]

theorem ringFault_out {s} : (ringFault s).rails.out = s.rails.out := by
  have same : ∀ c, (takeSafe c s).rails = s.rails := fun _ => (takeSafe_only (l := .a)).1 .rails (by decide)
  simp [ringFault, idleLinks, setRole, resetLane, same]

/-- The Junction is lost: not ready, SAFE_N floats, and both lanes report the loss (R43). -/
theorem junctionLose_lost {s} (h : s.jct.lost = false) :
    (junctionLose s).jct.lost = true ∧ (junctionLose s).jct.ready = false ∧ (junctionLose s).jct.safeN = .hiZ ∧
    ∀ l, ((junctionLose s).lane l).health.jctLost = true := by
  simp only [junctionLose, h, Bool.false_eq_true, if_false, evt_jct, bothLanes_jct, modJct_jct, true_and]
  intro l
  rw [evt_only.lane .health (by decide), bothLanes_lane]

/-- A Junction that is lost already floats SAFE_N alone. -/
theorem junctionLose_again {s} (h : s.jct.lost = true) : (junctionLose s).jct = { s.jct with safeN := .hiZ } := by
  simp [junctionLose, h]

/-- No action of Table 2.10 changes which rails are out of range. -/
theorem railAction_out {r s} : (railAction r s).rails.out = s.rails.out := by
  unfold railAction
  split
  · rw [(holdLane_only (l := _)).1 .rails (by decide)]
  · split
    · exact ringFault_out
    · split
      · rw [(junctionLose_only (l := .a)).1 .rails (by decide)]
      · rfl

/-! ## A fault that is latched -/

/-- A fault of rail r is latched with bit n of object 2040:06 and reported. -/
def railLatched (r : Rail) (n : Nat) (s : State) : State :=
  emcySend (evt (eventReq .railFault 127 [n])
    (latchCause 4 (modBk (fun k => { k with railLatches := k.railLatches ||| BitVec.ofNat 16 (2 ^ n) }) (modRails (Rails.lose r) s))))

theorem railLatched_only {r n s l} : Only [.free, .rails, .bk, .comm, .chans] l [.evq] [.evq] s (railLatched r n s) := by
  unfold railLatched
  exact Only.step (Only.step (Only.step (Only.step (Only.step Only.refl modRails_only) modBk_only) latchCause_only) evt_only) emcySend_only

theorem railLatched_modes {r n s} : (railLatched r n s).modes = s.modes := (railLatched_only (l := .a)).1 .modes (by decide)

theorem railLatched_jct {r n s} : (railLatched r n s).jct = s.jct := (railLatched_only (l := .a)).1 .jct (by decide)

theorem railLatched_rails {r n s} : (railLatched r n s).rails = s.rails.lose r := by
  unfold railLatched
  rw [(emcySend_only (l := .a)).1 .rails (by decide), evt_rails]
  rfl

theorem railLatched_bk {r n s} : (railLatched r n s).bk =
    { s.bk with railLatches := s.bk.railLatches ||| BitVec.ofNat 16 (2 ^ n), resetLatches := s.bk.resetLatches ||| 0x10
                lastReset := 4 } := by
  unfold railLatched
  rw [(emcySend_only (l := .a)).1 .bk (by decide), evt_bk]
  rfl

/-- A rail with a bit in object 2040:06 is latched and then acted on. -/
theorem railFaultEffect_latched {r ov s b} (h : railBit r = some b) :
    railFaultEffect r ov s = checkPor (noteOff r (railAction r (railLatched r (if ov then b + 1 else b) s))) := by
  have hk : ¬ (r = .vbk ∧ ov) := fun ⟨e, _⟩ => nomatch e ▸ h
  unfold railFaultEffect
  rw [if_neg hk, h]
  rfl

/-- What the latching and the action leave, the fault leaves: only the backup domain, and what a POR starts again in the lanes, follow. -/
theorem railFaultEffect_after {r ov s b l} (h : railBit r = some b) : Only [.bk] l [.recd, .slots] [.recd, .slots]
    (railAction r (railLatched r (if ov then b + 1 else b) s)) (railFaultEffect r ov s) := by
  rw [railFaultEffect_latched h]
  exact Only.step (Only.step Only.refl noteOff_only) checkPor_only

theorem railFaultEffect_out {r ov s b} (h : railBit r = some b) : (railFaultEffect r ov s).rails.out = (s.rails.lose r).out := by
  rw [(railFaultEffect_after (l := .a) h).1 .rails (by decide), railAction_out, railLatched_rails]

/-! ## The loss of the backup domain -/

theorem noteOff_rails {r s} : (noteOff r s).rails = s.rails := (noteOff_only (l := .a)).1 .rails (by decide)

/-- The time at which VIO was lost is noted beside the latches. -/
theorem noteOff_latches {r s} : (noteOff r s).bk.railLatches = s.bk.railLatches ∧ (noteOff r s).bk.resetLatches = s.bk.resetLatches ∧
    (noteOff r s).bk.lastReset = s.bk.lastReset := by
  unfold noteOff
  split <;> exact ⟨rfl, rfl, rfl⟩

theorem checkPor_stands {s} (h : s.rails.out.contains .vbk = false ∨ s.rails.out.contains .vio = false) : checkPor s = s := by
  unfold checkPor
  rcases h with h | h <;> simp only [h, Bool.false_and, Bool.and_false, Bool.false_eq_true, if_false]

/-- VBK and VIO both out of range: POR. -/
theorem checkPor_lost {s} (hk : s.rails.out.contains .vbk = true) (hv : s.rails.out.contains .vio = true) :
    checkPor s = bothLanes LaneState.porReset { s with bk := Backup.reset } := by
  unfold checkPor
  rw [hk, hv]
  rfl

/-! ## Faults -/

theorem railFaultEffect_vbk {s} :
    railFaultEffect .vbk false s = checkPor (modBk (fun k => { k with vbkLow := true }) (modRails (Rails.lose .vbk) s)) := rfl

/-- VBK alone sets its low flag. -/
theorem railFault_vbk {s} (h : s.rails.out.contains .vio = false) :
    Completes (.railFault .vbk false) s fun t =>
      t.bk = { s.bk with vbkLow := true } ∧ t.rails.out.contains .vbk = true ∧ t.modes = s.modes := by
  refine .of rfl ?_
  rw [railFaultEffect_vbk, checkPor_stands (.inr (by simpa using h))]
  exact ⟨rfl, by simp, rfl⟩

/-- VBK that goes while VIO is out loses the backup domain. -/
theorem railFault_vbk_por {s l} (h : s.rails.out.contains .vio = true) :
    Completes (.railFault .vbk false) s fun t => t.bk = Backup.reset ∧ t.lane l = (s.lane l).porReset := by
  refine .of rfl ?_
  rw [railFaultEffect_vbk, checkPor_lost (by simp) (by simpa using h), bothLanes_lane]
  exact ⟨rfl, by cases l <;> rfl⟩

/-- So does VIO that goes while VBK is out. -/
theorem railFault_vio_por {s ov} (h : s.rails.out.contains .vbk = true) :
    Completes (.railFault .vio ov) s fun t => t.bk = Backup.reset := by
  refine .of rfl ?_
  rw [railFaultEffect_latched rfl, checkPor_lost]
  · rfl
  · simpa [noteOff_rails, railAction_out, railLatched_rails] using h
  · simp [noteOff_rails, railAction_out, railLatched_rails]

/-- A fault latches its bit of object 2040:06 and the cause RAIL (R43, R69). -/
theorem railFault_latches {s r b ov} (hb : railBit r = some b) (hk : s.rails.out.contains .vbk = false) :
    Completes (.railFault r ov) s fun t =>
      t.bk.railLatches = s.bk.railLatches ||| BitVec.ofNat 16 (2 ^ (if ov then b + 1 else b)) ∧
      t.bk.resetLatches = s.bk.resetLatches ||| 0x10 ∧ t.bk.lastReset = 4 ∧ t.rails.out.contains r = true := by
  have notVbk : Rail.vbk ≠ r := fun e => nomatch e ▸ hb
  have acted : ∀ u, (railAction r u).bk = u.bk := fun _ => (railAction_only (l := .a)).1 .bk (by decide)
  have bk : (railFaultEffect r ov s).bk = (noteOff r (railAction r (railLatched r (if ov then b + 1 else b) s))).bk := by
    rw [railFaultEffect_latched hb, checkPor_stands]
    exact .inl (by simpa [noteOff_rails, railAction_out, railLatched_rails, notVbk] using hk)
  obtain ⟨rail, reset, last⟩ := noteOff_latches (r := r) (s := railAction r (railLatched r (if ov then b + 1 else b) s))
  refine .of rfl ?_
  rw [railFaultEffect_out hb, bk, rail, reset, last, acted, railLatched_bk]
  exact ⟨rfl, rfl, rfl, by simp⟩

/-- VMET belongs to the metrology section: neither the mode nor the Junction answers. -/
theorem railFault_vmet {s ov} :
    Completes (.railFault .vmet ov) s fun t => t.rails.out.contains .vmet = true ∧ t.modes = s.modes ∧ t.jct = s.jct := by
  have run : railFaultEffect .vmet ov s = checkPor (modRails (Rails.lose .vmet) s) := by
    unfold railFaultEffect
    rw [if_neg (fun h => nomatch h.1)]
    rfl
  have por := checkPor_only (s := modRails (Rails.lose .vmet) s) (l := .a)
  refine .of rfl ?_
  rw [run, por.1 .modes (by decide), por.1 .jct (by decide), por.1 .rails (by decide)]
  simp

theorem railBit_of_railLane {r l} (h : railLane r = some l) : ∃ b, railBit r = some b := by
  cases r <;> first | exact ⟨_, rfl⟩ | exact nomatch h

theorem railAction_lane {r l s} (h : railLane r = some l) : railAction r s = holdLane l s := by
  unfold railAction
  rw [h]

/-- A lane's own rail holds that lane in reset. -/
theorem railFault_lane {s r l ov} (h : railLane r = some l) : Completes (.railFault r ov) s fun t =>
    (t.lane l).ctl.railHeld = true ∧ (t.lane l).ctl.bootStep = 0 ∧ (t.lane l).bayLoops = LaneState.reset.bayLoops := by
  obtain ⟨b, hb⟩ := railBit_of_railLane h
  have after := (railFaultEffect_after (ov := ov) (s := s) (l := l) hb).lane
  refine .of rfl ?_
  rw [after .ctl (by decide), after .bayLoops (by decide), railAction_lane h]
  exact holdLane_lane

/-- VCOM, VSER and VIO have a bit of object 2040:06, and their fault is one of the ring. -/
theorem railAction_ring {r} (h : r = .vcom ∨ r = .vser ∨ r = .vio) :
    (∃ b, railBit r = some b) ∧ ∀ s, railAction r s = ringFault s := by
  rcases h with rfl | rfl | rfl <;> exact ⟨⟨_, rfl⟩, fun _ => rfl⟩

/-- VCOM, VSER or VIO drives SAFE_N low and resets both lanes. -/
theorem railFault_ring {s r ov} (h : r = .vcom ∨ r = .vser ∨ r = .vio) (hm : s.modes.mode ≠ .backup) :
    Completes (.railFault r ov) s fun t =>
      t.jct.safeN = .low ∧ t.jct.mux = none ∧ t.rails.ringHeld = true ∧ t.laneA.ctl.bootStep = 0 ∧ t.laneB.ctl.bootStep = 0 := by
  obtain ⟨⟨b, hb⟩, action⟩ := railAction_ring h
  have after := railFaultEffect_after (ov := ov) (s := s) (l := .a) hb
  obtain ⟨low, off, held⟩ := ringFault_holds (s := railLatched r (if ov then b + 1 else b) s) (by rwa [railLatched_modes])
  refine .of rfl ?_
  rw [after.1 .jct (by decide), after.1 .rails (by decide), after.laneA .ctl (by decide), after.laneB .ctl (by decide), action]
  exact ⟨low, off, held, ringFault_lane (l := .a), ringFault_lane (l := .b)⟩

/-- It also takes SAFE with cause 6 where SAFE may be taken (R57). -/
theorem railFault_ring_safe {s r ov} (h : r = .vcom ∨ r = .vser ∨ r = .vio) (hs : s.modes.mode ≠ .safe) (hb : s.modes.mode ≠ .boot)
    (hk : s.modes.mode ≠ .backup) : Completes (.railFault r ov) s fun t => t.modes.mode = .safe ∧ t.modes.safeCause = 6 := by
  obtain ⟨⟨b, bit⟩, action⟩ := railAction_ring h
  obtain ⟨mode, cause, -⟩ := takeSafe_entered (c := 6) (s := railLatched r (if ov then b + 1 else b) s) (by rwa [railLatched_modes])
    (by rwa [railLatched_modes]) (by rwa [railLatched_modes])
  refine .of rfl ?_
  rw [(railFaultEffect_after (l := .a) bit).1 .modes (by decide), action, ringFault_modes]
  exact ⟨mode, cause⟩

/-- VJCT loses the Junction (R284). -/
theorem railFault_vjct {s ov} (h : s.jct.lost = false) : Completes (.railFault .vjct ov) s fun t =>
    t.jct.lost = true ∧ t.jct.ready = false ∧ t.jct.safeN = .hiZ ∧ t.laneA.health.jctLost = true ∧
    t.laneB.health.jctLost = true := by
  have after : Only _ .a _ _ (junctionLose _) _ := railFaultEffect_after (r := .vjct) (ov := ov) (s := s) rfl
  obtain ⟨lost, ready, floats, reported⟩ := junctionLose_lost (s := railLatched .vjct (if ov then 15 else 14) s)
    (by rw [railLatched_jct, h])
  refine .of rfl ?_
  rw [after.1 .jct (by decide), after.laneA .health (by decide), after.laneB .health (by decide)]
  exact ⟨lost, ready, floats, reported .a, reported .b⟩

/-- VJCT of a Junction that is lost already floats SAFE_N alone. -/
theorem railFault_vjct_again {s ov} (h : s.jct.lost = true) :
    Completes (.railFault .vjct ov) s fun t => t.jct = { s.jct with safeN := .hiZ } := by
  refine .of rfl ?_
  rw [(railFaultEffect_after (r := .vjct) (l := .a) rfl).1 .jct (by decide)]
  exact (junctionLose_again (by rw [railLatched_jct, h])).trans (by rw [railLatched_jct])

/-! ## Recoveries -/

/-- Rail r is back in range, VBK with its low flag. -/
def railInRange (r : Rail) (s : State) : State :=
  let s := modRails (fun k => { k with out := k.out.filter fun q => q != r }) s
  if r = .vbk then modBk (fun k => { k with vbkLow := false }) s else s

/-- Rail r is back in range, and the lanes it held are free of it. -/
def railBack (r : Rail) (s : State) : State := restartLaneIfFree .b (restartLaneIfFree .a (railInRange r s))

theorem railInRange_rails {r s} : (railInRange r s).rails = { s.rails with out := s.rails.out.filter fun q => q != r } := by
  unfold railInRange
  split <;> rfl

theorem restartLaneIfFree_rails {l s} : (restartLaneIfFree l s).rails = s.rails := restartLaneIfFree_only.1 .rails (by decide)

theorem railBack_rails {r s} : (railBack r s).rails = { s.rails with out := s.rails.out.filter fun q => q != r } := by
  unfold railBack
  rw [restartLaneIfFree_rails, restartLaneIfFree_rails, railInRange_rails]

theorem railBack_modes {r s} : (railBack r s).modes = s.modes := by
  have freed : ∀ l t, (restartLaneIfFree l t).modes = t.modes := fun _ _ => restartLaneIfFree_only.1 .modes (by decide)
  unfold railBack railInRange
  rw [freed, freed]
  split <;> rfl

/-- The device resets where the ring was held and the last of its rails is back, outside BACKUP. -/
theorem railRecoveredEffect_back {r s} (h : s.rails.out.contains r = true) : railRecoveredEffect r s =
    if (railBack r s).rails.ringHeld && !((railBack r s).rails.out.any groupRails.contains) && (railBack r s).modes.mode != .backup then
      modRails (fun k => { k with ringHeld := false }) (plainReset 4 (safeExit (railBack r s)))
    else railBack r s := by
  unfold railRecoveredEffect
  rw [h]
  rfl

theorem railRecoveredEffect_free {r s} (h : s.rails.out.contains r = true) (hr : s.rails.ringHeld = false) :
    railRecoveredEffect r s = railBack r s := by
  simp [railRecoveredEffect_back h, railBack_rails, hr]

/-- A rail that was not out of range changes nothing. -/
theorem railRecovered_inRange {s r} (h : s.rails.out.contains r = false) : Completes (.railRecovered r) s fun t => t = s := by
  refine .of rfl ?_
  unfold railRecoveredEffect
  rw [h]
  rfl

theorem railRecovered_out {s r} (h : s.rails.out.contains r = true) (hr : s.rails.ringHeld = false) :
    Completes (.railRecovered r) s fun t => t.rails.out = s.rails.out.filter fun q => q != r := by
  refine .of rfl ?_
  rw [railRecoveredEffect_free h hr, railBack_rails]

/-- A lane all of whose rails are in range is not held. -/
theorem restartLaneIfFree_freed {l s} (h : s.rails.out.any (railLane · == some l) = false) :
    ((restartLaneIfFree l s).lane l).ctl.railHeld = false := by
  unfold restartLaneIfFree
  dsimp only
  rw [h]
  cases held : (s.lane l).ctl.railHeld with
  | false => simpa using held
  | true =>
    simp only [Bool.not_false, Bool.and_self, if_true]
    split
    · rw [setRole_lane, State.lane_modLane]
    · rw [State.lane_modLane]

/-- The last rail of a lane that comes back frees the lane. -/
theorem railRecovered_lane {s r l} (h : s.rails.out.contains r = true) (hr : s.rails.ringHeld = false)
    (hq : ∀ q ∈ s.rails.out, q ≠ r → railLane q ≠ some l) :
    Completes (.railRecovered r) s fun t => (t.lane l).ctl.railHeld = false := by
  have other : ∀ t, ((restartLaneIfFree .b t).lane .a).ctl = (t.lane .a).ctl := fun _ => restartLaneIfFree_only.2.2 .ctl (by decide)
  have inRange : (railInRange r s).rails.out.any (railLane · == some l) = false := by
    simp only [railInRange_rails, List.any_eq_false, List.mem_filter, bne_iff_ne, beq_iff_eq]
    exact fun q ⟨m, n⟩ => hq q m n
  refine .of rfl ?_
  rw [railRecoveredEffect_free h hr]
  unfold railBack
  cases l with
  | a =>
    rw [other]
    exact restartLaneIfFree_freed inRange
  | b => exact restartLaneIfFree_freed (by rwa [restartLaneIfFree_rails])

/-- When the rails of the ring are back the device restarts through BOOT (R57). -/
theorem railRecovered_restart {s r} (h : s.rails.out.contains r = true) (hr : s.rails.ringHeld = true) (hm : s.modes.mode ≠ .backup)
    (hq : ∀ q ∈ s.rails.out, q ≠ r → groupRails.contains q = false) : Completes (.railRecovered r) s fun t =>
    t.modes.mode = .boot ∧ t.rails.inReset = true ∧ t.rails.ringHeld = false ∧ t.bk.lastReset = 4 := by
  have back : (s.rails.out.filter fun q => q != r).any groupRails.contains = false := by
    simp only [List.any_eq_false, List.mem_filter, bne_iff_ne, Bool.not_eq_true]
    exact fun q ⟨m, n⟩ => hq q m n
  have run : railRecoveredEffect r s = modRails (fun k => { k with ringHeld := false }) (plainReset 4 (safeExit (railBack r s))) := by
    rw [railRecoveredEffect_back h, railBack_rails, railBack_modes, hr, back]
    simp [hm]
  obtain ⟨boot, held, cause, -⟩ := plainReset_safeExit (c := 4) (s := railBack r s)
  refine .of rfl ?_
  rw [run]
  exact ⟨boot, held, rfl, cause⟩

/-! ## Short excursions, latches and crystals -/

theorem railShortExcursion_vbk {s} : Completes (.railShortExcursion .vbk) s fun t => t = s := .of rfl rfl

theorem railShortExcursion_counted {s r} (h : r ≠ .vbk) :
    Completes (.railShortExcursion r) s fun t => t = { s with rails := { s.rails with short := s.rails.short + 1 } } :=
  .of rfl (if_neg h)

/-- A write of ones clears the latches of object 2040:06. -/
theorem railFaultLatchClear_clears {s m} (hb : s.modes.mode ≠ .boot) (hk : s.modes.mode ≠ .backup) (ha : (activeLane s).isSome = true) :
    Completes (.railFaultLatchClear m) s fun t => t.bk = { s.bk with railLatches := s.bk.railLatches &&& ~~~m } := by
  refine .of rfl ?_
  rw [hostWrite_permitted ha (safeWritable_of hb hk)]
  rfl

theorem junctionCrystalLost_completes {s} (h : s.jct.lost = false) : Completes .junctionCrystalLost s fun t =>
    t.jct.lost = true ∧ t.jct.safeN = .hiZ ∧ t.laneA.health.jctLost = true ∧ t.laneB.health.jctLost = true := by
  obtain ⟨lost, -, floats, reported⟩ := junctionLose_lost h
  exact .of rfl ⟨lost, floats, reported .a, reported .b⟩

theorem junctionCrystalLost_again {s} (h : s.jct.lost = true) :
    Completes .junctionCrystalLost s fun t => t.jct = { s.jct with safeN := .hiZ } := .of rfl (junctionLose_again h)

/-- Without its crystal the RTC is invalid (R289). -/
theorem backupCrystalLost_completes {s} : Completes .backupCrystalLost s fun t => t.bk = { s.bk with invalid := true } :=
  .of rfl ((reselect_only (l := .a)).1 .bk (by decide))

/-- Settles O19, clause by clause: the faults by the action of their row of Table 2.10, recoveries, short excursions, latches and
crystals. -/
theorem railCommands : Obligations.RailCommands :=
  ⟨fun _ => .of rfl rfl, fun _ => railFault_vbk, fun _ _ => railFault_vbk_por, fun _ _ => railFault_vio_por,
    fun _ _ _ _ => railFault_latches, fun _ _ => railFault_vmet, fun _ _ _ _ => railFault_lane, fun _ _ _ => railFault_ring,
    fun _ _ _ => railFault_ring_safe, fun _ _ => railFault_vjct, fun _ _ => railFault_vjct_again, fun _ _ => railRecovered_inRange,
    fun _ _ => railRecovered_out, fun _ _ _ h hr _ => railRecovered_lane h hr, fun _ _ => railRecovered_restart, fun _ => railShortExcursion_vbk,
    fun _ _ => railShortExcursion_counted, fun _ hb hk ha _ => railFaultLatchClear_clears hb hk ha, fun _ => junctionCrystalLost_completes,
    fun _ => junctionCrystalLost_again, fun _ => backupCrystalLost_completes⟩

end Sys2Proof.Machine
end

section
/-! PROOF. The reset input and its release, BACKUP entry and the power-fail warning (R44, R45, R57, R69, R292). -/

namespace Sys2Proof.Machine
set_option Elab.async false

/-! ## The reset input (R44) -/

/-- A pulse shorter than 10 us is not a reset. -/
theorem resetPin_short {s} {n : Nat} (h : n < 10) : Completes (.resetPin n) s fun t => t = s :=
  .of rfl (if_neg fun c => absurd c.1 (by omega))

/-- Outside BACKUP a pulse of 10 us resets the device with cause RST_PIN. -/
theorem resetPin_resets {s} {n : Nat} (h : 10 ≤ n) (hm : s.modes.mode ≠ .backup) : Completes (.resetPin n) s fun t =>
    t.modes.mode = .boot ∧ t.rails.inReset = true ∧ t.bk.lastReset = 6 ∧ t.bk.resetCount = s.bk.resetCount + 1 ∧
    t.bk.lastResetTime = s.bk.rtc ∧ t.bk.rtc = s.bk.rtc ∧ t.met = s.met := by
  refine .of rfl ?_
  rw [if_pos ⟨h, hm⟩]
  exact plainReset_safeExit

theorem resetPin_backup {s} {n : Nat} (h : s.modes.mode = .backup) : Completes (.resetPin n) s fun t => t = s :=
  .of rfl (if_neg fun c => c.2 h)

/-! ## The release (R44, R57) -/

theorem groupRails_or_vjct {r : Rail} : (groupRails.contains r || r == .vjct) = true ↔ r ≠ .vbk ∧ r ≠ .vmet := by
  cases r <;> decide

/-- With the rails of groups 1 to 3 and VJCT in range the release starts BOOT at time 0. -/
theorem resetRelease_boots {s} (hr : s.rails.inReset = true) (h : ∀ r ∈ s.rails.out, r = .vbk ∨ r = .vmet) :
    Completes .resetRelease s fun t =>
      t.rails.inReset = false ∧ t.modes.mode = .boot ∧ t.modes.releasedAt = s.bk.rtc ∧ t.clk.ns = 0 ∧ t.bk = s.bk := by
  have inRange : (s.rails.out.any fun r => groupRails.contains r || r == .vjct) = false := by
    rw [List.any_eq_false]
    intro r hm c
    obtain ⟨nk, nm⟩ := groupRails_or_vjct.1 c
    exact (h r hm).elim nk nm
  have run : resetReleaseEffect s = releaseReset s := by simp [resetReleaseEffect, hr]
  refine .of rfl ?_
  rw [run, releaseReset, hr, inRange]
  exact ⟨rfl, rfl, rfl, rfl, rfl⟩

/-- The release waits for a rail of groups 1 to 3 and for VJCT. -/
theorem resetRelease_waits {s r} (hm : s.modes.mode ≠ .backup) (h : r ∈ s.rails.out) (hk : r ≠ .vbk) (ht : r ≠ .vmet) :
    Completes .resetRelease s fun t => t = s := by
  have out : (s.rails.out.any fun r => groupRails.contains r || r == .vjct) = true :=
    List.any_eq_true.2 ⟨r, h, groupRails_or_vjct.2 ⟨hk, ht⟩⟩
  have run : resetReleaseEffect s = releaseReset s := by simp [resetReleaseEffect, hm]
  refine .of rfl ?_
  rw [run, releaseReset, out]
  simp

/-! ## BACKUP entry (R57) -/

/-- BACKUP entry holds the device in reset with SAFE_N floating, and does not reach the metrology section. -/
theorem backupEntry_enters {s} (hm : s.modes.mode ≠ .backup) : Completes .backupEntry s fun t =>
    t.modes.mode = .backup ∧ t.rails.inReset = true ∧ t.jct.safeN = .hiZ ∧ t.met = s.met := by
  have met : (backupEntryEffect s).met = s.met := (backupEntryEffect_only (l := .a)).1 .met (by decide)
  have modes : ∀ u, (checkPor u).modes = u.modes := fun _ => (checkPor_only (l := .a)).1 .modes (by decide)
  have rails : ∀ u, (checkPor u).rails = u.rails := fun _ => (checkPor_only (l := .a)).1 .rails (by decide)
  have jct : ∀ u, (checkPor u).jct = u.jct := fun _ => (checkPor_only (l := .a)).1 .jct (by decide)
  refine .of rfl ?_
  rw [met]
  unfold backupEntryEffect
  rw [if_neg fun c => hm c.1, modes, rails, jct]
  exact ⟨rfl, by simp [noteOff_rails, deviceReset], rfl, rfl⟩

theorem backupEntry_again {s} (hm : s.modes.mode = .backup) (hr : s.rails.inReset = true) : Completes .backupEntry s fun t => t = s :=
  .of rfl (if_pos ⟨hm, hr⟩)

/-! ## The power-fail warning (R45, R292) -/

/-- A new warning latches its time, whether that time is valid, and PFAIL, and is pending for the metrology section. -/
theorem powerFailWarning_latches {s} (h : s.bk.pfActive = false) : Completes .powerFailWarning s fun t =>
    t.bk.pfActive = true ∧ t.bk.pfTime = s.bk.rtc ∧ t.bk.pfValid = !s.bk.invalid ∧ t.bk.warnings = s.bk.warnings + 1 ∧
    t.bk.resetLatches = s.bk.resetLatches ||| 0x8 ∧ t.bk.lastReset = 3 ∧ t.met.ctl.pfPending = true := by
  refine .of rfl ?_
  simp [powerFailWarningEffect, h, latchCause]

/-- A warning in force is latched once. -/
theorem powerFailWarning_again {s} (h : s.bk.pfActive = true) : Completes .powerFailWarning s fun t => t = s := .of rfl (if_pos h)

/-- With every rail in range the warning ends. -/
theorem powerFailEnd_ends {s} (h : s.bk.pfActive = true) (hr : s.rails.out = []) : Completes .powerFailEnd s fun t =>
    t.bk = { s.bk with pfActive := false } ∧ t.met.ctl.pfPending = false ∧ t.met.ctl.pfDone = false := by
  refine .of rfl ?_
  simp [powerFailEndEffect, h, hr]

theorem powerFailEnd_stands {s} (h : s.rails.out ≠ [] ∨ s.bk.pfActive = false) : Completes .powerFailEnd s fun t => t = s := by
  refine .of rfl ?_
  rcases h with h | h <;> simp [powerFailEndEffect, h]

/-- SAFE cause 4 ends in a reset when the warning has gone. -/
theorem powerFailSafeExit_resets {s} (hm : s.modes.mode = .safe) (hc : s.modes.safeCause = 4) (h : s.bk.pfActive = false) :
    Completes .powerFailSafeExit s fun t => t.modes.mode = .boot ∧ t.rails.inReset = true ∧ t.bk.lastReset = 3 := by
  obtain ⟨boot, held, cause, -⟩ := plainReset_safeExit (c := 3) (s := s)
  refine .of rfl ?_
  rw [if_pos ⟨hm, hc, h⟩]
  exact ⟨boot, held, cause⟩

theorem powerFailSafeExit_stands {s} (h : s.modes.mode ≠ .safe ∨ s.modes.safeCause ≠ 4 ∨ s.bk.pfActive = true) :
    Completes .powerFailSafeExit s fun t => t = s := by
  refine .of rfl (if_neg ?_)
  rintro ⟨hm, hc, hp⟩
  rcases h with h | h | h
  · exact h hm
  · exact h hc
  · exact nomatch h.symm.trans hp

/-- Settles O20, clause by clause: the reset input, its release, BACKUP entry and the power-fail warning. -/
theorem resetAndPowerFail : Obligations.ResetAndPowerFail :=
  ⟨fun _ _ => resetPin_short, fun _ _ => resetPin_resets, fun _ _ => resetPin_backup, fun _ => resetRelease_boots,
    fun _ _ => resetRelease_waits, fun _ => backupEntry_enters, fun _ => backupEntry_again, fun _ => powerFailWarning_latches,
    fun _ => powerFailWarning_again, fun _ => powerFailEnd_ends, fun _ => powerFailEnd_stands, fun _ => powerFailSafeExit_resets,
    fun _ => powerFailSafeExit_stands⟩

end Sys2Proof.Machine
end

section
/-! PROOF. Die temperatures and the rhythm of the thermal model (R51-R53, R195, R203, R205). -/

namespace Sys2Proof.Machine
set_option Elab.async false

/-! ## The highest valid reading (R51) -/

/-- m is the highest of the first n readings that are not excluded, none where all of them are. -/
def HighestOf (l : List Int) (excluded : List Bool) (n : Nat) (m : Option Int) : Prop :=
  (∀ i < n, nth excluded i = false → ∃ v, m = some v ∧ nth l i ≤ v) ∧
  (∀ v, m = some v → ∃ i < n, nth excluded i = false ∧ v = nth l i)

/-- The highest valid reading with one more sensor. -/
def hotter (l : List Int) (excluded : List Bool) (m : Option Int) (i : Nat) : Option Int :=
  if nth excluded i then m else match m with
    | some v => some (max v (nth l i))
    | none => some (nth l i)

theorem HighestOf.next {l excluded n m} (h : HighestOf l excluded n m) : HighestOf l excluded (n + 1) (hotter l excluded m n) := by
  obtain ⟨above, among⟩ := h
  unfold hotter
  cases hx : nth excluded n with
  | true =>
    refine ⟨fun i hi valid => above i ?_ valid, fun v hv => ?_⟩
    · exact (Nat.lt_succ_iff_lt_or_eq.1 hi).resolve_right fun e => Bool.noConfusion (hx.symm.trans (e ▸ valid))
    · obtain ⟨i, hi, valid⟩ := among v hv
      exact ⟨i, Nat.lt_succ_of_lt hi, valid⟩
  | false =>
    cases m with
    | none =>
      refine ⟨fun i hi valid => ?_, fun v hv => ⟨n, Nat.lt_succ_self n, hx, (Option.some.inj hv).symm⟩⟩
      rcases Nat.lt_succ_iff_lt_or_eq.1 hi with hi | rfl
      · exact nomatch (above i hi valid).choose_spec.1
      · exact ⟨_, rfl, le_rfl⟩
    | some w =>
      refine ⟨fun i hi valid => ⟨_, rfl, ?_⟩, fun v hv => ?_⟩
      · rcases Nat.lt_succ_iff_lt_or_eq.1 hi with hi | rfl
        · obtain ⟨v, hv, below⟩ := above i hi valid
          exact le_max_of_le_left (Option.some.inj hv ▸ below)
        · exact le_max_right _ _
      · obtain rfl : max w (nth l n) = v := Option.some.inj hv
        rcases max_choice w (nth l n) with e | e <;> rw [e]
        · obtain ⟨i, hi, valid⟩ := among w rfl
          exact ⟨i, Nat.lt_succ_of_lt hi, valid⟩
        · exact ⟨n, Nat.lt_succ_self n, hx, rfl⟩

theorem hottest_highest {l excluded} : HighestOf l excluded 4 (hottest l excluded) := by
  have fold : ∀ n, HighestOf l excluded n ((List.range n).foldl (hotter l excluded) none) := by
    intro n
    induction n with
    | zero => exact ⟨fun _ hi => absurd hi (Nat.not_lt_zero _), fun _ hv => nomatch hv⟩
    | succ n ih =>
      rw [List.range_succ, List.foldl_append]
      exact ih.next
  exact fold 4

/-! ## The reading of a lane (R51, R52) -/

/-- The reported value is the highest reading of a sensor in use. -/
theorem readTemp_reported {l free t} :
    (∀ i < 4, nth (readTemp l free t).excluded i = false → nth l i ≤ (readTemp l free t).reported) ∧
    ((∃ i < 4, nth (readTemp l free t).excluded i = false) →
      ∃ i < 4, nth (readTemp l free t).excluded i = false ∧ (readTemp l free t).reported = nth l i) := by
  obtain ⟨above, among⟩ := hottest_highest (l := l) (excluded := (readTemp l free t).excluded)
  have reported : ∀ v, hottest l (readTemp l free t).excluded = some v → (readTemp l free t).reported = v := by
    intro v hv
    show (hottest l (readTemp l free t).excluded).getD free = v
    rw [hv]
    rfl
  refine ⟨fun i hi valid => ?_, fun ⟨i, hi, valid⟩ => ?_⟩
  · obtain ⟨v, hv, below⟩ := above i hi valid
    rwa [reported v hv]
  · obtain ⟨v, hv, -⟩ := above i hi valid
    rw [reported v hv]
    exact among v hv

theorem readTemp_stop {l free t} (h : t.stop = true) : (readTemp l free t).stop = true := by
  simp [readTemp, h]

theorem tempEvents_temp {n old new x} : (tempEvents n old new x).temp = x.temp := tempEvents_only .temp (by decide)

/-- The lane's unit takes the reading. -/
theorem tempLane_temp {l t s} : ((tempLane l t s).lane l).temp = readTemp t (Config.freeInt s.free) (s.lane l).temp := by
  simp only [tempLane, State.lane_modLane, tempEvents_temp]

/-- A stop level that is set anew is latched in the device; nothing else of the mode unit changes (R52). -/
theorem tempLane_modes {l t s} : (tempLane l t s).modes =
    { s.modes with dieStop := s.modes.dieStop || (((tempLane l t s).lane l).temp.stop && !(s.lane l).temp.stop) } := by
  rw [tempLane_temp]
  simp only [tempLane, State.modLane_modes]
  cases (readTemp t (Config.freeInt s.free) (s.lane l).temp).stop && !(s.lane l).temp.stop
  · simp [apply_ite State.modes]
  · simp [apply_ite State.modes, latchStop, latchCause]

/-! ## The reading of the device -/

/-- Readings of the four sensors of lane l. -/
def laneReadings (d : DieTemps) (l : Lane) : List Int :=
  match l with
  | .a => d.laneA
  | .b => d.laneB

/-- Both lanes have taken their readings. -/
def lanesRead (d : DieTemps) (s : State) : State := tempLane .b d.laneB (tempLane .a d.laneA s)

theorem lanesRead_only {d s l} : Only [.free, .modes, .bk] l [.temp, .evq] [.temp, .evq] s (lanesRead d s) :=
  Only.stepAny (Only.stepAny Only.refl tempLane_only) tempLane_only

theorem lanesRead_temp {d s l} : ∃ free, ((lanesRead d s).lane l).temp = readTemp (laneReadings d l) free (s.lane l).temp := by
  unfold lanesRead
  cases l with
  | a =>
    have kept : ∀ u, ((tempLane .b d.laneB u).lane .a).temp = (u.lane .a).temp := fun _ => (tempLane_only (l := .b)).2.2 .temp (by decide)
    exact ⟨_, (kept _).trans tempLane_temp⟩
  | b =>
    have kept : ((tempLane .a d.laneA s).lane .b).temp = (s.lane .b).temp := (tempLane_only (l := .a)).2.2 .temp (by decide)
    exact ⟨_, tempLane_temp.trans (by rw [kept]; rfl)⟩

/-- After both readings the stop is latched where a lane's stop level was set anew. -/
theorem lanesRead_modes {d s} : (lanesRead d s).modes = { s.modes with
    dieStop := (s.modes.dieStop || (((lanesRead d s).lane .a).temp.stop && !(s.lane .a).temp.stop)) ||
      (((lanesRead d s).lane .b).temp.stop && !(s.lane .b).temp.stop) } := by
  have keptA : ((lanesRead d s).lane .a).temp = ((tempLane .a d.laneA s).lane .a).temp := (tempLane_only (l := .b)).2.2 .temp (by decide)
  have keptB : ((tempLane .a d.laneA s).lane .b).temp = (s.lane .b).temp := (tempLane_only (l := .a)).2.2 .temp (by decide)
  rw [keptA]
  unfold lanesRead
  rw [tempLane_modes, tempLane_modes, keptB]

theorem lanesRead_dieStop {d s} (h : s.modes.dieStop = true) : (lanesRead d s).modes.dieStop = true := by
  rw [lanesRead_modes]
  simp [h]

theorem lanesRead_stopsAnew {d s} {l : Lane} (old : (s.lane l).temp.stop = false) (new : ((lanesRead d s).lane l).temp.stop = true) :
    (lanesRead d s).modes.dieStop = true := by
  rw [lanesRead_modes]
  cases l <;> simp only [old, new, Bool.not_false, Bool.and_self, Bool.or_true, Bool.true_or]

/-- The Junction's record of a reading, and the metrology die's range flag, come after the lanes' readings and touch nothing of them;
SAFE with cause 3 follows at 115 degC (R52). -/
theorem dieTempEffect_read {d s} (hr : s.rails.inReset = false) (hm : s.modes.mode ≠ .backup) :
    ∃ u, Only [.jct, .met] .a [] [] (lanesRead d s) u ∧ u.jct.lost = s.jct.lost ∧ u.jct.temp = d.junction ∧
      u.jct.metTemp = d.metro ∧
      u.jct.peak = max s.jct.peak (max (lanesRead d s).laneA.temp.reported (lanesRead d s).laneB.temp.reported) ∧
      dieTempEffect d s = if 1150 ≤ d.junction ∧ u.jct.lost = false then takeSafe 3 u else u := by
  have jct : (lanesRead d s).jct = s.jct := (lanesRead_only (l := .a)).1 .jct (by decide)
  have skip : ¬ (s.rails.inReset ∨ s.modes.mode = .backup) := by simp [hr, hm]
  unfold dieTempEffect
  rw [if_neg skip]
  refine ⟨_, .met (.step .refl modJct_only), ?_, ?_, ?_, ?_, rfl⟩
  · show (lanesRead d s).jct.lost = _
    rw [jct]
  · rfl
  · rfl
  · show max (lanesRead d s).jct.peak _ = _
    rw [jct]
    rfl

/-- SAFE with cause 3 leaves the temperatures, the latched stop and the Junction. -/
theorem takeSafe_overTemperature {c : Prop} [Decidable c] {s} :
    (∀ l, ((if c then takeSafe 3 s else s).lane l).temp = (s.lane l).temp) ∧
    (if c then takeSafe 3 s else s).modes.dieStop = s.modes.dieStop ∧ (if c then takeSafe 3 s else s).jct = s.jct := by
  split
  · exact ⟨fun _ => takeSafe_only.lane .temp (by decide), takeSafe_dieStop, takeSafe_jct⟩
  · exact ⟨fun _ => rfl, rfl, rfl⟩

/-- What the lanes' readings leave of the temperatures and of the latched stop, the whole reading leaves. -/
theorem dieTempEffect_lanesRead {d s} (hr : s.rails.inReset = false) (hm : s.modes.mode ≠ .backup) :
    (∀ l, ((dieTempEffect d s).lane l).temp = ((lanesRead d s).lane l).temp) ∧
    (dieTempEffect d s).modes.dieStop = (lanesRead d s).modes.dieStop := by
  obtain ⟨u, hu, -, -, -, -, run⟩ := dieTempEffect_read (d := d) hr hm
  have modes : u.modes = (lanesRead d s).modes := hu.1 .modes (by decide)
  rw [run, takeSafe_overTemperature.2.1, modes]
  exact ⟨fun l => (takeSafe_overTemperature.1 l).trans ((hu.atLane (q := [])).lane .temp (by decide)), rfl⟩

/-- The Junction holds its own reading, the metrology die's and the highest temperature a lane ever reported (R53). -/
theorem dieTempEffect_jct {d s} (hr : s.rails.inReset = false) (hm : s.modes.mode ≠ .backup) :
    (dieTempEffect d s).jct.temp = d.junction ∧ (dieTempEffect d s).jct.metTemp = d.metro ∧ (dieTempEffect d s).jct.peak =
      max s.jct.peak (max (dieTempEffect d s).laneA.temp.reported (dieTempEffect d s).laneB.temp.reported) := by
  obtain ⟨u, -, -, junction, metro, peak, run⟩ := dieTempEffect_read (d := d) hr hm
  obtain ⟨temp, -⟩ := dieTempEffect_lanesRead (d := d) hr hm
  have tempA : (dieTempEffect d s).laneA.temp = (lanesRead d s).laneA.temp := temp .a
  have tempB : (dieTempEffect d s).laneB.temp = (lanesRead d s).laneB.temp := temp .b
  have jct : (dieTempEffect d s).jct = u.jct := by rw [run, takeSafe_overTemperature.2.2]
  rw [tempA, tempB, jct]
  exact ⟨junction, metro, peak⟩

/-- After a reading each lane reports its highest sensor in use, keeps a stop level that was set, latches one that is set anew, and the
Junction holds its own reading, the metrology die's and the peak (R51-R53). -/
theorem dieTempReading_lane {s d l} (hr : s.rails.inReset = false) (hm : s.modes.mode ≠ .backup) :
    Completes (.dieTempReading d) s fun t =>
      (∀ i < 4, nth (t.lane l).temp.excluded i = false → nth (laneReadings d l) i ≤ (t.lane l).temp.reported) ∧
      ((∃ i < 4, nth (t.lane l).temp.excluded i = false) →
        ∃ i < 4, nth (t.lane l).temp.excluded i = false ∧ (t.lane l).temp.reported = nth (laneReadings d l) i) ∧
      ((s.lane l).temp.stop = true → (t.lane l).temp.stop = true) ∧
      ((s.lane l).temp.stop = false → (t.lane l).temp.stop = true → t.modes.dieStop = true) ∧
      (s.modes.dieStop = true → t.modes.dieStop = true) ∧
      (t.lane l).temp.above110 = decide (1100 < (t.lane l).temp.reported) ∧
      t.jct.temp = d.junction ∧ t.jct.metTemp = d.metro ∧
      t.jct.peak = max s.jct.peak (max t.laneA.temp.reported t.laneB.temp.reported) := by
  obtain ⟨temp, dieStop⟩ := dieTempEffect_lanesRead (d := d) hr hm
  obtain ⟨free, read⟩ := lanesRead_temp (d := d) (s := s) (l := l)
  obtain ⟨above, among⟩ := readTemp_reported (l := laneReadings d l) (free := free) (t := (s.lane l).temp)
  refine .of rfl ?_
  rw [temp, dieStop]
  refine ⟨?_, ?_, ?_, lanesRead_stopsAnew, lanesRead_dieStop, ?_, dieTempEffect_jct hr hm⟩ <;> rw [read]
  · exact above
  · exact among
  · exact readTemp_stop
  · rfl

/-- At 115 degC on its own sensor the Junction takes SAFE with cause 3 (R52). -/
theorem dieTempReading_safe {s d} (hr : s.rails.inReset = false) (hk : s.modes.mode ≠ .backup) (hb : s.modes.mode ≠ .boot)
    (hs : s.modes.mode ≠ .safe) (hl : s.jct.lost = false) (hd : 1150 ≤ d.junction) :
    Completes (.dieTempReading d) s fun t => t.modes.mode = .safe ∧ t.modes.safeCause = 3 := by
  obtain ⟨u, hu, lost, -, -, -, run⟩ := dieTempEffect_read (d := d) hr hk
  have mode : u.modes.mode = s.modes.mode := by
    rw [hu.1 .modes (by decide), lanesRead_modes]
  rw [← mode] at hk hb hs
  obtain ⟨safe, cause, -⟩ := takeSafe_entered (c := 3) hb hk hs
  refine .of rfl ?_
  rw [run, if_pos ⟨hd, lost.trans hl⟩]
  exact ⟨safe, cause⟩

theorem dieTempReading_inReset {s d} (hr : s.rails.inReset = true) : Completes (.dieTempReading d) s fun t => t = s :=
  .of rfl (if_pos (.inl hr))

/-! ## The update and its publication (R195) -/

/-- From lane x to lane y the number of updates, the published P_tx and FAN stay. -/
def ResultsKept (x y : LaneState) : Prop := y.th.updates = x.th.updates ∧ y.th.ptx = x.th.ptx ∧ y.th.fan = x.th.fan

theorem ResultsKept.step {x y z} (h : ResultsKept x y) (k : ResultsKept y z) : ResultsKept x z :=
  ⟨k.1.trans h.1, k.2.1.trans h.2.1, k.2.2.trans h.2.2⟩

theorem ResultsKept.same {x y : LaneState} (h : y.th = x.th) : ResultsKept x y := by
  unfold ResultsKept
  rw [h]
  exact ⟨rfl, rfl, rfl⟩

theorem ResultsKept.foldl {α : Type} {g : LaneState → α → LaneState} {as : List α} {x} (hg : ∀ y a, ResultsKept y (g y a)) :
    ResultsKept x (as.foldl g x) := by
  induction as generalizing x with
  | nil => exact .same rfl
  | cons a as ih => exact (hg x a).step ih

theorem ResultsKept.chanEvents {inst old new q x y} (h : ResultsKept x y) : ResultsKept x (chanEvents inst old new q y) :=
  h.step (.same (chanEvents_only .th (by decide)))

theorem updateHub_results {s x} : ResultsKept x (updateHub s x) := by
  unfold updateHub
  dsimp only
  split <;> split <;> exact ⟨rfl, rfl, rfl⟩

theorem updateBay_results {s i x} : ResultsKept x (updateBay s i x) := by
  unfold updateBay
  split
  · exact ⟨rfl, rfl, rfl⟩
  · exact .chanEvents ⟨rfl, rfl, rfl⟩

theorem updateModule_results {s old j x} : ResultsKept x (updateModule s old j x) := by
  unfold updateModule
  split
  · exact ⟨rfl, rfl, rfl⟩
  · exact .chanEvents ⟨rfl, rfl, rfl⟩

theorem updateString_results {s i x} : ResultsKept x (updateString s i x) := by
  unfold updateString
  split
  · exact ⟨rfl, rfl, rfl⟩
  · exact .chanEvents ⟨rfl, rfl, rfl⟩

theorem updateXfmr_results {s x} : ResultsKept x (updateXfmr s x) := by
  unfold updateXfmr
  dsimp only
  split
  · exact ⟨rfl, rfl, rfl⟩
  · exact .chanEvents ⟨rfl, rfl, rfl⟩

theorem updateXfmr_none {s x} (h : cfgN s 0x3402 1 = 0) : (updateXfmr s x).th.nPtx = 0xFFFFFFFF := by
  unfold updateXfmr
  dsimp only
  rw [if_pos h]
  rfl

/-- The transformer's update is the last of a lane, before the count of updates and FAN. -/
theorem thermalLane_updates {s x} : ∃ y, ResultsKept x y ∧
    (thermalLane s x).th = { (updateXfmr s y).th with updates := (updateXfmr s y).th.updates + 1, nFan := fanDemand s (updateXfmr s y) } :=
  ⟨_, (((updateHub_results.step (.foldl fun _ _ => updateBay_results)).step (.foldl fun _ _ => updateModule_results)).step
    (.foldl fun _ _ => updateString_results)), rfl⟩

/-- At its period a computing lane counts one update, and what is in force stays (R195). -/
theorem thermalUpdate_completes {s l} (hc : computing s l = true) (hp : s.clk.period % thermalLen s = 0) :
    Completes (.thermalUpdate l) s fun t =>
      (t.lane l).th.updates = (s.lane l).th.updates + 1 ∧ (t.lane l).th.ptx = (s.lane l).th.ptx ∧
      (t.lane l).th.fan = (s.lane l).th.fan ∧ (cfgN s 0x3402 1 = 0 → (t.lane l).th.nPtx = 0xFFFFFFFF) := by
  obtain ⟨y, kept, th⟩ := thermalLane_updates (s := s) (x := s.lane l)
  obtain ⟨updates, ptx, fan⟩ := kept.step updateXfmr_results
  have run : thermalUpdateEffect l s = s.modLane l (thermalLane s) := by simp [thermalUpdateEffect, hc, hp]
  refine .of rfl ?_
  rw [run, State.lane_modLane, th]
  exact ⟨congrArg (· + 1) updates, ptx, fan, updateXfmr_none⟩

theorem thermalUpdate_notDue {s l} (h : computing s l = false ∨ s.clk.period % thermalLen s ≠ 0) :
    Completes (.thermalUpdate l) s fun t => t = s := by
  refine .of rfl ?_
  rcases h with h | h <;> simp [thermalUpdateEffect, h]

/-- One share cycle later the results of the last update come in force (R195). -/
theorem thermalPublish_completes {s l} (hc : computing s l = true) (hp : s.clk.period % thermalLen s = shareLen s) :
    Completes (.thermalPublish l) s fun t =>
      (t.lane l).th.bays = (s.lane l).th.bays.map ThChan.publish ∧ (t.lane l).th.mods = (s.lane l).th.mods.map ThChan.publish ∧
      (t.lane l).th.strs = (s.lane l).th.strs.map ThChan.publish ∧ (t.lane l).th.ptx = (s.lane l).th.nPtx ∧
      (t.lane l).th.fan = (s.lane l).th.nFan := by
  have run : thermalPublishEffect l s = s.modLane l thermalPublishLane := by simp [thermalPublishEffect, hc, hp]
  refine .of rfl ?_
  rw [run, State.lane_modLane]
  exact ⟨rfl, rfl, rfl, rfl, rfl⟩

theorem thermalPublish_notDue {s l} (h : computing s l = false ∨ s.clk.period % thermalLen s ≠ shareLen s) :
    Completes (.thermalPublish l) s fun t => t = s := by
  refine .of rfl ?_
  rcases h with h | h <;> simp [thermalPublishEffect, h]

/-! ## The release of a sensor (R205) -/

/-- The word of a release that names sensor k of bay i (object 3400:06). -/
theorem bayRelease_fields {i k : Nat} (hi : i < 24) (hk : k < 16) :
    let v := (BitVec.ofNat 32 (2 ^ 24 + (i + 1) * 2 ^ 16 + k)).toNat
    v / 2 ^ 24 = 1 ∧ v / 2 ^ 16 % 256 = i + 1 ∧ v % 256 = k := by
  simp only [BitVec.toNat_ofNat]
  omega

theorem releaseIn_named {n l} (h : n < l.length) : nth (releaseIn n l) n = (nth l n).release := by
  unfold releaseIn
  rw [nth_mapIdx _ _ _ h, if_pos (.inr rfl)]

/-- A release frees the sensor of a bay it names where that sensor is quarantined. -/
theorem releaseLane_bay {i k x} (hi : i < x.th.bays.length) (hk : k < (nth x.th.bays i).sensors.length) :
    nth (nth (releaseLane 1 (i + 1) k x).th.bays i).sensors k = (nth (nth x.th.bays i).sensors k).release := by
  have bays : (releaseLane 1 (i + 1) k x).th.bays = upd x.th.bays i fun c => { c with sensors := releaseIn k c.sensors } := rfl
  rw [bays, nth_upd_self _ _ _ hi]
  exact releaseIn_named hk

theorem sensorRelease_bay {s l} {i : Fin 24} {k : Fin 16} (hw : writable s = true) (ha : (activeLane s).isSome = true)
    (hi : i.val < (s.lane l).th.bays.length) (hk : k.val < (nth (s.lane l).th.bays i).sensors.length) :
    Completes (.sensorRelease (BitVec.ofNat 32 (2 ^ 24 + (i.val + 1) * 2 ^ 16 + k.val))) s fun t =>
      let old := nth (nth (s.lane l).th.bays i).sensors k
      nth (nth (t.lane l).th.bays i).sensors k =
        (if old.st = .quarantined then { old with st := .unavailable, count := 0, prev := none } else old) := by
  obtain ⟨kind, inst, sensor⟩ := bayRelease_fields i.2 k.2
  refine .of rfl ?_
  rw [hostWrite_permitted ha hw]
  unfold sensorReleaseEffect
  rw [kind, inst, sensor, bothLanes_lane, respond_lane]
  exact releaseLane_bay hi hk

/-- Settles O21, clause by clause: the readings, SAFE by temperature, the periods of update and publication, and the release. -/
theorem temperatureCommands : Obligations.TemperatureCommands :=
  ⟨fun _ _ _ => dieTempReading_lane, fun _ _ => dieTempReading_safe, fun _ _ => dieTempReading_inReset,
    fun _ _ => thermalUpdate_completes, fun _ _ => thermalUpdate_notDue, fun _ _ => thermalPublish_completes,
    fun _ _ => thermalPublish_notDue, fun _ _ _ _ => sensorRelease_bay⟩

end Sys2Proof.Machine
end

section
/-! PROOF. Mode requests and the host's reset request (R56-R58, R62, R63, Table 3.3). -/

namespace Sys2Proof.Machine
set_option Elab.async false

/-! ## What a mode operation leaves of the mode unit -/

@[simp] theorem modModes_modes {f s} : (modModes f s).modes = f s.modes := rfl

@[simp] theorem modBk_modes {f s} : (modBk f s).modes = s.modes := rfl

@[simp] theorem modModes_clk {f s} : (modModes f s).clk = s.clk := rfl

/-- SAFE that is taken drops the request that waits and the transition under way, and starts its sequence in the running period
(R58, R60). -/
theorem takeSafe_modes {c s} (hb : s.modes.mode ≠ .boot) (hk : s.modes.mode ≠ .backup) (hs : s.modes.mode ≠ .safe) :
    (takeSafe c s).modes = { s.modes with
      mode := .safe, waiting := none, pending := none, safeCause := c, pfSafe := c == 4
      safe := some { cause := c, k := s.clk.period, t := safeRampPeriods s c }, entered := siteTime s } := by
  simp only [takeSafe, hb, hk, hs, or_self, if_false, apply_ite State.modes, enterMode_modes, ite_self]
  rfl

/-- The way to IDLE ends sessions and disables loops; the mode unit takes the transition, 2 s long. -/
theorem toIdle_modes {s} : (toIdle s).modes =
    { s.modes with result := 0, pending := some (.idle, s.clk.period + msPeriods s 2000) } := by
  have modes : (endAllSessions 4 s).modes = s.modes := (endAllSessions_only (l := .a)).1 .modes (by decide)
  have clk : (endAllSessions 4 s).clk = s.clk := (endAllSessions_only (l := .a)).1 .clk (by decide)
  simp [toIdle, startTransition, modes, clk]

/-- The sleep sequence ends in BACKUP with PWR_EN low, the active lane noted and SAFE_N floating (R63). -/
theorem sleepSequence_sleeps {l s} (h : activeLane s = some l) :
    (sleepSequence s).modes.mode = .backup ∧ (sleepSequence s).bk.pwrEn = false ∧ (sleepSequence s).bk.lastActive = some l ∧
    (sleepSequence s).jct.safeN = .hiZ := by
  have flushed : ∀ k t, (flushLane k t).modes = t.modes := fun k t => (flushLane_only (l := k)).1 .modes (by decide)
  have backup : (goMode .backup s).modes.mode = .backup := congrArg ModeUnit.mode (enterMode_modes (m := .backup))
  unfold sleepSequence
  rw [h]
  refine ⟨?_, rfl, rfl, rfl⟩
  dsimp only [modJct_modes, modeResult, modModes_modes, modBk_modes]
  split <;> simp only [flushed, backup]

/-! ## The request for RUN (R57) -/

theorem requestRun_defaults {s} (hf : s.sets.flags.getLsbD 0 = true) : requestRun s = modeResult 2 s := if_pos hf

theorem requestRun_metrology {s} (hf : s.sets.flags.getLsbD 0 = false) (hr : metroReady s = false) :
    requestRun s = modeResult 3 s := by
  simp only [requestRun, hf, hr, Bool.false_eq_true, if_false, if_true]

theorem requestRun_starts {s} (hf : s.sets.flags.getLsbD 0 = false) (hr : metroReady s = true) :
    requestRun s = startTransition (if laneCount s = 2 then .run else .degraded) (shareLen s) s := by
  simp only [requestRun, hf, hr, Bool.false_eq_true, Bool.true_eq_false, if_false]

/-! ## The write of a request (R56) -/

theorem modeRequestEffect_waits {s} {v : U8} (hs : s.modes.mode ≠ .safe) (hv : v ∈ requestCodes) :
    (modeRequestEffect v s).modes =
      { s.modes with requested := v, waiting := some v, result := if s.modes.waiting.isSome then 5 else 6 } := by
  simp [modeRequestEffect, hs, hv]

theorem modeRequestEffect_refused {s} {v : U8} (h : s.modes.mode = .safe ∨ v ∉ requestCodes) :
    (modeRequestEffect v s).modes = { s.modes with result := 1 } := by
  simp [modeRequestEffect, modeResult, h]

/-- A permitted write waits for its boundary, and is acknowledged. -/
theorem modeRequestWrite_waits {s} {v : U8} (ha : (activeLane s).isSome = true) (hb : s.modes.mode ≠ .boot)
    (hk : s.modes.mode ≠ .backup) (hs : s.modes.mode ≠ .safe) (hv : v ∈ ([1, 2, 3, 5, 6, 7] : List U8)) :
    Completes (.modeRequestWrite v) s fun t =>
      t.modes = { s.modes with requested := v, waiting := some v, result := if s.modes.waiting.isSome then 5 else 6 } ∧
      t.comm.response = some (0, []) := by
  have comm : (modeRequestEffect v (respond 0 [] s)).comm = (respond 0 [] s).comm := (modeRequestEffect_only (l := .a)).1 .comm (by decide)
  refine .of rfl ?_
  rw [hostWrite_permitted ha (safeWritable_of hb hk), comm]
  exact ⟨modeRequestEffect_waits (s := respond 0 [] s) hs hv, rfl⟩

/-- A write in SAFE, or of a code that names no request, is refused. -/
theorem modeRequestWrite_refused {s} {v : U8} (ha : (activeLane s).isSome = true)
    (h : s.modes.mode = .safe ∨ (v ∉ ([1, 2, 3, 5, 6, 7] : List U8) ∧ s.modes.mode ≠ .boot ∧ s.modes.mode ≠ .backup)) :
    Completes (.modeRequestWrite v) s fun t => t.modes = { s.modes with result := 1 } := by
  have permitted : safeWritable s = true := by
    rcases h with hs | ⟨-, hb, hk⟩
    · exact safeWritable_of (by simp [hs]) (by simp [hs])
    · exact safeWritable_of hb hk
  refine .of rfl ?_
  rw [hostWrite_permitted ha permitted]
  exact modeRequestEffect_refused (s := respond 0 [] s) (h.imp_right And.left)

/-! ## The request that is taken (R57, R58, Table 3.3) -/

/-- No request waits any more. -/
def requestTaken (s : State) : State := modModes (fun m => { m with waiting := none }) s

/-- The pairs of Table 3.3 without a transition: v names another mode to which no way leads from m. -/
def NoTransition (m : Mode) (v : U8) : Prop :=
  (m = .commission ∧ (v = 3 ∨ v = 6 ∨ v = 7)) ∨ (m = .run ∧ (v = 1 ∨ v = 6 ∨ v = 7)) ∨
  (m = .degraded ∧ (v = 1 ∨ v = 3 ∨ v = 6 ∨ v = 7)) ∨ (m = .service ∧ (v = 1 ∨ v = 3 ∨ v = 7))

theorem modeRequestTaken_stands {s} (h : s.modes.waiting = none ∨ mayTake s = false) :
    Completes .modeRequestTaken s fun t => t = s := by
  refine .of rfl ?_
  unfold modeRequestTakenEffect
  split
  · rfl
  case _ v hv => rw [h.resolve_left (by simp [hv])]; rfl

/-! ### Its row of Table 3.3 -/

section
variable {s : State} {v : U8}

theorem evalRequest_present (h : v = s.modes.mode.code ∨ underWay v s = true) : evalRequest v s = modeResult 0 s := if_pos h

theorem Mode.eq_safe_of_code {m : Mode} : m.code = 5 → m = .safe := by cases m <;> decide

/-- A request for another mode than m is neither for the present one nor for the one under way. -/
theorem not_present_or_underWay {m} (hu : underWay v s = false) (hm : s.modes.mode = m) (hc : v ≠ m.code) :
    ¬ (v = s.modes.mode.code ∨ underWay v s = true) := by
  rw [hm, hu]
  exact fun h => h.elim hc nofun

variable (hu : underWay v s = false)
include hu

theorem evalRequest_safe (hv : v = 5) (hm : s.modes.mode ≠ .safe) : evalRequest v s = takeSafe 1 (modeResult 0 s) := by
  subst hv
  unfold evalRequest
  rw [if_neg (not_present_or_underWay hu rfl fun h => hm (Mode.eq_safe_of_code h.symm)), if_pos rfl]

theorem evalRequest_idle_block (hm : s.modes.mode = .idle) (hv : v = 1 ∨ v = 6) :
    evalRequest v s = startTransition (if v = 1 then .commission else .service) (shareLen s) s := by
  rcases hv with rfl | rfl <;> rw [evalRequest, if_neg (not_present_or_underWay hu hm (by decide)), hm] <;> rfl

theorem evalRequest_idle_run (hm : s.modes.mode = .idle) (hv : v = 3) : evalRequest v s = requestRun s := by
  subst hv
  rw [evalRequest, if_neg (not_present_or_underWay hu hm (by decide)), hm]
  rfl

theorem evalRequest_idle_backup (hm : s.modes.mode = .idle) (hv : v = 7) : evalRequest v s = sleepSequence s := by
  subst hv
  rw [evalRequest, if_neg (not_present_or_underWay hu hm (by decide)), hm]
  rfl

theorem evalRequest_power_idle (hm : s.modes.mode = .run ∨ s.modes.mode = .degraded) (hv : v = 2) : evalRequest v s = toIdle s := by
  subst hv
  rcases hm with hm | hm <;> rw [evalRequest, if_neg (not_present_or_underWay hu hm (by decide)), hm] <;> rfl

theorem evalRequest_commission_idle (hm : s.modes.mode = .commission) (hv : v = 2) (hc : cfgB s 0x2010 6 = true) :
    evalRequest v s = toIdle s := by
  subst hv
  rw [evalRequest, if_neg (not_present_or_underWay hu hm (by decide)), hm]
  exact if_pos hc

theorem evalRequest_commission_stays (hm : s.modes.mode = .commission) (hv : v = 2) (hc : cfgB s 0x2010 6 = false) :
    evalRequest v s = modeResult 4 s := by
  subst hv
  rw [evalRequest, if_neg (not_present_or_underWay hu hm (by decide)), hm]
  exact if_neg (ne_true_of_eq_false hc)

theorem evalRequest_service_idle (hm : s.modes.mode = .service) (hv : v = 2) :
    evalRequest v s = startTransition .idle (shareLen s) s := by
  subst hv
  rw [evalRequest, if_neg (not_present_or_underWay hu hm (by decide)), hm]
  rfl

theorem evalRequest_refused (h : NoTransition s.modes.mode v) : evalRequest v s = modeResult 1 s := by
  rcases h with ⟨hm, rfl | rfl | rfl⟩ | ⟨hm, rfl | rfl | rfl⟩ | ⟨hm, rfl | rfl | rfl | rfl⟩ | ⟨hm, rfl | rfl | rfl⟩ <;>
    rw [evalRequest, if_neg (not_present_or_underWay hu hm (by decide)), hm] <;> rfl

end

/-- A request that may be taken is evaluated with nothing waiting. -/
theorem modeRequestTaken_evaluates {s v} {P : State → Prop} (hw : s.modes.waiting = some v) (ht : mayTake s = true)
    (h : P (evalRequest v (requestTaken s))) : Completes .modeRequestTaken s P := by
  have run : modeRequestTakenEffect s = evalRequest v (requestTaken s) := by
    simp only [modeRequestTakenEffect, hw, ht, if_true]
    rfl
  exact .of rfl (run ▸ h)

/-- A request for the present mode, or for the one under way, changes no mode. -/
theorem modeRequestTaken_present {s v} (hw : s.modes.waiting = some v) (ht : mayTake s = true)
    (h : v = s.modes.mode.code ∨ underWay v s = true) : Completes .modeRequestTaken s fun t =>
    t.modes = { s.modes with waiting := none, result := 0 } :=
  modeRequestTaken_evaluates hw ht (congrArg State.modes (evalRequest_present (s := requestTaken s) h))

section
variable {s : State} {v : U8} (hw : s.modes.waiting = some v) (ht : mayTake s = true) (hu : underWay v s = false)
include hw ht hu

/-- A request for SAFE starts its sequence in the running period (R60). -/
theorem modeRequestTaken_safe (hv : v = 5) (hm : s.modes.mode = .commission ∨ s.modes.mode = .idle ∨ s.modes.mode = .run ∨
    s.modes.mode = .degraded ∨ s.modes.mode = .service) : Completes .modeRequestTaken s fun t =>
    t.modes.mode = .safe ∧ t.modes.safeCause = 1 ∧ t.modes.result = 0 ∧
    ∃ q, t.modes.safe = some q ∧ q.cause = 1 ∧ q.k = s.clk.period ∧ q.t = msPeriods s (cfgN s 0x2010 9) := by
  have out : s.modes.mode ≠ .boot ∧ s.modes.mode ≠ .backup ∧ s.modes.mode ≠ .safe := by
    rcases hm with hm | hm | hm | hm | hm <;> simp [hm]
  obtain ⟨hb, hk, hs⟩ := out
  refine modeRequestTaken_evaluates hw ht ?_
  rw [evalRequest_safe (s := requestTaken s) hu hv hs, takeSafe_modes (s := modeResult 0 (requestTaken s)) hb hk hs]
  exact ⟨rfl, rfl, rfl, _, rfl, rfl, rfl, rfl⟩

theorem modeRequestTaken_idle_block (hm : s.modes.mode = .idle) (hv : v = 1 ∨ v = 6) : Completes .modeRequestTaken s fun t =>
    t.modes = { s.modes with
      waiting := none, result := 0, pending := some (if v = 1 then .commission else .service, s.clk.period + shareLen s) } :=
  modeRequestTaken_evaluates hw ht (congrArg State.modes (evalRequest_idle_block (s := requestTaken s) hu hm hv))

theorem modeRequestTaken_run_defaults (hm : s.modes.mode = .idle) (hv : v = 3) (hf : s.sets.flags.getLsbD 0 = true) :
    Completes .modeRequestTaken s fun t => t.modes = { s.modes with waiting := none, result := 2 } := by
  refine modeRequestTaken_evaluates hw ht ?_
  rw [evalRequest_idle_run (s := requestTaken s) hu hm hv, requestRun_defaults (s := requestTaken s) hf]
  rfl

theorem modeRequestTaken_run_metrology (hm : s.modes.mode = .idle) (hv : v = 3) (hf : s.sets.flags.getLsbD 0 = false)
    (hr : metroReady s = false) :
    Completes .modeRequestTaken s fun t => t.modes = { s.modes with waiting := none, result := 3 } := by
  refine modeRequestTaken_evaluates hw ht ?_
  rw [evalRequest_idle_run (s := requestTaken s) hu hm hv, requestRun_metrology (s := requestTaken s) hf hr]
  rfl

theorem modeRequestTaken_run (hm : s.modes.mode = .idle) (hv : v = 3) (hf : s.sets.flags.getLsbD 0 = false) (hr : metroReady s = true) :
    Completes .modeRequestTaken s fun t => t.modes = { s.modes with
      waiting := none, result := 0, pending := some (if laneCount s = 2 then .run else .degraded, s.clk.period + shareLen s) } := by
  refine modeRequestTaken_evaluates hw ht ?_
  rw [evalRequest_idle_run (s := requestTaken s) hu hm hv, requestRun_starts (s := requestTaken s) hf hr]
  rfl

theorem modeRequestTaken_power_idle (hm : s.modes.mode = .run ∨ s.modes.mode = .degraded) (hv : v = 2) :
    Completes .modeRequestTaken s fun t => t.modes =
      { s.modes with waiting := none, result := 0, pending := some (.idle, s.clk.period + msPeriods s 2000) } := by
  refine modeRequestTaken_evaluates hw ht ?_
  rw [evalRequest_power_idle (s := requestTaken s) hu hm hv, toIdle_modes]
  rfl

theorem modeRequestTaken_commission_idle (hm : s.modes.mode = .commission) (hv : v = 2) (hc : cfgB s 0x2010 6 = true) :
    Completes .modeRequestTaken s fun t => t.modes =
      { s.modes with waiting := none, result := 0, pending := some (.idle, s.clk.period + msPeriods s 2000) } := by
  refine modeRequestTaken_evaluates hw ht ?_
  rw [evalRequest_commission_idle (s := requestTaken s) hu hm hv hc, toIdle_modes]
  rfl

theorem modeRequestTaken_commission_stays (hm : s.modes.mode = .commission) (hv : v = 2) (hc : cfgB s 0x2010 6 = false) :
    Completes .modeRequestTaken s fun t => t.modes = { s.modes with waiting := none, result := 4 } :=
  modeRequestTaken_evaluates hw ht (congrArg State.modes (evalRequest_commission_stays (s := requestTaken s) hu hm hv hc))

theorem modeRequestTaken_service_idle (hm : s.modes.mode = .service) (hv : v = 2) : Completes .modeRequestTaken s fun t =>
    t.modes = { s.modes with waiting := none, result := 0, pending := some (.idle, s.clk.period + shareLen s) } :=
  modeRequestTaken_evaluates hw ht (congrArg State.modes (evalRequest_service_idle (s := requestTaken s) hu hm hv))

theorem modeRequestTaken_refused (h : NoTransition s.modes.mode v) :
    Completes .modeRequestTaken s fun t => t.modes = { s.modes with waiting := none, result := 1 } :=
  modeRequestTaken_evaluates hw ht (congrArg State.modes (evalRequest_refused (s := requestTaken s) hu h))

/-- From IDLE the device goes to sleep (R63). -/
theorem modeRequestTaken_backup {l} (hm : s.modes.mode = .idle) (hv : v = 7) (ha : activeLane s = some l) :
    Completes .modeRequestTaken s fun t =>
      t.modes.mode = .backup ∧ t.bk.pwrEn = false ∧ t.bk.lastActive = some l ∧ t.jct.safeN = .hiZ := by
  refine modeRequestTaken_evaluates hw ht ?_
  rw [evalRequest_idle_backup (s := requestTaken s) hu hm hv]
  exact sleepSequence_sleeps (s := requestTaken s) ha

end

/-! ## The reset request (R62) -/

/-- Another value than the key is ignored. -/
theorem resetRequest_ignored {s} {v : U32} (hv : v ≠ 0x0000A55A) :
    Completes (.resetRequest v) s fun t => t.modes = s.modes ∧ t.bk = s.bk := by
  refine .of rfl ?_
  unfold hostWrite resetRequestEffect
  rw [if_pos hv]
  split
  · exact ⟨rfl, rfl⟩
  · split <;> exact ⟨rfl, rfl⟩

/-- In SAFE the key resets at once. -/
theorem resetRequest_resets {s} (ha : (activeLane s).isSome = true) (hs : s.modes.mode = .safe) :
    Completes (.resetRequest 0x0000A55A) s fun t => t.modes.mode = .boot ∧ t.rails.inReset = true ∧ t.bk.lastReset = 7 := by
  have run : resetRequestEffect 0x0000A55A (respond 0 [] s) = plainReset 7 (safeExit (respond 0 [] s)) := by
    rw [resetRequestEffect, if_neg (not_not.2 rfl), if_pos (show (respond 0 [] s).modes.mode = .safe from hs)]
  obtain ⟨boot, held, cause, -⟩ := plainReset_safeExit (c := 7) (s := respond 0 [] s)
  refine .of rfl ?_
  rw [hostWrite_permitted ha (safeWritable_of (by simp [hs]) (by simp [hs])), run]
  exact ⟨boot, held, cause⟩

/-- Elsewhere it takes SAFE, and the reset waits for its sequence. -/
theorem resetRequest_takesSafe {s} (ha : (activeLane s).isSome = true) (hb : s.modes.mode ≠ .boot) (hk : s.modes.mode ≠ .backup)
    (hs : s.modes.mode ≠ .safe) : Completes (.resetRequest 0x0000A55A) s fun t =>
    t.modes.mode = .safe ∧ t.modes.safeCause = 1 ∧ t.modes.resetAfter = true := by
  have run : resetRequestEffect 0x0000A55A (respond 0 [] s) =
      modModes (fun m => { m with resetAfter := true }) (takeSafe 1 (respond 0 [] s)) := by
    rw [resetRequestEffect, if_neg (not_not.2 rfl), if_neg (show (respond 0 [] s).modes.mode ≠ .safe from hs)]
  obtain ⟨safe, cause, -⟩ := takeSafe_entered (c := 1) (s := respond 0 [] s) hb hk hs
  refine .of rfl ?_
  rw [hostWrite_permitted ha (safeWritable_of hb hk), run]
  exact ⟨safe, cause, rfl⟩

/-- Settles O22, clause by clause: the write of a request, its refusal, its row of Table 3.3, and the reset request. -/
theorem modeRequests : Obligations.ModeRequests :=
  ⟨fun _ _ => modeRequestWrite_waits, fun _ _ => modeRequestWrite_refused, fun _ => modeRequestTaken_stands,
    fun _ _ => modeRequestTaken_present,
    fun _ _ hw ht hu => ⟨modeRequestTaken_safe hw ht hu, modeRequestTaken_idle_block hw ht hu, modeRequestTaken_run_defaults hw ht hu,
      modeRequestTaken_run_metrology hw ht hu, modeRequestTaken_run hw ht hu, modeRequestTaken_power_idle hw ht hu,
      modeRequestTaken_commission_idle hw ht hu, modeRequestTaken_service_idle hw ht hu, modeRequestTaken_commission_stays hw ht hu,
      modeRequestTaken_refused hw ht hu, fun _ => modeRequestTaken_backup hw ht hu⟩,
    fun _ _ _ => resetRequest_ignored, fun _ => resetRequest_resets, fun _ => resetRequest_takesSafe⟩

end Sys2Proof.Machine
end

section
/-! PROOF. The SAFE sequence: its entry, the end of its ramp, SAFE_N, and the reset-cause latches (R59-R61, R69, R141). -/

namespace Sys2Proof.Machine
set_option Elab.async false

/-! ## Every loop of a lane changed -/

theorem mem_allLoops (i : LoopId) : i ∈ allLoops := by cases i <;> simp [allLoops]

theorem allLoops_nodup : allLoops.Nodup := by
  have bays : ((List.finRange 24).map LoopId.bay).Nodup := (List.nodup_finRange 24).map fun _ _ => LoopId.bay.inj
  have modules : ((List.finRange 96).map LoopId.module).Nodup := (List.nodup_finRange 96).map fun _ _ => LoopId.module.inj
  have strings : ((List.finRange 8).map LoopId.string).Nodup := (List.nodup_finRange 8).map fun _ _ => LoopId.string.inj
  have slows : ((List.finRange 15).map LoopId.slow).Nodup := (List.nodup_finRange 15).map fun _ _ => LoopId.slow.inj
  simp [allLoops, List.nodup_append, or_imp, forall_and, bays, modules, strings, slows]

/-- A run over other loops leaves loop i. -/
theorem LaneState.loop_foldl_modLoop_ne {f : LoopId → Loop → Loop} {is : List LoopId} {x : LaneState} {i} (h : i ∉ is) :
    (is.foldl (fun y j => y.modLoop j (f j)) x).loop i = x.loop i := by
  induction is generalizing x with
  | nil => rfl
  | cons j js ih =>
    obtain ⟨ne, rest⟩ := not_or.1 (mt List.mem_cons.2 h)
    exact (ih rest).trans (LaneState.loop_modLoop_ne ne)

/-- A run over loops that meets i once changes it once. -/
theorem LaneShape.loop_foldl_modLoop {f : LoopId → Loop → Loop} {is : List LoopId} {x : LaneState} {i} (h : LaneShape x)
    (once : is.Nodup) (hi : i ∈ is) : (is.foldl (fun y j => y.modLoop j (f j)) x).loop i = f i (x.loop i) := by
  induction is generalizing x with
  | nil => exact absurd hi List.not_mem_nil
  | cons j js ih =>
    obtain ⟨fresh, rest⟩ := List.nodup_cons.1 once
    rw [List.foldl_cons]
    rcases List.mem_cons.1 hi with rfl | hi
    · rw [LaneState.loop_foldl_modLoop_ne fresh, h.loop_modLoop]
    · have ne : i ≠ j := fun e => fresh (e ▸ hi)
      rw [ih (h.modLoop j (f j)) rest hi, LaneState.loop_modLoop_ne ne]

theorem LaneShape.loop_mapLoops {f : LoopId → Loop → Loop} {x : LaneState} (h : LaneShape x) (i : LoopId) :
    (x.mapLoops f).loop i = f i (x.loop i) := h.loop_foldl_modLoop allLoops_nodup (mem_allLoops i)

@[simp] theorem modJct_lane {f s l} : (modJct f s).lane l = s.lane l := by cases l <;> rfl

@[simp] theorem modModes_lane {f s l} : (modModes f s).lane l = s.lane l := by cases l <;> rfl

/-! ## Entry (R59, R61) -/

/-- Causes 5 and 6 drive SAFE_N low at once. -/
theorem takeSafe_uncontrolled {c s} (hb : s.modes.mode ≠ .boot) (hk : s.modes.mode ≠ .backup) (hs : s.modes.mode ≠ .safe)
    (hc : c = 5 ∨ c = 6) : (takeSafe c s).jct.safeN = .low := by
  simp only [takeSafe, hb, hk, hs, or_self, if_false, if_pos hc]

/-- A power-fail drives it low 20 periods later. -/
theorem takeSafe_powerFail {s} (hb : s.modes.mode ≠ .boot) (hk : s.modes.mode ≠ .backup) (hs : s.modes.mode ≠ .safe) :
    (takeSafe 4 s).jct.safeDue = some (s.clk.period + 20) := by
  have clk : ∀ u, (enterMode .safe u).clk = u.clk := fun _ => (enterMode_only (l := .a)).1 .clk (by decide)
  simp [takeSafe, hb, hk, hs, clk]

/-- Where SAFE may not be taken, only cause 5 acts, and in SAFE alone. -/
theorem takeSafe_ignored {c s} (h : (s.modes.mode = .safe ∧ c ≠ 5) ∨ s.modes.mode = .boot ∨ s.modes.mode = .backup) :
    takeSafe c s = s := by
  unfold takeSafe
  rcases h with ⟨hs, hc⟩ | h
  · rw [if_neg (by simp [hs]), if_pos hs, if_neg fun k => hc k.1]
  · exact if_pos h

theorem takeSafe_again {s} (hs : s.modes.mode = .safe) (hl : s.jct.lost = false) :
    takeSafe 5 s = { s with jct := { s.jct with safeN := .low } } := by
  simp [takeSafe, hs, hl]

theorem safeEntry_holds {s c} {P : State → Prop} (h : safeCauseHolds s c.toNat = true) (hp : P (takeSafe c s)) :
    Completes (.safeEntry c) s P := .of (congrArg Host.Outcome.next (if_pos h)) hp

theorem safeEntry_noCause {s} {c : U8} (h : safeCauseHolds s c.toNat = false) : Completes (.safeEntry c) s fun t => t = s :=
  .of rfl (if_neg (ne_true_of_eq_false h))

theorem safeEntry_enters {s} {c : U8} (h : safeCauseHolds s c.toNat = true) (hs : s.modes.mode ≠ .safe) (hb : s.modes.mode ≠ .boot)
    (hk : s.modes.mode ≠ .backup) : Completes (.safeEntry c) s fun t =>
    t.modes.mode = .safe ∧ t.modes.safeCause = c ∧ t.modes.pending = none ∧ t.modes.waiting = none ∧
    (c = 5 ∨ c = 6 → t.jct.safeN = .low) ∧
    (c = 4 → t.jct.safeDue = some (s.clk.period + 20) ∧ ∃ q, t.modes.safe = some q ∧ q.t = 16) := by
  refine safeEntry_holds h ?_
  rw [takeSafe_modes hb hk hs]
  refine ⟨rfl, rfl, rfl, rfl, takeSafe_uncontrolled hb hk hs, ?_⟩
  rintro rfl
  exact ⟨takeSafe_powerFail hb hk hs, _, rfl, rfl⟩

theorem safeEntry_ignored {s} {c : U8} (h : (s.modes.mode = .safe ∧ c ≠ 5) ∨ s.modes.mode = .boot ∨ s.modes.mode = .backup) :
    Completes (.safeEntry c) s fun t => t = s := by
  refine .of rfl ?_
  rw [takeSafe_ignored h, ite_self]

/-- Cause 5 also ends the ramp of another cause. -/
theorem safeEntry_again {s} (h : safeCauseHolds s 5 = true) (hs : s.modes.mode = .safe) (hl : s.jct.lost = false) :
    Completes (.safeEntry 5) s fun t => t = { s with jct := { s.jct with safeN := .low } } :=
  safeEntry_holds h (takeSafe_again hs hl)

/-! ## The end of the ramp (R60, R141) -/

/-- The ramp has ended: the loops that ramped are OFF. -/
def rampEnded (s : State) : State := bothLanes (LaneState.mapLoops rampOff) (modModes (fun m => { m with safe := none }) s)

/-- T + 1 periods after the cause the ramp ends; SAFE_N is due 10 ms later where it was not due before. -/
theorem safeRampEndEffect_ends {s q} (hq : s.modes.safe = some q) (hm : s.modes.mode = .safe) (hp : q.k + q.t + 1 ≤ s.clk.period) :
    safeRampEndEffect s = if q.cause = 4 ∨ q.cause = 5 ∨ q.cause = 6 then rampEnded s
      else modJct (fun j => { j with safeDue := some (s.clk.period + msPeriods s 10) }) (rampEnded s) := by
  simp only [safeRampEndEffect, hq, hm, hp, and_self, if_true]
  rfl

theorem rampOff_ramp {i p} (h : p.st = .ramp) :
    rampOff i p = { p with st := .off, nextSt := none, zeroDue := true, rampStep := { m := 0, e := 0, inv := false } } := if_pos (.inl h)

/-- A bay loop that ramped is OFF, and its zero is due. -/
theorem rampEnded_bay {s l} {i : Fin 24} (h : Shape s) (hr : ((s.lane l).loop (.bay i)).st = .ramp) :
    (((rampEnded s).lane l).loop (.bay i)).st = .off ∧ (((rampEnded s).lane l).loop (.bay i)).zeroDue = true := by
  have loop : ((rampEnded s).lane l).loop (.bay i) = rampOff (.bay i) ((s.lane l).loop (.bay i)) := by
    rw [rampEnded, bothLanes_lane, modModes_lane, (h.lane l).loop_mapLoops]
  rw [loop, rampOff_ramp hr]
  exact ⟨rfl, rfl⟩

theorem safeRampEnd_ends {s q l} (h : Shape s) (hq : s.modes.safe = some q) (hm : s.modes.mode = .safe)
    (hp : q.k + q.t + 1 ≤ s.clk.period) : Completes .safeRampEnd s fun t =>
    (∀ i : Fin 24, ((s.lane l).loop (.bay i)).st = .ramp →
      ((t.lane l).loop (.bay i)).st = .off ∧ ((t.lane l).loop (.bay i)).zeroDue = true) ∧
    t.modes.safe = none ∧ (q.cause = 1 ∨ q.cause = 2 ∨ q.cause = 3 → t.jct.safeDue = some (s.clk.period + msPeriods s 10)) := by
  refine .of rfl ?_
  rw [safeRampEndEffect_ends hq hm hp]
  split
  case isTrue hc =>
    refine ⟨fun _ => rampEnded_bay h, rfl, fun k => ?_⟩
    rcases k with k | k | k <;> simp [k] at hc
  case isFalse =>
    rw [modJct_lane]
    exact ⟨fun _ => rampEnded_bay h, rfl, fun _ => rfl⟩

theorem safeRampEnd_none {s} (h : s.modes.safe = none) : Completes .safeRampEnd s fun t => t = s := by
  refine .of rfl ?_
  simp only [safeRampEndEffect, h]

theorem safeRampEnd_early {s q} (hq : s.modes.safe = some q) (hp : s.clk.period < q.k + q.t + 1) :
    Completes .safeRampEnd s fun t => t = s := by
  refine .of rfl ?_
  simp only [safeRampEndEffect, hq, Nat.not_le.2 hp, and_false, if_false]

/-! ## SAFE_N (R60, R62) -/

/-- When it is due the Junction drives SAFE_N low. -/
def safeNLow (s : State) : State := modJct (fun j => { j with safeN := .low, safeDue := none }) s

theorem safeNAssertEffect_due {s p} (hd : s.jct.safeDue = some p) (hp : p ≤ s.clk.period) (hl : s.jct.lost = false) :
    safeNAssertEffect s = if s.modes.resetAfter then plainReset 7 (safeExit (safeNLow s)) else safeNLow s := by
  simp only [safeNAssertEffect, hd, hp, hl, and_self, if_true]
  rfl

theorem safeNAssert_low {s p} (hd : s.jct.safeDue = some p) (hp : p ≤ s.clk.period) (hl : s.jct.lost = false)
    (hr : s.modes.resetAfter = false) : Completes .safeNAssert s fun t =>
    t = { s with jct := { s.jct with safeN := .low, safeDue := none } } := by
  refine .of rfl ?_
  rw [safeNAssertEffect_due hd hp hl, hr]
  rfl

/-- A reset that waited for the sequence follows. -/
theorem safeNAssert_resets {s p} (hd : s.jct.safeDue = some p) (hp : p ≤ s.clk.period) (hl : s.jct.lost = false)
    (hr : s.modes.resetAfter = true) : Completes .safeNAssert s fun t =>
    t.modes.mode = .boot ∧ t.rails.inReset = true ∧ t.bk.lastReset = 7 := by
  obtain ⟨boot, held, cause, -⟩ := plainReset_safeExit (c := 7) (s := safeNLow s)
  refine .of rfl ?_
  rw [safeNAssertEffect_due hd hp hl, if_pos hr]
  exact ⟨boot, held, cause⟩

theorem safeNAssert_stands {s} (h : s.jct.safeDue = none ∨ s.jct.lost = true) : Completes .safeNAssert s fun t => t = s := by
  refine .of rfl ?_
  unfold safeNAssertEffect
  split
  · rfl
  case _ p hd => rw [if_neg fun k => Bool.noConfusion ((h.resolve_left (by simp [hd])).symm.trans k.2)]

/-! ## The reset-cause latches (R69) -/

theorem resetCauseClear_clears {s m} (ha : (activeLane s).isSome = true) (hb : s.modes.mode ≠ .boot) (hk : s.modes.mode ≠ .backup) :
    Completes (.resetCauseClear m) s fun t => t.bk = { s.bk with resetLatches := s.bk.resetLatches &&& ~~~m } := by
  refine .of rfl ?_
  rw [hostWrite_permitted ha (safeWritable_of hb hk)]
  rfl

/-- Settles O23, clause by clause: entry by its cause, the end of the ramp, SAFE_N and the latches. -/
theorem safeSequence : Obligations.SafeSequence :=
  ⟨fun _ _ => safeEntry_noCause, fun _ _ => safeEntry_enters, fun _ _ => safeEntry_ignored, fun _ => safeEntry_again,
    fun _ _ _ => safeRampEnd_ends, fun _ => safeRampEnd_none, fun _ _ => safeRampEnd_early, fun _ _ => safeNAssert_low,
    fun _ _ => safeNAssert_resets, fun _ => safeNAssert_stands, fun _ _ => resetCauseClear_clears⟩

end Sys2Proof.Machine
end

section
/-! PROOF. The boot sequence: the Junction's step, the steps of a lane, the appointment of the active lane and the two resets of a lane
that does not get there (R64-R67, R70). -/

namespace Sys2Proof.Machine
set_option Elab.async false

/-! ## The Junction's step (R64) -/

theorem junctionBootEffect_stands {r c s} (h : s.modes.mode ≠ .boot ∨ s.rails.inReset = true ∨ s.rails.out.contains .vjct = true) :
    junctionBootEffect r c s = s := by
  refine if_neg ?_
  rintro ⟨hm, hr, hv⟩
  rcases h with h | h | h
  · exact h hm
  · exact nomatch h.symm.trans hr
  · exact nomatch h ▸ hv

/-- Out of reset, and with VJCT in range, the Junction becomes ready or is lost. -/
theorem junctionBootEffect_decides {r c s} (hm : s.modes.mode = .boot) (hr : s.rails.inReset = false)
    (hv : s.rails.out.contains .vjct = false) :
    (junctionBootEffect r c s).jct = { s.jct with lost := !(r && c), ready := r && c, safeN := if r && c then .low else s.jct.safeN } ∧
    (junctionBootEffect r c s).modes = s.modes ∧
    (r = true → c = true → ∀ l, ((junctionBootEffect r c s).lane l).health.jctLost = false) := by
  unfold junctionBootEffect
  rw [if_pos ⟨hm, hr, by simp only [hv, Bool.not_false]⟩]
  dsimp only
  cases hok : r && c with
  | true => exact ⟨rfl, rfl, fun _ _ l => by rw [if_pos rfl, bothLanes_lane]⟩
  | false =>
    refine ⟨rfl, rfl, ?_⟩
    rintro rfl rfl
    exact nomatch hok

/-! ## A lane takes its boot -/

/-- Lane l, failed and released, is BOOTING again. -/
def laneTakesBoot (l : Lane) (s : State) : State := if roleOf s l = .failed then setRole l .booting s else s

theorem laneTakesBoot_only {l s} : Only [.jct] l [] [] s (laneTakesBoot l s) := by
  unfold laneTakesBoot
  exact Only.ite (Only.step Only.refl setRole_only) Only.refl

theorem laneTakesBoot_lane {l m s} : (laneTakesBoot l s).lane m = s.lane m := by
  unfold laneTakesBoot
  split
  · exact setRole_lane
  · rfl

theorem laneTakesBoot_lost {l s} : (laneTakesBoot l s).jct.lost = s.jct.lost := by
  unfold laneTakesBoot setRole
  split
  · exact Junction.modLane_lost _ _ _
  · rfl

theorem activeLane_eq_none {s : State} : activeLane s = none ↔ ∀ l, roleOf s l ≠ .active := by
  unfold activeLane
  constructor
  · intro h l k
    cases l with
    | a =>
      rw [if_pos k] at h
      exact nomatch h
    | b =>
      rw [if_pos k] at h
      split at h
      · exact nomatch h
      · exact nomatch h
  · intro h
    rw [if_neg (h .a), if_neg (h .b)]

/-- No lane becomes active by it. -/
theorem laneTakesBoot_noActive {l s} (h : activeLane s = none) : activeLane (laneTakesBoot l s) = none := by
  unfold laneTakesBoot
  split
  · rw [activeLane_eq_none] at h ⊢
    intro m
    have role : roleOf (setRole l .booting s) m = if m = l then .booting else roleOf s m := by cases l <;> cases m <;> rfl
    rw [role]
    split
    · decide
    · exact h m
  · exact h

/-! ## Steps 2 to 4 of a lane (R64, R65) -/

theorem laneBootEffect_stands {l f s} (h : mayBoot s l = false) : laneBootEffect l f s = s := by
  unfold laneBootEffect
  rw [h]
  rfl

/-- A lane that fails step 2 halts. -/
theorem laneBootEffect_halts {l f s} (hm : mayBoot s l = true) (h2 : f.step2Ok = false) :
    ((laneBootEffect l f s).lane l).ctl.halted = true ∧ ((laneBootEffect l f s).lane l).ctl.bootStep = 0 := by
  have run : laneBootEffect l f s =
      (laneTakesBoot l s).modLane l fun x => { x with ctl := { x.ctl with halted := true, bootStep := 0 } } := by
    simp only [laneBootEffect, hm, h2, Bool.not_true, Bool.not_false, Bool.false_eq_true, if_false, if_true]
    rfl
  rw [run, State.lane_modLane]
  exact ⟨rfl, rfl⟩

/-- Steps 2 and 3 of lane l. -/
def laneAtStep3 (l : Lane) (f : BootFacts) (s : State) : State := bootStep3 l f (bootStep2 l (laneTakesBoot l s))

/-- Steps 2 to 4 of lane l. -/
def laneAtStep4 (l : Lane) (f : BootFacts) (s : State) : State := bootStep4 l f (activateSlot l (laneAtStep3 l f s))

/-- After step 4 a lane recovers, fails at step 5, or goes on to step 7. -/
theorem laneBootEffect_step4 {l f s} (hm : mayBoot s l = true) (h2 : f.step2Ok = true) :
    laneBootEffect l f s =
      if ((laneAtStep4 l f s).lane l).ctl.recovery then laneAtStep4 l f s
      else if !(step5Ok ((laneAtStep4 l f s).lane l) f) then junctionFail l 0 (laneAtStep4 l f s)
      else bootStep7 l f (bootStep6 l (checkRecords l ((laneAtStep4 l f s).modLane l (bootStep5 f)))) := by
  simp only [laneBootEffect, hm, h2, Bool.not_true, Bool.false_eq_true, if_false]
  rfl

/-- No slot whose image fails verifies. -/
theorem chooseSlot_none {f d} (h0 : f.image0Ok = false) (h1 : f.image1Ok = false) : chooseSlot f d = none := by
  have fails : ∀ k, slotVerifies f d k = false := by
    intro k
    simp [slotVerifies, h0, h1]
  simp [chooseSlot, fails]

theorem bootStep4_recovers {l f s} (h : chooseSlot f (s.lane l).slots = none) :
    ((bootStep4 l f s).lane l).ctl = { (s.lane l).ctl with bootStep := 3, recovery := true } := by
  unfold bootStep4
  rw [h]
  exact congrArg LaneState.ctl (State.lane_modLane _ _ _)

/-- A lane with no slot that verifies enters the recovery of the boot ROM. -/
theorem laneBootEffect_recovers {l f s} (hm : mayBoot s l = true) (h2 : f.step2Ok = true) (h0 : f.image0Ok = false)
    (h1 : f.image1Ok = false) :
    ((laneBootEffect l f s).lane l).ctl.recovery = true ∧ ((laneBootEffect l f s).lane l).ctl.bootStep = 3 := by
  have ctl : ((laneAtStep4 l f s).lane l).ctl = _ := bootStep4_recovers (chooseSlot_none h0 h1)
  have recovery : ((laneAtStep4 l f s).lane l).ctl.recovery = true := congrArg LaneCtl.recovery ctl
  rw [laneBootEffect_step4 hm h2, if_pos recovery]
  exact ⟨recovery, congrArg LaneCtl.bootStep ctl⟩

/-! ## The current slot through step 3 (R401) -/

/-- The directory's current slot holds an image. -/
def currentPresent (d : SlotDir) : Prop := (d.slot d.current).present = true

/-- The current slot is not touched where the other is written. -/
theorem currentPresent_modSlot {d : SlotDir} {g} (h : currentPresent d) : currentPresent (d.modSlot (!d.current) g) := by
  unfold currentPresent SlotDir.modSlot SlotDir.slot at *
  cases hc : d.current <;> simpa [hc] using h

theorem modBuf_st {k g} {u : Update} : (u.modBuf k g).st = u.st := by
  unfold Update.modBuf
  split <;> rfl

/-- From s to t a current slot of lane l that holds an image keeps one, and the update sequence stands where it stood. -/
def SlotKept (l : Lane) (s t : State) : Prop :=
  (currentPresent (s.lane l).slots → currentPresent (t.lane l).slots) ∧ t.upd.st = s.upd.st

theorem SlotKept.step {l s t u} (h : SlotKept l s t) (k : SlotKept l t u) : SlotKept l s u := ⟨k.1 ∘ h.1, k.2.trans h.2⟩

theorem SlotKept.same {l s t} (hs : (t.lane l).slots = (s.lane l).slots) (hu : t.upd.st = s.upd.st) : SlotKept l s t :=
  ⟨fun h => hs ▸ h, hu⟩

theorem copyImage_slotKept {l k s} : SlotKept l s (copyImage l k s) := by
  have slots : ((copyImage l k s).lane l).slots =
      (s.lane l).slots.modSlot (!(s.lane l).slots.current) fun _ => slotOfImage (s.upd.buf k).image := by cases l <;> rfl
  have upd : (copyImage l k s).upd = s.upd.modBuf k (Staging.take l) := by cases l <;> rfl
  exact ⟨fun h => slots ▸ currentPresent_modSlot h, by rw [upd, modBuf_st]⟩

theorem rejectImage_slotKept {l k code s} : SlotKept l s (rejectImage l k code s) := by
  have slots : ((rejectImage l k code s).lane l).slots =
      { (s.lane l).slots with reject := put (s.lane l).slots.reject k code } := by cases l <;> rfl
  have upd : (rejectImage l k code s).upd = s.upd.modBuf k fun b => { b with reject := code } := by cases l <;> rfl
  exact ⟨fun h => slots ▸ h, by rw [upd, modBuf_st]⟩

theorem stagingBuffer_slotKept {l readable k s} : SlotKept l s (stagingBuffer l readable k s) := by
  unfold stagingBuffer
  dsimp only
  split
  · split
    · exact copyImage_slotKept
    · exact rejectImage_slotKept
  · exact .same rfl rfl

theorem nandBoot_slotKept {l ok s} : SlotKept l s (nandBoot l ok s) :=
  .same (nandBoot_only.lane .slots (by decide)) (congrArg Update.st ((nandBoot_only (l := l)).1 .upd (by decide)))

theorem eraseRejected_slotKept {l s} : SlotKept l s (eraseRejected s) :=
  .same ((eraseRejected_only (l := l)).lane .slots (by decide)) rfl

theorem bootStep3_slotKept {l f s} : SlotKept l s (bootStep3 l f s) := by
  have buffers : SlotKept l s (stagingBuffer l f.stagingReadable 1 (stagingBuffer l f.stagingReadable 0 (nandBoot l f.nandOk s))) :=
    (nandBoot_slotKept.step stagingBuffer_slotKept).step stagingBuffer_slotKept
  unfold bootStep3
  dsimp only
  split
  · exact buffers.step eraseRejected_slotKept
  · exact buffers

theorem laneAtStep3_slotKept {l f s} : SlotKept l s (laneAtStep3 l f s) := by
  have taken : SlotKept l s (laneTakesBoot l s) :=
    .same (by rw [laneTakesBoot_lane]) (congrArg Update.st ((laneTakesBoot_only (l := l)).1 .upd (by decide)))
  have step2 : ∀ u, SlotKept l u (bootStep2 l u) := fun u =>
    .same (bootStep2_only.lane .slots (by decide)) (congrArg Update.st ((bootStep2_only (l := l)).1 .upd (by decide)))
  exact (taken.step (step2 _)).step bootStep3_slotKept

/-! ## A lane that passes its tests (R64) -/

theorem activateSlot_noSequence {l s} (h : s.upd.st = .none) : activateSlot l s = s := by
  refine if_neg ?_
  simp [h]

theorem chooseSlot_some {f d} (hn : f.nandOk = true) (h0 : f.image0Ok = true) (h1 : f.image1Ok = true) (hp : currentPresent d) :
    ∃ c, chooseSlot f d = some c := by
  have current : slotVerifies f d d.current = true := by
    unfold currentPresent at hp
    simp [slotVerifies, hn, h0, h1, hp]
  unfold chooseSlot
  cases detourDue (d.slot d.current) with
  | false => exact ⟨_, if_pos current⟩
  | true => cases other : slotVerifies f d !d.current <;> simp [other, current]

theorem bootStep4_boots {l f s c} (h : chooseSlot f (s.lane l).slots = some c) :
    ((bootStep4 l f s).lane l).ctl = { (s.lane l).ctl with bootStep := 4 } := by
  unfold bootStep4
  rw [h]
  dsimp only
  split
  · rw [evtLane_only.lane .ctl (by decide)]
    exact congrArg LaneState.ctl (State.lane_modLane _ _ _)
  · exact congrArg LaneState.ctl (State.lane_modLane _ _ _)

theorem bootStep2_ctl {l s} : ((bootStep2 l s).lane l).ctl = { (s.lane l).ctl with bootStep := 2, halted := false } := by
  have life : ((bootLife s).1.lane l).ctl = (s.lane l).ctl := bootLife_only.lane .ctl (by decide)
  unfold bootStep2
  dsimp only
  rw [State.lane_modLane, State.lane_modLane_ne _ _ (Lane.other_ne l).symm, life]

theorem laneAtStep3_ctl {l f s} : ((laneAtStep3 l f s).lane l).ctl = { (s.lane l).ctl with bootStep := 2, halted := false } := by
  unfold laneAtStep3
  rw [bootStep3_only.lane .ctl (by decide), bootStep2_ctl, laneTakesBoot_lane]

/-- No tile failed the test. -/
theorem step5Ok_allPass {x f} (ho : f.otherFail = false) (ht : f.failedTiles = []) : step5Ok x f = true := by
  simp [step5Ok, failedNow, ho, ht]

/-- Before a lane is active, a lane at step 7 reports to a Junction that lives. -/
theorem bootStep7_reports {l f s} (hl : s.jct.lost = false) (ha : activeLane s = none) :
    ((bootStep7 l f s).lane l).ctl =
      { (s.lane l).ctl with bootStep := 7, metroReady := f.metroAnswers && s.met.ctl.st == .ready } ∧
    ((bootStep7 l f s).jct.lane l).reported = true := by
  have built : ∀ v (x : LaneState), (buildLane s { x with ctl := v }).ctl = v := fun _ _ => buildLane_only .ctl (by decide)
  have agree : ∀ g, outcomesDiffer (s.modLane l g) l = false := by
    intro g
    have none : activeLane (s.modLane l g) = none := (activeLane_congr (State.modLane_jct s l g)).trans ha
    simp [outcomesDiffer, none]
  unfold bootStep7
  simp only [State.modLane_jct, hl, agree, Bool.false_eq_true, if_false, modJct_lane, State.lane_modLane, built, modJct_jct,
    Junction.lane_modLane, and_self]

/-- Steps 2 to 6 of a lane leave what its report rests on: the Junction but for the lane's role, and the metrology section. -/
theorem laneBoot_toStep6 {l f s} : Only [.free, .clk, .bk, .sets, .life, .nand, .upd, .recs] l allButRoles [.evq, .ks] (laneTakesBoot l s)
    (bootStep6 l (checkRecords l ((laneAtStep4 l f s).modLane l (bootStep5 f)))) := by
  have step4 : Only [.free, .clk, .bk, .sets, .life, .nand, .upd, .recs] l allButRoles [.evq, .ks] (laneTakesBoot l s)
      (laneAtStep4 l f s) :=
    Only.step (Only.step (Only.step (Only.step Only.refl bootStep2_only) bootStep3_only) activateSlot_only) bootStep4_only
  exact Only.step (Only.step (Only.modLane step4 fun _ => LaneOnly.step LaneOnly.refl bootStep5_only) checkRecords_only) bootStep6_only

/-- A lane that passes its tests before a lane is active reports step 7. -/
theorem laneBootEffect_reports {l f s} (hm : mayBoot s l = true) (h2 : f.step2Ok = true) (hr : (s.lane l).ctl.recovery = false)
    (ho : f.otherFail = false) (ht : f.failedTiles = []) (hn : f.nandOk = true) (h0 : f.image0Ok = true) (h1 : f.image1Ok = true)
    (hp : currentPresent (s.lane l).slots) (hu : s.upd.st = .none) (hl : s.jct.lost = false) (ha : activeLane s = none) :
    ((laneBootEffect l f s).lane l).ctl.bootStep = 7 ∧
    ((laneBootEffect l f s).lane l).ctl.metroReady = (f.metroAnswers && s.met.ctl.st == .ready) ∧
    ((laneBootEffect l f s).jct.lane l).reported = true := by
  obtain ⟨present, sequence⟩ := laneAtStep3_slotKept (l := l) (f := f) (s := s)
  have idle : activateSlot l (laneAtStep3 l f s) = laneAtStep3 l f s := activateSlot_noSequence (sequence.trans hu)
  obtain ⟨c, chosen⟩ := chooseSlot_some hn h0 h1 (present hp)
  have recovery : ((laneAtStep4 l f s).lane l).ctl.recovery = false := by
    unfold laneAtStep4
    rw [idle, bootStep4_boots chosen, laneAtStep3_ctl]
    exact hr
  have kept := laneBoot_toStep6 (l := l) (f := f) (s := s)
  have jct := kept.1 .jct (by decide)
  have met : (bootStep6 l (checkRecords l ((laneAtStep4 l f s).modLane l (bootStep5 f)))).met = s.met :=
    (kept.1 .met (by decide)).trans ((laneTakesBoot_only (l := l)).1 .met (by decide))
  obtain ⟨ctl, reported⟩ := bootStep7_reports (l := l) (f := f) ((congrArg Junction.lost jct).trans (laneTakesBoot_lost.trans hl))
    ((activeLane_congr jct).trans (laneTakesBoot_noActive ha))
  rw [laneBootEffect_step4 hm h2, recovery, step5Ok_allPass ho ht, ← met]
  exact ⟨congrArg LaneCtl.bootStep ctl, congrArg LaneCtl.metroReady ctl, reported⟩

/-! ## The appointment of the active lane (R67) -/

theorem junctionFail_other {l code s} : (junctionFail l.other code s).jct.lane l = s.jct.lane l ∧
    (junctionFail l.other code s).jct.mux = s.jct.mux := by cases l <;> exact ⟨rfl, rfl⟩

/-- Lane l is active and steered, and SAFE_N floats. -/
def laneSteered (l : Lane) (s : State) : State :=
  modJct (fun j => { j with mux := some l, mark := some l, safeN := .hiZ, safeDue := none }) (setRole l .active s)

theorem laneSteered_jct {l s} : ((laneSteered l s).jct.lane l).role = .active ∧ (laneSteered l s).jct.mux = some l := by
  cases l <;> exact ⟨rfl, rfl⟩

/-- The other lane is failed where it reported another outcome of the configuration load. -/
def outcomesAgreed (l : Lane) (o : Nat) (s : State) : State :=
  if hasReported s l.other && (s.lane l.other).ctl.cfgOutcome != o then junctionFail l.other 0 s else s

theorem outcomesAgreed_jct {l o s} : (outcomesAgreed l o s).jct.lane l = s.jct.lane l ∧ (outcomesAgreed l o s).jct.mux = s.jct.mux := by
  unfold outcomesAgreed
  split
  · exact junctionFail_other
  · exact ⟨rfl, rfl⟩

theorem appointed_lastActive {s l} (hb : s.bk.lastActive = some l) (hr : (s.jct.lane l).reported = true) : appointed s = some l := by
  unfold appointed hasReported
  rw [hb]
  exact if_pos hr

/-- An appointment starts the communication in Pre-operational, sends the first messages and enters the mode the configuration decides;
the Junction is as the appointment left it. -/
theorem appointEffect_appoints {s l} (hm : s.modes.mode = .boot) (hr : s.jct.ready = true) (hl : s.jct.lost = false)
    (ha : appointed s = some l) : ∃ u v m,
    u.jct = (outcomesAgreed l (s.lane l).ctl.cfgOutcome (laneSteered l s)).jct ∧ u.comm.nmt = .preOperational ∧
    Only [.free, .bk, .met, .chans, .upd] l [] [] u v ∧ (m = .idle ∨ m = .commission) ∧
    ((s.lane l).ctl.cfgOutcome ≠ 0 → m = .commission) ∧ appointEffect s = recheckSpares (goMode m v) := by
  have runs : ¬ (s.modes.mode ≠ .boot ∨ s.jct.ready = false ∨ s.jct.lost = true) := by simp [hm, hr, hl]
  unfold appointEffect
  rw [if_neg runs, ha]
  refine ⟨_, _, _, ?_, ?_, Only.step (Only.step (Only.step Only.refl eraseRejected_only) nmtFrame_only) firstMessages_only, ?_, ?_, rfl⟩
  · exact State.modLane_jct _ _ _
  · rw [State.modLane_comm]
  · split <;> simp
  · intro ho
    exact if_neg fun k => ho k.1

/-- The entry into IDLE or COMMISSION sends no EMCY message (R76). -/
theorem goMode_enters {m s} (hm : m = .idle ∨ m = .commission) :
    (goMode m s).modes.mode = m ∧ (goMode m s).comm = s.comm ∧ (goMode m s).jct = s.jct := by
  rcases hm with rfl | rfl
  all_goals exact ⟨congrArg ModeUnit.mode enterMode_modes, evt_comm _ _, enterMode_jct⟩

/-- The last-active lane that reported is appointed. -/
theorem activeLaneAppoint_lastActive {s l} (hm : s.modes.mode = .boot) (hr : s.jct.ready = true) (hl : s.jct.lost = false)
    (hb : s.bk.lastActive = some l) (hp : (s.jct.lane l).reported = true) : Completes .activeLaneAppoint s fun t =>
    (t.jct.lane l).role = .active ∧ t.jct.mux = some l ∧ t.comm.nmt = .preOperational ∧
    (t.modes.mode = .idle ∨ t.modes.mode = .commission) ∧ ((s.lane l).ctl.cfgOutcome ≠ 0 → t.modes.mode = .commission) := by
  obtain ⟨u, v, m, jct, nmt, messages, among, outcome, run⟩ := appointEffect_appoints hm hr hl (appointed_lastActive hb hp)
  obtain ⟨mode, comm, junction⟩ := goMode_enters (s := v) among
  obtain ⟨active, steered⟩ := laneSteered_jct (l := l) (s := s)
  obtain ⟨agreed, mux⟩ := outcomesAgreed_jct (l := l) (o := (s.lane l).ctl.cfgOutcome) (s := laneSteered l s)
  have spares := recheckSpares_only (s := goMode m v) (l := l)
  refine .of rfl ?_
  rw [run, spares.1 .jct (by decide), spares.1 .comm (by decide), spares.1 .modes (by decide), mode, comm, junction,
    messages.1 .jct (by decide), messages.1 .comm (by decide), jct, agreed, mux]
  exact ⟨active, steered, nmt, among, outcome⟩

/-- The Junction appoints nobody outside BOOT, before its own step, or lost. -/
theorem activeLaneAppoint_stands {s} (h : s.modes.mode ≠ .boot ∨ s.jct.ready = false ∨ s.jct.lost = true) :
    Completes .activeLaneAppoint s fun t => t = s := .of rfl (if_pos h)

/-! ## Timeouts (R67, R70) -/

theorem laneBootTimeout_stands {s l} (h : roleOf s l ≠ .booting ∨ 7 ≤ (s.lane l).ctl.bootStep) :
    Completes (.laneBootTimeout l) s fun t => t = s := by
  refine .of rfl ?_
  rcases h with h | h
  · simp [laneBootTimeoutEffect, h]
  · simp [laneBootTimeoutEffect, Nat.not_lt.2 h]

theorem junctionFail_resets {l code s} : ((junctionFail l code s).jct.lane l).resets = (s.jct.lane l).resets + 1 ∧
    ((junctionFail l code s).lane l).ctl.bootStep = 0 := by cases l <;> exact ⟨rfl, rfl⟩

theorem setRole_resets {l r s} : ((setRole l r s).jct.lane l).resets = (s.jct.lane l).resets := by cases l <;> rfl

/-- A lane still booting is reset when the other one has reported long ago. -/
theorem laneBootTimeout_resets {s l} (hb : roleOf s l = .booting) (hs : (s.lane l).ctl.bootStep < 7) (hr : (s.lane l).ctl.recovery = false)
    (ho : (s.jct.lane l.other).reported = true) : Completes (.laneBootTimeout l) s fun t =>
    (t.jct.lane l).resets = (s.jct.lane l).resets + 1 ∧ (t.lane l).ctl.bootStep = 0 := by
  have run : laneBootTimeoutEffect l s = laneTakesBoot l (junctionFail l 0 s) := by
    simp only [laneBootTimeoutEffect, hb, hs, hr, hasReported, ho, beq_self_eq_true, decide_true, Bool.not_false, Bool.and_self,
      Bool.true_or, if_true]
    rfl
  have resets : ((laneTakesBoot l (junctionFail l 0 s)).jct.lane l).resets = ((junctionFail l 0 s).jct.lane l).resets := by
    unfold laneTakesBoot
    split
    · exact setRole_resets
    · rfl
  refine .of rfl ?_
  rw [run, laneTakesBoot_lane, resets]
  exact junctionFail_resets

/-- A hung lane is reset alone, and its cause is latched. -/
theorem laneWatchdogExpiry_resets {s l} (h : 2 ≤ (s.lane l).ctl.bootStep) : Completes (.laneWatchdogExpiry l) s fun t =>
    t.lane l = (s.lane l).afterReset ∧ t.lane l.other = s.lane l.other ∧
    t.bk.lastReset = (if l = .a then 8 else 9) ∧
    t.bk.resetLatches = s.bk.resetLatches ||| BitVec.ofNat 16 (2 ^ (if l = .a then 8 else 9)) := by
  have run : laneWatchdogEffect l s = resetLane l (latchCause (if l = .a then 8 else 9) s) := if_neg (Nat.not_lt.2 h)
  refine .of rfl ?_
  rw [run]
  cases l <;> exact ⟨rfl, rfl, rfl, rfl⟩

/-- Settles O24, clause by clause: the Junction's step, a lane's steps, the appointment and the two timeouts. -/
theorem bootCommands : Obligations.BootCommands :=
  ⟨fun _ _ _ hm hr hv => .of rfl (junctionBootEffect_decides hm hr hv), fun _ _ _ h => .of rfl (junctionBootEffect_stands h),
    fun _ _ _ h => .of rfl (laneBootEffect_stands h), fun _ _ _ hm h2 => .of rfl (laneBootEffect_halts hm h2),
    fun _ _ _ hm h2 h0 h1 => .of rfl (laneBootEffect_recovers hm h2 h0 h1),
    fun _ _ _ hm h2 hr ho ht hn h0 h1 hp hu hl ha => .of rfl (laneBootEffect_reports hm h2 hr ho ht hn h0 h1 hp hu hl ha),
    fun _ _ => activeLaneAppoint_lastActive, fun _ => activeLaneAppoint_stands, fun _ _ => laneBootTimeout_stands,
    fun _ _ => laneBootTimeout_resets, fun _ _ => laneWatchdogExpiry_resets⟩

end Sys2Proof.Machine
end

section
/-! PROOF. The object dictionary: the order of its refusals, writes to the sets, to live cells and to kept objects, USDO sessions and UDP
datagrams (R71-R74, R78, R80, R82). -/

namespace Sys2Proof.Machine
set_option Elab.async false

/-! ## The order of the refusals (R74, Table 4.3) -/

/-- An object that a row holds has an index of the tables. -/
theorem indexPresent_of_findRow {i k r} (h : findRow i k = some r) : indexPresent i = true := by
  obtain ⟨p, part, found⟩ := List.exists_of_findSome?_eq_some h
  obtain ⟨-, found⟩ := Option.ite_none_right_eq_some.1 found
  have holds : r.holds i k = true := List.find?_some (p := fun (q : ObjRow) => q.holds i k) found
  exact List.any_eq_true.2
    ⟨r, List.mem_flatMap.2 ⟨p, part, List.mem_of_find?_eq_some found⟩, (Bool.and_eq_true_iff.1 holds).1⟩

theorem writeCode_noIndex {s i k d} (h : indexPresent i = false) : writeCode s i k d = 0x06020000 := by
  simp only [writeCode, h, Bool.not_false, if_true]

theorem writeCode_noSubindex {s i k d} (hi : indexPresent i = true) (h : findRow i k = none) : writeCode s i k d = 0x06090011 := by
  simp only [writeCode, hi, h, Bool.not_true, Bool.false_eq_true, if_false]

theorem writeCode_readOnly {s i k d r} (h : findRow i k = some r) (hr : r.right = .ro ∨ r.right = .const) :
    writeCode s i k d = 0x06010002 := by
  simp only [writeCode, indexPresent_of_findRow h, h, Bool.not_true, Bool.false_eq_true, if_false]
  exact if_pos (hr.imp_right .inl)

/-! ## A write request (R74) -/

/-- Without an active lane nobody answers (R76). -/
theorem writeObject_noLane {s i k d} (h : activeLane s = none) : writeObject i k d s = s := if_pos (Option.isNone_iff_eq_none.2 h)

theorem writeObject_refused {s i k d} (ha : (activeLane s).isSome = true) (hc : writeCode s i k d ≠ 0) :
    writeObject i k d s = respond (writeCode s i k d) [] s := by
  rw [writeObject, Option.isNone_eq_false_iff.2 ha]
  exact if_pos hc

theorem writeObject_permitted {s i k d r} (ha : (activeLane s).isSome = true) (hr : findRow i k = some r) (hc : writeCode s i k d = 0) :
    writeObject i k d s = storeObject r i k d s := by
  simp only [writeObject, Option.isNone_eq_false_iff.2 ha, hr, hc, ne_eq, not_true_eq_false, Bool.false_eq_true, if_false]

/-- An OBJECT_WRITE has the outcome of its write request. -/
theorem objectWrite_of {s} {i : U16} {k : U8} {d t} {P : State → Prop} (run : writeObject i.toNat k.toNat d s = t) (h : P t) :
    Completes (.objectWrite i k d) s P := .of (congrArg Host.Outcome.next run) h

/-- A LIVE_WRITE has it too. -/
theorem liveWrite_of {s} {i : U16} {k : U8} {d t} {P : State → Prop} (run : writeObject i.toNat k.toNat d s = t) (h : P t) :
    Completes (.liveWrite i k d) s P := .of (congrArg Host.Outcome.next run) h

/-! ## Where a permitted write goes (R72, R80, R82) -/

theorem storeObject_set {r i k d s} (h : r.right = .rws) : storeObject r i k d s =
    { s with sets := { s.sets with shadow := setPut s.sets.shadow i k d }, comm := { s.comm with response := some (0, []) } } := by
  simp only [storeObject, h]; rfl

theorem storeObject_live {r i k d s} (h : r.right = .rwl) : storeObject r i k d s = respond 0 [] (liveStore i k (r.clean d) s) := by
  simp only [storeObject, h]

/-- An object whose write acts on no unit takes its own value. -/
theorem storeObject_kept {r i k d s} (h : r.right = .rw ∨ r.right = .wo) (hu : unitWrite i k (r.clean d) s = none) :
    storeObject r i k d s =
    { s with comm := { s.comm with rw := rwStore i k (r.clean d) s.comm.rw, response := some (0, []) } } := by
  rcases h with h | h <;> simp only [storeObject, h, hu] <;> rfl

@[simp] theorem LiveCell.write_key {e v} {c : LiveCell} : (c.write e v).key = c.key := by
  unfold LiveCell.write
  dsimp only
  split <;> rfl

/-- One copy of a written cell holds the value under the epoch. -/
theorem LiveCell.write_copy {e v} {c : LiveCell} :
    ∃ p, ((c.write e v).copyA = some p ∨ (c.write e v).copyB = some p) ∧ p.value = v ∧ p.epoch = e ∧ p.good = true := by
  unfold LiveCell.write
  dsimp only
  split
  · exact ⟨_, .inr rfl, rfl, rfl, rfl⟩
  · exact ⟨_, .inl rfl, rfl, rfl, rfl⟩

/-- After a write the live area holds the value in the cell of its key. -/
theorem writeCell_holds {e key v l} : ∃ c ∈ writeCell e key v l, ∃ p, c.key = key ∧ (c.copyA = some p ∨ c.copyB = some p) ∧
    p.value = v ∧ p.epoch = e ∧ p.good = true := by
  obtain ⟨p, held⟩ := LiveCell.write_copy (e := e) (v := v)
    (c := (l.find? fun c => c.key == key).getD { key := key, copyA := none, copyB := none })
  refine ⟨_, List.mem_cons_self, p, ?_, held⟩
  rw [LiveCell.write_key]
  cases found : l.find? fun c => c.key == key with
  | none => rfl
  | some c => simpa using List.find?_some found

/-- A live value waits for its boundary: nothing of it is in force before. -/
theorem liveWrite_waits {s} {i : U16} {k : U8} {d r} (ha : (activeLane s).isSome = true) (hr : findRow i.toNat k.toNat = some r)
    (hl : r.right = .rwl) (hc : writeCode s i.toNat k.toNat d = 0) : Completes (.liveWrite i k d) s fun t =>
      t.sets.published = s.sets.published ∧ t.sets.active = s.sets.active ∧
      t.sets.unpublished = s.sets.unpublished ++ [(objKey i.toNat k.toNat, r.clean d,
        if s.clk.period + 1 < (s.clk.period / shareLen s + 1) * shareLen s then (s.clk.period / shareLen s + 1) * shareLen s
        else (s.clk.period / shareLen s + 1) * shareLen s + shareLen s)] ∧
      (∃ c ∈ t.sets.live, ∃ p, c.key = objKey i.toNat k.toNat ∧ (c.copyA = some p ∨ c.copyB = some p) ∧ p.value = r.clean d ∧
        p.epoch = s.sets.epoch ∧ p.good = true) ∧ t.comm.response = some (0, []) :=
  liveWrite_of ((writeObject_permitted ha hr hc).trans (storeObject_live hl)) ⟨rfl, rfl, rfl, writeCell_holds, rfl⟩

/-! ## USDO sessions (R74, R79) -/

theorem usdoTimeout_ends {s} {n : Fin 4} (ha : (activeLane s).isSome = true) (hn : n.val < s.comm.sessions.length) :
    Completes (.usdoTimeout n) s fun t =>
      nth t.comm.sessions n = { opened := false, abort := 0x05040000 } ∧ t.comm.response = some (0x05040000, []) :=
  .of (congrArg Host.Outcome.next (if_pos ha)) ⟨nth_put_self _ _ _ hn, rfl⟩

/-! ## UDP datagrams (R78) -/

section
variable {s : State} {d : UdpDatagram} (ha : (activeLane s).isSome = true) (hp : d.port.toNat = cfgN s 0x1FA0 2)
include ha hp

/-- A datagram on the dictionary's port is served by the active lane. -/
theorem udpPort_served : ((activeLane s).isNone || d.port.toNat != cfgN s 0x1FA0 2) = false := by
  rw [Option.isNone_eq_false_iff.2 ha, hp, Bool.false_or, bne_self_eq_false]

theorem udpEffect_foreign (hs : hostAddress s d.source = false) :
    udpEffect d s = { s with comm := { s.comm with dropped := s.comm.dropped + 1 } } := by
  simp only [udpEffect, udpPort_served ha hp, hs, Bool.not_false, Bool.false_eq_true, if_false, if_true]
  rfl

variable (hs : hostAddress s d.source = true) (hh : headerOk d = true)
include hs hh

/-- A request that was answered within the last 2 s is not executed again. -/
theorem udpEffect_repeated {e} (hc : ((freshAnswers s).find? fun e => e.1 == d.source && e.2.1 == d.seq) = some e) :
    udpEffect d s = udpAnswer d (respond e.2.2.2.1 e.2.2.2.2 s) := by
  simp only [udpEffect, udpPort_served ha hp, hs, hh, hc, Bool.not_true, Bool.false_eq_true, if_false]

/-- A new one is executed, and its answer is kept. -/
theorem udpEffect_executed {a} (hc : ((freshAnswers s).find? fun e => e.1 == d.source && e.2.1 == d.seq) = none)
    (hr : (runRequest d.req (modComm (fun c => { c with response := none }) s)).comm.response = some a) :
    udpEffect d s = udpAnswer d (modComm (fun c => { c with cache := freshAnswers s ++ [(d.source, d.seq, s.clk.ns, a)] })
      (runRequest d.req (modComm (fun c => { c with response := none }) s))) := by
  simp only [udpEffect, udpPort_served ha hp, hs, hh, hc, hr, Bool.not_true, Bool.false_eq_true, if_false]

end

/-- A datagram has the outcome of its effect. -/
theorem udpDatagramReceived_of {s d t} {P : State → Prop} (run : udpEffect d s = t) (h : P t) :
    Completes (.udpDatagramReceived d) s P := .of (congrArg Host.Outcome.next run) h

/-- Settles O25, clause by clause: nobody to answer, the refusals in their order, the place of a permitted write, sessions and datagrams. -/
theorem dictionaryCommands : Obligations.DictionaryCommands :=
  ⟨fun _ _ _ _ h => ⟨objectWrite_of (writeObject_noLane h) rfl, liveWrite_of (writeObject_noLane h) rfl⟩,
    fun _ _ _ _ ha hc => objectWrite_of (writeObject_refused ha hc) rfl,
    fun _ _ _ _ => writeCode_noIndex, fun _ _ _ _ => writeCode_noSubindex, fun _ _ _ _ _ => writeCode_readOnly,
    fun _ _ _ _ _ ha hr hs hc => objectWrite_of ((writeObject_permitted ha hr hc).trans (storeObject_set hs)) rfl,
    fun _ _ _ _ _ => liveWrite_waits,
    fun _ _ _ _ _ ha hr hk hc hu => objectWrite_of ((writeObject_permitted ha hr hc).trans (storeObject_kept hk hu)) rfl,
    fun _ _ => usdoTimeout_ends,
    fun _ _ ha hp hs => udpDatagramReceived_of (udpEffect_foreign ha hp hs) rfl,
    fun _ _ _ ha hp hs hh hc => udpDatagramReceived_of (udpEffect_repeated ha hp hs hh hc) rfl,
    fun _ _ _ ha hp hs hh hc hr => udpDatagramReceived_of (udpEffect_executed ha hp hs hh hc hr) rfl⟩

end Sys2Proof.Machine
end

section
/-! PROOF. The CANopen FD profile: NMT, heartbeat, receive and transmit PDOs (R76, R77). -/

namespace Sys2Proof.Machine
set_option Elab.async false

/-! ## NMT and heartbeat (R76) -/

/-- Without an active lane, and in Initialisation, no NMT command is taken. -/
theorem nmt_untaken {s} (h : activeLane s = none ∨ s.comm.nmt = .initialisation) :
    ¬((activeLane s).isSome = true ∧ s.comm.nmt ≠ .initialisation) := by
  rintro ⟨ha, hn⟩
  rcases h with h | h
  · simp [h] at ha
  · exact hn h

theorem nmtGo_stands {n s} (h : activeLane s = none ∨ s.comm.nmt = .initialisation) : nmtGo n s = s := if_neg (nmt_untaken h)

@[simp] theorem modComm_comm {f s} : (modComm f s).comm = f s.comm := rfl

theorem nmtFrame_comm {c s} : (nmtFrame c s).comm = s.comm := (nmtFrame_only (l := .a)).1 .comm (by decide)

/-- A key that a filter of the keys keeps reads what it read before. -/
theorem Store.get_filter {p : Nat → Bool} {st : Store} {k} (h : p k = true) : Store.get (st.filter fun e => p e.1) k = st.get k := by
  have same : (fun e : Nat × List Byte => decide (p e.1 = true ∧ (e.1 == k) = true)) = fun e => e.1 == k := by
    funext e
    by_cases hk : e.1 = k
    · simp [hk, h]
    · simp [hk]
  rw [Store.get, Store.get, List.find?_filter, same]

/-- The values beside the communication profile's own objects outlive its reset. -/
theorem resetComm_rw {s i} (h : 0x2000 ≤ i) : rwN (resetComm s) i 0 = rwN s i 0 := by
  have kept : decide (0x200000 ≤ objKey i 0) = true := decide_eq_true (by unfold objKey; omega)
  unfold rwN rwBytes resetComm
  rw [nmtFrame_comm]
  unfold setBytes
  rw [modComm_comm, Store.get_filter (p := fun key => decide (0x200000 ≤ key)) kept]

section
variable {s : State} (ha : (activeLane s).isSome = true) (hn : s.comm.nmt ≠ .initialisation)
include ha hn

theorem nmtGo_takes {n} : nmtGo n s = { s with comm := { s.comm with nmt := n } } := if_pos ⟨ha, hn⟩

/-- The profile starts again in Pre-operational, and nothing but the profile and the frame it sends is touched. -/
theorem nmtResetCommunication_resets : Completes .nmtResetCommunication s fun t =>
    t.comm.nmt = .preOperational ∧ t.sets = s.sets ∧ t.modes = s.modes ∧ ∀ i, 0x2000 ≤ i → rwN t i 0 = rwN s i 0 := by
  have kept : Only [.comm, .chans] .a [] [] s (resetComm s) := resetComm_only
  exact .of (congrArg Host.Outcome.next (if_pos ⟨ha, hn⟩))
    ⟨congrArg Comm.nmt nmtFrame_comm, kept.1 .sets (by decide), kept.1 .modes (by decide), fun _ => resetComm_rw⟩

theorem heartbeatProduce_counts : Completes .heartbeatProduce s fun t =>
    t.comm.heartbeats = s.comm.heartbeats + (if rwN s 0x1017 0 = 0 then 0 else 1) := by
  refine .of rfl ?_
  by_cases h : rwN s 0x1017 0 = 0
  · rw [heartbeatEffect, if_neg fun k => k.2.2 h, if_pos h]
    exact (BitVec.add_zero _).symm
  · rw [heartbeatEffect, if_pos ⟨ha, hn, h⟩, if_neg h, nmtFrame_comm]
    rfl

end

theorem heartbeatEffect_stands {s} (h : activeLane s = none ∨ s.comm.nmt = .initialisation) : heartbeatEffect s = s :=
  if_neg fun k => nmt_untaken h ⟨k.1, k.2.1⟩

/-! ## Receive PDOs (R77) -/

theorem pdosRun_eq_false {s} (h : s.comm.nmt ≠ .operational) : pdosRun s = false := by simp [pdosRun, h]

theorem rpdoEffect_stands {s n d} (h : s.comm.nmt ≠ .operational) : rpdoEffect n d s = s :=
  if_neg (by simp [pdosRun_eq_false h])

section
variable {s : State} {n : Fin 16} {d : List Byte} {i k : Nat} (hp : pdosRun s = true) (hu : (rpdoId s n).isSome = true)
  (hd : rpdoBytes s n ≤ d.length) (h0 : rwN s (0x1600 + n) 0 = 1) (h1 : rwN s (0x1600 + n) 1 = i * 2 ^ 16 + k * 2 ^ 8 + 32)
  (hi : i ≠ 0) (hk : k < 256)
include hp hu hd h0 h1 hi hk

/-- A PDO that maps one object of 4 bytes writes its first 4 bytes to it. -/
theorem rpdoEffect_one : rpdoEffect n d s = pdoWrite i k (slice d 0 4) s := by
  have index : (i * 2 ^ 16 + k * 2 ^ 8 + 32) / 2 ^ 16 = i := by omega
  have subindex : (i * 2 ^ 16 + k * 2 ^ 8 + 32) / 2 ^ 8 % 256 = k := by omega
  have bytes : (i * 2 ^ 16 + k * 2 ^ 8 + 32) % 256 / 8 = 4 := by omega
  simp only [rpdoEffect, hp, hu, hd, h0, decide_true, Bool.and_self, if_true, pdoParts, h1, index, subindex, bytes,
    List.foldl_cons, List.foldl_nil, hi, if_false]

theorem rpdoReceived_one {P : State → Prop} (h : P (pdoWrite i k (slice d 0 4) s)) : Completes (.rpdoReceived n d) s P :=
  .of (congrArg Host.Outcome.next (rpdoEffect_one hp hu hd h0 h1 hi hk)) h

end

/-- While a swap is pending a live value is discarded and counted. -/
theorem pdoWrite_discarded {i k d r s} (hr : findRow i k = some r) (hl : r.right = .rwl) (hs : s.sets.st = .swapPending) :
    pdoWrite i k d s = { s with sets := { s.sets with nDiscarded := s.sets.nDiscarded + 1 } } := by
  unfold pdoWrite
  exact if_pos (by simp [hr, hl, hs])

/-- Else a write that the checks permit is made; no response is sent. -/
theorem pdoWrite_written {i k d s} (hs : s.sets.st ≠ .swapPending) (hc : writeCode s i k d = 0) :
    pdoWrite i k d s = modComm (fun c => { c with response := s.comm.response }) (writeObject i k d s) := by
  simp only [pdoWrite, beq_eq_false_iff_ne.2 hs, Bool.and_false, Bool.false_eq_true, if_false, hc, if_true]

/-! ## Transmit PDOs (R77) -/

theorem tpdoEffect_stands {s n c} (h : s.comm.nmt ≠ .operational) : tpdoEffect n c s = s :=
  if_pos (by simp [pdosRun_eq_false h])

/-- A transmit PDO that is queued notes the time, and touches nothing else but the channels. -/
theorem tpdoEffect_queues {s n c f} (hp : pdosRun s = true) (hc : dictChannel c = true) (hi : inhibitOver s n = true)
    (hf : tpdoFrame s n c = some f) :
    Only [.chans] .a [] [] (modComm (fun k => { k with tpdoAt := put k.tpdoAt n (some s.clk.ns) }) s) (tpdoEffect n c s) := by
  simp only [tpdoEffect, hp, hc, hi, hf, Bool.and_self, Bool.not_true, Bool.false_eq_true, if_false]
  split
  · exact .ite (.step (.step .refl modChan_only) modChan_only) (.step .refl modChan_only)
  · exact .step .refl modChan_only

theorem tpdoEvent_starts {s} {n : Fin 16} {c : Fin 4} {f} (hp : pdosRun s = true) (hc : dictChannel c = true)
    (hi : inhibitOver s n = true) (hf : tpdoFrame s n c = some f) (hl : s.comm.tpdoAt.length = 16) :
    Completes (.tpdoEvent n c) s fun t => nth t.comm.tpdoAt n = some s.clk.ns ∧ t.clk = s.clk := by
  obtain ⟨same, -, -⟩ := tpdoEffect_queues hp hc hi hf
  have comm := same .comm (by decide)
  refine .of rfl ⟨?_, same .clk (by decide)⟩
  rw [comm]
  exact nth_put_self _ _ _ (by omega)

/-- Settles O26, clause by clause: the NMT commands, the heartbeat, receive PDOs and transmit PDOs. -/
theorem communicationCommands : Obligations.CommunicationCommands :=
  ⟨fun _ ha hn => ⟨.of rfl (nmtGo_takes ha hn), .of rfl (nmtGo_takes ha hn), .of rfl (nmtGo_takes ha hn),
      nmtResetCommunication_resets ha hn⟩,
    fun _ h => ⟨.of rfl (nmtGo_stands h), .of rfl (nmtGo_stands h), .of rfl (nmtGo_stands h), .of rfl (if_neg (nmt_untaken h)),
      .of rfl (heartbeatEffect_stands h)⟩,
    fun _ => heartbeatProduce_counts,
    fun _ _ _ _ h => ⟨.of rfl (rpdoEffect_stands h), .of rfl (tpdoEffect_stands h)⟩,
    fun _ _ _ _ _ _ hp hu hd h0 h1 hi hk hr hl hs => rpdoReceived_one hp hu hd h0 h1 hi hk (pdoWrite_discarded hr hl hs),
    fun _ _ _ _ _ _ hp hu hd h0 h1 hi hk _ hs hc => rpdoReceived_one hp hu hd h0 h1 hi hk (pdoWrite_written hs hc),
    fun _ _ _ _ => tpdoEvent_starts⟩

end Sys2Proof.Machine
end

section
/-! PROOF. The configuration sets: commit, reopen, swap, reload, publication, the flip and the copy (R81-R84, Table 4.8). -/

namespace Sys2Proof.Machine
set_option Elab.async false

@[simp] theorem modSets_sets {f s} : (modSets f s).sets = f s.sets := rfl

@[simp] theorem setResult_sets {r o s} : (setResult r o s).sets = { s.sets with result := r, failing := BitVec.ofNat 32 o } := rfl

/-! ## Commands on object 2200:02 (R81, R83, Table 4.8) -/

/-- A permitted host command has the outcome of its effect. -/
theorem hostWrite_completes {c ok f s} {P : State → Prop} (run : exec c s = .next (hostWrite ok f s)) (hok : ok = true)
    (ha : (activeLane s).isSome = true) (h : P (f (respond 0 [] s))) : Completes c s P :=
  .of (run.trans (congrArg Host.Outcome.next (hostWrite_permitted ha hok))) h

theorem commitEffect_taken {s} (h : s.sets.st = .opened) : (commitEffect s).sets =
    { s.sets with checking := true, computed := setCrc s.sets.shadow, result := 7, failing := 0 } := by
  rw [commitEffect, if_pos h, setResult_sets, modSets_sets]; rfl

theorem commitEffect_refused {s} (h : s.sets.st ≠ .opened) : (commitEffect s).sets = { s.sets with result := 4, failing := 0 } := by
  rw [commitEffect, if_neg h]; rfl

theorem reopenEffect_taken {s} (h : s.sets.st = .committed) : (reopenEffect s).sets =
    { s.sets with st := .opened, swapReq := false, result := 0, failing := 0 } := by
  rw [reopenEffect, if_pos h]; rfl

theorem reopenEffect_refused {s} (h : s.sets.st ≠ .committed) : (reopenEffect s).sets = { s.sets with result := 4, failing := 0 } := by
  rw [reopenEffect, if_neg h]; rfl

theorem swapCommandEffect_taken {s} (h : s.sets.st = .committed) (hq : seqRunning s = false) : (swapCommandEffect s).sets =
    { s.sets with swapReq := true, result := 7, failing := 0 } := by
  rw [swapCommandEffect, if_pos ⟨h, by rw [hq]; rfl⟩]; rfl

theorem swapCommandEffect_refused {s} (h : s.sets.st ≠ .committed) :
    (swapCommandEffect s).sets = { s.sets with result := 4, failing := 0 } := by
  rw [swapCommandEffect, if_neg fun k => h k.1]; rfl

theorem reloadEffect_taken {s} (h : s.sets.st = .opened ∨ s.sets.st = .committed) : (reloadEffect s).sets =
    { s.sets with
      st := .copying, shadow := s.sets.active, checking := false, swapReq := false, shadowOk := false, result := 0, failing := 0 } := by
  rw [reloadEffect, if_pos h]; rfl

theorem reloadEffect_refused {s} (h : s.sets.st = .swapPending ∨ s.sets.st = .copying) :
    (reloadEffect s).sets = { s.sets with result := 4, failing := 0 } := by
  rw [reloadEffect, if_neg (by rcases h with h | h <;> simp [h])]; rfl

/-! ## The end of the commit checks (R81) -/

section
variable {s : State} (hk : s.sets.checking = true) (hs : s.sets.st = .opened) (ha : (activeLane s).isSome = true)
include hk hs ha

theorem commitDoneEffect_commits (h : commitFail { s with sets := { s.sets with checking := false } } = none) :
    (commitDoneEffect s).sets = { s.sets with checking := false, st := .committed, shadowOk := true, result := 0, failing := 0 } := by
  have passed : commitFail (modSets (fun k => { k with checking := false }) s) = none := h
  rw [commitDoneEffect, if_neg (by simp [hk, hs, Option.isNone_eq_false_iff.2 ha])]
  simp only [passed]
  rfl

theorem commitDoneEffect_fails {c o} (h : commitFail { s with sets := { s.sets with checking := false } } = some (c, o)) :
    (commitDoneEffect s).sets = { s.sets with checking := false, result := BitVec.ofNat 8 c, failing := BitVec.ofNat 32 o } := by
  have failed : commitFail (modSets (fun k => { k with checking := false }) s) = some (c, o) := h
  rw [commitDoneEffect, if_neg (by simp [hk, hs, Option.isNone_eq_false_iff.2 ha])]
  simp only [failed]
  rfl

theorem commitChecksComplete_commits (h : commitFail { s with sets := { s.sets with checking := false } } = none) :
    Completes .commitChecksComplete s fun t =>
      t.sets.st = .committed ∧ t.sets.result = 0 ∧ t.sets.checking = false ∧ t.sets.shadow = s.sets.shadow := by
  refine .of rfl ?_
  rw [commitDoneEffect_commits hk hs ha h]
  exact ⟨rfl, rfl, rfl, rfl⟩

theorem commitChecksComplete_fails {c o} (h : commitFail { s with sets := { s.sets with checking := false } } = some (c, o)) :
    Completes .commitChecksComplete s fun t =>
      t.sets.st = .opened ∧ t.sets.result = BitVec.ofNat 8 c ∧ t.sets.failing = BitVec.ofNat 32 o := by
  refine .of rfl ?_
  rw [commitDoneEffect_fails hk hs ha h]
  exact ⟨hs, rfl, rfl⟩

end

theorem commitDoneEffect_stands {s} (h : s.sets.checking = false) : commitDoneEffect s = s := if_pos (.inl (by simp [h]))

/-! ## Publication of live writes (R82) -/

/-- The acknowledged live writes whose boundary has come. -/
def dueWrites (s : State) : List (Nat × List Byte × Nat) := s.sets.unpublished.filter fun w => decide (w.2.2 ≤ s.clk.period)

theorem publishEffect_stands {s} (h : atShare s = false) : publishEffect s = s := if_pos (by simp [h])

/-- At a boundary the due writes come into force, in the order of their acknowledgement. -/
theorem publishEffect_due {s} (ha : atShare s = true) (hd : (dueWrites s).isEmpty = false) : (publishEffect s).sets =
    { s.sets with
      unpublished := s.sets.unpublished.filter fun w => decide (s.clk.period < w.2.2)
      published := (dueWrites s).foldl (fun (st : Store) w => st.set w.1 w.2.1 []) s.sets.published
      nPublished := s.sets.nPublished + BitVec.ofNat 32 (dueWrites s).length
      gens := bumpGens (baysWritten (dueWrites s)) s.sets.gens } := by
  unfold dueWrites at hd
  rw [publishEffect, if_neg (by simp only [ha, hd]; decide)]
  exact (endUnavailable_only (l := .a)).1 .sets (by decide)

theorem liveWritePublish_one {s k v n} (ha : atShare s = true) (hu : s.sets.unpublished = [(k, v, n)]) (hn : n ≤ s.clk.period) :
    Completes .liveWritePublish s fun t =>
      t.sets.unpublished = [] ∧ t.sets.published = s.sets.published.set k v [] ∧ t.sets.nPublished = s.sets.nPublished + 1 := by
  have due : dueWrites s = [(k, v, n)] := by simp [dueWrites, hu, hn]
  refine .of rfl ?_
  rw [publishEffect_due ha (by rw [due]; rfl), due, hu]
  exact ⟨by simp [hn], rfl, rfl⟩

/-! ## The swap checks at their boundary (R83) -/

theorem swapTakenEffect_stands {s} (h : s.sets.swapReq = false ∨ atShare s = false) : swapTakenEffect s = s :=
  if_pos (by rcases h with h | h <;> simp [h])

/-- The request is taken, and what the swap checks found stands in its objects. -/
def swapReported (s : State) : State := reportChecks (swapCheck s) (modSets (fun k => { k with swapReq := false }) s)

theorem swapReported_sets {s} : (swapReported s).sets.swapReq = false ∧ (swapReported s).sets.active = s.sets.active := by
  unfold swapReported reportChecks
  split <;> exact ⟨rfl, rfl⟩

theorem swapReported_clk {s} : (swapReported s).clk = s.clk := (reportChecks_only (l := .a)).1 .clk (by decide)

theorem swapCheck_changed {s} (h : setCrc s.sets.shadow ≠ s.sets.computed) : (swapCheck s).code = 1 :=
  congrArg SwapCheck.code (if_pos h)

section
variable {s : State} (hq : s.sets.swapReq = true) (hs : s.sets.st = .committed) (hb : atShare s = true)
  (ha : (activeLane s).isSome = true) (hx : crossing s = false) (hr : resyncing s = false)
include hq hs hb ha hx hr

/-- Nothing keeps the request waiting, so the checks run. -/
theorem swapTaken_checks :
    (!(s.sets.swapReq && s.sets.st == .committed && atShare s && (activeLane s).isSome) || crossing s || resyncing s) = false := by
  simp [hq, hs, hb, ha, hx, hr]

/-- A shadow set whose CRC has changed since the commit is OPEN again. -/
theorem swapTaken_changed (h : setCrc s.sets.shadow ≠ s.sets.computed) : Completes .swapTaken s fun t =>
    t.sets.st = .opened ∧ t.sets.result = 1 ∧ t.sets.swapReq = false := by
  have run : swapTakenEffect s = modSets (fun k => { k with st := .opened })
      (setResult 1#8 ((swapCheck s).index * 256) (swapReported s)) := by
    simp only [swapTakenEffect, swapTaken_checks hq hs hb ha hx hr, swapCheck_changed h, Bool.false_eq_true, if_false, if_true,
      Nat.one_ne_zero, swapReported]
  refine .of rfl ?_
  rw [run, modSets_sets, setResult_sets]
  exact ⟨rfl, rfl, swapReported_sets.1⟩

/-- A swap that passes waits one share cycle. -/
theorem swapTaken_passes (h : (swapCheck s).code = 0) : Completes .swapTaken s fun t =>
    t.sets.st = .swapPending ∧ t.sets.swapAt = some (s.clk.period + shareLen s) ∧ t.sets.active = s.sets.active := by
  have run : swapTakenEffect s = modSets (fun k => { k with
      st := .swapPending, swapAt := some ((swapReported s).clk.period + shareLen (swapReported s)), swapTries := 0 }) (swapReported s) := by
    simp only [swapTakenEffect, swapTaken_checks hq hs hb ha hx hr, h, Bool.false_eq_true, if_false, if_true, swapReported]
  refine .of rfl ?_
  rw [run, modSets_sets]
  simp only [shareLen, swapReported_clk]
  exact ⟨trivial, trivial, swapReported_sets.2⟩

end

/-! ## The boundary of a pending swap (R83, R84) -/

@[simp] theorem markReady_sets {s} : (markReady s).sets = s.sets := (markReady_only (l := .a)).1 .sets (by decide)

theorem markReady_ready {s l} (hs : s.sets.st = .swapPending) (hl : standbyLane s = some l) :
    ((markReady s).lane l).ctl.swapReady = true := by
  simp [markReady, hl, hs]

theorem missBoundary_refuses {s} (h : 7 ≤ s.sets.swapTries) :
    (missBoundary s).sets = { s.sets with st := .committed, swapAt := none, swapTries := 0, result := 6, failing := 0 } := by
  rw [missBoundary, if_pos (by omega)]; rfl

section
variable {s : State} {b : Nat} (hb : s.sets.swapAt = some b)
include hb

/-- A missed boundary moves the swap to the next one. -/
theorem missBoundary_next (ht : s.sets.swapTries < 7) : missBoundary s =
    { s with sets := { s.sets with swapAt := some (b + shareLen s), swapTries := s.sets.swapTries + 1 } } := by
  rw [missBoundary, if_neg (by omega)]
  simp only [modSets, hb, Option.map_some]

variable (hs : s.sets.st = .swapPending)
include hs

theorem swapReached_eq : swapReached s = decide (b ≤ s.clk.period) := by simp [swapReached, hb, hs]

/-- A standby lane that reports before the boundary is ready for it. -/
theorem swapReadyReport_early {l} (hp : s.clk.period < b) (hl : standbyLane s = some l) : Completes .swapReadyReport s fun t =>
    (t.lane l).ctl.swapReady = true ∧ t.sets = s.sets := by
  have run : swapReadyEffect s = markReady s := by
    simp [swapReadyEffect, swapReached_eq hb hs, Nat.not_le.2 hp]
  refine .of rfl ?_
  rw [run]
  exact ⟨markReady_ready hs hl, markReady_sets⟩

variable (hp : b ≤ s.clk.period) (hr : swapReadyNow s = false)
include hp hr

/-- A report that comes after the boundary has missed it. -/
theorem swapReadyEffect_late : swapReadyEffect s = markReady (missBoundary s) := by
  simp [swapReadyEffect, swapReached_eq hb hs, hp, hr]

theorem swapReadyReport_late (ht : s.sets.swapTries < 7) : Completes .swapReadyReport s fun t =>
    t.sets = { s.sets with swapAt := some (b + shareLen s), swapTries := s.sets.swapTries + 1 } ∧
    (∀ l, standbyLane s = some l → (t.lane l).ctl.swapReady = true) := by
  refine .of rfl ?_
  rw [swapReadyEffect_late hb hs hp hr, missBoundary_next hb ht]
  exact ⟨markReady_sets, fun l hl => markReady_ready hs hl⟩

/-- The eighth missed boundary refuses the swap. -/
theorem swapReadyReport_refuses (ht : 7 ≤ s.sets.swapTries) : Completes .swapReadyReport s fun t =>
    t.sets.st = .committed ∧ t.sets.result = 6 := by
  refine .of rfl ?_
  rw [swapReadyEffect_late hb hs hp hr, markReady_sets, missBoundary_refuses ht]
  exact ⟨rfl, rfl⟩

theorem swapFlip_missed (ha : (activeLane s).isSome = true) (ht : s.sets.swapTries < 7) : Completes .swapFlip s fun t =>
    t = { s with sets := { s.sets with swapAt := some (b + shareLen s), swapTries := s.sets.swapTries + 1 } } :=
  .of (congrArg Host.Outcome.next (if_pos (by simp [swapReached_eq hb hs, hp, hr, ha]))) (missBoundary_next hb ht)

end

/-! ## The flip (R84) -/

theorem swapFlip_stands {s} (hd : flipDue s = false) (h : swapReached s = false ∨ swapReadyNow s = true ∨ activeLane s = none) :
    Completes .swapFlip s fun t => t = s := by
  have run : swapFlipEffect s = s := if_pos (by simp [hd])
  refine .of (congrArg Host.Outcome.next (if_neg (by rcases h with h | h | h <;> simp [h]))) ?_
  rw [run, captureGuard_self]

/-- The image of the active set is archived before the flip. -/
def activeArchived (s : State) : State := archive .configArchive (setImage s.sets.schema s.sets.active) s

theorem activeArchived_sets {s} : (activeArchived s).sets = s.sets := (archive_only (l := .a)).1 .sets (by decide)

/-- The schema the active lane's firmware knows, which the flip takes over. -/
def flipSchema (s : State) : U16 := laneSchema (activeArchived s) ((activeLane (activeArchived s)).getD .a)

/-- The sets are flipped, and nothing in the lanes or the units yet. -/
def setsFlipped (s : State) : State := modSets (flipSets (siteTime (activeArchived s)) (flipSchema s)) (activeArchived s)

/-- All that follows in the lanes and the units leaves the sets. -/
theorem swapFlipEffect_after {s} (h : flipDue s = true) :
    Only [.free, .clk, .met, .veh, .chans, .tri] .a allLane allLane (setsFlipped s) (swapFlipEffect s) := by
  have notReady : ∀ t, Only [.free, .clk, .met, .veh, .chans, .tri] .a allLane allLane t
      (bothLanes (fun x => { x with ctl := (let c := x.ctl; { c with swapReady := false }) }) t) := fun _ =>
    .bothLanes .refl fun _ => .ctl .refl
  have lane : ∀ o n k t, Only [] .a allLane allLane t (if computing t k then t.modLane k (flipLane o n) else t) := fun _ _ _ _ =>
    .ite (.modAny .refl (fun _ => flipLane_only.mono) fun _ => flipLane_only.mono) .refl
  rw [swapFlipEffect, if_neg (by simp [h])]
  refine .step (.step (.step (.step (.step ?lanes flipMeters_only) handCalendar_only) (Only.parts (dev := [.chans, .tri])))
    recheckSpares_only) endUnavailable_only
  exact .step (.step (.step (notReady _) flipTests_only) (lane _ _ .a _)) (lane _ _ .b _)

/-- The flip leaves the sets as `flipSets` makes them. -/
theorem swapFlipEffect_sets {s} (h : flipDue s = true) :
    (captureGuard s (swapFlipEffect s)).sets = flipSets (siteTime (activeArchived s)) (flipSchema s) s.sets :=
  calc (captureGuard s (swapFlipEffect s)).sets
    _ = (swapFlipEffect s).sets := (captureGuard_only (l := .a)).1 .sets (by decide)
    _ = (setsFlipped s).sets := (swapFlipEffect_after h).1 .sets (by decide)
    _ = flipSets (siteTime (activeArchived s)) (flipSchema s) s.sets := congrArg (flipSets _ _) activeArchived_sets

theorem flipDue_ready {s} (h : flipDue s = true) : swapReadyNow s = true := by
  simp only [flipDue, Bool.and_eq_true] at h
  exact h.1.2

/-- The flip makes the shadow the active set under the next epoch, and the copy begins. -/
theorem swapFlip_flips {s} (h : flipDue s = true) : Completes .swapFlip s fun t =>
    t.sets.active = s.sets.shadow ∧ t.sets.st = .copying ∧ t.sets.epoch = s.sets.epoch + 1 ∧ t.sets.swaps = s.sets.swaps + 1 ∧
    t.sets.live = s.sets.live ∧ t.sets.published = [] ∧ t.sets.unpublished = [] ∧ t.sets.gens = s.sets.gens.map (· + 1) := by
  refine .of (congrArg Host.Outcome.next (if_neg (by simp [flipDue_ready h]))) ?_
  rw [swapFlipEffect_sets h]
  exact ⟨rfl, rfl, rfl, rfl, rfl, rfl, rfl, rfl⟩

/-! ## The copy (R84) -/

theorem setCopyComplete_copies {s} (hs : s.sets.st = .copying) (ha : (activeLane s).isSome = true) :
    Completes .setCopyComplete s fun t => t.sets.st = .opened ∧ t.sets.shadow = s.sets.active := by
  refine .of rfl ?_
  rw [copyDoneEffect, if_pos ⟨hs, ha⟩]
  exact ⟨rfl, rfl⟩

theorem copyDoneEffect_stands {s} (h : s.sets.st ≠ .copying) : copyDoneEffect s = s := if_neg fun k => h k.1

/-- Settles O28, clause by clause: the commands of object 2200:02, the checks, publication, the swap at its boundary, the flip, the copy. -/
theorem setCommands : Obligations.SetCommands :=
  ⟨fun _ hw ha => ⟨fun h => hostWrite_completes rfl hw ha (commitEffect_taken h),
      fun h => hostWrite_completes rfl hw ha (commitEffect_refused h),
      fun h => hostWrite_completes rfl hw ha (reopenEffect_taken h),
      fun h => ⟨hostWrite_completes rfl hw ha (reopenEffect_refused h), hostWrite_completes rfl hw ha (swapCommandEffect_refused h)⟩,
      fun h hq => hostWrite_completes rfl hw ha (swapCommandEffect_taken h hq),
      fun h => hostWrite_completes rfl hw ha (reloadEffect_taken h),
      fun h => hostWrite_completes rfl hw ha (reloadEffect_refused h)⟩,
    fun _ hk hs ha => ⟨commitChecksComplete_commits hk hs ha, fun _ _ => commitChecksComplete_fails hk hs ha⟩,
    fun _ h => .of rfl (commitDoneEffect_stands h),
    fun _ h => .of rfl (publishEffect_stands h), fun _ _ _ _ => liveWritePublish_one,
    fun _ h => .of rfl (swapTakenEffect_stands h),
    fun _ hq hs hb ha hx hr => ⟨swapTaken_changed hq hs hb ha hx hr, swapTaken_passes hq hs hb ha hx hr⟩,
    fun _ _ _ hb hs hp hl => swapReadyReport_early hb hs hp hl,
    fun _ _ hb hs hp hr => ⟨swapReadyReport_late hb hs hp hr, swapReadyReport_refuses hb hs hp hr, swapFlip_missed hb hs hp hr⟩,
    fun _ => swapFlip_stands, fun _ => swapFlip_flips,
    fun _ => setCopyComplete_copies, fun _ h => .of rfl (copyDoneEffect_stands h),
    fun _ _ hw ha => hostWrite_completes rfl hw ha rfl⟩

end Sys2Proof.Machine
end

section
/-! PROOF. The states of a spur link: synchronisation, the first frame, failures, the retry and an adopted SEQ (R98, R104, R411). -/

namespace Sys2Proof.Machine
set_option Elab.async false

/-! ## One link of a lane

Each operation is described by what it makes of the list of links: `upd x.links n f`, link n changed by f. -/

theorem upd_upd {α : Type} {l : List α} {n} {f g : α → α} : upd (upd l n f) n g = upd l n (g ∘ f) := List.modify_modify_eq ..

/-- Only a link of the table is in a state other than DOWN. -/
theorem link_lt_of_st {x : LaneState} {n} (h : (x.link n).st ≠ .down) : n < x.links.length :=
  nth_lt_of_ne fun e => h (congrArg Link.st e)

/-- Where link n was changed by f, it reads f of what it was, and every other link reads the same. -/
theorem link_of_links {x y : LaneState} {n f} (hn : n < x.links.length) (h : y.links = upd x.links n f) :
    y.link n = f (x.link n) ∧ ∀ m, m ≠ n → y.link m = x.link m :=
  ⟨(congrArg (nth · n) h).trans (nth_upd_self _ _ _ hn), fun m hm => (congrArg (nth · m) h).trans (nth_upd_ne _ _ _ _ hm.symm)⟩

theorem linkTo_links {n st x} : (linkTo n st x).links = upd x.links n fun k => { k with st := st } := rfl

theorem toAcquire_links {n seen x} : (toAcquire n seen x).links =
    upd x.links n fun k => { k with st := .acquire, acq := true, acqCount := 0, acqSeen := seen, acqDone := false, hold := none } := upd_upd

/-! ## Synchronisation acquired (R93, R104) -/

theorem linkSyncLane_marked {s n x} (hn : n < x.links.length) (h : (x.link n).st ≠ .down) :
    (linkSyncLane s n x).links = upd x.links n fun k => { k with synced := true } := by
  have stands : ¬ (((x.modLink n fun k => { k with synced := true }).link n).st = .down ∧ linkType s n ≠ 0) := by
    rw [LaneState.link_modLink_self hn]
    exact fun c => h c.1
  rw [linkSyncLane, if_neg stands]
  rfl

theorem linkSyncLane_leaves_down {s n x} (hn : n < x.links.length) (ht : linkType s n ≠ 0) (h : (x.link n).st = .down) :
    (linkSyncLane s n x).links = upd x.links n fun k => { k with synced := true, acq := true, hold := none, st := .sync } := by
  have leaves : ((x.modLink n fun k => { k with synced := true }).link n).st = .down ∧ linkType s n ≠ 0 := by
    rw [LaneState.link_modLink_self hn]
    exact ⟨h, ht⟩
  rw [linkSyncLane, if_pos leaves]
  exact (congrArg (upd · n _) upd_upd).trans upd_upd

/-- A typed link in DOWN that synchronises goes to SYNC, and its frames carry ACQ = 1. -/
theorem linkSyncAcquired_down {s l} {n : Fin 64} (hs : Shape s) (ht : linkType s n ≠ 0) (h : ((s.lane l).link n).st = .down) :
    Completes (.linkSyncAcquired l n) s fun t => ((t.lane l).link n).st = .sync ∧ ((t.lane l).link n).synced = true ∧
      ((t.lane l).link n).acq = true ∧ ∀ m, m ≠ n.val → (t.lane l).link m = (s.lane l).link m := by
  have hn : n.val < (s.lane l).links.length := by rw [(hs.lane l).links]; exact n.2
  obtain ⟨self, others⟩ := link_of_links hn (linkSyncLane_leaves_down hn ht h)
  refine .of rfl ?_
  rw [State.lane_modLane, self]
  exact ⟨rfl, rfl, rfl, others⟩

/-- A link in any other state only notes its synchronisation. -/
theorem linkSyncAcquired_noted {s l} {n : Fin 64} (h : ((s.lane l).link n).st ≠ .down) :
    Completes (.linkSyncAcquired l n) s fun t => (t.lane l).link n = { (s.lane l).link n with synced := true } := by
  refine .of rfl ?_
  rw [State.lane_modLane]
  exact (link_of_links (link_lt_of_st h) (linkSyncLane_marked (link_lt_of_st h) h)).1

/-! ## Failures (R104, R411) -/

/-- The failures of a link within the last 60 s. -/
def recentFailures (s : State) (k : Link) : List Nat := k.failTimes.filter fun t => decide (s.clk.ns < t + 60000000000)

/-- What `failLink` makes of link k that fails with a cause. -/
def failedLink (s : State) (cause : U8) (k : Link) : Link :=
  let r := countFailure s cause k
  { r.1 with latched := r.2, failedFor := 0, syncFailed := cause == 2 && !r.2, hold := none, badRun := 0, delayRun := 0, seqRun := 0,
             st := if cause = 2 ∧ r.2 = false then .down else .failed, reacting := true, reactDue := true }

/-- A failed link is latched where two failures before lie within 60 s. -/
theorem failedLink_latched {s cause k} : (failedLink s cause k).latched = decide (2 ≤ (recentFailures s k).length) :=
  decide_eq_decide.2 Nat.succ_le_succ_iff

theorem failedLink_cause {s cause k} :
    (failedLink s cause k).cause = if 2 ≤ (recentFailures s k).length then 5 else cause := by
  show (if (failedLink s cause k).latched = true then 5 else cause) = _
  simp only [failedLink_latched, decide_eq_true_eq]

/-- A link that fails is FAILED but for the cause SYNC, with which only a latched link is. -/
theorem failedLink_st {s cause k} :
    (failedLink s cause k).st = if cause = 2 ∧ ¬ 2 ≤ (recentFailures s k).length then .down else .failed := by
  show (if cause = 2 ∧ (failedLink s cause k).latched = false then LinkSt.down else .failed) = _
  simp only [failedLink_latched, decide_eq_false_iff_not]

theorem reactWords_links {s n x} : (reactWords s n x).links = upd x.links n fun k => { k with reacting := true, reactDue := true } := by
  have override : ∀ i f (y : LaneState), (y.modLoop i f).links = y.links := fun _ _ _ => LaneState.modLoop_only .links (by decide)
  unfold reactWords
  dsimp only
  split
  · split_ifs
    · exact override _ _ _
    · rfl
    · rfl
  · rfl

theorem failLink_links {l n cause s} :
    ((failLink l n cause s).lane l).links = upd (s.lane l).links n fun _ => failedLink s cause ((s.lane l).link n) := by
  unfold failLink
  rw [State.lane_setLane, reactWords_links]
  exact (congrArg (upd · n _) upd_upd).trans upd_upd

theorem causeCode_ne_sync {c : LinkCause} : causeCode c ≠ 2 := by cases c <;> decide

/-- An UP link with a cause of Table 5.10 goes to FAILED, latched with cause 5 at the third failure within 60 s. -/
theorem linkFail_completes {s l c} {n : Fin 64} (hu : ((s.lane l).link n).st = .up) (hc : causeHolds s (s.lane l) n c = true) :
    Completes (.linkFail l n c) s fun t =>
      let recent := ((s.lane l).link n).failTimes.filter fun t => decide (s.clk.ns < t + 60000000000)
      let k := (t.lane l).link n
      k.st = .failed ∧ k.failedFor = 0 ∧ k.failures = ((s.lane l).link n).failures + 1 ∧ k.latched = decide (2 ≤ recent.length) ∧
      k.cause = (if 2 ≤ recent.length then 5 else causeCode c) ∧ ∀ m, m ≠ n.val → (t.lane l).link m = (s.lane l).link m := by
  obtain ⟨self, others⟩ := link_of_links (link_lt_of_st (by simp [hu])) (failLink_links (l := l) (n := n) (cause := causeCode c) (s := s))
  refine .of (congrArg Host.Outcome.next (if_pos ⟨hu, hc⟩)) ?_
  dsimp only
  rw [self]
  exact ⟨failedLink_st.trans (if_neg fun c => causeCode_ne_sync c.1), rfl, rfl, failedLink_latched, failedLink_cause, others⟩

/-! ## Synchronisation lost (R104, R411) -/

/-- State s once link n of lane l is marked as not synchronised. -/
def syncDropped (l : Lane) (n : Nat) (s : State) : State := s.modLane l fun x => x.modLink n fun k => { k with synced := false }

section
variable {l : Lane} {n : Nat} {s : State}

theorem syncDropped_eq : syncDropped l n s = s.modLane l fun x => x.modLink n fun k => { k with synced := false } := rfl

theorem syncDropped_links : ((syncDropped l n s).lane l).links = upd (s.lane l).links n fun k => { k with synced := false } := by
  rw [syncDropped, State.lane_modLane]
  rfl

theorem syncDropped_link (h : ((s.lane l).link n).st ≠ .down) :
    ((syncDropped l n s).lane l).link n = { (s.lane l).link n with synced := false } ∧
      ∀ m, m ≠ n → ((syncDropped l n s).lane l).link m = (s.lane l).link m := link_of_links (link_lt_of_st h) syncDropped_links

theorem syncDropped_st (h : ((s.lane l).link n).st ≠ .down) :
    (((syncDropped l n s).lane l).link n).st = ((s.lane l).link n).st := by rw [(syncDropped_link h).1]

theorem linkSyncLostEffect_up (h : ((s.lane l).link n).st = .up) : linkSyncLostEffect l n s = failLink l n 2 (syncDropped l n s) := by
  have st := syncDropped_st (l := l) (n := n) (s := s) (by simp [h])
  unfold linkSyncLostEffect
  simp only [← syncDropped_eq, st, h]

theorem linkSyncLostEffect_failed (h : ((s.lane l).link n).st = .failed) : linkSyncLostEffect l n s =
    if ((s.lane l).link n).latched then syncDropped l n s else (syncDropped l n s).modLane l (linkTo n .down) := by
  have dropped := (syncDropped_link (l := l) (n := n) (s := s) (by simp [h])).1
  unfold linkSyncLostEffect
  simp only [← syncDropped_eq, dropped, h]

theorem linkSyncLostEffect_starting (h : ((s.lane l).link n).st = .sync ∨ ((s.lane l).link n).st = .acquire) :
    linkSyncLostEffect l n s = (syncDropped l n s).modLane l fun x =>
      linkTo n .down (x.modLink n fun k => { k with acqDone := false, acqCount := 0, hold := none }) := by
  have st := syncDropped_st (l := l) (n := n) (s := s) (by rcases h with h | h <;> simp [h])
  unfold linkSyncLostEffect
  rcases h with h | h <;> simp only [← syncDropped_eq, st, h]

/-- From SYNC and ACQUIRE, and from FAILED unless latched, the link goes to DOWN. -/
theorem linkSyncLostEffect_links
    (h : ((s.lane l).link n).st = .sync ∨ ((s.lane l).link n).st = .acquire ∨
      (((s.lane l).link n).st = .failed ∧ ((s.lane l).link n).latched = false)) :
    ∃ f : Link → Link, (∀ k, (f k).st = .down ∧ (f k).synced = false) ∧
      ((linkSyncLostEffect l n s).lane l).links = upd (s.lane l).links n f := by
  rw [← or_assoc] at h
  rcases h with h | ⟨h, hl⟩
  · refine ⟨fun k => { k with synced := false, acqDone := false, acqCount := 0, hold := none, st := .down }, fun _ => ⟨rfl, rfl⟩, ?_⟩
    rw [linkSyncLostEffect_starting h, State.lane_modLane]
    show upd (upd ((syncDropped l n s).lane l).links n _) n _ = _
    rw [syncDropped_links, upd_upd, upd_upd]
    rfl
  · refine ⟨fun k => { k with synced := false, st := .down }, fun _ => ⟨rfl, rfl⟩, ?_⟩
    rw [linkSyncLostEffect_failed h, if_neg (by simp [hl]), State.lane_modLane, linkTo_links, syncDropped_links, upd_upd]
    rfl
end

section
variable {s : State} {l : Lane} {n : Fin 64}

theorem linkSyncLost_down
    (h : ((s.lane l).link n).st = .sync ∨ ((s.lane l).link n).st = .acquire ∨
      (((s.lane l).link n).st = .failed ∧ ((s.lane l).link n).latched = false)) :
    Completes (.linkSyncLost l n) s fun t => ((t.lane l).link n).st = .down ∧ ((t.lane l).link n).synced = false ∧
      ∀ m, m ≠ n.val → (t.lane l).link m = (s.lane l).link m := by
  have hn : n.val < (s.lane l).links.length := link_lt_of_st (by rcases h with h | h | ⟨h, -⟩ <;> simp [h])
  obtain ⟨f, hf, links⟩ := linkSyncLostEffect_links h
  obtain ⟨self, others⟩ := link_of_links hn links
  refine .of rfl ?_
  rw [self]
  exact ⟨(hf _).1, (hf _).2, others⟩

/-- A latched link stays FAILED. -/
theorem linkSyncLost_latched (h : ((s.lane l).link n).st = .failed) (hl : ((s.lane l).link n).latched = true) :
    Completes (.linkSyncLost l n) s fun t => (t.lane l).link n = { (s.lane l).link n with synced := false } := by
  refine .of rfl ?_
  rw [linkSyncLostEffect_failed h, if_pos hl]
  exact (syncDropped_link (by simp [h])).1

/-- An UP link fails with cause SYNC: to DOWN, or latched with cause 5 at the third failure within 60 s. -/
theorem linkSyncLost_up (h : ((s.lane l).link n).st = .up) :
    Completes (.linkSyncLost l n) s fun t =>
      let recent := ((s.lane l).link n).failTimes.filter fun t => decide (s.clk.ns < t + 60000000000)
      let k := (t.lane l).link n
      k.synced = false ∧ k.failures = ((s.lane l).link n).failures + 1 ∧
      if 2 ≤ recent.length then k.st = .failed ∧ k.latched = true ∧ k.cause = 5
      else k.st = .down ∧ k.latched = false ∧ k.cause = 2 := by
  have up : ((s.lane l).link n).st ≠ .down := by simp [h]
  have hn : n.val < ((syncDropped l n s).lane l).links.length := link_lt_of_st ((syncDropped_st up).symm ▸ up)
  have self := (link_of_links hn (failLink_links (cause := 2))).1
  have recent : recentFailures (syncDropped l n s) (((syncDropped l n s).lane l).link n) = recentFailures s ((s.lane l).link n) := by
    rw [(syncDropped_link up).1]
    simp only [recentFailures, syncDropped, State.modLane_clk]
  refine .of rfl ?_
  dsimp only
  rw [linkSyncLostEffect_up h, self]
  refine ⟨?_, ?_, ?_⟩
  · show (((syncDropped l n s).lane l).link n).synced = false
    rw [(syncDropped_link up).1]
  · show (((syncDropped l n s).lane l).link n).failures + 1 = _
    rw [(syncDropped_link up).1]
  · rw [failedLink_st, failedLink_latched, failedLink_cause, recent]
    by_cases third : 2 ≤ (recentFailures s ((s.lane l).link n)).length
    · exact (if_pos third).mpr ⟨if_neg fun c => c.2 third, decide_eq_true third, if_pos third⟩
    · exact (if_neg third).mpr ⟨if_pos ⟨rfl, third⟩, decide_eq_false third, if_neg third⟩
end

/-! ## The first frame after ACQUIRE (R98, R104) -/

theorem seqTrack_keeps {f k} : (seqTrack f k).st = k.st ∧ (seqTrack f k).expSeq = k.expSeq := by
  unfold seqTrack
  split_ifs <;> exact ⟨rfl, rfl⟩

/-- What a stored frame notes on its link is neither its state nor its expected SEQ. -/
theorem storeFrame_links {s n f x} : ∃ g : Link → Link, (∀ k, (g k).st = k.st ∧ (g k).expSeq = k.expSeq) ∧
    (storeFrame s n f x).links = upd x.links n g := by
  unfold storeFrame
  dsimp only
  split
  · exact ⟨id, fun _ => ⟨rfl, rfl⟩, (List.modify_id ..).symm⟩
  · refine ⟨_, fun k => ?_, congrArg (upd · n _) modCurBank_links⟩
    split_ifs <;> exact seqTrack_keeps

/-- Link k taken to UP by frame f. -/
def linkTakenUp (f : RxFrame) (k : Link) : Link :=
  { k with expSeq := upSeq f, hold := none, acqDone := false, acqCount := 0, badRun := 0, seqRun := 0, syncFailed := false, st := .up }

theorem linkUpLane_links {s n x f} (hf : (x.link n).hold = some f) (ha : (x.link n).st = .acquire) (hd : (x.link n).acqDone = true) :
    ∃ g : Link → Link, (∀ k, (g k).st = .up ∧ (g k).expSeq = upSeq f) ∧ (linkUpLane s n x).links = upd x.links n g := by
  unfold linkUpLane
  simp only [hf, ha, hd, and_self, if_true]
  obtain ⟨g, hg, links⟩ := storeFrame_links (s := s) (n := n) (f := f) (x := linkTo n .up (x.modLink n _))
  refine ⟨g ∘ linkTakenUp f, fun k => hg (linkTakenUp f k), links.trans ?_⟩
  exact (congrArg (upd · n g) upd_upd).trans upd_upd

/-- The tap does not see the links. -/
theorem linkUpEffect_links {l n s} : ((linkUpEffect l n s).lane l).links = (linkUpLane s n (s.lane l)).links := by
  unfold linkUpEffect
  dsimp only
  split
  · rw [tapSend_only.lane .links (by decide), State.lane_modLane]
  · rw [State.lane_modLane]

/-- The first frame in its window takes the link to UP and sets the SEQ it expects. -/
theorem linkUp_completes {s l f} {n : Fin 64} (hf : ((s.lane l).link n).hold = some f) (ha : ((s.lane l).link n).st = .acquire)
    (hd : ((s.lane l).link n).acqDone = true) :
    Completes (.linkUp l n) s fun t => ((t.lane l).link n).st = .up ∧ ((t.lane l).link n).expSeq = upSeq f ∧
      ∀ m, m ≠ n.val → (t.lane l).link m = (s.lane l).link m := by
  obtain ⟨g, hg, links⟩ := linkUpLane_links (s := s) hf ha hd
  obtain ⟨self, others⟩ := link_of_links (link_lt_of_st (by simp [ha])) (linkUpEffect_links.trans links)
  refine .of rfl ?_
  rw [self]
  exact ⟨(hg _).1, (hg _).2, others⟩

/-! ## The retry and the adopted SEQ (R98, R104) -/

/-- After 4,000 periods a synchronised link that is not latched returns to ACQUIRE. -/
theorem linkFailRetryExpiry_completes {s l} {n : Fin 64} (h : ((s.lane l).link n).st = .failed) (hl : ((s.lane l).link n).latched = false)
    (hs : ((s.lane l).link n).synced = true) (hp : 4000 ≤ ((s.lane l).link n).failedFor) :
    Completes (.linkFailRetryExpiry l n) s fun t => ((t.lane l).link n).st = .acquire ∧ ((t.lane l).link n).acq = true ∧
      ((t.lane l).link n).acqCount = 0 ∧ ∀ m, m ≠ n.val → (t.lane l).link m = (s.lane l).link m := by
  have retried : linkRetryLane n (s.lane l) = toAcquire n false (s.lane l) := if_pos ⟨h, hl, hs, hp⟩
  obtain ⟨self, others⟩ := link_of_links (link_lt_of_st (by simp [h])) (toAcquire_links (n := n.val) (seen := false) (x := s.lane l))
  refine .of rfl ?_
  rw [State.lane_modLane, retried, self]
  exact ⟨rfl, rfl, rfl, others⟩

/-- After 40 periods of a consistently offset SEQ the remote's count is adopted. -/
theorem seqAdopt_completes {s l} {n : Fin 64} (h : ((s.lane l).link n).st = .up) (hr : 40 ≤ ((s.lane l).link n).seqRun) :
    Completes (.seqAdopt l n) s fun t =>
      (t.lane l).link n = { (s.lane l).link n with expSeq := ((s.lane l).link n).seqLast, seqRun := 0 } ∧
      ∀ m, m ≠ n.val → (t.lane l).link m = (s.lane l).link m := by
  have adopted : (seqAdoptLane n (s.lane l)).links =
      upd (s.lane l).links n fun k => { k with expSeq := k.seqLast, seqRun := 0 } := congrArg LaneState.links (if_pos ⟨h, hr⟩)
  refine .of rfl ?_
  rw [State.lane_modLane]
  exact link_of_links (link_lt_of_st (by simp [h])) adopted

/-- Settles O2, clause by clause: synchronisation acquired and lost, the first frame, failures, the retry, the adopted SEQ. -/
theorem linkStates : Obligations.LinkStates :=
  ⟨fun _ _ _ => linkSyncAcquired_down, fun _ _ _ _ => linkSyncAcquired_noted, fun _ _ _ => linkSyncLost_down,
    fun _ _ _ => linkSyncLost_latched, fun _ _ _ => linkSyncLost_up, fun _ _ _ _ => linkUp_completes,
    fun _ _ _ _ => linkFail_completes, fun _ _ _ => linkFailRetryExpiry_completes, fun _ _ _ => seqAdopt_completes⟩

end Sys2Proof.Machine
end

section
/-! PROOF. Block floating point: the exact product and the smallest exponent of a normalisation (R121-R123). -/

namespace Sys2Proof.Machine
set_option Elab.async false

/-! ## Lists and words -/

theorem nth_map_range {β : Type} [Inhabited β] {f : Nat → β} {n i : Nat} (h : i < n) : nth ((List.range n).map f) i = f i := by
  simp [nth, h]

/-- A mantissa in range is stored as it is. -/
theorem toInt_ofInt_mantissa {n : Int} (h : -524288 ≤ n ∧ n ≤ 524287) : (BitVec.ofInt 20 n).toInt = n :=
  BitVec.toInt_ofInt_eq_self (by decide) (by omega) (by omega)

/-- So is an exponent of a stage. -/
theorem toInt_ofInt_exponent {e : Int} (h : -32 ≤ e) (h' : e ≤ 31) : (BitVec.ofInt 6 e).toInt = e :=
  BitVec.toInt_ofInt_eq_self (by decide) (by omega) (by omega)

theorem clampInt_mem {lo hi v : Int} (h : lo ≤ hi) : lo ≤ clampInt lo hi v ∧ clampInt lo hi v ≤ hi := by
  unfold clampInt
  split_ifs <;> omega

theorem roundShift_zero {k : Int} : roundShift 0 k = 0 := by
  unfold roundShift
  split
  · exact zero_mul _
  · rw [zero_add]
    exact Int.ediv_eq_zero_of_lt (by positivity) (pow_lt_pow_right₀ (by decide) (by omega))

/-! ## The exact product (R123) -/

/-- The product of two mantissas needs 39 of the 48 bits, and the sum of two exponents fits the 7 bits of an accumulator's. -/
theorem product_elem {p q : Stage} {i : Nat} (h : i < 8) :
    (product p q).elem i = ((nth p.m i).toInt * (nth q.m i).toInt, p.exp + q.exp - 38) := by
  have lower := BitVec.le_toInt_mul_toInt (x := nth p.m i) (y := nth q.m i)
  have upper := BitVec.toInt_mul_toInt_le (x := nth p.m i) (y := nth q.m i)
  have mantissa : (BitVec.ofInt 48 ((nth p.m i).toInt * (nth q.m i).toInt)).toInt = (nth p.m i).toInt * (nth q.m i).toInt :=
    BitVec.toInt_ofInt_eq_self (by decide) (by omega) (by omega)
  have exponent : (BitVec.ofInt 7 (p.exp + q.exp)).toInt = p.exp + q.exp := by
    have hp := BitVec.le_toInt p.e
    have hq := BitVec.le_toInt q.e
    have hp' := BitVec.toInt_lt (x := p.e)
    have hq' := BitVec.toInt_lt (x := q.e)
    unfold Stage.exp
    exact BitVec.toInt_ofInt_eq_self (by decide) (by omega) (by omega)
  unfold Acc.elem Acc.exp product
  rw [nth_map_range h, mantissa, exponent]

/-! ## The exponent a normalisation takes (R122) -/

/-- At exponent e the mantissa of every value v * 2^x is in range. -/
def FitsAt (vals : List Int) (x e : Int) : Prop :=
  ∀ v ∈ vals, -524288 ≤ roundShift v (e - 19 - x) ∧ roundShift v (e - 19 - x) ≤ 524287

theorem fits_iff {vals : List Int} {x e : Int} : (vals.all fun v => fitsMantissa (roundShift v (e - 19 - x))) = true ↔ FitsAt vals x e := by
  simp [FitsAt, fitsMantissa]

/-- A value out of range is what keeps an exponent from fitting. -/
theorem not_fitsAt_iff {vals : List Int} {x e : Int} :
    ¬ FitsAt vals x e ↔ ∃ v ∈ vals, roundShift v (e - 19 - x) < -524288 ∨ 524287 < roundShift v (e - 19 - x) := by
  simp only [FitsAt, not_forall, not_and_or, not_le, exists_prop]

/-- The search finds the first exponent that fits. -/
theorem fitExp_eq_some {vals : List Int} {x e : Int} (hit : FitsAt vals x e) (n : Nat) (d : Int) (hd : d ≤ e) (he : e < d + n)
    (miss : ∀ c, d ≤ c → c < e → ¬ FitsAt vals x c) : fitExp vals x n d = some e := by
  induction n generalizing d with
  | zero => omega
  | succ n ih =>
    unfold fitExp
    rcases eq_or_lt_of_le hd with rfl | hlt
    · rw [if_pos (fits_iff.2 hit)]
    · rw [if_neg (fits_iff.not.2 (miss d le_rfl hlt))]
      exact ih (d + 1) (by omega) (by omega) fun c hc => miss c (by omega)

/-- Where none fits it finds none. -/
theorem fitExp_eq_none {vals : List Int} {x : Int} (n : Nat) (d : Int) (miss : ∀ c, d ≤ c → c < d + n → ¬ FitsAt vals x c) :
    fitExp vals x n d = none := by
  induction n generalizing d with
  | zero => rfl
  | succ n ih =>
    unfold fitExp
    rw [if_neg (fits_iff.not.2 (miss d le_rfl (by omega)))]
    exact ih (d + 1) fun c hc hc' => miss c (by omega) (by omega)

/-- The values take the smallest exponent at which they fit. -/
theorem normalise_least {vals : List Int} {x e : Int} {inv : Bool} (lo : -32 ≤ e) (hi : e ≤ 31) (hit : FitsAt vals x e)
    (miss : ∀ d, -32 ≤ d → d < e → ¬ FitsAt vals x d) :
    normalise vals x inv =
      ({ m := vals.map fun v => BitVec.ofInt 20 (roundShift v (e - 19 - x)), e := BitVec.ofInt 6 e, inv := inv }, false) := by
  unfold normalise
  rw [fitExp_eq_some hit 64 (-32) lo (by omega) miss]

/-- Where none fits they are limited at exponent 31 and SAT is raised. -/
theorem normalise_saturated {vals : List Int} {x : Int} {inv : Bool} (miss : ∀ e, -32 ≤ e → e ≤ 31 → ¬ FitsAt vals x e) :
    normalise vals x inv =
      ({ m := vals.map fun v => BitVec.ofInt 20 (clampInt (-524288) 524287 (roundShift v (12 - x))), e := 31, inv := inv }, true) := by
  unfold normalise
  rw [fitExp_eq_none 64 (-32) fun c lo hi => miss c lo (by omega)]

theorem fitsAt_zeros {n : Nat} {x e : Int} : FitsAt (List.replicate n 0) x e := by
  intro v hv
  rw [List.eq_of_mem_replicate hv, roundShift_zero]
  decide

theorem nth_mem {α : Type} [Inhabited α] {l : List α} {i : Nat} (h : i < l.length) : nth l i ∈ l := by
  simp [nth, h]

/-- Settles O8: the product by the widths of its factors, the normalisation by the search for its exponent. -/
theorem normalisationIsSmallest : Obligations.NormalisationIsSmallest := by
  refine ⟨fun _ _ _ => product_elem, fun vals x inv e lo hi hit miss => ?_, fun vals x inv miss => ?_, fun n x inv => ?_⟩
  · rw [normalise_least lo hi hit fun d hd he => not_fitsAt_iff.2 (miss d hd he)]
    refine ⟨rfl, toInt_ofInt_exponent lo hi, rfl, fun i hi => ?_⟩
    rw [nth_map _ _ _ hi, toInt_ofInt_mantissa (hit _ (nth_mem hi))]
  · rw [normalise_saturated fun e lo hi => not_fitsAt_iff.2 (miss e lo hi)]
    refine ⟨rfl, rfl, fun i hi => ?_⟩
    rw [nth_map _ _ _ hi, toInt_ofInt_mantissa (clampInt_mem (by decide))]
  · rw [normalise_least le_rfl (by decide) fitsAt_zeros fun _ hd he => absurd he (by omega)]
    exact ⟨rfl, rfl⟩

end Sys2Proof.Machine
end

section
/-! PROOF. The tile dialect: data movement, limits and checks, and the arithmetic of accumulators (R123, R125, R126, R131, R132, R137). -/

namespace Sys2Proof.Machine
set_option Elab.async false

/-! ## Writing a register counts no instruction -/

@[simp] theorem TileRun.setStage_icount {k : TileRun} {r x} : (k.setStage r x).icount = k.icount := by
  unfold TileRun.setStage
  split_ifs <;> rfl

@[simp] theorem TileRun.setAcc_icount {k : TileRun} {r x} : (k.setAcc r x).icount = k.icount := by
  unfold TileRun.setAcc
  split_ifs <;> rfl

@[simp] theorem TileRun.putStage_icount {k : TileRun} {r vals inv} : (k.putStage r vals inv).icount = k.icount := TileRun.setStage_icount

@[simp] theorem TileRun.putAcc_icount {k : TileRun} {r x} : (k.putAcc r x).icount = k.icount := TileRun.setAcc_icount

/-! ## An instruction on a slot -/

theorem runTile_running {ok check f l t s k} (hr : runningSlot s l t = some k) (ho : ok = true) (hc : check k = true) :
    runTile ok check f l t s = .next (setRunning l t { f k with icount := k.icount + 1 } s) := by
  simp [runTile, hr, ho, hc]

theorem runTile_idle {ok check f l t s} (hr : runningSlot s l t = none) : runTile ok check f l t s = .next s := by
  simp [runTile, hr]

/-- An instruction that runs f on the slot's registers leaves what f makes of them. -/
theorem runTile_becomes {c ok check f s l k k'} {t : Fin 10} (run : exec c s = runTile ok check f l t s) (hr : runningSlot s l t = some k)
    (ho : ok = true) (hc : check k = true) (result : f k = k') (count : k'.icount = k.icount) : TileBecomes c s l t k' := by
  subst result
  unfold TileBecomes
  rw [run, runTile_running hr ho hc, count]

/-- No tile instruction has an effect where no slot runs on its tile (R130). -/
theorem tileRows_idle {s l c w} {t : Fin 10} (hc : c ∈ tileRows l t w) (hr : runningSlot s l t = none) : exec c s = .next s := by
  have take : captureTake w l t s = s := by simp [captureTake, hr]
  have cap : exec (.tileCap l t w) s = .next s := by
    refine (runTile_idle ?_).trans ?_ <;> simp [take, hr]
  have idle : ∀ {ok check f}, runTile ok check f l t s = .next s := runTile_idle hr
  revert c
  simp only [tileRows, List.forall_mem_cons, List.not_mem_nil, false_imp_iff, implies_true, and_true]
  exact ⟨idle, idle, idle, idle, idle, idle, idle, idle, idle, idle, idle, idle, idle, idle, idle, idle, idle, idle, cap, idle⟩

section
variable {s : State} {l : Lane} {t : Fin 10} {w : TileArgs} {k : TileRun} (hr : runningSlot s l t = some k)
include hr

/-! ## Constants, ports and masks -/

theorem tileLdk_becomes (hw : tileLdkOk w = true) (hd : k.ownReg (argD w) = true) (hi : k.constIndex (argImm w 7 0) < k.consts.length) :
    TileBecomes (.tileLdk l t w) s l t (k.setStage (argD w) (constStage (nth k.consts (k.constIndex (argImm w 7 0))))) :=
  runTile_becomes (f := ldkResult w) rfl hr hw (by simp [hd, hi]) rfl TileRun.setStage_icount

/-- What STO stores depends on the kind of the port (R125). -/
theorem tileSto_becomes (hw : tileStoOk w = true) :
    let e := k.value (argA w) (argImm w 5 3)
    let single := normOne e (k.invalid (argA w))
    let stored := toWord (if isAccId (argA w) then single.1.val else e)
    let cell : Cell :=
      if isAccId (argA w) then single.1
      else { m := nth (k.stage (argA w)).m (argImm w 5 3), e := (k.stage (argA w)).e, inv := k.invalid (argA w) }
    let port := argImm w 2 0
    let kind := outKind (nth k.outCodes port)
    TileBecomes (.tileSto l t w) s l t { k with
      outPorts := if kind = 0 then put k.outPorts port (some (.word stored.1))
        else if kind = 2 then put k.outPorts port (some (.cell cell)) else k.outPorts
      flagSat := k.flagSat || (isAccId (argA w) && single.2) || (kind == 0 && stored.2)
      flagInv := k.flagInv || k.invalid (argA w) } := by
  intro e single stored cell port kind
  refine runTile_becomes (f := stoResult w) rfl hr hw rfl ?_ rfl
  unfold stoResult
  dsimp only [TileRun.sat]
  split
  case h_1 word =>
    have hk : kind = 0 := word
    simp only [hk, if_true, beq_self_eq_true, Bool.true_and]
    rfl
  case h_2 relay =>
    have hk : kind = 2 := relay
    simp only [hk, if_true, if_neg two_ne_zero, beq_false_of_ne two_ne_zero, Bool.false_and, Bool.or_false]
    rfl
  case h_3 notWord notRelay =>
    have h0 : kind ≠ 0 := notWord
    have h2 : kind ≠ 2 := notRelay
    simp only [if_neg h0, if_neg h2, beq_false_of_ne h0, Bool.false_and, Bool.or_false]
    rfl

/-- CMP writes one of the four masks (Table 6.8, code 6). -/
theorem tileCmp_becomes (hw : tileCmpOk w = true) :
    TileBecomes (.tileCmp l t w) s l t { k with masks := put k.masks (argD w) (maskOf
      ((List.range 8).map fun i => condHolds (argImm w 2 0) (cmpExact (k.value (argA w) i) (k.value (argB w) i)))) } := by
  have mask : argD w < 4 := by
    simp only [tileCmpOk, Bool.and_eq_true, decide_eq_true_eq] at hw
    omega
  refine runTile_becomes (f := cmpResult w) rfl hr hw rfl ?_ rfl
  unfold cmpResult
  rw [Nat.mod_eq_of_lt mask]

/-! ## Limits -/

theorem tileClp_stage (hw : tileClpOk w = true) (hd : k.ownReg (argD w) = true) (ha : isAccId (argA w) = false) :
    let r := clampAll (k.stage (argB w)) (k.stage (argImm w 4 0)) (k.values (argA w))
    TileBecomes (.tileClp l t w) s l t
      ({ k with masks := put k.masks 3 (maskOf (r.map Prod.snd)) }.putStage (argD w) (r.map Prod.fst)
        (k.invalid (argA w) || (k.stage (argB w)).inv || (k.stage (argImm w 4 0)).inv)) :=
  runTile_becomes (f := clpResult w) rfl hr hw hd (if_neg (by simp [ha])) TileRun.putStage_icount

theorem tileClp_acc (hw : tileClpOk w = true) (hd : k.ownReg (argD w) = true) (ha : isAccId (argA w) = true) :
    let r := clampAll (k.stage (argB w)) (k.stage (argImm w 4 0)) (k.values (argA w))
    TileBecomes (.tileClp l t w) s l t
      ({ k with masks := put k.masks 3 (maskOf (r.map Prod.snd)) }.putAcc (argD w) (accAt (r.map Prod.fst) (k.acc (argA w)).exp
        (k.invalid (argA w) || (k.stage (argB w)).inv || (k.stage (argImm w 4 0)).inv))) :=
  runTile_becomes (f := clpResult w) rfl hr hw hd (if_pos ha) TileRun.putAcc_icount

/-! ## Injections (R148, log 55) -/

theorem tileTsi_becomes {g} (hw : tileTsiOk w = true) (hd : k.ownReg (argD w) = true) (value : injectionAt s k.loop (argImm w 3 0) = g) :
    TileBecomes (.tileTsi l t w) s l t (tsiResult w g k) :=
  runTile_becomes (f := fun k => tsiResult w (injectionAt s k.loop (argImm w 3 0)) k) rfl hr hw hd (congrArg (tsiResult w · k) value)
    TileRun.putStage_icount

/-- Without a running injection TSI moves A to D. -/
theorem tileTsi_moves (hw : tileTsiOk w = true) (hd : k.ownReg (argD w) = true) (hi : s.clk.inj.st ≠ 2) :
    TileBecomes (.tileTsi l t w) s l t (k.putStage (argD w) (k.values (argA w)) (k.invalid (argA w))) :=
  tileTsi_becomes (g := none) hr hw hd (if_neg fun h => hi h.1)

/-- At the point of a running injection it adds the generator's value to the element of object 3506:03. -/
theorem tileTsi_injects (hw : tileTsiOk w = true) (hd : k.ownReg (argD w) = true) (hi : s.clk.inj.st = 2) (hk : k.loop.isSome = true)
    (hl : k.loop = s.clk.inj.loop) (hp : rwN s 0x3506 2 = argImm w 3 0) :
    TileBecomes (.tileTsi l t w) s l t (k.putStage (argD w)
      ((List.range 8).map fun i => if i = rwN s 0x3506 3 then addExact (k.value (argA w) i) (s.clk.inj.g, 0) else k.value (argA w) i)
      (k.invalid (argA w))) :=
  tileTsi_becomes (g := some (rwN s 0x3506 3, s.clk.inj.g)) hr hw hd (if_pos ⟨hi, hl ▸ hk, hl, hp⟩)

/-! ## Samples of a capture (R132) -/

/-- Without a capture under way CAP takes no sample. -/
theorem tileCap_idle (hw : tileCapOk w = true) (h1 : s.clk.cap.st ≠ 1) (h2 : s.clk.cap.st ≠ 2) : TileBecomes (.tileCap l t w) s l t k := by
  have take : captureTake w l t s = s := by
    unfold captureTake
    rw [hr]
    exact if_neg fun h => h.1.elim h1 h2
  exact runTile_becomes (f := id) (congrArg (runTile _ anySlot id l t) (by simp [take])) hr hw rfl rfl rfl

/-- A tile that runs a slot is one of the lane's tiles. -/
theorem runningSlot_lt : t.val < (s.lane l).tiles.length :=
  nth_lt_of_ne fun out => by simp [runningSlot, out, show (default : Tile).running = none from rfl] at hr

/-- A capture under way for the loop takes the sample into its channel. -/
theorem tileCap_samples (hw : tileCapOk w = true) (ha : s.clk.cap.st = 1 ∨ s.clk.cap.st = 2) (hk : k.loop.isSome = true)
    (hl : k.loop = captureLoop s) : Completes (.tileCap l t w) s fun u =>
      u.clk.cap.samples = put s.clk.cap.samples (argImm w 4 3) (some (sampleReal (k.value (argA w) (argImm w 2 0)))) ∧
      (nth (u.lane l).tiles t).running = some { k with icount := k.icount + 1 } := by
  have take : captureTake w l t s = modCap (fun c => { c with samples := put c.samples (argImm w 4 3) (some (capSample w k)) }) s := by
    unfold captureTake
    rw [hr]
    exact if_pos ⟨ha, hk, hl⟩
  have lane : (captureTake w l t s).lane l = s.lane l := by
    rw [take]
    cases l <;> rfl
  have same : runningSlot (captureTake w l t s) l t = some k := by
    unfold runningSlot
    rw [lane]
    exact hr
  refine .of ((congrArg (runTile _ anySlot id l t) (if_pos hw)).trans (runTile_running same hw rfl)) ⟨?_, ?_⟩
  · rw [setRunning, State.modLane_clk, take]
    rfl
  · rw [setRunning, State.lane_modLane, lane]
    exact congrArg Tile.running (nth_upd_self _ _ _ (runningSlot_lt hr))

end

/-- Settles O5, instruction by instruction: what each makes of the running slot, and the idle tile. -/
theorem tileDataInstructions : Obligations.TileDataInstructions :=
  ⟨fun _ _ _ _ _ hr hw => runTile_becomes (f := id) rfl hr hw rfl rfl rfl,
    fun _ _ _ w _ hr hw hd => runTile_becomes (f := ldpResult w) rfl hr hw hd rfl TileRun.putStage_icount,
    fun _ _ _ _ _ => tileLdk_becomes,
    fun _ _ _ w _ hr hw hd => runTile_becomes (f := movResult w) rfl hr hw hd rfl TileRun.putStage_icount,
    fun _ _ _ _ _ => tileSto_becomes,
    fun _ _ _ _ _ => tileClp_stage,
    fun _ _ _ _ _ => tileClp_acc,
    fun _ _ _ w _ hr hw hd => runTile_becomes (f := rnmResult w) rfl hr hw hd rfl TileRun.putStage_icount,
    fun _ _ _ w _ hr hw hd => runTile_becomes (f := selResult w) rfl hr hw hd rfl TileRun.putStage_icount,
    fun _ _ _ _ _ => tileCmp_becomes,
    fun _ _ _ w _ hr hw hd => runTile_becomes (f := rmpResult w) rfl hr hw hd rfl TileRun.putStage_icount,
    fun _ _ _ _ _ => tileTsi_moves,
    fun _ _ _ _ _ => tileTsi_injects,
    fun _ _ _ _ _ => tileCap_idle,
    fun _ _ _ _ _ => tileCap_samples,
    fun _ _ _ w _ hr hw => runTile_becomes (f := chkResult w) rfl hr hw rfl rfl rfl,
    fun _ _ _ _ _ hc _ => tileRows_idle hc⟩

/-- Settles O6, instruction by instruction; DRV keeps A in B after it wrote the difference. -/
theorem tileArithmeticInstructions : Obligations.TileArithmeticInstructions :=
  ⟨fun _ _ _ w _ hr hw hd => runTile_becomes (f := addResult w) rfl hr hw hd rfl TileRun.putAcc_icount,
    fun _ _ _ w _ hr hw hd => runTile_becomes (f := subResult w) rfl hr hw hd rfl TileRun.putAcc_icount,
    fun _ _ _ w _ hr hw hd => runTile_becomes (f := mulResult w) rfl hr hw hd rfl TileRun.setAcc_icount,
    fun _ _ _ w _ hr hw hd => runTile_becomes (f := macResult w) rfl hr hw hd rfl TileRun.putAcc_icount,
    fun _ _ _ w _ hr hw hd => runTile_becomes (f := intResult w) rfl hr hw hd rfl TileRun.putAcc_icount,
    fun _ _ _ w _ hr hw hd hb => runTile_becomes (f := drvResult w) rfl hr hw (by simp [hd, hb]) rfl
      (TileRun.putStage_icount.trans TileRun.putAcc_icount),
    fun _ _ _ w _ hr hw hd => runTile_becomes (f := fltResult w) rfl hr hw hd rfl TileRun.putAcc_icount⟩

end Sys2Proof.Machine
end

section
/-! PROOF. Slots: their start, their end and the errors of their memories (R110, R111, R118, R119, R124, R138). -/

namespace Sys2Proof.Machine
set_option Elab.async false

theorem nth_replicate {α : Type} [Inhabited α] {n i : Nat} {a : α} (h : i < n) : nth (List.replicate n a) i = a := by
  simp [nth, h]

theorem LaneShape.tile_lt {x : LaneState} (h : LaneShape x) (t : Fin 10) : t.val < x.tiles.length := by
  rw [h.tiles]
  exact t.2

/-- A loop can still be changed after what leaves the lists of loops. -/
theorem LaneOnly.loop_modLoop {qs x y} (h : LaneOnly qs x y) (hx : LaneShape x) (i : LoopId) (f : Loop → Loop)
    (hq : LanePart.bayLoops ∉ qs ∧ LanePart.modLoops ∉ qs ∧ LanePart.strLoops ∉ qs ∧ LanePart.slowLoops ∉ qs := by decide) :
    (y.modLoop i f).loop i = f (x.loop i) := by
  obtain ⟨bay, mod, str, slow⟩ := hq
  rw [← h.loop i ⟨bay, mod, str, slow⟩]
  cases i with
  | bay n => exact nth_upd_self _ _ _ (by rw [h .bayLoops bay, hx.bayLoops]; exact n.2)
  | module n => exact nth_upd_self _ _ _ (by rw [h .modLoops mod, hx.modLoops]; exact n.2)
  | string n => exact nth_upd_self _ _ _ (by rw [h .strLoops str, hx.strLoops]; exact n.2)
  | slow n => exact nth_upd_self _ _ _ (by rw [h .slowLoops slow, hx.slowLoops]; exact n.2)

@[simp] theorem LaneState.relay_modLoop {x : LaneState} {i f} : (x.modLoop i f).relay = x.relay := LaneState.modLoop_only .relay (by decide)

/-! ## Start -/

/-- A slot that is placed lies on one of the lane's tiles. -/
theorem slot_lt {x : LaneState} {t k i} (h : nth (nth x.tiles t).slots k = some i) : t < x.tiles.length :=
  nth_lt_of_ne fun out => by rw [out] at h; cases h

/-- In START and RUN a fast loop's slot runs its instructions. -/
theorem slotRun_fast {s x t k i} (hs : nth (nth x.tiles t).slots k = some i) (hi : isSlowLoop i = false)
    (hf : (nth x.tiles t).role = .fast) (hr : (nth x.tiles t).relieved = false) (hb : (nth (nth x.tiles t).blocks k).bad = false)
    (hl : (x.loop i).st = .run ∨ (x.loop i).st = .start) : slotRun s x t k = some (freshRun s x t k i false) := by
  have due : slowDue s i = true := by
    cases i with
    | slow j => cases hi
    | bay n => rfl
    | module j => rfl
    | string k => rfl
  rcases hl with hl | hl <;> simp [slotRun, hs, hf, hr, hb, hl, due]

theorem slotStart_tiles {l t k s} : ((slotStartEffect l t k s).lane l).tiles =
    upd (s.lane l).tiles t fun y => { y with running := slotRun s (s.lane l) t k } := by
  unfold slotStartEffect
  dsimp only
  split
  · rw [State.lane_setLane]
  · split
    · rw [State.lane_setLane]
    · rw [State.lane_setLane, LaneState.tiles_modLoop]

/-- What the slot runs is what its tile holds after the start. -/
theorem slotStart_running {l t k s} (ht : t < (s.lane l).tiles.length) :
    (nth ((slotStartEffect l t k s).lane l).tiles t).running = slotRun s (s.lane l) t k := by
  rw [slotStart_tiles, nth_upd_self _ _ _ ht]

/-- The values the frame words of its loop keep are those they read at the start (R118). -/
theorem slotStart_kept {l t k s run i} (h : Shape s) (hr : slotRun s (s.lane l) t k = some run) (hi : run.loop = some i) :
    (((slotStartEffect l t k s).lane l).loop i).kept =
      (portsRead s (s.lane l) (inputMap s (s.lane l) i) ((s.lane l).loop i).kept).2 := by
  unfold slotStartEffect
  simp only [hr, hi, State.lane_setLane]
  exact congrArg Loop.kept ((LaneOnly.tiles (qs := [.tiles]) .refl).loop_modLoop (h.lane l) i _)

/-- A slot of a fast tile in service starts with empty flags, cleared V registers, the persistent registers of its block and its constants. -/
theorem slotStart_fast {s l i} {t : Fin 10} {k : Fin 16} (hs : nth (nth (s.lane l).tiles t).slots k = some i) (hi : isSlowLoop i = false)
    (hf : (nth (s.lane l).tiles t).role = .fast) (hr : (nth (s.lane l).tiles t).relieved = false)
    (hb : (nth (nth (s.lane l).tiles t).blocks k).bad = false) (hl : ((s.lane l).loop i).st = .run ∨ ((s.lane l).loop i).st = .start) :
    Completes (.slotStart l t k) s fun u => ∃ r, (nth (u.lane l).tiles t).running = some r ∧ r.slot = k ∧ r.loop = some i ∧
      r.icount = 0 ∧ r.flagInv = false ∧ r.flagMis = false ∧ (∀ j < 15, nth r.v j = Stage.zero) ∧
      r.consts = nth (nth (nth (s.lane l).tiles t).constBanks (if (nth (s.lane l).tiles t).bank then 1 else 0)) k ∧
      (if ((s.lane l).loop i).st = .start then r.p = StateBlock.zero.p ∧ r.q = StateBlock.zero.q
       else r.p = (nth (nth (s.lane l).tiles t).blocks k).p ∧ r.q = (nth (nth (s.lane l).tiles t).blocks k).q) := by
  refine .of rfl ⟨_, (slotStart_running (slot_lt hs)).trans (slotRun_fast hs hi hf hr hb hl), rfl, rfl, rfl, rfl, rfl, fun j hj => ?_, rfl, ?_⟩
  · exact (nth_put_ne _ _ _ _ (by omega)).trans (nth_replicate (by omega))
  · rcases hl with hl | hl <;> simp [freshRun, hl]

theorem slotStart_empty {s l} {t : Fin 10} {k : Fin 16} (h : Shape s) (hs : nth (nth (s.lane l).tiles t).slots k = none) :
    Completes (.slotStart l t k) s fun u => (nth (u.lane l).tiles t).running = none :=
  .of rfl ((slotStart_running ((h.lane l).tile_lt t)).trans (by simp [slotRun, hs]))

/-! ## Write-back -/

theorem commitPort_modTile {c v x t f} : commitPort c v (LaneState.modTile t f x) = (commitPort c v x).modTile t f := by
  unfold commitPort
  split <;> rfl

/-- The ports a slot commits do not see the tiles. -/
theorem commitPorts_modTile {codes outs x t f} : commitPorts codes outs (LaneState.modTile t f x) = (commitPorts codes outs x).modTile t f := by
  refine List.foldl_hom (LaneState.modTile t f) fun y i => ?_
  split
  · exact commitPort_modTile
  · rfl

/-- A slot that ends leaves the lists of loops until its flags are posted. -/
theorem slotEnd_only {g : LaneState → LaneState} {x t f} (h : LaneOnly [.out, .relay] x (g x)) :
    LaneOnly [.out, .relay, .tiles] x ((g x).modTile t f) := .step (.step .refl h) LaneState.modTile_only

/-- The output ports of a slot's end: those of an invalid START keep what they hold (R138). -/
def committed (r : TileRun) (x : LaneState) : LaneState :=
  if r.isStart = true ∧ r.flagInv = true then x else commitPorts r.outCodes r.outPorts x

theorem committed_only {r x} : LaneOnly [.out, .relay] x (committed r x) := .ite .refl commitPorts_only

/-- Registers written back, ports committed, flags posted. -/
theorem writebackLane_runs {x : LaneState} {t r i} (hr : (nth x.tiles t).running = some r) (hi : r.loop = some i) (hz : r.zero = false) :
    writebackLane t x =
      ((committed r x).modTile t fun y =>
        { y with running := none, blocks := put y.blocks r.slot { p := r.p, q := r.q.map writebackAcc, bad := false } }).modLoop i fun p =>
          { p with inv := r.flagInv, sat := r.flagSat, mis := r.flagMis, ran := true, lastP0 := p0Value r.p } := by
  unfold writebackLane
  simp only [hr, hi, hz, Bool.false_eq_true, if_false, upd_upd, Bool.and_eq_true]
  refine congrArg _ ?_
  unfold committed
  split
  · rfl
  · exact commitPorts_modTile

theorem writebackLane_zero {x : LaneState} {t r i} (hr : (nth x.tiles t).running = some r) (hi : r.loop = some i) (hz : r.zero = true) :
    writebackLane t x =
      ((commitPorts r.outCodes (r.outCodes.map zeroOut) x).modTile t fun y => { y with running := none }).modLoop i fun p =>
        { p with zeroDue := false } := by
  unfold writebackLane
  simp only [hr, hi, hz, if_true]
  exact congrArg _ commitPorts_modTile

theorem writebackLane_idle {x : LaneState} {t} (hr : (nth x.tiles t).running = none) : writebackLane t x = x := by
  unfold writebackLane
  rw [hr]

/-- The end of a slot writes its registers back, commits its ports and posts its flags. -/
theorem slotWriteback_runs {s l r i} {t : Fin 10} (h : Shape s) (hr : (nth (s.lane l).tiles t).running = some r) (hi : r.loop = some i)
    (hz : r.zero = false) : Completes (.slotWriteback l t) s fun u =>
      (nth (u.lane l).tiles t).running = none ∧
      (nth (u.lane l).tiles t).blocks =
        put (nth (s.lane l).tiles t).blocks r.slot { p := r.p, q := r.q.map writebackAcc, bad := false } ∧
      ((u.lane l).loop i).inv = r.flagInv ∧ ((u.lane l).loop i).sat = r.flagSat ∧ ((u.lane l).loop i).mis = r.flagMis ∧
      ((u.lane l).loop i).ran = true ∧ (u.lane l).out = (committed r (s.lane l)).out ∧ (u.lane l).relay = (committed r (s.lane l)).relay := by
  have tiles : (committed r (s.lane l)).tiles = (s.lane l).tiles := committed_only .tiles (by decide)
  have ht : t.val < (committed r (s.lane l)).tiles.length := tiles ▸ (h.lane l).tile_lt t
  refine .of rfl ?_
  rw [State.lane_modLane, writebackLane_runs hr hi hz, (slotEnd_only committed_only).loop_modLoop (h.lane l),
    LaneState.tiles_modLoop, LaneState.tile_modTile ht, LaneState.out_modLoop, LaneState.relay_modLoop, tiles]
  exact ⟨rfl, rfl, rfl, rfl, rfl, rfl, rfl, rfl⟩

/-- The slot of a loop that enters OFF commits zeros alone. -/
theorem slotWriteback_zero {s l r i} {t : Fin 10} (h : Shape s) (hr : (nth (s.lane l).tiles t).running = some r) (hi : r.loop = some i)
    (hz : r.zero = true) : Completes (.slotWriteback l t) s fun u =>
      (nth (u.lane l).tiles t).running = none ∧ (nth (u.lane l).tiles t).blocks = (nth (s.lane l).tiles t).blocks ∧
      ((u.lane l).loop i).zeroDue = false ∧ (u.lane l).out = (commitPorts r.outCodes (r.outCodes.map zeroOut) (s.lane l)).out := by
  have only := commitPorts_only (a0 := r.outCodes) (a1 := r.outCodes.map zeroOut) (x := s.lane l)
  have tiles := only .tiles (by decide)
  have ht : t.val < (commitPorts r.outCodes (r.outCodes.map zeroOut) (s.lane l)).tiles.length := tiles ▸ (h.lane l).tile_lt t
  refine .of rfl ?_
  rw [State.lane_modLane, writebackLane_zero hr hi hz, (slotEnd_only only).loop_modLoop (h.lane l), LaneState.tiles_modLoop,
    LaneState.tile_modTile ht, LaneState.out_modLoop, tiles]
  exact ⟨rfl, rfl, rfl, rfl⟩

theorem slotWriteback_idle {s l} {t : Fin 10} (hr : (nth (s.lane l).tiles t).running = none) :
    Completes (.slotWriteback l t) s fun u => u = s := by
  refine .of rfl ?_
  unfold State.modLane
  rw [writebackLane_idle hr]
  cases l <;> rfl

/-! ## Errors of a tile's memories (R110) -/

/-- An error of the instructions or the constants stops the slot and reports the tile. -/
theorem tileEccError_stops {s l m} {t : Fin 10} (h : Shape s) (hm : m = .instruction ∨ m = .constant) :
    Completes (.tileEccError l t m) s fun u =>
      nth (u.lane l).tiles t = { nth (s.lane l).tiles t with running := none, fault := true } ∧ (u.lane l).health.tile = true := by
  have ht := (h.lane l).tile_lt t
  rcases hm with rfl | rfl <;>
    exact .of rfl (by simp [tileEccEffect, tileFault, upd_upd, nth_upd_self, ht])

theorem tileEccError_corrected {s l} {t : Fin 10} (h : Shape s) : Completes (.tileEccError l t .corrected) s fun u =>
    nth (u.lane l).tiles t = { nth (s.lane l).tiles t with corrected := (nth (s.lane l).tiles t).corrected + 1 } := by
  refine .of rfl ?_
  simp only [tileEccEffect, if_true, State.lane_modLane]
  exact nth_upd_self _ _ _ ((h.lane l).tile_lt t)

/-- An error of a state block marks the block. -/
theorem tileEccError_state {s l k} {t : Fin 10} (h : Shape s) : Completes (.tileEccError l t (.state k)) s fun u =>
    (nth (u.lane l).tiles t).fault = true ∧ (u.lane l).health.tile = true ∧
    (nth (u.lane l).tiles t).blocks = upd (nth (s.lane l).tiles t).blocks k fun b => { b with bad := true } := by
  have ht := (h.lane l).tile_lt t
  exact .of rfl (by simp [tileEccEffect, tileFault, upd_upd, nth_upd_self, ht])

/-- Settles O3, clause by clause: a slot's start, its end, and errors of a tile's memories. -/
theorem slotsRunAndEnd : Obligations.SlotsRunAndEnd :=
  ⟨fun _ _ _ _ _ => slotStart_fast, fun _ _ _ _ => slotStart_empty, fun _ _ _ _ _ => slotWriteback_runs, fun _ _ _ _ _ => slotWriteback_zero,
    fun _ _ _ => slotWriteback_idle, fun _ _ _ _ => tileEccError_stops, fun _ _ _ => tileEccError_corrected,
    fun _ _ _ _ => tileEccError_state⟩

end Sys2Proof.Machine
end

section
/-! PROOF. Frame-word ports: what they read and what they keep (R118). -/

namespace Sys2Proof.Machine
set_option Elab.async false

/-- The code of word w of link n names them. -/
theorem frameWord_code {link word : Nat} (hl : link < 64) (hw : word < 256) : (BitVec.ofNat 16 (256 * link + word)).toNat = 256 * link + word :=
  Nat.mod_eq_of_lt (by omega)

/-- A frame-word port reads the measurement its word holds in the running period's bank, or gives the kept value marked invalid. -/
theorem portRead_frame {s x k} {link word : Nat} (hl : link < 64) (hw : word < 256) :
    portRead s x (BitVec.ofNat 16 (256 * link + word)) k =
      ((slotOf s x link).meas word).elim ({ m := k.toInt, e := 0, inv := true }, k) fun v => (PortVal.ofInt v, BitVec.ofInt 24 v) := by
  have code := frameWord_code hl hw
  have bound : BitVec.ofNat 16 (256 * link + word) ≠ portNone := fun e => by
    have : 256 * link + word = 65535 := code.symm.trans (congrArg BitVec.toNat e)
    omega
  unfold portRead
  simp only [bound, if_false, code, show (256 * link + word) / 2 ^ 14 = 0 by omega, show (256 * link + word) / 256 % 64 = link by omega,
    show (256 * link + word) % 256 = word by omega]
  cases (slotOf s x link).meas word <;> rfl

theorem FrameSlot.meas_valid {f : FrameSlot} {w : Nat} {v : BitVec 24} (hs : f.status = 0) (hv : f.words[w]? = some v) (hn : v ≠ 0x800000) :
    f.meas w = some v.toInt := by
  simp only [FrameSlot.meas, hs, if_true, hv, hn, if_false]

theorem FrameSlot.meas_invalid {f : FrameSlot} {w : Nat} (h : f.status ≠ 0 ∨ f.words[w]? = none ∨ f.words[w]? = some 0x800000) :
    f.meas w = none := by
  unfold FrameSlot.meas
  rcases h with h | h | h
  · rw [if_neg h]
  · simp only [h, ite_self]
  · simp only [h, if_true, ite_self]

theorem portsRead_first {s x codes} : (portsRead s x codes []).1 = (List.range 16).map fun i => (portRead s x (nth codes i) 0).1 := by
  simp [portsRead]

/-- A loop after reset holds nothing. -/
theorem reset_loop {l i} : (State.reset.lane l).loop i = default := by
  cases l <;> cases i <;> exact nth_replicate (Fin.isLt _)

/-- Settles O56: the port by what its word measures, the kept values by the start of the slot. -/
theorem frameWordPorts : Obligations.FrameWordPorts := by
  refine ⟨fun s l link word k hl hw => ⟨fun v hs hv hn => ?_, fun h => ?_⟩, fun _ _ _ => portsRead_first, fun l i => ?_,
    fun _ _ _ _ _ _ h hr hi => .of rfl (slotStart_kept h hr hi)⟩
  · rw [portRead_frame hl hw, slotOf, curBank, FrameSlot.meas_valid hs hv hn]
    exact congrArg (Prod.mk _) BitVec.ofInt_toInt
  · rw [portRead_frame hl hw, slotOf, curBank, FrameSlot.meas_invalid h]
    rfl
  · exact congrArg Loop.kept reset_loop

end Sys2Proof.Machine
end

section
/-! PROOF. Capture: arming, triggering, stopping and completing (R132). -/

namespace Sys2Proof.Machine
set_option Elab.async false

/-! ## Host writes to the capture -/

/-- A command of the host on the capture that is permitted has its effect. -/
theorem captureWrite_permitted {s c f} {P : State → Prop} (run : exec c s = .next (hostWrite (writable s) f s))
    (ha : (activeLane s).isSome = true) (hw : writable s = true) (h : P (f (respond 0 [] s))) : Completes c s P :=
  .of (run.trans (congrArg Host.Outcome.next (hostWrite_permitted ha hw))) h

/-- In a mode without writes a host write is refused for the present state. -/
theorem hostWrite_refused {f s} (ha : (activeLane s).isSome = true) : hostWrite false f s = respond 0x08000022 [] s := by
  rw [Option.isSome_iff_ne_none] at ha
  simp [hostWrite, ha, abortState]

/-- Without an active lane nobody answers (R76). -/
theorem hostWrite_unanswered {ok f s} (ha : activeLane s = none) : hostWrite ok f s = s := by
  simp [hostWrite, ha]

/-- The three host commands on the capture are host writes. -/
theorem captureCommand_run {s c} (h : c = .captureArm ∨ c = .captureForceTrigger ∨ c = .captureStop) :
    ∃ f, exec c s = .next (hostWrite (writable s) f s) := by
  rcases h with rfl | rfl | rfl
  · exact ⟨captureArmEffect, rfl⟩
  · exact ⟨captureForceEffect, rfl⟩
  · exact ⟨captureStopEffect, rfl⟩

/-! ## The effects -/

@[simp] theorem modCap_cap {f s} : (modCap f s).clk.cap = f s.clk.cap := rfl
@[simp] theorem modCap_response {f s} : (modCap f s).comm.response = s.comm.response := rfl
@[simp] theorem modCap_period {f s} : (modCap f s).clk.period = s.clk.period := rfl
@[simp] theorem triggerMode_modCap {f s} : triggerMode (modCap f s) = triggerMode s := rfl
@[simp] theorem triggerMode_respond {c d s} : triggerMode (respond c d s) = triggerMode s := rfl
@[simp] theorem preTrigger_respond {c d s} : preTrigger (respond c d s) = preTrigger s := rfl

theorem captureTriggered_cap {n s} : (captureTriggered n s).clk.cap =
    { s.clk.cap with st := 2, triggered := true, trigPeriod := BitVec.ofNat 64 s.clk.period, bufs := s.clk.cap.bufs.map (lastN n) } := rfl

/-- Arming empties the buffers; trigger mode 0 runs at once. -/
theorem captureArm_completes {s} (ha : (activeLane s).isSome = true) (hw : writable s = true) : Completes .captureArm s fun t =>
    t.clk.cap.bufs = List.replicate 4 [] ∧ t.comm.response = some (0, []) ∧
    (if triggerMode s = 0 then t.clk.cap.st = 2 ∧ t.clk.cap.triggered = true ∧ t.clk.cap.trigPeriod = BitVec.ofNat 64 s.clk.period
     else t.clk.cap.st = 1 ∧ t.clk.cap.triggered = false) := by
  refine captureWrite_permitted (f := captureArmEffect) rfl ha hw ?_
  unfold captureArmEffect
  by_cases hm : triggerMode s = 0
  · simp [hm, captureTriggered, lastN]
  · simp [hm]

/-- A forced trigger starts an armed capture and keeps its pre-trigger samples. -/
theorem captureForceTrigger_completes {s} (ha : (activeLane s).isSome = true) (hw : writable s = true) (hs : s.clk.cap.st = 1) :
    Completes .captureForceTrigger s fun t =>
      t.clk.cap.st = 2 ∧ t.clk.cap.triggered = true ∧ t.clk.cap.trigPeriod = BitVec.ofNat 64 s.clk.period ∧
      t.clk.cap.bufs = s.clk.cap.bufs.map (lastN (preTrigger s)) := by
  refine captureWrite_permitted (f := captureForceEffect) rfl ha hw ?_
  rw [captureForceEffect, respond_clk, if_pos hs, captureTriggered_cap]
  exact ⟨rfl, rfl, rfl, rfl⟩

theorem captureStop_completes {s} (ha : (activeLane s).isSome = true) (hw : writable s = true) (hs : s.clk.cap.st = 1 ∨ s.clk.cap.st = 2) :
    Completes .captureStop s fun t => t.clk.cap = { s.clk.cap with st := 0 } := by
  have active : s.clk.cap.active = true := by simpa [Capture.active] using hs
  refine captureWrite_permitted (f := captureStopEffect) rfl ha hw ?_
  rw [captureStopEffect, respond_clk, if_pos active, modCap_cap, respond_clk]

/-- A level trigger starts an armed capture, the crossing sample the last of those it keeps. -/
theorem captureTrigger_completes {s} (hs : s.clk.cap.st = 1) (hc : crossed s = true) : Completes .captureTrigger s fun t =>
    t.clk.cap.st = 2 ∧ t.clk.cap.trigPeriod = BitVec.ofNat 64 s.clk.period ∧
    t.clk.cap.bufs = s.clk.cap.bufs.map (lastN (preTrigger s + 1)) := by
  refine .of rfl ?_
  rw [captureTriggerEffect, if_pos (by simp [hs, hc]), captureTriggered_cap]
  exact ⟨rfl, rfl, rfl⟩

theorem captureComplete_completes {s} (hs : s.clk.cap.st = 2) (hn : 4096 ≤ (nth s.clk.cap.bufs 0).length) :
    Completes .captureComplete s fun t => t.clk.cap = { s.clk.cap with st := 3 } := by
  have held : samplesHeld s = (nth s.clk.cap.bufs 0).length := if_neg (by simp [hs])
  refine .of rfl ?_
  rw [captureCompleteEffect, held, if_pos ⟨hs, hn⟩, modCap_cap]

/-- Settles O10, command by command, then the refusals of the host's three. -/
theorem captureCommands : Obligations.CaptureCommands := by
  refine ⟨fun _ => captureArm_completes, fun _ => captureForceTrigger_completes, fun _ => captureStop_completes,
    fun _ => captureTrigger_completes, fun _ => captureComplete_completes, fun s c hc ha hw => ?_, fun s c hc ha => ?_⟩
  · obtain ⟨f, run⟩ := captureCommand_run (s := s) hc
    rw [run, hw, hostWrite_refused ha]
  · obtain ⟨f, run⟩ := captureCommand_run (s := s) hc
    rw [run, hostWrite_unanswered ha]

end Sys2Proof.Machine
end

section
/-! PROOF. Every command answers a next state (R130, R131, logs 5 and 6). -/

namespace Sys2Proof.Machine
set_option Elab.async false

/-- Every arm of exec is the next state its meaning gives: none stops the block. -/
theorem exec_completes (c : Instr) (s : State) : ∃ t, exec c s = .next t := by
  cases c <;> exact ⟨_, rfl⟩

/-- Settles O51: each arm is a next state, and a tile instruction without a running slot leaves the state. -/
theorem commandsComplete : Obligations.CommandsComplete := ⟨exec_completes, fun _ _ _ _ _ => tileRows_idle⟩

end Sys2Proof.Machine
end

section
/-! PROOF. Loops: host commands, requests of blocks, the stop time and the end of an override ramp (R135-R137, R140, R144, R146). -/

namespace Sys2Proof.Machine
set_option Elab.async false

/-! ## What an operation leaves of a loop -/

/-- An operation that does not write the lists of loops leaves every loop of the lane. -/
theorem Only.loop {dev l own rest s t} (h : Only dev l own rest s t) (j : LoopId)
    (hq : LanePart.bayLoops ∉ own ∧ LanePart.modLoops ∉ own ∧ LanePart.strLoops ∉ own ∧ LanePart.slowLoops ∉ own := by decide) :
    (t.lane l).loop j = (s.lane l).loop j := h.lane.loop j hq

@[simp] theorem meterCommission_loop {i s l j} : ((meterCommission i s).lane l).loop j = (s.lane l).loop j := meterCommission_only.loop j

@[simp] theorem captureAbort_loop {i s l j} : ((captureAbort i s).lane l).loop j = (s.lane l).loop j := captureAbort_only.loop j

@[simp] theorem recheckSpares_loop {s l j} : ((recheckSpares s).lane l).loop j = (s.lane l).loop j := recheckSpares_only.loop j

@[simp] theorem endBaySession_loop {i cause s l j} : ((endBaySession i cause s).lane l).loop j = (s.lane l).loop j :=
  endBaySession_only.loop j

theorem openBay_step_loop {x : LaneState} {j : Nat} {n : Fin 24} :
    (LaneState.modMod j (openSwitch .free) (if h : j < 96 then loopOff (.module ⟨j, h⟩) x else x)).loop (.bay n) = x.loop (.bay n) := by
  split <;> rfl

/-- A bay's modules open without a change of the bay's own loop. -/
theorem openBay_loop {i : Nat} {x : LaneState} {n : Fin 24} : (openBay i x).loop (.bay n) = x.loop (.bay n) := by
  unfold openBay
  induction servingMods x i generalizing x with
  | nil => rfl
  | cons j js ih => exact ih.trans openBay_step_loop

/-! ## Enabling and disabling one loop (R137, R140) -/

/-- A loop that is OFF and was not disabled in this period enters START. -/
theorem enableLoop_off {i x} (hs : (x.loop i).st = .off) (hn : (x.loop i).nextSt = none) (hd : (x.loop i).disNow = false) :
    enableLoop i x = x.modLoop i Loop.toStart := by
  simp [enableLoop, hs, hn, hd]

/-- A loop in RUN that does not fault in this period enters STOP, a slow one OFF. -/
theorem toStop_run {slow} {p : Loop} (hs : p.st = .run) (hn : p.nextSt ≠ some .fault) : (p.toStop slow).st = if slow then .off else .stop := by
  cases slow <;> simp [Loop.toStop, hs, hn]

/-! ## Host commands (R136) -/

theorem loopPermitted_enable {s} : loopPermitted s 1 = true ↔ s.modes.mode = .commission := beq_iff_eq

theorem loopPermitted_reset {s} : loopPermitted s 3 = true ↔ s.modes.mode ≠ .boot ∧ s.modes.mode ≠ .backup ∧ s.modes.mode ≠ .safe := by
  show (s.modes.mode != .boot && s.modes.mode != .backup && s.modes.mode != .safe) = true ↔ _
  simp [and_assoc]

/-- A command that the mode permits waits, and supersedes one that waited. -/
theorem hostLoopCommand_waits {cmd code s} : (hostLoopCommand cmd code s).clk.loopCmd = some (code, cmd) ∧
    (hostLoopCommand cmd code s).clk.loopResult = (if s.clk.loopCmd.isSome then 5 else 1) ∧
    (hostLoopCommand cmd code s).comm.response = some (0, []) := by
  unfold hostLoopCommand
  cases hc : s.clk.loopCmd with
  | none => simp [hc]
  | some c => simp [hc]

theorem ifPermitted_waits {cmd code s} (h : loopPermitted s cmd = true) : (ifPermitted cmd code s).clk.loopCmd = some (code, cmd) ∧
    (ifPermitted cmd code s).clk.loopResult = (if s.clk.loopCmd.isSome then 5 else 1) ∧
    (ifPermitted cmd code s).comm.response = some (0, []) := by
  rw [ifPermitted, if_pos h]
  exact hostLoopCommand_waits

theorem ifPermitted_refused {cmd code s} (h : ¬ loopPermitted s cmd = true) : ifPermitted cmd code s = respond 0x08000022 [] s := if_neg h

/-! ## The loop a code names -/

theorem codeOfLoop_lt (i : LoopId) : codeOfLoop i < 2 ^ 16 := by
  cases i <;> simp only [codeOfLoop] <;> omega

theorem loopOfCode_codeOfLoop (i : LoopId) : loopOfCode (codeOfLoop i) = some i := by
  cases i with
  | bay n => simp [loopOfCode, codeOfLoop, show (256 + n.val + 1) / 256 = 1 by omega, show (256 + n.val + 1) % 256 = n.val + 1 by omega]
  | module n => simp [loopOfCode, codeOfLoop, show (512 + n.val + 1) / 256 = 2 by omega, show (512 + n.val + 1) % 256 = n.val + 1 by omega]
  | string n => simp [loopOfCode, codeOfLoop, show (768 + n.val + 1) / 256 = 3 by omega, show (768 + n.val + 1) % 256 = n.val + 1 by omega]
  | slow n => simp [loopOfCode, codeOfLoop, show (1024 + n.val) / 256 = 4 by omega, show (1024 + n.val) % 256 = n.val by omega]

/-- The 16 bits of object 3501:01 that carry a loop's code name the loop. -/
theorem loopOfCode_loopCode16 (i : LoopId) : loopOfCode (loopCode16 i).toNat = some i := by
  rw [loopCode16, BitVec.toNat_ofNat, Nat.mod_eq_of_lt (codeOfLoop_lt i), loopOfCode_codeOfLoop]

/-! ## The command taken at a share-cycle boundary -/

/-- State u with no command waiting and the result r of the last. -/
def loopAnswered (r : U8) (u : State) : State := { u with clk := { u.clk with loopCmd := none, loopResult := r } }

@[simp] theorem loopAnswered_lane {r u l} : (loopAnswered r u).lane l = u.lane l := by cases l <;> rfl

/-- At a share-cycle boundary the command that waits is taken and answered. -/
theorem loopCommandTaken_answers {s n c} {P : State → Prop} (hc : s.clk.loopCmd = some (n, c)) (hb : atShare s = true)
    (h : P (loopAnswered (takeLoopCommand n c s).1 (takeLoopCommand n c s).2)) : Completes .loopCommandTaken s P := by
  refine .of (t := loopCommandTakenEffect s) rfl ?_
  unfold loopCommandTakenEffect
  simp only [hc, hb, if_true]
  exact h

/-- The command that waits for loop i is applied to it. -/
theorem loopCommandTaken_applies {s i c r u} {P : State → Prop} (hc : s.clk.loopCmd = some (loopCode16 i, c)) (hb : atShare s = true)
    (ha : applyLoopCommand i c s = (r, u)) (h : P (loopAnswered r u)) : Completes .loopCommandTaken s P := by
  have taken : takeLoopCommand (loopCode16 i) c s = (r, u) := by
    rw [takeLoopCommand, loopOfCode_loopCode16]
    exact ha
  exact loopCommandTaken_answers hc hb (by rwa [taken])

theorem applyLoopCommand_unused {s i c} (hu : loopUsed s i = false) : applyLoopCommand i c s = (2, s) := by
  simp [applyLoopCommand, hu]

theorem applyLoopCommand_noEffect {s i c} (hu : loopUsed s i = true) (hn : loopNoEffect s i c = true) :
    applyLoopCommand i c s = (BitVec.ofNat 8 (Config.freeNat s.free), s.useFree 1) := by
  simp [applyLoopCommand, hu, hn]

/-- A command that has an effect, on a used loop. -/
theorem applyLoopCommand_effect {s i c} (hu : loopUsed s i = true) (hn : loopNoEffect s i c = false) : applyLoopCommand i c s =
    if c = 1 then
      if (s.act.loop i).st = .fault then (3, bothLanes (enableLoop i) s) else (0, meterCommission i (bothLanes (enableLoop i) s))
    else if c = 2 then (0, captureAbort i (bothLanes (disableLoop i) s))
    else if (s.act.loop i).st = .fault then (0, bothLanes (leaveFault i) s)
    else (4, s) := by
  simp [applyLoopCommand, hu, hn]

/-- A command that the mode permits has an effect on a fast loop, a fault reset on every loop. -/
theorem loopNoEffect_permitted {s i c} (hp : loopPermitted s c = true) (hi : isSlowLoop i = false ∨ c = 3) : loopNoEffect s i c = false := by
  rcases hi with hi | rfl
  · simp [loopNoEffect, hp, hi]
  · rw [loopNoEffect, hp]
    simp

theorem applyLoopCommand_enable {s i} (hu : loopUsed s i = true) (hm : s.modes.mode = .commission) (hi : isSlowLoop i = false)
    (hf : (s.act.loop i).st ≠ .fault) : applyLoopCommand i 1 s = (0, meterCommission i (bothLanes (enableLoop i) s)) := by
  rw [applyLoopCommand_effect hu (loopNoEffect_permitted (loopPermitted_enable.2 hm) (.inl hi)), if_pos rfl, if_neg hf]

theorem applyLoopCommand_disable {s i} (hu : loopUsed s i = true) (hm : powerMode s = true) (hi : isSlowLoop i = false) :
    applyLoopCommand i 2 s = (0, captureAbort i (bothLanes (disableLoop i) s)) := by
  rw [applyLoopCommand_effect hu (loopNoEffect_permitted (c := 2) hm (.inl hi)), if_neg (by decide), if_pos rfl]

theorem applyLoopCommand_reset {s i} (hu : loopUsed s i = true) (hb : s.modes.mode ≠ .boot) (hk : s.modes.mode ≠ .backup)
    (hs : s.modes.mode ≠ .safe) (hf : (s.act.loop i).st = .fault) : applyLoopCommand i 3 s = (0, bothLanes (leaveFault i) s) := by
  rw [applyLoopCommand_effect hu (loopNoEffect_permitted (loopPermitted_reset.2 ⟨hb, hk, hs⟩) (.inr rfl)), if_neg (by decide),
    if_neg (by decide), if_pos hf]

/-- A used fast loop that is OFF enters START (R136, R137). -/
theorem loopCommandTaken_enables {s i} {l : Lane} (h : Shape s) (hc : s.clk.loopCmd = some (loopCode16 i, 1)) (hb : atShare s = true)
    (hu : loopUsed s i = true) (hm : s.modes.mode = .commission) (hi : isSlowLoop i = false) (hf : (s.act.loop i).st ≠ .fault)
    (hs : ((s.lane l).loop i).st = .off) (hn : ((s.lane l).loop i).nextSt = none) (hd : ((s.lane l).loop i).disNow = false) :
    Completes .loopCommandTaken s fun t => t.clk.loopCmd = none ∧ t.clk.loopResult = 0 ∧
      ((t.lane l).loop i).st = .start ∧ ((t.lane l).loop i).count = 0 := by
  refine loopCommandTaken_applies hc hb (applyLoopCommand_enable hu hm hi hf) ⟨rfl, rfl, ?_⟩
  rw [loopAnswered_lane, meterCommission_loop, bothLanes_lane, enableLoop_off hs hn hd, (h.lane l).loop_modLoop]
  exact ⟨rfl, rfl⟩

/-- A fast loop in RUN enters STOP (R140). -/
theorem loopCommandTaken_disables {s i} {l : Lane} (h : Shape s) (hc : s.clk.loopCmd = some (loopCode16 i, 2)) (hb : atShare s = true)
    (hu : loopUsed s i = true) (hm : powerMode s = true) (hi : isSlowLoop i = false) (hs : ((s.lane l).loop i).st = .run)
    (hn : ((s.lane l).loop i).nextSt ≠ some .fault) :
    Completes .loopCommandTaken s fun t => t.clk.loopCmd = none ∧ t.clk.loopResult = 0 ∧ ((t.lane l).loop i).st = .stop := by
  refine loopCommandTaken_applies hc hb (applyLoopCommand_disable hu hm hi) ⟨rfl, rfl, ?_⟩
  rw [loopAnswered_lane, captureAbort_loop, bothLanes_lane, disableLoop, (h.lane l).loop_modLoop, toStop_run hs hn, hi]
  rfl

/-- A loop in FAULT leaves it for OFF with its cause cleared (R146). -/
theorem loopCommandTaken_resets {s i} {l : Lane} (h : Shape s) (hc : s.clk.loopCmd = some (loopCode16 i, 3)) (hb : atShare s = true)
    (hu : loopUsed s i = true) (hm : s.modes.mode ≠ .boot) (hk : s.modes.mode ≠ .backup) (hs : s.modes.mode ≠ .safe)
    (hf : (s.act.loop i).st = .fault) :
    Completes .loopCommandTaken s fun t => t.clk.loopCmd = none ∧ t.clk.loopResult = 0 ∧
      ((t.lane l).loop i).st = .off ∧ ((t.lane l).loop i).cause = 0 := by
  refine loopCommandTaken_applies hc hb (applyLoopCommand_reset hu hm hk hs hf) ⟨rfl, rfl, ?_⟩
  rw [loopAnswered_lane, bothLanes_lane, leaveFault, (h.lane l).loop_modLoop]
  exact ⟨rfl, rfl⟩

theorem loopCommandTaken_unnamed {s n c} (hc : s.clk.loopCmd = some (n, c)) (hb : atShare s = true) (hn : loopOfCode n.toNat = none) :
    Completes .loopCommandTaken s fun t => t = { s with clk := { s.clk with loopCmd := none, loopResult := 2 } } := by
  have taken : takeLoopCommand n c s = (2, s) := by
    rw [takeLoopCommand, hn]
  refine loopCommandTaken_answers hc hb ?_
  rw [taken]
  rfl

/-! ## Requests of blocks (R135) -/

/-- An enable of a block acts at once, on its loop alone. -/
theorem loopBlockEnable_enables {s i} {l : Lane} (h : Shape s) (hr : computing s l = true) (hu : loopUsed s i = true)
    (hm : enableMode s i = true) (hs : ((s.lane l).loop i).st = .off) (hn : ((s.lane l).loop i).nextSt = none)
    (hd : ((s.lane l).loop i).disNow = false) :
    Completes (.loopBlockEnable l i true) s fun t => ((t.lane l).loop i).st = .start ∧
      ∀ j, j ≠ i → (t.lane l).loop j = (s.lane l).loop j := by
  have run : loopBlockEnableEffect l i true s = meterCommission i (s.modLane l (enableLoop i)) := by
    simp [loopBlockEnableEffect, hr, hu, hm]
  refine .of (congrArg Host.Outcome.next run) ⟨?_, fun j hj => ?_⟩
  · rw [meterCommission_loop, State.lane_modLane, enableLoop_off hs hn hd, (h.lane l).loop_modLoop]
    rfl
  · rw [meterCommission_loop, State.lane_modLane, enableLoop_off hs hn hd, LaneState.loop_modLoop_ne hj]

/-- A disable of a block acts at once, on its loop alone. -/
theorem loopBlockEnable_disables {s i} {l : Lane} (h : Shape s) (hr : computing s l = true) (hu : loopUsed s i = true)
    (hs : ((s.lane l).loop i).st = .run) (hn : ((s.lane l).loop i).nextSt ≠ some .fault) :
    Completes (.loopBlockEnable l i false) s fun t => ((t.lane l).loop i).st = (if isSlowLoop i then .off else .stop) ∧
      ∀ j, j ≠ i → (t.lane l).loop j = (s.lane l).loop j := by
  have run : loopBlockEnableEffect l i false s = captureAbort i (s.modLane l (disableLoop i)) := by
    simp [loopBlockEnableEffect, hr, hu]
  refine .of (congrArg Host.Outcome.next run) ⟨?_, fun j hj => ?_⟩
  · rw [captureAbort_loop, State.lane_modLane, disableLoop, (h.lane l).loop_modLoop, toStop_run hs hn]
  · rw [captureAbort_loop, State.lane_modLane, disableLoop, LaneState.loop_modLoop_ne hj]

/-! ## The stop time (R140) and entry into FAULT (R144) -/

/-- The reaction of a loop changes its override alone. -/
theorem startReaction_loop {s i x} (h : LaneShape x) : ∃ r, (startReaction s i x).loop i = { x.loop i with override := r } := by
  cases i with
  | bay n =>
    unfold startReaction
    dsimp only
    split
    · exact ⟨_, h.loop_modLoop _ _⟩
    · exact ⟨_, rfl⟩
  | module j => exact ⟨_, retireByLoop_only.loop _⟩
  | string k =>
    unfold startReaction
    dsimp only
    split
    · exact ⟨_, h.loop_modLoop (.string k) _⟩
    · exact ⟨_, rfl⟩
  | slow j =>
    unfold startReaction
    dsimp only
    split
    · exact ⟨_, commitPorts_only.loop _⟩
    · exact ⟨_, rfl⟩

theorem startReaction_ctl {s i x} : (startReaction s i x).ctl = x.ctl := startReaction_only .ctl (by decide)

/-- Lane x as loop i enters FAULT, before its reaction: the state holds from the next period, the entry is counted, an event is written. -/
def faultCounted (s : State) (i : LoopId) (cause : Nat) (x : LaneState) : LaneState :=
  let y := x.modLoop i fun q =>
    { q with nextSt := some .fault, cause := BitVec.ofNat 4 cause, override := []
             faultAt := if cause = 1 then some s.clk.period else none }
  LaneState.event (eventReq .loopFault (loopInst (x.loop i)) [codeOfLoop i, cause])
    { y with ctl := (let c := y.ctl; { c with loopFaults := c.loopFaults + 1 }) }

theorem faultCounted_shape {s i cause x} (h : LaneShape x) : LaneShape (faultCounted s i cause x) := { h.modLoop i _ with }

theorem faultCounted_loop {s i cause x} (h : LaneShape x) : ((faultCounted s i cause x).loop i).nextSt = some .fault ∧
    ((faultCounted s i cause x).loop i).cause = BitVec.ofNat 4 cause := by
  have loop : ∀ f : Loop → Loop, (x.modLoop i f).loop i = f (x.loop i) := h.loop_modLoop i
  cases i <;> exact ⟨congrArg Loop.nextSt (loop _), congrArg Loop.cause (loop _)⟩

theorem faultCounted_loopFaults {s i cause x} : (faultCounted s i cause x).ctl.loopFaults = x.ctl.loopFaults + 1 := by
  cases i <;> rfl

/-- A loop that is not in FAULT yet enters it. -/
theorem enterFault_counted {s i cause x} (hs : (x.loop i).st ≠ .fault) (hn : (x.loop i).nextSt ≠ some .fault) :
    enterFault s i cause x = startReaction s i (faultCounted s i cause x) := if_neg (not_or.2 ⟨hs, hn⟩)

/-- A loop that enters FAULT does so with its cause from the next period, and is counted. -/
theorem enterFault_enters {s i cause x} (h : LaneShape x) (hs : (x.loop i).st ≠ .fault) (hn : (x.loop i).nextSt ≠ some .fault) :
    ((enterFault s i cause x).loop i).nextSt = some .fault ∧ ((enterFault s i cause x).loop i).cause = BitVec.ofNat 4 cause ∧
    (enterFault s i cause x).ctl.loopFaults = x.ctl.loopFaults + 1 := by
  obtain ⟨r, loop⟩ := startReaction_loop (s := s) (i := i) (faultCounted_shape (s := s) (i := i) (cause := cause) h)
  rw [enterFault_counted hs hn, loop, startReaction_ctl, faultCounted_loopFaults]
  exact ⟨(faultCounted_loop h).1, (faultCounted_loop h).2, rfl⟩

theorem loopStopTimeout_faults {s i} {l : Lane} (h : Shape s) (hs : ((s.lane l).loop i).st = .stop)
    (hn : ((s.lane l).loop i).nextSt = none) (ht : msPeriods s (cfgN s 0x3502 0xA) ≤ ((s.lane l).loop i).stopFor) :
    Completes (.loopStopTimeout l i) s fun t => ((t.lane l).loop i).nextSt = some .fault ∧ ((t.lane l).loop i).cause = 3 ∧
      (t.lane l).ctl.loopFaults = (s.lane l).ctl.loopFaults + 1 := by
  have run : loopStopTimeoutEffect l i s = recheckSpares (s.modLane l (enterFault s i 3)) := if_pos ⟨hs, by simp [hn], ht⟩
  refine .of (congrArg Host.Outcome.next run) ?_
  rw [recheckSpares_loop, recheckSpares_ctl, State.lane_modLane]
  exact enterFault_enters (h.lane l) (by simp [hs]) (by simp [hn])

/-! ## The end of an override ramp (R144) -/

/-- Lane x after the ramp of loop i: its words stay 0 and the override is over. -/
def rampOver (i : LoopId) (x : LaneState) : LaneState := (rampZeros (x.loop i).override x).modLoop i fun p => { p with override := [] }

theorem rampOver_override {i x} (h : LaneShape x) : ((rampOver i x).loop i).override = [] := by
  rw [rampOver, rampZeros_only.loop_modLoop h]

/-- String k's RUN and CONT fall. -/
def dropString (k : Nat) (x : LaneState) : LaneState :=
  { x with share := (let h := x.share
                     { h with strs := upd h.strs k fun (y : StrState) => { y with run := false, cont := false } }) }

theorem dropString_strs {k : Fin 8} {x} (h : x.share.strs.length = 8) :
    (nth (dropString k x).share.strs k).run = false ∧ (nth (dropString k x).share.strs k).cont = false := by
  simp [dropString, nth_upd_self, h]

theorem faultRampEndEffect_bay {s l} {n : Fin 24} (hr : rampDone ((s.lane l).loop (.bay n)) = true) :
    faultRampEndEffect l (.bay n) s =
      (let t := (s.modLane l (rampOver (.bay n))).modLane l (openBay n)
       if ((s.lane l).loop (.bay n)).st = .fault then endBaySession n 6 t else t) := if_pos hr

theorem faultRampEndEffect_string {s l} {k : Fin 8} (hr : rampDone ((s.lane l).loop (.string k)) = true) :
    faultRampEndEffect l (.string k) s = (s.modLane l (rampOver (.string k))).modLane l (dropString k) := if_pos hr

theorem faultRampEndEffect_module {s l j} (hr : rampDone ((s.lane l).loop (.module j)) = true) :
    faultRampEndEffect l (.module j) s = s.modLane l (rampOver (.module j)) := if_pos hr

theorem faultRampEndEffect_slow {s l j} (hr : rampDone ((s.lane l).loop (.slow j)) = true) :
    faultRampEndEffect l (.slow j) s = s.modLane l (rampOver (.slow j)) := if_pos hr

/-- A ramp that has written its last word is over, whatever the kind of its loop. -/
theorem faultRampEndEffect_override {s i} {l : Lane} (h : Shape s) (hr : rampDone ((s.lane l).loop i) = true) :
    (((faultRampEndEffect l i s).lane l).loop i).override = [] := by
  have ended : ((rampOver i (s.lane l)).loop i).override = [] := rampOver_override (h.lane l)
  cases i with
  | bay n =>
    have opened : ((((s.modLane l (rampOver (.bay n))).modLane l (openBay n)).lane l).loop (.bay n)).override = [] := by
      rw [State.lane_modLane, openBay_loop, State.lane_modLane, ended]
    rw [faultRampEndEffect_bay hr]
    dsimp only
    split
    · rw [endBaySession_loop, opened]
    · exact opened
  | module j => rw [faultRampEndEffect_module hr, State.lane_modLane, ended]
  | string k =>
    rw [faultRampEndEffect_string hr, State.lane_modLane, State.lane_modLane]
    exact ended
  | slow j => rw [faultRampEndEffect_slow hr, State.lane_modLane, ended]

/-- A string's RUN and CONT fall with its ramp. -/
theorem faultRampEnd_string {s l} {k : Fin 8} (h : Shape s) (hr : rampDone ((s.lane l).loop (.string k)) = true) :
    Completes (.faultRampEnd l (.string k)) s fun t => ((t.lane l).loop (.string k)).override = [] ∧
      (nth (t.lane l).share.strs k).run = false ∧ (nth (t.lane l).share.strs k).cont = false := by
  refine .of rfl ⟨faultRampEndEffect_override h hr, ?_⟩
  rw [faultRampEndEffect_string hr, State.lane_modLane, State.lane_modLane]
  exact dropString_strs (h.lane l).strs

/-- Settles O9, clause by clause: host commands, the boundary that takes them, requests of blocks, the stop time, the end of a ramp. -/
theorem loopCommands : Obligations.LoopCommands := by
  refine ⟨fun s i hm => .of rfl (ifPermitted_waits (loopPermitted_enable.2 hm)),
    fun s i hm => .of rfl (ifPermitted_refused (hm ∘ loopPermitted_enable.1)),
    fun s i hm => .of rfl (ifPermitted_waits hm), fun s i hm => .of rfl (ifPermitted_refused (Bool.eq_false_iff.1 hm)),
    fun s i hb hk hs => .of rfl (ifPermitted_waits (loopPermitted_reset.2 ⟨hb, hk, hs⟩)),
    fun s i hm => .of rfl (ifPermitted_refused fun p => ?_),
    fun _ _ _ => loopCommandTaken_enables, fun _ _ _ => loopCommandTaken_disables, fun _ _ _ => loopCommandTaken_resets,
    fun _ _ _ hc hb hu hn => loopCommandTaken_applies hc hb (applyLoopCommand_noEffect hu hn) ⟨rfl, rfl, rfl, rfl⟩,
    fun _ _ _ hc hb hu => loopCommandTaken_applies hc hb (applyLoopCommand_unused hu) rfl,
    fun _ _ _ => loopCommandTaken_unnamed, fun _ _ _ => loopBlockEnable_enables, fun _ _ _ => loopBlockEnable_disables,
    fun _ _ _ => loopStopTimeout_faults, fun _ _ _ => faultRampEnd_string, fun _ _ _ h hr => .of rfl (faultRampEndEffect_override h hr)⟩
  obtain ⟨hb, hk, hs⟩ := loopPermitted_reset.1 p
  exact hm.elim hb (·.elim hk hs)

end Sys2Proof.Machine
end

section
/-! PROOF. Test injections: arming, starting, stopping and ending (R148-R152). -/

namespace Sys2Proof.Machine
set_option Elab.async false

@[simp] theorem modInj_inj {f s} : (modInj f s).clk.inj = f s.clk.inj := rfl

/-- The two host commands on the injection are host writes. -/
theorem injectionCommand_run {s c} (h : c = .injectionArm ∨ c = .injectionStop) : ∃ f, exec c s = .next (hostWrite (writable s) f s) := by
  rcases h with rfl | rfl
  · exact ⟨injectionArmEffect, rfl⟩
  · exact ⟨injectionStopEffect, rfl⟩

/-! ## Arming (R149) -/

/-- The conditions of Table 7.7 do not see the answer to the host. -/
theorem armRefusal_respond {c d s} : armRefusal (respond c d s) = armRefusal s := rfl

/-- An arm is accepted where no condition refuses it, else the refusal code is its cause. -/
theorem injectionArmEffect_inj {s} : (injectionArmEffect s).clk.inj =
    if armRefusal s = 0 then { s.clk.inj with st := 1, cause := 0 } else { s.clk.inj with cause := BitVec.ofNat 8 (armRefusal s) } := by
  unfold injectionArmEffect
  dsimp only
  split <;> rfl

theorem injectionArm_completes {s} (ha : (activeLane s).isSome = true) (hw : writable s = true) : Completes .injectionArm s fun t =>
    if armRefusal s = 0 then t.clk.inj = { s.clk.inj with st := 1, cause := 0 }
    else t.clk.inj = { s.clk.inj with cause := BitVec.ofNat 8 (armRefusal s) } := by
  refine hostWrite_completes (f := injectionArmEffect) rfl hw ha ?_
  rw [injectionArmEffect_inj, armRefusal_respond, respond_clk]
  split <;> rfl

/-! ## The start (R150, R151) -/

/-- The injection's registers at its start. -/
def generatorStarted (i : LoopId) (s : State) (j : Injection) : Injection :=
  { j with st := 2, startPeriod := BitVec.ofNat 64 s.clk.period, loop := some i, stopDue := none, mode := s.modes.mode, reelNew := false
           lfsr := BitVec.ofNat 15 (2 ^ prbsOrder s - 1), elapsed := 0, step := 0, inStep := 0
           log := if rwN s 0x3506 4 = 0 then []
                  else [(BitVec.ofNat 64 s.clk.period, BitVec.ofNat 32 (phaseInc s 0), BitVec.ofNat 32 (stepPeriods s 0))] }

/-- State s with the injection on loop i started and its first value taken. -/
def injectionStarted (i : LoopId) (s : State) : State :=
  let t := modInj (generatorStarted i s) s
  modInj (fun j => { j with g := genValue t }) t

/-- Loop i is marked as the injection's in both lanes. -/
def markInjected (i : LoopId) (s : State) : State := bothLanes (fun x => x.modLoop i fun p => { p with inj := true }) s

/-- A capture that waits for the injection of its loop triggers. -/
def injectionTrigger (i : LoopId) (s : State) : State :=
  if s.clk.cap.st = 1 ∧ triggerMode s = 3 ∧ captureLoop s = some i then captureTriggered (preTrigger s) s else s

theorem injectionTrigger_inj {i s} : (injectionTrigger i s).clk.inj = s.clk.inj := by
  unfold injectionTrigger
  split <;> rfl

theorem injectionTrigger_lane {i s} {l : Lane} : (injectionTrigger i s).lane l = s.lane l := by
  unfold injectionTrigger
  split <;> cases l <;> rfl

/-- An armed injection of a named loop starts at a share-cycle boundary. -/
theorem injectionStartEffect_starts {s i} (hs : s.clk.inj.st = 1) (hb : atShare s = true) (hi : injLoop s = some i) :
    injectionStartEffect s = injectionTrigger i (markInjected i (injectionStarted i s)) := by
  unfold injectionStartEffect
  rw [if_pos ⟨hs, hb⟩]
  simp only [hi]
  rfl

theorem injectionStart_completes {s i} {l : Lane} (h : Shape s) (hs : s.clk.inj.st = 1) (hb : atShare s = true) (hi : injLoop s = some i) :
    Completes .injectionStart s fun t =>
      t.clk.inj.st = 2 ∧ t.clk.inj.startPeriod = BitVec.ofNat 64 s.clk.period ∧ t.clk.inj.loop = some i ∧ t.clk.inj.elapsed = 0 ∧
      t.clk.inj.lfsr = BitVec.ofNat 15 (2 ^ rwN s 0x3506 6 - 1) ∧ ((t.lane l).loop i).inj = true := by
  have marked : (((markInjected i (injectionStarted i s)).lane l).loop i).inj = true := by
    rw [markInjected, bothLanes_lane]
    exact congrArg Loop.inj ((h.lane l).loop_modLoop i _)
  refine .of (congrArg Host.Outcome.next (injectionStartEffect_starts hs hb hi)) ?_
  rw [injectionTrigger_inj, injectionTrigger_lane]
  exact ⟨rfl, rfl, rfl, rfl, rfl, marked⟩

/-! ## Stop commands and the end (R152) -/

theorem endInjection_inj {st cause s} : (endInjection st cause s).clk.inj =
    { s.clk.inj with st := st, cause := cause, g := 0, loop := none, stopDue := none } := by
  unfold endInjection
  split <;> rfl

/-- A stop command ends an armed injection at once. -/
theorem injectionStop_armed {s} (ha : (activeLane s).isSome = true) (hw : writable s = true) (hs : s.clk.inj.st = 1) :
    Completes .injectionStop s fun t => t.clk.inj.st = 4 ∧ t.clk.inj.cause = 6 ∧ t.clk.inj.g = 0 ∧ t.clk.inj.loop = none := by
  refine hostWrite_completes (f := injectionStopEffect) rfl hw ha ?_
  rw [injectionStopEffect, respond_clk, if_pos hs, endInjection_inj]
  exact ⟨rfl, rfl, rfl, rfl⟩

/-- A stop command lets a running injection end with its period. -/
theorem injectionStop_running {s} (ha : (activeLane s).isSome = true) (hw : writable s = true) (hs : s.clk.inj.st = 2) :
    Completes .injectionStop s fun t => t.clk.inj = { s.clk.inj with stopDue := some 6 } := by
  refine hostWrite_completes (f := injectionStopEffect) rfl hw ha ?_
  rw [injectionStopEffect, respond_clk, if_neg (by simp [hs]), if_pos hs, modInj_inj, respond_clk]

/-- An injection with a stop due ends at cycle 0. -/
theorem injectionPeriod_stops {s c} (hs : s.clk.inj.st = 2) (hc : s.clk.inj.stopDue = some c) : injectionPeriod s = endInjection 4 c s := by
  rw [injectionPeriod, if_pos hs, hc]

/-- An operation that does not touch the clock leaves the injection. -/
theorem Only.injection {dev : List Part} {s t : State} {l own rest} (h : Only dev l own rest s t) (hc : Part.clk ∉ dev := by decide) :
    t.clk.inj = s.clk.inj := congrArg Clock.inj (h.1 .clk hc)

/-- Cycle 0 up to the injection's generator. -/
def boundaryBegun (s : State) : State :=
  let t := tickPeriod s
  meterPeriod (sessionsPeriod (safeBoundary (modeCompletion (linkReactions (tapHeld (bothLanes (laneCycle0 t) (sendFrames t)))))))

theorem periodBoundaryEffect_runs {s} (hb : s.modes.mode ≠ .boot) (hk : s.modes.mode ≠ .backup) :
    periodBoundaryEffect s = publishLanes (injectionPeriod (boundaryBegun s)) := if_neg (not_or.2 ⟨hb, hk⟩)

/-- Nothing of cycle 0 before the generator touches the injection. -/
theorem boundaryBegun_inj {s} : (boundaryBegun s).clk.inj = s.clk.inj := by
  have sent : ∀ f (t : State), (bothLanes f (sendFrames t)).clk.inj = t.clk.inj := fun _ _ => rfl
  unfold boundaryBegun
  dsimp only
  rw [(meterPeriod_only (l := .a)).injection, (sessionsPeriod_only (l := .a)).injection, (safeBoundary_only (l := .a)).injection,
    (modeCompletion_only (l := .a)).injection, (linkReactions_only (l := .a)).injection, (tapHeld_only (l := .a)).injection, sent, tickPeriod_clk]

theorem captureGuard_inj {s t} : (captureGuard s t).clk.inj = t.clk.inj := by
  unfold captureGuard captureAbort
  split
  · dsimp only
    split_ifs <;> rfl
  · rfl

/-- A stop that is due ends the running injection at the next cycle 0, with its cause. -/
theorem periodBoundary_endsInjection {s c} (hb : s.modes.mode ≠ .boot) (hk : s.modes.mode ≠ .backup) (hs : s.clk.inj.st = 2)
    (hc : s.clk.inj.stopDue = some c) :
    Completes .periodBoundary s fun t => t.clk.inj.st = 4 ∧ t.clk.inj.cause = c ∧ t.clk.inj.g = 0 ∧ t.clk.inj.loop = none := by
  have begun : (boundaryBegun s).clk.inj = s.clk.inj := boundaryBegun_inj
  refine .of rfl ?_
  rw [captureGuard_inj, periodBoundaryEffect_runs hb hk, (publishLanes_only (l := .a)).injection,
    injectionPeriod_stops (by rw [begun, hs]) (by rw [begun, hc]), endInjection_inj]
  exact ⟨rfl, rfl, rfl, rfl⟩

/-- The injection ends after its last period. -/
theorem injectionComplete_last {s} (hs : s.clk.inj.st = 2) (hl : lastPeriod s = true) : Completes (.injectionComplete none) s fun t =>
    t.clk.inj.st = 3 ∧ t.clk.inj.cause = 0 ∧ t.clk.inj.g = 0 := by
  have run : injectionCompleteEffect none s = endInjection 3 0 s := by
    rw [injectionCompleteEffect, if_neg (by simp [hs])]
    exact if_pos hl
  refine .of (congrArg Host.Outcome.next run) ?_
  rw [endInjection_inj]
  exact ⟨rfl, rfl, rfl⟩

/-- Cause 7 of R152 holds where the injection's loop has left RUN. -/
theorem stopCause_leftRun {s i} (hi : s.clk.inj.loop = some i) (hr : (s.act.loop i).st ≠ .run) : stopCause s 7 = true := by
  simp [stopCause, hi, hr]

theorem injectionComplete_leftRun {s i} (hs : s.clk.inj.st = 2) (hi : s.clk.inj.loop = some i) (hr : (s.act.loop i).st ≠ .run) :
    Completes (.injectionComplete (some 7)) s fun t => t.clk.inj.st = 4 ∧ t.clk.inj.cause = 7 ∧ t.clk.inj.g = 0 := by
  have run : injectionCompleteEffect (some 7) s = endInjection 4 7 s := by
    rw [injectionCompleteEffect, if_neg (by simp [hs])]
    exact if_pos (stopCause_leftRun hi hr)
  refine .of (congrArg Host.Outcome.next run) ?_
  rw [endInjection_inj]
  exact ⟨rfl, rfl, rfl⟩

/-- Settles O11: arming, the start, the stop command, the ends, then the refusals of the two host commands. -/
theorem injectionCommands : Obligations.InjectionCommands := by
  refine ⟨fun _ => injectionArm_completes, fun _ _ _ => injectionStart_completes, fun _ => injectionStop_armed,
    fun _ => injectionStop_running, fun _ _ => periodBoundary_endsInjection, fun _ => injectionComplete_last,
    fun _ _ => injectionComplete_leftRun, fun _ hs _ => .of rfl (if_pos hs), fun s c hc ha hw => ?_, fun s c hc ha => ?_⟩
  · obtain ⟨f, run⟩ := injectionCommand_run (s := s) hc
    rw [run, hw, hostWrite_refused ha]
  · obtain ⟨f, run⟩ := injectionCommand_run (s := s) hc
    rw [run, hostWrite_unanswered ha]

end Sys2Proof.Machine
end

section
/-! PROOF. The share engine: a run and its grants, their application, contactor holds, grid-status records (R155-R166, R218, R226). -/

namespace Sys2Proof.Machine
set_option Elab.async false

/-! ## The bay fill (R160) -/

theorem sumInt_eq_sum {l : List Int} : sumInt l = l.sum := List.sum_eq_foldl.symm

/-- The sum a water level is judged by is the sum of the grants at that level. -/
theorem capSum_eq {hi w x} : capSum hi w x = sumInt (bayGrants hi w x) := rfl

/-- A grant is the smaller of its bound and its weighted level. -/
theorem bayGrants_nth {hi : List Int} {w : List Nat} {lam i : Nat} (h : i < hi.length) (k : i < w.length) :
    nth (bayGrants hi w lam) i = min (nth hi i) (nth w i * lam / 2 ^ 32 : Nat) := by
  simp [bayGrants, nth, h, k]

/-- At level 0 every grant is 0 or a negative bound. -/
theorem capSum_zero_nonpos {hi : List Int} {w : List Nat} : capSum hi w 0 ≤ 0 := by
  rw [capSum, sumInt_eq_sum]
  refine (List.sum_le_card_nsmul _ 0 fun v hv => ?_).trans_eq (smul_zero _)
  obtain ⟨p, -, rfl⟩ := List.mem_map.1 hv
  simp

/-- A level that starts within the budget stays within it through every round. -/
theorem capSum_waterLevel_le {hi : List Int} {w : List Nat} {bud : Int} {n lo : Nat} (h : capSum hi w lo ≤ bud) :
    capSum hi w (waterLevel hi w bud n lo) ≤ bud := by
  induction n generalizing lo with
  | zero => exact h
  | succ n ih =>
    rw [waterLevel]
    refine ih ?_
    split
    · assumption
    · exact h

/-- The bay fill of a run gives each bay between 0 and its bound, and all of them no more than the budget, which the cap limits. -/
theorem fillRun_within {s l x} {h : Share} (hhi : h.hi.length = 24) (hw : h.w.length = 24) (hb : ∀ i < 24, 0 ≤ nth h.hi i)
    (hbud : 0 ≤ (fillRun s l x h).res.bBud) :
    (∀ i < 24, 0 ≤ nth (fillRun s l x h).gb i ∧ nth (fillRun s l x h).gb i ≤ nth h.hi i) ∧
    sumInt (fillRun s l x h).gb ≤ (fillRun s l x h).res.bBud ∧ (fillRun s l x h).res.bBud ≤ h.cap := by
  refine ⟨fun i hi => ?_, capSum_waterLevel_le (capSum_zero_nonpos.trans hbud), min_le_left _ _⟩
  rw [fillRun, bayGrants_nth (by omega) (by omega)]
  exact ⟨le_min (hb i hi) (Int.natCast_nonneg _), min_le_left _ _⟩

/-! ## A run (R155) -/

theorem budgetsRun_kept {s l x h} : (budgetsRun s l x h).hi = h.hi ∧ (budgetsRun s l x h).runs = h.runs := by
  unfold budgetsRun
  dsimp only
  split
  · split <;> exact ⟨rfl, rfl⟩
  · exact ⟨rfl, rfl⟩

/-- Lane l as a run finds it: its averages closed. -/
def runLane (s : State) (l : Lane) : LaneState := { s.lane l with share := latchRun (s.lane l).share }

/-- The bounds, budgets and weights of a run of lane l. -/
def runShare (s : State) (l : Lane) : Share :=
  weightsRun s l (budgetsRun s l (runLane s l) (boundsRun s (runLane s l) (runLane s l).share))

/-- The run of lane l that starts at s. -/
def startedRun (s : State) (l : Lane) : ShareRun := fillRun s l (runLane s l) (runShare s l)

/-- A run takes the latch at once and waits with its results. -/
theorem shareRun_eq {s l} : shareRun s l =
    { latchRun (s.lane l).share with pending := (s.lane l).share.pending ++ [startedRun s l], pol := (runShare s l).pol } := rfl

theorem runShare_hi_length {s l} : (runShare s l).hi.length = 24 := by
  show (budgetsRun s l _ _).hi.length = 24
  rw [budgetsRun_kept.1]
  simp [boundsRun]

theorem runShare_w_length {s l} : (runShare s l).w.length = 24 := by
  simp [runShare, weightsRun]

theorem runShare_runs {s l} : (runShare s l).runs = (s.lane l).share.runs := by
  show (budgetsRun s l _ _).runs = _
  rw [budgetsRun_kept.2]
  rfl

/-- A run that starts leaves its lane's engine with the run. -/
theorem shareRunStartEffect_share {s l} (hc : computing s l = true) (ha : atShare s = true) (hm : shareMode s = true) :
    ((shareRunStartEffect l s).lane l).share = shareRun s l := by
  unfold shareRunStartEffect
  rw [if_pos (by simp [hc, ha, hm])]
  dsimp only
  split
  · rw [energyReached_only.lane .share (by decide), sessionEnergy_only.lane .share (by decide), State.lane_modLane]
  · rw [State.lane_modLane]

/-- Settles O13: the level the fill finds keeps within the budget from level 0 on, and each grant is the smaller of its bound and its
weighted level. -/
theorem bayGrantsWithinBudget : Obligations.BayGrantsWithinBudget := by
  intro s l hc ha hm
  refine .of rfl ⟨startedRun s l, ?_, fillRun_within runShare_hi_length runShare_w_length⟩
  rw [shareRunStartEffect_share hc ha hm, shareRun_eq]

/-! ## Starts of a run (R155, R162) -/

/-- A run starts at the boundary and changes no grant. -/
theorem shareRunStart_starts {s l} (hc : computing s l = true) (ha : atShare s = true) (hm : shareMode s = true) :
    Completes (.shareRunStart l) s fun t =>
      (t.lane l).share.gb = (s.lane l).share.gb ∧ (t.lane l).share.gs = (s.lane l).share.gs ∧
      ∃ r, (t.lane l).share.pending = (s.lane l).share.pending ++ [r] ∧ r.b = s.clk.period ∧ r.half = false ∧
        r.mlim = (s.lane l).wp.mods.map Module.mlim ∧ r.res.runs = (s.lane l).share.runs + 1 := by
  have counted : (startedRun s l).res.runs = (s.lane l).share.runs + 1 := congrArg (· + 1) runShare_runs
  refine .of rfl ?_
  rw [shareRunStartEffect_share hc ha hm, shareRun_eq]
  exact ⟨rfl, rfl, startedRun s l, rfl, rfl, rfl, rfl, counted⟩

theorem shareRunStart_idle {s l} (h : computing s l = false ∨ atShare s = false ∨ shareMode s = false) :
    Completes (.shareRunStart l) s fun t => t = s := by
  have skips : ¬ (computing s l && atShare s && shareMode s) = true := by
    rcases h with h | h | h <;> simp [h]
  exact .of rfl (if_neg skips)

/-! ## Grants that apply (R162-R166) -/

/-- The engine without the marks of enabled loops and the fabric inputs, both of which follow the grants. -/
def Share.core (h : Share) : Share := { h with funded := [], strs := [], ref := [], ilim := [], sref := [], slim := [] }

/-- A change of a loop leaves the engine. -/
theorem enableLoop_share {i x} : (enableLoop i x).share = x.share := enableLoop_only .share (by decide)

theorem disableLoop_share {i x} : (disableLoop i x).share = x.share := disableLoop_only .share (by decide)

theorem setFunded_core {i v x} : (setFunded i v x).share.core = x.share.core := rfl

theorem limitBlock_core {s x} : (limitBlock s x).share.core = x.share.core := rfl

theorem fundBays_core {s x} : (fundBays s x).share.core = x.share.core := by
  unfold fundBays
  refine List.foldlRecOn (motive := fun (y : LaneState) => y.share.core = x.share.core) _ _ rfl fun y hy i _ => ?_
  dsimp only
  split
  · rw [enableLoop_share]
    exact hy
  · exact hy

theorem fundStrings_core {s x} : (fundStrings s x).share.core = x.share.core := by
  unfold fundStrings
  refine List.foldlRecOn (motive := fun (y : LaneState) => y.share.core = x.share.core) _ _ rfl fun y hy i _ => ?_
  dsimp only
  split
  · rw [setFunded_core, enableLoop_share, hy]
  · split
    · rw [setFunded_core]
      split
      · rw [disableLoop_share, hy]
      · exact hy
    · exact hy

/-- Lane x once the grants of h apply: offers, loop requests and fabric inputs follow them. -/
def grantsFollowed (s : State) (h : Share) (x : LaneState) : LaneState :=
  limitBlock s (fundStrings s (fundBays s { x with share := offersOut s h }))

theorem grantsFollowed_core {s h x} : (grantsFollowed s h x).share.core = (offersOut s h).core := by
  rw [grantsFollowed, limitBlock_core, fundStrings_core, fundBays_core]

/-- What is read of the core of an engine is read alike of grants that apply and of what follows them. -/
theorem grantsFollowed_reads {α : Type} (g : Share → α) {s h x} (hg : ∀ k, g k.core = g k := by intro _; rfl) :
    g (grantsFollowed s h x).share = g (offersOut s h) := by
  rw [← hg, grantsFollowed_core, hg]

/-- The end of a forced shrink changes its mark and its flag alone. -/
theorem endShrink_eq {b h} : ∃ k f, endShrink b h = { h with lost := k, flags := f } := by
  unfold endShrink
  split
  · split <;> exact ⟨_, _, rfl⟩
  · exact ⟨_, _, rfl⟩

/-- The engine of lane x with the results and decreases of run r in force. -/
def shareApplied (r : ShareRun) (x : LaneState) : Share :=
  let h := liveFlags x (endShrink r.b (applyDecreases r (x.share.publish r.res)))
  { h with
    pending := h.pending.map fun (q : ShareRun) => if q.b = r.b then { q with half := true } else q
    share := shareOut x r.mlim }

/-- The engine as the decreases of run r apply: each grant falls to the smaller one, the results are the run's. -/
theorem shareApplied_reads {r x} :
    (shareApplied r x).gb = (x.share.gb.zip r.gb).map (fun p => min p.1 p.2) ∧
    (shareApplied r x).gs = (x.share.gs.zip r.gs).map (fun p => min p.1 p.2) ∧ (shareApplied r x).runs = r.res.runs ∧
    (shareApplied r x).bBud = r.res.bBud ∧ (shareApplied r x).hi = r.res.hi ∧ (shareApplied r x).lam = r.res.lam := by
  obtain ⟨k, f, shrunk⟩ := endShrink_eq (b := r.b) (h := applyDecreases r (x.share.publish r.res))
  rw [shareApplied, shrunk]
  exact ⟨rfl, rfl, rfl, rfl, rfl, rfl⟩

theorem shareApplyLane_due {s x r} (h : (x.share.pending.find? fun q => !q.half && q.b + applyDelay s == s.clk.period) = some r) :
    shareApplyLane s x = grantsFollowed s (shareApplied r x) x := by
  unfold shareApplyLane
  rw [h]
  rfl

theorem shareIncreaseLane_due {s x r} (h : (x.share.pending.find? fun q => q.half && q.b + applyDelay s + 2 == s.clk.period) = some r) :
    shareIncreaseLane s x =
      grantsFollowed s { x.share with gb := r.gb, gs := r.gs, pending := x.share.pending.filter fun q => q.b != r.b } x := by
  unfold shareIncreaseLane
  rw [h]
  rfl

theorem shareApply_completes {s l r} (hc : computing s l = true)
    (hr : ((s.lane l).share.pending.find? fun r => !r.half && r.b + (if s.clk.long then 4 else 8) == s.clk.period) = some r) :
    Completes (.shareApply l) s fun t =>
      (t.lane l).share.gb = ((s.lane l).share.gb.zip r.gb).map (fun p => min p.1 p.2) ∧
      (t.lane l).share.gs = ((s.lane l).share.gs.zip r.gs).map (fun p => min p.1 p.2) ∧
      (t.lane l).share.offerP = (t.lane l).share.gb ∧ (t.lane l).share.runs = r.res.runs ∧ (t.lane l).share.bBud = r.res.bBud ∧
      (t.lane l).share.hi = r.res.hi ∧ (t.lane l).share.lam = r.res.lam := by
  obtain ⟨hgb, hgs, hruns, hbud, hhi, hlam⟩ := shareApplied_reads (r := r) (x := s.lane l)
  refine .of (congrArg Host.Outcome.next (if_pos hc)) ?_
  rw [captureGuard_lane, State.lane_modLane, shareApplyLane_due hr]
  exact ⟨(grantsFollowed_reads Share.gb).trans hgb, (grantsFollowed_reads Share.gs).trans hgs,
    (grantsFollowed_reads Share.offerP).trans (grantsFollowed_reads Share.gb).symm, (grantsFollowed_reads Share.runs).trans hruns,
    (grantsFollowed_reads Share.bBud).trans hbud, (grantsFollowed_reads Share.hi).trans hhi, (grantsFollowed_reads Share.lam).trans hlam⟩

/-- Two periods later the grants are the run's, and the run no longer waits. -/
theorem shareIncreaseApply_completes {s l r} (hc : computing s l = true)
    (hr : ((s.lane l).share.pending.find? fun r => r.half && r.b + (if s.clk.long then 4 else 8) + 2 == s.clk.period) = some r) :
    Completes (.shareIncreaseApply l) s fun t =>
      (t.lane l).share.gb = r.gb ∧ (t.lane l).share.gs = r.gs ∧ (t.lane l).share.offerP = r.gb ∧
      (t.lane l).share.pending = (s.lane l).share.pending.filter fun q => q.b != r.b := by
  refine .of (congrArg Host.Outcome.next (if_pos hc)) ?_
  rw [captureGuard_lane, State.lane_modLane, shareIncreaseLane_due hr]
  exact ⟨grantsFollowed_reads Share.gb, grantsFollowed_reads Share.gs, grantsFollowed_reads Share.offerP,
    grantsFollowed_reads Share.pending⟩

/-! ## Contactors (R165) and grid-status records (R218, R226) -/

/-- The contactor of a string opens after its hold time; no other string changes. -/
theorem stringContactorHoldExpiry_opens {s l} {i : Fin 8} (hc : (nth (s.lane l).share.strs i).cont = true)
    (hi : (nth (s.lane l).share.strs i).idleSince.isSome = true) (hm : s.modes.mode ≠ .commission) :
    Completes (.stringContactorHoldExpiry l i) s fun t =>
      nth (t.lane l).share.strs i = { nth (s.lane l).share.strs i with cont := false } ∧
      ∀ j, j ≠ i.val → nth (t.lane l).share.strs j = nth (s.lane l).share.strs j := by
  have held : i.val < (s.lane l).share.strs.length := nth_lt_of_ne fun d => nomatch d ▸ hc
  have run : contactorHoldLane s i (s.lane l) = { s.lane l with share := { (s.lane l).share with
      strs := upd (s.lane l).share.strs i fun (z : StrState) => { z with cont := false } } } :=
    if_pos ⟨hc, hi, by simp [commMode, hm]⟩
  refine .of rfl ?_
  rw [State.lane_modLane, run]
  exact ⟨nth_upd_self _ _ _ held, fun j hj => nth_upd_ne _ _ _ _ hj.symm⟩

/-- The end of every session leaves the records and the engine of a lane. -/
theorem endAllSessions_grid {c s l} : ((endAllSessions c s).lane l).grid = (s.lane l).grid := endAllSessions_only.lane .grid (by decide)

theorem endAllSessions_share {c s l} : ((endAllSessions c s).lane l).share = (s.lane l).share :=
  endAllSessions_only.lane .share (by decide)

theorem gridStatusEffect_grid {l g s} : ((gridStatusEffect l g s).lane l).grid = (gridStatusLane s g (s.lane l)).grid := by
  unfold gridStatusEffect
  dsimp only
  split
  · rw [endAllSessions_grid, State.lane_modLane]
  · rw [State.lane_modLane]

theorem gridStatusReceived_kept {s l g} : Completes (.gridStatusReceived l g) s fun t =>
    (t.lane l).grid.recs = (g :: (s.lane l).grid.recs).take 4 ∧ (t.lane l).grid.fresh = true ∧ (t.lane l).grid.linkLost = false ∧
    (t.lane l).grid.arrivals = (s.clk.period :: (s.lane l).grid.arrivals).take 4 ∧ (t.lane l).grid.ready = !(g.flags.getLsbD 2) := by
  refine .of rfl ?_
  rw [gridStatusEffect_grid]
  exact ⟨rfl, rfl, rfl, rfl, rfl⟩

theorem gridStatusStale_lost {s l} : Completes (.gridStatusStale l) s fun t =>
    (t.lane l).grid.fresh = false ∧ (t.lane l).grid.linkLost = true ∧ (t.lane l).share.flags = (s.lane l).share.flags ||| 4 := by
  refine .of rfl ?_
  unfold gridStatusStaleEffect
  dsimp only
  split
  · rw [endAllSessions_grid, endAllSessions_share, State.lane_modLane]
    exact ⟨rfl, rfl, rfl⟩
  · rw [State.lane_modLane]
    exact ⟨rfl, rfl, rfl⟩

/-- Settles O12, clause by clause: the start of a run, its two applications, a contactor's hold, records and their loss. -/
theorem shareCommands : Obligations.ShareCommands :=
  ⟨fun _ _ => shareRunStart_starts, fun _ _ => shareRunStart_idle, fun _ _ _ => shareApply_completes,
    fun _ _ _ => shareIncreaseApply_completes, fun _ _ _ => stringContactorHoldExpiry_opens, fun _ _ _ => gridStatusReceived_kept,
    fun _ _ => gridStatusStale_lost⟩

end Sys2Proof.Machine
end

section
/-! PROOF. Site federation: rounds, reports, share frames, the fallback and the leader (R171-R174). -/

namespace Sys2Proof.Machine
set_option Elab.async false

/-! ## What the shared operations leave of the federation -/

theorem modFed_fed {f s} : (modFed f s).clk.fed = f s.clk.fed := rfl

theorem modFed_self {f s} (h : f s.clk.fed = s.clk.fed) : modFed f s = s := by
  unfold modFed
  dsimp only
  rw [h]

theorem queueTx_clk {c q f s} : (queueTx c q f s).clk = s.clk := (queueTx_only (l := .a)).1 .clk (by decide)

/-- An event that follows a change leaves the clock and the federation. -/
theorem announced_clk {c : Prop} [Decidable c] {e s} : (if c then evt e s else s).clk = s.clk := by
  split
  · exact evt_clk e s
  · rfl

/-- A frame that is queued, or waits for its cell, is marked at most. -/
theorem queueShare_fed {f s} : ∃ b, (queueShare f s).clk.fed = { s.clk.fed with dueShare := b } := by
  unfold queueShare
  split
  · exact ⟨_, rfl⟩
  · exact ⟨_, congrArg Clock.fed queueTx_clk⟩

theorem queueReport_fed {f s} : ∃ b, (queueReport f s).clk.fed = { s.clk.fed with dueReport := b } := by
  unfold queueReport
  split
  · exact ⟨_, rfl⟩
  · exact ⟨_, congrArg Clock.fed queueTx_clk⟩

/-- The loss of a leadership changes its mark alone (R172). -/
theorem dropLead_eq {s} : ∃ b, dropLead s = modFed (fun (f : Federation) => { f with leading := b }) s := by
  unfold dropLead
  split <;> exact ⟨_, rfl⟩

/-- A hub that does not lead loses no leadership. -/
theorem dropLead_follower {s} (h : s.clk.fed.leading = false) : dropLead s = s := if_neg (by simp [h])

theorem leads_follower {s} (h : s.clk.fed.leading = false) : leads s = false := by simp [leads, h]

theorem leads_capable {s} (h : s.clk.fed.leading = true) (hc : leaderCapable s = true) : leads s = true := by
  obtain ⟨hr, hm⟩ : cfgN s 0x3230 3 ≠ 255 ∧ s.modes.mode ≠ .commission := by simpa [leaderCapable, ownRank, commMode] using hc
  simp [leads, h, hr, hm]

/-! ## Rounds and reports (R171, R173) -/

theorem federationShareSend_opens {s} (hf : fedOn s = true) (hl : s.clk.fed.leading = true) (hc : leaderCapable s = true) :
    Completes .federationShareSend s fun t =>
      t.clk.fed.round = s.clk.fed.round + 1 ∧ t.clk.fed.fallback = false ∧ t.clk.fed.lastShare.isSome = true ∧
      ∃ f, t.clk.fed.txShare = some f ∧ f.round = s.clk.fed.round + 1 ∧ f.ver = 1 ∧ f.leader = BitVec.ofNat 8 (ownNode s) := by
  have leading : (fedOn s && leads s) = true := by rw [hf, leads_capable hl hc, Bool.and_self]
  refine .of rfl ?_
  rw [federationShareSendEffect, if_pos leading]
  dsimp only
  obtain ⟨b, queued⟩ := queueShare_fed
  rw [queued]
  exact ⟨rfl, rfl, rfl, _, rfl, rfl, rfl, rfl⟩

/-- The state a report is composed from: a share whose reductions have applied is acknowledged. -/
def acknowledged (s : State) : State :=
  if shareSettled s then
    modFed (fun (f : Federation) => { f with ack := f.round, ackShare := BitVec.ofNat 32 (siteShare s / 1000).toNat }) s
  else s

/-- Up to the report only the marks of the leadership and of the acknowledged share change. -/
theorem acknowledged_dropLead {s} : ∃ b k v, acknowledged (dropLead s) =
    modFed (fun (f : Federation) => { f with leading := b, ack := k, ackShare := v }) s := by
  obtain ⟨b, dropped⟩ := dropLead_eq (s := s)
  rw [dropped, acknowledged]
  split <;> exact ⟨_, _, _, rfl⟩

/-- State t after its report is composed and its round closed. -/
def reported (t : State) : State :=
  let r := ownReport t t.clk.fed.ack
  let u := modFed (fun (f : Federation) =>
    { f with txReport := if commMode t then f.txReport else some r, hubs := f.hubs.map closeRound }) t
  if commMode u then u else queueReport r u

theorem federationReportSendEffect_reports {s} (hf : fedOn s = true) :
    federationReportSendEffect s = reported (acknowledged (dropLead s)) := if_neg (by simp [hf])

/-- Outside COMMISSION the report is sent. -/
theorem reported_fed {t} (hm : commMode t = false) : ∃ d, (reported t).clk.fed =
    { t.clk.fed with txReport := some (ownReport t t.clk.fed.ack), hubs := t.clk.fed.hubs.map closeRound, dueReport := d } := by
  have sent : ∀ f, ¬ commMode (modFed f t) = true := fun _ => Bool.eq_false_iff.1 hm
  unfold reported
  dsimp only
  rw [if_neg (sent _)]
  obtain ⟨d, queued⟩ := queueReport_fed
  rw [queued, modFed_fed, hm]
  exact ⟨d, rfl⟩

theorem federationReportSend_closes {s} (hf : fedOn s = true) (hm : s.modes.mode ≠ .commission) :
    Completes .federationReportSend s fun t => t.clk.fed.hubs = s.clk.fed.hubs.map closeRound ∧
      ∃ r, t.clk.fed.txReport = some r ∧ r.node = BitVec.ofNat 8 (ownNode s) ∧ r.ver = 1 ∧
        r.weight = BitVec.ofNat 16 (cfgN s 0x3230 4) := by
  obtain ⟨b, k, v, composed⟩ := acknowledged_dropLead (s := s)
  have comm : commMode (acknowledged (dropLead s)) = false := by
    rw [composed]
    exact beq_false_of_ne hm
  obtain ⟨d, sent⟩ := reported_fed comm
  refine .of rfl ?_
  rw [federationReportSendEffect_reports hf, sent, composed]
  exact ⟨rfl, _, rfl, rfl, rfl, rfl⟩

/-- A report of another hub in the version this hub knows is taken. -/
theorem federationReport_taken {s} {f : ReportFrame} (hf : fedOn s = true) (hv : f.ver = 1) (hn : f.node.toNat ≠ ownNode s) :
    ¬ (!(fedOn s) || f.ver != 1 || f.node.toNat == ownNode s) = true := by simp [hf, hv, hn]

theorem federationReportReceived_adds {s f} (hf : fedOn s = true) (hv : f.ver = 1) (hn : f.node.toNat ≠ ownNode s)
    (hk : (s.clk.fed.hubs.find? fun h => h.node == f.node) = none) (hl : s.clk.fed.hubs.length < 7) :
    Completes (.federationReportReceived f) s fun t =>
      t.clk.fed.hubs = s.clk.fed.hubs ++ [hubFrom s.clk.fed.round none f] := by
  refine .of rfl ?_
  rw [federationReportEffect, if_neg (federationReport_taken hf hv hn), modFed_fed, hk]
  dsimp only
  rw [if_pos hl]

theorem federationReportReceived_refreshes {s f old} (hf : fedOn s = true) (hv : f.ver = 1) (hn : f.node.toNat ≠ ownNode s)
    (hk : (s.clk.fed.hubs.find? fun h => h.node == f.node) = some old) :
    Completes (.federationReportReceived f) s fun t => t.clk.fed.hubs =
      s.clk.fed.hubs.map fun h => if h.node = f.node then hubFrom s.clk.fed.round (some old) f else h := by
  refine .of rfl ?_
  rw [federationReportEffect, if_neg (federationReport_taken hf hv hn), modFed_fed, hk]

/-- An eighth hub is not held. -/
theorem federationReportReceived_full {s f} (hk : (s.clk.fed.hubs.find? fun h => h.node == f.node) = none)
    (hl : 7 ≤ s.clk.fed.hubs.length) : Completes (.federationReportReceived f) s fun t => t = s := by
  refine .of rfl ?_
  unfold federationReportEffect
  split
  · rfl
  · refine modFed_self ?_
    rw [hk]
    exact if_neg hl.not_gt

/-! ## Share frames (R172, R174) -/

/-- A share frame that names this hub, which does not lead, is taken. -/
theorem federationShareEffect_takes {s f v} (hf : fedOn s = true) (hv : f.ver = 1) (hs : frameShare s f = some v)
    (hl : s.clk.fed.leading = false) :
    (federationShareEffect f s).clk.fed = takeShare (roundNow s) (ownRank s, ownNode s) v f s.clk.fed := by
  unfold federationShareEffect
  rw [if_neg (by simp [hf, hv]), dropLead_follower hl]
  dsimp only
  rw [hs]
  dsimp only
  rw [if_neg (by simp [hl]), announced_clk, modFed_fed]

theorem federationShareReceived_first {s f v} (hf : fedOn s = true) (hv : f.ver = 1) (hs : frameShare s f = some v)
    (hl : s.clk.fed.leading = false) (hr : s.clk.fed.sharedIn ≠ some (roundNow s)) :
    Completes (.federationShareReceived f) s fun t =>
      t.clk.fed.lastShare = some v ∧ t.clk.fed.round = f.round ∧ t.clk.fed.leaderNode = f.leader ∧ t.clk.fed.fallback = false := by
  refine .of rfl ?_
  rw [federationShareEffect_takes hf hv hs hl]
  exact ⟨by simp [takeShare, hr], rfl, rfl, rfl⟩

/-- The frame of a second leader in one round is counted, and the lower share holds. -/
theorem federationShareReceived_second {s f v} (hf : fedOn s = true) (hv : f.ver = 1) (hs : frameShare s f = some v)
    (hl : s.clk.fed.leading = false) (hr : s.clk.fed.sharedIn = some (roundNow s)) (hn : s.clk.fed.leaderNode ≠ f.leader) :
    Completes (.federationShareReceived f) s fun t =>
      t.clk.fed.dual = s.clk.fed.dual + 1 ∧
      t.clk.fed.lastShare = some (if v.toNat < (s.clk.fed.lastShare.getD v).toNat then v else s.clk.fed.lastShare.getD v) := by
  have two : (s.clk.fed.sharedIn == some (roundNow s) && s.clk.fed.leaderNode != f.leader) = true := by simp [hr, hn]
  refine .of rfl ?_
  rw [federationShareEffect_takes hf hv hs hl, takeShare, two]
  exact ⟨rfl, rfl⟩

/-- Of two hubs one at most goes before the other. -/
theorem before_asymm {a b} (h : before a b = true) : before b a = false := by
  simp only [before, Bool.or_eq_true, decide_eq_true_eq, Bool.and_eq_true, beq_iff_eq, Bool.or_eq_false_iff, decide_eq_false_iff_not,
    Bool.and_eq_false_iff, beq_eq_false_iff_ne] at h ⊢
  omega

/-- A frame from a hub that goes before this one ends its leadership, whether or not it names this hub. -/
theorem federationShareReceived_yields {s f} (hf : fedOn s = true) (hv : f.ver = 1)
    (hb : before (f.rank.toNat, f.leader.toNat) (ownRank s, ownNode s) = true) :
    Completes (.federationShareReceived f) s fun t => t.clk.fed.leading = false := by
  obtain ⟨b, dropped⟩ := dropLead_eq (s := s)
  have rank : ownRank (dropLead s) = ownRank s := by rw [dropped]; rfl
  have node : ownNode (dropLead s) = ownNode s := by rw [dropped]; rfl
  refine .of rfl ?_
  unfold federationShareEffect
  rw [if_neg (by simp [hf, hv])]
  dsimp only
  rw [rank, node]
  split
  · rw [hb, Bool.and_true]
    split
    · rw [announced_clk]
      rfl
    · exact Bool.eq_false_iff.2 ‹_›
  · rw [before_asymm hb, Bool.and_false, if_neg (by decide), announced_clk, modFed_fed]
    simp [takeShare, hb]

/-! ## The fallback and the leader (R172, R174) -/

theorem federationFallback_falls {s} (hf : fedOn s = true) (hl : s.clk.fed.leading = false) :
    Completes .federationFallback s fun t => t.clk.fed = { s.clk.fed with fallback := true } := by
  refine .of rfl ?_
  rw [federationFallbackEffect, if_pos (by simp [hf, leads_follower hl]), evt_clk, dropLead_follower hl, modFed_fed]

theorem leaderTakeover_leads {s} (hs : selfLeader s = true) (hl : s.clk.fed.leading = false) : Completes .leaderTakeover s fun t =>
    t.clk.fed = { s.clk.fed with leading := true, leaderNode := BitVec.ofNat 8 (ownNode s), leaderRank := BitVec.ofNat 8 (ownRank s)
                                 changes := s.clk.fed.changes + 1 } := by
  refine .of rfl ?_
  rw [leaderTakeoverEffect, dropLead_follower hl]
  dsimp only
  rw [if_pos (by simp [hs, hl]), evt_clk, modFed_fed]

/-! ## Federation not enabled (R171) -/

theorem federation_disabled {s f g} (hf : fedOn s = false) (hl : s.clk.fed.leading = false) :
    Completes .federationShareSend s (fun t => t = s) ∧ Completes .federationReportSend s (fun t => t = s) ∧
    Completes (.federationReportReceived f) s (fun t => t = s) ∧ Completes (.federationShareReceived g) s (fun t => t = s) ∧
    Completes .federationFallback s (fun t => t = s) ∧ Completes .leaderTakeover s (fun t => t = s) := by
  refine ⟨.of rfl ?_, .of rfl (if_pos (by simp [hf])), .of rfl (if_pos (by simp [hf])), .of rfl (if_pos (by simp [hf])),
    .of rfl (if_neg (by simp [hf])), .of rfl ?_⟩
  · rw [federationShareSendEffect, if_neg (by simp [hf]), dropLead_follower hl]
  · rw [leaderTakeoverEffect, dropLead_follower hl]
    exact if_neg (by simp [selfLeader, hf])

/-- Settles O14, clause by clause: rounds and reports, share frames, the fallback, the leader, and a hub outside any federation. -/
theorem federationCommands : Obligations.FederationCommands :=
  ⟨fun _ => federationShareSend_opens, fun _ => federationReportSend_closes, fun _ _ => federationReportReceived_adds,
    fun _ _ _ => federationReportReceived_refreshes, fun _ _ => federationReportReceived_full, fun _ _ _ => federationShareReceived_first,
    fun _ _ _ => federationShareReceived_second, fun _ _ => federationShareReceived_yields, fun _ => federationFallback_falls,
    fun _ => leaderTakeover_leads, fun _ _ _ => federation_disabled⟩

end Sys2Proof.Machine
end

section
/-! PROOF. Modules of a lane as Waypoint changes them: one module, an abandoned move, a decision to retire (R183, R184, R186). -/

namespace Sys2Proof.Machine
set_option Elab.async false

/-- What follows from the outcome of a command that completes. -/
theorem Completes.imp {c : Instr} {s : State} {P Q : State → Prop} (h : Completes c s P) (k : ∀ t, P t → Q t) : Completes c s Q :=
  let ⟨t, ht, hp⟩ := h
  ⟨t, ht, k t hp⟩

/-! ## One module of a lane -/

section Module
variable {x y : LaneState} {j k : Nat} {f : Module → Module}

theorem LaneState.mod_modMod_self (h : j < x.wp.mods.length) : (x.modMod j f).mod j = f (x.mod j) := nth_upd_self _ _ _ h

theorem LaneState.mod_modMod_ne (h : k ≠ j) : (x.modMod j f).mod k = x.mod k := nth_upd_ne _ _ _ _ h.symm

@[simp] theorem LaneState.mods_length_modMod : (x.modMod j f).wp.mods.length = x.wp.mods.length := upd_length _ _ _

@[simp] theorem LaneState.abandoned_modMod : (x.modMod j f).wp.abandoned = x.wp.abandoned := rfl

@[simp] theorem LaneState.retirements_modMod : (x.modMod j f).wp.retirements = x.wp.retirements := rfl

@[simp] theorem LaneState.completed_modMod : (x.modMod j f).wp.completed = x.wp.completed := rfl

@[simp] theorem LaneState.wp_event {e} : (x.event e).wp = x.wp := rfl

theorem LaneState.mod_congr (h : y.wp = x.wp) : y.mod j = x.mod j :=
  congrArg (fun w : Waypoint => nth w.mods j) h

/-- A change of one module leaves any module as it was, or is the change of that module. -/
theorem LaneState.mod_modMod_cases : (x.modMod j f).mod k = x.mod k ∨ k = j ∧ (x.modMod j f).mod k = f (x.mod k) := by
  by_cases e : k = j
  · subst e
    by_cases h : k < x.wp.mods.length
    · exact .inr ⟨rfl, mod_modMod_self h⟩
    · exact .inl (by simp [mod, modMod, nth, upd, not_lt.1 h])
  · exact .inl (mod_modMod_ne e)

/-- A configured module is one of the lane's. -/
theorem LaneState.lt_of_configured (h : (x.mod j).st ≠ .notConfigured) : j < x.wp.mods.length :=
  nth_lt_of_ne fun d => h (congrArg Module.st d)

theorem LaneState.lt_of_moving (h : (x.mod j).st = .moving) : j < x.wp.mods.length := lt_of_configured (by simp [h])

theorem LaneShape.module_lt (h : LaneShape x) (j : Fin 96) : j.val < x.wp.mods.length := by
  rw [h.mods]
  exact j.2

end Module

/-- What an operation that does not write Waypoint does to the loop of a module leaves Waypoint. -/
theorem onModuleLoop_wp {f : LoopId → LaneState → LaneState} {j x} (hf : ∀ i y, (f i y).wp = y.wp) : (onModuleLoop f j x).wp = x.wp := by
  unfold onModuleLoop
  split
  · exact hf _ _
  · rfl

/-! ## Abandoned moves (R183) -/

section Abandon
variable {x : LaneState} {j : Nat}

theorem Module.with_counted {m : Module} (h : m.counted = true) : { m with counted := true } = m := by
  cases m
  cases h
  rfl

/-- The mark that a move has been counted is set, whether it was or not. -/
theorem abandon_mod (h : j < x.wp.mods.length) : (abandon j x).mod j = { x.mod j with counted := true } := by
  unfold abandon
  split
  case isTrue hc => exact (Module.with_counted hc).symm
  case isFalse => exact LaneState.mod_modMod_self h

/-- One move counts once. -/
theorem abandon_abandoned : (abandon j x).wp.abandoned = x.wp.abandoned + if (x.mod j).counted then 0 else 1 := by
  unfold abandon
  split
  · exact (BitVec.add_zero _).symm
  · rfl

@[simp] theorem abandon_retirements : (abandon j x).wp.retirements = x.wp.retirements := by
  unfold abandon
  split <;> rfl

@[simp] theorem abandon_mods_length : (abandon j x).wp.mods.length = x.wp.mods.length := by
  unfold abandon
  split
  · rfl
  · exact LaneState.mods_length_modMod

/-- A move that goes back to step 3 from its target bay is abandoned. -/
theorem abandon_reopenSwitch {st} (h : j < x.wp.mods.length) :
    (abandon j (x.modMod j (reopenSwitch st))).mod j = { reopenSwitch st (x.mod j) with counted := true } ∧
    (abandon j (x.modMod j (reopenSwitch st))).wp.abandoned = x.wp.abandoned + if (x.mod j).counted then 0 else 1 := by
  constructor
  · rw [abandon_mod (by simpa using h), LaneState.mod_modMod_self h]
  · rw [abandon_abandoned, LaneState.mod_modMod_self h]
    rfl

end Abandon

/-! ## Decisions to retire (R184, R186) -/

section Retire
variable {s : State} {x : LaneState} {j : Nat}

/-- No module is its own spare. -/
theorem spareFor_ne {k} (h : spareFor s x j = some k) : k ≠ j := by
  have spare : k ∈ (List.range 96).filter fun k => (x.mod k).st == .spare && k != j := by
    unfold spareFor at h
    dsimp only at h
    split at h
    case h_1 found =>
      cases h
      exact List.mem_of_find?_eq_some found
    case h_2 => exact List.mem_of_head? h
  have other := (List.mem_filter.1 spare).2
  simp only [Bool.and_eq_true, bne_iff_ne] at other
  exact other.2

/-- The decision writes its cause on the module alone; the spare it frees is another. -/
theorem retireDecision_mod {c} (h : j < x.wp.mods.length) :
    (retireDecision s j c x).mod j = { x.mod j with retireCause := BitVec.ofNat 8 c } := by
  unfold retireDecision
  dsimp only
  split
  case h_1 k found => exact (LaneState.mod_modMod_ne (spareFor_ne found).symm).trans (LaneState.mod_modMod_self h)
  case h_2 => exact LaneState.mod_modMod_self h

/-- The decision counts one retirement and no abandoned move. -/
theorem retireDecision_counts {c} : (retireDecision s j c x).wp.retirements = x.wp.retirements + 1 ∧
    (retireDecision s j c x).wp.abandoned = x.wp.abandoned := by
  unfold retireDecision
  dsimp only
  split <;> exact ⟨rfl, rfl⟩

theorem retireDecision_mods_length {c} : (retireDecision s j c x).wp.mods.length = x.wp.mods.length := by
  unfold retireDecision
  dsimp only
  split <;> simp

/-- The cause that retires a module whose switch is stuck, with its decision where none was taken. -/
def switchCause (s : State) (j : Nat) (x : LaneState) : LaneState :=
  if (x.mod j).retireCause = 0 then retireDecision s j 3 x else x.modMod j fun m => { m with retireCause := 3 }

theorem switchCause_mod (h : j < x.wp.mods.length) : (switchCause s j x).mod j = { x.mod j with retireCause := 3 } := by
  unfold switchCause
  split
  · exact retireDecision_mod h
  · exact LaneState.mod_modMod_self h

theorem switchCause_mods_length : (switchCause s j x).wp.mods.length = x.wp.mods.length := by
  unfold switchCause
  split
  · exact retireDecision_mods_length
  · exact LaneState.mods_length_modMod

/-- Only the first decision on a module is counted (R186). -/
theorem switchCause_counts : (switchCause s j x).wp.retirements = x.wp.retirements + (if (x.mod j).retireCause = 0 then 1 else 0) ∧
    (switchCause s j x).wp.abandoned = x.wp.abandoned := by
  unfold switchCause
  split
  · exact retireDecision_counts
  · exact ⟨(BitVec.add_zero _).symm, rfl⟩

/-- A module with a stuck switch retires where it stands with TGT and EN 0 (R183). -/
theorem retireBySwitch_mod (h : j < x.wp.mods.length) : (retireBySwitch s j x).mod j =
    { x.mod j with retireCause := 3, st := .retired, step := 0, target := 0, tgt := 0, en := false, mlim := 0, dwell := 0 } := by
  show (((switchCause s j x).event _).modMod j _).mod j = _
  rw [LaneState.mod_modMod_self (by simpa [switchCause_mods_length] using h), LaneState.mod_congr LaneState.wp_event, switchCause_mod h]
  rfl

theorem retireBySwitch_counts : (retireBySwitch s j x).wp.retirements = x.wp.retirements + (if (x.mod j).retireCause = 0 then 1 else 0) ∧
    (retireBySwitch s j x).wp.abandoned = x.wp.abandoned := switchCause_counts

end Retire

end Sys2Proof.Machine
end

section
/-! PROOF. The steps of a move and their limits (R181-R183, R187, Table 9.2). -/

namespace Sys2Proof.Machine
set_option Elab.async false

/-! ## The lane after a command -/

section Commands
variable {s : State} {l : Lane} {j : Fin 96}

/-- An aborted capture leaves the lanes. -/
@[simp] theorem captureAbort_lane {i s l} : (captureAbort i s).lane l = s.lane l := by
  unfold captureAbort
  split
  · cases l <;> rfl
  · rfl

theorem moveStepAdvance_lane : Completes (.moveStepAdvance l j) s fun t => t.lane l = moveAdvanceLane s j (s.lane l) := by
  refine .of rfl ?_
  split <;> simp

theorem moveStepTimeout_wp : Completes (.moveStepTimeout l j) s fun t => (t.lane l).wp = (moveTimeoutLane s j (s.lane l)).wp :=
  .of rfl (by simp)

theorem moveRampUp_lane : Completes (.moveRampUp l j) s fun t => t.lane l = moveRampUpLane s j (s.lane l) :=
  .of rfl (State.lane_modLane ..)

theorem moveStepAdvance_mod {m} (h : (moveAdvanceLane s j (s.lane l)).mod j = m) :
    Completes (.moveStepAdvance l j) s fun t => (t.lane l).mod j = m :=
  moveStepAdvance_lane.imp fun _ ht => ht ▸ h

theorem moveStepTimeout_mod {m} (h : (moveTimeoutLane s j (s.lane l)).mod j = m) :
    Completes (.moveStepTimeout l j) s fun t => (t.lane l).mod j = m :=
  moveStepTimeout_wp.imp fun _ ht => (LaneState.mod_congr ht).trans h

end Commands

/-! ## Each step's exit (R182) -/

section Exits
variable {s : State} {x : LaneState} {j : Nat}

theorem moveAdvanceLane_idle (h : (x.mod j).st ≠ .moving) : moveAdvanceLane s j x = x := if_pos h

theorem moveTimeoutLane_idle (h : (x.mod j).st ≠ .moving) : moveTimeoutLane s j x = x := if_pos h

variable (h : (x.mod j).st = .moving)
include h

theorem moveAdvanceLane_step1 (hs : (x.mod j).step = 1) : moveAdvanceLane s j x =
    if (x.mod j).startW + applyDelay s ≤ s.clk.period then onModuleLoop disableLoop j (x.modMod j fun m => { m with step := 2 }) else x := by
  simp [moveAdvanceLane, h, hs]

theorem moveAdvanceLane_step2 (hs : (x.mod j).step = 2) : moveAdvanceLane s j x =
    if (nth x.modLoops j).st = .off then x.modMod j fun m => { m with step := 3, tgt := 0, en := 0, dwell := 0 } else x := by
  simp [moveAdvanceLane, h, hs]

theorem moveAdvanceLane_step3 (hs : (x.mod j).step = 3) : moveAdvanceLane s j x =
    if atPos s x j 0 then x.modMod j fun m => { m with step := 4, dwell := 0 } else x := by
  simp [moveAdvanceLane, h, hs]

theorem moveAdvanceLane_step4 (hs : (x.mod j).step = 4) : moveAdvanceLane s j x =
    if dwellPeriods s 4 ≤ (x.mod j).dwell then afterOpen s x j else x := by
  simp [moveAdvanceLane, h, hs]

theorem moveAdvanceLane_step5 (hs : (x.mod j).step = 5) : moveAdvanceLane s j x =
    if (x.mod j).flt || reportsFlt s x j then fltBack j x
    else if atPos s x j (x.mod j).target then x.modMod j fun m => { m with step := 6, dwell := 0 } else x := by
  simp [moveAdvanceLane, h, hs]

/-- FLT in step 5 or 6 sends the module back to step 3 (R187). -/
theorem moveAdvanceLane_flt (hs : (x.mod j).step = 5 ∨ (x.mod j).step = 6) (hf : (x.mod j).flt = true) :
    moveAdvanceLane s j x = fltBack j x := by
  rcases hs with hs | hs <;> simp [moveAdvanceLane, h, hs, hf]

theorem moveTimeoutLane_step3 (hs : (x.mod j).step = 3) : moveTimeoutLane s j x = retireBySwitch s j (abandon j x) := by
  simp [moveTimeoutLane, h, hs]

theorem moveTimeoutLane_step5 (hs : (x.mod j).step = 5) : moveTimeoutLane s j x =
    (abandon j (x.modMod j (reopenSwitch .free))).event (eventReq .moveAbandoned j [j + 1]) := by
  simp [moveTimeoutLane, h, hs]

/-- A dwell starts again where it is not over and its condition does not hold. -/
theorem moveTimeoutLane_dwell (hs : (x.mod j).step = 4 ∨ (x.mod j).step = 6) : moveTimeoutLane s j x =
    if dwellDone s (x.mod j) || stepHolds s x j (x.mod j) then x else x.modMod j fun m => { m with dwell := 0 } := by
  rcases hs with hs | hs <;> simp [moveTimeoutLane, h, hs]

end Exits

/-! ## Modules that are not moving -/

section Clauses
variable {s : State} {l : Lane} {j : Fin 96}

theorem moveSteps_idle (h : ((s.lane l).mod j).st ≠ .moving) :
    Completes (.moveStepAdvance l j) s (fun t => t.lane l = s.lane l) ∧
    Completes (.moveStepTimeout l j) s (fun t => (t.lane l).wp = (s.lane l).wp) :=
  ⟨moveStepAdvance_lane.imp fun _ ht => ht.trans (moveAdvanceLane_idle h),
    moveStepTimeout_wp.imp fun _ ht => ht.trans (congrArg LaneState.wp (moveTimeoutLane_idle h))⟩

/-! ## Steps 1 to 6 (R181, R182, R187) -/

section Moving
variable (h : ((s.lane l).mod j).st = .moving)
include h

theorem moveStepAdvance_step1 (hs : ((s.lane l).mod j).step = 1) :
    (((s.lane l).mod j).startW + applyDelay s ≤ s.clk.period →
      Completes (.moveStepAdvance l j) s fun t => (t.lane l).mod j = { (s.lane l).mod j with step := 2 }) ∧
    (s.clk.period < ((s.lane l).mod j).startW + applyDelay s →
      Completes (.moveStepAdvance l j) s fun t => (t.lane l).mod j = (s.lane l).mod j) := by
  refine ⟨fun due => moveStepAdvance_mod ?_, fun early => moveStepAdvance_mod ?_⟩
  · rw [moveAdvanceLane_step1 h hs, if_pos due,
      LaneState.mod_congr (onModuleLoop_wp fun _ _ => disableLoop_only .wp (by decide)), LaneState.mod_modMod_self (LaneState.lt_of_moving h)]
  · rw [moveAdvanceLane_step1 h hs, if_neg (Nat.not_le.2 early)]

theorem moveStepAdvance_step2 (hs : ((s.lane l).mod j).step = 2) (hl : (nth (s.lane l).modLoops j).st = .off) :
    Completes (.moveStepAdvance l j) s fun t =>
      (t.lane l).mod j = { (s.lane l).mod j with step := 3, tgt := 0, en := false, dwell := 0 } :=
  moveStepAdvance_mod (by
    rw [moveAdvanceLane_step2 h hs, if_pos hl]
    exact LaneState.mod_modMod_self (LaneState.lt_of_moving h))

theorem moveStepAdvance_step3 (hs : ((s.lane l).mod j).step = 3) (hp : atPos s (s.lane l) j 0 = true) :
    Completes (.moveStepAdvance l j) s fun t => (t.lane l).mod j = { (s.lane l).mod j with step := 4, dwell := 0 } :=
  moveStepAdvance_mod (by rw [moveAdvanceLane_step3 h hs, if_pos hp, LaneState.mod_modMod_self (LaneState.lt_of_moving h)])

/-- Once its dwell is over, step 4 ends as `afterOpen` decides. -/
theorem moveStepAdvance_step4 (hs : ((s.lane l).mod j).step = 4) (hd : dwellPeriods s 4 ≤ ((s.lane l).mod j).dwell) :
    Completes (.moveStepAdvance l j) s fun t => (t.lane l).mod j = (afterOpen s (s.lane l) j).mod j :=
  moveStepAdvance_mod (by rw [moveAdvanceLane_step4 h hs, if_pos hd])

theorem moveStepAdvance_flt (hs : ((s.lane l).mod j).step = 5 ∨ ((s.lane l).mod j).step = 6) (hf : ((s.lane l).mod j).flt = true) :
    Completes (.moveStepAdvance l j) s fun t => (t.lane l).mod j = { reopenSwitch .withdrawn ((s.lane l).mod j) with counted := true } ∧
      (t.lane l).wp.abandoned = (s.lane l).wp.abandoned + (if ((s.lane l).mod j).counted then 0 else 1) :=
  moveStepAdvance_lane.imp fun _ ht => by
    rw [ht, moveAdvanceLane_flt h hs hf]
    exact abandon_reopenSwitch (LaneState.lt_of_moving h)

theorem moveStepAdvance_step5 (hs : ((s.lane l).mod j).step = 5) (hf : ((s.lane l).mod j).flt = false)
    (hr : reportsFlt s (s.lane l) j = false) (hp : atPos s (s.lane l) j ((s.lane l).mod j).target = true) :
    Completes (.moveStepAdvance l j) s fun t => (t.lane l).mod j = { (s.lane l).mod j with step := 6, dwell := 0 } :=
  moveStepAdvance_mod (by
    rw [moveAdvanceLane_step5 h hs, if_neg (by simp [hf, hr]), if_pos hp, LaneState.mod_modMod_self (LaneState.lt_of_moving h)])

end Moving

/-! ## The end of step 4 -/

section AfterOpen
variable {x : LaneState} {j : Nat} (h : j < x.wp.mods.length)
include h

/-- A module that reported FLT is WITHDRAWN, unless it retires. -/
theorem afterOpen_flt (hf : (x.mod j).flt = true) (ha : (x.mod j).after ≠ .retired) :
    (afterOpen s x j).mod j = settle .withdrawn (x.mod j) := by
  rw [afterOpen, if_pos (by simp [hf, ha]), LaneState.mod_modMod_self h]

/-- A withdrawal settles in the state it leads to. -/
theorem afterOpen_settled (hf : (x.mod j).flt = false) (ht : (x.mod j).target = 0) :
    (afterOpen s x j).mod j = settle (x.mod j).after (x.mod j) := by
  rw [afterOpen, if_neg (by simp [hf]), if_pos ht, LaneState.mod_modMod_self h]

/-- A bay with no need left frees the module. -/
theorem afterOpen_free (hf : (x.mod j).flt = false) (ht : (x.mod j).target ≠ 0) (hn : nth x.share.need ((x.mod j).target - 1) ≤ 0) :
    (afterOpen s x j).mod j = settle .free (x.mod j) := by
  rw [afterOpen, if_neg (by simp [hf]), if_neg ht, if_pos (by simp [hn]), LaneState.mod_modMod_self h]

/-- The move goes on to step 5 while its bay has a need and placement runs. -/
theorem afterOpen_step5 (hf : (x.mod j).flt = false) (ht : (x.mod j).target ≠ 0) (hn : 0 < nth x.share.need ((x.mod j).target - 1))
    (hp : placing s = true) :
    (afterOpen s x j).mod j = { x.mod j with step := 5, tgt := (x.mod j).target, en := false, dwell := 0 } := by
  rw [afterOpen, if_neg (by simp [hf]), if_neg ht, if_neg (by simp [hn, hp])]
  exact LaneState.mod_modMod_self h

end AfterOpen

theorem moveStepAdvance_opened (h : ((s.lane l).mod j).st = .moving) (hs : ((s.lane l).mod j).step = 4)
    (hd : dwellPeriods s 4 ≤ ((s.lane l).mod j).dwell) :
    (((s.lane l).mod j).flt = true → ((s.lane l).mod j).after ≠ .retired →
      Completes (.moveStepAdvance l j) s fun t => ((t.lane l).mod j).st = .withdrawn ∧ ((t.lane l).mod j).bay = 0) ∧
    (((s.lane l).mod j).flt = false → ((s.lane l).mod j).target = 0 →
      Completes (.moveStepAdvance l j) s fun t =>
        ((t.lane l).mod j).st = ((s.lane l).mod j).after ∧ ((t.lane l).mod j).bay = 0 ∧ ((t.lane l).mod j).step = 0) ∧
    (((s.lane l).mod j).flt = false → ((s.lane l).mod j).target ≠ 0 → nth (s.lane l).share.need (((s.lane l).mod j).target - 1) ≤ 0 →
      Completes (.moveStepAdvance l j) s fun t => ((t.lane l).mod j).st = .free) ∧
    (((s.lane l).mod j).flt = false → ((s.lane l).mod j).target ≠ 0 → 0 < nth (s.lane l).share.need (((s.lane l).mod j).target - 1) →
      placing s = true → Completes (.moveStepAdvance l j) s fun t =>
        (t.lane l).mod j = { (s.lane l).mod j with step := 5, tgt := ((s.lane l).mod j).target, en := false, dwell := 0 }) := by
  have lt := LaneState.lt_of_moving h
  have opened := moveStepAdvance_step4 h hs hd
  refine ⟨fun hf ha => opened.imp fun t ht => ?_, fun hf ht0 => opened.imp fun t ht => ?_, fun hf ht0 hn => opened.imp fun t ht => ?_,
    fun hf ht0 hn hp => opened.imp fun t ht => ht.trans (afterOpen_step5 lt hf ht0 hn hp)⟩
  · rw [ht, afterOpen_flt lt hf ha]
    exact ⟨rfl, rfl⟩
  · rw [ht, afterOpen_settled lt hf ht0]
    exact ⟨rfl, rfl, rfl⟩
  · rw [ht, afterOpen_free lt hf ht0 hn]
    rfl

/-! ## Limits (R183) -/

theorem moveStepTimeout_step3 (h : ((s.lane l).mod j).st = .moving) (hs : ((s.lane l).mod j).step = 3) :
    Completes (.moveStepTimeout l j) s fun t =>
      ((t.lane l).mod j).st = .retired ∧ ((t.lane l).mod j).tgt = 0 ∧ ((t.lane l).mod j).en = false ∧ ((t.lane l).mod j).retireCause = 3 ∧
      (t.lane l).wp.retirements = (s.lane l).wp.retirements + (if ((s.lane l).mod j).retireCause = 0 then 1 else 0) ∧
      (t.lane l).wp.abandoned = (s.lane l).wp.abandoned + (if ((s.lane l).mod j).counted then 0 else 1) := by
  have lt := LaneState.lt_of_moving h
  obtain ⟨retirements, abandoned⟩ := retireBySwitch_counts (s := s) (x := abandon j (s.lane l)) (j := j)
  refine moveStepTimeout_wp.imp fun t ht => ?_
  rw [LaneState.mod_congr ht, ht, moveTimeoutLane_step3 h hs, retireBySwitch_mod (by simpa using lt), retirements, abandoned,
    abandon_retirements, abandon_abandoned, abandon_mod lt]
  exact ⟨rfl, rfl, rfl, rfl, rfl, rfl⟩

theorem moveStepTimeout_step5 (h : ((s.lane l).mod j).st = .moving) (hs : ((s.lane l).mod j).step = 5) :
    Completes (.moveStepTimeout l j) s fun t =>
      (t.lane l).mod j = { reopenSwitch .free ((s.lane l).mod j) with counted := true } ∧
      (t.lane l).wp.abandoned = (s.lane l).wp.abandoned + (if ((s.lane l).mod j).counted then 0 else 1) :=
  moveStepTimeout_wp.imp fun t ht => by
    rw [LaneState.mod_congr ht, ht, moveTimeoutLane_step5 h hs]
    exact abandon_reopenSwitch (LaneState.lt_of_moving h)

theorem moveStepTimeout_dwell (h : ((s.lane l).mod j).st = .moving) (hs : ((s.lane l).mod j).step = 4 ∨ ((s.lane l).mod j).step = 6) :
    Completes (.moveStepTimeout l j) s fun t => (t.lane l).mod j =
      if dwellDone s ((s.lane l).mod j) = true ∨ stepHolds s (s.lane l) j ((s.lane l).mod j) = true then (s.lane l).mod j
      else { (s.lane l).mod j with dwell := 0 } := by
  refine moveStepTimeout_mod ?_
  rw [moveTimeoutLane_dwell h hs]
  simp only [Bool.or_eq_true]
  split
  · rfl
  · exact LaneState.mod_modMod_self (LaneState.lt_of_moving h)

/-! ## Step 7 (R182) -/

/-- Module m at the end of its move to bay, with EN set. -/
def Module.arrived (bay : Nat) (m : Module) : Module :=
  { m with st := .serving, bay := bay, target := 0, step := 0, en := true, tgt := bay, dwell := 0, resume := false, held := false
           moves := m.moves + 1 }

/-- Step 7 is an arrival, the start of the loop and the limit of a serving module, counted. -/
theorem rampUp_eq {x : LaneState} {j bay : Nat} : ∃ n, rampUp s j bay true x =
    countMove s j true ((onModuleLoop enableLoop j (x.modMod j (Module.arrived bay))).modMod j fun m => { m with mlim := n }) :=
  ⟨_, rfl⟩

/-- A completed move leaves the module at its bay with its limit, and is counted. -/
theorem rampUp_completes {x : LaneState} {j bay : Nat} (h : j < x.wp.mods.length) :
    (∃ n, (rampUp s j bay true x).mod j = { (x.mod j).arrived bay with mlim := n }) ∧
    (rampUp s j bay true x).wp.completed = x.wp.completed + 1 := by
  have started : (onModuleLoop enableLoop j (x.modMod j (Module.arrived bay))).wp = (x.modMod j (Module.arrived bay)).wp :=
    onModuleLoop_wp fun _ _ => enableLoop_only .wp (by decide)
  obtain ⟨n, eq⟩ := rampUp_eq (s := s) (x := x) (j := j) (bay := bay)
  constructor
  · refine ⟨n, ?_⟩
    rw [eq]
    show (LaneState.modMod j _ _).mod j = _
    rw [LaneState.mod_modMod_self (by simpa [started] using h), LaneState.mod_congr started, LaneState.mod_modMod_self h]
  · rw [eq]
    exact (congrArg (fun w : Waypoint => w.completed + 1) started :)

theorem moveRampUp_completes (ha : atShare s = true) (hm : servesSessions s = true) (h : ((s.lane l).mod j).st = .moving)
    (hs : ((s.lane l).mod j).step = 6) (hd : dwellPeriods s 6 ≤ ((s.lane l).mod j).dwell)
    (hw : ((s.lane l).mod j).startW + moveFloor s ≤ s.clk.period) (hf : ((s.lane l).mod j).flt = false) :
    Completes (.moveRampUp l j) s fun t =>
      ((t.lane l).mod j).st = .serving ∧ ((t.lane l).mod j).bay = ((s.lane l).mod j).target ∧ ((t.lane l).mod j).en = true ∧
      ((t.lane l).mod j).tgt = ((s.lane l).mod j).target ∧ ((t.lane l).mod j).moves = ((s.lane l).mod j).moves + 1 ∧
      (t.lane l).wp.completed = (s.lane l).wp.completed + 1 := by
  have run : moveRampUpLane s j (s.lane l) = rampUp s j ((s.lane l).mod j).target true (s.lane l) := by
    simp [moveRampUpLane, ha, hm, h, hs, hd, hw, hf]
  obtain ⟨⟨n, arrived⟩, counted⟩ := rampUp_completes (s := s) (bay := ((s.lane l).mod j).target) (LaneState.lt_of_moving h)
  refine moveRampUp_lane.imp fun t ht => ?_
  rw [ht, run, arrived, counted]
  exact ⟨rfl, rfl, rfl, rfl, rfl, rfl⟩

theorem moveRampUp_offBoundary (ha : atShare s = false) : Completes (.moveRampUp l j) s fun t => t.lane l = s.lane l :=
  moveRampUp_lane.imp fun _ ht => ht.trans (if_pos (by simp [ha]))

end Clauses

/-- Settles O16, clause by clause: a module that is not moving, the exits of steps 1 to 6, their limits, step 7. -/
theorem moveSteps : Obligations.MoveSteps :=
  ⟨fun _ _ _ => moveSteps_idle, fun _ _ _ => moveStepAdvance_step1, fun _ _ _ => moveStepAdvance_step2, fun _ _ _ => moveStepAdvance_step3,
    fun _ _ _ => moveStepAdvance_opened, fun _ _ _ => moveStepAdvance_flt, fun _ _ _ => moveStepAdvance_step5,
    fun _ _ _ => moveStepTimeout_step3, fun _ _ _ => moveStepTimeout_step5, fun _ _ _ => moveStepTimeout_dwell,
    fun _ _ _ _ => moveRampUp_completes, fun _ _ _ => moveRampUp_offBoundary⟩

end Sys2Proof.Machine
end

section
/-! PROOF. Reassessment, takeover and the theta trend of modules (R179, R180, R184, R413). -/

namespace Sys2Proof.Machine
set_option Elab.async false

/-! ## What a reassessment may make of a module -/

/-- Module j starts a move in this period, out of every bay or to one its cabinet reaches. -/
structure MoveBegun (s : State) (j : Nat) (m : Module) : Prop where
  moving : m.st = .moving
  step : m.step = 1
  start : m.startW = s.clk.period
  limit : m.mlim = 0
  reached : m.target ≠ 0 → (reachOf s j).testBit (m.target - 1) = true

/-- Module j stays as m, or starts a move where it was in none. -/
def Reassigned (s : State) (j : Nat) (m n : Module) : Prop := n = m ∨ m.st ≠ .moving ∧ MoveBegun s j n

/-- Every module of lane x stays or starts a move. -/
def LaneReassigned (s : State) (x y : LaneState) : Prop := ∀ j, Reassigned s j (x.mod j) (y.mod j)

section Reassigned
variable {s : State} {x y z : LaneState} {j : Nat}

theorem LaneReassigned.refl : LaneReassigned s x x := fun _ => .inl rfl

/-- A module in a move stays as it is. -/
theorem LaneReassigned.moving (h : LaneReassigned s x y) (hm : (x.mod j).st = .moving) : y.mod j = x.mod j :=
  (h j).resolve_right fun begun => begun.1 hm

theorem LaneReassigned.trans (h : LaneReassigned s x y) (k : LaneReassigned s y z) : LaneReassigned s x z := fun j => by
  rcases h j with same | ⟨still, begun⟩
  · exact same ▸ k j
  · exact .inr ⟨still, k.moving begun.moving ▸ begun⟩

theorem LaneReassigned.modMod {f} (hm : (x.mod j).st ≠ .moving) (hb : MoveBegun s j (f (x.mod j))) :
    LaneReassigned s x (x.modMod j f) := fun k => by
  rcases LaneState.mod_modMod_cases (x := x) (j := j) (k := k) (f := f) with same | ⟨rfl, changed⟩
  · exact .inl same
  · exact .inr ⟨hm, changed ▸ hb⟩

end Reassigned

/-! ## Withdrawals (R184, R185) -/

section Withdrawals
variable {s : State} {x y : LaneState} {j k : Nat}

/-- What is due of module j: its retirement by trend, or its withdrawal. -/
def withdrawOne (s : State) (x : LaneState) (j : Nat) : LaneState :=
  let m := x.mod j
  if m.st = .moving then x
  else if m.retireDue ∧ m.st ≠ .retired then x.modMod j fun m => { startMove s.clk.period 0 .retired m with retireDue := false }
  else if m.st = .serving ∧ moduleUsable s x j = false ∧ cabUp s x j then x.modMod j (startMove s.clk.period 0 .withdrawn)
  else x

theorem withdrawals_eq : withdrawals s x = (List.range 96).foldl (withdrawOne s) x := rfl

theorem withdrawOne_only : LaneOnly [.wp] x (withdrawOne s x j) := by
  unfold withdrawOne
  exact .ite .refl (.ite LaneState.modMod_only (.ite LaneState.modMod_only .refl))

theorem withdrawOne_reassigned : LaneReassigned s x (withdrawOne s x j) := by
  unfold withdrawOne
  dsimp only
  split_ifs with still
  · exact .refl
  · exact .modMod still ⟨rfl, rfl, rfl, rfl, fun t => absurd rfl t⟩
  · exact .modMod still ⟨rfl, rfl, rfl, rfl, fun t => absurd rfl t⟩
  · exact .refl

theorem withdrawOne_ne (h : k ≠ j) : (withdrawOne s x j).mod k = x.mod k := by
  unfold withdrawOne
  dsimp only
  split_ifs
  · rfl
  · exact LaneState.mod_modMod_ne h
  · exact LaneState.mod_modMod_ne h
  · rfl

theorem withdrawFold_reassigned {js : List Nat} : LaneReassigned s x (js.foldl (withdrawOne s) x) :=
  List.foldlRecOn js _ .refl fun _ h _ _ => h.trans withdrawOne_reassigned

/-- The links and the loop of a module say whether it is usable; Waypoint does not. -/
theorem moduleUsable_of_only (h : LaneOnly [.wp] x y) : moduleUsable s y j = moduleUsable s x j ∧ cabUp s y j = cabUp s x j := by
  have hl : y.links = x.links := h .links (by decide)
  have hp : y.modLoops = x.modLoops := h .modLoops (by decide)
  have up : cabUp s y j = cabUp s x j := by
    simp only [cabUp, LaneState.linkUp, LaneState.link, hl]
  have last : moduleLast s y j = moduleLast s x j := by
    simp only [moduleLast, LaneState.link, hl]
  exact ⟨by rw [moduleUsable, moduleUsable, up, last, hp], up⟩

/-- A serving module of lane x that is no longer usable while its cabinet answers, without a retirement due. -/
structure WithdrawalDue (s : State) (x : LaneState) (j : Nat) : Prop where
  serving : (x.mod j).st = .serving
  kept : (x.mod j).retireDue = false
  unusable : moduleUsable s x j = false
  up : cabUp s x j = true

theorem WithdrawalDue.congr (h : WithdrawalDue s x j) (hm : y.mod j = x.mod j) (ho : LaneOnly [.wp] x y) : WithdrawalDue s y j :=
  ⟨hm ▸ h.serving, hm ▸ h.kept, (moduleUsable_of_only ho).1.trans h.unusable, (moduleUsable_of_only ho).2.trans h.up⟩

theorem WithdrawalDue.lt (h : WithdrawalDue s x j) : j < x.wp.mods.length := LaneState.lt_of_configured (by simp [h.serving])

theorem withdrawOne_due (h : WithdrawalDue s x j) :
    (withdrawOne s x j).mod j = startMove s.clk.period 0 .withdrawn (x.mod j) := by
  simp only [withdrawOne, h.serving, h.kept, h.unusable, h.up]
  exact LaneState.mod_modMod_self h.lt

/-- A withdrawal that is due begins when its module's turn comes, and stands. -/
theorem withdrawFold_due {js : List Nat} (h : WithdrawalDue s x j) (hj : j ∈ js) :
    (js.foldl (withdrawOne s) x).mod j = startMove s.clk.period 0 .withdrawn (x.mod j) := by
  induction js generalizing x with
  | nil => exact nomatch hj
  | cons k js ih =>
    rw [List.foldl_cons]
    by_cases e : k = j
    case pos =>
      subst e
      have begun := withdrawOne_due h
      exact (withdrawFold_reassigned.moving (congrArg Module.st begun)).trans begun
    case neg =>
      have same : (withdrawOne s x k).mod j = x.mod j := withdrawOne_ne (Ne.symm e)
      rw [ih (h.congr same withdrawOne_only) ((List.mem_cons.1 hj).resolve_left (Ne.symm e)), same]

end Withdrawals

/-! ## Placement (R179, R180) -/

section Placement
variable {s : State} {x : LaneState} {i j : Nat}

theorem pickModule_candidate (h : pickModule s x i = some j) : candidateFor s x i j = true := by
  have candidate : j ∈ (List.range 96).filter (candidateFor s x i) := by
    unfold pickModule at h
    dsimp only at h
    split at h
    case h_1 found =>
      cases h
      exact List.mem_of_find?_eq_some found
    case h_2 => exact List.mem_of_head? h
  exact (List.mem_filter.1 candidate).2

/-- A candidate's cabinet reaches the bay, and the candidate is FREE or serves. -/
theorem candidateFor_reaches (h : candidateFor s x i j = true) : (reachOf s j).testBit i = true ∧ (x.mod j).st ≠ .moving := by
  simp only [candidateFor, Bool.and_eq_true, Bool.or_eq_true] at h
  obtain ⟨⟨reaches, -⟩, ⟨free, -⟩ | ⟨leaves, -⟩⟩ := h
  · exact ⟨reaches, fun moving => nomatch (eq_of_beq free).symm.trans moving⟩
  · simp only [mayLeave, Bool.and_eq_true] at leaves
    obtain ⟨⟨⟨⟨serving, -⟩, -⟩, -⟩, -⟩ := leaves
    exact ⟨reaches, fun moving => nomatch (eq_of_beq serving).symm.trans moving⟩

theorem placeMoves_reassigned {n bays started un} : LaneReassigned s x (placeMoves s n x bays started un).1 := by
  induction n generalizing x bays started un with
  | zero => exact .refl
  | succ n ih =>
    unfold placeMoves
    dsimp only
    split
    · exact .refl
    · split
      · exact .refl
      · split
        · exact ih
        case h_2 i _ j picked =>
          obtain ⟨reaches, still⟩ := candidateFor_reaches (pickModule_candidate picked)
          exact (LaneReassigned.modMod still ⟨rfl, rfl, rfl, rfl, fun _ => reaches⟩).trans ih

/-- A reassessment counts anew how long each donor could be spared; no other field of a module changes with it. -/
theorem donorRuns_mod (h : j < x.wp.mods.length) :
    ∃ n, (donorRuns s x).mod j = { x.mod j with donorRun := n } ∧ ((x.mod j).st = .moving → n = 0) := by
  have counted : (donorRuns s x).mod j = if (x.mod j).st = .serving ∧ (x.mod j).bay ≠ 0 then
      { x.mod j with donorRun := if spares s x ((x.mod j).bay - 1) j then (x.mod j).donorRun + 1 else 0 }
      else { x.mod j with donorRun := 0 } := nth_mapIdx _ _ _ h
  rw [counted]
  split
  case isTrue serves => exact ⟨_, rfl, fun moving => nomatch serves.1.symm.trans moving⟩
  case isFalse => exact ⟨0, rfl, fun _ => rfl⟩

theorem reassessLane_reassigned : LaneReassigned s (donorRuns s x) (reassessLane s x) :=
  LaneReassigned.trans withdrawFold_reassigned placeMoves_reassigned

theorem reassessLane_due (h : WithdrawalDue s (donorRuns s x) j) (hj : j < 96) :
    (reassessLane s x).mod j = startMove s.clk.period 0 .withdrawn ((donorRuns s x).mod j) := by
  have begun : (withdrawals s (donorRuns s x)).mod j = _ := withdrawFold_due h (List.mem_range.2 hj)
  exact (placeMoves_reassigned.moving (congrArg Module.st begun)).trans begun

end Placement

/-! ## Reassessment -/

section Clauses
variable {s : State} {l : Lane}

theorem reassessment_idle (h : computing s l = false ∨ placing s = false ∨ s.clk.period % placeLen s ≠ 0) :
    Completes (.reassessment l) s fun t => t = s := by
  have skips : ¬ (computing s l && placing s && s.clk.period % placeLen s == 0) = true := by
    rcases h with h | h | h <;> simp [h]
  exact .of rfl (if_neg skips)

theorem reassessment_lane (hc : computing s l = true) (hp : placing s = true) (hb : s.clk.period % placeLen s = 0) :
    Completes (.reassessment l) s fun t => t.lane l = reassessLane s (s.lane l) := by
  refine .of rfl ?_
  rw [reassessmentEffect, if_pos (by simp [hc, hp, hb]), State.lane_modLane]

theorem reassessment_places (h : Shape s) (hc : computing s l = true) (hp : placing s = true) (hb : s.clk.period % placeLen s = 0) :
    Completes (.reassessment l) s fun t =>
      (∀ j : Fin 96, ((s.lane l).mod j).st = .moving → (t.lane l).mod j = { (s.lane l).mod j with donorRun := 0 }) ∧
      (∀ j : Fin 96, ((s.lane l).mod j).st = .serving → ((s.lane l).mod j).retireDue = false → moduleUsable s (s.lane l) j = false →
        cabUp s (s.lane l) j = true →
        ((t.lane l).mod j).st = .moving ∧ ((t.lane l).mod j).step = 1 ∧ ((t.lane l).mod j).target = 0 ∧
        ((t.lane l).mod j).after = .withdrawn) ∧
      (∀ j : Fin 96, ((s.lane l).mod j).st ≠ .moving → ((t.lane l).mod j).st = .moving → ((t.lane l).mod j).target ≠ 0 →
        ((t.lane l).mod j).step = 1 ∧ ((t.lane l).mod j).startW = s.clk.period ∧ ((t.lane l).mod j).mlim = 0 ∧
        (reachOf s j).testBit (((t.lane l).mod j).target - 1) = true) := by
  have counted := fun j : Fin 96 => donorRuns_mod (s := s) ((h.lane l).module_lt j)
  refine (reassessment_lane hc hp hb).imp fun t ht => ?_
  rw [ht]
  refine ⟨fun j moving => ?_, fun j serving kept unusable up => ?_, fun j still moving target => ?_⟩
  · obtain ⟨n, donor, zero⟩ := counted j
    rw [reassessLane_reassigned.moving ((congrArg Module.st donor).trans moving), donor, zero moving]
  · obtain ⟨n, donor, -⟩ := counted j
    obtain ⟨usable, cabinet⟩ := moduleUsable_of_only (s := s) (j := j) (donorRuns_only (t0 := s) (x := s.lane l))
    have due : WithdrawalDue s (donorRuns s (s.lane l)) j :=
      ⟨(congrArg Module.st donor).trans serving, (congrArg Module.retireDue donor).trans kept, usable.trans unusable, cabinet.trans up⟩
    rw [reassessLane_due due j.2]
    exact ⟨rfl, rfl, rfl, rfl⟩
  · obtain ⟨n, donor, -⟩ := counted j
    rcases reassessLane_reassigned (s := s) (x := s.lane l) j with same | ⟨-, begun⟩
    · exact absurd ((congrArg Module.st (same.trans donor)).symm.trans moving) still
    · exact ⟨begun.step, begun.start, begun.limit, begun.reached target⟩

/-! ## Takeover (R413) -/

variable {j : Fin 96}

theorem moduleTakeover_lane : Completes (.moduleTakeover l j) s fun t => t.lane l = moduleTakeoverLane s j (s.lane l) :=
  .of rfl (State.lane_modLane ..)

/-- A usable module with its switch open settles in the state it takes. -/
theorem moduleTakeoverLane_open {x : LaneState} {j : Nat} (hf : (x.mod j).afresh = true) (ha : atShare s = true)
    (hu : cabUp s x j = true) (hc : (modCab s j).isSome = true) (hr : (x.mod j).st ≠ .retired) (hp : modPos (moduleLast s x j) = 0)
    (hm : moduleUsable s x j = true) : moduleTakeoverLane s j x =
      x.modMod j fun m => { settle (takeState s j (x.mod j)) m with afresh := false, after := takeState s j (x.mod j) } := by
  have due : ¬ ((!((x.mod j).afresh && atShare s && cabUp s x j) || (modCab s j).isNone || (x.mod j).st == .retired) = true) := by
    simp [hf, ha, hu, hr, Option.isSome_iff_ne_none.1 hc]
  rw [moduleTakeoverLane, if_neg due, if_pos hp, if_pos hm]

theorem takeState_fresh {m : Module} {j : Nat} (hf : m.after ≠ .free) (hs : m.after ≠ .spare) :
    takeState s j m = if modN s j 5 = 0 then .free else .spare := by
  simp [takeState, freshState, hf, hs]

theorem moduleTakeover_takes (h : Shape s) (hf : ((s.lane l).mod j).afresh = true) (ha : atShare s = true)
    (hu : cabUp s (s.lane l) j = true) (hc : (modCab s j).isSome = true) (hr : ((s.lane l).mod j).st ≠ .retired)
    (hp : modPos (moduleLast s (s.lane l) j) = 0) (hm : moduleUsable s (s.lane l) j = true)
    (hfree : ((s.lane l).mod j).after ≠ .free) (hspare : ((s.lane l).mod j).after ≠ .spare) :
    Completes (.moduleTakeover l j) s fun t =>
      ((t.lane l).mod j).st = (if modN s j 5 = 0 then .free else .spare) ∧ ((t.lane l).mod j).afresh = false ∧
      ((t.lane l).mod j).bay = 0 ∧ ((t.lane l).mod j).tgt = 0 ∧ ((t.lane l).mod j).en = false := by
  refine moduleTakeover_lane.imp fun t ht => ?_
  rw [ht, moduleTakeoverLane_open hf ha hu hc hr hp hm, LaneState.mod_modMod_self ((h.lane l).module_lt j), takeState_fresh hfree hspare]
  exact ⟨rfl, rfl, rfl, rfl, rfl⟩

theorem moduleTakeover_waits (h : ((s.lane l).mod j).afresh = false ∨ atShare s = false ∨ cabUp s (s.lane l) j = false) :
    Completes (.moduleTakeover l j) s fun t => t.lane l = s.lane l := by
  refine moduleTakeover_lane.imp fun t ht => ht.trans (if_pos ?_)
  rcases h with h | h | h <;> simp [h]

/-! ## The theta trend (R184) -/

theorem thetaWindowClose_wp :
    Completes (.thetaWindowClose l j) s fun t => (t.lane l).wp = (thetaWindowLane s j (s.lane l)).wp :=
  .of rfl (by simp)

/-- A window that closes writes the module's trend; a retirement it decides writes its cause and that it is due. -/
theorem thetaWindowLane_mod {x : LaneState} {j : Nat} (h : j < x.wp.mods.length) : ∃ c d,
    (thetaWindowLane s j x).mod j = { thetaClose s j (x.mod j) with retireCause := c, retireDue := d } ∧
    ((thetaClose s j (x.mod j)).thetaOver = 0 → (thetaWindowLane s j x).mod j = thetaClose s j (x.mod j)) := by
  have closed : (x.modMod j (thetaClose s j)).mod j = thetaClose s j (x.mod j) := LaneState.mod_modMod_self h
  have length : j < (x.modMod j (thetaClose s j)).wp.mods.length := by simpa using h
  unfold thetaWindowLane
  dsimp only
  split
  case isTrue retires =>
    refine ⟨1, true, ?_, fun zero => absurd (closed ▸ zero) retires.2.1⟩
    rw [LaneState.mod_modMod_self (by simpa [retireDecision_mods_length] using h), retireDecision_mod length, closed]
    rfl
  case isFalse => exact ⟨_, _, closed, fun _ => closed⟩

/-- A window with fewer than 1,000 samples is dropped. -/
theorem thetaClose_short {m : Module} {j : Nat} (h : m.thetaN < 1000) : thetaClose s j m = { m with thetaSum := 0, thetaN := 0 } := if_pos h

/-- Against a configured baseline a full window is counted where its mean exceeds the limit, and ends the run of such windows elsewhere. -/
theorem thetaClose_full {m : Module} {j : Nat} (h : 1000 ≤ m.thetaN) (hb : modN s j 7 ≠ 0) :
    (thetaClose s j m).thetaMean = m.thetaSum / m.thetaN ∧ (thetaClose s j m).thetaN = 0 ∧
    (thetaClose s j m).thetaOver =
      if modN s j 7 * (1000 + cfgN s 0x3300 8) < m.thetaSum / m.thetaN * 1000 then m.thetaOver + 1 else 0 := by
  have base : ∀ n, thetaBase s j n = modN s j 7 := fun _ => if_pos hb
  unfold thetaClose
  rw [if_neg (Nat.not_lt.2 h)]
  simp only [base, if_neg hb]
  split_ifs <;> exact ⟨rfl, rfl, rfl⟩

theorem thetaWindowClose_short (h : Shape s) (hn : ((s.lane l).mod j).thetaN < 1000) (ho : ((s.lane l).mod j).thetaOver = 0) :
    Completes (.thetaWindowClose l j) s fun t => (t.lane l).mod j = { (s.lane l).mod j with thetaSum := 0, thetaN := 0 } := by
  obtain ⟨-, -, -, kept⟩ := thetaWindowLane_mod (s := s) ((h.lane l).module_lt j)
  rw [thetaClose_short hn] at kept
  exact thetaWindowClose_wp.imp fun t ht => (LaneState.mod_congr ht).trans (kept ho)

theorem thetaWindowClose_full (h : Shape s) (hn : 1000 ≤ ((s.lane l).mod j).thetaN) (hb : modN s j 7 ≠ 0) :
    Completes (.thetaWindowClose l j) s fun t =>
      let m := (s.lane l).mod j
      let r := (t.lane l).mod j
      r.thetaMean = m.thetaSum / m.thetaN ∧ r.thetaN = 0 ∧
      (modN s j 7 * (1000 + cfgN s 0x3300 8) < m.thetaSum / m.thetaN * 1000 → r.thetaOver = m.thetaOver + 1) ∧
      (m.thetaSum / m.thetaN * 1000 ≤ modN s j 7 * (1000 + cfgN s 0x3300 8) → r.thetaOver = 0) := by
  obtain ⟨c, d, closed, -⟩ := thetaWindowLane_mod (s := s) ((h.lane l).module_lt j)
  obtain ⟨mean, dropped, counted⟩ := thetaClose_full (s := s) hn hb
  refine thetaWindowClose_wp.imp fun t ht => ?_
  dsimp only
  rw [LaneState.mod_congr ht, closed]
  exact ⟨mean, dropped, fun above => counted.trans (if_pos above), fun within => counted.trans (if_neg (Nat.not_lt.2 within))⟩

end Clauses

/-- Settles O17, clause by clause: a reassessment that waits and one that runs, takeover, a short window and a full one. -/
theorem placementCommands : Obligations.PlacementCommands :=
  ⟨fun _ _ => reassessment_idle, fun _ _ => reassessment_places, fun _ _ _ => moduleTakeover_takes, fun _ _ _ => moduleTakeover_waits,
    fun _ _ _ => thetaWindowClose_short, fun _ _ _ => thetaWindowClose_full⟩

end Sys2Proof.Machine
end

section
/-! PROOF. What the metrology section's shared operations leave and write: the logbook, crediting, halts, commits and starts (R215-R217,
R220, R221, R232, R267). -/

namespace Sys2Proof.Machine
set_option Elab.async false

/-! ## The section of a state -/

@[simp] theorem modMet_met {f s} : (modMet f s).met = f s.met := rfl

@[simp] theorem Metro.onCtl_ctl {f} {m : Metro} : (m.onCtl f).ctl = f m.ctl := rfl

theorem modMet_of_eq {f : Metro → Metro} {s} (h : f s.met = s.met) : modMet f s = s := by
  unfold modMet
  rw [h]

theorem recheckSpares_met {s} : (recheckSpares s).met = s.met := (recheckSpares_only (l := .a)).1 .met (by decide)

theorem metRuns_of_advances {m : Metro} (h : advances m = true) : metRuns m = true := by
  unfold advances at h
  unfold metRuns
  cases st : m.ctl.st <;> simp_all

/-! ## What an operation that keeps the control part lets be read -/

/-- A reading of the control part that the deviation, the pulse overflow flag and the waiting records do not enter. -/
theorem MetKeep.reads {α : Type} {m n : Metro} (h : MetKeep m n) (g : MetCtl → α)
    (hg : ∀ c d p o x y, g { c with deviation := d, periodDev := p, pulseOvf := o, txLog := x, txSigned := y } = g c := by intros; rfl) :
    g n.ctl = g m.ctl := by
  unfold MetKeep at h
  rw [h, hg]

/-! ## The logbook (R267) -/

/-- An entry changes the logbook and the copy that leaves, and nothing else. -/
theorem logAdd_eq (e : LogEntry) (m : Metro) : ∃ x p v o, logAdd e m =
    { m with ctl := { m.ctl with txLog := x }, bill := { m.bill with param := p, event := v, overwritten := o } } := by
  unfold logAdd
  split
  · exact ⟨_, _, _, _, rfl⟩
  · dsimp only
    split <;> exact ⟨_, _, _, _, rfl⟩

theorem logEntry_eq (code ch : Nat) (d : List Byte) (m : Metro) : ∃ x p v o, logEntry code ch d m =
    { m with ctl := { m.ctl with txLog := x }, bill := { m.bill with param := p, event := v, overwritten := o } } := logAdd_eq _ _

/-- A reading of the section that the logbook does not enter. -/
theorem logAdd_reads {α : Type} {e : LogEntry} {m : Metro} (g : Metro → α)
    (hg : ∀ (m : Metro) x p v o, g { m with ctl := { m.ctl with txLog := x }, bill := { m.bill with param := p, event := v, overwritten := o } }
      = g m := by intros; rfl) : g (logAdd e m) = g m := by
  obtain ⟨x, p, v, o, h⟩ := logAdd_eq e m
  rw [h, hg]

theorem logEntry_reads {α : Type} {code ch d} {m : Metro} (g : Metro → α)
    (hg : ∀ (m : Metro) x p v o, g { m with ctl := { m.ctl with txLog := x }, bill := { m.bill with param := p, event := v, overwritten := o } }
      = g m := by intros; rfl) : g (logEntry code ch d m) = g m := logAdd_reads g hg

/-- An entry of the event area takes its next number. -/
theorem logAdd_event_next {e : LogEntry} {m : Metro} (h : paramCode e.code.toNat = false) :
    (logAdd e m).bill.event.next = m.bill.event.next + 1 := by
  unfold logAdd
  rw [h, Bool.false_and, if_neg Bool.false_ne_true]
  dsimp only
  rw [if_neg Bool.false_ne_true]
  dsimp only [Metro.onBill]
  split <;> rfl

theorem logEntry_event_next {code ch d} {m : Metro} (h : paramCode (BitVec.ofNat 16 code).toNat = false) :
    (logEntry code ch d m).bill.event.next = m.bill.event.next + 1 := logAdd_event_next h

/-! ## Crediting (R232) -/

theorem pulseTake_bill {ch d u a n} {m : Metro} : (pulseTake ch d u a n m).bill = m.bill := rfl
theorem pulseTake_ac {ch d u a n} {m : Metro} : (pulseTake ch d u a n m).ac = m.ac := rfl

theorem markChannel_groups {ch i r} : (markChannel ch i r).groups = r.groups := by
  unfold markChannel
  split <;> rfl

/-- Whole mWh of the hub go to its group alone. -/
theorem creditMwh_hub_groups {d n} {m : Metro} : (creditMwh 0 d n m).bill.regs.groups = (creditGroup 0 d n m.bill.regs).groups := by
  have noSession : ∀ r, commissioning r 0 = false := fun r => by
    unfold commissioning
    split <;> rfl
  unfold creditMwh
  simp only [Metro.onRegs, Metro.onBill, noSession, if_true, Bool.false_eq_true, if_false]
  split
  · split <;> rfl
  · exact markChannel_groups

/-- An energy of the hub enters its residue: whole mWh leave it for the group of the hub. -/
theorem accumulate_hub {d start len} {u : Int} {m : Metro} (h : 2 ^ 32 ≤ residueOf m 0 d + u) :
    (accumulate 0 d u start len m).ac = (setResidue 0 d ((residueOf m 0 d + u) % 2 ^ 32) m).ac ∧
    (accumulate 0 d u start len m).bill.regs.groups = (creditGroup 0 d ((residueOf m 0 d + u) / 2 ^ 32).toNat m.bill.regs).groups := by
  have positive : 0 < residueOf m 0 d + u := by omega
  have whole : (residueOf m 0 d + u) / 2 ^ 32 ≠ 0 := by omega
  have rest : residueOf m 0 d + u - (residueOf m 0 d + u) / 2 ^ 32 * 2 ^ 32 = (residueOf m 0 d + u) % 2 ^ 32 := by omega
  unfold accumulate
  simp only [if_pos positive, if_neg whole, rest, pulseTake_bill, pulseTake_ac, creditMwh_hub_groups]
  exact ⟨rfl, rfl⟩

/-- An energy changes a residue, and no other reading of the incomer or of a channel. -/
theorem accumulate_readings {ch d u start len} {m : Metro} : ∃ v,
    (accumulate ch d u start len m).ac = (setResidue ch d v m).ac ∧ (accumulate ch d u start len m).dc = (setResidue ch d v m).dc := by
  unfold accumulate
  dsimp only
  generalize (if 0 < residueOf m ch d + u then (residueOf m ch d + u) / 2 ^ 32 else 0) = n
  split <;> exact ⟨_, rfl, rfl⟩

/-- A sample of the hub changes the residues of the incomer, no other reading of it and no channel. -/
theorem creditSample_hub_readings {u start len} {m : Metro} : ∃ i e,
    (creditSample 0 u start len m).ac = { m.ac with imp := i, exp := e } ∧ (creditSample 0 u start len m).dc = m.dc := by
  unfold creditSample
  split
  · exact ⟨m.ac.imp, m.ac.exp, rfl, rfl⟩
  · obtain ⟨v, incomer, channels⟩ :=
      accumulate_readings (ch := 0) (d := if 0 < u then 0 else 1) (u := u.natAbs) (start := start) (len := len) (m := m)
    rw [incomer, channels]
    split
    · exact ⟨v, m.ac.exp, rfl, rfl⟩
    · exact ⟨m.ac.imp, v, rfl, rfl⟩

/-! ## Halts (R215) -/

/-- A halt is reached from a section whose gaps and logbook alone have changed. -/
theorem haltMet_ctl (cause : Nat) (m : Metro) : ∃ k, MetKeep m k ∧ (haltMet cause m).ctl =
    { k.ctl with st := .halted, halt := BitVec.ofNat 8 cause, legalSet := false, pfPending := false } :=
  ⟨_, cutGaps_keep.trans logEntry_keep, rfl⟩

/-! ## Commits (R221) -/

/-- A commit that succeeds takes the number of its image and leaves the rest of the control part but the copies and the record that leaves. -/
theorem commitOk_ctl (i : MetImage) (m : Metro) : ∃ a b x, (commitOk i m).ctl =
    { m.ctl with copyA := a, copyB := b, milestone := i.number, commitFails := 0, txMilestone := x } := by
  unfold commitOk
  dsimp only [Metro.onCtl, Metro.onRegs, Metro.onBill]
  split <;> exact ⟨_, _, _, rfl⟩

/-- A redundant row takes the place of the failing one while one is left. -/
theorem commitImage_replaced {i} {m : Metro} (h : 0 < m.ctl.rows) :
    commitImage i false m = commitOk i (m.onCtl fun c => { c with rows := c.rows - 1 }) := if_pos h

/-- Without a redundant row the first failing commit is counted. -/
theorem commitImage_failed {i} {m : Metro} (h : m.ctl.rows = 0) (hf : m.ctl.commitFails = 0) :
    commitImage i false m = m.onCtl fun c => { c with commitFails := c.commitFails + 1 } := by
  simp [commitImage, h, hf]

/-- Without a redundant row the second failing commit halts the section. -/
theorem commitImage_halts {i} {m : Metro} (h : m.ctl.rows = 0) (hf : 1 ≤ m.ctl.commitFails) :
    commitImage i false m = haltMet 3 (m.onCtl fun c => { c with commitFails := c.commitFails + 1 }) := by
  simp [commitImage, h, hf]

/-- A reading of the control part of a milestone is that of its commit, on a section that kept its control part. -/
theorem takeMilestone_reads (nom : Nat × Nat) (pf ok : Bool) (m : Metro) : ∃ k i, MetKeep m k ∧ i.number = k.ctl.milestone + 1 ∧
    ∀ {α : Type} (g : MetCtl → α), (∀ c t f v n, g { c with tPrev := t, ivStart := v, firstTap := f, tapPeriods := n } = g c) →
      g (takeMilestone nom pf ok m).ctl = g (commitImage i ok k).ctl := by
  obtain ⟨tm, h⟩ := takeMilestone_eq nom pf ok m
  refine ⟨beforeCommit nom m, makeImage tm pf (beforeCommit nom m), beforeCommit_keep, rfl, fun g hg => ?_⟩
  rw [h]
  exact hg _ _ _ _ _

theorem takeMilestone_replaced {nom pf} {m : Metro} (h : 0 < m.ctl.rows) :
    let t := takeMilestone nom pf false m
    t.ctl.milestone = m.ctl.milestone + 1 ∧ t.ctl.rows = m.ctl.rows - 1 ∧ t.ctl.st = m.ctl.st := by
  obtain ⟨k, i, kept, number, reads⟩ := takeMilestone_reads nom pf false m
  have left : 0 < k.ctl.rows := (kept.reads (·.rows)).symm ▸ h
  rw [commitImage_replaced left] at reads
  obtain ⟨a, b, x, committed⟩ := commitOk_ctl i (k.onCtl fun c => { c with rows := c.rows - 1 })
  simp only [committed] at reads
  refine ⟨(reads (·.milestone) fun _ _ _ _ _ => rfl).trans (number.trans ?_), (reads (·.rows) fun _ _ _ _ _ => rfl).trans ?_,
    (reads (·.st) fun _ _ _ _ _ => rfl).trans (kept.reads (·.st))⟩
  · rw [kept.reads (·.milestone)]
  · exact kept.reads (·.rows - 1)

theorem takeMilestone_failed {nom pf} {m : Metro} (h : m.ctl.rows = 0) (hf : m.ctl.commitFails = 0) :
    let t := takeMilestone nom pf false m
    t.ctl.milestone = m.ctl.milestone ∧ t.ctl.commitFails = 1 ∧ t.ctl.st = m.ctl.st := by
  obtain ⟨k, i, kept, -, reads⟩ := takeMilestone_reads nom pf false m
  have fails : k.ctl.commitFails = 0 := (kept.reads (·.commitFails)).trans hf
  rw [commitImage_failed ((kept.reads (·.rows)).trans h) fails] at reads
  refine ⟨(reads (·.milestone) fun _ _ _ _ _ => rfl).trans (kept.reads (·.milestone)), ?_,
    (reads (·.st) fun _ _ _ _ _ => rfl).trans (kept.reads (·.st))⟩
  exact (reads (·.commitFails) fun _ _ _ _ _ => rfl).trans (congrArg (· + 1) fails)

theorem takeMilestone_halts {nom pf} {m : Metro} (h : m.ctl.rows = 0) (hf : 1 ≤ m.ctl.commitFails) :
    let t := takeMilestone nom pf false m
    t.ctl.milestone = m.ctl.milestone ∧ t.ctl.st = .halted ∧ t.ctl.halt = 3 := by
  obtain ⟨k, i, kept, -, reads⟩ := takeMilestone_reads nom pf false m
  have fails : 1 ≤ k.ctl.commitFails := (kept.reads (·.commitFails)).symm ▸ hf
  rw [commitImage_halts ((kept.reads (·.rows)).trans h) fails] at reads
  obtain ⟨n, gaps, halted⟩ := haltMet_ctl 3 (k.onCtl fun c => { c with commitFails := c.commitFails + 1 })
  simp only [halted] at reads
  refine ⟨(reads (·.milestone) fun _ _ _ _ _ => rfl).trans ((gaps.reads (·.milestone)).trans (kept.reads (·.milestone))), ?_, ?_⟩
  · exact reads (·.st) fun _ _ _ _ _ => rfl
  · exact reads (·.halt) fun _ _ _ _ _ => rfl

/-! ## Starts (R215, R220, R252) -/

theorem logTamperDue_eq (m : Metro) : ∃ d x p v o, logTamperDue m =
    { m with ctl := { m.ctl with tamperDue := d, txLog := x }, bill := { m.bill with param := p, event := v, overwritten := o } } := by
  unfold logTamperDue
  split
  · split
    · obtain ⟨x, p, v, o, h⟩ := logEntry_eq 0x14 0xFF [BitVec.setWidth 8 _] (m.onCtl fun c => { c with tamperDue := none })
      exact ⟨_, x, p, v, o, h⟩
    · exact ⟨_, _, _, _, _, rfl⟩
  · exact ⟨_, _, _, _, _, rfl⟩

/-- The state a start leads to. -/
def startState (f : MetroStartFacts) : MetroSt := if f.calOk && f.cfgOk then .start else .noCal

/-- The section a start brings up, before the start is logged. -/
def startedMet (f : MetroStartFacts) (m : Metro) : Metro :=
  (resumeWindow (freshMet (closeAfterHalt (loadMet f m)))).onCtl (startCtl (startState f))

/-- A start logs itself and the latches that wait, and changes nothing else of the section it brought up. -/
theorem startMet_eq (f : MetroStartFacts) (m : Metro) : ∃ d x p v o, startMet f m =
    { startedMet f m with
      ctl := { (startedMet f m).ctl with tamperDue := d, txLog := x }
      bill := { (startedMet f m).bill with param := p, event := v, overwritten := o } } := by
  have entered : ∃ code ch data, startMet f m = logTamperDue (logEntry code ch data (startedMet f m)) := ⟨_, _, _, rfl⟩
  obtain ⟨code, ch, data, entered⟩ := entered
  obtain ⟨d, x, p, v, o, due⟩ := logTamperDue_eq (logEntry code ch data (startedMet f m))
  obtain ⟨x', p', v', o', logged⟩ := logEntry_eq code ch data (startedMet f m)
  exact ⟨d, x, p, v, o, by rw [entered, due, logged]⟩

/-- A start leaves the control part of the section it loaded, with the fields every start writes. -/
theorem startMet_ctl (f : MetroStartFacts) (m : Metro) : ∃ k d x, MetKeep (loadMet f m) k ∧
    (startMet f m).ctl = { startCtl (startState f) k.ctl with tamperDue := d, txLog := x } := by
  obtain ⟨d, x, p, v, o, h⟩ := startMet_eq f m
  exact ⟨closeAfterHalt (loadMet f m), d, x, (MetKeep.foldl (fun _ _ => sessionRecord_keep) _ _).trans onRegs_keep, congrArg Metro.ctl h⟩

theorem sessionRecord_regs {e f c} {m : Metro} : (sessionRecord e f m c).bill.regs = m.bill.regs := by
  unfold sessionRecord
  split <;> rfl

/-- The records of sessions that end with a halt leave the registers. -/
theorem closeAfterHalt_groups {m : Metro} : (closeAfterHalt m).bill.regs.groups = m.bill.regs.groups := by
  have recorded : ∀ e, ((openChannels m.bill.regs).foldl (sessionRecord e 1) m).bill.regs = m.bill.regs := fun e =>
    List.foldlRecOn (motive := fun (n : Metro) => n.bill.regs = m.bill.regs) _ _ rfl fun _ kept _ _ => sessionRecord_regs.trans kept
  show ((openChannels m.bill.regs).foldl (sessionRecord _ 1) m).bill.regs.groups = _
  rw [recorded]

/-- A start closes every session and keeps the registers it loaded. -/
theorem startMet_regs (f : MetroStartFacts) (m : Metro) :
    (startMet f m).bill.regs.sessions = List.replicate 32 none ∧ (startMet f m).bill.regs.groups = (loadMet f m).bill.regs.groups := by
  obtain ⟨d, x, p, v, o, h⟩ := startMet_eq f m
  rw [h]
  exact ⟨rfl, closeAfterHalt_groups⟩

/-- A start opens no seal and takes no image. -/
theorem loadMet_seal {f} {m : Metro} : (loadMet f m).ctl.sealOpen = m.ctl.sealOpen ∧ (loadMet f m).ctl.heldImg = m.ctl.heldImg ∧
    (loadMet f m).ctl.imageCrc = m.ctl.imageCrc := by
  unfold loadMet
  split <;> exact ⟨rfl, rfl, rfl⟩

theorem loadMet_image {f i} {m : Metro} (h : loadedImage f m.ctl = some i) : loadMet f m = restoreImage i m := by
  unfold loadMet
  rw [h]

end Sys2Proof.Machine
end

section
/-! PROOF. Halts, starts and milestones of the metrology section (R215-R217, R220, R221). -/

namespace Sys2Proof.Machine
set_option Elab.async false

/-! ## Its own supply and its crystal (R216, R217) -/

/-- A milestone taken before a halt: the section then reads as the halt leaves it. -/
theorem haltMet_milestone {nom pf} {k : Metro} (cause : Nat) :
    let t := haltMet cause (takeMilestone nom pf true k)
    t.ctl.st = .halted ∧ t.ctl.halt = BitVec.ofNat 8 cause ∧ t.ctl.legalSet = false ∧ t.ctl.vmetLow = k.ctl.vmetLow ∧
    t.ctl.clockLost = k.ctl.clockLost ∧ t.ctl.milestone = k.ctl.milestone + 1 := by
  obtain ⟨n, kept, halted⟩ := haltMet_ctl cause (takeMilestone nom pf true k)
  obtain ⟨number, -, -, -, -, -, -, low, lost, -⟩ := takeMilestone_ok (nom := nom) (pf := pf) (m := k)
  dsimp only
  rw [halted]
  exact ⟨rfl, rfl, rfl, (kept.reads (·.vmetLow)).trans low, (kept.reads (·.clockLost)).trans lost, (kept.reads (·.milestone)).trans number⟩

/-- The section with its supply marked low. -/
def markSupplyLow (m : Metro) : Metro := m.onCtl fun c => { c with vmetLow := true }

/-- The section with its crystal marked lost. -/
def markClockLost (m : Metro) : Metro := m.onCtl fun c => { c with clockLost := true }

theorem vmetWarning_halted {nom} {m : Metro} (h : metRuns m = false) : vmetWarning nom m =
    if m.ctl.halt = 2 ∨ m.ctl.halt = 3 then logEntry 2 0xFF [1] ((markSupplyLow m).onCtl fun c => { c with halt := 1 })
    else markSupplyLow m := by
  have stopped : (!metRuns (markSupplyLow m)) = true := by rw [show metRuns (markSupplyLow m) = false from h]; rfl
  exact if_pos stopped

theorem vmetWarning_eq_haltMet {nom} {m : Metro} (h : metRuns m = true) : vmetWarning nom m =
    haltMet 1 (if !m.ctl.pfPending && !m.ctl.pfDone then takeMilestone nom true true (cutGaps (markSupplyLow m)) else markSupplyLow m) := by
  have running : ¬ (!metRuns (markSupplyLow m)) = true := by rw [show metRuns (markSupplyLow m) = true from h]; decide
  exact if_neg running

/-- A supply warning halts a running section, with a milestone of its own unless one is under way or done. -/
theorem vmetWarning_running {nom} {m : Metro} (h : metRuns m = true) :
    let t := vmetWarning nom m
    t.ctl.st = .halted ∧ t.ctl.halt = 1 ∧ t.ctl.vmetLow = true ∧ t.ctl.legalSet = false ∧
    t.ctl.milestone = if !m.ctl.pfPending && !m.ctl.pfDone then m.ctl.milestone + 1 else m.ctl.milestone := by
  dsimp only
  rw [vmetWarning_eq_haltMet h]
  split
  · obtain ⟨st, halt, unset, low, -, number⟩ := haltMet_milestone (nom := nom) (pf := true) (k := cutGaps (markSupplyLow m)) 1
    exact ⟨st, halt, low.trans (cutGaps_keep.reads (·.vmetLow)), unset, number.trans (cutGaps_keep.reads (·.milestone + 1))⟩
  · obtain ⟨n, kept, halted⟩ := haltMet_ctl 1 (markSupplyLow m)
    rw [halted]
    exact ⟨rfl, rfl, kept.reads (·.vmetLow), rfl, kept.reads (·.milestone)⟩

theorem crystalLost_halted {nom} {m : Metro} (h : metRuns m = false) : crystalLost nom m = markClockLost m :=
  if_neg (c := metRuns (markClockLost m) = true) (Bool.eq_false_iff.1 h)

/-- A lost crystal halts a running section after a milestone. -/
theorem crystalLost_running {nom} {m : Metro} (h : metRuns m = true) :
    let t := crystalLost nom m
    t.ctl.st = .halted ∧ t.ctl.halt = 2 ∧ t.ctl.clockLost = true ∧ t.ctl.milestone = m.ctl.milestone + 1 := by
  have halts : crystalLost nom m = haltMet 2 (takeMilestone nom false true (cutGaps (markClockLost m))) :=
    if_pos (c := metRuns (markClockLost m) = true) h
  obtain ⟨st, halt, -, -, lost, number⟩ := haltMet_milestone (nom := nom) (pf := false) (k := cutGaps (markClockLost m)) 2
  dsimp only
  rw [halts]
  exact ⟨st, halt, lost.trans (cutGaps_keep.reads (·.clockLost)), number.trans (cutGaps_keep.reads (·.milestone + 1))⟩

/-! ## Starts -/

/-- What every start leaves of the section. -/
theorem startMet_started (f : MetroStartFacts) (m : Metro) :
    (startMet f m).ctl.st = startState f ∧ (startMet f m).ctl.halt = 0 ∧ (startMet f m).ctl.legalSet = false := by
  obtain ⟨k, d, x, -, started⟩ := startMet_ctl f m
  rw [started]
  exact ⟨rfl, rfl, rfl⟩

/-- A start from a valid copy has its number and its registers. -/
theorem startMet_image {f : MetroStartFacts} {m : Metro} {i : MetImage} (h : loadedImage f m.ctl = some i) :
    (startMet f m).ctl.milestone = i.number ∧ (startMet f m).ctl.loaded = some i ∧ (startMet f m).bill.regs.groups = i.regs.groups := by
  obtain ⟨k, d, x, kept, started⟩ := startMet_ctl f m
  obtain ⟨-, groups⟩ := startMet_regs f m
  rw [groups, started]
  rw [loadMet_image h] at kept ⊢
  exact ⟨kept.reads (·.milestone), kept.reads (·.loaded), rfl⟩

theorem metrologyStart_waits {s f} (h : s.met.ctl.st ≠ .halted ∨ s.met.ctl.halt = 2) : Completes (.metrologyStart f) s fun t => t = s :=
  .of rfl (if_neg fun ⟨halted, cause⟩ => h.elim (· halted) cause)

theorem metrologyCrystalReturn_waits {s} (h : s.met.ctl.st ≠ .halted ∨ s.met.ctl.halt ≠ 2) :
    Completes .metrologyCrystalReturn s fun t => t = s :=
  .of rfl (if_neg fun ⟨halted, cause⟩ => h.elim (· halted) (· cause))

theorem metrologyStart_starts {s f} {P : State → Prop} (h : s.met.ctl.st = .halted) (hc : s.met.ctl.halt ≠ 2)
    (hp : P (modMet (startMet f) s)) : Completes (.metrologyStart f) s P :=
  .of (congrArg Host.Outcome.next (if_pos ⟨h, hc⟩)) hp

theorem metrologyStart_started {s f} (h : s.met.ctl.st = .halted) (hc : s.met.ctl.halt ≠ 2) :
    Completes (.metrologyStart f) s fun t =>
      t.met.ctl.st = (if f.calOk && f.cfgOk then .start else .noCal) ∧ t.met.ctl.halt = 0 ∧ t.met.ctl.legalSet = false ∧
      t.met.bill.regs.sessions = List.replicate 32 none := by
  obtain ⟨st, halt, unset⟩ := startMet_started f s.met
  obtain ⟨closed, -⟩ := startMet_regs f s.met
  exact metrologyStart_starts h hc ⟨st, halt, unset, closed⟩

theorem metrologyCrystalReturn_started {s} (h : s.met.ctl.st = .halted) (hc : s.met.ctl.halt = 2) :
    Completes .metrologyCrystalReturn s fun t =>
      t.met.ctl.st = (if s.met.ctl.calBad then .noCal else .start) ∧ t.met.ctl.halt = 0 ∧ t.met.ctl.legalSet = false := by
  obtain ⟨st, halt, unset⟩ := startMet_started { copyAOk := true, copyBOk := true, calOk := !s.met.ctl.calBad, cfgOk := true } s.met
  refine .of (congrArg Host.Outcome.next (if_pos ⟨h, hc⟩)) ⟨st.trans ?_, halt, unset⟩
  cases s.met.ctl.calBad <;> rfl

/-! ## Milestones (R221) -/

theorem powerFailMet_idle {nom} {m : Metro} (h : m.ctl.pfPending = false ∨ metRuns m = false) : powerFailMet nom m = m :=
  if_pos (by rcases h with h | h <;> simp [h])

/-- The instant the milestone of a warning is taken at: the second that is near, or at once. -/
def warningInstant (m : Metro) : Metro := if toMilestone m.ctl ≤ 36864 then m.onCtl (runCycles (toMilestone m.ctl)) else m

theorem warningInstant_reads {m : Metro} : (warningInstant m).ctl.milestone = m.ctl.milestone ∧ (warningInstant m).ctl.st = m.ctl.st := by
  unfold warningInstant
  split <;> exact ⟨rfl, rfl⟩

theorem powerFailMet_eq {nom} {m : Metro} (h : m.ctl.pfPending = true) (hr : metRuns m = true) : powerFailMet nom m =
    (takeMilestone nom true true (cutGaps (warningInstant m))).onCtl fun c => { c with pfPending := false, pfDone := true } := by
  have taken : ¬ (!m.ctl.pfPending || !metRuns m) = true := by rw [h, hr]; decide
  unfold powerFailMet warningInstant
  rw [if_neg taken]
  simp only [decide_eq_true_eq]
  rfl

/-- A running section takes the milestone a warning waits for. -/
theorem powerFailMet_takes {nom} {m : Metro} (h : m.ctl.pfPending = true) (hr : metRuns m = true) :
    let t := powerFailMet nom m
    t.ctl.pfPending = false ∧ t.ctl.pfDone = true ∧ t.ctl.milestone = m.ctl.milestone + 1 ∧ t.ctl.st = m.ctl.st := by
  obtain ⟨number, st⟩ := warningInstant_reads (m := m)
  obtain ⟨next, -, kept, -⟩ := takeMilestone_ok (nom := nom) (pf := true) (m := cutGaps (warningInstant m))
  dsimp only
  rw [powerFailMet_eq h hr, Metro.onCtl_ctl]
  dsimp only
  refine ⟨rfl, rfl, ?_, ?_⟩
  · exact next.trans (congrArg (· + 1) ((cutGaps_keep.reads (·.milestone)).trans number))
  · exact kept.trans ((cutGaps_keep.reads (·.st)).trans st)

theorem milestoneMet_halted {nom ok} {m : Metro} (h : metRuns m = false) : milestoneMet nom ok m = m := if_pos (by simp [h])

/-- A milestone of a running section: it is taken at the second, and a power-fail warning it serves changes the warning's marks alone. -/
theorem milestoneMet_running (nom : Nat × Nat) (ok : Bool) {m : Metro} (h : metRuns m = true) : ∃ k pf p d,
    MetKeep (m.onCtl (runCycles (toMilestone m.ctl))) k ∧
    (milestoneMet nom ok m).ctl = { (takeMilestone nom pf ok k).ctl with pfPending := p, pfDone := d } := by
  unfold milestoneMet
  simp only [h, Bool.not_true, Bool.false_eq_true, if_false]
  cases m.ctl.pfPending with
  | true => exact ⟨_, true, _, _, cutGaps_keep, rfl⟩
  | false => exact ⟨_, false, _, _, .refl, rfl⟩

theorem milestone_met {s ok} : Completes (.milestone ok) s fun t => t.met = milestoneMet (nominalPeriod s) ok s.met :=
  .of rfl recheckSpares_met

theorem milestone_committed {s} (h : metRuns s.met = true) : Completes (.milestone true) s fun t =>
    t.met.ctl.milestone = s.met.ctl.milestone + 1 ∧ t.met.ctl.commitFails = 0 ∧ t.met.ctl.st = s.met.ctl.st ∧
    t.met.ctl.rows = s.met.ctl.rows ∧
    t.met.ctl.cycles = s.met.ctl.cycles + toMilestone s.met.ctl ∧ t.met.ctl.legal = s.met.ctl.legal + toMilestone s.met.ctl := by
  obtain ⟨k, pf, p, d, kept, taken⟩ := milestoneMet_running (nominalPeriod s) true h
  obtain ⟨number, fails, st, -, cycles, legal, -, -, -, rows, -⟩ := takeMilestone_ok (nom := nominalPeriod s) (pf := pf) (m := k)
  refine milestone_met.imp fun t ht => ?_
  rw [ht, taken]
  dsimp only
  exact ⟨number.trans (kept.reads (·.milestone + 1)), fails, st.trans (kept.reads (·.st)), rows.trans (kept.reads (·.rows)),
    cycles.trans (kept.reads (·.cycles)), legal.trans (kept.reads (·.legal))⟩

theorem milestone_rowReplaced {s} (h : metRuns s.met = true) (hr : 0 < s.met.ctl.rows) : Completes (.milestone false) s fun t =>
    t.met.ctl.milestone = s.met.ctl.milestone + 1 ∧ t.met.ctl.rows = s.met.ctl.rows - 1 ∧ t.met.ctl.st = s.met.ctl.st := by
  obtain ⟨k, pf, p, d, kept, taken⟩ := milestoneMet_running (nominalPeriod s) false h
  obtain ⟨number, rows, st⟩ := takeMilestone_replaced (nom := nominalPeriod s) (pf := pf) ((kept.reads (·.rows)).symm ▸ hr)
  refine milestone_met.imp fun t ht => ?_
  rw [ht, taken]
  dsimp only
  exact ⟨number.trans (kept.reads (·.milestone + 1)), rows.trans (kept.reads (·.rows - 1)),
    st.trans (kept.reads (·.st))⟩

theorem milestone_failed {s} (h : metRuns s.met = true) (hr : s.met.ctl.rows = 0) (hf : s.met.ctl.commitFails = 0) :
    Completes (.milestone false) s fun t =>
      t.met.ctl.milestone = s.met.ctl.milestone ∧ t.met.ctl.commitFails = 1 ∧ t.met.ctl.st = s.met.ctl.st := by
  obtain ⟨k, pf, p, d, kept, taken⟩ := milestoneMet_running (nominalPeriod s) false h
  obtain ⟨number, fails, st⟩ := takeMilestone_failed (nom := nominalPeriod s) (pf := pf) ((kept.reads (·.rows)).trans hr)
    ((kept.reads (·.commitFails)).trans hf)
  refine milestone_met.imp fun t ht => ?_
  rw [ht, taken]
  dsimp only
  exact ⟨number.trans (kept.reads (·.milestone)), fails, st.trans (kept.reads (·.st))⟩

theorem milestone_halts {s} (h : metRuns s.met = true) (hr : s.met.ctl.rows = 0) (hf : 1 ≤ s.met.ctl.commitFails) :
    Completes (.milestone false) s fun t =>
      t.met.ctl.milestone = s.met.ctl.milestone ∧ t.met.ctl.st = .halted ∧ t.met.ctl.halt = 3 := by
  obtain ⟨k, pf, p, d, kept, taken⟩ := milestoneMet_running (nominalPeriod s) false h
  obtain ⟨number, st, halt⟩ := takeMilestone_halts (nom := nominalPeriod s) (pf := pf) ((kept.reads (·.rows)).trans hr)
    ((kept.reads (·.commitFails)).symm ▸ hf)
  refine milestone_met.imp fun t ht => ?_
  rw [ht, taken]
  dsimp only
  exact ⟨number.trans (kept.reads (·.milestone)), st, halt⟩

/-! ## A halted section -/

theorem metrologyVmetWarning_sameCause {s} (h : metRuns s.met = false) (hc : s.met.ctl.halt ≠ 2) (hr : s.met.ctl.halt ≠ 3) :
    Completes .metrologyVmetWarning s fun t => t.met = { s.met with ctl := { s.met.ctl with vmetLow := true } } :=
  .of rfl ((vmetWarning_halted h).trans (if_neg (not_or.2 ⟨hc, hr⟩)))

theorem metrologyVmetWarning_takesCause {s} (h : metRuns s.met = false) (hc : s.met.ctl.halt = 2 ∨ s.met.ctl.halt = 3) :
    Completes .metrologyVmetWarning s fun t => t.met.ctl.halt = 1 ∧ t.met.ctl.vmetLow = true ∧ t.met.ctl.st = s.met.ctl.st := by
  have logged := (vmetWarning_halted (nom := nominalPeriod s) h).trans (if_pos hc)
  refine .of rfl ?_
  rw [modMet_met, logged]
  exact ⟨logEntry_reads (·.ctl.halt), logEntry_reads (·.ctl.vmetLow), logEntry_reads (·.ctl.st)⟩

/-- Settles O38, clause by clause: a halted section, the supply, the crystal, starts, the power-fail milestone and milestones. -/
theorem metrologyHaltsAndMilestones : Obligations.MetrologyHaltsAndMilestones :=
  ⟨fun _ stopped => ⟨metrologyVmetWarning_sameCause stopped, metrologyVmetWarning_takesCause stopped, .of rfl (crystalLost_halted stopped),
      fun _ => milestone_met.imp fun _ ht => ht.trans (milestoneMet_halted stopped)⟩,
    fun _ running => .of rfl (vmetWarning_running running),
    fun _ running => .of rfl (crystalLost_running running),
    fun _ _ working => ⟨metrologyStart_waits (.inl working), metrologyCrystalReturn_waits (.inl working)⟩,
    fun _ _ _ crystal => metrologyStart_waits (.inr crystal),
    fun _ _ stopped other => ⟨metrologyCrystalReturn_waits (.inr other), metrologyStart_started stopped other,
      fun _ image => metrologyStart_starts stopped other (startMet_image image)⟩,
    fun _ => metrologyCrystalReturn_started,
    fun _ idle => .of rfl (powerFailMet_idle idle),
    fun _ pending running => .of rfl (powerFailMet_takes pending running),
    fun _ => milestone_committed,
    fun _ running => ⟨milestone_rowReplaced running, milestone_failed running, milestone_halts running⟩⟩

end Sys2Proof.Machine
end

section
/-! PROOF. Measurement: energy samples of the incomer, voltage events, grid status, tap records, pulses, reconciliation and SEAL (R223-R232,
R236-R238). -/

namespace Sys2Proof.Machine
set_option Elab.async false

/-! ## Energy samples of the incomer (R223-R225, R231, R232) -/

/-- The section with the readings of a sample. -/
def withReadings (x : AcSample) (m : Metro) : Metro :=
  { m with ac := { m.ac with volts := x.volts, amps := x.amps, vars := x.vars, va := x.va } }

/-- The section with the energy of a sample in its milestone interval. -/
def withInterval (x : AcSample) (m : Metro) : Metro :=
  { m with ac := { m.ac with ivImp := m.ac.ivImp + max 0 x.energy, ivExp := m.ac.ivExp + max 0 (-x.energy) } }

theorem acSample_halted {x} {m : Metro} (h : metRuns m = false) : acSample x m = m := if_pos (by rw [h]; rfl)

/-- A running section reports a sample; it credits it where its registers advance and a phase carries current. -/
theorem acSample_running {x} {m : Metro} (h : metRuns m = true) : acSample x m =
    if !(advances m) || (x.usedCurrents.all fun i => decide (i * 1000 < m.ac.rated.toNat)) then withReadings x m
    else creditSample 0 x.energy (m.ctl.cycles - x.cycles) x.cycles (withInterval x (withReadings x m)) :=
  if_neg (by rw [h]; decide)

theorem acSample_uncredited {x} {m : Metro} (h : metRuns m = true)
    (hs : (x.usedCurrents.all fun i => decide (i * 1000 < m.ac.rated.toNat)) = true ∨ advances m = false) :
    acSample x m = withReadings x m := by
  rw [acSample_running h]
  exact if_pos (by rcases hs with hs | hs <;> simp only [hs, Bool.or_true, Bool.not_false, Bool.true_or])

theorem acSample_credited {x} {m : Metro} (h : advances m = true)
    (hs : (x.usedCurrents.all fun i => decide (i * 1000 < m.ac.rated.toNat)) = false) :
    acSample x m = creditSample 0 x.energy (m.ctl.cycles - x.cycles) x.cycles (withInterval x (withReadings x m)) := by
  rw [acSample_running (metRuns_of_advances h)]
  exact if_neg (by rw [hs, h]; decide)

theorem acSample_readings {x} {m : Metro} (h : metRuns m = true) :
    (acSample x m).ac.volts = x.volts ∧ (acSample x m).ac.amps = x.amps ∧ (acSample x m).ac.vars = x.vars ∧ (acSample x m).ac.va = x.va ∧
    (acSample x m).dc = m.dc := by
  rw [acSample_running h]
  split
  · exact ⟨rfl, rfl, rfl, rfl, rfl⟩
  · obtain ⟨i, e, incomer, channels⟩ := creditSample_hub_readings (u := x.energy) (start := m.ctl.cycles - x.cycles) (len := x.cycles)
      (m := withInterval x (withReadings x m))
    rw [incomer, channels]
    exact ⟨rfl, rfl, rfl, rfl, rfl⟩

theorem acSample_small {x} {m : Metro}
    (h : (x.usedCurrents.all fun i => decide (i * 1000 < m.ac.rated.toNat)) = true ∨ advances m = false) :
    (acSample x m).bill = m.bill ∧ (acSample x m).ac.imp = m.ac.imp ∧ (acSample x m).ac.exp = m.ac.exp := by
  cases runs : metRuns m with
  | false => rw [acSample_halted runs]; exact ⟨rfl, rfl, rfl⟩
  | true => rw [acSample_uncredited runs h]; exact ⟨rfl, rfl, rfl⟩

/-- Energy taken from the grid fills its residue and credits the hub with the whole mWh. -/
theorem acSample_taken {x} {m : Metro} (h : advances m = true)
    (hs : (x.usedCurrents.all fun i => decide (i * 1000 < m.ac.rated.toNat)) = false) (he : 0 < x.energy) (hw : 2 ^ 32 ≤ m.ac.imp + x.energy) :
    (acSample x m).ac.imp = (m.ac.imp + x.energy) % 2 ^ 32 ∧ (acSample x m).ac.exp = m.ac.exp ∧
    (acSample x m).bill.regs.groups = (creditGroup 0 0 ((m.ac.imp + x.energy) / 2 ^ 32).toNat m.bill.regs).groups := by
  have size : (x.energy.natAbs : Int) = x.energy := Int.natAbs_of_nonneg he.le
  have credited : creditSample 0 x.energy (m.ctl.cycles - x.cycles) x.cycles (withInterval x (withReadings x m)) =
      accumulate 0 0 x.energy (m.ctl.cycles - x.cycles) x.cycles (withInterval x (withReadings x m)) := by
    rw [creditSample, if_neg he.ne', if_pos he, size]
  obtain ⟨incomer, groups⟩ := accumulate_hub (d := 0) (u := x.energy) (start := m.ctl.cycles - x.cycles) (len := x.cycles)
    (m := withInterval x (withReadings x m)) hw
  rw [acSample_credited h hs, credited, incomer]
  exact ⟨rfl, rfl, groups⟩

/-- Energy fed to the grid fills its residue and credits the hub with the whole mWh. -/
theorem acSample_fed {x} {m : Metro} (h : advances m = true)
    (hs : (x.usedCurrents.all fun i => decide (i * 1000 < m.ac.rated.toNat)) = false) (he : x.energy < 0) (hw : 2 ^ 32 ≤ m.ac.exp - x.energy) :
    (acSample x m).ac.exp = (m.ac.exp - x.energy) % 2 ^ 32 ∧ (acSample x m).ac.imp = m.ac.imp ∧
    (acSample x m).bill.regs.groups = (creditGroup 0 1 ((m.ac.exp - x.energy) / 2 ^ 32).toNat m.bill.regs).groups := by
  have size : (x.energy.natAbs : Int) = -x.energy := Int.ofNat_natAbs_of_nonpos he.le
  have credited : creditSample 0 x.energy (m.ctl.cycles - x.cycles) x.cycles (withInterval x (withReadings x m)) =
      accumulate 0 1 (-x.energy) (m.ctl.cycles - x.cycles) x.cycles (withInterval x (withReadings x m)) := by
    rw [creditSample, if_neg he.ne, if_neg he.not_gt, size]
  obtain ⟨incomer, groups⟩ := accumulate_hub (d := 1) (u := -x.energy) (start := m.ctl.cycles - x.cycles) (len := x.cycles)
    (m := withInterval x (withReadings x m)) hw
  rw [acSample_credited h hs, credited, incomer]
  exact ⟨rfl, rfl, groups⟩

/-! ## Voltage events (R226, R237) -/

theorem voltStart_begins {k p} {m : Metro} (hr : metRuns m = true) (hd : detects m k = true) (hi : inEvent m k = false) :
    voltStart k p m = { m with ac := { m.ac with inProgress := m.ac.inProgress ++ [(k, m.ctl.legal, m.ctl.legalSet, p)] } } :=
  if_pos (by rw [hr, hd, show (m.ac.inProgress.any fun e => e.1 == k) = false from hi]; rfl)

theorem voltStart_ignored {k p} {m : Metro} (h : metRuns m = false ∨ detects m k = false ∨ inEvent m k = true) : voltStart k p m = m := by
  refine if_neg ?_
  show ¬ (metRuns m && detects m k && !inEvent m k) = true
  rcases h with h | h | h <;> simp [h]

theorem voltEnd_absent {k a v} {m : Metro} (h : inEvent m k = false) : voltEnd k a v m = m := by
  have absent : m.ac.inProgress.find? (fun e => e.1 == k) = none := List.find?_eq_none.2 fun e he found => by
    simpa [found] using List.any_eq_false.1 h e he
  unfold voltEnd
  rw [absent]

/-- An event that ends leaves the events in progress, is counted and is logged. -/
theorem voltEnd_ends {k a v} {m : Metro} (hr : metRuns m = true) (hi : inEvent m k = true) :
    inEvent (voltEnd k a v m) k = false ∧ (voltEnd k a v m).ac.pqCounts = upd m.ac.pqCounts (voltNum k) (· + 1) ∧
    (voltEnd k a v m).bill.event.next = m.bill.event.next + 1 := by
  have found : (m.ac.inProgress.find? fun e => e.1 == k).isSome = true := List.find?_isSome.2 (List.any_eq_true.1 hi)
  obtain ⟨e, found⟩ := Option.isSome_iff_exists.1 found
  unfold voltEnd
  simp only [found, hr, Bool.not_true, Bool.false_eq_true, if_false]
  refine ⟨(logAdd_reads (inEvent · k)).trans ?_, logAdd_reads (·.ac.pqCounts),
    logAdd_event_next (show paramCode (BitVec.ofNat 16 0xC).toNat = false by decide)⟩
  exact List.any_eq_false.2 fun e he => by simpa using (List.mem_filter.1 he).2

/-! ## Grid status (R226, R242) -/

theorem gridSend_record {free p f} {m : Metro} :
    (gridSend free p f m).ac.gridSeq = m.ac.gridSeq + 1 ∧ (gridSend free p f m).bill = m.bill ∧
    ∃ g, (gridSend free p f m).ac.grid = some g ∧ g.seq = m.ac.gridSeq + 1 ∧ g.freq = f ∧
      g.pImp = BitVec.ofInt 32 (max p 0) ∧ g.pExp = BitVec.ofInt 32 (max (-p) 0) :=
  ⟨rfl, rfl, _, rfl, rfl, rfl, rfl, rfl⟩

/-! ## Tap records (R228) -/

theorem takeTap_bad {nom r} {m : Metro} (h : tapGood r = false) :
    takeTap nom r m = { m with ctl := { m.ctl with crcErrors := m.ctl.crcErrors + 1 } } := if_pos (by rw [h]; rfl)

theorem takeTap_idle {nom r} {m : Metro} (h : tapGood r = true) (ha : advances m = false) : takeTap nom r m = m := by
  unfold takeTap
  rw [if_neg (by rw [h]; decide), if_pos (by rw [ha]; rfl)]

/-- A record of the running period opens no other one. -/
theorem openPeriod_running {nom r} {m : Metro} (hp : m.ctl.curPeriod = some r.period)
    (hn : ∀ t0, m.ctl.lastTap = some t0 → (r.stamp - t0) * nom.2 < 32 * nom.1) : openPeriod nom r m = m := by
  refine if_pos ⟨hp, ?_⟩
  cases last : m.ctl.lastTap with
  | none => rfl
  | some t0 => exact decide_eq_true (hn t0 last)

/-- The section with the period of a record in its window. -/
def withTapPeriod (r : TapRecord) (m : Metro) : Metro :=
  { m with ac := { m.ac with winPeriod := m.ac.winPeriod.orElse fun _ => some r.period } }

/-- A record of the running period is judged on its channel. -/
theorem takeTap_running {nom r c} {m : Metro} (h : tapGood r = true) (ha : advances m = true) (hp : m.ctl.curPeriod = some r.period)
    (hn : ∀ t0, m.ctl.lastTap = some t0 → (r.stamp - t0) * nom.2 < 32 * nom.1) (hc : channelOf m r.serial = some c) :
    takeTap nom r m = judgeRecord r c (withTapPeriod r m) := by
  unfold takeTap
  rw [if_neg (by rw [h]; decide), if_neg (by rw [ha]; decide)]
  simp only [openPeriod_running hp hn]
  split
  case h_1 ch found =>
    cases found.symm.trans hc
    rfl
  case h_2 absent => cases absent.symm.trans hc

/-- A record that is not good for use rejects the channel's sample of the period. -/
theorem judgeRecord_rejects {r c} {m : Metro} (hc : c < m.dc.length) (hs : r.status ≠ 0) (hn : (nth m.dc c).seenNow = false) :
    nth (judgeRecord r (c + 1) m).dc c =
      { nth m.dc c with rejected := (nth m.dc c).rejected + 1, seenNow := true, held := none } := by
  unfold judgeRecord
  simp only [Nat.add_sub_cancel, hn, Bool.false_eq_true, if_false, if_pos hs]
  exact nth_upd_self _ _ _ hc

/-- A channel that holds a record. -/
def DcChan.holding (r : TapRecord) (d : DcChan) : DcChan :=
  { d with seenNow := true, held := some (r.voltage.toInt, r.current.toInt, r.seq, BitVec.ofNat 8 r.link.toNat) }

/-- The first record of a channel is held until its period is complete. -/
theorem judgeRecord_holds {r c} {m : Metro} (hc : c < m.dc.length) (hs : r.status = 0) (hn : (nth m.dc c).seenNow = false)
    (hl : (nth m.dc c).lastSeq = none) : nth (judgeRecord r (c + 1) m).dc c = (nth m.dc c).holding r := by
  have held : judgeRecord r (c + 1) m = m.onDc c (DcChan.holding r) := by
    unfold judgeRecord
    simp only [Nat.add_sub_cancel, hn, hl, Bool.false_eq_true, if_false, if_neg (not_not.2 hs)]
    rfl
  rw [held]
  exact nth_upd_self _ _ _ hc

/-- A record of the running period, for a channel whose sample of the period has not been seen. -/
theorem tapRecordReceived_judged {s r} {c : Fin 32} (hd : s.met.dc.length = 32) (hg : tapGood r = true) (ha : advances s.met = true)
    (hp : s.met.ctl.curPeriod = some r.period)
    (hn : ∀ t0, s.met.ctl.lastTap = some t0 → (r.stamp - t0) * (nominalPeriod s).2 < 32 * (nominalPeriod s).1)
    (hc : channelOf s.met r.serial = some (c.val + 1)) :
    (r.status ≠ 0 → (nth s.met.dc c).seenNow = false → Completes (.tapRecordReceived r) s fun t =>
      nth t.met.dc c = { nth s.met.dc c with rejected := (nth s.met.dc c).rejected + 1, seenNow := true, held := none }) ∧
    (r.status = 0 → (nth s.met.dc c).seenNow = false → (nth s.met.dc c).lastSeq = none → Completes (.tapRecordReceived r) s fun t =>
      nth t.met.dc c = { nth s.met.dc c with seenNow := true, held := some (r.voltage.toInt, r.current.toInt, r.seq, BitVec.ofNat 8 r.link.toNat) }) := by
  have taken := takeTap_running (nom := nominalPeriod s) hg ha hp hn hc
  have bound : c.val < (withTapPeriod r s.met).dc.length := by rw [show (withTapPeriod r s.met).dc = s.met.dc from rfl, hd]; exact c.2
  refine ⟨fun bad unseen => .of rfl ?_, fun good unseen first => .of rfl ?_⟩
  · exact (congrArg (fun n : Metro => nth n.dc c) taken).trans (judgeRecord_rejects bound bad unseen)
  · exact (congrArg (fun n : Metro => nth n.dc c) taken).trans (judgeRecord_holds bound good unseen first)

/-! ## Pulses and reconciliation (R236, R237) -/

theorem reconcile_idle {i} {m : Metro} (h : metRuns m = false ∨ (nth m.pin i).use = 0) : reconcile i m = m := by
  refine if_pos ?_
  rcases h with h | h <;> simp [h]

/-- An input that counts energy taken from the grid is compared with the hub's register of it, and the comparison is logged. -/
theorem reconcile_compares {i} {m : Metro} (hi : i < m.pin.length) (hr : metRuns m = true) (hu : (nth m.pin i).use = 1) :
    (nth (reconcile i m).pin i).diff = (regOf m.bill.regs 0 0 : Int) - ((nth m.pin i).pulses.toNat * (nth m.pin i).weight.toNat : Nat) ∧
    (reconcile i m).bill.event.next = m.bill.event.next + 1 := by
  have compared : ¬ (!metRuns m || (nth m.pin i).use == 0) = true := by rw [hr, hu]; decide
  unfold reconcile
  simp only [if_neg compared, if_pos hu]
  refine ⟨(logEntry_reads (fun n => (nth n.pin i).diff)).trans ?_, (logEntry_event_next (by decide)).trans ?_⟩
  · split <;> exact congrArg PulseIn.diff (nth_upd_self _ _ _ hi)
  · split <;> rfl

theorem pulseOutputEdge_rises {s e b es} {o : Fin 4} (hl : s.met.pout.length = 4) (hr : metRuns s.met = true)
    (he : (nth s.met.pout o).edges = (e, b) :: es) : Completes (.pulseOutputEdge o) s fun t =>
      (nth t.met.pout o).edges = es ∧ (nth t.met.pout o).pulses = (nth s.met.pout o).pulses + 1 ∧ (nth t.met.pout o).high = true := by
  have risen : nth (upd s.met.pout o PulseOut.rise) o = (nth s.met.pout o).rise := nth_upd_self _ _ _ (by rw [hl]; exact o.2)
  refine .of (congrArg Host.Outcome.next (if_pos hr)) ?_
  rw [modMet_met, risen, PulseOut.rise, he]
  exact ⟨rfl, rfl, rfl⟩

theorem pulseInputs_run {s} {i : Fin 4} (hl : s.met.pin.length = 4) (hr : metRuns s.met = true) :
    Completes (.pulseInputCount i) s (fun t => (nth t.met.pin i).pulses = (nth s.met.pin i).pulses + 1) ∧
    ((nth s.met.pin i).use = 0 → Completes (.reconciliation i) s fun t => t = s) ∧
    ((nth s.met.pin i).use = 1 → Completes (.reconciliation i) s fun t =>
      (nth t.met.pin i).diff = (regOf s.met.bill.regs 0 0 : Int) - ((nth s.met.pin i).pulses.toNat * (nth s.met.pin i).weight.toNat : Nat) ∧
      t.met.bill.event.next = s.met.bill.event.next + 1) := by
  have bound : i.val < s.met.pin.length := by rw [hl]; exact i.2
  refine ⟨.of (congrArg Host.Outcome.next (if_pos hr)) ?_, fun unused => .of rfl (modMet_of_eq (reconcile_idle (.inr unused))),
    fun assigned => .of rfl (reconcile_compares bound hr assigned)⟩
  exact congrArg PulseIn.pulses (nth_upd_self _ _ _ bound)

theorem pulses_halted {s} {o i : Fin 4} (h : metRuns s.met = false) :
    Completes (.pulseOutputEdge o) s (fun t => t = s) ∧ Completes (.pulseInputCount i) s (fun t => t = s) ∧
    Completes (.reconciliation i) s fun t => t = s :=
  ⟨.of rfl (if_neg (Bool.eq_false_iff.1 h)), .of rfl (if_neg (Bool.eq_false_iff.1 h)), .of rfl (modMet_of_eq (reconcile_idle (.inl h)))⟩

/-! ## SEAL (R238, R408) -/

theorem openSeal_opens {m : Metro} (h : m.ctl.sealOpen = false) :
    (openSeal m).ctl.sealOpen = true ∧ (openSeal m).ctl.sealOpenings = m.ctl.sealOpenings + 1 ∧ (openSeal m).ctl.sealedWrites = 0 := by
  unfold openSeal
  rw [if_neg (Bool.eq_false_iff.1 h)]
  exact ⟨logEntry_reads (·.ctl.sealOpen), logEntry_reads (·.ctl.sealOpenings), logEntry_reads (·.ctl.sealedWrites)⟩

/-- A closing ends a partial transfer; an advancing section with a wrong CRC goes to NO_CAL. -/
theorem shutSeal_ctl (f : MetroStartFacts) (m : Metro) : ∃ x, (shutSeal f m).ctl =
    { m.ctl with
      sealOpen := false, partialImg := none, txLog := x, calBad := !(f.calOk && f.cfgOk)
      st := if advances m && !(f.calOk && f.cfgOk) then .noCal else m.ctl.st } := by
  obtain ⟨x, p, v, o, logged⟩ := logEntry_eq 4 0xFF (leBytes 4 m.ctl.sealedWrites)
    (m.onCtl fun c => { c with sealOpen := false, partialImg := none })
  refine ⟨x, ?_⟩
  have shut : shutSeal f m =
      let k := (logEntry 4 0xFF (leBytes 4 m.ctl.sealedWrites) (m.onCtl fun c => { c with sealOpen := false, partialImg := none })).onCtl
        fun c => { c with calBad := !(f.calOk && f.cfgOk) }
      if advances k && k.ctl.calBad then k.onCtl fun c => { c with st := .noCal } else k := rfl
  rw [shut, logged]
  show (if advances m && !(f.calOk && f.cfgOk) then _ else _ : Metro).ctl = _
  cases advances m && !(f.calOk && f.cfgOk) <;> rfl

/-- A milestone taken before an image starts leaves the seal. -/
theorem milestoneBeforeImage_seal {nom} {m : Metro} :
    (if metRuns m then takeMilestone nom false true (cutGaps m) else m).ctl.sealOpen = m.ctl.sealOpen := by
  split
  · obtain ⟨-, -, -, -, -, -, -, -, -, -, kept, -⟩ := takeMilestone_ok (nom := nom) (pf := false) (m := cutGaps m)
    exact kept.trans (cutGaps_keep.reads (·.sealOpen))
  · rfl

/-- An image that starts: the section starts on it, holds no other and keeps its seal. -/
theorem startImage_starts {nom f img} {m : Metro} :
    let t := startImage nom f img m
    t.ctl.sealOpen = m.ctl.sealOpen ∧ t.ctl.heldImg = none ∧ t.ctl.imageCrc = crc32 img ∧ t.ctl.st = startState f ∧ t.ctl.legalSet = false := by
  have kept := milestoneBeforeImage_seal (nom := nom) (m := m)
  unfold startImage
  generalize (if metRuns m then takeMilestone nom false true (cutGaps m) else m) = b at kept
  obtain ⟨k, d, x, same, started⟩ :=
    startMet_ctl f (b.onCtl fun c => { c with heldImg := none, version := Config.imageVersion img, imageCrc := crc32 img })
  obtain ⟨loadedSeal, loadedImg, loadedCrc⟩ := loadMet_seal (f := f)
    (m := b.onCtl fun c => { c with heldImg := none, version := Config.imageVersion img, imageCrc := crc32 img })
  dsimp only
  rw [logEntry_reads (·.ctl.sealOpen), logEntry_reads (·.ctl.heldImg), logEntry_reads (·.ctl.imageCrc), logEntry_reads (·.ctl.st),
    logEntry_reads (·.ctl.legalSet), started]
  exact ⟨(same.reads (·.sealOpen)).trans (loadedSeal.trans kept), (same.reads (·.heldImg)).trans loadedImg,
    (same.reads (·.imageCrc)).trans loadedCrc, rfl, rfl⟩

theorem closeSeal_closed {nom f} {m : Metro} (h : m.ctl.sealOpen = false) : closeSeal nom f m = m := if_pos (by rw [h]; rfl)

/-- An open seal closes; no image is held. -/
theorem closeSeal_empty {nom f} {m : Metro} (h : m.ctl.sealOpen = true) (hi : m.ctl.heldImg = none) : closeSeal nom f m = shutSeal f m := by
  obtain ⟨x, shut⟩ := shutSeal_ctl f m
  have empty : (shutSeal f m).ctl.heldImg = none := by rw [shut]; exact hi
  unfold closeSeal
  rw [if_neg (by rw [h]; decide)]
  simp only [empty]

/-- An open seal closes, and the image that is held starts. -/
theorem closeSeal_holding {nom f img} {m : Metro} (h : m.ctl.sealOpen = true) (hi : m.ctl.heldImg = some img) :
    closeSeal nom f m = startImage nom f img (shutSeal f m) := by
  obtain ⟨x, shut⟩ := shutSeal_ctl f m
  have held : (shutSeal f m).ctl.heldImg = some img := by rw [shut]; exact hi
  unfold closeSeal
  rw [if_neg (by rw [h]; decide)]
  simp only [held]

theorem sealClose_shuts {s f} (h : s.met.ctl.sealOpen = true) :
    (s.met.ctl.heldImg = none → Completes (.sealClose f) s fun t => t.met.ctl.sealOpen = false ∧ t.met.ctl.partialImg = none ∧
      t.met.ctl.st = if advances s.met && !(f.calOk && f.cfgOk) then .noCal else s.met.ctl.st) ∧
    (∀ img, s.met.ctl.heldImg = some img → Completes (.sealClose f) s fun t => t.met.ctl.sealOpen = false ∧ t.met.ctl.heldImg = none ∧
      t.met.ctl.imageCrc = crc32 img ∧ t.met.ctl.st = (if f.calOk && f.cfgOk then .start else .noCal) ∧ t.met.ctl.legalSet = false) := by
  obtain ⟨x, shut⟩ := shutSeal_ctl f s.met
  refine ⟨fun empty => .of rfl ?_, fun img held => .of rfl ?_⟩
  · rw [modMet_met, closeSeal_empty h empty, shut]
    exact ⟨rfl, rfl, rfl⟩
  · obtain ⟨sealKept, image, crc, st, unset⟩ := startImage_starts (nom := nominalPeriod s) (f := f) (img := img) (m := shutSeal f s.met)
    rw [modMet_met, closeSeal_holding h held]
    exact ⟨sealKept.trans (by rw [shut]), image, crc, st, unset⟩

/-- Settles O39, clause by clause: energy samples, voltage events, grid status, tap records, pulses, reconciliation and SEAL. -/
theorem metrologyMeasurement : Obligations.MetrologyMeasurement :=
  ⟨fun _ _ halted => .of rfl (modMet_of_eq (acSample_halted halted)),
    fun _ _ running => .of rfl (acSample_readings running),
    fun _ _ small => .of rfl (acSample_small small),
    fun _ _ advancing current taken whole => .of rfl (acSample_taken advancing current taken whole),
    fun _ _ advancing current fed whole => .of rfl (acSample_fed advancing current fed whole),
    fun _ _ _ running detected absent => .of rfl (voltStart_begins running detected absent),
    fun _ _ _ ignored => .of rfl (modMet_of_eq (voltStart_ignored ignored)),
    fun _ _ _ _ absent => .of rfl (modMet_of_eq (voltEnd_absent absent)),
    fun _ _ _ _ running begun => .of rfl (voltEnd_ends running begun),
    fun _ _ _ halted => .of rfl (if_neg (Bool.eq_false_iff.1 halted)),
    fun _ _ _ running => .of (congrArg Host.Outcome.next (if_pos running)) gridSend_record,
    fun _ _ bad => .of rfl (takeTap_bad bad),
    fun _ _ good idle => .of rfl (takeTap_idle good idle),
    fun _ _ _ => tapRecordReceived_judged,
    fun _ _ _ => pulses_halted,
    fun _ _ _ _ _ => pulseOutputEdge_rises,
    fun _ _ => pulseInputs_run,
    fun _ opened => .of rfl (modMet_of_eq (if_pos opened)),
    fun _ closed => .of rfl (openSeal_opens closed),
    fun _ _ closed => .of rfl (modMet_of_eq (closeSeal_closed closed)),
    fun _ _ => sealClose_shuts⟩

end Sys2Proof.Machine
end

section
/-! PROOF. The requests across the barrier: who is turned away, what a served request does and answers (R219, R239, R241, R242, R250, R254,
R268). -/

namespace Sys2Proof.Machine
set_option Elab.async false

/-! ## Answers (R241, R242) -/

/-- The answer a request of q gets. -/
def answerOf (q : BarrierReq) (op st : Nat) (d : List Byte) : BarrierResp :=
  { lane := q.lane, tag := q.tag, op := BitVec.ofNat 8 op, status := BitVec.ofNat 8 st, payload := d }

/-- The section with answers a and b standing at the lanes. -/
def Metro.withAnswers (a b : Option BarrierResp) (m : Metro) : Metro := { m with ctl := { m.ctl with respA := a, respB := b } }

/-- An answer stands at its lane and changes nothing else of the section. -/
theorem reply_eq (q : BarrierReq) (op st : Nat) (d : List Byte) (m : Metro) : ∃ a b, reply q op st d m = m.withAnswers a b := by
  unfold reply
  cases q.lane <;> exact ⟨_, _, rfl⟩

theorem respOf_reply {s q op st d m} (h : s.met = reply q op st d m) : respOf s q.lane = some (answerOf q op st d) := by
  unfold respOf
  rw [h]
  unfold reply answerOf
  cases q.lane <;> rfl

/-- A command that answers q on the section n: what holds of n whatever answers stand holds of the next section. -/
theorem Completes.answered {c s t q op st d n} {P : State → Prop} (h : exec c s = .next t) (hm : t.met = reply q op st d n)
    (hp : ∀ a b, t.met = n.withAnswers a b → respOf t q.lane = some (answerOf q op st d) → P t) : Completes c s P := by
  obtain ⟨a, b, replied⟩ := reply_eq q op st d n
  exact .of h (hp a b (hm.trans replied) (respOf_reply hm))

theorem TurnedAway.of {c s t q op st} (h : exec c s = .next t) (hm : t.met = reply q op st [] s.met) : TurnedAway c s q op st :=
  Completes.answered h hm fun a b same answer => ⟨answer, by rw [same]; exact ⟨rfl, rfl, rfl, rfl, rfl⟩⟩

theorem AnsweredWith.of {c s t q op d n} {P : Metro → Prop} (h : exec c s = .next t) (hm : t.met = reply q op 0 d n)
    (hp : ∀ a b, P (n.withAnswers a b)) : AnsweredWith c s q op d P :=
  Completes.answered h hm fun a b same answer => ⟨answer, by rw [same]; exact hp a b⟩

/-! ## Who is turned away -/

theorem forwards_of_unsealed {s op} (h : sealedOp op = false) : forwards s op = true := by
  simp [forwards, h]

theorem forwards_sealed {s op} (h : sealedOp op = true) : forwards s op = forwards s 7 := by
  have seven : sealedOp 7 = true := rfl
  unfold forwards
  rw [h, seven]

theorem turnedAway_otherLane {s q op} (h : s.jct.mark ≠ some q.lane) (ho : anyLaneOp op = false) : turnedAway s q op = some 4 :=
  if_pos (by simp [ho, h])

theorem turnedAway_halted {s q op} (h : s.jct.mark = some q.lane) (hr : metRuns s.met = false) (ho : anyLaneOp op = false) (hl : op ≠ 3) :
    turnedAway s q op = some 6 := by
  unfold turnedAway
  rw [if_neg (by simp [h]), if_pos (by simp [hr, ho, hl])]

theorem turnedAway_sealed {s q op} (h : s.jct.mark = some q.lane) (hr : metRuns s.met = true) (ho : sealedOp op = true)
    (hs : s.met.ctl.sealOpen = false) : turnedAway s q op = some 3 := by
  unfold turnedAway
  rw [if_neg (by simp [h]), if_neg (by simp [hr]), if_pos (by simp [ho, hs])]

theorem turnedAway_anyLane {s q op} (h : anyLaneOp op = true) (ho : sealedOp op = false) : turnedAway s q op = none := by
  simp [turnedAway, h, ho]

theorem turnedAway_ownLane {s q op} (h : s.jct.mark = some q.lane) (hr : metRuns s.met = true ∨ op = 3) (ho : sealedOp op = false) :
    turnedAway s q op = none := by
  unfold turnedAway
  rw [if_neg (by simp [h]), if_neg (by rcases hr with hr | hr <;> simp [hr]), if_neg (by simp [ho]), if_neg (by simp [ho])]

theorem turnedAway_openSeal {s q op} (h : s.jct.mark = some q.lane) (hr : metRuns s.met = true) (hs : s.met.ctl.sealOpen = true)
    (hf : logFull s.met = false) : turnedAway s q op = none := by
  unfold turnedAway
  rw [if_neg (by simp [h]), if_neg (by simp [hr]), if_neg (by simp [hs]), if_neg (by simp [hf])]

/-! ## What the service of a request makes of the section -/

theorem serve_turnedAway {s q op st f} (hf : forwards s op = true) (h : turnedAway s q op = some st) :
    (serve q op f s).met = reply q op st [] s.met := by
  unfold serve
  rw [hf, h]
  rfl

theorem serve_served {s q op f} (hf : forwards s op = true) (h : turnedAway s q op = none) :
    (serve q op f s).met = reply q op (f s.met).2.1 (f s.met).2.2 (f s.met).1 := by
  unfold serve
  rw [hf, h]
  rfl

/-- A request served with a known outcome. -/
theorem serve_outcome {s q op f n st d} (hf : forwards s op = true) (h : turnedAway s q op = none) (ho : f s.met = (n, st, d)) :
    (serve q op f s).met = reply q op st d n := by
  rw [serve_served hf h, ho]

theorem serve_unforwarded {s q op f} (h : forwards s op = false) : serve q op f s = s := by
  unfold serve
  rw [h]
  rfl

/-- A request with no need of an open seal, from the active lane to a running section. -/
theorem serve_own {s q op f n st d} (h : s.jct.mark = some q.lane) (hr : metRuns s.met = true) (ho : f s.met = (n, st, d))
    (hs : sealedOp op = false := by rfl) : (serve q op f s).met = reply q op st d n :=
  serve_outcome (forwards_of_unsealed hs) (turnedAway_ownLane h (.inl hr) hs) ho

/-- STATUS, READ and KEY are served for either lane. -/
theorem serve_any {s q op f n st d} (ho : f s.met = (n, st, d)) (ha : anyLaneOp op = true := by rfl) (hs : sealedOp op = false := by rfl) :
    (serve q op f s).met = reply q op st d n :=
  serve_outcome (forwards_of_unsealed hs) (turnedAway_anyLane ha hs) ho

/-- A request that asks for an open seal, forwarded by the active lane to a running section with its seal open. -/
theorem serve_unsealed {s q op f n st d} (hw : forwards s 7 = true) (h : s.jct.mark = some q.lane) (hr : metRuns s.met = true)
    (hs : s.met.ctl.sealOpen = true) (hf : logFull s.met = false) (ho : f s.met = (n, st, d)) (hop : sealedOp op = true := by rfl) :
    (serve q op f s).met = reply q op st d n :=
  serve_outcome ((forwards_sealed hop).trans hw) (turnedAway_openSeal h hr hs hf) ho

/-- Another lane's request is answered with status 4. -/
theorem serve_otherLane {s q op f} (h : s.jct.mark ≠ some q.lane) (ha : anyLaneOp op = false := by rfl) (hs : sealedOp op = false := by rfl) :
    (serve q op f s).met = reply q op 4 [] s.met := serve_turnedAway (forwards_of_unsealed hs) (turnedAway_otherLane h ha)

/-- A halted section answers with status 6. -/
theorem serve_halted {s q op f} (h : s.jct.mark = some q.lane) (hr : metRuns s.met = false) (ha : anyLaneOp op = false := by rfl)
    (hl : op ≠ 3 := by decide) (hs : sealedOp op = false := by rfl) : (serve q op f s).met = reply q op 6 [] s.met :=
  serve_turnedAway (forwards_of_unsealed hs) (turnedAway_halted h hr ha hl)

/-- A section with its seal closed answers with status 3. -/
theorem serve_sealed {s q op f} (hw : forwards s 7 = true) (h : s.jct.mark = some q.lane) (hr : metRuns s.met = true)
    (hs : s.met.ctl.sealOpen = false) (ho : sealedOp op = true := by rfl) : (serve q op f s).met = reply q op 3 [] s.met :=
  serve_turnedAway ((forwards_sealed ho).trans hw) (turnedAway_sealed h hr ho hs)

theorem barrierTamperEffect_met {q lt pf pv s} : (barrierTamperEffect q lt pf pv s).met = (serve q 0xC (tamperMet lt pf pv) s).met := by
  unfold barrierTamperEffect
  dsimp only
  split <;> rfl

theorem requests_otherLane {s q m c ch a sid g lst d w1 w2 w3 w4 w5 lt pf pv ar ct fi} (h : s.jct.mark ≠ some q.lane) :
    TurnedAway (.barrierTime q m) s q 4 4 ∧ TurnedAway (.barrierSessionOpen q c ch a sid) s q 5 4 ∧ TurnedAway (.barrierSessionClose q ch sid) s q 5 4 ∧
    TurnedAway (.barrierCalendar q g lst d) s q 6 4 ∧ TurnedAway (.barrierPqWrite q w1 w2 w3 w4 w5) s q 9 4 ∧
    TurnedAway (.barrierTamper q lt pf pv) s q 0xC 4 ∧ TurnedAway (.barrierLogRead q ar ct fi) s q 3 4 :=
  ⟨.of rfl (serve_otherLane h), .of rfl (serve_otherLane h), .of rfl (serve_otherLane h), .of rfl (serve_otherLane h),
    .of rfl (serve_otherLane h), .of rfl (barrierTamperEffect_met.trans (serve_otherLane h)), .of rfl (serve_otherLane (op := 3) h)⟩

theorem requests_halted {s q m c ch a sid g lst d w1 w2 w3 w4 w5 lt pf pv} (h : s.jct.mark = some q.lane) (hr : metRuns s.met = false) :
    TurnedAway (.barrierTime q m) s q 4 6 ∧ TurnedAway (.barrierSessionOpen q c ch a sid) s q 5 6 ∧ TurnedAway (.barrierSessionClose q ch sid) s q 5 6 ∧
    TurnedAway (.barrierCalendar q g lst d) s q 6 6 ∧ TurnedAway (.barrierPqWrite q w1 w2 w3 w4 w5) s q 9 6 ∧
    TurnedAway (.barrierTamper q lt pf pv) s q 0xC 6 :=
  ⟨.of rfl (serve_halted h hr), .of rfl (serve_halted h hr), .of rfl (serve_halted h hr), .of rfl (serve_halted h hr),
    .of rfl (serve_halted h hr), .of rfl (barrierTamperEffect_met.trans (serve_halted h hr))⟩

theorem requests_sealed {s q ci si g lst d} (hw : forwards s 7 = true) (h : s.jct.mark = some q.lane) (hr : metRuns s.met = true)
    (hs : s.met.ctl.sealOpen = false) : TurnedAway (.barrierCalWrite q ci) s q 7 3 ∧ TurnedAway (.barrierConfigWrite q si) s q 8 3 ∧
    TurnedAway (.barrierImage q g lst d) s q 0xA 3 :=
  ⟨.of rfl (serve_sealed (op := 7) hw h hr hs), .of rfl (serve_sealed (op := 8) hw h hr hs), .of rfl (serve_sealed hw h hr hs)⟩

theorem requests_unforwarded {s q ci si g lst d} (h : forwards s 7 = false) :
    Completes (.barrierCalWrite q ci) s (fun t => t.met = s.met) ∧ Completes (.barrierConfigWrite q si) s (fun t => t.met = s.met) ∧
    Completes (.barrierImage q g lst d) s fun t => t.met = s.met := by
  have kept : ∀ {op f}, sealedOp op = true → (serve q op f s).met = s.met := fun ho =>
    congrArg State.met (serve_unforwarded ((forwards_sealed ho).trans h))
  exact ⟨.of rfl (kept (op := 7) rfl), .of rfl (kept (op := 8) rfl), .of rfl (kept rfl)⟩

/-! ## STATUS, READ, LOG_READ and KEY (R242, R248, R268) -/

theorem barrierMessageError_answered {s q u} : Completes (.barrierMessageError q u) s fun t =>
    respOf t q.lane = some { lane := q.lane, tag := q.tag, op := 0, status := if u then 1 else 2, payload := [] } ∧
    t.met.ctl.crcErrors = if u then s.met.ctl.crcErrors else s.met.ctl.crcErrors + 1 := by
  cases u with
  | true => exact Completes.answered (op := 0) (st := 1) (d := []) (n := s.met) rfl rfl fun a b same answer => ⟨answer, by rw [same]; rfl⟩
  | false =>
    exact Completes.answered (op := 0) (st := 2) (d := []) (n := s.met.onCtl fun c => { c with crcErrors := c.crcErrors + 1 }) rfl rfl
      fun a b same answer => ⟨answer, by rw [same]; rfl⟩

/-- STATUS from a lane that is not active, or from a section whose READY was reported, leaves the section as its answer does. -/
theorem statusEffect_met {s q} (h : s.jct.mark ≠ some q.lane ∨ (s.met.ctl.st = .ready ∧ s.met.ctl.reported = true)) :
    (statusEffect q s).met = (serve q 1 (fun m => (m, 0, statusBytes m)) s).met := by
  have mark : (serve q 1 (fun m => (m, 0, statusBytes m)) s).jct = s.jct := (serve_only (l := .a)).1 .jct (by decide)
  have served : (serve q 1 (fun m => (m, 0, statusBytes m)) s).met = reply q 1 0 (statusBytes s.met) s.met := serve_any rfl
  obtain ⟨a, b, replied⟩ := reply_eq q 1 0 (statusBytes s.met) s.met
  unfold statusEffect
  dsimp only
  rw [State.modLane_jct, State.modLane_met, mark]
  by_cases other : s.jct.mark ≠ some q.lane
  · rw [if_pos other, State.modLane_met]
  · obtain ⟨ready, reported⟩ := h.resolve_left other
    have stays : (serve q 1 (fun m => (m, 0, statusBytes m)) s).met.ctl.st = .ready := by rw [served, replied]; exact ready
    have known : (serve q 1 (fun m => (m, 0, statusBytes m)) s).met.ctl.reported = true := by rw [served, replied]; exact reported
    rw [if_neg other, if_pos stays, readyReported, State.modLane_met, if_pos known, State.modLane_met]

/-- STATUS from a lane that is not active, or while a section reported READY stays READY, changes nothing but the answer. -/
theorem barrierStatus_answered {s q} (h : s.jct.mark ≠ some q.lane ∨ (s.met.ctl.st = .ready ∧ s.met.ctl.reported = true)) :
    AnsweredWith (.barrierStatus q) s q 1 (statusBytes s.met) fun n => n.bill = s.met.bill := by
  have served : (serve q 1 (fun m => (m, 0, statusBytes m)) s).met = reply q 1 0 (statusBytes s.met) s.met := serve_any rfl
  exact .of rfl ((statusEffect_met h).trans served) fun a b => rfl

theorem barrierKey_answered {s q} : AnsweredWith (.barrierKey q) s q 0xB Config.metrologyKey fun n => n.bill = s.met.bill :=
  .of rfl (serve_any (op := 0xB) rfl) fun a b => rfl

theorem barrierReadEffect_held {s q n b l} (h : readBlock n.toNat b.toNat s.met = some l) :
    (barrierReadEffect q n b s).met = reply q 2 0 (readPayload n.toNat b.toNat l) s.met := by
  unfold barrierReadEffect
  rw [h]
  dsimp only
  rw [State.modLane_met]
  exact serve_any rfl

theorem barrierReadEffect_missing {s q n b} (h : readBlock n.toNat b.toNat s.met = none) :
    (barrierReadEffect q n b s).met = reply q 2 5 [] s.met := by
  unfold barrierReadEffect
  rw [h]
  exact serve_any rfl

theorem signedRead_held {n r} {m : Metro} (h : heldRecord (n.setWidth 32) m = some r) : signedRead n m = (m, 0, r.body ++ r.signature) := by
  unfold signedRead
  rw [h]

theorem signedRead_missing {n} {m : Metro} (h : heldRecord (n.setWidth 32) m = none) : signedRead n m = (m, 5, []) := by
  unfold signedRead
  rw [h]

theorem reads_answered {s q} {n : U64} {b : U16} :
    (readBlock n.toNat b.toNat s.met = none → TurnedAway (.barrierRead q n b) s q 2 5) ∧
    (∀ l, readBlock n.toNat b.toNat s.met = some l → AnsweredWith (.barrierRead q n b) s q 2 (readPayload n.toNat b.toNat l) fun n => n.bill = s.met.bill) ∧
    (heldRecord (n.setWidth 32) s.met = none → TurnedAway (.signedRecordRead q n) s q 2 5) ∧
    (∀ r, heldRecord (n.setWidth 32) s.met = some r → AnsweredWith (.signedRecordRead q n) s q 2 (r.body ++ r.signature) fun n => n.bill = s.met.bill) :=
  ⟨fun missing => .of rfl (barrierReadEffect_missing missing), fun _ held => .of rfl (barrierReadEffect_held held) fun _ _ => rfl,
    fun missing => .of rfl (serve_any (op := 2) (signedRead_missing missing)),
    fun _ held => .of rfl (serve_any (op := 2) (signedRead_held held)) fun _ _ => rfl⟩

theorem logRead_tooMany {free ct fi} {m : Metro} (h : 7 < ct.toNat) : logRead free 0 ct fi m = (m, 5, []) := if_pos (.inr h)

theorem logRead_entries {free ct fi o n} {m : Metro} (h : ct.toNat ≤ 7) (ho : m.bill.param.entries.head? = some o)
    (hn : m.bill.param.entries.getLast? = some n) : logRead free 0 ct fi m =
    (m, 0, leBytes 4 o.seq.toNat ++ leBytes 4 n.seq.toNat ++
      ((m.bill.param.entries.filter fun e => decide (fi.toNat ≤ e.seq.toNat)).take ct.toNat).flatMap entryBytes) := by
  have within : ¬ (1 < (0 : U8).toNat ∨ 7 < ct.toNat) := not_or.2 ⟨by decide, Nat.not_lt.2 h⟩
  unfold logRead
  rw [if_neg within]
  simp only [if_true, ho, hn]

/-- LOG_READ is served while the section is halted, too. -/
theorem serve_logRead {s q n st d} {f : Metro → Metro × Nat × List Byte} (h : s.jct.mark = some q.lane) (ho : f s.met = (n, st, d)) :
    (serve q 3 f s).met = reply q 3 st d n :=
  serve_outcome (forwards_of_unsealed rfl) (turnedAway_ownLane h (.inr rfl) rfl) ho

/-! ## TIME (R219, R261-R263) -/

/-- TIME takes the difference from the RTC and changes nothing else. -/
theorem takeDelta_eq (x : TimeMsg) (m : Metro) : ∃ d, takeDelta x m = { m with ctl := { m.ctl with delta := d } } := by
  unfold takeDelta
  split <;> exact ⟨_, rfl⟩

/-- A reading of the section that the difference from the RTC does not enter. -/
theorem takeDelta_reads {α : Type} {x : TimeMsg} {m : Metro} (g : Metro → α)
    (hg : ∀ (m : Metro) d, g { m with ctl := { m.ctl with delta := d } } = g m := by intros; rfl) : g (takeDelta x m) = g m := by
  obtain ⟨d, h⟩ := takeDelta_eq x m
  rw [h, hg]

/-- The difference of a time message from legal time, in cycles. -/
def timeError (x : TimeMsg) (m : Metro) : Int := (x.time.toNat * 750 : Nat) - (m.ctl.legal : Int)

theorem timeMet_adjusts {nom x} {m n : Metro} {st} (hv : x.timeValid = true) (hl : m.ctl.legalSet = true)
    (ha : adjustLegal x.time.toNat m = (n, st)) : timeMet nom x m = (takeDelta x n, st, []) := by
  unfold timeMet
  rw [if_neg (by rw [hv]; decide), if_pos hl, ha]

theorem timeMet_sets {nom x} {m : Metro} (hv : x.timeValid = true) (hl : m.ctl.legalSet = false) :
    timeMet nom x m = (takeDelta x (setLegal nom x.time.toNat m), 0, []) := by
  unfold timeMet
  rw [if_neg (by rw [hv]; decide), if_neg (by rw [hl]; decide)]

theorem adjustLegal_slews {x : TimeMsg} {m : Metro} (h : (timeError x m).natAbs ≤ secCycles) :
    adjustLegal x.time.toNat m = (setDispute false (m.onCtl fun c => { c with slew := timeError x m }), 0) := if_pos h

theorem adjustLegal_steps {x : TimeMsg} {m : Metro} (h : secCycles < (timeError x m).natAbs)
    (hs : (timeError x m).natAbs ≤ stepLimit m * secCycles) : adjustLegal x.time.toNat m = (applyStep (timeError x m) m, 0) :=
  (if_neg (Nat.not_le.2 h)).trans (if_pos hs)

theorem adjustLegal_refuses {x : TimeMsg} {m : Metro} (h : stepLimit m * secCycles < (timeError x m).natAbs) (hl : 1 ≤ stepLimit m)
    (hs : m.ctl.sealOpen = false) : adjustLegal x.time.toNat m = (refuseStep (timeError x m) m, 5) := by
  have second : secCycles < (timeError x m).natAbs := (Nat.le_mul_of_pos_left _ hl).trans_lt h
  exact (if_neg (Nat.not_le.2 second)).trans ((if_neg (Nat.not_le.2 h)).trans (if_neg (by rw [hs, Bool.false_and]; decide)))

/-- A step brings legal time to the time of the message. -/
theorem applyStep_legal {x : TimeMsg} {m : Metro} :
    (applyStep (timeError x m) m).ctl.legal = x.time.toNat * 750 ∧ (applyStep (timeError x m) m).ctl.slew = 0 := by
  have reached : ((m.ctl.legal : Int) + timeError x m).toNat = x.time.toNat * 750 := by
    unfold timeError
    omega
  have kept : MetKeep ((markWindow (fun w => { w with stepped := true }) m).onCtl fun c =>
      { c with legal := ((c.legal : Int) + timeError x m).toNat, slew := 0 }) (applyStep (timeError x m) m) :=
    runBoundaries_keep.trans logEntry_keep
  exact ⟨(kept.reads (·.legal)).trans reached, kept.reads (·.slew)⟩

/-- A refused step marks the dispute; b says whether its entry is due. -/
theorem refuseStep_eq (d : Int) (m : Metro) : ∃ b : Bool, refuseStep d m =
    if b then (logEntry 8 0xFF (leBytesInt 8 (stepMs d)) (setDispute true m)).onBill fun k => { k with lastDispute := some m.ctl.cycles }
    else setDispute true m := ⟨_, rfl⟩

/-- A refused step leaves legal time and marks the dispute. -/
theorem refuseStep_kept {d} {m : Metro} :
    (refuseStep d m).ctl.legal = m.ctl.legal ∧ (refuseStep d m).bill.regs.flags = m.bill.regs.flags ||| 2 := by
  obtain ⟨due, refused⟩ := refuseStep_eq d m
  rw [refused]
  cases due with
  | true =>
    exact ⟨logEntry_reads (m := setDispute true m) (·.ctl.legal), logEntry_reads (m := setDispute true m) (·.bill.regs.flags)⟩
  | false => exact ⟨rfl, rfl⟩

/-- The section with legal time set to t ticks. -/
def withLegal (t : Nat) (m : Metro) : Metro := m.onCtl fun c => { c with legal := t * 750, legalSet := true, slew := 0, unsetFor := 0 }

/-- The section with legal time set, the boundaries of the outage run and logged. -/
def afterOutage (t : Nat) (m : Metro) : Metro :=
  let b := runBoundaries true (withLegal t m)
  let n := markWindow (fun x => { x with incomplete := true }) b.m
  logEntry 0x16 0xFF (leBytes 4 (m.ctl.unsetFor / secCycles))
    (if b.kinds = 0 then n else logEntry 0xF 0xFF (leBytes 1 b.kinds ++ leBytes 4 b.skipped) n)

theorem markWindow_keep {f} {m : Metro} : MetKeep m (markWindow f m) := onRegs_keep

theorem afterOutage_keep {t} {m : Metro} : MetKeep (withLegal t m) (afterOutage t m) :=
  ((runBoundaries_keep.trans markWindow_keep).trans (.ite .refl logEntry_keep)).trans logEntry_keep

/-- Legal time is set on a section that runs the boundaries of the outage, then a milestone is taken. -/
theorem setLegal_eq {nom t} {m : Metro} : setLegal nom t m =
    takeMilestone nom false true ((afterOutage t m).onCtl fun c => { c with st := if c.st = .start then .ready else c.st }) := rfl

theorem setLegal_sets {nom t} {m : Metro} :
    (setLegal nom t m).ctl.legalSet = true ∧ (setLegal nom t m).ctl.legal = t * 750 ∧
    (setLegal nom t m).ctl.st = (if m.ctl.st = .start then .ready else m.ctl.st) ∧ (setLegal nom t m).ctl.milestone = m.ctl.milestone + 1 := by
  have kept := afterOutage_keep (t := t) (m := m)
  obtain ⟨number, -, st, -, -, legal, isSet, -⟩ := takeMilestone_ok (nom := nom) (pf := false)
    (m := (afterOutage t m).onCtl fun c => { c with st := if c.st = .start then .ready else c.st })
  rw [setLegal_eq]
  exact ⟨isSet.trans (kept.reads (·.legalSet)), legal.trans (kept.reads (·.legal)),
    st.trans (kept.reads fun c => if c.st = .start then MetroSt.ready else c.st), number.trans (kept.reads (·.milestone + 1))⟩

theorem barrierTime_adjusts {s q m} (h : s.jct.mark = some q.lane) (hr : metRuns s.met = true) (hv : m.timeValid = true)
    (hl : s.met.ctl.legalSet = true) :
    ((timeError m s.met).natAbs ≤ secCycles → AnsweredWith (.barrierTime q m) s q 4 [] fun n =>
      n.ctl.slew = timeError m s.met ∧ n.ctl.legal = s.met.ctl.legal) ∧
    (stepLimit s.met * secCycles < (timeError m s.met).natAbs → 1 ≤ stepLimit s.met → s.met.ctl.sealOpen = false →
      Completes (.barrierTime q m) s fun t => t.met.ctl.legal = s.met.ctl.legal ∧ t.met.bill.regs.flags = s.met.bill.regs.flags ||| 2 ∧
        ∃ r, respOf t q.lane = some r ∧ r.status = 5) ∧
    (secCycles < (timeError m s.met).natAbs → (timeError m s.met).natAbs ≤ stepLimit s.met * secCycles →
      AnsweredWith (.barrierTime q m) s q 4 [] fun n => n.ctl.legal = m.time.toNat * 750 ∧ n.ctl.slew = 0) := by
  refine ⟨fun near => .of rfl (serve_own h hr (timeMet_adjusts hv hl (adjustLegal_slews near))) fun a b => ?_,
    fun far limited shut => ?_, fun far within => .of rfl (serve_own h hr (timeMet_adjusts hv hl (adjustLegal_steps far within))) fun a b => ?_⟩
  · exact ⟨takeDelta_reads (·.ctl.slew), takeDelta_reads (·.ctl.legal)⟩
  · obtain ⟨legal, flags⟩ := refuseStep_kept (d := timeError m s.met) (m := s.met)
    refine Completes.answered rfl (serve_own h hr (timeMet_adjusts hv hl (adjustLegal_refuses far limited shut))) fun a b same answer => ?_
    rw [same]
    exact ⟨(takeDelta_reads (·.ctl.legal)).trans legal, (takeDelta_reads (·.bill.regs.flags)).trans flags, _, answer, rfl⟩
  · exact ⟨(takeDelta_reads (·.ctl.legal)).trans applyStep_legal.1, (takeDelta_reads (·.ctl.slew)).trans applyStep_legal.2⟩

theorem barrierTime_sets {s q m} (h : s.jct.mark = some q.lane) (hr : metRuns s.met = true) (hv : m.timeValid = true)
    (hl : s.met.ctl.legalSet = false) : AnsweredWith (.barrierTime q m) s q 4 [] fun n => n.ctl.legalSet = true ∧ n.ctl.legal = m.time.toNat * 750 ∧
      n.ctl.st = (if s.met.ctl.st = .start then .ready else s.met.ctl.st) ∧ n.ctl.milestone = s.met.ctl.milestone + 1 := by
  obtain ⟨isSet, legal, st, number⟩ := setLegal_sets (nom := nominalPeriod s) (t := m.time.toNat) (m := s.met)
  refine .of rfl (serve_own h hr (timeMet_sets hv hl)) fun a b => ?_
  exact ⟨(takeDelta_reads (·.ctl.legalSet)).trans isSet, (takeDelta_reads (·.ctl.legal)).trans legal, (takeDelta_reads (·.ctl.st)).trans st,
    (takeDelta_reads (·.ctl.milestone)).trans number⟩

/-! ## SESSION (R250) -/

theorem channel_toNat (c : Fin 32) : (BitVec.ofNat 8 (c.val + 1)).toNat = c.val + 1 := by
  rw [BitVec.toNat_ofNat]
  omega

/-- A channel of the hub, an id and an account a session may open with. -/
theorem sessionOpen_valid {a : U16} {sid : U32} (c : Fin 32) (hid : sid ≠ 0) (ha : a.toNat ≤ 255) :
    ¬ (c.val + 1 = 0 ∨ 32 < c.val + 1 ∨ sid = 0 ∨ (255 < a.toNat ∧ a ≠ 0xFFFF)) := by
  rintro (zero | above | zeroId | account)
  · omega
  · omega
  · exact hid zeroId
  · omega

theorem sessionClose_valid (c : Fin 32) : ¬ (c.val + 1 = 0 ∨ 32 < c.val + 1) := by omega

/-- A session opens on a channel that has none. -/
theorem sessionOpen_free {com a sid} {m : Metro} {c : Fin 32} (hid : sid ≠ 0) (ha : a.toNat ≤ 255)
    (h : nth m.bill.regs.sessions c = none) : ∃ x : MetSession, x.id = sid ∧ x.account = a ∧ x.commissioning = com ∧
    sessionOpen com (c + 1) a sid m = (m.onRegs fun r => { r with sessions := put r.sessions c (some x) }, 0, []) := by
  unfold sessionOpen
  simp only [if_neg (sessionOpen_valid c hid ha), Nat.add_sub_cancel, h]
  exact ⟨_, rfl, rfl, rfl, rfl⟩

theorem sessionOpen_taken {com a sid x} {m : Metro} {c : Fin 32} (hid : sid ≠ 0) (ha : a.toNat ≤ 255)
    (h : nth m.bill.regs.sessions c = some x) (hx : x.id ≠ sid) : sessionOpen com (c + 1) a sid m = (m, 5, []) := by
  unfold sessionOpen
  simp only [if_neg (sessionOpen_valid c hid ha), Nat.add_sub_cancel, h, if_neg hx]

theorem sessionClose_other {sid x} {m : Metro} {c : Fin 32} (h : nth m.bill.regs.sessions c = some x) (hx : x.id ≠ sid) :
    sessionClose (c + 1) sid m = (m, 5, []) := by
  unfold sessionClose
  simp only [if_neg (sessionClose_valid c), Nat.add_sub_cancel, h, if_neg hx]

/-- The session record of an open session takes the next record number. -/
theorem sessionRecord_record {e f c x} {m : Metro} (h : nth m.bill.regs.sessions c = some x) :
    (sessionRecord e f m (c + 1)).bill.record = m.bill.record + 1 := by
  unfold sessionRecord
  rw [Nat.add_sub_cancel, h]
  rfl

@[simp] theorem Metro.onRegs_regs {f} {m : Metro} : (m.onRegs f).bill.regs = f m.bill.regs := rfl
@[simp] theorem Metro.onRegs_record {f} {m : Metro} : (m.onRegs f).bill.record = m.bill.record := rfl

/-- A session closes with its record, and its channel has none. -/
theorem sessionClose_own {sid x} {m : Metro} {c : Fin 32} (hl : m.bill.regs.sessions.length = 32)
    (hx : nth m.bill.regs.sessions c = some x) (hid : x.id = sid) : ∃ n, sessionClose (c + 1) sid m = (n, 0, []) ∧
    nth n.bill.regs.sessions c = none ∧ n.bill.record = m.bill.record + 1 := by
  unfold sessionClose
  simp only [if_neg (sessionClose_valid c), Nat.add_sub_cancel, hx, if_pos hid]
  refine ⟨_, rfl, ?_, ?_⟩
  · rw [Metro.onRegs_regs, sessionRecord_regs]
    exact nth_put_self _ _ _ (by rw [hl]; exact c.2)
  · rw [Metro.onRegs_record, sessionRecord_record hx]

theorem sessions_answered {s q} {com : Bool} {c : Fin 32} {a : U16} {sid : U32} (h : s.jct.mark = some q.lane) (hr : metRuns s.met = true)
    (hl : s.met.bill.regs.sessions.length = 32) (hid : sid ≠ 0) (ha : a.toNat ≤ 255) :
    (nth s.met.bill.regs.sessions c = none → AnsweredWith (.barrierSessionOpen q com (BitVec.ofNat 8 (c.val + 1)) a sid) s q 5 [] fun n =>
      ∃ x, nth n.bill.regs.sessions c = some x ∧ x.id = sid ∧ x.account = a ∧ x.commissioning = com ∧ n.bill.records = s.met.bill.records) ∧
    (∀ x, nth s.met.bill.regs.sessions c = some x → x.id ≠ sid →
      TurnedAway (.barrierSessionOpen q com (BitVec.ofNat 8 (c.val + 1)) a sid) s q 5 5 ∧
      TurnedAway (.barrierSessionClose q (BitVec.ofNat 8 (c.val + 1)) sid) s q 5 5) ∧
    (∀ x, nth s.met.bill.regs.sessions c = some x → x.id = sid →
      AnsweredWith (.barrierSessionClose q (BitVec.ofNat 8 (c.val + 1)) sid) s q 5 [] fun n =>
        nth n.bill.regs.sessions c = none ∧ n.bill.record = s.met.bill.record + 1) := by
  have bound : c.val < s.met.bill.regs.sessions.length := by rw [hl]; exact c.2
  have channel := channel_toNat c
  refine ⟨fun free => ?_, fun x held other => ?_, fun x held own => ?_⟩
  · obtain ⟨x, id, account, commissions, opened⟩ := sessionOpen_free (com := com) hid ha free
    rw [← channel] at opened
    exact .of rfl (serve_own h hr opened) fun _ _ => ⟨x, nth_put_self _ _ _ bound, id, account, commissions, rfl⟩
  · have refused := sessionOpen_taken (com := com) hid ha held other
    have kept := sessionClose_other held other
    rw [← channel] at refused kept
    exact ⟨.of rfl (serve_own h hr refused), .of rfl (serve_own h hr kept)⟩
  · obtain ⟨n, closed, ended, number⟩ := sessionClose_own hl held own
    rw [← channel] at closed
    exact .of rfl (serve_own h hr closed) fun _ _ => ⟨ended, number⟩

/-! ## CALENDAR (R254, R256) -/

theorem calendarMet_unjoined {g lst d} {m : Metro} (h : joinSegment m.bill.partialCal g d = none) :
    calendarMet g lst d m = (m.onBill fun x => { x with partialCal := none }, 5, []) := by
  unfold calendarMet
  rw [h]

theorem calendarMet_more {g d p} {m : Metro} (h : joinSegment m.bill.partialCal g d = some p) :
    calendarMet g false d m = (m.onBill fun x => { x with partialCal := some p }, 0, []) := by
  unfold calendarMet
  rw [h]
  rfl

theorem calendarMet_last {g d k b} {m : Metro} (h : joinSegment m.bill.partialCal g d = some (k, b)) :
    calendarMet g true d m = takeCalendar b m := by
  unfold calendarMet
  rw [h]
  rfl

theorem takeCalendar_refused {b} {m : Metro} (h : receiptCheck b m ≠ 0) : ∃ n, takeCalendar b m = (n, 5, []) ∧
    n.bill.calResult = BitVec.ofNat 8 (receiptCheck b m) ∧ n.bill.passive = m.bill.passive := by
  unfold takeCalendar
  dsimp only
  rw [if_neg h]
  exact ⟨_, rfl, logEntry_reads (·.bill.calResult), logEntry_reads (·.bill.passive)⟩

theorem takeCalendar_accepted {b} {m : Metro} (h : receiptCheck b m = 0) : ∃ n c, takeCalendar b m = (n, 0, []) ∧
    n.bill.calResult = 0 ∧ n.bill.passive = some c ∧ c.image = b := by
  unfold takeCalendar
  dsimp only
  rw [if_pos h]
  exact ⟨_, _, rfl, logEntry_reads (·.bill.calResult), logEntry_reads (·.bill.passive), rfl⟩

theorem barrierCalendar_answered {s q lst} {g : U8} {d : List Byte} (h : s.jct.mark = some q.lane) (hr : metRuns s.met = true) :
    (joinSegment s.met.bill.partialCal g.toNat d = none → Completes (.barrierCalendar q g lst d) s fun t =>
      t.met.bill = { s.met.bill with partialCal := none } ∧ ∃ r, respOf t q.lane = some r ∧ r.status = 5) ∧
    (∀ p, joinSegment s.met.bill.partialCal g.toNat d = some p → AnsweredWith (.barrierCalendar q g false d) s q 6 [] fun n =>
      n.bill = { s.met.bill with partialCal := some p }) ∧
    (∀ k b, joinSegment s.met.bill.partialCal g.toNat d = some (k, b) → receiptCheck b s.met ≠ 0 → Completes (.barrierCalendar q g true d) s fun t =>
      t.met.bill.calResult = BitVec.ofNat 8 (receiptCheck b s.met) ∧ t.met.bill.passive = s.met.bill.passive ∧ ∃ r, respOf t q.lane = some r ∧ r.status = 5) ∧
    (∀ k b, joinSegment s.met.bill.partialCal g.toNat d = some (k, b) → receiptCheck b s.met = 0 → AnsweredWith (.barrierCalendar q g true d) s q 6 [] fun n =>
      n.bill.calResult = 0 ∧ ∃ c, n.bill.passive = some c ∧ c.image = b) := by
  refine ⟨fun unjoined => ?_, fun p joined => ?_, fun k b joined bad => ?_, fun k b joined good => ?_⟩
  · refine Completes.answered rfl (serve_own h hr (calendarMet_unjoined unjoined)) fun _ _ same answer => ?_
    rw [same]
    exact ⟨rfl, _, answer, rfl⟩
  · exact .of rfl (serve_own h hr (calendarMet_more joined)) fun _ _ => rfl
  · obtain ⟨n, refused, result, passive⟩ := takeCalendar_refused bad
    refine Completes.answered rfl (serve_own h hr ((calendarMet_last joined).trans refused)) fun _ _ same answer => ?_
    rw [same]
    exact ⟨result, passive, _, answer, rfl⟩
  · obtain ⟨n, c, accepted, result, passive, image⟩ := takeCalendar_accepted good
    exact .of rfl (serve_own h hr ((calendarMet_last joined).trans accepted)) fun _ _ => ⟨result, c, passive, image⟩

/-! ## Sealed writes and images (R239, R240, R408) -/

theorem calWrite_ctl {x} {m : Metro} : (calWrite x m).ctl = m.ctl := by
  cases x <;> rfl

theorem itemWrite_ctl {x} {m : Metro} : (itemWrite x m).ctl = m.ctl := by
  cases x <;> rfl

/-- The record of a sealed write counts it and leaves what was written. -/
theorem logWrite_kept {item old new} {m : Metro} : (logWrite item old new m).ac = m.ac ∧ (logWrite item old new m).dc = m.dc ∧
    (logWrite item old new m).pout = m.pout ∧ (logWrite item old new m).pin = m.pin ∧
    (logWrite item old new m).ctl.sealedWrites = m.ctl.sealedWrites + 1 :=
  ⟨logEntry_reads (·.ac), logEntry_reads (·.dc), logEntry_reads (·.pout), logEntry_reads (·.pin), logEntry_reads (·.ctl.sealedWrites)⟩

/-- A calibration item in its range is written and counted. -/
theorem calWriteMet_makes {free x} {m : Metro} (h : calOk x = true) : ∃ n, calWriteMet free x m = (n, 0, []) ∧
    n.ac = (calWrite x m).ac ∧ n.dc = (calWrite x m).dc ∧ n.ctl.sealedWrites = m.ctl.sealedWrites + 1 := by
  unfold calWriteMet
  rw [if_pos h]
  obtain ⟨ac, dc, -, -, counted⟩ := logWrite_kept (item := calNum x) (old := m.ctl.calCrc) (new := BitVec.ofNat 32 (Config.freeNat free))
    (m := (calWrite x m).onCtl fun c => { c with calCrc := BitVec.ofNat 32 (Config.freeNat free) })
  exact ⟨_, rfl, ac, dc, counted.trans (congrArg (·.sealedWrites + 1) (calWrite_ctl (x := x) (m := m)))⟩

/-- A configuration item in its range is written and counted. -/
theorem configWriteMet_makes {free x} {m : Metro} (h : itemOk m x = true) : ∃ n, configWriteMet free x m = (n, 0, []) ∧
    n.ac = (itemWrite x m).ac ∧ n.dc = (itemWrite x m).dc ∧ n.pout = (itemWrite x m).pout ∧ n.pin = (itemWrite x m).pin ∧
    n.ctl.sealedWrites = m.ctl.sealedWrites + 1 := by
  unfold configWriteMet
  rw [if_pos h]
  obtain ⟨ac, dc, pout, pin, counted⟩ := logWrite_kept (item := itemNum x) (old := m.ctl.cfgCrc) (new := BitVec.ofNat 32 (Config.freeNat free))
    (m := (itemWrite x m).onCtl fun c => { c with cfgCrc := BitVec.ofNat 32 (Config.freeNat free) })
  exact ⟨_, rfl, ac, dc, pout, pin, counted.trans (congrArg (·.sealedWrites + 1) (itemWrite_ctl (x := x) (m := m)))⟩

theorem imageMet_unjoined {g lst d} {m : Metro} (h : joinSegment m.ctl.partialImg g d = none) :
    imageMet g lst d m = (m.onCtl fun c => { c with partialImg := none }, 5, []) := by
  unfold imageMet
  rw [h]

theorem imageMet_whole {g d k b} {m : Metro} (h : joinSegment m.ctl.partialImg g d = some (k, b)) (ho : Config.metrologyImageOk b = true) :
    imageMet g true d m = (m.onCtl fun c => { c with partialImg := none, heldImg := some b }, 0, []) := by
  unfold imageMet
  rw [h]
  exact if_pos ho

theorem sealedRequests_answered {s q ci si lst} {g : U16} {d : List Byte} (hw : forwards s 7 = true) (h : s.jct.mark = some q.lane)
    (hr : metRuns s.met = true) (hs : s.met.ctl.sealOpen = true) (hf : logFull s.met = false) :
    (calOk ci = false → TurnedAway (.barrierCalWrite q ci) s q 7 5) ∧
    (calOk ci = true → AnsweredWith (.barrierCalWrite q ci) s q 7 [] fun n =>
      n.ac = (calWrite ci s.met).ac ∧ n.dc = (calWrite ci s.met).dc ∧ n.ctl.sealedWrites = s.met.ctl.sealedWrites + 1) ∧
    (itemOk s.met si = false → TurnedAway (.barrierConfigWrite q si) s q 8 5) ∧
    (itemOk s.met si = true → AnsweredWith (.barrierConfigWrite q si) s q 8 [] fun n =>
      n.ac = (itemWrite si s.met).ac ∧ n.dc = (itemWrite si s.met).dc ∧ n.pout = (itemWrite si s.met).pout ∧ n.pin = (itemWrite si s.met).pin ∧
      n.ctl.sealedWrites = s.met.ctl.sealedWrites + 1) ∧
    (joinSegment s.met.ctl.partialImg g.toNat d = none → Completes (.barrierImage q g lst d) s fun t =>
      t.met.ctl.partialImg = none ∧ t.met.ctl.heldImg = s.met.ctl.heldImg ∧ ∃ r, respOf t q.lane = some r ∧ r.status = 5) ∧
    (∀ k b, joinSegment s.met.ctl.partialImg g.toNat d = some (k, b) → Config.metrologyImageOk b = true →
      AnsweredWith (.barrierImage q g true d) s q 0xA [] fun n => n.ctl.heldImg = some b ∧ n.ctl.partialImg = none) := by
  refine ⟨fun bad => ?_, fun good => ?_, fun bad => ?_, fun good => ?_, fun unjoined => ?_, fun k b joined good => ?_⟩
  · exact .of rfl (serve_unsealed (op := 7) hw h hr hs hf (if_neg (Bool.eq_false_iff.1 bad)))
  · obtain ⟨n, made, changed⟩ := calWriteMet_makes (free := s.free) (m := s.met) good
    exact .of rfl (serve_unsealed (op := 7) hw h hr hs hf made) fun _ _ => changed
  · exact .of rfl (serve_unsealed (op := 8) hw h hr hs hf (if_neg (Bool.eq_false_iff.1 bad)))
  · obtain ⟨n, made, changed⟩ := configWriteMet_makes (free := s.free) good
    exact .of rfl (serve_unsealed (op := 8) hw h hr hs hf made) fun _ _ => changed
  · refine Completes.answered rfl (serve_unsealed hw h hr hs hf (imageMet_unjoined unjoined)) fun _ _ same answer => ?_
    rw [same]
    exact ⟨rfl, rfl, _, answer, rfl⟩
  · exact .of rfl (serve_unsealed hw h hr hs hf (imageMet_whole joined good)) fun _ _ => ⟨rfl, rfl⟩

/-! ## TAMPER (R294, R297) -/

theorem barrierTamper_acknowledges {s q lt pf pv} (h : s.jct.mark = some q.lane) (hr : metRuns s.met = true) :
    Completes (.barrierTamper q lt pf pv) s fun t =>
      t.met.ctl.loaded = none ∧ t.bk.inputs = s.bk.inputs.mapIdx (fun i (k : TampIn) => { k with acked := k.acked || (k.latched && lt.getLsbD i) }) ∧
      ∃ r, respOf t q.lane = some r ∧ r.status = 0 ∧ r.op = 0xC := by
  have acknowledged : barrierTamperEffect q lt pf pv s = ackLatches lt (serve q 0xC (tamperMet lt pf pv) s) :=
    if_pos (by rw [turnedAway_ownLane h (.inl hr) rfl]; rfl)
  have kept : (serve q 0xC (tamperMet lt pf pv) s).bk = s.bk := (serve_only (l := .a)).1 .bk (by decide)
  refine Completes.answered (congrArg Host.Outcome.next acknowledged) (serve_own (op := 0xC) h hr rfl) fun _ _ same answer => ?_
  refine ⟨by rw [same]; rfl, ?_, _, answer, rfl, rfl⟩
  show (serve q 0xC (tamperMet lt pf pv) s).bk.inputs.mapIdx _ = _
  rw [kept]

/-- Settles O40, clause by clause: requests turned away, the ones any lane may make, and those of the active lane in turn. -/
theorem barrierRequests : Obligations.BarrierRequests :=
  ⟨fun _ _ _ _ _ _ _ _ _ _ _ _ _ _ _ _ _ _ _ _ _ => requests_otherLane,
    fun _ _ _ _ _ _ _ _ _ _ _ _ _ _ _ _ _ _ => requests_halted,
    fun _ _ _ _ _ _ _ => requests_sealed,
    fun _ _ _ _ _ _ _ => requests_unforwarded,
    fun _ _ _ => barrierMessageError_answered,
    fun _ _ other => barrierStatus_answered (.inl other),
    fun _ _ _ ready reported => barrierStatus_answered (.inr ⟨ready, reported⟩),
    fun _ _ => barrierKey_answered,
    fun _ _ _ _ => reads_answered,
    fun _ _ _ _ own => ⟨fun many => .of rfl (serve_logRead own (logRead_tooMany many)),
      fun _ _ few oldest newest => .of rfl (serve_logRead own (logRead_entries few oldest newest)) fun _ _ => rfl⟩,
    fun _ _ _ => barrierTime_adjusts,
    fun _ _ _ => barrierTime_sets,
    fun _ _ _ _ _ _ => sessions_answered,
    fun _ _ _ _ _ => barrierCalendar_answered,
    fun _ _ _ _ _ _ _ => sealedRequests_answered,
    fun _ _ _ _ _ _ _ own running => .of rfl (serve_own (op := 9) own running rfl) fun _ _ => rfl,
    fun _ _ _ _ _ => barrierTamper_acknowledges⟩

end Sys2Proof.Machine
end

section
/-! PROOF. Messages of the metrology section at a lane: snapshots, logbook copies and signed records (R249, R265, R380). -/

namespace Sys2Proof.Machine
set_option Elab.async false

/-- A booted lane runs its firmware. -/
theorem laneRuns_booted {x : LaneState} (h : 7 ≤ x.ctl.bootStep) : laneRuns x = true := decide_eq_true h

/-! ## Snapshots (R249) -/

theorem startSnapshot_due {k} {n g : U64} {x} (h : 7 ≤ x.ctl.bootStep) (due : n.toNat % k = 0) :
    startSnapshot k n g x = { x with reading := some { number := n, legal := g, blocks := [] } } :=
  if_pos (by simp [laneRuns_booted h, due])

theorem startSnapshot_notDue {k} {n g : U64} {x} (h : n.toNat % k ≠ 0) : startSnapshot k n g x = x := if_neg (by simp [h])

theorem publishSnapshot_whole {k x} (h : x.reading = some k) (whole : ∀ b < 292, (k.blocks.any fun p => p.1 == b) = true) :
    publishSnapshot x = { x with published := some k, reading := none } := by
  have held : snapshotWhole k = true := List.all_eq_true.2 fun b hb => whole b (List.mem_range.1 hb)
  unfold publishSnapshot
  rw [h]
  exact if_pos held

theorem milestoneReceived_starts {s l n g c} (h : 7 ≤ (s.lane l).ctl.bootStep) (due : n.toNat % cfgN s 0x4130 3 = 0) :
    Completes (.milestoneReceived l n g c) s fun t =>
      (t.lane l).reading = some { number := n, legal := g, blocks := [] } ∧ (t.lane l).published = (s.lane l).published := by
  refine .of rfl ?_
  rw [State.lane_modLane, startSnapshot_due h due]
  exact ⟨rfl, rfl⟩

theorem milestoneReceived_passes {s l n g c} (h : n.toNat % cfgN s 0x4130 3 ≠ 0) :
    Completes (.milestoneReceived l n g c) s fun t => (t.lane l).reading = (s.lane l).reading := by
  refine .of rfl ?_
  rw [State.lane_modLane, startSnapshot_notDue h]

theorem snapshotPublish_publishes {s l k} (h : (s.lane l).reading = some k)
    (whole : ∀ b < 292, (k.blocks.any fun p => p.1 == b) = true) :
    Completes (.snapshotPublish l) s fun t => (t.lane l).published = some k ∧ (t.lane l).reading = none := by
  refine .of rfl ?_
  rw [State.lane_modLane, publishSnapshot_whole h whole]
  exact ⟨rfl, rfl⟩

theorem snapshotAbandon_keeps {s l} :
    Completes (.snapshotAbandon l) s fun t => (t.lane l).reading = none ∧ (t.lane l).published = (s.lane l).published := by
  refine .of rfl ?_
  rw [State.lane_modLane]
  exact ⟨rfl, rfl⟩

/-! ## Logbook copies (R380) -/

theorem logCopyReceived_writes {s l e} (h : 7 ≤ (s.lane l).ctl.bootStep) :
    Completes (.logCopyReceived l e) s fun t =>
      ∃ v, (t.lane l).evq = (s.lane l).evq ++ [v] ∧ v.kind = .logCopy ∧ v.code = e.code.setWidth 8 ∧ v.data = (padTo 12 e.data).take 12 := by
  refine .of rfl ?_
  rw [State.lane_modLane, logCopyLane, if_pos (laneRuns_booted h)]
  exact ⟨_, rfl, rfl, rfl, rfl⟩

/-! ## Data appended to a stream leaves the highest record number -/

theorem reclaim_lastSigned {p n} : (reclaim p n).lastSigned = n.lastSigned := by
  unfold reclaim
  split
  · rfl
  · split <;> rfl

theorem openBlk_lastSigned {st avoid n} : (openBlk st avoid n).1.lastSigned = n.lastSigned := by
  unfold openBlk
  dsimp only
  split <;> exact reclaim_lastSigned

theorem allocStream_lastSigned {st n} : (allocStream st n).lastSigned = n.lastSigned := by
  unfold allocStream
  dsimp only
  split
  · exact openBlk_lastSigned.trans openBlk_lastSigned
  · exact openBlk_lastSigned

/-- A step that leaves the highest record number leaves it over a list. -/
theorem foldl_lastSigned {α : Type} {f : Nand → α → Nand} (h : ∀ n a, (f n a).lastSigned = n.lastSigned) (as : List α) (n : Nand) :
    (as.foldl f n).lastSigned = n.lastSigned := by
  induction as generalizing n with
  | nil => rfl
  | cons a as ih => exact (ih _).trans (h n a)

theorem appendPage_lastSigned {st n data} : (appendPage st n data).lastSigned = n.lastSigned := by
  unfold appendPage
  dsimp only
  refine (foldl_lastSigned ?written _ _).trans ?opened
  case written => exact fun _ _ => rfl
  case opened =>
    split
    · exact allocStream_lastSigned
    · rfl

theorem appendStream_lastSigned {st data n} : (appendStream st data n).lastSigned = n.lastSigned :=
  foldl_lastSigned (fun _ _ => appendPage_lastSigned) _ _

theorem recheckSpares_nand {s} : (recheckSpares s).nand = s.nand := (recheckSpares_only (l := .a)).1 .nand (by decide)

theorem archive_lastSigned {st data s} : (archive st data s).nand.lastSigned = s.nand.lastSigned := by
  unfold archive
  split
  · rw [recheckSpares_nand]
    exact appendStream_lastSigned
  · rfl

/-! ## Signed records (R265, R409) -/

theorem writeSigned_lastSigned {s r} :
    (writeSigned s r).nand.lastSigned = some (highestSigned s.nand.lastSigned r.number) := by
  show some (highestSigned (archive _ _ s).nand.lastSigned _) = _
  rw [archive_lastSigned]

/-- A record that is not above the highest number is covered by it. -/
theorem signedAbove_eq_false {o r} : signedAbove o r = false ↔ ∃ n, o = some n ∧ r.number.toNat ≤ n.toNat := by
  cases o <;> simp [signedAbove]

theorem signedAbove_highest_self {o} {r : SignedRecord} : signedAbove (some (highestSigned o r.number)) r = false := by
  refine signedAbove_eq_false.2 ⟨_, rfl, ?_⟩
  cases o with
  | none => exact le_rfl
  | some k =>
    dsimp only [highestSigned]
    split <;> omega

theorem signedAbove_highest {o r n} (h : signedAbove o r = false) : signedAbove (some (highestSigned o n)) r = false := by
  obtain ⟨k, rfl, covered⟩ := signedAbove_eq_false.1 h
  refine signedAbove_eq_false.2 ⟨_, rfl, ?_⟩
  dsimp only [highestSigned]
  split <;> omega

/-- After records are written, each of them is covered, and so is each that was before. -/
theorem foldl_writeSigned_covers {r} (rs : List SignedRecord) (s : State) (h : signedAbove s.nand.lastSigned r = false ∨ r ∈ rs) :
    signedAbove (rs.foldl writeSigned s).nand.lastSigned r = false := by
  induction rs generalizing s with
  | nil => exact h.resolve_right List.not_mem_nil
  | cons q rs ih =>
    refine ih _ ?_
    rw [writeSigned_lastSigned]
    obtain before | written := h
    · exact .inl (signedAbove_highest before)
    · obtain rfl | later := List.mem_cons.1 written
      · exact .inl signedAbove_highest_self
      · exact .inr later

/-- The active lane's archiving of what it holds: nothing is left to hold, and each record it held is covered. -/
theorem flushSigned_active {s l r} (ha : activeLane s = some l) (hw : nandWorks s = true) (hr : r ∈ (s.lane l).signed) :
    ((flushSigned l s).lane l).signed = [] ∧ signedAbove (flushSigned l s).nand.lastSigned r = false := by
  unfold flushSigned
  dsimp only
  rw [if_pos ⟨ha, hw⟩, State.lane_modLane, State.modLane_nand]
  refine ⟨rfl, foldl_writeSigned_covers _ s ?_⟩
  cases above : signedAbove s.nand.lastSigned r with
  | false => exact .inl rfl
  | true => exact .inr (List.mem_filter.2 ⟨hr, above⟩)

theorem flushSigned_other {s l} (h : activeLane s ≠ some l) :
    flushSigned l s = s.modLane l fun x => { x with signed := (s.lane l).signed.filter (signedAbove s.nand.lastSigned) } :=
  if_neg fun active => h active.1

/-- State s with record r among those lane l holds. -/
def signedHeld (l : Lane) (r : SignedRecord) (s : State) : State := s.modLane l fun x => { x with signed := x.signed ++ [r] }

theorem signedHeld_signed {l r s} : ((signedHeld l r s).lane l).signed = (s.lane l).signed ++ [r] := by
  rw [signedHeld, State.lane_modLane]

theorem activeLane_signedHeld {l r s} : activeLane (signedHeld l r s) = activeLane s := activeLane_congr (State.modLane_jct _ _ _)

theorem nandWorks_signedHeld {l r s} : nandWorks (signedHeld l r s) = nandWorks s := by
  unfold nandWorks
  rw [activeLane_signedHeld]
  simp only [signedHeld, State.modLane_nand, State.modLane_modes]

theorem signedReceivedEffect_booted {s l r} (h : 7 ≤ (s.lane l).ctl.bootStep) :
    signedReceivedEffect l r s = flushSigned l (signedHeld l r s) := if_pos (laneRuns_booted h)

theorem signedReceived_active {s l r} (h : 7 ≤ (s.lane l).ctl.bootStep) (ha : activeLane s = some l) (hw : nandWorks s = true) :
    Completes (.signedReceived l r) s fun t =>
      (t.lane l).signed = [] ∧ ∃ n, t.nand.lastSigned = some n ∧ r.number.toNat ≤ n.toNat := by
  have held : r ∈ ((signedHeld l r s).lane l).signed := by simp [signedHeld_signed]
  refine .of rfl ?_
  rw [signedReceivedEffect_booted h, ← signedAbove_eq_false]
  exact flushSigned_active (activeLane_signedHeld.trans ha) (nandWorks_signedHeld.trans hw) held

theorem signedReceived_other {s l r} (h : 7 ≤ (s.lane l).ctl.bootStep) (ha : activeLane s ≠ some l) :
    Completes (.signedReceived l r) s fun t =>
      (t.lane l).signed = ((s.lane l).signed ++ [r]).filter (signedAbove s.nand.lastSigned) ∧ t.nand = s.nand := by
  have nand : (signedHeld l r s).nand = s.nand := State.modLane_nand _ _ _
  refine .of rfl ?_
  rw [signedReceivedEffect_booted h, flushSigned_other (activeLane_signedHeld.trans_ne ha), State.lane_modLane, State.modLane_nand,
    signedHeld_signed, nand]
  exact ⟨rfl, rfl⟩

/-- Settles O15, clause by clause: a milestone record, a snapshot published or abandoned, a logbook copy, a signed record. -/
theorem sectionMessagesAtLane : Obligations.SectionMessagesAtLane :=
  ⟨fun _ _ _ _ _ => milestoneReceived_starts, fun _ _ _ _ _ => milestoneReceived_passes, fun _ _ _ => snapshotPublish_publishes,
    fun _ _ => snapshotAbandon_keeps, fun _ _ _ => logCopyReceived_writes, fun _ _ _ => signedReceived_active,
    fun _ _ _ => signedReceived_other⟩

end Sys2Proof.Machine
end

section
/-! PROOF. A command completes with what is known of its effect. -/

namespace Sys2Proof.Machine
set_option Elab.async false

/-- A command whose effect is known completes with what holds of it. -/
theorem Completes.run {c s e t} {P : State → Prop} (arm : exec c s = .next e) (effect : e = t) (h : P t) : Completes c s P :=
  .of (arm.trans (congrArg Host.Outcome.next effect)) h

end Sys2Proof.Machine
end

section
/-! PROOF. Every command stays within its footprint, the queue of waiting commands is in none, and what an idle tick does. -/

namespace Sys2Proof.Machine
set_option Elab.async false

theorem OnlyNext.of {dev dg : List Part} {l own rest og rg s x} (h : Only dg l og rg s x) (hd : dg ⊆ dev := by decide)
    (ho : og ⊆ own := by decide) (hr : rg ⊆ rest := by decide) : OnlyNext dev l own rest s (.next x) := .next (h.weaken hd ho hr)

theorem exec_only (c : Instr) (s : State) :
    OnlyNext (footprint c).units (footprint c).lane (footprint c).own (footprint c).rest s (exec c s) := by
  cases c
  all_goals dsimp only [footprint]
  case periodBoundary => exact .next (.step periodBoundaryEffect_only captureGuard_only)
  case upFrameReceived => exact .of upFrameEffect_only
  case frameBankClose => exact .of frameBankCloseEffect_only
  case accumulatorTake => exact .next (.modLane .refl fun _ => .step (.mono thermalTake_only) shareTake_only)
  case slotStart => exact .of slotStartEffect_only
  case slotWriteback => exact .next (.modLane .refl fun _ => writebackLane_only)
  case outputLatch => exact .of outputLatchEffect_only
  case digestEntrySend => exact .of digestEntryEffect_only
  case alignmentMarkerReceived => exact .of alignmentEffect_only
  case queueEnqueue => exact .of queueEnqueueEffect_only
  case queueDequeue => exact .next (.modLane .refl fun _ => LaneState.modQueue_only)
  case queueRetire => exact .of queueRetireEffect_only
  case fastStoreWrite => exact .of fastStoreWriteEffect_only
  case railFault => exact .of railFaultEffect_only
  case railRecovered => exact .of railRecoveredEffect_only
  case railShortExcursion => exact .next (.ite .refl modRails_only)
  case resetPin => exact .next (.ite (.step (.weaken safeExit_only) plainReset_only) .refl)
  case resetRelease => exact .of resetReleaseEffect_only
  case junctionBoot => exact .of junctionBootEffect_only
  case laneBoot => exact .of laneBootEffect_only
  case activeLaneAppoint => exact .of appointEffect_only
  case laneBootTimeout => exact .of laneBootTimeoutEffect_only
  case laneWatchdogExpiry => exact .of laneWatchdogEffect_only
  case powerFailWarning => exact .of powerFailWarningEffect_only
  case powerFailEnd => exact .of powerFailEndEffect_only
  case powerFailSafeExit => exact .next (.ite (.step (.weaken safeExit_only) plainReset_only) .refl)
  case junctionCrystalLost => exact .of junctionLose_only
  case metrologyCrystalLost => exact .next (.step .refl modMet_only)
  case metrologyCrystalReturn => exact .next (.ite (.step .refl modMet_only) .refl)
  case backupCrystalLost => exact .next (.step (.weaken modBk_only) reselect_only)
  case dieTempReading => exact .of dieTempEffect_only
  case railFaultLatchClear => exact .weaken execRailFaultLatchClear_only
  case modeRequestWrite => exact .weaken execModeRequestWrite_only
  case modeRequestTaken => exact .of modeRequestTakenEffect_only
  case resetRequest => exact .weaken execResetRequest_only
  case safeEntry => exact .next (.ite takeSafe_only .refl)
  case safeRampEnd => exact .of safeRampEndEffect_only
  case safeNAssert => exact .of safeNAssertEffect_only
  case resetCauseClear => exact .weaken execResetCauseClear_only
  case objectWrite => exact .of writeObject_only
  case liveWrite => exact .of writeObject_only
  case usdoTimeout => exact .of usdoTimeoutEffect_only
  case udpDatagramReceived => exact .of udpEffect_only
  case nmtStart => exact .of nmtGo_only
  case nmtStop => exact .of nmtGo_only
  case nmtEnterPreoperational => exact .of nmtGo_only
  case nmtResetCommunication => exact .next (.ite resetComm_only .refl)
  case heartbeatProduce => exact .of heartbeatEffect_only
  case rpdoReceived => exact .of rpdoEffect_only
  case tpdoEvent => exact .of tpdoEffect_only
  case liveWritePublish => exact .of publishEffect_only
  case shadowCommit => exact .weaken execShadowCommit_only
  case commitChecksComplete => exact .of commitDoneEffect_only
  case shadowReopen => exact .weaken execShadowReopen_only
  case shadowSwap => exact .weaken execShadowSwap_only
  case shadowReload => exact .weaken execShadowReload_only
  case swapTaken => exact .of swapTakenEffect_only
  case swapReadyReport => exact .of swapReadyEffect_only
  case swapFlip => exact .next (.ite (.weaken missBoundary_only) (.step swapFlipEffect_only captureGuard_only))
  case setCopyComplete => exact .of copyDoneEffect_only
  case setFlagsClear => exact .weaken execSetFlagsClear_only
  case linkSyncAcquired => exact .next (.modLane .refl fun _ => linkSyncLane_only)
  case linkSyncLost => exact .of linkSyncLostEffect_only
  case linkUp => exact .of linkUpEffect_only
  case linkFail => exact .of linkFailEffect_only
  case linkFailRetryExpiry => exact .next (.modLane .refl fun _ => linkRetryLane_only)
  case seqAdopt => exact .next (.modLane .refl fun _ => seqAdoptLane_only)
  case tileNop => exact .weaken runTile_only
  case tileLdp => exact .weaken runTile_only
  case tileLdk => exact .weaken runTile_only
  case tileMov => exact .weaken runTile_only
  case tileSto => exact .weaken runTile_only
  case tileAdd => exact .weaken runTile_only
  case tileSub => exact .weaken runTile_only
  case tileMul => exact .weaken runTile_only
  case tileMac => exact .weaken runTile_only
  case tileClp => exact .weaken runTile_only
  case tileRnm => exact .weaken runTile_only
  case tileInt => exact .weaken runTile_only
  case tileDrv => exact .weaken runTile_only
  case tileFlt => exact .weaken runTile_only
  case tileSel => exact .weaken runTile_only
  case tileCmp => exact .weaken runTile_only
  case tileRmp => exact .weaken runTile_only
  case tileTsi => exact .weaken runTile_only
  case tileCap => exact .step (.ite (.weaken captureTake_only) .refl) (.weaken runTile_only)
  case tileChk => exact .weaken runTile_only
  case tileEccError => exact .of tileEccEffect_only
  case captureArm => exact .weaken execCaptureArm_only
  case captureForceTrigger => exact .weaken execCaptureForceTrigger_only
  case captureStop => exact .weaken execCaptureStop_only
  case captureTrigger => exact .of captureTriggerEffect_only
  case captureComplete => exact .of captureCompleteEffect_only
  case loopEnable => exact .of ifPermitted_only
  case loopDisable => exact .of ifPermitted_only
  case loopFaultReset => exact .of ifPermitted_only
  case loopCommandTaken => exact .of loopCommandTakenEffect_only
  case loopBlockEnable => exact .of loopBlockEnableEffect_only
  case loopStopTimeout => exact .of loopStopTimeoutEffect_only
  case faultRampEnd => exact .of faultRampEndEffect_only
  case injectionArm => exact .weaken execInjectionArm_only
  case injectionStop => exact .weaken execInjectionStop_only
  case injectionStart => exact .of injectionStartEffect_only
  case injectionComplete => exact .of injectionCompleteEffect_only
  case shareRunStart => exact .of shareRunStartEffect_only
  case shareApply => exact .next (.ite (.step (.modLane .refl fun _ => shareApplyLane_only) captureGuard_only) .refl)
  case shareIncreaseApply => exact .next (.ite (.step (.modLane .refl fun _ => shareIncreaseLane_only) captureGuard_only) .refl)
  case policyNop => exact .weaken runPolicyIns_only
  case policyLdi => exact .weaken runPolicyIns_only
  case policyLdk => exact .weaken runPolicyIns_only
  case policyLkh => exact .weaken runPolicyIns_only
  case policyAdd => exact .weaken runPolicyIns_only
  case policySub => exact .weaken runPolicyIns_only
  case policyMul => exact .weaken runPolicyIns_only
  case policyDiv => exact .weaken runPolicyIns_only
  case policyMin => exact .weaken runPolicyIns_only
  case policyMax => exact .weaken runPolicyIns_only
  case policyCmp => exact .weaken runPolicyIns_only
  case policySel => exact .weaken runPolicyIns_only
  case policyOut => exact .weaken runPolicyIns_only
  case stringContactorHoldExpiry => exact .next (.modLane .refl fun _ => contactorHoldLane_only)
  case gridStatusReceived => exact .of gridStatusEffect_only
  case gridStatusStale => exact .of gridStatusStaleEffect_only
  case federationShareSend => exact .of federationShareSendEffect_only
  case federationReportSend => exact .of federationReportSendEffect_only
  case federationShareReceived => exact .of federationShareEffect_only
  case federationReportReceived => exact .of federationReportEffect_only
  case federationFallback => exact .of federationFallbackEffect_only
  case leaderTakeover => exact .of leaderTakeoverEffect_only
  case reassessment => exact .of reassessmentEffect_only
  case moveStepAdvance =>
      exact .next (.ite (.step (.modLane .refl fun _ => moveAdvanceLane_only) captureAbort_only) (.modLane .refl fun _ => moveAdvanceLane_only))
  case moveStepTimeout => exact .next (.step (.modLane .refl fun _ => moveTimeoutLane_only) recheckSpares_only)
  case moveRampUp => exact .next (.modLane .refl fun _ => moveRampUpLane_only)
  case moduleTakeover => exact .next (.modLane .refl fun _ => moduleTakeoverLane_only)
  case thetaWindowClose => exact .next (.step (.modLane .refl fun _ => thetaWindowLane_only) recheckSpares_only)
  case tileRelief => exact .next (.step (.step (.modLane .refl fun _ => .mono tileReliefLane_only) captureGuard_only) recheckSpares_only)
  case spareTileTakeover => exact .next (.step (.step (.modLane .refl fun _ => .mono spareTakeoverLane_only) captureGuard_only) recheckSpares_only)
  case rotatingTileTest =>
      exact .next (.ite (.step (.step (.modLane .refl fun _ => .mono rotatingTestLane_only) captureGuard_only) recheckSpares_only) .refl)
  case tileTestComplete => exact .next (.step (.modLane .refl fun _ => tileTestLane_only) recheckSpares_only)
  case nandBlockAllocate => exact .of nandAllocateEffect_only
  case nandStaticRelocation => exact .of nandRelocationEffect_only
  case thermalUpdate => exact .of thermalUpdateEffect_only
  case thermalPublish => exact .of thermalPublishEffect_only
  case sensorRelease => exact .weaken execSensorRelease_only
  case metrologyVmetWarning => exact .next (.step .refl modMet_only)
  case metrologyStart => exact .next (.ite (.step .refl modMet_only) .refl)
  case powerFailMilestone => exact .next (.step .refl modMet_only)
  case milestone => exact .next (.step (.step .refl modMet_only) recheckSpares_only)
  case acEnergySample => exact .next (.step .refl modMet_only)
  case voltageEventStart => exact .next (.step .refl modMet_only)
  case voltageEventEnd => exact .next (.step .refl modMet_only)
  case gridStatusSend => exact .next (.ite (.step (.step .refl modMet_only) State.useFree_only) .refl)
  case tapRecordReceived => exact .of tapReceivedEffect_only
  case pulseOutputEdge => exact .next (.ite (.step .refl modMet_only) .refl)
  case pulseInputCount => exact .next (.ite (.step .refl modMet_only) .refl)
  case reconciliation => exact .next (.step .refl modMet_only)
  case sealOpen => exact .next (.step .refl modMet_only)
  case sealClose => exact .next (.step .refl modMet_only)
  case barrierStatus => exact .of statusEffect_only
  case barrierRead => exact .of barrierReadEffect_only
  case signedRecordRead => exact .of serve_only
  case barrierLogRead => exact .next (.step (.step .refl serve_only) State.useFree_only)
  case barrierTime => exact .of serve_only
  case barrierSessionOpen => exact .of serve_only
  case barrierSessionClose => exact .of serve_only
  case barrierCalendar => exact .of serve_only
  case barrierCalWrite => exact .next (.step (.step .refl serve_only) State.useFree_only)
  case barrierConfigWrite => exact .next (.step (.step .refl serve_only) State.useFree_only)
  case barrierPqWrite => exact .of serve_only
  case barrierImage => exact .of serve_only
  case barrierKey => exact .of serve_only
  case barrierTamper => exact .of barrierTamperEffect_only
  case milestoneReceived => exact .next (.modLane .refl fun _ => startSnapshot_only)
  case snapshotPublish => exact .next (.modLane .refl fun _ => publishSnapshot_only)
  case snapshotAbandon => exact .next (.modLane .refl fun _ => .reading .refl)
  case logCopyReceived => exact .next (.modLane .refl fun _ => logCopyLane_only)
  case signedReceived => exact .of signedReceivedEffect_only
  case junctionVerdict => exact .of junctionVerdictEffect_only
  case verdictTakeEffect => exact .of verdictTakeEffectEffect_only
  case crossoverOutputEnable => exact .of crossoverEnableEffect_only
  case plannedCrossoverRequest => exact .weaken execPlannedCrossoverRequest_only
  case plannedCrossoverTaken => exact .of plannedTakenEffect_only
  case plannedCrossover => exact .of plannedCrossoverEffect_only
  case releaseExcludedLane => exact .weaken execReleaseExcludedLane_only
  case failedLaneRelease => exact .of failedReleaseEffect_only
  case resyncJoinNamed => exact .of joinNamedEffect_only
  case snapshotSlowCapture => exact .of slowCaptureEffect_only
  case resyncJoin => exact .of resyncJoinEffect_only
  case resyncComplete => exact .of resyncCompleteEffect_only
  case memoryMarchBlock => exact .next (.ite (.modLane .refl fun _ => marchLane_only) .refl)
  case receiverLoopTest => exact .next (.ite (.step (.modLane .refl fun _ => rxTestLane_only) recheckSpares_only) .refl)
  case junctionRestart => exact .of junctionRestartEffect_only
  case junctionRomCheck => exact .next (.ite .refl junctionLose_only)
  case rtcSiteTimeCompare => exact .of rtcCompareEffect_only
  case rtcAlarm => exact .of rtcAlarmEffect_only
  case rtcWrite => exact .weaken execRtcWrite_only
  case pfiWake => exact .next (.ite (.step wakeBy_only modBk_only) .refl)
  case tamperInputLatch => exact .of tamperLatchEffect_only
  case tamperHandover => exact .of tamperHandoverEffect_only
  case tamperLatchClear => exact .weaken execTamperLatchClear_only
  case securityTamper => exact .of securityTamperEffect_only
  case pilotStateAccepted => exact .next (.ite .refl pilotAcceptedEffect_only)
  case plugDetected => exact .of plugDetectedEffect_only
  case pilotX2Start => exact .of pilotX2Effect_only
  case cmSlacParmReq => exact .of slacParmEffect_only
  case cmStartAttenChar => exact .of attenEffect_only
  case cmSlacMatch => exact .of slacMatchEffect_only
  case cmValidateReq => exact .of validateEffect_only
  case seccDiscoveryReq => exact .of discoveryEffect_only
  case supportedAppProtocolReq => exact .next (inState_only fun _ => appProtocol_only)
  case sessionSetupReq => exact .next (inState_only fun _ => .weaken sessionSetup_only)
  case authorizationReq => exact .of authorizationEffect_only
  case sessionStart => exact .of sessionStartEffect_only
  case chargeParameterDiscoveryReq => exact .next (inState_only fun _ => .weaken parameterDiscovery_only)
  case cableCheckPass => exact .of cableCheckEffect_only
  case prechargeReq => exact .next (inState_only fun _ => .weaken precharge_only)
  case chargeLoopReq => exact .next (inState_only fun _ => .weaken chargeLoop_only)
  case vehicleStopRequest => exact .next (.ite (.step (.ite (.weaken answer_only) .refl) stopSess_only) .refl)
  case hostAuthorizationWrite => exact .weaken execHostAuthorizationWrite_only
  case isolationStateWrite => exact .weaken execIsolationStateWrite_only
  case isolationStale => exact .next (.ite stopSess_only .refl)
  case sessionTimeout => exact .of timeoutEffect_only
  case thermalHoldExpiry => exact .next (.ite stopSess_only .refl)
  case sessionEnd => exact .next (.ite .refl stopSess_only)
  case sessionEnded => exact .of endedEffect_only
  case sessionIdle => exact .of backToIdle_only
  case bridgePeerGone => exact .of peerGoneEffect_only
  case canFrameReceived => exact .next (.ite modChan_only .refl)
  case canFrameSent => exact .of canFrameSentEffect_only
  case canFrameCancel => exact .of modChan_only
  case canBusOff => exact .of canBusOffEffect_only
  case canBusOffRecovery => exact .of modChan_only
  case channelSleep => exact .weaken execChannelSleep_only
  case channelWakeCommand => exact .weaken execChannelWakeCommand_only
  case channelRestart => exact .weaken execChannelRestart_only
  case channelWake => exact .of channelWakeEffect_only
  case wakeD => exact .next (.ite wakeBy_only .refl)
  case referenceMessageSend => exact .of refSendEffect_only
  case referenceMessageReceived => exact .of refReceivedEffect_only
  case scheduleLost => exact .of scheduleLostEffect_only
  case exclusiveWindowStart => exact .of windowStartEffect_only
  case windowEnd => exact .of modChan_only
  case ptpSyncReceived => exact .of ptpSyncEffect_only
  case ptpAnnounceReceived => exact .of ptpAnnounceEffect_only
  case ptpDelayResp => exact .next (.ite modSite_only .refl)
  case ptpLockLost => exact .of ptpLockLostEffect_only
  case beaconSend => exact .next (.ite modTri_only .refl)
  case trievoFrameSend => exact .of triSendEffect_only
  case trievoDataReceived => exact .of triReceived_only
  case trievoAckReceived => exact .of triReceived_only
  case trievoAssocReqReceived => exact .of triReceived_only
  case trievoStatusReceived => exact .of triReceived_only
  case ackTimeout => exact .of ackTimeoutEffect_only
  case phaseLearning => exact .of phaseEffect_only
  case peerLost => exact .of peerLostEffect_only
  case mailboxTransmit => exact .weaken execMailboxTransmit_only
  case mailboxReceiveRead => exact .of mailboxReadEffect_only
  case keyInstall => exact .weaken updateRow_only
  case keyReplace => exact .weaken updateRow_only
  case keyInvalidate => exact .weaken updateRow_only
  case ownerAuthorityReplace => exact .weaken updateRow_only
  case lifeCycleChange => exact .weaken updateRow_only
  case keyGenerate => exact .weaken updateRow_only
  case keyStatement => exact .weaken execKeyStatement_only
  case certificationRequest => exact .weaken execCertificationRequest_only
  case keystoreSign => exact .next (.step (.weaken keyRequest_only) State.useFree_only)
  case keystoreVerify => exact .of keyRequest_only
  case keystoreKeyAgreement => exact .of keyRequest_only
  case keystoreEncrypt => exact .next (.step (.weaken keyRequest_only) State.useFree_only)
  case keystoreDecrypt => exact .of keyRequest_only
  case keystoreWrap => exact .of keyRequest_only
  case keystoreDerive => exact .next (.ite .refl deriveEffect_only)
  case keystoreHash => exact .of hashEffect_only
  case keyReplicationReceived => exact .of replicationEffect_only
  case eventWrite => exact .of eventWriteEffect_only
  case eventFlush => exact .of flushLane_only
  case eventArchive => exact .of eventArchiveEffect_only
  case eventRead => exact .next (.ite eventReadEffect_only .refl)
  case eventClear => exact .weaken execEventClear_only
  case nandRequest => exact .of nandRequestEffect_only
  case readDisturbRefresh => exact .of readDisturbEffect_only
  case scrubPage => exact .of scrubEffect_only
  case loadProfileWrite => exact .of loadProfileEffect_only
  case vbusAttach => exact .of modUpd_only
  case serviceOpen => exact .of serviceRun_only
  case serviceData => exact .of serviceRun_only
  case serviceClose => exact .next (.step (.weaken serviceRun_only) recoverFrom_only)
  case serviceStatus => exact .of serviceRun_only
  case serviceErase => exact .of serviceRun_only
  case activationRolling => exact .weaken execActivationRolling_only
  case activationFullRestart => exact .weaken execActivationFullRestart_only
  case activationAbort => exact .weaken execActivationAbort_only
  case rollingSequenceAdvance => exact .of sequenceAdvance_only
  case hostConfirm => exact .weaken execHostConfirm_only
  case healthConfirm => exact .of confirmEffect_only
  case unconfirmedTimeout => exact .of unconfirmedEffect_only
  case backupEntry => exact .of backupEntryEffect_only
  case plugLost => exact .of plugLostEffect_only
  case protocolError => exact .of failMessage_only
  case barrierMessageError => exact .next (.step .refl modMet_only)
  case ptpHoldoverExpiry => exact .of ptpHoldoverExpiryEffect_only
  case vbusDetach => exact .of modUpd_only

/-- Settles O47: every command answers a next state, and only the parts of its footprint change. -/
theorem commandFootprint : Obligations.CommandFootprint := fun c s =>
  (exec_completes c s).imp fun _ run => ⟨run, exec_only c s _ run⟩

/-! ## The queue of waiting commands -/

theorem step_cons {c q s} (h : s.pending = c :: q) : step s = exec c { s with pending := q } := by
  unfold step
  rw [h]

theorem pending_notMem_footprint (c : Instr) : Part.pending ∉ (footprint c).units := by
  cases c <;> exact of_decide_eq_true rfl

/-- Settles O50: the queue of waiting commands is in no command's footprint. -/
theorem stepShortensQueue : Obligations.StepShortensQueue := fun c _ _ t front run =>
  (exec_only c _ t ((step_cons front).symm.trans run)).1 .pending (pending_notMem_footprint c)

/-- Settles O48: a step is exec of the front command on the queue's rest. -/
theorem stepRunsFrontCommand : Obligations.StepRunsFrontCommand := fun _ _ _ => step_cons rfl


/-! ## The idle tick (R219, R288) -/

theorem rtcTick_only {s l} : Only [.bk] l [] [] s (rtcTick s) := by
  unfold rtcTick
  exact .ite .refl (.bk .refl)

theorem idleTick_only {s l} : Only [.bk, .met, .chans] l [.ks] [.ks] s (idleTick s) := by
  unfold idleTick
  exact .bothLanes (.chans (.step (.weaken rtcTick_only) modMet_only)) fun _ => .ks .refl

theorem idleTick_bk {s} : (idleTick s).bk = (rtcTick s).bk := rfl

theorem rtcTick_powered {s} (h : Rail.vbk ∉ s.rails.out ∨ Rail.vio ∉ s.rails.out) :
    (rtcTick s).bk = { s.bk with rtc := s.bk.rtc + 1 } := by
  have counts : ¬((s.rails.out.contains .vbk && s.rails.out.contains .vio) = true) := by
    simp only [Bool.and_eq_true, List.contains_iff_mem]
    tauto
  unfold rtcTick
  rw [if_neg counts]

theorem rtcTick_unpowered {s} (hb : Rail.vbk ∈ s.rails.out) (hi : Rail.vio ∈ s.rails.out) : rtcTick s = s :=
  if_pos (by simp [hb, hi])

theorem metTick_cycles {c} : (metTick c).cycles = c.cycles + if c.st = .halted ∧ c.halt = 2 then 0 else 750 := by
  unfold metTick
  split
  · rfl
  · split <;> rfl

theorem idleTick_cycles {s} : (idleTick s).met.ctl.cycles = (metTick s.met.ctl).cycles := by
  unfold idleTick rtcTick
  split <;> rfl

theorem step_idle {s} (h : s.pending = []) : step s = .next (idleTick s) := by
  unfold step
  rw [h]

/-- Settles O49, part by part: what the tick leaves, the RTC, the metrology crystal. -/
theorem idleTickStep : Obligations.IdleTick := fun s idle =>
  have keep : Only [.bk, .met, .chans] .a [.ks] [.ks] s (idleTick s) := idleTick_only
  ⟨idleTick s, step_idle idle, keep.1, keep.laneA, keep.laneB, fun vbk => idleTick_bk.trans (rtcTick_powered (.inl vbk)),
    fun vbk vio => idleTick_bk.trans (congrArg State.bk (rtcTick_unpowered vbk vio)), idleTick_cycles.trans metTick_cycles⟩

end Sys2Proof.Machine
end

section
/-! PROOF. Blown fuses of the life cycle stay blown (R372). -/

namespace Sys2Proof.Machine
set_option Elab.async false

/-- Each fuse blown at s is blown at t. -/
def FusesStay (s t : State) : Prop := s.life.fuse &&& t.life.fuse = s.life.fuse

theorem FusesStay.of_eq {s t} (h : t.life.fuse = s.life.fuse) : FusesStay s t := by
  rw [FusesStay, h, BitVec.and_self]

theorem FusesStay.refl {s} : FusesStay s s := .of_eq rfl

theorem FusesStay.trans {s t u} (h : FusesStay s t) (k : FusesStay t u) : FusesStay s u := by
  unfold FusesStay at *
  rw [← h, BitVec.and_assoc, k]

theorem FusesStay.after {s t u} (k : FusesStay t u) (h : FusesStay s t) : FusesStay s u := h.trans k

theorem FusesStay.ite {s a b} {c : Prop} [Decidable c] (ha : FusesStay s a) (hb : FusesStay s b) :
    FusesStay s (if c then a else b) := by split <;> assumption

theorem FusesStay.foldl {α : Type} {s init} {g : State → α → State} {xs : List α} (h : FusesStay s init)
    (hg : ∀ x i, FusesStay x (g x i)) : FusesStay s (xs.foldl g init) := by
  induction xs generalizing init with
  | nil => exact h
  | cons i xs ih => exact ih (h.trans (hg init i))

/-- What leaves the life cycle alone keeps its fuses. -/
theorem Only.fuses {dev l own rest s t} (h : Only dev l own rest s t) (m : Part.life ∉ dev := by decide) : FusesStay s t :=
  .of_eq (congrArg LifeCycle.fuse (h.1 .life m))

theorem lifeMove_fuses {c s} : FusesStay s (lifeMove c s) := by
  unfold lifeMove
  refine .trans ?_ (.trans (State.useFree_only (l := .a)).fuses (recheckSpares_only (l := .a)).fuses)
  unfold FusesStay
  ext i
  simp +contextual

theorem bothLanes_fuses {f s} : FusesStay s (bothLanes f s) := .of_eq rfl

theorem lifeDestroy_fuses {c s} : FusesStay s (lifeDestroy c s) := by
  unfold lifeDestroy
  exact .foldl (.trans (.trans bothLanes_fuses lifeMove_fuses) bothLanes_fuses) fun _ _ => (evt_only (l := .a)).fuses

theorem deviceReset_fuses {s} : FusesStay s (deviceReset s) := .of_eq rfl

theorem latchCause_fuses {n s} : FusesStay s (latchCause n s) := (latchCause_only (l := .a)).fuses

theorem resetWith_fuses {n s} : FusesStay s (resetWith n s) := latchCause_fuses.trans deviceReset_fuses

theorem plainReset_fuses {n s} : FusesStay s (plainReset n s) := (abortSequence_only (l := .a)).fuses.trans resetWith_fuses

theorem safeExit_fuses {s} : FusesStay s (safeExit s) := (safeExit_only (l := .a)).fuses

theorem exitReset_fuses {n s} : FusesStay s (plainReset n (safeExit s)) := safeExit_fuses.trans plainReset_fuses


theorem railRecoveredEffect_fuses {r s} : FusesStay s (railRecoveredEffect r s) := by
  unfold railRecoveredEffect
  have rails (t : State) : FusesStay t (restartLaneIfFree .b (restartLaneIfFree .a t)) :=
    (restartLaneIfFree_only (l := .a)).fuses.trans restartLaneIfFree_only.fuses
  have out {f} (t : State) : FusesStay t (if r = .vbk then modBk f t else t) := .ite (modBk_only (l := .a)).fuses .refl
  have held {f} (t : State) : FusesStay t (modRails f t) := (modRails_only (l := .a)).fuses
  exact .ite .refl (.trans ((held _).trans ((out _).trans (rails _))) (.ite (exitReset_fuses.trans (held _)) .refl))

theorem resetReleaseEffect_fuses {s} : FusesStay s (resetReleaseEffect s) :=
  .trans (.ite deviceReset_fuses .refl) (releaseReset_only (l := .a)).fuses

theorem backupEntryEffect_fuses {s} : FusesStay s (backupEntryEffect s) := by
  unfold backupEntryEffect
  have reset : FusesStay s (noteOff .vio (deviceReset (abortSequence s))) :=
    ((abortSequence_only (l := .a)).fuses.trans deviceReset_fuses).trans (noteOff_only (l := .a)).fuses
  have checked (t : State) : FusesStay t (checkPor t) := (checkPor_only (l := .a)).fuses
  exact .ite .refl (.after (checked _) (reset.trans (.of_eq rfl)))

theorem safeNAssertEffect_fuses {s} : FusesStay s (safeNAssertEffect s) := by
  unfold safeNAssertEffect
  split
  · exact .refl
  · exact .ite (.trans (modJct_only (l := .a)).fuses (.ite exitReset_fuses .refl)) .refl

theorem resetRequestEffect_fuses {v s} : FusesStay s (resetRequestEffect v s) :=
  .ite .refl (.ite exitReset_fuses ((takeSafe_only (l := .a)).fuses.trans (modModes_only (l := .a)).fuses))

/-! ## Boot, breaches, sequences and key messages -/

theorem breachEffect_fuses {s} : FusesStay s (breachEffect s) :=
  .ite (modBk_only (l := .a)).fuses (.ite (lifeDestroy_fuses.trans exitReset_fuses) .refl)

theorem securityTamperEffect_fuses {c k s} : FusesStay s (securityTamperEffect c k s) := by
  unfold securityTamperEffect
  have counts {f} : FusesStay s (modBk f s) := (modBk_only (l := .a)).fuses
  have noted (t : State) {e} : FusesStay t (if t.bk.pfActive then t else evt e t) := .ite .refl (evt_only (l := .a)).fuses
  have lanes (t : State) {q} : FusesStay t (securityLanes q t) := (securityLanes_only (l := .a)).fuses
  exact .ite .refl (.trans (counts.trans ((noted _).trans (lanes _))) (.ite breachEffect_fuses .refl))

theorem bootLife_fuses {s} : FusesStay s (bootLife s).1 := by
  unfold bootLife
  have cleared {f} : FusesStay s (modBk f s) := (modBk_only (l := .a)).fuses
  dsimp only
  split
  · exact lifeMove_fuses
  · split
    · split
      · exact (cleared.trans lifeMove_fuses).trans latchCause_fuses
      · exact cleared
    · exact .refl

theorem modLane_fuses {l f s} : FusesStay s (s.modLane l f) := .of_eq (congrArg LifeCycle.fuse (State.modLane_life s l f))

theorem bootStep2_fuses {l s} : FusesStay s (bootStep2 l s) := bootLife_fuses.trans (modLane_fuses.trans modLane_fuses)

theorem laneBootEffect_fuses {l f s} : FusesStay s (laneBootEffect l f s) := by
  unfold laneBootEffect
  have entered : FusesStay s (if roleOf s l = .failed then setRole l .booting s else s) := .ite setRole_only.fuses .refl
  have step4 (t : State) : FusesStay t (bootStep4 l f (activateSlot l (bootStep3 l f (bootStep2 l t)))) :=
    ((bootStep2_fuses.trans bootStep3_only.fuses).trans activateSlot_only.fuses).trans bootStep4_only.fuses
  have step7 (t : State) : FusesStay t (bootStep7 l f (bootStep6 l (checkRecords l (t.modLane l (bootStep5 f))))) :=
    ((modLane_fuses.trans checkRecords_only.fuses).trans bootStep6_only.fuses).trans bootStep7_only.fuses
  refine .ite .refl (entered.trans ?_)
  generalize (if roleOf s l = .failed then setRole l .booting s else s) = t
  refine .ite modLane_fuses ((step4 t).trans ?_)
  exact .ite .refl (.ite junctionFail_only.fuses (step7 _))

theorem restartStep_fuses {s} : FusesStay s (restartStep s) :=
  .ite (.ite .refl (safeExit_fuses.trans resetWith_fuses)) (.ite (completeSeq_only (l := .a)).fuses .refl)

theorem failedStep_fuses {s} : FusesStay s (failedStep s) := by
  unfold failedStep
  split
  · exact .ite restartLane_only.fuses
      (.ite (.ite (askCrossover_only (l := .a)).fuses (.ite .refl (safeExit_fuses.trans resetWith_fuses))) .refl)
  · exact .refl

theorem sequenceAdvance_fuses {s} : FusesStay s (sequenceAdvance s) := by
  unfold sequenceAdvance
  refine .ite restartStep_fuses ?_
  split
  · exact rollingStep_only.fuses
  · exact failedStep_fuses

theorem keyAnswer_fuses {l n s} : FusesStay s (keyAnswer l n s) := by
  unfold keyAnswer
  exact .trans modKs_only.fuses (.of_eq rfl)

theorem keyCommit_fuses {l m f s} : FusesStay s (keyCommit l m f s) := by
  unfold keyCommit
  have done : FusesStay s (keyAnswer l 0 (evt (eventReq .keyUpdate 127 [m.op.toNat, m.path.toNat, (m.body.getD 0 0).toNat])
      (modKs l (fun k => { f k with counter := m.counter, operations := k.operations + 1, busy := true }) s))) :=
    (modKs_only.fuses.trans (evt_only (l := .a)).fuses).trans keyAnswer_fuses
  exact .ite (done.trans (.of_eq rfl)) done

theorem keyPlace_fuses {l m v s} : FusesStay s (keyPlace l m v s) := by
  unfold keyPlace
  exact .trans (.trans (State.useFree_only (l := .a)).fuses (.ite keyCommit_fuses (modKs_only.fuses.trans keyAnswer_fuses)))
    (recheckSpares_only (l := .a)).fuses

theorem lifeChangeEffect_fuses {m l s} : FusesStay s (lifeChangeEffect m l s) :=
  .trans (.trans (.trans (keyCommit_fuses.trans bothLanes_fuses) lifeDestroy_fuses) keyAnswer_fuses) plainReset_fuses

theorem installEffect_fuses {m l s} : FusesStay s (installEffect m l s) := by
  unfold installEffect
  split
  · exact keyPlace_fuses
  · exact .refl

theorem opEffect_fuses {m l s} : FusesStay s (opEffect m l s) := by
  unfold opEffect
  split
  · exact installEffect_fuses
  · exact installEffect_fuses
  · exact .trans ((evt_only (l := .a)).fuses.trans keyCommit_fuses) (recheckSpares_only (l := .a)).fuses
  · exact keyCommit_fuses
  · exact lifeChangeEffect_fuses
  · exact (State.useFree_only (l := .a)).fuses.trans keyPlace_fuses
  · exact .refl

theorem respond_fuses {a d s} : FusesStay s (respond a d s) := .of_eq rfl

theorem updateMessage_fuses {m s} : FusesStay s (updateMessage m (opEffect m) s) := by
  unfold updateMessage
  split
  · exact .refl
  · exact .ite (keyAnswer_fuses.trans respond_fuses) (.trans respond_fuses (.ite opEffect_fuses keyAnswer_fuses))

theorem statementEffect_fuses {s} : FusesStay s (statementEffect s) := by
  unfold statementEffect
  have answered {l n d} (t : State) : FusesStay t (ksStatus l n d t) := ksStatus_only.fuses
  split
  · exact .refl
  · dsimp only
    split
    · exact .ite (answered _) (.after (answered _) (.of_eq rfl))
    · exact answered _
    · exact answered _

theorem csrEffect_fuses {s} : FusesStay s (csrEffect s) := by
  unfold csrEffect
  have answered {l n d} (t : State) : FusesStay t (ksStatus l n d t) := ksStatus_only.fuses
  split
  · exact .refl
  · dsimp only
    split
    · exact .ite (answered _) (.ite (answered _) (.after (answered _) (.of_eq rfl)))
    · exact answered _

theorem replicationEffect_fuses {ok s} : FusesStay s (replicationEffect ok s) := by
  unfold replicationEffect
  split
  · exact .ite .refl (.ite (.trans modKs_only.fuses (.of_eq rfl)) modKs_only.fuses)
  · exact .refl

/-! ## Host writes -/

theorem hostWrite_fuses {ok f s} (hf : ∀ t, FusesStay t (f t)) : FusesStay s (hostWrite ok f s) :=
  .ite .refl (.ite (respond_fuses.trans (hf _)) respond_fuses)

/-- Where o is a next state, each fuse blown at s is blown there. -/
def FusesNext (s : State) (o : Host.Outcome State Fault Refusal) : Prop := ∀ t, o = .next t → FusesStay s t

theorem FusesNext.next {s t} (h : FusesStay s t) : FusesNext s (.next t) := by
  rintro _ ⟨⟩
  exact h

theorem OnlyNext.fuses {dev l own rest s o} (h : OnlyNext dev l own rest s o) (m : Part.life ∉ dev := by decide) : FusesNext s o :=
  fun t run => (h t run).fuses m

theorem FusesNext.ite {s a b} {c : Prop} [Decidable c] (ha : FusesNext s a) (hb : FusesNext s b) :
    FusesNext s (if c then a else b) := by split <;> assumption

theorem stateAfter_fuses {o s} (h : FusesNext s o) : FusesStay s (stateAfter o s) := by
  unfold stateAfter
  split
  · exact h _ rfl
  · exact .refl

theorem execKeyStatement_fuses {s} : FusesNext s (execKeyStatement s) := .next (hostWrite_fuses fun _ => statementEffect_fuses)

theorem execCertificationRequest_fuses {s} : FusesNext s (execCertificationRequest s) := .next (hostWrite_fuses fun _ => csrEffect_fuses)

theorem execResetRequest_fuses {v s} : FusesNext s (execResetRequest v s) := .next (hostWrite_fuses fun _ => resetRequestEffect_fuses)


theorem unitWrite_fuses {i k d s t} (h : unitWrite i k d s = some t) : FusesStay s t := by
  unfold unitWrite at h
  dsimp only at h
  split at h
  case h_24 =>
    rcases ite_eq_iff.mp h with ⟨_, h⟩ | ⟨_, h⟩
    · cases h; exact (reportSoc_only (l := .a)).fuses.trans respond_fuses
    · rcases ite_eq_iff.mp h with ⟨_, h⟩ | ⟨_, h⟩
      · obtain rfl := Option.some.inj h; exact (sessionWrite_only (l := .a)).fuses
      · rcases ite_eq_iff.mp h with ⟨_, h⟩ | ⟨_, h⟩
        · obtain rfl := Option.some.inj h; exact (channelCommand_only (l := .a)).fuses
        · cases h
  all_goals obtain rfl := Option.some.inj h
  · exact stateAfter_fuses (execModeRequestWrite_only (l := .a)).fuses
  · exact stateAfter_fuses execResetRequest_fuses
  · exact stateAfter_fuses (execResetCauseClear_only (l := .a)).fuses
  · exact stateAfter_fuses (execRailFaultLatchClear_only (l := .a)).fuses
  · exact stateAfter_fuses (execPlannedCrossoverRequest_only (l := .a)).fuses
  · exact stateAfter_fuses (execReleaseExcludedLane_only (l := .a)).fuses
  · exact stateAfter_fuses (.ite (execShadowCommit_only (l := .a)).fuses (.ite (execShadowReopen_only (l := .a)).fuses
      (.ite (execShadowSwap_only (l := .a)).fuses (execShadowReload_only (l := .a)).fuses)))
  · exact .of_eq rfl
  · exact stateAfter_fuses (execSetFlagsClear_only (l := .a)).fuses
  · exact stateAfter_fuses (execEventClear_only (l := .a)).fuses
  · exact updateMessage_fuses
  · exact stateAfter_fuses (.ite execKeyStatement_fuses execCertificationRequest_fuses)
  · exact .of_eq rfl
  · exact stateAfter_fuses (.ite (execActivationRolling_only (l := .a)).fuses
      (.ite (execActivationFullRestart_only (l := .a)).fuses (execActivationAbort_only (l := .a)).fuses))
  · exact stateAfter_fuses (execHostConfirm_only (l := .a)).fuses
  · exact stateAfter_fuses (execRtcWrite_only (l := .a)).fuses
  · exact .of_eq rfl
  · exact stateAfter_fuses (execTamperLatchClear_only (l := .a)).fuses
  · exact stateAfter_fuses (execSensorRelease_only (l := .a)).fuses
  · exact (loopCommandWrite_only (l := .a)).fuses
  · exact stateAfter_fuses (.ite (execCaptureArm_only (l := .a)).fuses
      (.ite (execCaptureForceTrigger_only (l := .a)).fuses (execCaptureStop_only (l := .a)).fuses))
  · exact stateAfter_fuses (.ite (execInjectionArm_only (l := .a)).fuses (execInjectionStop_only (l := .a)).fuses)
  · exact stateAfter_fuses (execMailboxTransmit_only (l := .a)).fuses

theorem storeObject_fuses {r i k d s} : FusesStay s (storeObject r i k d s) := by
  unfold storeObject
  split
  · exact .of_eq rfl
  · exact .of_eq rfl
  · split
    · exact unitWrite_fuses ‹_›
    · exact .of_eq rfl

theorem writeObject_fuses {i k d s} : FusesStay s (writeObject i k d s) := by
  unfold writeObject
  refine .ite .refl (.ite respond_fuses ?_)
  split
  · exact storeObject_fuses
  · exact .refl

theorem runRequest_fuses {q s} : FusesStay s (runRequest q s) := by
  cases q with
  | read => exact (readObject_only (l := .a)).fuses
  | write => exact writeObject_fuses

theorem udpEffect_fuses {d s} : FusesStay s (udpEffect d s) := by
  unfold udpEffect
  have comm {f} (t : State) : FusesStay t (modComm f t) := .of_eq rfl
  have sent (t : State) : FusesStay t (udpAnswer d t) := (udpAnswer_only (l := .a)).fuses
  refine .ite .refl (.ite (comm _) (.ite .refl ?_))
  split
  · exact .after (sent _) respond_fuses
  · have run {q f} : FusesStay s (runRequest q (modComm f s)) := .trans (comm _) runRequest_fuses
    dsimp only
    split
    · exact .after (sent _) (.trans run (comm _))
    · exact run

theorem pdoWrite_fuses {i k d s} : FusesStay s (pdoWrite i k d s) :=
  .ite (.of_eq rfl) (.ite (.trans writeObject_fuses (.of_eq rfl)) .refl)

theorem rpdoEffect_fuses {n d s} : FusesStay s (rpdoEffect n d s) :=
  .ite (.foldl .refl fun _ _ => .ite .refl pdoWrite_fuses) .refl

/-! ## Every step -/

theorem exec_fuses_of_outside {c s} (outside : Part.life ∉ (footprint c).units) : FusesNext s (exec c s) := (exec_only c s).fuses outside

/-- A command with the life cycle outside its footprint changes no fuse; the others blow fuses alone. -/
theorem exec_fuses (c : Instr) (s : State) : FusesNext s (exec c s) := by
  cases c with
  | railRecovered => exact .next railRecoveredEffect_fuses
  | resetPin => exact .next (.ite exitReset_fuses .refl)
  | resetRelease => exact .next resetReleaseEffect_fuses
  | laneBoot => exact .next laneBootEffect_fuses
  | powerFailSafeExit => exact .next (.ite exitReset_fuses .refl)
  | resetRequest => exact execResetRequest_fuses
  | safeNAssert => exact .next safeNAssertEffect_fuses
  | objectWrite => exact .next writeObject_fuses
  | liveWrite => exact .next writeObject_fuses
  | udpDatagramReceived => exact .next udpEffect_fuses
  | rpdoReceived => exact .next rpdoEffect_fuses
  | securityTamper => exact .next securityTamperEffect_fuses
  | keyInstall => exact .next updateMessage_fuses
  | keyReplace => exact .next updateMessage_fuses
  | keyInvalidate => exact .next updateMessage_fuses
  | ownerAuthorityReplace => exact .next updateMessage_fuses
  | lifeCycleChange => exact .next updateMessage_fuses
  | keyGenerate => exact .next updateMessage_fuses
  | keyStatement => exact execKeyStatement_fuses
  | certificationRequest => exact execCertificationRequest_fuses
  | keyReplicationReceived => exact .next replicationEffect_fuses
  | rollingSequenceAdvance => exact .next sequenceAdvance_fuses
  | backupEntry => exact .next backupEntryEffect_fuses
  | _ => exact exec_fuses_of_outside (of_decide_eq_true rfl)

theorem step_fuses (s : State) : FusesNext s (step s) := by
  cases waiting : s.pending with
  | nil =>
    rw [step_idle waiting]
    exact .next (idleTick_only (l := .a)).fuses
  | cons c q =>
    rw [step_cons waiting]
    exact fun t run => .after (exec_fuses c _ t run) (.of_eq rfl)

/-- Settles O55, by a lemma for each operation that reaches the life cycle. -/
theorem fusesStayBlown : Obligations.FusesStayBlown := step_fuses

end Sys2Proof.Machine
end

section
/-! PROOF. The service port: each command on a staging buffer (R399). -/

namespace Sys2Proof.Machine
set_option Elab.async false

/-! ## Buffers -/

@[simp] theorem Update.buf_modBuf {u : Update} {k : Fin 2} {f} : (u.modBuf k f).buf k = f (u.buf k) := by
  unfold Update.modBuf Update.buf
  split <;> rfl

@[simp] theorem modUpd_upd {f s} : (modUpd f s).upd = f s.upd := rfl

@[simp] theorem serviceAnswer_answer {op st n s} : (serviceAnswer op st n s).upd.answer = some (servicePacket op st n) := rfl

@[simp] theorem serviceAnswer_buf {op st n s k} : (serviceAnswer op st n s).upd.buf k = s.upd.buf k := rfl

/-! ## A command at the port -/

theorem portServes_unattached {s} (h : s.upd.attached = false) : portServes s = false := by
  unfold portServes
  rw [h, Bool.false_and]

theorem serviceRun_unserved {op c status f s} (h : portServes s = false) : serviceRun op c status f s = s :=
  if_pos (by rw [h, Bool.not_false])

theorem serviceRun_served {op c status f s} (h : portServes s = true) :
    serviceRun op c status f s =
      if status (s.upd.buf c.buffer) = 0 then
        serviceAnswer op 0 (f (s.upd.buf c.buffer)).next (modUpd (Update.modBuf c.buffer f) s)
      else serviceAnswer op (status (s.upd.buf c.buffer)) (s.upd.buf c.buffer).next s := by
  unfold serviceRun
  rw [h, if_neg (by decide)]
  dsimp only
  split
  · next passes => rw [if_pos passes, modUpd_upd, Update.buf_modBuf]
  · next refused => rw [if_neg refused]

/-- A command whose status is 0 answers its code, 0 and the next offset, and its buffer takes the effect. -/
theorem serviceRun_passes {op c status f s b} (h : portServes s = true) (passes : status (s.upd.buf c.buffer) = 0)
    (effect : f (s.upd.buf c.buffer) = b) :
    (serviceRun op c status f s).upd.buf c.buffer = b ∧
      (serviceRun op c status f s).upd.answer = some (servicePacket op 0 b.next) := by
  rw [serviceRun_served h, if_pos passes, effect]
  exact ⟨by rw [serviceAnswer_buf, modUpd_upd, Update.buf_modBuf, effect], rfl⟩

/-- A command of another status answers it with the next offset, and its buffer stays. -/
theorem serviceRun_refused {op c status f s n} (h : portServes s = true) (hn : n ≠ 0) (refused : status (s.upd.buf c.buffer) = n) :
    (serviceRun op c status f s).upd.answer = some (servicePacket op n (s.upd.buf c.buffer).next) ∧
      (serviceRun op c status f s).upd.buf c.buffer = s.upd.buf c.buffer := by
  rw [serviceRun_served h, if_neg (refused.trans_ne hn), refused]
  exact ⟨rfl, rfl⟩

theorem serviceRun_jct {op c status f s} : (serviceRun op c status f s).jct = s.jct := (serviceRun_only (l := .a)).1 .jct (by decide)

/-! ## Recovery -/

theorem recoverFrom_active {s} (h : (activeLane s).isSome = true) : recoverFrom s = s := by
  unfold recoverFrom recoveryLane
  rw [if_pos h]

/-- With an active lane CLOSE is its run alone: no recovery. -/
theorem serviceClose_active {s c} (h : (activeLane s).isSome = true) :
    exec (.serviceClose c) s = .next (serviceRun 3 c (closeStatus s c) closeBuffer s) :=
  congrArg Host.Outcome.next (recoverFrom_active (by rwa [activeLane_congr serviceRun_jct]))

/-! ## The statuses -/

theorem openStatus_permitted {s c} {b : Staging} (hr : b.receiving = false) (hb : bufferNamed s c.buffer = false)
    (hl : 256 ≤ c.length.toNat) (hu : c.length.toNat ≤ 67108864) (hn : c.nandOk = true) : openStatus s c b = 0 := by
  have range : ¬(c.length.toNat < 256 ∨ 67108864 < c.length.toNat) := by omega
  simp [openStatus, hr, hb, hn, range]

theorem openStatus_taken {s c} {b : Staging} (h : b.receiving = true ∨ bufferNamed s c.buffer = true) : openStatus s c b = 1 :=
  if_pos (by simpa using h)

theorem dataStatus_crc {s c} {b : Staging} (hb : bufferNamed s c.buffer = false) (hl : 1 ≤ c.length.toNat)
    (hu : c.length.toNat ≤ 65536) (hd : c.data.length = c.length.toNat) (ho : c.offset.toNat + c.length.toNat ≤ b.length)
    (hc : crc32 c.data ≠ c.crc) : dataStatus s c b = 3 := by
  have sized : ¬(c.length.toNat < 1 ∨ 65536 < c.length.toNat ∨ c.data.length ≠ c.length.toNat ∨
      (b.receiving = true ∧ b.length < c.offset.toNat + c.length.toNat)) := by omega
  unfold dataStatus
  dsimp only
  rw [if_neg (by simp [hb]), if_neg sized, if_pos hc]

/-! ## The commands -/

theorem serviceRows_unattached {s c} (h : s.upd.attached = false) :
    Completes (.serviceOpen c) s (fun t => t = s) ∧ Completes (.serviceData c) s (fun t => t = s) ∧
      Completes (.serviceStatus c) s (fun t => t = s) ∧ Completes (.serviceErase c) s (fun t => t = s) :=
  have idle {op status f} : serviceRun op c status f s = s := serviceRun_unserved (portServes_unattached h)
  ⟨.of rfl idle, .of rfl idle, .of rfl idle, .of rfl idle⟩

theorem serviceRows_refused {s c n} (h : portServes s = true) (hn : n ≠ 0) :
    (openStatus s c (s.upd.buf c.buffer) = n → Completes (.serviceOpen c) s fun t =>
      t.upd.answer = some (servicePacket 1 n (s.upd.buf c.buffer).next) ∧ t.upd.buf c.buffer = s.upd.buf c.buffer) ∧
    (dataStatus s c (s.upd.buf c.buffer) = n → Completes (.serviceData c) s fun t =>
      t.upd.answer = some (servicePacket 2 n (s.upd.buf c.buffer).next) ∧ t.upd.buf c.buffer = s.upd.buf c.buffer) ∧
    ((activeLane s).isSome = true → closeStatus s c (s.upd.buf c.buffer) = n → Completes (.serviceClose c) s fun t =>
      t.upd.answer = some (servicePacket 3 n (s.upd.buf c.buffer).next) ∧ t.upd.buf c.buffer = s.upd.buf c.buffer) :=
  ⟨fun st => .of rfl (serviceRun_refused h hn st), fun st => .of rfl (serviceRun_refused h hn st),
    fun ha st => .of (serviceClose_active ha) (serviceRun_refused h hn st)⟩

theorem serviceOpen_erases {s c} (h : portServes s = true) (hr : (s.upd.buf c.buffer).receiving = false)
    (hb : bufferNamed s c.buffer = false) (hl : 256 ≤ c.length.toNat) (hu : c.length.toNat ≤ 67108864) (hn : c.nandOk = true) :
    Completes (.serviceOpen c) s fun t =>
      t.upd.buf c.buffer = { (default : Staging) with receiving := true, length := c.length.toNat } ∧
      t.upd.answer = some (servicePacket 1 0 0) :=
  .of rfl (serviceRun_passes h (openStatus_permitted hr hb hl hu hn) rfl)

theorem serviceData_appends {s c} (h : portServes s = true) (passes : dataStatus s c (s.upd.buf c.buffer) = 0) :
    Completes (.serviceData c) s fun t =>
      (t.upd.buf c.buffer).image = (s.upd.buf c.buffer).image ++ c.data ∧
      (t.upd.buf c.buffer).next = (s.upd.buf c.buffer).next + c.data.length ∧
      t.upd.answer = some (servicePacket 2 0 ((s.upd.buf c.buffer).next + c.data.length)) := by
  obtain ⟨buf, answer⟩ := serviceRun_passes (op := 2) (f := fun b => { b with image := b.image ++ c.data, next := b.next + c.data.length })
    h passes rfl
  exact .of rfl ⟨congrArg Staging.image buf, congrArg Staging.next buf, answer⟩

theorem serviceClose_makesWhole {s c} (h : portServes s = true) (ha : (activeLane s).isSome = true)
    (passes : closeStatus s c (s.upd.buf c.buffer) = 0) :
    Completes (.serviceClose c) s fun t =>
      (t.upd.buf c.buffer).received = true ∧ (t.upd.buf c.buffer).receiving = false ∧
      (t.upd.buf c.buffer).image = (s.upd.buf c.buffer).image ∧
      t.upd.answer = some (servicePacket 3 0 (s.upd.buf c.buffer).next) := by
  obtain ⟨buf, answer⟩ := serviceRun_passes (op := 3) (f := closeBuffer) h passes rfl
  exact .of (serviceClose_active ha)
    ⟨congrArg Staging.received buf, congrArg Staging.receiving buf, (congrArg Staging.image buf :), answer⟩

theorem serviceErase_empties {s c} (h : portServes s = true) (hb : bufferNamed s c.buffer = false) (hn : c.nandOk = true) :
    Completes (.serviceErase c) s fun t => t.upd.buf c.buffer = default ∧ t.upd.answer = some (servicePacket 5 0 0) :=
  .of rfl (serviceRun_passes h (by simp [hb, hn]) rfl)

theorem serviceErase_named {s c} (h : portServes s = true) (hb : bufferNamed s c.buffer = true) :
    Completes (.serviceErase c) s fun t =>
      t.upd.buf c.buffer = s.upd.buf c.buffer ∧ t.upd.answer = some (servicePacket 5 1 (s.upd.buf c.buffer).next) :=
  .of rfl (serviceRun_refused h (by decide) (if_pos hb)).symm

/-- Settles O30, clause by clause: the connector, a port that serves nothing, the refusals, and each command that passes. -/
theorem servicePort : Obligations.ServicePort :=
  ⟨fun _ => .of rfl rfl, fun _ => .of rfl rfl, fun _ _ => serviceRows_unattached, fun _ _ _ => serviceRows_refused,
    fun _ _ => serviceOpen_erases, fun _ _ h taken => .of rfl (serviceRun_refused h (by decide) (openStatus_taken taken)),
    fun _ _ => serviceData_appends,
    fun _ _ h hb hl hu hd ho hc => .of rfl (serviceRun_refused h (by decide) (dataStatus_crc hb hl hu hd ho hc)),
    fun _ _ => serviceClose_makesWhole, fun _ _ h => .of rfl (serviceRun_passes h rfl rfl).symm,
    fun _ _ => serviceErase_empties, fun _ _ => serviceErase_named⟩

end Sys2Proof.Machine
end

section
/-! PROOF. The event recorder: events through the filter, the flush, the archive, reading and clearing (R379-R386). -/

namespace Sys2Proof.Machine
set_option Elab.async false

@[simp] theorem modRecs_lane {f s l} : (modRecs f s).lane l = s.lane l := by cases l <;> rfl

@[simp] theorem modRecs_recs {f s} : (modRecs f s).recs = f s.recs := rfl

theorem filterRules_congr {s t : State} (h : t.sets = s.sets) : filterRules t = filterRules s := by
  unfold filterRules cfgBytes
  rw [h]

theorem siteTime_congr {s t : State} (h : t.site = s.site) : siteTime t = siteTime s := by
  unfold siteTime
  rw [h]

/-! ## Writing an event (R380, R381, R387) -/

section Write
variable {s : State} {l : Lane} {e : EventReq} {es : List EventReq} (front : (s.lane l).evq = e :: es)

/-- s with the oldest waiting event of lane l taken. -/
def eventTaken (l : Lane) (es : List EventReq) (s : State) : State := s.modLane l fun x => { x with evq := es }

@[simp] theorem eventTaken_lane {s l es} : (eventTaken l es s).lane l = { s.lane l with evq := es } := by
  rw [eventTaken, State.lane_modLane]

@[simp] theorem eventTaken_recs {s l es} : (eventTaken l es s).recs = s.recs := State.modLane_recs _ _ _

theorem eventWrite_empty (h : (s.lane l).evq = []) : eventWriteEffect l s = s := by
  unfold eventWriteEffect
  rw [h]

include front in
theorem eventWrite_dropped (h : filterEvent (eventGroup e.kind) (eventNumber e).toNat (eventSev e) (filterRules s) = .drop) :
    eventWriteEffect l s = modRecs (fun c => { c with dropped := c.dropped + 1 }) (eventTaken l es s) := by
  unfold eventWriteEffect
  rw [front]
  dsimp only
  rw [filterRules_congr (State.modLane_sets _ _ _), h]
  rfl

include front in
theorem eventWrite_kept {sev} (h : filterEvent (eventGroup e.kind) (eventNumber e).toNat (eventSev e) (filterRules s) = .keep sev) :
    eventWriteEffect l s = recordEvent l (eventCode sev (eventGroup e.kind) (eventNumber e).toNat) (eventSource l e.inst) e.data
      (e.time.getD (siteTime s)) (eventTaken l es s) := by
  unfold eventWriteEffect
  rw [front]
  dsimp only
  rw [filterRules_congr (State.modLane_sets _ _ _), h, siteTime_congr (State.modLane_site _ _ _)]
  rfl

end Write

/-- The record of an event that starts a record of its own. -/
def newRecord (r : Recorder) (code : U16) (source : U8) (data : List Byte) (time : U64) : EventRec :=
  EventRec.sealed { seq := r.nextSeq, time := time, code := code, source := source, gen := 0, rep := 1, data := data, crc := 0, dirty := true }

/-- Record v with one more occurrence of its event. -/
def repeated (v : EventRec) : EventRec := EventRec.sealed { v with rep := v.rep + 1, gen := v.gen + 1, dirty := true }

theorem sealed_body {v : EventRec} : recordBody v.sealed = recordBody v := rfl

theorem sealed_crc {v : EventRec} : v.sealed.crc = crc16 (recordBody v.sealed) := by
  rw [sealed_body, EventRec.sealed]

theorem Recorder.push_empty {r : Recorder} {v} (h : r.ring = []) : (r.push v).1.ring = [v] ∧ (r.push v).1.nextSeq = r.nextSeq + 1 := by
  simp [Recorder.push, h]

theorem recordEvent_first {l code source data time s} (h : (s.lane l).recd.ring = []) :
    (recordEvent l code source data time s).lane l =
      { s.lane l with recd := ((s.lane l).recd.push (newRecord (s.lane l).recd code source data time)).1 } ∧
      (recordEvent l code source data time s).recs.written = s.recs.written + 1 := by
  have last : (s.lane l).recd.last = none := by simp [Recorder.last, h]
  unfold recordEvent
  dsimp only
  rw [last]
  exact ⟨by simp [newRecord], by simp⟩

theorem Recorder.last_append {r : Recorder} {vs v} (h : r.ring = vs ++ [v]) : r.last = some v := by
  simp [Recorder.last, h]

theorem Recorder.setLast_ring {r : Recorder} {vs v w} (h : r.ring = vs ++ [v]) : (r.setLast w).ring = vs ++ [w] := by
  simp [Recorder.setLast, h]

/-- An event equal to the newest record raises its count while that is not full. -/
theorem recordEvent_equal {l code source data time s r v} (h : (s.lane l).recd.ring = r ++ [v]) (hc : v.code = code)
    (hs : v.source = source) (hd : v.data = data) (full : v.rep ≠ 0xFFFF) :
    (recordEvent l code source data time s).lane l =
      { s.lane l with recd := (s.lane l).recd.setLast (repeated v) } := by
  have equal : (v.code == code && v.source == source && v.data == data) = true := by simp [hc, hs, hd]
  unfold recordEvent
  dsimp only
  rw [Recorder.last_append h]
  dsimp only
  rw [equal]
  dsimp only
  rw [if_neg full, State.lane_modLane]
  rfl

theorem eventWrite_first {s l e es sev} (front : (s.lane l).evq = e :: es)
    (keep : filterEvent (eventGroup e.kind) (eventNumber e).toNat (eventSev e) (filterRules s) = .keep sev)
    (empty : (s.lane l).recd.ring = []) :
    Completes (.eventWrite l) s fun t => (t.lane l).evq = es ∧ t.recs.written = s.recs.written + 1 ∧
      ∃ v, (t.lane l).recd.ring = [v] ∧ v.seq = (s.lane l).recd.nextSeq ∧ v.time = e.time.getD (siteTime s) ∧ v.rep = 1 ∧ v.gen = 0 ∧
        v.data = e.data ∧ v.code = eventCode sev (eventGroup e.kind) (eventNumber e).toNat ∧ v.crc = crc16 (recordBody v) ∧
        (t.lane l).recd.nextSeq = (s.lane l).recd.nextSeq + 1 := by
  have ring : ((eventTaken l es s).lane l).recd.ring = [] := by rw [eventTaken_lane]; exact empty
  refine .run rfl ((eventWrite_kept front keep)) ?_
  obtain ⟨lane, written⟩ := recordEvent_first (code := eventCode sev (eventGroup e.kind) (eventNumber e).toNat)
    (source := eventSource l e.inst) (data := e.data) (time := e.time.getD (siteTime s)) ring
  rw [eventTaken_recs] at written
  rw [lane, eventTaken_lane]
  obtain ⟨pushed, next⟩ := Recorder.push_empty (r := (s.lane l).recd) empty
  exact ⟨rfl, written, _, pushed, rfl, rfl, rfl, rfl, rfl, rfl, sealed_crc, next⟩

theorem eventWrite_repeats {s l e es sev v r} (front : (s.lane l).evq = e :: es)
    (keep : filterEvent (eventGroup e.kind) (eventNumber e).toNat (eventSev e) (filterRules s) = .keep sev)
    (ring : (s.lane l).recd.ring = r ++ [v]) (hc : v.code = eventCode sev (eventGroup e.kind) (eventNumber e).toNat)
    (hs : v.source = eventSource l e.inst) (hd : v.data = e.data) (full : v.rep ≠ 0xFFFF) :
    Completes (.eventWrite l) s fun t => (t.lane l).evq = es ∧
      ∃ w, (t.lane l).recd.ring = r ++ [w] ∧ w.seq = v.seq ∧ w.rep = v.rep + 1 ∧ w.gen = v.gen + 1 ∧
        (t.lane l).recd.nextSeq = (s.lane l).recd.nextSeq := by
  have taken : ((eventTaken l es s).lane l).recd.ring = r ++ [v] := by rw [eventTaken_lane]; exact ring
  refine .run rfl ((eventWrite_kept front keep)) ?_
  rw [recordEvent_equal taken hc hs hd full, eventTaken_lane]
  exact ⟨rfl, repeated v, Recorder.setLast_ring ring, rfl, rfl, rfl, rfl⟩

theorem eventWrite_drops {s l e es} (front : (s.lane l).evq = e :: es)
    (drop : filterEvent (eventGroup e.kind) (eventNumber e).toNat (eventSev e) (filterRules s) = .drop) :
    Completes (.eventWrite l) s fun t =>
      (t.lane l).evq = es ∧ t.recs.dropped = s.recs.dropped + 1 ∧ (t.lane l).recd = (s.lane l).recd :=
  .run rfl ((eventWrite_dropped front drop)) (by simp)

/-! ## Flush (R382) -/

/-- A flush of one record leaves the numbering and the length of the ring. -/
theorem flushOne_kept {nand r v} : (flushOne nand r v).1.nextSeq = r.1.nextSeq ∧ (flushOne nand r v).1.ring.length = r.1.ring.length := by
  unfold flushOne
  dsimp only
  split
  · simp
  · split
    · simp
    · split <;> simp

theorem flushFold_kept {nand vs r} : (List.foldl (flushOne nand) r vs).1.nextSeq = r.1.nextSeq ∧
    (List.foldl (flushOne nand) r vs).1.ring.length = r.1.ring.length := by
  induction vs generalizing r with
  | nil => exact ⟨rfl, rfl⟩
  | cons v vs ih => exact ⟨ih.1.trans flushOne_kept.1, ih.2.trans flushOne_kept.2⟩

theorem eventFlush_leaves {s l} : Completes (.eventFlush l) s fun t =>
    (t.lane l).recd.nextSeq = (s.lane l).recd.nextSeq ∧ (t.lane l).recd.ring.length = (s.lane l).recd.ring.length ∧
    (t.lane l).recd.sinceFlush = 0 ∧ t.recs.flushes = s.recs.flushes + 1 := by
  refine .of rfl ?_
  unfold flushLane
  dsimp only
  rw [modRecs_lane, State.lane_modLane, modRecs_recs, State.modLane_recs]
  exact ⟨flushFold_kept.1, flushFold_kept.2, rfl, rfl⟩

/-! ## Archive (R383) -/

theorem archiveLane_recd_other {m l s} (h : l ≠ m) : ((archiveLane m s).lane l).recd = (s.lane l).recd := by
  obtain rfl : l = m.other := by cases l <;> cases m <;> first | rfl | exact absurd rfl h
  exact (archiveLane_only (l := m)).2.2 .recd (by decide)

theorem archive_recd {st d s l} : ((archive st d s).lane l).recd = (s.lane l).recd := archive_only.lane .recd (by decide)

theorem archiveLane_recd {l s} : (unarchived (s.lane l).recd).length < 4096 ∧ archiveLane l s = s ∨
    4096 ≤ (unarchived (s.lane l).recd).length ∧ ∃ room, ((archiveLane l s).lane l).recd = archiveRec room (s.lane l).recd := by
  unfold archiveLane
  dsimp only
  split
  · next few => exact .inl ⟨few, rfl⟩
  · next many =>
    refine .inr ⟨not_lt.1 many, archiveRoom (archive .eventArchive ((unarchived (s.lane l).recd).flatMap recordBytes) s).nand, ?_⟩
    rw [State.lane_modLane]
    exact congrArg (archiveRec _) archive_recd

/-- Archiving both regions archives each lane's own where it holds 4,096 records. -/
theorem archiveBoth_recd {s l} : (unarchived (s.lane l).recd).length < 4096 ∧
      ((archiveLane .b (archiveLane .a s)).lane l).recd = (s.lane l).recd ∨
    4096 ≤ (unarchived (s.lane l).recd).length ∧
      ∃ room, ((archiveLane .b (archiveLane .a s)).lane l).recd = archiveRec room (s.lane l).recd := by
  have before : l = .b → ((archiveLane .a s).lane l).recd = (s.lane l).recd := fun h => archiveLane_recd_other (by simp [h])
  cases l with
  | a =>
    rw [archiveLane_recd_other (by decide)]
    exact archiveLane_recd.imp_left fun ⟨few, same⟩ => ⟨few, by rw [same]⟩
  | b =>
    rw [← before rfl]
    exact archiveLane_recd.imp_left fun ⟨few, same⟩ => ⟨few, by rw [same]⟩

theorem eventArchive_takes {s l} (h : nandWorks s = true) : Completes .eventArchive s fun t =>
    ((unarchived (s.lane l).recd).length < 4096 → (t.lane l).recd = (s.lane l).recd) ∧
    (4096 ≤ (unarchived (s.lane l).recd).length → (t.lane l).recd.fast = (s.lane l).recd.fast ∧
      (t.lane l).recd.archivedOf = (s.lane l).recd.fast.length ∧
      ∃ n, (t.lane l).recd.archive = ((s.lane l).recd.archive ++ unarchived (s.lane l).recd).drop n) := by
  refine .run rfl ((if_pos h)) ?_
  obtain ⟨few, same⟩ | ⟨many, room, taken⟩ := archiveBoth_recd (s := s) (l := l)
  · exact ⟨fun _ => same, fun many => absurd few (not_lt.2 many)⟩
  · rw [taken]
    exact ⟨fun few => absurd few (not_lt.2 many), fun _ => ⟨rfl, rfl, _, rfl⟩⟩

/-! ## Reading and clearing (R384, R386) -/

theorem eventRead_serves {s} (h : (activeLane s).isSome = true) : Completes .eventRead s fun t =>
    t.laneA = s.laneA ∧ t.laneB = s.laneB ∧ ∃ lo hi out, t.recs.reading = some (lo, hi, out) ∧ out.length ≤ rwN s 0x2301 3 ∧
      ∀ v ∈ out, v ∈ servedRecords (s.lane (readLane s)).recd := by
  refine .run rfl ((if_pos h)) ?_
  unfold eventReadEffect
  dsimp only
  refine ⟨?_, ?_, _, _, _, rfl, List.length_take_le _ _, fun v hv => (List.mem_filter.1 (List.mem_of_mem_take hv)).1⟩
  · split <;> rfl
  · split <;> rfl

theorem clearLane_a {s} : (clearLane .a s).laneB = s.laneB ∧ ∃ e, e.kind = .recorderClear ∧ (clearLane .a s).laneA =
    { s.laneA with recd := { s.laneA.recd with ring := [], fast := [], archivedOf := 0, clearedTo := s.laneA.recd.newest }
                   evq := e :: s.laneA.evq } := ⟨rfl, _, rfl, rfl⟩

theorem eventClearEffect_a {s} : eventClearEffect 1 s = clearLane .a s := rfl

theorem eventClear_laneA {s} (hw : writable s = true) (ha : (activeLane s).isSome = true) : Completes (.eventClear 1) s fun t =>
    t.laneA.recd.ring = [] ∧ t.laneA.recd.fast = [] ∧ t.laneA.recd.clearedTo = s.laneA.recd.newest ∧ t.laneB = s.laneB ∧
    ∃ e, t.laneA.evq = e :: s.laneA.evq ∧ e.kind = .recorderClear := by
  have inRange : hostRange (writable s) true (eventClearEffect 1) s = hostWrite (writable s) (eventClearEffect 1) s :=
    if_neg (by simp)
  refine hostWrite_completes (congrArg Host.Outcome.next inRange) hw ha ?_
  obtain ⟨b, e, kind, a⟩ := clearLane_a (s := respond 0 [] s)
  rw [eventClearEffect_a, a, b]
  exact ⟨rfl, rfl, rfl, rfl, e, rfl, kind⟩

/-- A write outside its range is only answered. -/
theorem hostRange_outside {ok f s} (ha : (activeLane s).isSome = true) : ∃ c, hostRange ok false f s = respond c [] s := by
  cases ok with
  | true => exact ⟨_, if_pos (by simp [ha])⟩
  | false => exact ⟨abortState, (if_neg (by simp)).trans ((if_neg (by simp [Option.isSome_iff_ne_none.1 ha])).trans (if_neg (by decide)))⟩

theorem eventClear_outside {s} {v : U8} (ha : (activeLane s).isSome = true) (h : v = 0 ∨ 3 < v.toNat) :
    Completes (.eventClear v) s fun t => t.laneA = s.laneA ∧ t.laneB = s.laneB := by
  have outside : decide (1 ≤ v.toNat ∧ v.toNat ≤ 3) = false := by
    rcases h with rfl | h
    · rfl
    · exact decide_eq_false (by omega)
  obtain ⟨c, answered⟩ := hostRange_outside (ok := writable s) (f := eventClearEffect v) ha
  rw [← outside] at answered
  exact .run rfl (answered) ⟨rfl, rfl⟩

/-- Settles O27, clause by clause: writing, the flush, the archive, reading, clearing. -/
theorem recorderCommands : Obligations.RecorderCommands :=
  ⟨fun _ _ empty => .of rfl (eventWrite_empty empty), fun _ _ _ _ => eventWrite_drops, fun _ _ _ _ _ => eventWrite_first,
    fun _ _ _ _ _ _ _ => eventWrite_repeats, fun _ _ => eventFlush_leaves, fun _ _ => eventArchive_takes,
    fun _ h => .run rfl ((if_neg (by simp [h]))) rfl, fun _ => eventRead_serves, fun _ => eventClear_laneA,
    fun _ _ => eventClear_outside⟩

end Sys2Proof.Machine
end

section
/-! PROOF. The storage manager: requests on blocks, grown bad blocks, refresh, scrub and the load profile (R192, R390-R398). -/

namespace Sys2Proof.Machine
set_option Elab.async false

/-! ## What the array counts -/

/-- The counters of the storage manager and its answer. -/
structure NandTally where
  grown : U32
  corrected : U64
  uncorrectable : U32
  moves : U32
  answer : Option (Bool × List Byte)
  profiles : U32

/-- The counters and the answer of n. -/
def Nand.tally (n : Nand) : NandTally :=
  { grown := n.grown, corrected := n.corrected, uncorrectable := n.uncorrectable, moves := n.moves, answer := n.answer, profiles := n.profiles }

@[simp] theorem modNand_nand {f s} : (modNand f s).nand = f s.nand := rfl

theorem moveData_tally {i f n} : (moveData i f n).tally = n.tally := by
  unfold moveData
  dsimp only
  split
  · rfl
  · split <;> rfl

theorem reclaim_tally {p n} : (reclaim p n).tally = n.tally := by
  unfold reclaim
  split
  · rfl
  · split <;> rfl

theorem openBlk_tally {st avoid n} : (openBlk st avoid n).1.tally = n.tally := by
  unfold openBlk
  dsimp only
  split <;> exact reclaim_tally

theorem allocStream_tally {st n} : (allocStream st n).tally = n.tally := by
  unfold allocStream
  dsimp only
  split
  · exact openBlk_tally.trans openBlk_tally
  · exact openBlk_tally

/-- A step that leaves the counters leaves them over a list. -/
theorem foldl_tally {α : Type} {f : Nand → α → Nand} (h : ∀ n a, (f n a).tally = n.tally) (as : List α) (n : Nand) :
    (as.foldl f n).tally = n.tally := by
  induction as generalizing n with
  | nil => rfl
  | cons a as ih => exact (ih _).trans (h n a)

theorem appendPage_tally {st n data} : (appendPage st n data).tally = n.tally := by
  unfold appendPage
  dsimp only
  refine (foldl_tally ?written _ _).trans ?opened
  case written => exact fun _ _ => rfl
  case opened =>
    split
    · exact allocStream_tally
    · rfl

theorem archive_tally {st data s} : (archive st data s).nand.tally = s.nand.tally := by
  unfold archive
  split
  · rw [recheckSpares_nand]
    exact foldl_tally (fun _ _ => appendPage_tally) _ _
  · rfl

/-! ## Grown bad blocks (R394, R395) -/

theorem replaceBad_tally {n} : (replaceBad n).tally = { n.tally with grown := n.grown + 1 } := by
  unfold replaceBad
  dsimp only
  split <;> rfl

theorem slotBad_nand {i s} : (slotBad i s).nand = s.nand := by
  unfold slotBad
  dsimp only
  split
  · exact State.modLane_nand _ _ _
  · exact State.modLane_nand _ _ _
  · rfl

/-- A block that grows bad is counted; the other counters and the answer stay. -/
theorem growBad_tally {q i s} : (growBad q i s).nand.tally = { s.nand.tally with grown := s.nand.grown + 1 } := by
  unfold growBad
  dsimp only
  rw [recheckSpares_nand, evt_nand, slotBad_nand, modNand_nand, replaceBad_tally, moveData_tally]
  exact congrArg (fun g => { s.nand.tally with grown := g + 1 }) (congrArg NandTally.grown moveData_tally)

theorem growBad_answer {q i s} : (growBad q i s).nand.answer = s.nand.answer := congrArg NandTally.answer growBad_tally

theorem growBad_grown {q i s} : (growBad q i s).nand.grown = s.nand.grown + 1 := congrArg NandTally.grown growBad_tally

theorem growBad_uncorrectable {q i s} : (growBad q i s).nand.uncorrectable = s.nand.uncorrectable :=
  congrArg NandTally.uncorrectable growBad_tally

/-! ## Requests (R392-R394) -/

theorem nandRequest_idle {q op a s} (h : nandWorks s = false) : nandRequestEffect q op a s = s := if_pos (by simp [h])

section Request
variable {s : State} {q : Fin 8} {i p : Nat} {a : NandAnswer}

theorem nandRequest_read (h : nandWorks s = true) : nandRequestEffect q (.read i p) a s =
    if blockUsable s q i then nandRead q i p a s else nandAnswer false [] s := if_neg (by simp [h])

theorem nandRequest_program {d} (h : nandWorks s = true) : nandRequestEffect q (.program i p d) a s =
    if d.isEmpty then nandAnswer true [] s
    else if !(blockUsable s q i) then nandAnswer false [] s
    else if a.statusFail then growBad q i (nandAnswer false [] s)
    else nandAnswer true [] (modNand (fun n => n.modBlk i (NandBlk.program p d)) s) := if_neg (by simp [h])

theorem nandRequest_erase (h : nandWorks s = true) : nandRequestEffect q (.erase i) a s =
    if !(blockUsable s q i) then nandAnswer false [] s
    else if a.statusFail then growBad q i (nandAnswer false [] s)
    else nandAnswer true [] (modNand (fun n => n.modBlk i NandBlk.erase) s) := if_neg (by simp [h])

variable (works : nandWorks s = true) (usable : blockUsable s q i = true)
include works

theorem nandProgram_empty : Completes (.nandRequest q (.program i p []) a) s fun t =>
    t = { s with nand := { s.nand with answer := some (true, []) } } := .run rfl (nandRequest_program works) rfl

theorem nandRequest_elsewhere {d : List Byte} (h : blockUsable s q i = false) :
    Completes (.nandRequest q (.read i p) a) s (fun t => t = { s with nand := { s.nand with answer := some (false, []) } }) ∧
    Completes (.nandRequest q (.erase i) a) s (fun t => t = { s with nand := { s.nand with answer := some (false, []) } }) ∧
    (d ≠ [] → Completes (.nandRequest q (.program i p d) a) s fun t =>
      t = { s with nand := { s.nand with answer := some (false, []) } }) :=
  ⟨.run rfl (nandRequest_read works) (if_neg (by simp [h])), .run rfl (nandRequest_erase works) (if_pos (by simp [h])),
    fun hd => .run rfl (nandRequest_program works) ((if_neg (by simp [hd])).trans (if_pos (by simp [h])))⟩

include usable

theorem nandProgram_passes {d : List Byte} (ok : a.statusFail = false) (hd : d ≠ []) :
    Completes (.nandRequest q (.program i p d) a) s fun t =>
      t.nand.answer = some (true, []) ∧ t.nand.blocks = insertBlk (NandBlk.program p d (s.nand.blk i)) s.nand.blocks := by
  have run := nandRequest_program (i := i) (p := p) (q := q) (a := a) (d := d) works
  rw [if_neg (by simp [hd]), if_neg (by simp [usable]), if_neg (by simp [ok])] at run
  exact .run rfl run ⟨rfl, rfl⟩

theorem nandErase_passes (ok : a.statusFail = false) : Completes (.nandRequest q (.erase i) a) s fun t =>
    t.nand.answer = some (true, []) ∧ t.nand.blocks = insertBlk (NandBlk.erase (s.nand.blk i)) s.nand.blocks := by
  have run := nandRequest_erase (i := i) (q := q) (a := a) works
  rw [if_neg (by simp [usable]), if_neg (by simp [ok])] at run
  exact .run rfl run ⟨rfl, rfl⟩

theorem nandRequest_fails {d : List Byte} (bad : a.statusFail = true) :
    Completes (.nandRequest q (.erase i) a) s (fun t => t.nand.answer = some (false, []) ∧ t.nand.grown = s.nand.grown + 1) ∧
    (d ≠ [] → Completes (.nandRequest q (.program i p d) a) s fun t =>
      t.nand.answer = some (false, []) ∧ t.nand.grown = s.nand.grown + 1) := by
  have erase := nandRequest_erase (i := i) (q := q) (a := a) works
  have program := nandRequest_program (i := i) (p := p) (q := q) (a := a) (d := d) works
  rw [if_neg (by simp [usable]), if_pos bad] at erase
  exact ⟨.run rfl erase ⟨growBad_answer, growBad_grown⟩,
    fun hd => .run rfl (program.trans ((if_neg (by simp [hd])).trans ((if_neg (by simp [usable])).trans (if_pos bad)))) ⟨growBad_answer, growBad_grown⟩⟩

theorem nandRead_run : nandRequestEffect q (.read i p) a s = nandRead q i p a s :=
  (nandRequest_read works).trans (if_pos usable)

omit works usable

/-- A read that can be corrected answers the page and counts the bits. -/
theorem nandRead_corrected {d e} (h : corrected s a = some e)
    (page : ((s.nand.blk i).page p).getD (Config.freeBytes s.free Config.nandPageBytes) = d) :
    (nandRead q i p a s).nand.answer = some (true, d) ∧
      (nandRead q i p a s).nand.corrected = s.nand.corrected + BitVec.ofNat 64 e := by
  subst page
  unfold nandRead
  dsimp only
  split
  · next _ same =>
    obtain rfl := Option.some.inj (h.symm.trans same)
    exact ⟨rfl, rfl⟩
  · next same => exact absurd (h.symm.trans same) (by simp)

theorem nandRead_otherCopy {d} (h : corrected s a = none) (copies : (s.nand.blk i).stream = some .signedBilling)
    (page : ((s.nand.blk i).page p).getD (Config.freeBytes s.free Config.nandPageBytes) = d) :
    (nandRead q i p a s).nand.answer = some (true, d) ∧ (nandRead q i p a s).nand.grown = s.nand.grown + 1 := by
  subst page
  unfold nandRead
  dsimp only
  split
  · next same => exact absurd (h.symm.trans same) (by simp)
  · rw [if_pos copies]
    exact ⟨growBad_answer, growBad_grown⟩

theorem nandRead_lost (h : corrected s a = none) (single : (s.nand.blk i).stream ≠ some .signedBilling) :
    (nandRead q i p a s).nand.answer = some (false, []) ∧ (nandRead q i p a s).nand.uncorrectable = s.nand.uncorrectable + 1 ∧
      (nandRead q i p a s).nand.grown = s.nand.grown + 1 := by
  unfold nandRead
  dsimp only
  split
  · next same => exact absurd (h.symm.trans same) (by simp)
  · rw [if_neg single]
    exact ⟨growBad_answer, growBad_uncorrectable, growBad_grown⟩

end Request

/-! ## Refresh, scrub, allocation, load profile (R192, R396-R398) -/

theorem refresh_tally {i s} : (refresh i s).nand.tally = { s.nand.tally with moves := s.nand.moves + 1 } := by
  unfold refresh
  rw [recheckSpares_nand]
  show { (moveData i NandBlk.erase s.nand).tally with moves := (moveData i NandBlk.erase s.nand).tally.moves + 1 } = _
  rw [moveData_tally]
  rfl

theorem readDisturb_refreshes {s b} (works : nandWorks s = true) (used : (s.nand.blk b).stream.isSome = true)
    (full : cfgN s 0x2501 2 ≤ (s.nand.blk b).reads) :
    Completes (.readDisturbRefresh b) s fun t => t.nand.moves = s.nand.moves + 1 :=
  .run rfl (if_pos ⟨works, used, full⟩) (congrArg NandTally.moves refresh_tally)

theorem scrubEffect_run {s b w d} (works : nandWorks s = true) (used : (s.nand.blk b).stream.isSome = true) :
    scrubEffect b w d s = if cfgN s 0x2501 1 ≤ w ∨ cfgN s 0x2501 4 < d then refresh b (modNand (scrubStep b w) s)
      else modNand (scrubStep b w) s := if_pos ⟨works, used⟩

theorem scrubPage_reads {s b w d} (works : nandWorks s = true) (used : (s.nand.blk b).stream.isSome = true)
    (few : w < cfgN s 0x2501 1) (young : d ≤ cfgN s 0x2501 4) :
    Completes (.scrubPage b w d) s fun t => t.nand = scrubStep b w s.nand :=
  .run rfl ((scrubEffect_run works used).trans (if_neg (by omega))) rfl

theorem scrubPage_moves {s b w d} (works : nandWorks s = true) (used : (s.nand.blk b).stream.isSome = true)
    (due : cfgN s 0x2501 1 ≤ w ∨ cfgN s 0x2501 4 < d) :
    Completes (.scrubPage b w d) s fun t =>
      t.nand.moves = s.nand.moves + 1 ∧ t.nand.corrected = s.nand.corrected + BitVec.ofNat 64 w :=
  .run rfl ((scrubEffect_run works used).trans (if_pos due))
    ⟨congrArg NandTally.moves refresh_tally, congrArg NandTally.corrected refresh_tally⟩

theorem nandAllocate_opens {s st} (works : nandWorks s = true) :
    Completes (.nandBlockAllocate st) s fun t => t.nand = allocStream st s.nand :=
  .run rfl (if_pos works) recheckSpares_nand

theorem nandRelocation_none {s} (h : usedSpread s.nand = none) : nandRelocationEffect s = s := by
  unfold nandRelocationEffect
  rw [h]

theorem nandRelocation_idle {s} (h : nandWorks s = false) : nandRelocationEffect s = s := by
  unfold nandRelocationEffect
  split
  · exact if_neg (by simp [h])
  · rfl

theorem loadProfile_counts {s} (works : nandWorks s = true) :
    Completes .loadProfileWrite s fun t => t.nand.profiles = s.nand.profiles + 33 := by
  refine .run rfl (if_pos works) ?_
  exact congrArg (· + 33) (congrArg NandTally.profiles archive_tally)

theorem nandRows_idle {s q op a b st n w d} (h : nandWorks s = false) :
    Completes (.nandRequest q op a) s (fun t => t = s) ∧ Completes (.nandBlockAllocate st) s (fun t => t = s) ∧
    Completes (.readDisturbRefresh b) s (fun t => t = s) ∧ Completes (.scrubPage n w d) s (fun t => t = s) ∧
    Completes .loadProfileWrite s (fun t => t = s) ∧ Completes .nandStaticRelocation s (fun t => t = s) :=
  have idle {c t} (run : exec c s = .next t) (same : t = s) : Completes c s fun u => u = s := .of run same
  ⟨idle rfl (nandRequest_idle h), idle rfl (if_neg (by simp [h])), idle rfl (if_neg (by simp [h])), idle rfl (if_neg (by simp [h])),
    idle rfl (if_neg (by simp [h])), idle rfl (nandRelocation_idle h)⟩

/-- Settles O29, clause by clause: an idle manager, requests that pass and fail, allocation, refresh, scrub, relocation, load profile. -/
theorem nandCommands : Obligations.NandCommands :=
  ⟨fun _ _ _ _ _ _ _ _ _ => nandRows_idle, fun _ _ _ _ _ _ works usable => nandProgram_passes works usable,
    fun _ _ _ _ works usable => nandErase_passes works usable,
    fun _ _ _ _ _ _ _ works usable page h => .run rfl (nandRead_run works usable)
      (nandRead_corrected h (by rw [page, Option.getD_some])),
    fun _ _ _ _ _ _ works usable page h => .run rfl (nandRead_run works usable)
      (nandRead_corrected h (by rw [page, Option.getD_none])).1,
    fun _ _ _ _ _ works usable single h => .run rfl (nandRead_run works usable) (nandRead_lost h single),
    fun _ _ _ _ _ _ works usable copies page h => .run rfl (nandRead_run works usable)
      (nandRead_otherCopy h copies (by rw [page, Option.getD_some])),
    fun _ _ _ _ _ _ works usable => nandRequest_fails works usable, fun _ _ _ _ _ works => nandProgram_empty works,
    fun _ _ _ _ _ _ works => nandRequest_elsewhere works, fun _ _ => nandAllocate_opens,
    fun _ _ few => .run rfl (if_neg fun due => absurd due.2.2 (not_le.2 few)) rfl, fun _ _ => readDisturb_refreshes,
    fun _ _ _ _ => scrubPage_reads, fun _ _ _ _ => scrubPage_moves,
    fun _ h => .run rfl (nandRelocation_none h) rfl, fun _ => loadProfile_counts⟩

end Sys2Proof.Machine
end

section
/-! PROOF. Activation: the host's commands, the steps of a sequence, the restart of a lane, confirmation (R403-R407, Table 20.6). -/

namespace Sys2Proof.Machine
set_option Elab.async false

/-! ## The host's commands (R403, R406, R407) -/

theorem activation_refused {n f s} (h : n ≠ 0) : (activation n f s).upd = { s.upd with result := BitVec.ofNat 8 n } :=
  congrArg State.upd (if_neg h)

section Host
variable {s : State} (hw : safeWritable s = true) (ha : (activeLane s).isSome = true)
include hw ha

theorem activationRolling_refused {n} (status : rollingStatus s = n) (h : n ≠ 0) :
    Completes .activationRolling s fun t => t.upd = { s.upd with result := BitVec.ofNat 8 n } := by
  refine hostWrite_completes rfl hw ha ?_
  show (activation (rollingStatus s) startRolling (respond 0 [] s)).upd = _
  rw [status]
  exact activation_refused h

theorem activationRolling_starts (status : rollingStatus s = 0) : Completes .activationRolling s fun t =>
    t.upd = { s.upd with result := 0, st := .firstLane, seqSource := some s.upd.source.toNat, seqLane := standbyLane s, seqReq := true,
                         hostConfirm := false } := by
  refine hostWrite_completes rfl hw ha ?_
  show (activation (rollingStatus s) startRolling (respond 0 [] s)).upd = _
  rw [status]
  rfl

theorem activationFullRestart_completes {P : State → Prop} (h : P (activation (restartStatus s) startRestart (respond 0 [] s))) :
    Completes .activationFullRestart s P := hostWrite_completes rfl hw ha h

theorem activationFullRestart_refused {n} (status : restartStatus s = n) (h : n ≠ 0) :
    Completes .activationFullRestart s fun t => t.upd = { s.upd with result := BitVec.ofNat 8 n } := by
  refine activationFullRestart_completes hw ha ?_
  rw [status]
  exact activation_refused h

end Host

/-- The mode whose power flows is one a restart is accepted in. -/
theorem rollingStatus_mode {s} (h : s.modes.mode ≠ .run) : rollingStatus s = 1 := if_pos h

theorem rollingStatus_matches {s l} (hm : s.modes.mode = .run) (hl : standbyLane s = some l)
    (few : (s.jct.lane l).matches_.toNat < 1000) : rollingStatus s = 2 := by
  unfold rollingStatus
  rw [if_neg (not_not.2 hm), hl]
  exact if_pos few

/-- Every mode that accepts writes in SAFE accepts a restart. -/
theorem restartMode_of_safeWritable {s} (h : safeWritable s = true) : restartMode s = true := by
  unfold safeWritable at h
  unfold restartMode powerMode
  cases hm : s.modes.mode <;> simp_all

theorem restartStatus_source {s} (hw : safeWritable s = true) (h : sourceReady s = false) : restartStatus s = 4 := by
  unfold restartStatus
  rw [restartMode_of_safeWritable hw, h]
  rfl

/-- s as the update unit leaves it where a restart is accepted. -/
def restartTaken (s : State) : State :=
  modUpd (fun u => { u with st := .fullRestart, seqSource := some u.source.toNat, seqLane := none, seqReq := true, hostConfirm := false })
    (modUpd (fun u => { u with result := 0 }) (respond 0 [] s))

theorem activation_restart {s} (status : restartStatus s = 0) : activation (restartStatus s) startRestart (respond 0 [] s) =
    if powerMode s then toIdle (restartTaken s) else restartTaken s := by
  rw [status]
  rfl

theorem toIdle_upd {s} : (toIdle s).upd = s.upd := (toIdle_only (l := .a)).1 .upd (by decide)

theorem activationFullRestart_ramps {s} (hw : safeWritable s = true) (ha : (activeLane s).isSome = true) (status : restartStatus s = 0)
    (power : powerMode s = true) : Completes .activationFullRestart s fun t =>
      t.upd.st = .fullRestart ∧ t.upd.seqReq = true ∧ t.modes.pending = some (.idle, s.clk.period + msPeriods s 2000) := by
  refine activationFullRestart_completes hw ha ?_
  rw [activation_restart status, if_pos power, toIdle_upd, toIdle_modes]
  exact ⟨rfl, rfl, rfl⟩

theorem activationFullRestart_waits {s} (hw : safeWritable s = true) (ha : (activeLane s).isSome = true) (status : restartStatus s = 0)
    (idle : s.modes.mode = .idle) : Completes .activationFullRestart s fun t =>
      t.upd = { s.upd with result := 0, st := .fullRestart, seqSource := some s.upd.source.toNat, seqLane := none, seqReq := true,
                           hostConfirm := false } := by
  have unpowered : ¬powerMode s = true := by simp [powerMode, idle]
  refine activationFullRestart_completes hw ha ?_
  rw [activation_restart status, if_neg unpowered]
  rfl

/-! ## The end of a sequence by the host, and its word (R405, R407) -/

theorem activationAbort_idle {s} (hw : safeWritable s = true) (ha : (activeLane s).isSome = true) (idle : seqRunning s = false) :
    Completes .activationAbort s fun t => t.upd = s.upd := by
  refine hostWrite_completes rfl hw ha ?_
  have answered : seqRunning (respond 0 [] s) = false := idle
  rw [if_neg (ne_true_of_eq_false answered)]
  rfl

/-- Where every lane's image is confirmed no lane aborts. -/
theorem abortLanes_confirmed {s} (hA : unconfirmed s.laneA = false) (hB : unconfirmed s.laneB = false) : abortLanes s = s := by
  have lanes : ∀ l, unconfirmed (s.lane l) = false := by
    rintro (_ | _)
    · exact hA
    · exact hB
  unfold abortLanes
  dsimp only
  split <;> simp [lanes, hA, hB]

theorem activationAbort_ends {s} (hw : safeWritable s = true) (ha : (activeLane s).isSome = true) (runs : seqRunning s = true)
    (hA : unconfirmed s.laneA = false) (hB : unconfirmed s.laneB = false) : Completes .activationAbort s fun t =>
      t.upd = { s.upd with st := .aborted, seqSource := none, seqLane := none, seqReq := false, hostConfirm := false } := by
  refine hostWrite_completes rfl hw ha ?_
  have answered : seqRunning (respond 0 [] s) = true := runs
  rw [if_pos answered, abortLanes_confirmed (s := respond 0 [] s) hA hB, abortSeq, if_pos answered]
  rfl

theorem hostConfirm_taken {s} (hw : safeWritable s = true) (ha : (activeLane s).isSome = true) :
    Completes (.hostConfirm 1) s fun t => t.upd = { s.upd with hostConfirm := true } := by
  have inRange : hostRange (safeWritable s) true (modUpd fun u => { u with hostConfirm := true }) s =
      hostWrite (safeWritable s) (modUpd fun u => { u with hostConfirm := true }) s := if_neg (by simp)
  exact hostWrite_completes (congrArg Host.Outcome.next inRange) hw ha rfl

theorem hostConfirm_outside {s v} (ha : (activeLane s).isSome = true) (h : v ≠ 1) :
    Completes (.hostConfirm v) s fun t => t.upd = s.upd := by
  have outside : (v == 1) = false := by simpa using h
  obtain ⟨c, answered⟩ := hostRange_outside (ok := safeWritable s) (f := modUpd fun u => { u with hostConfirm := true }) ha
  rw [← outside] at answered
  exact .run rfl answered rfl

/-! ## The restart of a lane (R404) -/

/-- A lane that restarts alone is reset but for the events of a change of mode and the slow loops it enables; it reads BOOTING. -/
theorem restartLane_restarts {n l s} :
    LaneOnly [.bayLoops, .modLoops, .strLoops, .slowLoops, .evq] (s.lane l).afterReset ((restartLane n l s).lane l) ∧
    ((restartLane n l s).jct.lane l).role = .booting ∧ (restartLane n l s).bk = (latchCause n s).bk ∧ (restartLane n l s).upd = s.upd := by
  let r := setRole l .booting (latchCause n (resetLane l s))
  have loss : Only [.free, .modes, .comm, .chans] l [.bayLoops, .modLoops, .strLoops, .slowLoops, .evq]
      [.bayLoops, .modLoops, .strLoops, .slowLoops, .evq] r (restartLane n l s) := afterStandbyLoss_only
  have lane : r.lane l = (s.lane l).afterReset := by cases l <;> rfl
  have role : (r.jct.lane l).role = .booting := by cases l <;> rfl
  have bk : r.bk = (latchCause n s).bk := by cases l <;> rfl
  have upd : r.upd = s.upd := by cases l <;> rfl
  have keep := loss.lane
  rw [lane] at keep
  refine ⟨keep, ?_, (loss.1 .bk (by decide)).trans bk, (loss.1 .upd (by decide)).trans upd⟩
  rw [show (restartLane n l s).jct = r.jct from loss.1 .jct (by decide), role]

theorem restartLane_bootStep {n l s} : ((restartLane n l s).lane l).ctl.bootStep = 0 :=
  congrArg LaneCtl.bootStep (restartLane_restarts.1 .ctl (by decide))

theorem restartLane_role {n l s} : ((restartLane n l s).jct.lane l).role = .booting := restartLane_restarts.2.1

theorem restartLane_slots {n l s} : ((restartLane n l s).lane l).slots = (s.lane l).slots.afterReset :=
  restartLane_restarts.1 .slots (by decide)

/-! ## The steps of a sequence (R404, R406) -/

theorem sequenceAdvance_firstLane {s l} (hs : s.upd.st = .firstLane) (hl : s.upd.seqLane = some l) (hr : s.upd.seqReq = true) :
    sequenceAdvance s = resetStep l s := by
  unfold sequenceAdvance
  rw [if_neg (by simp [hs]), hl]
  dsimp only
  unfold rollingStep
  rw [hs]
  exact if_pos hr

theorem sequenceAdvance_waits {s l} (hs : s.upd.st = .firstLane) (hl : s.upd.seqLane = some l) (hr : s.upd.seqReq = true)
    (early : atShare s = false) : Completes .rollingSequenceAdvance s fun t => t = s :=
  .run rfl (sequenceAdvance_firstLane hs hl hr) (if_neg (by simp [early]))

theorem sequenceAdvance_resets {s l} (hs : s.upd.st = .firstLane) (hl : s.upd.seqLane = some l) (hr : s.upd.seqReq = true)
    (share : atShare s = true) (standby : roleOf s l = .standby) : Completes .rollingSequenceAdvance s fun t =>
      (t.lane l).ctl.bootStep = 0 ∧ (t.lane l).share = LaneState.reset.share ∧ (t.jct.lane l).role = .booting ∧ t.upd.seqReq = false ∧
      t.bk.resetLatches = s.bk.resetLatches ||| 0x2000 := by
  refine .run rfl ((sequenceAdvance_firstLane hs hl hr).trans (if_pos ⟨share, standby⟩)) ?_
  obtain ⟨lane, role, bk, upd⟩ := restartLane_restarts (n := 13) (l := l)
    (s := modUpd (fun u => { u with seqReq := false, hostConfirm := false }) s)
  rw [bk, upd]
  exact ⟨restartLane_bootStep, lane .share (by decide), role, rfl, rfl⟩

theorem completeSeq_completes {s} : (completeSeq s).upd.st = .complete ∧
    (completeSeq s).upd.minSecurity = (s.act.slots.slot s.act.slots.booted).security ∧ (completeSeq s).upd.seqSource = none := by
  unfold completeSeq
  dsimp only [modUpd_upd]
  cases source : s.upd.seqSource with
  | none => exact ⟨rfl, rfl, source⟩
  | some k =>
    dsimp only [modUpd_upd]
    split
    · unfold Update.modBuf
      split <;> exact ⟨rfl, rfl, rfl⟩
    · exact ⟨rfl, rfl, rfl⟩

theorem sequenceAdvance_completes {s l} (hs : s.upd.st = .secondLane) (hl : s.upd.seqLane = some l) (done : stepDone s l = true) :
    Completes .rollingSequenceAdvance s fun t =>
      t.upd.st = .complete ∧ t.upd.minSecurity = (s.act.slots.slot s.act.slots.booted).security ∧ t.upd.seqSource = none := by
  have run : sequenceAdvance s = completeSeq s := by
    unfold sequenceAdvance
    rw [if_neg (by simp [hs]), hl]
    dsimp only
    unfold rollingStep
    rw [hs]
    exact if_pos done
  exact .run rfl run completeSeq_completes

theorem sequenceAdvance_restarts {s} (hs : s.upd.st = .fullRestart) (hr : s.upd.seqReq = true) (unpowered : powerMode s = false)
    (settled : s.modes.pending = none) : Completes .rollingSequenceAdvance s fun t =>
      t.modes.mode = .boot ∧ t.rails.inReset = true ∧ t.bk.lastReset = 13 := by
  have run : sequenceAdvance s = resetWith 13 (safeExit s) :=
    (if_pos hs).trans ((if_pos hr).trans (if_neg (by simp [unpowered, settled])))
  exact .run rfl run ⟨rfl, rfl, rfl⟩

/-! ## Confirmation (R405, R407) -/

theorem healthConfirm_confirms {s l} (h : confirmOk s l = true) : Completes (.healthConfirm l) s fun t =>
    (t.lane l).slots = (s.lane l).slots.modSlot (s.lane l).slots.current fun v => { v with confirmed := true } :=
  .run rfl (if_pos h) (by rw [State.lane_modLane])

theorem SlotDir.slot_modSlot {d : SlotDir} {k f} : (d.modSlot k f).slot k = f (d.slot k) := by
  unfold SlotDir.modSlot SlotDir.slot
  cases k <;> rfl

theorem SlotDir.current_modSlot {d : SlotDir} {k f} : (d.modSlot k f).current = d.current := by
  unfold SlotDir.modSlot
  split <;> rfl

/-- An image marked failed, as the directory of lane x holds it. -/
theorem markFailed_failed {l s} (h : unconfirmed (s.lane l) = true) :
    ((markFailed l s).lane l).slots.slot (s.lane l).slots.current = { (s.lane l).slots.slot (s.lane l).slots.current with failed := true } := by
  unfold markFailed
  rw [State.lane_modLane, if_pos h]
  exact SlotDir.slot_modSlot

theorem abortSeq_lane {s l} : (abortSeq s).lane l = s.lane l := by
  unfold abortSeq
  split
  · cases l <;> rfl
  · rfl

theorem abortSeq_jct {s} : (abortSeq s).jct = s.jct := (abortSeq_only (l := .a)).1 .jct (by decide)

theorem markFailed_jct {l s} : (markFailed l s).jct = s.jct := State.modLane_jct _ _ _

/-- A standby lane whose image failed restarts with the image marked. -/
theorem abortOn_standby {l s} (standby : roleOf s l = .standby) (other : activeLane s ≠ some l) :
    abortOn l s = restartLane 13 l (abortSeq (markFailed l s)) := by
  have jct : (abortSeq (markFailed l s)).jct = s.jct := abortSeq_jct.trans markFailed_jct
  have role : roleOf (abortSeq (markFailed l s)) l = .standby := by unfold roleOf at *; rw [jct, standby]
  unfold abortOn
  dsimp only
  rw [if_pos (by rwa [activeLane_congr jct]), if_pos (.inl role)]

theorem abortOn_restarts {l s} (image : unconfirmed (s.lane l) = true) (standby : roleOf s l = .standby) (other : activeLane s ≠ some l) :
    ((abortOn l s).jct.lane l).role = .booting ∧ ((abortOn l s).lane l).ctl.bootStep = 0 ∧
      (((abortOn l s).lane l).slots.slot (s.lane l).slots.current).failed = true := by
  rw [abortOn_standby standby other]
  refine ⟨restartLane_role, restartLane_bootStep, ?_⟩
  rw [restartLane_slots, abortSeq_lane]
  exact congrArg FwSlot.failed (markFailed_failed image)

/-- Lane x with 600 s of run time counted on the image it boots. -/
def timedOut (x : LaneState) : LaneState :=
  { x with slots := x.slots.modSlot x.slots.current fun v => { v with runTime := 600 } }

theorem timedOut_current {x} : (timedOut x).slots.current = x.slots.current := SlotDir.current_modSlot

theorem unconfirmed_timedOut {x} : unconfirmed (timedOut x) = unconfirmed x := by
  unfold unconfirmed
  rw [timedOut_current, timedOut, SlotDir.slot_modSlot]

theorem unconfirmedTimeout_fails {s l} (h : unconfirmed (s.lane l) = true) (standby : roleOf s l = .standby)
    (other : activeLane s ≠ some l) : Completes (.unconfirmedTimeout l) s fun t =>
      (t.jct.lane l).role = .booting ∧ (t.lane l).ctl.bootStep = 0 ∧ ((t.lane l).slots.slot (s.lane l).slots.current).failed = true := by
  have jct : (s.modLane l timedOut).jct = s.jct := State.modLane_jct _ _ _
  have image : unconfirmed ((s.modLane l timedOut).lane l) = true := by rw [State.lane_modLane, unconfirmed_timedOut, h]
  have current : ((s.modLane l timedOut).lane l).slots.current = (s.lane l).slots.current := by
    rw [State.lane_modLane, timedOut_current]
  have role : roleOf (s.modLane l timedOut) l = .standby := by unfold roleOf at *; rw [jct, standby]
  have active : activeLane (s.modLane l timedOut) ≠ some l := by rwa [activeLane_congr jct]
  refine .run rfl (if_pos h) ?_
  rw [← current]
  exact abortOn_restarts image role active

/-- Settles O31, clause by clause: the host's commands, the steps of a sequence, confirmation and its timeout. -/
theorem activationCommands : Obligations.ActivationCommands :=
  ⟨fun _ hw ha => ⟨fun mode => activationRolling_refused hw ha (rollingStatus_mode mode) (by decide),
      fun _ mode standby few => activationRolling_refused hw ha (rollingStatus_matches mode standby few) (by decide),
      activationRolling_starts hw ha, fun source => activationFullRestart_refused hw ha (restartStatus_source hw source) (by decide),
      activationFullRestart_ramps hw ha, activationFullRestart_waits hw ha, activationAbort_idle hw ha, activationAbort_ends hw ha,
      hostConfirm_taken hw ha, fun _ => hostConfirm_outside ha⟩,
    fun _ _ => sequenceAdvance_resets, fun _ _ => sequenceAdvance_waits, fun _ _ => sequenceAdvance_completes,
    fun _ => sequenceAdvance_restarts, fun _ _ => healthConfirm_confirms,
    fun _ _ h => .run rfl (if_neg (by simp [h])) rfl, fun _ _ h => .run rfl (if_neg (by simp [h])) rfl,
    fun _ _ => unconfirmedTimeout_fails⟩

end Sys2Proof.Machine
end

section
/-! PROOF. The key update messages (R364, R367-R369, R371, R372, R374): the first failing status of a message, what a commit and a placed key
write in the active lane's keystore, the life cycle's move with its restart, and the replication into the standby lane. -/

namespace Sys2Proof.Machine

set_option Elab.async false

/-! ## The keystore of a lane -/

theorem modKs_ks {l f s} : ((modKs l f s).lane l).ks = f (s.lane l).ks := by cases l <;> rfl

theorem modKs_ks_other {l f s} : ((modKs l f s).lane l.other).ks = (s.lane l.other).ks := by cases l <;> rfl

theorem modKs_life {l f s} : (modKs l f s).life = s.life := by cases l <;> rfl

theorem evt_ks {e s l} : ((evt e s).lane l).ks = (s.lane l).ks := evt_only.2.1 .ks (by decide)

theorem recheckSpares_ks {s l} : ((recheckSpares s).lane l).ks = (s.lane l).ks := recheckSpares_only.2.1 .ks (by decide)

theorem recheckSpares_life {s} : (recheckSpares s).life = s.life := (recheckSpares_only (l := .a)).1 .life (by decide)

theorem keyAnswer_ks {l n s} : ((keyAnswer l n s).lane l).ks =
    { (s.lane l).ks with lastStatus := BitVec.ofNat 8 n, answer := some (BitVec.ofNat 8 n, []) } := modKs_ks

theorem keyAnswer_ks_other {l n s} : ((keyAnswer l n s).lane l.other).ks = (s.lane l.other).ks := modKs_ks_other

theorem keyAnswer_life {l n s} : (keyAnswer l n s).life = { s.life with result := BitVec.ofNat 8 n } :=
  congrArg (fun v : LifeCycle => { v with result := BitVec.ofNat 8 n }) (modKs_life (f := fun k : Keystore =>
    { k with lastStatus := BitVec.ofNat 8 n, answer := some (BitVec.ofNat 8 n, []) }))

theorem keyCommit_ks_other {l m f s} : ((keyCommit l m f s).lane l.other).ks = (s.lane l.other).ks :=
  keyCommit_only.2.2 .ks (by decide)

theorem standbyLane_congr {s t : State} (h : t.jct = s.jct) : standbyLane t = standbyLane s := by
  unfold standbyLane roleOf
  rw [h]

/-! ## A message that passes: a commit, a placed key -/

/-- Message m has changed lane l's keystore of s to the slots of n: t reads DONE, or in progress with a standby lane (R371). -/
def KeyDone (s : State) (l : Lane) (m : KeyMsg) (n : Keystore) (t : State) : Prop :=
  (t.lane l).ks.slots = n.slots ∧ (t.lane l).ks.counter = m.counter ∧ (t.lane l).ks.operations = (s.lane l).ks.operations + 1 ∧
  (t.lane l).ks.lastStatus = 0 ∧ (t.lane l.other).ks = (s.lane l.other).ks ∧ t.life.fuse = s.life.fuse ∧
  t.life.result = if (standbyLane s).isSome then 0xFF else 0

/-- No free slot of lane l verifies: t keeps the records of s and answers status 9 (R364). -/
def KeyFull (s : State) (l : Lane) (t : State) : Prop :=
  (t.lane l).ks.slots = (s.lane l).ks.slots ∧ (t.lane l).ks.counter = (s.lane l).ks.counter ∧ (t.lane l).ks.lastStatus = 9 ∧
  (t.lane l.other).ks = (s.lane l.other).ks ∧ t.life = { s.life with result := 9 }

theorem keyCommit_ks {l m f s} : ((keyCommit l m f s).lane l).ks =
    { f (s.lane l).ks with counter := m.counter, operations := (s.lane l).ks.operations + 1, busy := true
                           lastStatus := 0, answer := some (0, []) } := by
  have ite_lane {c : Prop} [Decidable c] {v : LifeCycle} {t : State} : ((if c then { t with life := v } else t).lane l).ks = (t.lane l).ks := by
    split <;> rfl
  rw [keyCommit, ite_lane, keyAnswer_ks, evt_ks, modKs_ks]
  rfl

theorem keyCommit_life {l m f s} : (keyCommit l m f s).life = { s.life with result := if (standbyLane s).isSome then 0xFF else 0 } := by
  have standby : standbyLane (keyAnswer l 0 (evt (eventReq .keyUpdate 127 [m.op.toNat, m.path.toNat, (m.body.getD 0 0).toNat])
      (modKs l (fun k => { f k with counter := m.counter, operations := k.operations + 1, busy := true }) s))) = standbyLane s :=
    standbyLane_congr ((keyAnswer_only.1 .jct (by decide)).trans (((evt_only (l := .a)).1 .jct (by decide)).trans (modKs_only.1 .jct (by decide))))
  unfold keyCommit
  dsimp only
  rw [standby]
  split
  · rw [keyAnswer_life, evt_life, modKs_life]
  · rw [keyAnswer_life, evt_life, modKs_life]
    rfl

theorem keyCommit_done {l m f n s} (h : (f (s.lane l).ks).slots = n.slots) : KeyDone s l m n (keyCommit l m f s) := by
  unfold KeyDone
  rw [keyCommit_ks, keyCommit_life, keyCommit_ks_other]
  exact ⟨h, rfl, rfl, rfl, rfl, rfl, rfl⟩

/-- Two states of one keystore and one life cycle agree on what a commit leaves. -/
theorem KeyDone.congr {s s' t t' l m n} (h : KeyDone s' l m n t') (ks : ∀ x, (t.lane x).ks = (t'.lane x).ks) (life : t.life = t'.life)
    (was : ∀ x, (s'.lane x).ks = (s.lane x).ks) (wasLife : s'.life = s.life) (jct : s'.jct = s.jct) : KeyDone s l m n t := by
  unfold KeyDone at h ⊢
  rw [was, was, wasLife, standbyLane_congr jct, ← ks, ← ks, ← life] at h
  exact h

theorem KeyFull.congr {s s' t t' l} (h : KeyFull s' l t') (ks : ∀ x, (t.lane x).ks = (t'.lane x).ks) (life : t.life = t'.life)
    (was : ∀ x, (s'.lane x).ks = (s.lane x).ks) (wasLife : s'.life = s.life) : KeyFull s l t := by
  unfold KeyFull at h ⊢
  rw [was, was, wasLife, ← ks, ← ks, ← life] at h
  exact h

/-- A key that finds no place leaves the records and the counter. -/
theorem placeKey_full {fails v k} (h : (placeKey fails v k).2 = false) :
    (placeKey fails v k).1.slots = k.slots ∧ (placeKey fails v k).1.counter = k.counter := by
  unfold placeKey at h ⊢
  split at h
  · cases h
  · exact ⟨rfl, rfl⟩

theorem keyPlace_done {l m v k s} (hk : (s.lane l).ks = k) (h : (placeKey (Config.slotFails s.free) v k).2 = true) :
    KeyDone s l m (placeKey (Config.slotFails s.free) v k).1 (keyPlace l m v s) := by
  subst hk
  have placed : keyPlace l m v s =
      recheckSpares (keyCommit l m (fun _ => (placeKey (Config.slotFails s.free) v (s.lane l).ks).1) (s.useFree 1)) :=
    by simp only [keyPlace, h, if_true]
  rw [placed]
  exact (keyCommit_done (s := s.useFree 1) (f := fun _ => (placeKey (Config.slotFails s.free) v (s.lane l).ks).1) rfl).congr
    (fun _ => recheckSpares_ks) recheckSpares_life (fun x => by cases x <;> rfl) rfl rfl

theorem keyPlace_full {l m v k s} (hk : (s.lane l).ks = k) (h : (placeKey (Config.slotFails s.free) v k).2 = false) :
    KeyFull s l (keyPlace l m v s) := by
  subst hk
  obtain ⟨slots, counter⟩ := placeKey_full h
  have full : keyPlace l m v s =
      recheckSpares (keyAnswer l 9 (modKs l (fun _ => (placeKey (Config.slotFails s.free) v (s.lane l).ks).1) (s.useFree 1))) :=
    by simp only [keyPlace, h, Bool.false_eq_true, if_false]
  rw [full]
  refine KeyFull.congr (s' := s) ?_ (fun _ => recheckSpares_ks) recheckSpares_life (fun _ => rfl) rfl
  unfold KeyFull
  rw [keyAnswer_ks, keyAnswer_ks_other, keyAnswer_life, modKs_ks, modKs_ks_other, modKs_life]
  generalize placeKey (Config.slotFails s.free) v (s.lane l).ks = r at slots counter
  exact ⟨slots, counter, rfl, by cases l <;> rfl, rfl⟩

/-! ## The command of a message -/

theorem exec_of_isKeyRow {m c s} (h : IsKeyRow m c) : exec c s = .next (updateMessage m (opEffect m) s) := by
  rcases h with rfl | rfl | rfl | rfl | rfl | rfl <;> rfl

theorem updateMessage_unanswered {m f s} (h : activeLane s = none) : updateMessage m f s = s := by
  rw [updateMessage, h]

theorem updateMessage_refused {m f s l} (h : activeLane s = some l) (hm : s.modes.mode ≠ .service) :
    updateMessage m f s = respond abortState [] (keyAnswer l 11 s) := by
  rw [updateMessage, h]
  exact if_pos hm

theorem updateMessage_failed {m f s l} (h : activeLane s = some l) (hm : s.modes.mode = .service)
    (hs : messageStatus s (s.lane l).ks m ≠ 0) :
    updateMessage m f s = keyAnswer l (messageStatus s (s.lane l).ks m) (respond 0 [] s) := by
  rw [updateMessage, h]
  exact (if_neg (not_not_intro hm)).trans (if_neg hs)

theorem updateMessage_passed {m f s l} (h : activeLane s = some l) (hm : s.modes.mode = .service)
    (hs : messageStatus s (s.lane l).ks m = 0) : updateMessage m f s = f l (respond 0 [] s) := by
  rw [updateMessage, h]
  exact (if_neg (not_not_intro hm)).trans (if_pos hs)

theorem keyRow_refused {s m c l} (hc : IsKeyRow m c) (h : activeLane s = some l) (hm : s.modes.mode ≠ .service) : Completes c s fun t =>
    (t.lane l).ks = { (s.lane l).ks with lastStatus := 11, answer := some (11, []) } ∧ (t.lane l.other).ks = (s.lane l.other).ks ∧
    t.life = { s.life with result := 11 } ∧ t.comm.response = some (abortState, []) := by
  refine .run (exec_of_isKeyRow hc) (updateMessage_refused h hm) ?_
  rw [respond_lane, respond_lane, respond_life, respond_response, keyAnswer_ks, keyAnswer_ks_other, keyAnswer_life]
  exact ⟨rfl, rfl, rfl, rfl⟩

theorem keyRow_failed {s m c l} (hc : IsKeyRow m c) (h : activeLane s = some l) (hm : s.modes.mode = .service)
    (hs : messageStatus s (s.lane l).ks m ≠ 0) : Completes c s fun t =>
    (t.lane l).ks = { (s.lane l).ks with lastStatus := BitVec.ofNat 8 (messageStatus s (s.lane l).ks m)
                                         answer := some (BitVec.ofNat 8 (messageStatus s (s.lane l).ks m), []) } ∧
    (t.lane l.other).ks = (s.lane l.other).ks ∧
    t.life = { s.life with result := BitVec.ofNat 8 (messageStatus s (s.lane l).ks m) } ∧ t.comm.response = some (0, []) := by
  refine .run (exec_of_isKeyRow hc) (updateMessage_failed h hm hs) ?_
  rw [keyAnswer_ks, keyAnswer_ks_other, keyAnswer_life, respond_lane, respond_lane, respond_life,
    show (keyAnswer l _ (respond 0 [] s)).comm = (respond 0 [] s).comm from keyAnswer_only.1 .comm (by decide), respond_response]
  exact ⟨rfl, rfl, rfl, rfl⟩

/-- A message that passes has the outcome of its operation, with the state after the acknowledgement in place of s. -/
theorem keyRow_passed {s m c l} {P : State → Prop} (hc : IsKeyRow m c) (h : activeLane s = some l) (hm : s.modes.mode = .service)
    (hs : messageStatus s (s.lane l).ks m = 0) (hp : P (opEffect m l (respond 0 [] s))) : Completes c s P :=
  .run (exec_of_isKeyRow hc) (updateMessage_passed h hm hs) hp

/-! ## The first failing status (R368) -/

theorem messageStatus_length {s k m} (h : m.length = 0) : messageStatus s k m = 1 := if_pos h

theorem messageStatus_format {s k m} (h : m.length ≠ 0) (hf : formatOk m = false) : messageStatus s k m = 2 :=
  (if_neg h).trans (if_pos (by rw [hf]; rfl))

theorem messageStatus_device {s k m} (h : m.length ≠ 0) (hf : formatOk m = true) (hd : m.deviceId ≠ s.life.identity) :
    messageStatus s k m = 3 :=
  (if_neg h).trans ((if_neg (by rw [hf]; decide)).trans (if_pos hd))

section Addressed

variable {s : State} {k : Keystore} {m : KeyMsg} (h : m.length ≠ 0) (hf : formatOk m = true) (hd : m.deviceId = s.life.identity)
include h hf hd

theorem messageStatus_signature (hs : signatureOk k m = false) : messageStatus s k m = 5 :=
  (if_neg h).trans ((if_neg (by rw [hf]; decide)).trans ((if_neg (not_not_intro hd)).trans (if_pos (by rw [hs]; rfl))))

theorem messageStatus_counter (hs : signatureOk k m = true) (hk : m.counter.toNat ≤ k.counter.toNat) : messageStatus s k m = 4 :=
  (if_neg h).trans ((if_neg (by rw [hf]; decide)).trans ((if_neg (not_not_intro hd)).trans ((if_neg (by rw [hs]; decide)).trans (if_pos hk))))

theorem messageStatus_life (hs : signatureOk k m = true) (hk : k.counter.toNat < m.counter.toNat)
    (hl : lifeServes (lifeCode s.life.fuse) m = false) : messageStatus s k m = 12 :=
  (if_neg h).trans ((if_neg (by rw [hf]; decide)).trans ((if_neg (not_not_intro hd)).trans ((if_neg (by rw [hs]; decide)).trans
    ((if_neg (Nat.not_le.mpr hk)).trans (if_pos (by rw [hl]; rfl))))))

end Addressed

/-! ## The operations (R369, R372) -/

theorem newKey_respond {c d s} : newKey (respond c d s) = newKey s := rfl

/-- What a message leaves, told of the acknowledged state, holds of the state before it. -/
theorem KeyDone.acknowledged {s t l m n} (h : KeyDone (respond 0 [] s) l m n t) : KeyDone s l m n t :=
  h.congr (fun _ => rfl) rfl (fun _ => by rw [respond_lane]) rfl rfl

theorem KeyFull.acknowledged {s t l} (h : KeyFull (respond 0 [] s) l t) : KeyFull s l t :=
  h.congr (fun _ => rfl) rfl (fun _ => by rw [respond_lane]) rfl

theorem opEffect_install {m l s x} (h : m.op = 1 ∨ m.op = 2) (hx : envelopeSecret (s.lane l).ks m = some x) :
    opEffect m l s = keyPlace l m (newKey s m false x) s := by
  have installs : installEffect m l s = keyPlace l m (newKey s m false x) s := by rw [installEffect, hx]
  rcases h with h | h <;> · rw [opEffect, h]; exact installs

theorem opEffect_invalidate {m l s} (h : m.op = 3) : opEffect m l s = invalidateEffect m l s := by rw [opEffect, h]; rfl

theorem opEffect_owner {m l s} (h : m.op = 4) : opEffect m l s = ownerEffect m l s := by rw [opEffect, h]; rfl

theorem opEffect_life {m l s} (h : m.op = 5) : opEffect m l s = lifeChangeEffect m l s := by rw [opEffect, h]; rfl

theorem opEffect_generate {m l s} (h : m.op = 6) : opEffect m l s = generateEffect m l s := by rw [opEffect, h]; rfl

theorem invalidateEffect_done {m l k s} (hk : (s.lane l).ks = k) : KeyDone s l m (Keystore.invalidate m.path k) (invalidateEffect m l s) :=
  hk ▸ KeyDone.congr (s' := evt (eventReq .keyErased 127 [m.path.toNat]) s) (keyCommit_done (by rw [evt_ks]))
    (fun _ => recheckSpares_ks) recheckSpares_life (fun _ => evt_ks) (evt_life _ _) (evt_jct _ _)

theorem ownerEffect_done {m l k s} (hk : (s.lane l).ks = k) : KeyDone s l m (putOwner (m.body.take 97) k) (ownerEffect m l s) :=
  hk ▸ keyCommit_done rfl

theorem useFree_ks {s : State} {n : Nat} {l : Lane} : ((s.useFree n).lane l).ks = (s.lane l).ks := by cases l <;> rfl

theorem generateEffect_done {m l k s} (hk : (s.lane l).ks = k)
    (h : (placeKey (Config.slotFails (s.free + 1)) (newKey s m true (Config.generate s.free)) k).2 = true) :
    KeyDone s l m (placeKey (Config.slotFails (s.free + 1)) (newKey s m true (Config.generate s.free)) k).1 (generateEffect m l s) :=
  (keyPlace_done (s := s.useFree 1) (useFree_ks.trans hk) h).congr (fun _ => rfl) rfl (fun _ => useFree_ks) rfl rfl

theorem generateEffect_full {m l k s} (hk : (s.lane l).ks = k)
    (h : (placeKey (Config.slotFails (s.free + 1)) (newKey s m true (Config.generate s.free)) k).2 = false) :
    KeyFull s l (generateEffect m l s) :=
  (keyPlace_full (s := s.useFree 1) (useFree_ks.trans hk) h).congr (fun _ => rfl) rfl (fun _ => useFree_ks) rfl

theorem keyPlace_free {l m v s} : (keyPlace l m v s).free = s.free + 1 := by
  have placed {t} : (keyCommit l m t (s.useFree 1)).free = s.free + 1 := keyCommit_only.1 .free (by decide)
  have full {f n} : (keyAnswer l n (modKs l f (s.useFree 1))).free = s.free + 1 :=
    (keyAnswer_only.1 .free (by decide)).trans (modKs_only.1 .free (by decide))
  rw [keyPlace, show ∀ t, (recheckSpares t).free = t.free from fun _ => (recheckSpares_only (l := .a)).1 .free (by decide)]
  split
  · exact placed
  · exact full

theorem generateEffect_free {m l s} : (generateEffect m l s).free = s.free + 2 := keyPlace_free

/-! ## The change of the life cycle (R372, R374) -/

theorem lifeMove_fuse {c s} : (lifeMove c s).life.fuse = s.life.fuse ||| lifeFuse c := by
  rw [lifeMove, recheckSpares_life]
  rfl

theorem lifeDestroy_fuse {c s} : (lifeDestroy c s).life.fuse = s.life.fuse ||| lifeFuse c := by
  have erased {gone : List (Nat × KeySlot)} {t : State} :
      (gone.foldl (fun s e => evt (eventReq .keyErased 127 [e.2.path.toNat]) s) t).life = t.life := by
    induction gone generalizing t with
    | nil => rfl
    | cons e es ih => exact ih.trans (evt_life _ _)
  rw [lifeDestroy, erased]
  exact lifeMove_fuse

theorem destroy_counter {b k} : (Keystore.destroy b k).counter = k.counter := rfl

theorem tamperAbort_counter {k} : (Keystore.tamperAbort k).counter = k.counter := by
  unfold Keystore.tamperAbort
  split <;> rfl

theorem bothLanes_ks {f : Keystore → Keystore} {s l} :
    ((bothLanes (fun x => { x with ks := f x.ks }) s).lane l).ks = f (s.lane l).ks := by cases l <;> rfl

theorem lifeDestroy_counter {c s l} : ((lifeDestroy c s).lane l).ks.counter = (s.lane l).ks.counter := by
  have erased {gone : List (Nat × KeySlot)} {t : State} :
      ((gone.foldl (fun s e => evt (eventReq .keyErased 127 [e.2.path.toNat]) s) t).lane l).ks = (t.lane l).ks := by
    induction gone generalizing t with
    | nil => rfl
    | cons e es ih => exact ih.trans evt_ks
  have moved {t : State} : ((lifeMove c t).lane l).ks = (t.lane l).ks := lifeMove_only.2.1 .ks (by decide)
  rw [lifeDestroy, erased, bothLanes_ks (f := Keystore.destroy (decide (4 ≤ c))), destroy_counter, moved,
    bothLanes_ks (f := fun k => k.tamperAbort.zeroise)]
  exact tamperAbort_counter

theorem plainReset_counter {n s l} : ((plainReset n s).lane l).ks.counter = (s.lane l).ks.counter := by
  have same : ((abortSequence s).lane l).ks = (s.lane l).ks := abortSequence_only.2.1 .ks (by decide)
  rw [← same]
  cases l <;> rfl

theorem plainReset_fuse {n s} : (plainReset n s).life.fuse = s.life.fuse := by
  have same : (abortSequence s).life = s.life := (abortSequence_only (l := .a)).1 .life (by decide)
  rw [← same]
  rfl

theorem lifeChangeEffect_counter {m l s x} : ((lifeChangeEffect m l s).lane x).ks.counter = m.counter := by
  have answered {t : State} {n} : ((keyAnswer l n t).lane x).ks.counter = (t.lane x).ks.counter := by
    cases x <;> cases l <;> rfl
  rw [lifeChangeEffect, plainReset_counter, answered, lifeDestroy_counter,
    bothLanes_ks (f := fun k => { k with counter := m.counter, busy := false })]

theorem lifeChangeEffect_restarts {m l s} : (lifeChangeEffect m l s).life.fuse = s.life.fuse ||| lifeFuse (m.body.getD 0 0).toNat ∧
    (lifeChangeEffect m l s).modes.mode = .boot ∧ (lifeChangeEffect m l s).bk.lastReset = 15 ∧
    ∀ x, ((lifeChangeEffect m l s).lane x).ks.counter = m.counter := by
  refine ⟨?_, rfl, ?_, fun _ => lifeChangeEffect_counter⟩
  · rw [lifeChangeEffect, plainReset_fuse, keyAnswer_life, lifeDestroy_fuse]
    exact congrArg (· ||| lifeFuse (m.body.getD 0 0).toNat) (congrArg LifeCycle.fuse keyCommit_life : (keyCommit l m id s).life.fuse = _)
  · rw [lifeChangeEffect, plainReset_bk, latchCause_bk]
    rfl

/-! ## Replication (R371) -/

theorem foldl_counter {g : Keystore → Nat × KeySlot → Keystore} (h : ∀ k a, (g k a).counter = k.counter) (xs : List (Nat × KeySlot))
    (k : Keystore) : (xs.foldl g k).counter = k.counter := by
  induction xs generalizing k with
  | nil => rfl
  | cons x xs ih => exact (ih _).trans (h _ _)

theorem replicate_counter {act own} : (replicate act own).counter = act.counter := by
  unfold replicate
  refine foldl_counter (fun k a => ?_) _ _
  split <;> rfl

theorem replicationEffect_none {ok s} (h : activeLane s = none ∨ standbyLane s = none) : replicationEffect ok s = s := by
  unfold replicationEffect
  split
  next a b => rcases h with h | h <;> simp [h] at a b
  · rfl

theorem replicationEffect_bad {s} : replicationEffect false s = s := by
  unfold replicationEffect
  split <;> rfl

theorem replicationEffect_written {s l} (ha : activeLane s = some l) (hb : standbyLane s = some l.other) :
    ((replicationEffect true s).lane l.other).ks.counter = (s.lane l).ks.counter ∧ ((replicationEffect true s).lane l).ks = (s.lane l).ks ∧
    (replicationEffect true s).life.result = if s.life.result = 0xFF then 0 else s.life.result := by
  have written : replicationEffect true s =
      if s.life.result = 0xFF then (let t := modKs l.other (replicate (s.lane l).ks) s
                                    { t with life := (let v := t.life; { v with result := 0 }) })
      else modKs l.other (replicate (s.lane l).ks) s := by
    rw [replicationEffect, ha, hb]
    cases l <;> rfl
  have counter : ((modKs l.other (replicate (s.lane l).ks) s).lane l.other).ks.counter = (s.lane l).ks.counter := by
    rw [modKs_ks, replicate_counter]
  have own : ((modKs l.other (replicate (s.lane l).ks) s).lane l).ks = (s.lane l).ks := by cases l <;> rfl
  rw [written]
  split
  · exact ⟨counter, own, rfl⟩
  · exact ⟨counter, own, congrArg LifeCycle.result modKs_life⟩

/-- Settles O45, with one equation for each way out of a message and one lemma for each operation. -/
theorem keyUpdateMessages : Obligations.KeyUpdateMessages :=
  ⟨fun _ _ _ hc h => .run (exec_of_isKeyRow hc) (updateMessage_unanswered h) rfl,
    fun _ _ _ _ hc h => ⟨keyRow_refused hc h, keyRow_failed hc h⟩,
    fun _ _ _ => ⟨messageStatus_length, messageStatus_format, messageStatus_device,
      fun h hf hd => ⟨messageStatus_signature h hf hd, messageStatus_counter h hf hd, messageStatus_life h hf hd⟩⟩,
    fun s m c l hc ha hm hs => by
      have ks : ((respond 0 [] s).lane l).ks = (s.lane l).ks := congrArg LaneState.ks (respond_lane _ _ _ _)
      refine ⟨fun x ho hx => ⟨fun hp => ?_, fun hp => ?_⟩, fun ho => ?_, fun ho => ?_, fun ho => ⟨fun hp => ?_, fun hp => ?_⟩, fun ho => ?_⟩
      all_goals refine keyRow_passed hc ha hm hs ?_
      · rw [opEffect_install ho (ks ▸ hx)]
        have done := keyPlace_done (m := m) (v := newKey s m false x) ks hp
        rw [respond_free] at done
        exact done.acknowledged
      · rw [opEffect_install ho (ks ▸ hx)]
        exact (keyPlace_full ks hp).acknowledged
      · rw [opEffect_invalidate ho]
        exact (invalidateEffect_done ks).acknowledged
      · rw [opEffect_owner ho]
        exact (ownerEffect_done ks).acknowledged
      · rw [opEffect_generate ho]
        have done := generateEffect_done ks hp
        rw [respond_free, newKey_respond] at done
        exact ⟨done.acknowledged, generateEffect_free⟩
      · rw [opEffect_generate ho]
        exact (generateEffect_full ks hp).acknowledged
      · rw [opEffect_life ho]
        exact lifeChangeEffect_restarts,
    fun _ h => .run rfl (replicationEffect_none h) rfl, fun _ => .run rfl replicationEffect_bad rfl,
    fun _ _ ha hb => .of rfl (replicationEffect_written ha hb)⟩

end Sys2Proof.Machine
end

section
/-! PROOF. Key statements, certification requests and the requests to the keystore (R362, R365, R366, R370): what an answer leaves of the
keystore, what a request does with its status and its key, and the volatile slot of a derivation. -/

namespace Sys2Proof.Machine

set_option Elab.async false

/-! ## An answer of the keystore -/

/-- The keystore of lane l has answered st and d since s and kept its slots and its counter. -/
def KeyAnswered (s : State) (l : Lane) (st : Nat) (d : List Byte) (t : State) : Prop :=
  (t.lane l).ks.answer = some (BitVec.ofNat 8 st, d) ∧ (t.lane l).ks.lastStatus = BitVec.ofNat 8 st ∧
  (t.lane l).ks.slots = (s.lane l).ks.slots ∧ (t.lane l).ks.counter = (s.lane l).ks.counter

theorem ksStatus_ks {l n d s} : ((ksStatus l n d s).lane l).ks =
    { (s.lane l).ks with lastStatus := BitVec.ofNat 8 n, answer := some (BitVec.ofNat 8 n, d), busy := n == 0
                         operations := if n = 0 then (s.lane l).ks.operations + 1 else (s.lane l).ks.operations } := modKs_ks

theorem ksStatus_life {l n d s} : (ksStatus l n d s).life = s.life := modKs_life

theorem ksStatus_answered {l n d s t} (h : (t.lane l).ks = (s.lane l).ks) : KeyAnswered s l n d (ksStatus l n d t) := by
  unfold KeyAnswered
  rw [ksStatus_ks, h]
  exact ⟨rfl, rfl, rfl, rfl⟩

theorem KeyAnswered.useFree {s l n d t k} (h : KeyAnswered s l n d t) : KeyAnswered s l n d (t.useFree k) := by
  unfold KeyAnswered at h ⊢
  rwa [useFree_ks]

/-! ## Statements and certification requests (R370) -/

/-- The path a command on object 2402:03 names. -/
def namedPath (s : State) : U32 := BitVec.ofNat 32 (rwN s 0x2402 1)

theorem hostWrite_notWritable {f s} : (hostWrite false f s).laneA = s.laneA ∧ (hostWrite false f s).laneB = s.laneB ∧
    (hostWrite false f s).life = s.life := by
  unfold hostWrite
  split <;> exact ⟨rfl, rfl, rfl⟩

section Command

variable {s : State} {l : Lane} (ha : activeLane s = some l)
include ha

theorem statementEffect_refused (h : commandStatus s (s.lane l).ks (namedPath s) ≠ 0) :
    statementEffect s = ksStatus l (commandStatus s (s.lane l).ks (namedPath s)) [] s := by
  unfold namedPath at h ⊢
  rw [statementEffect, ha]
  dsimp only
  split
  next hc _ _ => exact absurd hc h
  next hc _ => exact absurd hc h
  · rfl

theorem statementEffect_signed {i v j a} (h : commandStatus s (s.lane l).ks (namedPath s) = 0)
    (hf : (s.lane l).ks.find (namedPath s) = some (i, v)) (hk : (s.lane l).ks.find 0x01020000 = some (j, a)) (ho : a.orphaned = false) :
    statementEffect s = ksStatus l 0 [] { s.useFree 1 with life := { s.life with
      statement := statementBody s (s.lane l).ks v ++ (padTo 96 (Config.sign a.secret s.free (statementBody s (s.lane l).ks v))).take 96 } } := by
  unfold namedPath at h hf
  rw [statementEffect, ha]
  dsimp only
  rw [h, hf, hk]
  exact if_neg (by rw [ho]; decide)

theorem csrEffect_refused (h : commandStatus s (s.lane l).ks (namedPath s) ≠ 0) :
    csrEffect s = ksStatus l (commandStatus s (s.lane l).ks (namedPath s)) [] s := by
  unfold namedPath at h ⊢
  rw [csrEffect, ha]
  dsimp only
  split
  next hc _ => exact absurd hc h
  · rfl

variable {i : Nat} {v : KeySlot} (h : commandStatus s (s.lane l).ks (namedPath s) = 0)
  (hf : (s.lane l).ks.find (namedPath s) = some (i, v))
include h hf

theorem csrEffect_unusable (hv : v.usage.getLsbD 0 = false ∨ v.pubOnly = true) : csrEffect s = ksStatus l 10 [] s := by
  unfold namedPath at h hf
  rw [csrEffect, ha]
  dsimp only
  rw [h, hf]
  exact if_pos (by simpa using hv)

theorem csrEffect_issued (hu : v.usage.getLsbD 0 = true) (hp : v.pubOnly = false)
    (hd : lifeCode s.life.fuse ≠ 3 ∨ pathDomain (namedPath s) = 1) :
    csrEffect s = ksStatus l 0 [] { s.useFree 1 with life := { s.life with csr := Config.certRequest v.secret s.free v.pub } } := by
  unfold namedPath at h hf hd
  rw [csrEffect, ha]
  dsimp only
  rw [h, hf]
  refine (if_neg ?_).trans (if_neg ?_)
  · simp [hu, hp]
  · rcases hd with hd | hd <;> simp [hd]

end Command

/-! ## Requests (R365, R366) -/

/-- A slot enters the lane's cache. -/
def Keystore.cached (i : Nat) (k : Keystore) : Keystore := { k with cache := if k.cache.contains i then k.cache else i :: k.cache }

section Request

variable {r : KeyReq} {b : Nat} {fam : U8 → Bool} {f : KeySlot → Nat × List Byte} {s : State}

theorem keyRequest_outside (h : s.modes.mode = .backup ∨ inService s r.lane = false) : keyRequest r b fam f s = s :=
  if_pos (by simpa using h)

variable (hm : s.modes.mode ≠ .backup) (hi : inService s r.lane = true)
include hm hi

theorem keyRequest_refused (h : requestStatus s (s.lane r.lane).ks r b fam ≠ 0) :
    keyRequest r b fam f s = ksStatus r.lane (requestStatus s (s.lane r.lane).ks r b fam) [] s := by
  refine (if_neg (by simp [hm, hi])).trans ?_
  dsimp only
  split
  next hc _ => exact absurd hc h
  · rfl

theorem keyRequest_served {i v} (h : requestStatus s (s.lane r.lane).ks r b fam = 0) (hf : (s.lane r.lane).ks.find r.path = some (i, v)) :
    keyRequest r b fam f s = modKs r.lane (Keystore.cached i) (ksStatus r.lane (f v).1 (f v).2 s) := by
  refine (if_neg (by simp [hm, hi])).trans ?_
  dsimp only
  rw [h, hf]
  rfl

theorem keyRequest_answered {i v n d} (h : requestStatus s (s.lane r.lane).ks r b fam = 0)
    (hf : (s.lane r.lane).ks.find r.path = some (i, v)) (gives : f v = (n, d)) : KeyAnswered s r.lane n d (keyRequest r b fam f s) := by
  unfold KeyAnswered
  rw [keyRequest_served hm hi h hf, modKs_ks, ksStatus_ks, gives]
  exact ⟨rfl, rfl, rfl, rfl⟩

end Request

theorem keyRequest_slots {r b fam f s} : ((keyRequest r b fam f s).lane r.lane).ks.slots = (s.lane r.lane).ks.slots := by
  unfold keyRequest
  split
  · rfl
  · dsimp only
    split
    · rw [modKs_ks, ksStatus_ks]
    · rw [ksStatus_ks]

/-- Of a request that cannot reach its key nothing but the refusal of keyRequest is left; the TRNG may have been used. -/
theorem exec_isKeyRequest {r b fam c s} (hc : IsKeyRequest r b fam c)
    (h : (s.modes.mode = .backup ∨ inService s r.lane = false) ∨ requestStatus s (s.lane r.lane).ks r b fam ≠ 0) :
    ∃ f n, exec c s = .next ((keyRequest r b fam f s).useFree n) := by
  rcases hc with ⟨rfl, rfl, rfl | ⟨sig, rfl⟩⟩ | ⟨rfl, rfl, rfl⟩ | ⟨rfl, rfl, rfl | rfl⟩ | ⟨rfl, rfl, rfl⟩ | ⟨rfl, rfl, child, rfl⟩
  · exact ⟨_, 1, rfl⟩
  · exact ⟨_, 0, rfl⟩
  · exact ⟨_, 0, rfl⟩
  · exact ⟨_, 1, rfl⟩
  · exact ⟨_, 0, rfl⟩
  · exact ⟨_, 0, rfl⟩
  · refine ⟨fun _ => (0, []), 0, congrArg Host.Outcome.next ?_⟩
    show (if _ then s else deriveEffect r child s) = keyRequest r 3 isKdfAlg (fun _ => (0, [])) s
    by_cases out : s.modes.mode = .backup ∨ inService s r.lane = false
    · rw [keyRequest_outside out]
      exact if_pos (by simpa using out)
    · refine (if_neg (by simpa using out)).trans ?_
      have refused := h.resolve_left out
      unfold deriveEffect
      dsimp only
      generalize requestStatus s (s.lane r.lane).ks r 3 isKdfAlg = n at refused ⊢
      cases n with
      | zero => exact absurd rfl refused
      | succ => rfl

theorem keyRequests_outside {s r b fam c} (hc : IsKeyRequest r b fam c) (h : s.modes.mode = .backup ∨ inService s r.lane = false) :
    Completes c s fun t => t.laneA = s.laneA ∧ t.laneB = s.laneB ∧ t.life = s.life := by
  obtain ⟨f, n, run⟩ := exec_isKeyRequest hc (.inl h)
  rw [keyRequest_outside h] at run
  exact .of run ⟨rfl, rfl, rfl⟩

theorem keyRequests_refused {s r b fam c} (hc : IsKeyRequest r b fam c) (hm : s.modes.mode ≠ .backup) (hi : inService s r.lane = true)
    (h : requestStatus s (s.lane r.lane).ks r b fam ≠ 0) : KeyAnswers c s r.lane (requestStatus s (s.lane r.lane).ks r b fam) [] := by
  obtain ⟨f, n, run⟩ := exec_isKeyRequest hc (.inr h)
  rw [keyRequest_refused hm hi h] at run
  exact .of run (ksStatus_answered rfl).useFree

/-! ## Derivations and hashes -/

section Derive

variable {r : KeyReq} {c : U32} {s : State} (hm : s.modes.mode ≠ .backup) (hi : inService s r.lane = true)
  (h : requestStatus s (s.lane r.lane).ks r 3 isKdfAlg = 0) {i : Nat} {v : KeySlot} (hf : (s.lane r.lane).ks.find r.path = some (i, v))
include hm hi h hf

theorem derive_refused (hc : childStatus s (s.lane r.lane).ks r c ≠ 0) :
    KeyAnswers (.keystoreDerive r c) s r.lane (childStatus s (s.lane r.lane).ks r c) [] := by
  have effect : deriveEffect r c s = keyRequest r 3 isKdfAlg (fun _ => (childStatus s (s.lane r.lane).ks r c, [])) s := by
    unfold deriveEffect
    dsimp only
    rw [h, hf]
    generalize childStatus s (s.lane r.lane).ks r c = n at hc ⊢
    cases n with
    | zero => exact absurd rfl hc
    | succ => rfl
  exact .run rfl ((if_neg (by simp [hm, hi])).trans effect) (keyRequest_answered hm hi h hf rfl)

theorem derive_filled (hc : childStatus s (s.lane r.lane).ks r c = 0) : Completes (.keystoreDerive r c) s fun t =>
    (t.lane r.lane).ks.slots = (putKey (childKey s v r c) (s.lane r.lane).ks).slots := by
  have effect : deriveEffect r c s =
      keyRequest r 3 isKdfAlg (fun _ => (0, [])) (recheckSpares (modKs r.lane (putKey (childKey s v r c)) s)) := by
    unfold deriveEffect
    dsimp only
    rw [h, hf, hc]
    rfl
  refine .run rfl ((if_neg (by simp [hm, hi])).trans effect) ?_
  rw [keyRequest_slots, recheckSpares_ks, modKs_ks]

end Derive

section Hash

variable {r : KeyReq} {s : State}

theorem hashEffect_outside (h : s.modes.mode = .backup ∨ inService s r.lane = false) : hashEffect r s = s := if_pos (by simpa using h)

variable (hm : s.modes.mode ≠ .backup) (hi : inService s r.lane = true)
include hm hi

theorem hashEffect_empty (h : r.data = []) : hashEffect r s = ksStatus r.lane 1 [] s :=
  (if_neg (by simp [hm, hi])).trans (if_pos (by simp [h]))

theorem hashEffect_life (h : r.data ≠ []) (hl : lifeCode s.life.fuse = 0 ∨ lifeCode s.life.fuse = 3 ∨ lifeCode s.life.fuse = 4) :
    hashEffect r s = ksStatus r.lane 12 [] s :=
  (if_neg (by simp [hm, hi])).trans ((if_neg (by simpa using h)).trans (if_pos hl))

theorem hashEffect_answered (h : r.data ≠ []) (hl : lifeCode s.life.fuse = 1 ∨ lifeCode s.life.fuse = 2) :
    hashEffect r s = ksStatus r.lane 0 (Config.hash r.algorithm r.data) s :=
  (if_neg (by simp [hm, hi])).trans ((if_neg (by simpa using h)).trans (if_neg (by omega)))

end Hash

/-! ## The statement -/

section Host

variable {s : State} {l : Lane} (ha : activeLane s = some l) (hw : writable s = true)
include ha hw

theorem keyStatement_run {P : State → Prop} (h : P (statementEffect (respond 0 [] s))) : Completes .keyStatement s P :=
  hostWrite_completes rfl hw (by rw [ha]; rfl) h

theorem certificationRequest_run {P : State → Prop} (h : P (csrEffect (respond 0 [] s))) : Completes .certificationRequest s P :=
  hostWrite_completes rfl hw (by rw [ha]; rfl) h

end Host

theorem respond_ks {c d s l} : ((respond c d s).lane l).ks = (s.lane l).ks := congrArg LaneState.ks (respond_lane _ _ _ _)

section Named

variable {s : State} {l : Lane} (ha : activeLane s = some l) (hw : writable s = true)
include ha hw

theorem commands_refused (h : commandStatus s (s.lane l).ks (namedPath s) ≠ 0) :
    KeyAnswers .keyStatement s l (commandStatus s (s.lane l).ks (namedPath s)) [] ∧
    KeyAnswers .certificationRequest s l (commandStatus s (s.lane l).ks (namedPath s)) [] := by
  have same : commandStatus (respond 0 [] s) ((respond 0 [] s).lane l).ks (namedPath (respond 0 [] s)) =
      commandStatus s (s.lane l).ks (namedPath s) := by rw [respond_ks]; rfl
  constructor
  · refine keyStatement_run ha hw ?_
    rw [statementEffect_refused (s := respond 0 [] s) ha (same.trans_ne h), same]
    exact ksStatus_answered respond_ks
  · refine certificationRequest_run ha hw ?_
    rw [csrEffect_refused (s := respond 0 [] s) ha (same.trans_ne h), same]
    exact ksStatus_answered respond_ks

variable {i : Nat} {v : KeySlot} (h : commandStatus s (s.lane l).ks (namedPath s) = 0)
  (hf : (s.lane l).ks.find (namedPath s) = some (i, v))
include h hf

theorem keyStatement_signed {j a} (hk : (s.lane l).ks.find 0x01020000 = some (j, a)) (ho : a.orphaned = false) :
    Completes .keyStatement s fun t =>
      t.life.statement = statementBody s (s.lane l).ks v ++
        (padTo 96 (Config.sign a.secret s.free (statementBody s (s.lane l).ks v))).take 96 ∧
      (t.lane l).ks.lastStatus = 0 ∧ (t.lane l).ks.slots = (s.lane l).ks.slots := by
  rw [← respond_ks (c := 0) (d := [])] at h hf hk
  refine keyStatement_run ha hw ?_
  rw [statementEffect_signed (s := respond 0 [] s) ha h hf hk ho, ksStatus_life, ksStatus_ks, respond_ks]
  exact ⟨rfl, rfl, by cases l <;> rfl⟩

theorem certificationRequest_unusable (hv : v.usage.getLsbD 0 = false ∨ v.pubOnly = true) :
    KeyAnswers .certificationRequest s l 10 [] := by
  rw [← respond_ks (c := 0) (d := [])] at h hf
  refine certificationRequest_run ha hw ?_
  rw [csrEffect_unusable (s := respond 0 [] s) ha h hf hv]
  exact ksStatus_answered respond_ks

theorem certificationRequest_issued (hu : v.usage.getLsbD 0 = true) (hp : v.pubOnly = false)
    (hd : lifeCode s.life.fuse ≠ 3 ∨ pathDomain (namedPath s) = 1) : Completes .certificationRequest s fun t =>
    t.life.csr = Config.certRequest v.secret s.free v.pub ∧ (t.lane l).ks.lastStatus = 0 ∧ (t.lane l).ks.slots = (s.lane l).ks.slots := by
  rw [← respond_ks (c := 0) (d := [])] at h hf
  refine certificationRequest_run ha hw ?_
  rw [csrEffect_issued (s := respond 0 [] s) ha h hf hu hp hd, ksStatus_life, ksStatus_ks]
  exact ⟨rfl, rfl, by cases l <;> rfl⟩

end Named

/-- Settles O46: each request is answered by keyRequest with its status or with what its key gives. -/
theorem keystoreRequests : Obligations.KeystoreRequests :=
  ⟨fun s h => ⟨.of rfl (h ▸ hostWrite_notWritable), .of rfl (h ▸ hostWrite_notWritable)⟩,
    fun _ _ ha hw => ⟨commands_refused ha hw, fun _ _ h hf =>
      ⟨fun _ _ => keyStatement_signed ha hw h hf, certificationRequest_unusable ha hw h hf, certificationRequest_issued ha hw h hf⟩⟩,
    fun _ _ _ _ _ => keyRequests_outside, fun _ _ _ _ _ => keyRequests_refused,
    fun s r i v hm hi hf => by
      refine ⟨fun h => ?_, fun h => ?_, fun h => ?_, fun h => .of rfl (keyRequest_answered hm hi h hf rfl),
        fun c h => ⟨derive_refused hm hi h hf, derive_filled hm hi h hf⟩⟩
      · exact ⟨fun hp => .of rfl (keyRequest_answered hm hi h hf (if_neg (by rw [hp]; decide))).useFree,
          fun hp => .of rfl (keyRequest_answered hm hi h hf (if_pos hp)).useFree,
          fun sig hv => .of rfl (keyRequest_answered hm hi h hf (by rw [hv]; rfl)),
          fun sig hv => .of rfl (keyRequest_answered hm hi h hf (by rw [hv]; rfl))⟩
      · exact ⟨fun hc => .of rfl (keyRequest_answered hm hi h hf (if_pos hc)),
          fun hc => .of rfl (keyRequest_answered hm hi h hf (if_neg (by rw [hc]; decide)))⟩
      · exact ⟨.of rfl (keyRequest_answered hm hi h hf rfl).useFree, fun d hd => .of rfl (keyRequest_answered hm hi h hf (by rw [hd])),
          fun hd => .of rfl (keyRequest_answered hm hi h hf (by rw [hd]))⟩,
    fun _ _ h => .run rfl (hashEffect_outside h) rfl,
    fun _ _ hm hi => ⟨fun h => .run rfl (hashEffect_empty hm hi h) (ksStatus_answered rfl),
      fun h hl => .run rfl (hashEffect_life hm hi h hl) (ksStatus_answered rfl),
      fun h hl => .run rfl (hashEffect_answered hm hi h hl) (ksStatus_answered rfl)⟩⟩

end Sys2Proof.Machine
end

section
/-! PROOF. The operations on one vehicle session (chapter 15): each is the session put in its place anew, and an end cause stops it. The
protocol a session takes (R310). -/

namespace Sys2Proof.Machine

set_option Elab.async false

/-! ## A session put in its place -/

/-- s with the session of link n replaced. -/
def putSess (n : Nat) (v : Session) (s : State) : State := modSess n (fun _ => v) s

/-- s with its vehicle links replaced. -/
def setLinks (l : List Session) (s : State) : State := { s with veh := { s.veh with links := l } }

section Put

variable {n : Nat} {v w : Session} {s : State}

theorem sess_putSess (h : n < s.veh.links.length) : sess (putSess n v s) n = v := nth_upd_self _ _ _ h

@[simp] theorem putSess_links : (putSess n v s).veh.links.length = s.veh.links.length := upd_length _ _ _

@[simp] theorem putSess_putSess : putSess n v (putSess n w s) = putSess n v s :=
  congrArg (fun l => setLinks l s) (List.modify_modify_eq ..)

/-- An element changed is the element replaced by its new value; there is none where the list is shorter. -/
theorem upd_eq_put {α : Type} [Inhabited α] (l : List α) (i : Nat) (f : α → α) : upd l i f = put l i (f (nth l i)) := by
  apply List.ext_getElem?
  intro j
  rw [upd, put, List.getElem?_modify, List.getElem?_modify]
  by_cases e : i = j
  · subst e
    cases hi : l[i]? <;> simp [nth, hi]
  · simp [e]

theorem modSess_put {f : Session → Session} : modSess n f s = putSess n (f (sess s n)) s :=
  congrArg (fun l => setLinks l s) (upd_eq_put _ _ f)

theorem putSess_self : putSess n (sess s n) s = s :=
  (modSess_put (f := fun v => v)).symm.trans (congrArg (fun l => setLinks l s) (List.modify_id ..))

@[simp] theorem putSess_free : (putSess n v s).free = s.free := rfl
@[simp] theorem putSess_clk : (putSess n v s).clk = s.clk := rfl
@[simp] theorem putSess_met : (putSess n v s).met = s.met := rfl
@[simp] theorem putSess_site : (putSess n v s).site = s.site := rfl
@[simp] theorem putSess_ended : (putSess n v s).veh.ended = s.veh.ended := rfl

/-! What is configured and the mode are the same, and so is what is read from them. -/

@[simp] theorem putSess_mode : (putSess n v s).modes = s.modes := rfl
@[simp] theorem putSess_vehMode {k} : vehMode (putSess n v s) k = vehMode s k := rfl
@[simp] theorem putSess_cfgN {i k} : cfgN (putSess n v s) i k = cfgN s i k := rfl
@[simp] theorem putSess_cfgB {i k} : cfgB (putSess n v s) i k = cfgB s i k := rfl
@[simp] theorem putSess_bayOfVehicle {k} : bayOfVehicle (putSess n v s) k = bayOfVehicle s k := rfl
@[simp] theorem putSess_bayMask {k} : bayMask (putSess n v s) k = bayMask s k := rfl
@[simp] theorem putSess_mayBegin {k} : mayBegin (putSess n v s) k = mayBegin s k := rfl
@[simp] theorem putSess_pilotOut {k w} : pilotOut (putSess n v s) k w = pilotOut s k w := rfl
@[simp] theorem putSess_attach {k w} : attach (putSess n v s) k w = attach s k w := rfl
@[simp] theorem putSess_attachOk {k w} : attachOk (putSess n v s) k w = attachOk s k w := rfl

end Put

theorem link_in {s : State} (n : Fin 24) (h : s.veh.links.length = 24) : n.val < s.veh.links.length := by
  rw [h]
  exact n.isLt

/-! ## The named changes of a session -/

/-- The pilot generator follows. -/
def withOut (s : State) (n : Nat) (v : Session) : Session := { v with out := pilotOut s n v }

/-- Answered with a code. -/
def answered (code : U8) (v : Session) : Session :=
  { v with response := some { (default : VehResponse) with status := code }
           timers := if 3 ≤ v.st.code ∧ v.st.code ≤ 5 then { v.timers with sequence := true } else v.timers }

/-- A request has come. -/
def requested (v : Session) : Session := { v with timers := { v.timers with sequence := false, loopSilence := false } }

/-- Stopped on a cause in period p. -/
def stoppedSess (p : Nat) (cause : Nat) (v : Session) : Session :=
  { v with st := .stopping, cause := BitVec.ofNat 8 cause, stopAt := p, toFault := faultCause cause, timers := Timers.none
           authWait := false, thermalHold := false }

section Named

variable {n : Nat} {s : State}

@[simp] theorem withOut_st {v} : (withOut s n v).st = v.st := rfl
@[simp] theorem withOut_timers {v} : (withOut s n v).timers = v.timers := rfl
@[simp] theorem withOut_response {v} : (withOut s n v).response = v.response := rfl
@[simp] theorem withOut_protocol {v} : (withOut s n v).protocol = v.protocol := rfl
@[simp] theorem withOut_authWait {v} : (withOut s n v).authWait = v.authWait := rfl
@[simp] theorem withOut_hostAuth {v} : (withOut s n v).hostAuth = v.hostAuth := rfl
@[simp] theorem withOut_pilot {v} : (withOut s n v).pilot = v.pilot := rfl
@[simp] theorem withOut_lock {v} : (withOut s n v).lock = v.lock := rfl
@[simp] theorem putSess_withOut {k v w} : withOut (putSess n v s) k w = withOut s k w := rfl

@[simp] theorem answered_st {c v} : (answered c v).st = v.st := rfl
@[simp] theorem answered_protocol {c v} : (answered c v).protocol = v.protocol := rfl
@[simp] theorem answered_authWait {c v} : (answered c v).authWait = v.authWait := rfl
@[simp] theorem answered_status {c v} : (answered c v).response.map (·.status) = some c := rfl

@[simp] theorem requested_st {v} : (requested v).st = v.st := rfl
@[simp] theorem requested_protocol {v} : (requested v).protocol = v.protocol := rfl
@[simp] theorem requested_hostAuth {v} : (requested v).hostAuth = v.hostAuth := rfl

theorem refreshOut_put : refreshOut n s = putSess n (withOut s n (sess s n)) s := modSess_put

theorem answer_put {c} : answer n c s = putSess n (answered c (sess s n)) s := modSess_put

theorem requestCame_put : requestCame n s = putSess n (requested (sess s n)) s := modSess_put

theorem goSess_put {st} (h : n < s.veh.links.length) : goSess n st s = putSess n (withOut s n { sess s n with st := st }) s := by
  rw [goSess, refreshOut_put, modSess_put, sess_putSess h, putSess_withOut, putSess_putSess]

variable {v : Session} (h : n < s.veh.links.length)
include h

theorem modSess_putSess {f : Session → Session} : modSess n f (putSess n v s) = putSess n (f v) s := by
  rw [modSess_put, sess_putSess h, putSess_putSess]

theorem refreshOut_putSess : refreshOut n (putSess n v s) = putSess n (withOut s n v) s := by
  rw [refreshOut_put, sess_putSess h, putSess_withOut, putSess_putSess]

theorem answer_putSess {c} : answer n c (putSess n v s) = putSess n (answered c v) s := modSess_putSess h

theorem goSess_putSess {st} : goSess n st (putSess n v s) = putSess n (withOut s n { v with st := st }) s := by
  rw [goSess, modSess_putSess h, refreshOut_putSess h]

end Named

/-! ## A session that stops (R319) -/

/-- Session n, which read v, has stopped on a cause since s: t counts it. -/
def StopsFrom (s : State) (n cause : Nat) (v : Session) (t : State) : Prop :=
  (∃ o, sess t n = { stoppedSess s.clk.period cause v with out := o }) ∧ t.veh.ended = s.veh.ended + 1

theorem StopsFrom.stops {s n cause v t} (h : StopsFrom s n cause v t) : SessionStops s t n cause := by
  obtain ⟨⟨o, now⟩, counted⟩ := h
  unfold SessionStops
  rw [now]
  exact ⟨rfl, rfl, rfl, rfl, counted⟩

theorem meterEnd_veh {n s} : (meterEnd n s).veh = s.veh := (meterEnd_only (l := .a)).1 .veh (by decide)

theorem endSession_veh {n cause s} (live : (sess s n).st.live = true) : (endSession n cause s).veh =
    { s.veh with links := upd s.veh.links n (stoppedSess s.clk.period cause), ended := s.veh.ended + 1 } := by
  rw [endSession]
  dsimp only
  rw [if_pos live, meterEnd_veh, evt_veh]
  rfl

theorem endSession_ended {n cause s} (live : (sess s n).st.live = false) (away : (sess s n).st ≠ .stopping) : endSession n cause s = s :=
  (if_neg (by rw [live]; decide)).trans (if_neg fun h => away h.1)

/-- A live session is stopped, from whatever state of the other units. -/
theorem stopSess_from {s u : State} {n cause : Nat} {v : Session} (h : n < u.veh.links.length) (now : sess u n = v)
    (live : v.st.live = true) (clk : u.clk = s.clk) (ended : u.veh.ended = s.veh.ended) : StopsFrom s n cause v (stopSess n cause u) := by
  have veh := endSession_veh (cause := cause) (now.symm ▸ live)
  have len : n < (endSession n cause u).veh.links.length := by rw [veh]; exact (upd_length _ _ _).symm ▸ h
  have stopped : sess (endSession n cause u) n = stoppedSess s.clk.period cause v := by
    unfold sess at now ⊢
    rw [veh, ← now, ← clk]
    exact nth_upd_self _ _ _ h
  unfold StopsFrom stopSess
  rw [refreshOut_put, sess_putSess len, stopped, putSess_ended, veh, ended]
  exact ⟨⟨_, rfl⟩, rfl⟩

theorem stopSess_put {s : State} {n cause : Nat} {v : Session} (h : n < s.veh.links.length) (live : v.st.live = true) :
    StopsFrom s n cause v (stopSess n cause (putSess n v s)) :=
  stopSess_from (by rwa [putSess_links]) (sess_putSess h) live rfl rfl

theorem stopSess_stops {s : State} {n cause : Nat} (h : n < s.veh.links.length) (live : (sess s n).st.live = true) :
    StopsFrom s n cause (sess s n) (stopSess n cause s) :=
  stopSess_from h rfl live rfl rfl

theorem failMessage_stops {s : State} {n : Nat} {code : U8} (h : n < s.veh.links.length) (live : (sess s n).st.live = true) :
    StopsFrom s n 11 (answered code (sess s n)) (failMessage n code s) := by
  have failed : failMessage n code s = stopSess n 11 (evt (eventReq .protocolError n [n + 1, (sess s n).st.code]) (answer n code s)) :=
    if_pos live
  rw [failed, answer_put]
  refine stopSess_from ?_ ?_ live (evt_clk _ _) ?_
  · rw [evt_veh, putSess_links]; exact h
  · unfold sess; rw [evt_veh]; exact sess_putSess h
  · rw [evt_veh, putSess_ended]

/-- A message out of its place stops the session on cause 11 (R311). -/
theorem inState_fails {s : State} {n : Nat} {f : State → State} (h : n < s.veh.links.length) (live : (sess s n).st.live = true) :
    StopsFrom s n 11 (answered 2 (sess s n)) (inState n false f s) := failMessage_stops h live

theorem inState_takes {s : State} {n : Nat} {f : State → State} : inState n true f s = f (putSess n (requested (sess s n)) s) :=
  congrArg f requestCame_put

/-! ## The protocol (R310) -/

section Protocol

variable {s : State} {n : Nat} (h : n < s.veh.links.length) (hs : (sess s n).st = .setup) {l : List Protocol}
include h hs

theorem appProtocol_picked {p} (hp : pickProtocol (vehMode s n) (bayMask s n) l = some p) :
    inState n ((sess s n).st == .setup) (appProtocol n l) s =
      putSess n (answered 0 { requested (sess s n) with protocol := BitVec.ofNat 8 (Protocol.code p) }) s := by
  rw [hs]
  refine inState_takes.trans ?_
  rw [appProtocol, putSess_vehMode, putSess_bayMask, hp]
  dsimp only
  rw [modSess_putSess h, answer_putSess h]

theorem appProtocol_none (hp : pickProtocol (vehMode s n) (bayMask s n) l = none) :
    StopsFrom s n 11 (answered 1 (requested (sess s n))) (inState n ((sess s n).st == .setup) (appProtocol n l) s) := by
  have none : inState n ((sess s n).st == .setup) (appProtocol n l) s = stopSess n 11 (putSess n (answered 1 (requested (sess s n))) s) := by
    rw [hs]
    refine inState_takes.trans ?_
    rw [appProtocol, putSess_vehMode, putSess_bayMask, hp]
    dsimp only
    rw [answer_putSess h]
  rw [none]
  refine stopSess_put h ?_
  rw [answered_st, requested_st, hs]
  rfl

end Protocol

theorem supportedAppProtocolReq_picked {s} {n : Fin 24} {l p} (h : s.veh.links.length = 24) (hs : (sess s n).st = .setup)
    (hp : pickProtocol (vehMode s n) (bayMask s n) l = some p) : Completes (.supportedAppProtocolReq n l) s fun t =>
    (sess t n).st = .setup ∧ (sess t n).protocol = BitVec.ofNat 8 (Protocol.code p) ∧ (sess t n).response.map (·.status) = some 0 := by
  have hn := link_in n h
  refine .run rfl (appProtocol_picked hn hs hp) ?_
  rw [sess_putSess hn]
  exact ⟨hs, rfl, rfl⟩

theorem supportedAppProtocolReq_none {s} {n : Fin 24} {l} (h : s.veh.links.length = 24) (hs : (sess s n).st = .setup)
    (hp : pickProtocol (vehMode s n) (bayMask s n) l = none) : Completes (.supportedAppProtocolReq n l) s fun t =>
    SessionStops s t n 11 ∧ (sess t n).response.map (·.status) = some 1 := by
  have stopped := appProtocol_none (link_in n h) hs hp
  refine .of rfl ⟨stopped.stops, ?_⟩
  obtain ⟨⟨o, now⟩, _⟩ := stopped
  rw [now]
  rfl

section Pick

variable {mode mask : Nat} {l : List Protocol}

theorem pickProtocol_iso20 (h : mask.testBit 0 = true ∧ Protocol.iso20 ∈ l) : pickProtocol mode mask l = some .iso20 :=
  List.find?_cons_of_pos (by simpa [Protocol.code] using h)

theorem pickProtocol_iso2 (hm : mode ≠ 3) (h0 : ¬ (mask.testBit 0 = true ∧ Protocol.iso20 ∈ l))
    (h : mask.testBit 1 = true ∧ Protocol.iso2 ∈ l) : pickProtocol mode mask l = some .iso2 :=
  (List.find?_cons_of_neg (by simpa [Protocol.code] using h0)).trans (List.find?_cons_of_pos (by simpa [Protocol.code, hm] using h))

theorem pickProtocol_din (hm : mode ≠ 3) (h0 : ¬ (mask.testBit 0 = true ∧ Protocol.iso20 ∈ l))
    (h1 : ¬ (mask.testBit 1 = true ∧ Protocol.iso2 ∈ l)) (h : mask.testBit 2 = true ∧ Protocol.din ∈ l) :
    pickProtocol mode mask l = some .din :=
  (List.find?_cons_of_neg (by simpa [Protocol.code] using h0)).trans ((List.find?_cons_of_neg (by simpa [Protocol.code, hm] using h1)).trans
    (List.find?_cons_of_pos (by simpa [Protocol.code, hm] using h)))

theorem pickProtocol_none (h0 : ¬ (mask.testBit 0 = true ∧ Protocol.iso20 ∈ l)) (h1 : ¬ (mask.testBit 1 = true ∧ Protocol.iso2 ∈ l))
    (h2 : ¬ (mask.testBit 2 = true ∧ Protocol.din ∈ l)) : pickProtocol mode mask l = none := by
  rw [pickProtocol, List.find?_eq_none]
  intro p _
  cases p
  · simpa [Protocol.code] using h0
  · simpa [Protocol.code] using fun a b => absurd ⟨a, b⟩ h1
  · simpa [Protocol.code] using fun a b => absurd ⟨a, b⟩ h2

/-- A bridge offers ISO 15118-20 alone (R306). -/
theorem pickProtocol_bridge (h0 : ¬ (mask.testBit 0 = true ∧ Protocol.iso20 ∈ l)) : pickProtocol 3 mask l = none := by
  rw [pickProtocol, List.find?_eq_none]
  intro p _
  cases p
  · simpa [Protocol.code] using h0
  · simp
  · simp

end Pick

/-- Settles O57, by the first of the three protocols that both hold. -/
theorem protocolChoice : Obligations.ProtocolChoice := fun _ _ _ h hs =>
  ⟨fun h0 => supportedAppProtocolReq_picked h hs (pickProtocol_iso20 h0),
    fun hm h0 h1 => supportedAppProtocolReq_picked h hs (pickProtocol_iso2 hm h0 h1),
    fun hm h0 h1 h2 => supportedAppProtocolReq_picked h hs (pickProtocol_din hm h0 h1 h2),
    fun _ h0 h1 h2 => supportedAppProtocolReq_none h hs (pickProtocol_none h0 h1 h2),
    fun hm h0 => supportedAppProtocolReq_none h hs (hm ▸ pickProtocol_bridge h0)⟩

end Sys2Proof.Machine
end

section
/-! PROOF. The way of a vehicle to its authorization (R305-R312, Table 15.4). -/

namespace Sys2Proof.Machine

set_option Elab.async false

/-! ## Pilot and plug (R307-R309) -/

/-- Back to IDLE needs ENDED or FAULT_WAIT. -/
theorem backToIdle_stays {s n} (h1 : (sess s n).st ≠ .ended) (h2 : (sess s n).st ≠ .faultWait) : backToIdle n s = s :=
  if_neg fun h => h.1.elim h1 h2

theorem StopsFrom.backToIdle {s n cause v t} (h : StopsFrom s n cause v t) : Machine.backToIdle n t = t := by
  obtain ⟨⟨o, now⟩, _⟩ := h
  exact backToIdle_stays (by rw [now]; exact nofun) (by rw [now]; exact nofun)

/-- The session with a pilot class accepted. -/
def withPilot (k : Nat) (v : Session) : Session := { v with pilot := BitVec.ofNat 8 k }

section Pilot

variable {s : State} {n : Nat} {c : Nat}

theorem pilotAccepted_outside (h : (vehMode s n ≠ 1 ∧ vehMode s n ≠ 2) ∨ s.modes.mode = .boot ∨ s.modes.mode = .backup) :
    pilotAcceptedEffect n c s = s := if_pos h

variable (h : n < s.veh.links.length) (hm : vehMode s n = 1 ∨ vehMode s n = 2) (hb : s.modes.mode ≠ .boot) (hk : s.modes.mode ≠ .backup)

include hm hb hk

/-- A link with a pilot takes its class. -/
theorem pilotAccepted_taken {k} (hc : pilotClass s n c = k) : pilotAcceptedEffect n c s =
    if k = 0 ∨ k = 4 ∨ k = 6 then backToIdle n (stopSess n 9 (putSess n (withPilot k (sess s n)) s))
    else tryAttach n (putSess n (withPilot k (sess s n)) s) := by
  have out : ¬ ((vehMode s n ≠ 1 ∧ vehMode s n ≠ 2) ∨ s.modes.mode = .boot ∨ s.modes.mode = .backup) := by tauto
  rw [← modSess_put (f := withPilot k), ← hc]
  exact if_neg out

include h

theorem pilotAccepted_ends {k} (hc : pilotClass s n c = k) (hk : k = 0 ∨ k = 4 ∨ k = 6) (live : (sess s n).st.live = true) :
    StopsFrom s n 9 (withPilot k (sess s n)) (pilotAcceptedEffect n c s) := by
  rename_i hk'
  have stopped := stopSess_put (cause := 9) (v := withPilot k (sess s n)) h live
  rw [pilotAccepted_taken hm hb hk' hc, if_pos hk, stopped.backToIdle]
  exact stopped

end Pilot

section Attach

variable {s : State} {n : Nat} {v : Session} (h : n < s.veh.links.length)
include h

theorem tryAttach_stays (ha : attachOk s n v = false) : tryAttach n (putSess n v s) = putSess n v s :=
  if_neg (by rw [sess_putSess h, putSess_attachOk, ha]; decide)

theorem tryAttach_attaches (ha : attachOk s n v = true) : tryAttach n (putSess n v s) = putSess n (withOut s n (attach s n v)) s := by
  have attaches : tryAttach n (putSess n v s) = refreshOut n (modSess n (attach (putSess n v s) n) (putSess n v s)) :=
    if_pos (by rw [sess_putSess h, putSess_attachOk, ha])
  rw [attaches, modSess_putSess h, refreshOut_putSess h, putSess_attach]

end Attach

theorem attachOk_of {s n v} (hm : vehMode s n = 1 ∨ vehMode s n = 2) (st : v.st = .idle) (pilot : v.pilot = 1) (plug : v.plugged = true)
    (may : mayBegin s n = true) : attachOk s n v = true := by
  unfold attachOk
  unfold vehMode at hm
  simp [st, pilot, plug, may, hm]

theorem attachOk_busy {s n v} (st : v.st ≠ .idle) : attachOk s n v = false := by simp [attachOk, st]

theorem pilotClass_other {s n c} (h : c ≠ 3) : pilotClass s n c = c := if_neg fun k => h k.1

/-- A session with a pilot of class A, E or INVALID ends. -/
theorem pilotState_ends {s} {n : Fin 24} {c k : U8} (h : s.veh.links.length = 24) (hm : vehMode s n = 1 ∨ vehMode s n = 2)
    (hb : s.modes.mode ≠ .boot) (hk : s.modes.mode ≠ .backup) (hc : ¬ (c = 5 ∨ 6 < c.toNat)) (hp : pilotClass s n c.toNat = k.toNat)
    (hk' : k = 0 ∨ k = 4 ∨ k = 6) (live : (sess s n).st.live = true) :
    Completes (.pilotStateAccepted n c) s fun t => (sess t n).pilot = k ∧ SessionStops s t n 9 := by
  have stopped := pilotAccepted_ends (link_in n h) hm hb hk hp (by rcases hk' with rfl | rfl | rfl <;> decide) live
  refine .run rfl (if_neg hc) ⟨?_, stopped.stops⟩
  obtain ⟨⟨o, now⟩, _⟩ := stopped
  rw [now]
  exact BitVec.ofNat_toNat ..

/-- Classes B and C leave a session as it is but for its pilot. -/
theorem pilotState_keeps {s} {n : Fin 24} {c : U8} (h : s.veh.links.length = 24) (hm : vehMode s n = 1 ∨ vehMode s n = 2)
    (hb : s.modes.mode ≠ .boot) (hk : s.modes.mode ≠ .backup) (hc : c = 1 ∨ c = 2) (busy : (sess s n).st ≠ .idle) :
    Completes (.pilotStateAccepted n c) s fun t => sess t n = { sess s n with pilot := c } := by
  have taken := pilotAccepted_taken (c := c.toNat) hm hb hk (pilotClass_other (by rcases hc with rfl | rfl <;> decide))
  rw [if_neg (by rcases hc with rfl | rfl <;> decide), tryAttach_stays (link_in n h) (attachOk_busy (v := withPilot c.toNat (sess s n)) busy)] at taken
  refine .run rfl ((if_neg (by rcases hc with rfl | rfl <;> decide)).trans taken) ?_
  rw [sess_putSess (link_in n h), withPilot, BitVec.ofNat_toNat, BitVec.setWidth_eq]

theorem pilotState_attaches {s} {n : Fin 24} (h : s.veh.links.length = 24) (hm : vehMode s n = 1 ∨ vehMode s n = 2)
    (hb : s.modes.mode ≠ .boot) (hk : s.modes.mode ≠ .backup) (idle : (sess s n).st = .idle) (plug : (sess s n).plugged = true)
    (may : mayBegin s n = true) : Completes (.pilotStateAccepted n 1) s fun t =>
    (sess t n).st = .attached ∧ (sess t n).lock = true ∧ (sess t n).pilot = 1 := by
  have taken := pilotAccepted_taken (c := 1) hm hb hk (pilotClass_other (by decide))
  rw [if_neg (by decide), tryAttach_attaches (link_in n h) (attachOk_of (v := withPilot 1 (sess s n)) hm idle rfl plug may)] at taken
  refine .run rfl ((if_neg (by decide)).trans taken) ?_
  rw [sess_putSess (link_in n h)]
  exact ⟨rfl, rfl, rfl⟩

theorem plugDetected_taken {s} {n : Fin 24} (h : s.veh.links.length = 24) (hm : vehMode s n = 1 ∨ vehMode s n = 2) :
    Completes (.plugDetected n) s fun t => (sess t n).plugged = true ∧
      ((sess s n).st = .idle → (sess s n).pilot = 1 → mayBegin s n = true → (sess t n).st = .attached ∧ (sess t n).lock = true ∧
        (sess t n).timers.slac = (vehMode s n == 2) ∧ (sess t n).timers.setup = (vehMode s n != 2)) := by
  have hn := link_in n h
  have plugged : plugDetectedEffect n s = tryAttach n (putSess n { sess s n with plugged := true } s) := by
    rw [← modSess_put (f := fun v => { v with plugged := true })]
    exact if_neg (by tauto)
  cases ha : attachOk s n { sess s n with plugged := true } with
  | true =>
    rw [tryAttach_attaches hn ha] at plugged
    refine .run rfl plugged ?_
    rw [sess_putSess hn]
    exact ⟨rfl, fun _ _ _ => ⟨rfl, rfl, rfl, rfl⟩⟩
  | false =>
    rw [tryAttach_stays hn ha] at plugged
    refine .run rfl plugged ?_
    rw [sess_putSess hn]
    refine ⟨rfl, fun st pilot may => ?_⟩
    exact absurd (ha.symm.trans (attachOk_of hm st pilot rfl may)) (by decide)

theorem pilotX2_set {s} {n : Fin 24} (h : s.veh.links.length = 24) (h1 : 1 ≤ (sess s n).st.code) (h8 : (sess s n).st.code ≤ 8) :
    Completes (.pilotX2Start n) s fun t => sess t n = { sess s n with out := pilotOut s n { sess s n with out := .x2 } } := by
  refine .run rfl (if_pos ⟨h1, h8⟩) ?_
  rw [modSess_put, refreshOut_putSess (link_in n h), sess_putSess (link_in n h)]
  rfl

/-! ## Association (R305, R306) -/

theorem slac_elsewhere {s} {n : Fin 24} (hm : vehMode s n ≠ 2) :
    Completes (.cmSlacParmReq n) s (fun t => t = s) ∧ Completes (.cmStartAttenChar n) s (fun t => t = s) ∧
    Completes (.cmSlacMatch n) s (fun t => t = s) ∧ Completes (.cmValidateReq n) s fun t => t = s :=
  ⟨.run rfl (if_neg fun h => hm h.1) rfl, .run rfl (if_neg fun h => hm h.1) rfl, .run rfl (if_neg fun h => hm h.1) rfl,
    .run rfl (if_neg fun h => hm h.1) rfl⟩

section Slac

variable {s : State} {n : Fin 24} (h : s.veh.links.length = 24) (hm : vehMode s n = 2)
include h hm

theorem slacParm_confirms (hs : (sess s n).st = .attached ∨ (sess s n).st = .slac) : Completes (.cmSlacParmReq n) s fun t =>
    (sess t n).st = .slac ∧ (sess t n).response.map (·.status) = some 7 := by
  refine .run rfl (if_pos ⟨hm, hs⟩) ?_
  rw [goSess_put (link_in n h), answer_putSess (link_in n h), sess_putSess (link_in n h)]
  exact ⟨rfl, rfl⟩

theorem startAtten_reports (hs : (sess s n).st = .slac) : Completes (.cmStartAttenChar n) s fun t =>
    (sess t n).st = .slac ∧ (sess t n).response.map (·.status) = some 8 := by
  refine .run rfl (if_pos ⟨hm, hs⟩) ?_
  rw [answer_put, sess_putSess (link_in n h)]
  exact ⟨hs, rfl⟩

theorem slacMatch_enters (hs : (sess s n).st = .slac) : Completes (.cmSlacMatch n) s fun t =>
    (sess t n).st = .setup ∧ (sess t n).nmk = some (Config.generate s.free) ∧ (sess t n).timers.setup = true ∧
    (sess t n).timers.slac = false ∧ t.free = s.free + 1 := by
  have len : n.val < (s.useFree 1).veh.links.length := link_in n h
  have matched : slacMatchEffect n s = putSess n (answered 7 (withOut (s.useFree 1) n { sess s n with
      nmk := some (Config.generate s.free), timers := { Timers.none with setup := true }, st := .setup })) (s.useFree 1) := by
    refine (if_pos ⟨hm, hs⟩).trans ?_
    rw [modSess_put]
    show answer n 7 (goSess n .setup (putSess n _ (s.useFree 1))) = _
    rw [goSess_putSess len, answer_putSess len]
  refine .run rfl matched ?_
  rw [sess_putSess len]
  exact ⟨rfl, rfl, rfl, rfl, rfl⟩

theorem validate_answers (live : (sess s n).st.live = true) : Completes (.cmValidateReq n) s fun t =>
    (sess t n).st = (sess s n).st ∧ (sess t n).response.map (·.status) = some 9 := by
  refine .run rfl (if_pos ⟨hm, live⟩) ?_
  rw [answer_put, sess_putSess (link_in n h)]
  exact ⟨rfl, rfl⟩

end Slac

/-! ## Discovery and setup (R306, R311) -/

section Discovery

variable {s : State} {n : Fin 24} (h : s.veh.links.length = 24)
include h

theorem discovery_attached (hm : vehMode s n = 1) (hs : (sess s n).st = .attached) : Completes (.seccDiscoveryReq n) s fun t =>
    (sess t n).st = .setup ∧ (sess t n).response.map (·.status) = some 0 := by
  refine .run rfl ((if_neg (by simp [hm])).trans (if_pos ⟨hm, hs⟩)) ?_
  rw [goSess_put (link_in n h), answer_putSess (link_in n h), sess_putSess (link_in n h)]
  exact ⟨rfl, rfl⟩

theorem discovery_bridge (hm : vehMode s n = 3) (hs : (sess s n).st = .idle) : Completes (.seccDiscoveryReq n) s fun t =>
    (sess t n).peer = true ∧ (mayBegin s n = true → (sess t n).st = .setup ∧ (sess t n).lock = true) := by
  have hn := link_in n h
  have begun : bridgeBegin n s =
      if (sess s n).st = .idle ∧ mayBegin s n = true then
        putSess n (answered 0 (withOut s n { attach s n { sess s n with peer := true } with st := .setup })) s
      else putSess n { sess s n with peer := true } s := by
    rw [bridgeBegin]
    dsimp only
    rw [modSess_put, sess_putSess hn, putSess_mayBegin, modSess_putSess hn, goSess_putSess hn, answer_putSess hn, putSess_attach]
  refine .run rfl ((if_pos ⟨hm, .inl hs⟩).trans begun) ?_
  split
  next begins =>
    rw [sess_putSess hn]
    exact ⟨rfl, fun _ => ⟨rfl, rfl⟩⟩
  next waits =>
    rw [sess_putSess hn]
    exact ⟨rfl, fun may => absurd ⟨hs, may⟩ waits⟩

theorem discovery_late (hc : 4 ≤ (sess s n).st.code) (live : (sess s n).st.live = true) :
    Completes (.seccDiscoveryReq n) s fun t => SessionStops s t n 11 := by
  have idle : (sess s n).st ≠ .idle := fun k => by rw [k] at hc; contradiction
  have attached : (sess s n).st ≠ .attached := fun k => by rw [k] at hc; contradiction
  have setup : (sess s n).st ≠ .setup := fun k => by rw [k] at hc; contradiction
  have ended : (sess s n).st ≠ .ended := fun k => by rw [k] at live; contradiction
  have waits : (sess s n).st ≠ .faultWait := fun k => by rw [k] at live; contradiction
  exact .run rfl ((if_neg (by tauto)).trans ((if_neg (by tauto)).trans (if_neg setup))) (failMessage_stops (link_in n h) live).stops

theorem protocol_late {l} (hc : 4 ≤ (sess s n).st.code) (live : (sess s n).st.live = true) :
    Completes (.supportedAppProtocolReq n l) s fun t => SessionStops s t n 11 := by
  have setup : ((sess s n).st == .setup) = false := by
    cases hs : (sess s n).st with
    | setup => rw [hs] at hc; contradiction
    | _ => rfl
  exact .run rfl (congrArg (inState n · (appProtocol n l) s) setup) (inState_fails (link_in n h) live).stops

theorem sessionSetup_late (hc : 4 ≤ (sess s n).st.code) (live : (sess s n).st.live = true) :
    Completes (.sessionSetupReq n) s fun t => SessionStops s t n 11 := by
  have setup : ((sess s n).st == .setup) = false := by
    cases hs : (sess s n).st with
    | setup => rw [hs] at hc; contradiction
    | _ => rfl
  exact .run rfl (congrArg (inState n · (sessionSetup n) s) (by rw [setup]; rfl)) (inState_fails (link_in n h) live).stops

variable (hs : (sess s n).st = .setup)
include hs

theorem sessionSetup_answered (hp : (sess s n).protocol ≠ 0) : Completes (.sessionSetupReq n) s fun t =>
    (sess t n).st = .setup ∧ (sess t n).timers.setup = false ∧ (sess t n).response.map (·.status) = some 0 := by
  have place : ((sess s n).st == .setup && (sess s n).protocol != 0) = true := by simpa [hs] using hp
  refine .run rfl ((congrArg (inState n · (sessionSetup n) s) place).trans inState_takes) ?_
  rw [sessionSetup, modSess_putSess (link_in n h), answer_putSess (link_in n h), sess_putSess (link_in n h)]
  refine ⟨hs, ?_, rfl⟩
  simp [answered, requested, hs, SessSt.code]

theorem sessionSetup_early (hp : (sess s n).protocol = 0) : Completes (.sessionSetupReq n) s fun t => SessionStops s t n 11 := by
  have place : ((sess s n).st == .setup && (sess s n).protocol != 0) = false := by simp [hp]
  exact .run rfl (congrArg (inState n · (sessionSetup n) s) place) (inState_fails (link_in n h) (by rw [hs]; rfl)).stops

end Discovery

/-! ## Authorization (R312) -/

section Decide

variable {s : State} {n : Nat} {v : Session} (h : n < s.veh.links.length)
include h

theorem decide312_granted (hd : cfgB s 0x3700 3 = true ∨ v.hostAuth = 1) : decide312 n (putSess n v s) =
    putSess n (answered 0 { v with authWait := false, timers := { v.timers with authorization := false } }) s := by
  rw [decide312]
  dsimp only
  rw [sess_putSess h, putSess_cfgB, if_pos hd, modSess_putSess h, answer_putSess h]
  rfl

theorem decide312_refused (hd : cfgB s 0x3700 3 = false) (hv : v.hostAuth = 2) (live : v.st.live = true) :
    StopsFrom s n 12 (answered 1 v) (decide312 n (putSess n v s)) := by
  have refused : decide312 n (putSess n v s) = stopSess n 12 (putSess n (answered 1 v) s) := by
    rw [decide312]
    dsimp only
    rw [sess_putSess h, putSess_cfgB, if_neg (by simp [hd, hv]), if_pos hv, answer_putSess h]
  rw [refused]
  exact stopSess_put h live

theorem decide312_waits (hd : cfgB s 0x3700 3 = false) (h1 : v.hostAuth ≠ 1) (h2 : v.hostAuth ≠ 2) : decide312 n (putSess n v s) =
    putSess n (answered 3 { v with authWait := true, timers := { v.timers with authorization := true } }) s := by
  rw [decide312]
  dsimp only
  rw [sess_putSess h, putSess_cfgB, if_neg (by simpa [hd] using h1), if_neg h2, modSess_putSess h, answer_putSess h]
  rfl

end Decide

/-- The session as it enters AUTHORIZING on its request. -/
def authorizing (s : State) (n : Nat) : Session := withOut s n { requested (sess s n) with st := .authorizing }

section Authorization

variable {s : State} {n : Fin 24} {r : AuthRequest} (h : s.veh.links.length = 24) (hs : (sess s n).st = .setup)
  (hp : (sess s n).protocol ≠ 0) (ht : (sess s n).timers.setup = false)
include hs hp ht

theorem authorizationReq_taken : authorizationEffect n r s = authorize n r (putSess n (requested (sess s n)) s) := by
  refine (if_neg (by rw [hs]; exact nofun)).trans ((congrArg (inState n · (authorize n r) s) ?_).trans inState_takes)
  simpa [hs, ht] using hp

include h

theorem authorize_host (hr : r.pnc = false) : authorizationEffect n r s = decide312 n (putSess n (authorizing s n) s) := by
  rw [authorizationReq_taken hs hp ht, authorize, if_neg (by simp [hr]), goSess_putSess (link_in n h)]
  rfl

theorem authorization_granted (hr : r.pnc = false) (hd : cfgB s 0x3700 3 = true ∨ (sess s n).hostAuth = 1) :
    Completes (.authorizationReq n r) s fun t =>
      (sess t n).st = .authorizing ∧ (sess t n).authWait = false ∧ (sess t n).response.map (·.status) = some 0 := by
  refine .run rfl ((authorize_host h hs hp ht hr).trans (decide312_granted (link_in n h) hd)) ?_
  rw [sess_putSess (link_in n h)]
  exact ⟨rfl, rfl, rfl⟩

theorem authorization_refused (hr : r.pnc = false) (hd : cfgB s 0x3700 3 = false) (hv : (sess s n).hostAuth = 2) :
    Completes (.authorizationReq n r) s fun t => SessionStops s t n 12 :=
  .run rfl (authorize_host h hs hp ht hr) (decide312_refused (v := authorizing s n) (link_in n h) hd hv rfl).stops

theorem authorization_waits (hr : r.pnc = false) (hd : cfgB s 0x3700 3 = false) (h1 : (sess s n).hostAuth ≠ 1)
    (h2 : (sess s n).hostAuth ≠ 2) : Completes (.authorizationReq n r) s fun t =>
    (sess t n).st = .authorizing ∧ (sess t n).authWait = true ∧ (sess t n).timers.authorization = true ∧
    (sess t n).response.map (·.status) = some 3 := by
  refine .run rfl ((authorize_host h hs hp ht hr).trans (decide312_waits (link_in n h) hd h1 h2)) ?_
  rw [sess_putSess (link_in n h)]
  exact ⟨rfl, rfl, rfl, rfl⟩

theorem plugAndCharge_outside (hr : r.pnc = true) (hc : cfgB s 0x3700 2 = false ∨ (sess s n).protocol ≠ 1) :
    Completes (.authorizationReq n r) s fun t => SessionStops s t n 11 := by
  have hn := link_in n h
  have failed : authorizationEffect n r s = failMessage n 1 (putSess n (requested (sess s n)) s) := by
    rw [authorizationReq_taken hs hp ht, authorize, if_pos hr, if_pos]
    rw [sess_putSess hn, putSess_cfgB]
    simpa using hc
  have stopped := failMessage_stops (s := putSess n (requested (sess s n)) s) (code := 1) (by rwa [putSess_links])
    (by rw [sess_putSess hn, requested_st, hs]; rfl)
  exact .run rfl failed stopped.stops

theorem plugAndCharge_judged (hr : r.pnc = true) (hc : cfgB s 0x3700 2 = true) (h20 : (sess s n).protocol = 1) :
    authorizationEffect n r s =
      if (r.chainOk && r.signatureOk) = true then decide312 n (putSess n { authorizing s n with certOk := true, emaid := r.emaid } s)
      else stopSess n 12 (putSess n (answered 1 (authorizing s n)) s) := by
  have hn := link_in n h
  rw [authorizationReq_taken hs hp ht, authorize, if_pos hr, if_neg]
  · dsimp only
    rw [goSess_putSess hn, modSess_putSess hn, answer_putSess hn]
    rfl
  · rw [sess_putSess hn, putSess_cfgB]
    simpa using ⟨hc, h20⟩

theorem plugAndCharge_refused (hr : r.pnc = true) (hc : cfgB s 0x3700 2 = true) (h20 : (sess s n).protocol = 1)
    (bad : r.chainOk = false ∨ r.signatureOk = false) : Completes (.authorizationReq n r) s fun t => SessionStops s t n 12 :=
  .run rfl ((plugAndCharge_judged h hs hp ht hr hc h20).trans (if_neg (by rcases bad with bad | bad <;> simp [bad])))
    (stopSess_put (link_in n h) rfl).stops

theorem plugAndCharge_granted (hr : r.pnc = true) (hc : cfgB s 0x3700 2 = true) (h20 : (sess s n).protocol = 1) (chain : r.chainOk = true)
    (sig : r.signatureOk = true) (hd : cfgB s 0x3700 3 = true) : Completes (.authorizationReq n r) s fun t =>
    (sess t n).st = .authorizing ∧ (sess t n).certOk = true ∧ (sess t n).emaid = r.emaid ∧ (sess t n).authWait = false := by
  refine .run rfl ((plugAndCharge_judged h hs hp ht hr hc h20).trans ((if_pos (by simp [chain, sig])).trans
    (decide312_granted (link_in n h) (.inl hd)))) ?_
  rw [sess_putSess (link_in n h)]
  exact ⟨rfl, rfl, rfl, rfl⟩

end Authorization

/-! ## The host's decision -/

theorem hostRange_refuses_veh {b f s} : (hostRange false b f s).veh = s.veh := by
  unfold hostRange hostWrite
  split
  next h => simp at h
  · split <;> rfl

theorem hostRange_taken {f s} (ha : (activeLane s).isSome = true) : hostRange true true f s = f (respond 0 [] s) :=
  (if_neg (by simp)).trans (hostWrite_permitted ha rfl)

theorem hostRange_rejected {f s} (ha : (activeLane s).isSome = true) : hostRange true false f s = respond 0x06090030 [] s :=
  if_pos (by simp [ha])

theorem hostAuth_decides {s : State} {n : Fin 24} {v : U8} (h : s.veh.links.length = 24) (hs : (sess s n).st = .authorizing)
    (hq : (sess s n).authWait = true) (nonzero : v ≠ 0) : hostAuthEffect n v (respond 0 [] s) =
    decide312 n (putSess n { sess s n with hostAuth := v } (respond 0 [] s)) := by
  have len : n.val < (respond 0 [] s).veh.links.length := link_in n h
  rw [hostAuthEffect]
  dsimp only
  rw [modSess_put, sess_putSess len, if_pos]
  · rfl
  · exact ⟨hs, hq, nonzero⟩

section HostAuth

variable {s : State} {n : Fin 24} {v : U8} (hw : writable s = true) (ha : (activeLane s).isSome = true)
include hw ha

theorem hostAuth_outside (hv : 2 < v.toNat) : Completes (.hostAuthorizationWrite n v) s fun t => t = respond 0x06090030 [] s := by
  refine .run rfl ?_ rfl
  rw [hw, decide_eq_false (by omega), hostRange_rejected ha]

variable (hv : v.toNat ≤ 2)
include hv

theorem hostAuth_run {P : State → Prop} (hp : P (hostAuthEffect n v (respond 0 [] s))) : Completes (.hostAuthorizationWrite n v) s P := by
  refine .run rfl ?_ hp
  rw [hw, decide_eq_true hv, hostRange_taken ha]

variable (h : s.veh.links.length = 24)
include h

theorem hostAuth_kept (hs : (sess s n).st ≠ .authorizing ∨ (sess s n).authWait = false ∨ v = 0) :
    Completes (.hostAuthorizationWrite n v) s fun t => sess t n = { sess s n with hostAuth := v } := by
  refine hostAuth_run hw ha hv ?_
  have len : n.val < (respond 0 [] s).veh.links.length := link_in n h
  rw [hostAuthEffect]
  dsimp only
  rw [modSess_put, sess_putSess len, if_neg, sess_putSess len]
  · rfl
  · rintro ⟨st, wait, nonzero⟩
    rcases hs with k | k | k
    · exact k st
    · exact absurd (k.symm.trans wait) (by decide)
    · exact nonzero k

variable (hs : (sess s n).st = .authorizing) (hq : (sess s n).authWait = true)
include hs hq

theorem hostAuth_grants (one : v = 1) : Completes (.hostAuthorizationWrite n v) s fun t =>
    (sess t n).st = .authorizing ∧ (sess t n).authWait = false ∧ (sess t n).response.map (·.status) = some 0 := by
  have len : n.val < (respond 0 [] s).veh.links.length := link_in n h
  refine hostAuth_run hw ha hv ?_
  rw [hostAuth_decides h hs hq (by rw [one]; decide), decide312_granted len (.inr one), sess_putSess len]
  exact ⟨hs, rfl, rfl⟩

theorem hostAuth_refuses (hd : cfgB s 0x3700 3 = false) (two : v = 2) :
    Completes (.hostAuthorizationWrite n v) s fun t => SessionStops s t n 12 := by
  have len : n.val < (respond 0 [] s).veh.links.length := link_in n h
  refine hostAuth_run hw ha hv ?_
  rw [hostAuth_decides h hs hq (by rw [two]; decide)]
  exact (decide312_refused (s := respond 0 [] s) len hd two (by simp [hs]; rfl)).stops

end HostAuth

theorem protocolError_stops {s} {n : Fin 24} (h : s.veh.links.length = 24) (live : (sess s n).st.live = true) :
    Completes (.protocolError n) s fun t => SessionStops s t n 11 ∧ (sess t n).response.map (·.status) = some 1 := by
  have stopped := failMessage_stops (code := 1) (link_in n h) live
  refine .of rfl ⟨stopped.stops, ?_⟩
  obtain ⟨⟨o, now⟩, _⟩ := stopped
  rw [now]
  rfl

/-- Settles O41: each message either puts the session anew in its place or stops it. -/
theorem vehicleAssociation : Obligations.VehicleAssociation :=
  ⟨fun _ _ _ h => .run rfl (if_pos h) rfl,
    fun _ _ _ h5 h6 h => .run rfl ((if_neg (by rintro (k | k); exacts [h5 k, by omega])).trans (pilotAccepted_outside h)) rfl,
    fun s n h hm hb hk => ⟨fun c hc live => pilotState_ends h hm hb hk (by rcases hc with rfl | rfl | rfl <;> decide)
        (pilotClass_other (by rcases hc with rfl | rfl | rfl <;> decide)) hc live,
      fun hd live => pilotState_ends h hm hb hk (by decide) (if_pos ⟨rfl, hd⟩) (.inr (.inr rfl)) live,
      fun _ hc busy => pilotState_keeps h hm hb hk hc busy, pilotState_attaches h hm hb hk⟩,
    fun _ _ h1 h2 => .run rfl (if_pos ⟨h1, h2⟩) rfl, fun _ _ h hm => plugDetected_taken h hm,
    fun _ _ h => ⟨fun hc => .run rfl (if_neg (by omega)) rfl, pilotX2_set h⟩, fun _ _ => slac_elsewhere,
    fun _ _ h hm => ⟨slacParm_confirms h hm, startAtten_reports h hm, slacMatch_enters h hm, validate_answers h hm⟩,
    fun _ _ h => discovery_attached h, fun _ _ h => discovery_bridge h,
    fun _ _ h hc live => ⟨discovery_late h hc live, fun _ => protocol_late h hc live, sessionSetup_late h hc live⟩,
    fun _ _ _ h hs => ⟨fun _ hp => supportedAppProtocolReq_picked h hs hp, supportedAppProtocolReq_none h hs⟩,
    fun _ _ h hs => ⟨sessionSetup_answered h hs, sessionSetup_early h hs⟩,
    fun _ _ _ h hs hp ht => ⟨fun hr => ⟨authorization_granted h hs hp ht hr, authorization_refused h hs hp ht hr,
        authorization_waits h hs hp ht hr⟩,
      fun hr => ⟨plugAndCharge_outside h hs hp ht hr, plugAndCharge_refused h hs hp ht hr, plugAndCharge_granted h hs hp ht hr⟩⟩,
    fun s n v hw => .of rfl (by rw [hw]; exact hostRange_refuses_veh),
    fun _ _ _ hw ha => ⟨hostAuth_outside hw ha, fun hv h => ⟨hostAuth_kept hw ha hv h, hostAuth_grants hw ha hv h, hostAuth_refuses hw ha hv h⟩⟩,
    fun _ _ => protocolError_stops⟩

end Sys2Proof.Machine
end

section
/-! PROOF. A charging session from its start to IDLE (R313-R319, R321). -/

namespace Sys2Proof.Machine

set_option Elab.async false

/-! ## The start (R314, R315) -/

theorem meterOpen_veh {com ch a sid s} : (meterOpen com ch a sid s).veh = s.veh := (meterOpen_only (l := .a)).1 .veh (by decide)

theorem meterOpen_clk {com ch a sid s} : (meterOpen com ch a sid s).clk = s.clk := (meterOpen_only (l := .a)).1 .clk (by decide)

theorem meterOpen_met {com ch a sid s} (runs : metRuns s.met = true) :
    (meterOpen com ch a sid s).met = (sessionOpen com ch (meterAccount s a) sid s.met).1 := by
  have sent {u : State} (same : u.met = s.met) :
      (meterSend (fun m => (sessionOpen com ch (meterAccount s a) sid m).1) u).met = (sessionOpen com ch (meterAccount s a) sid s.met).1 := by
    unfold meterSend
    rw [same, if_pos runs]
  unfold meterOpen
  dsimp only
  split
  · exact sent rfl
  · exact sent (evt_met _ _)

theorem meterAccount_putSess {n v s} : meterAccount (putSess n v s) = meterAccount s := rfl

section Start

variable {s : State} {n : Fin 24} {i : Nat} (h : s.veh.links.length = 24) (hb : bayOfVehicle s n = some i)
  (hs : (sess s n).st = .authorizing) (hw : (sess s n).authWait = false)

theorem sessionStart_stays (hn : bayOfVehicle s n = none ∨ (sess s n).st ≠ .authorizing ∨ (sess s n).authWait = true) :
    sessionStartEffect n s = s := by
  unfold sessionStartEffect
  dsimp only
  split
  next j hj =>
    refine if_pos ?_
    rcases hn with k | k
    · simp [hj] at k
    · exact k
  · rfl

include hb hs hw

theorem sessionStart_unserved (hm : meterServes s = false) : sessionStartEffect n s = stopSess n 8 s := by
  rw [sessionStartEffect, hb]
  exact (if_neg (by simp [hs, hw])).trans (if_pos (by simp [hm]))

include h

theorem sessionStart_served (hm : meterServes s = true) : sessionStartEffect n s =
    let v := withOut s n (startSess s n i (sess s n))
    let t := meterOpen false (i + 1) v.account v.id (putSess n v s)
    if (sess s n).isolation = 3 then stopSess n 10 t else t := by
  rw [sessionStartEffect, hb]
  refine (if_neg (by simp [hs, hw])).trans ((if_neg (by simp [hm])).trans ?_)
  dsimp only
  rw [modSess_put, refreshOut_putSess (link_in n h), sess_putSess (link_in n h)]
  rfl

theorem sessionStart_isolated (hm : meterServes s = true) (iso : (sess s n).isolation = 3) :
    Completes (.sessionStart n) s fun t => SessionStops s t n 10 := by
  refine .run rfl ((sessionStart_served h hb hs hw hm).trans (if_pos iso)) (StopsFrom.stops (v := withOut s n (startSess s n i (sess s n))) ?_)
  refine stopSess_from ?_ ?_ rfl meterOpen_clk ?_
  · rw [meterOpen_veh, putSess_links]
    exact link_in n h
  · unfold sess
    rw [meterOpen_veh]
    exact sess_putSess (link_in n h)
  · rw [meterOpen_veh, putSess_ended]

theorem sessionStart_begins (hm : meterServes s = true) (iso : (sess s n).isolation ≠ 3) : Completes (.sessionStart n) s fun t =>
    (sess t n).st = .parameters ∧ (sess t n).count = (sess s n).count + 1 ∧
    (sess t n).id = BitVec.ofNat 32 ((n + 1) * 2 ^ 24 + ((sess s n).count.toNat + 1) % 2 ^ 24) ∧
    (sess t n).account = BitVec.ofNat 16 (leaseOf s i (sess s n)).1 ∧ (sess t n).source = BitVec.ofNat 8 (leaseOf s i (sess s n)).2 ∧
    (sess t n).hostAuth = 0 ∧ (sess t n).energy = 0 ∧
    (sess t n).target = (if bayN s i 0x10 = 0 then (sess s n).values.energy else BitVec.ofNat 32 (bayN s i 0x10)) ∧
    (sess t n).departure = (if bayN s i 0x11 = 0 then (sess s n).values.departure else BitVec.ofNat 64 (bayN s i 0x11)) ∧
    (metRuns s.met = true → t.met = (sessionOpen false (i + 1) (meterAccount s (sess t n).account) (sess t n).id s.met).1) := by
  refine .run rfl ((sessionStart_served h hb hs hw hm).trans (if_neg iso)) ?_
  have now : sess (meterOpen false (i + 1) (withOut s n (startSess s n i (sess s n))).account (withOut s n (startSess s n i (sess s n))).id
      (putSess n (withOut s n (startSess s n i (sess s n))) s)) n = withOut s n (startSess s n i (sess s n)) := by
    unfold sess
    rw [meterOpen_veh]
    exact sess_putSess (link_in n h)
  rw [now]
  refine ⟨rfl, rfl, rfl, rfl, rfl, rfl, rfl, rfl, rfl, fun runs => ?_⟩
  rw [meterOpen_met (s := putSess n (withOut s n (startSess s n i (sess s n))) s) runs, putSess_met, meterAccount_putSess]

end Start

/-! ## Parameters, cable check, precharge and the charge loop (R316-R318) -/

section Loop

variable {s : State} {n : Fin 24} {x : VehicleValues} (h : s.veh.links.length = 24)
include h

theorem awaitLimits_putSess {v : Session} {adv : Bool} : awaitLimits n adv x (putSess n v s) =
    putSess n { takeValues x v with pend := some (s.clk.period, adv) } s := modSess_putSess (link_in n h)

theorem parameters_taken (hs : (sess s n).st = .parameters) : Completes (.chargeParameterDiscoveryReq n x) s fun t =>
    (sess t n).st = .parameters ∧ (sess t n).values = x ∧ (sess t n).cont = true ∧ (sess t n).pend = some (s.clk.period, true) := by
  refine .run rfl ((congrArg (inState n · (parameterDiscovery n x) s) (by rw [hs]; rfl)).trans inState_takes) ?_
  rw [parameterDiscovery, awaitLimits_putSess h, modSess_putSess (link_in n h), sess_putSess (link_in n h)]
  exact ⟨hs, rfl, rfl, rfl⟩

theorem parameters_late (hs : (sess s n).st ≠ .parameters) (live : (sess s n).st.live = true) :
    Completes (.chargeParameterDiscoveryReq n x) s fun t => SessionStops s t n 11 :=
  .run rfl (congrArg (inState n · (parameterDiscovery n x) s) (by simpa using hs)) (inState_fails (link_in n h) live).stops

theorem cableCheck_passes (hs : (sess s n).st = .parameters) (hc : (sess s n).cont = true)
    (ht : (sess s n).isoAt.any (fun t => decide (s.clk.ns ≤ t + 1000000000)) = true)
    (hi : (sess s n).isolation = 1 ∨ (sess s n).isolation = 2) :
    Completes (.cableCheckPass n) s fun t => sess t n = { sess s n with cablePassed := true } := by
  refine .run rfl (if_pos ⟨hs, hc, ht, hi⟩) ?_
  rw [modSess_put, sess_putSess (link_in n h)]

omit h in
theorem cableCheck_stays (hn : (sess s n).st ≠ .parameters ∨ (sess s n).cont = false ∨
      (sess s n).isoAt.any (fun t => decide (s.clk.ns ≤ t + 1000000000)) = false ∨ ((sess s n).isolation ≠ 1 ∧ (sess s n).isolation ≠ 2)) :
    Completes (.cableCheckPass n) s fun t => t = s := by
  refine .run rfl (if_neg ?_) rfl
  rintro ⟨hs, hc, ht, hi⟩
  rcases hn with k | k | k | ⟨k1, k2⟩
  · exact k hs
  · exact absurd (k.symm.trans hc) (by decide)
  · exact absurd (k.symm.trans ht) (by decide)
  · exact hi.elim k1 k2

theorem precharge_putSess {v : Session} : precharge n x (putSess n v s) =
    if v.st == .parameters then
      putSess n { takeValues x v with pend := some (s.clk.period, false), st := .precharge, timers := { Timers.none with precharge := true } } s
    else putSess n { takeValues x v with pend := some (s.clk.period, false) } s := by
  rw [precharge]
  dsimp only
  rw [sess_putSess (link_in n h), awaitLimits_putSess h, modSess_putSess (link_in n h)]

theorem precharge_enters (hs : (sess s n).st = .parameters) (hc : (sess s n).cablePassed = true) : Completes (.prechargeReq n x) s fun t =>
    (sess t n).st = .precharge ∧ (sess t n).values = x ∧ (sess t n).timers = { Timers.none with precharge := true } ∧
    (sess t n).pend = some (s.clk.period, false) := by
  refine .run rfl ((congrArg (inState n · (precharge n x) s) (by rw [hs, hc]; rfl)).trans
    (inState_takes.trans ((precharge_putSess h).trans (if_pos (by rw [requested_st, hs]; rfl))))) ?_
  rw [sess_putSess (link_in n h)]
  exact ⟨rfl, rfl, rfl, rfl⟩

theorem precharge_early (hs : (sess s n).st = .parameters) (hc : (sess s n).cablePassed = false) : Completes (.prechargeReq n x) s fun t =>
    SessionStops s t n 11 ∧ (sess t n).response.map (·.status) = some 2 := by
  have stopped := inState_fails (f := precharge n x) (link_in n h) (by rw [hs]; rfl)
  refine .run rfl (congrArg (inState n · (precharge n x) s) (by rw [hs, hc]; rfl)) ⟨stopped.stops, ?_⟩
  obtain ⟨⟨o, now⟩, _⟩ := stopped
  rw [now]
  rfl

theorem precharge_repeats (hs : (sess s n).st = .precharge) : Completes (.prechargeReq n x) s fun t =>
    (sess t n).st = .precharge ∧ (sess t n).values = x ∧ (sess t n).pend = some (s.clk.period, false) := by
  refine .run rfl ((congrArg (inState n · (precharge n x) s) (by rw [hs]; exact Bool.or_true _)).trans
    (inState_takes.trans ((precharge_putSess h).trans (if_neg (by rw [requested_st, hs]; decide))))) ?_
  rw [sess_putSess (link_in n h)]
  exact ⟨hs, rfl, rfl⟩

theorem chargeLoop_taken (hs : (sess s n).st.transfer = true) : Completes (.chargeLoopReq n x) s fun t =>
    (sess t n).st = .charging ∧ (sess t n).values = x ∧ (sess t n).timers.precharge = false ∧ (sess t n).pend = some (s.clk.period, false) := by
  refine .run rfl ((congrArg (inState n · (chargeLoop n x) s) hs).trans inState_takes) ?_
  rw [chargeLoop, awaitLimits_putSess h, modSess_putSess (link_in n h), sess_putSess (link_in n h)]
  exact ⟨rfl, rfl, rfl, rfl⟩

theorem chargeLoop_early (hs : (sess s n).st.transfer = false) (live : (sess s n).st.live = true) :
    Completes (.chargeLoopReq n x) s fun t => SessionStops s t n 11 :=
  .run rfl (congrArg (inState n · (chargeLoop n x) s) hs) (inState_fails (link_in n h) live).stops

/-! ## End causes (R318, R319) -/

theorem vehicleStop_stops (hc : 3 ≤ (sess s n).st.code) (live : (sess s n).st.live = true) : Completes (.vehicleStopRequest n) s fun t =>
    SessionStops s t n 1 ∧ (sess t n).response.map (·.status) = some 4 := by
  have stopped := stopSess_put (cause := 1) (v := answered 4 (sess s n)) (link_in n h) live
  refine .run rfl ((if_pos hc).trans (congrArg (stopSess n 1) ((if_pos live).trans answer_put))) ⟨stopped.stops, ?_⟩
  obtain ⟨⟨o, now⟩, _⟩ := stopped
  rw [now]
  rfl

theorem isolationStale_stops (hs : (sess s n).st.transfer = true) : Completes (.isolationStale n) s fun t => SessionStops s t n 10 := by
  have live : (sess s n).st.live = true := by
    cases k : (sess s n).st with
    | precharge => rfl
    | charging => rfl
    | _ => rw [k] at hs; contradiction
  exact .run rfl (if_pos hs) (stopSess_stops (link_in n h) live).stops

theorem timeout_stops {k} (live : (sess s n).st.live = true) (ht : (sess s n).timers.runs k = true) :
    Completes (.sessionTimeout n k) s fun t => SessionStops s t n (if k = .authorization then 12 else 13) :=
  .run rfl (if_pos ⟨live, ht⟩) (stopSess_stops (link_in n h) live).stops

theorem thermalHold_stops (hs : (sess s n).st = .charging) (ht : (sess s n).thermalHold = true) :
    Completes (.thermalHoldExpiry n) s fun t => SessionStops s t n 14 :=
  .run rfl (if_pos ⟨hs, ht⟩) (stopSess_stops (link_in n h) (by rw [hs]; rfl)).stops

theorem sessionEnd_stops {c : U8} (h0 : c ≠ 0) (h14 : c.toNat ≤ 14) (live : (sess s n).st.live = true) :
    Completes (.sessionEnd n c) s fun t => SessionStops s t n c.toNat :=
  .run rfl (if_neg (by rintro (k | k); exacts [h0 k, by omega])) (stopSess_stops (link_in n h) live).stops

/-- Of two causes of one period the lower code stays (R319). -/
theorem sessionEnd_again {c : U8} (h0 : c ≠ 0) (h14 : c.toNat ≤ 14) (hs : (sess s n).st = .stopping) (hp : (sess s n).stopAt = s.clk.period) :
    Completes (.sessionEnd n c) s fun t => (sess t n).st = .stopping ∧
      (sess t n).cause = (if c.toNat < (sess s n).cause.toNat then c else (sess s n).cause) ∧
      (sess t n).toFault = ((sess s n).toFault || faultCause c.toNat) := by
  have again : endSession n c.toNat s = putSess n { sess s n with
      cause := if c.toNat < (sess s n).cause.toNat then BitVec.ofNat 8 c.toNat else (sess s n).cause
      toFault := (sess s n).toFault || faultCause c.toNat } s :=
    (if_neg (by rw [hs]; decide)).trans ((if_pos ⟨hs, hp⟩).trans modSess_put)
  refine .run rfl (if_neg (by rintro (k | k); exacts [h0 k, by omega])) ?_
  rw [stopSess, again, refreshOut_putSess (link_in n h), sess_putSess (link_in n h)]
  refine ⟨hs, ?_, rfl⟩
  show (if _ then BitVec.ofNat 8 c.toNat else _) = _
  rw [BitVec.ofNat_toNat, BitVec.setWidth_eq]

theorem plugLost_stops (live : (sess s n).st.live = true) :
    Completes (.plugLost n) s fun t => (sess t n).plugged = false ∧ SessionStops s t n 9 := by
  have stopped := stopSess_put (cause := 9) (v := { sess s n with plugged := false }) (link_in n h) live
  refine .run rfl (congrArg (stopSess n 9) modSess_put) ⟨?_, stopped.stops⟩
  obtain ⟨⟨o, now⟩, _⟩ := stopped
  rw [now]
  rfl

theorem bridgePeerGone_stops (live : (sess s n).st.live = true) (hm : vehMode s n = 3) : Completes (.bridgePeerGone n) s fun t =>
    (sess t n).peer = false ∧ SessionStops s t n 9 := by
  have stopped := stopSess_put (cause := 9) (v := { sess s n with peer := false }) (link_in n h) live
  have gone := congrArg (fun t => backToIdle n (stopSess n 9 t)) (modSess_put (n := n) (s := s) (f := fun v => { v with peer := false }))
  refine .run rfl ((if_pos hm).trans (gone.trans stopped.backToIdle)) ⟨?_, stopped.stops⟩
  obtain ⟨⟨o, now⟩, _⟩ := stopped
  rw [now]
  rfl

/-! ## Back to IDLE (R313) -/

/-- A session that has ended returns to IDLE once its link is free. -/
theorem backToIdle_free {v : Session} (he : v.st = .ended ∨ v.st = .faultWait)
    (free : (if vehMode s n = 3 then !v.peer else v.pilot == 0) = true) :
    backToIdle n (putSess n v s) = putSess n (withOut s n (idleSess v)) s := by
  refine (if_pos ?_).trans ?_
  · rw [sess_putSess (link_in n h), putSess_vehMode]
    exact ⟨he, free⟩
  · rw [modSess_putSess (link_in n h), refreshOut_putSess (link_in n h)]

theorem backToIdle_held {v : Session} (hm : vehMode s n ≠ 3) (hp : v.pilot ≠ 0) : backToIdle n (putSess n v s) = putSess n v s := by
  refine if_neg ?_
  rw [sess_putSess (link_in n h), putSess_vehMode, if_neg hm]
  exact fun k => hp (by simpa using k.2)

theorem bridgePeerGone_idle (hm : vehMode s n = 3) (he : (sess s n).st = .ended ∨ (sess s n).st = .faultWait) :
    Completes (.bridgePeerGone n) s fun t => (sess t n).st = .idle := by
  have hn := link_in n h
  have gone : stopSess n 9 (putSess n { sess s n with peer := false } s) =
      putSess n (withOut s n { sess s n with peer := false }) s := by
    rw [stopSess, endSession_ended, refreshOut_putSess hn]
    · rw [sess_putSess hn]
      rcases he with he | he <;> · dsimp only; rw [he]; rfl
    · rw [sess_putSess hn]
      rcases he with he | he <;> · dsimp only; rw [he]; exact nofun
  refine .run rfl ((if_pos hm).trans ?_) (t := putSess n (withOut s n (idleSess (withOut s n { sess s n with peer := false }))) s) ?_
  · rw [modSess_put, gone]
    exact backToIdle_free h he (if_pos hm)
  · rw [sess_putSess hn]
    rfl

omit h in
theorem sessionIdle_busy (h1 : (sess s n).st ≠ .ended) (h2 : (sess s n).st ≠ .faultWait) : Completes (.sessionIdle n) s fun t => t = s :=
  .run rfl (backToIdle_stays h1 h2) rfl

omit h in
theorem sessionIdle_plugged (hm : vehMode s n ≠ 3) (hp : (sess s n).pilot ≠ 0) : Completes (.sessionIdle n) s fun t => t = s := by
  refine .run rfl (if_neg fun k => hp ?_) rfl
  simpa [hm] using k.2

theorem sessionIdle_idle (hm : vehMode s n ≠ 3) (he : (sess s n).st = .ended ∨ (sess s n).st = .faultWait) (hp : (sess s n).pilot = 0) :
    Completes (.sessionIdle n) s fun t => (sess t n).st = .idle ∧ (sess t n).cause = (sess s n).cause ∧ (sess t n).count = (sess s n).count := by
  have idle := backToIdle_free h he (by rw [if_neg hm, hp]; rfl)
  rw [putSess_self] at idle
  refine .run rfl idle ?_
  rw [sess_putSess (link_in n h)]
  exact ⟨rfl, rfl, rfl⟩

end Loop

/-! ## The end of STOPPING (R313) -/

section Ended

variable {s : State} {n : Fin 24} {i : Nat} (hb : bayOfVehicle s n = some i)
include hb

theorem sessionEnded_flowing (hu : headUp s s.act i = true) (ho : endedOk s n i = false) : Completes (.sessionEnded n) s fun t => t = s := by
  refine .run rfl (t := s) ?_ rfl
  rw [endedEffect, hb]
  exact (if_pos hu).trans (if_pos (by rw [ho]; rfl))

theorem sessionEnded_waits (hu : headUp s s.act i = false) (ho : headLessOk s n i = false) : Completes (.sessionEnded n) s fun t => t = s := by
  refine .run rfl (t := s) ?_ rfl
  rw [endedEffect, hb]
  exact (if_neg (by rw [hu]; decide)).trans (if_neg fun k => absurd (ho.symm.trans k.2) (by decide))

variable (h : s.veh.links.length = 24) (hs : (sess s n).st = .stopping) (hm : vehMode s n ≠ 3) (hp : (sess s n).pilot ≠ 0)
include h hs hm hp

theorem sessionEnded_ended (hu : headUp s s.act i = true) (ho : endedOk s n i = true) : Completes (.sessionEnded n) s fun t =>
    (sess t n).st = (if (sess s n).toFault = true then .faultWait else .ended) ∧ (sess t n).lock = false := by
  have ends : endedEffect n s = backToIdle n (goSess n (if (sess s n).toFault = true then .faultWait else .ended)
      (modSess n (fun (v : Session) => { v with lock := false }) s)) := by
    rw [endedEffect, hb]
    exact (if_pos hu).trans ((if_neg (by rw [ho]; decide)).trans (if_pos hs))
  rw [modSess_put, goSess_putSess (link_in n h)] at ends
  refine .run rfl (ends.trans (backToIdle_held h hm ?_)) ?_
  · exact hp
  rw [sess_putSess (link_in n h)]
  exact ⟨rfl, rfl⟩

theorem sessionEnded_headless (hu : headUp s s.act i = false) (ho : headLessOk s n i = true) : Completes (.sessionEnded n) s fun t =>
    (sess t n).st = .faultWait ∧ (sess t n).lock = (sess s n).lock := by
  have ends : endedEffect n s = backToIdle n (goSess n .faultWait s) := by
    rw [endedEffect, hb]
    exact (if_neg (by rw [hu]; decide)).trans (if_pos ⟨hs, ho⟩)
  rw [goSess_put (link_in n h)] at ends
  refine .run rfl (ends.trans (backToIdle_held h hm ?_)) ?_
  · exact hp
  rw [sess_putSess (link_in n h)]
  exact ⟨rfl, rfl⟩

end Ended

/-! ## The dispenser's isolation state -/

section Isolation

variable {s : State} {n : Fin 24} {v : U8} (hw : writable s = true) (ha : (activeLane s).isSome = true)
include hw ha

theorem isolationWrite_outside (hv : 3 < v.toNat) : Completes (.isolationStateWrite n v) s fun t => t = respond 0x06090030 [] s := by
  refine .run rfl ?_ rfl
  rw [hw, decide_eq_false (by omega), hostRange_rejected ha]

variable (hv : v.toNat ≤ 3) (h : s.veh.links.length = 24)
include hv h

theorem isolationWrite_run {P : State → Prop} (hp : P
    (if v = 3 ∧ 5 ≤ (sess s n).st.code then stopSess n 10 (putSess n { sess s n with isolation := v, isoAt := some s.clk.ns } (respond 0 [] s))
     else putSess n { sess s n with isolation := v, isoAt := some s.clk.ns } (respond 0 [] s))) :
    Completes (.isolationStateWrite n v) s P := by
  have len : n.val < (respond 0 [] s).veh.links.length := link_in n h
  refine .run rfl ?_ hp
  rw [hw, decide_eq_true hv, hostRange_taken ha, isolationEffect]
  dsimp only
  rw [modSess_put, sess_putSess len]
  rfl

theorem isolationWrite_kept (hc : v ≠ 3 ∨ (sess s n).st.code < 5) : Completes (.isolationStateWrite n v) s fun t =>
    sess t n = { sess s n with isolation := v, isoAt := some s.clk.ns } := by
  have len : n.val < (respond 0 [] s).veh.links.length := link_in n h
  refine isolationWrite_run hw ha hv h ?_
  rw [if_neg (by rintro ⟨k, hk⟩; rcases hc with c | c; exacts [c k, by omega]), sess_putSess len]

theorem isolationWrite_stops (three : v = 3) (hc : 5 ≤ (sess s n).st.code) (live : (sess s n).st.live = true) :
    Completes (.isolationStateWrite n v) s fun t => (sess t n).isolation = 3 ∧ SessionStops s t n 10 := by
  have len : n.val < (respond 0 [] s).veh.links.length := link_in n h
  have stopped := stopSess_put (s := respond 0 [] s) (cause := 10) (v := { sess s n with isolation := v, isoAt := some s.clk.ns }) len live
  refine isolationWrite_run hw ha hv h ?_
  rw [if_pos ⟨three, hc⟩]
  refine ⟨?_, stopped.stops⟩
  obtain ⟨⟨o, now⟩, _⟩ := stopped
  rw [now]
  exact three

end Isolation

/-- Settles O42: each command either puts the session anew in its place, stops it, or leaves everything. -/
theorem chargingSession : Obligations.ChargingSession :=
  ⟨fun _ _ hn => .run rfl (sessionStart_stays hn) rfl,
    fun _ n _ h hb hs hw => ⟨fun hm => .run rfl (sessionStart_unserved hb hs hw hm) (stopSess_stops (link_in n h) (by rw [hs]; rfl)).stops,
      sessionStart_isolated h hb hs hw, sessionStart_begins h hb hs hw⟩,
    fun _ _ _ h => ⟨parameters_taken h, parameters_late h⟩,
    fun _ _ h => ⟨cableCheck_passes h, cableCheck_stays⟩,
    fun _ _ _ h => ⟨precharge_enters h, precharge_early h, precharge_repeats h, chargeLoop_taken h, chargeLoop_early h⟩,
    fun _ _ h => ⟨fun hc => .run rfl (if_neg (by omega)) rfl, vehicleStop_stops h⟩,
    fun s n v hw => .of rfl (by rw [hw]; exact hostRange_refuses_veh),
    fun _ _ _ hw ha => ⟨isolationWrite_outside hw ha, fun hv h => ⟨isolationWrite_kept hw ha hv h, isolationWrite_stops hw ha hv h⟩⟩,
    fun _ _ h => ⟨isolationStale_stops h, fun hs => .run rfl (if_neg (by rw [hs]; decide)) rfl⟩,
    fun _ _ _ h => ⟨timeout_stops h, fun ht => .run rfl (if_neg fun k => absurd (ht.symm.trans k.2) (by decide)) rfl⟩,
    fun _ _ h => ⟨thermalHold_stops h, fun ht => .run rfl (if_neg fun k => absurd (ht.symm.trans k.2) (by decide)) rfl⟩,
    fun _ _ _ hc => .run rfl (if_pos hc) rfl,
    fun _ _ _ h0 h14 h => ⟨sessionEnd_stops h h0 h14, sessionEnd_again h h0 h14⟩,
    fun _ _ h live => ⟨plugLost_stops h live, bridgePeerGone_stops h live⟩,
    fun _ _ hm => .run rfl (if_neg hm) rfl,
    fun _ _ h hm he => bridgePeerGone_idle h hm he, fun _ _ => sessionIdle_busy,
    fun _ _ h hm he => ⟨sessionIdle_plugged hm, sessionIdle_idle h hm he⟩,
    fun _ _ _ hb => sessionEnded_flowing hb,
    fun _ _ _ h hb hs hm hp => ⟨sessionEnded_ended hb h hs hm hp, sessionEnded_headless hb h hs hm hp, sessionEnded_waits hb⟩⟩

end Sys2Proof.Machine
end

section
/-! PROOF. What the Trievo link receives (R349, R354, R356): the entries of its peers, the checks of a frame, and what each type does. -/

namespace Sys2Proof.Machine

set_option Elab.async false

/-! ## The entries of the peers -/

section Peers

variable {t : Trievo} {a b : U8} {f : Peer → Peer} (keep : ∀ p, (f p).addr = p.addr)
include keep

/-- A change of one peer's entry, of any address, is found under the address it had. -/
theorem peer_modPeer : (t.modPeer a f).peer b = (t.peer b).map fun p => if p.addr = a then f p else p := by
  unfold Trievo.modPeer Trievo.peer
  dsimp only
  rw [List.find?_map]
  congr 2
  funext p
  show ((if p.addr = a then f p else p).addr == b) = (p.addr == b)
  split
  · rw [keep]
  · rfl

theorem peer_modPeer_self {p} (h : t.peer a = some p) : (t.modPeer a f).peer a = some (f p) := by
  have addr : p.addr = a := by simpa using List.find?_some h
  rw [peer_modPeer keep, h, Option.map_some, if_pos addr]

theorem modPeer_addrs : (t.modPeer a f).peers.map (·.addr) = t.peers.map (·.addr) := by
  unfold Trievo.modPeer
  dsimp only
  rw [List.map_map]
  congr 1
  funext p
  show (if p.addr = a then f p else p).addr = p.addr
  split
  · exact keep p
  · rfl

theorem peer_modPeer_isSome (h : (t.peer b).isSome = true) : ((t.modPeer a f).peer b).isSome = true := by
  rw [peer_modPeer keep, Option.isSome_map]
  exact h

end Peers

/-- A peer put in its place is found there. -/
theorem placePeer_found {p : Peer} {l : List Peer} : (placePeer p l).find? (fun q => q.addr == p.addr) = some p := by
  induction l with
  | nil => simp [placePeer]
  | cons q qs ih =>
    unfold placePeer
    split
    · simp
    · split
      · simp
      next other => rw [List.find?_cons_of_neg (by simpa using fun h => other h.symm), ih]

/-! ## The checks of a frame (R349) -/

/-- A peer heard in superframe n with the SNR of frame f. -/
def heardFrom (f : TrievoFrame) (n : U16) (p : Peer) : Peer := { p with snrUl := f.snr, lastHeard := n }

/-- A peer heard in superframe n. -/
def heardIn (n : U16) (p : Peer) : Peer := { p with lastHeard := n }

theorem hearPeer_eq {f t} : hearPeer f t = (t.modPeer f.src (heardFrom f t.sfn)).modPeer (originOf f) (heardIn t.sfn) := rfl

theorem heardFrom_addr {f n} (p : Peer) : (heardFrom f n p).addr = p.addr := rfl

theorem heardIn_addr {n} (p : Peer) : (heardIn n p).addr = p.addr := rfl

/-- The link after a frame accepted with its ACK sent. -/
def ackedTri (s : State) (f : TrievoFrame) : Trievo := sendAck s f { s.tri with accepted := s.tri.accepted + 1 }

/-- The link after a frame accepted and its sender heard. -/
def heardTri (s : State) (f : TrievoFrame) : Trievo := hearPeer f (keepSeen s f (ackedTri s f))

section Receive

variable {s : State} {f : TrievoFrame} {g : State → State}

theorem receiveTri_foreign (h : frameForUs s f = false) : receiveTri f g s = s := if_pos (by rw [h]; rfl)

variable (h : frameForUs s f = true)
include h

theorem receiveTri_badCrc (hc : f.crcOk = false) : receiveTri f g s = { s with tri := { s.tri with crcFails := s.tri.crcFails + 1 } } :=
  (if_neg (by rw [h]; decide)).trans (if_pos (by rw [hc]; rfl))

theorem receiveTri_repeated (hc : f.crcOk = true) (hd : seenBefore s f = true) : receiveTri f g s = { s with tri := ackedTri s f } :=
  (if_neg (by rw [h]; decide)).trans ((if_neg (by rw [hc]; decide)).trans (if_pos hd))

theorem receiveTri_delivers (hc : f.crcOk = true) (hd : seenBefore s f = false) (hr : f.relay = false) (hp : f.payload ≠ []) :
    receiveTri f g s = g { s with tri := heardTri s f } := by
  refine (if_neg (by rw [h]; decide)).trans ((if_neg (by rw [hc]; decide)).trans ((if_neg (by rw [hd]; decide)).trans (if_neg ?_)))
  simp [hr, hp]

end Receive

section Types

variable {s : State} {f : TrievoFrame}

theorem triReceived_data (h : f.ftype = 1) : triReceived f s = receiveTri f (deliverData (originOf f) (innerPayload f)) s := by
  rw [triReceived, h]; rfl

theorem triReceived_ack (h : f.ftype = 2) : triReceived f s = ackEffect f s := by rw [triReceived, h]; rfl

theorem triReceived_assoc (h : f.ftype = 3) : triReceived f s = receiveTri f (associate f) s := by rw [triReceived, h]; rfl

theorem triReceived_status (h : f.ftype = 6) : triReceived f s = receiveTri f (takeStatus f) s := by rw [triReceived, h]; rfl

end Types

/-- Command c brings a frame whose type is DATA, ASSOC_REQ or STATUS. -/
theorem exec_receives {s f c} (h : (f.ftype = 1 ∧ c = .trievoDataReceived f) ∨ (f.ftype = 3 ∧ c = .trievoAssocReqReceived f) ∨
    (f.ftype = 6 ∧ c = .trievoStatusReceived f)) : ∃ g, exec c s = .next (receiveTri f g s) := by
  rcases h with ⟨h, rfl⟩ | ⟨h, rfl⟩ | ⟨h, rfl⟩
  · exact ⟨_, congrArg Host.Outcome.next (triReceived_data h)⟩
  · exact ⟨_, congrArg Host.Outcome.next (triReceived_assoc h)⟩
  · exact ⟨_, congrArg Host.Outcome.next (triReceived_status h)⟩

/-! ## What an accepted frame leaves of the link -/

/-- An ACK changes the last ACK, the count of sent frames and what stands on the line. -/
theorem sendAck_eq {s f t} : ∃ a n x, sendAck s f t = { t with lastAck := a, sent := n, lastTx := x } := by
  unfold sendAck
  split
  · exact ⟨_, _, _, rfl⟩
  · exact ⟨_, _, _, rfl⟩

theorem ackedTri_eq {s f} : ∃ a n x, ackedTri s f =
    { s.tri with accepted := s.tri.accepted + 1, lastAck := a, sent := n, lastTx := x } := sendAck_eq

theorem ackedTri_acked {s f} (hd : f.dst = 0) (hr : f.ackReq = true) :
    (ackedTri s f).lastAck = some (f.src, f.seq, f.snr) ∧ (ackedTri s f).sent = s.tri.sent + 1 := by
  unfold ackedTri sendAck
  rw [if_pos ⟨hd, hr⟩]
  exact ⟨rfl, rfl⟩

/-- Of a frame heard the peers, the counts and what was seen change; the queues stay. -/
theorem heardTri_keeps {s f} : (heardTri s f).mailbox = s.tri.mailbox ∧ (heardTri s f).txq = s.tri.txq ∧
    (heardTri s f).refused = s.tri.refused ∧ (heardTri s f).sfn = s.tri.sfn := by
  obtain ⟨a, n, x, acked⟩ := ackedTri_eq (s := s) (f := f)
  unfold heardTri
  rw [acked]
  exact ⟨rfl, rfl, rfl, rfl⟩

/-- The peers before they are told of the frame. -/
theorem keepSeen_peers {s f} : (keepSeen s f (ackedTri s f)).peers = s.tri.peers := by
  obtain ⟨a, n, x, acked⟩ := ackedTri_eq (s := s) (f := f)
  rw [acked]
  rfl

theorem heardTri_addrs {s f} : (heardTri s f).peers.map (·.addr) = s.tri.peers.map (·.addr) := by
  rw [heardTri, hearPeer_eq, modPeer_addrs heardIn_addr, modPeer_addrs heardFrom_addr, keepSeen_peers]

theorem peer_congr {t u : Trievo} {a : U8} (h : t.peers = u.peers) : t.peer a = u.peer a := congrArg (List.find? _) h

theorem heardTri_peer_isSome {s f a} (h : (s.tri.peer a).isSome = true) : ((heardTri s f).peer a).isSome = true := by
  rw [← peer_congr (keepSeen_peers (s := s) (f := f))] at h
  exact peer_modPeer_isSome heardIn_addr (peer_modPeer_isSome heardFrom_addr h)

/-- A peer that sends without a relay is heard with the SNR of its frame in the present superframe. -/
theorem heardTri_sender {s f p} (hr : f.relay = false) (h : s.tri.peer f.src = some p) :
    (heardTri s f).peer f.src = some { p with snrUl := f.snr, lastHeard := s.tri.sfn } := by
  have origin : originOf f = f.src := if_neg (by rw [hr]; decide)
  have sfn : (keepSeen s f (ackedTri s f)).sfn = s.tri.sfn := by
    obtain ⟨a, n, x, acked⟩ := ackedTri_eq (s := s) (f := f)
    rw [acked]
    rfl
  rw [← peer_congr (keepSeen_peers (s := s) (f := f))] at h
  rw [heardTri, hearPeer_eq, origin, sfn, peer_modPeer_self heardIn_addr (peer_modPeer_self heardFrom_addr h)]
  rfl

/-! ## Frames that are not delivered -/

theorem frame_foreign {s f} (h : frameForUs s f = false) : (f.ftype = 1 → Completes (.trievoDataReceived f) s fun t => t = s) ∧
    (f.ftype = 2 → Completes (.trievoAckReceived f) s fun t => t = s) ∧ (f.ftype = 3 → Completes (.trievoAssocReqReceived f) s fun t => t = s) ∧
    (f.ftype = 6 → Completes (.trievoStatusReceived f) s fun t => t = s) :=
  ⟨fun k => .run rfl ((triReceived_data k).trans (receiveTri_foreign h)) rfl,
    fun k => .run rfl ((triReceived_ack k).trans (if_neg (by rw [h]; decide))) rfl,
    fun k => .run rfl ((triReceived_assoc k).trans (receiveTri_foreign h)) rfl,
    fun k => .run rfl ((triReceived_status k).trans (receiveTri_foreign h)) rfl⟩

theorem frame_badCrc {s f c} (h : frameForUs s f = true) (hc : f.crcOk = false) (hx : (f.ftype = 1 ∧ c = .trievoDataReceived f) ∨
      (f.ftype = 3 ∧ c = .trievoAssocReqReceived f) ∨ (f.ftype = 6 ∧ c = .trievoStatusReceived f)) :
    Completes c s fun t => t = { s with tri := { s.tri with crcFails := s.tri.crcFails + 1 } } := by
  obtain ⟨g, run⟩ := exec_receives (s := s) hx
  exact .run run (receiveTri_badCrc h hc) rfl

theorem frame_repeated {s f c} (h : frameForUs s f = true) (hc : f.crcOk = true) (hd : seenBefore s f = true)
    (hx : (f.ftype = 1 ∧ c = .trievoDataReceived f) ∨ (f.ftype = 3 ∧ c = .trievoAssocReqReceived f) ∨
      (f.ftype = 6 ∧ c = .trievoStatusReceived f)) :
    Completes c s fun t => t.tri.accepted = s.tri.accepted + 1 ∧ t.tri.peers = s.tri.peers ∧ t.tri.mailbox = s.tri.mailbox ∧
      t.tri.txq = s.tri.txq ∧ t.tri.refused = s.tri.refused ∧ t.laneA = s.laneA ∧ t.laneB = s.laneB ∧
      (f.dst = 0 → f.ackReq = true → t.tri.lastAck = some (f.src, f.seq, f.snr) ∧ t.tri.sent = s.tri.sent + 1) := by
  obtain ⟨g, run⟩ := exec_receives (s := s) hx
  obtain ⟨a, n, x, acked⟩ := ackedTri_eq (s := s) (f := f)
  refine .run run (receiveTri_repeated h hc hd) ?_
  have sent := ackedTri_acked (s := s) (f := f)
  dsimp only
  rw [acked] at sent ⊢
  exact ⟨rfl, rfl, rfl, rfl, rfl, rfl, rfl, sent⟩

/-! ## DATA (R356) -/

section Data

variable {s : State} {f : TrievoFrame} {port : U8} {d : List Byte} (h : frameForUs s f = true) (hc : f.crcOk = true)
  (hd : seenBefore s f = false) (ht : f.ftype = 1) (hr : f.relay = false) (hp : f.payload = port :: d) (peer : (s.tri.peer f.src).isSome = true)
include h hc hd ht hr hp peer

theorem data_delivered : exec (.trievoDataReceived f) s = .next
    (if port = 1 then socReport f.src (port :: d) { s with tri := heardTri s f }
     else if 0x10 ≤ port.toNat ∧ port.toNat ≤ 0x1F then { s with tri := mailIn f.src port d (heardTri s f) }
     else { s with tri := heardTri s f }) := by
  have origin : originOf f = f.src := if_neg (by rw [hr]; decide)
  have inner : innerPayload f = port :: d := (if_neg (by rw [hr]; decide)).trans hp
  refine congrArg Host.Outcome.next ((triReceived_data ht).trans ((receiveTri_delivers h hc hd hr (by rw [hp]; exact nofun)).trans ?_))
  rw [origin, inner]
  exact if_neg (by rw [Option.isNone_eq_false_iff.2 (heardTri_peer_isSome peer)]; decide)

theorem data_mailbox (h10 : 0x10 ≤ port.toNat) (h1f : port.toNat ≤ 0x1F) : Completes (.trievoDataReceived f) s fun t =>
    t.tri.mailbox = (if s.tri.mailbox.length < 64 then s.tri.mailbox ++ [(f.src, port, d)] else s.tri.mailbox) ∧
    t.laneA = s.laneA ∧ t.laneB = s.laneB := by
  have other : port ≠ 1 := fun k => by rw [k] at h10; contradiction
  obtain ⟨mailbox, _, _, _⟩ := heardTri_keeps (s := s) (f := f)
  refine .run (data_delivered h hc hd ht hr hp peer) ((if_neg other).trans (if_pos ⟨h10, h1f⟩)) ⟨?_, rfl, rfl⟩
  dsimp only
  rw [← mailbox]
  unfold mailIn
  split <;> rfl

theorem data_soc {i : Nat} (one : port = 1) (role : (relayEntryOf s f.src).role = 3) (hi : (relayEntryOf s f.src).inst = i) (h1 : 1 ≤ i)
    (h8 : i ≤ 8) (len : d.length = 5) (range : field (port :: d) 2 2 ≤ 1000 ∨ field (port :: d) 2 2 = 0xFFFF) (sa : LaneShape s.laneA)
    (sb : LaneShape s.laneB) : Completes (.trievoDataReceived f) s fun t => ∀ l,
      (nth (t.lane l).share.strs (i - 1)).reported = BitVec.ofNat 16 (field (port :: d) 2 2) ∧
      (nth (t.lane l).share.strs (i - 1)).reportAt = s.site.ns := by
  subst hi
  refine .run (data_delivered h hc hd ht hr hp peer)
    ((if_pos one).trans (if_pos (⟨role, h1, h8, by rw [List.length_cons, len], range⟩ :
      (relayEntryOf s f.src).role = 3 ∧ 1 ≤ (relayEntryOf s f.src).inst ∧ (relayEntryOf s f.src).inst ≤ 8 ∧ (port :: d).length = 6 ∧ _))) ?_
  have reported {strs : List StrState} (len : strs.length = 8) {v : U16} {e : Nat} :
      (nth (upd strs ((relayEntryOf s f.src).inst - 1) fun y =>
        { y with reported := v, known := v != 0xFFFF, energy := 0, reportAt := e }) ((relayEntryOf s f.src).inst - 1)) = _ :=
    nth_upd_self _ _ _ (by omega)
  intro l
  cases l with
  | a => exact ⟨congrArg StrState.reported (reported sa.strs), congrArg StrState.reportAt (reported sa.strs)⟩
  | b => exact ⟨congrArg StrState.reported (reported sb.strs), congrArg StrState.reportAt (reported sb.strs)⟩

theorem data_socRefused (one : port = 1)
    (bad : (relayEntryOf s f.src).role ≠ 3 ∨ (1000 < field (port :: d) 2 2 ∧ field (port :: d) 2 2 ≠ 0xFFFF)) :
    Completes (.trievoDataReceived f) s fun t => t.laneA = s.laneA ∧ t.laneB = s.laneB ∧ t.tri.mailbox = s.tri.mailbox := by
  obtain ⟨mailbox, _, _, _⟩ := heardTri_keeps (s := s) (f := f)
  refine .run (data_delivered h hc hd ht hr hp peer) ((if_pos one).trans (if_neg ?_)) ⟨rfl, rfl, mailbox⟩
  rintro ⟨role, _, _, _, range⟩
  rcases bad with bad | ⟨big, other⟩
  · exact bad role
  · rcases range with k | k
    · exact absurd k (Nat.not_le.mpr big)
    · exact other k

end Data

/-! ## Association and STATUS (R356) -/

/-- A frame queued changes the queue alone. -/
theorem queueTri_eq {u t} : ∃ q, queueTri u t = { t with txq := q } := by
  unfold queueTri
  split
  · exact ⟨_, rfl⟩
  · exact ⟨_, rfl⟩

theorem assocResponse_keeps {n a t} : (assocResponse n a t).peers = t.peers ∧ (assocResponse n a t).refused = t.refused ∧
    (assocResponse n a t).lastAssoc = some (BitVec.ofNat 32 n, BitVec.ofNat 8 a) := by
  obtain ⟨q, queued⟩ := queueTri_eq (u := { ftype := 4, dst := 0xFE, payload := Config.assocResp (BitVec.ofNat 32 n) a, ackReq := false
                                            prio := 0, k := 0, mailbox := false, seq := none, via := 0xFE })
    (t := { t with lastAssoc := some (BitVec.ofNat 32 n, BitVec.ofNat 8 a) })
  rw [assocResponse, queued]
  exact ⟨rfl, rfl, rfl⟩

section Assoc

variable {s : State} {f : TrievoFrame} (h : frameForUs s f = true) (hc : f.crcOk = true) (hd : seenBefore s f = false) (ht : f.ftype = 3)
  (hr : f.relay = false) (hs : f.src = 0xFE) (len : 6 ≤ f.payload.length)
include h hc hd ht hr hs len

theorem assoc_delivered : triReceived f s = match entryFor s (field f.payload 0 4) with
    | some e => modTri (fun t => assocResponse (field f.payload 0 4) (e + 1)
        { t with peers := placePeer (newPeer { s with tri := heardTri s f } e (field f.payload 0 4) f) t.peers }) { s with tri := heardTri s f }
    | none => modTri (fun t => assocResponse (field f.payload 0 4) 0 { t with refused := t.refused + 1 }) { s with tri := heardTri s f } := by
  have some : f.payload ≠ [] := fun k => by rw [k] at len; contradiction
  refine (triReceived_assoc ht).trans ((receiveTri_delivers h hc hd hr some).trans (if_neg ?_))
  rintro (k | k)
  · exact absurd len (Nat.not_le.mpr k)
  · exact k hs

theorem assoc_known {e} (he : entryFor s (field f.payload 0 4) = some e) : Completes (.trievoAssocReqReceived f) s fun t =>
    t.tri.peer (BitVec.ofNat 8 (e + 1)) = some (newPeer s e (field f.payload 0 4) f) ∧ t.tri.refused = s.tri.refused ∧
    t.tri.lastAssoc = some (BitVec.ofNat 32 (field f.payload 0 4), BitVec.ofNat 8 (e + 1)) := by
  obtain ⟨_, _, refused, sfn⟩ := heardTri_keeps (s := s) (f := f)
  have same : newPeer { s with tri := heardTri s f } e (field f.payload 0 4) f = newPeer s e (field f.payload 0 4) f :=
    congrArg (fun n => ({ newPeer s e (field f.payload 0 4) f with lastHeard := n } : Peer)) sfn
  have delivered := assoc_delivered h hc hd ht hr hs len
  rw [he] at delivered
  dsimp only at delivered
  rw [same] at delivered
  obtain ⟨peers, refusedToo, last⟩ := assocResponse_keeps (n := field f.payload 0 4) (a := e + 1)
    (t := { heardTri s f with peers := placePeer (newPeer s e (field f.payload 0 4) f) (heardTri s f).peers })
  refine .run rfl delivered ⟨?_, refusedToo.trans refused, last⟩
  exact (peer_congr peers).trans (placePeer_found (p := newPeer s e (field f.payload 0 4) f))

theorem assoc_unknown (he : entryFor s (field f.payload 0 4) = none) : Completes (.trievoAssocReqReceived f) s fun t =>
    t.tri.refused = s.tri.refused + 1 ∧ t.tri.lastAssoc = some (BitVec.ofNat 32 (field f.payload 0 4), 0) ∧
    t.tri.peers.map (·.addr) = s.tri.peers.map (·.addr) := by
  obtain ⟨_, _, refused, _⟩ := heardTri_keeps (s := s) (f := f)
  have delivered := assoc_delivered h hc hd ht hr hs len
  rw [he] at delivered
  obtain ⟨peers, refusedToo, last⟩ := assocResponse_keeps (n := field f.payload 0 4) (a := 0)
    (t := { heardTri s f with refused := (heardTri s f).refused + 1 })
  exact .run rfl delivered ⟨refusedToo.trans (congrArg (· + 1) refused), last, (congrArg (List.map (·.addr)) peers).trans heardTri_addrs⟩

end Assoc

/-- A peer with the beacon SNR and the addresses of a STATUS. -/
def withStatus (b : U8) (l : List Byte) (p : Peer) : Peer := { p with beaconSnr := b, hears := (statusPairs l).take 31 }

theorem status_taken {s f b l p} (h : frameForUs s f = true) (hc : f.crcOk = true) (hd : seenBefore s f = false) (ht : f.ftype = 6)
    (hr : f.relay = false) (hp : f.payload = b :: l) (peer : s.tri.peer f.src = some p) : Completes (.trievoStatusReceived f) s fun t =>
    t.tri.peer f.src = some { p with snrUl := f.snr, lastHeard := s.tri.sfn, beaconSnr := b, hears := (statusPairs l).take 31 } := by
  have origin : originOf f = f.src := if_neg (by rw [hr]; decide)
  have inner : innerPayload f = b :: l := (if_neg (by rw [hr]; decide)).trans hp
  have taken : takeStatus f { s with tri := heardTri s f } = { s with tri := (heardTri s f).modPeer f.src (withStatus b l) } := by
    rw [takeStatus, inner, origin]
    rfl
  refine .run rfl ((triReceived_status ht).trans ((receiveTri_delivers h hc hd hr (by rw [hp]; exact nofun)).trans taken)) ?_
  exact peer_modPeer_self (f := withStatus b l) (fun _ => rfl) (heardTri_sender hr peer)

/-! ## Acknowledgements (R349, R353, R354) -/

theorem reach_eq {s p} : ∃ st, reach s p = { p with st := st } := by
  unfold reach
  split
  · exact ⟨_, rfl⟩
  · exact ⟨p.st, rfl⟩

/-- A unicast that ends changes the history and the reach of its peer. -/
theorem recordUnicast_eq {s a b p} : ∃ h st, recordUnicast s a b p = { p with hist := h, st := st } := by
  obtain ⟨st, reached⟩ := reach_eq (s := s) (p := { p with hist := ((a, b) :: p.hist).take 32 })
  exact ⟨_, st, reached⟩

/-- The SNR of an ACK is kept; it drives the modulation and its run alone. -/
theorem takeSnr_eq {s v p} : ∃ m r, takeSnr s v p = { p with snrDl := v, fresh := false, modulation := m, upRun := r } := by
  unfold takeSnr
  dsimp only
  split
  · exact ⟨_, _, rfl⟩
  · split
    · split
      · exact ⟨_, _, rfl⟩
      · exact ⟨p.modulation, _, rfl⟩
    · exact ⟨p.modulation, _, rfl⟩

theorem recordUnicast_addr {s a b p} : (recordUnicast s a b p).addr = p.addr := by
  obtain ⟨h, st, recorded⟩ := recordUnicast_eq (s := s) (a := a) (b := b) (p := p)
  rw [recorded]

theorem takeSnr_addr {s v p} : (takeSnr s v p).addr = p.addr := by
  obtain ⟨m, r, taken⟩ := takeSnr_eq (s := s) (v := v) (p := p)
  rw [taken]

section Ack

variable {s : State} {f : TrievoFrame} {u : Unicast} (h : frameForUs s f = true) (ht : f.ftype = 2) (hw : s.tri.waiting = some u)
include h ht hw

theorem ack_received : triReceived f s = modTri (fun t =>
      if u.via = f.src ∧ u.seq = some f.seq then
        endUnicast s u false (Trievo.modPeer u.via (takeSnr s f.ackSnr) { t with accepted := t.accepted + 1 })
      else { t with accepted := t.accepted + 1 }) s := by
  refine (triReceived_ack ht).trans ((if_pos h).trans (congrArg (fun t => { s with tri := t }) ?_))
  show takeAck s f { s.tri with accepted := s.tri.accepted + 1 } = _
  unfold takeAck
  dsimp only
  rw [hw]

theorem ack_ends (via : u.via = f.src) (seq : u.seq = some f.seq) : Completes (.trievoAckReceived f) s fun t =>
    t.tri.waiting = none ∧ t.tri.accepted = s.tri.accepted + 1 ∧ t.tri.txResult = (if u.mailbox = true then 0 else s.tri.txResult) ∧
    ∀ p, s.tri.peer f.src = some p → (t.tri.peer f.src).map (·.snrDl) = some f.ackSnr := by
  have ends := congrArg (fun t => { s with tri := t }) (if_pos ⟨via, seq⟩ : (if u.via = f.src ∧ u.seq = some f.seq then
    endUnicast s u false (Trievo.modPeer u.via (takeSnr s f.ackSnr) { s.tri with accepted := s.tri.accepted + 1 })
    else { s.tri with accepted := s.tri.accepted + 1 }) = _)
  refine .run rfl ((ack_received h ht hw).trans ends) ⟨rfl, rfl, rfl, fun p peer => ?_⟩
  have found : (endUnicast s u false (Trievo.modPeer u.via (takeSnr s f.ackSnr) { s.tri with accepted := s.tri.accepted + 1 })).peer f.src =
      some (recordUnicast s (u.k == 0 && !false) false (takeSnr s f.ackSnr p)) := by
    rw [← via] at peer ⊢
    exact peer_modPeer_self (fun _ => recordUnicast_addr) (peer_modPeer_self (fun _ => takeSnr_addr) peer)
  obtain ⟨hist, st, recorded⟩ := recordUnicast_eq (s := s) (a := u.k == 0 && !false) (b := false) (p := takeSnr s f.ackSnr p)
  obtain ⟨m, r, taken⟩ := takeSnr_eq (s := s) (v := f.ackSnr) (p := p)
  show Option.map _ (Trievo.peer _ f.src) = _
  rw [found, recorded, taken]
  rfl

theorem ack_other (other : u.via ≠ f.src ∨ u.seq ≠ some f.seq) : Completes (.trievoAckReceived f) s fun t =>
    t.tri = { s.tri with accepted := s.tri.accepted + 1 } :=
  .run rfl ((ack_received h ht hw).trans (congrArg (fun t => { s with tri := t }) (if_neg fun k => other.elim (· k.1) (· k.2)))) rfl

end Ack

/-- Settles O43, by the checks of a frame and then by its type. -/
theorem trievoReception : Obligations.TrievoReception :=
  ⟨fun _ _ => ⟨rfl, rfl, rfl⟩, fun _ _ => frame_foreign,
    fun _ _ h hc => ⟨fun k => frame_badCrc h hc (.inl ⟨k, rfl⟩), fun k => frame_badCrc h hc (.inr (.inl ⟨k, rfl⟩)),
      fun k => frame_badCrc h hc (.inr (.inr ⟨k, rfl⟩))⟩,
    fun _ _ h hc hd => ⟨fun k => frame_repeated h hc hd (.inl ⟨k, rfl⟩), fun k => frame_repeated h hc hd (.inr (.inl ⟨k, rfl⟩)),
      fun k => frame_repeated h hc hd (.inr (.inr ⟨k, rfl⟩))⟩,
    fun _ _ _ _ h hc hd ht hr hp peer => ⟨data_mailbox h hc hd ht hr hp peer,
      fun one len role h1 h8 range sa sb => data_soc h hc hd ht hr hp peer one role rfl h1 h8 len range sa sb,
      data_socRefused h hc hd ht hr hp peer⟩,
    fun _ _ h hc hd ht hr hs len => ⟨fun _ => assoc_known h hc hd ht hr hs len, assoc_unknown h hc hd ht hr hs len⟩,
    fun _ _ _ _ h hc hd ht hr hp _ => status_taken h hc hd ht hr hp,
    fun _ _ _ h ht hw => ⟨ack_ends h ht hw, ack_other h ht hw⟩⟩

end Sys2Proof.Machine
end

section
/-! PROOF. What the Trievo link sends, retries and drops (R350, R351, R353, R355, R356, R361). -/

namespace Sys2Proof.Machine

set_option Elab.async false

/-! ## The repeaters of a superframe (R355) -/

/-- Of the link only the peers and the counts of promotions and demotions differ. -/
def RepeatersOnly (t u : Trievo) : Prop := ∃ ps n m, u = { t with peers := ps, promotions := n, demotions := m }

theorem RepeatersOnly.refl {t} : RepeatersOnly t t := ⟨_, _, _, rfl⟩

theorem RepeatersOnly.trans {t u v} (h : RepeatersOnly t u) (k : RepeatersOnly u v) : RepeatersOnly t v := by
  obtain ⟨_, _, _, rfl⟩ := h
  obtain ⟨_, _, _, rfl⟩ := k
  exact ⟨_, _, _, rfl⟩

theorem modPeer_repeaters {a f t} : RepeatersOnly t (Trievo.modPeer a f t) := ⟨_, _, _, rfl⟩

theorem assignPoor_repeaters {s st a} : RepeatersOnly st.1 (assignPoor s st a).1 := by
  unfold assignPoor
  dsimp only
  split
  · split
    · exact modPeer_repeaters
    · split
      · exact (modPeer_repeaters.trans modPeer_repeaters).trans ⟨_, _, _, rfl⟩
      · exact .refl
  · exact .refl

theorem foldl_assignPoor_repeaters {s} (as : List U8) (st : Trievo × Bool) : RepeatersOnly st.1 (as.foldl (assignPoor s) st).1 := by
  induction as generalizing st with
  | nil => exact .refl
  | cons a as ih => exact assignPoor_repeaters.trans (ih _)

theorem demoteOne_repeaters {s t} : RepeatersOnly t (demoteOne s t) := by
  unfold demoteOne
  split
  · exact ⟨_, _, _, rfl⟩
  · exact .refl

theorem repeaterChanges_repeaters {s t} : RepeatersOnly t (repeaterChanges s t) :=
  (RepeatersOnly.trans ⟨_, _, _, rfl⟩ demoteOne_repeaters).trans (foldl_assignPoor_repeaters _ (_, false))

/-! ## The allocations of a superframe (R351) -/

/-- Allocations stand between slot 20 and slot 104 and are at most 12. -/
def AllocsOk (l : List (U8 × Nat × Nat × Bool)) : Prop :=
  l.length ≤ 12 ∧ ∀ a ∈ l, 20 ≤ a.2.1 ∧ 0 < a.2.2.1 ∧ a.2.1 + a.2.2.1 ≤ 104

/-- The end of the last allocation, slot 20 without one. -/
theorem cpStartOf_bounds {l} (h : AllocsOk l) : 20 ≤ cpStartOf l ∧ cpStartOf l ≤ 104 := by
  unfold cpStartOf
  split
  next a last =>
    obtain ⟨start, some, stop⟩ := h.2 a (List.mem_of_getLast? last)
    exact ⟨by omega, stop⟩
  · exact ⟨by omega, by omega⟩

theorem placeAlloc_eq {l r} : placeAlloc l r =
    if r.2.1 = 0 ∨ 104 < cpStartOf l + r.2.1 ∨ 12 ≤ l.length then l else l ++ [(r.1, cpStartOf l, r.2.1, r.2.2)] := rfl

theorem placeAlloc_ok {l r} (h : AllocsOk l) : AllocsOk (placeAlloc l r) := by
  have start := (cpStartOf_bounds h).1
  rw [placeAlloc_eq]
  split
  · exact h
  next fits =>
    obtain ⟨count, each⟩ := h
    refine ⟨by rw [List.length_append, List.length_singleton]; omega, fun a ha => ?_⟩
    rcases List.mem_append.1 ha with ha | ha
    · exact each a ha
    · rw [List.mem_singleton.1 ha]
      exact ⟨start, by dsimp only; omega, by dsimp only; omega⟩

theorem foldl_placeAlloc_ok {rs : List (U8 × Nat × Bool)} {l} (h : AllocsOk l) : AllocsOk (rs.foldl placeAlloc l) := by
  induction rs generalizing l with
  | nil => exact h
  | cons r rs ih => exact ih (placeAlloc_ok h)

theorem allocate_ok {s t} : AllocsOk (allocate s t) := foldl_placeAlloc_ok ⟨by decide, nofun⟩

theorem beacon_sent {s} : (beacon s s.tri).sfn = s.tri.sfn + 1 ∧ (beacon s s.tri).sent = s.tri.sent + 1 ∧
    (beacon s s.tri).seq = s.tri.seq + 1 ∧ (beacon s s.tri).txq = s.tri.txq ∧ AllocsOk (beacon s s.tri).allocs ∧
    (beacon s s.tri).cpStart = cpStartOf (beacon s s.tri).allocs := by
  obtain ⟨ps, n, m, changed⟩ := repeaterChanges_repeaters (s := s) (t := { s.tri with sfn := s.tri.sfn + 1 })
  unfold beacon
  rw [changed]
  exact ⟨rfl, rfl, rfl, rfl, allocate_ok, rfl⟩

theorem beaconSend_opens {s} (on : triOn s = true) (native : triNative s = true) : Completes .beaconSend s fun t =>
    t.tri.sfn = s.tri.sfn + 1 ∧ t.tri.sent = s.tri.sent + 1 ∧ t.tri.seq = s.tri.seq + 1 ∧ t.tri.txq = s.tri.txq ∧ t.tri.allocs.length ≤ 12 ∧
    t.tri.cpStart ≤ 104 ∧ ∀ a ∈ t.tri.allocs, 20 ≤ a.2.1 ∧ 0 < a.2.2.1 ∧ a.2.1 + a.2.2.1 ≤ 104 := by
  obtain ⟨sfn, sent, seq, txq, allocs, start⟩ := beacon_sent (s := s)
  refine .run rfl (if_pos (by rw [on, native]; rfl)) ⟨sfn, sent, seq, txq, allocs.1, ?_, allocs.2⟩
  exact start ▸ (cpStartOf_bounds allocs).2

/-! ## Sending and waiting for the ACK (R347, R351, R353) -/

theorem frameSend_stays {s} {k : Fin 192} (h : triOn s = false ∨ s.tri.waiting.isSome = true ∨ nextFrame s.tri.txq = none) :
    Completes (.trievoFrameSend k) s fun t => t = s := by
  refine .run rfl (t := s) ?_ rfl
  unfold triSendEffect
  split
  · rfl
  next sends =>
    rcases h with h | h | h
    · simp [h] at sends
    · simp [h] at sends
    · rw [h]

section Send

variable {s : State} {k : Fin 192} {i : Nat} {u : Unicast} (on : triOn s = true) (idle : s.tri.waiting = none)
  (next : nextFrame s.tri.txq = some i) (front : nth s.tri.txq i = u)
include on idle next

theorem frameSend_starts : exec (.trievoFrameSend k) s = .next (modTri (startFrame s k i) s) := by
  refine congrArg Host.Outcome.next ((if_neg (by simp [on, idle])).trans ?_)
  rw [next]

include front

theorem frameSend_waits (fits : slotFits s s.tri k (linePayload { u with via := viaOf s.tri u.dst } (viaOf s.tri u.dst)).length
    (modOf s.tri { u with via := viaOf s.tri u.dst }) u.ackReq = false) : Completes (.trievoFrameSend k) s fun t => t.tri = s.tri := by
  subst front
  exact .of (frameSend_starts on idle next) (if_pos (by rw [fits]; rfl))

theorem frameSend_sent (fits : slotFits s s.tri k (linePayload { u with via := viaOf s.tri u.dst } (viaOf s.tri u.dst)).length
    (modOf s.tri { u with via := viaOf s.tri u.dst }) u.ackReq = true) : Completes (.trievoFrameSend k) s fun t =>
    t.tri.txq = s.tri.txq.eraseIdx i ∧ t.tri.sent = s.tri.sent + 1 ∧
    t.tri.seq = (if u.seq.isSome = true then s.tri.seq else s.tri.seq + 1) ∧
    t.tri.waiting = (if u.ackReq = true then some { u with via := viaOf s.tri u.dst, seq := some (u.seq.getD s.tri.seq) } else none) := by
  subst front
  refine .run (frameSend_starts on idle next) (congrArg (fun t => { s with tri := t }) (if_neg (by rw [fits]; decide))) ?_
  dsimp only
  split
  · exact ⟨rfl, rfl, rfl, rfl⟩
  · exact ⟨rfl, rfl, rfl, idle⟩

end Send

theorem ackTimeout_retries {s u} (hw : s.tri.waiting = some u) (hk : u.k < 3) : Completes .ackTimeout s fun t =>
    t.tri = { s.tri with waiting := none, retries := s.tri.retries + 1, txq := { u with k := u.k + 1 } :: s.tri.txq } := by
  refine .run rfl (t := modTri (fun t => { t with waiting := none, retries := t.retries + 1, txq := { u with k := u.k + 1 } :: t.txq }) s) ?_ rfl
  rw [ackTimeoutEffect, hw]
  exact if_pos hk

/-- A peer due for phase learning. -/
def toLearn (p : Peer) : Peer := { p with learn := true }

theorem finalFail_eq {s u t} : finalFail s u t =
    if threePhase s = true then (endUnicast s u true { t with finals := t.finals + 1 }).modPeer u.via toLearn
    else endUnicast s u true { t with finals := t.finals + 1 } := rfl

theorem ackTimeout_fails {s u} (hw : s.tri.waiting = some u) (hk : 3 ≤ u.k) : Completes .ackTimeout s fun t =>
    t.tri.waiting = none ∧ t.tri.finals = s.tri.finals + 1 ∧ t.tri.txq = s.tri.txq ∧ t.tri.retries = s.tri.retries ∧
    t.tri.txResult = (if u.mailbox = true then 2 else s.tri.txResult) ∧
    (threePhase s = true → ∀ p, s.tri.peer u.via = some p → (t.tri.peer u.via).map (·.learn) = some true) := by
  have failed : ackTimeoutEffect s = evt (eventData .finalFailure 5 (u.dst.toNat - 1) [u.dst]) (modTri (finalFail s u) s) := by
    rw [ackTimeoutEffect, hw]
    exact if_neg (Nat.not_lt.mpr hk)
  refine .run rfl failed ?_
  rw [evt_tri]
  show _ ∧ _
  have tri : (modTri (finalFail s u) s).tri = finalFail s u s.tri := rfl
  rw [tri, finalFail_eq]
  split
  · refine ⟨rfl, rfl, rfl, rfl, rfl, fun _ p peer => ?_⟩
    have recorded : (endUnicast s u true { s.tri with finals := s.tri.finals + 1 }).peer u.via =
        some (recordUnicast s (u.k == 0 && !true) true p) := peer_modPeer_self (fun _ => recordUnicast_addr) peer
    rw [peer_modPeer_self (f := toLearn) (fun _ => rfl) recorded]
    rfl
  next single => exact ⟨rfl, rfl, rfl, rfl, rfl, fun h => absurd h single⟩

/-! ## Phase learning (R350) -/

theorem learn_stays {s a acks} (h : triOn s = false ∨ threePhase s = false ∨ s.tri.peer a = none) :
    Completes (.phaseLearning a acks) s fun t => t = s := by
  refine .run rfl (if_pos ?_) rfl
  rcases h with h | h | h <;> simp [h]

theorem reach_addr {s p} : (reach s p).addr = p.addr := by
  obtain ⟨st, reached⟩ := reach_eq (s := s) (p := p)
  rw [reached]

theorem learnPhase_addr {s acks} (p : Peer) : (learnPhase s acks p).addr = p.addr := by
  unfold learnPhase
  split
  · rw [reach_addr, takeSnr_addr]
  · rfl

theorem learnPhase_best {s acks p k v} (h : bestPhase acks = some (k, v)) : (learnPhase s acks p).learn = false ∧
    (learnPhase s acks p).phase = BitVec.ofNat _ k ∧ (learnPhase s acks p).snrDl = v := by
  unfold learnPhase
  rw [h]
  dsimp only
  obtain ⟨m, r, taken⟩ := takeSnr_eq (s := s) (v := v) (p := { p with phase := BitVec.ofNat 8 k, learn := false })
  obtain ⟨st, reached⟩ := reach_eq (s := s) (p := takeSnr s v { p with phase := BitVec.ofNat 8 k, learn := false })
  rw [reached, taken]
  exact ⟨rfl, rfl, rfl⟩

theorem learnPhase_unheard {s acks p} (h : bestPhase acks = none) : (learnPhase s acks p).learn = false ∧ (learnPhase s acks p).phase = 0 := by
  unfold learnPhase
  rw [h]
  exact ⟨rfl, rfl⟩

theorem learnPhase_learned {s acks p} : (learnPhase s acks p).learn = false := by
  cases h : bestPhase acks with
  | none => exact (learnPhase_unheard h).1
  | some b => exact (learnPhase_best h).1

/-- The better of the best report so far and the report on phase k. -/
def betterOf (b : Option (Nat × U8)) (k : Nat) : Option U8 → Option (Nat × U8)
  | some v =>
    match b with
    | some (_, w) => if w.toNat < v.toNat then some (k, v) else b
    | none => some (k, v)
  | none => b

theorem bestPhase_three {x y z : Option U8} : bestPhase [x, y, z] = betterOf (betterOf (betterOf none 1 x) 2 y) 3 z := by
  have step (b : Option (Nat × U8)) (e : Option U8) (k : Nat) : (match e, b with
      | some v, some (_, w) => if w.toNat < v.toNat then some (k + 1, v) else b
      | some v, none => some (k + 1, v)
      | none, _ => b) = betterOf b (k + 1) e := by
    cases e <;> cases b <;> rfl
  exact (step ..).trans (congrArg (betterOf · 3 z) ((step ..).trans (congrArg (betterOf · 2 y) (step ..))))

theorem betterOf_keeps {j k v} {e : Option U8} (h : ∀ w, e = some w → w.toNat ≤ v.toNat) : betterOf (some (j, v)) k e = some (j, v) := by
  cases e with
  | none => rfl
  | some w => exact if_neg (Nat.not_lt.mpr (h w rfl))

theorem betterOf_takes {b : Option (Nat × U8)} {k v} (h : ∀ j w, b = some (j, w) → w.toNat < v.toNat) : betterOf b k (some v) = some (k, v) := by
  cases b with
  | none => rfl
  | some b => exact if_pos (h b.1 b.2 rfl)

/-- The best report is one of those given. -/
theorem betterOf_given {b : Option (Nat × U8)} {k e j w} (h : betterOf b k e = some (j, w)) : b = some (j, w) ∨ e = some w := by
  cases e with
  | none => exact .inl h
  | some v =>
    cases b with
    | none =>
      obtain ⟨_, rfl⟩ := Prod.mk.inj (Option.some.inj h)
      exact .inr rfl
    | some b =>
      unfold betterOf at h
      dsimp only at h
      split at h
      · obtain ⟨_, rfl⟩ := Prod.mk.inj (Option.some.inj h)
        exact .inr rfl
      · exact .inl h

section Best

variable {x y z : Option U8} {v : U8}

theorem bestPhase_a (h : x = some v) (hy : ∀ w, y = some w → w.toNat ≤ v.toNat) (hz : ∀ w, z = some w → w.toNat ≤ v.toNat) :
    bestPhase [x, y, z] = some (1, v) := by
  rw [bestPhase_three, h, betterOf_takes (b := none) nofun, betterOf_keeps hy, betterOf_keeps hz]

theorem bestPhase_b (h : y = some v) (hx : ∀ w, x = some w → w.toNat < v.toNat) (hz : ∀ w, z = some w → w.toNat ≤ v.toNat) :
    bestPhase [x, y, z] = some (2, v) := by
  have first j w (k : betterOf none 1 x = some (j, w)) : w.toNat < v.toNat := (betterOf_given k).elim nofun (hx w)
  rw [bestPhase_three, h, betterOf_takes first, betterOf_keeps hz]

theorem bestPhase_c (h : z = some v) (hx : ∀ w, x = some w → w.toNat < v.toNat) (hy : ∀ w, y = some w → w.toNat < v.toNat) :
    bestPhase [x, y, z] = some (3, v) := by
  have second j w (k : betterOf (betterOf none 1 x) 2 y = some (j, w)) : w.toNat < v.toNat :=
    (betterOf_given k).elim (fun k => (betterOf_given k).elim nofun (hx w)) (hy w)
  rw [bestPhase_three, h, betterOf_takes second]

theorem bestPhase_unheard (hx : x = none) (hy : y = none) (hz : z = none) : bestPhase [x, y, z] = none := by
  rw [bestPhase_three, hx, hy, hz]
  rfl

end Best

theorem learn_best {s a x y z p} (on : triOn s = true) (three : threePhase s = true) (peer : s.tri.peer a = some p) (due : p.learn = true) :
    Completes (.phaseLearning a [x, y, z]) s fun t => t.tri.sent = s.tri.sent + 3 ∧ ∃ q, t.tri.peer a = some q ∧ q.learn = false ∧
      (x = none → y = none → z = none → q.phase = 0) ∧
      (∀ v, x = some v → (∀ w, y = some w → w.toNat ≤ v.toNat) → (∀ w, z = some w → w.toNat ≤ v.toNat) → q.phase = 1 ∧ q.snrDl = v) ∧
      (∀ v, y = some v → (∀ w, x = some w → w.toNat < v.toNat) → (∀ w, z = some w → w.toNat ≤ v.toNat) → q.phase = 2 ∧ q.snrDl = v) ∧
      (∀ v, z = some v → (∀ w, x = some w → w.toNat < v.toNat) → (∀ w, y = some w → w.toNat < v.toNat) → q.phase = 3 ∧ q.snrDl = v) := by
  refine .run rfl (if_neg (by simp [on, three, peer, due])) ⟨rfl, learnPhase s [x, y, z] p, peer_modPeer_self learnPhase_addr peer,
    learnPhase_learned, fun hx hy hz => (learnPhase_unheard (bestPhase_unheard hx hy hz)).2, ?_, ?_, ?_⟩
  · exact fun v h hy hz => (learnPhase_best (bestPhase_a h hy hz)).2
  · exact fun v h hx hz => (learnPhase_best (bestPhase_b h hx hz)).2
  · exact fun v h hx hy => (learnPhase_best (bestPhase_c h hx hy)).2

/-! ## Lost peers and the host mailbox (R356, R361) -/

theorem losePeer_gone {s a t} : (losePeer s a t).peer a = none := by
  unfold losePeer Trievo.peer
  dsimp only
  rw [List.find?_map, Option.map_eq_none_iff, List.find?_eq_none]
  intro p hp
  have other : p.addr ≠ a := by simpa using (List.mem_filter.1 hp).2
  show ¬ ((if p.st = 1 ∧ p.repeater = a then reach s { p with st := 0, repeater := 0 } else p).addr == a) = true
  split
  · rw [reach_addr]
    simpa using other
  · simpa using other

theorem peerLost_leaves {s a} (h : (s.tri.peer a).isSome = true) : Completes (.peerLost a) s fun t =>
    t.tri.peer a = none ∧ t.tri.txq = s.tri.txq.filter (fun u => u.dst != a) ∧ t.tri.waiting = s.tri.waiting.filter (fun u => u.dst != a) ∧
    (∀ u ∈ s.tri.txq, u.dst = a → u.mailbox = true → t.tri.txResult = 4) := by
  refine .run rfl (if_neg (by rw [Option.isNone_eq_false_iff.2 h]; decide)) ?_
  rw [evt_tri]
  refine ⟨losePeer_gone, rfl, rfl, fun u hu dst mail => if_pos ?_⟩
  rw [Bool.or_eq_true]
  exact .inl (List.any_eq_true.2 ⟨u, hu, by simp [dst, mail]⟩)

theorem mailbox_serves {s a} (on : triOn s = true) (peer : (s.tri.peer a).isSome = true) :
    ¬ ((!triOn (respond 0 [] s)) = true ∨ ((respond 0 [] s).tri.peer a).isNone = true) := by
  rintro (k | k)
  · rw [show triOn (respond 0 [] s) = triOn s from rfl, on] at k
    cases k
  · rw [respond_tri, Option.isNone_eq_false_iff.2 peer] at k
    cases k

theorem queueTri_room {u} {t : Trievo} (room : t.txq.length < 64) : queueTri u t = { t with txq := t.txq ++ [u] } := if_pos room

/-- The unicast that carries a host frame. -/
def hostFrame (d : List Byte) : Unicast :=
  { ftype := 1, dst := d.getD 0 0, payload := d.drop 1, ackReq := true, prio := 2, k := 0, mailbox := true, seq := none, via := d.getD 0 0 }

section Mailbox

variable {s : State} {d : List Byte} (hw : writable s = true) (ha : (activeLane s).isSome = true)

theorem mailbox_forbidden (hw : writable s = false) : Completes (.mailboxTransmit d) s fun t => t.tri = s.tri := by
  refine .of rfl ?_
  unfold mailboxTransmitEffect
  dsimp only
  rw [if_neg (by simp [hw]), hw]
  unfold hostRange hostWrite
  rw [if_neg (by simp)]
  split <;> rfl

include hw ha

theorem mailbox_length (len : d.length < 2 ∨ 63 < d.length) : Completes (.mailboxTransmit d) s fun t => t = respond 0x06070010 [] s :=
  .run rfl (if_pos (by simpa [hw, ha] using len)) rfl

variable (h2 : 2 ≤ d.length) (h63 : d.length ≤ 63)
include h2 h63

omit ha in
theorem mailbox_range {inRange : Bool} (hp : decide (0x10 ≤ (d.getD 1 0).toNat ∧ (d.getD 1 0).toNat ≤ 0x1F) = inRange) :
    mailboxTransmitEffect d s = hostRange true inRange (fun s => modTri (mailOut s d) s) s := by
  refine (if_neg (by simp; omega)).trans ?_
  rw [hw, hp]

theorem mailbox_port (hp : (d.getD 1 0).toNat < 0x10 ∨ 0x1F < (d.getD 1 0).toNat) : Completes (.mailboxTransmit d) s fun t =>
    t = respond 0x06090030 [] s :=
  .run rfl ((mailbox_range hw h2 h63 (decide_eq_false (by omega))).trans (hostRange_rejected ha)) rfl

variable (h10 : 0x10 ≤ (d.getD 1 0).toNat) (h1f : (d.getD 1 0).toNat ≤ 0x1F)
include h10 h1f

theorem mailbox_run {P : State → Prop} (h : P (modTri (mailOut (respond 0 [] s) d) (respond 0 [] s))) :
    Completes (.mailboxTransmit d) s P :=
  .run rfl ((mailbox_range hw h2 h63 (decide_eq_true ⟨h10, h1f⟩)).trans (hostRange_taken ha)) h

theorem mailbox_noPeer (h : triOn s = false ∨ s.tri.peer (d.getD 0 0) = none) : Completes (.mailboxTransmit d) s fun t =>
    t.tri = { s.tri with txResult := 4 } := by
  refine mailbox_run hw ha h2 h63 h10 h1f (if_pos ?_)
  rcases h with h | h
  · exact .inl (by rw [show triOn (respond 0 [] s) = triOn s from rfl, h]; rfl)
  · exact .inr (Option.isNone_iff_eq_none.2 h)

variable (on : triOn s = true) (peer : (s.tri.peer (d.getD 0 0)).isSome = true)
include on peer

theorem mailbox_full (full : 64 ≤ s.tri.txq.length) : Completes (.mailboxTransmit d) s fun t => t.tri = { s.tri with txResult := 5 } :=
  mailbox_run hw ha h2 h63 h10 h1f ((if_neg (mailbox_serves on peer)).trans (if_pos full))

theorem mailbox_queued (room : s.tri.txq.length < 64) : Completes (.mailboxTransmit d) s fun t =>
    t.tri.txResult = 1 ∧ t.tri.txq = s.tri.txq ++ [{ ftype := 1, dst := d.getD 0 0, payload := d.drop 1, ackReq := true, prio := 2, k := 0
                                                     mailbox := true, seq := none, via := d.getD 0 0 }] := by
  have mailed : mailOut (respond 0 [] s) d (respond 0 [] s).tri = queueTri (hostFrame d) { s.tri with txResult := 1 } :=
    (if_neg (mailbox_serves on peer)).trans (if_neg (Nat.not_le.mpr room))
  rw [queueTri_room (t := { s.tri with txResult := 1 }) room] at mailed
  exact mailbox_run hw ha h2 h63 h10 h1f ⟨congrArg Trievo.txResult mailed, congrArg Trievo.txq mailed⟩

end Mailbox

theorem mailboxRead_empty {s} (ha : (activeLane s).isSome = true) (h : s.tri.mailbox = []) : Completes .mailboxReceiveRead s fun t =>
    t.comm.response = some (0, []) ∧ t.tri.mailbox = [] := by
  refine .run rfl ((if_neg (by rw [Option.isNone_eq_false_iff.2 ha]; decide)).trans ?_)
    (t := respond 0 [] (modTri (fun t => { t with mailRead := [] }) s)) ⟨rfl, h⟩
  rw [h]

theorem mailboxRead_oldest {s a p d l} (ha : (activeLane s).isSome = true) (h : s.tri.mailbox = (a, p, d) :: l) :
    Completes .mailboxReceiveRead s fun t => t.comm.response = some (0, a :: p :: d) ∧ t.tri.mailbox = l := by
  refine .run rfl ((if_neg (by rw [Option.isNone_eq_false_iff.2 ha]; decide)).trans ?_)
    (t := respond 0 (a :: p :: d) (modTri (fun t => { t with mailbox := l, mailRead := a :: p :: d }) s)) ⟨rfl, rfl⟩
  rw [h]

/-- Settles O44, from the beacon to the mailbox. -/
theorem trievoSending : Obligations.TrievoSending :=
  ⟨fun _ h => .run rfl (if_neg (by rcases h with h | h <;> simp [h])) rfl, fun _ => beaconSend_opens, fun _ _ => frameSend_stays,
    fun _ _ _ _ on idle next front => ⟨frameSend_waits on idle next front, frameSend_sent on idle next front⟩,
    fun s h => .run rfl (by rw [ackTimeoutEffect, h]) rfl, fun _ _ hw => ⟨ackTimeout_retries hw, ackTimeout_fails hw⟩,
    fun _ _ _ => learn_stays, fun _ _ _ _ _ _ => learn_best,
    fun _ _ h => .run rfl (if_pos (by rw [h]; rfl)) rfl, fun _ _ => peerLost_leaves, fun _ _ => mailbox_forbidden,
    fun _ _ hw ha => ⟨mailbox_length hw ha, mailbox_port hw ha, fun h2 h63 h10 h1f => ⟨mailbox_noPeer hw ha h2 h63 h10 h1f,
      mailbox_full hw ha h2 h63 h10 h1f, mailbox_queued hw ha h2 h63 h10 h1f⟩⟩,
    fun _ h => .run rfl (if_pos (by rw [h]; rfl)) rfl,
    fun _ ha => ⟨mailboxRead_empty ha, fun _ _ _ _ => mailboxRead_oldest ha⟩⟩

end Sys2Proof.Machine
end

section
/-! PROOF. The frames of the site bus (R325-R331, R340-R342): the rules of one channel, then what each command does to it. -/

namespace Sys2Proof.Machine

set_option Elab.async false

/-! ## One channel changed -/

section Chan

variable {s : State} {c : Nat} {f : Channel → Channel}

theorem chanOf_modChan (h : c < s.chans.length) : chanOf (modChan c f s) c = f (chanOf s c) := nth_upd_self _ _ _ h

theorem modChan_self (h : f (chanOf s c) = chanOf s c) : (modChan c f s).chans = s.chans := by
  have same : upd s.chans c f = upd s.chans c fun k => k := by
    rw [upd_eq_put, upd_eq_put s.chans c fun k => k]
    exact congrArg (put s.chans c) h
  exact same.trans (List.modify_id ..)

theorem chanOf_congr {t : State} (h : t.chans = s.chans) : chanOf t c = chanOf s c := congrArg (nth · c) h

theorem evt_chanOf {e} : chanOf (evt e s) c = chanOf s c := chanOf_congr (evt_chans _ _)

theorem chan_in (c : Fin 4) (h : s.chans.length = 4) : c.val < s.chans.length := by
  rw [h]
  exact c.isLt

end Chan

/-- A frame of a channel that talks enters a transmit queue with room. -/
theorem push_taken {q f} {h : Channel} (talks : h.talks = true) (room : (nth h.tx q).length < 16) :
    Channel.push q f h = { h with tx := upd h.tx q fun l => l ++ [f] } :=
  if_pos (by rw [talks, decide_eq_true room]; rfl)

/-! ## Reception (R325-R327) -/

/-- The channel once it has heard a frame. -/
def heardChan (h : Channel) : Channel :=
  { h with received := bump h.received 1, rec_ := min 127 (h.rec_ - 1), st := if h.st = .integrating then .errorActive else h.st }

section Receive

variable {s : State} {c : Nat} {f : CanFrame} {h : Channel}

theorem receiveFrame_remote (hr : f.remote = true) : receiveFrame s c f h = { heardChan h with dropped := bump h.dropped 1 } := if_pos hr

theorem receiveFrame_duplicate (hr : f.remote = false) (hd : isDuplicate s c f = true) :
    receiveFrame s c f h = { heardChan h with duplicates := bump h.duplicates 1 } :=
  (if_neg (by rw [hr]; decide)).trans (if_pos hd)

variable (hr : f.remote = false) (hd : isDuplicate s c f = false) (hf : isFedIdent s f = false) (hs : shortRpdo s c f = false)
include hr hd hf hs

theorem receiveFrame_filtered : receiveFrame s c f h = filterFrame s c f (heardChan h) :=
  (if_neg (by rw [hr]; decide)).trans ((if_neg (by rw [hd]; decide)).trans ((if_neg (by simp [hf])).trans (if_neg (by rw [hs]; decide))))

theorem receiveFrame_service (ht : serviceTakes s c f = true) :
    receiveFrame s c f h = Channel.remember s.clk.ns (dupWindow s) f ((heardChan h).take 0 f) :=
  (receiveFrame_filtered hr hd hf hs).trans (if_pos ht)

theorem receiveFrame_unmatched (ht : serviceTakes s c f = false) (hu : userMatch s c f = none) :
    receiveFrame s c f h = heardChan h := by
  rw [receiveFrame_filtered hr hd hf hs, filterFrame]
  dsimp only
  rw [if_neg (by rw [ht]; decide), hu]

end Receive

section Received

variable {s : State} {c : Fin 4} {f : CanFrame} (len : s.chans.length = 4) (on : awake s = true) (hears : (chanOf s c).hears = true)
include len on hears

theorem frameReceived_run {P : Channel → Prop} (h : P (receiveFrame s c f (chanOf s c))) :
    Completes (.canFrameReceived c f) s fun t => P (chanOf t c) := by
  refine .run rfl (if_pos (by rw [on, hears]; rfl)) ?_
  rw [chanOf_modChan (chan_in c len)]
  exact h

theorem frameReceived_remote (hr : f.remote = true) : Completes (.canFrameReceived c f) s fun t =>
    (chanOf t c).rx = (chanOf s c).rx ∧ (chanOf t c).dropped = (chanOf s c).dropped + 1 ∧ (chanOf t c).received = (chanOf s c).received + 1 :=
  frameReceived_run len on hears (P := fun h => h.rx = (chanOf s c).rx ∧ h.dropped = (chanOf s c).dropped + 1 ∧
    h.received = (chanOf s c).received + 1) (by rw [receiveFrame_remote hr]; exact ⟨rfl, rfl, rfl⟩)

theorem frameReceived_duplicate (hr : f.remote = false) (hd : isDuplicate s c f = true) : Completes (.canFrameReceived c f) s fun t =>
    (chanOf t c).rx = (chanOf s c).rx ∧ (chanOf t c).duplicates = (chanOf s c).duplicates + 1 :=
  frameReceived_run len on hears (P := fun h => h.rx = (chanOf s c).rx ∧ h.duplicates = (chanOf s c).duplicates + 1)
    (by rw [receiveFrame_duplicate hr hd]; exact ⟨rfl, rfl⟩)

variable (hr : f.remote = false) (hd : isDuplicate s c f = false) (hf : isFedIdent s f = false) (hs : shortRpdo s c f = false)
include hr hd hf hs

theorem frameReceived_taken (ht : serviceTakes s c f = true) (queues : (chanOf s c).rx.length = 2) (room : (nth (chanOf s c).rx 0).length < 64) :
    Completes (.canFrameReceived c f) s fun t =>
      nth (chanOf t c).rx 0 = nth (chanOf s c).rx 0 ++ [f] ∧ nth (chanOf t c).rx 1 = nth (chanOf s c).rx 1 := by
  refine frameReceived_run len on hears
    (P := fun h => nth h.rx 0 = nth (chanOf s c).rx 0 ++ [f] ∧ nth h.rx 1 = nth (chanOf s c).rx 1) ?_
  have taken : (heardChan (chanOf s c)).take 0 f = { heardChan (chanOf s c) with rx := upd (chanOf s c).rx 0 fun l => l ++ [f] } :=
    if_neg (Nat.not_le.mpr room)
  rw [receiveFrame_service hr hd hf hs ht, taken]
  exact ⟨nth_upd_self _ _ _ (by omega), nth_upd_ne _ _ _ _ (by decide)⟩

theorem frameReceived_full (ht : serviceTakes s c f = true) (full : 64 ≤ (nth (chanOf s c).rx 0).length) :
    Completes (.canFrameReceived c f) s fun t => (chanOf t c).rx = (chanOf s c).rx ∧ (chanOf t c).dropped = (chanOf s c).dropped + 1 := by
  refine frameReceived_run len on hears (P := fun h => h.rx = (chanOf s c).rx ∧ h.dropped = (chanOf s c).dropped + 1) ?_
  have dropped : (heardChan (chanOf s c)).take 0 f = { heardChan (chanOf s c) with dropped := bump (chanOf s c).dropped 1 } := if_pos full
  rw [receiveFrame_service hr hd hf hs ht, dropped]
  exact ⟨rfl, rfl⟩

theorem frameReceived_unmatched (ht : serviceTakes s c f = false) (hu : userMatch s c f = none) :
    Completes (.canFrameReceived c f) s fun t => (chanOf t c).rx = (chanOf s c).rx ∧ (chanOf t c).monitor = (chanOf s c).monitor :=
  frameReceived_run len on hears (P := fun h => h.rx = (chanOf s c).rx ∧ h.monitor = (chanOf s c).monitor)
    (by rw [receiveFrame_unmatched hr hd hf hs ht hu]; exact ⟨rfl, rfl⟩)

end Received

/-! ## Transmission (R328, R329) -/

/-- The error state follows the counts and nothing else changes (R330). -/
theorem confine_eq {h : Channel} : ∃ st, h.confine = { h with st := st } := by
  unfold Channel.confine
  split
  · exact ⟨_, rfl⟩
  · exact ⟨h.st, rfl⟩

theorem frameSent_silent {s} {c : Fin 4} {ok} (h : drives s = false ∨ nextToSend s c = none) :
    Completes (.canFrameSent c ok) s fun t => t = s := by
  refine .run rfl (t := s) ?_ rfl
  unfold canFrameSentEffect
  split
  next on =>
    rcases h with h | h
    · simp [h] at on
    · rw [h]
  · rfl

section Sent

variable {s : State} {c : Fin 4} {q : Nat} {f : CanFrame} (len : s.chans.length = 4) (on : awake s = true) (drv : drives s = true)
  (talks : (chanOf s c).talks = true) (next : nextToSend s c = some (q, f))
include len on drv talks next

theorem frameSent_run {ok} {P : Channel → Prop} (h : ∀ st, P { Channel.sentEnd q ok (chanOf s c) with st := st }) :
    Completes (.canFrameSent c ok) s fun t => P (chanOf t c) := by
  have sent : canFrameSentEffect c ok s = modChan c (Channel.sentEnd q ok) s := by
    unfold canFrameSentEffect
    rw [if_pos (by rw [on, drv, talks]; rfl), next]
  refine .run rfl sent ?_
  rw [chanOf_modChan (chan_in c len)]
  exact h (Channel.sentEnd q ok (chanOf s c)).st

theorem frameSent_leaves : Completes (.canFrameSent c true) s fun t =>
    (chanOf t c).tx = upd (chanOf s c).tx q List.tail ∧ (chanOf t c).sent = (chanOf s c).sent + 1 ∧
    (chanOf t c).tec = (chanOf s c).tec - 1 := by
  refine frameSent_run len on drv talks next (P := fun h => h.tx = upd (chanOf s c).tx q List.tail ∧ h.sent = (chanOf s c).sent + 1 ∧
    h.tec = (chanOf s c).tec - 1) fun st => ?_
  unfold Channel.sentEnd
  dsimp only
  rw [if_pos rfl]
  obtain ⟨_, confined⟩ := confine_eq (h := Channel.pop q { chanOf s c with
    cancelHeld := if (chanOf s c).cancelHeld == some q then none else (chanOf s c).cancelHeld
    sent := bump (chanOf s c).sent 1, tec := (chanOf s c).tec - 1 })
  rw [confined]
  exact ⟨rfl, rfl, rfl⟩

theorem frameSent_repeats (free : (chanOf s c).cancelHeld ≠ some q) : Completes (.canFrameSent c false) s fun t =>
    (chanOf t c).tx = (chanOf s c).tx ∧ (chanOf t c).errors = (chanOf s c).errors + 1 ∧ (chanOf t c).tec = (chanOf s c).tec + 8 := by
  refine frameSent_run len on drv talks next (P := fun h => h.tx = (chanOf s c).tx ∧ h.errors = (chanOf s c).errors + 1 ∧
    h.tec = (chanOf s c).tec + 8) fun st => ?_
  have held : ((chanOf s c).cancelHeld == some q) = false := by simpa using free
  unfold Channel.sentEnd
  dsimp only
  rw [held]
  obtain ⟨_, confined⟩ := confine_eq (h := { chanOf s c with errors := bump (chanOf s c).errors 1, tec := (chanOf s c).tec + 8 })
  rw [if_neg (by decide), if_neg (by decide), if_neg (by decide), confined]
  exact ⟨rfl, rfl, rfl⟩

theorem frameSent_cancelled (held : (chanOf s c).cancelHeld = some q) : Completes (.canFrameSent c false) s fun t =>
    (chanOf t c).tx = upd (chanOf s c).tx q List.tail ∧ (chanOf t c).cancels = (chanOf s c).cancels + 1 ∧ (chanOf t c).cancelHeld = none := by
  refine frameSent_run len on drv talks next (P := fun h => h.tx = upd (chanOf s c).tx q List.tail ∧ h.cancels = (chanOf s c).cancels + 1 ∧
    h.cancelHeld = none) fun st => ?_
  have held : ((chanOf s c).cancelHeld == some q) = true := by simpa using held
  unfold Channel.sentEnd
  dsimp only
  rw [held]
  obtain ⟨_, confined⟩ := confine_eq (h := Channel.pop q { chanOf s c with
    cancelHeld := none, errors := bump (chanOf s c).errors 1, tec := (chanOf s c).tec + 8, cancels := bump (chanOf s c).cancels 1 })
  rw [if_neg (by decide), if_pos rfl, if_pos rfl, confined]
  exact ⟨rfl, rfl, rfl⟩

end Sent

section Cancel

variable {s : State} {c q : Fin 4} {p : Nat} {b : Bool}

theorem frameCancel_nothing (h : (nth (chanOf s c).tx q).length ≤ p) : Completes (.canFrameCancel c q p b) s fun t => t.chans = s.chans :=
  .of rfl (modChan_self (if_pos h))

variable (len : s.chans.length = 4)
include len

theorem frameCancel_removed (h : p < (nth (chanOf s c).tx q).length) : Completes (.canFrameCancel c q p false) s fun t =>
    chanOf t c = { chanOf s c with tx := upd (chanOf s c).tx q (fun l => l.eraseIdx p), cancels := (chanOf s c).cancels + 1 } := by
  refine .of rfl ?_
  rw [chanOf_modChan (chan_in c len)]
  exact (if_neg (Nat.not_le.mpr h)).trans (if_neg nofun)

theorem frameCancel_held (h : 0 < (nth (chanOf s c).tx q).length) : Completes (.canFrameCancel c q 0 true) s fun t =>
    chanOf t c = { chanOf s c with cancelHeld := some q.val } := by
  refine .of rfl ?_
  rw [chanOf_modChan (chan_in c len)]
  exact (if_neg (Nat.not_le.mpr h)).trans (if_pos rfl)

end Cancel

/-! ## Bus-off (R330) -/

theorem busOff_stays {s} {c : Fin 4} (h : (chanOf s c).talks = false ∨ (chanOf s c).tec ≤ 255) : Completes (.canBusOff c) s fun t => t = s :=
  .run rfl (if_neg (by rcases h with h | h <;> simp [h])) rfl

theorem busOff_off {s} {c : Fin 4} (len : s.chans.length = 4) (talks : (chanOf s c).talks = true) (tec : 255 < (chanOf s c).tec) :
    Completes (.canBusOff c) s fun t => ((chanOf t c).st = .busOff ∨ (chanOf t c).st = .latchedOff) ∧ (chanOf t c).tx = List.replicate 4 [] ∧
      (chanOf t c).busOffs = (chanOf s c).busOffs + 1 ∧ (chanOf t c).dropped = (chanOf s c).dropped + BitVec.ofNat 32 (txCount (chanOf s c)) := by
  refine .run rfl (if_pos (by simp [talks, tec])) ?_
  rw [evt_chanOf, chanOf_modChan (chan_in c len)]
  refine ⟨?_, rfl, rfl, rfl⟩
  unfold Channel.goOff
  dsimp only
  split
  · exact .inr rfl
  · exact .inl rfl

section Restart

variable {s : State} {c : Fin 4}

theorem busOffRecovery_rejoins (len : s.chans.length = 4) (h : (chanOf s c).st = .busOff) : Completes (.canBusOffRecovery c) s fun t =>
    chanOf t c = { chanOf s c with st := .errorActive, tec := 0, rec_ := 0 } := by
  refine .of rfl ?_
  rw [chanOf_modChan (chan_in c len)]
  exact if_pos h

theorem busOffRecovery_stays (h : (chanOf s c).st ≠ .busOff) : Completes (.canBusOffRecovery c) s fun t => t.chans = s.chans :=
  .of rfl (modChan_self (if_neg h))

theorem channelRestart_restarts (len : s.chans.length = 4) (hw : writable s = true) (ha : (activeLane s).isSome = true)
    (h : (chanOf s c).st = .latchedOff) : Completes (.channelRestart c) s fun t =>
    chanOf t c = { chanOf s c with st := .integrating, tec := 0, rec_ := 0, wakeErrors := 0, busOffTimes := [] } := by
  refine hostWrite_completes rfl hw ha ?_
  rw [chanOf_modChan (chan_in (s := respond 0 [] s) c len)]
  exact if_pos h

theorem channelRestart_stays (hw : writable s = true) (ha : (activeLane s).isSome = true) (h : (chanOf s c).st ≠ .latchedOff) :
    Completes (.channelRestart c) s fun t => t.chans = s.chans :=
  hostWrite_completes rfl hw ha (modChan_self (s := respond 0 [] s) (if_neg h))

/-! ## Sleep and wake (R340-R342) -/

theorem channelSleep_sleeps (len : s.chans.length = 4) (ha : (activeLane s).isSome = true) (hm : maySleep s c = true)
    (h : (chanOf s c).st ≠ .off) : Completes (.channelSleep c) s fun t => (chanOf t c).st = .sleep := by
  refine hostWrite_completes rfl hm ha ?_
  rw [chanOf_modChan (chan_in (s := respond 0 [] s) c len)]
  show (Channel.sleep (chanOf s c)).st = .sleep
  unfold Channel.sleep
  split
  next asleep => exact asleep.resolve_left h
  · rfl

theorem channelSleep_forbidden (hm : maySleep s c = false) : Completes (.channelSleep c) s fun t => t.chans = s.chans := by
  refine .of rfl ?_
  rw [hm]
  unfold hostWrite
  split
  · rfl
  · rw [if_neg Bool.false_ne_true]
    rfl

theorem wakeChannel_woken {k : U8} (len : s.chans.length = 4) : (chanOf (wakeChannel c k s) c).st = .integrating ∧
    (chanOf (wakeChannel c k s) c).wakeCause = k := by
  unfold wakeChannel
  rw [evt_chanOf, chanOf_modChan (chan_in c len)]
  exact ⟨rfl, rfl⟩

theorem wakeCommand_wakes (len : s.chans.length = 4) (hw : writable s = true) (ha : (activeLane s).isSome = true)
    (h : (chanOf s c).st = .sleep) : Completes (.channelWakeCommand c) s fun t => (chanOf t c).st = .integrating ∧ (chanOf t c).wakeCause = 4 := by
  refine hostWrite_completes rfl hw ha ?_
  rw [if_pos (show (chanOf (respond 0 [] s) c).st = .sleep from h)]
  exact wakeChannel_woken (s := respond 0 [] s) len

theorem wakeCommand_stays (hw : writable s = true) (ha : (activeLane s).isSome = true) (h : (chanOf s c).st ≠ .sleep) :
    Completes (.channelWakeCommand c) s fun t => t.chans = s.chans :=
  hostWrite_completes rfl hw ha (by rw [if_neg (show (chanOf (respond 0 [] s) c).st ≠ .sleep from h)]; rfl)

theorem wake_awake {k} (h : (chanOf s c).st ≠ .sleep) : Completes (.channelWake c k) s fun t => t = s := .run rfl (if_pos (.inl h)) rfl

section Asleep

variable (len : s.chans.length = 4) (h : (chanOf s c).st = .sleep) (on : awake s = true)
include len h on

theorem wake_edge (mode : cfgN s (0x3810 + c) 8 ≠ 1) : Completes (.channelWake c .edge) s fun t =>
    (chanOf t c).st = .integrating ∧ (chanOf t c).wakeCause = 1 := by
  refine .run rfl ((if_neg (by simp [h, on])).trans (if_neg ?_)) (wakeChannel_woken len)
  simpa using mode

theorem wake_frame {f : CanFrame} (mode : cfgN s (0x3810 + c) 8 = 1) (fd : f.fd = false) (remote : f.remote = false)
    (hit : wakeMatch s c f = true) : Completes (.channelWake c (.frame f)) s fun t =>
    (chanOf t c).st = .integrating ∧ (chanOf t c).wakeCause = 2 := by
  refine .run rfl ((if_neg (by simp [h, on])).trans ((if_neg ?_).trans (if_pos hit))) (wakeChannel_woken len)
  simp [mode, fd, remote]

end Asleep

end Restart

/-- Settles O37, by the rules of one channel. -/
theorem siteBusFrames : Obligations.SiteBusFrames :=
  ⟨fun _ _ _ h => .run rfl (if_neg (by rcases h with h | h <;> simp [h])) rfl,
    fun _ _ _ len on hears => ⟨frameReceived_remote len on hears, frameReceived_duplicate len on hears,
      frameReceived_taken len on hears, frameReceived_full len on hears, frameReceived_unmatched len on hears⟩,
    fun _ _ _ => frameSent_silent,
    fun _ _ _ _ len on drv talks next => ⟨frameSent_leaves len on drv talks next, frameSent_repeats len on drv talks next,
      frameSent_cancelled len on drv talks next⟩,
    fun _ _ _ _ _ len => ⟨frameCancel_nothing, frameCancel_removed len, frameCancel_held len⟩,
    fun _ _ => busOff_stays, fun _ _ => busOff_off,
    fun _ _ len => ⟨busOffRecovery_rejoins len, busOffRecovery_stays, channelRestart_restarts len, channelRestart_stays,
      channelSleep_sleeps len, channelSleep_forbidden, wakeCommand_wakes len, wakeCommand_stays, fun _ => wake_awake,
      wake_edge len, fun _ h on mode fd remote hit => wake_frame len h on mode fd remote hit⟩⟩

end Sys2Proof.Machine
end

section
/-! PROOF. Site time and the schedule (R332, R333, R336-R338): what a Sync, a lost lock and the end of holdover make of site time, then the
references and windows of a channel. -/

namespace Sys2Proof.Machine

set_option Elab.async false

/-! ## The choice of the source (R332) -/

/-- A choice of the source changes the source, the time and the steering of site time alone. -/
theorem reselect_site {v s} : ∃ ns st, (reselect v s).site = { s.site with source := timeSource s, ns := ns, steer := st } := by
  unfold reselect
  dsimp only
  split
  next same => exact ⟨s.site.ns, s.site.steer, by rw [same]⟩
  · exact ⟨_, _, rfl⟩

theorem reselect_chans {v s} : (reselect v s).chans = s.chans := (reselect_only (l := .a)).1 .chans (by decide)

/-- A higher source steps site time to what it shows. -/
theorem reselect_up {v s t} (up : sourceRank (timeSource s) < sourceRank s.site.source) (shows : sourceTime s v (timeSource s) = some t) :
    (reselect v s).site = { s.site with source := timeSource s, ns := t, steer := 0 } := by
  have other : timeSource s ≠ s.site.source := fun same => absurd up (by rw [same]; exact Nat.lt_irrefl _)
  unfold reselect
  dsimp only
  rw [if_neg other, decide_eq_true up, if_pos rfl, shows]
  rfl

/-- A lower source runs on from the present value. -/
theorem reselect_down {v s} (down : ¬ sourceRank (timeSource s) < sourceRank s.site.source) :
    (reselect v s).site.ns = s.site.ns ∧ (reselect v s).site.source = timeSource s := by
  unfold reselect
  dsimp only
  split
  next same => exact ⟨rfl, same.symm⟩
  · rw [decide_eq_false down]
    exact ⟨rfl, rfl⟩

theorem timeSource_locked {s : State} (h : s.site.locked = true) : timeSource s = 1 := if_pos h

theorem timeSource_holdover {s : State} (h : s.site.locked = false) (k : s.site.holdover = true) : timeSource s = 2 :=
  (if_neg (by rw [h]; decide)).trans (if_pos k)

theorem timeSource_free {s : State} (h : s.site.locked = false) (k : s.site.holdover = false) : timeSource s ≠ 2 := by
  unfold timeSource
  rw [if_neg (by rw [h]; decide), if_neg (by rw [k]; decide)]
  split
  · decide
  · split <;> decide

/-- PTP ranks above every other source. -/
theorem ptp_above {c : U8} (h : c ≠ 1) : sourceRank 1 < sourceRank c := by
  rw [show sourceRank 1 = 1 from rfl]
  unfold sourceRank
  split
  · omega
  next nonzero =>
    have one : c.toNat ≠ 1 := fun k => h (BitVec.eq_of_toNat_eq (y := 1) k)
    have zero : c.toNat ≠ 0 := fun k => nonzero (BitVec.eq_of_toNat_eq (y := 0) k)
    omega

/-! ## PTP (R333) -/

theorem ptp_asleep {s v o i r d} (h : awake s = false) : Completes (.ptpSyncReceived v o) s (fun t => t = s) ∧
    Completes (.ptpAnnounceReceived i r) s (fun t => t = s) ∧ Completes (.ptpDelayResp d) s fun t => t = s :=
  ⟨.run rfl (if_pos (by rw [h]; rfl)) rfl, .run rfl (if_pos (by rw [h]; rfl)) rfl, .run rfl (if_neg (by rw [h]; decide)) rfl⟩

/-- Site time once a Sync has been judged, before the source is chosen. -/
def syncedSite (t : Nat) (o : Int) (k : SiteTime) : SiteTime :=
  let n := if o.natAbs ≤ 1000 then k.good + 1 else 0
  let lock := k.locked || decide (16 ≤ n)
  { k with good := n, ptpNs := t, offset := clampInt (-2147483648) 2147483647 o, locked := lock, holdover := k.holdover && !lock }

section Sync

variable {s : State} {t : Nat} {o : Int} (on : awake s = true)
include on

theorem sync_chooses (other : s.site.source ≠ 1) : ptpSyncEffect t o s = reselect none (modSite (syncedSite t o) s) :=
  (if_neg (by rw [on]; decide)).trans (if_neg other)

theorem sync_steers (ptp : s.site.source = 1) :
    ptpSyncEffect t o s = modSite (steerBy (-o)) (stampEvents (modSite (syncedSite t o) s)) :=
  (if_neg (by rw [on]; decide)).trans (if_pos ptp)

end Sync

section Syncs

variable {s : State} {v : U64} {o : Int} (on : awake s = true)
include on

theorem sync_locks (other : s.site.source ≠ 1) (close : o.natAbs ≤ 1000) (run : 15 ≤ s.site.good) :
    Completes (.ptpSyncReceived v o) s fun t => t.site.locked = true ∧ t.site.source = 1 ∧ t.site.ns = v.toNat ∧ t.site.steer = 0 := by
  have locked : (modSite (syncedSite v.toNat o) s).site.locked = true := by
    show (s.site.locked || decide (16 ≤ if o.natAbs ≤ 1000 then s.site.good + 1 else 0)) = true
    rw [if_pos close, decide_eq_true (by omega), Bool.or_true]
  have source := timeSource_locked locked
  refine .run rfl (sync_chooses on other) ?_
  rw [reselect_up (s := modSite (syncedSite v.toNat o) s) (by rw [source]; exact ptp_above other) (by rw [source]; rfl), source]
  exact ⟨locked, rfl, rfl, rfl⟩

theorem sync_far (unlocked : s.site.locked = false) (other : s.site.source ≠ 1) (far : 1000 < o.natAbs) :
    Completes (.ptpSyncReceived v o) s fun t => t.site.locked = false ∧ t.site.good = 0 := by
  have good : (syncedSite v.toNat o s.site).good = 0 := if_neg (Nat.not_le.mpr far)
  have locked : (syncedSite v.toNat o s.site).locked = false := by
    show (s.site.locked || decide (16 ≤ if o.natAbs ≤ 1000 then s.site.good + 1 else 0)) = false
    rw [if_neg (Nat.not_le.mpr far), unlocked]
    rfl
  obtain ⟨ns, st, chosen⟩ := reselect_site (v := none) (s := modSite (syncedSite v.toNat o) s)
  refine .run rfl (sync_chooses on other) ?_
  rw [chosen]
  exact ⟨locked, good⟩

theorem sync_steps (ptp : s.site.source = 1) (big : 100000 < o.natAbs) : Completes (.ptpSyncReceived v o) s fun t =>
    t.site.ns = ((s.site.ns : Int) - o).toNat ∧ t.site.steer = 0 := by
  refine .run rfl (sync_steers on ptp) ?_
  show (steerBy (-o) (syncedSite v.toNat o s.site)).ns = _ ∧ (steerBy (-o) (syncedSite v.toNat o s.site)).steer = 0
  rw [show steerBy (-o) (syncedSite v.toNat o s.site) = _ from if_pos (by rwa [Int.natAbs_neg])]
  exact ⟨congrArg Int.toNat (Int.sub_eq_add_neg).symm, rfl⟩

theorem sync_drifts (ptp : s.site.source = 1) (small : o.natAbs ≤ 100000) : Completes (.ptpSyncReceived v o) s fun t =>
    t.site.ns = s.site.ns ∧ t.site.steer = -o := by
  refine .run rfl (sync_steers on ptp) ?_
  show (steerBy (-o) (syncedSite v.toNat o s.site)).ns = _ ∧ (steerBy (-o) (syncedSite v.toNat o s.site)).steer = _
  rw [show steerBy (-o) (syncedSite v.toNat o s.site) = _ from if_neg (by rw [Int.natAbs_neg]; omega)]
  exact ⟨rfl, rfl⟩

end Syncs

theorem announce_noted {s i r} (on : awake s = true) : Completes (.ptpAnnounceReceived i r) s fun t =>
    t.site.masters = (i, r) :: s.site.masters.filter (fun m => m.1 != i) ∧ (s.site.masters = [] → t.site.gm = i) := by
  refine .run rfl (if_neg (by rw [on]; decide)) ⟨rfl, fun none => ?_⟩
  show ((bestMaster ((i, r) :: s.site.masters.filter fun m => m.1 != i)).map Prod.fst).getD s.site.gm = i
  rw [none]
  rfl

section Lock

variable {s : State}

theorem lockLost_holds (locked : s.site.locked = true) (ptp : s.site.source = 1) (limit : 0 < cfgN s 0x3800 7) :
    Completes .ptpLockLost s fun t => t.site.locked = false ∧ t.site.holdover = true ∧ t.site.source = 2 ∧ t.site.ns = s.site.ns := by
  refine .run rfl (if_pos locked) ?_
  generalize hu : modSite (fun (k : SiteTime) =>
    { k with locked := false, good := 0, steer := 0, holdover := decide (0 < cfgN s 0x3800 7) }) s = u
  have unlocked : u.site.locked = false := by rw [← hu]; rfl
  have holdover : u.site.holdover = true := by rw [← hu]; exact decide_eq_true limit
  have was : u.site.source = 1 := by rw [← hu]; exact ptp
  have source := timeSource_holdover unlocked holdover
  obtain ⟨ns, chosen⟩ := reselect_down (v := none) (s := u) (by rw [source, was]; decide)
  obtain ⟨n, st, site⟩ := reselect_site (v := none) (s := u)
  refine ⟨?_, ?_, chosen.trans source, ns.trans (by rw [← hu]; rfl)⟩
  · rw [site]; exact unlocked
  · rw [site]; exact holdover

theorem lockLost_free (locked : s.site.locked = true) (limit : cfgN s 0x3800 7 = 0) : Completes .ptpLockLost s fun t =>
    t.site.locked = false ∧ t.site.holdover = false := by
  obtain ⟨n, st, site⟩ := reselect_site (v := none) (s := modSite (fun (k : SiteTime) =>
    { k with locked := false, good := 0, steer := 0, holdover := decide (0 < cfgN s 0x3800 7) }) s)
  refine .run rfl (if_pos locked) ?_
  rw [site]
  exact ⟨rfl, decide_eq_false (by omega)⟩

theorem holdover_ends (holdover : s.site.holdover = true) (unlocked : s.site.locked = false) : Completes .ptpHoldoverExpiry s fun t =>
    t.site.holdover = false ∧ t.site.source ≠ 2 := by
  obtain ⟨n, st, site⟩ := reselect_site (v := none) (s := modSite (fun (k : SiteTime) => { k with holdover := false }) s)
  refine .run rfl (if_pos holdover) ?_
  rw [site]
  exact ⟨rfl, timeSource_free unlocked rfl⟩

end Lock

/-! ## References and windows (R336-R338) -/

/-- A frame that enters the first queue stands last in it; the rest of the channel stays. -/
theorem push_front {h g : Channel} {f} (same : g.tx = h.tx) (state : g.st = h.st) (talks : h.talks = true) (room : (nth h.tx 0).length < 16)
    (queues : h.tx.length = 4) :
    nth (Channel.push 0 f g).tx 0 = nth h.tx 0 ++ [f] ∧ (Channel.push 0 f g).sched = g.sched ∧ (Channel.push 0 f g).window = g.window ∧
      (Channel.push 0 f g).refAt = g.refAt := by
  rw [push_taken (h := g) (by unfold Channel.talks at *; rwa [state]) (by rwa [same]), same]
  exact ⟨nth_upd_self _ _ _ (by omega), rfl, rfl, rfl⟩

section Reference

variable {s : State} {c : Fin 4}

theorem refSend_stays (h : isMaster s c = false ∨ drives s = false) : Completes (.referenceMessageSend c) s fun t => t = s :=
  .run rfl (if_neg (by rcases h with h | h <;> simp [h])) rfl

theorem refSend_opens (len : s.chans.length = 4) (on : awake s = true) (drv : drives s = true) (talks : (chanOf s c).talks = true)
    (timed : eventTriggered s c = false) (master : isMaster s c = true) (new : (chanOf s c).refAt ≠ some (basicCycle s c))
    (room : (nth (chanOf s c).tx 0).length < 16) (queues : (chanOf s c).tx.length = 4) : Completes (.referenceMessageSend c) s fun t =>
      nth (chanOf t c).tx 0 = nth (chanOf s c).tx 0 ++ [refFrame s (ownRef s c)] ∧ (chanOf t c).sched = .master ∧
      (chanOf t c).window = some 0 ∧ (chanOf t c).refAt = some (basicCycle s c) := by
  refine .run rfl (if_pos (by simp [on, drv, talks, timed, master, new])) ?_
  rw [chanOf_modChan (chan_in c len)]
  exact push_front rfl rfl talks room queues

theorem refReceived_deaf {m} (h : awake s = false ∨ (chanOf s c).hears = false ∨ eventTriggered s c = true) :
    Completes (.referenceMessageReceived c m) s fun t => t = s :=
  .run rfl (if_pos (by rcases h with h | h | h <;> simp [h])) rfl

theorem refTime_chans {m t} : (refTime m t).chans = t.chans := (refTime_only (l := .a)).1 .chans (by decide)

section Received

variable {m : RefMsg} (len : s.chans.length = 4) (on : awake s = true) (hears : (chanOf s c).hears = true)
  (timed : eventTriggered s c = false)
include len on hears timed

theorem refReceived_foreign (master : isMaster s c = true) : Completes (.referenceMessageReceived c m) s fun t =>
    chanOf t c = { chanOf s c with foreign := (chanOf s c).foreign + 1 } ∧ t.site = s.site := by
  refine .run rfl ((if_neg (by simp [on, hears, timed])).trans (if_pos (by simp [master]))) ⟨?_, rfl⟩
  rw [chanOf_modChan (chan_in c len)]
  rfl

variable (follower : isMaster s c = false) (new : (chanOf s c).refAt ≠ some (basicCycle s c))
include follower new

theorem refReceived_follows : Completes (.referenceMessageReceived c m) s fun t => chanOf t c = followRef s c m (chanOf s c) := by
  refine .run rfl ((if_neg (by simp [on, hears, timed])).trans (if_neg (by simp [follower, new]))) ?_
  have followed : chanOf (modChan c (followRef s c m) s) c = followRef s c m (chanOf s c) := chanOf_modChan (chan_in c len)
  dsimp only
  split
  · exact (chanOf_congr refTime_chans).trans followed
  · exact followed

theorem refReceived_lost (other : m.matrix.toNat ≠ qMatrix (quadImage s c) % 2 ^ 16) :
    Completes (.referenceMessageReceived c m) s fun t => (chanOf t c).sched = .lost := by
  refine (refReceived_follows len on hears timed follower new).imp fun t now => ?_
  rw [now]
  exact if_neg (by rw [beq_false_of_ne other]; exact Bool.false_ne_true)

theorem refReceived_followed (same : m.matrix.toNat = qMatrix (quadImage s c) % 2 ^ 16) (start : (chanOf s c).sched ≠ .lost ∨ m.cycle = 0) :
    Completes (.referenceMessageReceived c m) s fun t => (chanOf t c).sched = .following ∧ (chanOf t c).cycle = m.cycle.toNat := by
  have follow : (m.matrix.toNat == qMatrix (quadImage s c) % 2 ^ 16 && ((chanOf s c).sched != .lost || m.cycle == 0)) = true := by
    rw [same]
    rcases start with h | h <;> simp [h]
  refine (refReceived_follows len on hears timed follower new).imp fun t now => ?_
  rw [now]
  exact ⟨if_pos follow, if_pos follow⟩

end Received

theorem scheduleLost_loses (len : s.chans.length = 4) (timed : eventTriggered s c = false) (follower : isMaster s c = false)
    (hears : (chanOf s c).hears = true) (missing : refsMissing s c = true) :
    Completes (.scheduleLost c) s fun t => (chanOf t c).sched = .lost := by
  refine .run rfl (if_pos (by simp [timed, follower, hears, missing])) ?_
  have lost : (chanOf (modChan c (fun (h : Channel) => { h with sched := .lost }) s) c).sched = .lost := by
    rw [chanOf_modChan (chan_in c len)]
  dsimp only
  split
  · exact (congrArg Channel.sched (chanOf_congr reselect_chans)).trans lost
  · exact lost

theorem windowEnd_none (h : (chanOf s c).window = none) : Completes (.windowEnd c) s fun t => t.chans = s.chans :=
  .of rfl (modChan_self (if_neg (by rw [h]; decide)))

theorem windowEnd_cancels (len : s.chans.length = 4) (queues : (chanOf s c).tx.length = 4) (h : (chanOf s c).window.isSome = true) :
    Completes (.windowEnd c) s fun t => nth (chanOf t c).tx 0 = [] ∧ (chanOf t c).window = none ∧
      (chanOf t c).windowDiscards = (chanOf s c).windowDiscards + BitVec.ofNat 32 (nth (chanOf s c).tx 0).length ∧
      ∀ q : Fin 4, q ≠ 0 → nth (chanOf t c).tx q = nth (chanOf s c).tx q := by
  refine .of rfl ?_
  rw [chanOf_modChan (chan_in c len), if_pos h]
  exact ⟨nth_upd_self _ _ _ (by omega), rfl, rfl, fun q hq => nth_upd_ne _ _ _ _ fun k => hq (Fin.ext k.symm)⟩

theorem windowStart_stays {j} (h : ownsCell s c j = false ∨ columnNow s c ≠ j ∨ drives s = false) :
    Completes (.exclusiveWindowStart c j) s fun t => t = s :=
  .run rfl (if_neg (by rcases h with h | h | h <;> simp [h])) rfl

theorem windowStart_opens {j z f} (len : s.chans.length = 4) (on : awake s = true) (drv : drives s = true)
    (talks : (chanOf s c).talks = true) (timed : eventTriggered s c = false) (sched : (chanOf s c).sched = .master ∨ (chanOf s c).sched = .following)
    (column : j < qCols (quadImage s c)) (now : columnNow s c = j) (owns : ownsCell s c j = true)
    (code : qCode (quadImage s c) (cycleNow s c) j ≠ 1) (coded : codedFrame s c (qCode (quadImage s c) (cycleNow s c) j) = (some f, z))
    (room : (nth (chanOf s c).tx 0).length < 16) (queues : (chanOf s c).tx.length = 4) : Completes (.exclusiveWindowStart c j) s fun t =>
      (chanOf t c).window = some j ∧ nth (chanOf t c).tx 0 = nth (chanOf s c).tx 0 ++ [f] := by
  have chans : z.chans = s.chans := by
    have kept := (codedFrame_only (s := s) (a0 := c) (a1 := qCode (quadImage s c) (cycleNow s c) j) (l := .a)).1 .chans (by decide)
    rw [coded] at kept
    exact kept
  have same : chanOf z c = chanOf s c := chanOf_congr chans
  have starts : windowStartEffect c j s = modChan c (fun (h : Channel) => Channel.push 0 f { h with window := some j }) z := by
    refine (if_pos ?_).trans ((if_neg code).trans ?_)
    · rcases sched with sched | sched <;> simp [on, drv, talks, timed, sched, column, now, owns]
    · rw [coded]
  refine .run rfl starts ?_
  rw [chanOf_modChan (chan_in c (by rw [chans, len])), same]
  obtain ⟨queued, _, window, _⟩ := push_front (f := f) (g := { chanOf s c with window := some j }) rfl rfl talks room queues
  exact ⟨window, queued⟩

end Reference

/-- Settles O36, first the clock, then the schedule. -/
theorem siteTimeAndSchedule : Obligations.SiteTimeAndSchedule :=
  ⟨fun _ _ _ _ _ _ => ptp_asleep, fun _ _ _ on unlocked other => ⟨sync_locks on other, sync_far on unlocked other⟩,
    fun _ _ _ on _ ptp => ⟨sync_steps on ptp, sync_drifts on ptp⟩, fun _ _ _ => announce_noted,
    fun _ _ on => .run rfl (if_pos on) rfl, fun _ h => .run rfl (if_neg (by rw [h]; decide)) rfl,
    fun _ => lockLost_holds, fun _ => lockLost_free, fun _ h => .run rfl (if_neg (by rw [h]; decide)) rfl, fun _ => holdover_ends,
    fun _ _ => refSend_stays, fun _ _ => refSend_opens, fun _ _ _ => refReceived_deaf,
    fun _ _ _ len on hears timed => ⟨refReceived_foreign len on hears timed, refReceived_lost len on hears timed,
      refReceived_followed len on hears timed⟩,
    fun _ _ h => .run rfl (if_neg (by simp [h])) rfl, fun _ _ => scheduleLost_loses, fun _ _ => windowEnd_none,
    fun _ _ => windowEnd_cancels, fun _ _ _ => windowStart_stays, fun _ _ _ _ _ => windowStart_opens⟩

end Sys2Proof.Machine
end

section
/-! PROOF. The Junction's verdict and the crossovers (R276-R280, Tables 13.5-13.7): what a verdict is decided by, what it leaves of the
Junction's record of each lane, and what the links follow. -/

namespace Sys2Proof.Machine

set_option Elab.async false

/-! ## The codes of a period (R276, Table 13.5) -/

/-- Length of the period that the marker of a lane gives. -/
def markerPs (a b : Nat) : Lane → Nat
  | .a => a
  | .b => b

/-- Both lanes' period markers are counted; period n is judged. -/
def counted (a b n : Nat) (s : State) : State :=
  modJct (fun j => { j with laneA := countPeriod s a j.laneA, laneB := countPeriod s b j.laneB, judgedAt := some n }) s

theorem counted_jct {a b n l s} : (counted a b n s).jct.lane l = countPeriod s (markerPs a b l) (s.jct.lane l) := by cases l <;> rfl

theorem counted_lane {a b n l s} : (counted a b n s).lane l = s.lane l := by cases l <;> rfl

theorem counted_role {a b n l s} : roleOf (counted a b n s) l = roleOf s l := by cases l <;> rfl

theorem counted_judged {a b n l s} : judged (counted a b n s) l = judged s l := by cases l <;> rfl

theorem counted_devRun {a b n l s} (ha : deviates s a = false) (hb : deviates s b = false) :
    ((counted a b n s).jct.lane l).devRun = 0 := by
  have even : deviates s (markerPs a b l) = false := by cases l <;> assumption
  rw [counted_jct]
  simp [countPeriod, even]

section Codes

variable {s : State} {n : Nat} {l : Lane}

theorem firstCode_rail (rail : (s.lane l).ctl.railHeld = true) : firstCode s n l = 9 := if_pos rail

theorem firstCode_absent (rail : (s.lane l).ctl.railHeld = false) (gone : entryOf (s.jct.lane l) n = none)
    (prev : (s.jct.lane l).prevAbsent = true) : firstCode s n l = 1 := by
  simp [firstCode, rail, gone, prev]

section Entry

variable {e : DigestEntry} (rail : (s.lane l).ctl.railHeld = false) (here : entryOf (s.jct.lane l) n = some e)
  (steady : (s.jct.lane l).devRun = 0)
include rail here steady

theorem firstCode_canary (wrong : e.canary ≠ Config.canaryExpected (n % 16)) : firstCode s n l = 2 := by
  simp [firstCode, rail, here, steady, canaryWrong, wrong]

theorem firstCode_clean (right : e.canary = Config.canaryExpected (n % 16)) (health : e.health &&& 0x518 = 0)
    (agree : mismatch s n = false) : firstCode s n l = 0 := by
  have bit : ∀ i, (0x518 : U32).getLsbD i = true → e.health.getLsbD i = false := fun i set => by
    have masked : (e.health &&& 0x518).getLsbD i = false := by rw [health]; exact BitVec.getLsbD_zero
    rwa [BitVec.getLsbD_and, set, Bool.and_true] at masked
  simp only [firstCode, rail, here, steady, canaryWrong, right, agree, bit 10 (by decide), bit 8 (by decide), bit 3 (by decide),
    bit 4 (by decide)]
  simp

end Entry

theorem verdictCode_first (known : judged s l = true) (found : firstCode s n l ≠ 0) : verdictCode s n l = firstCode s n l := by
  simp [verdictCode, known, found]

theorem verdictCode_clean (known : judged s l = true) (role : roleOf s l ≠ .shadowing) (none : firstCode s n l = 0)
    (agree : mismatch s n = false) : verdictCode s n l = 0 := by
  have other : (s.jct.lane l).role ≠ .shadowing := role
  simp [verdictCode, known, none, agree, other]

/-- Two entries, one of the ACTIVE lane, one of a STANDBY lane: their digests decide. -/
theorem digests_compared {p q} (active : roleOf s l = .active) (standby : roleOf s l.other = .standby)
    (own : entryOf (s.jct.lane l) n = some p) (other : entryOf (s.jct.lane l.other) n = some q) :
    mismatch s n = (p.digest != q.digest) ∧ digestsMatch s n = (p.digest == q.digest) := by
  cases l with
  | a =>
    have compare : compared n s.jct.laneB = true := by
      unfold compared
      rw [show s.jct.laneB.role = .standby from standby]
      rfl
    simp only [mismatch, digestsMatch, show entryOf s.jct.laneA n = some p from own, show entryOf s.jct.laneB n = some q from other, active,
      compare, beq_self_eq_true, Bool.true_and, Bool.true_or, Bool.and_self, and_self]
  | b =>
    have compare : compared n s.jct.laneA = true := by
      unfold compared
      rw [show s.jct.laneA.role = .standby from standby]
      rfl
    simp only [mismatch, digestsMatch, show entryOf s.jct.laneB n = some p from own, show entryOf s.jct.laneA n = some q from other, active,
      compare, beq_self_eq_true, Bool.true_and, Bool.or_true, Bool.and_self]
    exact ⟨bne_comm, BEq.comm⟩

end Codes

/-! ## The entries judged (R276) -/

/-- Cause 5 is latched where both lanes' periods deviate; both records are judged with their codes. -/
def judgedLanes (n : Nat) (s : State) : State :=
  let a := verdictCode s n .a
  let b := verdictCode s n .b
  let s := if 2 ≤ s.jct.laneA.devRun ∧ 2 ≤ s.jct.laneB.devRun then latchCause 5 s else s
  modJct (fun j => { j with laneA := judgeLane s n a .a j.laneA, laneB := judgeLane s n b .b j.laneB }) s

theorem latched_jct {c : Prop} [Decidable c] {m s} : (if c then latchCause m s else s).jct = s.jct := by split <;> rfl

theorem digestsMatch_congr {s t : State} {n} (h : t.jct = s.jct) : digestsMatch t n = digestsMatch s n := by
  unfold digestsMatch roleOf
  rw [h]

theorem judgedLanes_decision {n s} : (judgedLanes n s).jct.decision = s.jct.decision := by
  unfold judgedLanes
  rw [modJct_jct, latched_jct]

theorem judgedLanes_matches {n s} (l : Lane) (same : digestsMatch s n = true) : ((judgedLanes n s).jct.lane l).matches_ =
    if (s.jct.lane l).matches_ = 0xFFFF then 0xFFFF else (s.jct.lane l).matches_ + 1 := by
  have counts : ∀ (t : State) c (j : JLane), digestsMatch t n = true →
      (judgeLane t n c l j).matches_ = if j.matches_ = 0xFFFF then 0xFFFF else j.matches_ + 1 := fun t c j h => by
    refine (if_pos h).trans ?_
    split
    next full => exact full
    · rfl
  unfold judgedLanes
  cases l
  all_goals
    refine (counts _ _ _ ((digestsMatch_congr latched_jct).trans same)).trans ?_
    rw [latched_jct]
    rfl

theorem judgeEntries_clean {x y n s} (a : verdictCode (counted x y n s) n .a = 0) (b : verdictCode (counted x y n s) n .b = 0) :
    judgeEntries x y n s = judgedLanes n (counted x y n s) := if_pos ⟨a, b⟩

theorem judgeEntries_decides {x y n s} (l : Lane) (found : verdictCode (counted x y n s) n l ≠ 0) :
    (judgeEntries x y n s).jct.decision = some { at_ := n + 2, codeA := BitVec.ofNat 8 (verdictCode (counted x y n s) n .a)
                                                 codeB := BitVec.ofNat 8 (verdictCode (counted x y n s) n .b) } := by
  have some : ¬ (verdictCode (counted x y n s) n .a = 0 ∧ verdictCode (counted x y n s) n .b = 0) := fun h => by
    cases l
    · exact found h.1
    · exact found h.2
  have told : ∀ (c : Prop) [Decidable c] e t, (if c then evt e t else t).jct = t.jct := fun c _ e t => by
    split
    · exact evt_jct e t
    · rfl
  refine (congrArg (fun t : State => t.jct.decision) (if_neg some)).trans ?_
  exact congrArg Junction.decision ((told _ _ _).trans (told _ _ _))

/-! ## The verdict -/

section Verdict

variable {s : State} {x y : Nat} {l : Lane} (runs : junctionRuns s = true) (started : 0 < s.clk.period)
  (new : s.jct.judgedAt ≠ some (s.clk.period - 1))

theorem verdict_stays (h : junctionRuns s = false ∨ s.clk.period = 0 ∨ s.jct.judgedAt = some (s.clk.period - 1)) :
    Completes (.junctionVerdict x y) s fun t => t = s := by
  refine .run rfl (if_neg fun k => ?_) rfl
  obtain ⟨runs, started, new⟩ := k
  rcases h with h | h | h
  · exact absurd runs (by rw [h]; exact Bool.false_ne_true)
  · omega
  · exact new h

include runs started new

/-- A lane judged with a code of Table 13.5 is decided on two periods after the entries' own (R276). -/
theorem verdict_decides {c : Nat} (known : judged s l = true) (code : firstCode (counted x y (s.clk.period - 1) s) (s.clk.period - 1) l = c)
    (nonzero : c ≠ 0) (byte : c < 256) : Completes (.junctionVerdict x y) s fun t =>
      ∃ d, t.jct.decision = some d ∧ d.at_ = s.clk.period + 1 ∧ d.code l = c := by
  have verdict : verdictCode (counted x y (s.clk.period - 1) s) (s.clk.period - 1) l = c :=
    (verdictCode_first (counted_judged.trans known) (by rwa [code])).trans code
  refine .run rfl (if_pos ⟨runs, started, new⟩) ⟨_, judgeEntries_decides l (by rwa [verdict]), by dsimp only; omega, ?_⟩
  have read : (BitVec.ofNat 8 c).toNat = c := by rw [BitVec.toNat_ofNat]; exact Nat.mod_eq_of_lt byte
  cases l
  all_goals
    refine Eq.trans ?_ read
    rw [← verdict]
    rfl

theorem verdict_rail (known : judged s l = true) (rail : (s.lane l).ctl.railHeld = true) : Completes (.junctionVerdict x y) s fun t =>
    ∃ d, t.jct.decision = some d ∧ d.at_ = s.clk.period + 1 ∧ d.code l = 9 :=
  verdict_decides runs started new known (firstCode_rail (by rwa [counted_lane])) (by decide) (by decide)

theorem verdict_absent (known : judged s l = true) (rail : (s.lane l).ctl.railHeld = false)
    (gone : entryOf (s.jct.lane l) (s.clk.period - 1) = none) (prev : (s.jct.lane l).prevAbsent = true) :
    Completes (.junctionVerdict x y) s fun t => ∃ d, t.jct.decision = some d ∧ d.at_ = s.clk.period + 1 ∧ d.code l = 1 :=
  verdict_decides runs started new known
    (firstCode_absent (by rwa [counted_lane]) (by rw [counted_jct]; exact gone) (by rw [counted_jct]; exact prev)) (by decide) (by decide)

theorem verdict_canary (known : judged s l = true) (e : DigestEntry) (rail : (s.lane l).ctl.railHeld = false)
    (here : entryOf (s.jct.lane l) (s.clk.period - 1) = some e) (evenA : deviates s x = false) (evenB : deviates s y = false)
    (wrong : e.canary ≠ Config.canaryExpected ((s.clk.period - 1) % 16)) :
    Completes (.junctionVerdict x y) s fun t => ∃ d, t.jct.decision = some d ∧ d.at_ = s.clk.period + 1 ∧ d.code l = 2 :=
  verdict_decides runs started new known
    (firstCode_canary (by rwa [counted_lane]) (by rw [counted_jct]; exact here) (counted_devRun evenA evenB) wrong) (by decide) (by decide)

theorem verdict_matches {p q : DigestEntry} (active : roleOf s l = .active) (standby : roleOf s l.other = .standby)
    (railA : s.laneA.ctl.railHeld = false) (railB : s.laneB.ctl.railHeld = false)
    (own : entryOf (s.jct.lane l) (s.clk.period - 1) = some p) (other : entryOf (s.jct.lane l.other) (s.clk.period - 1) = some q)
    (same : p.digest = q.digest) (evenA : deviates s x = false) (evenB : deviates s y = false)
    (healthP : p.health &&& 0x518 = 0) (healthQ : q.health &&& 0x518 = 0)
    (canaryP : p.canary = Config.canaryExpected ((s.clk.period - 1) % 16)) (canaryQ : q.canary = Config.canaryExpected ((s.clk.period - 1) % 16)) :
    Completes (.junctionVerdict x y) s fun t =>
      t.jct.decision = s.jct.decision ∧ (t.jct.lane l.other).matches_ =
        (if (s.jct.lane l.other).matches_ = 0xFFFF then 0xFFFF else (s.jct.lane l.other).matches_ + 1) := by
  generalize hn : s.clk.period - 1 = n at *
  let u := counted x y n s
  have entry : ∀ m, entryOf (u.jct.lane m) n = entryOf (s.jct.lane m) n := fun m => by rw [counted_jct]; rfl
  have rail : ∀ m, (u.lane m).ctl.railHeld = false := fun m => by rw [counted_lane]; cases m <;> assumption
  obtain ⟨agree, matched⟩ := digests_compared (s := u) (counted_role.trans active) (counted_role.trans standby) ((entry l).trans own)
    ((entry l.other).trans other)
  have agree : mismatch u n = false := agree.trans (by rw [same, bne_self_eq_false])
  have matched : digestsMatch u n = true := matched.trans (by rw [same, beq_self_eq_true])
  have clean : verdictCode u n l = 0 := verdictCode_clean (counted_judged.trans (by simp [judged, inService, active]))
    (by rw [counted_role, active]; decide)
    (firstCode_clean (rail l) ((entry l).trans own) (counted_devRun evenA evenB) canaryP healthP agree) agree
  have cleanOther : verdictCode u n l.other = 0 := verdictCode_clean (counted_judged.trans (by simp [judged, inService, standby]))
    (by rw [counted_role, standby]; decide)
    (firstCode_clean (rail l.other) ((entry l.other).trans other) (counted_devRun evenA evenB) canaryQ healthQ agree) agree
  have judgedClean : judgeEntries x y n s = judgedLanes n u := by
    cases l
    · exact judgeEntries_clean clean cleanOther
    · exact judgeEntries_clean cleanOther clean
  refine .run rfl ((if_pos ⟨runs, started, by rwa [hn]⟩).trans ((congrArg (fun k => judgeEntries x y k s) hn).trans judgedClean))
    ⟨judgedLanes_decision, (judgedLanes_matches l.other matched).trans ?_⟩
  rw [counted_jct]
  rfl

end Verdict

/-! ## What happens to a lane (R277) -/

theorem roleOf_congr {s t : State} {l} (h : t.jct = s.jct) : roleOf t l = roleOf s l := by
  unfold roleOf
  rw [h]

theorem afterStandbyLoss_jct {s} : (afterStandbyLoss s).jct = s.jct := (afterStandbyLoss_only (l := .a)).1 .jct (by decide)

theorem afterStandbyLoss_bk {s} : (afterStandbyLoss s).bk = s.bk := (afterStandbyLoss_only (l := .a)).1 .bk (by decide)

/-- What a failure of lane l leaves of the Junction: its record is that of a lane reset once more, the rest stays. -/
theorem junctionFail_jct {l code s} : (junctionFail l code s).jct = ((setRole l
    (if 2 ≤ (lastHour s (s.jct.lane l).resetTimes).length then .excluded else .failed) s).jct.modLane l fun j =>
      { j with resets := j.resets + 1, resetTimes := nowNs s :: lastHour s (s.jct.lane l).resetTimes, matches_ := 0, held := code == 4
               aborted := 0, devRun := 0, reported := false, beats := false }) := by
  have third : (3 ≤ (nowNs s :: lastHour s (s.jct.lane l).resetTimes).length) = (2 ≤ (lastHour s (s.jct.lane l).resetTimes).length) := by
    rw [List.length_cons]
    exact propext ⟨fun h => by omega, fun h => by omega⟩
  unfold junctionFail
  simp only [third]
  cases l <;> rfl

theorem junctionFail_congr {l code} {s t : State} (jct : t.jct = s.jct) (clk : t.clk = s.clk) :
    (junctionFail l code t).jct = (junctionFail l code s).jct := by
  rw [junctionFail_jct, junctionFail_jct]
  unfold setRole lastHour nowNs
  rw [jct, clk]

theorem junctionFail_bk {l code s} : (junctionFail l code s).bk = (latchCause 10 s).bk := by cases l <;> rfl

/-- A lane's unconfirmed image is marked failed and its activation aborted before the lane fails (R407). -/
def imageFailed (l : Lane) (s : State) : State := if unconfirmed (s.lane l) then abortSeq (markFailed l s) else s

theorem imageFailed_only {l s} : Only [.upd] l [.slots] [] s (imageFailed l s) := by
  unfold imageFailed
  split
  · exact Only.step (Only.step Only.refl markFailed_only) abortSeq_only
  · exact Only.refl

theorem imageFailed_fails {l code s} : (junctionFail l code (imageFailed l s)).jct = (junctionFail l code s).jct :=
  junctionFail_congr (imageFailed_only.1 .jct (by decide)) (imageFailed_only.1 .clk (by decide))

theorem failLane_fails {l code s} : (failLane l code s).jct = (junctionFail l code s).jct ∧
    (failLane l code s).bk = (latchCause 10 s).bk := by
  have image : (junctionFail l code (imageFailed l s)).bk = (latchCause 10 s).bk :=
    junctionFail_bk.trans (congrArg (fun b : Backup => ({ b with
      resetLatches := b.resetLatches ||| BitVec.ofNat 16 (2 ^ 10), lastReset := BitVec.ofNat 8 10 } : Backup))
      (imageFailed_only.1 .bk (by decide)))
  have run : failLane l code s = (if decide (roleOf s l = .standby) then afterStandbyLoss (junctionFail l code (imageFailed l s))
      else junctionFail l code (imageFailed l s)) := rfl
  rw [run]
  split
  · exact ⟨afterStandbyLoss_jct.trans imageFailed_fails, afterStandbyLoss_bk.trans image⟩
  · exact ⟨imageFailed_fails, image⟩

theorem failLane_modes {l code s} (h : roleOf s l ≠ .standby) : (failLane l code s).modes = s.modes := by
  have run : failLane l code s = junctionFail l code (imageFailed l s) := if_neg (by rw [decide_eq_false h]; exact Bool.false_ne_true)
  rw [run, junctionFail_only.1 .modes (by decide), imageFailed_only.1 .modes (by decide)]

/-- A demotion for anything but a receiver's link leaves lane l SHADOWING with no match counted. -/
theorem demoteLane_mild {l c s} (h : c ≠ 7) : ∃ n, demoteLane l c s = modJct (fun j => j.modLane l fun (k : JLane) =>
    { k with demotions := k.demotions + 1, matches_ := 0, aborted := n }) (setRole l .shadowing s) := ⟨_, if_neg fun k => h k.1⟩

theorem demoteOther_demotes {l c s} (mild : c ≠ 7) (image : unconfirmed (s.lane l) = false) :
    (∃ n, (demoteOther l c s).jct = (modJct (fun j => j.modLane l fun (k : JLane) =>
      { k with demotions := k.demotions + 1, matches_ := 0, aborted := n }) (setRole l .shadowing s)).jct) ∧ (demoteOther l c s).bk = s.bk := by
  obtain ⟨n, demoted⟩ := demoteLane_mild (l := l) (s := s) mild
  have run : demoteOther l c s = if decide (roleOf s l = .standby) then afterStandbyLoss (demoteLane l c s) else demoteLane l c s := by
    unfold demoteOther abortIfUnconfirmed
    exact if_neg (by rw [image]; exact Bool.false_ne_true)
  rw [run, demoted]
  split
  · exact ⟨⟨n, afterStandbyLoss_jct⟩, afterStandbyLoss_bk⟩
  · exact ⟨⟨n, rfl⟩, rfl⟩

/-- The role, the mark and the cause move to the new lane; nothing else of the Junction does. -/
theorem moveToLane_jct {new cause s} : (moveToLane new cause s).jct =
    (modJct (fun j => { j with mark := some new, lastCause := BitVec.ofNat 8 cause }) (setRole new .active s)).jct := by
  have moved : ∀ t : State, (evtLane new (eventReq .loadProfileLost 127 []) t).jct = t.jct := fun _ => evtLane_jct ..
  have flushed : ∀ t : State, (flushSigned new t).jct = t.jct := fun _ => (flushSigned_only (l := new)).1 .jct (by decide)
  have emptied : ∀ t : State, (emptyTransmit new t).jct = t.jct := fun _ => (emptyTransmit_only (l := new)).1 .jct (by decide)
  unfold moveToLane
  dsimp only
  split
  · rw [moved, flushed, evtLane_jct, emptied]
    rfl
  · rw [flushed, evtLane_jct, emptied]
    rfl

/-- The crossover in progress from the old lane to the other one, the links at neither. -/
def laneCrossing (old : Lane) (c : Nat) (s : State) : State :=
  modJct (fun j => { j with mux := none
                            cross := some { at_ := s.clk.period + 1, lane := old.other, cause := BitVec.ofNat 8 c, planned := false } }) (idleLinks s)

theorem unplannedCrossover_jct {old c s} : (unplannedCrossover old c true s).jct = (modJct (fun j =>
    { j with mark := some old.other, lastCause := BitVec.ofNat 8 c }) (setRole old.other .active (junctionFail old c (laneCrossing old c s)))).jct := by
  have run : unplannedCrossover old c true s =
      cancelSwap (moveToLane old.other c (junctionFail old c (imageFailed old (laneCrossing old c s)))) := rfl
  rw [run, (cancelSwap_only (l := old)).1 .jct (by decide), moveToLane_jct]
  unfold setRole modJct
  rw [imageFailed_fails]

theorem idleLinks_modes {s} : (idleLinks s).modes = s.modes := rfl

theorem junctionRuns_modes {s} (h : junctionRuns s = true) : s.modes.mode ≠ .boot ∧ s.modes.mode ≠ .backup := by
  simp only [junctionRuns, Bool.and_eq_true, bne_iff_ne] at h
  exact ⟨h.1.2, h.2⟩

/-! ## The combination of the verdicts -/

section Combine

variable {s : State} {l : Lane} {c o : Nat}

theorem isFail_none : isFail s l 0 = false := by simp [isFail]

theorem isFail_absent : isFail s l 1 = true := rfl

theorem isFail_hot : isFail s l 5 = false := by simp [isFail]

theorem isDemote_none : isDemote s l 0 = false := rfl

theorem isDemote_hot : isDemote s l 5 = true := by
  unfold isDemote
  rw [isFail_hot]
  rfl

theorem otherVerdict_none : otherVerdict l 0 s = s := by simp [otherVerdict, isFail_none, isDemote_none]

theorem activeVerdict_none : activeVerdict l 0 o s = s := by simp [activeVerdict, isFail_none, isDemote_none]

theorem activeVerdict_crosses (h : roleOf s l.other = .standby) : activeVerdict l 1 0 s = unplannedCrossover l 1 true s := by
  simp [activeVerdict, isFail_absent, h]

theorem activeVerdict_alone (h : roleOf s l.other ≠ .standby) : activeVerdict l 1 0 s = noLaneLeft (failLane l 1 s) := by
  simp [activeVerdict, isFail_absent, h]

theorem activeLane_role (h : activeLane s = some l) : roleOf s l = .active := by
  unfold activeLane at h
  split at h
  next a => exact (Option.some.inj h) ▸ a
  · split at h
    next b => exact (Option.some.inj h) ▸ b
    · exact absurd h (by simp)

end Combine

/-- With no STOP and at most one lane failed, the active lane's verdict comes before the other's. -/
theorem combine_orders {s : State} {d : Decision} {l : Lane} (active : activeLane s = some l) (cool : d.code l ≠ 4) (coolOther : d.code l.other ≠ 4)
    (one : isFail s l (d.code l) = false ∨ isFail s l.other (d.code l.other) = false) :
    combineVerdicts d.codeA.toNat d.codeB.toNat s = otherVerdict l.other (d.code l.other) (activeVerdict l (d.code l) (d.code l.other) s) := by
  unfold combineVerdicts
  cases l with
  | a =>
    change d.codeA.toNat ≠ 4 at cool
    change d.codeB.toNat ≠ 4 at coolOther
    change isFail s .a d.codeA.toNat = false ∨ isFail s .b d.codeB.toNat = false at one
    rw [if_neg (by simp [cool, coolOther]), if_neg (by rcases one with h | h <;> simp [h]), active]
    rfl
  | b =>
    change d.codeB.toNat ≠ 4 at cool
    change d.codeA.toNat ≠ 4 at coolOther
    change isFail s .b d.codeB.toNat = false ∨ isFail s .a d.codeA.toNat = false at one
    rw [if_neg (by simp [cool, coolOther]), if_neg (by rcases one with h | h <;> simp [h]), active]
    rfl

/-! ## The decision boundary -/

/-- The decision is taken from the Junction. -/
def decided (s : State) : State := modJct (fun j => { j with decision := none }) s

theorem decided_lane {s l} : (decided s).jct.lane l = s.jct.lane l := by cases l <;> rfl

theorem decided_role {s l} : roleOf (decided s) l = roleOf s l := congrArg JLane.role decided_lane

theorem takeEffect_none {s : State} (h : s.jct.decision = none) : Completes .verdictTakeEffect s fun t => t = s := by
  refine .run rfl ?_ rfl
  unfold verdictTakeEffectEffect
  rw [h]

theorem takeEffect_early {s : State} {d} (h : s.jct.decision = some d) (early : s.clk.period < d.at_) :
    Completes .verdictTakeEffect s fun t => t = s := by
  refine .run rfl ?_ rfl
  unfold verdictTakeEffectEffect
  rw [h]
  exact if_neg fun k => absurd k.2 (by omega)

section Boundary

variable {s : State} {d : Decision} {l : Lane} (stands : s.jct.decision = some d) (runs : junctionRuns s = true) (due : d.at_ ≤ s.clk.period)
  (active : activeLane s = some l)
include stands runs due active

/-- The verdicts act in their order; the Junction, the mode and the backup domain are then what they left. -/
theorem takeEffect_acts {P : State → Prop} {u : State} (cool : d.code l ≠ 4) (coolOther : d.code l.other ≠ 4)
    (one : d.code l = 0 ∨ d.code l.other = 0)
    (acts : otherVerdict l.other (d.code l.other) (activeVerdict l (d.code l) (d.code l.other) (decided s)) = u)
    (h : ∀ t : State, t.jct = u.jct → t.modes = u.modes → t.bk = u.bk → P t) : Completes .verdictTakeEffect s P := by
  have chosen : activeLane (decided s) = some l := active
  have single : isFail (decided s) l (d.code l) = false ∨ isFail (decided s) l.other (d.code l.other) = false := by
    rcases one with k | k
    · exact .inl (by rw [k]; exact isFail_none)
    · exact .inr (by rw [k]; exact isFail_none)
  have run : verdictTakeEffectEffect s = recheckSpares u := by
    unfold verdictTakeEffectEffect
    rw [stands]
    refine (if_pos ⟨runs, due⟩).trans (congrArg recheckSpares ?_)
    exact (combine_orders chosen cool coolOther single).trans acts
  have kept := recheckSpares_only (s := u) (l := .a)
  exact .run rfl run (h _ (kept.1 .jct (by decide)) (kept.1 .modes (by decide)) (kept.1 .bk (by decide)))

/-- A failing lane that is not the active one is reset. -/
theorem takeEffect_otherFails (quiet : d.code l = 0) (absent : d.code l.other = 1) : Completes .verdictTakeEffect s fun t =>
    roleOf t l = .active ∧ roleOf t l.other = (if 2 ≤ (lastHour s (s.jct.lane l.other).resetTimes).length then .excluded else .failed) ∧
    (t.jct.lane l.other).resets = (s.jct.lane l.other).resets + 1 ∧ t.bk.resetLatches = s.bk.resetLatches ||| 0x400 := by
  obtain ⟨fails, latched⟩ := failLane_fails (l := l.other) (code := 1) (s := decided s)
  refine takeEffect_acts stands runs due active (by omega) (by omega) (.inl quiet) (u := failLane l.other 1 (decided s)) ?_ fun t jct _ bk => ?_
  · rw [quiet, absent, activeVerdict_none]
    exact if_pos isFail_absent
  have role := activeLane_role active
  unfold roleOf at role ⊢
  rw [jct, bk, fails, latched, junctionFail_jct]
  cases l <;> exact ⟨role, rfl, rfl, rfl⟩

/-- A demoted lane that is not the active one becomes SHADOWING without a reset. -/
theorem takeEffect_otherDemoted (quiet : d.code l = 0) (hot : d.code l.other = 5) (image : unconfirmed (s.lane l.other) = false) :
    Completes .verdictTakeEffect s fun t =>
      roleOf t l = .active ∧ roleOf t l.other = .shadowing ∧ t.bk = s.bk ∧ (t.jct.lane l.other).matches_ = 0 := by
  obtain ⟨jct, bk⟩ := demoteOther_demotes (l := l.other) (c := 5) (s := decided s) (by decide) (by rw [← image]; cases l <;> rfl)
  refine takeEffect_acts stands runs due active (by omega) (by omega) (.inl quiet) (u := demoteOther l.other 5 (decided s)) ?_
    fun t tjct _ tbk => ?_
  · rw [quiet, hot, activeVerdict_none]
    exact (if_neg (by rw [isFail_hot]; exact Bool.false_ne_true)).trans (if_pos isDemote_hot)
  have role := activeLane_role active
  obtain ⟨n, record⟩ := jct
  unfold roleOf at role ⊢
  rw [tjct, tbk, bk, record]
  cases l <;> exact ⟨role, rfl, rfl, rfl⟩

/-- A failing active lane hands its links to a standby lane without a verdict. -/
theorem takeEffect_crosses (absent : d.code l = 1) (quiet : d.code l.other = 0) (standby : roleOf s l.other = .standby) :
    Completes .verdictTakeEffect s fun t =>
      t.jct.mark = some l.other ∧ t.jct.mux = none ∧ roleOf t l.other = .active ∧ roleOf t l ≠ .active ∧
      t.jct.cross = some { at_ := s.clk.period + 1, lane := l.other, cause := 1, planned := false } := by
  refine takeEffect_acts stands runs due active (by omega) (by omega) (.inr quiet) (u := unplannedCrossover l 1 true (decided s)) ?_
    fun t jct _ _ => ?_
  · rw [absent, quiet, otherVerdict_none]
    exact activeVerdict_crosses (decided_role.trans standby)
  unfold roleOf
  rw [jct, unplannedCrossover_jct]
  cases l
  all_goals
    refine ⟨rfl, rfl, rfl, ?_, rfl⟩
    show (if _ then Role.excluded else Role.failed) ≠ .active
    split <;> decide

/-- A failing active lane without another one leads to SAFE on cause 5. -/
theorem takeEffect_noLane (absent : d.code l = 1) (quiet : d.code l.other = 0) (alone : roleOf s l.other ≠ .standby) (mode : s.modes.mode ≠ .safe) :
    Completes .verdictTakeEffect s fun t => t.modes.mode = .safe ∧ t.modes.safeCause = 5 ∧ t.jct.mark = none ∧ t.jct.mux = none := by
  have role := activeLane_role active
  have fails : (failLane l 1 (decided s)).modes = s.modes := failLane_modes (by rw [decided_role, role]; decide)
  refine takeEffect_acts stands runs due active (by omega) (by omega) (.inr quiet) (u := noLaneLeft (failLane l 1 (decided s))) ?_
    fun t jct modes _ => ?_
  · rw [absent, quiet, otherVerdict_none]
    exact activeVerdict_alone (by rwa [decided_role])
  obtain ⟨boot, backup⟩ := junctionRuns_modes runs
  obtain ⟨safe, cause, _⟩ := takeSafe_entered (c := 5) (s := idleLinks (failLane l 1 (decided s)))
    (by rw [idleLinks_modes, fails]; exact boot) (by rw [idleLinks_modes, fails]; exact backup) (by rw [idleLinks_modes, fails]; exact mode)
  rw [modes, jct]
  exact ⟨safe, cause, rfl, rfl⟩

end Boundary

/-! ## The links follow (R278) -/

theorem steerTo_jct {l s} : (steerTo l s).jct =
    { s.jct with mux := some l, cross := none, crossovers := s.jct.crossovers + 1, lastAt := BitVec.ofNat 64 s.clk.period } :=
  sendFrames_only (l := .a) |>.1 .jct (by decide)

theorem shiftMode_modes {m s} : (shiftMode m s).modes.mode = m ∧ (shiftMode m s).modes.pending = s.modes.pending ∧
    (shiftMode m s).jct = s.jct := by
  refine ⟨?_, rfl, (shiftMode_only (l := .a)).1 .jct (by decide)⟩
  have entered : (goMode m s).modes.mode = m := by
    unfold goMode
    dsimp only
    split
    · rw [enterMode_modes]
    · rw [bothLanes_modes, enterMode_modes]
  exact entered

theorem enable_none {s : State} (h : s.jct.cross = none) : Completes .crossoverOutputEnable s fun t => t = s := by
  refine .run rfl ?_ rfl
  unfold crossoverEnableEffect
  rw [h]

theorem enable_steers {s : State} {c : Crossover} (stands : s.jct.cross = some c) (runs : junctionRuns s = true) (unplanned : c.planned = false)
    (due : c.at_ ≤ s.clk.period) : Completes .crossoverOutputEnable s fun t =>
      t.jct.mux = some c.lane ∧ t.jct.cross = none ∧ t.jct.crossovers = s.jct.crossovers + 1 ∧
      t.modes.pending = s.modes.pending ∧ t.modes.mode = if s.modes.mode = .run ∧ laneCount s < 2 then .degraded else s.modes.mode := by
  have modes : (steerTo c.lane s).modes = s.modes := (steerTo_only (l := c.lane)).1 .modes (by decide)
  have count : laneCount (steerTo c.lane s) = laneCount s := by
    unfold laneCount inService roleOf Junction.lane
    rw [steerTo_jct]
  have run : crossoverEnableEffect s = if s.modes.mode = .run ∧ laneCount s < 2 then shiftMode .degraded (steerTo c.lane s)
      else steerTo c.lane s := by
    unfold crossoverEnableEffect
    rw [stands]
    refine (if_pos ⟨runs, unplanned, due⟩).trans ?_
    dsimp only
    rw [modes, count]
  refine .run rfl run ?_
  split
  · obtain ⟨mode, pending, jct⟩ := shiftMode_modes (m := .degraded) (s := steerTo c.lane s)
    rw [jct, steerTo_jct, pending, modes, mode]
    exact ⟨rfl, rfl, rfl, rfl, rfl⟩
  · rw [steerTo_jct, modes]
    exact ⟨rfl, rfl, rfl, rfl, rfl⟩

/-- Settles O32, the entries first, then the decision boundary and the links. -/
theorem junctionVerdictAndCrossover : Obligations.JunctionVerdictAndCrossover :=
  ⟨fun _ _ _ => verdict_stays,
    fun _ _ _ _ runs started new known => ⟨verdict_rail runs started new known, verdict_absent runs started new known,
      verdict_canary runs started new known⟩,
    fun _ _ _ _ _ _ runs started new => verdict_matches runs started new, fun _ => takeEffect_none, fun _ _ => takeEffect_early,
    fun _ _ _ stands runs due active => ⟨takeEffect_otherFails stands runs due active, takeEffect_otherDemoted stands runs due active,
      takeEffect_crosses stands runs due active, takeEffect_noLane stands runs due active⟩,
    fun _ => enable_none, fun _ _ => enable_steers⟩

end Sys2Proof.Machine
end

section
/-! PROOF. Planned crossovers and the release of excluded and held lanes (R277, R280). -/

namespace Sys2Proof.Machine

set_option Elab.async false

/-! ## Host requests (R277, R280) -/

section Requests

variable {s : State} (writes : writable s = true) (active : (activeLane s).isSome = true)
include writes active

/-- A request in range has its effect once it is answered; one out of range is answered alone. -/
theorem hostRange_requested {ok f} : hostRange (writable s) ok f s = if ok then f (respond 0 [] s) else respond 0x06090030 [] s := by
  rw [writes]
  cases ok
  · exact hostRange_rejected active
  · exact hostRange_taken active

theorem crossoverRequest_waits : Completes (.plannedCrossoverRequest 1) s fun t => t.jct = { s.jct with planReq := true, result := 1 } :=
  .run rfl (hostRange_requested writes active) rfl

theorem crossoverRequest_outside (v : U8) (h : v ≠ 1) : Completes (.plannedCrossoverRequest v) s fun t => t.jct = s.jct := by
  refine .run rfl (hostRange_requested writes active) ?_
  rw [beq_false_of_ne h]
  rfl

theorem releaseExcludedLane_completes {l : Lane} {P : State → Prop} (h : P (releaseEffect l (respond 0 [] s))) :
    Completes (.releaseExcludedLane (BitVec.ofNat 8 (laneNum (some l)))) s P := by
  cases l
  all_goals exact .run rfl (hostRange_requested writes active) h

theorem release_excluded (l : Lane) (h : roleOf s l = .excluded) : Completes (.releaseExcludedLane (BitVec.ofNat 8 (laneNum (some l)))) s fun t =>
    roleOf t l = .booting ∧ t.jct.result = 0 ∧ (t.lane l).ctl.bootStep = 0 := by
  refine releaseExcludedLane_completes writes active ?_
  rw [releaseEffect, if_pos (.inl h)]
  cases l <;> exact ⟨rfl, rfl, rfl⟩

theorem release_refused (l : Lane) (h : roleOf s l ≠ .excluded) (booted : (s.lane l).ctl.recovery = false) :
    Completes (.releaseExcludedLane (BitVec.ofNat 8 (laneNum (some l)))) s fun t => t.jct = { s.jct with result := 7 } := by
  refine releaseExcludedLane_completes writes active ?_
  rw [releaseEffect, if_neg]
  · rfl
  · rw [respond_lane, booted]
    exact fun k => k.elim h Bool.false_ne_true

end Requests

/-! ## Planned crossovers (R280) -/

theorem plannedTaken_waits {s} (h : s.jct.planReq = false ∨ atShare s = false) : Completes .plannedCrossoverTaken s fun t => t = s :=
  .run rfl (if_neg (by rcases h with h | h <;> simp [h])) rfl

section Taken

variable {s : State} (req : s.jct.planReq = true) (share : atShare s = true) (runs : junctionRuns s = true) (free : s.jct.cross = none)
include req share runs free

/-- What is taken of a request at a share-cycle boundary. -/
theorem plannedTaken_run : plannedTakenEffect s = (match plannedRefusal s, standbyLane s with
    | 0, some l => modJct (fun j => { j with planReq := false, cross := some { at_ := s.clk.period + 40, lane := l, cause := 0xFF, planned := true } }) s
    | _, _ => modJct (fun j => { j with planReq := false, result := BitVec.ofNat 8 (plannedRefusal s) }) s) := by
  refine (if_pos (by simp [req, share, runs, free])).trans ?_
  rfl

theorem plannedTaken_refused (h : plannedRefusal s ≠ 0) : Completes .plannedCrossoverTaken s fun t =>
    t.jct = { s.jct with planReq := false, result := BitVec.ofNat 8 (plannedRefusal s) } := by
  refine .run rfl (plannedTaken_run req share runs free) ?_
  split
  next k _ => exact absurd k h
  · rfl

theorem plannedTaken_taken (l : Lane) (mode : s.modes.mode = .run) (standby : standbyLane s = some l)
    (matched : 1000 ≤ (s.jct.lane l).matches_.toNat) (swap : s.sets.st ≠ .swapPending) (waiting : s.modes.waiting = none) :
    Completes .plannedCrossoverTaken s fun t => t.jct =
      { s.jct with planReq := false, cross := some { at_ := s.clk.period + 40, lane := l, cause := 0xFF, planned := true } } := by
  have accepted : plannedRefusal s = 0 := by
    simp [plannedRefusal, mode, standby, Nat.not_lt.mpr matched, swap, waiting]
  refine .run rfl (plannedTaken_run req share runs free) ?_
  rw [accepted, standby]
  rfl

end Taken

theorem plannedCrossover_none {s} (h : s.jct.cross = none) : Completes .plannedCrossover s fun t => t = s := by
  refine .run rfl ?_ rfl
  unfold plannedCrossoverEffect
  rw [h]

/-- The links go straight to lane l, and the other one becomes its standby lane with l's matches. -/
def crossedOver (l : Lane) (n : U16) (s : State) : State :=
  modJct (fun j => (j.modLane l.other fun (k : JLane) => { k with matches_ := n }))
    (modJct (fun j => { j with result := 0 }) (steerTo l (moveToLane l 0xFF (setRole l.other .standby s))))

theorem crossedOver_slots {l n s} : ((crossedOver l n s).lane l.other).slots = (s.lane l.other).slots := by
  have steered : ∀ t : State, ((steerTo l t).lane l.other).slots = (t.lane l.other).slots := fun t => (steerTo_only (l := l)).2.2 .slots (by decide)
  have moved : ∀ t : State, ((moveToLane l 0xFF t).lane l.other).slots = (t.lane l.other).slots := fun t =>
    (moveToLane_only (l := l)).2.2 .slots (by decide)
  exact (steered _).trans ((moved _).trans (congrArg LaneState.slots setRole_lane))

theorem crossedOver_jct {l n s} : (crossedOver l n s).jct.mux = some l ∧ (crossedOver l n s).jct.mark = some l ∧
    (crossedOver l n s).jct.cross = none ∧ (crossedOver l n s).jct.crossovers = s.jct.crossovers + 1 ∧ (crossedOver l n s).jct.result = 0 ∧
    roleOf (crossedOver l n s) l = .active ∧ roleOf (crossedOver l n s) l.other = .standby ∧
    ((crossedOver l n s).jct.lane l.other).matches_ = n := by
  unfold crossedOver roleOf
  simp only [modJct_jct, steerTo_jct, moveToLane_jct]
  cases l <;> exact ⟨rfl, rfl, rfl, rfl, rfl, rfl, rfl, rfl⟩

theorem plannedCrossover_crosses {s : State} {c : Crossover} (stands : s.jct.cross = some c) (runs : junctionRuns s = true)
    (planned : c.planned = true) (due : c.at_ ≤ s.clk.period) (standby : roleOf s c.lane = .standby)
    (image : ((s.lane c.lane.other).slots.slot (s.lane c.lane.other).slots.current).failed = false) : Completes .plannedCrossover s fun t =>
      t.jct.mux = some c.lane ∧ t.jct.mark = some c.lane ∧ t.jct.cross = none ∧ t.jct.crossovers = s.jct.crossovers + 1 ∧ t.jct.result = 0 ∧
      roleOf t c.lane = .active ∧ roleOf t c.lane.other = .standby ∧ (t.jct.lane c.lane.other).matches_ = (s.jct.lane c.lane).matches_ := by
  refine .run rfl (t := crossedOver c.lane (s.jct.lane c.lane).matches_ s) ?_ crossedOver_jct
  unfold plannedCrossoverEffect
  rw [stands]
  refine (if_pos ⟨runs, planned, due, standby⟩).trans (if_neg ?_)
  have slots := crossedOver_slots (l := c.lane) (n := (s.jct.lane c.lane).matches_) (s := s)
  exact fun failed => absurd (image.symm.trans ((congrArg (fun d : SlotDir => (d.slot d.current).failed) slots).symm.trans failed)) Bool.false_ne_true

/-! ## The end of the 60 s (R277) -/

theorem failedRelease_restarts {s : State} {l} (held : (s.jct.lane l).held = true) (failed : roleOf s l = .failed) (runs : s.jct.lost = false) :
    Completes (.failedLaneRelease l) s fun t =>
      roleOf t l = .booting ∧ (t.jct.lane l).held = false ∧ roleOf t l.other = roleOf s l.other := by
  refine .run rfl (if_pos (by simp [held, failed, runs])) ?_
  cases l <;> exact ⟨rfl, rfl, rfl⟩

theorem failedRelease_stays {s : State} {l} (held : (s.jct.lane l).held = false) : Completes (.failedLaneRelease l) s fun t => t = s :=
  .run rfl (if_neg (by simp [held])) rfl

/-- Settles O33, the requests first, then what is taken of them. -/
theorem plannedCrossoverAndReleases : Obligations.PlannedCrossoverAndReleases :=
  ⟨fun _ writes active => ⟨crossoverRequest_waits writes active, crossoverRequest_outside writes active, release_excluded writes active,
      release_refused writes active⟩,
    fun _ => plannedTaken_waits,
    fun _ req share runs free => ⟨plannedTaken_refused req share runs free, plannedTaken_taken req share runs free⟩,
    fun _ => plannedCrossover_none, fun _ _ => plannedCrossover_crosses, fun _ _ => failedRelease_restarts, fun _ _ => failedRelease_stays⟩

end Sys2Proof.Machine
end

section
/-! PROOF. Resynchronisation, the self-tests and the loss of the Junction (R281-R284, Tables 13.8 and 13.9). -/

namespace Sys2Proof.Machine

set_option Elab.async false

/-! ## Naming and capturing (R281) -/

theorem ceil40_next {n} : ceil40 n % 40 = 0 ∧ n ≤ ceil40 n ∧ ceil40 n < n + 40 := by
  unfold ceil40
  omega

theorem joinNamed_none {s} (h : joiner s = none) : Completes .resyncJoinNamed s fun t => t = s := by
  refine .run rfl ?_ rfl
  unfold joinNamedEffect
  rw [h]

theorem joinNamed_names {s l} (h : joiner s = some l) (runs : junctionRuns s = true) (free : s.jct.cross = none) :
    Completes .resyncJoinNamed s fun t => roleOf t l = .shadowing ∧ (t.jct.lane l).attempts = (s.jct.lane l).attempts + 1 ∧
      ∃ q, (t.jct.lane l).join = some q ∧ q % 40 = 0 ∧ s.clk.period + 80 ≤ q ∧ q < s.clk.period + 120 := by
  have run : joinNamedEffect s = modJct (fun j => j.modLane l fun (k : JLane) =>
      { k with join := some (ceil40 (s.clk.period + 80)), attempts := k.attempts + 1 }) (setRole l .shadowing s) := by
    unfold joinNamedEffect
    rw [h]
    exact if_pos ⟨runs, free⟩
  refine .run rfl run ?_
  cases l
  all_goals exact ⟨rfl, rfl, _, rfl, ceil40_next⟩

section Joining

variable {s : State}

theorem slowCapture_none (h : joining s = none) : Completes .snapshotSlowCapture s fun t => t = s := by
  refine .run rfl ?_ rfl
  unfold slowCaptureEffect
  rw [h]

theorem resyncJoin_none (h : joining s = none) : Completes .resyncJoin s fun t => t = s := by
  refine .run rfl ?_ rfl
  unfold resyncJoinEffect
  rw [h]

variable {l : Lane} {q : Nat} (attempt : joining s = some (l, q)) (active : (activeLane s).isSome = true)
include attempt active

theorem slowCapture_captures (due : s.clk.period + 40 = q) :
    Completes .snapshotSlowCapture s fun t => (t.jct.lane l).captured = true := by
  have run : slowCaptureEffect s = modJct (fun j => j.modLane l fun (k : JLane) => { k with captured := true }) s := by
    unfold slowCaptureEffect
    rw [attempt]
    exact if_pos ⟨due, active⟩
  refine .run rfl run ?_
  rw [modJct_jct, Junction.lane_modLane]

/-- What becomes of an attempt under an active lane. -/
theorem resyncJoin_run : resyncJoinEffect s =
    if s.clk.period < q ∨ (s.jct.lane l).joined then s
    else if s.jct.cross ≠ none ∨ (s.jct.lane l).captured = false ∨ s.jct.lost then setRole l .shadowing s
    else modJct (fun j => j.modLane l fun (k : JLane) => { k with joined := true, joinMatches := 0 })
      (s.modLane l (joinLane (s.lane l.other))) := by
  obtain ⟨other, chosen⟩ := Option.isSome_iff_exists.mp active
  unfold resyncJoinEffect
  rw [attempt, chosen]

theorem resyncJoin_early (early : s.clk.period < q) : Completes .resyncJoin s fun t => t = s :=
  .run rfl ((resyncJoin_run attempt active).trans (if_pos (.inl early))) rfl

variable (due : q ≤ s.clk.period) (apart : (s.jct.lane l).joined = false)
include due apart

theorem resyncJoin_aborts (h : (s.jct.lane l).captured = false ∨ s.jct.cross ≠ none) : Completes .resyncJoin s fun t =>
    roleOf t l = .shadowing ∧ (t.jct.lane l).join = none ∧ t.lane l = s.lane l := by
  have run : resyncJoinEffect s = setRole l .shadowing s := (resyncJoin_run attempt active).trans
    ((if_neg (by simp [apart, Nat.not_lt.mpr due])).trans (if_pos (h.symm.imp_right .inl)))
  refine .run rfl run ?_
  cases l <;> exact ⟨rfl, rfl, rfl⟩

omit attempt active due apart in
/-- The joining lane takes the active lane's outputs and grants; its accumulators stay its own. -/
theorem joinLane_takes {act x : LaneState} : (joinLane act x).relay = act.relay ∧ (joinLane act x).out = act.out ∧
    (joinLane act x).latched = act.latched ∧ (joinLane act x).share = { act.share with bayAcc := x.share.bayAcc, strAcc := x.share.strAcc } := by
  have kept : ∀ y, LaneOnly [.bayLoops, .modLoops, .strLoops, .slowLoops, .tiles] y (joinBlocks act (joinLoops act y)) := fun _ =>
    LaneOnly.step (LaneOnly.step LaneOnly.refl joinLoops_only) joinBlocks_only
  have relay := fun y => kept y .relay (by decide)
  have out := fun y => kept y .out (by decide)
  have latched := fun y => kept y .latched (by decide)
  have share := fun y => kept y .share (by decide)
  unfold joinLane
  dsimp only
  rw [relay, out, latched, share]
  exact ⟨rfl, rfl, rfl, rfl⟩

theorem resyncJoin_joins (captured : (s.jct.lane l).captured = true) (free : s.jct.cross = none) (runs : s.jct.lost = false) :
    Completes .resyncJoin s fun t =>
      (t.jct.lane l).joined = true ∧ (t.lane l).relay = (s.lane l.other).relay ∧ (t.lane l).out = (s.lane l.other).out ∧
      (t.lane l).latched = (s.lane l.other).latched ∧ (t.lane l).share.bayAcc = (s.lane l).share.bayAcc ∧
      (t.lane l).share.gb = (s.lane l.other).share.gb := by
  refine .run rfl ((resyncJoin_run attempt active).trans ((if_neg (by simp [apart, Nat.not_lt.mpr due])).trans
    (if_neg (by simp [captured, free, runs])))) ?_
  obtain ⟨relay, out, latched, share⟩ := joinLane_takes (act := s.lane l.other) (x := s.lane l)
  rw [modJct_lane, State.lane_modLane, relay, out, latched, share, modJct_jct, Junction.lane_modLane]
  exact ⟨rfl, rfl, rfl, rfl, rfl, rfl⟩

end Joining

/-! ## The end of an attempt (R282) -/

theorem resyncComplete_lost {s} (h : junctionRuns s = false) : Completes .resyncComplete s fun t => t = s :=
  .run rfl (if_pos (by rw [h]; rfl)) rfl

theorem resyncComplete_open {s} (a : resyncDone s .a = false) (b : resyncDone s .b = false) : Completes .resyncComplete s fun t => t = s := by
  refine .run rfl ?_ rfl
  unfold resyncCompleteEffect
  split
  · rfl
  · rw [a, b]
    rfl

theorem resyncComplete_run {s l} (runs : junctionRuns s = true) (done : resyncDone s l = true) (open_ : resyncDone s l.other = false) :
    resyncCompleteEffect s = completeResync l s := by
  refine (if_neg (by rw [runs]; decide)).trans ?_
  cases l with
  | a => exact if_pos done
  | b => exact (if_neg (by rw [show resyncDone s .a = false from open_]; decide)).trans (if_pos done)

/-- Lane l has become a standby lane with its event written, the mode not yet changed. -/
def standbyJoined (l : Lane) (s : State) : State :=
  let s := setRole l .standby s
  let s := modJct (fun j => j.modLane l fun (k : JLane) => { k with resyncs := k.resyncs + 1, aborted := 0 }) s
  let s := s.modLane l fun x => { x with slots := (let d := x.slots; { d with cleanSince := nowNs s })
                                         ctl := (let c := x.ctl; { c with bootStep := 8 }) }
  evt (eventReq .resync 127 [laneNum (some l)]) s

theorem standbyJoined_joins {l s} : roleOf (standbyJoined l s) l = .standby ∧
    ((standbyJoined l s).jct.lane l).resyncs = (s.jct.lane l).resyncs + 1 ∧ (standbyJoined l s).modes = s.modes := by
  unfold standbyJoined roleOf
  dsimp only
  rw [evt_jct, evt_modes]
  cases l <;> exact ⟨rfl, rfl, rfl⟩

theorem completeResync_completes {l s} : roleOf (completeResync l s) l = .standby ∧
    ((completeResync l s).jct.lane l).resyncs = (s.jct.lane l).resyncs + 1 ∧ (completeResync l s).modes.pending = s.modes.pending ∧
    (completeResync l s).modes.mode = if s.modes.mode = .degraded then .run else s.modes.mode := by
  obtain ⟨role, count, modes⟩ := standbyJoined_joins (l := l) (s := s)
  have run : completeResync l s = recheckSpares (if (standbyJoined l s).modes.mode = .degraded then shiftMode .run (standbyJoined l s)
      else standbyJoined l s) := rfl
  have kept := fun t : State => recheckSpares_only (s := t) (l := l)
  have jct := fun t => (kept t).1 .jct (by decide)
  have mode := fun t => (kept t).1 .modes (by decide)
  rw [run, roleOf_congr (jct _), jct, mode, modes]
  split
  · obtain ⟨entered, pending, same⟩ := shiftMode_modes (m := .run) (s := standbyJoined l s)
    rw [roleOf_congr same, same, pending, entered, modes]
    exact ⟨role, count, rfl, rfl⟩
  · rw [modes]
    exact ⟨role, count, rfl, rfl⟩

/-! ## Self-tests (R283) -/

section Tests

variable {s : State} {l : Lane}

theorem march_waits {ok} (h : marches s l = false) : Completes (.memoryMarchBlock l ok) s fun t => t = s :=
  .run rfl (if_neg (by rw [h]; decide)) rfl

theorem march_fails (h : marches s l = true) : Completes (.memoryMarchBlock l false) s fun t => (t.lane l).health.memory = true := by
  refine .run rfl (if_pos h) ?_
  rw [State.lane_modLane]
  exact Bool.or_true _

theorem march_goesOn (h : marches s l = true) (more : (s.lane l).ctl.marchPos < 528383) : Completes (.memoryMarchBlock l true) s fun t =>
    (t.lane l).health = (s.lane l).health ∧ (t.lane l).ctl.marchPos = (s.lane l).ctl.marchPos + 1 := by
  refine .run rfl (if_pos h) ?_
  rw [State.lane_modLane]
  refine ⟨?_, if_neg ?_⟩
  · show { (s.lane l).health with memory := (s.lane l).health.memory || false } = (s.lane l).health
    rw [Bool.or_false]
  · show ¬ 528384 ≤ (s.lane l).ctl.marchPos + 1
    omega

theorem loopTest_passes {n : Fin 64} : Completes (.receiverLoopTest l n true) s fun t => t = s :=
  .run rfl (if_neg (by simp)) rfl

theorem loopTest_fails {n : Fin 64} (works : computing s l = true) (untyped : linkType s n = 0) :
    Completes (.receiverLoopTest l n false) s fun t => (t.lane l).health.testFail = true ∧ n.val ∈ (t.lane l).ctl.failedRx := by
  refine .run rfl (if_pos (by simp [works, untyped])) ?_
  have kept := recheckSpares_only (s := s.modLane l (rxTestLane n)) (l := l)
  rw [kept.2.1 .health (by decide), kept.2.1 .ctl (by decide), State.lane_modLane]
  refine ⟨rfl, ?_⟩
  show n.val ∈ ((s.lane l).ctl.failedRx ++ [n.val]).eraseDups
  simp

end Tests

/-! ## The loss and the restart of the Junction (R284) -/

theorem junctionRestart_runs {s : State} (h : s.jct.lost = false) : Completes .junctionRestart s fun t => t = s :=
  .run rfl (if_neg (by simp [h])) rfl

theorem junctionRestart_restarts {s : State} (lost : s.jct.lost = true) (boot : s.modes.mode ≠ .boot) (backup : s.modes.mode ≠ .backup)
    (rail : Rail.vjct ∉ s.rails.out) : Completes .junctionRestart s fun t =>
      t.jct.lost = false ∧ (∀ l, roleOf t l = roleOf s l ∧ (t.jct.lane l).matches_ = 0 ∧ (t.lane l).health.jctLost = false) ∧
      t.jct.mux = s.jct.mux := by
  refine .run rfl (if_pos ⟨lost, boot, backup, by simpa using rail⟩) ⟨rfl, fun l => ?_, rfl⟩
  cases l <;> exact ⟨rfl, rfl, rfl⟩

theorem romCheck_fails {s : State} (h : s.jct.lost = false) : Completes (.junctionRomCheck false) s fun t =>
    t.jct.lost = true ∧ t.jct.safeN = .hiZ := by
  obtain ⟨lost, _, floats, _⟩ := junctionLose_lost h
  exact .run rfl (if_neg Bool.false_ne_true) ⟨lost, floats⟩

/-- Settles O34, in the order of an attempt to join, then the self-tests and the Junction. -/
theorem resynchronisationAndSelfTests : Obligations.ResynchronisationAndSelfTests :=
  ⟨fun _ => joinNamed_none, fun _ _ => joinNamed_names, fun _ h => ⟨slowCapture_none h, resyncJoin_none h⟩,
    fun _ _ _ attempt due active => slowCapture_captures attempt active due, fun _ _ _ => resyncJoin_early, fun _ _ _ => resyncJoin_aborts,
    fun _ _ _ => resyncJoin_joins, fun _ => resyncComplete_lost, fun _ => resyncComplete_open,
    fun _ _ runs done open_ => .run rfl (resyncComplete_run runs done open_) completeResync_completes,
    fun _ _ _ => march_waits, fun _ _ => march_fails, fun _ _ => march_goesOn, fun _ _ _ => loopTest_passes, fun _ _ _ => loopTest_fails,
    fun _ => junctionRestart_runs, fun _ => junctionRestart_restarts, fun _ => .run rfl (if_pos rfl) rfl, fun _ => romCheck_fails⟩

end Sys2Proof.Machine
end

section
/-! PROOF. The backup domain (R63, R288-R291, R296-R300): the RTC and what wakes the device, the tamper inputs, and the detections of
device-security tamper. -/

namespace Sys2Proof.Machine

set_option Elab.async false

/-! ## RTC and alarm (R288-R291) -/

theorem rtcCompare_waits {s} (h : activeLane s = none ∨ fromPtp s = false ∨ nowNs s < s.site.compared + 10000000000) :
    Completes .rtcSiteTimeCompare s fun t => t = s := by
  refine .run rfl (if_neg ?_) rfl
  rcases h with h | h | h
  · simp [h]
  · simp [h]
  · simp [Nat.not_le.mpr h]

section Compare

variable {s : State} (active : (activeLane s).isSome = true) (ptp : fromPtp s = true) (due : s.site.compared + 10000000000 ≤ nowNs s)
include active ptp due

theorem rtcCompare_steps (far : 3276800 < ((timeTicks s.site.ns : Int) - s.bk.rtc.toNat).natAbs * 1000) :
    Completes .rtcSiteTimeCompare s fun t =>
      t.bk = { s.bk with rtc := BitVec.ofNat 64 (timeTicks s.site.ns), invalid := false } ∧ t.met = s.met := by
  refine .run rfl ((if_pos (by simp [active, ptp, due])).trans (if_pos far)) ⟨?_, ?_⟩
  · rw [modBk_bk, evt_bk]
  · exact evt_met _ _

theorem rtcCompare_agrees (near : ((timeTicks s.site.ns : Int) - s.bk.rtc.toNat).natAbs * 1000 ≤ 3276800) :
    Completes .rtcSiteTimeCompare s fun t => t = { s with site := { s.site with compared := nowNs s } } :=
  .run rfl ((if_pos (by simp [active, ptp, due])).trans (if_neg (Nat.not_lt.mpr near))) rfl

end Compare

section Alarm

variable {s : State}

theorem alarm_waits (h : s.bk.alarm = 0 ∨ s.bk.invalid = true ∨ s.bk.rtc.toNat < s.bk.alarm.toNat) :
    Completes .rtcAlarm s fun t => t = s := by
  refine .run rfl (if_neg fun k => ?_) rfl
  obtain ⟨set, valid, reached⟩ := k
  rcases h with h | h | h
  · exact set h
  · exact absurd (h.symm.trans valid) (by decide)
  · omega

variable (set : s.bk.alarm ≠ 0) (valid : s.bk.invalid = false) (reached : s.bk.alarm.toNat ≤ s.bk.rtc.toNat)
include set valid reached

theorem alarm_wakes (backup : s.modes.mode = .backup) : Completes .rtcAlarm s fun t =>
    t.bk.pwrEn = true ∧ t.bk.resetLatches = s.bk.resetLatches ||| 2 :=
  .run rfl ((if_pos ⟨set, valid, reached⟩).trans (if_pos backup)) ⟨rfl, rfl⟩

theorem alarm_told (awake : s.modes.mode ≠ .backup) : Completes .rtcAlarm s fun t => t.bk = s.bk :=
  .run rfl ((if_pos ⟨set, valid, reached⟩).trans (if_neg awake)) (evt_bk _ _)

end Alarm

theorem hostWrite_refused_bk {f s} : (hostWrite false f s).bk = s.bk := by
  unfold hostWrite
  split <;> rfl

theorem rtcWrite_sets {s v} (writes : writable s = true) (active : (activeLane s).isSome = true) :
    Completes (.rtcWrite v) s fun t => t.bk = { s.bk with rtc := v, invalid := false } :=
  hostWrite_completes rfl writes active ((reselect_only (l := .a)).1 .bk (by decide))

theorem rtcWrite_refused {s v} (h : writable s = false) : Completes (.rtcWrite v) s fun t => t.bk = s.bk :=
  .run rfl (by rw [h]) hostWrite_refused_bk

/-! ## Wake-up (R63) -/

theorem wakeUp_awake {s} (h : s.modes.mode ≠ .backup) : Completes .pfiWake s (fun t => t = s) ∧ Completes .wakeD s fun t => t = s :=
  ⟨.run rfl (if_neg h) rfl, .run rfl (if_neg fun k => h k.1) rfl⟩

/-! ## Tamper inputs (R296, R297) -/

theorem tamperLatch_latches {s} {i : Fin 4} (len : s.bk.inputs.length = 4) (used : cfgN s (0x2621 + i) 1 ≠ 0) :
    Completes (.tamperInputLatch i) s fun t =>
      (nth t.bk.inputs i).latched = true ∧ (nth t.bk.inputs i).latest = s.bk.rtc ∧ (nth t.bk.inputs i).latestValid = !s.bk.invalid ∧
      (nth t.bk.inputs i).acked = false ∧ ∀ j : Fin 4, j ≠ i → nth t.bk.inputs j = nth s.bk.inputs j := by
  refine .run rfl (if_neg used) ?_
  have latched : nth (upd s.bk.inputs i (TampIn.latch s.bk.rtc (!s.bk.invalid))) i = TampIn.latch s.bk.rtc (!s.bk.invalid) (nth s.bk.inputs i) :=
    nth_upd_self _ _ _ (by omega)
  rw [modBk_bk, latched]
  exact ⟨rfl, rfl, rfl, rfl, fun j h => nth_upd_ne _ _ _ _ fun k => h (Fin.ext k.symm)⟩

theorem tamperHandover_tells {s} : Completes .tamperHandover s fun t => t.bk = s.bk ∧ t.met = s.met ∧ (toHandOver s = [] → t = s) := by
  have kept := tamperHandoverEffect_only (s := s) (l := .a)
  refine .run rfl rfl ⟨kept.1 .bk (by decide), kept.1 .met (by decide), fun none => ?_⟩
  unfold tamperHandoverEffect
  rw [none]
  exact ite_self s

theorem tamperClear_clears {s} {m : U8} (len : s.bk.inputs.length = 4) (writes : writable s = true) (active : (activeLane s).isSome = true)
    (may : mayClear s m = true) : Completes (.tamperLatchClear m) s fun t => ∀ i : Fin 4,
      nth t.bk.inputs i = if m.getLsbD i then { nth s.bk.inputs i with latched := false } else nth s.bk.inputs i :=
  hostWrite_completes rfl (by rw [writes, may]; rfl) active fun i => nth_mapIdx _ _ _ (by rw [respond_bk]; omega)

theorem tamperClear_refused {s} {m : U8} (may : mayClear s m = false) : Completes (.tamperLatchClear m) s fun t => t.bk = s.bk :=
  .run rfl (by rw [may, Bool.and_false]) hostWrite_refused_bk

/-! ## Security detections (R298-R300) -/

/-- A detection of a class is counted, and told unless the power fails. -/
def detected (c : Nat) (s : State) : State :=
  let s := modBk (fun k => { k with secCounts := upd k.secCounts c (· + 1) }) s
  if s.bk.pfActive then s else evt (eventReq .securityTamper 127 [c + 1]) s

theorem detected_only {c l s} : Only [.bk] l [.evq] [.evq] s (detected c s) := by
  unfold detected
  dsimp only
  split
  · exact Only.step Only.refl modBk_only
  · exact Only.step (Only.step Only.refl modBk_only) evt_only

theorem detected_bk {c s} : (detected c s).bk = { s.bk with secCounts := upd s.bk.secCounts c (· + 1) } := by
  unfold detected
  dsimp only
  split
  · rfl
  · rw [evt_bk]
    rfl

theorem detected_ks {c s l} : ((detected c s).lane l).ks = (s.lane l).ks := detected_only.2.1 .ks (by decide)

theorem securityTamper_backup {s sc} {c : Fin 3} (backup : s.modes.mode = .backup) (class_ : c ≠ 2) :
    Completes (.securityTamper c sc) s fun t => t = s := .run rfl (if_pos ⟨backup, fun k => class_ (Fin.ext k)⟩) rfl

theorem securityTamper_lane {s} {c : Fin 3} {l : Lane} (awake : s.modes.mode ≠ .backup) (class_ : c ≠ 2) :
    Completes (.securityTamper c (.lane l)) s fun t =>
      t.bk = { s.bk with secCounts := upd s.bk.secCounts c (· + 1) } ∧ (t.lane l).ks = ((s.lane l).ks.tamperAbort).zeroise ∧
      (t.lane l.other).ks = (s.lane l.other).ks := by
  have other : c.val ≠ 2 := fun k => class_ (Fin.ext k)
  have run : securityTamperEffect c (.lane l) s = (detected c s).modLane l securityLane := by
    unfold securityTamperEffect
    rw [if_neg fun k => awake k.1]
    dsimp only
    rw [if_neg other, if_neg other]
    rfl
  refine .run rfl run ⟨(State.modLane_bk _ _ _).trans detected_bk, ?_, ?_⟩
  · rw [State.lane_modLane, securityLane, detected_ks]
  · rw [State.lane_modLane_other, detected_ks]

/-- A breach clears the keystores of both lanes before what the mode makes of it. -/
theorem securityTamper_mesh {s sc} : securityTamperEffect 2 sc s = breachEffect (bothLanes securityLane (detected 2 s)) :=
  if_neg fun k => k.2 rfl

theorem securityTamper_latched {s sc} (backup : s.modes.mode = .backup) : Completes (.securityTamper 2 sc) s fun t =>
    t.bk = { s.bk with secCounts := upd s.bk.secCounts 2 (· + 1), breach := true } ∧
    ∀ l, (t.lane l).ks = ((s.lane l).ks.tamperAbort).zeroise := by
  have mode : (bothLanes securityLane (detected 2 s)).modes = s.modes :=
    (bothLanes_modes _ _).trans ((detected_only (l := .a)).1 .modes (by decide))
  refine .run rfl (securityTamper_mesh.trans (if_pos (.inl (by rw [mode]; exact backup)))) ⟨?_, fun l => ?_⟩
  · rw [modBk_bk, bothLanes_bk, detected_bk]
  · refine Eq.trans (b := ((detected 2 s).lane l).ks.tamperAbort.zeroise) ?_ (by rw [detected_ks])
    cases l <;> rfl

theorem securityTamper_returns {s sc} (awake : s.modes.mode ≠ .backup) (runs : s.rails.inReset = false) (field : lifeCode s.life.fuse = 2) :
    Completes (.securityTamper 2 sc) s fun t => t.life.fuse = s.life.fuse ||| 0x3F ∧ t.bk.lastReset = 15 ∧ t.modes.mode = .boot := by
  have kept := detected_only (c := 2) (s := s) (l := .a)
  generalize hu : bothLanes securityLane (detected 2 s) = u
  have mode : u.modes = s.modes := by rw [← hu]; exact (bothLanes_modes _ _).trans (kept.1 .modes (by decide))
  have rails : u.rails = s.rails := by rw [← hu]; exact (bothLanes_rails _ _).trans (kept.1 .rails (by decide))
  have life : u.life = s.life := by rw [← hu]; exact (bothLanes_life _ _).trans (kept.1 .life (by decide))
  have exit : ∀ t : State, (safeExit t).life = t.life := fun _ => (safeExit_only (l := .a)).1 .life (by decide)
  obtain ⟨boot, _, cause, _⟩ := plainReset_safeExit (c := 15) (s := lifeDestroy 3 u)
  refine .run rfl (securityTamper_mesh.trans ((congrArg breachEffect hu).trans ((if_neg ?_).trans (if_pos ?_)))) ⟨?_, cause, boot⟩
  · rw [mode, rails, runs]
    exact fun k => k.elim awake Bool.false_ne_true
  · rw [life]
    exact field
  · rw [plainReset_fuse, exit, lifeDestroy_fuse, life]
    rfl

/-- Settles O35, from the RTC to the device-security tamper. -/
theorem backupAndTamper : Obligations.BackupAndTamper :=
  ⟨fun _ => rtcCompare_waits, fun _ active ptp due => ⟨rtcCompare_steps active ptp due, rtcCompare_agrees active ptp due⟩, fun _ => alarm_waits,
    fun _ set valid reached => ⟨alarm_wakes set valid reached, alarm_told set valid reached⟩, fun _ _ => rtcWrite_sets,
    fun _ _ => rtcWrite_refused, fun _ => wakeUp_awake, fun _ backup => .run rfl (if_pos backup) ⟨rfl, rfl, rfl⟩,
    fun _ backup armed => .run rfl (if_pos ⟨backup, armed⟩) ⟨rfl, rfl⟩, fun _ _ unused => .run rfl (if_pos unused) rfl,
    fun _ _ => tamperLatch_latches, fun _ => tamperHandover_tells, fun _ _ => tamperClear_clears, fun _ _ => tamperClear_refused,
    fun _ _ _ => securityTamper_backup, fun _ _ _ => securityTamper_lane, fun _ _ => securityTamper_latched,
    fun _ _ => securityTamper_returns⟩

end Sys2Proof.Machine
end
